-- ==== Sys2Proof/Word.lean ====
section
/-! DEFINITION. The word types of the manual and their plainest arithmetic. -/

namespace Sys2Proof

/-- A byte of memory. -/
abbrev Byte := BitVec 8
/-- A register word. -/
abbrev W32 := BitVec 32
/-- A token payload or a command word. -/
abbrev W64 := BitVec 64

/-- Bits [hi:lo] of a word, as the manual writes a bit range (R6). -/
def bitsOf {w : Nat} (x : BitVec w) (lo width : Nat) : Nat := (x.toNat >>> lo) % 2 ^ width

/-- One bit of a word. -/
def bitOf {w : Nat} (x : BitVec w) (i : Nat) : Bool := x.toNat.testBit i

/-- Rounded-up division, the manual's ceil(a / b). -/
def ceilDiv (a b : Nat) : Nat := (a + b - 1) / b

/-- The value of little-endian bytes (R151). -/
def leNat : List Byte → Nat
  | [] => 0
  | b :: bs => b.toNat + 256 * leNat bs

/-- The n little-endian bytes of a value (R151). -/
def leBytes : Nat → Nat → List Byte
  | 0, _ => []
  | n + 1, v => BitVec.ofNat 8 v :: leBytes n (v / 256)

/-- The items of a list from index `i`, `n` of them at most. -/
def sliceOf {α : Type} (l : List α) (i n : Nat) : List α := (l.drop i).take n

/-- The two's complement value of the low `w` bits of `v`. -/
def toSigned (w : Nat) (v : Nat) : Int := if v % 2 ^ w < 2 ^ (w - 1) then (v % 2 ^ w : Nat) else (v % 2 ^ w : Nat) - (2 ^ w : Nat)

end Sys2Proof
end

