-- ==== Sys2Proof/Payload.lean ====
section
/-! DEFINITION. What a command carries: the packets, frames and records that arrive from outside, and the names of
sources, places and times that the events of the module are about. A duration, a temperature, a current or the number of
clock periods that went by is an operand of the command that reports it, because the model has no clock of its own
(log entry 2). -/

namespace Sys2Proof

/-- A region number (R13). -/
abbrev RegionId := Fin 112
/-- A cluster by its defect-map index y × 80 + x (R14). -/
abbrev ClusterId := Fin 8960
/-- Bytes that have lost their parity before a command of a matrix unit reads them (R144, R238): addresses in cluster memory, and the n-blocks for which a byte of
the weight buffer or the accumulator has. -/
structure MuUpsets where
  mem : List Nat
  storage : List Nat
  deriving DecidableEq, Repr
/-- A cluster at which a command reads memory, with the addresses whose bytes have lost their parity before it does (R238). -/
structure ClusterRead where
  cluster : ClusterId
  upsets : List Nat
  deriving DecidableEq, Repr
/-- A cluster whose epilogue takes a tile pair, with the bytes that have lost their parity before it does, those of the n-blocks that the folder runs next among
them, and whether the epilogue buffer gives a byte of bad parity (R144). -/
structure EpilogueRead where
  cluster : ClusterId
  upsets : MuUpsets
  pair : Bool
  deriving DecidableEq, Repr
/-- A Zhevide port (R20). -/
abbrev PortId := Fin 64
/-- A job queue (R385). -/
abbrev QueueId := Fin 256

/-- A reference source (R39). -/
inductive Src where
  | refA | refB | rcv
  deriving DecidableEq, Repr

/-- Where an input detector stands: at a region, at the root of the reference tree, or at the MCLK generator (R40, R48, R427). -/
inductive Site where
  | region (r : RegionId)
  | root
  | mclk
  deriving DecidableEq, Repr

/-- The high time of a reference period, as the decoder classifies it (R43). -/
inductive HighTime where
  | quarter | half | threeQuarters
  deriving DecidableEq, Repr

/-- What a tick instant observes outside the model: the measured energy of the completed tick in µJ (R86), and whether every
finish report of the region's ephemeris came at least 200 ns before the instant (R200). -/
structure TickObs where
  energy : Nat
  barLead : Bool
  deriving DecidableEq, Repr

/-- The way a register access or a token reaches the dome controller (R408, R421, R429): the host's BAR0, MCTP, or the dome
firmware. -/
inductive Via where
  | bar0 | mctp | firmware
  deriving DecidableEq, Repr

/-- A register that a write names: by its dome offset, by its offset in the page of a region, port or cluster (space 3), in the bridge's
HIF_ block, in a queue's block, or in BAR4. -/
inductive RegAddr where
  | dome (off : Nat)
  | page (r : RegionId) (off : Nat)
  | port (p : PortId) (off : Nat)
  | cluster (c : ClusterId) (off : Nat)
  | hif (off : Nat)
  | queue (q : QueueId) (off : Nat)
  | bar4 (off : Nat)
  deriving DecidableEq, Repr

/-- A finding of built-in self-test or store training (R28, R36): a router, the logic or SRAM of a cluster, its store training as a whole,
or a fault in a sub-array or a spare (36, 37) of a store wafer. -/
inductive Finding where
  | router (c : ClusterId)
  | logic (c : ClusterId)
  | sram (c : ClusterId)
  | training (c : ClusterId)
  | store (c : ClusterId) (wafer : Fin 4) (sub : Fin 38)
  deriving DecidableEq, Repr

/-- What step 1 observes of the module's identity (R416): whether the CRC of the helper data's copy on each device is valid, the public key derived from the seed, and
the public key of the device certificate in the NOR. -/
structure IdentityObs where
  crc0 : Bool
  crc1 : Bool
  derived : List Byte
  cert : List Byte
  deriving DecidableEq, Repr

/-- Whether the identity is that of the certificate: one copy of the helper data serves, and the keys are equal (R416). -/
def IdentityObs.ok (o : IdentityObs) : Bool := (o.crc0 || o.crc1) && o.derived == o.cert

/-- What a step of the start sequence observes (R409): the identity, whether the counter store is intact, the findings of self-test or training, the
generators still in FAULT, and the step's duration in ms. -/
structure StartObs where
  identity : IdentityObs
  counters : Bool
  findings : List Finding
  ms : Nat
  deriving DecidableEq, Repr

/-- Who holds a packet that ages out (R309): a router's input buffer, or the reorder pool's stream. -/
inductive Holder where
  | router (plane : Fin 2) (port : Fin 5) (i : Nat)
  | pool (stream : Nat)
  deriving DecidableEq, Repr

/-- The agents of a cluster that track items (R310, R318): the transit engine, the table unit, or a host-bridge attachment. -/
inductive Agent where
  | te | tu | attach
  deriving DecidableEq, Repr

/-- The transports of the SPDM responder, each with a connection of its own (R417). -/
inductive Transport where
  | doe | smbus | i3c
  deriving DecidableEq, Repr

/-- A GET_CERTIFICATE request: its transport, and the certificate slot that it names (R417). -/
structure CertReq where
  transport : Transport
  slot : Nat
  deriving DecidableEq, Repr

/-- Where a vendor-defined register message reads or writes (R429): OFFSET, and whether the message has the length of its command's row, with N equal to the words
that follow it. -/
structure MctpAt where
  off : Nat
  whole : Bool
  deriving DecidableEq, Repr

/-- A packet (R293): the header fields, the 16-bit age with its fine part (R294), the payload as eight words (R297), and for a packet that one
port adapter forwards to another through the mesh the HOPS and VC of its outgoing link word (R337; log entry 15). -/
structure Pkt where
  opc : Nat
  dmod : Nat
  dy : Nat
  dx : Nat
  dep : Nat
  smod : Nat
  sy : Nat
  sx : Nat
  sep : Nat
  chan : Nat
  seq : Nat
  age : Nat
  last : Bool
  mcast : Bool
  poison : Bool
  plate : Bool
  rsv : Nat
  pay : List W64
  link : Option (Nat × Nat)
  deriving DecidableEq, Repr

/-- A packet in a port's buffers with its link word (R330): HOPS, VC and class (0 REQ, 1 RSP). -/
structure LinkPkt where
  hops : Nat
  vc : Nat
  cls : Nat
  pkt : Pkt
  deriving DecidableEq, Repr

/-- A finder message's adjacency of one port (R342): port, peer identity, peer port, direction and latency. -/
structure Adj where
  port : Nat
  peer : Nat
  peerPort : Nat
  dir : Nat
  lat : Nat
  deriving DecidableEq, Repr

/-- An adjacency record (R342): the module's identity, its version, ROOT, TOPO and dimensions, its present ID, and one `Adj` per UP
port. -/
structure AdjRec where
  fid : Nat
  version : Nat
  root : Bool
  topo : Nat
  dimx : Nat
  dimy : Nat
  modId : Option Nat
  links : List Adj
  deriving DecidableEq, Repr

/-- A collimation record (R362). -/
structure ColRec where
  repeated : Bool
  nondet : Bool
  src : Nat
  dst : Nat
  set : Nat
  interval : Nat
  digest : Nat
  count : Nat
  fid : Nat
  deriving DecidableEq, Repr

/-- What a DATA or FINDER frame carries (R330): packets, an adjacency record or a collimation record. -/
inductive FrameBody where
  | data (pkts : List LinkPkt)
  | finder (r : AdjRec)
  | col (r : ColRec)
  deriving DecidableEq, Repr

/-- The instructions of a die's TAP (R434). SAMPLE/PRELOAD is one instruction. -/
inductive TapInstr where
  | bypass | idcode | sample | extest
  deriving DecidableEq, Repr

/-- What a received frame says beside its contents (R330): whether it passed its CRC, whether a reserved field or KIND is set, the symbols that
its codewords had corrected and the codewords beyond correction (R349), FSEQ, ACKSEQ, NAKREQ, and the credits returned for the four (VC, class) pairs. -/
structure FrameHdr where
  good : Bool
  reserved : Bool
  fecCe : Nat
  fecUe : Nat
  fseq : Nat
  ackSeq : Nat
  nakReq : Bool
  credits : List Nat
  deriving DecidableEq, Repr

/-- Whether a received frame has a CRC failure: one with a reserved field set is treated as such a frame (R330). -/
def FrameHdr.crcBad (h : FrameHdr) : Bool := !h.good || h.reserved

/-- Whether a received frame is not discarded for what it is: it has no CRC failure and lies in no uncorrectable codeword (R333). -/
def FrameHdr.ok (h : FrameHdr) : Bool := !h.crcBad && h.fecUe == 0

/-- What a TRAIN column brings (R335): the peer's identity, port, locked lanes and time stamp, the echo of the port's own last time stamp, the peer's turnaround,
and the port's own time at the arrival, in ns. -/
structure TrainParams where
  fid : Nat
  port : Nat
  lanes : Nat
  stamp : Nat
  echo : Nat
  turnaround : Nat
  now : Nat
  deriving DecidableEq, Repr

/-- The one-way latency that an exchange measures (R335): half of the round trip less the peer's turnaround; time stamps have 32 bits. -/
def TrainParams.lat (t : TrainParams) : Nat := ((t.now + 2 ^ 32 - t.echo) % 2 ^ 32 - t.turnaround) / 2

/-- A 257-bit block on a lane (R328): its header bit, set for a control block, and its 32 bytes. -/
structure Block where
  lane : Nat
  ctl : Bool
  bytes : List Byte
  deriving DecidableEq, Repr

end Sys2Proof
end

