-- ==== Sys2Proof/Syntax.lean ====
section
/-! DEFINITION. The commands of the module: one constructor per row of the table of operations and events, in the table's order,
each with the rule that governs it. -/

namespace Sys2Proof

/-- A command: an operation or an event of the table, with its operands. -/
inductive Instr where
  /-- READY_RISE (R40) -/
  | readyRise (site : Site) (src : Src)
  /-- REFERENCE_LOSS (R57) -/
  | referenceLoss (site : Site) (src : Src)
  /-- READY_FREQ_LOSS (R40) -/
  | readyFreqLoss (site : Site) (src : Src)
  /-- DRV_SRC_WRITE (R41) -/
  | drvSrcWrite (r : RegionId) (v : W32)
  /-- TRC_SRC_WRITE (R54) -/
  | trcSrcWrite (r : RegionId) (v : W32)
  /-- MARKER_DECODE (R43) -/
  | markerDecode (r : RegionId) (high : HighTime) (periods : Nat) (obs : TickObs)
  /-- TICK_INSTANT (R45) -/
  | tickInstant (r : RegionId) (obs : TickObs)
  /-- LOCAL_TICK (R45) -/
  | localTick (r : RegionId) (obs : TickObs)
  /-- MASTER_MARKER_INSERT (R46) -/
  | masterMarkerInsert
  /-- MASTER_LOS (R48) -/
  | masterLos
  /-- ROOT_TICK (R69) -/
  | rootTick (ptm volt cur energy : Nat)
  /-- DRV_FREQ_WRITE (R50) -/
  | drvFreqWrite (r : RegionId) (v : W32)
  /-- RELOCK_LOCK (R53) -/
  | relockLock (r : RegionId) (ns : Nat)
  /-- RELOCK_TIMEOUT (R53) -/
  | relockTimeout (r : RegionId)
  /-- UNLOCK (R52) -/
  | unlock (r : RegionId)
  /-- ACQUIRE_LOCK (R53) -/
  | acquireLock (r : RegionId) (transit : Bool)
  /-- ACQUIRE_TIMEOUT (R53) -/
  | acquireTimeout (r : RegionId) (transit : Bool)
  /-- HOLDOVER_TIMEOUT (R58) -/
  | holdoverTimeout (r : RegionId)
  /-- TRANSIT_UNLOCK (R54) -/
  | transitUnlock (r : RegionId)
  /-- TRANSIT_REACQUIRE (R54) -/
  | transitReacquire (r : RegionId)
  /-- TRANSIT_REACQUIRE_TIMEOUT (R54) -/
  | transitReacquireTimeout (r : RegionId)
  /-- TRC_CTRL_WRITE (R55) -/
  | trcCtrlWrite (r : RegionId) (v : W32)
  /-- SEEING_STRETCH (R60) -/
  | seeingStretch (r : RegionId) (transit : Bool) (droopMv periods : Nat)
  /-- TCK_SNAP_READ (R68) -/
  | tckSnapRead
  /-- TCK_RNUM_READ (R72) -/
  | tckRnumRead (r : RegionId)
  /-- TCK_PERIOD_WRITE (R63) -/
  | tckPeriodWrite (v : W32)
  /-- TCK_CTRL_WRITE (R69) -/
  | tckCtrlWrite (v : W32)
  /-- GOLDEN_ROTATE (R300) -/
  | goldenRotate
  /-- ALMANAC_DEBIT (R80) -/
  | almanacDebit (r : RegionId) (aclk cclk tclk : Nat)
  /-- ALM_BAND_THR_WRITE (R79) -/
  | almBandThrWrite (r : RegionId) (v : W32)
  /-- ALM_COEF_WRITE (R79) -/
  | almCoefWrite (r : RegionId) (band : Fin 4) (cls : Fin 16) (v : W32)
  /-- ALM_RESERVE_WRITE (R97) -/
  | almReserveWrite (r : RegionId) (v : W32)
  /-- ALM_BAL_READ (R97) -/
  | almBalRead (r : RegionId)
  /-- CURRENT_LIMIT (R87) -/
  | currentLimit (r : RegionId) (deciAmps periods : Nat)
  /-- ALM_ENVELOPE_WRITE (R100) -/
  | almEnvelopeWrite (v : W32)
  /-- BREAKER_TRIP (R88) -/
  | breakerTrip (r : RegionId) (rail : Fin 6) (deciAmps : Nat)
  /-- FORCE_DARK (R90) -/
  | forceDark (r : RegionId)
  /-- INPUT_LOSS (R90) -/
  | inputLoss
  /-- INPUT_OVERVOLTAGE (R448) -/
  | inputOvervoltage
  /-- INPUT_RISE (R448) -/
  | inputRise
  /-- INPUT_RECONNECT (R448) -/
  | inputReconnect
  /-- SENSOR_CONVERSION (R91) -/
  | sensorConversion (r : RegionId) (quarterDegrees : List Nat)
  /-- DARK_THRESHOLD (R92) -/
  | darkThreshold (r : RegionId)
  /-- PARK_DRAIN_TIMEOUT (R93) -/
  | parkDrainTimeout (r : RegionId)
  /-- RAMP_DONE (R96) -/
  | rampDone (r : RegionId)
  /-- RAMP_FAIL (R96) -/
  | rampFail (r : RegionId)
  /-- THM_CTRL_WRITE (R99) -/
  | thmCtrlWrite (r : RegionId) (v : W32)
  /-- POWER_WAVE (R409) -/
  | powerWave
  /-- RING_INSERT (R106) -/
  | ringInsert (c : ClusterId) (stop : Fin 37) (out : Fin 2)
  /-- RING_RESERVE (R106) -/
  | ringReserve (c : ClusterId) (stop : Fin 37) (out : Fin 2)
  /-- RING_EJECT (R106) -/
  | ringEject (c : ClusterId) (stop : Fin 37) (ring : Fin 4) (good : Bool)
  /-- CREDIT_RETURN (R107) -/
  | creditReturn (c : ClusterId) (stop : Fin 37) (ring : Fin 4) (good : Bool)
  /-- MU_LANE_TOKEN (R126) -/
  | muLaneToken (c : ClusterId) (lane : Fin 8)
  /-- MU_CMD_ENQUEUE (R127) -/
  | muCmdEnqueue (c : ClusterId)
  /-- MU_LIST_RUN (R126) -/
  | muListRun (c : ClusterId)
  /-- MU_LIST_FETCH (R126) -/
  | muListFetch (c : ClusterId) (upsets : List Nat)
  /-- MU_NOP (R129) -/
  | muNop (c : ClusterId)
  /-- MATMUL (R134) -/
  | matmul (c : ClusterId) (upsets : MuUpsets)
  /-- MATMUL_SPARSE (R259) -/
  | matmulSparse (c : ClusterId) (upsets : MuUpsets)
  /-- MU_FAILED_RETIRE (R129) -/
  | muFailedRetire (c : ClusterId)
  /-- MU_EPILOGUE (R137) -/
  | muEpilogue (c : EpilogueRead)
  /-- MU_CMD_COMPLETE (R131) -/
  | muCmdComplete (c : ClusterId)
  /-- MU_COMPLETION_SEND (R131) -/
  | muCompletionSend (c : ClusterId) (b : Fin 8)
  /-- MU_CBIND_WRITE (R131) -/
  | muCbindWrite (c : ClusterId) (b : Fin 8) (v : W32)
  /-- ARM (R174) -/
  | arm (c : ClusterId) (e : Fin 32)
  /-- STALE_TOKEN_DISCARD (R172) -/
  | staleTokenDiscard (c : ClusterId) (e : Fin 32) (q : Fin 8)
  /-- CONTEXT_RUN_EMIT (R177) -/
  | contextRunEmit (c : ClusterId) (e : Fin 32) (x : Fin 8)
  /-- NLD_RESPONSE (R171) -/
  | nldResponse (c : ClusterId) (e : Fin 32) (ring : Fin 4) (good : Bool)
  /-- PASS (R180) -/
  | passOp (c : ClusterId) (e : Fin 32) (x : Fin 8)
  /-- IADD (R180) -/
  | iadd (c : ClusterId) (e : Fin 32) (x : Fin 8)
  /-- ISUB (R180) -/
  | isub (c : ClusterId) (e : Fin 32) (x : Fin 8)
  /-- IMUL (R180) -/
  | imul (c : ClusterId) (e : Fin 32) (x : Fin 8)
  /-- IMULH (R180) -/
  | imulh (c : ClusterId) (e : Fin 32) (x : Fin 8)
  /-- IAND (R180) -/
  | iand (c : ClusterId) (e : Fin 32) (x : Fin 8)
  /-- IOR (R180) -/
  | ior (c : ClusterId) (e : Fin 32) (x : Fin 8)
  /-- IXOR (R180) -/
  | ixor (c : ClusterId) (e : Fin 32) (x : Fin 8)
  /-- ISHL (R180) -/
  | ishl (c : ClusterId) (e : Fin 32) (x : Fin 8)
  /-- ISHR (R180) -/
  | ishr (c : ClusterId) (e : Fin 32) (x : Fin 8)
  /-- ISRA (R180) -/
  | isra (c : ClusterId) (e : Fin 32) (x : Fin 8)
  /-- IMIN (R180) -/
  | imin (c : ClusterId) (e : Fin 32) (x : Fin 8)
  /-- IMAX (R180) -/
  | imax (c : ClusterId) (e : Fin 32) (x : Fin 8)
  /-- ICMP (R180) -/
  | icmp (c : ClusterId) (e : Fin 32) (x : Fin 8)
  /-- IMAD (R180) -/
  | imad (c : ClusterId) (e : Fin 32) (x : Fin 8)
  /-- FADD (R180) -/
  | fadd (c : ClusterId) (e : Fin 32) (x : Fin 8)
  /-- FSUB (R180) -/
  | fsub (c : ClusterId) (e : Fin 32) (x : Fin 8)
  /-- FMUL (R180) -/
  | fmul (c : ClusterId) (e : Fin 32) (x : Fin 8)
  /-- FFMA (R180) -/
  | ffma (c : ClusterId) (e : Fin 32) (x : Fin 8)
  /-- FMIN (R180) -/
  | fmin (c : ClusterId) (e : Fin 32) (x : Fin 8)
  /-- FMAX (R180) -/
  | fmax (c : ClusterId) (e : Fin 32) (x : Fin 8)
  /-- FCMP (R180) -/
  | fcmp (c : ClusterId) (e : Fin 32) (x : Fin 8)
  /-- FRCP (R182) -/
  | frcp (c : ClusterId) (e : Fin 32) (x : Fin 8)
  /-- FRSQ (R182) -/
  | frsq (c : ClusterId) (e : Fin 32) (x : Fin 8)
  /-- FEXP2 (R182) -/
  | fexp2 (c : ClusterId) (e : Fin 32) (x : Fin 8)
  /-- FLOG2 (R182) -/
  | flog2 (c : ClusterId) (e : Fin 32) (x : Fin 8)
  /-- ACC (R180) -/
  | accOp (c : ClusterId) (e : Fin 32) (x : Fin 8)
  /-- VADD (R181) -/
  | vadd (c : ClusterId) (e : Fin 32) (x : Fin 8)
  /-- VMUL (R181) -/
  | vmul (c : ClusterId) (e : Fin 32) (x : Fin 8)
  /-- VFMA (R181) -/
  | vfma (c : ClusterId) (e : Fin 32) (x : Fin 8)
  /-- VMAX (R181) -/
  | vmax (c : ClusterId) (e : Fin 32) (x : Fin 8)
  /-- VMIN (R181) -/
  | vmin (c : ClusterId) (e : Fin 32) (x : Fin 8)
  /-- VDOT (R180) -/
  | vdot (c : ClusterId) (e : Fin 32) (x : Fin 8)
  /-- CVT (R183) -/
  | cvt (c : ClusterId) (e : Fin 32) (x : Fin 8)
  /-- CVTMX (R190) -/
  | cvtmx (c : ClusterId) (e : Fin 32) (x : Fin 8)
  /-- ZDET (R181) -/
  | zdet (c : ClusterId) (e : Fin 32) (x : Fin 8)
  /-- POPC (R180) -/
  | popc (c : ClusterId) (e : Fin 32) (x : Fin 8)
  /-- PENC (R187) -/
  | penc (c : ClusterId) (e : Fin 32) (x : Fin 8)
  /-- LD (R188) -/
  | ld (c : ClusterId) (e : Fin 32) (x : Fin 8) (upsets : List Nat)
  /-- ST (R188) -/
  | st (c : ClusterId) (e : Fin 32) (x : Fin 8)
  /-- NLD (R189) -/
  | nld (c : ClusterId) (e : Fin 32) (x : Fin 8)
  /-- NST (R189) -/
  | nst (c : ClusterId) (e : Fin 32) (x : Fin 8)
  /-- NACC (R189) -/
  | nacc (c : ClusterId) (e : Fin 32) (x : Fin 8)
  /-- SWITCH (R184) -/
  | switchOp (c : ClusterId) (e : Fin 32) (x : Fin 8)
  /-- MERGE (R184) -/
  | mergeOp (c : ClusterId) (e : Fin 32) (x : Fin 8)
  /-- MERGEA (R184) -/
  | mergea (c : ClusterId) (e : Fin 32) (x : Fin 8)
  /-- FILTER (R184) -/
  | filterOp (c : ClusterId) (e : Fin 32) (x : Fin 8)
  /-- REPEAT (R184) -/
  | repeatOp (c : ClusterId) (e : Fin 32) (x : Fin 8)
  /-- COUNT (R185) -/
  | countOp (c : ClusterId) (e : Fin 32) (x : Fin 8)
  /-- NCOUNT (R186) -/
  | ncount (c : ClusterId) (e : Fin 32) (x : Fin 8)
  /-- MCMD (R191) -/
  | mcmd (c : ClusterId) (e : Fin 32) (x : Fin 8) (upsets : List Nat)
  /-- SEND (R192) -/
  | send (c : ClusterId) (e : Fin 32) (x : Fin 8)
  /-- XFER (R193) -/
  | xfer (c : ClusterId) (e : Fin 32) (x : Fin 8) (upsets : List Nat)
  /-- DRAIN_AT_EXPIRY (R201) -/
  | drainAtExpiry (r : RegionId)
  /-- SOURCES_IDLE (R201) -/
  | sourcesIdle (r : RegionId)
  /-- DRAIN_REQ (R201) -/
  | drainReq (r : RegionId)
  /-- REGION_DRAINED (R202) -/
  | regionDrained (r : RegionId) (cclk : Nat)
  /-- DRAIN_TIMEOUT (R203) -/
  | drainTimeout (r : RegionId)
  /-- FORCED_REPLACEMENT (R208) -/
  | forcedReplacement (r : RegionId)
  /-- TCK_EPH_FORCE (R222) -/
  | tckEphForce (v : W32)
  /-- FORCED_EMPTY (R208) -/
  | forcedEmpty (r : RegionId)
  /-- FORCED_TIMEOUT (R209) -/
  | forcedTimeout (r : RegionId)
  /-- EPHEMERIS_LOAD (R218) -/
  | ephemerisLoad
  /-- STANDING_LOAD (R220) -/
  | standingLoad
  /-- NP_LOAD (R230) -/
  | npLoad (c : ClusterId) (q : Fin 8) (upsets : List Nat)
  /-- NP_STORE (R231) -/
  | npStore (c : ClusterId) (q : Fin 8)
  /-- NP_ADD_INT32 (R232) -/
  | npAddInt32 (c : ClusterId) (q : Fin 8) (upsets : List Nat)
  /-- NP_ADD_FP32 (R232) -/
  | npAddFp32 (c : ClusterId) (q : Fin 8) (upsets : List Nat)
  /-- NP_ADD_BF16 (R232) -/
  | npAddBf16 (c : ClusterId) (q : Fin 8) (upsets : List Nat)
  /-- NP_ACC_WRITEBACK (R232) -/
  | npAccWriteback (c : ClusterId) (q : Fin 8)
  /-- DACC_APPLY (R235) -/
  | daccApply (c : ClusterRead)
  /-- ASSEMBLY_WRITE (R236) -/
  | assemblyWrite (c : ClusterRead) (i : Fin 8)
  /-- ASSEMBLY_IDLE_FLUSH (R236) -/
  | assemblyIdleFlush (c : ClusterRead) (i : Fin 8)
  /-- CM_CTRL_WRITE (R241) -/
  | cmCtrlWrite (c : ClusterId) (v : W32)
  /-- DS_GRANULE_READ (R266) -/
  | dsGranuleRead (c : ClusterId) (i : Fin 64) (flips : List (Nat × Byte))
  /-- DS_GRANULE_WRITE (R266) -/
  | dsGranuleWrite (c : ClusterId) (i : Fin 64)
  /-- DS_PARTIAL_WRITE (R266) -/
  | dsPartialWrite (c : ClusterId) (i : Fin 64) (flips : List (Nat × Byte))
  /-- DS_ROW_CLOSE (R266) -/
  | dsRowClose (c : ClusterId) (bank : Nat)
  /-- DS_SCRUB (R268) -/
  | dsScrub (c : ClusterId) (flips : List (Nat × Byte))
  /-- DS_REFRESH (R269) -/
  | dsRefresh (c : ClusterId)
  /-- STORE_SENSOR_CONVERSION (R270) -/
  | storeSensorConversion (r : RegionId) (degrees : List (Option Nat))
  /-- TU_DOORBELL (R278) -/
  | tuDoorbell (c : ClusterId) (w0 w1 : W64)
  /-- TU_JOB_TOKEN (R280) -/
  | tuJobToken (c : ClusterId) (q : Fin 8)
  /-- TU_NOP (R279) -/
  | tuNop (c : ClusterId) (src : Fin 9)
  /-- BAG (R283) -/
  | tuBag (c : ClusterId) (src : Fin 9) (upsets : List Nat)
  /-- INSERT (R282) -/
  | tuInsert (c : ClusterId) (src : Fin 9)
  /-- EVICT (R282) -/
  | tuEvict (c : ClusterId) (src : Fin 9)
  /-- FLUSH (R282) -/
  | tuFlush (c : ClusterId) (src : Fin 9)
  /-- TU_GRANULE_ARRIVAL (R284) -/
  | tuGranuleArrival (c : ClusterId) (i : Nat)
  /-- TU_COMPLETION_SEND (R282) -/
  | tuCompletionSend (c : ClusterId) (b : Fin 8)
  /-- TU_COMMIT_GO (R288) -/
  | tuCommitGo (c : ClusterId)
  /-- TU_COMMIT_APPLY (R288) -/
  | tuCommitApply (c : ClusterId)
  /-- TU_IDX_SEL_WRITE (R291) -/
  | tuIdxSelWrite (c : ClusterId) (v : W32)
  /-- TU_IDX_FLAGS_WRITE (R291) -/
  | tuIdxFlagsWrite (c : ClusterId) (v : W32)
  /-- ROUTER_ARBITRATE (R299) -/
  | routerArbitrate (c : ClusterId) (plane : Fin 2) (headerErrs payloadErrs : List (Fin 5))
  /-- CROSSING_CREDIT (R302) -/
  | crossingCredit (c : ClusterId) (plane : Fin 2) (dir : Fin 4)
  /-- PACKET_AGE_OUT (R309) -/
  | packetAgeOut (c : ClusterId) (holder : Holder)
  /-- RD (R304) -/
  | rd (c : ClusterId) (upsets : List Nat)
  /-- RDR (R297) -/
  | rdr (c : ClusterId)
  /-- OPEN (R316) -/
  | openXfer (c : ClusterId)
  /-- DATA (R316) -/
  | dataPkt (c : ClusterId)
  /-- TOKEN (R312) -/
  | tokenPkt (c : ClusterId)
  /-- GET (R316) -/
  | getPkt (c : ClusterRead)
  /-- ACK (R307) -/
  | ack (c : ClusterId)
  /-- CREDIT (R312) -/
  | credit (c : ClusterId)
  /-- NAK (R297) -/
  | nak (c : ClusterId)
  /-- MDATA (R320) -/
  | mdata (c : ClusterId)
  /-- MFENCE (R321) -/
  | mfence (c : ClusterId)
  /-- MACK (R321) -/
  | mack (c : ClusterId)
  /-- POOL_GAP_TIMEOUT (R310) -/
  | poolGapTimeout (c : ClusterId) (i : Nat)
  /-- TRACKED_ITEM_TIMEOUT (R310) -/
  | trackedItemTimeout (c : ClusterId) (agent : Agent) (i : Nat)
  /-- ACK_DELAY_TIMEOUT (R307) -/
  | ackDelayTimeout (c : ClusterId) (i : Nat)
  /-- TOKEN_PACK_TIMEOUT (R312) -/
  | tokenPackTimeout (c : ClusterId) (i : Nat)
  /-- CREDIT_RETURN_TIMEOUT (R312) -/
  | creditReturnTimeout (c : ClusterId) (i : Nat)
  /-- TE_SEND_UNIT (R312) -/
  | teSendUnit (c : ClusterId) (q : Fin 8)
  /-- TE_NOP (R319) -/
  | teNop (c : ClusterId) (q : Fin 8)
  /-- PUT (R316) -/
  | put (c : ClusterId) (q : Fin 8) (upsets : List Nat)
  /-- TE_GET_XFER (R316) -/
  | teGetXfer (c : ClusterId) (q : Fin 8)
  /-- MCAST (R320) -/
  | mcast (c : ClusterId) (q : Fin 8) (upsets : List Nat)
  /-- TE_COMPLETION_SEND (R319) -/
  | teCompletionSend (c : ClusterId) (b : Fin 8)
  /-- CROSSING_DEAD (R303) -/
  | crossingDead (c : ClusterId) (dir : Fin 4)
  /-- HOLE_MAP_UPDATE (R303) -/
  | holeMapUpdate
  /-- ZL_DATA_FRAME (R333) -/
  | zlDataFrame (p : PortId) (hdr : FrameHdr) (pkts : List LinkPkt)
  /-- ZL_FINDER_FRAME (R342) -/
  | zlFinderFrame (p : PortId) (hdr : FrameHdr) (body : FrameBody)
  /-- ZL_IDLE_FRAME (R333) -/
  | zlIdleFrame (p : PortId) (hdr : FrameHdr)
  /-- ZL_TICK_COLUMN (R347) -/
  | zlTickColumn (p : PortId) (num period arrival : Nat)
  /-- ZL_ALIGN_COLUMN (R335) -/
  | zlAlignColumn (p : PortId) (lanes : W32)
  /-- ZL_TRAIN_COLUMN (R335) -/
  | zlTrainColumn (p : PortId) (peer : TrainParams)
  /-- ZL_IDLE_COLUMN (R329) -/
  | zlIdleColumn (p : PortId)
  /-- NAKREQ_REPEAT (R333) -/
  | nakreqRepeat (p : PortId)
  /-- LIGHT_LOSS (R334) -/
  | lightLoss (p : PortId)
  /-- FEC_LOCK_LOSS (R334) -/
  | fecLockLoss (p : PortId)
  /-- ACK_TIMEOUT (R334) -/
  | ackTimeout (p : PortId)
  /-- LIGHT_RECEIVED (R335) -/
  | lightReceived (p : PortId) (lanes : W32)
  /-- LOCK_ACHIEVED (R335) -/
  | lockAchieved (p : PortId) (lanes : W32)
  /-- LOCK_TIMEOUT (R335) -/
  | lockTimeout (p : PortId)
  /-- ALIGN_TIMEOUT (R335) -/
  | alignTimeout (p : PortId)
  /-- PARAM_TIMEOUT (R335) -/
  | paramTimeout (p : PortId)
  /-- DOWN_RETRAIN (R335) -/
  | downRetrain (p : PortId)
  /-- ZL_ENABLE (R335) -/
  | zlEnable (p : PortId)
  /-- ZL_DISABLE (R335) -/
  | zlDisable (p : PortId)
  /-- RETRAIN (R349) -/
  | zlRetrain (p : PortId)
  /-- ZL_CRED_WRITE (R332) -/
  | zlCredWrite (p : PortId) (pair : Fin 2) (v : W32)
  /-- ZL_TICK_READ (R349) -/
  | zlTickRead (p : PortId)
  /-- CARTRIDGE_REMOVE (R327) -/
  | cartridgeRemove (k : Fin 16)
  /-- CARTRIDGE_INSERT (R327) -/
  | cartridgeInsert (k : Fin 16) (power : Nat)
  /-- FINDER_RUN (R342) -/
  | finderRun
  /-- FINDER_QUIET (R342) -/
  | finderQuiet
  /-- FINDER_TIMEOUT (R346) -/
  | finderTimeout
  /-- FINDER_COMPUTE_DONE (R346) -/
  | finderComputeDone
  /-- DEGRADE (R353) -/
  | degrade
  /-- DEGRADE_FORCE (R353) -/
  | degradeForce
  /-- MODULE_HALT (R352) -/
  | moduleHalt
  /-- CONTAINMENT_OCCULT (R356) -/
  | containmentOccult
  /-- DOMEBUS_BYPASS (R354) -/
  | domebusBypass (r : RegionId)
  /-- REGION_CONTROLLER_SILENT (R423) -/
  | regionControllerSilent (r : RegionId)
  /-- COL_INTERVAL_CLOSE (R361) -/
  | colIntervalClose
  /-- COL_RECORD_RECEIVE (R362) -/
  | colRecordReceive
  /-- COL_WAIT_TIMEOUT (R363) -/
  | colWaitTimeout
  /-- DOM_COL_CTRL_WRITE (R369) -/
  | domColCtrlWrite (v : W32)
  /-- DOM_COL_CNT_READ (R369) -/
  | domColCntRead
  /-- DOM_FLT_SUSPECT (R368) -/
  | domFltSuspect
  /-- DOM_FLT_REPLACE (R351) -/
  | domFltReplace
  /-- FAULT_RECORD_WRITE (R366) -/
  | faultRecordWrite
  /-- LINK_RESET (R375) -/
  | linkReset
  /-- FLR (R375) -/
  | flr
  /-- D3HOT_ENTRY (R371) -/
  | d3hotEntry
  /-- D0_ENTRY (R371) -/
  | d0Entry
  /-- PTM_TRIG (R372) -/
  | ptmTrig (localNs masterNs : Nat)
  /-- BAR2_READ (R379) -/
  | bar2Read (off len : Nat)
  /-- BAR2_WRITE (R377) -/
  | bar2Write (off : Nat) (bytes : List Byte)
  /-- BAR_READ_TIMEOUT (R380) -/
  | barReadTimeout (i : Nat)
  /-- HIF_FENCE_READ (R379) -/
  | hifFenceRead
  /-- HIF_APR_SYNC_READ (R384) -/
  | hifAprSyncRead
  /-- APERTURE_WRITE (R382) -/
  | apertureWrite (off : Nat) (v : W32) (fromHost : Bool)
  /-- SQ_TAIL_DOORBELL (R386) -/
  | sqTailDoorbell (q : QueueId) (v : W32)
  /-- CQ_HEAD_DOORBELL (R386) -/
  | cqHeadDoorbell (q : QueueId) (v : W32)
  /-- QUEUE_ENABLE (R387) -/
  | queueEnable (q : QueueId)
  /-- QUEUE_DISABLE (R387) -/
  | queueDisable (q : QueueId)
  /-- QUEUE_STOPPED (R387) -/
  | queueStopped (q : QueueId)
  /-- SQ_NOP (R388) -/
  | sqNop (q : QueueId)
  /-- LOAD (R389) -/
  | loadJob (q : QueueId)
  /-- COPY_IN (R391) -/
  | copyIn (q : QueueId)
  /-- COPY_OUT (R391) -/
  | copyOut (q : QueueId)
  /-- GATE (R390) -/
  | gateJob (q : QueueId)
  /-- FORCE (R390) -/
  | forceJob (q : QueueId)
  /-- CQ_RECORD_WRITE (R392) -/
  | cqRecordWrite (q : QueueId)
  /-- MSIX_SEND (R395) -/
  | msixSend (vector : Fin 512) (elapsedUs : Nat)
  /-- START_SEQUENCE (R409) -/
  | startSequence (obs : StartObs)
  /-- START_WATCHDOG_EXPIRY (R406) -/
  | startWatchdogExpiry
  /-- FALLBACK (R407) -/
  | fallback
  /-- UPD_OPEN (R408) -/
  | updOpen (slot : Fin 2) (via : Via)
  /-- UPD_ERASE_DONE (R408) -/
  | updEraseDone
  /-- UPD_WIN_WRITE (R408) -/
  | updWinWrite (off : Nat) (v : W32) (via : Via)
  /-- UPD_CLOSE (R408) -/
  | updClose (via : Via)
  /-- UPD_ABORT (R421) -/
  | updAbort (via : Via)
  /-- CLEAR_REPLACE (R415) -/
  | clearReplace (via : Via) (token : List Byte)
  /-- OPEN_EYEPIECE (R432) -/
  | openEyepiece (via : Via) (token : List Byte)
  /-- GET_CERTIFICATE (R417) -/
  | getCertificate (r : CertReq)
  /-- CHALLENGE (R417) -/
  | challenge (t : Transport) (request : List Byte)
  /-- GET_MEASUREMENTS (R418) -/
  | getMeasurements (t : Transport) (request : List Byte)
  /-- GET_ENDORSEMENT (R419) -/
  | getEndorsement (t : Transport)
  /-- COSIGN (R419) -/
  | cosign (t : Transport)
  /-- DOM_CLKEN_WRITE (R424) -/
  | domClkenWrite (v : W32)
  /-- MCLK_SRC_WRITE (R427) -/
  | mclkSrcWrite (v : W32)
  /-- MCLK_HOLDOVER_TIMEOUT (R427) -/
  | mclkHoldoverTimeout
  /-- REG_READ (R429) -/
  | regRead (off : MctpAt)
  /-- REG_WRITE (R429) -/
  | regWrite (off : MctpAt) (v : W32)
  /-- BLOCK_WRITE (R429) -/
  | blockWrite (off : MctpAt) (vs : List W32)
  /-- NONCE (R429) -/
  | nonceCmd
  /-- NEWNONCE (R438) -/
  | newnonce
  /-- EYEPIECE_CLOSE (R432) -/
  | eyepieceClose
  /-- EYEPIECE_EXPIRY (R432) -/
  | eyepieceExpiry
  /-- EYE_ACC_READ (R433) -/
  | eyeAccRead
  /-- EYE_ACC_WRITE (R433) -/
  | eyeAccWrite
  /-- SCAN_CAPTURE (R434) -/
  | scanCapture (tap : TapInstr) (bits : List Bool)
  /-- SCAN_SHIFT (R434) -/
  | scanShift
  /-- CHRONO_SELECT (R435) -/
  | chronoSelect (i : Fin 16) (v : W32)
  /-- TRACE_RECORD (R436) -/
  | traceRecord (kind : Nat) (region x y : Nat) (words : List W32)
  /-- RESET_N (R446) -/
  | resetN (low : Bool)
  /-- REGISTER_WRITE (R7) -/
  | registerWrite (via : Via) (addr : RegAddr) (v : W32)
  /-- ZL_COLUMN_SEND (R333) -/
  | zlColumnSend (p : PortId)
  /-- CARTRIDGE_LOW (R350) -/
  | cartridgeLow (k : Fin 16) (faulted : Bool) (power : Nat)
  /-- FETCH_ERROR_COMPLETION (R387) -/
  | fetchErrorCompletion (q : QueueId)
  /-- LINK_TRAINING (R370) -/
  | linkTraining (speed lanes : Nat)
  /-- LINK_DOWN (R443) -/
  | linkDown
  /-- MCTP_CONTROL (R428) -/
  | mctpControl (eid : Nat)
  deriving DecidableEq, Repr

end Sys2Proof
end

