-- ==== Sys2Proof/WellFormed.lean ====
section
/-! DEFINITION. What the manual requires of a command's operands beyond their types: field widths of packets and frames, the sizes and bounds of accesses, and
how many readings a conversion reports. -/

namespace Sys2Proof

/-- The fields of a packet fit their widths, and its payload is eight words, with one more for a row of a plate (R293, R297; log entry 15). -/
def Pkt.wellFormed (p : Pkt) : Bool :=
  decide (p.opc < 32) && decide (p.dmod < 4096) && decide (p.dy < 128) && decide (p.dx < 128) && decide (p.dep < 64) && decide (p.smod < 4096) &&
    decide (p.sy < 128) && decide (p.sx < 128) && decide (p.sep < 64) && decide (p.chan < 8) && decide (p.seq < 256) && decide (p.age < 65536) &&
    decide (p.rsv < 64) && (p.pay.length == 8 || (p.plate && p.pay.length == 9))

/-- A link word's fields (R330). -/
def LinkPkt.wellFormed (k : LinkPkt) : Bool := decide (k.hops < 64) && decide (k.vc < 2) && decide (k.cls < 2) && k.pkt.wellFormed

/-- A frame header's fields (R330). -/
def FrameHdr.wellFormed (h : FrameHdr) : Bool :=
  decide (h.fseq < 4096) && decide (h.ackSeq < 4096) && h.credits.length == 4 && h.credits.all (fun n => decide (n < 256))

/-- An adjacency record's fields (R342). -/
def AdjRec.wellFormed (r : AdjRec) : Bool :=
  decide (r.fid < 2 ^ 64) && decide (r.topo < 4) && decide (r.links.length ≤ 64) &&
    r.links.all (fun a => decide (a.port < 64) && decide (a.peer < 2 ^ 64) && decide (a.peerPort < 64) && decide (a.dir < 4))

/-- A collimation record's fields (R362). -/
def ColRec.wellFormed (r : ColRec) : Bool :=
  decide (r.src < 4096) && decide (r.dst < 4096) && decide (r.set < 2 ^ 32) && decide (r.interval < 2 ^ 32) && decide (r.digest < 2 ^ 128) &&
    decide (r.count < 2 ^ 64) && decide (r.fid < 2 ^ 64)

/-- What a frame carries: at most three packets, or one message (R330). -/
def FrameBody.wellFormed : FrameBody → Bool
  | .data ps => decide (ps.length ≤ 3) && ps.all LinkPkt.wellFormed
  | .finder r => r.wellFormed
  | .col r => r.wellFormed

/-- A register's offset lies in its block and on a word (R115, R349, R376, R396, R397). -/
def RegAddr.wellFormed : RegAddr → Bool
  | .dome off => off % 4 == 0 && decide (off < 0x1000000)
  | .page _ off => off % 4 == 0 && decide (off < 0x1000)
  | .port _ off => off % 4 == 0 && decide (off < 0x100)
  | .cluster _ off => off % 4 == 0 && decide (off < 0x20000)
  | .hif off => off % 4 == 0 && decide (off < 0x10000)
  | .queue _ off => off % 4 == 0 && decide (off < 0x40)
  | .bar4 off => off % 4 == 0 && decide (off < 0x4000)

/-- An access of a BAR of `size` bytes: some bytes, at most 4,096 in one request, inside the BAR (R376, R378). -/
def barAccess (off len size : Nat) : Bool := decide (1 ≤ len) && decide (len ≤ 4096) && decide (off + len ≤ size)

/-- Whether a command's operands are such as the manual gives it. Every command whose operands' types say it all is well formed. -/
def Instr.wellFormed : Instr → Bool
  | .sensorConversion _ q => q.length == 18 && q.all (fun v => decide (v < 2048))
  | .storeSensorConversion _ d => d.length == 4
  | .rootTick ptm volt cur energy => decide (ptm < 2 ^ 64) && decide (volt < 65536) && decide (cur < 65536) && decide (energy < 2 ^ 32)
  | .dsGranuleRead _ _ flips => flips.all (fun f => decide (f.1 < 67) && f.2 != 0)
  | .dsPartialWrite _ _ flips => flips.all (fun f => decide (f.1 < 67) && f.2 != 0)
  | .dsScrub _ flips => flips.all (fun f => decide (f.1 < 67) && f.2 != 0)
  | .zlDataFrame _ hdr pkts => hdr.wellFormed && (FrameBody.data pkts).wellFormed
  | .zlFinderFrame _ hdr body => hdr.wellFormed && body.wellFormed
  | .zlIdleFrame _ hdr => hdr.wellFormed
  | .zlTrainColumn _ peer => decide (peer.fid < 2 ^ 64) && decide (peer.port < 64) && decide (peer.lanes < 256) && decide (peer.stamp < 2 ^ 32) &&
    decide (peer.echo < 2 ^ 32) && decide (peer.now < 2 ^ 32)
  | .zlTickColumn _ num _ _ => decide (num < 2 ^ 64)
  | .cartridgeInsert _ power => decide (power < 256)
  | .cartridgeLow _ _ power => decide (power < 256)
  | .ptmTrig l m => decide (l < 2 ^ 64) && decide (m < 2 ^ 64)
  | .bar2Read off len => barAccess off len (2 ^ 37)
  | .bar2Write off bytes => barAccess off bytes.length (2 ^ 37)
  | .apertureWrite off _ _ => off % 4 == 0 && decide (off < 4096)
  | .linkTraining speed lanes => decide (1 ≤ speed) && decide (speed ≤ 7) && decide (lanes ≤ 16)
  | .updWinWrite off _ _ => off % 4 == 0 && decide (off < 65536)
  | .clearReplace _ token => decide (token.length ≤ 8192)
  | .openEyepiece _ token => decide (token.length ≤ 8192)
  | .challenge _ request => decide (request.length ≤ 8192)
  | .getMeasurements _ request => decide (request.length ≤ 8192)
  | .regRead off => decide (off.off < 2 ^ 32)
  | .regWrite off _ => decide (off.off < 2 ^ 32)
  | .blockWrite off vs => decide (off.off < 2 ^ 32) && decide (vs.length < 256)
  | .scanCapture _ bits => decide (bits.length ≤ 327680)
  | .traceRecord kind region x y words =>
    decide (1 ≤ kind) && decide (kind ≤ 4) && decide (region < 128) && decide (x < 128) && decide (y < 128) && decide (words.length ≤ 5)
  | .registerWrite _ addr _ => addr.wellFormed
  | .mctpControl eid => decide (eid < 256)
  | _ => true

end Sys2Proof
end

