-- ==== Sys2Proof/Config.lean ====
section
/-! DEFINITION. What an implementation fixes and what the manual leaves open: free values, each a constant without a body, so
that nothing can be proved of its value. -/

namespace Sys2Proof

/-- A free value where the manual states none; the argument is `State.free` (log entry 5). -/
opaque Config.freeWord : Nat → BitVec 64

/-- A draw of a cluster's noise source, which seeds stochastic rounding outside deterministic mode (R146); the argument is
`State.free`. -/
opaque Config.noise : Nat → BitVec 32

/-- Which of the two neighbours of the exact value FRCP, FRSQ, FEXP2 and FLOG2 (0-3) give where R182 allows both (faithful rounding): true
for the upper one. The same for every stepping B0 part. -/
opaque Config.faithfulUp : Nat → BitVec 32 → Bool

/-- The results of FRSQ of −0 and of +infinity, and of FLOG2 of +infinity, which R182 does not state (log entry 9). -/
opaque Config.openFn : Nat → BitVec 32 → BitVec 32

/-- The trim minimum, in mV, that the TRIMS bytes of a region hold for the root of k × 25 MHz, in Dvoruroon's internal form (R49,
R402), before the bounds that R49 states. -/
opaque Config.trimRaw : List (BitVec 8) → Nat → Nat

/-- The packets that one egress queue of a port adapter holds, which R332 does not state (log entry 17). -/
opaque Config.egressQueue : Nat

/-- What the store port makes of 69 symbols that neither one nor two errors explain (R264): none, uncorrectable; else the 64 bytes that it
delivers as corrected data. -/
opaque Config.rsBeyond : List (BitVec 8) → Option (List (BitVec 8))

/-- SHA-384 (R402, R403). -/
opaque Config.sha384 : List (BitVec 8) → List (BitVec 8)

/-- The bytes of an adjacency record in a FINDER frame, by position from frame byte 8 on, which R342 does not lay out (log entry 20). -/
opaque Config.adjByte : AdjRec → Nat → BitVec 8

/-- The bytes 1 to 31 of a TRAIN block that carries the parameters named, which R329 and R335 do not lay out (log entry 20). -/
opaque Config.trainByte : List Nat → Nat → BitVec 8

/-- Whether an ECDSA P-384 signature verifies: public key, message, signature (R403). -/
opaque Config.ecdsaOk : List (BitVec 8) → List (BitVec 8) → List (BitVec 8) → Bool

/-- Whether an HSS signature verifies under RFC 8554: public key, message, signature (R403). Its parameters are checked beside it. -/
opaque Config.hssOk : List (BitVec 8) → List (BitVec 8) → List (BitVec 8) → Bool

/-- The hash that ROM key slot 0-4 holds (R403). -/
opaque Config.romKey : Nat → List (BitVec 8)

/-- The public keys of ROM key slot 4, ECDSA then HSS (R403, R415, R430). -/
opaque Config.serviceKeys : List (BitVec 8) × List (BitVec 8)

/-- The 256-bit seed of the module's SRAM PUF (R416). -/
opaque Config.pufSeed : List (BitVec 8)

/-- A key derived from a seed in counter mode under NIST SP 800-108, with HMAC-SHA-384, under a label (R416). -/
opaque Config.kdf : List (BitVec 8) → List (BitVec 8) → List (BitVec 8)

/-- The P-384 public key of a private key, X then Y (R416). -/
opaque Config.p384Public : List (BitVec 8) → List (BitVec 8)

/-- The ECDSA P-384 signature of a private key over a SHA-384 (R416, R417). -/
opaque Config.p384Sign : List (BitVec 8) → List (BitVec 8) → List (BitVec 8)

/-- The HSS public key of an identifier and a seed (R416, R418). -/
opaque Config.hssPublic : List (BitVec 8) → List (BitVec 8) → List (BitVec 8)

/-- The HSS signature of an identifier and a seed with leaf n over a message (R416, R419). -/
opaque Config.hssSign : List (BitVec 8) → List (BitVec 8) → Nat → List (BitVec 8) → List (BitVec 8)

/-- The HSS tree state after n leaves, as Dvoruroon lays it out in the signing-state cache (R399, R419). -/
opaque Config.treeState : Nat → List (BitVec 8)

/-- A nonce the module issues; the argument is `State.free` (R415, R429). -/
opaque Config.nonce : Nat → List (BitVec 8)

/-- The framing that DSP0274 gives an SPDM response (its version, code and sizes), by response (0 CERTIFICATE, 1 CHALLENGE_AUTH, 2
MEASUREMENTS, 3 a vendor-defined response, 4 ERROR), around the contents that the manual gives (R417-R419). -/
opaque Config.spdmFrame : Nat → List (BitVec 8) → List (BitVec 8)

/-- The device certificate chain and the HSS endorsement that the 64 KiB identity area of a NOR device holds, in a layout of Dvoruroon's own
(R399, R417, R419). -/
opaque Config.identityArea : List (BitVec 8) → List (BitVec 8) × List (BitVec 8)

end Sys2Proof
end

