-- ==== Sys2Proof/Machine/Sparse.lean ====
section
/-! DEFINITION. Sparse data by key, in one canonical form: keys strictly rising, and no entry equal to what an unlisted
key reads as. Register files, the tables of regions, clusters and queues, and every memory are held this way; a memory
is a list of (address, byte) cells. -/

namespace Sys2Proof.Machine

/-- Sparse data by key: the entries that differ from what an unlisted key reads as. -/
abbrev SMap (α : Type) := List (Nat × α)

/-- The entry of key `k`; `d k` where it is unlisted. -/
def SMap.get {α : Type} (d : Nat → α) : SMap α → Nat → α
  | [], k => d k
  | (j, v) :: t, k => if j = k then v else SMap.get d t k

/-- The map without key `k`. -/
def SMap.erase {α : Type} (m : SMap α) (k : Nat) : SMap α := m.filter (fun p => p.1 != k)

/-- The map with key `k` listed as `v`, keys kept rising. -/
def SMap.insert {α : Type} : SMap α → Nat → α → SMap α
  | [], k, v => [(k, v)]
  | (j, w) :: t, k, v =>
    if k < j then (k, v) :: (j, w) :: t else if j = k then (k, v) :: t else (j, w) :: SMap.insert t k v

/-- The map with key `k` reading as `v`; a value an unlisted key already has removes the entry. -/
def SMap.set {α : Type} [DecidableEq α] (d : Nat → α) (m : SMap α) (k : Nat) (v : α) : SMap α :=
  if v = d k then SMap.erase m k else SMap.insert m k v

/-- Keys above `lo` and strictly rising, and no entry equal to its default. -/
def SMap.wfFrom {α : Type} [DecidableEq α] (d : Nat → α) : Option Nat → SMap α → Bool
  | _, [] => true
  | lo, (j, v) :: t => (match lo with | none => true | some l => decide (l < j)) && decide (v ≠ d j) && SMap.wfFrom d (some j) t

/-- The canonical form. -/
def SMap.wf {α : Type} [DecidableEq α] (d : Nat → α) (m : SMap α) : Bool := SMap.wfFrom d none m

/-- A memory: bytes by address; an unlisted address reads as zero (log entry 1). -/
abbrev Mem := SMap Byte

/-- What a byte that nothing has written reads as (log entry 1). -/
def memDefault (_ : Nat) : Byte := 0

/-- One byte of a memory. -/
def Mem.byte (m : Mem) (a : Nat) : Byte := SMap.get memDefault m a

/-- A memory with one byte written. -/
def Mem.setByte (m : Mem) (a : Nat) (b : Byte) : Mem := SMap.set memDefault m a b

/-- The bytes at `a` to `a + n - 1`. -/
def Mem.bytes (m : Mem) (a : Nat) : Nat → List Byte
  | 0 => []
  | n + 1 => Mem.byte m a :: Mem.bytes m (a + 1) n

/-- A memory with the bytes `bs` written from `a` on. -/
def Mem.write (m : Mem) (a : Nat) : List Byte → Mem
  | [] => m
  | b :: bs => Mem.write (Mem.setByte m a b) (a + 1) bs

/-- A memory with the enabled bytes of `bs` written from `a` on (a masked write). -/
def Mem.writeMask (m : Mem) (a : Nat) : List Byte → List Bool → Mem
  | b :: bs, e :: es => Mem.writeMask (if e then Mem.setByte m a b else m) (a + 1) bs es
  | _, _ => m

/-- The little-endian value of `n` bytes at `a` (R151). -/
def Mem.le (m : Mem) (a n : Nat) : Nat := leNat (Mem.bytes m a n)

/-- A set of numbers, held as a rising list. -/
abbrev NSet := List Nat

/-- The set with `k` in it. -/
def NSet.add : NSet → Nat → NSet
  | [], k => [k]
  | j :: t, k => if k < j then k :: j :: t else if j = k then j :: t else j :: NSet.add t k

/-- The set without `k`. -/
def NSet.del (s : NSet) (k : Nat) : NSet := s.filter (fun j => j != k)

/-- The set without the numbers from `a` to `a + n - 1`. -/
def NSet.delRange (s : NSet) (a n : Nat) : NSet := s.filter (fun j => j < a || a + n ≤ j)

/-- Whether the set has a number from `a` to `a + n - 1`. -/
def NSet.meets (s : NSet) (a n : Nat) : Bool := s.any (fun j => a ≤ j && j < a + n)

end Sys2Proof.Machine
end

