-- ==== Sys2Proof/Machine/Codes.lean ====
section
/-! DEFINITION. The check codes of the manual: CRC-32 (IEEE 802.3), even parity, and the Reed-Solomon check symbols of a
stored granule (R103, R264, R330, R366). -/

namespace Sys2Proof.Machine

/-- One bit of the reflected IEEE 802.3 CRC. -/
def crcBit (c : Nat) : Nat := if c % 2 = 1 then (c / 2) ^^^ 0xEDB88320 else c / 2

/-- One byte of the CRC. -/
def crcByte (c : Nat) (b : Byte) : Nat :=
  crcBit (crcBit (crcBit (crcBit (crcBit (crcBit (crcBit (crcBit (c ^^^ b.toNat))))))))

/-- CRC-32 (IEEE 802.3 polynomial) of bytes. -/
def crc32 (bs : List Byte) : Nat := (bs.foldl crcByte 0xFFFFFFFF) ^^^ 0xFFFFFFFF

/-- Multiplication by x in GF(2⁸) with the field polynomial x⁸ + x⁴ + x³ + x² + 1 (R264). -/
def gfX (a : Nat) : Nat := if a < 128 then a * 2 else (a * 2) ^^^ 0x11D

/-- Multiplication in GF(2⁸), by the bits of b from the highest (R264). -/
def gfMulFrom : Nat → Nat → Nat → Nat → Nat
  | 0, _, _, acc => acc
  | n + 1, a, b, acc => gfMulFrom n a b ((gfX acc) ^^^ (if b.testBit n then a else 0))

/-- Multiplication in GF(2⁸). -/
def gfMul (a b : Nat) : Nat := gfMulFrom 8 a b 0

/-- α^k in GF(2⁸), α = x (R264). -/
def gfPow : Nat → Nat
  | 0 => 1
  | k + 1 => gfX (gfPow k)

/-- The coefficients of the generator (x − α⁰)(x − α¹)(x − α²) below x³, from x² down (R264). -/
def rsGen : Nat × Nat × Nat :=
  (1 ^^^ 2 ^^^ 4, (gfMul 1 2) ^^^ (gfMul 1 4) ^^^ (gfMul 2 4), gfMul 1 (gfMul 2 4))

/-- One step of the division by the generator. -/
def rsStep (r : Nat × Nat × Nat) (b : Byte) : Nat × Nat × Nat :=
  let f := b.toNat ^^^ r.1
  (r.2.1 ^^^ gfMul f rsGen.1, r.2.2 ^^^ gfMul f rsGen.2.1, gfMul f rsGen.2.2)

/-- The three check symbols of a granule: the 64 data bytes and the two bytes OFFSET[21:6], which are not stored (R264). The
address bytes follow the data, low byte first (log entry 7). -/
def rsCheck (off : Nat) (data : List Byte) : List Byte :=
  let r := (data ++ leBytes 2 (off / 64)).foldl rsStep (0, 0, 0)
  [BitVec.ofNat 8 r.1, BitVec.ofNat 8 r.2.1, BitVec.ofNat 8 r.2.2]

/-- The syndrome S_j of received symbols, the first with the highest power. -/
def rsSyndrome (j : Nat) (syms : List Byte) : Nat := syms.foldl (fun a b => (gfMul a (gfPow j)) ^^^ b.toNat) 0

/-- What a check of a stored granule finds (R264, R267). -/
inductive GranCheck where
  | clean
  | corrected (pos : Nat) (err : Nat)
  | poisoned
  | bad
  | miscorrected (data : List Byte)
  deriving DecidableEq, Repr

/-- The place and value of a single symbol in error: S₁ = S₀ α^k and S₂ = S₁ α^k for the symbol k places from the end; `n` symbols. -/
def rsLocate (n s0 s1 s2 : Nat) : Nat → Option Nat
  | 0 => none
  | k + 1 =>
    if s1 = gfMul s0 (gfPow k) ∧ s2 = gfMul s1 (gfPow k) then some (n - 1 - k) else rsLocate n s0 s1 s2 k

/-- Whether two symbols in error, at two of the `n` places of a granule, give these syndromes: S₂ = S₁ (α^a + α^b) + S₀ α^a α^b (R264). -/
def rsTwo (n s0 s1 s2 : Nat) : Bool :=
  (List.range n).any (fun a => (List.range a).any (fun b =>
    s2 == gfMul s1 (gfPow a ^^^ gfPow b) ^^^ gfMul s0 (gfMul (gfPow a) (gfPow b))))

/-- The check of a granule: stored data and check symbols with the address of the access (R264, R267). A poisoned granule is stored with each
check symbol XORed with 0x5A. Symbols that neither one nor two errors explain lie beyond the code's guarantees: whether the granule is reported
uncorrectable or delivered miscorrected is open (R264; log entry 28). -/
def rsVerify (off : Nat) (data chk : List Byte) : GranCheck :=
  let want := rsCheck off data
  if chk = want then .clean
  else if chk = want.map (fun b => b ^^^ 0x5A) then .poisoned
  else
    let syms := data ++ leBytes 2 (off / 64) ++ chk
    let s0 := rsSyndrome 0 syms; let s1 := rsSyndrome 1 syms; let s2 := rsSyndrome 2 syms
    match (if s0 = 0 then none else rsLocate 69 s0 s1 s2 69) with
    | some p => if p < 64 ∨ 66 ≤ p then .corrected p s0 else .bad
    | none =>
      if rsTwo 69 s0 s1 s2 then .bad
      else match Config.rsBeyond syms with
        | some d => .miscorrected ((List.range 64).map (fun k => d.getD k 0))
        | none => .bad

end Sys2Proof.Machine
end

