-- ==== Sys2Proof/Machine/Registers.lean ====
section
/-! DEFINITION. The register fields of the manual, one `Fld` per field, and the register tables of its seven
register spaces: access code, reset value, number of copies and whether a tick latches the register. Each
field name is REGISTER_FIELD as R7 writes it; each section names the rule whose table it copies. -/

namespace Sys2Proof.Machine

/-- A field of a 32-bit register: the register's offset in its space, the field's lowest bit and width, and the
distance to the next copy of the register where the table gives several. -/
structure Fld where
  off : Nat
  lo : Nat
  width : Nat
  stride : Nat
  deriving DecidableEq, Repr

/-- The access codes of R7. -/
inductive Access where
  | rw | ro | wo | w1c | w1s | rwp | rwl
  deriving DecidableEq, Repr

/-- One row of a register table: the field, its access code, its reset value, how many copies the register has, and
whether the register reports the last completed tick. -/
structure RegRow where
  fld : Fld
  access : Access
  reset : Nat
  count : Nat
  tick : Bool
  deriving DecidableEq, Repr

/-! ### R31 (01_stack_and_floor.md) -/
abbrev DOM_DMAP_SEL_INDEX : Fld := ⟨0x100, 0, 14, 0x0⟩
abbrev DOM_DMAP_SEL_WORD : Fld := ⟨0x100, 16, 4, 0x0⟩
abbrev DOM_DMAP_SEL_PAGE : Fld := ⟨0x100, 30, 2, 0x0⟩
abbrev DOM_DMAP_DATA_DATA : Fld := ⟨0x104, 0, 32, 0x0⟩
abbrev DOM_DMAP_GEN_GEN : Fld := ⟨0x108, 0, 16, 0x0⟩
/-! ### R69 (02_clock_drives_and_tick.md) -/
abbrev TCK_PERIOD_PERIOD : Fld := ⟨0x200, 0, 22, 0x0⟩
abbrev TCK_CTRL_MODE : Fld := ⟨0x204, 0, 1, 0x0⟩
abbrev TCK_CTRL_MASTER_SRC : Fld := ⟨0x204, 1, 2, 0x0⟩
abbrev TCK_CTRL_SLIP_LIMIT : Fld := ⟨0x204, 8, 4, 0x0⟩
abbrev TCK_CTRL_RCV_PORT : Fld := ⟨0x204, 16, 6, 0x0⟩
abbrev TCK_STATUS_CFG_ERR : Fld := ⟨0x208, 0, 1, 0x0⟩
abbrev TCK_STATUS_LOCK_VIOL : Fld := ⟨0x208, 1, 1, 0x0⟩
abbrev TCK_STATUS_MASTER_LOS : Fld := ⟨0x208, 2, 1, 0x0⟩
abbrev TCK_SNAP_LO_STAMP_LO : Fld := ⟨0x20C, 0, 32, 0x0⟩
abbrev TCK_SNAP_HI_STAMP_HI : Fld := ⟨0x210, 0, 32, 0x0⟩
abbrev TCK_SNAP_NUM_LO_NUM_LO : Fld := ⟨0x214, 0, 32, 0x0⟩
abbrev TCK_SNAP_NUM_HI_NUM_HI : Fld := ⟨0x218, 0, 32, 0x0⟩
/-! ### R70 (02_clock_drives_and_tick.md) -/
abbrev DRV_SRC_SEL : Fld := ⟨0x0, 0, 2, 0x0⟩
abbrev DRV_SRC_STATUS_REFA_READY : Fld := ⟨0x4, 0, 1, 0x0⟩
abbrev DRV_SRC_STATUS_REFB_READY : Fld := ⟨0x4, 1, 1, 0x0⟩
abbrev DRV_SRC_STATUS_RCV_READY : Fld := ⟨0x4, 2, 1, 0x0⟩
abbrev DRV_SRC_STATUS_ACTIVE : Fld := ⟨0x4, 4, 2, 0x0⟩
abbrev DRV_SRC_STATUS_SRC_ERR : Fld := ⟨0x4, 8, 1, 0x0⟩
abbrev DRV_SRC_STATUS_LOS : Fld := ⟨0x4, 9, 1, 0x0⟩
abbrev DRV_FREQ_MULT : Fld := ⟨0x8, 0, 8, 0x0⟩
abbrev DRV_FREQ_POSTDIV : Fld := ⟨0x8, 8, 2, 0x0⟩
abbrev DRV_FREQ_VCODE : Fld := ⟨0x8, 16, 6, 0x0⟩
abbrev DRV_ACTIVE_MULT : Fld := ⟨0xC, 0, 8, 0x0⟩
abbrev DRV_ACTIVE_POSTDIV : Fld := ⟨0xC, 8, 2, 0x0⟩
abbrev DRV_ACTIVE_VCODE : Fld := ⟨0xC, 16, 6, 0x0⟩
abbrev DRV_STATUS_STATE : Fld := ⟨0x10, 0, 3, 0x0⟩
abbrev DRV_STATUS_LOCK : Fld := ⟨0x10, 8, 1, 0x0⟩
abbrev DRV_STATUS_REJECT : Fld := ⟨0x10, 9, 1, 0x0⟩
abbrev DRV_STATUS_PEND : Fld := ⟨0x10, 10, 1, 0x0⟩
abbrev DRV_STATUS_UNLOCK : Fld := ⟨0x10, 11, 1, 0x0⟩
abbrev DRV_STATUS_RELOCK_NS : Fld := ⟨0x10, 16, 16, 0x0⟩
abbrev DRV_SEE_CTRL_THRESH : Fld := ⟨0x14, 0, 4, 0x0⟩
abbrev DRV_SEE_CTRL_STRETCH : Fld := ⟨0x14, 4, 2, 0x0⟩
abbrev DRV_SEE_CNT_CNT : Fld := ⟨0x18, 0, 32, 0x0⟩
abbrev DRV_SEE_LOST_LOST : Fld := ⟨0x1C, 0, 32, 0x0⟩
abbrev DRV_CYCLES_CYCLES : Fld := ⟨0x20, 0, 32, 0x0⟩
/-! ### R71 (02_clock_drives_and_tick.md) -/
abbrev TRC_SRC_SEL : Fld := ⟨0x40, 0, 2, 0x0⟩
abbrev TRC_SRC_STATUS_REFA_READY : Fld := ⟨0x44, 0, 1, 0x0⟩
abbrev TRC_SRC_STATUS_REFB_READY : Fld := ⟨0x44, 1, 1, 0x0⟩
abbrev TRC_SRC_STATUS_RCV_READY : Fld := ⟨0x44, 2, 1, 0x0⟩
abbrev TRC_SRC_STATUS_ACTIVE : Fld := ⟨0x44, 4, 2, 0x0⟩
abbrev TRC_SRC_STATUS_SRC_ERR : Fld := ⟨0x44, 8, 1, 0x0⟩
abbrev TRC_SRC_STATUS_LOS : Fld := ⟨0x44, 9, 1, 0x0⟩
abbrev TRC_CTRL_HALF_REQ : Fld := ⟨0x48, 0, 1, 0x0⟩
abbrev TRC_CTRL_HALF : Fld := ⟨0x48, 1, 1, 0x0⟩
abbrev TRC_CTRL_HALF_THM : Fld := ⟨0x48, 2, 1, 0x0⟩
abbrev TRC_STATUS_STATE : Fld := ⟨0x4C, 0, 3, 0x0⟩
abbrev TRC_STATUS_LOCK : Fld := ⟨0x4C, 8, 1, 0x0⟩
abbrev TRC_STATUS_UNLOCK : Fld := ⟨0x4C, 11, 1, 0x0⟩
abbrev TRC_SEE_CTRL_THRESH : Fld := ⟨0x50, 0, 4, 0x0⟩
abbrev TRC_SEE_CTRL_STRETCH : Fld := ⟨0x50, 4, 2, 0x0⟩
abbrev TRC_SEE_CNT_CNT : Fld := ⟨0x54, 0, 32, 0x0⟩
/-! ### R72 (02_clock_drives_and_tick.md) -/
abbrev TCK_RSTATUS_OVERRUN : Fld := ⟨0x80, 0, 1, 0x0⟩
abbrev TCK_RSTATUS_SLIP_FAULT : Fld := ⟨0x80, 1, 1, 0x0⟩
abbrev TCK_RSTATUS_LOCAL : Fld := ⟨0x80, 2, 1, 0x0⟩
abbrev TCK_RSTATUS_RESYNC : Fld := ⟨0x80, 3, 1, 0x0⟩
abbrev TCK_RSTATUS_MARKER_BAD : Fld := ⟨0x80, 4, 1, 0x0⟩
abbrev TCK_RSTATUS_MISSED : Fld := ⟨0x80, 5, 1, 0x0⟩
abbrev TCK_RSTATUS_SLIP : Fld := ⟨0x80, 8, 8, 0x0⟩
abbrev TCK_RNUM_LO_NUM_LO : Fld := ⟨0x84, 0, 32, 0x0⟩
abbrev TCK_RNUM_HI_NUM_HI : Fld := ⟨0x88, 0, 32, 0x0⟩
abbrev TCK_RSLOT_SLOT : Fld := ⟨0x8C, 0, 32, 0x0⟩
/-! ### R97 (03_almanac_power_heat.md) -/
abbrev ALM_BUDGET_BUDGET : Fld := ⟨0x100, 0, 28, 0x0⟩
abbrev ALM_RESERVE_RESERVE : Fld := ⟨0x104, 0, 24, 0x0⟩
abbrev ALM_BAL_LO_BAL_LO : Fld := ⟨0x108, 0, 32, 0x0⟩
abbrev ALM_BAL_HI_BAL_HI : Fld := ⟨0x10C, 0, 32, 0x0⟩
abbrev ALM_CARRY_CARRY : Fld := ⟨0x110, 0, 28, 0x0⟩
abbrev ALM_STATUS_HOLD : Fld := ⟨0x114, 0, 1, 0x0⟩
abbrev ALM_STATUS_HELD : Fld := ⟨0x114, 1, 1, 0x0⟩
abbrev ALM_STATUS_DRIFT : Fld := ⟨0x114, 2, 1, 0x0⟩
abbrev ALM_STATUS_CLIPPED : Fld := ⟨0x114, 3, 1, 0x0⟩
abbrev ALM_STATUS_ZERO : Fld := ⟨0x114, 4, 1, 0x0⟩
abbrev ALM_STATUS_DEFICIT : Fld := ⟨0x114, 5, 1, 0x0⟩
abbrev ALM_STATUS_CFG_ERR : Fld := ⟨0x114, 6, 1, 0x0⟩
abbrev ALM_STATUS_BAND : Fld := ⟨0x114, 8, 2, 0x0⟩
abbrev ALM_HOLD_CCLK_CCLK : Fld := ⟨0x118, 0, 32, 0x0⟩
abbrev ALM_USED_USED : Fld := ⟨0x11C, 0, 32, 0x0⟩
abbrev ALM_BAND_THR_T1 : Fld := ⟨0x120, 0, 8, 0x0⟩
abbrev ALM_BAND_THR_T2 : Fld := ⟨0x120, 8, 8, 0x0⟩
abbrev ALM_BAND_THR_T3 : Fld := ⟨0x120, 16, 8, 0x0⟩
abbrev ALM_DRIFT_CNT_CNT : Fld := ⟨0x124, 0, 4, 0x0⟩
abbrev ALM_COEF_COEF : Fld := ⟨0x140, 0, 24, 0x4⟩
/-! ### R98 (03_almanac_power_heat.md) -/
abbrev PWR_STATUS_STATE : Fld := ⟨0x300, 0, 3, 0x0⟩
abbrev PWR_STATUS_RAIL_OK : Fld := ⟨0x300, 8, 6, 0x0⟩
abbrev PWR_STATUS_PARK_CAUSE : Fld := ⟨0x300, 16, 3, 0x0⟩
abbrev PWR_STATUS_UNDRAINED : Fld := ⟨0x300, 19, 1, 0x0⟩
abbrev PWR_BRK_TRIP : Fld := ⟨0x304, 0, 6, 0x0⟩
abbrev PWR_BRK_CAUSE : Fld := ⟨0x304, 8, 3, 0x0⟩
abbrev PWR_CTRL_FORCE_DARK : Fld := ⟨0x308, 0, 1, 0x0⟩
abbrev PWR_ILIM_LIMIT : Fld := ⟨0x30C, 0, 12, 0x0⟩
abbrev PWR_ENERGY_ENERGY : Fld := ⟨0x310, 0, 32, 0x0⟩
abbrev PWR_VA_MV : Fld := ⟨0x314, 0, 16, 0x0⟩
abbrev PWR_VT_MV : Fld := ⟨0x318, 0, 16, 0x0⟩
abbrev PWR_VS_MV : Fld := ⟨0x31C, 0, 16, 0x0⟩
abbrev PWR_VDC_MV : Fld := ⟨0x320, 0, 16, 0x0⟩
abbrev PWR_VDP_MV : Fld := ⟨0x324, 0, 16, 0x0⟩
abbrev PWR_VM_MV : Fld := ⟨0x328, 0, 16, 0x0⟩
abbrev PWR_VA_CUR : Fld := ⟨0x314, 16, 16, 0x0⟩
abbrev PWR_VT_CUR : Fld := ⟨0x318, 16, 16, 0x0⟩
abbrev PWR_VS_CUR : Fld := ⟨0x31C, 16, 16, 0x0⟩
abbrev PWR_VDC_CUR : Fld := ⟨0x320, 16, 16, 0x0⟩
abbrev PWR_VDP_CUR : Fld := ⟨0x324, 16, 16, 0x0⟩
abbrev PWR_VM_CUR : Fld := ⟨0x328, 16, 16, 0x0⟩
abbrev PWR_LIM_CNT_CNT : Fld := ⟨0x32C, 0, 32, 0x0⟩
/-! ### R99 (03_almanac_power_heat.md) -/
abbrev THM_CTRL_WARN : Fld := ⟨0x380, 0, 8, 0x0⟩
abbrev THM_CTRL_PARK : Fld := ⟨0x380, 8, 8, 0x0⟩
abbrev THM_STATUS_WARN : Fld := ⟨0x384, 0, 1, 0x0⟩
abbrev THM_STATUS_PARK : Fld := ⟨0x384, 1, 1, 0x0⟩
abbrev THM_STATUS_EMERG : Fld := ⟨0x384, 2, 1, 0x0⟩
abbrev THM_STATUS_CFG_ERR : Fld := ⟨0x384, 3, 1, 0x0⟩
abbrev THM_STATUS_LOCK_VIOL : Fld := ⟨0x384, 4, 1, 0x0⟩
abbrev THM_STATUS_HOT : Fld := ⟨0x384, 16, 5, 0x0⟩
abbrev THM_MAX_TEMP : Fld := ⟨0x388, 0, 11, 0x0⟩
abbrev THM_SEL_SENSOR : Fld := ⟨0x38C, 0, 5, 0x0⟩
abbrev THM_DATA_TEMP : Fld := ⟨0x390, 0, 11, 0x0⟩
abbrev THM_DATA_VALID : Fld := ⟨0x390, 31, 1, 0x0⟩
abbrev THM_STORE_W0 : Fld := ⟨0x394, 0, 8, 0x0⟩
abbrev THM_STORE_W1 : Fld := ⟨0x394, 8, 8, 0x0⟩
abbrev THM_STORE_W2 : Fld := ⟨0x394, 16, 8, 0x0⟩
abbrev THM_STORE_W3 : Fld := ⟨0x394, 24, 8, 0x0⟩
abbrev THM_PARK_CNT_CNT : Fld := ⟨0x398, 0, 32, 0x0⟩
/-! ### R100 (03_almanac_power_heat.md) -/
abbrev ALM_ENVELOPE_WATTS : Fld := ⟨0x300, 0, 16, 0x0⟩
abbrev ALM_MOD_USED_USED : Fld := ⟨0x304, 0, 32, 0x0⟩
abbrev PWR_IN_VOLT : Fld := ⟨0x308, 0, 16, 0x0⟩
abbrev PWR_IN_CUR : Fld := ⟨0x308, 16, 16, 0x0⟩
abbrev PWR_IN_ENERGY_ENERGY : Fld := ⟨0x30C, 0, 32, 0x0⟩
/-! ### R116 (04_cluster_anatomy.md) -/
abbrev MSH_ID_X : Fld := ⟨0x0, 0, 7, 0x0⟩
abbrev MSH_ID_Y : Fld := ⟨0x0, 8, 7, 0x0⟩
abbrev MSH_ID_REGION : Fld := ⟨0x0, 16, 7, 0x0⟩
abbrev MSH_ID_HALF : Fld := ⟨0x0, 23, 1, 0x0⟩
abbrev MSH_ID_TU : Fld := ⟨0x0, 24, 1, 0x0⟩
abbrev MSH_ID_EDGE : Fld := ⟨0x0, 25, 1, 0x0⟩
abbrev MSH_MODID_MODID : Fld := ⟨0x4, 0, 12, 0x0⟩
/-! ### R117 (04_cluster_anatomy.md) -/
abbrev EL_RING_STATUS_EMPTY : Fld := ⟨0x6000, 0, 4, 0x0⟩
abbrev EL_RING_STATUS_RESV : Fld := ⟨0x6000, 4, 4, 0x0⟩
abbrev EL_RING_ERR_PERR : Fld := ⟨0x6004, 0, 4, 0x0⟩
abbrev EL_RING_ERR_CPERR : Fld := ⟨0x6004, 4, 1, 0x0⟩
abbrev EL_RING_ERR_POS : Fld := ⟨0x6004, 8, 6, 0x0⟩
abbrev EL_RING_TOK_TOK : Fld := ⟨0x6010, 0, 32, 0x4⟩
abbrev EL_RING_WAIT_WAIT : Fld := ⟨0x6020, 0, 32, 0x4⟩
abbrev EL_RING_CRSEL_STOP : Fld := ⟨0x6030, 0, 6, 0x0⟩
abbrev EL_RING_CRSEL_OUT : Fld := ⟨0x6030, 6, 1, 0x0⟩
abbrev EL_RING_CREDIT_CREDITS : Fld := ⟨0x6034, 0, 5, 0x0⟩
abbrev EL_RING_CREDIT_DST_STOP : Fld := ⟨0x6034, 8, 6, 0x0⟩
abbrev EL_RING_CREDIT_DST_QUEUE : Fld := ⟨0x6034, 14, 3, 0x0⟩
abbrev EL_RING_CREDIT_BOUND : Fld := ⟨0x6034, 31, 1, 0x0⟩
/-! ### R147 (05_matrix_unit.md) -/
abbrev MU_CTRL_DETERM : Fld := ⟨0x8000, 0, 1, 0x0⟩
abbrev MU_STATUS_BUSY : Fld := ⟨0x8004, 0, 1, 0x0⟩
abbrev MU_STATUS_CHAIN_OPEN : Fld := ⟨0x8004, 1, 1, 0x0⟩
abbrev MU_STATUS_RESIDENT : Fld := ⟨0x8004, 2, 1, 0x0⟩
abbrev MU_STATUS_HELD : Fld := ⟨0x8004, 3, 1, 0x0⟩
abbrev MU_STATUS_QDEPTH : Fld := ⟨0x8004, 8, 5, 0x0⟩
abbrev MU_STATUS_CQDEPTH : Fld := ⟨0x8004, 16, 5, 0x0⟩
abbrev MU_STATUS_LAST_ERR : Fld := ⟨0x8004, 24, 4, 0x0⟩
abbrev MU_EVENT_CMD_ERR : Fld := ⟨0x8008, 0, 1, 0x0⟩
abbrev MU_EVENT_MALFORMED : Fld := ⟨0x8008, 1, 1, 0x0⟩
abbrev MU_EVENT_POISON : Fld := ⟨0x8008, 2, 1, 0x0⟩
abbrev MU_EVENT_STALE : Fld := ⟨0x8008, 3, 1, 0x0⟩
abbrev MU_EVENT_CFG_ERR : Fld := ⟨0x8008, 4, 1, 0x0⟩
abbrev MU_ERR_TAG_TAG : Fld := ⟨0x800C, 0, 16, 0x0⟩
abbrev MU_ERR_TAG_SRC : Fld := ⟨0x800C, 16, 4, 0x0⟩
abbrev MU_LIST_BASE_ROW : Fld := ⟨0x8010, 0, 12, 0x0⟩
abbrev MU_LIST_CTRL_RUN : Fld := ⟨0x8014, 0, 1, 0x0⟩
abbrev MU_LIST_CTRL_ACTIVE : Fld := ⟨0x8014, 1, 1, 0x0⟩
abbrev MU_LIST_CTRL_NEXT : Fld := ⟨0x8014, 16, 12, 0x0⟩
abbrev MU_CBIND_ELEM : Fld := ⟨0x8020, 0, 5, 0x4⟩
abbrev MU_CBIND_QUEUE : Fld := ⟨0x8020, 5, 3, 0x4⟩
abbrev MU_CBIND_VALID : Fld := ⟨0x8020, 8, 1, 0x4⟩
abbrev MU_CBIND_CREDITS : Fld := ⟨0x8020, 16, 5, 0x4⟩
abbrev MU_ACT_LEAK_SLOPE : Fld := ⟨0x8040, 0, 32, 0x0⟩
abbrev MU_ACT_LO_LO : Fld := ⟨0x8044, 0, 32, 0x0⟩
abbrev MU_ACT_HI_HI : Fld := ⟨0x8048, 0, 32, 0x0⟩
abbrev MU_CNT_STEPS_CNT : Fld := ⟨0x8080, 0, 32, 0x0⟩
abbrev MU_CNT_GATED_CNT : Fld := ⟨0x8084, 0, 32, 0x0⟩
abbrev MU_CNT_CMDS_CNT : Fld := ⟨0x8088, 0, 32, 0x0⟩
abbrev MU_CNT_REJ_CNT : Fld := ⟨0x808C, 0, 32, 0x0⟩
abbrev MU_CNT_STALL_EPI_CNT : Fld := ⟨0x8090, 0, 32, 0x0⟩
abbrev MU_CNT_STALL_OPD_CNT : Fld := ⟨0x8094, 0, 32, 0x0⟩
abbrev MU_CNT_STALL_CPL_CNT : Fld := ⟨0x8098, 0, 32, 0x0⟩
abbrev MU_CNT_HOLD_CNT : Fld := ⟨0x809C, 0, 32, 0x0⟩
abbrev MU_CNT_STALE_CNT : Fld := ⟨0x80A0, 0, 32, 0x0⟩
abbrev MU_CNT_MALFORM_CNT : Fld := ⟨0x80A4, 0, 32, 0x0⟩
abbrev MU_ACT_TAB_SLOPE : Fld := ⟨0x8200, 0, 32, 0x8⟩
abbrev MU_ACT_TAB_ICPT : Fld := ⟨0x8204, 0, 32, 0x8⟩
/-! ### R197 (07_dataflow_elements.md) -/
abbrev EL_CTRL_CTX_EN : Fld := ⟨0x0, 0, 8, 0x0⟩
abbrev EL_CTRL_ARM : Fld := ⟨0x0, 8, 1, 0x0⟩
abbrev EL_STATUS_READY : Fld := ⟨0x4, 0, 8, 0x0⟩
abbrev EL_STATUS_RUN : Fld := ⟨0x4, 8, 8, 0x0⟩
abbrev EL_STATUS_FAULTED : Fld := ⟨0x4, 16, 8, 0x0⟩
abbrev EL_STATUS_QUIET : Fld := ⟨0x4, 24, 1, 0x0⟩
abbrev EL_STATUS_EPOCH : Fld := ⟨0x4, 25, 2, 0x0⟩
abbrev EL_STATUS_CHK : Fld := ⟨0x4, 27, 5, 0x0⟩
abbrev EL_EVENT_CTX_FAULT : Fld := ⟨0x8, 0, 1, 0x0⟩
abbrev EL_EVENT_STALE : Fld := ⟨0x8, 1, 1, 0x0⟩
abbrev EL_EVENT_CFG_ERR : Fld := ⟨0x8, 2, 1, 0x0⟩
abbrev EL_EVENT_POISON : Fld := ⟨0x8, 3, 1, 0x0⟩
abbrev EL_FAULT_CTX : Fld := ⟨0xC, 0, 3, 0x0⟩
abbrev EL_FAULT_CAUSE : Fld := ⟨0xC, 4, 2, 0x0⟩
abbrev EL_FAULT_OP : Fld := ⟨0xC, 8, 6, 0x0⟩
abbrev EL_OBIND_DST_STOP : Fld := ⟨0x10, 0, 6, 0x4⟩
abbrev EL_OBIND_DST_QUEUE : Fld := ⟨0x10, 6, 3, 0x4⟩
abbrev EL_OBIND_VALID : Fld := ⟨0x10, 9, 1, 0x4⟩
abbrev EL_OBIND_CREDITS : Fld := ⟨0x10, 16, 5, 0x4⟩
abbrev EL_OBIND_BUF : Fld := ⟨0x10, 24, 4, 0x4⟩
abbrev EL_QCFG_KIND : Fld := ⟨0x20, 0, 2, 0x4⟩
abbrev EL_QCFG_COUNT : Fld := ⟨0x20, 8, 5, 0x4⟩
abbrev EL_QCFG_OUTST : Fld := ⟨0x20, 16, 5, 0x4⟩
abbrev EL_CTR_REMAIN : Fld := ⟨0x40, 0, 32, 0x4⟩
abbrev EL_SEND_LO_HDR_LO : Fld := ⟨0x80, 0, 32, 0x8⟩
abbrev EL_SEND_HI_HDR_HI : Fld := ⟨0x84, 0, 32, 0x8⟩
abbrev EL_CNT_FIRE_S_CNT : Fld := ⟨0xC0, 0, 32, 0x0⟩
abbrev EL_CNT_FIRE_V_CNT : Fld := ⟨0xC4, 0, 32, 0x0⟩
abbrev EL_CNT_STALL_CR_CNT : Fld := ⟨0xC8, 0, 32, 0x0⟩
abbrev EL_CNT_IDLE_CNT : Fld := ⟨0xCC, 0, 32, 0x0⟩
abbrev EL_CNT_HOLD_CNT : Fld := ⟨0xD0, 0, 32, 0x0⟩
abbrev EL_CNT_STALE_CNT : Fld := ⟨0xD4, 0, 32, 0x0⟩
abbrev EL_CNT_DISCARD_CNT : Fld := ⟨0xD8, 0, 32, 0x0⟩
abbrev EL_CTX_WORD : Fld := ⟨0x100, 0, 32, 0x4⟩
/-! ### R221 (08_ephemerides_and_folding.md) -/
abbrev TCK_RSCHED_STATE : Fld := ⟨0x90, 0, 3, 0x0⟩
abbrev TCK_RSCHED_EPOCH : Fld := ⟨0x90, 4, 2, 0x0⟩
abbrev TCK_RSCHED_EPH : Fld := ⟨0x90, 8, 3, 0x0⟩
abbrev TCK_RSCHED_WAIT_BAR : Fld := ⟨0x90, 12, 1, 0x0⟩
abbrev TCK_RSCHED_WAIT_GATE : Fld := ⟨0x90, 13, 1, 0x0⟩
abbrev TCK_RSCHED_PARKDRAIN : Fld := ⟨0x90, 14, 1, 0x0⟩
abbrev TCK_RSTART_LO_START_LO : Fld := ⟨0x94, 0, 32, 0x0⟩
abbrev TCK_RSTART_HI_START_HI : Fld := ⟨0x98, 0, 32, 0x0⟩
abbrev TCK_RDRAIN_REQ : Fld := ⟨0x9C, 0, 1, 0x0⟩
abbrev TCK_RDRAIN_FORCE : Fld := ⟨0x9C, 1, 1, 0x0⟩
abbrev TCK_RDRAIN_DRAINED : Fld := ⟨0x9C, 2, 1, 0x0⟩
abbrev TCK_RDRAIN_TIMEOUT : Fld := ⟨0x9C, 3, 1, 0x0⟩
abbrev TCK_RDRAIN_ARM_ERR : Fld := ⟨0x9C, 4, 1, 0x0⟩
abbrev TCK_RDRAIN_CCLK_CCLK : Fld := ⟨0xA0, 0, 32, 0x0⟩
abbrev TCK_RTRUNC_CNT : Fld := ⟨0xA4, 0, 32, 0x0⟩
abbrev TCK_RSWAPS_CNT : Fld := ⟨0xA8, 0, 32, 0x0⟩
abbrev TCK_RSET_ROW : Fld := ⟨0xAC, 0, 12, 0x0⟩
abbrev TCK_RSET_SET : Fld := ⟨0xAC, 16, 8, 0x0⟩
/-! ### R222 (08_ephemerides_and_folding.md) -/
abbrev TCK_GATE_GATE : Fld := ⟨0x220, 0, 8, 0x0⟩
abbrev TCK_EPH_ACTIVE_ACTIVE : Fld := ⟨0x224, 0, 8, 0x0⟩
abbrev TCK_EPH_ACTIVE_STANDING : Fld := ⟨0x224, 8, 8, 0x0⟩
abbrev TCK_EPH_FORCE_FORCE : Fld := ⟨0x228, 0, 8, 0x0⟩
abbrev TCK_EPH_LAST_STATUS : Fld := ⟨0x22C, 0, 4, 0x0⟩
abbrev TCK_EPH_LAST_EPH : Fld := ⟨0x22C, 4, 3, 0x0⟩
/-! ### R241 (09_cluster_memory.md) -/
abbrev CM_CTRL_DETERM : Fld := ⟨0x2000, 0, 1, 0x0⟩
abbrev CM_CTRL_URGENT : Fld := ⟨0x2000, 8, 8, 0x0⟩
abbrev CM_STATUS_NP_BUSY : Fld := ⟨0x2004, 0, 1, 0x0⟩
abbrev CM_STATUS_APPLY : Fld := ⟨0x2004, 1, 1, 0x0⟩
abbrev CM_STATUS_DACC_USED : Fld := ⟨0x2004, 8, 11, 0x0⟩
abbrev CM_EVENT_PERR : Fld := ⟨0x2008, 0, 1, 0x0⟩
abbrev CM_EVENT_POISON_RD : Fld := ⟨0x2008, 1, 1, 0x0⟩
abbrev CM_EVENT_DACC_OVF : Fld := ⟨0x2008, 2, 1, 0x0⟩
abbrev CM_EVENT_NQ_CONFLICT : Fld := ⟨0x2008, 3, 1, 0x0⟩
abbrev CM_EVENT_CFG_ERR : Fld := ⟨0x2008, 4, 1, 0x0⟩
abbrev CM_PERR_LOC_ROW : Fld := ⟨0x200C, 0, 12, 0x0⟩
abbrev CM_PERR_LOC_BYTE : Fld := ⟨0x200C, 16, 9, 0x0⟩
abbrev CM_PERR_LOC_CLASS : Fld := ⟨0x200C, 25, 3, 0x0⟩
abbrev CM_PERR_LOC_VALID : Fld := ⟨0x200C, 31, 1, 0x0⟩
abbrev CM_NQ_STATUS_CONFLICT : Fld := ⟨0x2010, 0, 8, 0x0⟩
abbrev CM_NQ_STATUS_NONEMPTY : Fld := ⟨0x2010, 8, 8, 0x0⟩
abbrev CM_NQBIND_ELEM : Fld := ⟨0x2020, 0, 5, 0x4⟩
abbrev CM_NQBIND_OUT : Fld := ⟨0x2020, 5, 1, 0x4⟩
abbrev CM_NQBIND_VALID : Fld := ⟨0x2020, 6, 1, 0x4⟩
abbrev CM_NQBIND_COUNT : Fld := ⟨0x2020, 16, 5, 0x4⟩
abbrev CM_GRANT_RD_CNT : Fld := ⟨0x2040, 0, 32, 0x4⟩
abbrev CM_GRANT_WR_CNT : Fld := ⟨0x2060, 0, 32, 0x4⟩
abbrev CM_SLOT_RD_CNT : Fld := ⟨0x2080, 0, 32, 0x4⟩
abbrev CM_SLOT_WR_CNT : Fld := ⟨0x20A0, 0, 32, 0x4⟩
abbrev CM_URGENT_CNT : Fld := ⟨0x20C0, 0, 32, 0x4⟩
abbrev CM_LOCK_WAIT_CNT : Fld := ⟨0x20E0, 0, 32, 0x0⟩
abbrev CM_DACC_PEAK_PEAK : Fld := ⟨0x20E4, 0, 11, 0x0⟩
abbrev CM_ASM_EVICT_CNT : Fld := ⟨0x20E8, 0, 32, 0x0⟩
abbrev CM_CONF_CNT : Fld := ⟨0x2100, 0, 32, 0x4⟩
abbrev CM_BANK_BUSY_CNT : Fld := ⟨0x2300, 0, 32, 0x4⟩
/-! ### R262 (10_plates_and_sparsity.md) -/
abbrev PLT_CTRL_FORCE_DENSE : Fld := ⟨0x3000, 0, 1, 0x0⟩
abbrev PLT_EVENT_BAD_HDR : Fld := ⟨0x3004, 0, 1, 0x0⟩
abbrev PLT_EVENT_BAD_STRIP : Fld := ⟨0x3004, 1, 1, 0x0⟩
abbrev PLT_EVENT_CFG_ERR : Fld := ⟨0x3004, 2, 1, 0x0⟩
abbrev PLT_BAD_LOC_ROW : Fld := ⟨0x3008, 0, 12, 0x0⟩
abbrev PLT_BAD_LOC_STRIP : Fld := ⟨0x3008, 16, 9, 0x0⟩
abbrev PLT_BAD_LOC_CLASS : Fld := ⟨0x3008, 25, 3, 0x0⟩
abbrev PLT_BAD_LOC_HDR : Fld := ⟨0x3008, 28, 1, 0x0⟩
abbrev PLT_BAD_LOC_VALID : Fld := ⟨0x3008, 31, 1, 0x0⟩
abbrev PLT_CNT_DSTRIP_CNT : Fld := ⟨0x3010, 0, 32, 0x0⟩
abbrev PLT_CNT_CSTRIP_CNT : Fld := ⟨0x3014, 0, 32, 0x0⟩
abbrev PLT_CNT_ROWS_CNT : Fld := ⟨0x3018, 0, 32, 0x0⟩
abbrev PLT_CNT_SAVED_CNT : Fld := ⟨0x301C, 0, 32, 0x0⟩
abbrev PLT_CNT_NNZ_CNT : Fld := ⟨0x3020, 0, 32, 0x0⟩
abbrev PLT_CNT_ZERO_CNT : Fld := ⟨0x3024, 0, 32, 0x0⟩
abbrev PLT_WLK_CMDS_CNT : Fld := ⟨0x3040, 0, 32, 0x0⟩
abbrev PLT_WLK_STEPS_CNT : Fld := ⟨0x3044, 0, 32, 0x0⟩
abbrev PLT_WLK_FLOOR_CNT : Fld := ⟨0x3048, 0, 32, 0x0⟩
abbrev PLT_WLK_IDLE_CNT : Fld := ⟨0x304C, 0, 32, 0x0⟩
abbrev PLT_WLK_SURV_CNT : Fld := ⟨0x3050, 0, 32, 0x0⟩
abbrev PLT_WLK_BPRES_CNT : Fld := ⟨0x3054, 0, 32, 0x0⟩
abbrev PLT_GSTEP_CTL_TAG : Fld := ⟨0x3080, 0, 16, 0x0⟩
abbrev PLT_GSTEP_CTL_VALID : Fld := ⟨0x3080, 16, 1, 0x0⟩
abbrev PLT_GSTEP_UNION : Fld := ⟨0x3100, 0, 14, 0x4⟩
abbrev PLT_GSTEP_STEPS : Fld := ⟨0x3100, 16, 14, 0x4⟩
/-! ### R289 (11_deep_store_and_tables.md) -/
abbrev DS_CTRL_SCRUB_EN : Fld := ⟨0x4000, 0, 1, 0x0⟩
abbrev DS_CTRL_SCRUB_H : Fld := ⟨0x4000, 8, 8, 0x0⟩
abbrev DS_RFM_THR : Fld := ⟨0x4004, 0, 15, 0x0⟩
abbrev DS_STATUS_INFLIGHT : Fld := ⟨0x4008, 0, 7, 0x0⟩
abbrev DS_STATUS_REFRESHING : Fld := ⟨0x4008, 7, 1, 0x0⟩
abbrev DS_STATUS_MODE : Fld := ⟨0x4008, 8, 2, 0x0⟩
abbrev DS_EVENT_CE : Fld := ⟨0x400C, 0, 1, 0x0⟩
abbrev DS_EVENT_UE : Fld := ⟨0x400C, 1, 1, 0x0⟩
abbrev DS_EVENT_POISON_WR : Fld := ⟨0x400C, 2, 1, 0x0⟩
abbrev DS_EVENT_POISON_RD : Fld := ⟨0x400C, 3, 1, 0x0⟩
abbrev DS_EVENT_SCRUB_UE : Fld := ⟨0x400C, 4, 1, 0x0⟩
abbrev DS_EVENT_THROTTLE : Fld := ⟨0x400C, 5, 1, 0x0⟩
abbrev DS_EVENT_CFG_ERR : Fld := ⟨0x400C, 6, 1, 0x0⟩
abbrev DS_ERR_LOC_GRAN : Fld := ⟨0x4010, 0, 23, 0x0⟩
abbrev DS_ERR_LOC_KIND : Fld := ⟨0x4010, 23, 1, 0x0⟩
abbrev DS_ERR_LOC_VALID : Fld := ⟨0x4010, 31, 1, 0x0⟩
abbrev DS_CE_LOC_GRAN : Fld := ⟨0x4014, 0, 23, 0x0⟩
abbrev DS_CE_LOC_VALID : Fld := ⟨0x4014, 31, 1, 0x0⟩
abbrev DS_CNT_CE_CNT : Fld := ⟨0x4018, 0, 32, 0x0⟩
abbrev DS_CNT_UE_CNT : Fld := ⟨0x401C, 0, 32, 0x0⟩
abbrev DS_CNT_RD_CNT : Fld := ⟨0x4020, 0, 32, 0x0⟩
abbrev DS_CNT_WR_CNT : Fld := ⟨0x4024, 0, 32, 0x0⟩
abbrev DS_CNT_RMW_CNT : Fld := ⟨0x4028, 0, 32, 0x0⟩
abbrev DS_CNT_HIT_CNT : Fld := ⟨0x402C, 0, 32, 0x0⟩
abbrev DS_CNT_ACT_CNT : Fld := ⟨0x4030, 0, 32, 0x0⟩
abbrev DS_CNT_RFM_CNT : Fld := ⟨0x4034, 0, 32, 0x0⟩
abbrev DS_CNT_WAIT_CNT : Fld := ⟨0x4038, 0, 32, 0x0⟩
abbrev DS_CNT_MESH_CNT : Fld := ⟨0x403C, 0, 32, 0x0⟩
abbrev DS_SCRUB_POS_GRAN : Fld := ⟨0x4040, 0, 23, 0x0⟩
/-! ### R290 (11_deep_store_and_tables.md) -/
abbrev DS_RREF_STATUS_MODE : Fld := ⟨0x400, 0, 2, 0x0⟩
abbrev DS_RREF_STATUS_TEMP : Fld := ⟨0x400, 8, 8, 0x0⟩
abbrev DS_RREF_STATUS_SENSOR_ERR : Fld := ⟨0x400, 16, 1, 0x0⟩
abbrev DS_RREF_CNT_CNT : Fld := ⟨0x404, 0, 32, 0x0⟩
abbrev DS_RTHR_TICKS_CNT : Fld := ⟨0x408, 0, 32, 0x0⟩
/-! ### R291 (11_deep_store_and_tables.md) -/
abbrev TU_CTRL_DETERM : Fld := ⟨0x5000, 0, 1, 0x0⟩
abbrev TU_CTRL_POLICY : Fld := ⟨0x5000, 1, 1, 0x0⟩
abbrev TU_CTRL_CHAN : Fld := ⟨0x5000, 2, 3, 0x0⟩
abbrev TU_STATUS_BUSY : Fld := ⟨0x5004, 0, 1, 0x0⟩
abbrev TU_STATUS_COMMIT_PEND : Fld := ⟨0x5004, 1, 1, 0x0⟩
abbrev TU_STATUS_DBQ : Fld := ⟨0x5004, 8, 5, 0x0⟩
abbrev TU_STATUS_INFLIGHT : Fld := ⟨0x5004, 16, 14, 0x0⟩
abbrev TU_EVENT_JOB_ERR : Fld := ⟨0x5008, 0, 1, 0x0⟩
abbrev TU_EVENT_MALFORMED : Fld := ⟨0x5008, 1, 1, 0x0⟩
abbrev TU_EVENT_POISON : Fld := ⟨0x5008, 2, 1, 0x0⟩
abbrev TU_EVENT_LOST : Fld := ⟨0x5008, 3, 1, 0x0⟩
abbrev TU_EVENT_ACCESS : Fld := ⟨0x5008, 4, 1, 0x0⟩
abbrev TU_EVENT_STALE : Fld := ⟨0x5008, 5, 1, 0x0⟩
abbrev TU_EVENT_CFG_ERR : Fld := ⟨0x5008, 6, 1, 0x0⟩
abbrev TU_EVENT_FULL : Fld := ⟨0x5008, 7, 1, 0x0⟩
abbrev TU_ERR_TAG_TAG : Fld := ⟨0x500C, 0, 16, 0x0⟩
abbrev TU_ERR_TAG_STATUS : Fld := ⟨0x500C, 16, 4, 0x0⟩
abbrev TU_ERR_TAG_SRC : Fld := ⟨0x500C, 20, 4, 0x0⟩
abbrev TU_HASH_SEED : Fld := ⟨0x5010, 0, 32, 0x0⟩
abbrev TU_IDX_SIZE : Fld := ⟨0x5014, 0, 3, 0x0⟩
abbrev TU_IDX_SLOTG : Fld := ⟨0x5014, 8, 4, 0x0⟩
abbrev TU_IDX_CACHE_ROW : Fld := ⟨0x5014, 16, 12, 0x0⟩
abbrev TU_COMMIT_GO : Fld := ⟨0x5018, 0, 1, 0x0⟩
abbrev TU_IDX_ACTIVE_SIZE : Fld := ⟨0x501C, 0, 3, 0x0⟩
abbrev TU_IDX_ACTIVE_SLOTG : Fld := ⟨0x501C, 8, 4, 0x0⟩
abbrev TU_IDX_ACTIVE_CACHE_ROW : Fld := ⟨0x501C, 16, 12, 0x0⟩
abbrev TU_HASH_ACTIVE_SEED : Fld := ⟨0x5020, 0, 32, 0x0⟩
abbrev TU_CBIND_ELEM : Fld := ⟨0x5040, 0, 5, 0x4⟩
abbrev TU_CBIND_QUEUE : Fld := ⟨0x5040, 5, 3, 0x4⟩
abbrev TU_CBIND_VALID : Fld := ⟨0x5040, 8, 1, 0x4⟩
abbrev TU_CBIND_CREDITS : Fld := ⟨0x5040, 16, 5, 0x4⟩
abbrev TU_IDX_SEL_ENTRY : Fld := ⟨0x5060, 0, 14, 0x0⟩
abbrev TU_IDX_TAG_ID : Fld := ⟨0x5064, 0, 32, 0x0⟩
abbrev TU_IDX_FLAGS_TABLE : Fld := ⟨0x5068, 0, 4, 0x0⟩
abbrev TU_IDX_FLAGS_VALID : Fld := ⟨0x5068, 4, 1, 0x0⟩
abbrev TU_IDX_FLAGS_PIN : Fld := ⟨0x5068, 5, 1, 0x0⟩
abbrev TU_IDX_FLAGS_KIND : Fld := ⟨0x5068, 6, 1, 0x0⟩
abbrev TU_IDX_FLAGS_FILL : Fld := ⟨0x5068, 7, 1, 0x0⟩
abbrev TU_IDX_RD_LO_ADDR_LO : Fld := ⟨0x506C, 0, 32, 0x0⟩
abbrev TU_IDX_RD_HI_ADDR_HI : Fld := ⟨0x5070, 0, 14, 0x0⟩
abbrev TU_CNT_JOBS_CNT : Fld := ⟨0x5080, 0, 32, 0x0⟩
abbrev TU_CNT_LOOKUP_CNT : Fld := ⟨0x5084, 0, 32, 0x0⟩
abbrev TU_CNT_HIT_CNT : Fld := ⟨0x5088, 0, 32, 0x0⟩
abbrev TU_CNT_MISS_CNT : Fld := ⟨0x508C, 0, 32, 0x0⟩
abbrev TU_CNT_INSERT_CNT : Fld := ⟨0x5090, 0, 32, 0x0⟩
abbrev TU_CNT_EVICT_CNT : Fld := ⟨0x5094, 0, 32, 0x0⟩
abbrev TU_CNT_NOINS_CNT : Fld := ⟨0x5098, 0, 32, 0x0⟩
abbrev TU_CNT_GRAN_CNT : Fld := ⟨0x509C, 0, 32, 0x0⟩
abbrev TU_CNT_STALL_INF_CNT : Fld := ⟨0x50A0, 0, 32, 0x0⟩
abbrev TU_CNT_BADID_CNT : Fld := ⟨0x50A4, 0, 32, 0x0⟩
abbrev TU_CNT_REJ_CNT : Fld := ⟨0x50A8, 0, 32, 0x0⟩
abbrev TU_CNT_STALE_CNT : Fld := ⟨0x50AC, 0, 32, 0x0⟩
abbrev TU_CNT_MALFORM_CNT : Fld := ⟨0x50B0, 0, 32, 0x0⟩
abbrev TU_TAB_CFG_FMT : Fld := ⟨0x5100, 0, 4, 0x10⟩
abbrev TU_TAB_CFG_GRAN : Fld := ⟨0x5100, 4, 4, 0x10⟩
abbrev TU_TAB_CFG_VALID : Fld := ⟨0x5100, 8, 1, 0x10⟩
abbrev TU_TAB_CFG_SHARD_ROW : Fld := ⟨0x5100, 16, 12, 0x10⟩
abbrev TU_TAB_SHARDS_SHARDS : Fld := ⟨0x5104, 0, 14, 0x10⟩
abbrev TU_TAB_BASE_BASE : Fld := ⟨0x5108, 0, 29, 0x10⟩
abbrev TU_TAB_ROWS_ROWS : Fld := ⟨0x510C, 0, 32, 0x10⟩
/-! ### R323 (12_wafer_mesh.md) -/
abbrev MSH_STATUS_LINK_UP : Fld := ⟨0x8, 0, 4, 0x0⟩
abbrev MSH_STATUS_CROSSING : Fld := ⟨0x8, 4, 4, 0x0⟩
abbrev MSH_STATUS_DEAD : Fld := ⟨0x8, 8, 4, 0x0⟩
abbrev MSH_STATUS_GOLDEN : Fld := ⟨0x8, 12, 1, 0x0⟩
abbrev MSH_STATUS_SUPPR : Fld := ⟨0x8, 13, 1, 0x0⟩
abbrev MSH_STATUS_REFUSE : Fld := ⟨0x8, 14, 1, 0x0⟩
abbrev MSH_EVENT_HPERR : Fld := ⟨0xC, 0, 1, 0x0⟩
abbrev MSH_EVENT_PPERR : Fld := ⟨0xC, 1, 1, 0x0⟩
abbrev MSH_EVENT_LOST : Fld := ⟨0xC, 2, 1, 0x0⟩
abbrev MSH_EVENT_DEAD : Fld := ⟨0xC, 3, 1, 0x0⟩
abbrev MSH_EVENT_UNREACH : Fld := ⟨0xC, 4, 1, 0x0⟩
abbrev MSH_HOLE_GEN_GEN : Fld := ⟨0x10, 0, 16, 0x0⟩
abbrev MSH_CNT_FWD_CNT : Fld := ⟨0x20, 0, 32, 0x0⟩
abbrev MSH_CNT_DEFL_CNT : Fld := ⟨0x24, 0, 32, 0x0⟩
abbrev MSH_CNT_XDEFL_CNT : Fld := ⟨0x28, 0, 32, 0x0⟩
abbrev MSH_CNT_EJ_CNT : Fld := ⟨0x2C, 0, 32, 0x0⟩
abbrev MSH_CNT_REFUSE_CNT : Fld := ⟨0x30, 0, 32, 0x0⟩
abbrev MSH_CNT_MCREP_CNT : Fld := ⟨0x34, 0, 32, 0x0⟩
abbrev MSH_CNT_SUPPR_CNT : Fld := ⟨0x38, 0, 32, 0x0⟩
abbrev MSH_CNT_LOST_CNT : Fld := ⟨0x3C, 0, 32, 0x0⟩
abbrev MSH_CNT_PERR_CNT : Fld := ⟨0x40, 0, 32, 0x0⟩
/-! ### R324 (12_wafer_mesh.md) -/
abbrev TE_STATUS_INFLIGHT : Fld := ⟨0x1000, 0, 14, 0x0⟩
abbrev TE_STATUS_BUSY : Fld := ⟨0x1000, 14, 1, 0x0⟩
abbrev TE_STATUS_SSTREAMS : Fld := ⟨0x1000, 16, 7, 0x0⟩
abbrev TE_STATUS_RSTREAMS : Fld := ⟨0x1000, 23, 9, 0x0⟩
abbrev TE_POOL_USED : Fld := ⟨0x1004, 0, 10, 0x0⟩
abbrev TE_POOL_PEAK : Fld := ⟨0x1004, 16, 10, 0x0⟩
abbrev TE_EVENT_XFER_ERR : Fld := ⟨0x1008, 0, 1, 0x0⟩
abbrev TE_EVENT_REFUSED : Fld := ⟨0x1008, 1, 1, 0x0⟩
abbrev TE_EVENT_UNREACH : Fld := ⟨0x1008, 2, 1, 0x0⟩
abbrev TE_EVENT_LOST : Fld := ⟨0x1008, 3, 1, 0x0⟩
abbrev TE_EVENT_POISON : Fld := ⟨0x1008, 4, 1, 0x0⟩
abbrev TE_EVENT_ABSENT : Fld := ⟨0x1008, 5, 1, 0x0⟩
abbrev TE_EVENT_CFG_ERR : Fld := ⟨0x1008, 6, 1, 0x0⟩
abbrev TE_EVENT_QSRC : Fld := ⟨0x1008, 7, 1, 0x0⟩
abbrev TE_ERR_TAG_TAG : Fld := ⟨0x100C, 0, 16, 0x0⟩
abbrev TE_ERR_TAG_STATUS : Fld := ⟨0x100C, 16, 4, 0x0⟩
abbrev TE_ERR_TAG_SRC : Fld := ⟨0x100C, 20, 3, 0x0⟩
abbrev TE_MC_ABSENT_COUNT : Fld := ⟨0x1010, 0, 14, 0x0⟩
abbrev TE_MC_ABSENT_TAG : Fld := ⟨0x1010, 16, 16, 0x0⟩
abbrev TE_MC_ABS_X : Fld := ⟨0x1020, 0, 7, 0x4⟩
abbrev TE_MC_ABS_Y : Fld := ⟨0x1020, 8, 7, 0x4⟩
abbrev TE_MC_ABS_VALID : Fld := ⟨0x1020, 31, 1, 0x4⟩
abbrev TE_CBIND_ELEM : Fld := ⟨0x1040, 0, 5, 0x4⟩
abbrev TE_CBIND_QUEUE : Fld := ⟨0x1040, 5, 3, 0x4⟩
abbrev TE_CBIND_VALID : Fld := ⟨0x1040, 8, 1, 0x4⟩
abbrev TE_CBIND_CREDITS : Fld := ⟨0x1040, 16, 5, 0x4⟩
abbrev TE_CNT_INJ_CNT : Fld := ⟨0x1080, 0, 32, 0x0⟩
abbrev TE_CNT_EJ_CNT : Fld := ⟨0x1084, 0, 32, 0x0⟩
abbrev TE_CNT_XFER_CNT : Fld := ⟨0x1088, 0, 32, 0x0⟩
abbrev TE_CNT_REJ_CNT : Fld := ⟨0x108C, 0, 32, 0x0⟩
abbrev TE_CNT_WIN_CNT : Fld := ⟨0x1090, 0, 32, 0x0⟩
abbrev TE_CNT_INF_CNT : Fld := ⟨0x1094, 0, 32, 0x0⟩
abbrev TE_CNT_POOLREF_CNT : Fld := ⟨0x1098, 0, 32, 0x0⟩
abbrev TE_CNT_STALE_CNT : Fld := ⟨0x109C, 0, 32, 0x0⟩
abbrev TE_CNT_DISCARD_CNT : Fld := ⟨0x10A0, 0, 32, 0x0⟩
abbrev TE_CNT_LOST_CNT : Fld := ⟨0x10A4, 0, 32, 0x0⟩
abbrev TE_CNT_QSRC_CNT : Fld := ⟨0x10A8, 0, 32, 0x0⟩
abbrev TE_CNT_CRWAIT_CNT : Fld := ⟨0x10AC, 0, 32, 0x0⟩
abbrev TE_MC_LO_X0 : Fld := ⟨0x1800, 0, 7, 0x8⟩
abbrev TE_MC_LO_Y0 : Fld := ⟨0x1800, 8, 7, 0x8⟩
abbrev TE_MC_LO_X1 : Fld := ⟨0x1800, 16, 7, 0x8⟩
abbrev TE_MC_LO_Y1 : Fld := ⟨0x1800, 24, 7, 0x8⟩
abbrev TE_MC_LO_VALID : Fld := ⟨0x1800, 31, 1, 0x8⟩
abbrev TE_MC_HI_MEMBERS : Fld := ⟨0x1804, 0, 14, 0x8⟩
abbrev TE_MC_HI_MGEN : Fld := ⟨0x1804, 16, 16, 0x8⟩
/-! ### R349 (13_zhevide_fabric.md) -/
abbrev ZL_CTRL_EN : Fld := ⟨0x0, 0, 1, 0x0⟩
abbrev ZL_CTRL_RETRAIN : Fld := ⟨0x0, 1, 1, 0x0⟩
abbrev ZL_CTRL_NARROW_OK : Fld := ⟨0x0, 2, 1, 0x0⟩
abbrev ZL_STATUS_STATE : Fld := ⟨0x4, 0, 3, 0x0⟩
abbrev ZL_STATUS_WIDTH4 : Fld := ⟨0x4, 3, 1, 0x0⟩
abbrev ZL_STATUS_HIGH_GROUP : Fld := ⟨0x4, 4, 1, 0x0⟩
abbrev ZL_STATUS_DATELINE : Fld := ⟨0x4, 5, 1, 0x0⟩
abbrev ZL_STATUS_LANE_OK : Fld := ⟨0x4, 8, 8, 0x0⟩
abbrev ZL_STATUS_LAST_DOWN : Fld := ⟨0x4, 16, 3, 0x0⟩
abbrev ZL_EVENT_UP : Fld := ⟨0x8, 0, 1, 0x0⟩
abbrev ZL_EVENT_DOWN : Fld := ⟨0x8, 1, 1, 0x0⟩
abbrev ZL_EVENT_REPLAY : Fld := ⟨0x8, 2, 1, 0x0⟩
abbrev ZL_EVENT_BAD : Fld := ⟨0x8, 3, 1, 0x0⟩
abbrev ZL_EVENT_CFG_ERR : Fld := ⟨0x8, 4, 1, 0x0⟩
abbrev ZL_PEER_LO_FID_LO : Fld := ⟨0xC, 0, 32, 0x0⟩
abbrev ZL_PEER_HI_FID_HI : Fld := ⟨0x10, 0, 32, 0x0⟩
abbrev ZL_PEER_PORT_PORT : Fld := ⟨0x14, 0, 6, 0x0⟩
abbrev ZL_PEER_PORT_MODID : Fld := ⟨0x14, 16, 12, 0x0⟩
abbrev ZL_LAT_NS : Fld := ⟨0x18, 0, 16, 0x0⟩
abbrev ZL_CRED0_VC0_REQ : Fld := ⟨0x1C, 0, 11, 0x0⟩
abbrev ZL_CRED0_VC0_RSP : Fld := ⟨0x1C, 16, 11, 0x0⟩
abbrev ZL_CRED1_VC1_REQ : Fld := ⟨0x20, 0, 11, 0x0⟩
abbrev ZL_CRED1_VC1_RSP : Fld := ⟨0x20, 16, 11, 0x0⟩
abbrev ZL_TICK_LO_NUM_LO : Fld := ⟨0x24, 0, 32, 0x0⟩
abbrev ZL_TICK_HI_NUM_HI : Fld := ⟨0x28, 0, 32, 0x0⟩
abbrev ZL_CNT_TX_CNT : Fld := ⟨0x40, 0, 32, 0x0⟩
abbrev ZL_CNT_RX_CNT : Fld := ⟨0x44, 0, 32, 0x0⟩
abbrev ZL_CNT_CUT_CNT : Fld := ⟨0x48, 0, 32, 0x0⟩
abbrev ZL_CNT_REPLAY_CNT : Fld := ⟨0x4C, 0, 32, 0x0⟩
abbrev ZL_CNT_FEC_CE_CNT : Fld := ⟨0x50, 0, 32, 0x0⟩
abbrev ZL_CNT_FEC_UE_CNT : Fld := ⟨0x54, 0, 32, 0x0⟩
abbrev ZL_CNT_CRC_CNT : Fld := ⟨0x58, 0, 32, 0x0⟩
abbrev ZL_CNT_STALL_CNT : Fld := ⟨0x5C, 0, 32, 0x0⟩
abbrev ZL_CNT_DROP_CNT : Fld := ⟨0x60, 0, 32, 0x0⟩
abbrev ZL_CNT_UNREACH_CNT : Fld := ⟨0x64, 0, 32, 0x0⟩
abbrev ZL_CNT_BAD_CNT : Fld := ⟨0x68, 0, 32, 0x0⟩
/-! ### R350 (13_zhevide_fabric.md) -/
abbrev FND_CTRL_RUN : Fld := ⟨0x400, 0, 1, 0x0⟩
abbrev FND_CTRL_AUTO : Fld := ⟨0x400, 1, 1, 0x0⟩
abbrev FND_CTRL_TICK_AUTO : Fld := ⟨0x400, 2, 1, 0x0⟩
abbrev FND_CFG_ROOT : Fld := ⟨0x404, 0, 1, 0x0⟩
abbrev FND_CFG_TOPO : Fld := ⟨0x404, 1, 3, 0x0⟩
abbrev FND_CFG_DIMX : Fld := ⟨0x404, 8, 7, 0x0⟩
abbrev FND_CFG_DIMY : Fld := ⟨0x404, 16, 7, 0x0⟩
abbrev FND_FID_LO_FID_LO : Fld := ⟨0x408, 0, 32, 0x0⟩
abbrev FND_FID_HI_FID_HI : Fld := ⟨0x40C, 0, 32, 0x0⟩
abbrev FND_PDIR_DIR : Fld := ⟨0x410, 0, 32, 0x4⟩
abbrev FND_STATUS_STATE : Fld := ⟨0x420, 0, 3, 0x0⟩
abbrev FND_STATUS_ASSIGNED : Fld := ⟨0x420, 3, 1, 0x0⟩
abbrev FND_STATUS_ERR : Fld := ⟨0x420, 4, 4, 0x0⟩
abbrev FND_STATUS_MODULES : Fld := ⟨0x420, 8, 13, 0x0⟩
abbrev FND_ROOT_LO_FID_LO : Fld := ⟨0x424, 0, 32, 0x0⟩
abbrev FND_ROOT_HI_FID_HI : Fld := ⟨0x428, 0, 32, 0x0⟩
abbrev FND_GEN_GEN : Fld := ⟨0x42C, 0, 16, 0x0⟩
abbrev FND_QUIET_MS : Fld := ⟨0x430, 0, 8, 0x0⟩
abbrev FND_RT_SEL_MOD : Fld := ⟨0x434, 0, 12, 0x0⟩
abbrev FND_RT_DATA_PORT0 : Fld := ⟨0x438, 0, 6, 0x0⟩
abbrev FND_RT_DATA_PORT1 : Fld := ⟨0x438, 6, 6, 0x0⟩
abbrev FND_RT_DATA_PORT2 : Fld := ⟨0x438, 12, 6, 0x0⟩
abbrev FND_RT_DATA_PORT3 : Fld := ⟨0x438, 18, 6, 0x0⟩
abbrev FND_RT_DATA_NPORTS : Fld := ⟨0x438, 24, 3, 0x0⟩
abbrev FND_RT_DATA_VALID : Fld := ⟨0x438, 27, 1, 0x0⟩
abbrev FND_RT_DIST_LINKS : Fld := ⟨0x43C, 0, 7, 0x0⟩
abbrev FND_RT_DIST_NS : Fld := ⟨0x43C, 16, 16, 0x0⟩
abbrev ZL_CART_STATE : Fld := ⟨0x480, 0, 2, 0x4⟩
abbrev ZL_CART_POWER : Fld := ⟨0x480, 8, 8, 0x4⟩
/-! ### R368 (14_faults_and_collimation.md) -/
abbrev DOM_FLT_STATUS_MSTATE : Fld := ⟨0x500, 0, 3, 0x0⟩
abbrev DOM_FLT_STATUS_SUSPECT : Fld := ⟨0x500, 3, 1, 0x0⟩
abbrev DOM_FLT_STATUS_REPLACE : Fld := ⟨0x500, 4, 1, 0x0⟩
abbrev DOM_FLT_STATUS_FIRST_CODE : Fld := ⟨0x500, 8, 8, 0x0⟩
abbrev DOM_FLT_STATUS_FIRST_REGION : Fld := ⟨0x500, 16, 7, 0x0⟩
abbrev DOM_FLT_CTRL_SUSPECT : Fld := ⟨0x504, 0, 1, 0x0⟩
abbrev DOM_FLT_CTRL_REPLACE : Fld := ⟨0x504, 1, 1, 0x0⟩
abbrev DOM_FLT_EVENT_DEGRADED : Fld := ⟨0x508, 0, 1, 0x0⟩
abbrev DOM_FLT_EVENT_OCCULT : Fld := ⟨0x508, 1, 1, 0x0⟩
abbrev DOM_FLT_EVENT_POWER : Fld := ⟨0x508, 2, 1, 0x0⟩
abbrev DOM_FLT_EVENT_CLOCK : Fld := ⟨0x508, 3, 1, 0x0⟩
abbrev DOM_FLT_EVENT_DRAIN : Fld := ⟨0x508, 4, 1, 0x0⟩
abbrev DOM_FLT_EVENT_SLIP : Fld := ⟨0x508, 5, 1, 0x0⟩
abbrev DOM_FLT_EVENT_LOST : Fld := ⟨0x508, 6, 1, 0x0⟩
abbrev DOM_FLT_EVENT_COLLIM : Fld := ⟨0x508, 7, 1, 0x0⟩
abbrev DOM_FLT_EVENT_POISON_EXT : Fld := ⟨0x508, 8, 1, 0x0⟩
abbrev DOM_FLT_EVENT_DOMBUS : Fld := ⟨0x508, 9, 1, 0x0⟩
abbrev DOM_FLT_CNT_OCC_CNT : Fld := ⟨0x50C, 0, 32, 0x0⟩
abbrev DOM_FLT_LOG_SEQ_SEQ : Fld := ⟨0x510, 0, 32, 0x0⟩
abbrev DOM_FLT_LOG_SEL_INDEX : Fld := ⟨0x514, 0, 12, 0x0⟩
abbrev DOM_FLT_LOG_SEL_WORD : Fld := ⟨0x514, 16, 3, 0x0⟩
abbrev DOM_FLT_LOG_DATA_DATA : Fld := ⟨0x518, 0, 32, 0x0⟩
/-! ### R369 (14_faults_and_collimation.md) -/
abbrev DOM_COL_CTRL_EN : Fld := ⟨0x600, 0, 1, 0x0⟩
abbrev DOM_COL_CTRL_REPEAT : Fld := ⟨0x600, 1, 1, 0x0⟩
abbrev DOM_COL_CTRL_N : Fld := ⟨0x600, 4, 9, 0x0⟩
abbrev DOM_COL_STATUS_RESULT : Fld := ⟨0x604, 0, 4, 0x0⟩
abbrev DOM_COL_STATUS_NOHIST : Fld := ⟨0x604, 4, 1, 0x0⟩
abbrev DOM_COL_STATUS_TIMEOUT : Fld := ⟨0x604, 5, 1, 0x0⟩
abbrev DOM_COL_STATUS_OPEN : Fld := ⟨0x604, 6, 1, 0x0⟩
abbrev DOM_COL_EVENT_CLOSED : Fld := ⟨0x608, 0, 1, 0x0⟩
abbrev DOM_COL_EVENT_MISMATCH : Fld := ⟨0x608, 1, 1, 0x0⟩
abbrev DOM_COL_EVENT_CLASSIFIED : Fld := ⟨0x608, 2, 1, 0x0⟩
abbrev DOM_COL_EVENT_STRAY : Fld := ⟨0x608, 3, 1, 0x0⟩
abbrev DOM_COL_EVENT_TIMEOUT : Fld := ⟨0x608, 4, 1, 0x0⟩
abbrev DOM_COL_EVENT_CFG_ERR : Fld := ⟨0x608, 5, 1, 0x0⟩
abbrev DOM_COL_EVENT_OVERFLOW : Fld := ⟨0x608, 6, 1, 0x0⟩
abbrev DOM_COL_INTERVAL_I : Fld := ⟨0x60C, 0, 32, 0x0⟩
abbrev DOM_COL_SET_SET : Fld := ⟨0x610, 0, 32, 0x0⟩
abbrev DOM_COL_WAIT_MS : Fld := ⟨0x614, 0, 16, 0x0⟩
abbrev DOM_COL_STRAY_CNT : Fld := ⟨0x618, 0, 32, 0x0⟩
abbrev DOM_COL_KEY_KEY : Fld := ⟨0x620, 0, 32, 0x4⟩
abbrev DOM_COL_DIG_DIG : Fld := ⟨0x630, 0, 32, 0x4⟩
abbrev DOM_COL_CNT_LO_CNT_LO : Fld := ⟨0x640, 0, 32, 0x0⟩
abbrev DOM_COL_CNT_HI_CNT_HI : Fld := ⟨0x644, 0, 32, 0x0⟩
abbrev DOM_COL_PEER_MODID : Fld := ⟨0x660, 0, 12, 0x4⟩
abbrev DOM_COL_PEER_VALID : Fld := ⟨0x660, 12, 1, 0x4⟩
abbrev DOM_COL_PEER_RCVD : Fld := ⟨0x660, 13, 1, 0x4⟩
abbrev DOM_COL_PEER_AGREE : Fld := ⟨0x660, 14, 1, 0x4⟩
abbrev DOM_COL_PEER_NONDET : Fld := ⟨0x660, 15, 1, 0x4⟩
/-! ### R396 (15_host_bridge.md) -/
abbrev HIF_STATUS_READY : Fld := ⟨0x0, 0, 1, 0x0⟩
abbrev HIF_STATUS_FLAGGED : Fld := ⟨0x0, 1, 1, 0x0⟩
abbrev HIF_STATUS_ATT39 : Fld := ⟨0x0, 2, 1, 0x0⟩
abbrev HIF_STATUS_ATT40 : Fld := ⟨0x0, 3, 1, 0x0⟩
abbrev HIF_STATUS_SPEED : Fld := ⟨0x0, 8, 3, 0x0⟩
abbrev HIF_STATUS_WIDTH : Fld := ⟨0x0, 11, 5, 0x0⟩
abbrev HIF_FENCE : Fld := ⟨0x4, 0, 32, 0x0⟩
abbrev HIF_ERR_REFUSED : Fld := ⟨0x8, 0, 1, 0x0⟩
abbrev HIF_ERR_POISON : Fld := ⟨0x8, 1, 1, 0x0⟩
abbrev HIF_ERR_LOST : Fld := ⟨0x8, 2, 1, 0x0⟩
abbrev HIF_ERR_WRITE : Fld := ⟨0x8, 3, 1, 0x0⟩
abbrev HIF_ERR_ADDR_LO_ADDR_LO : Fld := ⟨0xC, 0, 32, 0x0⟩
abbrev HIF_ERR_ADDR_HI_ADDR_HI : Fld := ⟨0x10, 0, 31, 0x0⟩
abbrev HIF_ERR_ADDR_HI_BAR2 : Fld := ⟨0x10, 31, 1, 0x0⟩
abbrev HIF_EVT_PEND_PEND : Fld := ⟨0x20, 0, 32, 0x0⟩
abbrev HIF_EVT_MASK_MASK : Fld := ⟨0x24, 0, 32, 0x0⟩
abbrev HIF_PTM_CTRL_TRIG : Fld := ⟨0x28, 0, 1, 0x0⟩
abbrev HIF_PTM_CTRL_VALID : Fld := ⟨0x28, 1, 1, 0x0⟩
abbrev HIF_PTM_LOCAL_LO_T : Fld := ⟨0x2C, 0, 32, 0x0⟩
abbrev HIF_PTM_LOCAL_HI_T : Fld := ⟨0x30, 0, 32, 0x0⟩
abbrev HIF_PTM_MASTER_LO_T : Fld := ⟨0x34, 0, 32, 0x0⟩
abbrev HIF_PTM_MASTER_HI_T : Fld := ⟨0x38, 0, 32, 0x0⟩
abbrev HIF_WIN_LO_EN : Fld := ⟨0x40, 0, 1, 0x8⟩
abbrev HIF_WIN_LO_BASE_LO : Fld := ⟨0x40, 12, 20, 0x8⟩
abbrev HIF_WIN_HI_BASE_HI : Fld := ⟨0x44, 0, 14, 0x8⟩
abbrev HIF_EVT_ITR_US : Fld := ⟨0x100, 0, 16, 0x4⟩
abbrev HIF_CNT_DMA_RD_CNT : Fld := ⟨0x200, 0, 32, 0x0⟩
abbrev HIF_CNT_DMA_WR_CNT : Fld := ⟨0x204, 0, 32, 0x0⟩
abbrev HIF_CNT_BAR_CNT : Fld := ⟨0x208, 0, 32, 0x0⟩
/-! ### R397 (15_host_bridge.md) -/
abbrev HIF_Q_SQ_LO_BASE : Fld := ⟨0x0, 0, 32, 0x0⟩
abbrev HIF_Q_SQ_HI_BASE : Fld := ⟨0x4, 0, 32, 0x0⟩
abbrev HIF_Q_CQ_LO_BASE : Fld := ⟨0x8, 0, 32, 0x0⟩
abbrev HIF_Q_CQ_HI_BASE : Fld := ⟨0xC, 0, 32, 0x0⟩
abbrev HIF_Q_SIZE_SQ_LOG2 : Fld := ⟨0x10, 0, 5, 0x0⟩
abbrev HIF_Q_SIZE_CQ_LOG2 : Fld := ⟨0x10, 8, 5, 0x0⟩
abbrev HIF_Q_CTRL_EN : Fld := ⟨0x14, 0, 1, 0x0⟩
abbrev HIF_Q_STATUS_STATE : Fld := ⟨0x18, 0, 2, 0x0⟩
abbrev HIF_Q_STATUS_ERR : Fld := ⟨0x18, 4, 4, 0x0⟩
abbrev HIF_Q_STATUS_INPROG : Fld := ⟨0x18, 8, 5, 0x0⟩
abbrev HIF_Q_STATUS_SQ_HEAD : Fld := ⟨0x18, 16, 16, 0x0⟩
abbrev HIF_Q_CQ_TAIL_TAIL : Fld := ⟨0x1C, 0, 16, 0x0⟩
abbrev HIF_Q_CQ_TAIL_PHASE : Fld := ⟨0x1C, 16, 1, 0x0⟩
abbrev HIF_Q_ITR_US : Fld := ⟨0x20, 0, 16, 0x0⟩
/-! ### R398 (15_host_bridge.md) -/
abbrev HIF_APR_BASE_LO_EN : Fld := ⟨0x0, 0, 1, 0x10⟩
abbrev HIF_APR_BASE_LO_RD : Fld := ⟨0x0, 1, 1, 0x10⟩
abbrev HIF_APR_BASE_LO_WR : Fld := ⟨0x0, 2, 1, 0x10⟩
abbrev HIF_APR_BASE_LO_BASE_LO : Fld := ⟨0x0, 12, 20, 0x10⟩
abbrev HIF_APR_BASE_HI_BASE_HI : Fld := ⟨0x4, 0, 32, 0x10⟩
abbrev HIF_APR_LIM_LO_LIM_LO : Fld := ⟨0x8, 12, 20, 0x10⟩
abbrev HIF_APR_LIM_HI_LIM_HI : Fld := ⟨0xC, 0, 32, 0x10⟩
abbrev HIF_APR_LOG_VALID : Fld := ⟨0x100, 0, 1, 0x0⟩
abbrev HIF_APR_LOG_SRC : Fld := ⟨0x100, 1, 3, 0x0⟩
abbrev HIF_APR_LOG_WRITE : Fld := ⟨0x100, 4, 1, 0x0⟩
abbrev HIF_APR_LOG_QUEUE : Fld := ⟨0x100, 8, 8, 0x0⟩
abbrev HIF_APR_LOG_ADDR_LO_ADDR : Fld := ⟨0x104, 0, 32, 0x0⟩
abbrev HIF_APR_LOG_ADDR_HI_ADDR : Fld := ⟨0x108, 0, 32, 0x0⟩
abbrev HIF_APR_LOG_CNT_CNT : Fld := ⟨0x10C, 0, 32, 0x0⟩
abbrev HIF_APR_SYNC : Fld := ⟨0x110, 0, 32, 0x0⟩
/-! ### R421 (16_start_catalogue_trust.md) -/
abbrev CAT_STATUS_RUN_SLOT : Fld := ⟨0x700, 0, 1, 0x0⟩
abbrev CAT_STATUS_RUN_VALID : Fld := ⟨0x700, 1, 1, 0x0⟩
abbrev CAT_STATUS_FALLBACK_PEND : Fld := ⟨0x700, 2, 1, 0x0⟩
abbrev CAT_STATUS_STEP : Fld := ⟨0x700, 4, 4, 0x0⟩
abbrev CAT_STATUS_RESULT : Fld := ⟨0x700, 8, 4, 0x0⟩
abbrev CAT_RUN_GEN_GEN : Fld := ⟨0x704, 0, 32, 0x0⟩
abbrev CAT_SLOT_STATE : Fld := ⟨0x710, 0, 3, 0x8⟩
abbrev CAT_SLOT_ATTEMPTS : Fld := ⟨0x710, 4, 2, 0x8⟩
abbrev CAT_SLOT_CHECK : Fld := ⟨0x710, 8, 4, 0x8⟩
abbrev CAT_SLOT_SVN : Fld := ⟨0x710, 16, 8, 0x8⟩
abbrev CAT_SLOT_GEN_GEN : Fld := ⟨0x714, 0, 32, 0x8⟩
abbrev CAT_CTRL_FALLBACK : Fld := ⟨0x720, 0, 1, 0x0⟩
abbrev CAT_EVENT_FB_REFUSED : Fld := ⟨0x724, 0, 1, 0x0⟩
abbrev CAT_EVENT_UPD_DONE : Fld := ⟨0x724, 1, 1, 0x0⟩
abbrev CAT_EVENT_UPD_ERR : Fld := ⟨0x724, 2, 1, 0x0⟩
abbrev CAT_STEP_MS_MS : Fld := ⟨0x744, 0, 32, 0x4⟩
abbrev CAT_STANDING : Fld := ⟨0x770, 0, 32, 0x0⟩
abbrev CAT_UPD_CTRL_OPEN : Fld := ⟨0x780, 0, 1, 0x0⟩
abbrev CAT_UPD_CTRL_CLOSE : Fld := ⟨0x780, 1, 1, 0x0⟩
abbrev CAT_UPD_CTRL_ABORT : Fld := ⟨0x780, 2, 1, 0x0⟩
abbrev CAT_UPD_CTRL_SLOT : Fld := ⟨0x780, 3, 1, 0x0⟩
abbrev CAT_UPD_STATUS_STATE : Fld := ⟨0x784, 0, 2, 0x0⟩
abbrev CAT_UPD_STATUS_RESULT : Fld := ⟨0x784, 2, 2, 0x0⟩
abbrev CAT_UPD_STATUS_CHECK : Fld := ⟨0x784, 4, 4, 0x0⟩
abbrev CAT_UPD_STATUS_MCTP : Fld := ⟨0x784, 8, 1, 0x0⟩
abbrev CAT_UPD_OFFSET_PIECE : Fld := ⟨0x788, 16, 14, 0x0⟩
/-! ### R422 (16_start_catalogue_trust.md) -/
abbrev CTR_SVN_VALUE : Fld := ⟨0x800, 0, 8, 0x0⟩
abbrev CTR_ENV_CHANGES : Fld := ⟨0x804, 0, 6, 0x0⟩
abbrev CTR_ENV_BOUND : Fld := ⟨0x804, 16, 16, 0x0⟩
abbrev CTR_FID_REBINDS : Fld := ⟨0x808, 0, 4, 0x0⟩
abbrev CTR_FID_BOUND_LO_FID : Fld := ⟨0x80C, 0, 32, 0x0⟩
abbrev CTR_FID_BOUND_HI_FID : Fld := ⟨0x810, 0, 32, 0x0⟩
abbrev CTR_RPL_COUNT : Fld := ⟨0x814, 0, 4, 0x0⟩
abbrev CTR_RPL_REPLACE : Fld := ⟨0x814, 4, 1, 0x0⟩
abbrev CTR_LMS_LEAVES : Fld := ⟨0x818, 0, 31, 0x0⟩
abbrev CTR_STARTS_COUNT : Fld := ⟨0x81C, 0, 32, 0x0⟩
abbrev CTR_STATUS_LIMIT : Fld := ⟨0x820, 0, 1, 0x0⟩
abbrev CTR_STATUS_INTEGRITY : Fld := ⟨0x820, 1, 1, 0x0⟩
abbrev CTR_STATUS_LMS_EXHAUSTED : Fld := ⟨0x820, 2, 1, 0x0⟩
/-! ### R437 (17_dome_and_eyepiece.md) -/
abbrev DOM_ID_STEPPING : Fld := ⟨0x0, 0, 8, 0x0⟩
abbrev DOM_ID_PART : Fld := ⟨0x0, 8, 16, 0x0⟩
abbrev DOM_CLKEN_EN : Fld := ⟨0x4, 0, 9, 0x0⟩
abbrev DOM_MCLK_SRC_SEL : Fld := ⟨0x8, 0, 2, 0x0⟩
abbrev DOM_MCLK_STATUS_READY : Fld := ⟨0xC, 0, 3, 0x0⟩
abbrev DOM_MCLK_STATUS_HOLDOVER : Fld := ⟨0xC, 3, 1, 0x0⟩
abbrev DOM_MCLK_STATUS_SRC_ERR : Fld := ⟨0xC, 4, 1, 0x0⟩
abbrev DOM_MCLK_STATUS_LOS : Fld := ⟨0xC, 5, 1, 0x0⟩
abbrev DOM_ALERT_MASK_MASK : Fld := ⟨0x10, 0, 32, 0x0⟩
/-! ### R438 (17_dome_and_eyepiece.md) -/
abbrev EYE_STATUS_OPEN : Fld := ⟨0xA00, 0, 1, 0x0⟩
abbrev EYE_STATUS_SCOPE : Fld := ⟨0xA00, 1, 4, 0x0⟩
abbrev EYE_STATUS_RESULT : Fld := ⟨0xA00, 8, 4, 0x0⟩
abbrev EYE_STATUS_OPENS : Fld := ⟨0xA00, 16, 16, 0x0⟩
abbrev EYE_CTRL_SUBMIT : Fld := ⟨0xA04, 0, 1, 0x0⟩
abbrev EYE_CTRL_NEWNONCE : Fld := ⟨0xA04, 1, 1, 0x0⟩
abbrev EYE_CTRL_CLOSE : Fld := ⟨0xA04, 2, 1, 0x0⟩
abbrev EYE_EVENT_TOKEN : Fld := ⟨0xA08, 0, 1, 0x0⟩
abbrev EYE_EVENT_ACC_ERR : Fld := ⟨0xA08, 1, 1, 0x0⟩
abbrev EYE_EVENT_SCAN_REF : Fld := ⟨0xA08, 2, 1, 0x0⟩
abbrev EYE_EVENT_TRC_APR : Fld := ⟨0xA08, 3, 1, 0x0⟩
abbrev EYE_NONCE_NONCE : Fld := ⟨0xA10, 0, 32, 0x4⟩
abbrev EYE_EXPIRY_LO_TICK : Fld := ⟨0xA30, 0, 32, 0x0⟩
abbrev EYE_EXPIRY_HI_TICK : Fld := ⟨0xA34, 0, 32, 0x0⟩
abbrev EYE_ACC_ADDR_LO_ADDR : Fld := ⟨0xA40, 0, 32, 0x0⟩
abbrev EYE_ACC_ADDR_HI_ADDR : Fld := ⟨0xA44, 0, 14, 0x0⟩
abbrev EYE_ACC_DATA_DATA : Fld := ⟨0xA48, 0, 32, 0x0⟩
abbrev EYE_ACC_CTRL_GO : Fld := ⟨0xA4C, 0, 1, 0x0⟩
abbrev EYE_ACC_CTRL_WRITE : Fld := ⟨0xA4C, 1, 1, 0x0⟩
abbrev EYE_ACC_CTRL_BUSY : Fld := ⟨0xA4C, 2, 1, 0x0⟩
abbrev EYE_ACC_CTRL_STATUS : Fld := ⟨0xA4C, 8, 4, 0x0⟩
abbrev EYE_SCAN_CTRL_TARGET : Fld := ⟨0xA60, 0, 2, 0x0⟩
abbrev EYE_SCAN_CTRL_CAPTURE : Fld := ⟨0xA60, 2, 1, 0x0⟩
abbrev EYE_SCAN_CTRL_SHIFT : Fld := ⟨0xA60, 3, 1, 0x0⟩
abbrev EYE_SCAN_CTRL_REGION : Fld := ⟨0xA60, 8, 7, 0x0⟩
abbrev EYE_SCAN_DATA_DATA : Fld := ⟨0xA64, 0, 32, 0x0⟩
abbrev EYE_SCAN_LEN_BITS : Fld := ⟨0xA68, 0, 32, 0x0⟩
abbrev EYE_CHR_SEL_EVENT : Fld := ⟨0xB00, 0, 5, 0x4⟩
abbrev EYE_CHR_SEL_REGION : Fld := ⟨0xB00, 8, 7, 0x4⟩
abbrev EYE_CHR_LAST_CNT : Fld := ⟨0xB40, 0, 32, 0x4⟩
abbrev EYE_CHR_TOT_LO : Fld := ⟨0xB80, 0, 32, 0x8⟩
abbrev EYE_CHR_TOT_HI : Fld := ⟨0xB84, 0, 32, 0x8⟩
abbrev EYE_TRC_BASE_LO_BASE : Fld := ⟨0xC00, 0, 32, 0x0⟩
abbrev EYE_TRC_BASE_HI_BASE : Fld := ⟨0xC04, 0, 32, 0x0⟩
abbrev EYE_TRC_SIZE_LOG2 : Fld := ⟨0xC08, 0, 5, 0x0⟩
abbrev EYE_TRC_CTRL_EN : Fld := ⟨0xC0C, 0, 1, 0x0⟩
abbrev EYE_TRC_CTRL_KINDS : Fld := ⟨0xC0C, 1, 7, 0x0⟩
abbrev EYE_TRC_HEAD_HEAD : Fld := ⟨0xC10, 0, 20, 0x0⟩
abbrev EYE_TRC_TAIL_TAIL : Fld := ⟨0xC14, 0, 20, 0x0⟩
abbrev EYE_TRC_DROP_CNT : Fld := ⟨0xC18, 0, 32, 0x0⟩

/-- Part 1 of: The region control page (R70 to R72, R97 to R99, R221, R290). -/
def pageTable1 : List RegRow := [
  ⟨DRV_SRC_SEL, .rw, 0x0, 1, false⟩,
  ⟨DRV_SRC_STATUS_REFA_READY, .ro, 0x0, 1, false⟩,
  ⟨DRV_SRC_STATUS_REFB_READY, .ro, 0x0, 1, false⟩,
  ⟨DRV_SRC_STATUS_RCV_READY, .ro, 0x0, 1, false⟩,
  ⟨DRV_SRC_STATUS_ACTIVE, .ro, 0x0, 1, false⟩,
  ⟨DRV_SRC_STATUS_SRC_ERR, .w1c, 0x0, 1, false⟩,
  ⟨DRV_SRC_STATUS_LOS, .w1c, 0x0, 1, false⟩,
  ⟨DRV_FREQ_MULT, .rwp, 0x50, 1, false⟩,
  ⟨DRV_FREQ_POSTDIV, .rwp, 0x1, 1, false⟩,
  ⟨DRV_FREQ_VCODE, .rwp, 0x0, 1, false⟩,
  ⟨DRV_ACTIVE_MULT, .ro, 0x50, 1, false⟩,
  ⟨DRV_ACTIVE_POSTDIV, .ro, 0x1, 1, false⟩,
  ⟨DRV_ACTIVE_VCODE, .ro, 0x0, 1, false⟩,
  ⟨DRV_STATUS_STATE, .ro, 0x0, 1, false⟩,
  ⟨DRV_STATUS_LOCK, .ro, 0x0, 1, false⟩,
  ⟨DRV_STATUS_REJECT, .w1c, 0x0, 1, false⟩,
  ⟨DRV_STATUS_PEND, .ro, 0x0, 1, false⟩,
  ⟨DRV_STATUS_UNLOCK, .w1c, 0x0, 1, false⟩,
  ⟨DRV_STATUS_RELOCK_NS, .ro, 0x0, 1, false⟩,
  ⟨DRV_SEE_CTRL_THRESH, .rwl, 0x6, 1, false⟩,
  ⟨DRV_SEE_CTRL_STRETCH, .rw, 0x2, 1, false⟩,
  ⟨DRV_SEE_CNT_CNT, .ro, 0x0, 1, true⟩,
  ⟨DRV_SEE_LOST_LOST, .ro, 0x0, 1, true⟩,
  ⟨DRV_CYCLES_CYCLES, .ro, 0x0, 1, true⟩,
  ⟨TRC_SRC_SEL, .rw, 0x0, 1, false⟩,
  ⟨TRC_SRC_STATUS_REFA_READY, .ro, 0x0, 1, false⟩,
  ⟨TRC_SRC_STATUS_REFB_READY, .ro, 0x0, 1, false⟩,
  ⟨TRC_SRC_STATUS_RCV_READY, .ro, 0x0, 1, false⟩,
  ⟨TRC_SRC_STATUS_ACTIVE, .ro, 0x0, 1, false⟩,
  ⟨TRC_SRC_STATUS_SRC_ERR, .w1c, 0x0, 1, false⟩,
  ⟨TRC_SRC_STATUS_LOS, .w1c, 0x0, 1, false⟩,
  ⟨TRC_CTRL_HALF_REQ, .rw, 0x0, 1, false⟩,
  ⟨TRC_CTRL_HALF, .ro, 0x0, 1, false⟩,
  ⟨TRC_CTRL_HALF_THM, .ro, 0x0, 1, false⟩,
  ⟨TRC_STATUS_STATE, .ro, 0x0, 1, false⟩,
  ⟨TRC_STATUS_LOCK, .ro, 0x0, 1, false⟩,
  ⟨TRC_STATUS_UNLOCK, .w1c, 0x0, 1, false⟩,
  ⟨TRC_SEE_CTRL_THRESH, .rwl, 0x6, 1, false⟩,
  ⟨TRC_SEE_CTRL_STRETCH, .rw, 0x2, 1, false⟩,
  ⟨TRC_SEE_CNT_CNT, .ro, 0x0, 1, true⟩,
  ⟨TCK_RSTATUS_OVERRUN, .w1c, 0x0, 1, false⟩,
  ⟨TCK_RSTATUS_SLIP_FAULT, .w1c, 0x0, 1, false⟩,
  ⟨TCK_RSTATUS_LOCAL, .ro, 0x0, 1, false⟩,
  ⟨TCK_RSTATUS_RESYNC, .w1c, 0x0, 1, false⟩,
  ⟨TCK_RSTATUS_MARKER_BAD, .w1c, 0x0, 1, false⟩,
  ⟨TCK_RSTATUS_MISSED, .w1c, 0x0, 1, false⟩,
  ⟨TCK_RSTATUS_SLIP, .ro, 0x0, 1, false⟩,
  ⟨TCK_RNUM_LO_NUM_LO, .ro, 0x0, 1, false⟩]
/-- Part 2 of: The region control page (R70 to R72, R97 to R99, R221, R290). -/
def pageTable2 : List RegRow := [
  ⟨TCK_RNUM_HI_NUM_HI, .ro, 0x0, 1, false⟩,
  ⟨TCK_RSLOT_SLOT, .ro, 0x0, 1, false⟩,
  ⟨ALM_BUDGET_BUDGET, .ro, 0x0, 1, false⟩,
  ⟨ALM_RESERVE_RESERVE, .rw, 0x0, 1, false⟩,
  ⟨ALM_BAL_LO_BAL_LO, .ro, 0x0, 1, false⟩,
  ⟨ALM_BAL_HI_BAL_HI, .ro, 0x0, 1, false⟩,
  ⟨ALM_CARRY_CARRY, .ro, 0x0, 1, false⟩,
  ⟨ALM_STATUS_HOLD, .ro, 0x0, 1, false⟩,
  ⟨ALM_STATUS_HELD, .w1c, 0x0, 1, false⟩,
  ⟨ALM_STATUS_DRIFT, .w1c, 0x0, 1, false⟩,
  ⟨ALM_STATUS_CLIPPED, .w1c, 0x0, 1, false⟩,
  ⟨ALM_STATUS_ZERO, .ro, 0x0, 1, false⟩,
  ⟨ALM_STATUS_DEFICIT, .ro, 0x0, 1, false⟩,
  ⟨ALM_STATUS_CFG_ERR, .w1c, 0x0, 1, false⟩,
  ⟨ALM_STATUS_BAND, .ro, 0x0, 1, false⟩,
  ⟨ALM_HOLD_CCLK_CCLK, .ro, 0x0, 1, true⟩,
  ⟨ALM_USED_USED, .ro, 0x0, 1, true⟩,
  ⟨ALM_BAND_THR_T1, .rwp, 0x37, 1, false⟩,
  ⟨ALM_BAND_THR_T2, .rwp, 0x46, 1, false⟩,
  ⟨ALM_BAND_THR_T3, .rwp, 0x55, 1, false⟩,
  ⟨ALM_DRIFT_CNT_CNT, .ro, 0x0, 1, false⟩,
  ⟨ALM_COEF_COEF, .rwp, 0x0, 64, false⟩,
  ⟨PWR_STATUS_STATE, .ro, 0x0, 1, false⟩,
  ⟨PWR_STATUS_RAIL_OK, .ro, 0x0, 1, false⟩,
  ⟨PWR_STATUS_PARK_CAUSE, .ro, 0x0, 1, false⟩,
  ⟨PWR_STATUS_UNDRAINED, .ro, 0x0, 1, false⟩,
  ⟨PWR_BRK_TRIP, .ro, 0x0, 1, false⟩,
  ⟨PWR_BRK_CAUSE, .ro, 0x0, 1, false⟩,
  ⟨PWR_CTRL_FORCE_DARK, .w1s, 0x0, 1, false⟩,
  ⟨PWR_ILIM_LIMIT, .rwl, 0x140, 1, false⟩,
  ⟨PWR_ENERGY_ENERGY, .ro, 0x0, 1, true⟩,
  ⟨PWR_VA_MV, .ro, 0x0, 1, false⟩,
  ⟨PWR_VT_MV, .ro, 0x0, 1, false⟩,
  ⟨PWR_VS_MV, .ro, 0x0, 1, false⟩,
  ⟨PWR_VDC_MV, .ro, 0x0, 1, false⟩,
  ⟨PWR_VDP_MV, .ro, 0x0, 1, false⟩,
  ⟨PWR_VM_MV, .ro, 0x0, 1, false⟩,
  ⟨PWR_VA_CUR, .ro, 0x0, 1, false⟩,
  ⟨PWR_VT_CUR, .ro, 0x0, 1, false⟩,
  ⟨PWR_VS_CUR, .ro, 0x0, 1, false⟩,
  ⟨PWR_VDC_CUR, .ro, 0x0, 1, false⟩,
  ⟨PWR_VDP_CUR, .ro, 0x0, 1, false⟩,
  ⟨PWR_VM_CUR, .ro, 0x0, 1, false⟩,
  ⟨PWR_LIM_CNT_CNT, .ro, 0x0, 1, true⟩,
  ⟨THM_CTRL_WARN, .rwl, 0x5F, 1, false⟩,
  ⟨THM_CTRL_PARK, .rwl, 0x69, 1, false⟩,
  ⟨THM_STATUS_WARN, .w1c, 0x0, 1, false⟩,
  ⟨THM_STATUS_PARK, .w1c, 0x0, 1, false⟩]
/-- Part 3 of: The region control page (R70 to R72, R97 to R99, R221, R290). -/
def pageTable3 : List RegRow := [
  ⟨THM_STATUS_EMERG, .ro, 0x0, 1, false⟩,
  ⟨THM_STATUS_CFG_ERR, .w1c, 0x0, 1, false⟩,
  ⟨THM_STATUS_LOCK_VIOL, .w1c, 0x0, 1, false⟩,
  ⟨THM_STATUS_HOT, .ro, 0x0, 1, false⟩,
  ⟨THM_MAX_TEMP, .ro, 0x0, 1, false⟩,
  ⟨THM_SEL_SENSOR, .rw, 0x0, 1, false⟩,
  ⟨THM_DATA_TEMP, .ro, 0x0, 1, false⟩,
  ⟨THM_DATA_VALID, .ro, 0x0, 1, false⟩,
  ⟨THM_STORE_W0, .ro, 0x0, 1, false⟩,
  ⟨THM_STORE_W1, .ro, 0x0, 1, false⟩,
  ⟨THM_STORE_W2, .ro, 0x0, 1, false⟩,
  ⟨THM_STORE_W3, .ro, 0x0, 1, false⟩,
  ⟨THM_PARK_CNT_CNT, .ro, 0x0, 1, false⟩,
  ⟨TCK_RSCHED_STATE, .ro, 0x0, 1, false⟩,
  ⟨TCK_RSCHED_EPOCH, .ro, 0x0, 1, false⟩,
  ⟨TCK_RSCHED_EPH, .ro, 0x0, 1, false⟩,
  ⟨TCK_RSCHED_WAIT_BAR, .ro, 0x0, 1, false⟩,
  ⟨TCK_RSCHED_WAIT_GATE, .ro, 0x0, 1, false⟩,
  ⟨TCK_RSCHED_PARKDRAIN, .ro, 0x0, 1, false⟩,
  ⟨TCK_RSTART_LO_START_LO, .ro, 0x0, 1, false⟩,
  ⟨TCK_RSTART_HI_START_HI, .ro, 0x0, 1, false⟩,
  ⟨TCK_RDRAIN_REQ, .w1s, 0x0, 1, false⟩,
  ⟨TCK_RDRAIN_FORCE, .w1s, 0x0, 1, false⟩,
  ⟨TCK_RDRAIN_DRAINED, .ro, 0x0, 1, false⟩,
  ⟨TCK_RDRAIN_TIMEOUT, .w1c, 0x0, 1, false⟩,
  ⟨TCK_RDRAIN_ARM_ERR, .w1c, 0x0, 1, false⟩,
  ⟨TCK_RDRAIN_CCLK_CCLK, .ro, 0x0, 1, false⟩,
  ⟨TCK_RTRUNC_CNT, .ro, 0x0, 1, false⟩,
  ⟨TCK_RSWAPS_CNT, .ro, 0x0, 1, false⟩,
  ⟨TCK_RSET_ROW, .ro, 0x0, 1, false⟩,
  ⟨TCK_RSET_SET, .ro, 0x0, 1, false⟩,
  ⟨DS_RREF_STATUS_MODE, .ro, 0x0, 1, false⟩,
  ⟨DS_RREF_STATUS_TEMP, .ro, 0x0, 1, false⟩,
  ⟨DS_RREF_STATUS_SENSOR_ERR, .ro, 0x0, 1, false⟩,
  ⟨DS_RREF_CNT_CNT, .ro, 0x0, 1, true⟩,
  ⟨DS_RTHR_TICKS_CNT, .ro, 0x0, 1, false⟩]
/-- The region control page (R70 to R72, R97 to R99, R221, R290). -/
def pageTable : List RegRow := pageTable1 ++ pageTable2 ++ pageTable3

/-- Part 1 of: The dome space below the region pages and ports (R31, R69, R100, R222, R350, R368, R369, R421, R422, R437, R438). -/
def domeTable1 : List RegRow := [
  ⟨DOM_DMAP_SEL_INDEX, .rw, 0x0, 1, false⟩,
  ⟨DOM_DMAP_SEL_WORD, .rw, 0x0, 1, false⟩,
  ⟨DOM_DMAP_SEL_PAGE, .rw, 0x0, 1, false⟩,
  ⟨DOM_DMAP_DATA_DATA, .ro, 0xFFFFFFFF, 1, false⟩,
  ⟨DOM_DMAP_GEN_GEN, .ro, 0x0, 1, false⟩,
  ⟨TCK_PERIOD_PERIOD, .rwl, 0x7A12, 1, false⟩,
  ⟨TCK_CTRL_MODE, .rwl, 0x0, 1, false⟩,
  ⟨TCK_CTRL_MASTER_SRC, .rwl, 0x0, 1, false⟩,
  ⟨TCK_CTRL_SLIP_LIMIT, .rwl, 0x4, 1, false⟩,
  ⟨TCK_CTRL_RCV_PORT, .rwl, 0x0, 1, false⟩,
  ⟨TCK_STATUS_CFG_ERR, .w1c, 0x0, 1, false⟩,
  ⟨TCK_STATUS_LOCK_VIOL, .w1c, 0x0, 1, false⟩,
  ⟨TCK_STATUS_MASTER_LOS, .w1c, 0x0, 1, false⟩,
  ⟨TCK_SNAP_LO_STAMP_LO, .ro, 0x0, 1, false⟩,
  ⟨TCK_SNAP_HI_STAMP_HI, .ro, 0x0, 1, false⟩,
  ⟨TCK_SNAP_NUM_LO_NUM_LO, .ro, 0x0, 1, false⟩,
  ⟨TCK_SNAP_NUM_HI_NUM_HI, .ro, 0x0, 1, false⟩,
  ⟨ALM_ENVELOPE_WATTS, .rwl, 0xEA60, 1, false⟩,
  ⟨ALM_MOD_USED_USED, .ro, 0x0, 1, true⟩,
  ⟨PWR_IN_VOLT, .ro, 0x0, 1, false⟩,
  ⟨PWR_IN_CUR, .ro, 0x0, 1, false⟩,
  ⟨PWR_IN_ENERGY_ENERGY, .ro, 0x0, 1, true⟩,
  ⟨TCK_GATE_GATE, .rw, 0x0, 1, false⟩,
  ⟨TCK_EPH_ACTIVE_ACTIVE, .ro, 0x0, 1, false⟩,
  ⟨TCK_EPH_ACTIVE_STANDING, .ro, 0x0, 1, false⟩,
  ⟨TCK_EPH_FORCE_FORCE, .w1s, 0x0, 1, false⟩,
  ⟨TCK_EPH_LAST_STATUS, .ro, 0x0, 1, false⟩,
  ⟨TCK_EPH_LAST_EPH, .ro, 0x0, 1, false⟩,
  ⟨FND_CTRL_RUN, .w1s, 0x0, 1, false⟩,
  ⟨FND_CTRL_AUTO, .rwl, 0x0, 1, false⟩,
  ⟨FND_CTRL_TICK_AUTO, .rwl, 0x0, 1, false⟩,
  ⟨FND_CFG_ROOT, .rwl, 0x0, 1, false⟩,
  ⟨FND_CFG_TOPO, .rwl, 0x0, 1, false⟩,
  ⟨FND_CFG_DIMX, .rwl, 0x0, 1, false⟩,
  ⟨FND_CFG_DIMY, .rwl, 0x0, 1, false⟩,
  ⟨FND_FID_LO_FID_LO, .rwl, 0x0, 1, false⟩,
  ⟨FND_FID_HI_FID_HI, .rwl, 0x0, 1, false⟩,
  ⟨FND_PDIR_DIR, .rwl, 0x0, 4, false⟩,
  ⟨FND_STATUS_STATE, .ro, 0x0, 1, false⟩,
  ⟨FND_STATUS_ASSIGNED, .ro, 0x0, 1, false⟩,
  ⟨FND_STATUS_ERR, .ro, 0x0, 1, false⟩,
  ⟨FND_STATUS_MODULES, .ro, 0x0, 1, false⟩,
  ⟨FND_ROOT_LO_FID_LO, .ro, 0x0, 1, false⟩,
  ⟨FND_ROOT_HI_FID_HI, .ro, 0x0, 1, false⟩,
  ⟨FND_GEN_GEN, .ro, 0x0, 1, false⟩,
  ⟨FND_QUIET_MS, .rwl, 0x14, 1, false⟩,
  ⟨FND_RT_SEL_MOD, .rw, 0x0, 1, false⟩,
  ⟨FND_RT_DATA_PORT0, .ro, 0x0, 1, false⟩]
/-- Part 2 of: The dome space below the region pages and ports (R31, R69, R100, R222, R350, R368, R369, R421, R422, R437, R438). -/
def domeTable2 : List RegRow := [
  ⟨FND_RT_DATA_PORT1, .ro, 0x0, 1, false⟩,
  ⟨FND_RT_DATA_PORT2, .ro, 0x0, 1, false⟩,
  ⟨FND_RT_DATA_PORT3, .ro, 0x0, 1, false⟩,
  ⟨FND_RT_DATA_NPORTS, .ro, 0x0, 1, false⟩,
  ⟨FND_RT_DATA_VALID, .ro, 0x0, 1, false⟩,
  ⟨FND_RT_DIST_LINKS, .ro, 0x0, 1, false⟩,
  ⟨FND_RT_DIST_NS, .ro, 0x0, 1, false⟩,
  ⟨ZL_CART_STATE, .ro, 0x0, 16, false⟩,
  ⟨ZL_CART_POWER, .ro, 0x0, 16, false⟩,
  ⟨DOM_FLT_STATUS_MSTATE, .ro, 0x0, 1, false⟩,
  ⟨DOM_FLT_STATUS_SUSPECT, .ro, 0x0, 1, false⟩,
  ⟨DOM_FLT_STATUS_REPLACE, .ro, 0x0, 1, false⟩,
  ⟨DOM_FLT_STATUS_FIRST_CODE, .ro, 0x0, 1, false⟩,
  ⟨DOM_FLT_STATUS_FIRST_REGION, .ro, 0x0, 1, false⟩,
  ⟨DOM_FLT_CTRL_SUSPECT, .w1s, 0x0, 1, false⟩,
  ⟨DOM_FLT_CTRL_REPLACE, .w1s, 0x0, 1, false⟩,
  ⟨DOM_FLT_EVENT_DEGRADED, .w1c, 0x0, 1, false⟩,
  ⟨DOM_FLT_EVENT_OCCULT, .w1c, 0x0, 1, false⟩,
  ⟨DOM_FLT_EVENT_POWER, .w1c, 0x0, 1, false⟩,
  ⟨DOM_FLT_EVENT_CLOCK, .w1c, 0x0, 1, false⟩,
  ⟨DOM_FLT_EVENT_DRAIN, .w1c, 0x0, 1, false⟩,
  ⟨DOM_FLT_EVENT_SLIP, .w1c, 0x0, 1, false⟩,
  ⟨DOM_FLT_EVENT_LOST, .w1c, 0x0, 1, false⟩,
  ⟨DOM_FLT_EVENT_COLLIM, .w1c, 0x0, 1, false⟩,
  ⟨DOM_FLT_EVENT_POISON_EXT, .w1c, 0x0, 1, false⟩,
  ⟨DOM_FLT_EVENT_DOMBUS, .w1c, 0x0, 1, false⟩,
  ⟨DOM_FLT_CNT_OCC_CNT, .ro, 0x0, 1, false⟩,
  ⟨DOM_FLT_LOG_SEQ_SEQ, .ro, 0x0, 1, false⟩,
  ⟨DOM_FLT_LOG_SEL_INDEX, .rw, 0x0, 1, false⟩,
  ⟨DOM_FLT_LOG_SEL_WORD, .rw, 0x0, 1, false⟩,
  ⟨DOM_FLT_LOG_DATA_DATA, .ro, 0xFFFFFFFF, 1, false⟩,
  ⟨DOM_COL_CTRL_EN, .rw, 0x0, 1, false⟩,
  ⟨DOM_COL_CTRL_REPEAT, .rw, 0x0, 1, false⟩,
  ⟨DOM_COL_CTRL_N, .rw, 0x10, 1, false⟩,
  ⟨DOM_COL_STATUS_RESULT, .ro, 0x0, 1, false⟩,
  ⟨DOM_COL_STATUS_NOHIST, .ro, 0x0, 1, false⟩,
  ⟨DOM_COL_STATUS_TIMEOUT, .ro, 0x0, 1, false⟩,
  ⟨DOM_COL_STATUS_OPEN, .ro, 0x0, 1, false⟩,
  ⟨DOM_COL_EVENT_CLOSED, .w1c, 0x0, 1, false⟩,
  ⟨DOM_COL_EVENT_MISMATCH, .w1c, 0x0, 1, false⟩,
  ⟨DOM_COL_EVENT_CLASSIFIED, .w1c, 0x0, 1, false⟩,
  ⟨DOM_COL_EVENT_STRAY, .w1c, 0x0, 1, false⟩,
  ⟨DOM_COL_EVENT_TIMEOUT, .w1c, 0x0, 1, false⟩,
  ⟨DOM_COL_EVENT_CFG_ERR, .w1c, 0x0, 1, false⟩,
  ⟨DOM_COL_EVENT_OVERFLOW, .w1c, 0x0, 1, false⟩,
  ⟨DOM_COL_INTERVAL_I, .ro, 0x0, 1, false⟩,
  ⟨DOM_COL_SET_SET, .rw, 0x0, 1, false⟩,
  ⟨DOM_COL_WAIT_MS, .rw, 0x64, 1, false⟩]
/-- Part 3 of: The dome space below the region pages and ports (R31, R69, R100, R222, R350, R368, R369, R421, R422, R437, R438). -/
def domeTable3 : List RegRow := [
  ⟨DOM_COL_STRAY_CNT, .ro, 0x0, 1, false⟩,
  ⟨DOM_COL_KEY_KEY, .wo, 0x0, 4, false⟩,
  ⟨DOM_COL_DIG_DIG, .ro, 0x0, 4, false⟩,
  ⟨DOM_COL_CNT_LO_CNT_LO, .ro, 0x0, 1, false⟩,
  ⟨DOM_COL_CNT_HI_CNT_HI, .ro, 0x0, 1, false⟩,
  ⟨DOM_COL_PEER_MODID, .rw, 0x0, 8, false⟩,
  ⟨DOM_COL_PEER_VALID, .rw, 0x0, 8, false⟩,
  ⟨DOM_COL_PEER_RCVD, .ro, 0x0, 8, false⟩,
  ⟨DOM_COL_PEER_AGREE, .ro, 0x0, 8, false⟩,
  ⟨DOM_COL_PEER_NONDET, .ro, 0x0, 8, false⟩,
  ⟨CAT_STATUS_RUN_SLOT, .ro, 0x0, 1, false⟩,
  ⟨CAT_STATUS_RUN_VALID, .ro, 0x0, 1, false⟩,
  ⟨CAT_STATUS_FALLBACK_PEND, .ro, 0x0, 1, false⟩,
  ⟨CAT_STATUS_STEP, .ro, 0x1, 1, false⟩,
  ⟨CAT_STATUS_RESULT, .ro, 0x0, 1, false⟩,
  ⟨CAT_RUN_GEN_GEN, .ro, 0x0, 1, false⟩,
  ⟨CAT_SLOT_STATE, .ro, 0x0, 2, false⟩,
  ⟨CAT_SLOT_ATTEMPTS, .ro, 0x0, 2, false⟩,
  ⟨CAT_SLOT_CHECK, .ro, 0x0, 2, false⟩,
  ⟨CAT_SLOT_SVN, .ro, 0x0, 2, false⟩,
  ⟨CAT_SLOT_GEN_GEN, .ro, 0x0, 2, false⟩,
  ⟨CAT_CTRL_FALLBACK, .w1s, 0x0, 1, false⟩,
  ⟨CAT_EVENT_FB_REFUSED, .w1c, 0x0, 1, false⟩,
  ⟨CAT_EVENT_UPD_DONE, .w1c, 0x0, 1, false⟩,
  ⟨CAT_EVENT_UPD_ERR, .w1c, 0x0, 1, false⟩,
  ⟨CAT_STEP_MS_MS, .ro, 0x0, 10, false⟩,
  ⟨CAT_STANDING, .ro, 0x0, 1, false⟩,
  ⟨CAT_UPD_CTRL_OPEN, .w1s, 0x0, 1, false⟩,
  ⟨CAT_UPD_CTRL_CLOSE, .w1s, 0x0, 1, false⟩,
  ⟨CAT_UPD_CTRL_ABORT, .w1s, 0x0, 1, false⟩,
  ⟨CAT_UPD_CTRL_SLOT, .rw, 0x0, 1, false⟩,
  ⟨CAT_UPD_STATUS_STATE, .ro, 0x0, 1, false⟩,
  ⟨CAT_UPD_STATUS_RESULT, .ro, 0x0, 1, false⟩,
  ⟨CAT_UPD_STATUS_CHECK, .ro, 0x0, 1, false⟩,
  ⟨CAT_UPD_STATUS_MCTP, .ro, 0x0, 1, false⟩,
  ⟨CAT_UPD_OFFSET_PIECE, .rw, 0x0, 1, false⟩,
  ⟨CTR_SVN_VALUE, .ro, 0x0, 1, false⟩,
  ⟨CTR_ENV_CHANGES, .ro, 0x0, 1, false⟩,
  ⟨CTR_ENV_BOUND, .ro, 0x0, 1, false⟩,
  ⟨CTR_FID_REBINDS, .ro, 0x0, 1, false⟩,
  ⟨CTR_FID_BOUND_LO_FID, .ro, 0x0, 1, false⟩,
  ⟨CTR_FID_BOUND_HI_FID, .ro, 0x0, 1, false⟩,
  ⟨CTR_RPL_COUNT, .ro, 0x0, 1, false⟩,
  ⟨CTR_RPL_REPLACE, .ro, 0x0, 1, false⟩,
  ⟨CTR_LMS_LEAVES, .ro, 0x0, 1, false⟩,
  ⟨CTR_STARTS_COUNT, .ro, 0x0, 1, false⟩,
  ⟨CTR_STATUS_LIMIT, .w1c, 0x0, 1, false⟩,
  ⟨CTR_STATUS_INTEGRITY, .ro, 0x0, 1, false⟩]
/-- Part 4 of: The dome space below the region pages and ports (R31, R69, R100, R222, R350, R368, R369, R421, R422, R437, R438). -/
def domeTable4 : List RegRow := [
  ⟨CTR_STATUS_LMS_EXHAUSTED, .ro, 0x0, 1, false⟩,
  ⟨DOM_ID_STEPPING, .ro, 0xB0, 1, false⟩,
  ⟨DOM_ID_PART, .ro, 0x8960, 1, false⟩,
  ⟨DOM_CLKEN_EN, .ro, 0x1FF, 1, false⟩,
  ⟨DOM_MCLK_SRC_SEL, .rw, 0x0, 1, false⟩,
  ⟨DOM_MCLK_STATUS_READY, .ro, 0x1, 1, false⟩,
  ⟨DOM_MCLK_STATUS_HOLDOVER, .ro, 0x0, 1, false⟩,
  ⟨DOM_MCLK_STATUS_SRC_ERR, .w1c, 0x0, 1, false⟩,
  ⟨DOM_MCLK_STATUS_LOS, .w1c, 0x0, 1, false⟩,
  ⟨DOM_ALERT_MASK_MASK, .rw, 0x11, 1, false⟩,
  ⟨EYE_STATUS_OPEN, .ro, 0x0, 1, false⟩,
  ⟨EYE_STATUS_SCOPE, .ro, 0x0, 1, false⟩,
  ⟨EYE_STATUS_RESULT, .ro, 0x0, 1, false⟩,
  ⟨EYE_STATUS_OPENS, .ro, 0x0, 1, false⟩,
  ⟨EYE_CTRL_SUBMIT, .w1s, 0x0, 1, false⟩,
  ⟨EYE_CTRL_NEWNONCE, .w1s, 0x0, 1, false⟩,
  ⟨EYE_CTRL_CLOSE, .w1s, 0x0, 1, false⟩,
  ⟨EYE_EVENT_TOKEN, .w1c, 0x0, 1, false⟩,
  ⟨EYE_EVENT_ACC_ERR, .w1c, 0x0, 1, false⟩,
  ⟨EYE_EVENT_SCAN_REF, .w1c, 0x0, 1, false⟩,
  ⟨EYE_EVENT_TRC_APR, .w1c, 0x0, 1, false⟩,
  ⟨EYE_NONCE_NONCE, .ro, 0x0, 8, false⟩,
  ⟨EYE_EXPIRY_LO_TICK, .ro, 0x0, 1, false⟩,
  ⟨EYE_EXPIRY_HI_TICK, .ro, 0x0, 1, false⟩,
  ⟨EYE_ACC_ADDR_LO_ADDR, .rw, 0x0, 1, false⟩,
  ⟨EYE_ACC_ADDR_HI_ADDR, .rw, 0x0, 1, false⟩,
  ⟨EYE_ACC_DATA_DATA, .rw, 0x0, 1, false⟩,
  ⟨EYE_ACC_CTRL_GO, .w1s, 0x0, 1, false⟩,
  ⟨EYE_ACC_CTRL_WRITE, .rw, 0x0, 1, false⟩,
  ⟨EYE_ACC_CTRL_BUSY, .ro, 0x0, 1, false⟩,
  ⟨EYE_ACC_CTRL_STATUS, .ro, 0x0, 1, false⟩,
  ⟨EYE_SCAN_CTRL_TARGET, .rw, 0x0, 1, false⟩,
  ⟨EYE_SCAN_CTRL_CAPTURE, .w1s, 0x0, 1, false⟩,
  ⟨EYE_SCAN_CTRL_SHIFT, .w1s, 0x0, 1, false⟩,
  ⟨EYE_SCAN_CTRL_REGION, .rw, 0x0, 1, false⟩,
  ⟨EYE_SCAN_DATA_DATA, .rw, 0x0, 1, false⟩,
  ⟨EYE_SCAN_LEN_BITS, .ro, 0x0, 1, false⟩,
  ⟨EYE_CHR_SEL_EVENT, .rw, 0x0, 16, false⟩,
  ⟨EYE_CHR_SEL_REGION, .rw, 0x0, 16, false⟩,
  ⟨EYE_CHR_LAST_CNT, .ro, 0x0, 16, false⟩,
  ⟨EYE_CHR_TOT_LO, .ro, 0x0, 16, false⟩,
  ⟨EYE_CHR_TOT_HI, .ro, 0x0, 16, false⟩,
  ⟨EYE_TRC_BASE_LO_BASE, .rw, 0x0, 1, false⟩,
  ⟨EYE_TRC_BASE_HI_BASE, .rw, 0x0, 1, false⟩,
  ⟨EYE_TRC_SIZE_LOG2, .rw, 0xC, 1, false⟩,
  ⟨EYE_TRC_CTRL_EN, .rw, 0x0, 1, false⟩,
  ⟨EYE_TRC_CTRL_KINDS, .rw, 0x0, 1, false⟩,
  ⟨EYE_TRC_HEAD_HEAD, .rw, 0x0, 1, false⟩]
/-- Part 5 of: The dome space below the region pages and ports (R31, R69, R100, R222, R350, R368, R369, R421, R422, R437, R438). -/
def domeTable5 : List RegRow := [
  ⟨EYE_TRC_TAIL_TAIL, .ro, 0x0, 1, false⟩,
  ⟨EYE_TRC_DROP_CNT, .ro, 0x0, 1, false⟩]
/-- The dome space below the region pages and ports (R31, R69, R100, R222, R350, R368, R369, R421, R422, R437, R438). -/
def domeTable : List RegRow := domeTable1 ++ domeTable2 ++ domeTable3 ++ domeTable4 ++ domeTable5

/-- Part 1 of: The registers of one Zhevide port (R349). -/
def zlTable1 : List RegRow := [
  ⟨ZL_CTRL_EN, .rw, 0x0, 1, false⟩,
  ⟨ZL_CTRL_RETRAIN, .w1s, 0x0, 1, false⟩,
  ⟨ZL_CTRL_NARROW_OK, .rw, 0x1, 1, false⟩,
  ⟨ZL_STATUS_STATE, .ro, 0x0, 1, false⟩,
  ⟨ZL_STATUS_WIDTH4, .ro, 0x0, 1, false⟩,
  ⟨ZL_STATUS_HIGH_GROUP, .ro, 0x0, 1, false⟩,
  ⟨ZL_STATUS_DATELINE, .ro, 0x0, 1, false⟩,
  ⟨ZL_STATUS_LANE_OK, .ro, 0x0, 1, false⟩,
  ⟨ZL_STATUS_LAST_DOWN, .ro, 0x0, 1, false⟩,
  ⟨ZL_EVENT_UP, .w1c, 0x0, 1, false⟩,
  ⟨ZL_EVENT_DOWN, .w1c, 0x0, 1, false⟩,
  ⟨ZL_EVENT_REPLAY, .w1c, 0x0, 1, false⟩,
  ⟨ZL_EVENT_BAD, .w1c, 0x0, 1, false⟩,
  ⟨ZL_EVENT_CFG_ERR, .w1c, 0x0, 1, false⟩,
  ⟨ZL_PEER_LO_FID_LO, .ro, 0x0, 1, false⟩,
  ⟨ZL_PEER_HI_FID_HI, .ro, 0x0, 1, false⟩,
  ⟨ZL_PEER_PORT_PORT, .ro, 0x0, 1, false⟩,
  ⟨ZL_PEER_PORT_MODID, .ro, 0x0, 1, false⟩,
  ⟨ZL_LAT_NS, .ro, 0x0, 1, false⟩,
  ⟨ZL_CRED0_VC0_REQ, .rw, 0x400, 1, false⟩,
  ⟨ZL_CRED0_VC0_RSP, .rw, 0x200, 1, false⟩,
  ⟨ZL_CRED1_VC1_REQ, .rw, 0x100, 1, false⟩,
  ⟨ZL_CRED1_VC1_RSP, .rw, 0x100, 1, false⟩,
  ⟨ZL_TICK_LO_NUM_LO, .ro, 0x0, 1, false⟩,
  ⟨ZL_TICK_HI_NUM_HI, .ro, 0x0, 1, false⟩,
  ⟨ZL_CNT_TX_CNT, .ro, 0x0, 1, true⟩,
  ⟨ZL_CNT_RX_CNT, .ro, 0x0, 1, true⟩,
  ⟨ZL_CNT_CUT_CNT, .ro, 0x0, 1, true⟩,
  ⟨ZL_CNT_REPLAY_CNT, .ro, 0x0, 1, true⟩,
  ⟨ZL_CNT_FEC_CE_CNT, .ro, 0x0, 1, true⟩,
  ⟨ZL_CNT_FEC_UE_CNT, .ro, 0x0, 1, true⟩,
  ⟨ZL_CNT_CRC_CNT, .ro, 0x0, 1, true⟩,
  ⟨ZL_CNT_STALL_CNT, .ro, 0x0, 1, true⟩,
  ⟨ZL_CNT_DROP_CNT, .ro, 0x0, 1, false⟩,
  ⟨ZL_CNT_UNREACH_CNT, .ro, 0x0, 1, false⟩,
  ⟨ZL_CNT_BAD_CNT, .ro, 0x0, 1, false⟩]
/-- The registers of one Zhevide port (R349). -/
def zlTable : List RegRow := zlTable1

/-- Part 1 of: Space 3 of a cluster below the element blocks (R114, R116, R117, R147, R241, R262, R289, R291, R323, R324). -/
def clTable1 : List RegRow := [
  ⟨MSH_ID_X, .ro, 0x0, 1, false⟩,
  ⟨MSH_ID_Y, .ro, 0x0, 1, false⟩,
  ⟨MSH_ID_REGION, .ro, 0x0, 1, false⟩,
  ⟨MSH_ID_HALF, .ro, 0x0, 1, false⟩,
  ⟨MSH_ID_TU, .ro, 0x0, 1, false⟩,
  ⟨MSH_ID_EDGE, .ro, 0x0, 1, false⟩,
  ⟨MSH_MODID_MODID, .ro, 0x0, 1, false⟩,
  ⟨EL_RING_STATUS_EMPTY, .ro, 0xF, 1, false⟩,
  ⟨EL_RING_STATUS_RESV, .ro, 0x0, 1, false⟩,
  ⟨EL_RING_ERR_PERR, .w1c, 0x0, 1, false⟩,
  ⟨EL_RING_ERR_CPERR, .w1c, 0x0, 1, false⟩,
  ⟨EL_RING_ERR_POS, .ro, 0x0, 1, false⟩,
  ⟨EL_RING_TOK_TOK, .ro, 0x0, 4, true⟩,
  ⟨EL_RING_WAIT_WAIT, .ro, 0x0, 4, true⟩,
  ⟨EL_RING_CRSEL_STOP, .rw, 0x0, 1, false⟩,
  ⟨EL_RING_CRSEL_OUT, .rw, 0x0, 1, false⟩,
  ⟨EL_RING_CREDIT_CREDITS, .ro, 0x0, 1, false⟩,
  ⟨EL_RING_CREDIT_DST_STOP, .ro, 0x0, 1, false⟩,
  ⟨EL_RING_CREDIT_DST_QUEUE, .ro, 0x0, 1, false⟩,
  ⟨EL_RING_CREDIT_BOUND, .ro, 0x0, 1, false⟩,
  ⟨MU_CTRL_DETERM, .rw, 0x0, 1, false⟩,
  ⟨MU_STATUS_BUSY, .ro, 0x0, 1, false⟩,
  ⟨MU_STATUS_CHAIN_OPEN, .ro, 0x0, 1, false⟩,
  ⟨MU_STATUS_RESIDENT, .ro, 0x0, 1, false⟩,
  ⟨MU_STATUS_HELD, .ro, 0x0, 1, false⟩,
  ⟨MU_STATUS_QDEPTH, .ro, 0x0, 1, false⟩,
  ⟨MU_STATUS_CQDEPTH, .ro, 0x0, 1, false⟩,
  ⟨MU_STATUS_LAST_ERR, .ro, 0x0, 1, false⟩,
  ⟨MU_EVENT_CMD_ERR, .w1c, 0x0, 1, false⟩,
  ⟨MU_EVENT_MALFORMED, .w1c, 0x0, 1, false⟩,
  ⟨MU_EVENT_POISON, .w1c, 0x0, 1, false⟩,
  ⟨MU_EVENT_STALE, .w1c, 0x0, 1, false⟩,
  ⟨MU_EVENT_CFG_ERR, .w1c, 0x0, 1, false⟩,
  ⟨MU_ERR_TAG_TAG, .ro, 0x0, 1, false⟩,
  ⟨MU_ERR_TAG_SRC, .ro, 0x0, 1, false⟩,
  ⟨MU_LIST_BASE_ROW, .rw, 0x0, 1, false⟩,
  ⟨MU_LIST_CTRL_RUN, .w1s, 0x0, 1, false⟩,
  ⟨MU_LIST_CTRL_ACTIVE, .ro, 0x0, 1, false⟩,
  ⟨MU_LIST_CTRL_NEXT, .ro, 0x0, 1, false⟩,
  ⟨MU_CBIND_ELEM, .rw, 0x0, 8, false⟩,
  ⟨MU_CBIND_QUEUE, .rw, 0x0, 8, false⟩,
  ⟨MU_CBIND_VALID, .rw, 0x0, 8, false⟩,
  ⟨MU_CBIND_CREDITS, .ro, 0x10, 8, false⟩,
  ⟨MU_ACT_LEAK_SLOPE, .rw, 0x3C23D70A, 1, false⟩,
  ⟨MU_ACT_LO_LO, .rw, 0xC1000000, 1, false⟩,
  ⟨MU_ACT_HI_HI, .rw, 0x41000000, 1, false⟩,
  ⟨MU_CNT_STEPS_CNT, .ro, 0x0, 1, true⟩,
  ⟨MU_CNT_GATED_CNT, .ro, 0x0, 1, true⟩]
/-- Part 2 of: Space 3 of a cluster below the element blocks (R114, R116, R117, R147, R241, R262, R289, R291, R323, R324). -/
def clTable2 : List RegRow := [
  ⟨MU_CNT_CMDS_CNT, .ro, 0x0, 1, true⟩,
  ⟨MU_CNT_REJ_CNT, .ro, 0x0, 1, true⟩,
  ⟨MU_CNT_STALL_EPI_CNT, .ro, 0x0, 1, true⟩,
  ⟨MU_CNT_STALL_OPD_CNT, .ro, 0x0, 1, true⟩,
  ⟨MU_CNT_STALL_CPL_CNT, .ro, 0x0, 1, true⟩,
  ⟨MU_CNT_HOLD_CNT, .ro, 0x0, 1, true⟩,
  ⟨MU_CNT_STALE_CNT, .ro, 0x0, 1, false⟩,
  ⟨MU_CNT_MALFORM_CNT, .ro, 0x0, 1, false⟩,
  ⟨MU_ACT_TAB_SLOPE, .rw, 0x0, 64, false⟩,
  ⟨MU_ACT_TAB_ICPT, .rw, 0x0, 64, false⟩,
  ⟨CM_CTRL_DETERM, .rw, 0x0, 1, false⟩,
  ⟨CM_CTRL_URGENT, .rw, 0x20, 1, false⟩,
  ⟨CM_STATUS_NP_BUSY, .ro, 0x0, 1, false⟩,
  ⟨CM_STATUS_APPLY, .ro, 0x0, 1, false⟩,
  ⟨CM_STATUS_DACC_USED, .ro, 0x0, 1, false⟩,
  ⟨CM_EVENT_PERR, .w1c, 0x0, 1, false⟩,
  ⟨CM_EVENT_POISON_RD, .w1c, 0x0, 1, false⟩,
  ⟨CM_EVENT_DACC_OVF, .w1c, 0x0, 1, false⟩,
  ⟨CM_EVENT_NQ_CONFLICT, .w1c, 0x0, 1, false⟩,
  ⟨CM_EVENT_CFG_ERR, .w1c, 0x0, 1, false⟩,
  ⟨CM_PERR_LOC_ROW, .ro, 0x0, 1, false⟩,
  ⟨CM_PERR_LOC_BYTE, .ro, 0x0, 1, false⟩,
  ⟨CM_PERR_LOC_CLASS, .ro, 0x0, 1, false⟩,
  ⟨CM_PERR_LOC_VALID, .ro, 0x0, 1, false⟩,
  ⟨CM_NQ_STATUS_CONFLICT, .ro, 0x0, 1, false⟩,
  ⟨CM_NQ_STATUS_NONEMPTY, .ro, 0x0, 1, false⟩,
  ⟨CM_NQBIND_ELEM, .ro, 0x0, 8, false⟩,
  ⟨CM_NQBIND_OUT, .ro, 0x0, 8, false⟩,
  ⟨CM_NQBIND_VALID, .ro, 0x0, 8, false⟩,
  ⟨CM_NQBIND_COUNT, .ro, 0x0, 8, false⟩,
  ⟨CM_GRANT_RD_CNT, .ro, 0x0, 7, true⟩,
  ⟨CM_GRANT_WR_CNT, .ro, 0x0, 7, true⟩,
  ⟨CM_SLOT_RD_CNT, .ro, 0x0, 7, true⟩,
  ⟨CM_SLOT_WR_CNT, .ro, 0x0, 7, true⟩,
  ⟨CM_URGENT_CNT, .ro, 0x0, 7, true⟩,
  ⟨CM_LOCK_WAIT_CNT, .ro, 0x0, 1, true⟩,
  ⟨CM_DACC_PEAK_PEAK, .ro, 0x0, 1, true⟩,
  ⟨CM_ASM_EVICT_CNT, .ro, 0x0, 1, true⟩,
  ⟨CM_CONF_CNT, .ro, 0x0, 128, true⟩,
  ⟨CM_BANK_BUSY_CNT, .ro, 0x0, 16, true⟩,
  ⟨PLT_CTRL_FORCE_DENSE, .rw, 0x0, 1, false⟩,
  ⟨PLT_EVENT_BAD_HDR, .w1c, 0x0, 1, false⟩,
  ⟨PLT_EVENT_BAD_STRIP, .w1c, 0x0, 1, false⟩,
  ⟨PLT_EVENT_CFG_ERR, .w1c, 0x0, 1, false⟩,
  ⟨PLT_BAD_LOC_ROW, .ro, 0x0, 1, false⟩,
  ⟨PLT_BAD_LOC_STRIP, .ro, 0x0, 1, false⟩,
  ⟨PLT_BAD_LOC_CLASS, .ro, 0x0, 1, false⟩,
  ⟨PLT_BAD_LOC_HDR, .ro, 0x0, 1, false⟩]
/-- Part 3 of: Space 3 of a cluster below the element blocks (R114, R116, R117, R147, R241, R262, R289, R291, R323, R324). -/
def clTable3 : List RegRow := [
  ⟨PLT_BAD_LOC_VALID, .ro, 0x0, 1, false⟩,
  ⟨PLT_CNT_DSTRIP_CNT, .ro, 0x0, 1, true⟩,
  ⟨PLT_CNT_CSTRIP_CNT, .ro, 0x0, 1, true⟩,
  ⟨PLT_CNT_ROWS_CNT, .ro, 0x0, 1, true⟩,
  ⟨PLT_CNT_SAVED_CNT, .ro, 0x0, 1, true⟩,
  ⟨PLT_CNT_NNZ_CNT, .ro, 0x0, 1, true⟩,
  ⟨PLT_CNT_ZERO_CNT, .ro, 0x0, 1, true⟩,
  ⟨PLT_WLK_CMDS_CNT, .ro, 0x0, 1, true⟩,
  ⟨PLT_WLK_STEPS_CNT, .ro, 0x0, 1, true⟩,
  ⟨PLT_WLK_FLOOR_CNT, .ro, 0x0, 1, true⟩,
  ⟨PLT_WLK_IDLE_CNT, .ro, 0x0, 1, true⟩,
  ⟨PLT_WLK_SURV_CNT, .ro, 0x0, 1, true⟩,
  ⟨PLT_WLK_BPRES_CNT, .ro, 0x0, 1, true⟩,
  ⟨PLT_GSTEP_CTL_TAG, .ro, 0x0, 1, false⟩,
  ⟨PLT_GSTEP_CTL_VALID, .ro, 0x0, 1, false⟩,
  ⟨PLT_GSTEP_UNION, .ro, 0x0, 32, false⟩,
  ⟨PLT_GSTEP_STEPS, .ro, 0x0, 32, false⟩,
  ⟨DS_CTRL_SCRUB_EN, .rw, 0x1, 1, false⟩,
  ⟨DS_CTRL_SCRUB_H, .rw, 0x18, 1, false⟩,
  ⟨DS_RFM_THR, .rw, 0x800, 1, false⟩,
  ⟨DS_STATUS_INFLIGHT, .ro, 0x0, 1, false⟩,
  ⟨DS_STATUS_REFRESHING, .ro, 0x0, 1, false⟩,
  ⟨DS_STATUS_MODE, .ro, 0x0, 1, false⟩,
  ⟨DS_EVENT_CE, .w1c, 0x0, 1, false⟩,
  ⟨DS_EVENT_UE, .w1c, 0x0, 1, false⟩,
  ⟨DS_EVENT_POISON_WR, .w1c, 0x0, 1, false⟩,
  ⟨DS_EVENT_POISON_RD, .w1c, 0x0, 1, false⟩,
  ⟨DS_EVENT_SCRUB_UE, .w1c, 0x0, 1, false⟩,
  ⟨DS_EVENT_THROTTLE, .w1c, 0x0, 1, false⟩,
  ⟨DS_EVENT_CFG_ERR, .w1c, 0x0, 1, false⟩,
  ⟨DS_ERR_LOC_GRAN, .ro, 0x0, 1, false⟩,
  ⟨DS_ERR_LOC_KIND, .ro, 0x0, 1, false⟩,
  ⟨DS_ERR_LOC_VALID, .ro, 0x0, 1, false⟩,
  ⟨DS_CE_LOC_GRAN, .ro, 0x0, 1, false⟩,
  ⟨DS_CE_LOC_VALID, .ro, 0x0, 1, false⟩,
  ⟨DS_CNT_CE_CNT, .ro, 0x0, 1, false⟩,
  ⟨DS_CNT_UE_CNT, .ro, 0x0, 1, false⟩,
  ⟨DS_CNT_RD_CNT, .ro, 0x0, 1, true⟩,
  ⟨DS_CNT_WR_CNT, .ro, 0x0, 1, true⟩,
  ⟨DS_CNT_RMW_CNT, .ro, 0x0, 1, true⟩,
  ⟨DS_CNT_HIT_CNT, .ro, 0x0, 1, true⟩,
  ⟨DS_CNT_ACT_CNT, .ro, 0x0, 1, true⟩,
  ⟨DS_CNT_RFM_CNT, .ro, 0x0, 1, true⟩,
  ⟨DS_CNT_WAIT_CNT, .ro, 0x0, 1, true⟩,
  ⟨DS_CNT_MESH_CNT, .ro, 0x0, 1, true⟩,
  ⟨DS_SCRUB_POS_GRAN, .ro, 0x0, 1, false⟩,
  ⟨TU_CTRL_DETERM, .rw, 0x0, 1, false⟩,
  ⟨TU_CTRL_POLICY, .rw, 0x0, 1, false⟩]
/-- Part 4 of: Space 3 of a cluster below the element blocks (R114, R116, R117, R147, R241, R262, R289, R291, R323, R324). -/
def clTable4 : List RegRow := [
  ⟨TU_CTRL_CHAN, .rw, 0x4, 1, false⟩,
  ⟨TU_STATUS_BUSY, .ro, 0x0, 1, false⟩,
  ⟨TU_STATUS_COMMIT_PEND, .ro, 0x0, 1, false⟩,
  ⟨TU_STATUS_DBQ, .ro, 0x0, 1, false⟩,
  ⟨TU_STATUS_INFLIGHT, .ro, 0x0, 1, false⟩,
  ⟨TU_EVENT_JOB_ERR, .w1c, 0x0, 1, false⟩,
  ⟨TU_EVENT_MALFORMED, .w1c, 0x0, 1, false⟩,
  ⟨TU_EVENT_POISON, .w1c, 0x0, 1, false⟩,
  ⟨TU_EVENT_LOST, .w1c, 0x0, 1, false⟩,
  ⟨TU_EVENT_ACCESS, .w1c, 0x0, 1, false⟩,
  ⟨TU_EVENT_STALE, .w1c, 0x0, 1, false⟩,
  ⟨TU_EVENT_CFG_ERR, .w1c, 0x0, 1, false⟩,
  ⟨TU_EVENT_FULL, .w1c, 0x0, 1, false⟩,
  ⟨TU_ERR_TAG_TAG, .ro, 0x0, 1, false⟩,
  ⟨TU_ERR_TAG_STATUS, .ro, 0x0, 1, false⟩,
  ⟨TU_ERR_TAG_SRC, .ro, 0x0, 1, false⟩,
  ⟨TU_HASH_SEED, .rwp, 0x0, 1, false⟩,
  ⟨TU_IDX_SIZE, .rwp, 0x4, 1, false⟩,
  ⟨TU_IDX_SLOTG, .rwp, 0x1, 1, false⟩,
  ⟨TU_IDX_CACHE_ROW, .rwp, 0x0, 1, false⟩,
  ⟨TU_COMMIT_GO, .w1s, 0x0, 1, false⟩,
  ⟨TU_IDX_ACTIVE_SIZE, .ro, 0x4, 1, false⟩,
  ⟨TU_IDX_ACTIVE_SLOTG, .ro, 0x1, 1, false⟩,
  ⟨TU_IDX_ACTIVE_CACHE_ROW, .ro, 0x0, 1, false⟩,
  ⟨TU_HASH_ACTIVE_SEED, .ro, 0x0, 1, false⟩,
  ⟨TU_CBIND_ELEM, .rw, 0x0, 8, false⟩,
  ⟨TU_CBIND_QUEUE, .rw, 0x0, 8, false⟩,
  ⟨TU_CBIND_VALID, .rw, 0x0, 8, false⟩,
  ⟨TU_CBIND_CREDITS, .ro, 0x10, 8, false⟩,
  ⟨TU_IDX_SEL_ENTRY, .rw, 0x0, 1, false⟩,
  ⟨TU_IDX_TAG_ID, .rw, 0x0, 1, false⟩,
  ⟨TU_IDX_FLAGS_TABLE, .rw, 0x0, 1, false⟩,
  ⟨TU_IDX_FLAGS_VALID, .rw, 0x0, 1, false⟩,
  ⟨TU_IDX_FLAGS_PIN, .rw, 0x0, 1, false⟩,
  ⟨TU_IDX_FLAGS_KIND, .rw, 0x0, 1, false⟩,
  ⟨TU_IDX_FLAGS_FILL, .ro, 0x0, 1, false⟩,
  ⟨TU_IDX_RD_LO_ADDR_LO, .rw, 0x0, 1, false⟩,
  ⟨TU_IDX_RD_HI_ADDR_HI, .rw, 0x0, 1, false⟩,
  ⟨TU_CNT_JOBS_CNT, .ro, 0x0, 1, true⟩,
  ⟨TU_CNT_LOOKUP_CNT, .ro, 0x0, 1, true⟩,
  ⟨TU_CNT_HIT_CNT, .ro, 0x0, 1, true⟩,
  ⟨TU_CNT_MISS_CNT, .ro, 0x0, 1, true⟩,
  ⟨TU_CNT_INSERT_CNT, .ro, 0x0, 1, true⟩,
  ⟨TU_CNT_EVICT_CNT, .ro, 0x0, 1, true⟩,
  ⟨TU_CNT_NOINS_CNT, .ro, 0x0, 1, true⟩,
  ⟨TU_CNT_GRAN_CNT, .ro, 0x0, 1, true⟩,
  ⟨TU_CNT_STALL_INF_CNT, .ro, 0x0, 1, true⟩,
  ⟨TU_CNT_BADID_CNT, .ro, 0x0, 1, true⟩]
/-- Part 5 of: Space 3 of a cluster below the element blocks (R114, R116, R117, R147, R241, R262, R289, R291, R323, R324). -/
def clTable5 : List RegRow := [
  ⟨TU_CNT_REJ_CNT, .ro, 0x0, 1, true⟩,
  ⟨TU_CNT_STALE_CNT, .ro, 0x0, 1, false⟩,
  ⟨TU_CNT_MALFORM_CNT, .ro, 0x0, 1, false⟩,
  ⟨TU_TAB_CFG_FMT, .rw, 0x0, 16, false⟩,
  ⟨TU_TAB_CFG_GRAN, .rw, 0x0, 16, false⟩,
  ⟨TU_TAB_CFG_VALID, .rw, 0x0, 16, false⟩,
  ⟨TU_TAB_CFG_SHARD_ROW, .rw, 0x0, 16, false⟩,
  ⟨TU_TAB_SHARDS_SHARDS, .rw, 0x0, 16, false⟩,
  ⟨TU_TAB_BASE_BASE, .rw, 0x0, 16, false⟩,
  ⟨TU_TAB_ROWS_ROWS, .rw, 0x0, 16, false⟩,
  ⟨MSH_STATUS_LINK_UP, .ro, 0x0, 1, false⟩,
  ⟨MSH_STATUS_CROSSING, .ro, 0x0, 1, false⟩,
  ⟨MSH_STATUS_DEAD, .ro, 0x0, 1, false⟩,
  ⟨MSH_STATUS_GOLDEN, .ro, 0x0, 1, false⟩,
  ⟨MSH_STATUS_SUPPR, .ro, 0x0, 1, false⟩,
  ⟨MSH_STATUS_REFUSE, .ro, 0x0, 1, false⟩,
  ⟨MSH_EVENT_HPERR, .w1c, 0x0, 1, false⟩,
  ⟨MSH_EVENT_PPERR, .w1c, 0x0, 1, false⟩,
  ⟨MSH_EVENT_LOST, .w1c, 0x0, 1, false⟩,
  ⟨MSH_EVENT_DEAD, .w1c, 0x0, 1, false⟩,
  ⟨MSH_EVENT_UNREACH, .w1c, 0x0, 1, false⟩,
  ⟨MSH_HOLE_GEN_GEN, .ro, 0x0, 1, false⟩,
  ⟨MSH_CNT_FWD_CNT, .ro, 0x0, 1, true⟩,
  ⟨MSH_CNT_DEFL_CNT, .ro, 0x0, 1, true⟩,
  ⟨MSH_CNT_XDEFL_CNT, .ro, 0x0, 1, true⟩,
  ⟨MSH_CNT_EJ_CNT, .ro, 0x0, 1, true⟩,
  ⟨MSH_CNT_REFUSE_CNT, .ro, 0x0, 1, true⟩,
  ⟨MSH_CNT_MCREP_CNT, .ro, 0x0, 1, true⟩,
  ⟨MSH_CNT_SUPPR_CNT, .ro, 0x0, 1, false⟩,
  ⟨MSH_CNT_LOST_CNT, .ro, 0x0, 1, false⟩,
  ⟨MSH_CNT_PERR_CNT, .ro, 0x0, 1, false⟩,
  ⟨TE_STATUS_INFLIGHT, .ro, 0x0, 1, false⟩,
  ⟨TE_STATUS_BUSY, .ro, 0x0, 1, false⟩,
  ⟨TE_STATUS_SSTREAMS, .ro, 0x0, 1, false⟩,
  ⟨TE_STATUS_RSTREAMS, .ro, 0x0, 1, false⟩,
  ⟨TE_POOL_USED, .ro, 0x0, 1, false⟩,
  ⟨TE_POOL_PEAK, .ro, 0x0, 1, true⟩,
  ⟨TE_EVENT_XFER_ERR, .w1c, 0x0, 1, false⟩,
  ⟨TE_EVENT_REFUSED, .w1c, 0x0, 1, false⟩,
  ⟨TE_EVENT_UNREACH, .w1c, 0x0, 1, false⟩,
  ⟨TE_EVENT_LOST, .w1c, 0x0, 1, false⟩,
  ⟨TE_EVENT_POISON, .w1c, 0x0, 1, false⟩,
  ⟨TE_EVENT_ABSENT, .w1c, 0x0, 1, false⟩,
  ⟨TE_EVENT_CFG_ERR, .w1c, 0x0, 1, false⟩,
  ⟨TE_EVENT_QSRC, .w1c, 0x0, 1, false⟩,
  ⟨TE_ERR_TAG_TAG, .ro, 0x0, 1, false⟩,
  ⟨TE_ERR_TAG_STATUS, .ro, 0x0, 1, false⟩,
  ⟨TE_ERR_TAG_SRC, .ro, 0x0, 1, false⟩]
/-- Part 6 of: Space 3 of a cluster below the element blocks (R114, R116, R117, R147, R241, R262, R289, R291, R323, R324). -/
def clTable6 : List RegRow := [
  ⟨TE_MC_ABSENT_COUNT, .ro, 0x0, 1, false⟩,
  ⟨TE_MC_ABSENT_TAG, .ro, 0x0, 1, false⟩,
  ⟨TE_MC_ABS_X, .ro, 0x0, 8, false⟩,
  ⟨TE_MC_ABS_Y, .ro, 0x0, 8, false⟩,
  ⟨TE_MC_ABS_VALID, .ro, 0x0, 8, false⟩,
  ⟨TE_CBIND_ELEM, .rw, 0x0, 8, false⟩,
  ⟨TE_CBIND_QUEUE, .rw, 0x0, 8, false⟩,
  ⟨TE_CBIND_VALID, .rw, 0x0, 8, false⟩,
  ⟨TE_CBIND_CREDITS, .ro, 0x10, 8, false⟩,
  ⟨TE_CNT_INJ_CNT, .ro, 0x0, 1, true⟩,
  ⟨TE_CNT_EJ_CNT, .ro, 0x0, 1, true⟩,
  ⟨TE_CNT_XFER_CNT, .ro, 0x0, 1, true⟩,
  ⟨TE_CNT_REJ_CNT, .ro, 0x0, 1, true⟩,
  ⟨TE_CNT_WIN_CNT, .ro, 0x0, 1, true⟩,
  ⟨TE_CNT_INF_CNT, .ro, 0x0, 1, true⟩,
  ⟨TE_CNT_POOLREF_CNT, .ro, 0x0, 1, true⟩,
  ⟨TE_CNT_STALE_CNT, .ro, 0x0, 1, false⟩,
  ⟨TE_CNT_DISCARD_CNT, .ro, 0x0, 1, false⟩,
  ⟨TE_CNT_LOST_CNT, .ro, 0x0, 1, false⟩,
  ⟨TE_CNT_QSRC_CNT, .ro, 0x0, 1, false⟩,
  ⟨TE_CNT_CRWAIT_CNT, .ro, 0x0, 1, true⟩,
  ⟨TE_MC_LO_X0, .rw, 0x0, 256, false⟩,
  ⟨TE_MC_LO_Y0, .rw, 0x0, 256, false⟩,
  ⟨TE_MC_LO_X1, .rw, 0x0, 256, false⟩,
  ⟨TE_MC_LO_Y1, .rw, 0x0, 256, false⟩,
  ⟨TE_MC_LO_VALID, .rw, 0x0, 256, false⟩,
  ⟨TE_MC_HI_MEMBERS, .rw, 0x0, 256, false⟩,
  ⟨TE_MC_HI_MGEN, .rw, 0x0, 256, false⟩]
/-- Space 3 of a cluster below the element blocks (R114, R116, R117, R147, R241, R262, R289, R291, R323, R324). -/
def clTable : List RegRow := clTable1 ++ clTable2 ++ clTable3 ++ clTable4 ++ clTable5 ++ clTable6

/-- Part 1 of: The block of one element (R197). -/
def elTable1 : List RegRow := [
  ⟨EL_CTRL_CTX_EN, .rw, 0x0, 1, false⟩,
  ⟨EL_CTRL_ARM, .w1s, 0x0, 1, false⟩,
  ⟨EL_STATUS_READY, .ro, 0x0, 1, false⟩,
  ⟨EL_STATUS_RUN, .ro, 0x0, 1, false⟩,
  ⟨EL_STATUS_FAULTED, .ro, 0x0, 1, false⟩,
  ⟨EL_STATUS_QUIET, .ro, 0x1, 1, false⟩,
  ⟨EL_STATUS_EPOCH, .ro, 0x0, 1, false⟩,
  ⟨EL_STATUS_CHK, .ro, 0x0, 1, false⟩,
  ⟨EL_EVENT_CTX_FAULT, .w1c, 0x0, 1, false⟩,
  ⟨EL_EVENT_STALE, .w1c, 0x0, 1, false⟩,
  ⟨EL_EVENT_CFG_ERR, .w1c, 0x0, 1, false⟩,
  ⟨EL_EVENT_POISON, .w1c, 0x0, 1, false⟩,
  ⟨EL_FAULT_CTX, .ro, 0x0, 1, false⟩,
  ⟨EL_FAULT_CAUSE, .ro, 0x0, 1, false⟩,
  ⟨EL_FAULT_OP, .ro, 0x0, 1, false⟩,
  ⟨EL_OBIND_DST_STOP, .rw, 0x0, 2, false⟩,
  ⟨EL_OBIND_DST_QUEUE, .rw, 0x0, 2, false⟩,
  ⟨EL_OBIND_VALID, .rw, 0x0, 2, false⟩,
  ⟨EL_OBIND_CREDITS, .ro, 0x0, 2, false⟩,
  ⟨EL_OBIND_BUF, .ro, 0x0, 2, false⟩,
  ⟨EL_QCFG_KIND, .rw, 0x0, 8, false⟩,
  ⟨EL_QCFG_COUNT, .ro, 0x0, 8, false⟩,
  ⟨EL_QCFG_OUTST, .ro, 0x0, 8, false⟩,
  ⟨EL_CTR_REMAIN, .ro, 0x0, 4, false⟩,
  ⟨EL_SEND_LO_HDR_LO, .rw, 0x0, 8, false⟩,
  ⟨EL_SEND_HI_HDR_HI, .rw, 0x0, 8, false⟩,
  ⟨EL_CNT_FIRE_S_CNT, .ro, 0x0, 1, true⟩,
  ⟨EL_CNT_FIRE_V_CNT, .ro, 0x0, 1, true⟩,
  ⟨EL_CNT_STALL_CR_CNT, .ro, 0x0, 1, true⟩,
  ⟨EL_CNT_IDLE_CNT, .ro, 0x0, 1, true⟩,
  ⟨EL_CNT_HOLD_CNT, .ro, 0x0, 1, true⟩,
  ⟨EL_CNT_STALE_CNT, .ro, 0x0, 1, false⟩,
  ⟨EL_CNT_DISCARD_CNT, .ro, 0x0, 1, false⟩,
  ⟨EL_CTX_WORD, .rw, 0x0, 32, false⟩]
/-- The block of one element (R197). -/
def elTable : List RegRow := elTable1

/-- Part 1 of: The bridge registers (R396). -/
def hifTable1 : List RegRow := [
  ⟨HIF_STATUS_READY, .ro, 0x0, 1, false⟩,
  ⟨HIF_STATUS_FLAGGED, .ro, 0x0, 1, false⟩,
  ⟨HIF_STATUS_ATT39, .ro, 0x0, 1, false⟩,
  ⟨HIF_STATUS_ATT40, .ro, 0x0, 1, false⟩,
  ⟨HIF_STATUS_SPEED, .ro, 0x0, 1, false⟩,
  ⟨HIF_STATUS_WIDTH, .ro, 0x0, 1, false⟩,
  ⟨HIF_FENCE, .ro, 0x0, 1, false⟩,
  ⟨HIF_ERR_REFUSED, .w1c, 0x0, 1, false⟩,
  ⟨HIF_ERR_POISON, .w1c, 0x0, 1, false⟩,
  ⟨HIF_ERR_LOST, .w1c, 0x0, 1, false⟩,
  ⟨HIF_ERR_WRITE, .ro, 0x0, 1, false⟩,
  ⟨HIF_ERR_ADDR_LO_ADDR_LO, .ro, 0x0, 1, false⟩,
  ⟨HIF_ERR_ADDR_HI_ADDR_HI, .ro, 0x0, 1, false⟩,
  ⟨HIF_ERR_ADDR_HI_BAR2, .ro, 0x0, 1, false⟩,
  ⟨HIF_EVT_PEND_PEND, .w1c, 0x0, 1, false⟩,
  ⟨HIF_EVT_MASK_MASK, .rw, 0x0, 1, false⟩,
  ⟨HIF_PTM_CTRL_TRIG, .w1s, 0x0, 1, false⟩,
  ⟨HIF_PTM_CTRL_VALID, .ro, 0x0, 1, false⟩,
  ⟨HIF_PTM_LOCAL_LO_T, .ro, 0x0, 1, false⟩,
  ⟨HIF_PTM_LOCAL_HI_T, .ro, 0x0, 1, false⟩,
  ⟨HIF_PTM_MASTER_LO_T, .ro, 0x0, 1, false⟩,
  ⟨HIF_PTM_MASTER_HI_T, .ro, 0x0, 1, false⟩,
  ⟨HIF_WIN_LO_EN, .rw, 0x0, 16, false⟩,
  ⟨HIF_WIN_LO_BASE_LO, .rw, 0x0, 16, false⟩,
  ⟨HIF_WIN_HI_BASE_HI, .rw, 0x0, 16, false⟩,
  ⟨HIF_EVT_ITR_US, .rw, 0x1, 32, false⟩,
  ⟨HIF_CNT_DMA_RD_CNT, .ro, 0x0, 1, false⟩,
  ⟨HIF_CNT_DMA_WR_CNT, .ro, 0x0, 1, false⟩,
  ⟨HIF_CNT_BAR_CNT, .ro, 0x0, 1, false⟩]
/-- The bridge registers (R396). -/
def hifTable : List RegRow := hifTable1

/-- Part 1 of: The configuration of one queue (R397). -/
def hqTable1 : List RegRow := [
  ⟨HIF_Q_SQ_LO_BASE, .rw, 0x0, 1, false⟩,
  ⟨HIF_Q_SQ_HI_BASE, .rw, 0x0, 1, false⟩,
  ⟨HIF_Q_CQ_LO_BASE, .rw, 0x0, 1, false⟩,
  ⟨HIF_Q_CQ_HI_BASE, .rw, 0x0, 1, false⟩,
  ⟨HIF_Q_SIZE_SQ_LOG2, .rw, 0x4, 1, false⟩,
  ⟨HIF_Q_SIZE_CQ_LOG2, .rw, 0x4, 1, false⟩,
  ⟨HIF_Q_CTRL_EN, .rw, 0x0, 1, false⟩,
  ⟨HIF_Q_STATUS_STATE, .ro, 0x0, 1, false⟩,
  ⟨HIF_Q_STATUS_ERR, .ro, 0x0, 1, false⟩,
  ⟨HIF_Q_STATUS_INPROG, .ro, 0x0, 1, false⟩,
  ⟨HIF_Q_STATUS_SQ_HEAD, .ro, 0x0, 1, false⟩,
  ⟨HIF_Q_CQ_TAIL_TAIL, .ro, 0x0, 1, false⟩,
  ⟨HIF_Q_CQ_TAIL_PHASE, .ro, 0x1, 1, false⟩,
  ⟨HIF_Q_ITR_US, .rw, 0x1, 1, false⟩]
/-- The configuration of one queue (R397). -/
def hqTable : List RegRow := hqTable1

/-- Part 1 of: The aperture page (R398). -/
def aprTable1 : List RegRow := [
  ⟨HIF_APR_BASE_LO_EN, .rw, 0x0, 16, false⟩,
  ⟨HIF_APR_BASE_LO_RD, .rw, 0x0, 16, false⟩,
  ⟨HIF_APR_BASE_LO_WR, .rw, 0x0, 16, false⟩,
  ⟨HIF_APR_BASE_LO_BASE_LO, .rw, 0x0, 16, false⟩,
  ⟨HIF_APR_BASE_HI_BASE_HI, .rw, 0x0, 16, false⟩,
  ⟨HIF_APR_LIM_LO_LIM_LO, .rw, 0x0, 16, false⟩,
  ⟨HIF_APR_LIM_HI_LIM_HI, .rw, 0x0, 16, false⟩,
  ⟨HIF_APR_LOG_VALID, .w1c, 0x0, 1, false⟩,
  ⟨HIF_APR_LOG_SRC, .ro, 0x0, 1, false⟩,
  ⟨HIF_APR_LOG_WRITE, .ro, 0x0, 1, false⟩,
  ⟨HIF_APR_LOG_QUEUE, .ro, 0x0, 1, false⟩,
  ⟨HIF_APR_LOG_ADDR_LO_ADDR, .ro, 0x0, 1, false⟩,
  ⟨HIF_APR_LOG_ADDR_HI_ADDR, .ro, 0x0, 1, false⟩,
  ⟨HIF_APR_LOG_CNT_CNT, .ro, 0x0, 1, false⟩,
  ⟨HIF_APR_SYNC, .ro, 0x0, 1, false⟩]
/-- The aperture page (R398). -/
def aprTable : List RegRow := aprTable1

/-- Whether copy `o` of the space lies on this row's register (one of its copies). -/
def RegRow.covers (r : RegRow) (o : Nat) : Bool :=
  if r.fld.stride = 0 then o == r.fld.off
  else r.fld.off ≤ o && (o - r.fld.off) % r.fld.stride == 0 && (o - r.fld.off) / r.fld.stride < r.count

/-- The reset word of the register at offset `o`: every listed field at its reset value, zero elsewhere (R8). -/
def regReset (t : List RegRow) (o : Nat) : BitVec 32 :=
  t.foldl (fun w r => if r.covers o then w ||| BitVec.ofNat 32 (r.reset <<< r.fld.lo) else w) 0

/-- A register file: the words that differ from their reset value. -/
abbrev Regs := SMap (BitVec 32)

/-- The i-th copy of a field. -/
def Fld.nth (f : Fld) (i : Nat) : Fld := { f with off := f.off + f.stride * i }

/-- The bits of a word that a field occupies. -/
def Fld.mask (f : Fld) : BitVec 32 := BitVec.ofNat 32 ((2 ^ f.width - 1) <<< f.lo)

/-- The value of a field in a word. -/
def Fld.of (f : Fld) (w : BitVec 32) : Nat := (w.toNat >>> f.lo) % 2 ^ f.width

/-- A word with one field replaced. -/
def Fld.put (f : Fld) (w : BitVec 32) (v : Nat) : BitVec 32 :=
  (w &&& ~~~ f.mask) ||| (BitVec.ofNat 32 (v <<< f.lo) &&& f.mask)

/-- The word of a register file at an offset. -/
def Regs.word (t : List RegRow) (r : Regs) (o : Nat) : BitVec 32 := SMap.get (regReset t) r o

/-- A register file with one word written. -/
def Regs.setWord (t : List RegRow) (r : Regs) (o : Nat) (w : BitVec 32) : Regs := SMap.set (regReset t) r o w

/-- The value of a field. -/
def Regs.rd (t : List RegRow) (r : Regs) (f : Fld) : Nat := f.of (Regs.word t r f.off)

/-- A register file with one field replaced. -/
def Regs.wr (t : List RegRow) (r : Regs) (f : Fld) (v : Nat) : Regs :=
  Regs.setWord t r f.off (f.put (Regs.word t r f.off) v)

/-- Whether the register at `o` reports the last completed tick. -/
def isTickReg (t : List RegRow) (o : Nat) : Bool := t.any (fun r => r.tick && r.covers o)

/-- The tick instant for the counters of one block: every register that reports a completed tick takes the running
count of the tick that ends (zero where nothing was counted), and the other registers stay (R62, R147). -/
def Regs.latch (t : List RegRow) (r cnt : Regs) : Regs :=
  cnt.foldl (fun a p => Regs.setWord t a p.1 p.2) (r.filter (fun p => !isTickReg t p.1))

end Sys2Proof.Machine
end

