-- ==== Sys2Proof/Machine/State.lean ====
section
/-! DEFINITION. The state of the module as plain data: every register block, queue, buffer, memory and hidden count that
the manual names, the queue of commands that wait, and the machine right after reset. Register words live in `Regs`
maps; what a register only mirrors (a queue's depth, a balance) is held once, in the field it mirrors, and computed at a
read. -/

namespace Sys2Proof.Machine

/-! ## Tokens, elements and rings (R103, R168, R169) -/

/-- The tag of a token (R103). -/
inductive Tag where
  | data | last | pred | mark
  deriving DecidableEq, Repr

/-- A queue entry: payload, tag, the producer's epoch and the poison flag (R169). -/
structure Tok where
  data : W64
  tag : Tag
  epoch : Nat
  poison : Bool
  deriving DecidableEq, Repr

/-- A token on a ring: the ring (0-3), the producer stop and its output binding, the consumer stop and queue, and the slot of the ring that it
rides (R102, R103; 0 while it waits at an output). -/
structure RingTok where
  ring : Nat
  src : Nat
  out : Nat
  dst : Nat
  queue : Nat
  tok : Tok
  slot : Nat
  deriving DecidableEq, Repr

/-- A credit return on a ring (R107): the ring, the producer stop that receives it, its output binding, and the slot in whose sideband it rides (none
while it waits for a slot whose CVALID is clear). -/
structure RingCredit where
  ring : Nat
  stop : Nat
  out : Nat
  slot : Option Nat
  deriving DecidableEq, Repr

/-- The states of a context (R194). -/
inductive CtxState where
  | idle | wait | run | fault
  deriving DecidableEq, Repr

/-- The run of a COUNT, NCOUNT or PENC context (R185-R187): the base or mask it started from, the inner and outer
lengths, and how many tokens of the inner and outer runs it has emitted. -/
structure Run where
  base : Nat
  inner : Nat
  outer : Nat
  i : Nat
  o : Nat
  deriving DecidableEq, Repr

/-- One context of an element (R168, R194): its state, its run, its accumulator and whether it has taken DATA since its
last LAST, and MERGEA's next input (R184). -/
structure Ctx where
  state : CtxState
  run : Run
  acc : W64
  accOpen : Bool
  turn : Bool
  deriving DecidableEq, Repr

/-- A context at start. -/
def Ctx.reset : Ctx := ⟨.idle, ⟨0, 0, 0, 0, 0⟩, 0, false, false⟩

/-- One element (R168): its EL_ registers and running counts, its input queues and output buffers, its contexts, the
round-robin pointer, CVTMX's block buffer, element memory with the words of bad parity, the count of accumulate
requests since the slot began (R234), the armed set's seeds by queue (R214), by queue how many tokens must leave before its seed has (R201), and the
contexts of the SENDs whose pairs the transit engine has not taken, oldest first (R192). -/
structure Elem where
  regs : Regs
  cnt : Regs
  queues : SMap (List Tok)
  out0 : List Tok
  out1 : List Tok
  ctxs : SMap Ctx
  ptr : Nat
  block : List W32
  mem : Mem
  bad : NSet
  seq : Nat
  seeds : List (Nat × Tok)
  seedWait : SMap Nat
  sends : List Nat
  deriving DecidableEq, Repr

/-- An element at start. -/
def Elem.reset : Elem := ⟨[], [], [], [], [], [], 0, [], [], [], 0, [], [], []⟩

/-! ## The matrix unit (R119, R126, R131) -/

/-- One ring lane of stop 32 (R126): tokens that have arrived, the words assembled so far with their epoch and whether one was poisoned, whether
the eight words are complete, and whether the lane discards up to the next LAST. -/
structure Lane where
  toks : List Tok
  words : List W64
  epoch : Nat
  bad : Bool
  full : Bool
  discard : Bool
  deriving DecidableEq, Repr

/-- A lane at start. -/
def Lane.reset : Lane := ⟨[], [], 0, false, false, false⟩

/-- A command in the command queue (R127): its words, its epoch, its source (lane 0-7, or 8 for the list), the status of its entry checks
(R129) and its place in command order (R131). -/
structure MuCmd where
  words : List W64
  epoch : Nat
  src : Nat
  status : Nat
  seq : Nat
  deriving DecidableEq, Repr

/-- One tile pair in the epilogue buffer (R134): its n-block and m-tile, its 512 accumulator values in row order (32 rows
of 16 columns), and whether it is poisoned (R144). -/
structure TilePair where
  n : Nat
  t : Nat
  vals : List W32
  bad : Bool
  deriving DecidableEq, Repr

/-- What the header row of a plate says of the strips written so far (R244, R245, R248): the form of each, the elements that are not zero, the
blocks present, the bytes, whether every element is finite, and whether the plate's contents are not defined (R129, R250). -/
structure PlateSum where
  forms : List Bool
  nnz : Nat
  present : Nat
  bytes : Nat
  finite : Bool
  clash : Bool
  deriving DecidableEq, Repr

/-- A plate with no strip written. -/
def PlateSum.start : PlateSum := ⟨[], 0, 0, 64, true, false⟩

/-- A started command (R130): the command, its tile pairs in the epilogue buffer, the status it will complete with, the header rows of A and of the
residual as the fill read them (R251), the output row permutation, the two stochastic-rounding generators' states and whether they were seeded (R146),
the n-block that the folder runs next, whether the folder has stopped (R144, R145, R252), whether that was for a forced replacement (R145),
the rows of the strip in assembly and whether it is poisoned, the plate so far, U and S of each group of n-block 0 (R262), and the rows of scales and of biases
that the epilogue holds, with whether each is poisoned (R137, R144). -/
structure MuRun where
  cmd : MuCmd
  epi : List TilePair
  status : Nat
  headA : Option (List Byte)
  headR : Option (List Byte)
  perm : List Nat
  sr0 : Nat
  sr1 : Nat
  seeded : Bool
  next : Nat
  stopped : Bool
  stale : Bool
  strip : List (Nat × List Nat)
  stripBad : Bool
  plate : PlateSum
  groups : List (Nat × Nat)
  scaleRow : List Byte × Bool
  biasRow : List Byte × Bool
  deriving DecidableEq, Repr

/-- An entry of the completion queue (R131). -/
structure MuDone where
  tag : Nat
  status : Nat
  dense : Bool
  spilled : Bool
  cbytes : Nat
  cbind : Nat
  epoch : Nat
  seq : Nat
  deriving DecidableEq, Repr

/-- The chain that is open at the queue's entry (R136): its M and N and its epoch. -/
structure Chain where
  m : Nat
  n : Nat
  epoch : Nat
  deriving DecidableEq, Repr

/-- The chain whose FIRST the folder has started and whose LAST it has not (R136): whether it failed, whether it holds accumulator tiles, and
its epoch. -/
structure OpenChain where
  failed : Bool
  resident : Bool
  epoch : Nat
  deriving DecidableEq, Repr

/-- The matrix unit (R119): lanes, list entries fetched, the source after the last one served, the command queue and the number the next
command takes, the open chain at the entry and at the folder, its resident tiles (FP32, key row × 512 + column, and the n-blocks of poisoned
tiles), the weight buffer and the scale store, each by slot (R121, R133), started commands in order, the completion queue, and LIST_ROW of the armed set
where its LIST_VALID is set (R214). -/
structure Mu where
  lanes : SMap Lane
  list : List (List W64)
  rr : Nat
  queue : List MuCmd
  serial : Nat
  chain : Option Chain
  folding : Option OpenChain
  tiles : SMap W32
  badTiles : NSet
  weights : SMap (List Byte)
  scales : SMap (List Byte)
  runs : List MuRun
  cq : List MuDone
  setList : Option Nat
  deriving DecidableEq, Repr

/-- The matrix unit at start. -/
def Mu.reset : Mu := ⟨[], [], 0, [], 0, none, none, [], [], [], [], [], [], none⟩

/-! ## Cluster memory (R223-R237) -/

/-- A narrow-port token with the ring it came on (R105: a response uses the lane of its request). -/
structure NTok where
  tok : Tok
  ring : Nat
  deriving DecidableEq, Repr

/-- An accumulate-write in flight (R232): the byte address of its 64-bit word or block, the bytes to write back, their mask,
whether the result is poisoned; its row is locked while it is held. -/
structure NAcc where
  queue : Nat
  addr : Nat
  data : List Byte
  mask : List Bool
  poison : Bool
  deriving DecidableEq, Repr

/-- The key of a staged contribution (R234): source module, y, x, endpoint and sequence number. -/
structure DKey where
  modId : Nat
  y : Nat
  x : Nat
  ep : Nat
  seq : Nat
  deriving DecidableEq, Repr

/-- A staged contribution (R234): the 64-byte block's address, the lane mask by byte, the kind (3 FP32, 4 BF16), the key, the
data and whether it is poisoned. -/
structure DEntry where
  addr : Nat
  mask : List Bool
  kind : Nat
  key : DKey
  data : List Byte
  poison : Bool
  deriving DecidableEq, Repr

/-- A row-assembly buffer (R236): its row, the transfers with a payload in it, its eight granules (none where not valid) with their byte enables and
poison, the add-into kind of its transfer (0 none, 2 INT32, 3 FP32, 4 BF16), and the class of its last payload's writes (R225). -/
structure AsmBuf where
  row : Nat
  xfers : List Nat
  grans : List (Option (List Byte × List Bool × Bool))
  kind : Nat
  cls : Nat
  deriving DecidableEq, Repr

/-! ## The deep store (R263-R271) -/

/-- A request that the store port holds (R265): its source (0 the transit engine of this cluster, 1 the table unit, 2 the mesh), the tag
its source knows it by, whether it writes, the granule's space 2 offset, and for a write the 64 bytes, their enables, the add-into kind (0
none, 2 INT32, 3 FP32, 4 BF16) and whether they are poisoned; for a mesh read the RD that it answers. -/
structure DsReq where
  src : Nat
  tag : Nat
  write : Bool
  off : Nat
  data : List Byte
  mask : List Bool
  add : Nat
  poison : Bool
  reply : Option Pkt
  deriving DecidableEq, Repr

/-! ## The table unit (R273-R288) -/

/-- An entry of the row index (R275), with the time of its last use for LRU (R276) and the number of slot reads pending. -/
structure IdxEntry where
  table : Nat
  id : Nat
  valid : Bool
  pin : Bool
  redirect : Bool
  fill : Bool
  addr : Nat
  used : Nat
  deriving DecidableEq, Repr

/-- An index entry at start. -/
def IdxEntry.reset : IdxEntry := ⟨0, 0, false, false, false, false, 0, 0⟩

/-- One ring queue of stop 35 (R278, R280): its tokens, the descriptor words taken from it, whether the descriptor is complete and its job not yet started, and
whether the queue discards up to the next MARK. -/
structure TuQueue where
  toks : List Tok
  words : List Tok
  full : Bool
  discard : Bool
  deriving DecidableEq, Repr

/-- A bag of a job in progress (R284): its accumulator lanes (FP32; none before its first ID), the number of IDs pooled, and whether it is
poisoned. -/
structure Bag where
  acc : List W32
  pooled : Nat
  poison : Bool
  deriving DecidableEq, Repr

/-- A job that has started (R279): its descriptor, epoch, source (0-7, or 8), status so far, entries changed, its bags, the IDs not yet looked up
with their bags (and whether the ID is poisoned), how many lookups it made, the groups of 16 bags written, the plate so far, whether it is
of a stale epoch, its serial number, and in ring form how many bags its queue has still to end. -/
structure TuJob where
  w0 : W64
  w1 : W64
  epoch : Nat
  src : Nat
  status : Nat
  changed : Nat
  bags : List Bag
  todo : List (Nat × W64 × Bool)
  pos : Nat
  written : List Nat
  plate : PlateSum
  stale : Bool
  serial : Nat
  left : Nat
  deriving DecidableEq, Repr

/-- A granule in flight to the pooler (R283): its job's serial number, its bag, the lookup it belongs to, its place in the row, the ID's weight, the
index entry it fills (none where it fills none), whether it is pooled into its bag at all (an INSERT's is not), its own serial number, whether
it has arrived, its data and failure status, whether it has been pooled, and whether it came from a slot. -/
structure Gather where
  job : Nat
  bag : Nat
  pos : Nat
  gran : Nat
  weight : W32
  fill : Option Nat
  pool : Bool
  serial : Nat
  arrived : Bool
  data : List Byte
  status : Nat
  pooled : Bool
  hit : Bool
  deriving DecidableEq, Repr

/-- A completion that waits for its credit (R282). -/
structure TuDone where
  tag : Nat
  status : Nat
  dense : Bool
  count : Nat
  cbind : Nat
  cen : Bool
  epoch : Nat
  deriving DecidableEq, Repr

/-- The table unit (R273): the ring queues, the doorbell FIFO with each job's epoch, the round-robin pointer, the row
index and its use clock, started jobs, granules in flight, completions, and whether a commit is pending. -/
structure Tu where
  queues : SMap TuQueue
  doorbell : List (W64 × W64 × Nat)
  rr : Nat
  index : SMap IdxEntry
  clock : Nat
  jobs : List TuJob
  serial : Nat
  gathers : List Gather
  done : List TuDone
  commit : Bool
  deriving DecidableEq, Repr

/-- The table unit at start. -/
def Tu.reset : Tu := ⟨[], [], 0, [], 0, [], 0, [], [], false⟩

/-! ## The mesh (R292-R321) -/

/-- A send stream (R305): its key, the next sequence number, the sequence numbers outstanding (oldest first) with the
transfer each belongs to, and the packets that wait for the window of 64. -/
structure SendStream where
  sep : Nat
  dmod : Nat
  dy : Nat
  dx : Nat
  chan : Nat
  next : Nat
  outst : List (Nat × Nat)
  waiting : List (Pkt × Nat)
  deriving DecidableEq, Repr

/-- The transfer that a receive stream lands (R316): its number at this engine, the OPEN's fields, the rows that a plate's packets fill (R261; log
entry 15), the granules delivered so far, and its status. -/
structure Landing where
  id : Nat
  gran : Nat
  space : Nat
  add : Nat
  plate : Bool
  ngran : Nat
  tag : Nat
  firstBe : Nat
  lastBe : Nat
  rows : List Nat
  count : Nat
  status : Nat
  deriving DecidableEq, Repr

/-- A receive stream (R306): its key, the expected sequence number, pooled packets, the deliveries not yet acknowledged, the
open landing, whether it absorbs packets after a loss (R310), the add-into granules delivered since the slot began
(R316), the TCLK since its last delivery, counted to 131,072 (R306), and whether it is one of the 8 entries kept for golden packets (R300). -/
structure RecvStream where
  smod : Nat
  sy : Nat
  sx : Nat
  sep : Nat
  chan : Nat
  expect : Nat
  known : Bool
  pool : List Pkt
  unacked : Nat
  landing : Option Landing
  absorb : Bool
  adds : Nat
  idle : Nat
  kept : Bool
  deriving DecidableEq, Repr

/-- An entry of the end-to-end credit table (R312): its key, its credits, whether it is failed, and the tokens being packed. -/
structure CreditEntry where
  src : Nat
  dmod : Nat
  dy : Nat
  dx : Nat
  elem : Nat
  queue : Nat
  chan : Nat
  credits : Nat
  failed : Bool
  pack : List Tok
  deriving DecidableEq, Repr

/-- End-to-end credits owed to a source (R312). -/
structure Owed where
  smod : Nat
  sy : Nat
  sx : Nat
  src : Nat
  elem : Nat
  queue : Nat
  owed : Nat
  deriving DecidableEq, Repr

/-- A transfer that this agent has started, or a GET that it serves (R314-R319): its number, its kind (1 PUT, 2 GET, 3 MCAST,
4 a served GET, 5 a single-granule write, 6 an RD), its TAG, its input queue, CEN and binding, its epoch, the stream's
destination and channel, granules, its status so far, whether it moves a plate, and for MCAST the members expected,
acknowledgements counted and absent members. -/
structure Xfer where
  id : Nat
  kind : Nat
  tag : Nat
  src : Nat
  cen : Bool
  cbind : Nat
  epoch : Nat
  dmod : Nat
  dy : Nat
  dx : Nat
  dep : Nat
  chan : Nat
  ngran : Nat
  status : Nat
  plate : Bool
  members : Nat
  acks : Nat
  absent : List Nat
  owner : Nat
  deriving DecidableEq, Repr

/-- A completion that waits for its credit (R319). -/
structure TeDone where
  tag : Nat
  status : Nat
  plate : Bool
  count : Nat
  cbind : Nat
  cen : Bool
  epoch : Nat
  deriving DecidableEq, Repr

/-- An agent of the mesh: send streams, items tracked, packets that wait to be injected, the number the next item
takes, and its count of unordered packets to other modules (R305, R310, R318, R338). The transit engine, the table unit and a host-bridge
attachment each have one. -/
structure Sender where
  streams : List SendStream
  items : List Xfer
  out : List Pkt
  serial : Nat
  fab : Nat
  deriving DecidableEq, Repr

/-- A mesh agent at start. -/
def Sender.reset : Sender := ⟨[], [], [], 0, 0⟩

/-- A member's count of the multicast granules it has received from one source on one channel (R321). -/
structure McCount where
  smod : Nat
  sy : Nat
  sx : Nat
  sep : Nat
  chan : Nat
  count : Nat
  fence : Option (Nat × Nat)
  deriving DecidableEq, Repr

/-- The transit engine (R305-R321): its input queues and their round-robin pointer, its sender side, receive streams, the
credit table, credits owed, the source that each element queue is bound to (R313, key element × 8 + queue) and the one that last fed it (R312), multicast
counts, GETs it serves that wait, and completions. -/
structure Te where
  queues : SMap (List Tok)
  rr : Nat
  send : Sender
  recv : List RecvStream
  credit : List CreditEntry
  owed : List Owed
  bound : SMap (Option (Nat × Nat × Nat × Nat))
  fed : SMap (Option (Nat × Nat × Nat × Nat))
  mc : List McCount
  done : List TeDone
  deriving DecidableEq, Repr

/-- The transit engine at start. -/
def Te.reset : Te := ⟨[], 0, Sender.reset, [], [], [], [], [], [], []⟩

/-! ## The cluster (R101) -/

/-- Check symbols of a stored granule (R264). -/
abbrev Check := List Byte

/-- One cluster (R101): its space 3 registers except the elements', their running counts of the tick, and per agent what the
registers do not hold. `mem`, `memBad`, `rowPoison`: cluster memory, bytes stored with bad parity, and poison bits (R223);
`narrow`, `accs`, `staging`: the narrow port (R228, R232, R234); `asm`: row-assembly buffers, oldest payload first (R236); `ds`,
`dsErr`: the column's granule bytes, by physical sub-array address, and for a granule whose stored check symbols are not
those of its data the difference (R264); `dsq`, `dsOpen`, `dsAct`: requests, open DRAM rows and activates per bank (R265, R266,
R271); `ringToks`, `ringCreds`, `ringResv`: tokens and credit returns on the rings, and reservations (ring, stop, slot) (R102-R107); `out`: tokens that
wait to enter a ring at stops 32, 33, 35 and 36; `fifo`: the router's input buffers (key plane × 8 + port: N, E, S, W, local),
`xcred`: credits of its crossings (key plane × 4 + direction, R302); `arrivals`: packets the local port has delivered; `attach`: the
host-bridge attachment (R22); `fenced`, `occGen`: the fence of an occultation (R33) and its map generation (R321); `npRd`, `npWr`: the queue of the
narrow port that is next for a read grant and for a write grant (R229); `rfab`: the router's count of unordered packets that it sends itself to another
module (R338); `dsBlock`: the TCLK for which a refresh still blocks the column (R269). -/
structure Cluster where
  regs : Regs
  cnt : Regs
  elems : SMap Elem
  mu : Mu
  mem : Mem
  memBad : NSet
  rowPoison : NSet
  narrow : SMap (List NTok)
  accs : List NAcc
  staging : List DEntry
  asm : List AsmBuf
  ds : Mem
  dsErr : SMap Check
  dsq : List DsReq
  dsOpen : SMap Nat
  dsAct : SMap Nat
  tu : Tu
  te : Te
  tuSend : Sender
  attach : Sender
  ringToks : List RingTok
  ringCreds : List RingCredit
  ringResv : List (Nat × Nat × Nat)
  out : SMap (List RingTok)
  fifo : SMap (List Pkt)
  xcred : SMap Nat
  arrivals : List Pkt
  fenced : Bool
  occGen : Nat
  npRd : Nat
  npWr : Nat
  rfab : Nat
  dsBlock : Nat
  deriving DecidableEq, Repr

/-- A cluster at start. -/
def Cluster.reset : Cluster :=
  ⟨[], [], [], Mu.reset, [], [], [], [], [], [], [], [], [], [], [], [], Tu.reset, Te.reset, Sender.reset, Sender.reset,
    [], [], [], [], [], [], [], false, 0, 0, 0, 0, 0⟩

/-! ## The region (R13, R39-R72, R73-R99, R199-R221) -/

/-- A schedule entry of a region (R217), its budget after the clip (R85). -/
structure Slot where
  budget : Nat
  work : Bool
  newset : Bool
  seed : Bool
  list : Bool
  reserve : Nat
  set : Nat
  drainAt : Nat
  gate : Bool
  deriving DecidableEq, Repr

/-- A collimation bucket (R359): the sum, the count, and whether a contribution was NONDET. -/
structure Bucket where
  sum : Nat
  count : Nat
  nondet : Bool
  deriving DecidableEq, Repr

/-- An empty bucket. -/
def Bucket.reset : Bucket := ⟨0, 0, false⟩

/-- One region: its control-page registers and the running counts of the tick; the almanac's active thresholds and
coefficients, the reserve in effect (µJ), balance and energy debited this tick (fJ), and events of the current CCLK not
yet debited, by class (R73-R81); junction-sensor readings in quarter degrees, by sensor, whether the warning threshold is crossed, and whether any tick time was parked
(R86, R91); the region tick number, the ephemeris start tick, whether a marker has armed the tick, consecutive ticks it made on
its own counter, whether the last tick was one of them, and whether a marker decoded before the expected instant gives its instant after it (R44, R45); whether the acquisition in progress
answers an unlock of the transit clock (R54); the region's schedule, its loop slot, the entry of the slot it runs, and how many slots it has
finished (R200, R204-R206); whether a slot-end drain waits for the unpark (R203), and whether a slot start waits for a relock to end (R204); the buckets of the open interval and of the next one, and whether the
first is frozen (R360, R361); the hole map of the region controller, its opaque clusters and, from 8,960 on, its dead regions, with its
version (R303); whether refresh was THROTTLED in the tick (R290); and the
chronograph's counts of the running and of the completed tick (R435); whether it is in FAULT since a forced replacement did not empty it (R352), and
whether FORCE was written to it while its controller was silent (R353); whether it has had a tick instant (R72); whether its sensors have been
converted (R99); and the sets of swaps that wait for the compute clocks (R204). -/
structure Region where
  regs : Regs
  cnt : Regs
  almActive : Regs
  reserve : Nat
  balance : Int
  used : Nat
  ev : SMap Nat
  temps : SMap Nat
  warnOn : Bool
  parkedTick : Bool
  num : Nat
  start : Nat
  armed : Bool
  locals : Nat
  lastLocal : Bool
  late : Bool
  trcTry : Bool
  sched : List Slot
  loop : Option Nat
  slot : Option Slot
  passed : Nat
  drainWaits : Bool
  startDue : Bool
  bucket0 : Bucket
  bucket1 : Bucket
  frozen : Bool
  holes : NSet
  holeGen : Nat
  throttled : Bool
  chr : SMap Nat
  chrLast : SMap Nat
  forceOver : Bool
  forceAsked : Bool
  ticked : Bool
  converted : Bool
  swapsDue : List Nat
  deriving DecidableEq, Repr

/-- A region at start. -/
def Region.reset : Region :=
  ⟨[], [], [], 0, 0, 0, [], [], false, false, 0, 0, false, 0, false, false, false, [], none, none, 0, false, false,
    Bucket.reset, Bucket.reset, false, [], 0, false, [], [], false, false, false, false, []⟩

/-! ## Zhevide ports and the finder (R325-R350) -/

/-- A frame kept for retry (R333): its FSEQ and contents. -/
structure Frame where
  fseq : Nat
  body : FrameBody
  deriving DecidableEq, Repr

/-- A Zhevide port: its registers and running counts, egress queues and ingress buffer by (VC, class) pair, the transmitter's
credits and the credits owed to the peer by pair, the retry buffer, the next FSEQ to send and to expect, the last ACKSEQ
received, whether an acknowledgement and NAKREQ are owed, the frames that a replay has still to resend, replays without ACKSEQ advancing, the replay's
ACKSEQ, whether an expected frame is missing (1), finder messages to send with the port each came from (R342), columns since the last IDLE and ALIGN column (R329), whether a TICK column
is due, the lanes lit and then deskewed so far (R335), the number of the last TICK column, whether the port goes OFF once its ingress is empty,
the adapter's count of unordered packets (R338), and the peer's last time stamp (R335). -/
structure Port where
  regs : Regs
  cnt : Regs
  egress : SMap (List LinkPkt)
  ingress : SMap (List LinkPkt)
  credits : SMap Nat
  owed : SMap Nat
  retry : List Frame
  txSeq : Nat
  rxSeq : Nat
  acked : Nat
  ackOwed : Bool
  nakOwed : Bool
  replay : List Frame
  replays : Nat
  replayAck : Option Nat
  nakFrames : Nat
  finder : List (Option Nat × FrameBody)
  sinceIdle : Nat
  sinceAlign : Nat
  tickDue : Bool
  deskewed : Nat
  tick : Nat
  disabling : Bool
  fab : Nat
  peerStamp : Nat
  deriving DecidableEq, Repr

/-- A port at start. -/
def Port.reset : Port :=
  ⟨[], [], [], [], [], [], [], 0, 0, 4095, false, false, [], 0, none, 0, [], 0, 0, false, 0, 0, false, 0, 0⟩

/-- A routing entry (R338, R350): its ports, the links on the path and the path's latency. -/
structure RouteEntry where
  ports : List Nat
  links : Nat
  ns : Nat
  deriving DecidableEq, Repr

/-- The finder (R342-R346): the records held by identity, whether a first run since start has finished, IDs by identity, the
routing table by module ID, the identity by module ID, and the version of the own record. -/
structure Finder where
  recs : List AdjRec
  ranOnce : Bool
  ids : List (Nat × Nat)
  root : Nat
  routes : SMap (Option RouteEntry)
  version : Nat
  deriving DecidableEq, Repr

/-! ## The host bridge (R370-R398) -/

/-- An entry in progress in a job queue (R388-R391): its serial number, command ID, operation, whether it signals and whether an ephemeris-end record
is owed, the ephemeris concerned, its status so far, bytes moved, the pieces or reads not yet answered, the host and module addresses, its
length, the bytes whose pieces or reads have been sent, and whether its record is discarded (R387). -/
structure Job where
  serial : Nat
  cid : Nat
  opc : Nat
  irq : Bool
  notify : Bool
  eph : Option Nat
  status : Nat
  moved : Nat
  waiting : Nat
  host : Nat
  maddr : Nat
  length : Nat
  sent : Nat
  mute : Bool
  deriving DecidableEq, Repr

/-- A completion record that is due (R392). -/
structure CqRec where
  cid : Nat
  status : Nat
  eph : Option Nat
  kind : Nat
  value : Nat
  irq : Bool
  deriving DecidableEq, Repr

/-- A queue pair (R385-R387): its configuration registers, the host's SQ tail and CQ head, the entries fetched and not started (eight words each), the
entries in progress, records due, and the ephemeris of its latest successful LOAD. -/
structure HostQ where
  regs : Regs
  sqTail : Nat
  cqHead : Nat
  entries : List (List W64)
  jobs : List Job
  due : List CqRec
  lastLoad : Option Nat
  deriving DecidableEq, Repr

/-- A queue at reset. -/
def HostQ.reset : HostQ := ⟨[], 0, 0, [], [], [], none⟩

/-- A posted write of BAR2 with blocks not yet acknowledged (R379): its number, its offset, and how many blocks wait. -/
structure Posted where
  id : Nat
  off : Nat
  waiting : Nat
  deriving DecidableEq, Repr

/-- A read that the bridge has not completed (R378-R380): its number, whether it is of BAR2 (else a read of BAR0), its offset, the posted writes
that arrived before it and are not acknowledged, whether its mesh reads are on their way, the blocks not yet answered, the bytes, its failure (0 none, 1 refused, 2 poisoned, 3
lost), and the module address that the window gave each block as the read arrived, none where it refused it (R377). -/
structure BarRead where
  id : Nat
  bar2 : Bool
  off : Nat
  waits : List Nat
  issued : Bool
  waiting : Nat
  data : List Byte
  failed : Nat
  addrs : List (Option Nat)
  deriving DecidableEq, Repr

/-- The host bridge: its registers, the aperture page, the queues, the MSI-X table by word, vectors with a cause not yet
signalled, whether the function is in D3hot (R371), posted writes not yet acknowledged, reads that wait, the next transfer
number, the channel that the next piece of a COPY takes, the queue that the round robin serves next (R390), the MSI-X function mask (R395), DMA byte counts, and the ephemeris-end records owed by ephemeris number:
queue and command ID (R393). -/
structure Bridge where
  hif : Regs
  apr : Regs
  queues : SMap HostQ
  msix : SMap W32
  causes : NSet
  d3hot : Bool
  posted : List Posted
  reads : List BarRead
  serial : Nat
  rr : Nat
  nextQ : Nat
  fmask : Bool
  rdBytes : Nat
  wrBytes : Nat
  owed : SMap (Option (Nat × Nat))
  deriving DecidableEq, Repr

/-! ## The dome controller (R25-R38, R351-R369, R399-R438) -/

/-- A record of the defect map (R28): CSTAT, ROUTER, CAUSE and the valid remap entries in order. TU and EDGE follow from
the cluster's place. -/
structure DefRec where
  cstat : Nat
  router : Bool
  cause : Nat
  remaps : List Nat
  deriving DecidableEq, Repr

/-- A record of an enabled, transit-good cluster. -/
def DefRec.reset : DefRec := ⟨0, false, 0, []⟩

/-- An ephemeris number in use (R218, R222): its regions, its placed clusters in record order, whether it is standing, DIAG, DETERM,
the status its completion will carry, its set images: cluster, set number and first row (R214), and its largest slot budget as loaded (R219). -/
structure Eph where
  regions : List Nat
  places : List Nat
  standing : Bool
  diag : Bool
  determ : Bool
  endStatus : Nat
  sets : List (Nat × Nat × Nat)
  budget : Nat
  deriving DecidableEq, Repr

/-- A slot of the boot record (R400, R405). -/
structure CatSlot where
  state : Nat
  attempts : Nat
  check : Nat
  deriving DecidableEq, Repr

/-- The counter store (R413). -/
structure Counters where
  svn : Nat
  changes : Nat
  bound : Nat
  rebinds : Nat
  fidBound : Nat
  rpl : Nat
  lms : Nat
  starts : Nat
  deriving DecidableEq, Repr

/-- An image waiting for the loader (R390, R218): its bytes, and the job that brought it: queue, command ID, NOTIFY and
whether it signals. -/
structure LoadReq where
  image : List Byte
  queue : Nat
  serial : Nat
  cid : Nat
  notify : Bool
  deriving DecidableEq, Repr

/-- Collimation (R359-R364): the current interval, whether its closing is armed, the first-run digests of the last 16
intervals (interval, sum, count), records held by peer entry, records that have arrived, own records that wait for the peers (oldest first),
and DOM_COL_CNT's live count. -/
structure Col where
  interval : Option Nat
  armed : Bool
  hist : List (Nat × Nat × Nat)
  held : SMap (List ColRec)
  inbox : List ColRec
  waiting : List ColRec
  count : Nat
  deriving DecidableEq, Repr

/-- The eyepiece (R432-R438): the latest nonce (none after a start until one is issued), the token window, chronograph totals, the counters selected since
the last tick (R435), the scan register of each target (0 the dome die, 1 the bridge die, 4 + r region r), trace records dropped since the last record, and the openings since manufacture (R432). -/
structure Eye where
  nonce : List Byte
  nonceOk : Bool
  token : Mem
  totals : SMap Nat
  fresh : NSet
  chain : SMap (List Bool)
  lost : Nat
  opens : Nat
  deriving DecidableEq, Repr

/-- A request that waits for a gated CRYPTO or CTR peripheral (R425): a set of REPLACE, the check of an update that closes, a fallback request, a token, or an
SPDM request (0 CHALLENGE, 1 GET_MEASUREMENTS, 2 COSIGN); and a gating write, which waits for an erase in progress. -/
inductive Held where
  | setReplace
  | close
  | fallback
  | clken (v : W32)
  | token (action : Nat) (via : Via) (bytes : List Byte)
  | spdm (kind : Nat) (t : Transport) (request : List Byte)
  deriving DecidableEq, Repr

/-- The dome controller and what hangs on it. `regs`: its register file (R31, R69, R100, R222, R350, R368, R369, R421, R422, R437, R438).
`ticks`, `ptm`: root ticks since start and the PTM time of the last (R69); `rootReady`, `rootHold`, `markers`: the root's READY sources (0-2),
its holdover, and markers inserted (R46, R48); `golden` (R300); `locked`, `envLocked` (R7); `catMap`, `map`, `merged`: the
catalogue's and the merged defect map (R25, R36); `holes`, `holeGen`: the hole map as the dome controller keeps it (R303); `ephs` by number; `loader`, `standing`: images that wait (R390, R220).
`degPend`: degrading events on their way, code and region (R353); `occPend`: clusters to occult (R356); `forcePend`: step 4 of R353 waits;
`logPend`, `logSeq`: records of the fault history that wait to be written, and the last number given (R366); `silent`: regions treated as silent or bypassed (R354, R423); `nor0`, `nor1`: the two NOR
devices (R399), where an unlisted byte is erased: the catalogue slots, the copies of the boot record and of the opening count, the identity area and the fault
history; `slotA`, `slotB`, `bootSeq`: the boot record in use (R400); `ctr` (R413); `upd`: the transport
that owns an open update and its slot (R408); `input`, `inputOff`, `resetLow`, `watchdog`, `waves`: input power, an overvoltage disconnect, the reset
contact, the start watchdog and power waves done (R406, R409, R446, R448); `eid`: the MCTP endpoint ID (R428); `spdm`: the last signed
response by transport (R419); `heldReqs`: requests held while CRYPTO or CTR is gated (R425). -/
structure Dome where
  regs : Regs
  ticks : Nat
  ptm : Nat
  rootReady : NSet
  rootHold : Bool
  markers : Nat
  golden : Nat
  locked : Bool
  envLocked : Bool
  catMap : SMap DefRec
  map : SMap DefRec
  merged : Bool
  holes : NSet
  holeGen : Nat
  ephs : SMap (Option Eph)
  loader : List LoadReq
  standing : List (Nat × Nat × Nat)
  degPend : List (Nat × Nat)
  occPend : List Nat
  forcePend : Bool
  logPend : List (List W32)
  logSeq : Nat
  silent : NSet
  finder : Finder
  col : Col
  nor0 : SMap Byte
  nor1 : SMap Byte
  slotA : CatSlot
  slotB : CatSlot
  bootSeq : Nat
  ctr : Counters
  upd : Option (Via × Nat)
  input : Bool
  inputOff : Bool
  resetLow : Bool
  watchdog : Bool
  starting : Bool
  waves : Nat
  eid : Nat
  spdm : SMap (List Byte)
  heldReqs : List Held
  eye : Eye
  deriving DecidableEq, Repr

/-! ## The module -/

/-- What the module sends out of itself, in order: an MSI-X message (vector, address, data); the completion of a host read (offset, data,
poisoned); a reply over MCTP or SPDM (transport 0 DOE, 1 MCTP); a register value read; markers imposed on the paths (R46); a marker imposed on the RCV path at a reference period (R347); a column or
frame sent by a port, with the blocks of its columns (R328); a Device Readiness Status message (R373); and an advisory non-fatal error reported for a host
access that failed: its kind, offset, whether it was a write and whether of BAR2 (R381). -/
inductive Output where
  | msix (vector addr data : Nat)
  | hostRead (bar2 : Bool) (off : Nat) (data : List Byte) (poison : Bool)
  | reply (transport : Nat) (bytes : List Byte)
  | value (v : Nat)
  | markers (paths : List Nat)
  | rcvMarker (period : Nat)
  | column (port : Nat) (kind : Nat) (vals : List Nat) (blocks : List Block)
  | frame (port : Nat) (hdr : FrameHdr) (body : Option FrameBody) (columns : List (List Block))
  | ready
  | advisory (kind off : Nat) (write bar2 : Bool)
  deriving DecidableEq, Repr

/-- The module's state. `hostMem` is the host's memory, which DMA reads and writes (R383); `free` counts the free values taken
(log entry 5); `pending` holds the commands that wait, first in, first out. -/
structure State where
  dome : Dome
  host : Bridge
  regions : SMap Region
  clusters : SMap Cluster
  ports : SMap Port
  hostMem : Mem
  out : List Output
  free : Nat
  pending : List Instr
  deriving DecidableEq, Repr

/-- Why a step stops with a fault. No meaning of this model stops so: every command either has its effect or, where its
condition does not hold, leaves the state as it is (log entry 6). -/
inductive Fault where
  /-- Raised by no meaning; safe, since a stop allows no claim about a next state. -/
  | noSuchUnit
  deriving DecidableEq, Repr

/-- Why a command is refused. -/
inductive Refusal where
  /-- Raised by the arms of `exec` that have no meaning yet, with the command's mnemonic; safe. -/
  | notModelled (mnemonic : String)
  deriving DecidableEq, Repr

/-- The finder at start. -/
def Finder.reset : Finder := ⟨[], false, [], 0, [], 0⟩

/-- A boot-record slot of a module that holds no catalogue yet (log entry 4). -/
def CatSlot.reset : CatSlot := ⟨0, 0, 0⟩

/-- The counter store as it leaves the factory, with no start made (R413, log entry 4). -/
def Counters.reset : Counters := ⟨0, 0, 0, 0, 0, 0, 0, 0⟩

/-- The eyepiece at start. -/
def Eye.reset : Eye := ⟨[], false, [], [], [], [], 0, 0⟩

/-- Collimation at start. -/
def Col.reset : Col := ⟨none, false, [], [], [], [], 0⟩

/-- The dome controller before its first start. -/
def Dome.reset : Dome :=
  { regs := [], ticks := 0, ptm := 0, rootReady := [], rootHold := false, markers := 0, golden := 0, locked := false, envLocked := false,
    catMap := [], map := [], merged := false, holes := [], holeGen := 0, ephs := [], loader := [], standing := [], degPend := [], occPend := [], forcePend := false,
    logPend := [], logSeq := 0, silent := [], finder := Finder.reset, col := Col.reset, nor0 := [], nor1 := [],
    slotA := CatSlot.reset, slotB := CatSlot.reset, bootSeq := 0, ctr := Counters.reset, upd := none, input := false, inputOff := false,
    resetLow := false, watchdog := false, starting := false, waves := 0, eid := 0, spdm := [], heldReqs := [], eye := Eye.reset }

/-- The host bridge at reset (R375). -/
def Bridge.reset : Bridge :=
  { hif := [], apr := [], queues := [], msix := [], causes := [], d3hot := false, posted := [], reads := [],
    serial := 0, rr := 0, nextQ := 0, fmask := false, rdBytes := 0, wrBytes := 0, owed := [] }

/-- The module right after reset: every register at its reset value, nothing running, no input power applied, no command
waiting. -/
def State.reset : State :=
  { dome := Dome.reset, host := Bridge.reset, regions := [], clusters := [], ports := [], hostMem := [], out := [], free := 0, pending := [] }

end Sys2Proof.Machine
end

