-- ==== Sys2Proof/Machine/Ops.lean ====
section
/-! DEFINITION. The named operations over the state: the floor plan (R13-R24), access to regions, clusters, elements, ports
and queues, and to register fields and counters. -/

namespace Sys2Proof.Machine

/-! ## The floor plan (R13, R14, R20, R22, R24) -/

/-- Column of cluster index i (R14). -/
def cx (i : Nat) : Nat := i % 80
/-- Row of cluster index i (R14). -/
def cy (i : Nat) : Nat := i / 80
/-- Cluster index of (x, y) (R14). -/
def cidx (x y : Nat) : Nat := y * 80 + x
/-- Region of cluster index i (R13, R14). -/
def regionOf (i : Nat) : Nat := (cy i / 8) * 8 + cx i / 10
/-- Half index of region r (R13). -/
def halfOf (r : Nat) : Nat := (r / 8) % 2
/-- The 80 clusters of region r in ascending index order (R14). -/
def clustersOf (r : Nat) : List Nat :=
  (List.range 80).map (fun k => cidx ((r % 8) * 10 + k % 10) ((r / 8) * 8 + k / 10))
/-- Whether (x, y) lies in the grid (R6). -/
def inGrid (x y : Nat) : Bool := decide (x < 80) && decide (y < 112)

/-- The cluster that carries port p (R20). -/
def portCluster (p : Nat) : Nat :=
  let k := p % 16 / 2
  if p < 16 then cidx (5 + 10 * k) 0 else if p < 32 then cidx 79 (7 + 14 * k)
  else if p < 48 then cidx (75 - 10 * k) 111 else cidx 0 (105 - 14 * k)
/-- The endpoint of port p in its cluster (R20). -/
def portEndpoint (p : Nat) : Nat := 40 + p % 2
/-- Whether cluster i carries ports (R20). -/
def isPortCluster (i : Nat) : Bool := (List.range 32).any (fun k => portCluster (2 * k) == i)
/-- The port at an endpoint (40 or 41) of a port cluster (R20). -/
def portAt (i ep : Nat) : Option Nat :=
  ((List.range 64).filter (fun p => portCluster p == i && portEndpoint p == ep)).head?
/-- Whether cluster i holds a host-bridge attachment (R22). -/
def isHostCluster (i : Nat) : Bool := i == cidx 39 0 || i == cidx 40 0
/-- Whether cluster i is an edge cluster (R20, R22). -/
def isEdge (i : Nat) : Bool := isPortCluster i || isHostCluster i
/-- Whether cluster i has a table unit (R24). -/
def hasTu (i : Nat) : Bool := cx i % 10 == 4
/-- Whether cluster i implements endpoint e (R22). -/
def hasEndpoint (i e : Nat) : Bool :=
  decide (e ≤ 34) || e == 36 || (e == 35 && hasTu i) || ((e == 40 || e == 41) && isPortCluster i) || (e == 44 && isHostCluster i)

/-- The neighbour of cluster i to the north, east, south or west (0-3) (R15, R292). -/
def neighbour (i dir : Nat) : Option Nat :=
  let x := cx i; let y := cy i
  if dir = 0 then (if y < 111 then some (cidx x (y + 1)) else none)
  else if dir = 1 then (if x < 79 then some (cidx (x + 1) y) else none)
  else if dir = 2 then (if 0 < y then some (cidx x (y - 1)) else none)
  else (if 0 < x then some (cidx (x - 1) y) else none)
/-- The opposite direction. -/
def opposite (dir : Nat) : Nat := (dir + 2) % 4
/-- Whether the link of cluster i toward `dir` is a crossing (R16, R302). -/
def isCrossing (i dir : Nat) : Bool :=
  match neighbour i dir with | some j => regionOf j != regionOf i | none => false
/-- The regions next to region r (R16). -/
def regionNeighbours (r : Nat) : List Nat :=
  (if r % 8 > 0 then [r - 1] else []) ++ (if r % 8 < 7 then [r + 1] else []) ++
  (if r / 8 > 0 then [r - 8] else []) ++ (if r / 8 < 13 then [r + 8] else [])

/-! ## Regions, clusters, elements, ports and queues -/

/-- Region r. -/
def State.region (s : State) (r : Nat) : Region := SMap.get (fun _ => Region.reset) s.regions r
/-- The state with region r replaced. -/
def State.setRegion (s : State) (r : Nat) (g : Region) : State :=
  { s with regions := SMap.set (fun _ => Region.reset) s.regions r g }
/-- The state with region r changed by f. -/
def State.modRegion (s : State) (r : Nat) (f : Region → Region) : State := s.setRegion r (f (s.region r))

/-- Cluster i. -/
def State.cluster (s : State) (i : Nat) : Cluster := SMap.get (fun _ => Cluster.reset) s.clusters i
/-- The state with cluster i replaced. -/
def State.setCluster (s : State) (i : Nat) (c : Cluster) : State :=
  { s with clusters := SMap.set (fun _ => Cluster.reset) s.clusters i c }
/-- The state with cluster i changed by f. -/
def State.modCluster (s : State) (i : Nat) (f : Cluster → Cluster) : State := s.setCluster i (f (s.cluster i))

/-- Port p. -/
def State.port (s : State) (p : Nat) : Port := SMap.get (fun _ => Port.reset) s.ports p
/-- The state with port p replaced. -/
def State.setPort (s : State) (p : Nat) (z : Port) : State := { s with ports := SMap.set (fun _ => Port.reset) s.ports p z }
/-- The state with port p changed by f. -/
def State.modPort (s : State) (p : Nat) (f : Port → Port) : State := s.setPort p (f (s.port p))

/-- Queue q. -/
def State.hostQ (s : State) (q : Nat) : HostQ := SMap.get (fun _ => HostQ.reset) s.host.queues q
/-- The state with queue q replaced. -/
def State.setHostQ (s : State) (q : Nat) (h : HostQ) : State :=
  { s with host := { s.host with queues := SMap.set (fun _ => HostQ.reset) s.host.queues q h } }
/-- The state with queue q changed by f. -/
def State.modHostQ (s : State) (q : Nat) (f : HostQ → HostQ) : State := s.setHostQ q (f (s.hostQ q))

/-- The state with the dome controller changed by f. -/
def State.modDome (s : State) (f : Dome → Dome) : State := { s with dome := f s.dome }
/-- The state with the bridge changed by f. -/
def State.modHost (s : State) (f : Bridge → Bridge) : State := { s with host := f s.host }
/-- The state with an output sent. -/
def State.emit (s : State) (o : Output) : State := { s with out := s.out ++ [o] }

/-- Element e. -/
def Cluster.elem (c : Cluster) (e : Nat) : Elem := SMap.get (fun _ => Elem.reset) c.elems e
/-- The cluster with element e replaced. -/
def Cluster.setElem (c : Cluster) (e : Nat) (x : Elem) : Cluster :=
  { c with elems := SMap.set (fun _ => Elem.reset) c.elems e x }
/-- The cluster with element e changed by f. -/
def Cluster.modElem (c : Cluster) (e : Nat) (f : Elem → Elem) : Cluster := c.setElem e (f (c.elem e))
/-- The state with element e of cluster i changed by f. -/
def State.modElem (s : State) (i e : Nat) (f : Elem → Elem) : State := s.modCluster i (fun c => c.modElem e f)

/-! ## Register fields -/

/-- A field of a region's control page. -/
def Region.rd (g : Region) (f : Fld) : Nat := Regs.rd pageTable g.regs f
/-- The region with a field of its page replaced. -/
def Region.wr (g : Region) (f : Fld) (v : Nat) : Region := { g with regs := Regs.wr pageTable g.regs f v }
/-- The region with n added to a running count of the tick. -/
def Region.count (g : Region) (f : Fld) (n : Nat) : Region :=
  { g with cnt := Regs.wr pageTable g.cnt f (Regs.rd pageTable g.cnt f + n) }
/-- The region with n added to a count that a register holds since start. -/
def Region.countStart (g : Region) (f : Fld) (n : Nat) : Region := g.wr f (g.rd f + n)

/-- A field of a cluster's space 3. -/
def Cluster.rd (c : Cluster) (f : Fld) : Nat := Regs.rd clTable c.regs f
/-- The cluster with a field of its space 3 replaced. -/
def Cluster.wr (c : Cluster) (f : Fld) (v : Nat) : Cluster := { c with regs := Regs.wr clTable c.regs f v }
/-- The cluster with n added to a running count of the tick. -/
def Cluster.count (c : Cluster) (f : Fld) (n : Nat) : Cluster := { c with cnt := Regs.wr clTable c.cnt f (Regs.rd clTable c.cnt f + n) }
/-- The cluster with a running count of the tick raised to at least n (a peak). -/
def Cluster.peak (c : Cluster) (f : Fld) (n : Nat) : Cluster := { c with cnt := Regs.wr clTable c.cnt f (max (Regs.rd clTable c.cnt f) n) }
/-- The cluster with n added to a count since start. -/
def Cluster.countStart (c : Cluster) (f : Fld) (n : Nat) : Cluster := c.wr f (c.rd f + n)

/-- A field of an element's EL_ block. -/
def Elem.rd (x : Elem) (f : Fld) : Nat := Regs.rd elTable x.regs f
/-- The element with a field of its block replaced. -/
def Elem.wr (x : Elem) (f : Fld) (v : Nat) : Elem := { x with regs := Regs.wr elTable x.regs f v }
/-- The element with n added to a running count of the tick. -/
def Elem.count (x : Elem) (f : Fld) (n : Nat) : Elem := { x with cnt := Regs.wr elTable x.cnt f (Regs.rd elTable x.cnt f + n) }
/-- The element with n added to a count since start. -/
def Elem.countStart (x : Elem) (f : Fld) (n : Nat) : Elem := x.wr f (x.rd f + n)

/-- A field of a port's block. -/
def Port.rd (z : Port) (f : Fld) : Nat := Regs.rd zlTable z.regs f
/-- The port with a field replaced. -/
def Port.wr (z : Port) (f : Fld) (v : Nat) : Port := { z with regs := Regs.wr zlTable z.regs f v }
/-- The port with n added to a running count of the tick. -/
def Port.count (z : Port) (f : Fld) (n : Nat) : Port := { z with cnt := Regs.wr zlTable z.cnt f (Regs.rd zlTable z.cnt f + n) }
/-- The port with n added to a count since start. -/
def Port.countStart (z : Port) (f : Fld) (n : Nat) : Port := z.wr f (z.rd f + n)

/-- A field of the dome controller. -/
def State.dome_ (s : State) (f : Fld) : Nat := Regs.rd domeTable s.dome.regs f
/-- The state with a field of the dome controller replaced. -/
def State.setDome (s : State) (f : Fld) (v : Nat) : State :=
  { s with dome := { s.dome with regs := Regs.wr domeTable s.dome.regs f v } }
/-- A field of the bridge's HIF_ block. -/
def State.hif (s : State) (f : Fld) : Nat := Regs.rd hifTable s.host.hif f
/-- The state with a field of the HIF_ block replaced. -/
def State.setHif (s : State) (f : Fld) (v : Nat) : State :=
  { s with host := { s.host with hif := Regs.wr hifTable s.host.hif f v } }
/-- READY (R374). -/
def State.ready (s : State) : Bool := s.hif HIF_STATUS_READY == 1
/-- A BAR access is counted (R396). -/
def State.barCount (s : State) : State := s.setHif HIF_CNT_BAR_CNT (s.hif HIF_CNT_BAR_CNT + 1)
/-- A read completes toward the host (R379-R381). -/
def State.emitRead (s : State) (r : BarRead) : State :=
  let data := if r.failed = 1 ∨ r.failed = 3 then r.data.map (fun _ => (0xFF : Byte)) else r.data
  s.emit (.hostRead r.bar2 r.off data (r.failed == 2))
/-- The completion of a host read of BAR0 that returns v: it waits for every posted write that arrived before it (R379). -/
def State.bar0Reply (s : State) (off v : Nat) : State :=
  let r : BarRead := ⟨s.host.serial, false, off, s.host.posted.map (fun p => p.id), true, 0, leBytes 4 v, 0, []⟩
  let s1 := s.barCount.modHost (fun h => { h with serial := h.serial + 1 })
  if s.host.posted.isEmpty then s1.emitRead r else s1.modHost (fun h => { h with reads := h.reads ++ [{ r with issued := false }] })
/-- A host read of a dome register that latches (R374): `read` gives the value and the state with what it latched; until READY it returns all ones. -/
def State.bar0Read (s : State) (off : Nat) (read : State → Nat × State) : State :=
  if s.ready then (read s).2.bar0Reply off (read s).1 else s.bar0Reply off 0xFFFFFFFF
/-- A field of the aperture page. -/
def State.apr (s : State) (f : Fld) : Nat := Regs.rd aprTable s.host.apr f
/-- The state with a field of the aperture page replaced. -/
def State.setApr (s : State) (f : Fld) (v : Nat) : State :=
  { s with host := { s.host with apr := Regs.wr aprTable s.host.apr f v } }
/-- A field of a queue's configuration. -/
def HostQ.rd (q : HostQ) (f : Fld) : Nat := Regs.rd hqTable q.regs f
/-- The queue with a field of its configuration replaced. -/
def HostQ.wr (q : HostQ) (f : Fld) (v : Nat) : HostQ := { q with regs := Regs.wr hqTable q.regs f v }

/-! ## The defect map and the state of places (R28, R33, R89, R96, R209, R456) -/

/-- The merged map's record of cluster i; the catalogue's until the merge completes (R32, R36). -/
def State.defect (s : State) (i : Nat) : DefRec := SMap.get (fun _ => DefRec.reset) s.dome.map i
/-- Whether cluster i is enabled (R28). -/
def State.enabled (s : State) (i : Nat) : Bool := (s.defect i).cstat == 0
/-- Whether cluster i's router is opaque (R34). -/
def State.opaqueRouter (s : State) (i : Nat) : Bool := (s.defect i).router
/-- PWR_STATUS.STATE of region r (R96). -/
def Region.power (g : Region) : Nat := g.rd PWR_STATUS_STATE
/-- TCK_RSCHED.STATE (R209). -/
def Region.sched_ (g : Region) : Nat := g.rd TCK_RSCHED_STATE
/-- Whether the region counts as drained for the writes that need it (R456): FREE, LOADED or DRAINED. -/
def Region.drainedState (g : Region) : Bool := g.sched_ == 0 || g.sched_ == 1 || g.sched_ == 4
/-- Whether the region is DARK (R89, R115). -/
def Region.dark (g : Region) : Bool := g.power == 6
/-- Whether the region is a hole for the mesh: DARK, or its transit clock in FAULT (R303). -/
def Region.hole (g : Region) : Bool := g.dark || g.rd TRC_STATUS_STATE == 6
/-- Whether local delivery to the region's clusters is suppressed: NOCOMP (R89, R304). -/
def Region.nocomp (g : Region) : Bool := g.power == 5
/-- Whether local delivery is refused: PARKING or PARKED (R94, R304). -/
def Region.parking (g : Region) : Bool := g.power == 3 || g.power == 4
/-- Whether the region's compute clocks run: power ACTIVE or PARKING, and the drive LOCKED, HOLDOVER, or PARKED while the region still drains (R53,
R58, R93, R96). -/
def Region.computing (g : Region) : Bool :=
  (g.power == 2 || g.power == 3) && (g.rd DRV_STATUS_STATE == 2 || g.rd DRV_STATUS_STATE == 4 || g.rd DRV_STATUS_STATE == 5)
/-- Whether the agents of cluster i run: enabled, not fenced, and its region computing (R33, R53, R96). -/
def State.runs (s : State) (i : Nat) : Bool :=
  s.enabled i && !(s.cluster i).fenced && (s.region (regionOf i)).computing
/-- Whether cluster i's local deliveries are suppressed: it is occulted, or its region NOCOMP (R33, R304). -/
def State.suppressed (s : State) (i : Nat) : Bool := !s.enabled i || (s.region (regionOf i)).nocomp
/-- Whether HOLD is set in cluster i's region (R81). -/
def State.held (s : State) (i : Nat) : Bool := (s.region (regionOf i)).rd ALM_STATUS_HOLD == 1
/-- The module's fabric identity (R341, R350). -/
def State.fid (s : State) : Nat := s.dome_ FND_FID_LO_FID_LO + 2 ^ 32 * s.dome_ FND_FID_HI_FID_HI
/-- The ID that the finder assigned to an identity; none where it assigned none (R342, R343). -/
def Finder.idOf (f : Finder) (fid : Nat) : Option Nat := ((f.ids.filter (fun p => p.1 == fid)).head?).map (fun p => p.2)
/-- The module ID, which every router holds in MSH_MODID; 0 for a module that has none (R116, R343). -/
def State.modId (s : State) : Nat := match s.dome.finder.idOf s.fid with | some m => m | none => 0

/-- A chronograph event of region r, n times (R435): the almanac classes are events 0-15. -/
def Region.chrono (g : Region) (ev n : Nat) : Region :=
  { g with chr := SMap.set (fun _ => 0) g.chr ev (SMap.get (fun _ => 0) g.chr ev + n) }

/-- An event of an almanac class in a region, n times (R77): it waits for its debit (R80) and the chronograph counts it (R435). -/
def Region.event (g : Region) (cls n : Nat) : Region :=
  { g.chrono cls n with ev := SMap.set (fun _ => 0) g.ev cls (SMap.get (fun _ => 0) g.ev cls + n) }

/-- An almanac event in the region of cluster i, n times. -/
def State.debit (s : State) (i cls n : Nat) : State := s.modRegion (regionOf i) (fun g => g.event cls n)

/-- A free value is taken (log entry 5): the value, and the state with the count advanced. -/
def State.takeFree (s : State) : W64 × State := (Config.freeWord s.free, { s with free := s.free + 1 })

/-- The word of CM_PERR_LOC, which a fault record of codes 1 to 4 holds (R367). -/
def Cluster.perrWord (c : Cluster) : Nat := (Regs.word clTable c.regs CM_PERR_LOC_ROW.off).toNat
/-- What a fault record of codes 2 and 3 holds: EL_FAULT at an element, CM_PERR_LOC at another stop (R367). -/
def Cluster.faultWord (c : Cluster) (stop : Nat) : Nat :=
  if stop < 32 then (Regs.word elTable (c.elem stop).regs EL_FAULT_CTX.off).toNat else c.perrWord

/-- The first item of a list that a test picks, and the list without it. -/
def takeFirst {α : Type} (p : α → Bool) : List α → Option (α × List α)
  | [] => none
  | a :: t => if p a then some (a, t) else match takeFirst p t with | some (b, u) => some (b, a :: u) | none => none

/-- A list with item i replaced by f of it. -/
def modAt {α : Type} (f : α → α) : List α → Nat → List α
  | [], _ => []
  | a :: t, 0 => f a :: t
  | a :: t, n + 1 => a :: modAt f t n

end Sys2Proof.Machine
end

