-- ==== Sys2Proof/Machine/Flags.lean ====
section
/-! DEFINITION. Raising events and reporting failures: the event bits of the host bridge (R394), the fault record (R366,
R367), the dome controller's event bits (R368), and the failures of R355 with what each leads to. -/

namespace Sys2Proof.Machine

/-- A queue vector or event vector has a cause not yet signalled (R394, R395). -/
def State.cause (s : State) (v : Nat) : State := s.modHost (fun h => { h with causes := NSet.add h.causes v })

/-- Event bit e of HIF_EVT_PEND sets; a 0-to-1 change of an unmasked bit is a cause for vector 256 + e (R394). -/
def State.hifEvent (s : State) (e : Nat) : State :=
  let pend := s.hif HIF_EVT_PEND_PEND
  let s1 := s.setHif HIF_EVT_PEND_PEND (pend ||| 2 ^ e)
  if pend.testBit e || (s.hif HIF_EVT_MASK_MASK).testBit e then s1 else s1.cause (256 + e)

/-- Whether ALERT# is asserted (R426); without input power the module drives no contact (R444). -/
def State.alert (s : State) : Bool :=
  s.dome.input && !s.dome.inputOff && (s.hif HIF_EVT_PEND_PEND) &&& (s.dome_ DOM_ALERT_MASK_MASK) != 0

/-- The number of the last module tick (R69): the first tick after start-up is tick 0. -/
def State.tickNum (s : State) : Nat := s.dome.ticks - 1

/-- MSTATE (R352): 0 START, 1 READY, 2 DEGRADED, 3 HALTED. -/
def State.mstate (s : State) : Nat := s.dome_ DOM_FLT_STATUS_MSTATE

/-- A change of MSTATE, which is a cause of event READY (R352, R394). -/
def State.setMstate (s : State) (m : Nat) : State :=
  if s.mstate = m then s else (s.setDome DOM_FLT_STATUS_MSTATE m).hifEvent 11

/-- Whether REPLACE is set: CTR_RPL.COUNT is odd (R414). -/
def State.replace (s : State) : Bool := s.dome.ctr.rpl % 2 == 1
/-- Whether the module is flagged (R351). -/
def State.flagged (s : State) : Bool := s.replace || s.dome_ DOM_FLT_STATUS_SUSPECT == 1

/-- Whether the peripheral of a DOM_CLKEN bit is running (R424). -/
def State.clocked (s : State) (bit : Nat) : Bool := (s.dome_ DOM_CLKEN_EN).testBit bit

/-- REPLACE is set (R351, R414): the counter advances from an even count; a set while it is odd changes nothing. While CTR is gated the
request is held (R425). -/
def State.setReplace (s : State) : State :=
  if s.clocked 8 then
    (if s.replace then s else s.modDome (fun d => { d with ctr := { d.ctr with rpl := d.ctr.rpl + 1 } }))
  else s.modDome (fun d => { d with heldReqs := d.heldReqs ++ [.setReplace] })

/-- The event bit that a failure code sets in DOM_FLT_EVENT (R368). -/
def faultBit (code : Nat) : Option Fld :=
  if code = 12 ∨ code = 13 then some DOM_FLT_EVENT_CLOCK
  else if code = 15 ∨ code = 16 then some DOM_FLT_EVENT_POWER
  else if code = 18 then some DOM_FLT_EVENT_DRAIN
  else if code = 20 then some DOM_FLT_EVENT_SLIP
  else if code = 10 ∨ code = 11 then some DOM_FLT_EVENT_LOST
  else if code = 23 then some DOM_FLT_EVENT_COLLIM
  else if code = 24 then some DOM_FLT_EVENT_POISON_EXT
  else if code = 25 then some DOM_FLT_EVENT_DOMBUS
  else none

/-- A bit of DOM_FLT_EVENT sets, which is a cause of event FAULT (R368, R394). -/
def State.domEvent (s : State) (f : Fld) : State := (s.setDome f 1).hifEvent 0

/-- Whether a failure code makes no fault record: codes 7, 17, 19, 21 and 27 (R366). -/
def unrecorded (code : Nat) : Bool := code == 7 || code == 17 || code == 19 || code == 21 || code == 27

/-- Whether a failure code is a degrading event (R355); code 11 is decided by its caller. -/
def degrading (code : Nat) : Bool :=
  [1, 2, 3, 4, 5, 6, 8, 9, 10, 12, 13, 15, 16, 18, 20, 23, 25].contains code

/-- Whether a failure code occults the cluster it names (R355, R356). -/
def occulting (code : Nat) : Bool := [1, 2, 3, 4, 5, 6, 8, 9].contains code

/-- The RESULT field of a record (R367; log entry 8). -/
def recordResult (code : Nat) (detailSuspect degr : Bool) : Nat :=
  if occulting code then 1 else if code = 15 then 4 else if code = 23 then (if detailSuspect then 3 else 4)
  else if degr then 2 else 0

/-- The words 0 to 6 of a record, and its CRC (R367). -/
def faultRecord (seq tick code region : Nat) (loc : Option Nat) (detail result starts : Nat) : List W32 :=
  let w3 := code + region * 256 + (match loc with | some i => cx i * 2 ^ 15 + cy i * 2 ^ 22 + 2 ^ 29 | none => 0)
  let ws : List W32 := [BitVec.ofNat 32 seq, BitVec.ofNat 32 tick, BitVec.ofNat 32 (tick / 2 ^ 32), BitVec.ofNat 32 w3,
    BitVec.ofNat 32 detail, BitVec.ofNat 32 (result + (starts % 65536) * 65536), 0]
  ws ++ [BitVec.ofNat 32 (crc32 (ws.flatMap (fun w => leBytes 4 w.toNat)))]

/-- A fault record is made: it takes the next sequence number and waits for FAULT_RECORD_WRITE (R366). -/
def State.record (s : State) (code region : Nat) (loc : Option Nat) (detail result : Nat) : State :=
  s.modDome (fun d =>
    { d with
      logSeq := d.logSeq + 1
      logPend := d.logPend ++ [faultRecord (d.logSeq + 1) (d.ticks - 1) code region loc detail result d.ctr.starts] })

/-- A degrading event is on its way to the dome controller (R353). -/
def State.degradeSoon (s : State) (code region : Nat) : State :=
  s.modDome (fun d => { d with degPend := d.degPend ++ [(code, region)] })

/-- A cluster waits for its containment (R356); a cluster already occulted is not occulted again. Clusters wait in ascending
index order. -/
def State.occultSoon (s : State) (i : Nat) : State :=
  if s.enabled i then s.modDome (fun d => { d with occPend := NSet.add d.occPend i }) else s

/-- A failure of R355: its record (R366), its event bit (R368), REPLACE for code 15 (R351), the containment of its cluster (R356) and
its degrading event (R353). `suspect` says that a code 23 is SUSPECT. -/
def State.failure (s : State) (code region : Nat) (loc : Option Nat) (detail : Nat) (suspect degr : Bool) : State :=
  let s1 := if unrecorded code then s else s.record code region loc detail (recordResult code suspect degr)
  let s2 := match faultBit code with | some f => s1.domEvent f | none => s1
  let s3 := if code = 15 ∨ (code = 23 ∧ suspect = false) then s2.setReplace else s2
  let s4 := match loc with | some i => if occulting code then s3.occultSoon i else s3 | none => s3
  if degr then s4.degradeSoon code region else s4

/-- A failure of a region, of the degrading kind that its code has. -/
def State.regionFailure (s : State) (code region detail : Nat) : State :=
  s.failure code region none detail false (degrading code)

/-- A failure found in a cluster, of the degrading kind that its code has. -/
def State.clusterFailure (s : State) (code i detail : Nat) : State :=
  s.failure code (regionOf i) (some i) detail false (degrading code)

end Sys2Proof.Machine
end

