-- ==== Sys2Proof/Machine/Catalog.lean ====
section
/-! DEFINITION. Reading the two NOR devices and the catalogue slots: bytes, the header and the section directory (R399, R401,
R402). -/

namespace Sys2Proof.Machine

/-- What a byte of NOR reads as until it is programmed: erased (log entry 1). -/
def norDefault (_ : Nat) : Byte := 0xFF

/-- A byte of the NOR device that holds a slot (R399). -/
def State.nor (s : State) (slot a : Nat) : Byte := SMap.get norDefault (if slot = 0 then s.dome.nor0 else s.dome.nor1) a

/-- n bytes of a slot's device. -/
def State.norBytes (s : State) (slot a : Nat) : Nat → List Byte
  | 0 => []
  | n + 1 => s.nor slot a :: State.norBytes s slot (a + 1) n

/-- A little-endian value in a slot. -/
def State.norLe (s : State) (slot a n : Nat) : Nat := leNat (s.norBytes slot a n)

/-! ## The places above the slots (R399, R400) -/

/-- Where both devices hold the PUF helper data, 4 KiB, and device 0 the HSS signing-state cache, 2 MiB (R399). -/
def norHelper : Nat := 0x3FC00000
def norHssCache : Nat := 0x3FD00000
/-- Where both devices hold the boot record, and the opening count (R399). -/
def norBoot : Nat := 0x3FC01000
def norOpens : Nat := 0x3FC02000
/-- Where both devices hold the identity area, and device 0 the fault history (R399). -/
def norIdentity : Nat := 0x3FC10000
def norHistory : Nat := 0x3FF00000

/-! ## The module's identity (R416, R419) -/

/-- The keys derived from the seed: the labels "IDK-P384", "IDK-HSS-I" and "IDK-HSS-SEED" in ASCII (R416). -/
def deviceKey : List Byte := Config.kdf Config.pufSeed [0x49, 0x44, 0x4B, 0x2D, 0x50, 0x33, 0x38, 0x34]
def hssIdentifier : List Byte := Config.kdf Config.pufSeed [0x49, 0x44, 0x4B, 0x2D, 0x48, 0x53, 0x53, 0x2D, 0x49]
def hssSeed : List Byte := Config.kdf Config.pufSeed [0x49, 0x44, 0x4B, 0x2D, 0x48, 0x53, 0x53, 0x2D, 0x53, 0x45, 0x45, 0x44]

/-- Bytes brought to a length that the spec gives. -/
def fixLen (n : Nat) (l : List Byte) : List Byte := (l ++ List.replicate n 0).take n

/-- The device's P-384 public key, and DEVICE_ID, its SHA-384 (R416). -/
def devicePublic : List Byte := fixLen 96 (Config.p384Public deviceKey)
def deviceId : List Byte := fixLen 48 (Config.sha384 devicePublic)

/-- The device's signature over a message, by its SHA-384 (R416, R417). -/
def deviceSign (m : List Byte) : List Byte := fixLen 96 (Config.p384Sign deviceKey (Config.sha384 m))

/-- The device HSS public key, 60 bytes (R416, R418). -/
def hssPublicKey : List Byte := fixLen 60 (Config.hssPublic hssIdentifier hssSeed)

/-- The leaves of the device HSS key, of two levels of LMS_SHA256_M32_H15 (R419). -/
def hssLeaves : Nat := 2 ^ (2 * 15)

/-- The device's HSS signature with leaf n over a message, 5,396 bytes (R419). -/
def deviceCosign (n : Nat) (m : List Byte) : List Byte := fixLen 5396 (Config.hssSign hssIdentifier hssSeed n m)

/-! ## The parameters of an HSS signature (R403) -/

/-- A big-endian number, as RFC 8554 writes them. -/
def beNat (l : List Byte) : Nat := leNat l.reverse

/-- The rest of a list from byte 32 n + 12 on: what follows an LMS signature with n values of 32 bytes (RFC 8554). -/
def afterLms (n : Nat) (sig : List Byte) : List Byte := sig.drop (12 + 32 * n)

/-- The chains p of an LM-OTS typecode with N = 32, and the height h of an LMS typecode with M = 32 (RFC 8554). -/
def otsChains (ots : Nat) : Nat := if ots = 1 then 265 else if ots = 2 then 133 else if ots = 3 then 67 else 34
def lmsHeight (lms : Nat) : Nat := 5 * (lms - 4)

/-- Whether a level's typecodes are those that R403 allows. -/
def levelOk (lms ots : Nat) : Bool := decide (5 ≤ lms) && decide (lms ≤ 9) && decide (1 ≤ ots) && decide (ots ≤ 4)

/-- The levels of a signature below a public key of given typecodes: each an LMS signature of those typecodes, which all but the last follow with the next level's
public key of 56 bytes (R403, RFC 8554). -/
def hssLevels : Nat → Nat → Nat → List Byte → Bool
  | n, lms, ots, sig =>
    let k := 1 + otsChains ots + lmsHeight lms
    let own := levelOk lms ots && beNat (sliceOf sig 4 4) == ots && beNat (sliceOf sig (8 + 32 * (1 + otsChains ots)) 4) == lms
    match n with
    | 0 => own && sig.length == 12 + 32 * k
    | m + 1 => let rest := afterLms k sig; own && hssLevels m (beNat (sliceOf rest 0 4)) (beNat (sliceOf rest 4 4)) (rest.drop 56)

/-- Whether the parameters of an HSS signature meet R403: 1 to 8 levels, as the key and the signature both say, and allowed typecodes at every level (the layout of
keys and signatures is RFC 8554's: PRESUMED, log entry 23). -/
def hssParams (key sig : List Byte) : Bool :=
  let l := beNat (sliceOf key 0 4)
  key.length == 60 && decide (1 ≤ l) && decide (l ≤ 8) && beNat (sliceOf sig 0 4) + 1 == l &&
    hssLevels (l - 1) (beNat (sliceOf key 4 4)) (beNat (sliceOf key 8 4)) (sig.drop 4)

/-- Whether an HSS signature verifies and its parameters meet R403. -/
def hssVerify (key msg sig : List Byte) : Bool := hssParams key sig && Config.hssOk key msg sig

/-- A device with bytes written from an address on. -/
def norPut (m : SMap Byte) (a : Nat) (bs : List Byte) : SMap Byte := bs.zipIdx.foldl (fun n p => SMap.set norDefault n (a + p.2) p.1) m

/-- The boot record (R400): its sequence number and both slots. -/
structure BootRec where
  seq : Nat
  slotA : CatSlot
  slotB : CatSlot
  deriving DecidableEq, Repr

/-- STATE, ATTEMPTS and CHECK of a slot as CAT_SLOT shows them (R400, R421). -/
def CatSlot.word (c : CatSlot) : Nat := c.state + c.attempts * 2 ^ 4 + c.check * 2 ^ 8

/-- A slot as a word of the boot record gives it. -/
def CatSlot.ofWord (w : Nat) : CatSlot := ⟨w % 8, w / 2 ^ 4 % 4, w / 2 ^ 8 % 16⟩

/-- The bytes of a copy of the boot record: number, slot A, slot B and the CRC-32 over them. R400 gives no order (log entry 23). -/
def BootRec.bytes (b : BootRec) : List Byte :=
  let bs := leBytes 4 b.seq ++ leBytes 4 b.slotA.word ++ leBytes 4 b.slotB.word
  bs ++ leBytes 4 (crc32 bs)

/-- The copy of the boot record on a device; none where its CRC is not valid (R400). -/
def bootCopy (m : SMap Byte) : Option BootRec :=
  let bs := (List.range 16).map (fun k => SMap.get norDefault m (norBoot + k))
  if leNat (bs.drop 12) = crc32 (bs.take 12) then
    some ⟨leNat (bs.take 4), CatSlot.ofWord (leNat (sliceOf bs 4 4)), CatSlot.ofWord (leNat (sliceOf bs 8 4))⟩
  else none

/-- The boot record as a start finds it (R400): the valid copy of the higher number; both slots NEW with ATTEMPTS 0 where neither copy is valid. -/
def Dome.bootRecord (d : Dome) : BootRec :=
  match bootCopy d.nor0, bootCopy d.nor1 with
  | some a, some b => if a.seq < b.seq then b else a
  | some a, none => a
  | none, some b => b
  | none, none => ⟨0, ⟨1, 0, 0⟩, ⟨1, 0, 0⟩⟩

/-- Whether a slot is running, and which (R421). -/
def State.runSlot (s : State) : Option Nat := if s.dome_ CAT_STATUS_RUN_VALID = 1 then some (s.dome_ CAT_STATUS_RUN_SLOT) else none

/-- The directory entries of a slot: type, offset and size (R402). -/
def State.catDir (s : State) (slot : Nat) : List (Nat × Nat × Nat) :=
  (List.range (s.norLe slot 0x10 2 % 16)).map (fun k =>
    let a := 0x200 + 64 * k
    (s.norLe slot a 2, s.norLe slot (a + 4) 4, s.norLe slot (a + 8) 4))

/-- A section of a slot: offset and size (R402). -/
def State.catSection (s : State) (slot ty : Nat) : Option (Nat × Nat) :=
  match (s.catDir slot).filter (fun d => d.1 == ty) with
  | d :: _ => some (d.2.1, d.2.2)
  | [] => none

/-- The 256 bytes of region r's trims in the running catalogue (R402). -/
def State.trims (s : State) (r : Nat) : List Byte :=
  match s.runSlot with
  | some slot => (match s.catSection slot 3 with | some (o, _) => s.norBytes slot (o + 256 * r) 256 | none => [])
  | none => []

/-- The trim minimum of a region, in mV, for a root of k × 25 MHz: between 800 and 1,050, and never falling as the root rises from
1.0 GHz (R49). -/
def trimMin (trims : List Byte) (k : Nat) : Nat :=
  (List.range (k + 1)).foldl (fun m j => if 40 ≤ j then max m (min 1050 (Config.trimRaw trims j)) else m) 800

/-- Whether a set (MULT, POSTDIV, VCODE) is valid in a region with these trims (R49). -/
def freqValid (trims : List Byte) (mult postdiv vcode : Nat) : Bool :=
  decide (80 ≤ mult) && decide (mult ≤ 160) && (postdiv == 0 || (postdiv == 1 && mult % 2 == 0)) && decide (vcode ≤ 50) &&
  decide (trimMin trims (if postdiv = 0 then mult else mult / 2) ≤ 800 + 5 * vcode)

end Sys2Proof.Machine
end

