-- ==== Sys2Proof/Machine/Finder.lean ====
section
/-! DEFINITION. The finder (R341-R346, R350): adjacency records, the common graph, IDs, routes and datelines. Readings that the words leave open are
log entry 20. -/

namespace Sys2Proof.Machine

/-! ## Records and flooding (R342) -/

/-- Whether port p is UP (R335). -/
def State.portUp (s : State) (p : Nat) : Bool := (s.port p).rd ZL_STATUS_STATE == 5
/-- The UP ports, ascending. -/
def State.upPorts (s : State) : List Nat := (List.range 64).filter s.portUp
/-- The direction of port p in FND_PDIR: 0 X+, 1 X−, 2 Y+, 3 Y− (R341, R350). -/
def State.portDir (s : State) (p : Nat) : Nat := s.dome_ (FND_PDIR_DIR.nth (p / 16)) / 4 ^ (p % 16) % 4
/-- The identity of a port's peer (R335, R349). -/
def Port.peerFid (z : Port) : Nat := z.rd ZL_PEER_LO_FID_LO + 2 ^ 32 * z.rd ZL_PEER_HI_FID_HI

/-- The module's own adjacency record (R342); its version rises with every run and every start. -/
def State.ownRec (s : State) : AdjRec :=
  { fid := s.fid, version := s.dome.ctr.starts * 2 ^ 32 + s.dome.finder.version, root := s.dome_ FND_CFG_ROOT == 1
    topo := s.dome_ FND_CFG_TOPO, dimx := s.dome_ FND_CFG_DIMX, dimy := s.dome_ FND_CFG_DIMY, modId := s.dome.finder.idOf s.fid
    links := s.upPorts.map (fun p =>
      ⟨p, (s.port p).peerFid, (s.port p).rd ZL_PEER_PORT_PORT, s.portDir p, (s.port p).rd ZL_LAT_NS⟩) }

/-- A message is queued at every UP port but the one that it came from (R342). -/
def State.flood (s : State) (b : FrameBody) (from_ : Option Nat) : State :=
  s.upPorts.foldl (fun t p => if from_ = some p then t else t.modPort p (fun z => { z with finder := z.finder ++ [(from_, b)] })) s

/-- The messages received at port p that wait to be sent on, each once (R342). -/
def State.heldFrom (s : State) (p : Nat) : List FrameBody :=
  (s.upPorts.foldl (fun l q => l ++ ((s.port q).finder.filter (fun m => m.1 == some p)).map (fun m => m.2)) []).eraseDups

/-- The records with one for its identity replaced. -/
def replaceRec (r : AdjRec) (rs : List AdjRec) : List AdjRec := rs.filter (fun q => q.fid != r.fid) ++ [r]

/-- The module makes a new record of itself and floods it. -/
def State.announce (s : State) : State :=
  let s1 := s.modDome (fun d => { d with finder := { d.finder with version := d.finder.version + 1 } })
  let r := s1.ownRec
  (s1.modDome (fun d => { d with finder := { d.finder with recs := replaceRec r d.finder.recs } })).flood (.finder r) none

/-- The finder starts from IDLE, DONE or ERROR (R346); a trigger in another state is ignored. -/
def State.finderStart (s : State) : State :=
  let st := s.dome_ FND_STATUS_STATE
  if st = 0 ∨ st = 3 ∨ st = 4 then (s.setDome FND_STATUS_STATE 1).announce else s

/-- A port has changed between UP and DOWN (R342, R346): a rerun with AUTO; during DISCOVER the module's record changes with it. -/
def State.portChanged (s : State) : State :=
  if s.dome_ FND_STATUS_STATE = 1 then s.announce else if s.dome_ FND_CTRL_AUTO = 1 then s.finderStart else s

/-- Another module's record names this module's identity with another adjacency (R345 code 2): it is held beside the module's own record, which is flooded
again at its version where that is the higher, so that every module comes to hold both (log entry 20). -/
def State.takeTwin (s : State) (p : Nat) (r : AdjRec) : State :=
  let own := s.ownRec
  let s1 := s.modDome (fun d => { d with finder := { d.finder with version := d.finder.version + (r.version - own.version) } })
  let rs := s1.dome.finder.recs.filter (fun q => q.fid != s.fid || q.links != own.links)
  let s2 := (s1.modDome (fun d => { d with finder := { d.finder with recs := rs ++ [s1.ownRec, r] } })).flood (.finder r) (some p)
  if own.version < r.version then s2.flood (.finder s1.ownRec) none else s2

/-- A record arrives at port p (R342): a newer one is held and forwarded; one that names an identity already held, at the version held but with another
adjacency, is held beside it (R345 code 2); any other is dropped. -/
def State.takeRecord (s : State) (p : Nat) (r : AdjRec) : State :=
  let rs := s.dome.finder.recs
  let old := rs.filter (fun q => q.fid == r.fid)
  let hold (l : List AdjRec) : State := (s.modDome (fun d => { d with finder := { d.finder with recs := l } })).flood (.finder r) (some p)
  if r.fid = s.fid then
    (if s.ownRec.version ≤ r.version ∧ r.links ≠ s.ownRec.links ∧ old.contains r = false then s.takeTwin p r else s)
  else if old.all (fun q => decide (q.version < r.version)) then hold (replaceRec r rs)
  else if old.any (fun q => q.version == r.version && q.links != r.links) ∧ old.contains r = false then hold (rs ++ [r])
  else s

/-- FINDER_RUN (R342, R350): a write of 1 to FND_CTRL.RUN. -/
def execFinderRun (s : State) : Host.Outcome State Fault Refusal := .next s.finderStart

/-- FINDER_QUIET (R342, R346): no new record for FND_QUIET. -/
def execFinderQuiet (s : State) : Host.Outcome State Fault Refusal :=
  .next (if s.dome_ FND_STATUS_STATE = 1 then s.setDome FND_STATUS_STATE 2 else s)

/-- The finder enters ERROR with a code, which raises the fabric event (R345, R394). -/
def State.finderError (s : State) (code : Nat) : State := ((s.setDome FND_STATUS_STATE 4).setDome FND_STATUS_ERR code).hifEvent 7

/-- FINDER_TIMEOUT (R345, R346): DISCOVER has not ended within 8 s. -/
def execFinderTimeout (s : State) : Host.Outcome State Fault Refusal :=
  .next (if s.dome_ FND_STATUS_STATE = 1 then s.finderError 4 else s)

/-! ## The graph (R342, R343) -/

/-- Whether both ends report a link (R342). -/
def bothEnds (rs : List AdjRec) (f : Nat) (a : Adj) : Bool :=
  rs.any (fun n => n.fid == a.peer && n.links.any (fun b => b.port == a.peerPort && b.peer == f && b.peerPort == a.port))

/-- The links of a module in the graph, in ascending order of its ports. -/
def graphLinks (rs : List AdjRec) (f : Nat) : List Adj :=
  match rs.find? (fun q => q.fid == f) with
  | none => []
  | some r => (List.range 64).filterMap (fun p => r.links.find? (fun a => a.port == p && bothEnds rs f a))

/-- The neighbours of a module, each once, in ascending order of its ports (R343). -/
def neighboursOf (rs : List AdjRec) (f : Nat) : List Nat :=
  (graphLinks rs f).foldl (fun l a => if l.contains a.peer then l else l ++ [a.peer]) []

/-- Breadth-first order from the modules in `front`: each with its parent (R343). -/
def bfsFrom (rs : List AdjRec) : Nat → List Nat → List (Nat × Nat) → List (Nat × Nat)
  | 0, _, seen => seen
  | n + 1, front, seen =>
    match front with
    | [] => seen
    | f :: rest =>
      let new := (neighboursOf rs f).filter (fun g => !(seen.any (fun q => q.1 == g)))
      bfsFrom rs n (rest ++ new) (seen ++ new.map (fun g => (g, f)))

/-- Breadth-first order from one module, which is its own parent. -/
def bfs (rs : List AdjRec) (f : Nat) : List (Nat × Nat) := bfsFrom rs (rs.length + 1) [f] [(f, f)]

/-- The parent of a module in a breadth-first order. -/
def parentIn (o : List (Nat × Nat)) (f : Nat) : Nat := match o.find? (fun q => q.1 == f) with | some q => q.2 | none => f

/-- The modules of the graph that holds module f. -/
def graphOf (rs : List AdjRec) (f : Nat) : List Nat := (bfs rs f).map (fun q => q.1)

/-- The record of a module of the graph. -/
def recOf (rs : List AdjRec) (f : Nat) : Option AdjRec := rs.find? (fun q => q.fid == f)

/-- The lowest number of a list that is not empty; else 0. -/
def lowest : List Nat → Nat
  | [] => 0
  | a :: t => t.foldl min a

/-! ## IDs (R343) -/

/-- The lowest number that a list does not hold. -/
def firstFree (taken : List Nat) : Nat := ((List.range (taken.length + 1)).find? (fun k => !taken.contains k)).getD 0

/-- The IDs that modules of the graph hold, by identity; of two modules with one ID, the lower identity keeps it. -/
def keptIds (rs : List AdjRec) (g : List Nat) : List (Nat × Nat) :=
  let held := g.filterMap (fun f => (recOf rs f).bind (fun r => r.modId.map (fun m => (f, m))))
  held.filter (fun q => held.all (fun p => p.2 != q.2 || decide (q.1 ≤ p.1)))

/-- The module that a first run chooses as the root (R343). -/
def chooseRoot (rs : List AdjRec) (g : List Nat) : Nat :=
  let roots := g.filter (fun f => match recOf rs f with | some r => r.root | none => false)
  lowest (if roots.isEmpty then g else roots)

/-- The module from which modules without an ID are numbered: the lowest-numbered module present; at a first run the root (R343). -/
def numberFrom (kept : List (Nat × Nat)) (root : Nat) : Nat :=
  match kept.find? (fun q => q.2 == lowest (kept.map (fun p => p.2))) with | some q => q.1 | none => root

/-- The IDs by identity (R343): modules keep theirs, and the others take the lowest free IDs in breadth-first order. -/
def assignIds (rs : List AdjRec) (kept : List (Nat × Nat)) (root : Nat) : List (Nat × Nat) :=
  ((bfs rs (numberFrom kept root)).map (fun q => q.1)).foldl (fun ids f =>
    if ids.any (fun q => q.1 == f) then ids else ids ++ [(f, firstFree (ids.map (fun q => q.2)))]) kept

/-! ## The form of the graph (R344, R345) -/

/-- The links of a module that leave by ports of direction d. -/
def dirLinks (rs : List AdjRec) (f d : Nat) : List Adj := (graphLinks rs f).filter (fun a => a.dir == d)

/-- One step in a torus: the coordinates that direction d leads to. -/
def torusStep (dx dy : Nat) (c : Nat × Nat) (d : Nat) : Nat × Nat :=
  if d = 0 then ((c.1 + 1) % dx, c.2) else if d = 1 then ((c.1 + dx - 1) % dx, c.2)
  else if d = 2 then (c.1, (c.2 + 1) % dy) else (c.1, (c.2 + dy - 1) % dy)

/-- The coordinates of every module of a torus, from the root at (0, 0) along breadth-first order (R344). -/
def torusCoords (rs : List AdjRec) (root dx dy : Nat) : List (Nat × Nat × Nat) :=
  (bfs rs root).foldl (fun l q =>
    if q.1 = root then l ++ [(root, 0, 0)]
    else match (graphLinks rs q.2).find? (fun a => a.peer == q.1), l.find? (fun c => c.1 == q.2) with
      | some a, some c => l ++ [(q.1, torusStep dx dy c.2 a.dir)]
      | _, _ => l) []

/-- The coordinates of one module. -/
def coordOf (cs : List (Nat × Nat × Nat)) (f : Nat) : Nat × Nat := match cs.find? (fun c => c.1 == f) with | some c => c.2 | none => (0, 0)

/-- Whether the graph is a torus of the dimensions given: every module has its own place, and every link leads where its direction says. -/
def isTorus (rs : List AdjRec) (g : List Nat) (root dx dy : Nat) : Bool :=
  let cs := torusCoords rs root dx dy
  decide (2 ≤ dx) && decide (2 ≤ dy) && g.length == dx * dy && (cs.map (fun c => c.2)).eraseDups.length == g.length &&
    g.all (fun f => (List.range 4).all (fun d => !(dirLinks rs f d).isEmpty) &&
      (graphLinks rs f).all (fun a => coordOf cs a.peer == torusStep dx dy (coordOf cs f) a.dir))

/-- The number of pairs of neighbours. -/
def edgeCount (rs : List AdjRec) (g : List Nat) : Nat := ((g.map (fun f => (neighboursOf rs f).length)).sum) / 2

/-- Whether the graph has the form of its topology (R344): 0 CHAIN, 1 RING, 2 TREE, 3 TORUS. -/
def hasForm (rs : List AdjRec) (g : List Nat) (root topo dx dy : Nat) : Bool :=
  let deg := g.map (fun f => (neighboursOf rs f).length)
  g.all (fun f => !(neighboursOf rs f).contains f) &&
    (if topo = 0 then edgeCount rs g + 1 == g.length && deg.all (fun n => decide (n ≤ 2))
    else if topo = 1 then decide (2 ≤ g.length) && (deg.all (fun n => n == 2) || (g.length == 2 && deg.all (fun n => n == 1)))
    else if topo = 2 then edgeCount rs g + 1 == g.length
    else isTorus rs g root dx dy)

/-- The error that a computation finds (R345): 2 DUP, 3 SIZE, 1 TOPO; 0 where it finds none. -/
def finderErr (rs : List AdjRec) (own : AdjRec) (g : List Nat) (root : Nat) : Nat :=
  if rs.any (fun a => rs.any (fun b => a.fid == b.fid && a.links != b.links)) then 2
  else if 4096 < g.length then 3
  else if g.all (fun f => match recOf rs f with | some r => r.topo == own.topo && r.dimx == own.dimx && r.dimy == own.dimy | none => false) &&
    hasForm rs g root own.topo own.dimx own.dimy then 0
  else 1

/-! ## Routes (R344) -/

/-- The way from a module to a destination in a chain or tree: the next module and the direction (none). -/
def treeHop (rs : List AdjRec) (dst f : Nat) : Nat := parentIn (bfs rs dst) f

/-- The modules that a walk round a ring visits from f, having come from `prev`, up to the destination. -/
def ringWalk (rs : List AdjRec) (dst : Nat) : Nat → Nat → Nat → List Nat
  | 0, _, f => [f]
  | n + 1, prev, f =>
    if f = dst then [f]
    else match (neighboursOf rs f).find? (fun g => g != prev) with
      | some g => f :: ringWalk rs dst n f g
      | none => [f]

/-- The ID of an identity in a list; 0 where it has none. -/
def idIn (ids : List (Nat × Nat)) (f : Nat) : Nat := match ids.find? (fun q => q.1 == f) with | some q => q.2 | none => 0

/-- The way round a ring from f: the shorter, and of two as short the one toward the neighbour with the lower ID. -/
def ringPath (rs : List AdjRec) (ids : List (Nat × Nat)) (f dst : Nat) : List Nat :=
  let ways := (neighboursOf rs f).map (fun g => (g, ringWalk rs dst rs.length f g))
  match ways with
  | [a] => f :: a.2
  | [a, b] => if a.2.length < b.2.length ∨ (a.2.length = b.2.length ∧ idIn ids a.1 < idIn ids b.1) then f :: a.2 else f :: b.2
  | _ => [f]

/-- The direction of the next step in a torus: X first, then Y; the shorter way, X+ and Y+ where both are as short. -/
def torusDir (dx dy : Nat) (a b : Nat × Nat) : Nat :=
  let ex := (b.1 + dx - a.1) % dx; let ey := (b.2 + dy - a.2) % dy
  if ex ≠ 0 then (if 2 * ex ≤ dx then 0 else 1) else if 2 * ey ≤ dy then 2 else 3

/-- The next module of a path and the direction it takes (none outside a torus). -/
structure Hop where
  next : Nat
  dir : Option Nat
  deriving DecidableEq, Repr

/-- The path from f to a destination, hop by hop. -/
def treePath (rs : List AdjRec) (dst : Nat) : Nat → Nat → List Hop
  | 0, _ => []
  | n + 1, f => if f = dst then [] else ⟨treeHop rs dst f, none⟩ :: treePath rs dst n (treeHop rs dst f)

/-- The path through a torus from f to a destination, hop by hop. -/
def torusPath (rs : List AdjRec) (cs : List (Nat × Nat × Nat)) (dx dy dst : Nat) : Nat → Nat → List Hop
  | 0, _ => []
  | n + 1, f =>
    if f = dst then []
    else
      let d := torusDir dx dy (coordOf cs f) (coordOf cs dst)
      match (dirLinks rs f d).head? with
      | some a => ⟨a.peer, some d⟩ :: torusPath rs cs dx dy dst n a.peer
      | none => []

/-- The path from f to a destination by the topology (R344). -/
def pathTo (rs : List AdjRec) (ids : List (Nat × Nat)) (root : Nat) (own : AdjRec) (f dst : Nat) : List Hop :=
  if own.topo = 1 then ((ringPath rs ids f dst).drop 1).map (fun g => ⟨g, none⟩)
  else if own.topo = 3 then torusPath rs (torusCoords rs root own.dimx own.dimy) own.dimx own.dimy dst rs.length f
  else treePath rs dst rs.length f

/-- The ports of the bundle that one hop takes, ascending (R344). -/
def bundle (rs : List AdjRec) (f : Nat) (h : Hop) : List Adj :=
  (graphLinks rs f).filter (fun a => a.peer == h.next && (match h.dir with | some d => a.dir == d | none => true))

/-- The latency of a path: each hop at the first port of its bundle. -/
def pathNs (rs : List AdjRec) : Nat → List Hop → Nat
  | _, [] => 0
  | f, h :: t => (match (bundle rs f h).head? with | some a => a.lat | none => 0) + pathNs rs h.next t

/-- The entry for destination module m by a path (R344): all ports of a bundle of four or fewer, else four from position 4m on; none where there is no
path or it has more than 64 links. -/
def entryOf (rs : List AdjRec) (f m : Nat) (path : List Hop) : Option RouteEntry :=
  match path with
  | [] => none
  | h :: _ =>
    let b := (bundle rs f h).map (fun a => a.port)
    if 64 < path.length ∨ b.isEmpty = true then none
    else some ⟨if b.length ≤ 4 then b else (List.range 4).map (fun i => b.getD ((4 * m + i) % b.length) 0), path.length, pathNs rs f path⟩

/-- Whether a link of module f is a dateline (R344). -/
def datelineLink (rs : List AdjRec) (ids : List (Nat × Nat)) (root : Nat) (own : AdjRec) (f : Nat) (a : Adj) : Bool :=
  if own.topo = 1 then
    match ids.find? (fun q => q.2 == 0) with
    | none => false
    | some z =>
      let far := ((neighboursOf rs z.1).map (idIn ids)).foldl max 0
      (f == z.1 && idIn ids a.peer == far) || (a.peer == z.1 && idIn ids f == far)
  else if own.topo = 3 then
    let c := coordOf (torusCoords rs root own.dimx own.dimy) f
    (a.dir == 0 && c.1 + 1 == own.dimx) || (a.dir == 1 && c.1 == 0) || (a.dir == 2 && c.2 + 1 == own.dimy) || (a.dir == 3 && c.2 == 0)
  else false

/-! ## The end of a run (R342-R347) -/

/-- The finder enters DONE with its new tables, all together (R346): IDs, root, routes, datelines, status and generation. -/
def State.finderDone (s : State) (ids : List (Nat × Nat)) (root n : Nat) (routes : SMap (Option RouteEntry)) (lines : List Nat) : State :=
  let s1 := s.modDome (fun d => { d with finder := { d.finder with ids := ids, root := root, routes := routes, ranOnce := true } })
  let s2 := s1.upPorts.foldl (fun t p => t.modPort p (fun z => z.wr ZL_STATUS_DATELINE (if lines.contains p then 1 else 0))) s1
  let s3 := (((s2.setDome FND_STATUS_STATE 3).setDome FND_STATUS_ASSIGNED 1).setDome FND_STATUS_MODULES n).setDome FND_ROOT_LO_FID_LO (root % 2 ^ 32)
  ((s3.setDome FND_ROOT_HI_FID_HI (root / 2 ^ 32)).setDome FND_GEN_GEN (s.dome_ FND_GEN_GEN + 1)).hifEvent 7

/-- The first run after start sets RCV_PORT with TICK_AUTO: the lowest UP port toward the breadth-first parent (R347). -/
def State.tickAuto (s : State) (rs : List AdjRec) (first : Nat) : State :=
  let parent := parentIn (bfs rs first) s.fid
  if s.dome_ FND_CTRL_TICK_AUTO = 1 ∧ s.dome.finder.ranOnce = false ∧ s.dome.locked = false ∧ parent ≠ s.fid then
    match (graphLinks rs s.fid).find? (fun a => a.peer == parent) with
    | some a => s.setDome TCK_CTRL_RCV_PORT a.port
    | none => s
  else s

/-- COMPUTE's result (R343-R345): DONE, or ERROR with its code. -/
def State.finderCompute (s : State) : State :=
  let own := s.ownRec
  if s.upPorts.isEmpty then s.finderDone [(own.fid, 0)] own.fid 1 [] []
  else
    let rs := s.dome.finder.recs
    let g := graphOf rs own.fid
    let kept := keptIds rs g
    let root := if s.dome.finder.ranOnce then s.dome.finder.root
      else match kept.find? (fun q => q.2 == 0) with | some q => q.1 | none => chooseRoot rs g
    let err := finderErr rs own g root
    if err ≠ 0 then s.finderError err
    else
      let ids := assignIds rs kept root
      let routes := ids.foldl (fun m q =>
        if q.1 = own.fid then m else SMap.set (fun _ => none) m q.2 (entryOf rs own.fid q.2 (pathTo rs ids root own own.fid q.1))) []
      let lines := ((graphLinks rs own.fid).filter (fun a => datelineLink rs ids root own own.fid a)).map (fun a => a.port)
      (s.tickAuto rs (numberFrom kept root)).finderDone ids root g.length routes lines

/-- FINDER_COMPUTE_DONE (R346). -/
def execFinderComputeDone (s : State) : Host.Outcome State Fault Refusal :=
  .next (if s.dome_ FND_STATUS_STATE = 2 then s.finderCompute else s)

/-! ## Collimation records (R362) -/

/-- The routing entry for a module (R344): one that is left with no port is invalid (R336, R337). -/
def State.route (s : State) (m : Nat) : Option RouteEntry := (SMap.get (fun _ => none) s.dome.finder.routes m).filter (fun e => !e.ports.isEmpty)

/-- A collimation record is taken, where it names this module, or queued, with the port it came from, at the first port of the route to the module it names. -/
def State.sendCol (s : State) (from_ : Option Nat) (r : ColRec) : State :=
  if r.dst = s.modId then s.modDome (fun d => { d with col := { d.col with inbox := d.col.inbox ++ [r] } })
  else match (s.route r.dst).bind (fun e => e.ports.head?) with
    | some p => s.modPort p (fun z => { z with finder := z.finder ++ [(from_, .col r)] })
    | none => s

/-! ## A port that goes DOWN (R336) -/

/-- A port is removed from every routing entry (R336). -/
def Finder.dropPort (f : Finder) (p : Nat) : Finder :=
  { f with routes := f.routes.map (fun e => (e.1, e.2.map (fun x => { x with ports := x.ports.filter (fun q => q != p) }))) }

/-- The packets of a frame. -/
def bodyPkts : FrameBody → List LinkPkt
  | .data l => l
  | _ => []

/-- A port with its queues, buffers, credits and link state empty. -/
def Port.clear (z : Port) : Port := { Port.reset with regs := z.regs, cnt := z.cnt, tick := z.tick, fab := z.fab }

/-- A port that runs on no lanes (R349): none is locked, and it has no width. -/
def Port.noLanes (z : Port) : Port := ((z.wr ZL_STATUS_WIDTH4 0).wr ZL_STATUS_HIGH_GROUP 0).wr ZL_STATUS_LANE_OK 0

/-- A port goes DOWN with a cause (R334, R336): the packets of its retry buffer are counted as dropped, the port leaves the routing entries, and the
fabric event, the fault record (code 26) and, where it was UP, with AUTO a rerun follow (R342). What its queues held is the caller's. -/
def State.portFail (s : State) (p cause : Nat) : State :=
  let z := s.port p
  if z.rd ZL_STATUS_STATE = 0 ∨ z.rd ZL_STATUS_STATE = 6 then s
  else
    let z1 := ((z.clear.noLanes.wr ZL_STATUS_STATE 6).wr ZL_STATUS_LAST_DOWN cause).wr ZL_EVENT_DOWN 1
    let s1 := (s.setPort p (z1.countStart ZL_CNT_DROP_CNT ((z.retry.map (fun f => (bodyPkts f.body).length)).sum))).modDome
      (fun d => { d with finder := d.finder.dropPort p })
    let s2 := (s1.hifEvent 7).regionFailure 26 (regionOf (portCluster p)) 0
    if z.rd ZL_STATUS_STATE = 5 then s2.portChanged else s2

end Sys2Proof.Machine
end

