-- ==== Sys2Proof/Machine/Clock.lean ====
section
/-! DEFINITION. The reference, the clock drives and the transit clocks (R39-R62), and the tick registers (R63, R68, R69, R72). A
region's control page answers while the region is not DARK and is not bypassed (R115, R354). -/

namespace Sys2Proof.Machine

/-- Whether region r's control page takes accesses (R115, R354, R423). -/
def State.pageOpen (s : State) (r : Nat) : Bool := !(s.region r).dark && !s.dome.silent.contains r

/-- Whether region r's controller is running: powered, and neither OFF nor DARK (R88, R96). -/
def State.alive (s : State) (r : Nat) : Bool := (s.region r).power != 0 && !(s.region r).dark

/-- The code of a source in SEL and ACTIVE (R70). -/
def srcCode : Src → Nat
  | .refA => 0
  | .refB => 1
  | .rcv => 2

/-- READY of a source in the clock drive's status (R70). -/
def drvReady : Nat → Fld
  | 0 => DRV_SRC_STATUS_REFA_READY
  | 1 => DRV_SRC_STATUS_REFB_READY
  | _ => DRV_SRC_STATUS_RCV_READY
/-- READY of a source in the transit clock's status (R71). -/
def trcReady : Nat → Fld
  | 0 => TRC_SRC_STATUS_REFA_READY
  | 1 => TRC_SRC_STATUS_REFB_READY
  | _ => TRC_SRC_STATUS_RCV_READY

/-- The clock drive enters a state; LOCK is set in LOCKED alone (R53, R70). -/
def Region.setDrv (g : Region) (st : Nat) : Region := (g.wr DRV_STATUS_STATE st).wr DRV_STATUS_LOCK (if st = 2 then 1 else 0)
/-- The transit clock enters a state (R54, R71). -/
def Region.setTrc (g : Region) (st : Nat) : Region := (g.wr TRC_STATUS_STATE st).wr TRC_STATUS_LOCK (if st = 2 then 1 else 0)

/-- The drive regains its source: HOLDOVER and PARKED return to LOCKED (R53, R59); the park cause HOLDOVER clears. -/
def Region.drvRegain (g : Region) : Region :=
  if g.rd DRV_STATUS_STATE = 4 then g.setDrv 2
  else if g.rd DRV_STATUS_STATE = 5 then (g.setDrv 2).wr PWR_STATUS_PARK_CAUSE (g.rd PWR_STATUS_PARK_CAUSE &&& 5)
  else g

/-- The transit clock regains its source: HOLDOVER returns to LOCKED, unless an acquisition after an unlock is under way (R54). -/
def Region.trcRegain (g : Region) : Region := if g.rd TRC_STATUS_STATE = 4 ∧ g.trcTry = false then g.setTrc 2 else g

/-- A source becomes READY at a region (R40, R53, R59). -/
def Region.readyRise (g : Region) (k : Nat) : Region :=
  let g1 := (g.wr (drvReady k) 1).wr (trcReady k) 1
  let g2 := if g1.rd DRV_SRC_SEL = k then g1.drvRegain else g1
  if g2.rd TRC_SRC_SEL = k then g2.trcRegain else g2

/-- READY falls at a region; the generators that select the source hold over (R53, R57). -/
def Region.readyFall (g : Region) (k : Nat) : Region :=
  let g1 := (g.wr (drvReady k) 0).wr (trcReady k) 0
  let g2 := if g1.rd DRV_SRC_SEL = k ∧ g1.rd DRV_STATUS_STATE = 2 then g1.setDrv 4 else g1
  if g2.rd TRC_SRC_SEL = k ∧ g2.rd TRC_STATUS_STATE = 2 then g2.setTrc 4 else g2

/-- Whether the MCLK generator selects source k: SEL 1 is REF A and 2 is REF B (R427). -/
def State.mclkOn (s : State) (k : Nat) : Bool := s.dome_ DOM_MCLK_SRC_SEL == k + 1 && decide (k ≤ 1)

/-- READY_RISE (R40): READY sets; a generator in holdover on the source returns to lock. -/
def execReadyRise (site : Site) (src : Src) (s : State) : Host.Outcome State Fault Refusal :=
  let k := (srcCode src)
  match site with
  | .region r => .next (if s.alive r.val then s.modRegion r.val (fun g => g.readyRise k) else s)
  | .root =>
    .next (s.modDome (fun d => { d with rootReady := NSet.add d.rootReady k,
                                        rootHold := if s.dome_ TCK_CTRL_MASTER_SRC = k then false else d.rootHold }))
  | .mclk =>
    if k ≤ 1 then
      let s1 := s.setDome DOM_MCLK_STATUS_READY (s.dome_ DOM_MCLK_STATUS_READY ||| 2 ^ (k + 1))
      .next (if s.mclkOn k then s1.setDome DOM_MCLK_STATUS_HOLDOVER 0 else s1)
    else .next s

/-- READY falls at a place other than a region: the root counts on in holdover (R48, R69), and the MCLK generator holds over (R427). -/
def State.siteFall (s : State) (site : Site) (k : Nat) : State :=
  match site with
  | .region r => s.modRegion r.val (fun g => g.readyFall k)
  | .root =>
    let s1 := s.modDome (fun d => { d with rootReady := NSet.del d.rootReady k,
                                           rootHold := if s.dome_ TCK_CTRL_MASTER_SRC = k then true else d.rootHold })
    if s.dome_ TCK_CTRL_MASTER_SRC = k ∧ s.dome_ TCK_CTRL_MODE = 1 then (s1.setDome TCK_STATUS_MASTER_LOS 1).hifEvent 5 else s1
  | .mclk =>
    if k ≤ 1 then
      let s1 := s.setDome DOM_MCLK_STATUS_READY (s.dome_ DOM_MCLK_STATUS_READY &&& (7 - 2 ^ (k + 1)))
      if s.mclkOn k then s1.setDome DOM_MCLK_STATUS_HOLDOVER 1 else s1
    else s

/-- A generator that a loss of its source concerns: any but one that is OFF or in FAULT (R53, R57). -/
def genOn (st : Nat) : Bool := st != 0 && st != 6

/-- REFERENCE_LOSS (R57): READY falls through missing periods; generators that select the source hold over, LOS sets whatever state the generator is
in, and the regions' events merge into one module event: one record, made by the first region that sees the loss (log entry 10). -/
def execReferenceLoss (site : Site) (src : Src) (s : State) : Host.Outcome State Fault Refusal :=
  let k := (srcCode src)
  match site with
  | .region r =>
    if s.alive r.val then
      let g := s.region r.val
      let drv := g.rd DRV_SRC_SEL == k && genOn (g.rd DRV_STATUS_STATE) && g.rd (drvReady k) == 1
      let trc := g.rd TRC_SRC_SEL == k && genOn (g.rd TRC_STATUS_STATE) && g.rd (trcReady k) == 1
      let others := s.regions.any (fun p => p.1 != r.val && (p.2.rd DRV_STATUS_STATE == 4 || p.2.rd TRC_STATUS_STATE == 4))
      let s1 := s.modRegion r.val (fun g =>
        let g1 := g.readyFall k
        let g2 := if drv then g1.wr DRV_SRC_STATUS_LOS 1 else g1
        if trc then g2.wr TRC_SRC_STATUS_LOS 1 else g2)
      if drv || trc then
        let s2 := s1.hifEvent 5
        .next (if others then s2 else s2.regionFailure 14 127 0)
      else .next s1
    else .next s
  | _ => .next (s.siteFall site k)

/-- READY_FREQ_LOSS (R40): READY falls because of the frequency measured; generators that select the source hold over (R53). -/
def execReadyFreqLoss (site : Site) (src : Src) (s : State) : Host.Outcome State Fault Refusal :=
  match site with
  | .region r => .next (if s.alive r.val then s.siteFall site (srcCode src) else s)
  | _ => .next (s.siteFall site (srcCode src))

/-- DRV_SRC_WRITE (R41): the selection changes if the source is READY, else SRC_ERR sets. -/
def execDrvSrcWrite (r : RegionId) (v : W32) (s : State) : Host.Outcome State Fault Refusal :=
  let k := DRV_SRC_SEL.of v
  if s.pageOpen r.val then
    .next (s.modRegion r.val (fun g =>
      if k = 3 ∨ g.rd (drvReady k) = 0 then g.wr DRV_SRC_STATUS_SRC_ERR 1
      else ((g.wr DRV_SRC_SEL k).wr DRV_SRC_STATUS_ACTIVE k).drvRegain))
  else .next s

/-- TRC_SRC_WRITE (R41, R54). -/
def execTrcSrcWrite (r : RegionId) (v : W32) (s : State) : Host.Outcome State Fault Refusal :=
  let k := TRC_SRC_SEL.of v
  if s.pageOpen r.val then
    .next (s.modRegion r.val (fun g =>
      if k = 3 ∨ g.rd (trcReady k) = 0 then g.wr TRC_SRC_STATUS_SRC_ERR 1
      else ((g.wr TRC_SRC_SEL k).wr TRC_SRC_STATUS_ACTIVE k).trcRegain))
  else .next s

/-- MASTER_MARKER_INSERT (R46, R48): in master mode the inserter imposes a marker on every path that is present. -/
def execMasterMarkerInsert (s : State) : Host.Outcome State Fault Refusal :=
  if s.dome_ TCK_CTRL_MODE = 1 then
    .next ((s.modDome (fun d => { d with markers := d.markers + 1 })).emit (.markers s.dome.rootReady))
  else .next s

/-- MASTER_LOS (R48): in master mode MASTER_SRC loses READY at the root; the inserter holds over and MASTER_LOS sets. -/
def execMasterLos (s : State) : Host.Outcome State Fault Refusal :=
  if s.dome_ TCK_CTRL_MODE = 1 then .next (s.siteFall .root (s.dome_ TCK_CTRL_MASTER_SRC)) else .next s

/-- The staged set differs from the active one (R50, R70). -/
def Region.freqDiffers (g : Region) : Bool :=
  g.rd DRV_FREQ_MULT != g.rd DRV_ACTIVE_MULT || g.rd DRV_FREQ_POSTDIV != g.rd DRV_ACTIVE_POSTDIV ||
  g.rd DRV_FREQ_VCODE != g.rd DRV_ACTIVE_VCODE

/-- DRV_FREQ_WRITE (R50): a write stages all three fields. -/
def execDrvFreqWrite (r : RegionId) (v : W32) (s : State) : Host.Outcome State Fault Refusal :=
  if s.pageOpen r.val then
    .next (s.modRegion r.val (fun g =>
      let g1 := ((g.wr DRV_FREQ_MULT (DRV_FREQ_MULT.of v)).wr DRV_FREQ_POSTDIV (DRV_FREQ_POSTDIV.of v)).wr DRV_FREQ_VCODE (DRV_FREQ_VCODE.of v)
      g1.wr DRV_STATUS_PEND (if g1.freqDiffers then 1 else 0)))
  else .next s

/-- The root of the active set in units of 25 MHz (R49). -/
def Region.root (g : Region) : Nat := if g.rd DRV_ACTIVE_POSTDIV = 0 then g.rd DRV_ACTIVE_MULT else g.rd DRV_ACTIVE_MULT / 2

/-- The staged set at a tick (R50): nothing, refused, held pending, or applied by a relock (R51). The rail VA moves to the new VCODE. -/
def Region.freqApply (g : Region) (trims : List Byte) : Region :=
  if g.freqDiffers = false then g
  else if freqValid trims (g.rd DRV_FREQ_MULT) (g.rd DRV_FREQ_POSTDIV) (g.rd DRV_FREQ_VCODE) = false then
    ((((g.wr DRV_STATUS_REJECT 1).wr DRV_FREQ_MULT (g.rd DRV_ACTIVE_MULT)).wr DRV_FREQ_POSTDIV (g.rd DRV_ACTIVE_POSTDIV)).wr
      DRV_FREQ_VCODE (g.rd DRV_ACTIVE_VCODE)).wr DRV_STATUS_PEND 0
  else if g.rd DRV_STATUS_STATE = 2 then
    (((((g.wr DRV_ACTIVE_MULT (g.rd DRV_FREQ_MULT)).wr DRV_ACTIVE_POSTDIV (g.rd DRV_FREQ_POSTDIV)).wr
      DRV_ACTIVE_VCODE (g.rd DRV_FREQ_VCODE)).wr DRV_STATUS_PEND 0).wr PWR_VA_MV (800 + 5 * g.rd DRV_FREQ_VCODE)).setDrv 3
  else g.wr DRV_STATUS_PEND 1

/-- RELOCK_TIMEOUT (R53): a relock without lock within 4 µs ends in FAULT, code 13. -/
def execRelockTimeout (r : RegionId) (s : State) : Host.Outcome State Fault Refusal :=
  if (s.region r.val).rd DRV_STATUS_STATE = 3 then
    .next ((s.modRegion r.val (fun g => g.setDrv 6)).regionFailure 13 r.val 0)
  else .next s

/-- UNLOCK (R52): a LOCKED drive loses phase lock; UNLOCK sets, a fault event is raised and one relock is tried. -/
def execUnlock (r : RegionId) (s : State) : Host.Outcome State Fault Refusal :=
  if (s.region r.val).rd DRV_STATUS_STATE = 2 then
    .next (((s.modRegion r.val (fun g => (g.setDrv 3).wr DRV_STATUS_UNLOCK 1)).hifEvent 5).regionFailure 12 r.val 0)
  else .next s

/-- ACQUIRE_LOCK (R53, R54): a generator in ACQUIRE locks to its selected READY source. -/
def execAcquireLock (r : RegionId) (transit : Bool) (s : State) : Host.Outcome State Fault Refusal :=
  let g := s.region r.val
  if transit then
    .next (if g.rd TRC_STATUS_STATE = 1 ∧ g.rd (trcReady (g.rd TRC_SRC_SEL)) = 1 then
      s.setRegion r.val ((g.setTrc 2).wr TRC_SRC_STATUS_ACTIVE (g.rd TRC_SRC_SEL)) else s)
  else
    .next (if g.rd DRV_STATUS_STATE = 1 ∧ g.rd (drvReady (g.rd DRV_SRC_SEL)) = 1 then
      s.setRegion r.val ((g.setDrv 2).wr DRV_SRC_STATUS_ACTIVE (g.rd DRV_SRC_SEL)) else s)

/-- ACQUIRE_TIMEOUT (R53): no lock within 200 µs of ACQUIRE ends in FAULT, code 13. -/
def execAcquireTimeout (r : RegionId) (transit : Bool) (s : State) : Host.Outcome State Fault Refusal :=
  let g := s.region r.val
  if transit then
    .next (if g.rd TRC_STATUS_STATE = 1 then (s.setRegion r.val (g.setTrc 6)).regionFailure 13 r.val 0 else s)
  else
    .next (if g.rd DRV_STATUS_STATE = 1 then (s.setRegion r.val (g.setDrv 6)).regionFailure 13 r.val 0 else s)

/-- TRANSIT_UNLOCK (R54): a LOCKED transit clock loses phase lock and holds over; one acquisition is tried. -/
def execTransitUnlock (r : RegionId) (s : State) : Host.Outcome State Fault Refusal :=
  if (s.region r.val).rd TRC_STATUS_STATE = 2 then
    .next (((s.modRegion r.val (fun g => { (g.setTrc 4).wr TRC_STATUS_UNLOCK 1 with trcTry := true })).hifEvent 5).regionFailure 12 r.val 0)
  else .next s

/-- TRANSIT_REACQUIRE (R54): the acquisition after an unlock locks within 4 µs. -/
def execTransitReacquire (r : RegionId) (s : State) : Host.Outcome State Fault Refusal :=
  let g := s.region r.val
  .next (if g.rd TRC_STATUS_STATE = 4 ∧ g.trcTry = true then s.setRegion r.val { g.setTrc 2 with trcTry := false } else s)

/-- TRANSIT_REACQUIRE_TIMEOUT (R54): it does not; the transit clock enters FAULT and the region's routers stop. -/
def execTransitReacquireTimeout (r : RegionId) (s : State) : Host.Outcome State Fault Refusal :=
  let g := s.region r.val
  .next (if g.rd TRC_STATUS_STATE = 4 ∧ g.trcTry = true then
    (s.setRegion r.val { g.setTrc 6 with trcTry := false }).regionFailure 13 r.val 0 else s)

/-- TCLK's rate follows its two causes (R55). -/
def Region.halfRate (g : Region) : Region := g.wr TRC_CTRL_HALF (if g.rd TRC_CTRL_HALF_REQ = 1 ∨ g.rd TRC_CTRL_HALF_THM = 1 then 1 else 0)

/-- TRC_CTRL_WRITE (R55). -/
def execTrcCtrlWrite (r : RegionId) (v : W32) (s : State) : Host.Outcome State Fault Refusal :=
  if s.pageOpen r.val then .next (s.modRegion r.val (fun g => (g.wr TRC_CTRL_HALF_REQ (TRC_CTRL_HALF_REQ.of v)).halfRate)) else .next s

/-- The eighths of a root period that a stretch adds (R60, R62, R70). -/
def stretchEighths (code : Nat) : Nat := if code = 0 then 1 else if code = 1 then 2 else 4

/-- Root periods of a region are stretched (R60, R62, R87). -/
def Region.stretch (g : Region) (n : Nat) : Region :=
  ((g.count DRV_SEE_CNT_CNT n).count DRV_SEE_LOST_LOST (n * stretchEighths (g.rd DRV_SEE_CTRL_STRETCH))).chrono 17 n

/-- SEEING_STRETCH (R60): a droop of more than 5 mV × THRESH stretches every period while it lasts; suspended while the compute clocks are
stopped (R51). -/
def execSeeingStretch (r : RegionId) (transit : Bool) (droopMv periods : Nat) (s : State) : Host.Outcome State Fault Refusal :=
  let g := s.region r.val
  if transit then
    .next (if s.alive r.val ∧ 5 * g.rd TRC_SEE_CTRL_THRESH < droopMv then s.setRegion r.val (g.count TRC_SEE_CNT_CNT periods) else s)
  else
    .next (if g.computing ∧ 5 * g.rd DRV_SEE_CTRL_THRESH < droopMv then s.setRegion r.val (g.stretch periods) else s)

/-- A read of TCK_SNAP_LO latches the stamp and the module tick number of the last tick (R68). -/
def State.snapRead (s : State) : Nat × State :=
  (s.dome.ptm % 2 ^ 32, (((s.setDome TCK_SNAP_LO_STAMP_LO (s.dome.ptm % 2 ^ 32)).setDome TCK_SNAP_HI_STAMP_HI (s.dome.ptm / 2 ^ 32)).setDome
    TCK_SNAP_NUM_LO_NUM_LO (s.tickNum % 2 ^ 32)).setDome TCK_SNAP_NUM_HI_NUM_HI (s.tickNum / 2 ^ 32))

/-- TCK_SNAP_READ (R68, R379): the host's read through BAR0. -/
def execTckSnapRead (s : State) : Host.Outcome State Fault Refusal := .next (s.bar0Read 0x20C State.snapRead)

/-- A read of a region's tick number returns the low word and latches the high word (R72); a DARK region's page reads all ones (R115). -/
def State.rnumRead (r : Nat) (s : State) : Nat × State :=
  if s.pageOpen r then ((s.region r).num % 2 ^ 32, s.setRegion r ((s.region r).wr TCK_RNUM_HI_NUM_HI ((s.region r).num / 2 ^ 32))) else (0xFFFFFFFF, s)

/-- TCK_RNUM_READ (R72, R379): the host's read through BAR0. -/
def execTckRnumRead (r : RegionId) (s : State) : Host.Outcome State Fault Refusal :=
  .next (s.bar0Read (0x100084 + 0x1000 * r.val) (State.rnumRead r.val))

/-- TCK_PERIOD_WRITE (R63, R7): before the lock a value in range sets the period and another sets CFG_ERR; after it a differing value sets
LOCK_VIOL. -/
def execTckPeriodWrite (v : W32) (s : State) : Host.Outcome State Fault Refusal :=
  let p := TCK_PERIOD_PERIOD.of v
  if s.dome.locked then .next (if p = s.dome_ TCK_PERIOD_PERIOD then s else s.setDome TCK_STATUS_LOCK_VIOL 1)
  else if 1250 ≤ p ∧ p ≤ 2500000 then .next (s.setDome TCK_PERIOD_PERIOD p)
  else .next (s.setDome TCK_STATUS_CFG_ERR 1)

/-- TCK_CTRL_WRITE (R69, R7): invalid values are ignored and set CFG_ERR; after the lock a differing value sets LOCK_VIOL. -/
def execTckCtrlWrite (v : W32) (s : State) : Host.Outcome State Fault Refusal :=
  let mode := TCK_CTRL_MODE.of v; let src := TCK_CTRL_MASTER_SRC.of v; let slip := TCK_CTRL_SLIP_LIMIT.of v; let port := TCK_CTRL_RCV_PORT.of v
  if s.dome.locked then
    .next (if mode = s.dome_ TCK_CTRL_MODE ∧ src = s.dome_ TCK_CTRL_MASTER_SRC ∧ slip = s.dome_ TCK_CTRL_SLIP_LIMIT ∧
      port = s.dome_ TCK_CTRL_RCV_PORT then s else s.setDome TCK_STATUS_LOCK_VIOL 1)
  else
    let s1 := (s.setDome TCK_CTRL_MODE mode).setDome TCK_CTRL_RCV_PORT port
    let s2 := if src = 3 then s1.setDome TCK_STATUS_CFG_ERR 1 else s1.setDome TCK_CTRL_MASTER_SRC src
    .next (if slip = 0 then s2.setDome TCK_STATUS_CFG_ERR 1 else s2.setDome TCK_CTRL_SLIP_LIMIT slip)

/-- GOLDEN_ROTATE (R300): the golden region advances. -/
def execGoldenRotate (s : State) : Host.Outcome State Fault Refusal :=
  .next (s.modDome (fun d => { d with golden := (d.golden + 1) % 112 }))

end Sys2Proof.Machine
end

