-- ==== Sys2Proof/Machine/Digest.lean ====
section
/-! DEFINITION. Weight digests (R140, R359-R361): the hash of an element, contributions to a region's buckets, strays, and
freezing. The closing of an interval and the exchange of records are in Collimation. -/

namespace Sys2Proof.Machine

/-- The prime of the digest (R359). -/
def colPrime : Nat := 2 ^ 128 - 159

/-- The hash of an element: PLACEMENT index, format, byte of the dense layout and encoding (R359). -/
def colHash (key prec fmt byte value : Nat) : Nat :=
  let m := prec % 2 ^ 16 * 2 ^ 96 + fmt % 16 * 2 ^ 92 + byte % 2 ^ 21 * 2 ^ 64 + value % 2 ^ 32
  (m + key) ^ 3 % colPrime

/-- DOM_COL_KEY modulo p (R359). -/
def State.colKey (s : State) : Nat :=
  ((List.range 4).foldl (fun a w => a + s.dome_ (DOM_COL_KEY_KEY.nth w) * 2 ^ (32 * w)) 0) % colPrime

/-- Contributions added to a bucket (R359, R360). -/
def Bucket.add (b : Bucket) (sum count : Nat) (nondet : Bool) : Bucket :=
  ⟨(b.sum + sum) % colPrime, (b.count + count) % 2 ^ 64, b.nondet || nondet⟩

/-- Whether a region freezes at once when a closing is armed: DRAINED, FREE, NOCOMP or DARK (R361). -/
def Region.freezesNow (g : Region) : Bool := g.sched_ == 4 || g.sched_ == 0 || g.nocomp || g.dark

/-- The closing of the current interval is armed (R361). -/
def State.colArm (s : State) : State :=
  if s.dome.col.armed then s
  else (List.range 112).foldl (fun t r => t.modRegion r (fun g => if g.freezesNow then { g with frozen := true } else g))
    (s.modDome (fun d => { d with col := { d.col with armed := true } }))

/-- A bit of DOM_COL_EVENT sets, which is a cause of the collimation event (R394). -/
def State.colEvent (s : State) (f : Fld) : State := (s.setDome f 1).hifEvent 6

/-- n contributions of another interval are strays (R360). -/
def State.colStray (s : State) (n : Nat) : State :=
  (s.setDome DOM_COL_STRAY_CNT (s.dome_ DOM_COL_STRAY_CNT + n)).colEvent DOM_COL_EVENT_STRAY

/-- The ephemeris that loaded a region, if any (R209, R218). -/
def State.ephOf (s : State) (r : Nat) : Option Eph :=
  if (s.region r).sched_ = 0 then none else SMap.get (fun _ => none) s.dome.ephs ((s.region r).rd TCK_RSCHED_EPH)

/-- The elements of a strip pass to the digest of cluster i's region (R140, R359, R360): STEP, whether the command's rounding is NONDET, the
format, and each element's byte in the dense layout with its encoding. A module in DEGRADED has abandoned its open intervals (R353) and collects
nothing. -/
def State.contribute (s : State) (i step : Nat) (nondet : Bool) (fmt : Nat) (els : List (Nat × Nat)) : State :=
  if s.dome_ DOM_COL_CTRL_EN = 0 ∨ s.mstate = 2 ∨ els.isEmpty then s
  else
    let r := regionOf i
    let iv := step / s.dome_ DOM_COL_CTRL_N
    let eph := s.ephOf r
    let prec := match eph with | some e => e.places.idxOf i | none => 0
    let nd := nondet || (match eph with | some e => !e.determ | none => true)
    let key := s.colKey
    let sum := els.foldl (fun a e => (a + colHash key prec fmt e.1 e.2) % colPrime) 0
    let s0 := match s.dome.col.interval with
      | some _ => s
      | none => s.modDome (fun d => { d with col := { d.col with interval := some iv } })
    let cur := match s0.dome.col.interval with | some k => k | none => iv
    if iv = cur then
      (if (s0.region r).frozen then s0.colStray els.length
       else s0.modRegion r (fun g => { g with bucket0 := g.bucket0.add sum els.length nd }))
    else if iv = cur + 1 then (s0.modRegion r (fun g => { g with bucket1 := g.bucket1.add sum els.length nd })).colArm
    else s0.colStray els.length

end Sys2Proof.Machine
end

