-- ==== Sys2Proof/Machine/NumFmt.lean ====
section
/-! DEFINITION. Number formats and rounding (R148-R167): reading and writing every format of R122, exact sums and products,
conversion with one rounding, block scales, the stochastic-rounding generator, the faithfully rounded functions (R182) and the
activation functions (R139). A finite value is held exactly, as a sign, a natural mantissa and a binary exponent. -/

namespace Sys2Proof.Machine

/-- A value read from a format (R149): a NaN, an infinity by sign, or (−1)^neg × m × 2^e, with signed zeros. -/
inductive FVal where
  | nan
  | inf (neg : Bool)
  | num (neg : Bool) (m : Nat) (e : Int)
  deriving DecidableEq, Repr

/-! ## Formats (R122, R148) -/

/-- Bits of an element of a format code (R122); 0 for the reserved codes. -/
def fmtBits (f : Nat) : Nat :=
  if f ≤ 3 then 8 else if f ≤ 5 then 6 else if f = 6 then 4 else if f ≤ 8 then 8 else if f ≤ 10 then 16 else if f ≤ 12 then 32 else 0
/-- Mantissa bits of a floating-point format code (R148). -/
def fmtMant (f : Nat) : Nat :=
  if f = 0 ∨ f = 2 then 3 else if f = 1 ∨ f = 3 then 2 else if f = 4 then 2 else if f = 5 then 3 else if f = 6 then 1
  else if f = 9 then 7 else if f = 10 then 10 else 23
/-- Exponent bias of a floating-point format code (R148). -/
def fmtBias (f : Nat) : Nat :=
  if f = 0 ∨ f = 2 then 7 else if f = 1 ∨ f = 3 then 15 else if f = 4 then 3 else if f = 5 then 1 else if f = 6 then 1
  else if f = 10 then 15 else 127
/-- Magnitude code of the largest finite value (R148). -/
def fmtMax (f : Nat) : Nat :=
  if f = 0 ∨ f = 2 then 0x7E else if f = 1 ∨ f = 3 then 0x7B else if f = 4 ∨ f = 5 then 0x1F else if f = 6 then 7
  else if f = 9 then 0x7F7F else if f = 10 then 0x7BFF else 0x7F7FFFFF
/-- The canonical NaN (R148). -/
def fmtNan (f : Nat) : Nat :=
  if f = 0 ∨ f = 2 then 0x7F else if f = 1 ∨ f = 3 then 0x7E else if f = 9 then 0x7FC0 else if f = 10 then 0x7E00 else 0x7FC00000
/-- Whether the format has infinities (R148). -/
def fmtHasInf (f : Nat) : Bool := f == 1 || f == 3 || f == 9 || f == 10 || f == 11
/-- Whether the format is an MX element format whose subnormals flush (R150). -/
def fmtFlush (f : Nat) : Bool := f == 4 || f == 5 || f == 6
/-- Whether the code names an integer format (7 MXINT8, 8 INT8, 12 INT32). -/
def fmtInt (f : Nat) : Bool := f == 7 || f == 8 || f == 12
/-- Whether the code names an MX format (R122). -/
def fmtMx (f : Nat) : Bool := decide (2 ≤ f) && decide (f ≤ 7)

/-- An integer as a value. -/
def FVal.ofInt (z : Int) (e : Int) : FVal := .num (decide (z < 0)) z.natAbs e

/-- The value of a code of a format (R148-R150). -/
def decodeEl (f code : Nat) : FVal :=
  let w := fmtBits f
  let c := code % 2 ^ w
  if f = 7 then .ofInt (toSigned 8 c) (-6)
  else if f = 8 then .ofInt (toSigned 8 c) 0
  else if f = 12 then .ofInt (toSigned 32 c) 0
  else
    let neg := decide (2 ^ (w - 1) ≤ c)
    let mag := c % 2 ^ (w - 1)
    let mb := fmtMant f
    let ex := mag / 2 ^ mb
    let m := mag % 2 ^ mb
    if fmtMax f < mag ∧ fmtFlush f = false then
      (if fmtHasInf f = true ∧ m = 0 then .inf neg else .nan)
    else if ex = 0 then (if fmtFlush f then .num neg 0 0 else .num neg m (1 - (fmtBias f : Int) - mb))
    else .num neg (m + 2 ^ mb) ((ex : Int) - fmtBias f - mb)

/-! ## Exact arithmetic (R155, R156, R167) -/

/-- The value times 2^k. -/
def FVal.scale (v : FVal) (k : Int) : FVal := match v with | .num n m e => .num n m (e + k) | v => v
/-- The value with its sign turned. -/
def FVal.neg (v : FVal) : FVal := match v with | .nan => .nan | .inf n => .inf (!n) | .num n m e => .num (!n) m e

/-- The exact product (R156). -/
def FVal.mul : FVal → FVal → FVal
  | .nan, _ => .nan
  | _, .nan => .nan
  | .inf a, .inf b => .inf (a != b)
  | .inf a, .num b m _ => if m = 0 then .nan else .inf (a != b)
  | .num a m _, .inf b => if m = 0 then .nan else .inf (a != b)
  | .num a m e, .num b n g => .num (a != b) (m * n) (e + g)

/-- The signed mantissa of a finite value at exponent g, not above its own. -/
def FVal.at (v : FVal) (g : Int) : Int :=
  match v with
  | .num n m e => let k := (m : Int) * 2 ^ (e - g).toNat; if n then -k else k
  | _ => 0

/-- The exponent of a finite value. -/
def FVal.exp (v : FVal) : Int := match v with | .num _ _ e => e | _ => 0
/-- Whether the value is a NaN. -/
def FVal.isNan (v : FVal) : Bool := match v with | .nan => true | _ => false
/-- Whether the value is the infinity of a sign. -/
def FVal.isInf (v : FVal) (neg : Bool) : Bool := match v with | .inf n => n == neg | _ => false
/-- Whether the value is a zero. -/
def FVal.isZero (v : FVal) : Bool := match v with | .num _ m _ => m == 0 | _ => false
/-- Whether the value is −0. -/
def FVal.isNegZero (v : FVal) : Bool := match v with | .num n m _ => n && m == 0 | _ => false

/-- The exact sum of terms with the special operands of R156. -/
def fsum (vs : List FVal) : FVal :=
  if vs.any FVal.isNan then .nan
  else
    let pos := vs.any (fun v => v.isInf false); let ngt := vs.any (fun v => v.isInf true)
    if pos && ngt then .nan else if pos then .inf false else if ngt then .inf true
    else
      let g := vs.foldl (fun a v => min a v.exp) 0
      let z := vs.foldl (fun a v => a + v.at g) 0
      if z = 0 then .num (vs.all FVal.isNegZero) 0 0 else .ofInt z g

/-- The comparison of two values that are not NaN: negative, zero or positive as a is below, equal to or above b (zeros equal). -/
def fcmp (a b : FVal) : Int :=
  match a, b with
  | .inf n, .inf k => if n = k then 0 else if n then -1 else 1
  | .inf n, _ => if n then -1 else 1
  | _, .inf n => if n then 1 else -1
  | _, _ => let g := min a.exp b.exp; a.at g - b.at g

/-- The order of max pooling (R166): as `fcmp`, with +0 above −0. -/
def fcmpZ (a b : FVal) : Int :=
  let d := fcmp a b
  if d = 0 ∧ a.isZero ∧ b.isZero then (if a.isNegZero = b.isNegZero then 0 else if a.isNegZero then -1 else 1) else d

/-- The larger of two values under R166; NaN if either is. -/
def fmaxZ (a b : FVal) : FVal := if a.isNan || b.isNan then .nan else if fcmpZ a b < 0 then b else a
/-- The smaller of two values, ordered as in R166; NaN if either is. -/
def fminZ (a b : FVal) : FVal := if a.isNan || b.isNan then .nan else if 0 < fcmpZ a b then b else a

/-! ## Rounding (R157-R160) -/

/-- How a conversion rounds: to nearest even, by a stochastic draw (R157), or toward zero. -/
inductive Round where
  | rne
  | sr (r : Nat)
  | zero
  deriving DecidableEq, Repr

/-- m × 2^(e − ue) rounded to an integer (R157). -/
def roundShift (mode : Round) (m : Nat) (e ue : Int) : Nat :=
  if ue ≤ e then m * 2 ^ (e - ue).toNat
  else
    let sh := (ue - e).toNat
    let q := m / 2 ^ sh
    let rem := m % 2 ^ sh
    let up := match mode with
      | .rne => decide (2 ^ sh < 2 * rem) || (2 * rem == 2 ^ sh && q % 2 == 1)
      | .sr r => decide (2 ^ 24 ≤ rem * 2 ^ 24 / 2 ^ sh + r)
      | .zero => false
    if up then q + 1 else q

/-- The magnitude code of a rounded value q × 2^ue in a format with `mb` mantissa bits, the exponent unbounded above. -/
def packMag (mb bias : Nat) (q : Nat) (ue : Int) : Nat :=
  if q < 2 ^ mb then q
  else
    let q' := if q = 2 ^ (mb + 1) then 2 ^ mb else q
    let u' := if q = 2 ^ (mb + 1) then ue + 1 else ue
    (u' + mb + bias).toNat * 2 ^ mb + (q' - 2 ^ mb)

/-- The exponent of the spacing at a value with mantissa m ≠ 0 and exponent e (R157). -/
def ulpExp (mb bias m : Nat) (e : Int) : Int := max ((Nat.log2 m : Int) + e - mb) (1 - (bias : Int) - mb)

/-- Conversion of an exact value to a floating-point format (R157, R158). -/
def encodeFloat (mode : Round) (sat : Bool) (f : Nat) (v : FVal) : Nat :=
  let signBit := 2 ^ (fmtBits f - 1)
  let sg (n : Bool) (c : Nat) := if n then signBit + c else c
  let big (n : Bool) : Nat :=
    if fmtFlush f then sg n (fmtMax f)
    else if f = 0 ∨ f = 2 then (if sat then sg n (fmtMax f) else fmtNan f)
    else if f = 1 ∨ f = 3 then (if sat then sg n (fmtMax f) else sg n 0x7C)
    else if f = 9 then sg n 0x7F80 else if f = 10 then sg n 0x7C00 else sg n 0x7F800000
  match v with
  | .nan => fmtNan f
  | .inf n => big n
  | .num n m e =>
    if m = 0 then sg n 0
    else
      let ue := ulpExp (fmtMant f) (fmtBias f) m e
      let c := packMag (fmtMant f) (fmtBias f) (roundShift mode m e ue) ue
      if fmtMax f < c then big n
      else if fmtFlush f ∧ c < 2 ^ fmtMant f then sg n 0
      else sg n c

/-- Conversion to a two's complement integer of w bits in steps of 2^u, saturating from −lim − adj to lim (R159, R161). -/
def encodeInt (mode : Round) (w : Nat) (u : Int) (low : Int) (v : FVal) : Nat :=
  let hi : Int := 2 ^ (w - 1) - 1
  let z : Int := match v with
    | .nan => 0
    | .inf n => if n then low else hi
    | .num n m e => let q : Int := roundShift mode m e u; let s := if n then -q else q; max low (min hi s)
  (z % 2 ^ w).toNat

/-- Conversion of an exact value to any format (R157-R160). -/
def encodeEl (mode : Round) (sat : Bool) (f : Nat) (v : FVal) : Nat :=
  if f = 7 then encodeInt mode 8 (-6) (-127) v
  else if f = 8 then encodeInt mode 8 0 (-128) v
  else if f = 12 then encodeInt mode 32 0 (-2147483648) v
  else encodeFloat mode sat f v

/-- The value of an FP32 word. -/
def f32 (w : W32) : FVal := decodeEl 11 w.toNat
/-- The exact value rounded once to FP32 by round-to-nearest-even (R155, R167). -/
def toF32 (v : FVal) : W32 := BitVec.ofNat 32 (encodeFloat .rne false 11 v)
/-- a × b + c with one FP32 rounding. -/
def ffma (a b c : W32) : W32 := toF32 (fsum [FVal.mul (f32 a) (f32 b), f32 c])
/-- a + b with one FP32 rounding. -/
def fadd (a b : W32) : W32 := toF32 (fsum [f32 a, f32 b])

/-- One cube step (R155, R156): the accumulator, the exponent Xa + Xb − 254 (none where a scale is NaN), and the operands' values. -/
def cubeStep (acc : W32) (scale : Option Int) (pairs : List (FVal × FVal)) : W32 :=
  match scale with
  | none => BitVec.ofNat 32 (fmtNan 11)
  | some k => toF32 (fsum (f32 acc :: pairs.map (fun p => (FVal.mul p.1 p.2).scale k)))

/-- The exact quotient of a finite value by n ≠ 0, with a sticky bit far below any rounding place. -/
def FVal.divNat (v : FVal) (n : Nat) : FVal :=
  match v with
  | .num s m e => .num s (m * 2 ^ 128 / n * 2 + (if m * 2 ^ 128 % n = 0 then 0 else 1)) (e - 129)
  | v => v

/-! ## Block scales (R153, R161) -/

/-- The exponent of a product of two block scales, none where either is 0xFF (R153, R155). -/
def scaleExp (xa xb : Nat) : Option Int := if xa = 255 ∨ xb = 255 then none else some ((xa : Int) + xb - 254)

/-- emax of an MX format (R161). -/
def mxEmax (f : Nat) : Int := if f = 2 then 8 else if f = 3 then 15 else if f = 4 then 4 else if f = 5 ∨ f = 6 then 2 else 0

/-- The exponent of a value's leading bit. -/
def FVal.top (v : FVal) : Int := match v with | .num _ m e => (Nat.log2 m : Int) + e | _ => 0

/-- A block of FP32 values in an MX format: the scale byte and the element codes (R161). -/
def toMx (f : Nat) (vs : List W32) : Nat × List Nat :=
  let xs := vs.map f32
  if xs.any (fun v => v.isNan || v.isInf true || v.isInf false) then (255, xs.map (fun _ => 0))
  else
    let nz := xs.filter (fun v => !v.isZero)
    match nz with
    | [] => (127, xs.map (fun v => if f = 7 then 0 else encodeFloat .rne true f v))
    | v0 :: rest =>
      let top := rest.foldl (fun a v => max a v.top) v0.top
      let x : Int := max 0 (min 254 (top - mxEmax f + 127))
      (x.toNat, xs.map (fun v => encodeEl .rne true f (v.scale (127 - x))))

/-! ## The stochastic-rounding generator (R162, R163) -/

/-- mix of R162. -/
def srMix (z0 : Nat) : Nat :=
  let z1 := ((z0 ^^^ (z0 >>> 12)) * 0x6C8E9D) % 2 ^ 24
  let z2 := ((z1 ^^^ (z1 >>> 11)) * 0xA3B195) % 2 ^ 24
  z2 ^^^ (z2 >>> 12)
/-- The state after a draw; the draw is `srMix` of it (R162). -/
def srNext (g : Nat) : Nat := (g + 0x9E3779) % 2 ^ 24
/-- The seed of deterministic mode (R163). -/
def srSeed (step x y a : Nat) : Nat :=
  let c := y * 2 ^ 17 + x * 2 ^ 10 + a * 2 ^ 9
  let k := (step % 2 ^ 24) ^^^ (step / 2 ^ 24 % 256 * 2 ^ 16)
  srMix (k ^^^ srMix c)

/-! ## Fixed-point functions, exact far beyond any rounding place (R139, R182) -/

/-- Fractional bits of the fixed-point functions. -/
def fxBits : Nat := 320
/-- 2^320. -/
def fxOne : Nat := 2 ^ 320

/-- Σ over odd k of y^k / k scaled, the series of atanh; `p` is y^k, `y2` is y². -/
def fxAtanhFrom : Nat → Nat → Nat → Nat → Nat
  | 0, _, _, _ => 0
  | n + 1, p, y2, k => p / k + fxAtanhFrom n (p * y2 / fxOne) y2 (k + 2)

/-- atanh of a fixed-point value below 1. -/
def fxAtanh (y : Nat) : Nat := fxAtanhFrom 340 y (y * y / fxOne) 1
/-- ln 2 in fixed point: 2 atanh(1/3). -/
def fxLn2 : Nat := 2 * fxAtanh (fxOne / 3)

/-- The Taylor series of e^x in fixed point. -/
def fxExpFrom : Nat → Nat → Nat → Nat → Nat
  | 0, _, _, _ => 0
  | n + 1, t, x, k => t + fxExpFrom n (t * x / fxOne / k) x (k + 1)
/-- e^x for a fixed-point x from 0 to 1. -/
def fxExp (x : Nat) : Nat := fxExpFrom 80 fxOne x 1

/-- e^(−x) in fixed point for a fixed-point x ≥ 0. -/
def fxExpNeg (x : Nat) : Nat :=
  let k := x / fxLn2
  let r := x % fxLn2
  (if r = 0 then fxOne else fxExp (fxLn2 - r) / 2) / 2 ^ k

/-- The logistic function of ±x in fixed point, x ≥ 0. -/
def fxSigmoid (neg : Bool) (x : Nat) : Nat :=
  let t := fxExpNeg x
  if neg then t * fxOne / (fxOne + t) else fxOne * fxOne / (fxOne + t)

/-- The exact value of activation 3 to 6 at z / 64, in fixed point with its sign (R139). GELU is x σ(2u) with u = 0.797885 (x + 0.044715 x³),
and tanh x is 2σ(2x) − 1. -/
def actExact (act : Nat) (z : Int) : FVal :=
  let n := decide (z < 0)
  let a := z.natAbs
  if a = 0 then (if act = 5 then .num false 1 (-1) else .num false 0 0)
  else if act = 5 then .num false (fxSigmoid n (a * fxOne / 64)) (-320)
  else if act = 4 then .num n (a * fxSigmoid n (a * fxOne / 64) / 64) (-320)
  else if act = 3 then
        let u2 := 2 * 797885 * (a * 1000000 * 4096 + 44715 * a * a * a) * fxOne / (1000000 * 1000000 * 262144)
    .num n (a * fxSigmoid n u2 / 64) (-320)
  else .num n (2 * fxSigmoid false (2 * a * fxOne / 64) - fxOne) (-320)

/-- The result of activation codes 3 to 6 (R139). -/
def actPiecewise (act : Nat) (x : W32) : W32 :=
  match f32 x with
  | .nan => BitVec.ofNat 32 (fmtNan 11)
  | v =>
    if 0 < fcmp v (.num false 8 0) then (if act = 3 ∨ act = 4 then x else 0x3F800000)
    else if fcmp v (.num true 8 0) < 0 then (if act = 6 then 0xBF800000 else 0)
    else
      let g := min v.exp (-6)
      let t : Int := (v.at g + 8 * 2 ^ (-g).toNat) / 2 ^ (-6 - g).toNat
      let s : Int := min t 1023
      let z0 : Int := s - 512
      let f0 := f32 (toF32 (actExact act z0)); let f1 := f32 (toF32 (actExact act (z0 + 1)))
      let slope := f32 (toF32 ((fsum [f1, f0.neg]).scale 6))
      let icpt := f32 (toF32 (fsum [f0, (FVal.mul slope (.ofInt z0 (-6))).neg]))
      toF32 (fsum [FVal.mul slope v, icpt])

/-- The integer square root, bit by bit. -/
def isqrtFrom : Nat → Nat → Nat → Nat
  | 0, _, r => r
  | n + 1, y, r => let t := r + 2 ^ n; isqrtFrom n y (if t * t ≤ y then t else r)

/-- The exact result of FRCP (0), FRSQ (1), FEXP2 (2) or FLOG2 (3) of a finite non-zero value (a positive one for 1 and 3), with a
sticky bit where it is not exact. -/
def exactFn (op : Nat) (v : FVal) : FVal :=
  match v with
  | .num n m e =>
    if op = 0 then .num n (2 ^ 256 / m * 2 + (if 2 ^ 256 % m = 0 then 0 else 1)) (-e - 257)
    else if op = 1 then
      let m' := if e % 2 = 0 then m else 2 * m
      let e' := if e % 2 = 0 then e else e - 1
      let y := 2 ^ 400 / m'
      let r := isqrtFrom 201 y 0
      .num false (r * 2 + (if r * r = y ∧ 2 ^ 400 % m' = 0 then 0 else 1)) (-(e' / 2) - 201)
    else if op = 2 then
      let g := min e 0
      let z := v.at g
      let k := z / 2 ^ (-g).toNat
      let fr := (z % 2 ^ (-g).toNat).toNat
      if fr = 0 then .num false 1 k
      else .num false (fxExp (fr * fxLn2 / 2 ^ (-g).toNat) * 2 + 1) (k - 321)
    else
      let t := Nat.log2 m
      let k : Int := t + e
      let d := m - 2 ^ t
      if d = 0 then .ofInt k 0
      else
        let y := d * fxOne / (m + 2 ^ t)
        let fr : Int := (2 * fxAtanh y) * fxOne / fxLn2
        let z := k * fxOne + fr
        .num (decide (z < 0)) (z.natAbs * 2 + 1) (-321)
  | v => v

/-- A word that the module writes: every NaN is the canonical one (R149). -/
def canonF32 (w : W32) : W32 := match f32 w with | .nan => BitVec.ofNat 32 (fmtNan 11) | _ => w

/-- The faithfully rounded result: the exact value where FP32 holds it, else one of its two neighbours, which the manual leaves open
(R182; log entry 9); a magnitude of 2^128 or more is an overflow, infinity (R158). -/
def faithful (op : Nat) (x : W32) (v : FVal) : W32 :=
  let lo := encodeFloat .zero false 11 v
  let w : W32 := BitVec.ofNat 32 lo
  match v with
  | .num _ m e =>
    let ue := ulpExp 23 127 m e
    let exact := decide (ue ≤ e) || m % 2 ^ (ue - e).toNat == 0
    if exact = true ∨ m = 0 ∨ 0x7F800000 ≤ lo % 2 ^ 31 then w else if Config.faithfulUp op x then w + 1 else w
  | _ => w

/-- FRCP, FRSQ, FEXP2 and FLOG2 (0-3) with their special cases (R182). -/
def specialFn (op : Nat) (x : W32) : W32 :=
  let nan : W32 := BitVec.ofNat 32 (fmtNan 11)
  match f32 x with
  | .nan => nan
  | .inf n =>
    if op = 0 then (if n then 0x80000000 else 0)
    else if op = 2 then (if n then 0 else 0x7F800000)
    else if n then nan else canonF32 (Config.openFn op x)
  | .num n m e =>
    if m = 0 then
      (if op = 0 then (if n then 0xFF800000 else 0x7F800000)
       else if op = 1 then (if n then canonF32 (Config.openFn op x) else 0x7F800000)
       else if op = 2 then 0x3F800000
       else 0xFF800000)
    else if n ∧ (op = 1 ∨ op = 3) then nan
    else if op = 2 ∧ 0 < fcmp (.num n m e) (.num false 128 0) then 0x7F800000
    else if op = 2 ∧ fcmp (.num n m e) (.num true 150 0) < 0 then 0
    else faithful op x (exactFn op (.num n m e))

end Sys2Proof.Machine
end

