-- ==== Sys2Proof/Machine/Power.lean ====
section
/-! DEFINITION. The energy almanac, the rails and their breakers, heat and parking (R73-R100), the input stage (R448) and the
reset contact's effect on the rails (R446). -/

namespace Sys2Proof.Machine

/-- Femtojoules in a microjoule (R73). -/
def fJ : Nat := 1000000000

/-- The region's schedule enters a state; the states in which it runs no slot of a loaded ephemeris hold the balance at zero (R455). -/
def Region.setSched (g : Region) (st : Nat) : Region :=
  let g1 := { g.wr TCK_RSCHED_STATE st with forceOver := false, forceAsked := false }
  if st = 0 ∨ st = 1 ∨ st = 5 ∨ st = 6 then
    { ((g1.wr ALM_STATUS_HOLD 0).wr ALM_BUDGET_BUDGET 0).wr ALM_STATUS_ZERO 1 with balance := 0 }
  else g1

/-- Whether the almanac holds the balance at zero: FREE, LOADED, FORCED or FAULT (R455). -/
def Region.noSlot (g : Region) : Bool := g.sched_ == 0 || g.sched_ == 1 || g.sched_ == 5 || g.sched_ == 6

/-! ## The almanac -/

/-- The active coefficient of a class in the band of the running tick (R78, R79). -/
def Region.coef (g : Region) (cls : Nat) : Nat :=
  Regs.rd pageTable g.almActive (ALM_COEF_COEF.nth (16 * g.rd ALM_STATUS_BAND + cls))

/-- The energy of the events that wait for their debit, in fJ; a parked region debits its transit domain alone (R80, R83). -/
def Region.eventEnergy (g : Region) : Nat :=
  (List.range 16).foldl (fun a cls =>
    if g.power = 4 ∧ cls ≠ 9 ∧ cls ≠ 13 ∧ cls ≠ 15 then a else a + SMap.get (fun _ => 0) g.ev cls * g.coef cls) 0

/-- An amount of energy is debited (R80, R455). -/
def Region.debitEnergy (g : Region) (e : Nat) : Region :=
  { g with used := g.used + e, balance := if g.noSlot then g.balance else g.balance - (e : Int), ev := [] }

/-- The hold comparison (R81, R82): HOLD is in force while the balance is below the reserve; it is not evaluated where the region runs
no slot of a loaded ephemeris (R455). -/
def Region.below (g : Region) : Bool := !g.noSlot && decide (g.balance < ((g.reserve * fJ : Nat) : Int))

/-- A hold begins or ends; HELD is a cause of the almanac event (R97, R394). -/
def State.holdCompare (s : State) (r : Nat) : State :=
  let g := s.region r
  if g.below = true ∧ g.rd ALM_STATUS_HOLD = 0 then
    (s.setRegion r ((g.wr ALM_STATUS_HOLD 1).wr ALM_STATUS_HELD 1)).hifEvent 2
  else s.setRegion r (g.wr ALM_STATUS_HOLD (if g.below then 1 else 0))

/-- The leakage of the ACLK that a relock's stop would have held at the new root, rounded up; a parked region's clocks do not restart (R83, R95). -/
def Region.relockLeak (g : Region) (ns : Nat) : Region :=
  let n := if g.power = 4 then 0 else ceilDiv (ns * g.root * 25) 1000
  (g.chrono 14 n).debitEnergy (g.eventEnergy + n * g.coef 14)

/-- ALM_BAND_THR_WRITE (R79): the write stages the thresholds. -/
def execAlmBandThrWrite (r : RegionId) (v : W32) (s : State) : Host.Outcome State Fault Refusal :=
  if s.pageOpen r.val then
    .next (s.modRegion r.val (fun g =>
      ((g.wr ALM_BAND_THR_T1 (ALM_BAND_THR_T1.of v)).wr ALM_BAND_THR_T2 (ALM_BAND_THR_T2.of v)).wr ALM_BAND_THR_T3 (ALM_BAND_THR_T3.of v)))
  else .next s

/-- ALM_COEF_WRITE (R79): the write stages a coefficient. -/
def execAlmCoefWrite (r : RegionId) (band : Fin 4) (cls : Fin 16) (v : W32) (s : State) : Host.Outcome State Fault Refusal :=
  if s.pageOpen r.val then
    .next (s.modRegion r.val (fun g => g.wr (ALM_COEF_COEF.nth (16 * band.val + cls.val)) (ALM_COEF_COEF.of v)))
  else .next s

/-- The staged thresholds and coefficients at a tick (R79). -/
def Region.almStaged (g : Region) : Region :=
  let t1 := g.rd ALM_BAND_THR_T1; let t2 := g.rd ALM_BAND_THR_T2; let t3 := g.rd ALM_BAND_THR_T3
  let words := 0x120 :: (List.range 64).map (fun k => 0x140 + 4 * k)
  if t1 < t2 ∧ t2 < t3 then
    { g with almActive := words.foldl (fun a o => Regs.setWord pageTable a o (Regs.word pageTable g.regs o)) g.almActive }
  else
    ({ g with regs := words.foldl (fun a o => Regs.setWord pageTable a o (Regs.word pageTable g.almActive o)) g.regs }).wr ALM_STATUS_CFG_ERR 1

/-- ALM_RESERVE_WRITE (R73, R97): the reserve takes effect at the next tick. -/
def execAlmReserveWrite (r : RegionId) (v : W32) (s : State) : Host.Outcome State Fault Refusal :=
  if s.pageOpen r.val then .next (s.modRegion r.val (fun g => g.wr ALM_RESERVE_RESERVE (ALM_RESERVE_RESERVE.of v))) else .next s

/-- The balance as 64 bits in two's complement (R97). -/
def Region.balWord (g : Region) : Nat := (BitVec.ofInt 64 g.balance).toNat

/-- A read of the balance returns the low word and latches the high word (R97); a DARK region's page reads all ones (R115). -/
def State.balRead (r : Nat) (s : State) : Nat × State :=
  if s.pageOpen r then ((s.region r).balWord % 2 ^ 32, s.setRegion r ((s.region r).wr ALM_BAL_HI_BAL_HI ((s.region r).balWord / 2 ^ 32))) else (0xFFFFFFFF, s)

/-- ALM_BAL_READ (R97, R379): the host's read through BAR0. -/
def execAlmBalRead (r : RegionId) (s : State) : Host.Outcome State Fault Refusal :=
  .next (s.bar0Read (0x100108 + 0x1000 * r.val) (State.balRead r.val))

/-- CURRENT_LIMIT (R87): VA current above PWR_ILIM.LIMIT stretches every root period; suspended while the compute clocks are stopped
(R51). -/
def execCurrentLimit (r : RegionId) (deciAmps periods : Nat) (s : State) : Host.Outcome State Fault Refusal :=
  let g := s.region r.val
  let g1 := g.wr PWR_VA_CUR deciAmps
  if s.alive r.val = false then .next s
  else if g.computing = true ∧ 10 * g.rd PWR_ILIM_LIMIT < deciAmps then
    .next (s.setRegion r.val ((g1.count PWR_LIM_CNT_CNT periods).stretch periods))
  else .next (s.setRegion r.val g1)

/-- ALM_ENVELOPE_WRITE (R84, R100, R7): before the lock a value in range is taken and another sets CFG_ERR; after it a differing value
sets LOCK_VIOL. -/
def execAlmEnvelopeWrite (v : W32) (s : State) : Host.Outcome State Fault Refusal :=
  let w := ALM_ENVELOPE_WATTS.of v
  if s.dome.envLocked then .next (if w = s.dome_ ALM_ENVELOPE_WATTS then s else s.setDome TCK_STATUS_LOCK_VIOL 1)
  else if 1000 ≤ w ∧ w ≤ 60000 then .next (s.setDome ALM_ENVELOPE_WATTS w)
  else .next (s.setDome TCK_STATUS_CFG_ERR 1)

/-! ## Rails and breakers -/

/-- The rail voltages in rail order (R88, R98). -/
def railMv : List Fld := [PWR_VA_MV, PWR_VT_MV, PWR_VS_MV, PWR_VDC_MV, PWR_VDP_MV, PWR_VM_MV]
/-- The rail currents in rail order (R98). -/
def railCur : List Fld := [PWR_VA_CUR, PWR_VT_CUR, PWR_VS_CUR, PWR_VDC_CUR, PWR_VDP_CUR, PWR_VM_CUR]
/-- The rails as RAIL_OK numbers them (R88, R98), in tenths of an ampere: the breaker's trip level. -/
def railTrip (rail : Nat) : Nat := [4000, 400, 1200, 1500, 100, 50].getD rail 0

/-- The rails that open with a set of opening rails (R89): all with VT or VM; VA with VS, VD core or VD pump. -/
def cascade (rails : Nat) : Nat :=
  if rails.testBit 1 ∨ rails.testBit 5 then 63 else if rails.testBit 2 ∨ rails.testBit 3 ∨ rails.testBit 4 then rails ||| 1 else rails

/-- The blocks of space 3 that the router, on VT, keeps (R114, R323). -/
def routerBlock (off : Nat) : Bool := decide (off < 0x1000)

/-- What a cluster keeps when rails of its region open and it stays NOCOMP (R88, R89; log entry 21): VA takes the compute logic, VS the buffer wafer,
and VD core or pump the deep store; the router and what it holds stay. -/
def Cluster.lose (c : Cluster) (open_ : Nat) : Cluster :=
  let vs := open_.testBit 2; let vd := open_.testBit 3 || open_.testBit 4
  { Cluster.reset with
    regs := c.regs.filter (fun p => routerBlock p.1), cnt := c.cnt.filter (fun p => routerBlock p.1)
    elems := if vs then [] else c.elems.foldl (fun m p => SMap.set (fun _ => Elem.reset) m p.1 { Elem.reset with mem := p.2.mem, bad := p.2.bad }) []
    mem := if vs then [] else c.mem, memBad := if vs then [] else c.memBad, rowPoison := if vs then [] else c.rowPoison
    ds := if vd then [] else c.ds, dsErr := if vd then [] else c.dsErr
    fifo := c.fifo, xcred := c.xcred, arrivals := c.arrivals, attach := c.attach, fenced := c.fenced, occGen := c.occGen }

/-- The ports of region r, which it takes with it when it goes DARK (R336). -/
def portsOf (r : Nat) : List Nat := (List.range 64).filter (fun p => regionOf (portCluster p) == r)

/-- A region's breakers open (R88, R89): TRIP and the cause of the first opening, the clock drive OFF, the schedule in FAULT (R209), and where VT or
VM is among them the region DARK: its transit clock is OFF, its clusters' contents are lost, and its ports go with it. Else the region is NOCOMP
and its clusters lose what the open rails held; in RAMP it stays in RAMP, which R96 lets end in DARK alone (log entry 21). -/
def State.railsOpen (s : State) (r rails cause : Nat) : State :=
  let g := s.region r
  let open_ := cascade rails
  let trip := g.rd PWR_BRK_TRIP
  let dark := open_.testBit 1 || g.dark
  let g1 := (g.wr PWR_BRK_TRIP (trip ||| open_)).wr PWR_BRK_CAUSE (if trip = 0 then cause else g.rd PWR_BRK_CAUSE)
  let g2 := g1.wr PWR_STATUS_RAIL_OK (g.rd PWR_STATUS_RAIL_OK &&& (63 - open_))
  let g3 := (List.range 6).foldl (fun h k => if open_.testBit k then (h.wr (railMv.getD k PWR_VA_MV) 0).wr (railCur.getD k PWR_VA_CUR) 0 else h) g2
  let g4 := (((g3.wr PWR_STATUS_STATE (if dark then 6 else if g.power = 1 then 1 else 5)).setDrv 0).setSched 6).wr TCK_RSCHED_PARKDRAIN 0
  let s1 := s.setRegion r (if dark then g4.setTrc 0 else g4)
  if dark then
    let s2 := (clustersOf r).foldl (fun t i => t.setCluster i Cluster.reset) s1
    (portsOf r).foldl (fun t p => t.portFail p 1) s2
  else (clustersOf r).foldl (fun t i => t.modCluster i (fun c => c.lose open_)) s1

/-- PWR_BRK as a word, which the fault record of a breaker carries (R366). -/
def Region.brk (g : Region) : Nat := g.rd PWR_BRK_TRIP + 256 * g.rd PWR_BRK_CAUSE

/-- One region's breakers open, with the power event, the fault record and the degrading event (R89, R355, R394): code 15 for overcurrent, 16
for another cause. Rails that are already open raise nothing. -/
def State.breakers (s : State) (r rails cause : Nat) : State :=
  let g := s.region r
  if g.power = 0 ∨ (g.rd PWR_BRK_TRIP ||| cascade rails) = g.rd PWR_BRK_TRIP then s
  else
    let s1 := (s.railsOpen r rails cause).hifEvent 4
    s1.regionFailure (if cause = 1 then 15 else 16) r (s1.region r).brk

/-- One cause opens the breakers of every region (R90): one power event and one record with REGION 127. -/
def State.allBreakers (s : State) (cause : Nat) : State :=
  let up := (List.range 112).filter (fun r => (s.region r).power != 0 && (s.region r).rd PWR_BRK_TRIP != 63)
  if up.isEmpty then s
  else
    let s1 := up.foldl (fun t r => t.railsOpen r 63 cause) s
    (s1.hifEvent 4).regionFailure 16 127 (63 + 256 * cause)

/-- BREAKER_TRIP (R88, R98): the current of a rail whose breaker is closed is measured: the rail's CUR shows it, and above the trip level the breaker
opens. -/
def execBreakerTrip (r : RegionId) (rail : Fin 6) (deciAmps : Nat) (s : State) : Host.Outcome State Fault Refusal :=
  let g := s.region r.val
  if g.power = 0 ∨ (g.rd PWR_BRK_TRIP).testBit rail.val = true then .next s
  else if railTrip rail.val < deciAmps then .next (s.breakers r.val (2 ^ rail.val) 1)
  else .next (s.setRegion r.val (g.wr (railCur.getD rail.val PWR_VA_CUR) deciAmps))

/-- FORCE_DARK (R90): a write of 1 to PWR_CTRL.FORCE_DARK opens all of the region's breakers, cause 4. -/
def execForceDark (r : RegionId) (s : State) : Host.Outcome State Fault Refusal :=
  if s.pageOpen r.val then .next ((s.modRegion r.val (fun g => g.wr PWR_CTRL_FORCE_DARK 1)).breakers r.val 63 4) else .next s

/-- INPUT_LOSS (R90): the input below 300 V for 1 ms. -/
def execInputLoss (s : State) : Host.Outcome State Fault Refusal :=
  .next (((s.allBreakers 5).modDome (fun d => { d with input := false, inputOff := false, starting := false, watchdog := false })).setHif HIF_STATUS_READY 0)

/-- INPUT_OVERVOLTAGE (R448): above 430 V for 1 ms the input stage disconnects. -/
def execInputOvervoltage (s : State) : Host.Outcome State Fault Refusal :=
  .next (if s.dome.input then
    ((s.allBreakers 5).modDome (fun d => { d with inputOff := true, starting := false, watchdog := false })).setHif HIF_STATUS_READY 0 else s)

/-- DARK_THRESHOLD (R92): the wired comparator opens all breakers of the region, cause 2, whatever drain is in progress. -/
def execDarkThreshold (r : RegionId) (s : State) : Host.Outcome State Fault Refusal := .next (s.breakers r.val 63 2)

/-! ## Power states -/

/-- RAMP_FAIL (R96): a rail not good within 2 ms; DARK, cause 6. -/
def execRampFail (r : RegionId) (s : State) : Host.Outcome State Fault Refusal :=
  if (s.region r.val).power = 1 then .next (s.breakers r.val 63 6) else .next s

/-- POWER_WAVE (R409 step 3): wave k powers up the 16 regions of rows ry = 2k and 2k + 1. They are FREE, so ZERO is set (R455). -/
def execPowerWave (s : State) : Host.Outcome State Fault Refusal :=
  let k := s.dome.waves
  if s.dome.starting = true ∧ k < 7 ∧ s.dome_ CAT_STATUS_STEP = 3 then
    .next (((List.range 16).foldl (fun t j => t.modRegion (16 * k + j) (fun g => if g.power = 0 then (g.wr PWR_STATUS_STATE 1).wr ALM_STATUS_ZERO 1 else g)) s).modDome
      (fun d => { d with waves := k + 1 }))
  else .next s

/-! ## Heat and parking -/

/-- The region begins to park if a cause is present and nothing defers it: ACTIVE, no relock in progress (R95), no slot-end drain in progress
(R203). A running slot's drain is a park drain (R93, R201, R209). -/
def Region.parkBegin (g : Region) : Region :=
  if g.rd PWR_STATUS_PARK_CAUSE ≠ 0 ∧ g.power = 2 ∧ g.rd DRV_STATUS_STATE ≠ 3 ∧ ¬ (g.sched_ = 3 ∧ g.rd TCK_RSCHED_PARKDRAIN = 0) then
    let g1 := (g.wr PWR_STATUS_STATE 3).wr PWR_STATUS_UNDRAINED 0
    if g.sched_ = 2 then (g1.setSched 3).wr TCK_RSCHED_PARKDRAIN 1 else g1
  else g

/-- The clocks are gated and VS falls to 0.70 V: PARKED (R93). The events that waited for their debit are debited first (R80). -/
def Region.parkGate (g0 : Region) (undrained : Bool) : Region :=
  let g := g0.debitEnergy g0.eventEnergy
  { ((g.wr PWR_STATUS_STATE 4).wr PWR_STATUS_UNDRAINED (if undrained then 1 else 0)).wr PWR_VS_MV 700 with parkedTick := true }

/-- A park cause appears (0 THERMAL, 1 HOLDOVER, 2 BUDGET) (R93). -/
def Region.parkCause (g : Region) (k : Nat) : Region :=
  (g.wr PWR_STATUS_PARK_CAUSE (g.rd PWR_STATUS_PARK_CAUSE ||| 2 ^ k)).parkBegin

/-- RAMP_DONE (R96, R53): all rails are good; the drive and the transit clock go to ACQUIRE. A park cause that is present begins the park. -/
def execRampDone (r : RegionId) (s : State) : Host.Outcome State Fault Refusal :=
  let g := s.region r.val
  if g.power = 1 ∧ g.rd PWR_BRK_TRIP = 0 then
    let g1 := (g.wr PWR_STATUS_STATE 2).wr PWR_STATUS_RAIL_OK 63
    let g2 := (((((g1.wr PWR_VA_MV (800 + 5 * g.rd DRV_ACTIVE_VCODE)).wr PWR_VT_MV 850).wr PWR_VS_MV 900).wr PWR_VDC_MV 1100).wr PWR_VDP_MV 2500).wr PWR_VM_MV 900
    let g3 := if g.rd DRV_STATUS_STATE = 0 then g2.setDrv 1 else g2
    .next (s.setRegion r.val (if g.rd TRC_STATUS_STATE = 0 then g3.setTrc 1 else g3).parkBegin)
  else .next s

/-- PARK_DRAIN_TIMEOUT (R93): one tick after parking began the clocks are gated with the drain unfinished. -/
def execParkDrainTimeout (r : RegionId) (s : State) : Host.Outcome State Fault Refusal :=
  .next (if (s.region r.val).power = 3 then s.modRegion r.val (fun g => g.parkGate true) else s)

/-- HOLDOVER_TIMEOUT (R58): after 1 s in HOLDOVER the drive enters PARKED and the compute parks as for a thermal park: it drains on the oscillator, and
then its clocks are gated (R93). -/
def execHoldoverTimeout (r : RegionId) (s : State) : Host.Outcome State Fault Refusal :=
  .next (if (s.region r.val).rd DRV_STATUS_STATE = 4 then s.modRegion r.val (fun g => (g.setDrv 5).parkCause 1) else s)

/-- The hottest reading of a group of sensors that are present (R92). -/
def Region.hottest (g : Region) (sensors : List Nat) : Nat := sensors.foldl (fun m k => max m (SMap.get (fun _ => 0) g.temps k)) 0

/-- The edge clusters of region r in ascending index order (R20, R22, R91). -/
def edgesOf (r : Nat) : List Nat := (clustersOf r).filter isEdge

/-- Whether sensor k exists in region r: 0-15, and 16 and 17 in its edge clusters (R91). -/
def hasSensor (r k : Nat) : Bool := decide (k < 16) || (decide (k < 18) && decide (k - 16 < (edgesOf r).length))

/-- The two groups reach their levels, in degrees less `below` (R92): sensors 0-15 against a, sensors 16-17 against b. -/
def Region.reaches (g : Region) (a b below : Nat) : Bool :=
  decide (4 * (a - below) ≤ g.hottest (List.range 16)) || decide (4 * (b - below) ≤ g.hottest [16, 17])

/-- SENSOR_CONVERSION (R91, R92): the readings are compared with the warning, emergency and park thresholds. HOT shows the lowest index where several
sensors share the hottest reading (DESIGN CHOICE, log entry 21). -/
def execSensorConversion (r : RegionId) (quarterDegrees : List Nat) (s : State) : Host.Outcome State Fault Refusal :=
  if s.alive r.val then
    let g0 := s.region r.val
    let temps := (List.range 18).foldl (fun m k => if hasSensor r.val k then SMap.set (fun _ => 0) m k (quarterDegrees.getD k 0 % 2048) else m) []
    let g1 := { g0 with temps := temps, converted := true }
    let hot := g1.hottest (List.range 18)
    let idx := ((List.range 18).filter (fun k => hasSensor r.val k && SMap.get (fun _ => 0) temps k == hot)).headD 0
    let g2 := (g1.wr THM_MAX_TEMP hot).wr THM_STATUS_HOT idx
    -- warning
    let warn := g2.reaches (g2.rd THM_CTRL_WARN) 85 (if g2.warnOn then 3 else 0)
    let g3 := { (if warn = true ∧ g2.warnOn = false then g2.wr THM_STATUS_WARN 1 else g2) with warnOn := warn }
    -- emergency
    let emerg := g3.reaches 110 95 (if g3.rd THM_STATUS_EMERG = 1 then 5 else 0)
    let g4 := ((g3.wr THM_STATUS_EMERG (if emerg then 1 else 0)).wr TRC_CTRL_HALF_THM (if emerg then 1 else 0)).halfRate
    -- park
    let park := g4.reaches (g4.rd THM_CTRL_PARK) 105 0 && !(g4.rd PWR_STATUS_PARK_CAUSE).testBit 0
    let g5 := if park then (g4.wr THM_STATUS_PARK 1).parkCause 0 else g4
    let s1 := s.setRegion r.val g5
    .next (if (warn && !g2.warnOn) || park then s1.hifEvent 3 else s1)
  else .next s

/-- The THERMAL cause clears at a tick when the hottest sensors are below the park level less 5 °C (R92). -/
def Region.coolAtTick (g : Region) : Region :=
  if g.reaches (g.rd THM_CTRL_PARK) 105 5 then g else g.wr PWR_STATUS_PARK_CAUSE (g.rd PWR_STATUS_PARK_CAUSE &&& 6)

/-- THM_CTRL_WRITE (R99, R7). -/
def execThmCtrlWrite (r : RegionId) (v : W32) (s : State) : Host.Outcome State Fault Refusal :=
  if s.pageOpen r.val then
    let w := THM_CTRL_WARN.of v; let p := THM_CTRL_PARK.of v
    let g := s.region r.val
    if s.dome.locked then
      .next (s.setRegion r.val (if w = g.rd THM_CTRL_WARN ∧ p = g.rd THM_CTRL_PARK then g else g.wr THM_STATUS_LOCK_VIOL 1))
    else
      let g1 := if w ≤ 95 then g.wr THM_CTRL_WARN w else g.wr THM_STATUS_CFG_ERR 1
      .next (s.setRegion r.val (if p ≤ 105 then g1.wr THM_CTRL_PARK p else g1.wr THM_STATUS_CFG_ERR 1))
  else .next s

/-! ## Input and the reset contact (R446, R448) -/

/-- The dome controller's registers as a start begins: reset values, STEP 1, and the laser cartridges that are in place (R350, R421). -/
def domeRegsStart (regs : Regs) : Regs :=
  Regs.wr domeTable (regs.filter (fun p => decide (0x480 ≤ p.1) && decide (p.1 < 0x4C0))) CAT_STATUS_STEP 1

/-- The dome controller begun anew: the counters, both NOR devices with the boot record and the fault history, the records not yet written, the opening
count and the endpoint ID are all that it keeps (R366, R409, R432, R446). The boot record is taken from its valid copy (R400). -/
def Dome.afresh (d : Dome) : Dome :=
  let b := d.bootRecord
  { Dome.reset with
    nor0 := d.nor0, nor1 := d.nor1, slotA := b.slotA, slotB := b.slotB, bootSeq := b.seq, ctr := d.ctr
    logPend := d.logPend, logSeq := d.logSeq, input := d.input, inputOff := d.inputOff, eid := d.eid
    eye := { Eye.reset with opens := d.eye.opens }, regs := domeRegsStart d.regs }

/-- The start sequence begins at step 1 (R406, R409): regions, clusters and ports begin anew with the dome controller, the watchdog runs, and READY
reads 0 (R374). -/
def State.powerOn (s : State) : State :=
  ({ s with
    regions := [], clusters := [], ports := []
    dome := { s.dome.afresh with input := true, inputOff := false, starting := true, watchdog := true } }).setHif HIF_STATUS_READY 0

/-- The host bridge is reset, alone (R375): its registers, queues, tables and the aperture page. What it sent into the mesh is still on its way, and its
answers are discarded. READY shows the module's state. -/
def State.bridgeReset (s : State) (keepLink : Bool) : State :=
  let ready := s.hif HIF_STATUS_READY; let sp := s.hif HIF_STATUS_SPEED; let w := s.hif HIF_STATUS_WIDTH
  let s1 := s.modHost (fun h => { Bridge.reset with serial := h.serial, rr := h.rr, nextQ := h.nextQ })
  let s2 := s1.setHif HIF_STATUS_READY ready
  if keepLink then (s2.setHif HIF_STATUS_SPEED sp).setHif HIF_STATUS_WIDTH w else s2

/-- Fault records not yet written are lost (R366, R446); the next record takes the number after the newest one written. -/
def State.dropLog (s : State) : State := s.modDome (fun d => { d with logSeq := d.logSeq - d.logPend.length, logPend := [] })

/-- Input power is applied: the start sequence begins, unless the reset contact holds the dome controller (R446, R448). The bridge begins anew too,
and the endpoint ID is lost. -/
def State.applyInput (s : State) : State :=
  let s1 := (s.dropLog.bridgeReset false).modDome (fun d => { d with eid := 0 })
  if s.dome.resetLow then s1.modDome (fun d => { d with input := true, inputOff := false }) else s1.powerOn

/-- INPUT_RISE (R448): the input rises through 320 V after an input below 300 V or at first application, or after a disconnect. -/
def execInputRise (s : State) : Host.Outcome State Fault Refusal :=
  if s.dome.input = false ∨ s.dome.inputOff = true then .next s.applyInput else .next s

/-- INPUT_RECONNECT (R448): after a disconnect, the input held between 320 V and 410 V for 1 ms. -/
def execInputReconnect (s : State) : Host.Outcome State Fault Refusal :=
  if s.dome.inputOff then .next s.applyInput else .next s

/-- RESET_N (R90, R446): once low for 10 µs, the fault records not yet written are lost, every region breaker opens with cause 4, one record and one power
event for the module, and the dome controller is held in reset; the rising edge begins the start sequence. The contact resets the whole module, its bridge
included (R375), in which the power event then shows (log entry 23). -/
def execResetN (low : Bool) (s : State) : Host.Outcome State Fault Refusal :=
  if low then
    if s.dome.resetLow then .next s
    else
      let s1 := s.dropLog.allBreakers 4
      let s2 := ((s1.modDome (fun d => { d.afresh with resetLow := true })).setHif HIF_STATUS_READY 0).bridgeReset false
      .next (if s1.dome.logPend = [] then s2 else s2.hifEvent 4)
  else if s.dome.resetLow then
    .next (if s.dome.input = true ∧ s.dome.inputOff = false then s.powerOn else s.modDome (fun d => { d with resetLow := false }))
  else .next s

end Sys2Proof.Machine
end

