-- ==== Sys2Proof/Machine/Packet.lean ====
section
/-! DEFINITION. Packets (R293-R298, R338): building one, the choice of a fabric port, and how one leaves an agent. Readings that the words leave open
are log entry 15. -/

namespace Sys2Proof.Machine

/-- The endpoint of an agent (R298). -/
def agentSep : Agent → Nat
  | .te => 36
  | .tu => 35
  | .attach => 44

/-- An agent's sender side. -/
def Cluster.sender (c : Cluster) : Agent → Sender
  | .te => c.te.send
  | .tu => c.tuSend
  | .attach => c.attach

/-- The cluster with an agent's sender side replaced. -/
def Cluster.setSender (c : Cluster) (a : Agent) (x : Sender) : Cluster :=
  match a with
  | .te => { c with te := { c.te with send := x } }
  | .tu => { c with tuSend := x }
  | .attach => { c with attach := x }

/-- The state with an agent's sender side changed by f. -/
def State.modSender (s : State) (i : Nat) (a : Agent) (f : Sender → Sender) : State :=
  s.modCluster i (fun c => c.setSender a (f (c.sender a)))

/-- The agent that an endpoint names (R298). -/
def agentOf (ep : Nat) : Agent := if ep = 35 then .tu else if ep = 44 then .attach else .te

/-- A packet from cluster i, endpoint `sep`, with every other field zero. -/
def pktFrom (s : State) (i sep : Nat) : Pkt :=
  ⟨0, s.modId, 0, 0, 0, s.modId, cy i, cx i, sep, 0, 0, 0, false, false, false, false, 0, [], none⟩

/-- The header of a packet as R293 lays it out, bits [95:0]. -/
def pktHeader (p : Pkt) : Nat :=
  p.opc + p.dmod * 2 ^ 5 + p.dy * 2 ^ 17 + p.dx * 2 ^ 24 + p.dep * 2 ^ 31 + p.smod * 2 ^ 37 + p.sy * 2 ^ 49 + p.sx * 2 ^ 56 +
    p.sep * 2 ^ 63 + p.chan * 2 ^ 69 + p.seq * 2 ^ 72 + p.age / 1024 * 2 ^ 80 + (if p.last then 2 ^ 86 else 0) + (if p.mcast then 2 ^ 87 else 0) +
    (if p.poison then 2 ^ 88 else 0) + (if p.plate then 2 ^ 89 else 0) + p.rsv * 2 ^ 90

/-- Eight payload words. -/
def pay8 (ws : List W64) : List W64 := ws ++ List.replicate (8 - ws.length) 0

/-- The port that an agent writes for a packet to another module (R338): number i of the entry's ports. -/
def RouteEntry.pick (e : RouteEntry) (p : Pkt) (n : Nat) : Nat :=
  let i := if p.chan < 4 then p.sy * 80 + p.sx + p.sep + 5 * p.chan else p.sy * 80 + p.sx + p.sep + p.dy * 80 + p.dx + n
  e.ports.getD (i % max 1 e.ports.length) 0

/-- An agent's 2-bit count after a packet: it advances with each unordered packet to another module (R338). -/
def fabNext (own : Nat) (p : Pkt) (n : Nat) : Nat := if p.chan < 4 ∨ p.dmod = own then n else (n + 1) % 4

/-- A packet leaves an agent (R295, R298): one for the agent's own cluster does not enter the mesh; one for another module carries its port. -/
def State.sendPkt (s : State) (i : Nat) (a : Agent) (p : Pkt) : State :=
  if p.mcast = false ∧ p.dmod = s.modId ∧ cidx p.dx p.dy = i then
    s.modCluster i (fun c => { c with arrivals := c.arrivals ++ [p] })
  else if p.mcast = true ∨ p.dmod = s.modId then s.modSender i a (fun x => { x with out := x.out ++ [p] })
  else match s.route p.dmod with
    | none => s
    | some e =>
      let n := ((s.cluster i).sender a).fab
      s.modSender i a (fun x =>
        { x with out := x.out ++ [{ p with rsv := e.pick p n }], fab := fabNext s.modId p n })

/-- The 14-bit TAG of a request in SEQ and RSV; 8 bits to another module (R295). -/
def setTag (p : Pkt) (own tag : Nat) : Pkt :=
  if p.dmod = own then { p with seq := tag % 256, rsv := tag / 256 % 64 } else { p with seq := tag % 256 }

/-- The TAG of a request or of its answer. -/
def pktTag (p : Pkt) (own : Nat) : Nat := if p.dmod = own ∧ p.smod = own then p.seq + 256 * p.rsv else p.seq

/-- The TAG that stands for item number n; never 0, which marks the ACK of a stream (log entry 15). -/
def tagOf (local_ : Bool) (n : Nat) : Nat := if local_ then n % 16383 + 1 else n % 255 + 1

/-! ## End-to-end credits (R312) -/

/-- The credits owed by entry n of the list go back to their source in one CREDIT packet, at most 16 at a time. -/
def State.sendCredits (s : State) (i n : Nat) : State :=
  match (s.cluster i).te.owed[n]? with
  | none => s
  | some o =>
    let k := min 16 o.owed
    let p := { pktFrom s i 36 with
      opc := 8, dmod := o.smod, dy := o.sy, dx := o.sx, dep := 36, chan := 7
      pay := [BitVec.ofNat 64 (o.elem + o.queue * 2 ^ 5 + o.src * 2 ^ 8 + k * 2 ^ 16), 0, 0, 0, 0, 0, 0, 1] }
    let left := if o.owed = k then (s.cluster i).te.owed.eraseIdx n else modAt (fun q => { q with owed := q.owed - k }) (s.cluster i).te.owed n
    (s.modCluster i (fun c => { c with te := { c.te with owed := left } })).sendPkt i .te p

/-- Credits are returned once eight are owed for an entry (R312). -/
def State.creditsDue (s : State) (i : Nat) : State :=
  match (s.cluster i).te.owed.findIdx? (fun o => decide (8 ≤ o.owed)) with
  | none => s
  | some n => s.sendCredits i n

end Sys2Proof.Machine
end

