-- ==== Sys2Proof/Machine/Ring.lean ====
section
/-! DEFINITION. The four rings of a cluster (R102-R109): positions and lanes, insertion, reservation, ejection into the consumer's queue,
and credits. Every token and credit return rides one of the 37 slots of its ring; which stop a slot is passing is not tracked (log entry 11). -/

namespace Sys2Proof.Machine

/-- The ring position of a stop (R104). -/
def ringPos (stop : Nat) : Nat :=
  if stop < 16 then stop else if stop = 32 then 16 else if stop < 32 then stop + 1 else if stop = 33 then 33 else if stop = 36 then 34 else 35

/-- Clockwise distance from stop a to stop b (R105). -/
def ringCw (a b : Nat) : Nat := (ringPos b + 37 - ringPos a) % 37
/-- The hop count of a binding: the shorter of the two distances (R105). -/
def ringHops (a b : Nat) : Nat := min (ringCw a b) (ringCw b a)
/-- The ring from stop a to stop b on a lane: 0 and 1 clockwise, 2 and 3 anticlockwise (R105). -/
def ringOf (a b lane : Nat) : Nat := if ringCw a b ≤ ringCw b a then lane else lane + 2
/-- The same lane in the opposite direction, which a credit return takes (R107). -/
def ringBack (ring : Nat) : Nat := (ring + 2) % 4

/-- The binding that feeds a queue of a stop: the producer's stop, the index of its binding there, and the lane. Elements' EL_OBIND first, then the
completion bindings of the matrix unit, the table unit and the transit engine; an element queue that none of these names takes its
tokens from the transit engine's mesh side, index 8 + its place (R107, R170, R228, R312; log entry 11). -/
def Cluster.producer (c : Cluster) (stop q : Nat) : Option (Nat × Nat × Nat) :=
  let elems := (List.range 64).filter (fun k =>
    let x := c.elem (k / 2); let b := k % 2
    x.rd (EL_OBIND_VALID.nth b) == 1 && x.rd (EL_OBIND_DST_STOP.nth b) == stop && x.rd (EL_OBIND_DST_QUEUE.nth b) == q)
  let named := fun (el qu va : Fld) => (List.range 8).filter (fun b =>
    c.rd (va.nth b) == 1 && c.rd (el.nth b) == stop && c.rd (qu.nth b) == q)
  match elems with
  | k :: _ => some (k / 2, k % 2, k % 2)
  | [] =>
    if 32 ≤ stop then none
    else match named MU_CBIND_ELEM MU_CBIND_QUEUE MU_CBIND_VALID with
    | b :: _ => some (32, b, 0)
    | [] => match named TU_CBIND_ELEM TU_CBIND_QUEUE TU_CBIND_VALID with
      | b :: _ => some (35, b, 0)
      | [] => match named TE_CBIND_ELEM TE_CBIND_QUEUE TE_CBIND_VALID with
        | b :: _ => some (36, b, 0)
        | [] => some (36, 8 + 8 * stop + q, 1)

/-- End-to-end credits are owed to the source whose tokens feed a queue (R312). -/
def Te.owe (t : Te) (elem q : Nat) : Te :=
  match SMap.get (fun _ => none) t.fed (8 * elem + q) with
  | none => t
  | some (m, y, x, src) =>
    let same := fun (o : Owed) => o.smod == m && o.sy == y && o.sx == x && o.src == src && o.elem == elem && o.queue == q
    if t.owed.any same then { t with owed := t.owed.map (fun o => if same o then { o with owed := o.owed + 1 } else o) }
    else { t with owed := t.owed ++ [⟨m, y, x, src, elem, q, 1⟩] }

/-- Credits after one has come back, at most the 16 entries of the consumer queue (R107). -/
def creditUp (n : Nat) : Nat := min 16 (n + 1)

/-- A producer counts a returned credit (R107, R131, R282, R312, R319). -/
def Cluster.creditAdd (c : Cluster) (stop idx : Nat) : Cluster :=
  if stop < 32 then c.modElem stop (fun x => x.wr (EL_OBIND_CREDITS.nth idx) (creditUp (x.rd (EL_OBIND_CREDITS.nth idx))))
  else if stop = 32 then c.wr (MU_CBIND_CREDITS.nth idx) (creditUp (c.rd (MU_CBIND_CREDITS.nth idx)))
  else if stop = 35 then c.wr (TU_CBIND_CREDITS.nth idx) (creditUp (c.rd (TU_CBIND_CREDITS.nth idx)))
  else if idx < 8 then c.wr (TE_CBIND_CREDITS.nth idx) (creditUp (c.rd (TE_CBIND_CREDITS.nth idx)))
  else { c with te := c.te.owe ((idx - 8) / 8) ((idx - 8) % 8) }

/-- The slots of a ring that hold a token (R102). -/
def Cluster.slotsUsed (c : Cluster) (ring : Nat) : List Nat := (c.ringToks.filter (fun t => t.ring == ring)).map (fun t => t.slot)
/-- The slots of a ring whose RESV is set (R106). -/
def Cluster.slotsResv (c : Cluster) (ring : Nat) : List Nat := (c.ringResv.filter (fun p => p.1 == ring)).map (fun p => p.2.2)
/-- The first slot of a ring whose CVALID is clear (R107). -/
def Cluster.slotForCredit (c : Cluster) (ring : Nat) : Option Nat :=
  (List.range 37).find? (fun k => !c.ringCreds.any (fun d => d.ring == ring && d.slot == some k))
/-- The slot that a stop fills (R106): the one it has reserved, once it is empty, or else an empty slot that no stop has reserved. -/
def Cluster.slotFor (c : Cluster) (ring stop : Nat) : Option Nat :=
  match c.ringResv.find? (fun p => p.1 == ring && p.2.1 == stop && !(c.slotsUsed ring).contains p.2.2) with
  | some p => some p.2.2
  | none => (List.range 37).find? (fun k => !(c.slotsUsed ring).contains k && !(c.slotsResv ring).contains k)

/-- The even parity of the low n bits of a number. -/
def evenParity (n w : Nat) : Nat := ((List.range n).map (fun k => w / 2 ^ k % 2)).sum % 2

/-- A token's part of its slot (R103): DATA, TAG, EPOCH, DST_STOP, DST_QUEUE and VALID. -/
def RingTok.word (t : RingTok) : Nat :=
  t.tok.data.toNat + (match t.tok.tag with | .data => 0 | .last => 1 | .pred => 2 | .mark => 3) * 2 ^ 64 + t.tok.epoch * 2 ^ 66 + t.dst * 2 ^ 68 +
    t.queue * 2 ^ 74 + 2 ^ 77

/-- The bits of slot k of a ring (R103), with DPAR, HPAR and CPAR as its writers compute them. COUT is one bit, where the completion bindings of stops 32, 35 and 36
have indices above 1: R103 does not say what the bit then holds, and the model keeps the whole index beside the slot and shows its lowest bit (DESIGN CHOICE, log
entry 11). -/
def Cluster.slotWord (c : Cluster) (ring k : Nat) : Nat :=
  let w := (match c.ringToks.find? (fun t => t.ring == ring && t.slot == k) with | some t => t.word | none => 0) +
    (if (c.slotsResv ring).contains k then 2 ^ 78 else 0)
  let dpar := ((List.range 8).map (fun i => evenParity 8 (w / 2 ^ (8 * i)) * 2 ^ i)).sum
  let cr := match c.ringCreds.find? (fun d => d.ring == ring && d.slot == some k) with
    | some d => 1 + d.stop * 2 + d.out % 2 * 2 ^ 7
    | none => 0
  w + dpar * 2 ^ 79 + evenParity 15 (w / 2 ^ 64) * 2 ^ 87 + cr * 2 ^ 88 + evenParity 8 cr * 2 ^ 96

/-- The consumer removed a token from a queue: the credit enters the first slot whose CVALID is clear, on the ring toward the producer, or goes back at
once through the bypass (R105, R107). -/
def Cluster.creditBack (c : Cluster) (stop q : Nat) : Cluster :=
  match c.producer stop q with
  | none => c
  | some (p, idx, lane) =>
    if p = stop then c.creditAdd p idx
    else let ring := ringBack (ringOf p stop lane); { c with ringCreds := c.ringCreds ++ [⟨ring, p, idx, c.slotForCredit ring⟩] }

/-- n credits of one queue. -/
def Cluster.creditsBack (c : Cluster) (stop q : Nat) : Nat → Cluster
  | 0 => c
  | n + 1 => Cluster.creditsBack (c.creditBack stop q) stop q n

/-- The tokens of queue q of an element. -/
def Elem.queue (x : Elem) (q : Nat) : List Tok := SMap.get (fun _ => []) x.queues q
/-- An element with queue q replaced. -/
def Elem.setQueue (x : Elem) (q : Nat) (l : List Tok) : Elem := { x with queues := SMap.set (fun _ => []) x.queues q l }
/-- Context i of an element. -/
def Elem.ctx (x : Elem) (i : Nat) : Ctx := SMap.get (fun _ => Ctx.reset) x.ctxs i
/-- An element with context i replaced. -/
def Elem.setCtx (x : Elem) (i : Nat) (k : Ctx) : Elem := { x with ctxs := SMap.set (fun _ => Ctx.reset) x.ctxs i k }
/-- Word w of the context word of context i (R173). -/
def Elem.ctxWord (x : Elem) (i w : Nat) : Nat := x.rd (EL_CTX_WORD.nth (4 * i + w))
/-- The queue that input k (0-3) of a word 0 names, if it is bound (R173). -/
def ctxIn (w0 k : Nat) : Option Nat := if w0.testBit (11 + 4 * k) then some ((w0 >>> (8 + 4 * k)) % 8) else none
/-- The queues that are bound inputs of context i. -/
def Elem.inputs (x : Elem) (i : Nat) : List Nat := (List.range 4).filterMap (fun k => ctxIn (x.ctxWord i 0) k)
/-- Whether queue q is an input of a faulted context (R195). -/
def Elem.faultedQueue (x : Elem) (q : Nat) : Bool :=
  (List.range 8).any (fun i => (x.ctx i).state == .fault && (x.inputs i).contains q)

/-- A token arrives in queue q of element e: it joins the queue, or at a faulted context it is discarded and its credit returned (R169,
R195). -/
def Cluster.elemToken (c : Cluster) (e q : Nat) (t : Tok) : Cluster :=
  let x := c.elem e
  if x.faultedQueue q then
    let c1 := c.setElem e (x.countStart EL_CNT_DISCARD_CNT 1)
    if x.rd (EL_QCFG_KIND.nth q) = 2 then c1 else c1.creditBack e q
  else c.setElem e (x.setQueue q (x.queue q ++ [t]))

/-- n tokens have left queue q: a seed that waited among them is consumed (R201). -/
def Elem.left (x : Elem) (q n : Nat) : Elem :=
  { x with seedWait := SMap.set (fun _ => 0) x.seedWait q (SMap.get (fun _ => 0) x.seedWait q - n) }

/-- A current-epoch token that arrives in a drained region clears DRAINED, and the region drains again (R202, R209). -/
def Region.wake (g : Region) (epoch : Nat) : Region :=
  if g.sched_ = 4 ∧ epoch = g.rd TCK_RSCHED_EPOCH then
    { (((g.setSched 3).wr TCK_RDRAIN_DRAINED 0).wr TCK_RSCHED_PARKDRAIN 0) with passed := g.passed - 1 }
  else g

/-- A token reaches the queue of its consumer (R103, R126, R228, R278, R311): DST_QUEUE selects the element queue, the lane, the narrow-port
queue, the table unit's queue or the transit engine's queue. -/
def Cluster.deliver (c : Cluster) (r : RingTok) : Cluster :=
  if r.dst < 32 then c.elemToken r.dst r.queue r.tok
  else if r.dst = 32 then
    let l := SMap.get (fun _ => Lane.reset) c.mu.lanes r.queue
    { c with mu := { c.mu with lanes := SMap.set (fun _ => Lane.reset) c.mu.lanes r.queue { l with toks := l.toks ++ [r.tok] } } }
  else if r.dst = 33 then
    { c with narrow := SMap.set (fun _ => []) c.narrow r.queue (SMap.get (fun _ => []) c.narrow r.queue ++ [⟨r.tok, r.ring⟩]) }
  else if r.dst = 35 then
    let l := SMap.get (fun _ => (⟨[], [], false, false⟩ : TuQueue)) c.tu.queues r.queue
    { c with tu := { c.tu with queues := SMap.set (fun _ => (⟨[], [], false, false⟩ : TuQueue)) c.tu.queues r.queue { l with toks := l.toks ++ [r.tok] } } }
  else
    { c with te := { c.te with queues := SMap.set (fun _ => []) c.te.queues r.queue (SMap.get (fun _ => []) c.te.queues r.queue ++ [r.tok]) } }

/-- A ring parity failure at a stop (R108, R117): PERR, with POS of the first since PERR was last clear; `credit` marks a credit return. -/
def Cluster.ringErr (c : Cluster) (ring stop : Nat) (credit : Bool) : Cluster :=
  let p := c.rd EL_RING_ERR_PERR
  let c1 := if p = 0 then c.wr EL_RING_ERR_POS (ringPos stop) else c
  let c2 := c1.wr EL_RING_ERR_PERR (p ||| 2 ^ ring)
  if credit then c2.wr EL_RING_ERR_CPERR 1 else c2

/-- The tokens that wait at a stop's output (R177): an element's output buffer, or what another agent has for lane `out`. -/
def Cluster.waiting (c : Cluster) (stop out : Nat) : List RingTok :=
  if stop < 32 then
    let x := c.elem stop
    let dst := x.rd (EL_OBIND_DST_STOP.nth out); let q := x.rd (EL_OBIND_DST_QUEUE.nth out)
    (if out = 0 then x.out0 else x.out1).map (fun t => ⟨ringOf stop dst out, stop, out, dst, q, t, 0⟩)
  else SMap.get (fun _ => []) c.out (2 * stop + out)

/-- The front token leaves a stop's output. -/
def Cluster.popOut (c : Cluster) (stop out : Nat) : Cluster :=
  if stop < 32 then c.modElem stop (fun x => if out = 0 then { x with out0 := x.out0.drop 1 } else { x with out1 := x.out1.drop 1 })
  else { c with out := SMap.set (fun _ => []) c.out (2 * stop + out) ((SMap.get (fun _ => []) c.out (2 * stop + out)).drop 1) }

/-- A token waits at the output of stop 32, 33, 35 or 36 on a lane. -/
def Cluster.pushOut (c : Cluster) (stop lane dst q : Nat) (t : Tok) : Cluster :=
  let k := 2 * stop + lane
  { c with out := SMap.set (fun _ => []) c.out k (SMap.get (fun _ => []) c.out k ++ [⟨ringOf stop dst lane, stop, lane, dst, q, t, 0⟩]) }

/-- RING_INSERT (R106): the front token of an output enters an empty slot of its ring, and clears the RESV of a slot that its stop had reserved; a
binding whose producer and consumer are one element goes through the bypass (R105). Each hop debits class 8 (R102; log entry 11). -/
def execRingInsert (c : ClusterId) (stop : Fin 37) (out : Fin 2) (s : State) : Host.Outcome State Fault Refusal :=
  if s.runs c.val then
    let cl := s.cluster c.val
    match cl.waiting stop.val out.val with
    | [] => .next s
    | t :: _ =>
      if t.dst = stop.val then
        let s1 := s.setCluster c.val ((cl.popOut stop.val out.val).deliver t)
        .next (s1.modRegion (regionOf c.val) (fun g => g.wake t.tok.epoch))
      else match cl.slotFor t.ring stop.val with
        | none => .next s
        | some k =>
          let cl1 := cl.popOut stop.val out.val
          let cl2 := { cl1 with ringToks := cl1.ringToks ++ [{ t with slot := k }], ringResv := cl1.ringResv.erase (t.ring, stop.val, k) }
          .next ((s.setCluster c.val cl2).debit c.val 8 (ringHops stop.val t.dst))
  else .next s

/-- Whether a stop has reserved a slot of a ring (R106). -/
def Cluster.reserved (c : Cluster) (ring stop : Nat) : Bool := c.ringResv.any (fun p => p.1 == ring && p.2.1 == stop)

/-- RING_RESERVE (R106): a token that has waited 37 CCLK sets RESV on the next occupied slot; which slot passes next is not tracked (log entry 11). -/
def execRingReserve (c : ClusterId) (stop : Fin 37) (out : Fin 2) (s : State) : Host.Outcome State Fault Refusal :=
  if s.runs c.val then
    let cl := s.cluster c.val
    match cl.waiting stop.val out.val with
    | [] => .next s
    | t :: _ =>
      if t.dst = stop.val ∨ cl.reserved t.ring stop.val = true then .next s
      else match (cl.slotsUsed t.ring).find? (fun k => !(cl.slotsResv t.ring).contains k) with
        | none => .next s
        | some k => .next (s.setCluster c.val { cl with ringResv := cl.ringResv ++ [(t.ring, stop.val, k)] })
  else .next s

/-- A token leaves its ring at its stop: parity checked, counted, and put into the consumer's queue (R106, R108, R117, R435). A token that is
already poisoned causes no parity failure (R357). -/
def State.eject (s : State) (c : Nat) (t : RingTok) (rest : List RingTok) (parity : Bool) : State :=
  let good := parity || t.tok.poison
  let cl := { s.cluster c with ringToks := rest }.count (EL_RING_TOK_TOK.nth t.ring) 1
  let t1 := if good then t else { t with tok := { t.tok with poison := true } }
  let cl1 := if good then cl else cl.ringErr t.ring t.dst false
  let s1 := s.setCluster c (cl1.deliver t1)
  let s2 := s1.modRegion (regionOf c) (fun g => (g.chrono 22 1).wake t.tok.epoch)
  if good then s2 else s2.clusterFailure 3 c ((s2.cluster c).faultWord t.dst)

/-- RING_EJECT (R106, R108): a stop takes a passing token that is addressed to it. Narrow-port responses are NLD_RESPONSE's. -/
def execRingEject (c : ClusterId) (stop : Fin 37) (ring : Fin 4) (good : Bool) (s : State) : Host.Outcome State Fault Refusal :=
  if s.runs c.val then
    match takeFirst (fun t => t.ring == ring.val && t.dst == stop.val && t.src != 33) (s.cluster c.val).ringToks with
    | some (t, rest) => .next (s.eject c.val t rest good)
    | none => .next s
  else .next s

/-- The first credit return that waits for a slot of a ring enters the first slot whose CVALID is clear (R107). -/
def Cluster.creditEnter (c : Cluster) (ring : Nat) : Cluster :=
  match takeFirst (fun (k : RingCredit) => k.ring == ring && k.slot.isNone) c.ringCreds with
  | none => c
  | some (k, rest) => { c with ringCreds := rest ++ [{ k with slot := c.slotForCredit ring }] }

/-- CREDIT_RETURN (R107, R108): a producer stop counts a credit that has come back; one that fails parity is discarded. -/
def execCreditReturn (c : ClusterId) (stop : Fin 37) (ring : Fin 4) (good : Bool) (s : State) : Host.Outcome State Fault Refusal :=
  if s.runs c.val then
    let cl := s.cluster c.val
    match takeFirst (fun (k : RingCredit) => k.ring == ring.val && k.stop == stop.val && k.slot.isSome) cl.ringCreds with
    | none => .next s
    | some (k, rest) =>
      let cl1 := { cl with ringCreds := rest }.creditEnter ring.val
      if good then .next ((s.setCluster c.val (cl1.creditAdd stop.val k.out)).creditsDue c.val)
      else .next ((s.setCluster c.val (cl1.ringErr ring.val stop.val true)).clusterFailure 3 c.val (cl1.faultWord stop.val))
  else .next s

/-- Whether the rings of a cluster are empty (R109). -/
def Cluster.ringsEmpty (c : Cluster) : Bool := c.ringToks.isEmpty && c.ringCreds.isEmpty

end Sys2Proof.Machine
end

