-- ==== Sys2Proof/Machine/Plan.lean ====
section
/-! DEFINITION. What one firing of an element does (R175-R193): each operation's plan, from the heads of its inputs to the tokens it
emits, the context's next state, its stores and its fault. A plan is none where the heads do not let the context fire. -/

namespace Sys2Proof.Machine

/-- What a firing reads: the context word, the current-epoch heads of IN0-IN3, the context, the block buffer, element memory with its bytes of bad
parity, the EL_SEND headers, the element's number, the drain in progress (0 none, 1 slot-end, 2 park), and the next free value. -/
structure View where
  word : Nat
  heads : List (Option Tok)
  ctx : Ctx
  block : List W32
  mem : Mem
  bad : NSet
  send : List Nat
  elem : Nat
  drain : Nat
  free : W64
  deriving DecidableEq, Repr

/-- What a firing does: the inputs whose heads it consumes, the tokens for output bindings 0 and 1, the context after it, writes of EL_CTR, the
block buffer after it, its store, the response queue it uses, its fault (1 TAG, 2 POISON, 3 ACCESS) and whether that is a parity failure of
its own memory, whether it is class 7, whether it uses the free value, and whether it truncates a run. -/
structure Plan where
  pops : List Nat
  o0 : List Tok
  o1 : List Tok
  ctx : Ctx
  ctr : List (Nat × Nat)
  block : List W32
  store : Option (Nat × List Byte)
  resp : Option Nat
  fault : Nat
  parity : Bool
  vec : Bool
  free : Bool
  trunc : Bool
  deriving DecidableEq, Repr

/-! ## Fields of the context word (R173) -/

def View.op (v : View) : Nat := v.word % 64
def View.epoch (v : View) : Nat := v.word / 2 ^ 6 % 4
def View.inQ (v : View) (k : Nat) : Option Nat := ctxIn v.word k
def View.bound (v : View) (k : Nat) : Bool := (v.inQ k).isSome
def View.outEn (v : View) (b : Nat) : Bool := v.word.testBit (24 + b)
def View.ctr (v : View) : Nat := v.word / 2 ^ 26 % 4
def View.pmode (v : View) : Nat := v.word / 2 ^ 28 % 4
def View.imm (v : View) : Nat := v.word / 2 ^ 32 % 2 ^ 32
def View.fmt (v : View) : Nat := v.word / 2 ^ 64 % 16
def View.fmt2 (v : View) : Nat := v.word / 2 ^ 68 % 16
def View.sat (v : View) : Bool := v.word.testBit 72
def View.cond (v : View) : Nat := v.word / 2 ^ 73 % 8
def View.addr (v : View) : Nat := v.word / 2 ^ 76 % 2 ^ 14
def View.imm2 (v : View) : Nat := v.word / 2 ^ 96 % 2 ^ 32
/-- The head of input k. -/
def View.head (v : View) (k : Nat) : Option Tok := (v.heads.getD k none)
/-- The inputs that are bound. -/
def View.boundIns (v : View) : List Nat := (List.range 4).filter (fun k => v.bound k)
/-- The payload at input k; zero where there is none. -/
def View.data (v : View) (k : Nat) : W64 := match v.head k with | some t => t.data | none => 0

/-! ## Building plans -/

/-- A plan that consumes inputs and does nothing else. -/
def View.base (v : View) (pops : List Nat) : Plan :=
  ⟨pops, [], [], v.ctx, [], v.block, none, none, 0, false, false, false, false⟩
/-- The context faults (R195). -/
def View.faultPlan (v : View) (cause : Nat) : Plan := { v.base [] with fault := cause, ctx := { v.ctx with state := .fault } }
/-- A token of the context's epoch. -/
def View.tok (v : View) (tag : Tag) (data : Nat) : Tok := ⟨BitVec.ofNat 64 data, tag, v.epoch, false⟩
/-- A plan with tokens emitted on every enabled output (R177). -/
def View.emit (v : View) (p : Plan) (ts : List Tok) : Plan :=
  { p with o0 := if v.outEn 0 then p.o0 ++ ts else p.o0, o1 := if v.outEn 1 then p.o1 ++ ts else p.o1 }
/-- Whether one of the inputs holds a poisoned head (R195). -/
def View.poisoned (v : View) (ins : List Nat) : Bool := ins.any (fun k => match v.head k with | some t => t.poison | none => false)
/-- The plan, or a POISON fault where it would consume a poisoned token (R108, R195). -/
def View.checked (v : View) (p : Plan) : Plan := if v.poisoned p.pops then v.faultPlan 2 else p

/-- The same for an operation of class V (R180). -/
def View.checkedV (v : View) (p : Plan) : Plan := { v.checked p with vec := true }

/-- PRED counts as DATA (R178). -/
def Tag.isData : Tag → Bool
  | .data => true
  | .pred => true
  | _ => false

/-- The rule of R178 and R179 for the operations it governs; `f` is the operation on DATA heads, already with its inputs consumed. -/
def View.simple (v : View) (f : Plan → Plan) : Option Plan :=
  let ins := v.boundIns
  let ts := ins.filterMap v.head
  if ins.isEmpty ∨ ts.length < ins.length then none
  else
    let p := v.base ins
    if ts.all (fun t => t.tag.isData) then
      let pred := (v.data 3).getLsbD 0
      if (v.pmode = 1 ∧ pred = false) ∨ (v.pmode = 2 ∧ pred = true) then some (v.checked p)
      else if v.poisoned ins then some (v.faultPlan 2) else some (f p)
    else if ts.all (fun t => t.tag == .last) then some (v.checked (v.emit p [v.tok .last (v.data 0).toNat]))
    else if ts.all (fun t => t.tag == .mark) then some (v.checked (v.emit p [v.tok .mark (v.data 0).toNat]))
    else some (v.faultPlan 1)

/-- A result in [31:0] on every enabled output (R181). -/
def View.scalar (v : View) (f : Nat → Nat → Nat → Nat) : Option Plan :=
  let a := (v.data 0).toNat % 2 ^ 32
  let b := if v.bound 1 then (v.data 1).toNat % 2 ^ 32 else v.imm
  let c := (v.data 2).toNat % 2 ^ 32
  v.simple (fun p => v.emit p [v.tok .data (f a b c % 2 ^ 32)])

/-- A predicate on every enabled output (R169, R180). -/
def View.predicate (v : View) (f : Nat → Nat → Bool) : Option Plan :=
  let a := (v.data 0).toNat % 2 ^ 32
  let b := if v.bound 1 then (v.data 1).toNat % 2 ^ 32 else v.imm
  v.simple (fun p => v.emit p [v.tok .pred (if f a b then 1 else 0)])

/-- An FP32 operation (R180, R181). -/
def View.float (v : View) (f : W32 → W32 → W32 → W32) : Option Plan :=
  v.scalar (fun a b c => (f (BitVec.ofNat 32 a) (BitVec.ofNat 32 b) (BitVec.ofNat 32 c)).toNat)

/-- Lanes of a packed token (R152). -/
def lanesOf (f : Nat) : Nat := if fmtBits f = 0 then 0 else 64 / fmtBits f
/-- Lane i of a payload. -/
def laneAt (f : Nat) (w : W64) (i : Nat) : Nat := (w.toNat >>> (i * fmtBits f)) % 2 ^ fmtBits f
/-- A payload from lane codes, lane 0 lowest. -/
def packLanes (f : Nat) : List Nat → Nat
  | [] => 0
  | c :: cs => c % 2 ^ fmtBits f + 2 ^ fmtBits f * packLanes f cs

/-- The second operand's lane: IN1, or IMM broadcast (R181). -/
def View.laneB (v : View) (i : Nat) : Nat := if v.bound 1 then laneAt v.fmt (v.data 1) i else v.imm % 2 ^ fmtBits v.fmt

/-- A packed operation: each lane computed exactly and rounded once to FMT (R181, R167). -/
def View.vector (v : View) (f : FVal → FVal → FVal → FVal) : Option Plan :=
  (v.simple (fun p => v.emit p [v.tok .data (packLanes v.fmt ((List.range (lanesOf v.fmt)).map (fun i =>
    encodeEl .rne v.sat v.fmt (f (decodeEl v.fmt (laneAt v.fmt (v.data 0) i)) (decodeEl v.fmt (v.laneB i))
      (decodeEl v.fmt (laneAt v.fmt (v.data 2) i))))))])).map (fun p => { p with vec := true })

/-- The comparison that COND names (R173). -/
def condInt (cond : Nat) (c : Int) : Bool :=
  if cond = 0 then c == 0 else if cond = 1 then c != 0 else if cond = 2 then decide (c < 0) else if cond = 3 then decide (c ≤ 0)
  else if cond = 4 then decide (0 < c) else decide (0 ≤ c)

/-! ## Plain operations (R180) -/

/-- PASS: IN0's token; with both outputs enabled, the fork. -/
def planPass (v : View) : Option Plan :=
  v.simple (fun p => v.emit p [v.tok (match v.head 0 with | some t => t.tag | none => .data) (v.data 0).toNat])
def planIadd (v : View) : Option Plan := v.scalar (fun a b _ => a + b)
def planIsub (v : View) : Option Plan := v.scalar (fun a b _ => a + 2 ^ 32 - b)
def planImul (v : View) : Option Plan := v.scalar (fun a b _ => a * b)
/-- IMULH: the signed high 32 bits of the product. -/
def planImulh (v : View) : Option Plan :=
  v.scalar (fun a b _ => (BitVec.ofInt 64 (toSigned 32 a * toSigned 32 b)).toNat / 2 ^ 32)
def planIand (v : View) : Option Plan := v.scalar (fun a b _ => a &&& b)
def planIor (v : View) : Option Plan := v.scalar (fun a b _ => a ||| b)
def planIxor (v : View) : Option Plan := v.scalar (fun a b _ => a ^^^ b)
def planIshl (v : View) : Option Plan := v.scalar (fun a b _ => a <<< (b % 32))
def planIshr (v : View) : Option Plan := v.scalar (fun a b _ => a >>> (b % 32))
def planIsra (v : View) : Option Plan := v.scalar (fun a b _ => ((BitVec.ofNat 32 a).sshiftRight (b % 32)).toNat)
def planImin (v : View) : Option Plan := v.scalar (fun a b _ => if toSigned 32 a ≤ toSigned 32 b then a else b)
def planImax (v : View) : Option Plan := v.scalar (fun a b _ => if toSigned 32 a ≤ toSigned 32 b then b else a)
def planIcmp (v : View) : Option Plan := v.predicate (fun a b => condInt v.cond (toSigned 32 a - toSigned 32 b))
def planImad (v : View) : Option Plan := v.scalar (fun a b c => a * b + c)
def planFadd (v : View) : Option Plan := v.float (fun a b _ => fadd a b)
def planFsub (v : View) : Option Plan := v.float (fun a b _ => toF32 (fsum [f32 a, (f32 b).neg]))
def planFmul (v : View) : Option Plan := v.float (fun a b _ => toF32 ((f32 a).mul (f32 b)))
def planFfma (v : View) : Option Plan := v.float (fun a b c => ffma a b c)
def planFmin (v : View) : Option Plan := v.float (fun a b _ => toF32 (fminZ (f32 a) (f32 b)))
def planFmax (v : View) : Option Plan := v.float (fun a b _ => toF32 (fmaxZ (f32 a) (f32 b)))
/-- FCMP: with a NaN operand UNORD and NE are true and the others false. -/
def planFcmp (v : View) : Option Plan :=
  v.predicate (fun a b =>
    let x := f32 (BitVec.ofNat 32 a); let y := f32 (BitVec.ofNat 32 b)
    if x.isNan || y.isNan then v.cond == 6 || v.cond == 1
    else if v.cond = 6 then false else if v.cond = 7 then true else condInt v.cond (fcmp x y))
def planFrcp (v : View) : Option Plan := v.float (fun a _ _ => specialFn 0 a)
def planFrsq (v : View) : Option Plan := v.float (fun a _ _ => specialFn 1 a)
def planFexp2 (v : View) : Option Plan := v.float (fun a _ _ => specialFn 2 a)
def planFlog2 (v : View) : Option Plan := v.float (fun a _ _ => specialFn 3 a)

/-- ACC (R180, R181): DATA is added lane by lane into the accumulator; LAST emits it as one DATA token and clears it; a MARK passes
(R169). R180 does not say what a PRED token is here, and R178's rule for PRED does not name ACC: the model takes it as DATA (DESIGN CHOICE, log entry 12). -/
def planAcc (v : View) : Option Plan :=
  match v.head 0 with
  | none => none
  | some t =>
    let p := { v.base [0] with vec := true }
    let add := fun (i : Nat) => let a := laneAt 11 v.ctx.acc i; let b := laneAt 11 t.data i
      if v.fmt = 12 then (a + b) % 2 ^ 32 else (fadd (BitVec.ofNat 32 a) (BitVec.ofNat 32 b)).toNat
    some (v.checkedV (match t.tag with
      | .last => v.emit { p with ctx := { v.ctx with acc := 0, accOpen := false } } [v.tok .data v.ctx.acc.toNat]
      | .mark => v.emit p [v.tok .mark t.data.toNat]
      | _ => { p with ctx := { v.ctx with acc := BitVec.ofNat 64 (packLanes 11 [add 0, add 1]), accOpen := true } }))

def planVadd (v : View) : Option Plan := v.vector (fun a b _ => fsum [a, b])
def planVmul (v : View) : Option Plan := v.vector (fun a b _ => a.mul b)
def planVfma (v : View) : Option Plan := v.vector (fun a b c => fsum [a.mul b, c])
def planVmax (v : View) : Option Plan := v.vector (fun a b _ => fmaxZ a b)
def planVmin (v : View) : Option Plan := v.vector (fun a b _ => fminZ a b)
/-- VDOT: the exact sum of the lane products plus IN2[31:0] as FP32, rounded once. -/
def planVdot (v : View) : Option Plan :=
  (v.simple (fun p =>
    let prods := (List.range (lanesOf v.fmt)).map (fun i =>
      (decodeEl v.fmt (laneAt v.fmt (v.data 0) i)).mul (decodeEl v.fmt (v.laneB i)))
    let terms := if v.bound 2 then prods ++ [decodeEl 11 ((v.data 2).toNat % 2 ^ 32)] else prods
    v.emit p [v.tok .data (toF32 (fsum terms)).toNat])).map (fun p => { p with vec := true })
/-- CVT (R183): lanes of FMT from lane IMM2[2:0] on, into the lanes of FMT2; lanes without a source are zero. -/
def planCvt (v : View) : Option Plan :=
  (v.simple (fun p => v.emit p [v.tok .data (packLanes v.fmt2 ((List.range (lanesOf v.fmt2)).map (fun j =>
    let i := v.imm2 % 8 + j
    if i < lanesOf v.fmt then encodeEl .rne v.sat v.fmt2 (decodeEl v.fmt (laneAt v.fmt (v.data 0) i)) else 0)))])).map
    (fun p => { p with vec := true })
/-- ZDET: bit i of [7:0] is set when lane i is not ±0 (R181). -/
def planZdet (v : View) : Option Plan :=
  v.simple (fun p => v.emit p [v.tok .data ((List.range (lanesOf v.fmt)).foldl (fun m i =>
    if (decodeEl v.fmt (laneAt v.fmt (v.data 0) i)).isZero then m else m + 2 ^ i) 0)])
/-- POPC: the ones in [63:0]. -/
def popcount (w : W64) : Nat := ((List.range 64).filter (fun i => w.getLsbD i)).length
def planPopc (v : View) : Option Plan := v.simple (fun p => v.emit p [v.tok .data (popcount (v.data 0))])

/-! ## Memory and requests (R188, R189, R191-R193) -/

/-- Whether n bytes of element memory at an address pass their parity (R188, R239). -/
def View.parityOk (v : View) (a n : Nat) : Bool := !NSet.meets v.bad a n
/-- The address of LD and ST (R188). -/
def View.elAddr (v : View) : Nat := (v.addr + 8 * ((v.data 0).toNat % 2 ^ 32)) % 0x4000
/-- A context that read bad parity faults with cause POISON (R188, R240). -/
def View.parityFault (v : View) : Plan := { v.faultPlan 2 with parity := true }
/-- LD. -/
def planLd (v : View) : Option Plan :=
  v.simple (fun p => if v.parityOk v.elAddr 8 then v.emit p [v.tok .data (Mem.le v.mem v.elAddr 8)] else v.parityFault)
/-- ST: with O0 enabled it emits IN0 as an acknowledgement. -/
def planSt (v : View) : Option Plan :=
  v.simple (fun p =>
    { p with store := some (v.elAddr, leBytes 8 (v.data 1).toNat)
             o0 := if v.outEn 0 then [v.tok (match v.head 0 with | some t => t.tag | none => .data) (v.data 0).toNat] else [] })

/-- A narrow-port request token (R189). -/
def View.request (v : View) (kind rq : Nat) : Tok :=
  let a := (v.imm % 2 ^ 21 + 8 * ((v.data 0).toNat % 2 ^ 32)) % 0x200000
  v.tok .data (a / 8 * 8 + (v.imm2 % 256) * 2 ^ 21 + kind * 2 ^ 29 + v.elem * 2 ^ 32 + rq * 2 ^ 37)
/-- NLD. -/
def planNld (v : View) : Option Plan :=
  v.simple (fun p => { p with o0 := [v.request 0 (v.imm / 2 ^ 29)], resp := some (v.imm / 2 ^ 29) })
/-- The request and IN1's token as a second DATA token on the same binding. -/
def View.storeReq (v : View) (kind : Nat) : Option Plan :=
  v.simple (fun p => { p with o0 := [v.request kind 0, v.tok .data (v.data 1).toNat] })
/-- NST. -/
def planNst (v : View) : Option Plan := v.storeReq 1
/-- NACC: FMT selects the add-into. -/
def planNacc (v : View) : Option Plan := v.storeReq (if v.fmt = 12 then 2 else if v.fmt = 11 then 3 else 4)

/-- Words of a template in element memory (R191, R193). -/
def View.template (v : View) (n : Nat) : List Nat := (List.range n).map (fun i => Mem.le v.mem (v.addr + 8 * i) 8)
/-- A field of a word replaced. -/
def putBits (w lo n x : Nat) : Nat := w - ((w >>> lo) % 2 ^ n) * 2 ^ lo + (x % 2 ^ n) * 2 ^ lo
/-- MCMD (R191): the template is patched and its eight words are emitted, word 7 as LAST. -/
def planMcmd (v : View) : Option Plan :=
  v.simple (fun p =>
    if v.parityOk v.addr 64 then
      let a := (v.data 0).toNat
      let ws := v.template 8
      let w3 := ws.getD 3 0
      let w3' := putBits (putBits w3 0 12 (w3 % 4096 + a % 65536)) 32 12 (w3 / 2 ^ 32 % 4096 + a / 65536 % 65536)
      let w6 := if v.bound 1 then putBits (ws.getD 6 0) 0 32 (v.data 1).toNat else ws.getD 6 0
      let w7 := if v.bound 2 then putBits (ws.getD 7 0) 0 16 (v.data 2).toNat else ws.getD 7 0
      let out := [ws.getD 0 0, ws.getD 1 0, ws.getD 2 0, w3', ws.getD 4 0, ws.getD 5 0, w6]
      { p with o0 := out.map (v.tok .data) ++ [v.tok .last w7] }
    else v.parityFault)
/-- SEND (R192): the header and IN0's token; a LAST or MARK is sent as it is, with its tag. -/
def planSend (v : View) : Option Plan :=
  let hdr := v.tok .data (v.send.getD (v.imm % 8) 0)
  (v.simple (fun p => { p with o0 := [hdr, v.tok (match v.head 0 with | some t => t.tag | none => .data) (v.data 0).toNat] })).map (fun p =>
    match v.head 0 with
    | some t => if (t.tag == .last || t.tag == .mark) && p.fault == 0 then { p with o0 := [hdr, v.tok t.tag t.data.toNat], o1 := [] } else p
    | none => p)
/-- XFER (R193). -/
def planXfer (v : View) : Option Plan :=
  v.simple (fun p =>
    if v.parityOk v.addr 32 then
      let ws := v.template 4
      let w3 := if v.imm.testBit 0 then (v.data 0).toNat else ws.getD 3 0
      { p with o0 := [ws.getD 0 0, ws.getD 1 0, ws.getD 2 0, w3].map (v.tok .data) }
    else v.parityFault)

/-! ## Steering (R184) -/

/-- SWITCH's pairs of tags; `go` handles a DATA token with its predicate, and `free` says that the payload of the LAST or MARK that it emits is a free
value (log entry 5), and not the data head's (R178). -/
def View.steer (v : View) (free : Bool) (go : Plan → Bool → Tok → Plan) : Option Plan :=
  match v.head 0, v.head 1 with
  | some d, some q =>
    let p := v.base (if v.bound 3 then [0, 1, 3] else [0, 1])
    if d.tag = .data ∧ q.tag = .pred then some (v.checked (go p (q.data.getLsbD 0) d))
    else if (d.tag = .last ∧ q.tag = .last) ∨ (d.tag = .mark ∧ q.tag = .mark) then
      some (v.checked { v.emit p [v.tok d.tag (if free then v.free.toNat else d.data.toNat)] with free := free })
    else some (v.faultPlan 1)
  | _, _ => none
/-- SWITCH; R184 gives the LAST or MARK it emits no payload. -/
def planSwitch (v : View) : Option Plan :=
  v.steer true (fun p t d =>
    let x := v.tok .data d.data.toNat
    if t then { p with o0 := if v.outEn 0 then [x] else [] } else { p with o1 := if v.outEn 1 then [x] else [] })
/-- FILTER: SWITCH with the false output discarded; a predicate input at IN3 under PMODE as for any operation of R178. -/
def planFilter (v : View) : Option Plan :=
  if v.bound 3 then
    match v.head 3 with
    | none => none
    | some q =>
      let miss := q.tag.isData && ((v.pmode == 1 && !q.data.getLsbD 0) || (v.pmode == 2 && q.data.getLsbD 0))
      match v.head 0, v.head 1 with
      | some d, some c =>
        if (d.tag = .data ∧ c.tag = .pred ∧ q.tag.isData = false) ∨ (d.tag ≠ .data ∧ q.tag ≠ d.tag) then some (v.faultPlan 1)
        else v.steer false (fun p t d => if t && !miss then v.emit p [v.tok .data d.data.toNat] else p)
      | _, _ => none
  else v.steer false (fun p t d => if t then v.emit p [v.tok .data d.data.toNat] else p)
/-- MERGE: the predicate at IN2 selects IN0 or IN1, and only that input is waited for; LAST and MARK need both. -/
def planMerge (v : View) : Option Plan :=
  match v.head 2 with
  | none => none
  | some q =>
    match q.tag with
    | .pred =>
      let k := if q.data.getLsbD 0 then 0 else 1
      (match v.head k with
       | none => none
       | some d => if d.tag = .data then some (v.checked (v.emit (v.base [k, 2]) [v.tok .data d.data.toNat])) else some (v.faultPlan 1))
    | .data => some (v.faultPlan 1)
    | tg =>
      match v.head 0, v.head 1 with
      | some a, some b =>
        if a.tag = tg ∧ b.tag = tg then
          some (v.checked { v.emit (v.base [0, 1, 2]) [v.tok tg v.free.toNat] with free := true })
        else some (v.faultPlan 1)
      | _, _ => none
/-- MERGEA: whichever input has a token, alternating when both have; a LAST or MARK waits for the other head to be the same. R184 does not say what LAST
at one head and MARK at the other do: the context faults with cause TAG (DESIGN CHOICE, log entry 12). -/
def planMergea (v : View) : Option Plan :=
  let take := fun (k : Nat) (t : Tok) (flip : Bool) =>
    some (v.checked (v.emit { v.base [k] with ctx := { v.ctx with turn := if flip then !v.ctx.turn else v.ctx.turn } } [v.tok t.tag t.data.toNat]))
  match v.head 0, v.head 1 with
  | none, none => none
  | some a, none => if a.tag.isData then take 0 a false else none
  | none, some b => if b.tag.isData then take 1 b false else none
  | some a, some b =>
    if a.tag.isData ∧ b.tag.isData then (if v.ctx.turn then take 1 b true else take 0 a true)
    else if a.tag.isData then take 0 a false
    else if b.tag.isData then take 1 b false
    else if a.tag = b.tag then some (v.checked { v.emit (v.base [0, 1]) [v.tok a.tag v.free.toNat] with free := true })
    else some (v.faultPlan 1)
/-- REPEAT: a copy of IN0's head per DATA or PRED at IN1, IN0 left in place; a LAST at IN1 consumes IN0's head and emits LAST. -/
def planRepeat (v : View) : Option Plan :=
  match v.head 0, v.head 1 with
  | some a, some c =>
    if c.tag.isData then
      (if a.tag.isData then
        (if a.poison || c.poison then some (v.faultPlan 2) else some (v.emit (v.base [1]) [v.tok a.tag a.data.toNat]))
       else some (v.faultPlan 1))
    else if c.tag = .last then
      (if a.tag = .mark then some (v.faultPlan 1)
       else some (v.checked { v.emit (v.base [0, 1]) [v.tok .last v.free.toNat] with free := true }))
    else if a.tag = .mark then some (v.checked { v.emit (v.base [0, 1]) [v.tok .mark v.free.toNat] with free := true })
    else some (v.faultPlan 1)
  | _, _ => none

/-! ## Counting (R185-R187, R201) -/

/-- The common handling of a start input in WAIT: LAST is consumed and emits nothing, MARK passes, and no start token is taken during a
drain. A PRED head is a start token, which R185 and R186 leave open (DESIGN CHOICE, log entry 12). -/
def View.start (v : View) (go : Plan → W64 → Plan) : Option Plan :=
  match v.head 0 with
  | none => none
  | some t =>
    match t.tag with
    | .last => some (v.checked (v.base [0]))
    | .mark => some (v.checked (v.emit (v.base [0]) [v.tok .mark t.data.toNat]))
    | _ => if v.drain ≠ 0 then none else some (v.checked (go (v.base [0]) t.data))

/-- A 32-bit sum of a base and signed multiples (R185, R186). -/
def wrap32 (z : Int) : Nat := (BitVec.ofInt 32 z).toNat

/-- The next emission of a COUNT run; with `i` body tokens emitted of `inner`. -/
def View.countEmit (v : View) (p : Plan) (r : Run) : Plan :=
  if r.i < r.inner then
    { v.emit p [v.tok .data (wrap32 ((r.base : Int) + r.i * toSigned 32 v.imm) + r.i % 2 ^ 32 * 2 ^ 32)] with
      ctx := { v.ctx with state := .run, run := { r with i := r.i + 1 } }, ctr := [(v.ctr, r.inner - r.i - 1)] }
  else { v.emit p [v.tok .last (r.inner * 2 ^ 32)] with ctx := { v.ctx with state := .wait, run := ⟨0, 0, 0, 0, 0⟩ }, ctr := [(v.ctr, 0)] }
/-- COUNT. -/
def planCount (v : View) : Option Plan :=
  v.start (fun p d => v.countEmit p ⟨d.toNat % 2 ^ 32, d.toNat / 2 ^ 32, 0, 0, 0⟩)

/-- The next emission of an NCOUNT run: body tokens and LASTs on O0, and the final LAST on O1. R186 does not say in which bits a LAST carries o, nor what the two
counters hold: the model puts o in [63:32], as R185 does L, and lets CTR hold the inner tokens remaining and CTR + 1 the outer runs (DESIGN CHOICE, log
entry 12). -/
def View.ncountEmit (v : View) (p : Plan) (r : Run) : Plan :=
  let si := toSigned 16 v.imm2; let so := toSigned 16 (v.imm2 / 2 ^ 16)
  let done := { v.ctx with state := .wait, run := ⟨0, 0, 0, 0, 0⟩ }
  if r.o < r.outer then
    if r.i < r.inner then
      { p with o0 := [v.tok .data (wrap32 ((r.base : Int) + r.o * so + r.i * si) + r.i * 2 ^ 32)]
               ctx := { v.ctx with state := .run, run := { r with i := r.i + 1 } }
               ctr := [(v.ctr, r.inner - r.i - 1), (v.ctr + 1, r.outer - r.o)] }
    else
      { p with o0 := [v.tok .last (r.o * 2 ^ 32)]
               ctx := if r.o + 1 = r.outer ∧ v.outEn 1 = false then done else { v.ctx with state := .run, run := { r with i := 0, o := r.o + 1 } }
               ctr := [(v.ctr, if r.o + 1 < r.outer then r.inner else 0), (v.ctr + 1, r.outer - r.o - 1)] }
  else { p with o1 := if v.outEn 1 then [v.tok .last v.free.toNat] else [], ctx := done, free := true, ctr := [(v.ctr, 0), (v.ctr + 1, 0)] }
/-- NCOUNT. -/
def planNcount (v : View) : Option Plan :=
  v.start (fun p d => v.ncountEmit p ⟨d.toNat % 2 ^ 32, d.toNat / 2 ^ 32 % 2 ^ 16, d.toNat / 2 ^ 48, 0, 0⟩)

/-- The next emission of a PENC run: the i-th set bit of the mask, or the LAST. -/
def View.pencEmit (v : View) (p : Plan) (r : Run) : Plan :=
  let bits := (List.range 64).filter (fun b => r.base.testBit b)
  if r.i < bits.length then
    { v.emit p [v.tok .data ((v.imm + bits.getD r.i 0) % 2 ^ 32 + r.i * 2 ^ 32)] with
      ctx := { v.ctx with state := .run, run := { r with i := r.i + 1 } } }
  else { v.emit p [v.tok .last v.free.toNat] with ctx := { v.ctx with state := .wait, run := ⟨0, 0, 0, 0, 0⟩ }, free := true }
/-- PENC: a mask is a DATA head; LAST and MARK pass under R178; no mask is taken during a drain (R201). -/
def planPenc (v : View) : Option Plan :=
  if v.drain ≠ 0 ∧ (match v.head 0 with | some t => t.tag.isData | none => false) = true then none
  else v.simple (fun p => v.pencEmit p ⟨(v.data 0).toNat, 0, 0, 0, 0⟩)

/-- The emission of a context in RUN (R177, R194): paused in a park drain, truncated in a slot-end drain (R201). TCK_RTRUNC counts a run that has only its LAST
left as truncated too, which R201 does not decide (DESIGN CHOICE, log entry 12). -/
def planRun (v : View) : Option Plan :=
  let r := v.ctx.run
  if v.drain = 2 then none
  else if v.drain = 1 then
    let n := if v.op = 0x39 then r.o * r.inner + r.i else r.i
    let p := { v.base [] with ctx := { v.ctx with state := .wait, run := ⟨0, 0, 0, 0, 0⟩ }, trunc := true }
    if v.op = 0x39 then
      some { p with o0 := if r.o < r.outer then [v.tok .last (n * 2 ^ 32)] else []
                    o1 := if v.outEn 1 then [v.tok .last (n * 2 ^ 32)] else [], ctr := [(v.ctr, 0), (v.ctr + 1, 0)] }
    else some { v.emit p [v.tok .last (n * 2 ^ 32)] with ctr := if v.op = 0x38 then [(v.ctr, 0)] else [] }
  else if v.op = 0x38 then some (v.countEmit (v.base []) r)
  else if v.op = 0x39 then some (v.ncountEmit (v.base []) r)
  else some (v.pencEmit (v.base []) r)

/-! ## CVTMX (R190) -/

/-- Payloads of 32 element codes of w bits, packed under R151. -/
def packCodes (w : Nat) (codes : List Nat) : List Nat :=
  let total := codes.foldr (fun c a => c % 2 ^ w + 2 ^ w * a) 0
  (List.range (32 * w / 64)).map (fun i => (total >>> (64 * i)) % 2 ^ 64)
/-- CVTMX; a PRED head is taken as a DATA head (DESIGN CHOICE, log entry 12). -/
def planCvtmx (v : View) : Option Plan :=
  match v.head 0 with
  | none => none
  | some t =>
    let p := { v.base [0] with vec := true }
    let block := fun (vs : List W32) => let m := toMx v.fmt2 vs
      ((packCodes (fmtBits v.fmt2) m.2).map (v.tok .data), [v.tok .data m.1])
    some (v.checkedV (match t.tag with
      | .mark => v.emit p [v.tok .mark t.data.toNat]
      | .last =>
        let l := v.tok .last v.free.toNat
        if v.block.isEmpty then { p with o0 := [l], o1 := [l], free := true }
        else
          let b := block (v.block ++ List.replicate (32 - v.block.length) 0)
          { p with o0 := b.1 ++ [l], o1 := b.2 ++ [l], block := [], free := true }
      | _ =>
        let vs := v.block ++ [BitVec.ofNat 32 (laneAt 11 t.data 0), BitVec.ofNat 32 (laneAt 11 t.data 1)]
        if 32 ≤ vs.length then let b := block vs; { p with o0 := b.1, o1 := b.2, block := [] } else { p with block := vs }))

/-! ## The table of operations (R180) -/

/-- The plan of a context in WAIT by its operation code. -/
def planOf (op : Nat) (v : View) : Option Plan :=
  match op with
  | 0x00 => planPass v | 0x01 => planIadd v | 0x02 => planIsub v | 0x03 => planImul v | 0x04 => planImulh v | 0x05 => planIand v
  | 0x06 => planIor v | 0x07 => planIxor v | 0x08 => planIshl v | 0x09 => planIshr v | 0x0A => planIsra v | 0x0B => planImin v
  | 0x0C => planImax v | 0x0D => planIcmp v | 0x0E => planImad v | 0x10 => planFadd v | 0x11 => planFsub v | 0x12 => planFmul v
  | 0x13 => planFfma v | 0x14 => planFmin v | 0x15 => planFmax v | 0x16 => planFcmp v | 0x17 => planFrcp v | 0x18 => planFrsq v
  | 0x19 => planFexp2 v | 0x1A => planFlog2 v | 0x1B => planAcc v | 0x1C => planVadd v | 0x1D => planVmul v | 0x1E => planVfma v
  | 0x1F => planVmax v | 0x20 => planVmin v | 0x21 => planVdot v | 0x22 => planCvt v | 0x23 => planCvtmx v | 0x24 => planZdet v
  | 0x25 => planPopc v | 0x26 => planPenc v | 0x28 => planLd v | 0x29 => planSt v | 0x2A => planNld v | 0x2B => planNst v
  | 0x2C => planNacc v | 0x30 => planSwitch v | 0x31 => planMerge v | 0x32 => planMergea v | 0x33 => planFilter v
  | 0x34 => planRepeat v | 0x38 => planCount v | 0x39 => planNcount v | 0x3C => planMcmd v | 0x3E => planSend v | 0x3F => planXfer v
  | _ => none

end Sys2Proof.Machine
end

