-- ==== Sys2Proof/Machine/Element.lean ====
section
/-! DEFINITION. Dataflow elements (R168-R197): arming a context set, readiness and the round-robin pointer, the firing of each operation,
stale tokens and responses. Latency inside an element is not tracked (log entry 2); readings of R174 to R195 that the words leave
open are log entry 12. -/

namespace Sys2Proof.Machine

/-! ## ARM (R174) -/

/-- The inputs that an operation needs and the ones it may take beside them (R180). -/
def opInputs (op : Nat) : Option (List Nat × List Nat) :=
  if [0x00, 0x17, 0x18, 0x19, 0x1A, 0x1B, 0x22, 0x23, 0x24, 0x25, 0x26, 0x28, 0x2A, 0x38, 0x39, 0x3E, 0x3F].contains op then some ([0], [])
  else if [0x01, 0x02, 0x03, 0x04, 0x05, 0x06, 0x07, 0x08, 0x09, 0x0A, 0x0B, 0x0C, 0x0D, 0x10, 0x11, 0x12, 0x14, 0x15, 0x16, 0x1C, 0x1D, 0x1F, 0x20].contains op
    then some ([0], [1])
  else if [0x0E, 0x13, 0x1E, 0x31].contains op then some ([0, 1, 2], [])
  else if op = 0x21 then some ([0, 1], [2])
  else if [0x29, 0x2B, 0x2C, 0x30, 0x32, 0x33, 0x34].contains op then some ([0, 1], [])
  else if op = 0x3C then some ([0], [1, 2])
  else none

/-- Whether PMODE and IN3 serve the operation: every operation that R178 governs (R179). -/
def opPredicated (op : Nat) : Bool := !([0x30, 0x31, 0x32, 0x34, 0x38, 0x39, 0x23, 0x1B].contains op)

/-- The consumer stop that an operation's bindings must have: 32, 33 or 36, or none for an element stop (R174 check 3). -/
def opStop (op : Nat) : Option Nat :=
  if op = 0x3C then some 32 else if op = 0x2A ∨ op = 0x2B ∨ op = 0x2C then some 33 else if op = 0x3E ∨ op = 0x3F then some 36 else none

/-- Whether the outputs that an operation needs are enabled (R174 check 3, R180). Where R180 names none, the model takes one of the two as needed, but for ST and SWITCH
(DESIGN CHOICE, log entry 12). -/
def opOutputs (op : Nat) (o0 o1 : Bool) : Bool :=
  if op = 0x23 then o0 && o1
  else if op = 0x39 ∨ (opStop op).isSome then o0
  else if op = 0x29 ∨ op = 0x30 then true
  else o0 || o1

/-- The 128-bit context word of context i (R173). -/
def Elem.word (x : Elem) (i : Nat) : Nat :=
  x.ctxWord i 0 + x.ctxWord i 1 * 2 ^ 32 + x.ctxWord i 2 * 2 ^ 64 + x.ctxWord i 3 * 2 ^ 96

/-- EL_SEND entry k (R192). -/
def Elem.sendHdr (x : Elem) (k : Nat) : Nat := x.rd (EL_SEND_LO_HDR_LO.nth k) + 2 ^ 32 * x.rd (EL_SEND_HI_HDR_HI.nth k)

/-- A view of a context word alone, for its fields. -/
def wordView (w : Nat) : View := ⟨w, [], Ctx.reset, [], [], [], [], 0, 0, 0⟩

/-- Whether the fields that the operation uses hold allowed values (R174 check 5). -/
def fieldsOk (v : View) : Bool :=
  let op := v.op; let be := v.imm2 % 256
  let lanes := [0, 1, 8, 9, 10, 11, 12]
  if op = 0x0D then decide (v.cond ≤ 5)
  else if (0x1C ≤ op ∧ op ≤ 0x21) then [0, 1, 9, 11].contains v.fmt
  else if op = 0x1B then v.fmt == 11 || v.fmt == 12
  else if op = 0x22 then lanes.contains v.fmt && lanes.contains v.fmt2
  else if op = 0x23 then decide (2 ≤ v.fmt2 ∧ v.fmt2 ≤ 7)
  else if op = 0x24 then lanes.contains v.fmt
  else if op = 0x28 ∨ op = 0x29 then v.addr % 8 == 0
  else if op = 0x3C then v.addr % 64 == 0
  else if op = 0x3F then v.addr % 32 == 0
  else if op = 0x2A ∨ op = 0x2B then be != 0
  else if op = 0x2C then
    if v.fmt = 11 ∨ v.fmt = 12 then be == 0x0F || be == 0xF0 || be == 0xFF
    else v.fmt == 9 && be != 0 && (List.range 4).all (fun i => be / 2 ^ (2 * i) % 4 == 0 || be / 2 ^ (2 * i) % 4 == 3)
  else true

/-- Whether check k (1-9) of R174 fails for the contexts of CTX_EN. -/
def Elem.armFails (x : Elem) (k : Nat) : Bool :=
  let en := (List.range 8).filter (fun i => (x.rd EL_CTRL_CTX_EN).testBit i)
  let vs := en.map (fun i => wordView (x.word i))
  let kind := fun q => x.rd (EL_QCFG_KIND.nth q)
  let ins := fun (v : View) => (List.range 4).filterMap v.inQ
  let shared := fun (i j : Nat) => decide (i < j) && (x.inputs i).any (fun q => (x.inputs j).contains q)
  let ctrs := vs.flatMap (fun v => if v.op = 0x38 then [v.ctr] else if v.op = 0x39 then [v.ctr, (v.ctr + 1) % 4] else [])
  match k with
  | 1 => vs.any (fun v => (opInputs v.op).isNone || v.word / 2 ^ 30 % 4 != 0 || v.word / 2 ^ 90 % 64 != 0 || v.pmode == 3)
  | 2 => vs.any (fun v => match opInputs v.op with
      | none => false
      | some (req, opt) =>
        let need := if opPredicated v.op && v.pmode != 0 then req ++ [3] else req
        !(need.all v.bound) || !(v.boundIns.all (fun i => need.contains i || opt.contains i)))
  | 3 => vs.any (fun v => !opOutputs v.op (v.outEn 0) (v.outEn 1) || [0, 1].any (fun b => v.outEn b &&
      (x.rd (EL_OBIND_VALID.nth b) == 0 || (match opStop v.op with
        | some t => x.rd (EL_OBIND_DST_STOP.nth b) != t | none => decide (32 ≤ x.rd (EL_OBIND_DST_STOP.nth b))))))
  | 4 => vs.any (fun v => (ins v).any (fun q => kind q == 0 || kind q == 3) || (v.op == 0x2A && kind (v.imm / 2 ^ 29) != 2)) ||
      en.any (fun i => en.any (shared i))
  | 5 => vs.any (fun v => !fieldsOk v)
  | 6 => vs.any (fun v => v.op == 0x39 && v.ctr % 2 == 1) || !(ctrs.Nodup : Bool)
  | 7 => vs.any (fun v => vs.any (fun u => u.epoch != v.epoch))
  | 8 => decide (1 < (vs.filter (fun v => v.op == 0x23)).length)
  | _ => vs.any (fun v => v.op == 0x3E && (x.sendHdr (v.imm % 8) / 2 ^ 38 != 0 || decide (3 < x.sendHdr (v.imm % 8) / 2 ^ 34 % 8)))

/-- The first failing check of R174, 0 if none. -/
def Elem.armCheck (x : Elem) : Nat := ([1, 2, 3, 4, 5, 6, 7, 8, 9].filter x.armFails).headD 0

/-- A write of 1 to EL_CTRL.ARM (R174, R197): checks the enabled contexts and, where all pass, arms them. -/
def Elem.arm (x : Elem) : Elem :=
  let code := x.armCheck
  let x1 := x.wr EL_STATUS_CHK code
  if code ≠ 0 then x1.wr EL_EVENT_CFG_ERR 1
  else
    let en := x.rd EL_CTRL_CTX_EN
    let ep := ((List.range 8).filter (fun i => en.testBit i)).head?.map (fun i => (wordView (x.word i)).epoch)
    let x2 := match ep with | some e => x1.wr EL_STATUS_EPOCH e | none => x1
    let x3 := (List.range 4).foldl (fun y k => y.wr (EL_CTR_REMAIN.nth k) 0) x2
    let x4 := ((x3.wr EL_FAULT_CTX 0).wr EL_FAULT_CAUSE 0).wr EL_FAULT_OP 0
    let x5 := [0, 1].foldl (fun y b => y.wr (EL_OBIND_CREDITS.nth b) 16) x4
    { x5 with
      ctxs := (List.range 8).foldl (fun m i => if en.testBit i then SMap.set (fun _ => Ctx.reset) m i { Ctx.reset with state := .wait } else m) []
      block := [], ptr := 0, sends := [] }

/-- What ARM of an element means for the transit engine (R312, R313): its queues lose their source bindings, and its failed entries are
good again. -/
def Te.armed (t : Te) (e : Nat) : Te :=
  let clear (m : SMap (Option (Nat × Nat × Nat × Nat))) := (List.range 8).foldl (fun m q => SMap.set (fun _ => none) m (8 * e + q) none) m
  { t with bound := clear t.bound, fed := clear t.fed
           credit := t.credit.map (fun k => if k.src = e then { k with failed := false } else k) }

/-- ARM as a register write; it is accepted only while the region is drained (R174, R456). -/
def State.armElem (s : State) (c e : Nat) : State :=
  if (s.region (regionOf c)).drainedState then
    s.modCluster c (fun cl =>
      let x := (cl.elem e).arm
      let cl1 := cl.setElem e x
      if x.rd EL_STATUS_CHK = 0 then { cl1 with te := cl1.te.armed e } else cl1)
  else s.modElem c e (fun x => x.wr EL_EVENT_CFG_ERR 1)

/-- ARM (R174). -/
def execArm (c : ClusterId) (e : Fin 32) (s : State) : Host.Outcome State Fault Refusal :=
  .next (if s.runs c.val then s.armElem c.val e.val else s)

/-! ## Readiness (R175, R176) -/

/-- The current-epoch head of a queue (R172). -/
def Elem.head (x : Elem) (q : Nat) : Option Tok :=
  match x.queue q with
  | t :: _ => if t.epoch = x.rd EL_STATUS_EPOCH then some t else none
  | [] => none

/-- The drain that stops the sources of a region: 1 a slot-end drain, 2 a park drain, 0 none (R201). -/
def Region.drainKind (g : Region) : Nat :=
  if g.sched_ = 3 then (if g.rd TCK_RSCHED_PARKDRAIN = 1 then 2 else 1) else if g.power = 3 then 2 else 0

/-- The view of context i. -/
def Elem.view (x : Elem) (e i drain : Nat) (free : W64) (upsets : List Nat) : View :=
  let w := x.word i
  { word := w, heads := (List.range 4).map (fun k => match ctxIn w k with | some q => x.head q | none => none)
    ctx := x.ctx i, block := x.block, mem := x.mem, bad := x.bad ++ upsets
    send := (List.range 8).map x.sendHdr, elem := e, drain := drain, free := free }

/-- Whether the outputs have credits and buffer room for a plan (R175). -/
def Elem.outRoom (x : Elem) (p : Plan) : Bool :=
  let fits := fun (b : Nat) (n : Nat) (held : Nat) =>
    n == 0 || (decide (n ≤ x.rd (EL_OBIND_CREDITS.nth b)) && decide (n + held ≤ 8))
  fits 0 p.o0.length x.out0.length && fits 1 p.o1.length x.out1.length

/-- Whether the response queue that a plan names has more free entries than outstanding responses (R171). -/
def Elem.respRoom (x : Elem) (p : Plan) : Bool :=
  match p.resp with | some q => decide (x.rd (EL_QCFG_OUTST.nth q) + (x.queue q).length < 16) | none => true

/-- Whether the outputs and the response queue have room for a plan (R171, R175). -/
def Elem.room (x : Elem) (p : Plan) : Bool := x.outRoom p && x.respRoom p

/-- The plan of context i as it stands: in WAIT by its operation, in RUN its next emission; none in IDLE and FAULT. -/
def Elem.plan (x : Elem) (e i drain : Nat) (free : W64) (upsets : List Nat) : Option Plan :=
  let v := x.view e i drain free upsets
  match (x.ctx i).state with
  | .wait => planOf v.op v
  | .run => planRun v
  | _ => none

/-- Whether context i is ready (R175). -/
def Elem.ready (x : Elem) (e i drain : Nat) : Bool :=
  match x.plan e i drain 0 [] with
  | some p => x.room p
  | none => false

/-- The context that the element fires next (R176). -/
def Elem.next (x : Elem) (e drain : Nat) : Option Nat :=
  (((List.range 8).map (fun k => (x.ptr + k) % 8)).filter (fun i => x.ready e i drain)).head?

/-! ## Firing -/

/-- The head of queue q leaves it; its credit goes back unless the queue takes responses (R107, R171). -/
def Cluster.popElem (c : Cluster) (e q : Nat) : Cluster :=
  let x := c.elem e
  let c1 := c.setElem e ((x.setQueue q ((x.queue q).drop 1)).left q 1)
  if x.rd (EL_QCFG_KIND.nth q) = 2 then c1 else c1.creditBack e q

/-- Every token of a faulted context's queues is discarded with its credit returned (R195). -/
def Cluster.discardInputs (c : Cluster) (e : Nat) : List Nat → Cluster
  | [] => c
  | q :: qs =>
    let x := c.elem e
    let n := (x.queue q).length
    let c1 := c.setElem e (((x.setQueue q []).left q n).countStart EL_CNT_DISCARD_CNT n)
    Cluster.discardInputs (if x.rd (EL_QCFG_KIND.nth q) = 2 then c1 else c1.creditsBack e q n) e qs

/-- Context i of element e faults (R195): the first fault since ARM is recorded, and its queued tokens are discarded. -/
def Cluster.ctxFault (c : Cluster) (e i cause : Nat) : Cluster :=
  let x := c.elem e
  let x1 := x.setCtx i { x.ctx i with state := .fault }
  let x2 := if x.rd EL_FAULT_CAUSE = 0 then ((x1.wr EL_FAULT_CTX i).wr EL_FAULT_CAUSE cause).wr EL_FAULT_OP (x.ctxWord i 0 % 64) else x1
  let x3 := x2.wr EL_EVENT_CTX_FAULT 1
  (c.setElem e (if cause = 2 then x3.wr EL_EVENT_POISON 1 else x3)).discardInputs e (x.inputs i)

/-- The element after a plan, its inputs already consumed. -/
def Elem.apply (x : Elem) (i : Nat) (p : Plan) : Elem :=
  let x1 := p.ctr.foldl (fun y k => y.wr (EL_CTR_REMAIN.nth k.1) k.2) (x.setCtx i p.ctx)
  let x2 := { x1 with out0 := x1.out0 ++ p.o0, out1 := x1.out1 ++ p.o1, block := p.block, ptr := (i + 1) % 8 }
  let x3 := (x2.wr (EL_OBIND_CREDITS.nth 0) (x2.rd (EL_OBIND_CREDITS.nth 0) - p.o0.length)).wr (EL_OBIND_CREDITS.nth 1)
    (x2.rd (EL_OBIND_CREDITS.nth 1) - p.o1.length)
  let x4 := match p.store with
    | some (a, bs) => { x3 with mem := Mem.write x3.mem a bs, bad := NSet.delRange x3.bad a bs.length }
    | none => x3
  let x5 := match p.resp with | some q => x4.wr (EL_QCFG_OUTST.nth q) (x4.rd (EL_QCFG_OUTST.nth q) + 1) | none => x4
  let x6 := if x.ctxWord i 0 % 64 = 0x3E ∧ p.o0 ≠ [] then { x5 with sends := x5.sends ++ [i] } else x5
  if p.vec then x6.count EL_CNT_FIRE_V_CNT 1 else x6.count EL_CNT_FIRE_S_CNT 1

/-- A plan takes effect (R176, R180, R195): the inputs are consumed, tokens enter the output buffers against credits, and the firing is debited
as class 6 or 7. -/
def State.applyPlan (s : State) (c e i : Nat) (p : Plan) : State :=
  let cl := s.cluster c
  let w0 := (cl.elem e).ctxWord i 0
  let s1 := if p.free then { s with free := s.free + 1 } else s
  let s2 :=
    if p.fault ≠ 0 then
      let cl1 := (cl.modElem e (fun x => { (if p.vec then x.count EL_CNT_FIRE_V_CNT 1 else x.count EL_CNT_FIRE_S_CNT 1) with ptr := (i + 1) % 8 })).ctxFault e i p.fault
      let t := s1.setCluster c cl1
      if p.parity then t.clusterFailure 2 c (cl1.faultWord e) else t
    else
      let cl1 := (p.pops.filterMap (fun k => ctxIn w0 k)).dedup.foldl (fun a q => a.popElem e q) cl
      s1.setCluster c (cl1.modElem e (fun x => x.apply i p))
  let s3 := s2.debit c (if p.vec then 7 else 6) 1
  if p.trunc then s3.modRegion (regionOf c) (fun g => g.countStart TCK_RTRUNC_CNT 1) else s3

/-- An operation fires (R175, R176): the context is in WAIT with this operation, and it is the one that the element fires next; nothing fires
under HOLD (R81). -/
def State.fire (s : State) (c e i op : Nat) (plan : View → Option Plan) (upsets : List Nat) : State :=
  let x := (s.cluster c).elem e
  let drain := (s.region (regionOf c)).drainKind
  if s.runs c = true ∧ s.held c = false ∧ (x.ctx i).state = .wait ∧ x.ctxWord i 0 % 64 = op ∧ x.next e drain = some i then
    match plan (x.view e i drain (Config.freeWord s.free) upsets) with
    | some p => s.applyPlan c e i p
    | none => s
  else s

/-- CONTEXT_RUN_EMIT (R177, R185-R187): a context in RUN emits its next token. -/
def execContextRunEmit (c : ClusterId) (e : Fin 32) (x : Fin 8) (s : State) : Host.Outcome State Fault Refusal :=
  let el := (s.cluster c.val).elem e.val
  let drain := (s.region (regionOf c.val)).drainKind
  if s.runs c.val = true ∧ s.held c.val = false ∧ (el.ctx x.val).state = .run ∧ el.next e.val drain = some x.val then
    match planRun (el.view e.val x.val drain (Config.freeWord s.free) []) with
    | some p => .next (s.applyPlan c.val e.val x.val p)
    | none => .next s
  else .next s

/-- STALE_TOKEN_DISCARD (R172): a token at a queue head that is neither current nor early is discarded. -/
def execStaleTokenDiscard (c : ClusterId) (e : Fin 32) (q : Fin 8) (s : State) : Host.Outcome State Fault Refusal :=
  let x := (s.cluster c.val).elem e.val
  match x.queue q.val with
  | t :: _ =>
    let ep := x.rd EL_STATUS_EPOCH
    if s.runs c.val = false ∨ t.epoch = ep ∨ t.epoch = (ep + 1) % 4 then .next s
    else .next (s.modCluster c.val (fun cl =>
      (cl.popElem e.val q.val).modElem e.val (fun y => (y.countStart EL_CNT_STALE_CNT 1).wr EL_EVENT_STALE 1)))
  | [] => .next s

/-- NLD_RESPONSE (R171, R230): a narrow-port response is ejected into its response queue and the outstanding count falls. -/
def execNldResponse (c : ClusterId) (e : Fin 32) (ring : Fin 4) (good : Bool) (s : State) : Host.Outcome State Fault Refusal :=
  if s.runs c.val then
    match takeFirst (fun t => t.ring == ring.val && t.dst == e.val && t.src == 33) (s.cluster c.val).ringToks with
    | none => .next s
    | some (t, rest) =>
      .next ((s.eject c.val t rest good).modElem c.val e.val (fun x =>
        x.wr (EL_QCFG_OUTST.nth t.queue) (x.rd (EL_QCFG_OUTST.nth t.queue) - 1)))
  else .next s

/-- Whether an element is quiescent; in a park drain a paused context in RUN is allowed (R196, R202). -/
def Elem.quiet (x : Elem) (park : Bool) : Bool :=
  (park || x.ctxs.all (fun p => p.2.state != .run)) && (List.range 8).all (fun q => !(x.queue q).any (fun t => t.epoch == x.rd EL_STATUS_EPOCH)) &&
  x.out0.isEmpty && x.out1.isEmpty && (List.range 8).all (fun q => x.rd (EL_QCFG_OUTST.nth q) == 0) && x.block.isEmpty &&
  x.ctxs.all (fun p => !p.2.accOpen)

/-! ## The operations (R180) -/

/-- PASS (R180): `planPass`. -/
def execPassOp (c : ClusterId) (e : Fin 32) (x : Fin 8) (s : State) : Host.Outcome State Fault Refusal :=
  .next (s.fire c.val e.val x.val 0x00 planPass [])

/-- IADD (R180): `planIadd`. -/
def execIadd (c : ClusterId) (e : Fin 32) (x : Fin 8) (s : State) : Host.Outcome State Fault Refusal :=
  .next (s.fire c.val e.val x.val 0x01 planIadd [])

/-- ISUB (R180): `planIsub`. -/
def execIsub (c : ClusterId) (e : Fin 32) (x : Fin 8) (s : State) : Host.Outcome State Fault Refusal :=
  .next (s.fire c.val e.val x.val 0x02 planIsub [])

/-- IMUL (R180): `planImul`. -/
def execImul (c : ClusterId) (e : Fin 32) (x : Fin 8) (s : State) : Host.Outcome State Fault Refusal :=
  .next (s.fire c.val e.val x.val 0x03 planImul [])

/-- IMULH (R180): `planImulh`. -/
def execImulh (c : ClusterId) (e : Fin 32) (x : Fin 8) (s : State) : Host.Outcome State Fault Refusal :=
  .next (s.fire c.val e.val x.val 0x04 planImulh [])

/-- IAND (R180): `planIand`. -/
def execIand (c : ClusterId) (e : Fin 32) (x : Fin 8) (s : State) : Host.Outcome State Fault Refusal :=
  .next (s.fire c.val e.val x.val 0x05 planIand [])

/-- IOR (R180): `planIor`. -/
def execIor (c : ClusterId) (e : Fin 32) (x : Fin 8) (s : State) : Host.Outcome State Fault Refusal :=
  .next (s.fire c.val e.val x.val 0x06 planIor [])

/-- IXOR (R180): `planIxor`. -/
def execIxor (c : ClusterId) (e : Fin 32) (x : Fin 8) (s : State) : Host.Outcome State Fault Refusal :=
  .next (s.fire c.val e.val x.val 0x07 planIxor [])

/-- ISHL (R180): `planIshl`. -/
def execIshl (c : ClusterId) (e : Fin 32) (x : Fin 8) (s : State) : Host.Outcome State Fault Refusal :=
  .next (s.fire c.val e.val x.val 0x08 planIshl [])

/-- ISHR (R180): `planIshr`. -/
def execIshr (c : ClusterId) (e : Fin 32) (x : Fin 8) (s : State) : Host.Outcome State Fault Refusal :=
  .next (s.fire c.val e.val x.val 0x09 planIshr [])

/-- ISRA (R180): `planIsra`. -/
def execIsra (c : ClusterId) (e : Fin 32) (x : Fin 8) (s : State) : Host.Outcome State Fault Refusal :=
  .next (s.fire c.val e.val x.val 0x0A planIsra [])

/-- IMIN (R180): `planImin`. -/
def execImin (c : ClusterId) (e : Fin 32) (x : Fin 8) (s : State) : Host.Outcome State Fault Refusal :=
  .next (s.fire c.val e.val x.val 0x0B planImin [])

/-- IMAX (R180): `planImax`. -/
def execImax (c : ClusterId) (e : Fin 32) (x : Fin 8) (s : State) : Host.Outcome State Fault Refusal :=
  .next (s.fire c.val e.val x.val 0x0C planImax [])

/-- ICMP (R180): `planIcmp`. -/
def execIcmp (c : ClusterId) (e : Fin 32) (x : Fin 8) (s : State) : Host.Outcome State Fault Refusal :=
  .next (s.fire c.val e.val x.val 0x0D planIcmp [])

/-- IMAD (R180): `planImad`. -/
def execImad (c : ClusterId) (e : Fin 32) (x : Fin 8) (s : State) : Host.Outcome State Fault Refusal :=
  .next (s.fire c.val e.val x.val 0x0E planImad [])

/-- FADD (R180): `planFadd`. -/
def execFadd (c : ClusterId) (e : Fin 32) (x : Fin 8) (s : State) : Host.Outcome State Fault Refusal :=
  .next (s.fire c.val e.val x.val 0x10 planFadd [])

/-- FSUB (R180): `planFsub`. -/
def execFsub (c : ClusterId) (e : Fin 32) (x : Fin 8) (s : State) : Host.Outcome State Fault Refusal :=
  .next (s.fire c.val e.val x.val 0x11 planFsub [])

/-- FMUL (R180): `planFmul`. -/
def execFmul (c : ClusterId) (e : Fin 32) (x : Fin 8) (s : State) : Host.Outcome State Fault Refusal :=
  .next (s.fire c.val e.val x.val 0x12 planFmul [])

/-- FFMA (R180): `planFfma`. -/
def execFfma (c : ClusterId) (e : Fin 32) (x : Fin 8) (s : State) : Host.Outcome State Fault Refusal :=
  .next (s.fire c.val e.val x.val 0x13 planFfma [])

/-- FMIN (R180, R166): `planFmin`. -/
def execFmin (c : ClusterId) (e : Fin 32) (x : Fin 8) (s : State) : Host.Outcome State Fault Refusal :=
  .next (s.fire c.val e.val x.val 0x14 planFmin [])

/-- FMAX (R180, R166): `planFmax`. -/
def execFmax (c : ClusterId) (e : Fin 32) (x : Fin 8) (s : State) : Host.Outcome State Fault Refusal :=
  .next (s.fire c.val e.val x.val 0x15 planFmax [])

/-- FCMP (R180): `planFcmp`. -/
def execFcmp (c : ClusterId) (e : Fin 32) (x : Fin 8) (s : State) : Host.Outcome State Fault Refusal :=
  .next (s.fire c.val e.val x.val 0x16 planFcmp [])

/-- FRCP (R182): `planFrcp`. -/
def execFrcp (c : ClusterId) (e : Fin 32) (x : Fin 8) (s : State) : Host.Outcome State Fault Refusal :=
  .next (s.fire c.val e.val x.val 0x17 planFrcp [])

/-- FRSQ (R182): `planFrsq`. -/
def execFrsq (c : ClusterId) (e : Fin 32) (x : Fin 8) (s : State) : Host.Outcome State Fault Refusal :=
  .next (s.fire c.val e.val x.val 0x18 planFrsq [])

/-- FEXP2 (R182): `planFexp2`. -/
def execFexp2 (c : ClusterId) (e : Fin 32) (x : Fin 8) (s : State) : Host.Outcome State Fault Refusal :=
  .next (s.fire c.val e.val x.val 0x19 planFexp2 [])

/-- FLOG2 (R182): `planFlog2`. -/
def execFlog2 (c : ClusterId) (e : Fin 32) (x : Fin 8) (s : State) : Host.Outcome State Fault Refusal :=
  .next (s.fire c.val e.val x.val 0x1A planFlog2 [])

/-- ACC (R180, R181): `planAcc`. -/
def execAccOp (c : ClusterId) (e : Fin 32) (x : Fin 8) (s : State) : Host.Outcome State Fault Refusal :=
  .next (s.fire c.val e.val x.val 0x1B planAcc [])

/-- VADD (R181): `planVadd`. -/
def execVadd (c : ClusterId) (e : Fin 32) (x : Fin 8) (s : State) : Host.Outcome State Fault Refusal :=
  .next (s.fire c.val e.val x.val 0x1C planVadd [])

/-- VMUL (R181): `planVmul`. -/
def execVmul (c : ClusterId) (e : Fin 32) (x : Fin 8) (s : State) : Host.Outcome State Fault Refusal :=
  .next (s.fire c.val e.val x.val 0x1D planVmul [])

/-- VFMA (R181): `planVfma`. -/
def execVfma (c : ClusterId) (e : Fin 32) (x : Fin 8) (s : State) : Host.Outcome State Fault Refusal :=
  .next (s.fire c.val e.val x.val 0x1E planVfma [])

/-- VMAX (R181): `planVmax`. -/
def execVmax (c : ClusterId) (e : Fin 32) (x : Fin 8) (s : State) : Host.Outcome State Fault Refusal :=
  .next (s.fire c.val e.val x.val 0x1F planVmax [])

/-- VMIN (R181): `planVmin`. -/
def execVmin (c : ClusterId) (e : Fin 32) (x : Fin 8) (s : State) : Host.Outcome State Fault Refusal :=
  .next (s.fire c.val e.val x.val 0x20 planVmin [])

/-- VDOT (R180, R181): `planVdot`. -/
def execVdot (c : ClusterId) (e : Fin 32) (x : Fin 8) (s : State) : Host.Outcome State Fault Refusal :=
  .next (s.fire c.val e.val x.val 0x21 planVdot [])

/-- CVT (R183): `planCvt`. -/
def execCvt (c : ClusterId) (e : Fin 32) (x : Fin 8) (s : State) : Host.Outcome State Fault Refusal :=
  .next (s.fire c.val e.val x.val 0x22 planCvt [])

/-- CVTMX (R190): `planCvtmx`. -/
def execCvtmx (c : ClusterId) (e : Fin 32) (x : Fin 8) (s : State) : Host.Outcome State Fault Refusal :=
  .next (s.fire c.val e.val x.val 0x23 planCvtmx [])

/-- ZDET (R181): `planZdet`. -/
def execZdet (c : ClusterId) (e : Fin 32) (x : Fin 8) (s : State) : Host.Outcome State Fault Refusal :=
  .next (s.fire c.val e.val x.val 0x24 planZdet [])

/-- POPC (R180): `planPopc`. -/
def execPopc (c : ClusterId) (e : Fin 32) (x : Fin 8) (s : State) : Host.Outcome State Fault Refusal :=
  .next (s.fire c.val e.val x.val 0x25 planPopc [])

/-- PENC (R187): `planPenc`. -/
def execPenc (c : ClusterId) (e : Fin 32) (x : Fin 8) (s : State) : Host.Outcome State Fault Refusal :=
  .next (s.fire c.val e.val x.val 0x26 planPenc [])

/-- LD (R188): `planLd`; `upsets` are the bytes of element memory whose parity fails at this use. -/
def execLd (c : ClusterId) (e : Fin 32) (x : Fin 8) (upsets : List Nat) (s : State) : Host.Outcome State Fault Refusal :=
  .next (s.fire c.val e.val x.val 0x28 planLd upsets)

/-- ST (R188): `planSt`. -/
def execSt (c : ClusterId) (e : Fin 32) (x : Fin 8) (s : State) : Host.Outcome State Fault Refusal :=
  .next (s.fire c.val e.val x.val 0x29 planSt [])

/-- NLD (R189): `planNld`. -/
def execNld (c : ClusterId) (e : Fin 32) (x : Fin 8) (s : State) : Host.Outcome State Fault Refusal :=
  .next (s.fire c.val e.val x.val 0x2A planNld [])

/-- NST (R189): `planNst`. -/
def execNst (c : ClusterId) (e : Fin 32) (x : Fin 8) (s : State) : Host.Outcome State Fault Refusal :=
  .next (s.fire c.val e.val x.val 0x2B planNst [])

/-- NACC (R189): `planNacc`. -/
def execNacc (c : ClusterId) (e : Fin 32) (x : Fin 8) (s : State) : Host.Outcome State Fault Refusal :=
  .next (s.fire c.val e.val x.val 0x2C planNacc [])

/-- SWITCH (R184): `planSwitch`. -/
def execSwitchOp (c : ClusterId) (e : Fin 32) (x : Fin 8) (s : State) : Host.Outcome State Fault Refusal :=
  .next (s.fire c.val e.val x.val 0x30 planSwitch [])

/-- MERGE (R184): `planMerge`. -/
def execMergeOp (c : ClusterId) (e : Fin 32) (x : Fin 8) (s : State) : Host.Outcome State Fault Refusal :=
  .next (s.fire c.val e.val x.val 0x31 planMerge [])

/-- MERGEA (R184): `planMergea`. -/
def execMergea (c : ClusterId) (e : Fin 32) (x : Fin 8) (s : State) : Host.Outcome State Fault Refusal :=
  .next (s.fire c.val e.val x.val 0x32 planMergea [])

/-- FILTER (R184): `planFilter`. -/
def execFilterOp (c : ClusterId) (e : Fin 32) (x : Fin 8) (s : State) : Host.Outcome State Fault Refusal :=
  .next (s.fire c.val e.val x.val 0x33 planFilter [])

/-- REPEAT (R184): `planRepeat`. -/
def execRepeatOp (c : ClusterId) (e : Fin 32) (x : Fin 8) (s : State) : Host.Outcome State Fault Refusal :=
  .next (s.fire c.val e.val x.val 0x34 planRepeat [])

/-- COUNT (R185): `planCount`. -/
def execCountOp (c : ClusterId) (e : Fin 32) (x : Fin 8) (s : State) : Host.Outcome State Fault Refusal :=
  .next (s.fire c.val e.val x.val 0x38 planCount [])

/-- NCOUNT (R186): `planNcount`. -/
def execNcount (c : ClusterId) (e : Fin 32) (x : Fin 8) (s : State) : Host.Outcome State Fault Refusal :=
  .next (s.fire c.val e.val x.val 0x39 planNcount [])

/-- MCMD (R191): `planMcmd`; `upsets` are the bytes of element memory whose parity fails at this use. -/
def execMcmd (c : ClusterId) (e : Fin 32) (x : Fin 8) (upsets : List Nat) (s : State) : Host.Outcome State Fault Refusal :=
  .next (s.fire c.val e.val x.val 0x3C planMcmd upsets)

/-- SEND (R192): `planSend`. -/
def execSend (c : ClusterId) (e : Fin 32) (x : Fin 8) (s : State) : Host.Outcome State Fault Refusal :=
  .next (s.fire c.val e.val x.val 0x3E planSend [])

/-- XFER (R193): `planXfer`; `upsets` are the bytes of element memory whose parity fails at this use. -/
def execXfer (c : ClusterId) (e : Fin 32) (x : Fin 8) (upsets : List Nat) (s : State) : Host.Outcome State Fault Refusal :=
  .next (s.fire c.val e.val x.val 0x3F planXfer upsets)

end Sys2Proof.Machine
end

