-- ==== Sys2Proof/Machine/ClusterMem.lean ====
section
/-! DEFINITION. Cluster memory (R223-R241): reads and writes of rows with parity and poison, the narrow port, deterministic staging and
the row-assembly buffers. Which of the requests that contend in one CCLK is granted first is not modelled beyond the order of the
commands (log entry 2); readings that the words leave open are log entry 13. -/

namespace Sys2Proof.Machine

/-! ## Rows (R223, R238) -/

/-- One row read is granted to a class (R241). -/
def Cluster.grantRd (c : Cluster) (cls row n : Nat) : Cluster :=
  (c.count (CM_GRANT_RD_CNT.nth cls) n).count (CM_BANK_BUSY_CNT.nth (row % 16)) n
/-- One row write is granted to a class (R241). -/
def Cluster.grantWr (c : Cluster) (cls row : Nat) : Cluster :=
  (c.count (CM_GRANT_WR_CNT.nth cls) 1).count (CM_BANK_BUSY_CNT.nth (row % 16)) 1

/-- A stored parity failure (R238): the row is poisoned, PERR is set, and the first since PERR was last clear is recorded. -/
def Cluster.parityFail (c : Cluster) (cls a : Nat) : Cluster :=
  let c1 := { c with rowPoison := NSet.add c.rowPoison (a / 512) }
  let c2 := if c.rd CM_EVENT_PERR = 0 then
      (((c1.wr CM_PERR_LOC_ROW (a / 512)).wr CM_PERR_LOC_BYTE (a % 512)).wr CM_PERR_LOC_CLASS cls).wr CM_PERR_LOC_VALID 1 else c1
  c2.wr CM_EVENT_PERR 1

/-- The bytes from a to a + n − 1 whose stored parity fails and that the reader uses, but for those of rows that are already poisoned, which cause no
parity failure (R357). -/
def Cluster.badBytes (c : Cluster) (a n : Nat) (use : Nat → Bool) : List Nat :=
  if NSet.meets c.memBad a n then
    ((List.range n).map (fun k => a + k)).filter (fun b => c.memBad.contains b && use b && !c.rowPoison.contains (b / 512))
  else []

/-- Bytes of cluster memory lose their parity; an operand of the commands that read names them. -/
def State.upset (s : State) (i : Nat) (bs : List Nat) : State :=
  if bs.isEmpty then s else s.modCluster i (fun c => { c with memBad := bs.foldl NSet.add c.memBad })

/-- Whether a row from a to a + n − 1 has its poison bit set. -/
def Cluster.rowsPoisoned (c : Cluster) (a n : Nat) : Bool :=
  NSet.meets c.rowPoison (a / 512) ((a + n - 1) / 512 - a / 512 + 1)

/-- The check of n bytes at address a by an agent that uses some of them (R238): whether they are delivered poisoned, and what that records. -/
def State.memCheck (s : State) (c cls a n : Nat) (use : Nat → Bool) : Bool × State :=
  let cl := s.cluster c
  let poison := cl.rowsPoisoned a n
  let cl1 := if poison then cl.wr CM_EVENT_POISON_RD 1 else cl
  match cl.badBytes a n use with
  | [] => (poison, s.setCluster c cl1)
  | b :: bs =>
    let cl2 := bs.foldl (fun k x => k.parityFail cls x) (cl1.parityFail cls b)
    (true, (s.setCluster c cl2).clusterFailure 1 c cl2.perrWord)

/-- A read of n bytes at address a for a requester class (R225, R238) that uses some of them: the bytes, whether they are poisoned, and the state. -/
def State.memReadUse (s : State) (c cls a n : Nat) (use : Nat → Bool) : (List Byte × Bool) × State :=
  let rows := (a + n - 1) / 512 - a / 512 + 1
  let s1 := (s.modCluster c (fun cl => (List.range rows).foldl (fun k i => k.grantRd cls (a / 512 + i) 1) cl)).debit c 3 rows
  let r := s1.memCheck c cls a n use
  ((Mem.bytes (s.cluster c).mem a n, r.1), r.2)

/-- A read of n bytes that uses all of them. -/
def State.memRead (s : State) (c cls a n : Nat) : (List Byte × Bool) × State := s.memReadUse c cls a n (fun _ => true)

/-- One row write under a byte mask (R223, R238): a poisoned write sets the row's poison bit, an unmasked clean one clears it. -/
def Cluster.writeRow (c : Cluster) (cls a : Nat) (bs : List Byte) (mask : List Bool) (poison : Bool) : Cluster :=
  let row := a / 512
  let full := a % 512 == 0 && bs.length == 512 && mask.all (fun b => b) && mask.length == 512
  let hit := (List.range bs.length).filterMap (fun k => if mask.getD k false then some (a + k) else none)
  { (c.grantWr cls row) with
    mem := Mem.writeMask c.mem a bs mask
    memBad := c.memBad.filter (fun b => !hit.contains b)
    rowPoison := if poison then NSet.add c.rowPoison row else if full then NSet.del c.rowPoison row else c.rowPoison }

/-- A row write that is granted, debited as class 4. -/
def State.rowWrite (s : State) (i cls a : Nat) (bs : List Byte) (mask : List Bool) (poison : Bool) : State :=
  (s.modCluster i (fun c => c.writeRow cls a bs mask poison)).debit i 4 1

/-- The lock of a row is released (R232): the accumulate-writes in flight on it are written back. -/
def State.unlockRow (s : State) (i row : Nat) : State :=
  let mine := (s.cluster i).accs.filter (fun a => a.addr / 512 == row)
  if mine.isEmpty then s
  else mine.foldl (fun t a => t.rowWrite i 6 a.addr a.data a.mask a.poison)
    (s.modCluster i (fun c => { c with accs := c.accs.filter (fun a => a.addr / 512 != row) }))

/-- A row write of cluster i. While an accumulate-write holds the lock of the row, no write of any class is granted (R226, R232): the write waits for the
accumulate's own, which comes first. -/
def State.memWrite (s : State) (i cls a : Nat) (bs : List Byte) (mask : List Bool) (poison : Bool) : State :=
  (s.unlockRow i (a / 512)).rowWrite i cls a bs mask poison

/-- Contiguous bytes written row by row. -/
def State.memWriteAll (s : State) (i cls : Nat) : Nat → List Byte → Bool → Nat → State
  | _, [], _, _ => s
  | _, _, _, 0 => s
  | a, b :: bs, poison, fuel + 1 =>
    let n := 512 - a % 512
    let chunk := (b :: bs).take n
    State.memWriteAll (s.memWrite i cls a chunk (chunk.map (fun _ => true)) poison) i cls (a + n) ((b :: bs).drop n) poison fuel

/-! ## Add-into (R166, R232) -/

/-- One lane added: 2 INT32, 3 FP32, 4 BF16. -/
def addLane (kind : Nat) (a b : List Byte) : List Byte :=
  let x := leNat a; let y := leNat b
  if kind = 2 then leBytes 4 (x + y)
  else if kind = 3 then leBytes 4 (fadd (BitVec.ofNat 32 x) (BitVec.ofNat 32 y)).toNat
  else leBytes 2 (encodeEl .rne false 9 (fsum [decodeEl 9 x, decodeEl 9 y]))

/-- The bytes of a lane. -/
def laneWidth (kind : Nat) : Nat := if kind = 4 then 2 else 4

/-- A contribution added into bytes, lane by lane where the mask's first byte of the lane is set. -/
def addInto (kind : Nat) : Nat → List Byte → List Byte → List Bool → List Byte
  | 0, old, _, _ => old
  | fuel + 1, old, new, mask =>
    let w := laneWidth kind
    if old.isEmpty then []
    else (if mask.headD false then addLane kind (old.take w) (new.take w) else old.take w) ++
      addInto kind fuel (old.drop w) (new.drop w) (mask.drop w)

/-! ## Deterministic staging (R234, R235) -/

/-- The order of staged entries: block address, then key (R235). -/
def DEntry.rank (d : DEntry) : List Nat := [d.addr, d.key.modId, d.key.y, d.key.x, d.key.ep, d.key.seq]

/-- Lexicographic order of equally long lists. -/
def lexLt : List Nat → List Nat → Bool
  | a :: as, b :: bs => if a < b then true else if b < a then false else lexLt as bs
  | _, _ => false

/-- An entry in its place; entries of equal rank keep their order of arrival. -/
def insertEntry (d : DEntry) : List DEntry → List DEntry
  | [] => [d]
  | e :: t => if lexLt d.rank e.rank then d :: e :: t else e :: insertEntry d t

/-- Contributions of one block, in order, added into it and written once. A block of the deep store is not reached from here. -/
def State.applyBlock (s : State) (c addr : Nat) (ds : List DEntry) : State :=
  let old := (s.unlockRow c (addr / 512)).memRead c 6 addr 64
  let bs := ds.foldl (fun b d => addInto d.kind 64 b d.data d.mask) old.1.1
  let mask := (List.range 64).map (fun k => ds.any (fun d => d.mask.getD k false))
  old.2.memWrite c 6 addr bs mask (old.1.2 || ds.any (fun d => d.poison))

/-- A contribution is staged, or applied at once where the buffer is full (R234, R235). -/
def State.stage (s : State) (c : Nat) (d : DEntry) : State :=
  let cl := s.cluster c
  if cl.staging.length < 1024 then
    s.setCluster c ({ cl with staging := cl.staging ++ [d] }.peak CM_DACC_PEAK_PEAK (cl.staging.length + 1))
  else (s.setCluster c (cl.wr CM_EVENT_DACC_OVF 1)).applyBlock c d.addr [d]

/-! ## The narrow port (R228-R233) -/

/-- The bindings that name a queue of the narrow port (R228). -/
def Cluster.nqProducers (c : Cluster) (q : Nat) : List Nat :=
  (List.range 64).filter (fun k =>
    let x := c.elem (k / 2); let b := k % 2
    x.rd (EL_OBIND_VALID.nth b) == 1 && x.rd (EL_OBIND_DST_STOP.nth b) == 33 && x.rd (EL_OBIND_DST_QUEUE.nth b) == q)

/-- The tokens of queue q of the narrow port. -/
def Cluster.nq (c : Cluster) (q : Nat) : List NTok := SMap.get (fun _ => []) c.narrow q
/-- n tokens leave queue q and their credits return. -/
def Cluster.nqPop (c : Cluster) (q n : Nat) : Cluster :=
  ({ c with narrow := SMap.set (fun _ => []) c.narrow q ((c.nq q).drop n) }).creditsBack 33 q n

/-- Fields of a request token (R189). -/
def reqAddr (w : W64) : Nat := w.toNat % 2 ^ 21 / 8 * 8
def reqBe (w : W64) : Nat := w.toNat / 2 ^ 21 % 256
def reqKind (w : W64) : Nat := w.toNat / 2 ^ 29 % 8
def reqElem (w : W64) : Nat := w.toNat / 2 ^ 32 % 32
def reqRq (w : W64) : Nat := w.toNat / 2 ^ 37 % 8
/-- Byte enables as a mask. -/
def beMask (be n : Nat) : List Bool := (List.range n).map (fun k => be.testBit k)

/-- Whether a row is locked by an accumulate in flight (R232). -/
def Cluster.locked (c : Cluster) (row : Nat) : Bool := c.accs.any (fun a => a.addr / 512 == row)

/-- The bytes of a request's word that its enables select. -/
def reqUses (w : W64) (b : Nat) : Bool := (reqBe w).testBit (b - reqAddr w)

/-- The head of queue q, if the port serves the queue: the cluster runs and the queue has no conflict (R228). -/
def State.nqHead (s : State) (c q : Nat) : Option NTok :=
  if s.runs c = true ∧ ((s.cluster c).nqProducers q).length ≤ 1 then ((s.cluster c).nq q).head? else none

/-- Whether an accumulate-write of a kind is staged (R234). -/
def Cluster.staged (c : Cluster) (kind : Nat) : Bool := c.rd CM_CTRL_DETERM == 1 && kind != 2

/-- Whether the head of queue q is eligible for a write grant or for a read grant, and nothing holds it back (R229, R232): a store and an accumulate-write
with its data token, its row not locked, and no more than 8 accumulates in flight. -/
def State.npEligible (s : State) (c q : Nat) (write : Bool) : Bool :=
  match s.nqHead c q with
  | none => false
  | some t =>
    let cl := s.cluster c; let w := t.tok.data; let k := reqKind w
    let pair := decide (2 ≤ (cl.nq q).length); let free := !cl.locked (reqAddr w / 512)
    if t.tok.tag ≠ .data then false
    else if k = 0 then !write
    else if k = 1 then write && pair && free
    else !write && decide (k ≤ 4) && pair && (t.tok.poison || cl.staged k || (free && decide (cl.accs.length < 8)))

/-- The queue that the port presents next for a read grant or for a write grant: round robin over the eligible heads (R229). -/
def State.npTurn (s : State) (c : Nat) (write : Bool) : Option Nat :=
  let p := if write then (s.cluster c).npWr else (s.cluster c).npRd
  ((List.range 8).map (fun k => (p + k) % 8)).find? (fun q => s.npEligible c q write)

/-- Queue q has been served. -/
def Cluster.npServed (c : Cluster) (q : Nat) (write : Bool) : Cluster :=
  if write then { c with npWr := (q + 1) % 8 } else { c with npRd := (q + 1) % 8 }

/-- A token at the head that carries no request, a LAST or MARK of an NST or NLD stream, leaves the queue (R178; log entry 13). -/
def State.nqSkip (s : State) (c q : Nat) (t : NTok) : State :=
  if t.tok.tag = .data then s else s.modCluster c (fun cl => cl.nqPop q 1)

/-- NP_LOAD (R230): the word at the head's address goes back to its response queue; bytes not enabled read as zero. -/
def execNpLoad (c : ClusterId) (q : Fin 8) (upsets : List Nat) (s : State) : Host.Outcome State Fault Refusal :=
  match s.nqHead c.val q.val with
  | none => .next s
  | some t =>
    let w := t.tok.data
    if t.tok.tag ≠ .data then .next (s.nqSkip c.val q.val t)
    else if reqKind w ≠ 0 ∨ s.npTurn c.val false ≠ some q.val then .next s
    else
      let s0 := s.upset c.val upsets
      let r := if t.tok.poison then (([], true), s0) else s0.memReadUse c.val 6 (reqAddr w) 8 (reqUses w)
      let v := leNat ((List.range 8).map (fun k => if (reqBe w).testBit k then r.1.1.getD k 0 else 0))
      let resp : Tok := ⟨BitVec.ofNat 64 v, .data, t.tok.epoch, r.1.2⟩
      let s1 := r.2.modCluster c.val (fun cl => ((cl.nqPop q.val 1).npServed q.val false).pushOut 33 (t.ring % 2) (reqElem w) (reqRq w) resp)
      .next (if t.tok.poison then s1 else s1.debit c.val 5 1)

/-- NP_STORE (R231): the enabled bytes are written with one masked row write. -/
def execNpStore (c : ClusterId) (q : Fin 8) (s : State) : Host.Outcome State Fault Refusal :=
  match s.nqHead c.val q.val with
  | none => .next s
  | some t =>
    let w := t.tok.data
    if t.tok.tag ≠ .data then .next (s.nqSkip c.val q.val t)
    else if reqKind w ≠ 1 ∨ s.npTurn c.val true ≠ some q.val then .next s
    else match ((s.cluster c.val).nq q.val).tail.head? with
      | none => .next s
      | some d =>
        let s1 := s.modCluster c.val (fun cl => (cl.nqPop q.val 2).npServed q.val true)
        if t.tok.poison then .next s1
        else .next ((s1.memWrite c.val 6 (reqAddr w) (leBytes 8 d.tok.data.toNat) (beMask (reqBe w) 8) d.tok.poison).debit c.val 5 1)

/-- An accumulate-write of a kind (R232, R234): staged under deterministic mode for FP32 and BF16; otherwise the row is read, the sum computed, and
the row locked until the write. -/
def State.npAdd (s : State) (c q kind : Nat) (upsets : List Nat) : State :=
  match s.nqHead c q with
  | none => s
  | some t =>
    let w := t.tok.data
    let cl := s.cluster c
    if t.tok.tag ≠ .data then s.nqSkip c q t
    else if reqKind w ≠ kind ∨ s.npTurn c false ≠ some q then s
    else match (cl.nq q).tail.head? with
      | none => s
      | some d =>
        let e := reqElem w
        let pop := fun (k : Cluster) => ((k.nqPop q 2).npServed q false).modElem e (fun x => { x with seq := (x.seq + 1) % 65536 })
        if t.tok.poison then s.modCluster c pop
        else if cl.staged kind then
          let off := reqAddr w % 64
          let d : DEntry := ⟨reqAddr w / 64 * 64,
            (List.range 64).map (fun k => decide (off ≤ k) && decide (k < off + 8) && (reqBe w).testBit (k - off)), kind,
            ⟨s.modId, cy c, cx c, e, (cl.elem e).seq⟩,
            List.replicate off 0 ++ leBytes 8 d.tok.data.toNat ++ List.replicate (56 - off) 0, d.tok.poison⟩
          ((s.modCluster c pop).stage c d).debit c 5 2
        else
          let r := (s.upset c upsets).memReadUse c 6 (reqAddr w) 8 (reqUses w)
          let mask := beMask (reqBe w) 8
          let bs := addInto kind 8 r.1.1 (leBytes 8 d.tok.data.toNat) mask
          (r.2.modCluster c (fun k => let k1 := pop k
            { k1 with accs := k1.accs ++ [⟨q, reqAddr w, bs, mask, r.1.2 || d.tok.poison⟩] })).debit c 5 2

/-- NP_ADD_INT32 (R232). -/
def execNpAddInt32 (c : ClusterId) (q : Fin 8) (upsets : List Nat) (s : State) : Host.Outcome State Fault Refusal :=
  .next (s.npAdd c.val q.val 2 upsets)
/-- NP_ADD_FP32 (R232, R234). -/
def execNpAddFp32 (c : ClusterId) (q : Fin 8) (upsets : List Nat) (s : State) : Host.Outcome State Fault Refusal :=
  .next (s.npAdd c.val q.val 3 upsets)
/-- NP_ADD_BF16 (R232, R234). -/
def execNpAddBf16 (c : ClusterId) (q : Fin 8) (upsets : List Nat) (s : State) : Host.Outcome State Fault Refusal :=
  .next (s.npAdd c.val q.val 4 upsets)

/-- NP_ACC_WRITEBACK (R232): the sum is written back under the same mask and the lock is released. -/
def execNpAccWriteback (c : ClusterId) (q : Fin 8) (s : State) : Host.Outcome State Fault Refusal :=
  if s.runs c.val then
    match takeFirst (fun (a : NAcc) => a.queue == q.val) (s.cluster c.val).accs with
    | none => .next s
    | some (a, rest) => .next ((s.modCluster c.val (fun cl => { cl with accs := rest })).memWrite c.val 6 a.addr a.data a.mask a.poison)
  else .next s

/-- A write of CM_CTRL (R241, R456): only while the region is drained; URGENT below 8 is ignored. -/
def State.cmCtrl (s : State) (c : Nat) (v : W32) : State :=
  let cl := s.cluster c
  if (s.region (regionOf c)).drainedState = false then s.setCluster c (cl.wr CM_EVENT_CFG_ERR 1)
  else
    let u := CM_CTRL_URGENT.of v
    let c1 := cl.wr CM_CTRL_DETERM (CM_CTRL_DETERM.of v)
    s.setCluster c (if u < 8 then c1.wr CM_EVENT_CFG_ERR 1 else c1.wr CM_CTRL_URGENT u)

/-- CM_CTRL_WRITE (R241, R456); a write to a cluster whose deliveries are suppressed does not reach it (R33, R304). -/
def execCmCtrlWrite (c : ClusterId) (v : W32) (s : State) : Host.Outcome State Fault Refusal :=
  .next (if s.suppressed c.val then s else s.cmCtrl c.val v)

/-! ## Row-assembly buffers (R236, R237) -/

/-- The 512 bytes of a buffer and their mask; an invalid granule is zero and masked off. -/
def AsmBuf.row512 (b : AsmBuf) : List Byte × List Bool :=
  (b.grans.flatMap (fun g => match g with | some (bs, _, _) => bs | none => List.replicate 64 0),
   b.grans.flatMap (fun g => match g with | some (_, m, _) => m | none => List.replicate 64 false))

/-- A buffer is written (R236, R237): one row write masked to its valid granules, or for an add-into buffer the row read, added and written. -/
def State.asmWrite (s : State) (c : Nat) (b : AsmBuf) : State :=
  let full := b.grans.all (fun g => g.isSome)
  let s1 := if full then s else s.modCluster c (fun cl => cl.count CM_ASM_EVICT_CNT 1)
  let poison := b.grans.any (fun g => match g with | some (_, _, p) => p | none => false)
  let r := b.row512
  if b.kind = 0 then s1.memWrite c b.cls (512 * b.row) r.1 r.2 poison
  else
    let old := (s1.unlockRow c b.row).memRead c b.cls (512 * b.row) 512
    old.2.memWrite c b.cls (512 * b.row) (addInto b.kind 512 old.1.1 r.1 r.2) r.2 (poison || old.1.2)

/-- Buffer i leaves the list and is written. -/
def State.asmFlush (s : State) (c i : Nat) : State :=
  match (s.cluster c).asm[i]? with
  | none => s
  | some b => (s.modCluster c (fun cl => { cl with asm := cl.asm.eraseIdx i })).asmWrite c b

/-- Every buffer of a transfer is written (R236, R237). -/
def State.asmFlushXfer (s : State) (c xfer : Nat) : State :=
  let mine := (s.cluster c).asm.filter (fun b => b.xfers.contains xfer)
  mine.foldl (fun t b => t.asmWrite c b) (s.modCluster c (fun cl => { cl with asm := cl.asm.filter (fun b => !b.xfers.contains xfer) }))

/-- Bytes laid over others where their enables are set. -/
def overlay : List Byte → List Byte → List Bool → List Byte
  | o :: os, n :: ns, e :: es => (if e then n else o) :: overlay os ns es
  | os, _, _ => os

/-- A buffer with a payload in granule g: the last payload wins; add-into adds into a granule that is already valid (R236, R237). A granule of which a poisoned
payload's bytes are left stays poisoned. -/
def AsmBuf.put (b : AsmBuf) (g : Nat) (bs : List Byte) (mask : List Bool) (poison : Bool) : AsmBuf :=
  { b with grans := modAt (fun o => match o with
      | some (old, m, p) =>
        if b.kind = 0 then some (overlay old bs mask, (m.zip mask).map (fun q => q.1 || q.2), poison || (p && (m.zip mask).any (fun q => q.1 && !q.2)))
        else some (addInto b.kind 64 old bs mask, (m.zip mask).map (fun q => q.1 || q.2), p || poison)
      | none => some (overlay (List.replicate 64 0) bs mask, mask, poison)) b.grans g }

/-- An inbound payload for a granule of cluster memory (R236): it merges into the buffer of its row, or takes a free buffer; where none is free the
one whose last payload is oldest is written. -/
def State.asmPut (s : State) (c addr xfer kind cls : Nat) (bs : List Byte) (mask : List Bool) (poison : Bool) : State :=
  let row := addr / 512; let g := addr % 512 / 64
  let cl := s.cluster c
  let fresh : AsmBuf := ⟨row, [xfer], List.replicate 8 none, kind, cls⟩
  match takeFirst (fun b => b.row == row) cl.asm with
  | some (b, rest) =>
    if b.kind = kind then s.setCluster c { cl with asm := rest ++ [{ b with xfers := if b.xfers.contains xfer then b.xfers else b.xfers ++ [xfer], cls := cls }.put g bs mask poison] }
    else ((s.setCluster c { cl with asm := rest }).asmWrite c b).modCluster c (fun k => { k with asm := k.asm ++ [fresh.put g bs mask poison] })
  | none =>
    (if 8 ≤ cl.asm.length then s.asmFlush c 0 else s).modCluster c (fun k => { k with asm := k.asm ++ [fresh.put g bs mask poison] })

/-- ASSEMBLY_WRITE (R236): buffer i is written once all eight granules are valid. -/
def execAssemblyWrite (c : ClusterRead) (i : Fin 8) (s : State) : Host.Outcome State Fault Refusal :=
  let k := c.cluster.val
  match (s.cluster k).asm[i.val]? with
  | some b => .next (if s.runs k = true ∧ b.grans.all (fun g => g.isSome) = true then (s.upset k c.upsets).asmFlush k i.val else s)
  | none => .next s

/-- ASSEMBLY_IDLE_FLUSH (R236): buffer i has had no payload for 64 CCLK. -/
def execAssemblyIdleFlush (c : ClusterRead) (i : Fin 8) (s : State) : Host.Outcome State Fault Refusal :=
  let k := c.cluster.val
  .next (if s.runs k then (s.upset k c.upsets).asmFlush k i.val else s)

end Sys2Proof.Machine
end

