-- ==== Sys2Proof/Machine/Plates.lean ====
section
/-! DEFINITION. Strip order and plates (R122, R123, R242-R253): packing of elements, the writing of strips and of the header row, and
the checks that a reader makes. -/

namespace Sys2Proof.Machine

/-! ## Strip order (R122, R123, R151) -/

/-- Bytes of a 16 × 16 block of a format (R122). -/
def blockBytes (f : Nat) : Nat := fmtBits f * 32
/-- D, the rows of a strip's slot (R123, R243). -/
def slotRows (rows f : Nat) : Nat := ceilDiv (ceilDiv rows 16 * blockBytes f) 512
/-- The extent of a raw operand in strip order (R123). -/
def rawExtent (rows cols f : Nat) : Nat := ceilDiv cols 16 * slotRows rows f
/-- The extent of a plate (R243). -/
def plateExtent (rows cols f : Nat) : Nat := 1 + rawExtent rows cols f

/-- The first `count` chunks of n items of a list. -/
def chunksOf {α : Type} (n : Nat) : Nat → List α → List (List α)
  | 0, _ => []
  | c + 1, l => l.take n :: chunksOf n c (l.drop n)

/-- Bytes of a packing group (R151). -/
def packBytes (f : Nat) : Nat := if fmtBits f = 6 then 3 else if fmtBits f = 4 then 1 else fmtBits f / 8
/-- Elements of a packing group (R151). -/
def packElems (f : Nat) : Nat := if fmtBits f = 6 then 4 else if fmtBits f = 4 then 2 else 1

/-- n element codes from their packed bytes (R151, R247). -/
def unpackEls (f n : Nat) (bs : List Byte) : List Nat :=
  ((chunksOf (packBytes f) (ceilDiv n (packElems f)) bs).flatMap (fun g =>
    (List.range (packElems f)).map (fun i => leNat g / 2 ^ (fmtBits f * i) % 2 ^ fmtBits f))).take n

/-- The packed bytes of element codes, padded with zero bits to a whole group (R151, R247). -/
def packEls (f : Nat) (cs : List Nat) : List Byte :=
  (chunksOf (packElems f) (ceilDiv cs.length (packElems f)) cs).flatMap (fun g =>
    leBytes (packBytes f) (g.foldr (fun c a => c % 2 ^ fmtBits f + a * 2 ^ fmtBits f) 0))

/-- Whether an encoding is zero (R242). -/
def codeZero (f c : Nat) : Bool := (decodeEl f c).isZero
/-- Whether an encoding is an infinity or a NaN. -/
def codeSpecial (f c : Nat) : Bool := let v := decodeEl f c; v.isNan || v.isInf true || v.isInf false

/-! ## Writing a strip (R246-R250) -/

/-- H, the bytes of a compressed strip's header and level-1 bitmap (R246). -/
def stripHead (rb : Nat) : Nat := 32 * ceilDiv (8 + 8 * ceilDiv rb 64) 32

/-- A list of bits as little-endian bytes. -/
def bitBytes (n : Nat) (bs : List Bool) : List Byte := leBytes n (bs.foldr (fun b a => (if b then 1 else 0) + 2 * a) 0)

/-- A strip ready to be written: its bytes, the rows they take, whether it is compressed, and what the header row counts of it. -/
structure StripOut where
  bytes : List Byte
  rows : Nat
  comp : Bool
  nnz : Nat
  present : Nat
  size : Nat
  finite : Bool
  deriving DecidableEq, Repr

/-- A strip of `rb` blocks from its element codes in block order, compressed where that is enabled and takes fewer rows than D (R246, R247,
R249). -/
def stripOut (f rb : Nat) (compress : Bool) (codes : List Nat) : StripOut :=
  let blocks := chunksOf 256 rb codes
  let live := fun (c : Nat) => !codeZero f c
  let present := blocks.map (fun b => b.any live)
  let nnz := (codes.filter live).length
  let npres := (present.filter id).length
  let d := ceilDiv (rb * blockBytes f) 512
  let vals := blocks.flatMap (fun b => packEls f (b.filter live))
  let size := stripHead rb + 32 * npres + vals.length
  let used := ceilDiv size 512
  let finite := !(codes.any (codeSpecial f))
  if compress ∧ used < d then
    let head := leBytes 2 npres ++ leBytes 2 used ++ leBytes 4 vals.length ++ bitBytes (8 * ceilDiv rb 64) present
    let pad := List.replicate (stripHead rb - head.length) (0 : Byte)
    let recs := blocks.flatMap (fun b => if b.any live then bitBytes 32 (b.map live) else [])
    ⟨head ++ pad ++ recs ++ vals, used, true, nnz, npres, size, finite⟩
  else ⟨blocks.flatMap (packEls f), d, false, nnz, npres, d * 512, finite⟩

/-- The header row of a plate (R244, R245): 512 bytes. -/
def plateHeader (f rows cols : Nat) (p : PlateSum) : List Byte :=
  let cs := (p.forms.filter id).length
  let w0 := 1 + f % 16 * 2 ^ 8 + (if cs = 0 then 2 ^ 12 else 0) + (if p.finite then 2 ^ 13 else 0)
  let ws := [w0, rows % 65536 + cols % 65536 * 65536, slotRows rows f, p.nnz, p.present, p.bytes, cs] ++ List.replicate 9 0
  ws.flatMap (leBytes 4) ++ bitBytes 64 p.forms ++ List.replicate 384 0

/-- What the header counts once a strip is written. -/
def PlateSum.add (p : PlateSum) (o : StripOut) : PlateSum :=
  ⟨p.forms ++ [o.comp], p.nnz + o.nnz, p.present + o.present, p.bytes + o.size, p.finite && o.finite, p.clash⟩

/-- n bytes that the manual leaves open: what lies behind a strip's last byte in the last row that it writes (log entry 14). -/
def State.freeBytes (s : State) (n : Nat) : List Byte × State :=
  ((List.range n).map (fun k => (Config.freeWord (s.free + k)).setWidth 8), { s with free := s.free + n })

/-- A strip is written to its slot, row by row, and counted (R249, R262); every row poisoned where `poison` says so. -/
def State.writeStrip (s : State) (i cls row : Nat) (o : StripOut) (d cells : Nat) (poison : Bool) : State :=
  let tail := s.freeBytes (512 * o.rows - o.bytes.length)
  let s1 := tail.2.memWriteAll i cls (512 * row) (o.bytes ++ tail.1) poison (o.rows + 1)
  s1.modCluster i (fun c =>
    let c1 := if o.comp then c.count PLT_CNT_CSTRIP_CNT 1 else c.count PLT_CNT_DSTRIP_CNT 1
    (((c1.count PLT_CNT_ROWS_CNT o.rows).count PLT_CNT_SAVED_CNT (d - o.rows)).count PLT_CNT_NNZ_CNT o.nnz).count PLT_CNT_ZERO_CNT
      (cells - o.nnz))

/-- Row 0 of a plate is written last, unmasked (R249). -/
def State.writeHeader (s : State) (i cls row f rows cols : Nat) (p : PlateSum) : State :=
  (s.memWriteAll i cls (512 * row) (plateHeader f rows cols p) false 2).modCluster i (fun c => c.count PLT_CNT_ROWS_CNT 1)

/-! ## Plates whose contents are not defined (R129, R250) -/

def Cluster.tabFmt (c : Cluster) (t : Nat) : Nat := c.rd (TU_TAB_CFG_FMT.nth t)
def Cluster.tabGran (c : Cluster) (t : Nat) : Nat := c.rd (TU_TAB_CFG_GRAN.nth t)

/-- E, the elements of a table row (R273). -/
def Cluster.tabElems (c : Cluster) (t : Nat) : Nat := 64 * c.tabGran t / (fmtBits (c.tabFmt t) / 8)

/-- Whether two runs of rows, each a first row and a number of rows, share one. -/
def rowsMeet (a b : Nat × Nat) : Bool := decide (a.1 < b.1 + b.2) && decide (b.1 < a.1 + a.2)

/-- The rows of the plate that a BAG job writes (R243, R284). -/
def Cluster.bagPlate (c : Cluster) (j : TuJob) : Nat × Nat :=
  (bitsOf j.w1 16 12, plateExtent (bitsOf j.w1 0 13) (c.tabElems (bitsOf j.w0 4 4)) (bitsOf j.w0 18 4))

/-- The plates that the BAG jobs in progress write, but for the job of one serial number (R250). -/
def Cluster.bagPlates (c : Cluster) (but : Option Nat) : List (Nat × Nat) :=
  (c.tu.jobs.filter (fun j => bitsOf j.w0 0 4 == 1 && !j.bags.isEmpty && !j.stale && some j.serial != but)).map c.bagPlate

/-- `n` codes of a format that the manual leaves open (log entry 29), and the state after them. -/
def State.freeCodes (s : State) (f n : Nat) : List Nat × State :=
  ((List.range n).map (fun k => (Config.freeWord (s.free + k)).toNat % 2 ^ fmtBits f), { s with free := s.free + n })

/-- A plate whose contents are not defined is complete: every byte of its extent is a free value, and so are its BYTES and whether it is dense (R129,
R250; log entry 29). -/
def State.openPlate (s : State) (i : Nat) (rows : Nat × Nat) (p : PlateSum) : PlateSum × State :=
  let b := s.freeBytes (512 * rows.2)
  let w := Config.freeWord b.2.free
  ({ p with bytes := w.toNat % 2 ^ 32, forms := [w.getLsbD 32] },
   { b.2.modCluster i (fun c => { c with mem := Mem.write c.mem (512 * rows.1) b.1 }) with free := b.2.free + 1 })

/-! ## Reading plates (R251, R252) -/

/-- Word k of a header row. -/
def hdrWord (row0 : List Byte) (k : Nat) : Nat := leNat (sliceOf row0 (4 * k) 4)
/-- The form map as a number (R245). -/
def hdrForms (row0 : List Byte) : Nat := leNat (sliceOf row0 64 64)
/-- ROWS, COLS, SLOT and FINITE of a header row (R244). -/
def hdrRows (row0 : List Byte) : Nat := hdrWord row0 1 % 65536
def hdrCols (row0 : List Byte) : Nat := hdrWord row0 1 / 65536
def hdrSlot (row0 : List Byte) : Nat := hdrWord row0 2 % 1024
def hdrFinite (row0 : List Byte) : Bool := (hdrWord row0 0).testBit 13
/-- Whether strip s is compressed. -/
def hdrComp (row0 : List Byte) (s : Nat) : Bool := (hdrForms row0).testBit s

/-- Whether a header row passes the format checks of R251 for element format f. -/
def hdrFormatOk (f : Nat) (row0 : List Byte) : Bool :=
  let w0 := hdrWord row0 0
  let cb := ceilDiv (hdrCols row0) 16
  let cs := ((List.range 512).filter (hdrComp row0)).length
  w0 % 256 == 1 && w0 / 2 ^ 8 % 16 == f && decide (w0 < 2 ^ 14) &&
  hdrWord row0 2 == slotRows (hdrRows row0) f && decide (hdrWord row0 2 < 1024) && (w0.testBit 12 == (hdrForms row0 == 0)) &&
  hdrWord row0 6 == cs && decide (hdrForms row0 < 2 ^ cb) &&
  (sliceOf row0 28 36).all (fun b => b == 0) && (sliceOf row0 128 384).all (fun b => b == 0)

/-- The check of a header for a matrix of rb block rows and cb strips (R251): 0, 3 BAD_FMT or 2 BAD_DIM. -/
def hdrStatus (f rb cb : Nat) (row0 : List Byte) : Nat :=
  if hdrFormatOk f row0 = false then 3
  else if ceilDiv (hdrRows row0) 16 ≠ rb ∨ ceilDiv (hdrCols row0) 16 ≠ cb then 2 else 0

/-- The blocks of a compressed strip: from its level-2 records and the values, each block's 256 codes, absent blocks zero; with the bytes
of values consumed (R246, R247). -/
def expandBlocks (f : Nat) : List Bool → List (List Bool) → List Byte → List Nat × Nat
  | [], _, _ => ([], 0)
  | false :: ps, rs, vs => let r := expandBlocks f ps rs vs; (List.replicate 256 0 ++ r.1, r.2)
  | true :: ps, rs, vs =>
    let rec0 := rs.headD []
    let n := (rec0.filter id).length
    let len := packBytes f * ceilDiv n (packElems f)
    let codes := unpackEls f n (vs.take len)
    let placed := (rec0.foldl (fun (a : List Nat × List Nat) b => if b then (a.1 ++ [a.2.headD 0], a.2.tail) else (a.1 ++ [0], a.2)) ([], codes)).1
    let r := expandBlocks f ps rs.tail (vs.drop len)
    (placed ++ r.1, len + r.2)

/-- A strip read from its slot: element codes in block order, whether any record or bitmap says that block row g holds a non-zero element
at column c (R255), and the rows it takes. -/
structure StripIn where
  codes : List Nat
  comp : Bool
  rows : Nat
  masks : List (List Bool)
  deriving DecidableEq, Repr

/-- A dense strip from its bytes (R246). -/
def denseStrip (f rb : Nat) (bs : List Byte) : StripIn := ⟨unpackEls f (256 * rb) bs, false, ceilDiv (rb * blockBytes f) 512, []⟩

/-- A compressed strip from its slot's bytes, none where R252 fails it; USED is less than D (R246). -/
def compStrip (f rb : Nat) (bs : List Byte) : Option StripIn :=
  let npres := leNat (sliceOf bs 0 2); let used := leNat (sliceOf bs 2 2); let vb := leNat (sliceOf bs 4 4)
  let words := leNat (sliceOf bs 8 (8 * ceilDiv rb 64))
  let present := (List.range rb).map (fun g => words.testBit g)
  let h := stripHead rb
  let cnt := (present.filter id).length
  if npres ≠ cnt ∨ 2 ^ rb ≤ words ∨ used ≠ ceilDiv (h + 32 * npres + vb) 512 ∨ ceilDiv (rb * blockBytes f) 512 ≤ used then none
  else
    let recs := (chunksOf 32 cnt (bs.drop h)).map (fun r => (List.range 256).map (fun e => (leNat r).testBit e))
    let x := expandBlocks f present recs (bs.drop (h + 32 * cnt))
    if x.2 ≠ vb then none
    else some ⟨x.1, true, used, (present.foldl (fun (a : List (List Bool) × List (List Bool)) p =>
      if p then (a.1 ++ [a.2.headD []], a.2.tail) else (a.1 ++ [[]], a.2)) ([], recs)).1⟩

/-- The first failing plate is recorded (R251, R252, R262). -/
def Cluster.plateBad (c : Cluster) (row strip cls : Nat) (hdr : Bool) : Cluster :=
  let fresh := c.rd PLT_EVENT_BAD_HDR == 0 && c.rd PLT_EVENT_BAD_STRIP == 0
  let c1 := if fresh then
      ((((c.wr PLT_BAD_LOC_ROW row).wr PLT_BAD_LOC_STRIP strip).wr PLT_BAD_LOC_CLASS cls).wr PLT_BAD_LOC_HDR
        (if hdr then 1 else 0)).wr PLT_BAD_LOC_VALID 1 else c
  if hdr then c1.wr PLT_EVENT_BAD_HDR 1 else c1.wr PLT_EVENT_BAD_STRIP 1

end Sys2Proof.Machine
end

