-- ==== Sys2Proof/Machine/MatrixQueue.lean ====
section
/-! DEFINITION. The command ports, queue and completions of the matrix unit (R126-R131, R136, R457). Readings that the words leave open are
log entry 14. -/

namespace Sys2Proof.Machine

/-! ## Command words (R128) -/

/-- A field of a command word. -/
def MuCmd.fld (m : MuCmd) (word lo width : Nat) : Nat := bitsOf (m.words.getD word 0) lo width
/-- A flag of a command word. -/
def MuCmd.flag (m : MuCmd) (word bit : Nat) : Bool := bitOf (m.words.getD word 0) bit

def MuCmd.opc (m : MuCmd) : Nat := m.fld 0 0 4
def MuCmd.fa (m : MuCmd) : Nat := m.fld 0 4 4
def MuCmd.fb (m : MuCmd) : Nat := m.fld 0 8 4
def MuCmd.fc (m : MuCmd) : Nat := m.fld 0 12 4
def MuCmd.fr (m : MuCmd) : Nat := m.fld 0 16 4
def MuCmd.sparse (m : MuCmd) : Bool := m.flag 0 20
def MuCmd.determ (m : MuCmd) : Bool := m.flag 0 21
def MuCmd.chain (m : MuCmd) : Nat := m.fld 0 22 2
def MuCmd.fence (m : MuCmd) : Bool := m.flag 0 24
def MuCmd.aRaw (m : MuCmd) : Bool := m.flag 0 25
def MuCmd.rRaw (m : MuCmd) : Bool := m.flag 0 26
def MuCmd.bPres (m : MuCmd) : Bool := m.flag 0 27
def MuCmd.fin (m : MuCmd) : Bool := m.flag 0 28
def MuCmd.m (m : MuCmd) : Nat := m.fld 1 0 10
def MuCmd.n (m : MuCmd) : Nat := m.fld 1 16 10
def MuCmd.k (m : MuCmd) : Nat := m.fld 1 32 14
def MuCmd.scale (m : MuCmd) : Bool := m.flag 2 0
def MuCmd.bias (m : MuCmd) : Bool := m.flag 2 1
def MuCmd.act (m : MuCmd) : Nat := m.fld 2 2 3
def MuCmd.resid (m : MuCmd) : Bool := m.flag 2 5
def MuCmd.sr (m : MuCmd) : Bool := m.flag 2 6
def MuCmd.sat (m : MuCmd) : Bool := m.flag 2 7
def MuCmd.permute (m : MuCmd) : Bool := m.flag 2 8
def MuCmd.compress (m : MuCmd) : Bool := m.flag 2 9
def MuCmd.digest (m : MuCmd) : Bool := m.flag 2 10
def MuCmd.aRow (m : MuCmd) : Nat := m.fld 3 0 12
def MuCmd.bRow (m : MuCmd) : Nat := m.fld 3 16 12
def MuCmd.cRow (m : MuCmd) : Nat := m.fld 3 32 12
def MuCmd.rRow (m : MuCmd) : Nat := m.fld 3 48 12
def MuCmd.sbRow (m : MuCmd) : Nat := m.fld 4 0 12
def MuCmd.permRow (m : MuCmd) : Nat := m.fld 4 16 12
def MuCmd.spillRow (m : MuCmd) : Nat := m.fld 4 32 12
def MuCmd.bpRow (m : MuCmd) : Nat := m.fld 4 48 12
def MuCmd.aSrow (m : MuCmd) : Nat := m.fld 5 0 12
def MuCmd.bSrow (m : MuCmd) : Nat := m.fld 5 16 12
def MuCmd.step (m : MuCmd) : Nat := m.fld 6 0 32
def MuCmd.tag (m : MuCmd) : Nat := m.fld 7 0 16
def MuCmd.cbind (m : MuCmd) : Nat := m.fld 7 16 3
def MuCmd.cen (m : MuCmd) : Bool := m.flag 7 19

/-- T, the m-tiles of 32 rows (R132). -/
def MuCmd.tiles (m : MuCmd) : Nat := m.m / 32
/-- NB, the n-blocks (R132). -/
def MuCmd.blocks (m : MuCmd) : Nat := m.n / 16
/-- Whether the command runs the full epilogue: SINGLE or LAST (R136). -/
def MuCmd.epi (m : MuCmd) : Bool := m.chain == 0 || m.chain == 3
/-- Whether the command belongs to a spilled chain (R136). -/
def MuCmd.spilled (m : MuCmd) : Bool := m.chain != 0 && decide (16 < m.tiles * m.blocks)

/-- The operand group of a format (R122): 1 F8, 2 I8, 3 F4, 4 F16; 0 for none. -/
def fmtGroup (f : Nat) : Nat := if f ≤ 5 then 1 else if f = 6 then 3 else if f ≤ 8 then 2 else if f ≤ 10 then 4 else 0
/-- ks, the step K of a group (R120); 1 for a format of no group (R129). -/
def stepK (f : Nat) : Nat := if fmtGroup f = 1 ∨ fmtGroup f = 2 then 4 else if fmtGroup f = 3 then 8 else 1
/-- Whether C may have the format (R122). -/
def fmtC (f : Nat) : Bool := f == 0 || f == 1 || f == 8 || f == 9 || f == 10 || f == 11 || f == 12
/-- Whether a residual may have the format (R122). -/
def fmtResid (f : Nat) : Bool := f == 0 || f == 1 || f == 9 || f == 10 || f == 11

/-- Bits of command word w that R128 gives no field. -/
def muReserved (w : Nat) : Nat :=
  let used := if w = 0 then 0x1FFFFFFF else if w = 1 then 0x3FFF03FF03FF else if w = 2 then 0x7FF
    else if w = 3 ∨ w = 4 then 0x0FFF0FFF0FFF0FFF else if w = 5 then 0x0FFF0FFF else if w = 6 then 0xFFFFFFFF else 0xFFFFF
  2 ^ 64 - 1 - used

/-- The first row and the extent of every operand the command uses (R123, R124, R128, R129, R136-R138, R243, R256). -/
def MuCmd.extents (m : MuCmd) : List (Nat × Nat) :=
  let col := ceilDiv (4 * m.n) 512
  [(m.aRow, if m.aRaw then rawExtent m.m m.k m.fa else plateExtent m.m m.k m.fa), (m.bRow, rawExtent m.k m.n m.fb)] ++
  (if m.epi then
    [(m.cRow, plateExtent m.m m.n m.fc)] ++
    (if m.resid then [(m.rRow, if m.rRaw then rawExtent m.m m.n m.fr else plateExtent m.m m.n m.fr)] else []) ++
    (if m.bias then [(m.sbRow, 2 * col)] else if m.scale then [(m.sbRow, col)] else []) ++
    (if m.permute then [(m.permRow, ceilDiv (2 * m.m) 512)] else []) else []) ++
  (if fmtMx m.fa then [(m.aSrow, ceilDiv (m.k / 32 * m.m) 512)] else []) ++
  (if fmtMx m.fb then [(m.bSrow, ceilDiv (m.n * m.k / 32) 512)] else []) ++
  (if m.spilled then [(m.spillRow, rawExtent m.m m.n 11)] else []) ++
  (if m.sparse && m.bPres && !m.aRaw then [(m.bpRow, ceilDiv (m.blocks * ceilDiv m.k 16) 4096)] else [])

/-- The rows of C (R243). -/
def MuCmd.cPlate (m : MuCmd) : Nat × Nat := (m.cRow, plateExtent m.m m.n m.fc)

/-- Whether the rows of C meet those of A, B or the residual, which leaves the results undefined (R129). -/
def MuCmd.overlaps (m : MuCmd) : Bool :=
  m.epi && (rowsMeet m.cPlate (m.aRow, if m.aRaw then rawExtent m.m m.k m.fa else plateExtent m.m m.k m.fa) ||
    rowsMeet m.cPlate (m.bRow, rawExtent m.k m.n m.fb) ||
    (m.resid && rowsMeet m.cPlate (m.rRow, if m.rRaw then rawExtent m.m m.n m.fr else plateExtent m.m m.n m.fr)))

/-- Whether the folder runs no further n-block of a started command: the last one is issued, or it has stopped. -/
def MuRun.issued (r : MuRun) : Bool := r.stopped || decide (r.cmd.blocks ≤ r.next)
/-- Whether a started command has completed its writes. -/
def MuRun.done (r : MuRun) : Bool := r.epi.isEmpty && r.issued

/-- The plates that started commands have still to write (R250). -/
def Cluster.muPlates (c : Cluster) : List (Nat × Nat) := (c.mu.runs.filter (fun r => r.cmd.epi && !r.done)).map (fun r => r.cmd.cPlate)

/-- The status of the entry checks, in the order of R129; `open_` is the chain open at the entry (R136). A reserved bit of word 2 fails check 1 in a FIRST
or MIDDLE too, although R136 lets them ignore the word (DESIGN CHOICE, log entry 14). -/
def MuCmd.check (m : MuCmd) (open_ : Option Chain) : Nat :=
  let mx := fmtMx m.fa || fmtMx m.fb
  let ks := stepK m.fa
  if m.opc = 0 then 0
  else if m.opc ≠ 1 ∨ (List.range 8).any (fun w => (m.words.getD w 0).toNat &&& muReserved w != 0) = true then 1
  else if m.m < 32 ∨ 512 < m.m ∨ m.m % 32 ≠ 0 ∨ m.n < 16 ∨ 512 < m.n ∨ m.n % 16 ≠ 0 ∨ m.k < ks ∨ 8192 < m.k ∨ m.k % ks ≠ 0 ∨
      (mx = true ∧ m.k % 32 ≠ 0) then 2
  else if fmtGroup m.fa = 0 ∨ fmtGroup m.fb = 0 ∨ fmtGroup m.fa ≠ fmtGroup m.fb ∨ (m.epi && !fmtC m.fc) = true ∨
      (m.epi && m.resid && !fmtResid m.fr) = true then 3
  else if m.extents.any (fun e => decide (4096 < e.1 + e.2)) = true then 4
  else if (match open_ with
      | some c => m.chain == 0 || m.chain == 1 || c.m != m.m || c.n != m.n
      | none => m.chain == 2 || m.chain == 3) = true then 6
  else if m.sparse = true ∧ (32768 < m.k * 2 * fmtBits m.fb ∨ (fmtMx m.fb = true ∧ 4096 < m.k)) then 7
  else 0

/-! ## Lanes and the list fetcher (R126) -/

/-- Lane l. -/
def Mu.lane (u : Mu) (l : Nat) : Lane := SMap.get (fun _ => Lane.reset) u.lanes l
/-- The unit with lane l replaced. -/
def Mu.setLane (u : Mu) (l : Nat) (x : Lane) : Mu := { u with lanes := SMap.set (fun _ => Lane.reset) u.lanes l x }

/-- A malformed command is counted (R126). -/
def Cluster.malformed (c : Cluster) : Cluster := (c.countStart MU_CNT_MALFORM_CNT 1).wr MU_EVENT_MALFORMED 1
/-- A stale command is counted (R145). -/
def Cluster.muStale (c : Cluster) : Cluster := (c.countStart MU_CNT_STALE_CNT 1).wr MU_EVENT_STALE 1

/-- MU_LANE_TOKEN (R126): a lane takes its next token. A token of a stale epoch is discarded (R172, R208); a malformed command, which a token of another
epoch than its earlier words makes too, is discarded up to its LAST and its credits return. -/
def execMuLaneToken (c : ClusterId) (lane : Fin 8) (s : State) : Host.Outcome State Fault Refusal :=
  let cl := s.cluster c.val
  let x := cl.mu.lane lane.val
  let ep := (s.region (regionOf c.val)).rd TCK_RSCHED_EPOCH
  if s.runs c.val = false ∨ x.full = true then .next s
  else match x.toks with
    | [] => .next s
    | t :: rest =>
      let put := fun (k : Cluster) (y : Lane) => { k with mu := k.mu.setLane lane.val y }
      let drop := fun (k : Cluster) (n : Nat) => k.creditsBack 32 lane.val n
      let isLast := t.tag == .last
      let n := x.words.length
      let bad := (drop (put cl { Lane.reset with toks := rest, discard := !isLast }) (n + 1)).malformed
      if x.discard then .next (s.setCluster c.val (drop (put cl { x with toks := rest, discard := !isLast }) 1))
      else if n ≠ 0 ∧ t.epoch ≠ x.epoch then .next (s.setCluster c.val bad)
      else if t.epoch ≠ ep ∧ t.epoch ≠ (ep + 1) % 4 then
        let k := drop (put cl { x with toks := rest }) 1
        .next (s.setCluster c.val (if isLast then k.muStale else k))
      else if t.epoch ≠ ep then .next s
      else
        if (if n < 7 then t.tag == .data else isLast) = true then
          .next (s.setCluster c.val (put cl ⟨rest, x.words ++ [t.data], t.epoch, x.bad || t.poison, decide (n = 7), false⟩))
        else .next (s.setCluster c.val bad)

/-- The list fetcher starts at MU_LIST_BASE.ROW; ignored while ACTIVE (R126, R147). -/
def Cluster.listRun (c : Cluster) : Cluster :=
  if c.rd MU_LIST_CTRL_ACTIVE = 1 then c
  else { ((c.wr MU_LIST_CTRL_RUN 1).wr MU_LIST_CTRL_ACTIVE 1).wr MU_LIST_CTRL_NEXT (c.rd MU_LIST_BASE_ROW) with mu := { c.mu with list := [] } }

/-- The list fetcher stops and drops what it has fetched. -/
def Cluster.listStop (c : Cluster) : Cluster := { c.wr MU_LIST_CTRL_ACTIVE 0 with mu := { c.mu with list := [] } }

/-- The list fetcher at a slot-end drain (R201): it stops after the entry that it is fetching, the first that has not entered the queue. -/
def Cluster.listDrain (c : Cluster) : Cluster :=
  if c.rd MU_LIST_CTRL_ACTIVE = 1 then { c.wr MU_LIST_CTRL_ACTIVE 0 with mu := { c.mu with list := c.mu.list.take 1 } } else c

/-- MU_LIST_RUN (R126): MU_LIST_CTRL.RUN is set. -/
def execMuListRun (c : ClusterId) (s : State) : Host.Outcome State Fault Refusal :=
  .next (s.modCluster c.val Cluster.listRun)

/-- Whether the list fetcher is paused: a park drain, or the region parked (R201). -/
def Region.listPaused (g : Region) : Bool := g.rd TCK_RSCHED_PARKDRAIN == 1

/-- MU_LIST_FETCH (R126): one row of eight entries is read. A poisoned row is not entered; the fetcher stops. -/
def execMuListFetch (c : ClusterId) (upsets : List Nat) (s : State) : Host.Outcome State Fault Refusal :=
  let cl := s.cluster c.val
  if s.runs c.val = false ∨ cl.rd MU_LIST_CTRL_ACTIVE = 0 ∨ cl.mu.list ≠ [] ∨ (s.region (regionOf c.val)).listPaused = true then .next s
  else
    let r := (s.upset c.val upsets).memRead c.val 3 (512 * cl.rd MU_LIST_CTRL_NEXT) 512
    if r.1.2 then .next (r.2.modCluster c.val (fun k => k.listStop.wr MU_EVENT_POISON 1))
    else
      let es := (chunksOf 64 8 r.1.1).map (fun e => (chunksOf 8 8 e).map (fun w => BitVec.ofNat 64 (leNat w)))
      .next (r.2.modCluster c.val (fun k => { k with mu := { k.mu with list := es } }))

/-- The front entry leaves the list: END stops the fetcher, a row that is used up moves NEXT on, and the end of row 4,095 without END is
malformed (R126). After END, NEXT stays at the row of that entry, also where it was the row's last (DESIGN CHOICE, log entry 14). -/
def Cluster.listPop (c : Cluster) : Cluster :=
  match c.mu.list with
  | [] => c
  | e :: rest =>
    let c1 := { c with mu := { c.mu with list := rest } }
    let row := c.rd MU_LIST_CTRL_NEXT
    if c.rd MU_LIST_CTRL_ACTIVE = 0 then c1
    else if bitOf (e.headD 0) 28 then c1.listStop
    else if rest ≠ [] then c1
    else if row = 4095 then c1.listStop.malformed
    else c1.wr MU_LIST_CTRL_NEXT (row + 1)

/-! ## The queue (R127, R129) -/

/-- The next complete source at or after source k, going round lanes 0-7 and the list (8), unless that is paused (R127, R201). -/
def Mu.nextSource (u : Mu) (paused : Bool) : Nat → Nat → Option Nat
  | 0, _ => none
  | f + 1, k => if (if k < 8 then (u.lane k).full else !u.list.isEmpty && !paused) then some k else Mu.nextSource u paused f ((k + 1) % 9)

/-- A command enters the queue: its entry checks, and the chain that it opens or closes (R129, R136). A command with a poisoned word takes status
POISON (log entry 14). -/
def Mu.enter (u : Mu) (words : List W64) (epoch src : Nat) (bad : Bool) : Mu :=
  let m0 : MuCmd := ⟨words, epoch, src, 0, u.serial⟩
  let st := if bad then 8 else m0.check u.chain
  let ch := if st = 0 ∧ m0.opc = 1 ∧ m0.chain = 1 then some ⟨m0.m, m0.n, epoch⟩
    else if st = 0 ∧ m0.opc = 1 ∧ m0.chain = 3 then none else u.chain
  { u with queue := u.queue ++ [{ m0 with status := st }], serial := u.serial + 1, chain := ch, rr := (src + 1) % 9 }

/-- MU_CMD_ENQUEUE (R127): one complete command moves into the queue, sources in round-robin order; a lane's credits return. -/
def execMuCmdEnqueue (c : ClusterId) (s : State) : Host.Outcome State Fault Refusal :=
  let cl := s.cluster c.val
  if s.runs c.val = false ∨ 16 ≤ cl.mu.queue.length then .next s
  else match cl.mu.nextSource (s.region (regionOf c.val)).listPaused 9 cl.mu.rr with
    | none => .next s
    | some k =>
      if k < 8 then
        let x := cl.mu.lane k
        let u := (cl.mu.enter x.words x.epoch k x.bad).setLane k { Lane.reset with toks := x.toks }
        .next (s.setCluster c.val ({ cl with mu := u }.creditsBack 32 k 8))
      else
        let ep := (s.region (regionOf c.val)).rd TCK_RSCHED_EPOCH
        .next (s.setCluster c.val ({ cl with mu := cl.mu.enter (cl.mu.list.headD []) ep 8 false }.listPop))

/-! ## Completions (R131, R457) -/

/-- Whether a command belongs to a spilled chain (R136): a MATMUL of one that passed its entry checks. -/
def MuCmd.inSpilled (m : MuCmd) : Bool := m.opc == 1 && m.status == 0 && m.spilled

/-- Whether the completion queue has a free entry beside those that started commands will take (R130; log entry 14). -/
def Mu.cqFree (u : Mu) : Bool := decide (u.cq.length + u.runs.length < 16)

/-- A command completes (R131, R136, R457): the failure registers, the counts, and its completion, which is kept only with CEN set and dropped where
its binding is not valid. A stale command sends none (R145). -/
def State.muComplete (s : State) (i : Nat) (m : MuCmd) (status : Nat) (dense : Bool) (cbytes : Nat) : State :=
  let r := regionOf i
  let ep := (s.region r).rd TCK_RSCHED_EPOCH
  let s1 := s.modCluster i (fun c =>
    let c1 := if status = 0 then c.count MU_CNT_CMDS_CNT 1
      else
        let k := (((c.wr MU_STATUS_LAST_ERR status).wr MU_ERR_TAG_TAG m.tag).wr MU_ERR_TAG_SRC m.src).count MU_CNT_REJ_CNT 1
        if status = 8 then k.wr MU_EVENT_POISON 1 else k.wr MU_EVENT_CMD_ERR 1
    if m.cen = false ∨ m.epoch ≠ ep then c1
    else if c1.rd (MU_CBIND_VALID.nth m.cbind) = 0 then c1.count MU_CNT_REJ_CNT 1
    else
      let d : MuDone := ⟨m.tag, status, dense, m.inSpilled, cbytes, m.cbind, m.epoch, m.seq⟩
      { c1 with mu := { c1.mu with cq := c1.mu.cq ++ [d] } })
  if status = 0 then s1.modRegion r (fun g => g.chrono 23 1) else s1

/-- Whether a command is a MATMUL that passed its checks and is not of a failed chain: what R130 starts (R136). -/
def Mu.startable (u : Mu) (m : MuCmd) : Bool :=
  m.status == 0 && m.opc == 1 &&
    !((m.chain == 2 || m.chain == 3) && (match u.folding with | some c => c.failed | none => false))

/-- The chain at the folder is over and its tiles are free (R136). -/
def Mu.endChain (u : Mu) : Mu := { u with folding := none, tiles := [], badTiles := [] }

/-- Whether every started command has completed its writes (R130). -/
def Mu.written (u : Mu) : Bool := u.runs.all MuRun.done

/-- MU_NOP (R129): a NOP at the head completes with status 0, with FENCE once every earlier command's writes are complete. -/
def execMuNop (c : ClusterId) (s : State) : Host.Outcome State Fault Refusal :=
  let cl := s.cluster c.val
  match cl.mu.queue with
  | [] => .next s
  | m :: rest =>
    if s.runs c.val = true ∧ m.status = 0 ∧ m.opc = 0 ∧ cl.mu.cqFree = true ∧ (m.fence = false ∨ cl.mu.written = true) then
      .next ((s.setCluster c.val { cl with mu := { cl.mu with queue := rest } }).muComplete c.val m 0 false 0)
    else .next s

/-- A sparse MATMUL completes, whatever its status (R262). -/
def Cluster.walked (c : Cluster) (m : MuCmd) : Cluster := if m.sparse ∧ m.opc = 1 then c.count PLT_WLK_CMDS_CNT 1 else c

/-- MU_FAILED_RETIRE (R129, R136): a command that failed its checks, or a MIDDLE or LAST of a failed chain, retires at the head without work. -/
def execMuFailedRetire (c : ClusterId) (s : State) : Host.Outcome State Fault Refusal :=
  let cl := s.cluster c.val
  match cl.mu.queue with
  | [] => .next s
  | m :: rest =>
    let chainFail := m.status == 0 && m.opc == 1 && !cl.mu.startable m
    if s.runs c.val = true ∧ (m.status ≠ 0 ∨ chainFail = true) ∧ cl.mu.cqFree = true then
      let u := { cl.mu with queue := rest }
      let u1 := if chainFail = true ∧ m.chain = 3 then u.endChain else u
      .next ((s.setCluster c.val ({ cl with mu := u1 }.walked m)).muComplete c.val m (if chainFail then 6 else m.status) false 0)
    else .next s

/-- The payload of a completion token (R131). -/
def MuDone.payload (d : MuDone) : W64 :=
  BitVec.ofNat 64 (d.tag + d.status * 2 ^ 16 + (if d.dense then 2 ^ 20 else 0) + (if d.spilled then 2 ^ 21 else 0) + d.cbytes * 2 ^ 32)

/-- MU_COMPLETION_SEND (R131): the next completion of a binding in command order leaves on lane 0 against the binding's credit. -/
def execMuCompletionSend (c : ClusterId) (b : Fin 8) (s : State) : Host.Outcome State Fault Refusal :=
  let cl := s.cluster c.val
  let mine := cl.mu.cq.filter (fun d => d.cbind == b.val)
  let seq := mine.foldl (fun a d => min a d.seq) cl.mu.serial
  let earlier := cl.mu.runs.any (fun r => r.cmd.cbind == b.val && r.cmd.cen && decide (r.cmd.seq < seq))
  let cr := cl.rd (MU_CBIND_CREDITS.nth b.val)
  if s.runs c.val = false ∨ earlier = true ∨ cr = 0 then .next s
  else match takeFirst (fun (d : MuDone) => d.cbind == b.val && d.seq == seq) cl.mu.cq with
    | none => .next s
    | some (d, rest) =>
      let c1 := { cl.wr (MU_CBIND_CREDITS.nth b.val) (cr - 1) with mu := { cl.mu with cq := rest } }
      .next (s.setCluster c.val (c1.pushOut 32 0 (cl.rd (MU_CBIND_ELEM.nth b.val)) (cl.rd (MU_CBIND_QUEUE.nth b.val))
        ⟨d.payload, .data, d.epoch, false⟩))

/-- A write of MU_CBIND b (R131, R147, R456): only while the region is drained; CREDITS become 16. -/
def State.muCbind (s : State) (c b : Nat) (v : W32) : State :=
  let cl := s.cluster c
  if (s.region (regionOf c)).drainedState = false then s.setCluster c (cl.wr MU_EVENT_CFG_ERR 1)
  else
    s.setCluster c ((((cl.wr (MU_CBIND_ELEM.nth b) (MU_CBIND_ELEM.of v)).wr (MU_CBIND_QUEUE.nth b)
      (MU_CBIND_QUEUE.of v)).wr (MU_CBIND_VALID.nth b) (MU_CBIND_VALID.of v)).wr (MU_CBIND_CREDITS.nth b) 16)

/-- MU_CBIND_WRITE (R131); a write to a cluster whose deliveries are suppressed does not reach it (R33, R304). -/
def execMuCbindWrite (c : ClusterId) (b : Fin 8) (v : W32) (s : State) : Host.Outcome State Fault Refusal :=
  .next (if s.suppressed c.val then s else s.muCbind c.val b.val v)

/-- Whether the matrix unit is quiescent (R143). -/
def Cluster.muQuiet (c : Cluster) : Bool :=
  (List.range 8).all (fun l => let x := c.mu.lane l; x.toks.isEmpty && x.words.isEmpty) && c.mu.queue.isEmpty && c.mu.runs.isEmpty &&
  c.mu.cq.isEmpty

/-- n commands were discarded or stopped as stale (R145). -/
def Cluster.muStaleN (c : Cluster) (n : Nat) : Cluster := if n = 0 then c else (c.countStart MU_CNT_STALE_CNT n).wr MU_EVENT_STALE 1

/-- The matrix unit when the epoch changes by force to `ep` (R145): lanes and queued commands are discarded, a started command stops before n-block 0 or at
its next n-block boundary, a chain is closed, the list fetcher stops, completions are dropped. A command of which a lane holds only some words is
discarded uncounted, and counts when its stale LAST arrives (DESIGN CHOICE, log entry 14). -/
def Cluster.muForce (c : Cluster) (ep : Nat) : Cluster :=
  let c1 := (List.range 8).foldl (fun (k : Cluster) l =>
    let x := k.mu.lane l
    let old := x.toks.filter (fun t => t.epoch != ep)
    let n := (old.filter (fun t => t.tag == .last)).length + (if x.full then 1 else 0)
    let k1 := { k with mu := k.mu.setLane l { Lane.reset with toks := x.toks.filter (fun t => t.epoch == ep) } }.creditsBack 32 l
      (old.length + x.words.length)
    k1.muStaleN n) c
  let c2 := (c1.muStaleN (c1.mu.queue.length + (c1.mu.runs.filter (fun r => !r.issued)).length)).listStop
  let runs := (c2.mu.runs.filter (fun r => r.issued || decide (0 < r.next))).map (fun r => if r.issued then r else { r with stopped := true, stale := true })
  { c2 with mu := { c2.mu with queue := [], chain := none, cq := [], runs := runs }.endChain }

end Sys2Proof.Machine
end

