-- ==== Sys2Proof/Machine/Matrix.lean ====
section
/-! DEFINITION. The folder and the epilogue of the matrix unit (R119-R125, R132-R140, R144-R146, R155, R251-R259). MATMUL and
MATMUL_SPARSE start a command and run its n-blocks as far as the epilogue buffer takes them, MU_EPILOGUE takes one tile pair; how long that takes is not
modelled (log entry 2). -/

namespace Sys2Proof.Machine

/-! ## Operands -/

/-- The rows of a strip's codes: row i is codes 16 i to 16 i + 15 (R123). -/
def stripRows (rows : Nat) (codes : List Nat) : List (List Nat) := chunksOf 16 rows codes

/-- Rows joined to the right of rows. -/
def joinRows : List (List Nat) → List (List Nat) → List (List Nat)
  | a :: as, b :: bs => (a ++ b) :: joinRows as bs
  | as, [] => as
  | [], bs => bs

/-- Column j of a list of rows. -/
def columnOf (rows : List (List Nat)) (j : Nat) : List Nat := rows.map (fun r => r.getD j 0)

/-- What reading an operand found: nothing wrong, a poisoned byte (R144), or a strip that failed R252. -/
inductive ReadFault where
  | fine
  | poison
  | strip (s : Nat)
  deriving DecidableEq, Repr

/-- A raw strip at a row (R123), read for the matrix unit. -/
def State.readRaw (s : State) (i row f rb : Nat) : (StripIn × Bool) × State :=
  let r := s.memRead i 3 (512 * row) (rb * blockBytes f)
  ((denseStrip f rb r.1.1, r.1.2), r.2)

/-- A strip of a plate whose slot starts at a row (R251-R253): a compressed strip is read to its USED rows. -/
def State.readSlot (s : State) (i row f rb : Nat) (comp : Bool) : (Option StripIn × Bool) × State :=
  if comp then
    let used := max 1 (min (leNat (Mem.bytes (s.cluster i).mem (512 * row + 2) 2)) (ceilDiv (rb * blockBytes f) 512))
    let r := s.memRead i 3 (512 * row) (512 * used)
    ((compStrip f rb r.1.1, r.1.2), r.2)
  else
    let r := s.readRaw i row f rb
    ((some r.1.1, r.1.2), r.2)

/-- The strips of operand A, from strip k on: the strips read, and the fault that ended the reading. -/
def State.readStrips (i row f rb : Nat) (head : Option (List Byte)) : Nat → Nat → State → (List StripIn × ReadFault) × State
  | 0, _, s => (([], .fine), s)
  | n + 1, k, s =>
    let d := ceilDiv (rb * blockBytes f) 512
    match head with
    | none =>
      let r := s.readRaw i (row + k * d) f rb
      if r.1.2 then (([r.1.1], .poison), r.2)
      else let rest := State.readStrips i row f rb head n (k + 1) r.2; ((r.1.1 :: rest.1.1, rest.1.2), rest.2)
    | some h =>
      let r := s.readSlot i (row + 1 + k * d) f rb (hdrComp h k)
      if r.1.2 then (([], .poison), r.2)
      else match r.1.1 with
        | none => (([], .strip k), r.2)
        | some x => let rest := State.readStrips i row f rb head n (k + 1) r.2; ((x :: rest.1.1, rest.1.2), rest.2)

/-- A B column for the weight buffer (R123, R133, R256): its bytes, row by row; a row of whose blocks none is live is not read, and a block that is not live
is not used. The bytes, whether one that is used is poisoned, and the state. -/
def State.readColumn (i row bytes block : Nat) (live : Nat → Bool) : Nat → Nat → State → (List Byte × Bool) × State
  | 0, _, s => (([], false), s)
  | f + 1, k, s =>
    let n := min 512 (bytes - 512 * k)
    let wanted := (List.range (ceilDiv bytes block)).any (fun b => live b && decide (b * block < 512 * k + n) && decide (512 * k < (b + 1) * block))
    let r := if wanted then s.memReadUse i 3 (512 * (row + k)) n (fun a => live ((a - 512 * row) / block)) else ((List.replicate n 0, false), s)
    let rest := State.readColumn i row bytes block live f (k + 1) r.2
    ((r.1.1 ++ rest.1.1, r.1.2 || rest.1.2), rest.2)

/-! ## Array steps (R120, R132, R155, R257, R258) -/

/-- One row of A or column of B, cut into dense steps: the scale byte of each step and its values. -/
abbrev Steps := List (Nat × List FVal)

/-- Codes along K cut into steps of ks, with the scale byte of each 32 positions (R124, R153). -/
def stepsOf (f ks n : Nat) (codes : List Nat) (scales : List Nat) : Steps :=
  ((chunksOf ks n codes).map (fun c => c.map (decodeEl f))).zipIdx.map (fun p => (scales.getD (p.2 * ks / 32) 127, p.1))

/-- The accumulator after every step, of which only the surviving positions are taken; a step with none leaves it unchanged (R155,
R257). -/
def foldSteps : W32 → Steps → Steps → List (List Bool) → W32
  | acc, (xa, as) :: ra, (xb, bs) :: rb, sv :: rs =>
    let pairs := ((as.zip bs).zip sv).filterMap (fun p => if p.2 then some p.1 else none)
    foldSteps (if pairs.isEmpty then acc else cubeStep acc (scaleExp xa xb) pairs) ra rb rs
  | acc, _, _, _ => acc

/-- Cube steps gated for a quad of rows (R258): four for each array step at whose positions all four rows are zero. -/
def quadGated (ks steps : Nat) (zeros : List Bool) : Nat :=
  4 * ((chunksOf ks steps zeros).filter (fun p => p.all id)).length

/-- Whether the four rows of a quad are all zero, position by position. -/
def quadZeros (f : Nat) (rows : List (List Nat)) (q k : Nat) : List Bool :=
  let rs := sliceOf rows (4 * q) 4
  (List.range k).map (fun p => rs.all (fun r => codeZero f (r.getD p 0)))

/-- a_k of group g (R255): whether a row of the group holds a non-zero element at column k, from the level-2 bits of a compressed strip; always
set in a dense strip, and where a scale byte of the group is 0xFF. -/
def groupLive (strips : List StripIn) (g k m : Nat) (scales : List Byte) (mx : Bool) : List Bool :=
  (List.range k).map (fun p =>
    let st := strips.getD (p / 16) ⟨[], false, 0, []⟩
    let bits := st.masks.getD g []
    !st.comp || (List.range 16).any (fun i => bits.getD (16 * i + p % 16) false) ||
      (mx && (List.range 16).any (fun i => (scales.getD (p / 32 * m + 16 * g + i) 0) == 255)))

/-- The cube class of a format (R77). -/
def cubeClass (f : Nat) : Nat := if fmtGroup f = 3 then 1 else if fmtGroup f = 4 then 2 else 0

/-! ## The fill (R138, R251) -/

/-- A plate header read in the fill: the row (none for a raw operand), and a status where it fails. -/
def State.fillHeader (s : State) (i row f rb cb : Nat) (raw : Bool) : (Option (List Byte) × Nat) × State :=
  if raw then ((none, 0), s)
  else
    let r := s.memRead i 3 (512 * row) 512
    if r.1.2 then ((none, 8), r.2)
    else
      let st := hdrStatus f rb cb r.1.1
      ((some r.1.1, st), if st = 0 then r.2 else r.2.modCluster i (fun c => c.plateBad row 0 3 true))

/-- The row permutation read in the fill (R138): a status of 5 where it is not a permutation. -/
def State.fillPerm (s : State) (i : Nat) (m : MuCmd) : (List Nat × Nat) × State :=
  if m.epi && m.permute then
    let r := s.memRead i 3 (512 * m.permRow) (2 * m.m)
    let p := (chunksOf 2 m.m r.1.1).map leNat
    let ok := (List.range m.m).all (fun k => p.contains k)
    ((p, if r.1.2 then 8 else if ok then 0 else 5), r.2)
  else ((List.range m.m, 0), s)

/-! ## One n-block (R132, R134, R136) -/

/-- What an n-block uses of A: its strips, whole rows of codes, scale bytes, and whether its FINITE is set. -/
structure OpA where
  strips : List StripIn
  rows : List (List Nat)
  scales : List Byte
  finite : Bool
  deriving DecidableEq, Repr

/-- A is read for an n-block (R123-R125, R253), its header row again after the first: what the n-block uses of it, and the fault that ended the
reading. -/
def State.readA (s : State) (i : Nat) (r : MuRun) : (OpA × ReadFault) × State :=
  let m := r.cmd
  let h := if r.next = 0 ∨ m.aRaw = true then (([], false), s) else s.memRead i 3 (512 * m.aRow) 512
  let rd := State.readStrips i m.aRow m.fa (m.m / 16) r.headA (ceilDiv m.k 16) 0 h.2
  let sc := if fmtMx m.fa then rd.2.memRead i 3 (512 * m.aSrow) (m.k / 32 * m.m) else (([], false), rd.2)
  let rows := (rd.1.1.map (fun x => stripRows m.m x.codes)).foldl joinRows []
  let fin := match r.headA with | some x => hdrFinite x | none => false
  let fault : ReadFault := match rd.1.2 with | .fine => if h.1.2 || sc.1.2 then .poison else .fine | e => e
  ((⟨rd.1.1, rows, sc.1.1, fin⟩, fault), sc.2)

/-- The surviving positions of group g in n-block n, and how many positions B's presence alone removed (R255, R256). -/
def survivors (m : MuCmd) (a : OpA) (bp : List Byte) (n g : Nat) : List Bool × Nat :=
  let live := groupLive a.strips g m.k m.m a.scales (fmtMx m.fa)
  let usePres := m.bPres && !m.aRaw && a.finite
  let kb := ceilDiv m.k 16
  let pres := (List.range m.k).map (fun p =>
    let bit := n * kb + p / 16
    !usePres || bitOf (bp.getD (bit / 8) 0) (bit % 8))
  let sv := (live.zip pres).map (fun p => p.1 && p.2)
  (sv, ((live.zip pres).filter (fun p => p.1 && !p.2)).length)

/-- The zero flags of a quad at the surviving positions, in the order the walker packs them (R257, R258). -/
def packSurvivors (sv zeros : List Bool) : List Bool := (sv.zip zeros).filterMap (fun p => if p.1 then some p.2 else none)

/-- The walker's counts of an n-block (R254-R259): by group, U and S; gated cube steps; positions removed by presence; and the array-ACLK waiting on
the walker floor and on the partner group. -/
structure Walk where
  groups : List (Nat × Nat)
  gated : Nat
  removed : Nat
  floor : Nat
  idle : Nat
  deriving DecidableEq, Repr

/-- The walk of an n-block. -/
def walkOf (m : MuCmd) (a : OpA) (bp : List Byte) (n ks : Nat) : Walk :=
  let sv := (List.range (m.m / 16)).map (survivors m a bp n)
  let groups := sv.map (fun p => let u := (p.1.filter id).length; (u, ceilDiv u ks))
  let fl := 2 * ceilDiv m.k 32
  let gated := ((List.range (m.m / 4)).map (fun q =>
    let g := sv.getD (q / 4) ([], 0)
    quadGated ks (groups.getD (q / 4) (0, 0)).2 (packSurvivors g.1 (quadZeros m.fa a.rows q m.k)))).sum
  let t := fun (g : Nat) => max (groups.getD g (0, 0)).2 fl
  ⟨groups, gated, (sv.map (fun p => p.2)).sum, (groups.map (fun g => max g.2 fl - g.2)).sum,
   ((List.range m.tiles).map (fun k => max (t (2 * k)) (t (2 * k + 1)) - min (t (2 * k)) (t (2 * k + 1)))).sum⟩

/-- The M × 16 accumulator values of an n-block (R132, R155): from where the accumulator starts, A, the strip and scales of B, and the
surviving positions of each group. -/
def blockValues (m : MuCmd) (a : OpA) (b : StripIn) (bScales : List Byte) (start : Nat → Nat → W32) (sv : Nat → List Bool) (ks : Nat) :
    List (List W32) :=
  let n := m.k / ks
  let brows := stripRows m.k b.codes
  let cols := (List.range 16).map (fun j =>
    stepsOf m.fb ks n (columnOf brows j)
      (if fmtMx m.fb then (List.range (m.k / 32)).map (fun q => (bScales.getD (16 * q + j) 0).toNat) else []))
  (List.range m.m).map (fun i =>
    let row := stepsOf m.fa ks n (a.rows.getD i [])
      (if fmtMx m.fa then (List.range (m.k / 32)).map (fun q => (a.scales.getD (q * m.m + i) 0).toNat) else [])
    let keep := chunksOf ks n (sv (i / 16))
    cols.zipIdx.map (fun c => foldSteps (start i c.2) row c.1 keep))

/-- Whether the sparse path uses the presence bits of B (R255, R256). -/
def MuCmd.usesPres (m : MuCmd) (a : OpA) : Bool := m.sparse && m.bPres && !m.aRaw && a.finite

/-- What an n-block uses of B and of C: the column of B, its scale bytes, the presence bits, the partial of C that a spilled MIDDLE or LAST reloads
(R136), and whether one of them is poisoned. -/
structure OpB where
  col : StripIn
  scales : List Byte
  bits : List Byte
  old : List (List Nat)
  bad : Bool
  deriving DecidableEq, Repr

/-- B's presence word, column and scales, and the partial, are read for n-block n; the column and the scales go into slot n mod 2 of the weight buffer and of
the scale store, of which a column that is larger leaves its last 32 KiB (R121, R133, R136, R256). -/
def State.readB (s : State) (i : Nat) (m : MuCmd) (a : OpA) (n : Nat) : OpB × State :=
  let kb := ceilDiv m.k 16
  let b0 := n * kb / 8
  let bp := if m.usesPres a then s.memRead i 3 (512 * m.bpRow + b0) ((n * kb + kb + 7) / 8 - b0) else (([], false), s)
  let bits := List.replicate b0 (0 : Byte) ++ bp.1.1
  let live := fun (k : Nat) => !m.usesPres a || bitOf (bits.getD ((n * kb + k) / 8) 0) ((n * kb + k) % 8)
  let bytes := kb * blockBytes m.fb
  let b := State.readColumn i (m.bRow + n * slotRows m.k m.fb) bytes (blockBytes m.fb) live (ceilDiv bytes 512) 0 bp.2
  let bs := if fmtMx m.fb then b.2.memRead i 3 (512 * m.bSrow + n * (m.k / 32) * 16) (m.k / 32 * 16) else (([], false), b.2)
  let reload := m.spilled && m.chain != 1
  let sp := if reload then bs.2.readRaw i (m.spillRow + n * slotRows m.m 11) 11 (m.m / 16) else ((⟨[], false, 0, []⟩, false), bs.2)
  (⟨denseStrip m.fb kb b.1.1, bs.1.1, bits, if reload then stripRows m.m sp.1.1.codes else [], bp.1.2 || b.1.2 || bs.1.2 || sp.1.2⟩,
   sp.2.modCluster i (fun c => { c with mu := { c.mu with
     weights := SMap.set (fun _ => []) c.mu.weights (n % 2) (b.1.1.drop (b.1.1.length - 32768))
     scales := SMap.set (fun _ => []) c.mu.scales (n % 2) (bs.1.1.drop (bs.1.1.length - 2048)) } }))

/-- The counts and debits of an n-block's array steps (R77, R147, R258, R262). -/
def State.countBlock (s : State) (i : Nat) (m : MuCmd) (a : OpA) (w : Walk) : State :=
  let ks := stepK m.fa
  let stepSum := (w.groups.map (fun g => g.2)).sum
  let gated := if m.sparse then w.gated else ((List.range (m.m / 4)).map (fun q => quadGated ks (m.k / ks) (quadZeros m.fa a.rows q m.k))).sum
  let total := if m.sparse then 16 * stepSum else 32 * m.tiles * (m.k / ks)
  let pairSteps := if m.sparse then
      ((List.range m.tiles).map (fun t => max (w.groups.getD (2 * t) (0, 0)).2 (w.groups.getD (2 * t + 1) (0, 0)).2)).sum
    else m.tiles * (m.k / ks)
  (s.modCluster i (fun c =>
    let c1 := (c.count MU_CNT_STEPS_CNT pairSteps).count MU_CNT_GATED_CNT gated
    if m.sparse then
      ((((c1.count PLT_WLK_STEPS_CNT stepSum).count PLT_WLK_FLOOR_CNT w.floor).count PLT_WLK_IDLE_CNT w.idle).count PLT_WLK_SURV_CNT
        ((w.groups.map (fun g => g.1)).sum)).count PLT_WLK_BPRES_CNT w.removed
    else c1)).debit i (cubeClass m.fa) (total - gated)

/-! ## The folder (R130, R134, R136, R138, R144) -/

/-- The first started command with a number is replaced by f of it. -/
def Mu.setRun (u : Mu) (seq : Nat) (f : MuRun → MuRun) : Mu :=
  { u with runs := u.runs.map (fun r => if r.cmd.seq == seq then f r else r) }

/-- A command of a chain has failed after its entry checks: the chain is marked failed (R136). -/
def Mu.failChain (u : Mu) (m : MuCmd) : Mu :=
  if m.chain = 1 ∨ m.chain = 2 then { u with folding := u.folding.map (fun c => { c with failed := true }) } else u

/-- The command becomes a started command; a FIRST opens the chain at the folder (R136, R146). -/
def State.muStart (s : State) (i : Nat) (m : MuCmd) (status : Nat) (headA headR : Option (List Byte)) (perm : List Nat) : State :=
  let c := s.cluster i
  let seeded := m.determ || c.rd MU_CTRL_DETERM == 1
  let g := fun (a : Nat) => if seeded then srSeed m.step (cx i) (cy i) a else (Config.noise (s.free + a)).toNat % 2 ^ 24
  let run : MuRun := ⟨m, [], status, headA, headR, perm, g 0, g 1, seeded, 0, status != 0, false, [], false, PlateSum.start, [], ([], false), ([], false)⟩
  let u := { c.mu with runs := c.mu.runs ++ [run], folding := if m.chain = 1 then some ⟨false, !m.spilled, m.epoch⟩ else c.mu.folding }
  let u1 := if status = 0 then u else if m.chain = 3 then u.endChain else u.failChain m
  { s.setCluster i { c with mu := u1 } with free := if seeded then s.free else s.free + 2 }

/-- The fill of a command (R138, R251): the header of A, the header of the residual, the permutation; the first that fails sets the status. -/
def State.muFill (s : State) (i : Nat) (m : MuCmd) : State :=
  let rb := m.m / 16
  let ha := s.fillHeader i m.aRow m.fa rb (ceilDiv m.k 16) m.aRaw
  if ha.1.2 ≠ 0 then ha.2.muStart i m ha.1.2 none none []
  else
    let hr := if m.epi && m.resid then ha.2.fillHeader i m.rRow m.fr rb m.blocks m.rRaw else ((none, 0), ha.2)
    if hr.1.2 ≠ 0 then hr.2.muStart i m hr.1.2 none none []
    else
      let pm := hr.2.fillPerm i m
      if pm.1.2 ≠ 0 then pm.2.muStart i m pm.1.2 none none [] else pm.2.muStart i m 0 ha.1.1 hr.1.1 pm.1.1

/-- The folder stops a command with a status, its chain failing or, after a LAST that the folder still runs, ending (R136, R144, R252). -/
def State.muStop (s : State) (i : Nat) (m : MuCmd) (status : Nat) : State :=
  s.modCluster i (fun c =>
    let u := c.mu.setRun m.seq (fun q => { q with status := status, stopped := true })
    let open_ := c.mu.runs.any (fun q => q.cmd.seq == m.seq && !q.issued)
    { c with mu := if m.chain ≠ 3 then u.failChain m else if open_ then u.endChain else u })

/-- The result of an n-block is handed over (R132, R136, R144): tile pairs to the epilogue buffer, or for a resident FIRST or MIDDLE the values back to the
accumulator. After the last n-block of a LAST the chain's tiles are free. -/
def State.muHand (s : State) (i : Nat) (r : MuRun) (vals : List (List W32)) (groups : List (Nat × Nat)) (bad : Bool) : State :=
  let m := r.cmd; let n := r.next
  let ps := (List.range m.tiles).map (fun t => (⟨n, t, (sliceOf vals (32 * t) 32).flatten, bad⟩ : TilePair))
  let pass := m.epi || m.spilled
  let s1 := s.modCluster i (fun c =>
    let u := c.mu.setRun m.seq (fun q =>
      { q with epi := if pass then ps else q.epi, next := n + 1, groups := if n = 0 ∧ m.sparse = true then groups else q.groups })
    let u1 := if pass then u
      else { u with
        tiles := vals.zipIdx.foldl (fun t w => w.1.zipIdx.foldl (fun x v => SMap.set (fun _ => (0 : W32)) x (512 * w.2 + 16 * n + v.2) v.1) t) u.tiles
        badTiles := if bad then NSet.add u.badTiles n else u.badTiles }
    { c with mu := if m.chain = 3 ∧ m.blocks ≤ n + 1 then u1.endChain else u1 })
  if bad then s1.muStop i m 8 else s1

/-- The next n-block of a started command (R132, R136, R144, R252, R253): A, B and a spilled partial are read, the array steps are run, counted and debited, and
the result is handed over. `bad` says that the weight buffer or the accumulator gives it a byte of bad parity, which is no failure in data that is poisoned
already (R357). -/
def State.muBlock (s : State) (i : Nat) (r : MuRun) (bad : Bool) : State :=
  let m := r.cmd; let n := r.next
  let ra := s.readA i r
  match ra.1.2 with
  | .strip k => (ra.2.modCluster i (fun c => c.plateBad m.aRow k 3 false)).muStop i m 3
  | e =>
    let a := ra.1.1
    let rb := ra.2.readB i m a n
    let b := rb.1
    let tiles := (rb.2.cluster i).mu.tiles
    let resident := m.chain != 0 && m.chain != 1 && !m.spilled
    let badTile := resident && (rb.2.cluster i).mu.badTiles.contains n
    let poison := bad || e == .poison || b.bad || badTile
    let w := walkOf m a b.bits n (stepK m.fa)
    let s1 := rb.2.countBlock i m a w
    let s2 := if bad && !badTile && !b.bad then s1.clusterFailure 4 i (s1.cluster i).perrWord else s1
    let start := fun (x y : Nat) =>
      if resident then SMap.get (fun _ => (0 : W32)) tiles (512 * x + 16 * n + y) else BitVec.ofNat 32 ((b.old.getD x []).getD y 0)
    let sv := fun (g : Nat) => if m.sparse then (survivors m a b.bits n g).1 else List.replicate m.k true
    s2.muHand i r (if poison then [] else blockValues m a b.col b.scales start sv (stepK m.fa)) w.groups poison

/-- The started command whose n-blocks the folder runs. -/
def Mu.atFolder (u : Mu) : Option MuRun := u.runs.find? (fun r => !r.issued)

/-- The folder goes on while it can hand over an n-block: the epilogue buffer holds one n-block, and a resident FIRST or MIDDLE hands nothing to it (R134,
R136). `bad` lists the n-blocks for which the weight buffer or the accumulator gives a byte of bad parity. -/
def State.muAdvance (i : Nat) : Nat → List Nat → State → State
  | 0, _, s => s
  | f + 1, bad, s =>
    match (s.cluster i).mu.atFolder with
    | none => s
    | some r =>
      if (r.cmd.epi || r.cmd.spilled) && (s.cluster i).mu.runs.any (fun q => !q.epi.isEmpty) then s
      else State.muAdvance i f bad (s.muBlock i r (bad.contains r.next))

/-- The n-blocks of a command, at most (R129, R132), and one more. -/
def muFuel : Nat := 33

/-- Whether the command at the head may start now (R130, R136): HOLD clear, FENCE met, a free completion entry, the folder done with the previous command, and a
spilled chain's partial written (log entry 14). -/
def State.muCanStart (s : State) (i : Nat) (m : MuCmd) (sparse : Bool) : Bool :=
  let u := (s.cluster i).mu
  s.runs i && !s.held i && u.startable m && (m.sparse == sparse) && (!m.fence || u.written) && u.cqFree && u.atFolder.isNone &&
    !(m.spilled && m.chain != 1 && u.runs.any (fun r => r.cmd.spilled && !r.done))

/-- The command at the head starts, dense or sparse (R130, R138): its fill, and its n-blocks as far as the epilogue buffer takes them. -/
def State.muBegin (s : State) (i : Nat) (sparse : Bool) (upsets bad : List Nat) : State :=
  let c := s.cluster i
  match c.mu.queue with
  | [] => s
  | m :: rest =>
    if s.muCanStart i m sparse then
      State.muAdvance i muFuel bad (((s.upset i upsets).modCluster i (fun k => { k with mu := { k.mu with queue := rest } })).muFill i m)
    else s

/-- MATMUL (R134): the dense path. `upsets` are the bytes that have lost their parity (R144). -/
def execMatmul (c : ClusterId) (upsets : MuUpsets) (s : State) : Host.Outcome State Fault Refusal :=
  .next (s.muBegin c.val false upsets.mem upsets.storage)
/-- MATMUL_SPARSE (R259): the sparse walker's path. -/
def execMatmulSparse (c : ClusterId) (upsets : MuUpsets) (s : State) : Host.Outcome State Fault Refusal :=
  .next (s.muBegin c.val true upsets.mem upsets.storage)

/-! ## The epilogue (R137-R140) -/

/-- Activation 7 (R139): the segment of an input. -/
def tableSegment (lo hi x : FVal) : Nat :=
  match lo, hi, x with
  | .num .., .num .., .num .. =>
    if fcmp hi lo ≤ 0 then 0
    else if fcmp x lo < 0 then 0
    else if 0 ≤ fcmp x hi then 63
    else
      let g := min lo.exp (min hi.exp x.exp)
      ((x.at g - lo.at g) * 64 / (hi.at g - lo.at g)).toNat
  | .num .., .num .., .inf n => if fcmp hi lo ≤ 0 then 0 else if n then 0 else 63
  | _, _, _ => 0

/-- Stage 2 (R139). -/
def Cluster.activate (c : Cluster) (act : Nat) (x : W32) : W32 :=
  let v := f32 x
  let nan : W32 := BitVec.ofNat 32 (fmtNan 11)
  if v.isNan then nan
  else if act = 0 then x
  else if act = 1 then toF32 (fmaxZ v (.num false 0 0))
  else if act = 2 then
    (if fcmp v (.num false 0 0) < 0 then toF32 (FVal.mul v (f32 (BitVec.ofNat 32 (c.rd MU_ACT_LEAK_SLOPE)))) else x)
  else if act = 7 then
    let sg := tableSegment (f32 (BitVec.ofNat 32 (c.rd MU_ACT_LO_LO))) (f32 (BitVec.ofNat 32 (c.rd MU_ACT_HI_HI))) v
    ffma (BitVec.ofNat 32 (c.rd (MU_ACT_TAB_SLOPE.nth sg))) x (BitVec.ofNat 32 (c.rd (MU_ACT_TAB_ICPT.nth sg)))
  else actPiecewise act x

/-- n draws of a generator (R162): the draws and the state after them. -/
def srDraws : Nat → Nat → List Nat × Nat
  | 0, g => ([], g)
  | n + 1, g => let g1 := srNext g; let r := srDraws n g1; (srMix g1 :: r.1, r.2)

/-- Stages 1 to 4 of one element (R137): its column's scale and bias, the residual element if any, and the draw. -/
def Cluster.stages (c : Cluster) (m : MuCmd) (x scale bias : W32) (resid : Option Nat) (draw : Nat) : Nat :=
  let v1 := ffma x scale bias
  let v2 := c.activate m.act v1
  let v3 := match resid with
    | some e => toF32 (fsum [f32 v2, decodeEl m.fr e])
    | none => v2
  encodeEl (if m.sr then .sr draw else .rne) m.sat m.fc (f32 v3)

/-- The row of FP32 scales or biases that the epilogue holds for n-block n (R137), whole and checked (R144, R238): it is read from memory once every eight n-blocks,
out of `len` bytes that are left from n-block n on. -/
def State.readColumns (s : State) (i row n t len : Nat) (held : List Byte × Bool) : (List Byte × Bool) × State :=
  if t = 0 ∧ n % 8 = 0 then s.memRead i 3 (512 * row + 64 * n) (min 512 len) else (held, s)

/-- Word k of the held scales or biases of n-block n. -/
def columnWord (held : List Byte) (n k : Nat) : W32 := BitVec.ofNat 32 (leNat (sliceOf held (64 * (n % 8) + 4 * k) 4))

/-- Strip n of the residual (R137): its rows of codes, read from memory with the strip's first tile pair, under the form map that the fill read (R251). -/
def State.readResid (s : State) (i : Nat) (r : MuRun) (n t : Nat) : (List (List Nat) × ReadFault) × State :=
  let m := r.cmd
  let d := slotRows m.m m.fr
  let comp := match r.headR with | some h => hdrComp h n | none => false
  let row := if m.rRaw then m.rRow + n * d else m.rRow + 1 + n * d
  let x := s.readSlot i row m.fr (m.m / 16) comp
  let f : ReadFault := if x.1.2 then .poison else match x.1.1 with | none => .strip n | some _ => .fine
  let codes := match x.1.1 with | some y => stripRows m.m y.codes | none => []
  ((codes, f), if t = 0 then x.2 else s)

/-- The codes of the strip in assembly, in row order. -/
def MuRun.stripCodes (r : MuRun) : List Nat :=
  (List.range r.cmd.m).flatMap (fun k => (r.strip.filter (fun p => p.1 == k)).flatMap (fun p => p.2))

/-- Whether the C of a command is not defined: it shares rows with A, B or the residual, or with a plate that the table unit writes at the same time
(R129, R250; log entry 29). -/
def State.muClash (s : State) (i : Nat) (r : MuRun) : Bool :=
  r.cmd.epi && (r.plate.clash || r.cmd.overlaps || ((s.cluster i).bagPlates none).any (rowsMeet r.cmd.cPlate))

/-- The last strip of C is written: row 0 (R249), or a plate that is not defined (R129, R250). -/
def State.muHeader (s : State) (i : Nat) (m : MuCmd) (p : PlateSum) : State :=
  let s1 := s.writeHeader i 3 m.cRow m.fc m.m m.n p
  if p.clash then
    let o := s1.openPlate i m.cPlate p
    o.2.modCluster i (fun c => { c with mu := c.mu.setRun m.seq (fun q => { q with plate := o.1 }) })
  else s1

/-- The strip of n-block n is complete and is written (R136, R137 stages 5 and 6, R140, R144, R249): spilled partials raw, C as a plate, with
row 0 after the last strip. What a poisoned strip holds is open (R144; log entry 14). -/
def State.muStrip (s : State) (i : Nat) (r : MuRun) (n : Nat) : State :=
  let m := r.cmd
  let bad := r.stripBad
  let clash := s.muClash i r
  let f := if m.epi then m.fc else 11
  let cs := if bad || clash then s.freeCodes f (16 * m.m) else (r.stripCodes, s)
  let codes := cs.1
  let s0 := cs.2
  let rb := m.m / 16
  let d := slotRows m.m f
  if m.epi = false then
    let o := stripOut 11 rb false codes
    s0.memWriteAll i 3 (512 * (m.spillRow + n * d)) o.bytes bad (d + 1)
  else
    let force := (s0.cluster i).rd PLT_CTRL_FORCE_DENSE == 1
    let o := stripOut f rb (m.compress && !force && !bad) codes
    let s1 := s0.writeStrip i 3 (m.cRow + 1 + n * d) o d (16 * m.m) bad
    let w := fmtBits f / 8
    let s2 := if m.digest then
        s1.contribute i m.step (m.sr && !r.seeded) f (codes.zipIdx.map (fun p => ((m.cRow + n * d) * 512 + p.2 * w, p.1)))
      else s1
    let p := { r.plate.add o with clash := clash }
    let s3 := s2.modCluster i (fun c => { c with mu := c.mu.setRun m.seq (fun q => { q with plate := p, strip := [] }) })
    if n + 1 = m.blocks ∧ r.stopped = false then s3.muHeader i m p else s3

/-- One tile pair through the epilogue (R137, R138, R144, R164, R252). `store` says that the epilogue buffer gives it a byte of bad parity, which is
no failure in a pair that is poisoned already (R357). -/
def State.muPair (s : State) (i : Nat) (r : MuRun) (p : TilePair) (rest : List TilePair) (store : Bool) : State :=
  let m := r.cmd
  let col := ceilDiv (4 * m.n) 512
  let one : W32 := 0x3F800000
  let left := 4 * m.n - 64 * p.n
  let sc := if m.epi && m.scale then s.readColumns i m.sbRow p.n p.t left r.scaleRow else (([], false), s)
  let bi := if m.epi && m.bias then sc.2.readColumns i (m.sbRow + col) p.n p.t left r.biasRow else (([], false), sc.2)
  let re := if m.epi && m.resid then bi.2.readResid i r p.n p.t else (([], .fine), bi.2)
  match re.1.2 with
  | .strip k =>
    (re.2.modCluster i (fun c => { c.plateBad m.rRow k 3 false with mu := c.mu.setRun m.seq (fun q => { q with epi := [], strip := [] }) })).muStop i m 3
  | e =>
    let bad := p.bad || sc.1.2 || bi.1.2 || e == .poison || store
    let c := re.2.cluster i
    let d0 := srDraws 256 r.sr0
    let d1 := srDraws 256 r.sr1
    let draws := d0.1 ++ d1.1
    let rows := (List.range 32).map (fun k =>
      let i0 := 32 * p.t + k
      let vs := sliceOf p.vals (16 * k) 16
      let cs := vs.zipIdx.map (fun v =>
        if m.epi then
          c.stages m v.1 (if m.scale then columnWord sc.1.1 p.n v.2 else one) (if m.bias then columnWord bi.1.1 p.n v.2 else 0)
            (if m.resid then some (((re.1.1.getD i0 []).getD v.2 0)) else none) (draws.getD (16 * k + v.2) 0)
        else v.1.toNat)
      ((if m.epi then r.perm.getD i0 i0 else i0), cs))
    let r1 : MuRun := { r with
      epi := rest
      strip := r.strip ++ rows
      scaleRow := sc.1
      biasRow := bi.1
      stripBad := bad || (r.stripBad && p.t != 0)
      status := if bad then 8 else r.status
      stopped := r.stopped || bad
      sr0 := if m.epi then d0.2 else r.sr0
      sr1 := if m.epi then d1.2 else r.sr1 }
    let s0 := if store && !p.bad then re.2.clusterFailure 4 i c.perrWord else re.2
    let s1 := s0.modCluster i (fun k => { k with mu := k.mu.setRun m.seq (fun _ => r1) })
    let s2 := if bad ∧ r.stopped = false then s1.muStop i m 8 else s1
    if p.t + 1 = m.tiles then
      (s2.muStrip i r1 p.n).modCluster i (fun k => { k with mu := k.mu.setRun m.seq (fun q => { q with strip := [] }) })
    else s2

/-- MU_EPILOGUE (R134, R137): the epilogue takes the oldest tile pair; when its buffer is empty the folder goes on (R134). -/
def execMuEpilogue (c : EpilogueRead) (s : State) : Host.Outcome State Fault Refusal :=
  let i := c.cluster.val
  if s.runs i then
    match (s.cluster i).mu.runs.find? (fun r => !r.epi.isEmpty) with
    | none => .next s
    | some r =>
      match r.epi with
      | [] => .next s
      | p :: rest => .next (State.muAdvance i muFuel c.upsets.storage ((s.upset i c.upsets.mem).muPair i r p rest c.pair))
  else .next s

/-- MU_CMD_COMPLETE (R131): the first started command whose last write is complete completes; a sparse command that is DONE leaves its groups in
PLT_GSTEP (R262). One that a forced replacement has stopped leaves no completion (R145). -/
def execMuCmdComplete (c : ClusterId) (s : State) : Host.Outcome State Fault Refusal :=
  let cl := s.cluster c.val
  match takeFirst MuRun.done cl.mu.runs with
  | none => .next s
  | some (r, rest) =>
    if s.runs c.val = false ∨ 16 ≤ cl.mu.cq.length then .next s
    else if r.stale then .next (s.setCluster c.val { cl with mu := { cl.mu with runs := rest } })
    else
      let done := r.status == 0 && r.cmd.epi
      let dense := done && r.plate.forms.all (fun f => !f)
      let c2 := { cl with mu := { cl.mu with runs := rest } }.walked r.cmd
      let c3 := if r.cmd.sparse ∧ r.status = 0 then
          (List.range 32).foldl (fun (k : Cluster) g =>
            (k.wr (PLT_GSTEP_UNION.nth g) (r.groups.getD g (0, 0)).1).wr (PLT_GSTEP_STEPS.nth g) (r.groups.getD g (0, 0)).2)
            ((c2.wr PLT_GSTEP_CTL_TAG r.cmd.tag).wr PLT_GSTEP_CTL_VALID 1)
        else c2
      .next ((s.setCluster c.val c3).muComplete c.val r.cmd r.status dense (if done then r.plate.bytes else 0))

end Sys2Proof.Machine
end

