-- ==== Sys2Proof/Machine/Send.lean ====
section
/-! DEFINITION. The agents that send packets (R297, R305, R310, R318): ordered streams with their window, and the list of what an agent tracks. Readings that the words leave open are log entry 15. -/

namespace Sys2Proof.Machine

/-- The 64 bytes of a payload (R292). -/
def payBytes (p : Pkt) : List Byte := (sliceOf p.pay 0 8).flatMap (fun w => leBytes 8 w.toNat)

/-- Payload words from 64 bytes. -/
def bytesPay (bs : List Byte) : List W64 := (chunksOf 8 8 bs).map (fun b => BitVec.ofNat 64 (leNat b))

/-! ## Ordered streams (R305) -/

/-- Whether a stream is the one from an agent to a cluster on a channel. -/
def SendStream.is (t : SendStream) (dmod dy dx chan : Nat) : Bool := t.dmod == dmod && t.dy == dy && t.dx == dx && t.chan == chan

/-- A packet with START set (R305): an OPEN or a TOKEN. -/
def startPkt (p : Pkt) : Pkt :=
  let w := p.pay.headD 0
  { p with pay := (if p.opc = 3 then w ||| BitVec.ofNat 64 (2 ^ 30) else if p.opc = 5 then w ||| 8 else w) :: p.pay.tail }

/-- Whether a packet carries START. -/
def isStart (p : Pkt) : Bool := (p.opc == 3 && bitOf (p.pay.headD 0) 30) || (p.opc == 5 && bitOf (p.pay.headD 0) 3)

/-- The packets of a stream that its window of 64 lets out, numbered. -/
def SendStream.release : Nat → SendStream → List Pkt × SendStream
  | 0, t => ([], t)
  | f + 1, t =>
    match t.waiting with
    | [] => ([], t)
    | (p, x) :: rest =>
      if 64 ≤ t.outst.length then ([], t)
      else
        let p1 := { (if t.outst.isEmpty then startPkt p else p) with seq := t.next % 256 }
        let r := SendStream.release f { t with next := (t.next + 1) % 256, outst := t.outst ++ [(t.next % 256, x)], waiting := rest }
        (p1 :: r.1, r.2)

/-- Every stream of an agent releases what it may; at most 64 streams have packets outstanding (R305), and at most `room` packets leave (R318). A stream with nothing
outstanding and nothing waiting frees its entry. -/
def releaseAll : Nat → Nat → List SendStream → List Pkt × List SendStream
  | _, _, [] => ([], [])
  | used, room, t :: ts =>
    if t.outst.isEmpty ∧ 64 ≤ used then let r := releaseAll used room ts; (r.1, t :: r.2)
    else
      let r := t.release (min 64 room)
      let used' := if t.outst.isEmpty ∧ r.1.isEmpty = false then used + 1 else used
      let rest := releaseAll used' (room - r.1.length) ts
      (r.1 ++ rest.1, if r.2.outst.isEmpty ∧ r.2.waiting.isEmpty then rest.2 else r.2 :: rest.2)

/-- Items that count against the 8,192 of R318: requests and fences, and outstanding ordered packets. -/
def Sender.inflight (x : Sender) : Nat :=
  (x.items.filter (fun t => t.kind == 2 || t.kind == 3 || t.kind == 6)).length + (x.streams.map (fun t => t.outst.length)).sum

/-- An agent sends what its streams may send; the transit engine tracks at most 8,192 items (R318). -/
def State.pump (s : State) (i : Nat) (a : Agent) : State :=
  let x := (s.cluster i).sender a
  let used := (x.streams.filter (fun t => !t.outst.isEmpty)).length
  let r := releaseAll used (if a = .te then 8192 - x.inflight else 8192) x.streams
  r.1.foldl (fun t p => t.sendPkt i a p) (s.modSender i a (fun y => { y with streams := r.2 }))

/-- Packets of a transfer join their stream and are sent as the window allows (R305, R316). -/
def State.sendOrdered (s : State) (i : Nat) (a : Agent) (ps : List Pkt) (xfer : Nat) : State :=
  match ps with
  | [] => s
  | p :: _ =>
    let x := (s.cluster i).sender a
    let add := ps.map (fun q => (q, xfer))
    let streams := if x.streams.any (fun t => t.is p.dmod p.dy p.dx p.chan) then
        x.streams.map (fun t => if t.is p.dmod p.dy p.dx p.chan then { t with waiting := t.waiting ++ add } else t)
      else x.streams ++ [⟨agentSep a, p.dmod, p.dy, p.dx, p.chan, 0, [], add⟩]
    (s.modSender i a (fun y => { y with streams := streams })).pump i a

/-- An item leaves an agent's list. -/
def Sender.dropItem (x : Sender) (id : Nat) : Sender := { x with items := x.items.filter (fun t => t.id != id) }

/-- The packets of a transfer that still wait are dropped and its stream is reset (R310). What it goes on with is an OPEN or a TOKEN (R305): DATA of a transfer whose
OPEN had left is not sent either, and that transfer is LOST in its turn by R310 (log entry 19). -/
def Sender.resetStream (x : Sender) (dmod dy dx chan id : Nat) : Sender :=
  { x with streams := x.streams.filterMap (fun t =>
      if t.is dmod dy dx chan then
        let w := (t.waiting.filter (fun p => p.2 != id)).dropWhile (fun p => p.1.opc == 4)
        if w.isEmpty then none else some { t with outst := [], waiting := w }
      else some t) }

/-- A NAK of a packet from cluster i (R297): the reason, the original header and its first payload word, to the packet's source endpoint on channel
7. -/
def nakOf (s : State) (i : Nat) (p : Pkt) (reason : Nat) : Pkt :=
  { pktFrom s i p.dep with
    opc := 9, dmod := p.smod, dy := p.sy, dx := p.sx, dep := p.sep, chan := 7
    pay := pay8 [BitVec.ofNat 64 reason, BitVec.ofNat 64 (pktHeader p), BitVec.ofNat 64 ((pktHeader p) / 2 ^ 64), p.pay.headD 0] }

/-- Whether an opcode asks for a NAK when it is refused (R297, R304): RD, OPEN, TOKEN and GET. -/
def asksNak (opc : Nat) : Bool := opc == 1 || opc == 3 || opc == 5 || opc == 6

/-! ## Reads by an agent (R112, R295, R318) -/

/-- The endpoint that serves a space (R112). -/
def spaceEndpoint (space : Nat) : Nat := if space = 0 then 33 else if space = 2 then 34 else if space = 4 then 35 else 36

/-- The first TAG that none of an agent's outstanding requests of its width uses (R295, R318). -/
def Sender.freshTag (x : Sender) (own dmod : Nat) : Nat :=
  let used := (x.items.filter (fun t => t.kind == 6 || t.kind == 2)).filterMap (fun t =>
    if (t.dmod == own) == (dmod == own) then some (if t.kind == 2 then t.members else t.tag) else none)
  let k := x.items.length + 1
  match ((List.range k).map (fun n => tagOf (dmod == own) (x.serial + n))).find? (fun t => !used.contains t) with
  | some t => t
  | none => tagOf (dmod == own) x.serial

/-- An agent sends an RD and tracks it for `owner` (R297, R318). -/
def State.sendRd (s : State) (i : Nat) (a : Agent) (dmod y x space off : Nat) (be : W64) (chan owner : Nat) : State :=
  let n := (s.cluster i).sender a
  let tag := n.freshTag s.modId dmod
  let p := setTag { pktFrom s i (agentSep a) with
    opc := 1, dmod := dmod, dy := y, dx := x, dep := spaceEndpoint space, chan := chan
    pay := pay8 [BitVec.ofNat 64 (off + space * 2 ^ 29), be] } s.modId tag
  let item : Xfer := ⟨n.serial, 6, tag, 0, false, 0, 0, dmod, y, x, p.dep, chan, 1, 0, false, 0, 0, [], owner⟩
  (s.modSender i a (fun z => { z with items := z.items ++ [item], serial := z.serial + 1 })).sendPkt i a p

end Sys2Proof.Machine
end

