-- ==== Sys2Proof/Machine/DeepStore.lean ====
section
/-! DEFINITION. The deep store (R263-R272): the decomposition of an offset with its remap, reads with check and correction, writes, the requests
that the store port holds, scrubbing and refresh. -/

namespace Sys2Proof.Machine

/-! ## Columns and granules (R29, R263) -/

/-- Granules of a column. -/
def dsGranules : Nat := 0x12000000 / 64

/-- The physical sub-array (wafer × 38 + sub-array) of a space 2 offset in the column of cluster i, after remapping (R29, R263). -/
def State.dsSub (s : State) (i off : Nat) : Nat :=
  let w := off / 0x04800000 % 4
  let sub := off % 0x04800000 / 0x200000
  let hit := (s.defect i).remaps.filter (fun e => e.testBit 15 && e / 2 ^ 13 % 4 == w && e % 64 == sub)
  match hit with
  | e :: _ => w * 38 + (if e.testBit 12 then 37 else 36)
  | [] => w * 38 + sub

/-- The physical address of a granule: sub-array and place within it. -/
def State.dsPhys (s : State) (i off : Nat) : Nat := s.dsSub i off * 0x200000 + off % 0x200000
/-- The bank of a granule: sub-array and bank within it (R263). -/
def State.dsBank (s : State) (i off : Nat) : Nat := s.dsSub i off * 8 + off / 2 ^ 11 % 8
/-- The row of its bank that a granule lies in (R263). -/
def dsRow (off : Nat) : Nat := off / 2 ^ 14 % 128

/-- An access to a bank (R266, R271): a hit in the open row, or an activate that is counted and may bring a targeted refresh. -/
def State.dsTouch (s : State) (i off : Nat) : State :=
  let c := s.cluster i
  let b := s.dsBank i off
  if SMap.get (fun _ => 0) c.dsOpen b = dsRow off + 1 then s.setCluster i (c.count DS_CNT_HIT_CNT 1)
  else
    let n := SMap.get (fun _ => 0) c.dsAct b + 1
    let thr := c.rd DS_RFM_THR
    let c1 := if thr ≤ n then (c.count DS_CNT_ACT_CNT 1).count DS_CNT_RFM_CNT 1 else c.count DS_CNT_ACT_CNT 1
    s.setCluster i { c1 with
      dsOpen := SMap.set (fun _ => 0) c.dsOpen b (dsRow off + 1)
      dsAct := SMap.set (fun _ => 0) c.dsAct b (if thr ≤ n then n - thr else n) }

/-- No difference of the stored check symbols from those of the data. -/
def chkDefault (_ : Nat) : Check := []

/-- The check symbols stored with a granule. -/
def State.dsChk (s : State) (i off : Nat) (data : List Byte) : List Byte :=
  match SMap.get chkDefault (s.cluster i).dsErr (s.dsPhys i off / 64) with
  | [] => rsCheck off data
  | d => (rsCheck off data).zipWith (fun a b => a ^^^ b) d

/-- A granule with its check symbols stored. -/
def State.dsPut (s : State) (i off : Nat) (data chk : List Byte) : State :=
  let a := s.dsPhys i off
  let d := (rsCheck off data).zipWith (fun a b => a ^^^ b) chk
  s.modCluster i (fun c => { c with
    ds := Mem.write c.ds a data
    dsErr := SMap.set chkDefault c.dsErr (a / 64) (if d.all (fun b => b == 0) then [] else d) })

/-- Symbols of a stored granule that have gone wrong: 0-63 of the data, 66-68 of the check symbols, each with the bits that changed. -/
def State.dsFlip (s : State) (i off : Nat) (flips : List (Nat × Byte)) : State :=
  if flips.isEmpty then s
  else
    let data := Mem.bytes (s.cluster i).ds (s.dsPhys i off) 64
    let chk := s.dsChk i off data
    let f := fun (base : Nat) (l : List Byte) => l.zipIdx.map (fun p =>
      flips.foldl (fun b q => if q.1 = base + p.2 then b ^^^ q.2 else b) p.1)
    s.dsPut i off (f 0 data) (f 66 chk)

/-- The first error or poisoned read since both events were clear is recorded (R289). -/
def Cluster.dsErrLoc (c : Cluster) (off : Nat) (poison : Bool) : Cluster :=
  if c.rd DS_EVENT_UE = 0 ∧ c.rd DS_EVENT_POISON_RD = 0 then
    ((c.wr DS_ERR_LOC_GRAN (off / 64)).wr DS_ERR_LOC_KIND (if poison then 1 else 0)).wr DS_ERR_LOC_VALID 1
  else c

/-- The word of DS_ERR_LOC, which a fault record holds (R367). -/
def Cluster.dsErrWord (c : Cluster) : Nat := c.rd DS_ERR_LOC_GRAN + c.rd DS_ERR_LOC_KIND * 2 ^ 23 + c.rd DS_ERR_LOC_VALID * 2 ^ 31

/-- A granule is written back as the check corrected it (R267): CE, its count and the first location. -/
def State.dsCorrected (s : State) (i off : Nat) (data chk : List Byte) : State :=
  ((s.dsPut i off data chk).debit i 10 1).modCluster i (fun c =>
    let c1 := if c.rd DS_EVENT_CE = 0 then (c.wr DS_CE_LOC_GRAN (off / 64)).wr DS_CE_LOC_VALID 1 else c
    ((c1.countStart DS_CNT_CE_CNT 1).wr DS_EVENT_CE 1).count DS_CNT_WR_CNT 1)

/-- A granule is read, checked and corrected (R264, R266, R267): its data, whether it is delivered poisoned, whether it was uncorrectable, and the
state. `flips` are the symbols found wrong at this read. -/
def State.dsRead (s : State) (i off : Nat) (flips : List (Nat × Byte)) : (List Byte × Bool × Bool) × State :=
  let s0 := (((s.dsFlip i off flips).dsTouch i off).modCluster i (fun c => c.count DS_CNT_RD_CNT 1)).debit i 10 1
  let data := Mem.bytes (s0.cluster i).ds (s0.dsPhys i off) 64
  let chk := s0.dsChk i off data
  match rsVerify off data chk with
  | .clean => ((data, false, false), s0)
  | .corrected p e =>
    let fix := fun (base : Nat) (l : List Byte) => l.zipIdx.map (fun q => if base + q.2 = p then q.1 ^^^ BitVec.ofNat 8 e else q.1)
    let d := fix 0 data
    ((d, false, false), s0.dsCorrected i off d (fix 66 chk))
  | .miscorrected d => ((d, false, false), s0.dsCorrected i off d (rsCheck off d))
  | .poisoned => ((data, true, false), s0.modCluster i (fun c => (c.dsErrLoc off true).wr DS_EVENT_POISON_RD 1))
  | .bad =>
    let s1 := s0.modCluster i (fun c => ((c.dsErrLoc off false).countStart DS_CNT_UE_CNT 1).wr DS_EVENT_UE 1)
    ((data, true, true), s1.clusterFailure 8 i (s1.cluster i).dsErrWord)

/-- A granule is stored, clean or poisoned (R267). -/
def State.dsStore (s : State) (i off : Nat) (data : List Byte) (poison : Bool) : State :=
  let chk := rsCheck off data
  let s1 := s.dsPut i off data (if poison then chk.map (fun b => b ^^^ 0x5A) else chk)
  (s1.modCluster i (fun c =>
    let c1 := c.count DS_CNT_WR_CNT 1
    if poison then c1.wr DS_EVENT_POISON_WR 1 else c1)).debit i 10 1

/-- Whether a write is stored directly: all 64 bytes enabled and no add (R266). -/
def dsFull (mask : List Bool) (add : Nat) : Bool := add == 0 && mask.all id && mask.length == 64

/-- A full write (R266). -/
def State.dsWriteFull (s : State) (i off : Nat) (data : List Byte) (poison : Bool) : State := (s.dsTouch i off).dsStore i off data poison

/-- A write that reads, merges or adds, and writes back (R266, R267, R316): a granule that was uncorrectable or poisoned stays poisoned. -/
def State.dsWritePart (s : State) (i off : Nat) (data : List Byte) (mask : List Bool) (add : Nat) (poison : Bool) (flips : List (Nat × Byte)) :
    State :=
  let r := (s.modCluster i (fun c => c.count DS_CNT_RMW_CNT 1)).dsRead i off flips
  let merged := if add = 0 then (r.1.1.zip (data.zip mask)).map (fun p => if p.2.2 then p.2.1 else p.1) else addInto add 64 r.1.1 data mask
  r.2.dsStore i off merged (poison || r.1.2.1)

/-! ## The store port (R265, R266) -/

/-- A granule that the table unit waits for has arrived (R283): data, or a failure status with the bag to be poisoned. -/
def Cluster.gatherArrive (c : Cluster) (serial : Nat) (data : List Byte) (status : Nat) : Cluster :=
  { c with tu := { c.tu with gathers := c.tu.gathers.map (fun g =>
      if g.serial == serial && !g.arrived then { g with arrived := true, data := data, status := status } else g) } }

/-- The bytes of a response: bytes not enabled are zero (R296). -/
def enableBytes (be : Nat) (bs : List Byte) : List Byte := bs.zipIdx.map (fun p => if be.testBit p.2 then p.1 else 0)

/-- The RDR that answers an RD (R296, R297, R304). -/
def rdrOf (s : State) (i : Nat) (p : Pkt) (data : List Byte) (poison : Bool) : Pkt :=
  let q := { pktFrom s i p.dep with
    opc := 2, dmod := p.smod, dy := p.sy, dx := p.sx, dep := p.sep, chan := p.chan, poison := poison
    pay := bytesPay (enableBytes (p.pay.getD 1 0).toNat data) }
  setTag q s.modId (pktTag p s.modId)

/-- The result of a read goes to its requester. -/
def State.dsDeliver (s : State) (i : Nat) (q : DsReq) (data : List Byte) (poison : Bool) : State :=
  if q.src = 1 then s.modCluster i (fun c => c.gatherArrive q.tag data (if poison then 10 else 0))
  else match q.reply with
    | some p => s.sendPkt i .te (rdrOf s i p data poison)
    | none => s

/-- A request of the port takes effect. -/
def State.dsServe (s : State) (i : Nat) (q : DsReq) (flips : List (Nat × Byte)) : State :=
  if q.write then
    (if dsFull q.mask q.add then s.dsWriteFull i q.off q.data q.poison else s.dsWritePart i q.off q.data q.mask q.add q.poison flips)
  else let r := s.dsRead i q.off flips; r.2.dsDeliver i q r.1.1 r.1.2.1

/-- Whether the port may serve request n now (R265, R266): the oldest, or a younger one to an open row; never ahead of an older request to its
granule. -/
def State.dsReady (s : State) (i n : Nat) : Bool :=
  let c := s.cluster i
  match c.dsq[n]? with
  | none => false
  | some q =>
    s.runs i && (c.dsq.take n).all (fun o => o.off / 64 != q.off / 64) &&
      (n == 0 || SMap.get (fun _ => 0) c.dsOpen (s.dsBank i q.off) == dsRow q.off + 1)

/-- Request n is served and leaves the port. -/
def State.dsServeAt (s : State) (i n : Nat) (flips : List (Nat × Byte)) : State :=
  match (s.cluster i).dsq[n]? with
  | none => s
  | some q => (s.modCluster i (fun c => { c with dsq := c.dsq.eraseIdx n })).dsServe i q flips

/-- The kinds of request: 0 a read, 1 a full write, 2 a partial one. -/
def DsReq.kind (q : DsReq) : Nat := if q.write then (if dsFull q.mask q.add then 1 else 2) else 0

/-- Request n of a kind is served, if it may be and no refresh blocks the column (R265, R269). -/
def State.dsCommand (s : State) (i n kind : Nat) (flips : List (Nat × Byte)) : State :=
  match (s.cluster i).dsq[n]? with
  | none => s
  | some q => if (s.cluster i).dsBlock = 0 ∧ s.dsReady i n = true ∧ q.kind = kind then s.dsServeAt i n flips else s

/-- DS_GRANULE_READ (R266). -/
def execDsGranuleRead (c : ClusterId) (i : Fin 64) (flips : List (Nat × Byte)) (s : State) : Host.Outcome State Fault Refusal :=
  .next (s.dsCommand c.val i.val 0 flips)
/-- DS_GRANULE_WRITE (R266). -/
def execDsGranuleWrite (c : ClusterId) (i : Fin 64) (s : State) : Host.Outcome State Fault Refusal :=
  .next (s.dsCommand c.val i.val 1 [])
/-- DS_PARTIAL_WRITE (R266). -/
def execDsPartialWrite (c : ClusterId) (i : Fin 64) (flips : List (Nat × Byte)) (s : State) : Host.Outcome State Fault Refusal :=
  .next (s.dsCommand c.val i.val 2 flips)

/-- DS_ROW_CLOSE (R266): 64 SCLK without an access to the open row of a bank. -/
def execDsRowClose (c : ClusterId) (bank : Nat) (s : State) : Host.Outcome State Fault Refusal :=
  .next (s.modCluster c.val (fun k => { k with dsOpen := SMap.set (fun _ => 0) k.dsOpen bank 0 }))

/-- Whether the port takes a request of a source (R265): 64 in all, and 32 of one source while another waits. -/
def Cluster.dsRoom (c : Cluster) (src : Nat) (others : Bool) : Bool :=
  decide (c.dsq.length < 64) && (!others || decide ((c.dsq.filter (fun q => q.src == src)).length < 32))

/-- A request joins the port. -/
def Cluster.dsPush (c : Cluster) (q : DsReq) : Cluster :=
  let c1 := { c with dsq := c.dsq ++ [q] }
  if q.src = 2 then c1.count DS_CNT_MESH_CNT 1 else c1

/-- Whether a request of another source than `src` waits at the port. -/
def Cluster.dsOthers (c : Cluster) (src : Nat) : Bool := c.dsq.any (fun q => q.src != src)

/-- The port serves its requests, oldest first, until it has room for one of a source (R265). -/
def State.dsMakeRoom (i src : Nat) : Nat → State → State
  | 0, s => s
  | f + 1, s =>
    if (s.cluster i).dsRoom src ((s.cluster i).dsOthers src) then s else State.dsMakeRoom i src f (s.dsServeAt i 0 [])

/-- A request of a source joins the port, once the port has room for it (R265). -/
def State.dsEnter (s : State) (i : Nat) (q : DsReq) : State := (State.dsMakeRoom i q.src 64 s).modCluster i (fun c => c.dsPush q)

/-- The port serves all that it holds, oldest first. -/
def State.dsSettle (i : Nat) : Nat → State → State
  | 0, s => s
  | f + 1, s => if (s.cluster i).dsq.isEmpty then s else State.dsSettle i f (s.dsServeAt i 0 [])

/-- A granule that the transit engine reads from its own column (R265, R316): its request is served after all that the port held before it. -/
def State.dsTeRead (s : State) (i off : Nat) : (List Byte × Bool) × State :=
  let r := (State.dsSettle i 64 s).dsRead i off []
  ((r.1.1, r.1.2.1), r.2)

/-- DS_SCRUB (R268): served only when nothing else is queued; an uncorrectable granule is stored poisoned. -/
def execDsScrub (c : ClusterId) (flips : List (Nat × Byte)) (s : State) : Host.Outcome State Fault Refusal :=
  let cl := s.cluster c.val
  if s.runs c.val = false ∨ cl.rd DS_CTRL_SCRUB_EN = 0 ∨ cl.dsq ≠ [] ∨ cl.dsBlock ≠ 0 then .next s
  else
    let pos := cl.rd DS_SCRUB_POS_GRAN
    let r := s.dsRead c.val (64 * pos) flips
    let s1 := if r.1.2.2 then (r.2.dsStore c.val (64 * pos) r.1.1 true).modCluster c.val (fun k => k.wr DS_EVENT_SCRUB_UE 1) else r.2
    .next (s1.modCluster c.val (fun k => k.wr DS_SCRUB_POS_GRAN ((pos + 1) % dsGranules)))

/-- DS_REFRESH (R269, R271, R83): one refresh command of a column, while VT and VD, core and pump, are up; the columns of occulted clusters are not refreshed,
and a parked region debits none. The column is blocked for 350 ns, which are 700 TCLK at 2.0 GHz and 350 at 1.0 GHz (R55); they go by with ALMANAC_DEBIT's TCLK
(log entry 2). -/
def execDsRefresh (c : ClusterId) (s : State) : Host.Outcome State Fault Refusal :=
  let r := regionOf c.val
  let g := s.region r
  let ok := g.rd PWR_STATUS_RAIL_OK
  if s.enabled c.val = false ∨ (ok.testBit 1 && ok.testBit 3 && ok.testBit 4) = false then .next s
  else
    let s1 := s.setCluster c.val { s.cluster c.val with dsOpen := [], dsAct := [], dsBlock := if g.rd TRC_CTRL_HALF = 1 then 350 else 700 }
    let s2 := s1.modRegion r (fun h => h.count DS_RREF_CNT_CNT 1)
    .next (if g.power = 4 then s2 else s2.debit c.val 12 1)

/-! ## Refresh mode (R270) -/

/-- The mode that the hottest reading gives, a mode falling only 3 °C below its boundary (R270). -/
def refreshMode (mode hot : Nat) : Nat :=
  if 95 < hot ∨ (mode = 2 ∧ 92 < hot) then 2 else if 85 < hot ∨ (1 ≤ mode ∧ 82 < hot) then 1 else 0

/-- STORE_SENSOR_CONVERSION (R270, R290): the four store-wafer readings of a region in whole degrees, none where a sensor does not convert. -/
def execStoreSensorConversion (r : RegionId) (degrees : List (Option Nat)) (s : State) : Host.Outcome State Fault Refusal :=
  let g := s.region r.val
  let bad := (List.range 4).any (fun w => (degrees.getD w none).isNone)
  let at_ := fun (w : Nat) => match degrees.getD w none with | some d => d % 256 | none => g.rd (if w = 0 then THM_STORE_W0 else if w = 1 then THM_STORE_W1 else if w = 2 then THM_STORE_W2 else THM_STORE_W3)
  let hot := max (max (at_ 0) (at_ 1)) (max (at_ 2) (at_ 3))
  let old := g.rd DS_RREF_STATUS_MODE
  let mode := if bad then 2 else refreshMode old hot
  let g1 := (((g.wr THM_STORE_W0 (at_ 0)).wr THM_STORE_W1 (at_ 1)).wr THM_STORE_W2 (at_ 2)).wr THM_STORE_W3 (at_ 3)
  let g2 := ((g1.wr DS_RREF_STATUS_MODE mode).wr DS_RREF_STATUS_TEMP hot).wr DS_RREF_STATUS_SENSOR_ERR (if bad then 1 else 0)
  let s1 := s.setRegion r.val { g2 with throttled := g2.throttled || mode == 2 }
  if mode = 2 ∧ old ≠ 2 then
    .next (((clustersOf r.val).foldl (fun t i => t.modCluster i (fun c => c.wr DS_EVENT_THROTTLE 1)) s1).hifEvent 3)
  else .next s1

/-! ## Staged contributions (R234, R235, R316) -/

/-- The address that stands for a block of the deep store in the staging buffer. -/
def stageDs : Nat := 2 ^ 30

/-- The contributions of one block are applied: of cluster memory, or of the column. -/
def State.applyAny (s : State) (i addr : Nat) (ds : List DEntry) : State :=
  if addr < stageDs then s.applyBlock i addr ds
  else
    let off := addr - stageDs
    let r := s.dsTeRead i off
    let bs := ds.foldl (fun b d => addInto d.kind 64 b d.data d.mask) r.1.1
    (r.2.dsTouch i off).dsStore i off bs (r.1.2 || ds.any (fun d => d.poison))

/-- The staging buffer is applied: entries by block address and key, each block written once (R235). -/
def State.applyStaging (s : State) (c : Nat) : State :=
  let ds := (s.cluster c).staging.foldl (fun l d => insertEntry d l) []
  let blocks := ds.foldl (fun l d => if l.contains d.addr then l else l ++ [d.addr]) ([] : List Nat)
  (blocks.foldl (fun t a => t.applyAny c a (ds.filter (fun d => d.addr == a))) s).modCluster c (fun cl => { cl with staging := [] })

/-- A contribution of the mesh is staged, or applied at once where the buffer is full (R234, R235, R316). -/
def State.stageAny (s : State) (i : Nat) (d : DEntry) : State :=
  if (s.cluster i).staging.length < 1024 ∨ d.addr < stageDs then s.stage i d
  else (s.modCluster i (fun c => c.wr CM_EVENT_DACC_OVF 1)).applyAny i d.addr [d]

end Sys2Proof.Machine
end

