-- ==== Sys2Proof/Machine/TableUnit.lean ====
section
/-! DEFINITION. The table unit (R273-R288, R291): the row index, the job ports, lookups and gathers, pooling into a plate, completions, and the
index window. Readings that the words leave open are log entry 16. -/

namespace Sys2Proof.Machine

/-! ## Tables (R273) -/

/-- Whether table descriptor t is valid, every field at a value that R273 allows. -/
def Cluster.tabOk (c : Cluster) (t : Nat) : Bool :=
  let sh := c.rd (TU_TAB_SHARDS_SHARDS.nth t); let base := c.rd (TU_TAB_BASE_BASE.nth t)
  c.rd (TU_TAB_CFG_VALID.nth t) == 1 && [0, 1, 8, 9, 10, 11].contains (c.tabFmt t) && [1, 2, 4, 8].contains (c.tabGran t) &&
    decide (1 ≤ sh) && decide (sh ≤ 8192) && base % 64 == 0 && decide (base < 0x12000000) && decide (1 ≤ c.rd (TU_TAB_ROWS_ROWS.nth t))

/-- The home offset of ID n (R273). -/
def Cluster.homeOff (c : Cluster) (t n : Nat) : Nat :=
  c.rd (TU_TAB_BASE_BASE.nth t) + n / c.rd (TU_TAB_SHARDS_SHARDS.nth t) * 64 * c.tabGran t

/-- Whether an ID is bad (R273). -/
def Cluster.badId (c : Cluster) (t n : Nat) : Bool :=
  decide (c.rd (TU_TAB_ROWS_ROWS.nth t) ≤ n) || decide (0x12000000 < c.homeOff t n + 64 * c.tabGran t)

/-- The address of ID n's entry of the shard list (R273). -/
def Cluster.shardAddr (c : Cluster) (t n : Nat) : Nat :=
  512 * c.rd (TU_TAB_CFG_SHARD_ROW.nth t) + 2 * (n % c.rd (TU_TAB_SHARDS_SHARDS.nth t))

/-- The column of ID n's home: x and y of its entry of the shard list (R273). -/
def Cluster.homeXY (c : Cluster) (t n : Nat) : Nat × Nat :=
  let e := Mem.le c.mem (c.shardAddr t n) 2
  (e % 128, e / 2 ^ 8 % 128)

/-- The home of ID n as the lookup stage reads it (R238, R273): none where its entry of the shard list is delivered poisoned. No grant is counted for it, since R283
gives the stage a row read at a hit alone (DEDUCED, log entry 16). -/
def State.home (s : State) (i t n : Nat) : Option (Nat × Nat) × State :=
  let c := s.cluster i
  let r := s.memCheck i 4 (c.shardAddr t n) 2 (fun _ => true)
  (if r.1 then none else some (c.homeXY t n), r.2)

/-! ## The row index (R274-R276) -/

/-- Entries of the index for a size code (R274). -/
def idxSize (code : Nat) : Nat := 1024 * 2 ^ code
/-- The set of ID n of table t (R274). -/
def Cluster.idxSet (c : Cluster) (t n : Nat) : Nat :=
  let h := (((n + t * 2 ^ 32) ^^^ c.rd TU_HASH_ACTIVE_SEED) * 0x9E3779B97F4A7C15) % 2 ^ 64
  let h2 := h ^^^ (h >>> 31)
  (h2 >>> 32) % (idxSize (c.rd TU_IDX_ACTIVE_SIZE) / 8)

/-- Entry e of the index. -/
def Tu.entry (u : Tu) (e : Nat) : IdxEntry := SMap.get (fun _ => IdxEntry.reset) u.index e
/-- The unit with entry e replaced. -/
def Tu.setEntry (u : Tu) (e : Nat) (x : IdxEntry) : Tu := { u with index := SMap.set (fun _ => IdxEntry.reset) u.index e x }
/-- The entries of the set of ID n of table t. -/
def Cluster.ways (c : Cluster) (t n : Nat) : List Nat := (List.range 8).map (fun w => 8 * c.idxSet t n + w)
/-- The valid entry of ID n of table t. -/
def Cluster.findEntry (c : Cluster) (t n : Nat) : Option Nat :=
  (c.ways t n).find? (fun e => let x := c.tu.entry e; x.valid && x.table == t && x.id == n)
/-- The slot's address (R275). -/
def Cluster.slotAddr (c : Cluster) (e : Nat) : Nat := 512 * c.rd TU_IDX_ACTIVE_CACHE_ROW + e * c.rd TU_IDX_ACTIVE_SLOTG * 64

/-- The way that an insertion takes (R276): an invalid one, or the least recently used that is unpinned; a slot read ends with the step that grants it, so none is
pending here. -/
def Cluster.victim (c : Cluster) (t n : Nat) : Option Nat :=
  let ws := c.ways t n
  match ws.find? (fun e => !(c.tu.entry e).valid) with
  | some e => some e
  | none =>
    (ws.filter (fun e => !(c.tu.entry e).pin)).foldl (fun (b : Option Nat) e =>
      match b with
      | some k => if (c.tu.entry e).used < (c.tu.entry k).used then some e else some k
      | none => some e) none

/-- The gathers when entry e goes to another ID: those that were to fill it are pooled, and fill no slot. -/
def Tu.dropFill (u : Tu) (e : Nat) : List Gather :=
  (u.gathers.filter (fun g => !(g.pooled && g.fill == some e))).map (fun g => if g.fill == some e then { g with fill := none } else g)

/-- An ID is inserted in entry e: valid, FILL, and SLOT (R276, R282). -/
def Cluster.insertAt (c : Cluster) (e t n : Nat) (pin : Bool) : Cluster :=
  let c1 := if (c.tu.entry e).valid then c.count TU_CNT_EVICT_CNT 1 else c
  let u := { c1.tu.setEntry e ⟨t, n, true, pin, false, true, 0, c1.tu.clock⟩ with clock := c1.tu.clock + 1, gathers := c1.tu.dropFill e }
  { c1 with tu := u }.count TU_CNT_INSERT_CNT 1

/-! ## Jobs (R278-R282) -/

def TuJob.opc (j : TuJob) : Nat := bitsOf j.w0 0 4
def TuJob.table (j : TuJob) : Nat := bitsOf j.w0 4 4
def TuJob.pool (j : TuJob) : Nat := bitsOf j.w0 8 2
def TuJob.weighted (j : TuJob) : Bool := bitOf j.w0 10
def TuJob.list (j : TuJob) : Bool := bitOf j.w0 11
def TuJob.compress (j : TuJob) : Bool := bitOf j.w0 12
def TuJob.determ (j : TuJob) : Bool := bitOf j.w0 13
def TuJob.cen (j : TuJob) : Bool := bitOf j.w0 14
def TuJob.cbind (j : TuJob) : Nat := bitsOf j.w0 15 3
def TuJob.fout (j : TuJob) : Nat := bitsOf j.w0 18 4
def TuJob.tag (j : TuJob) : Nat := bitsOf j.w0 32 16
def TuJob.nb (j : TuJob) : Nat := bitsOf j.w1 0 13
def TuJob.outRow (j : TuJob) : Nat := bitsOf j.w1 16 12
def TuJob.idsRow (j : TuJob) : Nat := bitsOf j.w1 32 12
def TuJob.offsRow (j : TuJob) : Nat := bitsOf j.w1 48 12

/-- Whether bags of ID tokens follow a ring-form descriptor (R279). -/
def bagsFollow (w0 : W64) : Bool := bitsOf w0 0 4 != 0 && bitsOf w0 0 4 != 4 && !bitOf w0 11

/-- Queue q of stop 35. -/
def Tu.queue (u : Tu) (q : Nat) : TuQueue := SMap.get (fun _ => ⟨[], [], false, false⟩) u.queues q
/-- The unit with queue q replaced. -/
def Tu.setQueue (u : Tu) (q : Nat) (x : TuQueue) : Tu := { u with queues := SMap.set (fun _ => ⟨[], [], false, false⟩) u.queues q x }

/-- Places of the doorbell FIFO that are taken: jobs, and writes of space 4 that the cluster has accepted (R278, R304). -/
def Cluster.doorbells (c : Cluster) : Nat :=
  c.tu.doorbell.length + (c.arrivals.filter (fun p => p.opc == 3 && p.dep == 35)).length +
    (c.te.recv.map (fun r => (r.pool.filter (fun p => p.opc == 3 && p.dep == 35)).length +
      (match r.landing with | some l => if l.space = 4 ∧ l.count = 0 then 1 else 0 | none => 0))).sum

/-- TU_DOORBELL (R278): a write of bytes 0-15 of space 4 offset 0 puts a job into the FIFO; a full FIFO does not accept it. -/
def execTuDoorbell (c : ClusterId) (w0 w1 : W64) (s : State) : Host.Outcome State Fault Refusal :=
  let cl := s.cluster c.val
  if hasTu c.val = false ∨ s.runs c.val = false ∨ 16 ≤ cl.doorbells then .next s
  else
    let ep := (s.region (regionOf c.val)).rd TCK_RSCHED_EPOCH
    .next ((s.setCluster c.val { cl with tu := { cl.tu with doorbell := cl.tu.doorbell ++ [(w0, w1, ep)] } }).modRegion (regionOf c.val)
      (fun g => g.wake ep))

/-- Queue q takes its first token, whose credit goes back (R280). -/
def Cluster.tuTakeTok (c : Cluster) (q : Nat) (f : TuQueue → TuQueue) : Cluster :=
  { c with tu := c.tu.setQueue q (f { c.tu.queue q with toks := (c.tu.queue q).toks.drop 1 }) }.creditBack 35 q

/-- A ring-form job is malformed at a token (R280): the queue discards up to and including the next MARK. -/
def Cluster.tuMalformed (c : Cluster) (q : Nat) (t : Tok) : Cluster :=
  ((c.tuTakeTok q (fun y => { y with words := [], full := false, discard := t.tag != .mark })).countStart TU_CNT_MALFORM_CNT 1).wr TU_EVENT_MALFORMED 1

/-- The job in progress whose bags queue q still brings. -/
def Tu.reading (u : Tu) (q : Nat) : Option TuJob := u.jobs.find? (fun j => j.src == q && decide (0 < j.left))

/-- A token of a bag of the job in progress (R279-R281, R283): an ID is taken when the lookup stage has done with the one before it, and a LAST ends its bag. A
job that failed its checks takes them unread. A malformed job looks up no more and sends no completion (log entry 16). -/
def Cluster.tuBagToken (c : Cluster) (q : Nat) (j : TuJob) (t : Tok) : Cluster :=
  let put := fun (k : Cluster) (x : TuJob) => { k with tu := { k.tu with jobs := k.tu.jobs.map (fun y => if y.serial == j.serial then x else y) } }
  if t.epoch ≠ j.epoch ∨ t.tag = .mark ∨ t.tag = .pred then put (c.tuMalformed q t) { j with stale := true, todo := [], left := 0 }
  else if j.todo ≠ [] then c
  else if t.tag = .last then put (c.tuTakeTok q id) { j with left := j.left - 1 }
  else if j.status ≠ 0 ∧ j.bags = [] then c.tuTakeTok q id
  else put (c.tuTakeTok q id) { j with todo := [(j.nb - j.left, t.data, t.poison)] }

/-- A token between jobs (R278-R280): a stale one is discarded, an early one waits, a MARK is ignored, and two DATA tokens of one epoch are a descriptor, which
waits to start. -/
def Cluster.tuWordToken (c : Cluster) (q epoch : Nat) (t : Tok) : Cluster :=
  let ws := (c.tu.queue q).words
  match ws with
  | [] =>
    if t.epoch ≠ epoch ∧ t.epoch ≠ (epoch + 1) % 4 then (c.tuTakeTok q id).wr TU_EVENT_STALE 1
    else if t.epoch ≠ epoch then c
    else if t.tag = .mark then c.tuTakeTok q id
    else if t.tag = .data then c.tuTakeTok q (fun y => { y with words := [t] })
    else c.tuMalformed q t
  | w :: _ =>
    if t.epoch = w.epoch ∧ t.tag = .data then c.tuTakeTok q (fun y => { y with words := [w, t], full := true }) else c.tuMalformed q t

/-- Whether the lookup stage has not done with a job: IDs are left, or its queue has bags still to bring. -/
def TuJob.busy (j : TuJob) : Bool := !j.todo.isEmpty || decide (0 < j.left)

/-- The job of a source that the lookup stage has not done with; a source starts no other before (R278). -/
def Tu.busyFrom (u : Tu) (src : Nat) : Option TuJob := u.jobs.find? (fun j => j.src == src && j.busy)

/-- Whether source k, a queue 0-7 or the doorbell (8), has a job to start. -/
def Tu.startable (u : Tu) (k : Nat) : Bool := (if k < 8 then (u.queue k).full else !u.doorbell.isEmpty) && (u.busyFrom k).isNone

/-- The next source with a job to start, going round queues 0-7 and the doorbell (R278). -/
def Tu.nextSource (u : Tu) : Nat → Nat → Option Nat
  | 0, _ => none
  | f + 1, k => if u.startable k then some k else Tu.nextSource u f ((k + 1) % 9)

/-- A start check that needs no memory (R281): 0, or the status. -/
def Cluster.tuCheck (c : Cluster) (j : TuJob) : Nat :=
  let bags := j.opc == 1 || j.opc == 2 || j.opc == 3
  if 4 < j.opc ∨ j.w0.toNat &&& (2 ^ 64 - 1 - 0x0000FFFF003FFFFF) ≠ 0 ∨ j.w1.toNat &&& (2 ^ 64 - 1 - 0x0FFF0FFF0FFF1FFF) ≠ 0 ∨
      j.pool = 3 ∨ 4096 < j.nb ∨ (j.src = 8 ∧ j.list = false) then 1
  else if c.tabOk j.table = false ∨ (j.opc = 1 ∧ [0, 1, 9, 10, 11].contains j.fout = false) ∨
      (j.opc = 2 ∧ c.rd TU_IDX_ACTIVE_SLOTG < c.tabGran j.table) then 2
  else if (j.opc = 1 ∧ 4096 < j.outRow + plateExtent j.nb (c.tabElems j.table) j.fout) ∨
      (bags = true ∧ j.list = true ∧ 4096 < j.offsRow + ceilDiv (4 * (j.nb + 1)) 512) then 3
  else if bags = true ∧ j.list = false ∧ j.nb = 0 then 5 else 0

/-- Rows read one after another, each with its poison (R238). -/
def State.readRows (s : State) (i cls row : Nat) : Nat → List (List Byte × Bool) × State
  | 0 => ([], s)
  | n + 1 =>
    let r := s.memRead i cls (512 * row) 512
    let t := State.readRows r.2 i cls (row + 1) n
    (r.1 :: t.1, t.2)

/-- The IDs of a list-form job (R280), or the status of the checks that read its arrays (R281). -/
def State.tuList (s : State) (i : Nat) (j : TuJob) : (Nat × List (Nat × W64 × Bool)) × State :=
  let r := s.readRows i 4 j.offsRow (ceilDiv (4 * (j.nb + 1)) 512)
  let offs := (chunksOf 4 (j.nb + 1) (r.1.flatMap (fun p => p.1))).map leNat
  let total := offs.getLastD 0
  if r.1.any (fun p => p.2) then ((10, []), r.2)
  else if 4096 < j.idsRow + ceilDiv (8 * total) 512 then ((3, []), r.2)
  else if offs.headD 0 ≠ 0 ∨ (offs.zip offs.tail).any (fun p => decide (p.2 < p.1)) = true then ((4, []), r.2)
  else if j.nb = 0 then ((5, []), r.2)
  else
    let ids := r.2.readRows i 4 j.idsRow (ceilDiv (8 * total) 512)
    let words := (ids.1.flatMap (fun p => (chunksOf 8 64 p.1).map (fun b => (BitVec.ofNat 64 (leNat b), p.2))))
    let byBag := (offs.zip offs.tail).zipIdx.flatMap (fun p =>
      (sliceOf words p.1.1 (p.1.2 - p.1.1)).map (fun w => (p.2, w.1, w.2)))
    ((0, byBag), ids.2)

/-! ## Completions (R282) -/

/-- A job leaves with its status (R281, R282): the counts, the failure registers, and its completion. -/
def State.tuComplete (s : State) (i : Nat) (j : TuJob) (count : Nat) (dense : Bool) : State :=
  let ep := (s.region (regionOf i)).rd TCK_RSCHED_EPOCH
  s.modCluster i (fun c =>
    let c0 := { c with tu := { c.tu with jobs := c.tu.jobs.filter (fun k => k.serial != j.serial) } }
    if j.stale then c0
    else
      let c1 := if 1 ≤ j.status ∧ j.status ≤ 5 then (c0.count TU_CNT_REJ_CNT 1).wr TU_EVENT_JOB_ERR 1 else c0.count TU_CNT_JOBS_CNT 1
      let c2 := if j.status = 0 then c1
        else ((c1.wr TU_ERR_TAG_TAG j.tag).wr TU_ERR_TAG_STATUS j.status).wr TU_ERR_TAG_SRC j.src
      if j.cen = false ∨ j.epoch ≠ ep then c2
      else if c2.rd (TU_CBIND_VALID.nth j.cbind) = 0 then c2.count TU_CNT_REJ_CNT 1
      else { c2 with tu := { c2.tu with done := c2.tu.done ++ [⟨j.tag, j.status, dense, count, j.cbind, true, j.epoch⟩] } })

/-- A job in progress is replaced by a later version of itself. -/
def Cluster.putJob (c : Cluster) (j : TuJob) : Cluster :=
  { c with tu := { c.tu with jobs := c.tu.jobs.map (fun k => if k.serial == j.serial then j else k) } }

/-- A status met while a job runs: the highest is reported (R281). -/
def TuJob.meet (j : TuJob) (st : Nat) : TuJob := { j with status := max j.status st }

/-! ## Pooling (R284-R286) -/

/-- Whether a job pools deterministically (R285). -/
def Cluster.tuDeterm (c : Cluster) (j : TuJob) : Bool := (c.rd TU_CTRL_DETERM == 1 || j.determ) && j.pool != 2

/-- One element pooled: SUM and MEAN add, fused with the weight; MAX compares (R166, R284). -/
def poolEl (j : TuJob) (w : W32) (a x : W32) : W32 :=
  if j.pool = 2 then toF32 (fmaxZ (f32 a) (f32 (if j.weighted then toF32 (FVal.mul (f32 x) (f32 w)) else x)))
  else if j.weighted then ffma x w a else fadd a x

/-- What a bag's accumulator starts from: the spec gives a SUM or MEAN no start value for a bag with IDs, and the model's is +0 (DESIGN CHOICE, log entry 16: it
decides the sign of a sum of zeros). -/
def poolStart (j : TuJob) : W32 := if j.pool = 2 then 0xFF800000 else 0

/-- The output element of a bag's accumulator value (R166, R284). A job has no SAT field, and the model converts to FP8 with SAT = 0 (DESIGN CHOICE, log entry
16). -/
def poolOut (j : TuJob) (b : Bag) (a : W32) : Nat :=
  if b.pooled = 0 then 0
  else encodeEl .rne false j.fout (f32 (if j.pool = 1 then toF32 (FVal.divNat (f32 a) b.pooled) else a))

/-- A granule is added into its bag. -/
def TuJob.poolIn (j : TuJob) (fmt elems : Nat) (g : Gather) : TuJob :=
  let n := 512 / fmtBits fmt
  let xs := (unpackEls fmt n g.data).map (fun c => toF32 (decodeEl fmt c))
  let upd := fun (b : Bag) =>
    let acc := if b.acc.isEmpty then List.replicate elems (poolStart j) else b.acc
    if g.status = 8 ∨ g.status = 9 then { b with acc := acc, poison := true }
    else
      { b with
        acc := acc.zipIdx.map (fun p => if g.gran * n ≤ p.2 ∧ p.2 < (g.gran + 1) * n then poolEl j g.weight p.1 (xs.getD (p.2 - g.gran * n) 0) else p.1)
        poison := b.poison || g.status == 10 }
  { j with bags := modAt upd j.bags g.bag }

/-- The block of group k in strip c of the output plate: 256 codes, row-major (R123, R284). -/
def TuJob.block (j : TuJob) (k c : Nat) : List Nat :=
  (List.range 16).flatMap (fun r =>
    match j.bags[16 * k + r]? with
    | some b => (List.range 16).map (fun x => poolOut j b (b.acc.getD (16 * c + x) 0))
    | none => List.replicate 16 0)

/-- Bytes written from address a on, one masked row write per row, each poisoned as the bags of its elements are (R223, R286). PLT_CNT_ROWS counts each masked write of
a block as a row, which R262 does not settle (DESIGN CHOICE, log entry 29). -/
def State.writeMasked (s : State) (i : Nat) : Nat → Nat → List (Byte × Bool) → State
  | 0, _, _ => s
  | f + 1, a, bs =>
    if bs.isEmpty then s
    else
      let n := 512 - a % 512
      let here := bs.take n
      State.writeMasked ((s.memWrite i 4 a (here.map (fun p => p.1)) (here.map (fun _ => true)) (here.any (fun p => p.2))).modCluster i
        (fun c => c.count PLT_CNT_ROWS_CNT 1)) i f (a + n) (bs.drop n)

/-- The block of one strip of a group, of given codes, is written (R284). -/
def State.writeBlock (s : State) (i : Nat) (j : TuJob) (k c : Nat) (codes : List Nat) : State :=
  let bytes := packEls j.fout codes
  let bad := (List.range bytes.length).map (fun n => match j.bags[16 * k + n * 16 / bytes.length]? with | some b => b.poison | none => false)
  s.writeMasked i 4 (512 * (j.outRow + 1 + c * slotRows j.nb j.fout) + k * blockBytes j.fout) (bytes.zip bad)

/-- The plate's counts with a block of its output. -/
def PlateSum.addBlock (p : PlateSum) (f : Nat) (codes : List Nat) : PlateSum :=
  let nz := codes.filter (fun x => !codeZero f x)
  { p with nnz := p.nnz + nz.length, present := p.present + (if nz.isEmpty then 0 else 1), finite := p.finite && !codes.any (codeSpecial f) }

/-- Whether the plate of a job is not defined: another writer writes rows of it at the same time (R250; log entry 29). -/
def Cluster.bagClash (c : Cluster) (j : TuJob) : Bool :=
  j.plate.clash || (c.muPlates ++ c.bagPlates (some j.serial)).any (rowsMeet (c.bagPlate j))

/-- A complete group of 16 bags is written to its strips and its accumulators are free (R284). -/
def State.writeGroup (s : State) (i : Nat) (j : TuJob) (k : Nat) : State :=
  let cb := (s.cluster i).tabElems j.table / 16
  let clash := (s.cluster i).bagClash j
  let fr := if clash then s.freeCodes j.fout (256 * cb) else ([], s)
  let codes := fun (c : Nat) => if clash then sliceOf fr.1 (256 * c) 256 else j.block k c
  let s1 := (List.range cb).foldl (fun t c => t.writeBlock i j k c (codes c)) fr.2
  let plate := (List.range cb).foldl (fun p c => p.addBlock j.fout (codes c)) j.plate
  s1.modCluster i (fun c => c.putJob { j with
    written := j.written ++ [k], plate := { plate with clash := clash }
    bags := j.bags.zipIdx.map (fun p => if p.2 / 16 = k then { p.1 with acc := [] } else p.1) })

/-- Whether every granule of a bag has been pooled and every one of its IDs looked up. -/
def Cluster.bagDone (c : Cluster) (j : TuJob) (b : Nat) : Bool :=
  j.todo.all (fun t => decide (b < t.1)) && (j.left == 0 || decide (b < j.nb - j.left)) && c.tu.gathers.all (fun g => g.job != j.serial || g.bag != b || g.pooled)

/-- The first group of a job that is complete and not written. -/
def Cluster.groupReady (c : Cluster) (j : TuJob) : Option Nat :=
  (List.range (ceilDiv j.nb 16)).find? (fun k =>
    !j.written.contains k && (List.range 16).all (fun r => decide (j.nb ≤ 16 * k + r) || c.bagDone j (16 * k + r)))

/-- The counts of a dense strip, which the pooler wrote group by group (R262). PLT_CNT_ZERO counts every cell of its blocks, the padding of a ROWS that is no multiple of
16 too, which R262 does not settle (DESIGN CHOICE, log entry 29). -/
def Cluster.denseCounted (c : Cluster) (p : PlateSum) (cb cells : Nat) : Cluster :=
  ((c.count PLT_CNT_DSTRIP_CNT cb).count PLT_CNT_NNZ_CNT p.nnz).count PLT_CNT_ZERO_CNT (cells - p.nnz)

/-- A strip is read back and written compressed where R249 allows (R284). PLT_CNT_ROWS counts its rows again, and PLT_CNT_SAVED the rows below the dense extent, though
they were written dense before: R262 does not settle either (DESIGN CHOICE, log entry 29). -/
def State.packStrip (s : State) (i : Nat) (j : TuJob) (p : PlateSum) (c : Nat) : PlateSum × State :=
  let d := slotRows j.nb j.fout; let rb := ceilDiv j.nb 16
  let row := j.outRow + 1 + c * d
  let r := s.memRead i 4 (512 * row) (512 * d)
  let o := stripOut j.fout rb true (unpackEls j.fout (256 * rb) r.1.1)
  let p1 := p.add o
  if o.comp then (p1, r.2.writeStrip i 4 row o d (256 * rb) r.1.2)
  else (p1, r.2.modCluster i (fun k => k.denseCounted ⟨[], o.nnz, 0, 0, true, false⟩ 1 (256 * rb)))

/-- The last group is written: the strips are compressed where the job asks for it, then row 0 is written, and the job completes (R284). -/
def State.finishBag (s : State) (i : Nat) (j : TuJob) : State :=
  let cl := s.cluster i
  let cols := cl.tabElems j.table; let cb := cols / 16; let rb := ceilDiv j.nb 16
  let r : PlateSum × State :=
    if j.compress = true ∧ cl.rd PLT_CTRL_FORCE_DENSE = 0 then
      (List.range cb).foldl (fun (a : PlateSum × State) c => a.2.packStrip i j a.1 c) (PlateSum.start, s)
    else
      let p := { j.plate with forms := List.replicate cb false, bytes := 64 + cb * slotRows j.nb j.fout * 512 }
      (p, s.modCluster i (fun k => k.denseCounted p cb (256 * rb * cb)))
  let s1 := r.2.writeHeader i 4 j.outRow j.fout j.nb cols r.1
  let o := if cl.bagClash j then s1.openPlate i (cl.bagPlate j) r.1 else (r.1, s1)
  o.2.tuComplete i j o.1.bytes (o.1.forms.all (fun f => !f))

/-- Whether a job has nothing left to look up or to wait for, and no earlier job of its source is in progress. -/
def Cluster.jobOver (c : Cluster) (j : TuJob) : Bool :=
  !j.busy && c.tu.gathers.all (fun g => g.job != j.serial) &&
    c.tu.jobs.all (fun k => k.src != j.src || decide (j.serial ≤ k.serial))

/-- One thing that the pooler can do next for a job: write a complete group, or complete the job. -/
def State.tuAdvance (s : State) (i : Nat) (j : TuJob) : Option State :=
  let c := s.cluster i
  if j.stale then (if c.jobOver j then some (s.tuComplete i j 0 false) else none)
  else if j.opc = 1 ∧ j.bags ≠ [] then
    match c.groupReady j with
    | some k => some (s.writeGroup i j k)
    | none => if c.jobOver j then some (s.finishBag i j) else none
  else if c.jobOver j then some (s.tuComplete i j (if j.opc = 2 ∨ j.opc = 3 then j.changed else 0) false) else none

/-- The pooler does all it can: complete groups are written and finished jobs complete (R278, R284). -/
def State.tuSettle (i : Nat) : Nat → State → State
  | 0, s => s
  | f + 1, s =>
    match (s.cluster i).tu.jobs.findSome? (fun j => s.tuAdvance i j) with
    | some t => State.tuSettle i f t
    | none => s

/-- Enough for every group of every job in progress. -/
def Cluster.tuWork (c : Cluster) : Nat := (c.tu.jobs.map (fun j => ceilDiv j.nb 16 + 2)).sum + 1

/-- The pooler settles. -/
def State.tuDrain (s : State) (i : Nat) : State := State.tuSettle i (s.cluster i).tuWork s

/-! ## Lookups and gathers (R275, R276, R283) -/

/-- Granules in flight (R283). -/
def Tu.inflight (u : Tu) : Nat := (u.gathers.filter (fun g => !g.pooled && !g.hit)).length

/-- Accumulators that a job holds with its bags up to `n` begun: those whose group is not written (R284). -/
def TuJob.held (j : TuJob) (n : Nat) : Nat :=
  if j.opc = 1 ∧ j.stale = false then ((List.range n).filter (fun b => !j.written.contains (b / 16))).length else 0

/-- Accumulators that the other jobs hold. -/
def Tu.heldBy (u : Tu) (serial : Nat) : Nat :=
  ((u.jobs.filter (fun j => j.serial != serial)).map (fun j => j.held (match j.todo with | [] => j.nb - j.left | t :: _ => if j.pos = 0 then 0 else t.1))).sum

/-- A gather of one granule is requested (R283): from the local store port, or by an RD; one that the mesh would refuse at injection fails with
ACCESS. -/
def State.gather1 (s : State) (i y x off : Nat) (g : Gather) : State :=
  let n := (s.cluster i).tu.serial
  let g1 := { g with serial := n }
  let add := fun (h : Gather) => s.modCluster i (fun c => { c with tu := { c.tu with gathers := c.tu.gathers ++ [h], serial := n + 1 } })
  if inGrid x y = false ∨ off % 64 ≠ 0 ∨ 0x12000000 ≤ off then add { g1 with arrived := true, status := 8 }
  else if cidx x y = i then
    (add g1).dsEnter i ⟨1, n, false, off, [], [], 0, false, none⟩
  else (add g1).sendRd i .tu s.modId y x 2 off (BitVec.allOnes 64) ((s.cluster i).rd TU_CTRL_CHAN) n

/-- The granules of a row are requested. -/
def State.gatherRow (s : State) (i y x off : Nat) (g : Gather) : Nat → State
  | 0 => s
  | n + 1 => (State.gatherRow s i y x off g n).gather1 i y x (off + 64 * n) { g with gran := n }

/-- A SLOT hit: one row read, whose granules reach the pooler (R275). -/
def State.slotHit (s : State) (i e gran : Nat) (g : Gather) (upsets : List Nat) : State :=
  let c := s.cluster i
  let r := (s.upset i upsets).memRead i 4 (c.slotAddr e) (64 * gran)
  r.2.modCluster i (fun k =>
    let n := k.tu.serial
    let u := { k.tu.setEntry e { k.tu.entry e with used := k.tu.clock } with clock := k.tu.clock + 1, serial := n + gran }
    { k with tu := { u with gathers := u.gathers ++ (List.range gran).map (fun m =>
        { g with gran := m, serial := n + m, arrived := true, data := sliceOf r.1.1 (64 * m) 64, status := if r.1.2 then 10 else 0, hit := true }) } })

/-- A bag of a job is poisoned, and its job ends with POISON (R281, R286). -/
def Cluster.poisonBag (c : Cluster) (serial bag : Nat) : Cluster :=
  { c with tu := { c.tu with jobs := c.tu.jobs.map (fun x =>
      if x.serial == serial then { x.meet 10 with bags := modAt (fun b => { b with poison := true }) x.bags bag } else x) } }

/-- The lookup of one good ID of a BAG (R275, R276, R283). A home that the stage reads poisoned gathers nothing and poisons the bag, as poisoned data does (DEDUCED,
log entry 16). -/
def State.lookup (s : State) (i : Nat) (j : TuJob) (id : W64) (bag : Nat) (upsets : List Nat) : State :=
  let c := s.cluster i
  let n := id.toNat % 2 ^ 32; let t := j.table; let gran := c.tabGran t
  let w : W32 := BitVec.ofNat 32 (id.toNat / 2 ^ 48 * 2 ^ 16)
  let g : Gather := ⟨j.serial, bag, j.pos, 0, w, none, true, 0, false, [], 0, false, false⟩
  let s0 := (s.debit i 11 1).modCluster i (fun k => k.count TU_CNT_LOOKUP_CNT 1)
  let miss := fun (u0 : State) =>
    let r := u0.home i t n
    let u := r.2
    let k := u.cluster i
    let off := k.homeOff t n
    match r.1 with
    | none => u.modCluster i (fun k => (k.poisonBag j.serial bag).wr TU_EVENT_POISON 1)
    | some h =>
    if (k.findEntry t n).isNone ∧ k.rd TU_CTRL_POLICY = 1 ∧ gran ≤ k.rd TU_IDX_ACTIVE_SLOTG then
      match k.victim t n with
      | some e => (u.setCluster i (k.insertAt e t n false)).gatherRow i h.2 h.1 off { g with fill := some e } gran
      | none => (u.setCluster i (k.count TU_CNT_NOINS_CNT 1)).gatherRow i h.2 h.1 off g gran
    else u.gatherRow i h.2 h.1 off g gran
  match c.findEntry t n with
  | some e =>
    let x := c.tu.entry e
    if x.fill = true ∨ (x.redirect = false ∧ c.rd TU_IDX_ACTIVE_SLOTG < gran) then miss (s0.modCluster i (fun k => k.count TU_CNT_MISS_CNT 1))
    else
      let s1 := s0.modCluster i (fun k => k.count TU_CNT_HIT_CNT 1)
      if x.redirect then
        let s2 := s1.modCluster i (fun k => { k with tu := { k.tu.setEntry e { x with used := k.tu.clock } with clock := k.tu.clock + 1 } })
        let a := x.addr
        if a / 2 ^ 29 % 8 = 2 then s2.gatherRow i (a / 2 ^ 39 % 128) (a / 2 ^ 32 % 128) (a % 2 ^ 29) g gran
        else s2.gatherRow i 127 127 0 g gran
      else s1.slotHit i e gran g upsets
  | none => miss (s0.modCluster i (fun k => k.count TU_CNT_MISS_CNT 1))

/-- The job's first ID leaves its list, looked up. -/
def TuJob.next (j : TuJob) : TuJob := { j with todo := j.todo.tail, pos := j.pos + 1 }

/-- One ID of a BAG (R283, R286): skipped where bad, poisoning its bag where poisoned, else looked up. -/
def State.bagId (s : State) (i : Nat) (j : TuJob) (bag : Nat) (id : W64) (poison : Bool) (upsets : List Nat) : State :=
  let n := id.toNat % 2 ^ 32
  if poison then
    s.modCluster i (fun c => (c.putJob { j.next.meet 10 with bags := modAt (fun b => { b with poison := true }) j.bags bag }).wr TU_EVENT_POISON 1)
  else if (s.cluster i).badId j.table n = true ∨ id.toNat / 2 ^ 32 % 2 ^ 16 ≠ 0 then
    s.modCluster i (fun c => (c.putJob (j.next.meet 6)).count TU_CNT_BADID_CNT 1)
  else
    let s1 := s.modCluster i (fun c => c.putJob { j.next with bags := modAt (fun b => { b with pooled := b.pooled + 1 }) j.bags bag })
    s1.lookup i j id bag upsets

/-- Whether a BAG job that started before j has bags still to take their accumulators (R284). -/
def Tu.bagAhead (u : Tu) (j : TuJob) : Bool := j.opc == 1 && u.jobs.any (fun k => decide (k.serial < j.serial) && k.opc == 1 && k.busy)

/-- Whether the lookup stage may take the next ID of a job now: the in-flight limit, an accumulator, which bags take in job-start order, room at the store port, and
the window of deterministic pooling (R265, R283-R285). -/
def Cluster.lookupRoom (c : Cluster) (j : TuJob) (bag : Nat) : Bool :=
  let gran := c.tabGran j.table
  let u := c.tu
  let det := fun (g : Gather) => u.jobs.any (fun k => k.serial == g.job && c.tuDeterm k)
  let oldest := ((u.gathers.filter (fun g => g.pool && !g.pooled && det g)).head?).map (fun g => g.serial)
  decide (u.inflight + gran ≤ 8192) && !u.bagAhead j && decide (u.heldBy j.serial + j.held (bag + 1) ≤ 64) &&
    decide (c.dsq.length + gran ≤ 64) && (!c.dsOthers 1 || decide ((c.dsq.filter (fun q => q.src == 1)).length + gran ≤ 32)) &&
    (!c.tuDeterm j || (match oldest with | some o => decide (u.serial + gran - o ≤ 512) | none => true))

/-- The job of a serial number. -/
def Tu.job (u : Tu) (n : Nat) : Option TuJob := u.jobs.find? (fun j => j.serial == n)

/-- The lookup stage runs a BAG's IDs as far as the limits let it. -/
def State.runBag (i serial : Nat) (upsets : List Nat) : Nat → State → State
  | 0, s => s
  | f + 1, s =>
    match (s.cluster i).tu.job serial with
    | none => s
    | some j =>
      match j.todo with
      | [] => s
      | (bag, id, poison) :: _ =>
        if (s.cluster i).lookupRoom j bag then State.runBag i serial upsets f (s.bagId i j bag id poison upsets) else s

/-! ## INSERT, EVICT, FLUSH (R282) -/

/-- One ID of an INSERT: an ID already valid is pinned; else it is inserted, or FULL. -/
def State.insertId (s : State) (i : Nat) (j : TuJob) (id : W64) (poison : Bool) : State :=
  let c := s.cluster i
  let n := id.toNat % 2 ^ 32; let t := j.table
  if poison then s.modCluster i (fun k => (k.putJob (j.next.meet 10)).wr TU_EVENT_POISON 1)
  else if c.badId t n = true ∨ id.toNat / 2 ^ 32 % 2 ^ 16 ≠ 0 then
    s.modCluster i (fun k => (k.putJob (j.next.meet 6)).count TU_CNT_BADID_CNT 1)
  else
    let s1 := (s.debit i 11 1).modCluster i (fun k => k.count TU_CNT_LOOKUP_CNT 1)
    match c.findEntry t n with
    | some e =>
      let x := c.tu.entry e
      s1.modCluster i (fun k =>
        let k1 := { k with tu := k.tu.setEntry e { x with pin := true } }.count TU_CNT_HIT_CNT 1
        k1.putJob { j.next with changed := j.changed + (if x.pin then 0 else 1) })
    | none =>
      let s2 := s1.modCluster i (fun k => k.count TU_CNT_MISS_CNT 1)
      match c.victim t n with
      | none => s2.modCluster i (fun k => (k.putJob (j.next.meet 7)).wr TU_EVENT_FULL 1)
      | some e =>
        let r := s2.home i t n
        match r.1 with
        | none => r.2.modCluster i (fun k => (k.putJob (j.next.meet 10)).wr TU_EVENT_POISON 1)
        | some h =>
          (r.2.modCluster i (fun k => (k.insertAt e t n true).putJob { j.next with changed := j.changed + 1 })).gatherRow i h.2 h.1 (c.homeOff t n)
            ⟨j.serial, 0, j.pos, 0, 0, some e, false, 0, false, [], 0, false, false⟩ (c.tabGran t)

/-- The stage runs an INSERT's IDs as far as the limits let it. -/
def State.runInsert (i serial : Nat) : Nat → State → State
  | 0, s => s
  | f + 1, s =>
    match (s.cluster i).tu.job serial with
    | none => s
    | some j =>
      match j.todo with
      | [] => s
      | (_, id, poison) :: _ => if (s.cluster i).lookupRoom j 0 then State.runInsert i serial f (s.insertId i j id poison) else s

/-- One ID of an EVICT; none while its entry is being filled. -/
def State.evictId (s : State) (i : Nat) (j : TuJob) (id : W64) (poison : Bool) : Option State :=
  let c := s.cluster i
  let n := id.toNat % 2 ^ 32; let t := j.table
  if poison then some (s.modCluster i (fun k => (k.putJob (j.next.meet 10)).wr TU_EVENT_POISON 1))
  else if c.badId t n = true ∨ id.toNat / 2 ^ 32 % 2 ^ 16 ≠ 0 then
    some (s.modCluster i (fun k => (k.putJob (j.next.meet 6)).count TU_CNT_BADID_CNT 1))
  else
    let s1 := (s.debit i 11 1).modCluster i (fun k => k.count TU_CNT_LOOKUP_CNT 1)
    match c.findEntry t n with
    | none => some (s1.modCluster i (fun k => (k.putJob j.next).count TU_CNT_MISS_CNT 1))
    | some e =>
      if (c.tu.entry e).fill then none
      else some (s1.modCluster i (fun k =>
        (({ k with tu := k.tu.setEntry e IdxEntry.reset }.putJob { j.next with changed := j.changed + 1 }).count TU_CNT_EVICT_CNT 1).count
          TU_CNT_HIT_CNT 1))

/-- The stage runs an EVICT's IDs until one is being filled. -/
def State.runEvict (i serial : Nat) : Nat → State → State
  | 0, s => s
  | f + 1, s =>
    match (s.cluster i).tu.job serial with
    | none => s
    | some j =>
      match j.todo with
      | [] => s
      | (_, id, poison) :: _ => match s.evictId i j id poison with | some t => State.runEvict i serial f t | none => s

/-- Every entry is invalidated (R282, R288). -/
def Cluster.flushIndex (c : Cluster) : Cluster :=
  let n := (c.tu.index.filter (fun p => p.2.valid)).length
  { c with tu := { c.tu with index := [] } }.count TU_CNT_EVICT_CNT n

/-- A FLUSH takes effect once no fill is in progress. -/
def State.runFlush (i serial : Nat) (s : State) : State :=
  let c := s.cluster i
  match c.tu.job serial with
  | none => s
  | some j => if j.todo.isEmpty ∨ c.tu.index.any (fun p => p.2.fill) = true then s else s.setCluster i (c.flushIndex.putJob j.next)

/-! ## Starting jobs (R278, R281) -/

/-- The job at the front of a source, with its descriptor's tokens; in ring form its bags are still to come. -/
def Tu.front (u : Tu) (src : Nat) : Option (TuJob × List Tok) :=
  let mk := fun (w0 w1 : W64) (ep : Nat) => (⟨w0, w1, ep, src, 0, 0, [], [], 0, [], PlateSum.start, false, u.serial, 0⟩ : TuJob)
  if src < 8 then
    match (u.queue src).words with
    | w0 :: w1 :: _ =>
      if (u.queue src).full then
        some ({ mk w0.data w1.data w0.epoch with left := if bagsFollow w0.data then bitsOf w1.data 0 13 else 0 }, [w0, w1]) else none
    | _ => none
  else match u.doorbell with
    | (w0, w1, ep) :: _ => some (mk w0 w1 ep, [])
    | [] => none

/-- The front job leaves its source. -/
def Tu.popFront (u : Tu) (src : Nat) : Tu :=
  let u1 := if src < 8 then u.setQueue src { u.queue src with words := [], full := false } else { u with doorbell := u.doorbell.tail }
  { u1 with rr := (src + 1) % 9, serial := u.serial + 1 }

/-- A job starts (R281): its checks, and its IDs; a job that fails does no work. A poisoned descriptor ends it with POISON. -/
def State.tuBegin (s : State) (i src : Nat) (j : TuJob) (toks : List Tok) : State :=
  let s0 := s.modCluster i (fun c => { c with tu := c.tu.popFront src })
  let enter := fun (t : State) (k : TuJob) => t.modCluster i (fun c => { c with tu := { c.tu with jobs := c.tu.jobs ++ [k] } })
  let st := (s.cluster i).tuCheck j
  if st ≠ 0 then enter s0 { j with status := st }
  else if toks.any (fun t => t.poison) then (enter s0 { j with status := 10 }).modCluster i (fun c => c.wr TU_EVENT_POISON 1)
  else if j.opc = 0 then enter s0 j
  else if j.opc = 4 then enter s0 { j with todo := [(0, 0, false)] }
  else if j.list then
    let r := s0.tuList i j
    if r.1.1 = 0 then enter r.2 { j with todo := r.1.2, bags := List.replicate j.nb ⟨[], 0, false⟩ }
    else if r.1.1 = 10 then (enter r.2 { j with status := 10 }).modCluster i (fun c => c.wr TU_EVENT_POISON 1)
    else enter r.2 { j with status := r.1.1 }
  else enter s0 { j with bags := List.replicate j.nb ⟨[], 0, false⟩ }

/-- The job of an operation that a source goes on with, or starts: the one of the source with IDs left, or the source's next where it is its turn in round-robin
order (R278); jobs of other sources with IDs left hold it up no more than their commands do. Its serial number, and the state. -/
def State.tuTake (s : State) (i src opc : Nat) : Option (Nat × State) :=
  let c := s.cluster i
  if s.runs i = false then none
  else match c.tu.busyFrom src with
    | some j => if j.opc = opc then some (j.serial, s) else none
    | none =>
      if c.tu.commit = true ∨ c.tu.nextSource 9 c.tu.rr ≠ some src then none
      else match c.tu.front src with
        | none => none
        | some (j, toks) =>
          let known := if opc = 0 then j.opc = 0 ∨ 4 < j.opc else j.opc = opc
          if known then some (j.serial, s.tuBegin i src j toks) else none

/-- The number of IDs a job has left. -/
def State.tuLeft (s : State) (i serial : Nat) : Nat := match (s.cluster i).tu.job serial with | some j => j.todo.length | none => 0

/-- TU_JOB_TOKEN (R278-R280): a queue takes its next token: one to discard, one of a bag of its job in progress, or one between jobs. A complete descriptor waits
until its job starts, and what follows it stays in the queue, so its producer stalls on credits (R283). -/
def execTuJobToken (c : ClusterId) (q : Fin 8) (s : State) : Host.Outcome State Fault Refusal :=
  let cl := s.cluster c.val
  let x := cl.tu.queue q.val
  if s.runs c.val = false ∨ x.full = true then .next s
  else match x.toks with
    | [] => .next s
    | t :: _ => .next (State.tuDrain (s.setCluster c.val (
        if x.discard then cl.tuTakeTok q.val (fun y => { y with discard := t.tag != .mark })
        else match cl.tu.reading q.val with
          | some j => cl.tuBagToken q.val j t
          | none => cl.tuWordToken q.val ((s.region (regionOf c.val)).rd TCK_RSCHED_EPOCH) t)) c.val)

/-- TU_NOP (R279, R281): a NOP is checked and completes; so does a job whose OPC is reserved. -/
def execTuNop (c : ClusterId) (src : Fin 9) (s : State) : Host.Outcome State Fault Refusal :=
  match s.tuTake c.val src.val 0 with
  | some (_, t) => .next (t.tuDrain c.val)
  | none => .next s
/-- BAG (R281, R283, R284). -/
def execTuBag (c : ClusterId) (src : Fin 9) (upsets : List Nat) (s : State) : Host.Outcome State Fault Refusal :=
  match s.tuTake c.val src.val 1 with
  | some (n, t) => .next ((State.runBag c.val n upsets (t.tuLeft c.val n) t).tuDrain c.val)
  | none => .next s
/-- INSERT (R281, R282). -/
def execTuInsert (c : ClusterId) (src : Fin 9) (s : State) : Host.Outcome State Fault Refusal :=
  match s.tuTake c.val src.val 2 with
  | some (n, t) => .next ((State.runInsert c.val n (t.tuLeft c.val n) t).tuDrain c.val)
  | none => .next s
/-- EVICT (R281, R282). -/
def execTuEvict (c : ClusterId) (src : Fin 9) (s : State) : Host.Outcome State Fault Refusal :=
  match s.tuTake c.val src.val 3 with
  | some (n, t) => .next ((State.runEvict c.val n (t.tuLeft c.val n) t).tuDrain c.val)
  | none => .next s
/-- FLUSH (R281, R282). -/
def execTuFlush (c : ClusterId) (src : Fin 9) (s : State) : Host.Outcome State Fault Refusal :=
  match s.tuTake c.val src.val 4 with
  | some (n, t) => .next ((State.runFlush c.val n t).tuDrain c.val)
  | none => .next s

/-! ## Arrivals (R276, R284-R286) -/

/-- The slot of a lookup is filled once all its granules are in: one masked row write, and FILL clears (R276). A row of which a granule was refused
or lost leaves no entry. -/
def State.fillSlot (s : State) (i : Nat) (g : Gather) (e : Nat) : State :=
  let c := s.cluster i
  let mine := c.tu.gathers.filter (fun k => k.job == g.job && k.pos == g.pos)
  if mine.all (fun k => k.pooled) = false then s
  else
    let s1 := s.modCluster i (fun k => { k with tu := { k.tu with gathers := k.tu.gathers.filter (fun k => !(k.job == g.job && k.pos == g.pos)) } })
    if mine.any (fun k => k.status == 8 || k.status == 9) then s1.modCluster i (fun k => { k with tu := k.tu.setEntry e IdxEntry.reset })
    else
      let bytes := mine.flatMap (fun k => k.data)
      (s1.memWrite i 4 (c.slotAddr e) bytes (bytes.map (fun _ => true)) (mine.any (fun k => k.status == 10))).modCluster i (fun k =>
        { k with tu := k.tu.setEntry e { k.tu.entry e with fill := false } })

/-- The event that a failed gather records (R286). -/
def Cluster.gatherEvent (c : Cluster) (status : Nat) : Cluster :=
  if status = 8 then c.wr TU_EVENT_ACCESS 1 else if status = 9 then c.wr TU_EVENT_LOST 1 else if status = 10 then c.wr TU_EVENT_POISON 1 else c

/-- Whether a granule may be pooled now: under deterministic pooling, no granule before it at its place of its bag waits (R285). -/
def Cluster.inOrder (c : Cluster) (j : TuJob) (g : Gather) : Bool :=
  !c.tuDeterm j || c.tu.gathers.all (fun k => k.job != g.job || k.bag != g.bag || k.gran != g.gran || k.pooled || decide (g.pos ≤ k.pos))

/-- A granule is pooled: into its bag, or only counted, and toward its slot. -/
def State.poolGranule (s : State) (i : Nat) (j : TuJob) (g : Gather) : State :=
  let c := s.cluster i
  let t := j.table
  let j1 := if j.stale then j else j.meet g.status
  let j2 := if g.pool && !j.stale then j1.poolIn (c.tabFmt t) (c.tabElems t) g else j1
  let c1 := (c.putJob j2).gatherEvent g.status
  let c2 := if g.pool then c1.count TU_CNT_GRAN_CNT 1 else c1
  let gs := if g.fill.isSome then c2.tu.gathers.map (fun k => if k.serial == g.serial then { k with pooled := true } else k)
    else c2.tu.gathers.filter (fun k => k.serial != g.serial)
  let s1 := s.setCluster i { c2 with tu := { c2.tu with gathers := gs } }
  match g.fill with
  | some e => s1.fillSlot i g e
  | none => s1

/-- TU_GRANULE_ARRIVAL (R284): gather i, which has arrived, reaches the pooler. -/
def execTuGranuleArrival (c : ClusterId) (i : Nat) (s : State) : Host.Outcome State Fault Refusal :=
  let cl := s.cluster c.val
  match cl.tu.gathers[i]? with
  | none => .next s
  | some g =>
    match cl.tu.job g.job with
    | none => .next s
    | some j =>
      if s.runs c.val = true ∧ g.arrived = true ∧ g.pooled = false ∧ cl.inOrder j g = true then .next ((s.poolGranule c.val j g).tuDrain c.val)
      else .next s

/-! ## Completions, the commit and the window (R282, R288, R291) -/

/-- The payload of a completion token (R282). -/
def TuDone.payload (d : TuDone) : W64 :=
  BitVec.ofNat 64 (d.tag + d.status * 2 ^ 16 + (if d.dense then 2 ^ 20 else 0) + d.count * 2 ^ 32)

/-- TU_COMPLETION_SEND (R282): the oldest completion of binding b is sent from stop 35 on lane 0, against the binding's credit. -/
def execTuCompletionSend (c : ClusterId) (b : Fin 8) (s : State) : Host.Outcome State Fault Refusal :=
  let cl := s.cluster c.val
  let cr := cl.rd (TU_CBIND_CREDITS.nth b.val)
  match takeFirst (fun (d : TuDone) => d.cbind == b.val) cl.tu.done with
  | none => .next s
  | some (d, rest) =>
    if s.runs c.val = false ∨ cr = 0 then .next s
    else
      let c1 := { cl.wr (TU_CBIND_CREDITS.nth b.val) (cr - 1) with tu := { cl.tu with done := rest } }
      .next (s.setCluster c.val (c1.pushOut 35 0 (cl.rd (TU_CBIND_ELEM.nth b.val)) (cl.rd (TU_CBIND_QUEUE.nth b.val))
        ⟨d.payload, .data, d.epoch, false⟩))

/-- TU_COMMIT_GO (R288): TU_COMMIT.GO is written with 1. -/
def execTuCommitGo (c : ClusterId) (s : State) : Host.Outcome State Fault Refusal :=
  if hasTu c.val = true ∧ s.suppressed c.val = false then .next (s.modCluster c.val (fun k => { k with tu := { k.tu with commit := true } }))
  else .next s

/-- TU_COMMIT_APPLY (R288): with no job in progress and no granule in flight, the staged fields apply and every entry is invalidated, or they return
to the active values. -/
def execTuCommitApply (c : ClusterId) (s : State) : Host.Outcome State Fault Refusal :=
  let cl := s.cluster c.val
  if s.suppressed c.val = true ∨ cl.tu.commit = false ∨ cl.tu.jobs ≠ [] ∨ cl.tu.gathers ≠ [] then .next s
  else
    let size := cl.rd TU_IDX_SIZE; let slotg := cl.rd TU_IDX_SLOTG; let row := cl.rd TU_IDX_CACHE_ROW
    let k := { cl with tu := { cl.tu with commit := false } }
    if 4 < size ∨ [1, 2, 4, 8].contains slotg = false ∨ 4096 < row + idxSize size * slotg / 8 then
      .next (s.setCluster c.val (((((k.wr TU_IDX_SIZE (cl.rd TU_IDX_ACTIVE_SIZE)).wr TU_IDX_SLOTG (cl.rd TU_IDX_ACTIVE_SLOTG)).wr TU_IDX_CACHE_ROW
        (cl.rd TU_IDX_ACTIVE_CACHE_ROW)).wr TU_HASH_SEED (cl.rd TU_HASH_ACTIVE_SEED)).wr TU_EVENT_CFG_ERR 1))
    else
      .next (s.setCluster c.val ((((k.wr TU_IDX_ACTIVE_SIZE size).wr TU_IDX_ACTIVE_SLOTG slotg).wr TU_IDX_ACTIVE_CACHE_ROW row).wr
        TU_HASH_ACTIVE_SEED (cl.rd TU_HASH_SEED)).flushIndex)

/-- The window shows entry e (R291). -/
def Cluster.showEntry (c : Cluster) (e : Nat) : Cluster :=
  let x := c.tu.entry e
  ((((((((c.wr TU_IDX_SEL_ENTRY e).wr TU_IDX_TAG_ID x.id).wr TU_IDX_FLAGS_TABLE x.table).wr TU_IDX_FLAGS_VALID (if x.valid then 1 else 0)).wr
    TU_IDX_FLAGS_PIN (if x.pin then 1 else 0)).wr TU_IDX_FLAGS_KIND (if x.redirect then 1 else 0)).wr TU_IDX_FLAGS_FILL (if x.fill then 1 else 0)).wr
    TU_IDX_RD_LO_ADDR_LO (x.addr % 2 ^ 32)).wr TU_IDX_RD_HI_ADDR_HI (x.addr / 2 ^ 32)

/-- TU_IDX_SEL_WRITE (R291). -/
def execTuIdxSelWrite (c : ClusterId) (v : W32) (s : State) : Host.Outcome State Fault Refusal :=
  if hasTu c.val = true ∧ s.suppressed c.val = false then .next (s.modCluster c.val (fun k => k.showEntry (TU_IDX_SEL_ENTRY.of v))) else .next s

/-- A write of TU_IDX_FLAGS (R291): the window is stored into the entry while no job is in progress and no commit is pending, and the entry is one of
the index; otherwise the write is ignored and CFG_ERR sets. -/
def State.tuIdxFlags (s : State) (c : Nat) (v : W32) : State :=
  let cl := s.cluster c
  let e := cl.rd TU_IDX_SEL_ENTRY
  if hasTu c = false ∨ s.suppressed c = true then s
  else if cl.tu.jobs ≠ [] ∨ cl.tu.commit = true ∨ idxSize (cl.rd TU_IDX_ACTIVE_SIZE) ≤ e then s.setCluster c (cl.wr TU_EVENT_CFG_ERR 1)
  else
    let x : IdxEntry := ⟨TU_IDX_FLAGS_TABLE.of v, cl.rd TU_IDX_TAG_ID, TU_IDX_FLAGS_VALID.of v == 1, TU_IDX_FLAGS_PIN.of v == 1,
      TU_IDX_FLAGS_KIND.of v == 1, false, cl.rd TU_IDX_RD_LO_ADDR_LO + 2 ^ 32 * cl.rd TU_IDX_RD_HI_ADDR_HI, cl.tu.clock⟩
    s.setCluster c ({ cl with tu := cl.tu.setEntry e x }.showEntry e)

/-- TU_IDX_FLAGS_WRITE (R291). -/
def execTuIdxFlagsWrite (c : ClusterId) (v : W32) (s : State) : Host.Outcome State Fault Refusal := .next (s.tuIdxFlags c.val v)

/-! ## The rest of the region (R287) -/

/-- Whether the table unit is quiescent (R287). -/
def Cluster.tuQuiet (c : Cluster) (epoch : Nat) : Bool :=
  (List.range 8).all (fun q => let x := c.tu.queue q; x.toks.all (fun t => t.epoch != epoch) && x.words.isEmpty) && c.tu.doorbell.isEmpty &&
    c.tu.jobs.isEmpty && c.tu.gathers.isEmpty && c.tu.done.isEmpty

/-- The table unit when the epoch changes by force (R287): jobs of the stale epoch stop issuing lookups, their granules in flight are pooled and
discarded, and no completion is sent. -/
def Cluster.tuForce (c : Cluster) : Cluster :=
  let whole := ((List.range 8).filter (fun q => (c.tu.queue q).full)).length
  let n := c.tu.jobs.length + whole + c.tu.doorbell.length
  let c1 := (List.range 8).foldl (fun (k : Cluster) q =>
    { k with tu := k.tu.setQueue q { k.tu.queue q with words := [], full := false } }) c
  let c2 := { c1 with tu := { c1.tu with
    doorbell := [], done := [],
    jobs := (c1.tu.jobs.filter (fun j => c1.tu.gathers.any (fun g => g.job == j.serial))).map (fun j => { j with stale := true, todo := [], left := 0 }) } }
  if n = 0 then c2 else (c2.countStart TU_CNT_STALE_CNT n).wr TU_EVENT_STALE 1

end Sys2Proof.Machine
end

