-- ==== Sys2Proof/Machine/ClusterRegs.lean ====
section
/-! DEFINITION. Cluster registers (R114-R117, R147, R197, R241, R262, R289, R291, R323, R324): what a read of space 3 returns, with the fields
that mirror the state, and what a write does. -/

namespace Sys2Proof.Machine

/-! ## Access codes (R7, R8) -/

/-- The W1S fields that a written 1 leaves set, since the table gives them no 'reads 0' (R7). -/
def staysSet : List Fld := [MU_LIST_CTRL_RUN, EYE_ACC_CTRL_GO, EYE_SCAN_CTRL_CAPTURE, EYE_SCAN_CTRL_SHIFT, PWR_CTRL_FORCE_DARK]

/-- A word after a write of `v`, field by field under its access code; reserved bits stay. `locked` says that RWL fields are read only. -/
def applyWrite (t : List RegRow) (o : Nat) (locked : Bool) (old v : W32) : W32 :=
  t.foldl (fun w r =>
    if r.covers o then
      let m := r.fld.mask
      match r.access with
      | .rw | .rwp | .wo => (w &&& ~~~ m) ||| (v &&& m)
      | .rwl => if locked then w else (w &&& ~~~ m) ||| (v &&& m)
      | .w1c => w &&& ~~~ (v &&& m)
      | .w1s => if staysSet.contains r.fld then w ||| (v &&& m) else w
      | .ro => w
    else w) old

/-- A register file after a write (R7). -/
def Regs.write (t : List RegRow) (r : Regs) (o : Nat) (locked : Bool) (v : W32) : Regs :=
  Regs.setWord t r o (applyWrite t o locked (Regs.word t r o) v)

/-- The words of a block with its mirrored fields in place. -/
def mirrored (w : W32) (o : Nat) (ms : List (Fld × Nat)) : W32 := ms.foldl (fun a p => if p.1.off = o then p.1.put a p.2 else a) w

/-- Bits from a test. -/
def bitsBy (n : Nat) (f : Nat → Bool) : Nat := (List.range n).foldl (fun a k => if f k then a + 2 ^ k else a) 0

/-- 1 for true. -/
def bit1 (b : Bool) : Nat := if b then 1 else 0

/-! ## Reads -/

/-- Whether the link of cluster i toward `dir` is in service (R292, R303, R323): neither end a hole, and both ends' transit clocks on. -/
def State.linkUp (s : State) (i dir : Nat) : Bool :=
  match neighbour i dir with
  | none => false
  | some j =>
    !s.opaqueRouter i && !s.opaqueRouter j && !((s.cluster i).rd MSH_STATUS_DEAD).testBit dir && !(s.region (regionOf i)).hole &&
      !(s.region (regionOf j)).hole && (s.region (regionOf i)).rd TRC_STATUS_STATE != 0 && (s.region (regionOf j)).rd TRC_STATUS_STATE != 0

/-- Whether the link of cluster i toward `dir` is lost to a hole (R303, R323): an opaque router, or a region whose crossing was reported dead. -/
def State.linkDead (s : State) (i dir : Nat) : Bool :=
  match neighbour i dir with
  | none => false
  | some j => s.opaqueRouter j || ((s.cluster i).rd MSH_STATUS_DEAD).testBit dir

/-- Whether a region is golden (R300): the rotation begins with the first tick instant of the module tick count. -/
def State.goldenRegion (s : State) (r : Nat) : Bool := decide (0 < s.dome.ticks) && s.dome.golden == r

/-- The mirrored fields of the blocks of space 3 except the elements' (R116, R117, R147, R241, R289, R291, R323, R324). -/
def State.clMirrors (s : State) (i : Nat) : List (Fld × Nat) :=
  let c := s.cluster i; let g := s.region (regionOf i)
  let sel := c.rd EL_RING_CRSEL_STOP; let out := c.rd EL_RING_CRSEL_OUT; let x := c.elem sel
  [(MSH_ID_X, cx i), (MSH_ID_Y, cy i), (MSH_ID_REGION, regionOf i), (MSH_ID_HALF, halfOf (regionOf i)), (MSH_ID_TU, bit1 (hasTu i)),
    (MSH_ID_EDGE, bit1 (isEdge i)), (MSH_MODID_MODID, s.modId), (MSH_STATUS_LINK_UP, bitsBy 4 (s.linkUp i)),
    (MSH_STATUS_CROSSING, bitsBy 4 (isCrossing i)), (MSH_STATUS_GOLDEN, bit1 (s.goldenRegion (regionOf i))), (MSH_STATUS_DEAD, bitsBy 4 (s.linkDead i)),
    (MSH_STATUS_SUPPR, bit1 (s.suppressed i)), (MSH_STATUS_REFUSE, bit1 g.parking), (MSH_HOLE_GEN_GEN, g.holeGen % 65536),
    (TE_STATUS_INFLIGHT, c.te.send.inflight), (TE_STATUS_BUSY, bit1 (c.te.send.items.any (fun t => decide (t.kind ≤ 4)))),
    (TE_STATUS_SSTREAMS, (c.te.send.streams.filter (fun t => !t.outst.isEmpty)).length), (TE_STATUS_RSTREAMS, c.te.recv.length),
    (TE_POOL_USED, (c.te.recv.map (fun r => r.pool.length)).sum),
    (CM_STATUS_NP_BUSY, bit1 (c.narrow.any (fun p => !p.2.isEmpty) || !c.accs.isEmpty)), (CM_STATUS_DACC_USED, c.staging.length),
    (CM_NQ_STATUS_CONFLICT, bitsBy 8 (fun q => decide (1 < (c.nqProducers q).length))), (CM_NQ_STATUS_NONEMPTY, bitsBy 8 (fun q => !(c.nq q).isEmpty)),
    (DS_STATUS_INFLIGHT, c.dsq.length), (DS_STATUS_REFRESHING, bit1 (decide (0 < c.dsBlock))), (DS_STATUS_MODE, g.rd DS_RREF_STATUS_MODE),
    (EL_RING_STATUS_EMPTY, bitsBy 4 (fun k => !(c.ringToks.any (fun t => t.ring == k)) && !(c.ringCreds.any (fun t => t.ring == k && t.slot.isSome)))),
    (EL_RING_STATUS_RESV, bitsBy 4 (fun k => c.ringResv.any (fun p => p.1 == k))),
    (EL_RING_CREDIT_CREDITS, if sel < 32 then x.rd (EL_OBIND_CREDITS.nth out) else 0),
    (EL_RING_CREDIT_DST_STOP, if sel < 32 then x.rd (EL_OBIND_DST_STOP.nth out) else 0),
    (EL_RING_CREDIT_DST_QUEUE, if sel < 32 then x.rd (EL_OBIND_DST_QUEUE.nth out) else 0),
    (EL_RING_CREDIT_BOUND, if sel < 32 then x.rd (EL_OBIND_VALID.nth out) else 0),
    (MU_STATUS_BUSY, bit1 (!c.mu.runs.isEmpty)), (MU_STATUS_CHAIN_OPEN, bit1 c.mu.chain.isSome),
    (MU_STATUS_RESIDENT, match c.mu.folding with | some f => bit1 f.resident | none => 0),
    (MU_STATUS_HELD, bit1 (s.held i && (match c.mu.queue with | m :: _ => c.mu.startable m | [] => false))),
    (MU_STATUS_QDEPTH, c.mu.queue.length), (MU_STATUS_CQDEPTH, c.mu.cq.length)] ++
  (List.range 8).flatMap (fun q =>
    let p := c.nqProducers q
    [(CM_NQBIND_ELEM.nth q, p.headD 0 / 2), (CM_NQBIND_OUT.nth q, p.headD 0 % 2), (CM_NQBIND_VALID.nth q, bit1 (!p.isEmpty)),
      (CM_NQBIND_COUNT.nth q, (c.nq q).length)]) ++
  (if hasTu i then [(TU_STATUS_BUSY, bit1 (!c.tu.jobs.isEmpty)), (TU_STATUS_COMMIT_PEND, bit1 c.tu.commit), (TU_STATUS_DBQ, c.tu.doorbell.length),
    (TU_STATUS_INFLIGHT, c.tu.inflight)] else [])

/-- The mirrored fields of element e's block (R197). -/
def State.elMirrors (s : State) (i e : Nat) : List (Fld × Nat) :=
  let x := (s.cluster i).elem e; let d := (s.region (regionOf i)).drainKind
  [(EL_STATUS_READY, bitsBy 8 (fun k => x.ready e k d)), (EL_STATUS_RUN, bitsBy 8 (fun k => (x.ctx k).state == .run)),
    (EL_STATUS_FAULTED, bitsBy 8 (fun k => (x.ctx k).state == .fault)), (EL_STATUS_QUIET, bit1 (x.quiet false)),
    (EL_OBIND_BUF.nth 0, x.out0.length), (EL_OBIND_BUF.nth 1, x.out1.length)] ++
  (List.range 8).map (fun q => (EL_QCFG_COUNT.nth q, (x.queue q).length))

/-- A read of space 3 (R114): unlisted offsets, and the TU_ block where there is no table unit, read as zero. -/
def State.clusterReg (s : State) (i off : Nat) : W32 :=
  if 0x10000 ≤ off then
    let e := (off - 0x10000) / 0x800; let o := (off - 0x10000) % 0x800
    mirrored (Regs.word elTable ((s.cluster i).elem e).regs o) o (s.elMirrors i e)
  else if off / 0x1000 = 5 ∧ hasTu i = false then 0
  else mirrored (Regs.word clTable (s.cluster i).regs off) off (s.clMirrors i)

/-! ## Writes -/

/-- A write that takes effect as its access codes say. -/
def Cluster.regPut (c : Cluster) (off : Nat) (v : W32) : Cluster := { c with regs := Regs.write clTable c.regs off false v }

/-- A write that takes effect only while the region is drained; otherwise it is ignored and the block's CFG_ERR sets (R456). -/
def State.drainedPut (s : State) (i off : Nat) (err : Fld) (v : W32) : State :=
  if (s.region (regionOf i)).drainedState then s.modCluster i (fun c => c.regPut off v) else s.modCluster i (fun c => c.wr err 1)

/-- A write of a completion binding, which loads its CREDITS with 16 (R131, R282, R319). -/
def State.cbindPut (s : State) (i off : Nat) (err credits : Fld) (v : W32) : State :=
  if (s.region (regionOf i)).drainedState then
    s.modCluster i (fun c => (c.regPut off v).wr { credits with off := off } 16) else s.modCluster i (fun c => c.wr err 1)

/-- A write of an element's block (R197). -/
def State.elemRegWrite (s : State) (i e o : Nat) (v : W32) : State :=
  let drained := (s.region (regionOf i)).drainedState
  let put := fun (t : State) => t.modElem i e (fun x => { x with regs := Regs.write elTable x.regs o false v })
  let guarded := o == 0 || o == 0x10 || o == 0x14 || (decide (0x20 ≤ o) && decide (o < 0x40)) || (decide (0x80 ≤ o) && decide (o < 0xC0)) ||
    (decide (0x100 ≤ o) && decide (o < 0x180))
  if guarded then
    if drained then
      let s1 := put s
      let s2 := if (o = 0x10 ∨ o = 0x14) ∧ (List.range 8).any (fun q => decide (1 < ((s1.cluster i).nqProducers q).length)) = true then
          s1.modCluster i (fun c => c.wr CM_EVENT_NQ_CONFLICT 1) else s1
      if o = 0 ∧ EL_CTRL_ARM.of v = 1 then s2.armElem i e else s2
    else s.modElem i e (fun x => x.wr EL_EVENT_CFG_ERR 1)
  else put s

/-- A write of the TU_ block (R288, R291). -/
def State.tuRegWrite (s : State) (i off : Nat) (v : W32) : State :=
  if hasTu i = false then s
  else if off = 0x5000 then
    if (s.region (regionOf i)).drainedState = false then s.modCluster i (fun c => c.wr TU_EVENT_CFG_ERR 1)
    else
      s.modCluster i (fun c =>
        let c1 := (c.wr TU_CTRL_DETERM (TU_CTRL_DETERM.of v)).wr TU_CTRL_POLICY (TU_CTRL_POLICY.of v)
        if TU_CTRL_CHAN.of v < 4 then c1.wr TU_EVENT_CFG_ERR 1 else c1.wr TU_CTRL_CHAN (TU_CTRL_CHAN.of v))
  else if 0x5040 ≤ off ∧ off < 0x5060 then s.cbindPut i off TU_EVENT_CFG_ERR TU_CBIND_CREDITS v
  else if 0x5100 ≤ off ∧ off < 0x5200 then s.drainedPut i off TU_EVENT_CFG_ERR v
  else if off = 0x5018 then (if TU_COMMIT_GO.of v = 1 then s.modCluster i (fun c => { c with tu := { c.tu with commit := true } }) else s)
  else if off = 0x5060 then s.modCluster i (fun c => c.showEntry (TU_IDX_SEL_ENTRY.of v))
  else if off = 0x5068 then s.tuIdxFlags i v
  else s.modCluster i (fun c => c.regPut off v)

/-- A write of space 3 (R114, R456). -/
def State.clusterRegWrite (s : State) (i off : Nat) (v : W32) : State :=
  let put := s.modCluster i (fun c => c.regPut off v)
  if 0x10000 ≤ off then s.elemRegWrite i ((off - 0x10000) / 0x800) ((off - 0x10000) % 0x800) v
  else if off / 0x1000 = 5 then s.tuRegWrite i off v
  else if (0x1040 ≤ off ∧ off < 0x1060) then s.cbindPut i off TE_EVENT_CFG_ERR TE_CBIND_CREDITS v
  else if (0x1800 ≤ off ∧ off < 0x2000) then s.drainedPut i off TE_EVENT_CFG_ERR v
  else if off = 0x2000 then s.cmCtrl i v
  else if off = 0x3000 then s.drainedPut i off PLT_EVENT_CFG_ERR v
  else if off = 0x4000 then
    s.modCluster i (fun c =>
      let c1 := c.wr DS_CTRL_SCRUB_EN (DS_CTRL_SCRUB_EN.of v)
      if DS_CTRL_SCRUB_H.of v = 0 then c1.wr DS_EVENT_CFG_ERR 1 else c1.wr DS_CTRL_SCRUB_H (DS_CTRL_SCRUB_H.of v))
  else if off = 0x4004 then
    s.modCluster i (fun c =>
      let t := DS_RFM_THR.of v
      if t < 256 ∨ 16384 < t then c.wr DS_EVENT_CFG_ERR 1 else c.wr DS_RFM_THR t)
  else if 0x8020 ≤ off ∧ off < 0x8040 then s.muCbind i ((off - 0x8020) / 4) v
  else if (0x8040 ≤ off ∧ off < 0x804C) ∨ (0x8200 ≤ off ∧ off < 0x8400) then s.drainedPut i off MU_EVENT_CFG_ERR v
  else if off = 0x8014 then (if MU_LIST_CTRL_RUN.of v = 1 then s.modCluster i Cluster.listRun else s)
  else put

end Sys2Proof.Machine
end

