-- ==== Sys2Proof/Machine/Mesh.lean ====
section
/-! DEFINITION. The wafer mesh (R292-R304, R309, R320): routers, crossings, holes, acceptance at the destination and the replication of multicast
packets. A router's inputs are queues that one ROUTER_ARBITRATE works off by one packet each; readings that the words leave open are log
entry 15. -/

namespace Sys2Proof.Machine

/-! ## Router inputs -/

/-- The packets at an input of a router: ports 0-3 N, E, S, W, and 4 local. -/
def Cluster.input (c : Cluster) (plane port : Nat) : List Pkt := SMap.get (fun _ => []) c.fifo (8 * plane + port)
/-- The cluster with an input replaced. -/
def Cluster.setInput (c : Cluster) (plane port : Nat) (l : List Pkt) : Cluster := { c with fifo := SMap.set (fun _ => []) c.fifo (8 * plane + port) l }
/-- The credits of a crossing (R302). -/
def Cluster.xcredit (c : Cluster) (plane dir : Nat) : Nat := SMap.get (fun _ => 8) c.xcred (4 * plane + dir)
/-- The cluster with the credits of a crossing replaced. -/
def Cluster.setXcredit (c : Cluster) (plane dir n : Nat) : Cluster := { c with xcred := SMap.set (fun _ => 8) c.xcred (4 * plane + dir) n }

/-- The cluster that a unicast packet goes to: of this module, or the edge cluster of its PORT (R295). -/
def State.target (s : State) (p : Pkt) : Nat := if p.dmod = s.modId then cidx p.dx p.dy else portCluster p.rsv

/-- A packet enters the mesh at a router's local input, on the plane with the shorter queue. The router treats one for its own cluster as any that arrives
there (R304). -/
def State.routerInject (s : State) (i : Nat) (p : Pkt) : State :=
  s.modCluster i (fun c =>
    let plane := if (c.input 0 4).length ≤ (c.input 1 4).length then 0 else 1
    c.setInput plane 4 (c.input plane 4 ++ [p]))

/-- The packet with the PORT that its routing entry and the sender's count n give; none where there is no route (R295, R338). -/
def State.ported (s : State) (p : Pkt) (n : Nat) : Option Pkt :=
  if p.dmod = s.modId then some p else (s.route p.dmod).map (fun e => { p with rsv := e.pick p n })

/-- The router of cluster i has sent a packet itself: its count follows (R338). -/
def State.routerSent (s : State) (i : Nat) (p : Pkt) : State := s.modCluster i (fun c => { c with rfab := fabNext s.modId p c.rfab })

/-- A router sends a packet, if there is a route. -/
def State.routerSend (s : State) (i : Nat) (p : Pkt) : State :=
  match s.ported p (s.cluster i).rfab with | some q => (s.routerSent i p).routerInject i q | none => s

/-- A port's adapter sends a packet through the mesh, if there is a route. -/
def State.portSend (s : State) (port : Nat) (p : Pkt) : Option State :=
  (s.ported p (s.port port).fab).map (fun q =>
    (s.modPort port (fun z => { z with fab := fabNext s.modId p z.fab })).routerInject (portCluster port) q)

/-! ## Port adapters (R331, R337, R338) -/

/-- The class of an opcode: 1 RSP, 0 REQ (R331). -/
def pktClass (opc : Nat) : Nat := if opc = 2 ∨ opc = 7 ∨ opc = 8 ∨ opc = 9 then 1 else 0

/-- The packets of an egress queue or of an ingress buffer, by VC and class. -/
def Port.queue (m : SMap (List LinkPkt)) (vc cls : Nat) : List LinkPkt := SMap.get (fun _ => []) m (2 * vc + cls)
/-- A buffer with the packets of one pair replaced. -/
def Port.setQueue (m : SMap (List LinkPkt)) (vc cls : Nat) (l : List LinkPkt) : SMap (List LinkPkt) := SMap.set (fun _ => []) m (2 * vc + cls) l

/-- A packet enters an egress queue; the passage debits one class 13 event (R337). -/
def State.egress (s : State) (port : Nat) (p : Pkt) : State :=
  let l := match p.link with | some q => q | none => (63, 0)
  let k := pktClass p.opc
  (s.modPort port (fun z => { z with egress := Port.setQueue z.egress l.2 k (Port.queue z.egress l.2 k ++ [⟨l.1, l.2, k, { p with link := none }⟩]) })).debit
    (portCluster port) 13 1

/-- A packet whose destination module has no route (R337): a REQ becomes a NAK UNREACH to its source, an RSP is discarded; either is counted. -/
def State.portUnreach (s : State) (port : Nat) (p : Pkt) : State :=
  let i := portCluster port
  let s1 := (s.modPort port (fun z => z.countStart ZL_CNT_UNREACH_CNT 1)).hifEvent 8
  if pktClass p.opc = 0 then (s1.portSend port (nakOf s i p 2)).getD s1 else s1

/-- A packet at the egress side of a port that is not UP goes back into the mesh with a new PORT (R336). -/
def State.reinject (s : State) (port : Nat) (p : Pkt) : State :=
  match s.portSend port p with
  | some t => t
  | none => s.portUnreach port p

/-- Whether an egress queue has room for a packet (R332). -/
def State.egressRoom (s : State) (port : Nat) (p : Pkt) : Bool :=
  let vc := match p.link with | some q => q.2 | none => 0
  let z := s.port port
  decide ((Port.queue z.egress vc (pktClass p.opc)).length < Config.egressQueue) || z.rd ZL_STATUS_STATE != 5

/-! ## Acceptance at the destination (R300, R304, R306) -/

/-- Whether a packet's source region is golden (R300). -/
def State.goldenPkt (s : State) (p : Pkt) : Bool := p.smod == s.modId && s.goldenRegion (regionOf (cidx p.sx p.sy))

/-- Whether a receive stream is the packet's. -/
def RecvStream.is (r : RecvStream) (p : Pkt) : Bool := r.smod == p.smod && r.sy == p.sy && r.sx == p.sx && r.sep == p.sep && r.chan == p.chan

/-- An entry of the receive-stream table that may be reused (R306): nothing of its stream is pooled, and 131,072 TCLK have passed since its last
delivery. -/
def RecvStream.reusable (r : RecvStream) : Bool := r.pool.isEmpty && decide (131072 ≤ r.idle)

/-- The receive-stream entries that a new stream may take, unused or reusable (R300, R306): of the 248 open to any packet, and for a golden one of the 8 kept
ones too. -/
def Te.streamsFree (t : Te) (gold : Bool) : Nat :=
  (248 - (t.recv.filter (fun r => !r.kept && !r.reusable)).length) + (if gold then 8 - (t.recv.filter (fun r => r.kept && !r.reusable)).length else 0)

/-- The stream of a packet. -/
def Te.stream (t : Te) (p : Pkt) : Option RecvStream := t.recv.find? (fun r => r.is p)

/-- Entries of the reorder pool in use (R306). -/
def Te.pooled (t : Te) : Nat := (t.recv.map (fun r => r.pool.length)).sum

/-- Packets delivered to the cluster that wait to be handled, of the opcodes named. -/
def Cluster.arrived (c : Cluster) (opcs : List Nat) : Nat := (c.arrivals.filter (fun p => opcs.contains p.opc)).length

/-- Whether an ordered packet finds the entries it needs (R300, R306): a stream entry where it opens one, or a pool entry where it is ahead. -/
def State.streamRoom (s : State) (i : Nat) (p : Pkt) : Bool :=
  let c := s.cluster i
  let gold := s.goldenPkt p
  let pool := c.te.pooled + c.arrived [3, 4, 5]
  let poolOk := decide (pool < if gold then 512 else 480)
  let opening := (c.arrivals.filter (fun q => [3, 4, 5].contains q.opc && (c.te.stream q).isNone)).length
  let strOk := decide (opening < c.te.streamsFree gold)
  match c.te.stream p with
  | some r => isStart p || (r.known && r.expect == p.seq) || r.absorb || poolOk
  | none => strOk && (isStart p || poolOk)

/-- Whether the store port has room for one more request of the mesh, those already accepted counted (R265, R304). -/
def State.dsAccepts (s : State) (i : Nat) : Bool :=
  let c := s.cluster i
  c.dsRoom 2 (c.dsOthers 2) && decide (c.dsq.length + (c.arrivals.filter (fun q => q.dep == 34 && (q.opc == 1 || q.opc == 4))).length < 64)

/-- Whether the space that a landing fills takes another granule now (R304). A landing in space 4 has its place in the doorbell FIFO. -/
def State.landRoom (s : State) (i : Nat) (p : Pkt) : Bool :=
  let c := s.cluster i
  match c.te.stream p with
  | some r => match r.landing with
    | some l => l.space != 2 || s.dsAccepts i
    | none => true
  | none => true

/-- Whether the destination takes a packet (R304): what it refuses deflects. A parked region takes no read data (R94) but at an attachment, which stays in
service (R23); one that still drains does, since its drain waits for it (log entry 15). -/
def State.accepts (s : State) (i : Nat) (p : Pkt) : Bool :=
  let c := s.cluster i
  if p.dmod ≠ s.modId ∧ p.mcast = false then s.egressRoom p.rsv p
  else if p.opc = 7 ∨ p.opc = 8 ∨ p.opc = 9 ∨ p.opc = 12 then true
  else if s.suppressed i then true
  else if p.opc = 2 then p.dep == 44 || (s.region (regionOf i)).power != 4
  else if (s.region (regionOf i)).parking then false
  else if p.opc = 1 then p.dep != 34 || s.dsAccepts i
  else if p.opc = 3 then s.streamRoom i p && (p.dep != 34 || s.dsAccepts i) && (p.dep != 35 || decide (c.doorbells < 16))
  else if p.opc = 5 then s.streamRoom i p
  else if p.opc = 4 then s.streamRoom i p && s.landRoom i p
  else if p.opc = 6 then
    decide ((c.te.send.items.filter (fun t => t.kind == 4)).length + c.arrived [6] < 16) && (bitsOf (p.pay.headD 0) 29 3 != 2 || s.dsAccepts i)
  else true

/-- A packet leaves the mesh at its destination (R292, R323, R324). -/
def State.ejected (s : State) (i : Nat) (p : Pkt) : State :=
  let s1 := s.modCluster i (fun c => let c1 := c.count MSH_CNT_EJ_CNT 1; if p.dep = 36 ∨ p.dep < 32 ∨ p.mcast = true ∨ p.opc = 3 ∨ p.opc = 4 then c1.count TE_CNT_EJ_CNT 1 else c1)
  if p.dmod ≠ s.modId ∧ p.mcast = false then
    (if (s.port p.rsv).rd ZL_STATUS_STATE = 5 then s1.egress p.rsv p else s1.reinject p.rsv p)
  else s1.modCluster i (fun c => { c with arrivals := c.arrivals ++ [p] })

/-! ## Holes (R303) -/

/-- Whether a region's hole map holds cluster j. -/
def Region.inHole (g : Region) (j : Nat) : Bool := g.holes.contains j || g.holes.contains (8960 + regionOf j)

/-- The clusters that can be reached from a set of them without entering a hole of the map. -/
def Region.reach (g : Region) : Nat → List Nat → List Nat → List Nat
  | 0, _, seen => seen
  | f + 1, front, seen =>
    match front with
    | [] => seen
    | i :: rest =>
      let new := ((List.range 4).filterMap (fun d => neighbour i d)).filter (fun j => !g.inHole j && !seen.contains j)
      Region.reach g f (rest ++ new) (seen ++ new)

/-- Whether the map shows a destination to be inside a hole or cut off (R303). -/
def Region.unreachable (g : Region) (i j : Nat) : Bool :=
  !g.holes.isEmpty && (g.inHole j || !(g.reach 8960 [i] [i]).contains j)

/-- The directions that lead nearer: y before x (R299). -/
def productive (i j : Nat) : List Nat :=
  (if cy i < cy j then [0] else if cy j < cy i then [2] else []) ++ (if cx i < cx j then [1] else if cx j < cx i then [3] else [])

/-- How many clusters the hole in direction d of cluster i goes on toward `side`. -/
def Region.holeRun (g : Region) (d side : Nat) : Nat → Nat → Nat
  | 0, _ => 0
  | f + 1, i =>
    match neighbour i d with
    | some j => if g.inHole j then (match neighbour i side with | some k => 1 + Region.holeRun g d side f k | none => 1 + f) else 0
    | none => 0

/-- The way round a hole that lies in direction d: toward its nearer corner; east and then north where both are as near (R303). -/
def Region.around (g : Region) (i d : Nat) : List Nat :=
  let a := if d % 2 = 0 then 1 else 0; let b := if d % 2 = 0 then 3 else 2
  if g.holeRun d b 112 i < g.holeRun d a 112 i then [b, a] else [a, b]

/-! ## Assigning packets to outputs (R299, R302, R303) -/

/-- The work of one arbitration: the state, the outputs still free, and the ejections left. -/
structure Arb where
  s : State
  outs : List Nat
  ej : Nat
  deriving DecidableEq, Repr

/-- Whether an output of router i can be used on a plane: its link is in service, and a crossing has a credit (R302, R303). -/
def State.outFree (s : State) (i plane d : Nat) : Bool :=
  s.linkUp i d && (!isCrossing i d || decide (0 < (s.cluster i).xcredit plane d)) &&
    (match neighbour i d with | some j => !(s.region (regionOf i)).inHole j | none => false)

/-- A packet leaves by output d. -/
def Arb.put (a : Arb) (i plane d : Nat) (p : Pkt) : Arb :=
  match neighbour i d with
  | none => a
  | some j =>
    let s1 := a.s.modCluster i (fun c =>
      let c1 := c.count MSH_CNT_FWD_CNT 1
      if isCrossing i d then c1.setXcredit plane d (c1.xcredit plane d - 1) else c1)
    { a with s := s1.modCluster j (fun c => c.setInput plane (opposite d) (c.input plane (opposite d) ++ [p])), outs := a.outs.filter (fun o => o != d) }

/-- A packet finds no productive output free and takes another (R299, R302): parallel to the seam where only a crossing's credit was missing. -/
def Arb.deflect (a : Arb) (i plane : Nat) (want : List Nat) (p : Pkt) : Arb :=
  let seam := want.filter (fun d => isCrossing i d && a.s.linkUp i d && (a.s.cluster i).xcredit plane d == 0)
  let par := a.outs.filter (fun o => seam.any (fun d => o % 2 != d % 2))
  let opts := if par.isEmpty then a.outs else par
  let v := a.s.takeFree
  let d := opts.getD (v.1.toNat % max 1 opts.length) 0
  let s1 := v.2.modCluster i (fun c => let c1 := c.count MSH_CNT_DEFL_CNT 1; if seam.isEmpty then c1 else c1.count MSH_CNT_XDEFL_CNT 1)
  let s2 := s1.modRegion (regionOf i) (fun g => let g1 := g.chrono 18 1; if seam.isEmpty then g1 else g1.chrono 19 1)
  Arb.put { a with s := s2 } i plane d p

/-- A packet is sent toward cluster j: a free productive output, the way round a hole, or a deflection. None where no output is free. -/
def Arb.toward (a : Arb) (i plane j : Nat) (p : Pkt) : Option Arb :=
  let want := productive i j
  let g := a.s.region (regionOf i)
  match want.find? (fun d => a.outs.contains d) with
  | some d => some (a.put i plane d p)
  | none =>
    let blocked := !want.isEmpty && want.all (fun d => match neighbour i d with | some k => g.inHole k | none => true)
    let side := if blocked then (g.around i (want.headD 0)).find? (fun d => a.outs.contains d) else none
    match side with
    | some d => some (a.put i plane d p)
    | none => if a.outs.isEmpty then none else some (a.deflect i plane want p)

/-- A packet that its destination refuses is counted, and deflects (R304). -/
def Arb.refuse (a : Arb) (i plane : Nat) (p : Pkt) : Option Arb :=
  if a.outs.isEmpty then none
  else
    let s1 := a.s.modCluster i (fun c =>
      let c1 := c.count MSH_CNT_REFUSE_CNT 1
      if (p.opc = 3 ∨ p.opc = 4 ∨ p.opc = 5) ∧ a.s.streamRoom i p = false then c1.count TE_CNT_POOLREF_CNT 1 else c1)
    some (Arb.deflect { a with s := s1.modRegion (regionOf i) (fun g => g.chrono 20 1) } i plane [] p)

/-- A packet that cannot be reached becomes a NAK UNREACH to its source (R303), which goes on its way; the router that finds it sets UNREACH. -/
def Arb.nakUnreach (a : Arb) (i plane : Nat) (p : Pkt) : Option Arb :=
  let s0 := (a.s.modCluster i (fun c => c.wr MSH_EVENT_UNREACH 1)).hifEvent 8
  match s0.ported (nakOf s0 i p 2) (s0.cluster i).rfab with
  | none => some { a with s := s0 }
  | some q =>
    let s1 := s0.routerSent i (nakOf s0 i p 2)
    let k := s1.target q
    if k = i then some { a with s := s1.ejected i q }
    else if (s1.region (regionOf i)).unreachable i k then some { a with s := s1 }
    else match Arb.toward { a with s := s1 } i plane k q with
      | some b => some b
      | none => some { a with s := s1.routerInject i q }

/-- A unicast packet is assigned (R299, R303, R304): the local port at its destination, a NAK UNREACH where it cannot be reached, or an output. -/
def Arb.unicast (a : Arb) (i plane : Nat) (p : Pkt) : Option Arb :=
  let j := a.s.target p
  if j = i then
    (if a.s.accepts i p then
      (if a.ej = 0 then (if a.outs.isEmpty then none else some (a.deflect i plane [] p)) else some { a with s := a.s.ejected i p, ej := a.ej - 1 })
    else a.refuse i plane p)
  else if (a.s.region (regionOf i)).unreachable i j then a.nakUnreach i plane p
  else a.toward i plane j p

/-! ## Multicast (R295, R320) -/

/-- The rectangle of a multicast packet: X0, Y0, X1, Y1 (R295). -/
def mcRect (p : Pkt) : Nat × Nat × Nat × Nat := (p.dx, p.dy, p.seq % 128, p.seq / 128 % 2 + 2 * p.rsv)
/-- A multicast packet with another rectangle. -/
def setRect (p : Pkt) (x0 y0 x1 y1 : Nat) : Pkt := { p with dx := x0, dy := y0, seq := x1 % 128 + y1 % 2 * 128, rsv := y1 / 2 % 64 }
/-- The rectangle's point nearest a packet's source (R320). -/
def mcPoint (p : Pkt) : Nat :=
  let r := mcRect p
  cidx (max r.1 (min p.sx r.2.2.1)) (max r.2.1 (min p.sy r.2.2.2))

/-- The copies that a router of the rectangle sends on: north, south, east, west, each with the part still ahead (R320). -/
def mcCopies (i : Nat) (p : Pkt) : List (Nat × Pkt) :=
  let r := mcRect p
  let x := cx i; let y := cy i
  (if y < r.2.2.2 then [(0, setRect p r.1 (y + 1) r.2.2.1 r.2.2.2)] else []) ++ (if r.2.1 < y then [(2, setRect p r.1 r.2.1 r.2.2.1 (y - 1))] else []) ++
    (if x < r.2.2.1 then [(1, setRect p (x + 1) y r.2.2.1 y)] else []) ++ (if r.1 < x then [(3, setRect p r.1 y (x - 1) y)] else [])

/-- One copy leaves; where its output is taken it waits at the local input. -/
def Arb.copy (a : Arb) (i plane : Nat) (c : Nat × Pkt) : Arb :=
  let a1 := { a with s := a.s.modCluster i (fun k => k.count MSH_CNT_MCREP_CNT 1) }
  if a1.outs.contains c.1 then a1.put i plane c.1 c.2 else { a1 with s := a1.s.modCluster i (fun k => k.setInput plane 4 (k.input plane 4 ++ [c.2])) }

/-- A multicast packet is assigned: toward its rectangle, a NAK UNREACH where that cannot be reached (R303), or delivered and replicated; a delivery that is refused,
or finds the local port taken, becomes a packet for this member alone, which deflects. -/
def Arb.multicast (a : Arb) (i plane : Nat) (p : Pkt) : Option Arb :=
  let j := mcPoint p
  if j ≠ i then (if (a.s.region (regionOf i)).unreachable i j then a.nakUnreach i plane p else a.toward i plane j p)
  else
    let a1 := (mcCopies i p).foldl (fun b c => b.copy i plane c) a
    let mine := setRect p (cx i) (cy i) (cx i) (cy i)
    let ok := a1.s.accepts i p
    if ok = true ∧ 0 < a1.ej then some { a1 with s := a1.s.ejected i p, ej := a1.ej - 1 }
    else match (if ok then (if a1.outs.isEmpty then none else some (a1.deflect i plane [] mine)) else a1.refuse i plane mine) with
      | some b => some b
      | none => some { a1 with s := a1.s.modCluster i (fun k => k.setInput plane 4 (k.input plane 4 ++ [mine])) }

/-- A packet is assigned. -/
def Arb.assign (a : Arb) (i plane : Nat) (p : Pkt) : Option Arb := if p.mcast then a.multicast i plane p else a.unicast i plane p

/-! ## One arbitration -/

/-- Priority of a packet (R299): lower goes first. -/
def State.pktRank (s : State) (p : Pkt) (port : Nat) : List Nat :=
  [if p.mcast then 0 else if s.goldenPkt p then 1 else 2, 65536 - p.age, port]

/-- A packet with its port in its place by priority. -/
def insertPkt (s : State) (q : Nat × Pkt) : List (Nat × Pkt) → List (Nat × Pkt)
  | [] => [q]
  | r :: t => if lexLt (s.pktRank q.2 q.1) (s.pktRank r.2 r.1) then q :: r :: t else r :: insertPkt s q t

/-- The front packet of an input leaves it. -/
def State.popInput (s : State) (i plane port : Nat) : State := s.modCluster i (fun c => c.setInput plane port ((c.input plane port).drop 1))

/-- Whether a golden packet can be ejected here (R300). -/
def State.goldenEject (s : State) (i : Nat) (p : Pkt) : Bool := !p.mcast && s.goldenPkt p && s.target p == i && s.accepts i p

/-- Heads in priority order (R299), but those that are ejected ahead of all others first (R300). -/
def Arb.order (a : Arb) (i : Nat) (hs : List (Nat × Pkt)) : List (Nat × Pkt) :=
  let l := hs.foldl (fun l q => insertPkt a.s q l) []
  let first := (l.filter (fun q => a.s.goldenEject i q.2)).take a.ej
  first ++ l.filter (fun q => !first.contains q)

/-- The heads of a set of inputs are assigned in priority order; one that finds no output stays, and crossing buffers are read only while an output
is free. -/
def Arb.heads (a : Arb) (i plane : Nat) (ports : List Nat) (crossing : Bool) : Arb :=
  let hs := ports.filterMap (fun d => ((a.s.cluster i).input plane d).head?.map (fun p => (d, p)))
  (a.order i hs).foldl (fun b q =>
    if crossing = true ∧ b.outs = [] then b
    else match Arb.assign { b with s := b.s.popInput i plane q.1 } i plane q.2 with
      | some c => c
      | none => b) a

/-- Every packet at a router's inputs of a plane grows one TCLK older (R309). -/
def Cluster.growOlder (c : Cluster) (plane : Nat) : Cluster :=
  (List.range 5).foldl (fun k d => k.setInput plane d ((k.input plane d).map (fun p => { p with age := min 65535 (p.age + 1) }))) c

/-- A header parity error discards the packet at an input (R294); in a cluster already occulted it is only counted (R356). -/
def State.headerErr (s : State) (i plane d : Nat) : State :=
  if ((s.cluster i).input plane d).isEmpty then s
  else
    let s1 := (s.popInput i plane d).modCluster i (fun c => (c.countStart MSH_CNT_PERR_CNT 1).wr MSH_EVENT_HPERR 1)
    if s.enabled i then s1.clusterFailure 6 i 0 else s1

/-- A payload parity error poisons the packet at an input (R294); one that carries POISON already is no failure (R357), and in a cluster already occulted the
failure is only counted (R356). -/
def State.payloadErr (s : State) (i plane d : Nat) : State :=
  match (s.cluster i).input plane d with
  | [] => s
  | p :: rest =>
    if p.poison then s
    else
      let s1 := s.modCluster i (fun c => (c.setInput plane d ({ p with poison := true } :: rest)).wr MSH_EVENT_PPERR 1)
      if s.enabled i then s1.clusterFailure 5 i 0 else s1.modCluster i (fun c => c.countStart MSH_CNT_PERR_CNT 1)

/-! ## Loss by age (R309) -/

/-- A router's packet ages out (R309, R355): it becomes a NAK LOST to its source. -/
def State.ageRouter (s : State) (i plane port n : Nat) : State :=
  match ((s.cluster i).input plane port)[n]? with
  | none => s
  | some p =>
    let s1 := s.modCluster i (fun c =>
      ((c.setInput plane port ((c.input plane port).eraseIdx n)).countStart MSH_CNT_LOST_CNT 1).wr MSH_EVENT_LOST 1)
    let s2 := (s1.failure 10 (regionOf i) none 0 false true).hifEvent 8
    s2.routerSend i (nakOf s2 i p 3)

/-- The pooled packets of stream n are discarded, its landing is LOST, and the stream absorbs packets until a START arrives (R310). -/
def State.loseStream (s : State) (i n : Nat) : State :=
  s.modCluster i (fun c =>
    let t := { c.te with recv := modAt (fun r => { r with pool := [], absorb := true, landing := r.landing.map (fun l => { l with status := 10 }) }) c.te.recv n }
    ({ c with te := t }.countStart TE_CNT_LOST_CNT 1).wr TE_EVENT_LOST 1)

/-- The packets at an input of a router that would grow past age 65,535 age out (R309). -/
def State.ageInput (i plane port : Nat) : Nat → State → State
  | 0, s => s
  | f + 1, s =>
    match ((s.cluster i).input plane port).findIdx? (fun p => decide (65535 ≤ p.age)) with
    | none => s
    | some n => State.ageInput i plane port f (s.ageRouter i plane port n)

/-! ## The local port -/

/-- The next packet that the local port may inject: from the router's own queue, then from the agents, which do not inject while their clocks are
stopped. -/
def State.nextLocal (s : State) (i plane : Nat) : Option (Pkt × Option Agent) :=
  let c := s.cluster i
  match c.input plane 4 with
  | p :: _ => some (p, none)
  | [] =>
    let ags := (if s.runs i then [Agent.te, Agent.tu] else []) ++ [Agent.attach]
    ags.findSome? (fun a => (c.sender a).out.head?.map (fun p => (p, some a)))

/-- One packet is injected into an output left free (R299); a flit that an agent injects is debited once as class 9 (R298). -/
def Arb.inject (a : Arb) (i plane : Nat) : Arb :=
  if a.outs.isEmpty then a
  else match a.s.nextLocal i plane with
    | none => a
    | some (p, src) =>
      let s1 := match src with
        | none => a.s.popInput i plane 4
        | some ag => ((a.s.modSender i ag (fun x => { x with out := x.out.drop 1 })).debit i 9 1).modCluster i
            (fun c => if ag = .te then c.count TE_CNT_INJ_CNT 1 else c)
      match Arb.assign { a with s := s1 } i plane p with
      | some b => b
      | none => a

/-- ROUTER_ARBITRATE (R299, R302, R294, R309): one TCLK of one router of one plane: its packets grow older, or age out, and it works off the heads of its inputs: links from inside its region, then crossing
buffers while an output is free, then the local port. -/
def execRouterArbitrate (c : ClusterId) (plane : Fin 2) (headerErrs payloadErrs : List (Fin 5)) (s : State) :
    Host.Outcome State Fault Refusal :=
  let i := c.val
  if s.opaqueRouter i = true ∨ (s.region (regionOf i)).hole = true then .next s
  else
    let s0 := (List.range 5).foldl (fun t d => State.ageInput i plane.val d ((t.cluster i).input plane.val d).length t) s
    let s1 := s0.modCluster i (fun k => k.growOlder plane.val)
    let s2 := headerErrs.foldl (fun t d => t.headerErr i plane.val d.val) s1
    let s3 := payloadErrs.foldl (fun t d => t.payloadErr i plane.val d.val) s2
    let a0 : Arb := ⟨s3, (List.range 4).filter (fun d => s3.outFree i plane.val d), if isEdge i then 2 else 1⟩
    let a1 := a0.heads i plane.val ((List.range 4).filter (fun d => !isCrossing i d)) false
    let a2 := a1.heads i plane.val ((List.range 4).filter (isCrossing i)) true
    let a3 := a2.inject i plane.val
    let a4 := if isEdge i then a3.inject i plane.val else a3
    .next a4.s

/-- CROSSING_CREDIT (R302): a credit of the crossing comes back to its sender. -/
def execCrossingCredit (c : ClusterId) (plane : Fin 2) (dir : Fin 4) (s : State) : Host.Outcome State Fault Refusal :=
  let cl := s.cluster c.val
  match neighbour c.val dir.val with
  | none => .next s
  | some j =>
    let held := ((s.cluster j).input plane.val (opposite dir.val)).length
    let n := cl.xcredit plane.val dir.val
    if isCrossing c.val dir.val = true ∧ n + held < 8 then .next (s.setCluster c.val (cl.setXcredit plane.val dir.val (n + 1))) else .next s

/-! ## PACKET_AGE_OUT (R309) -/

/-- PACKET_AGE_OUT (R309): a packet held by a router, or by the reorder pool, would reach age 65,536. -/
def execPacketAgeOut (c : ClusterId) (holder : Holder) (s : State) : Host.Outcome State Fault Refusal :=
  match holder with
  | .router plane port i =>
    match ((s.cluster c.val).input plane.val port.val)[i]? with
    | some p => .next (if 65535 ≤ p.age then s.ageRouter c.val plane.val port.val i else s)
    | none => .next s
  | .pool n =>
    match (s.cluster c.val).te.recv[n]? with
    | none => .next s
    | some r =>
      if r.pool.any (fun p => decide (65535 ≤ p.age)) = false then .next s
      else .next (((s.loseStream c.val n).failure 10 (regionOf c.val) none 0 false true).hifEvent 8)

/-! ## Dead crossings and the hole map (R303) -/

/-- CROSSING_DEAD (R303, R89): a router sees the crossing to a dead region go; the region controller reports it, and the dome controller adds the
region to its hole map. -/
def execCrossingDead (c : ClusterId) (dir : Fin 4) (s : State) : Host.Outcome State Fault Refusal :=
  match neighbour c.val dir.val with
  | none => .next s
  | some j =>
    if isCrossing c.val dir.val = true ∧ (s.region (regionOf j)).hole = true then
      let cl := s.cluster c.val
      let k := cl.rd MSH_STATUS_DEAD
      let s1 := s.setCluster c.val ((cl.wr MSH_STATUS_DEAD (k ||| 2 ^ dir.val)).wr MSH_EVENT_DEAD 1)
      let h := 8960 + regionOf j
      .next (if s1.dome.holes.contains h then s1
        else s1.modDome (fun d => { d with holes := NSet.add d.holes h, holeGen := d.holeGen + 1 }))
    else .next s

/-- The hole map is written into every region controller that has power (R303, R115). -/
def State.spreadHoles (s : State) : State :=
  (List.range 112).foldl (fun t r => if (t.region r).dark then t else t.modRegion r (fun g => { g with holes := t.dome.holes, holeGen := t.dome.holeGen })) s

/-- HOLE_MAP_UPDATE (R303). -/
def execHoleMapUpdate (s : State) : Host.Outcome State Fault Refusal := .next s.spreadHoles

end Sys2Proof.Machine
end

