-- ==== Sys2Proof/Machine/HostPort.lean ====
section
/-! DEFINITION. The host bridge's two sides (R376-R384, R391): the aperture check of every DMA request, host memory, the attachments to the mesh, what
the bridge does when a mesh access of its own is answered, and the transfers of a COPY. Readings that the words leave open are log
entry 18. -/

namespace Sys2Proof.Machine

/-! ## The aperture and host memory (R382, R383) -/

/-- Whether range r permits a DMA request (R382). -/
def State.aprRange (s : State) (r addr len : Nat) (write : Bool) : Bool :=
  let base := s.apr (HIF_APR_BASE_LO_BASE_LO.nth r) * 4096 + s.apr (HIF_APR_BASE_HI_BASE_HI.nth r) * 2 ^ 32
  let limit := s.apr (HIF_APR_LIM_LO_LIM_LO.nth r) * 4096 + s.apr (HIF_APR_LIM_HI_LIM_HI.nth r) * 2 ^ 32
  s.apr (HIF_APR_BASE_LO_EN.nth r) == 1 && (s.apr ((if write then HIF_APR_BASE_LO_WR else HIF_APR_BASE_LO_RD).nth r) == 1) &&
    decide (base ≤ addr) && decide (addr + len ≤ limit + 4096)

/-- Whether a DMA request passes: its whole range lies inside one enabled range with the permission (R383). -/
def State.aprAllows (s : State) (addr len : Nat) (write : Bool) : Bool := (List.range 16).any (fun r => s.aprRange r addr len write)

/-- A request that fails the check: the first failure is recorded, all are counted, and event APERTURE fires (R383). -/
def State.aprBlock (s : State) (src queue addr : Nat) (write : Bool) : State :=
  let s1 := if s.apr HIF_APR_LOG_VALID = 1 then s
    else ((((((s.setApr HIF_APR_LOG_VALID 1).setApr HIF_APR_LOG_SRC src).setApr HIF_APR_LOG_WRITE (bit1 write)).setApr HIF_APR_LOG_QUEUE
      queue).setApr HIF_APR_LOG_ADDR_LO_ADDR addr).setApr HIF_APR_LOG_ADDR_HI_ADDR (addr / 2 ^ 32))
  (s1.setApr HIF_APR_LOG_CNT_CNT (s1.apr HIF_APR_LOG_CNT_CNT + 1)).hifEvent 9

/-- A DMA read: the bytes, or none where the aperture blocks it. -/
def State.dmaRead (s : State) (src queue addr len : Nat) : Option (List Byte) × State :=
  if s.aprAllows addr len false then (some (Mem.bytes s.hostMem addr len), s.modHost (fun h => { h with rdBytes := h.rdBytes + len }))
  else (none, s.aprBlock src queue addr false)

/-- A DMA write: whether it was issued, and the state. -/
def State.dmaWrite (s : State) (src queue addr : Nat) (bs : List Byte) : Bool × State :=
  if s.aprAllows addr bs.length true then
    (true, ({ s with hostMem := Mem.write s.hostMem addr bs }).modHost (fun h => { h with wrBytes := h.wrBytes + bs.length }))
  else (false, s.aprBlock src queue addr true)

/-! ## Host errors and attachments (R378, R381) -/

/-- A host access fails (R381): kind 0 refused, 1 poisoned, 2 lost; the first failing address is kept, and advanced error reporting sends an advisory non-fatal
error. -/
def State.hifErr (s : State) (kind off : Nat) (write bar2 : Bool) : State :=
  let fresh := s.hif HIF_ERR_REFUSED == 0 && s.hif HIF_ERR_POISON == 0 && s.hif HIF_ERR_LOST == 0
  let s1 := if fresh then
      (((s.setHif HIF_ERR_WRITE (bit1 write)).setHif HIF_ERR_ADDR_LO_ADDR_LO off).setHif HIF_ERR_ADDR_HI_ADDR_HI (off / 2 ^ 32)).setHif
        HIF_ERR_ADDR_HI_BAR2 (bit1 bar2)
    else s
  ((s1.setHif (if kind = 0 then HIF_ERR_REFUSED else if kind = 1 then HIF_ERR_POISON else HIF_ERR_LOST) 1).hifEvent 10).emit (.advisory kind off write bar2)

/-- Whether the attachment of a cluster is in service (R23, R378): its router not opaque, its region not DARK, its transit clock running. -/
def State.attached (s : State) (i : Nat) : Bool :=
  let g := s.region (regionOf i)
  !s.opaqueRouter i && !g.hole && g.rd TRC_STATUS_STATE != 0

/-- The attachment that carries an access to a cluster in column x (R378). -/
def State.attachFor (s : State) (x : Nat) : Option Nat :=
  let a := if x ≤ 39 then cidx 39 0 else cidx 40 0
  let b := if x ≤ 39 then cidx 40 0 else cidx 39 0
  if s.attached a then some a else if s.attached b then some b else none

/-- The fields of a module address (R6): Y, X, SPACE, OFFSET. -/
def addrY (a : Nat) : Nat := a / 2 ^ 39 % 128
def addrX (a : Nat) : Nat := a / 2 ^ 32 % 128
def addrSpace (a : Nat) : Nat := a / 2 ^ 29 % 8
def addrOff (a : Nat) : Nat := a % 2 ^ 29

/-- The bytes of a space, where a cluster has it; 0 for a reserved space (R111). -/
def spaceSize (i space : Nat) : Nat :=
  if space = 0 then 0x200000 else if space = 1 then 0x80000 else if space = 2 then 0x12000000 else if space = 3 then 0x20000
  else if space = 4 ∧ hasTu i = true then 16 else 0

/-- Whether an access to n bytes at a module address is one that the module takes (R6, R33, R111): in the grid, a space of the cluster, inside the space,
the cluster not occulted. -/
def State.addrOk (s : State) (a n : Nat) : Bool :=
  let i := cidx (addrX a) (addrY a)
  decide (a < 2 ^ 46) && inGrid (addrX a) (addrY a) && decide (addrOff a + n ≤ spaceSize i (addrSpace a)) && s.enabled i

/-! ## Packets of a transfer (R297, R316, R318) -/

/-- An OPEN from cluster i (R297). -/
def openPkt (s : State) (i : Nat) (a : Agent) (x : Xfer) (space gran add : Nat) (fbe lbe : W64) : Pkt :=
  { pktFrom s i (agentSep a) with
    opc := 3, dmod := x.dmod, dy := x.dy, dx := x.dx, dep := x.dep, chan := x.chan
    pay := pay8 [BitVec.ofNat 64 (gran + space * 2 ^ 23 + add * 2 ^ 26 + bit1 x.plate * 2 ^ 28 + x.ngran * 2 ^ 32 + x.tag % 65536 * 2 ^ 48), fbe, lbe] }

/-- The DATA packets of a transfer, the last flagged LAST (R316); each granule with its poison and, for a plate, the row it fills (log entry 15). -/
def dataPkts (s : State) (i : Nat) (a : Agent) (x : Xfer) : List (List Byte × Bool × Option Nat) → List Pkt
  | [] => []
  | (bs, poison, row) :: rest =>
    { pktFrom s i (agentSep a) with
      opc := 4, dmod := x.dmod, dy := x.dy, dx := x.dx, dep := x.dep, chan := x.chan, last := rest.isEmpty, poison := poison, plate := x.plate
      pay := bytesPay bs ++ (match row with | some r => [BitVec.ofNat 64 r] | none => []) } :: dataPkts s i a x rest

/-- A transfer is tracked and its packets join their stream (R305, R316, R318): the item takes the next number. -/
def State.startXfer (s : State) (i : Nat) (a : Agent) (x0 : Xfer) (space gran add : Nat) (fbe lbe : W64)
    (grans : List (List Byte × Bool × Option Nat)) : State :=
  let n := (s.cluster i).sender a
  let x := { x0 with id := n.serial, ngran := grans.length }
  let s1 := s.modSender i a (fun z => { z with items := z.items ++ [x], serial := z.serial + 1 })
  s1.sendOrdered i a (openPkt s i a x space gran add fbe lbe :: dataPkts s i a x grans) x.id

/-- Granules of bytes placed at address `a`, zero around them. -/
def granulesOf (a : Nat) (bs : List Byte) : List (List Byte × Bool × Option Nat) :=
  let lo := a % 64
  let k := ceilDiv (lo + bs.length) 64
  (chunksOf 64 k (List.replicate lo 0 ++ bs ++ List.replicate (64 * k - lo - bs.length) 0)).map (fun g => (g, false, none))

/-- Byte enables of the first and of the last granule of n bytes at address a. -/
def firstBe (a : Nat) : W64 := BitVec.ofNat 64 (2 ^ 64 - 2 ^ (a % 64))
def lastBe (a n : Nat) : W64 := let e := (a + n) % 64; if e = 0 then BitVec.ofNat 64 (2 ^ 64 - 1) else BitVec.ofNat 64 (2 ^ e - 1)

/-- The bridge writes bytes at a module address through attachment i (R318, R391), under the next TAG of the attachment; a write of one granule carries its enables in
FIRST_BE. `n` is kept with the item. -/
def State.bridgePut (s : State) (i a chan owner n : Nat) (bs : List Byte) : State :=
  let x : Xfer := ⟨0, 1, (s.cluster i).attach.serial % 65536, 0, false, 0, 0, s.modId, addrY a, addrX a, spaceEndpoint (addrSpace a), chan, 0, 0, false, n, 0, [], owner⟩
  let one := decide (a % 64 + bs.length ≤ 64)
  s.startXfer i .attach x (addrSpace a) (addrOff a / 64) 0 (if one then firstBe a &&& lastBe a bs.length else firstBe a)
    (if one then BitVec.allOnes 64 else lastBe a bs.length) (granulesOf a bs)

/-- The bridge reads one aligned block, block number `pos` of its access (R378): the item keeps the number. -/
def State.bridgeRd (s : State) (i a pos chan owner : Nat) (be : W64) : State :=
  let s1 := s.sendRd i .attach s.modId (addrY a) (addrX a) (addrSpace a) (addrOff a / 64 * 64) be chan owner
  s1.modSender i .attach (fun z => { z with items := modAt (fun x => { x with members := pos }) z.items (z.items.length - 1) })

/-! ## Reads and posted writes of BAR2 (R378-R381) -/

/-- The module address of a BAR2 offset; none where its window is disabled or the address passes 2⁴⁶ − 1 (R377). -/
def State.window (s : State) (off : Nat) : Option Nat :=
  let w := off / 2 ^ 33
  let a := s.hif (HIF_WIN_HI_BASE_HI.nth w) * 2 ^ 32 + s.hif (HIF_WIN_LO_BASE_LO.nth w) * 2 ^ 12 + off % 2 ^ 33
  if w < 16 ∧ s.hif (HIF_WIN_LO_EN.nth w) = 1 ∧ a < 2 ^ 46 then some a else none

/-- Where an access of n bytes inside one aligned 64-byte block of the module address space goes: the attachment and the address, none where the bridge refuses
it (R6, R111, R112, R378). -/
def State.blockTarget (s : State) (a n : Nat) : Option (Nat × Nat) :=
  if s.addrOk a n = true ∧ (addrSpace a ≠ 3 ∨ (n = 4 ∧ a % 4 = 0)) then (s.attachFor (addrX a)).map (fun i => (i, a)) else none

/-- Where a BAR2 access of n bytes inside one aligned 64-byte block goes, through its window (R377). -/
def State.barTarget (s : State) (off n : Nat) : Option (Nat × Nat) := (s.window off).bind (fun a => s.blockTarget a n)

/-- The blocks that an access of n bytes at a BAR2 offset touches (R378): the first byte of each and how many bytes. -/
def barBlocks (off n : Nat) : List (Nat × Nat) :=
  (List.range (ceilDiv (off % 64 + n) 64)).map (fun k =>
    let a := max off ((off / 64 + k) * 64)
    (a, min (off + n) ((off / 64 + k + 1) * 64) - a))

/-- A read with the failure of one of its blocks: a refusal or a loss prevails over poison (R381). -/
def BarRead.fail (r : BarRead) (kind : Nat) : BarRead :=
  { r with waiting := r.waiting - 1, failed := if kind = 0 then r.failed else if r.failed = 1 ∨ r.failed = 3 then r.failed else kind }

/-- The mesh reads of a BAR2 read are sent, to the addresses that the windows gave as it arrived (a read of BAR0 has none); a block that the bridge refuses fails at
once (R377, R378, R381). -/
def State.barIssue (s : State) (r : BarRead) : State :=
  ((if r.bar2 then barBlocks r.off r.data.length else []).zip r.addrs).foldl (fun t b =>
    match b.2.bind (fun a => t.blockTarget a b.1.2) with
    | some (i, a) => t.bridgeRd i a (b.1.1 / 64 - r.off / 64) 4 (8 * r.id) (BitVec.ofNat 64 ((2 ^ b.1.2 - 1) * 2 ^ (a % 64)))
    | none =>
      (t.modHost (fun h => { h with reads := h.reads.map (fun q => if q.id == r.id then q.fail 1 else q) })).hifErr 0 r.off false true)
    (s.modHost (fun h => { h with reads := h.reads.map (fun q => if q.id == r.id then { q with issued := true } else q) }))

/-- Reads whose earlier posted writes are acknowledged are sent, and those whose blocks are answered complete (R379). -/
def State.readsDone (s : State) : State :=
  let live := s.host.posted.map (fun p => p.id)
  let free := fun (r : BarRead) => r.waits.all (fun w => !live.contains w)
  let s1 := (s.host.reads.filter (fun r => !r.issued && free r)).foldl (fun t r => t.barIssue r) s
  let ok := fun (r : BarRead) => r.issued && r.waiting == 0
  (s1.host.reads.filter ok).foldl (fun t r => t.emitRead r) (s1.modHost (fun h => { h with reads := h.reads.filter (fun r => !ok r) }))

/-- The bytes of block `pos` put into a read's data. -/
def BarRead.fill (r : BarRead) (pos : Nat) (bs : List Byte) : BarRead :=
  let base := (r.off / 64 + pos) * 64
  { r with data := r.data.zipIdx.map (fun p => let a := r.off + p.2; if base ≤ a ∧ a < base + 64 then bs.getD (a - base) 0 else p.1) }

/-- A block of a BAR2 read is answered: 0 data, 1 refused, 2 poisoned, 3 lost (R381). -/
def State.barBlock (s : State) (id pos : Nat) (bs : List Byte) (fail : Nat) : State :=
  match s.host.reads.find? (fun r => r.id == id) with
  | none => s
  | some r =>
    let r1 := (r.fill pos bs).fail fail
    let s1 := s.modHost (fun h => { h with reads := h.reads.map (fun q => if q.id == id then r1 else q) })
    let s2 := if fail = 0 then s1 else s1.hifErr (if fail = 1 then 0 else if fail = 2 then 1 else 2) r.off false true
    s2.readsDone

/-- A block of a posted write is answered (R379): a failure sets HIF_ERR. -/
def State.postedBlock (s : State) (id status : Nat) : State :=
  match s.host.posted.find? (fun p => p.id == id) with
  | none => s
  | some p =>
    let s1 := if status = 1 ∨ status = 7 then s else s.hifErr (if status = 8 ∨ status = 9 then 0 else 2) p.off true true
    let left := (s.host.posted.map (fun q => if q.id == id then { q with waiting := q.waiting - 1 } else q)).filter (fun q => q.waiting != 0)
    (s1.modHost (fun h => { h with posted := left })).readsDone

/-! ## Jobs (R387, R390-R392) -/

/-- The queue that holds the entry in progress with a serial number. -/
def State.jobAt (s : State) (serial : Nat) : Option (Nat × Job) :=
  s.host.queues.findSome? (fun p => (p.2.jobs.find? (fun j => j.serial == serial)).map (fun j => (p.1, j)))

/-- The entry in progress is replaced. -/
def State.setJob (s : State) (q : Nat) (j : Job) : State :=
  s.modHostQ q (fun h => { h with jobs := h.jobs.map (fun k => if k.serial == j.serial then j else k) })

/-- An entry has completed: its record falls due, except in ERR, where it is discarded (R387, R392). -/
def State.jobDone (s : State) (q : Nat) (j : Job) (value : Nat) : State :=
  s.modHostQ q (fun h =>
    { h with
      jobs := h.jobs.filter (fun k => k.serial != j.serial)
      due := if j.mute = true ∨ h.rd HIF_Q_STATUS_STATE = 3 then h.due else h.due ++ [⟨j.cid, j.status, j.eph, 0, value, j.irq⟩] })

/-- The next piece of a COPY_IN (R391): at most 256 KiB, on channels 0-3 in turn. -/
def State.copyInPiece (s : State) (q : Nat) (j : Job) : State :=
  let a := j.maddr + j.sent
  let n := min (j.maddr + j.length) ((a / 262144 + 1) * 262144) - a
  let j1 := { j with sent := j.sent + n }
  match s.attachFor (addrX j.maddr) with
  | none => s.setJob q { j1 with status := max j.status 20 }
  | some i => match s.dmaRead 2 q (j.host + j.sent) n with
    | (none, t) => t.setJob q { j1 with status := max j.status 17 }
    | (some bs, t) =>
      ((t.setJob q { j1 with waiting := j.waiting + 1 }).modHost (fun h => { h with rr := (h.rr + 1) % 4 })).bridgePut i a (s.host.rr % 4)
        (8 * j.serial + 2) n bs

/-- The next block of a COPY_OUT (R391): an RD on channels 4-7 in turn. -/
def State.copyOutBlock (s : State) (q : Nat) (j : Job) : State :=
  let a := j.maddr + j.sent
  let n := min (j.maddr + j.length) ((a / 64 + 1) * 64) - a
  let j1 := { j with sent := j.sent + n }
  match s.attachFor (addrX j.maddr) with
  | none => s.setJob q { j1 with status := max j.status 20 }
  | some i =>
    let be := BitVec.ofNat 64 ((2 ^ n - 1) * 2 ^ (a % 64))
    ((s.setJob q { j1 with waiting := j.waiting + 1 }).modHost (fun h => { h with rr := (h.rr + 1) % 4 })).bridgeRd i a j.sent (4 + s.host.rr % 4)
      (8 * j.serial + 3) be

/-- A COPY goes on (R391): pieces while fewer than four are in flight, or reads while fewer than 256 are; it completes when everything sent is
answered. Nothing is issued in D3hot (R371). -/
def State.copyStep (q serial : Nat) : Nat → State → State
  | 0, s => s
  | f + 1, s =>
    match s.jobAt serial with
    | none => s
    | some (_, j) =>
      if s.host.d3hot then s
      else if j.sent < j.length then
        if j.opc = 2 then (if j.waiting < 4 then State.copyStep q serial f (s.copyInPiece q j) else s)
        else (if j.waiting < 256 then State.copyStep q serial f (s.copyOutBlock q j) else s)
      else if j.waiting = 0 then s.jobDone q j j.moved
      else s

/-- The steps that one answer can set off at most. -/
def copyFuel (j : Job) : Nat := j.length + 2

/-- A COPY_IN piece is answered. -/
def State.copyInDone (s : State) (serial n status : Nat) : State :=
  match s.jobAt serial with
  | none => s
  | some (q, j) =>
    let st := if status = 1 then 0 else if status = 7 then 22 else if status = 10 then 21 else 20
    let j1 := { j with waiting := j.waiting - 1, moved := if st = 0 then j.moved + n else j.moved, status := max j.status st }
    State.copyStep q serial (copyFuel j) (s.setJob q j1)

/-- A COPY_OUT block is answered: its bytes go to host memory (R391). -/
def State.copyOutDone (s : State) (serial pos : Nat) (bs : List Byte) (fail : Nat) : State :=
  match s.jobAt serial with
  | none => s
  | some (q, j) =>
    let a := j.maddr + pos
    let n := min (j.maddr + j.length) ((a / 64 + 1) * 64) - a
    let r := if fail = 1 ∨ fail = 3 then (false, s) else s.dmaWrite 2 q (j.host + pos) (sliceOf bs (a % 64) n)
    let st := if fail = 1 then 20 else if fail = 3 then 21 else if fail = 2 then 22 else if r.1 then 0 else 17
    let j1 := { j with waiting := j.waiting - 1, moved := if r.1 then j.moved + n else j.moved, status := max j.status st }
    State.copyStep q serial (copyFuel j) (r.2.setJob q j1)

/-! ## Answers at an attachment -/

/-- An eyepiece access ends (R433): status 0 OK, 1 refused, 2 poisoned, 3 lost, as an answer states it. -/
def State.eyeDone (s : State) (write : Bool) (w fail : Nat) : State :=
  let st := if fail = 0 then 0 else if fail = 1 then 1 else if fail = 3 then 2 else 3
  let s1 := (s.setDome EYE_ACC_CTRL_BUSY 0).setDome EYE_ACC_CTRL_STATUS st
  let s2 := if fail = 0 then s1 else s1.setDome EYE_EVENT_ACC_ERR 1
  if write then s2 else s2.setDome EYE_ACC_DATA_DATA (if fail = 1 ∨ fail = 3 then 0xFFFFFFFF else w)

/-- A read of the bridge's is answered: `owner` says whose it is, `pos` which block, `fail` how (0 data, 1 refused, 2 poisoned, 3 lost). -/
def State.hostReadDone (s : State) (owner pos : Nat) (bs : List Byte) (fail : Nat) : State :=
  if owner % 8 = 0 then s.barBlock (owner / 8) pos bs fail
  else if owner % 8 = 3 then s.copyOutDone (owner / 8) pos bs fail
  else s.eyeDone false (leNat (sliceOf bs pos 4)) fail

/-- A write of the bridge's is answered with a status of R315 (1 is DONE). -/
def State.hostWriteDone (s : State) (owner n status : Nat) : State :=
  if owner % 8 = 1 then s.postedBlock (owner / 8) status
  else if owner % 8 = 2 then s.copyInDone (owner / 8) n status
  else s.eyeDone true 0 (if status = 1 then 0 else if status = 7 then 2 else if status = 10 then 3 else 1)

end Sys2Proof.Machine
end

