-- ==== Sys2Proof/Machine/Transfer.lean ====
section
/-! DEFINITION. The transit engine's sending side (R311-R321): units of its input queues, element tokens and their end-to-end credits, transfer descriptors
with their checks, the data that a transfer sends, and completions. Readings that the words leave open are log entry 19. -/

namespace Sys2Proof.Machine

/-! ## Input queues (R311) -/

/-- The tokens of an input queue. -/
def Te.queue (t : Te) (q : Nat) : List Tok := SMap.get (fun _ => []) t.queues q

/-- The unit at the head of an input queue, if it is whole: a four-word descriptor where bit 63 of its first token is set, else a SEND pair. -/
def Te.unit (t : Te) (q : Nat) : Option (Bool × List Tok) :=
  match t.queue q with
  | [] => none
  | h :: rest =>
    if bitOf h.data 63 then (if 3 ≤ rest.length then some (true, h :: rest.take 3) else none)
    else match rest with | d :: _ => some (false, [h, d]) | [] => none

/-- n tokens leave an input queue and their credits go back; the queue after it is served next. -/
def Cluster.tePop (c : Cluster) (q n : Nat) : Cluster :=
  ({ c with te := { c.te with queues := SMap.set (fun _ => []) c.te.queues q ((c.te.queue q).drop n), rr := (q + 1) % 8 } }).creditsBack 36 q n

/-! ## SEND (R192, R312, R313) -/

/-- Fields of a SEND header (R192). -/
def sendY (h : W64) : Nat := bitsOf h 12 7
def sendX (h : W64) : Nat := bitsOf h 19 7
def sendElem (h : W64) : Nat := bitsOf h 26 5
def sendQueue (h : W64) : Nat := bitsOf h 31 3
def sendChan (h : W64) : Nat := bitsOf h 34 2
/-- The destination module of a header: MOD where FAB is set, else this module. -/
def State.sendMod (s : State) (h : W64) : Nat := if bitOf h 37 then bitsOf h 0 12 else s.modId
/-- Whether a module can be reached: this one, or one with a route that has a port. -/
def State.routable (s : State) (m : Nat) : Bool := m == s.modId || (match s.route m with | some e => !e.ports.isEmpty | none => false)
/-- Whether a header is refused: its coordinates or its module (R192), or an unordered channel, 4 to 7 (R298). -/
def State.sendBad (s : State) (h : W64) : Bool := !inGrid (sendX h) (sendY h) || !s.routable (s.sendMod h) || bitOf h 36

/-- The element that feeds an input queue. -/
def Cluster.teSource (c : Cluster) (q : Nat) : Nat := match c.producer 36 q with | some (p, _, _) => p | none => 0

/-- Whether an entry of the credit table is the one for a header from a source element (R312). -/
def CreditEntry.is (k : CreditEntry) (src m : Nat) (h : W64) : Bool :=
  k.src == src && k.dmod == m && k.dy == sendY h && k.dx == sendX h && k.elem == sendElem h && k.queue == sendQueue h

/-- Whether a credit entry may be taken over (R313): it holds all 16 credits and nothing of it is outstanding. -/
def CreditEntry.idle (k : CreditEntry) : Bool := k.credits == 16 && k.pack.isEmpty

/-- Whether a SEND pair can be taken now (R312, R313): its entry has failed or has a credit, or a new entry can be had; a refused header is taken. -/
def State.sendReady (s : State) (i q : Nat) (h : W64) : Bool :=
  let c := s.cluster i
  match c.te.credit.find? (fun k => k.is (c.teSource q) (s.sendMod h) h) with
  | some k => k.failed || decide (0 < k.credits)
  | none => s.sendBad h || decide (c.te.credit.length < 64) || c.te.credit.any CreditEntry.idle

/-- The number that stands for a token packet of a source element among a stream's outstanding packets. -/
def tokenXfer (src : Nat) : Nat := 2 ^ 40 + src

/-- The TOKEN packet that carries packed tokens (R297); the source element rides in a ninth payload word (log entry 15). -/
def tokenPkt (s : State) (i : Nat) (k : CreditEntry) : Pkt :=
  let w0 := k.pack.length + k.queue * 2 ^ 4 + ((k.pack.zipIdx.map (fun p =>
    ((match p.1.tag with | .data => 0 | .last => 1 | .pred => 2 | .mark => 3) + p.1.epoch % 4 * 4 + bit1 p.1.poison * 16) * 2 ^ (5 * p.2 + 8))).sum)
  { pktFrom s i 36 with
    opc := 5, dmod := k.dmod, dy := k.dy, dx := k.dx, dep := k.elem, chan := k.chan
    pay := pay8 (BitVec.ofNat 64 w0 :: k.pack.map (fun t => t.data)) ++ [BitVec.ofNat 64 k.src] }

/-- The packed tokens of credit entry n are sent. -/
def State.sendPack (s : State) (i n : Nat) : State :=
  match (s.cluster i).te.credit[n]? with
  | none => s
  | some k =>
    if k.pack.isEmpty then s
    else (s.modCluster i (fun c => { c with te := { c.te with credit := modAt (fun e => { e with pack := [] }) c.te.credit n } })).sendOrdered
      i .te [tokenPkt s i k] (tokenXfer k.src)

/-- The credit table with the entry for a header at its end, as the one used last: an existing one, a new one, or the least recently used idle one
taken over (R313). -/
def Te.touch (t : Te) (src m : Nat) (h : W64) : Te :=
  match takeFirst (fun k => k.is src m h) t.credit with
  | some (k, rest) => { t with credit := rest ++ [k] }
  | none =>
    let fresh : CreditEntry := ⟨src, m, sendY h, sendX h, sendElem h, sendQueue h, sendChan h, 16, false, []⟩
    if t.credit.length < 64 then { t with credit := t.credit ++ [fresh] }
    else match takeFirst CreditEntry.idle t.credit with
      | some (_, rest) => { t with credit := rest ++ [fresh] }
      | none => t

/-- A SEND pair is taken (R192, R312): a refused header faults its context, which R194 allows in WAIT and RUN alone; a failed entry discards the token; else the token is packed, and the pack is
sent when it holds 7 or ends a run. -/
def State.teSend (s : State) (i q : Nat) (hd d : Tok) : State :=
  let c := s.cluster i
  let h := hd.data
  let src := c.teSource q
  let m := s.sendMod h
  let drop := fun (k : Cluster) => k.countStart TE_CNT_DISCARD_CNT 1
  let s1 := s.setCluster i ((c.tePop q 2).modElem src (fun x => { x with sends := x.sends.drop 1 }))
  if hd.poison then s1.modCluster i drop
  else if s.sendBad h then
    s1.modCluster i (fun k =>
      match (c.elem src).sends with
      | x :: _ => if ((c.elem src).ctx x).state = .wait ∨ ((c.elem src).ctx x).state = .run then k.ctxFault src x 3 else k
      | [] => k)
  else
    let s2 := s1.modCluster i (fun k => { k with te := k.te.touch src m h })
    let n := (s2.cluster i).te.credit.length - 1
    match (s2.cluster i).te.credit[n]? with
    | none => s2
    | some k =>
      if k.failed then s2.modCluster i drop
      else
        let s3 := if k.chan = sendChan h then s2 else s2.sendPack i n
        let s4 := s3.modCluster i (fun c => { c with te := { c.te with credit := modAt (fun e =>
          { e with chan := sendChan h, credits := e.credits - 1, pack := e.pack ++ [d] }) c.te.credit n } })
        if 6 ≤ (if k.chan = sendChan h then k.pack.length else 0) ∨ d.tag = .last ∨ d.tag = .mark then s4.sendPack i n else s4

/-! ## Descriptors (R314, R315) -/

/-- A transfer descriptor (R314). -/
structure Desc where
  w0 : W64
  w1 : W64
  w2 : W64
  w3 : W64
  epoch : Nat
  src : Nat
  poison : Bool
  deriving DecidableEq, Repr

/-- A descriptor from its four tokens. -/
def descOf (q : Nat) (ts : List Tok) : Desc :=
  let w := fun k => match ts[k]? with | some t => t.data | none => 0
  ⟨w 0, w 1, w 2, w 3, match ts with | t :: _ => t.epoch | [] => 0, q, ts.any (fun t => t.poison)⟩

def Desc.opc (d : Desc) : Nat := bitsOf d.w0 0 4
def Desc.add (d : Desc) : Nat := bitsOf d.w0 4 2
def Desc.plate (d : Desc) : Bool := bitOf d.w0 6
def Desc.perm (d : Desc) : Bool := bitOf d.w0 7
def Desc.chan (d : Desc) : Nat := bitsOf d.w0 8 2
def Desc.cen (d : Desc) : Bool := bitOf d.w0 10
def Desc.cbind (d : Desc) : Nat := bitsOf d.w0 11 3
def Desc.sege (d : Desc) : Nat := bitsOf d.w0 14 2
def Desc.tag (d : Desc) : Nat := bitsOf d.w0 16 16
def Desc.group (d : Desc) : Nat := bitsOf d.w0 32 8
def Desc.loc (d : Desc) : Nat := bitsOf d.w1 0 15
def Desc.ngran (d : Desc) : Nat := bitsOf d.w1 16 16
def Desc.permRow (d : Desc) : Nat := bitsOf d.w2 0 12
def Desc.pm (d : Desc) : Nat := bitsOf d.w2 16 12
def Desc.pd (d : Desc) : Nat := bitsOf d.w2 32 12
def Desc.addr (d : Desc) : Nat := bitsOf d.w3 0 46
/-- The remote module. -/
def Desc.dmod (d : Desc) (own : Nat) : Nat := if bitOf d.w3 63 then bitsOf d.w3 46 12 else own

/-- A descriptor is malformed (R315, BAD_OPC): a reserved opcode, a reserved bit, or an option that its opcode does not take. -/
def Desc.badOpc (d : Desc) : Bool :=
  decide (3 < d.opc) || bitsOf d.w0 40 23 != 0 || bitOf d.w1 15 || bitsOf d.w1 32 32 != 0 || bitsOf d.w2 12 4 != 0 || bitsOf d.w2 28 4 != 0 ||
    bitsOf d.w2 44 20 != 0 || bitsOf d.w3 58 5 != 0 || (d.add != 0 && d.opc != 1) || (d.perm && d.opc != 1 && d.opc != 3) ||
    (d.plate && d.opc != 1 && d.opc != 2) || (d.perm && d.plate) || (d.perm && d.sege == 3)

/-- A descriptor's addresses are bad (R315, BAD_ADDR). -/
def State.descBadAddr (s : State) (i : Nat) (d : Desc) : Bool :=
  let size := if addrSpace d.addr = 0 then 0x200000 else 0x12000000
  decide (32768 < d.loc + d.ngran) || d.addr % 64 != 0 ||
  (if d.opc = 3 then (s.cluster i).rd (TE_MC_LO_VALID.nth d.group) == 0 || decide (0x200000 < addrOff d.addr + 64 * d.ngran)
  else
    (addrSpace d.addr != 0 && addrSpace d.addr != 2) || !inGrid (addrX d.addr) (addrY d.addr) || decide (size < addrOff d.addr + 64 * d.ngran) ||
      !s.routable (d.dmod s.modId))

/-- The checks that precede any access (R315): status 1 to 3, or 0; a NOP has only the first. -/
def State.descStatus (s : State) (i : Nat) (d : Desc) : Nat :=
  if d.badOpc then 1 else if d.opc = 0 then 0 else if s.descBadAddr i d then 2 else if d.ngran = 0 ∧ d.plate = false then 3 else 0

/-- The number of a descriptor that is not tracked. -/
def noItem : Nat := 2 ^ 50

/-- The item that would track a descriptor, not yet numbered. -/
def Desc.item (d : Desc) (kind dmod dy dx chan : Nat) : Xfer :=
  ⟨noItem, kind, d.tag, d.src, d.cen, d.cbind, d.epoch, dmod, dy, dx, 36, chan, 0, 0, d.plate, 0, 0, [], 0⟩

/-! ## Completion (R319) -/

/-- An ACK (R297, R307): its header TAG is that of the GET it answers, and 0 for a stream (log entry 15). -/
def ackOf (s : State) (i : Nat) (dmod dy dx dep chan seq status tag hdrTag : Nat) : Pkt :=
  setTag { pktFrom s i 36 with
    opc := 7, dmod := dmod, dy := dy, dx := dx, dep := dep, chan := 7
    pay := pay8 [BitVec.ofNat 64 (chan + seq % 256 * 2 ^ 8 + status * 2 ^ 16 + tag % 65536 * 2 ^ 48)] } s.modId hdrTag

/-- The granules that a completion reports as delivered (R319): all where the transfer is DONE; else those that a GET's landing has taken, a PUT's data packets
acknowledged, the OPEN apart, and all of a multicast that some present member has acknowledged (log entry 15). -/
def Xfer.delivered (x : Xfer) (status : Nat) : Nat :=
  if x.kind = 2 then x.acks else if status = 0 ∨ (x.kind = 3 ∧ x.absent.length < x.acks) then x.ngran else if x.kind = 1 then x.acks - 1 else 0

/-- A transfer ends with a status (R315, R319): it is counted, its completion is queued, dropped or discarded as stale, and a served GET is answered with an
ACK. -/
def State.teFinish (s : State) (i : Nat) (x : Xfer) (status : Nat) : State :=
  let st := max x.status status
  let s1 := s.modSender i .te (fun z => z.dropItem x.id)
  if x.kind = 4 then s1.sendPkt i .te (ackOf s i x.dmod x.dy x.dx 36 0 0 (if st = 0 then 1 else st) x.tag x.members)
  else
    let c := s1.cluster i
    let c1 := if st = 0 then c.count TE_CNT_XFER_CNT 1
      else (((c.count TE_CNT_REJ_CNT 1).wr TE_ERR_TAG_TAG x.tag).wr TE_ERR_TAG_STATUS st).wr TE_ERR_TAG_SRC x.src
    let c2 := if 1 ≤ st ∧ st ≤ 5 then c1.wr TE_EVENT_XFER_ERR 1 else c1
    let c3 :=
      if x.cen = false then c2
      else if x.epoch ≠ (s.region (regionOf i)).rd TCK_RSCHED_EPOCH then c2.countStart TE_CNT_STALE_CNT 1
      else if c2.rd (TE_CBIND_VALID.nth x.cbind) = 0 then c2.count TE_CNT_REJ_CNT 1
      else { c2 with te := { c2.te with done := c2.te.done ++ [⟨x.tag, st, x.plate, x.delivered st, x.cbind, true, x.epoch⟩] } }
    s1.setCluster i c3

/-- The payload of a completion token (R319). -/
def TeDone.payload (d : TeDone) : W64 := BitVec.ofNat 64 (d.tag + d.status * 2 ^ 16 + bit1 d.plate * 2 ^ 20 + d.count * 2 ^ 32)

/-- TE_COMPLETION_SEND (R319): the oldest completion of binding b is sent from stop 36 on lane 0, against the binding's credit. -/
def execTeCompletionSend (c : ClusterId) (b : Fin 8) (s : State) : Host.Outcome State Fault Refusal :=
  let cl := s.cluster c.val
  let cr := cl.rd (TE_CBIND_CREDITS.nth b.val)
  match takeFirst (fun (d : TeDone) => d.cbind == b.val) cl.te.done with
  | none => .next s
  | some (d, rest) =>
    if s.runs c.val = false ∨ cr = 0 then .next s
    else
      let c1 := { cl.wr (TE_CBIND_CREDITS.nth b.val) (cr - 1) with te := { cl.te with done := rest } }
      .next (s.setCluster c.val (c1.pushOut 36 0 (cl.rd (TE_CBIND_ELEM.nth b.val)) (cl.rd (TE_CBIND_QUEUE.nth b.val)) ⟨d.payload, .data, d.epoch, false⟩))

/-! ## The data of a transfer (R261, R316, R317) -/

/-- n granules from byte address `a` of a space of the cluster, row by row (R110, R265), the rows under a class of R225: each with its poison. -/
def State.teRead (i space cls : Nat) : Nat → Nat → Nat → State → List (List Byte × Bool) × State
  | 0, _, _, s => ([], s)
  | f + 1, a, n, s =>
    if n = 0 then ([], s)
    else if space = 0 then
      let k := min n (8 - a % 512 / 64)
      let r := s.memRead i cls a (64 * k)
      let rest := State.teRead i space cls f (a + 64 * k) (n - k) r.2
      ((chunksOf 64 k r.1.1).map (fun g => (g, r.1.2)) ++ rest.1, rest.2)
    else
      let r := s.dsTeRead i a
      let rest := State.teRead i space cls f (a + 64) (n - 1) r.2
      (r.1 :: rest.1, rest.2)

/-- What a transfer sends: a status where a check of its data fails, and the granules, each with the row granule it fills where rows are skipped. -/
structure Load where
  status : Nat
  grans : List (List Byte × Bool × Option Nat)
  deriving DecidableEq, Repr

/-- The rows that a strip of a plate has written (R246, R261): D where it is dense, USED where it is compressed. -/
def stripUsed (row0 : List Byte) (k : Nat) (first : List Byte) : Nat :=
  if hdrComp row0 k then min (hdrSlot row0) (leNat (sliceOf first 2 2)) else hdrSlot row0

/-- The written rows of strips k to cb − 1 of a plate at byte address `a`. -/
def State.plateRows (i space cls a cb : Nat) (row0 : List Byte) : Nat → State → List (List Byte × Bool × Option Nat) × State
  | 0, s => ([], s)
  | f + 1, s =>
    let k := cb - (f + 1)
    let g0 := 8 * (1 + k * hdrSlot row0)
    let head := State.teRead i space cls 8 (a + 64 * g0) 1 s
    let n := 8 * stripUsed row0 k (match head.1 with | g :: _ => g.1 | [] => [])
    let r := State.teRead i space cls n (a + 64 * g0) n (if hdrComp row0 k then head.2 else s)
    let rest := State.plateRows i space cls a cb row0 f r.2
    (r.1.zipIdx.map (fun p => (p.1.1, p.1.2, some (g0 + p.2))) ++ rest.1, rest.2)

/-- A plate to be sent (R261, R315): its header row is checked, and goes last. A bad header ends the item with its status; R262 gives PLT_EVENT and PLT_BAD_LOC a class
of reader but names only the matrix unit, whose failures alone the model records there (DESIGN CHOICE, log entry 29). -/
def State.plateLoad (s : State) (i space cls a ngran : Nat) : Load × State :=
  let h := State.teRead i space cls 8 a 8 s
  let row0 := h.1.flatMap (fun g => g.1)
  let f := hdrWord row0 0 / 2 ^ 8 % 16
  let cb := ceilDiv (hdrCols row0) 16
  if fmtBits f = 0 ∨ hdrFormatOk f row0 = false ∨ ngran < 8 * plateExtent (hdrRows row0) (hdrCols row0) f then (⟨4, []⟩, h.2)
  else
    let r := State.plateRows i space cls a cb row0 cb h.2
    (⟨0, r.1 ++ h.1.zipIdx.map (fun p => (p.1.1, p.1.2, some p.2))⟩, r.2)

/-- The bytes of one strip with its row segments gathered by P (R317). -/
def permStrip (seg : Nat) (p : List Nat) (strip : List Byte) : List Byte :=
  p.flatMap (fun k => sliceOf strip (k * seg) seg) ++ strip.drop (p.length * seg)

/-- Raw granules to be sent, gathered by the permutation where PERM is set (R315, R317). A strip is poisoned as a whole where one of its granules is. -/
def State.rawLoad (s : State) (i cls : Nat) (d : Desc) : Load × State :=
  if d.perm then
    let seg := 16 * 2 ^ d.sege
    let pr := s.memRead i cls (512 * d.permRow) (2 * d.pm)
    let p := (chunksOf 2 d.pm pr.1.1).map leNat
    let strips := d.ngran / (8 * max 1 d.pd)
    let isPerm := p.all (fun k => decide (k < d.pm)) && (List.range d.pm).all (fun k => p.contains k)
    if d.pm < 16 ∨ d.pm % 16 ≠ 0 ∨ 4080 < d.pm ∨ d.pd = 0 ∨ isPerm = false ∨ d.ngran ≠ 8 * d.pd * strips ∨ 512 * d.pd < d.pm * seg ∨
        4096 < d.permRow + ceilDiv (2 * d.pm) 512 then (⟨5, []⟩, pr.2)
    else
      let r := State.teRead i 0 cls d.ngran (64 * d.loc) d.ngran pr.2
      let outs := (chunksOf (8 * d.pd) strips r.1).flatMap (fun st =>
        (chunksOf 64 (8 * d.pd) (permStrip seg p (st.flatMap (fun g => g.1)))).map (fun b => (b, pr.1.2 || st.any (fun g => g.2), (none : Option Nat))))
      (⟨0, outs⟩, r.2)
  else
    let r := State.teRead i 0 cls d.ngran (64 * d.loc) d.ngran s
    (⟨0, r.1.map (fun g => (g.1, g.2, none))⟩, r.2)

/-! ## The commands of the input queues (R311, R316, R319, R320) -/

/-- Whether the unit at the head of queue q can be taken now: a SEND pair with a credit, an MCAST whose channel is free (R321), and a GET or an MCAST, of which the
engine tracks a request or a fence, not beyond 8,192 tracked items (R318). -/
def State.teReady (s : State) (i q : Nat) : Bool :=
  let c := s.cluster i
  match c.te.unit q with
  | none => false
  | some (false, ts) => s.sendReady i q (match ts with | t :: _ => t.data | [] => 0)
  | some (true, ts) =>
    let d := descOf q ts
    (decide (c.te.send.inflight < 8192) || (d.opc != 2 && d.opc != 3)) && !(d.opc == 3 && c.te.send.items.any (fun x => x.kind == 3 && x.chan == 4 + d.chan))

/-- The unit that the engine takes next: round robin over its queues (R311). -/
def State.teNext (s : State) (i : Nat) : Option (Nat × Bool × List Tok) :=
  let c := s.cluster i
  if s.runs i then
    match ((List.range 8).map (fun k => (c.te.rr + k) % 8)).find? (fun q => s.teReady i q) with
    | some q => match c.te.unit q with | some u => some (q, u) | none => none
    | none => none
  else none

/-- The descriptor that queue q offers next, if its opcode is one that a command runs. -/
def State.teDesc (s : State) (i q : Nat) (runs : Nat → Bool) : Option Desc :=
  match s.teNext i with
  | some (k, true, ts) => let d := descOf q ts; if k = q ∧ runs d.opc = true then some d else none
  | _ => none

/-- TE_SEND_UNIT (R312): a SEND pair. -/
def execTeSendUnit (c : ClusterId) (q : Fin 8) (s : State) : Host.Outcome State Fault Refusal :=
  match s.teNext c.val with
  | some (k, false, h :: d :: _) => if k = q.val then .next (s.teSend c.val q.val h d) else .next s
  | _ => .next s

/-- TE_NOP (R315, R319): a NOP completes at once, and so does a descriptor with a reserved opcode. -/
def execTeNop (c : ClusterId) (q : Fin 8) (s : State) : Host.Outcome State Fault Refusal :=
  match s.teDesc c.val q.val (fun o => o == 0 || decide (3 < o)) with
  | none => .next s
  | some d =>
    let s1 := s.modCluster c.val (fun k => k.tePop q.val 4)
    .next (s1.teFinish c.val (d.item 0 s.modId 0 0 0) (if d.poison then 7 else s.descStatus c.val d))

/-- Poisoned granules set the event and make the transfer's status POISON (R315, R324). -/
def State.noteSent (s : State) (i : Nat) (grans : List (List Byte × Bool × Option Nat)) : Nat × State :=
  if grans.any (fun g => g.2.1) then (7, s.modCluster i (fun c => c.wr TE_EVENT_POISON 1)) else (0, s)

/-- PUT (R225, R315-R317): its rows are read under class SP where it goes to the cluster's own column, else under class TE; checked, and where it passes an OPEN and the DATA packets join the stream to the remote cluster. -/
def execPut (c : ClusterId) (q : Fin 8) (upsets : List Nat) (s : State) : Host.Outcome State Fault Refusal :=
  match s.teDesc c.val q.val (fun o => o == 1) with
  | none => .next s
  | some d =>
    let i := c.val
    let m := d.dmod s.modId
    let x := d.item 1 m (addrY d.addr) (addrX d.addr) d.chan
    let s1 := s.modCluster i (fun k => k.tePop q.val 4)
    let st := if d.poison then 7 else s.descStatus i d
    if st ≠ 0 then .next (s1.teFinish i x st)
    else
      let cls := if m = s.modId ∧ cidx (addrX d.addr) (addrY d.addr) = i ∧ addrSpace d.addr = 2 then 1 else 2
      let s2 := s1.upset i upsets
      let l := if d.plate then s2.plateLoad i 0 cls (64 * d.loc) d.ngran else s2.rawLoad i cls d
      if l.1.status ≠ 0 then .next (l.2.teFinish i x l.1.status)
      else
        let n := l.2.noteSent i l.1.grans
        .next (n.2.startXfer i .te { x with status := n.1, dep := spaceEndpoint (addrSpace d.addr) } (addrSpace d.addr) (addrOff d.addr / 64) d.add
          (BitVec.allOnes 64) (BitVec.allOnes 64) l.1.grans)

/-- TE_GET_XFER (R315, R316): checked, and where it passes a GET asks the remote transit engine for the data. -/
def execTeGetXfer (c : ClusterId) (q : Fin 8) (s : State) : Host.Outcome State Fault Refusal :=
  match s.teDesc c.val q.val (fun o => o == 2) with
  | none => .next s
  | some d =>
    let i := c.val
    let m := d.dmod s.modId
    let s1 := s.modCluster i (fun k => k.tePop q.val 4)
    let x := d.item 2 m (addrY d.addr) (addrX d.addr) d.chan
    let st := if d.poison then 7 else s.descStatus i d
    if st ≠ 0 then .next (s1.teFinish i x st)
    else
      let z := (s1.cluster i).te.send
      let tag := z.freshTag s.modId m
      let p := setTag { pktFrom s i 36 with
        opc := 6, dmod := m, dy := x.dy, dx := x.dx, dep := 36, chan := 4 + d.chan
        pay := pay8 [BitVec.ofNat 64 (addrOff d.addr + addrSpace d.addr * 2 ^ 29 + d.ngran * 2 ^ 32 + bit1 d.plate * 2 ^ 48 + d.chan * 2 ^ 49),
          BitVec.ofNat 64 (d.loc + d.tag * 2 ^ 16)] } s.modId tag
      .next ((s1.modSender i .te (fun y =>
        { y with items := y.items ++ [{ x with id := y.serial, members := tag, ngran := d.ngran, owner := addrSpace d.addr }], serial := y.serial + 1 })).sendPkt i .te p)

/-- One MDATA packet of a multicast (R295, R320). -/
def mdataPkt (s : State) (i chan gran : Nat) (g : List Byte × Bool × Option Nat) : Pkt :=
  { pktFrom s i 36 with opc := 10, dmod := gran % 4096, dep := gran / 4096, chan := chan, mcast := true, poison := g.2.1, pay := bytesPay g.1 }

/-- MCAST (R315, R320, R321): checked, and where it passes its granules and then a fence go to the group's rectangle; it expects MEMBERS answers. -/
def execMcast (c : ClusterId) (q : Fin 8) (upsets : List Nat) (s : State) : Host.Outcome State Fault Refusal :=
  match s.teDesc c.val q.val (fun o => o == 3) with
  | none => .next s
  | some d =>
    let i := c.val
    let cl := s.cluster i
    let s1 := s.modCluster i (fun k => k.tePop q.val 4)
    let x := d.item 3 s.modId 0 0 (4 + d.chan)
    let st := if d.poison then 7 else s.descStatus i d
    if st ≠ 0 then .next (s1.teFinish i x st)
    else
      let l := (s1.upset i upsets).rawLoad i 2 d
      if l.1.status ≠ 0 then .next (l.2.teFinish i x l.1.status)
      else
        let n := l.2.noteSent i l.1.grans
        let rect := fun (p : Pkt) => setRect p (cl.rd (TE_MC_LO_X0.nth d.group)) (cl.rd (TE_MC_LO_Y0.nth d.group)) (cl.rd (TE_MC_LO_X1.nth d.group))
          (cl.rd (TE_MC_LO_Y1.nth d.group))
        let members := cl.rd (TE_MC_HI_MEMBERS.nth d.group)
        let fence : Pkt := { pktFrom s i 36 with
          opc := 11, dmod := 0, chan := 4 + d.chan, mcast := true
          pay := pay8 [BitVec.ofNat 64 (d.ngran + d.tag * 2 ^ 16 + cl.rd (TE_MC_HI_MGEN.nth d.group) * 2 ^ 48)] }
        let y : Xfer := { x with id := (n.2.cluster i).te.send.serial, status := n.1, members := members, ngran := d.ngran }
        let s2 := n.2.modSender i .te (fun z => { z with items := z.items ++ [y], serial := z.serial + 1 })
        let s3 := (l.1.grans.zipIdx.map (fun p => rect (mdataPkt s i (4 + d.chan) (addrOff d.addr / 64 + p.2) p.1)) ++ [rect fence]).foldl
          (fun t p => t.sendPkt i .te p) s2
        .next (if members = 0 then s3.teFinish i y 0 else s3)

/-- TOKEN_PACK_TIMEOUT (R312): 8 CCLK pass without another token for credit entry i; its pack is sent. -/
def execTokenPackTimeout (c : ClusterId) (i : Nat) (s : State) : Host.Outcome State Fault Refusal :=
  if s.runs c.val then .next (s.sendPack c.val i) else .next s

/-- CREDIT_RETURN_TIMEOUT (R312): 32 TCLK after the first credit owed by entry i, its credits are returned. -/
def execCreditReturnTimeout (c : ClusterId) (i : Nat) (s : State) : Host.Outcome State Fault Refusal :=
  if s.runs c.val then .next (s.sendCredits c.val i) else .next s

end Sys2Proof.Machine
end

