-- ==== Sys2Proof/Machine/Transit.lean ====
section
/-! DEFINITION. What a cluster does with the packets that reach it (R296, R304-R321): reads and their answers, ordered streams with their reorder
pool, landings, element tokens, served GETs, acknowledgements, credits, refusals, multicast, and the timers. Readings that the words leave
open are log entries 15 and 19. -/

namespace Sys2Proof.Machine

/-! ## Arrivals (R304) -/

/-- The first packet of an opcode that waits at a cluster, and the state without it. -/
def State.takeArrival (s : State) (i opc : Nat) : Option (Pkt × State) :=
  match takeFirst (fun p => p.opc == opc) (s.cluster i).arrivals with
  | some (p, rest) => some (p, s.modCluster i (fun c => { c with arrivals := rest }))
  | none => none

/-- A local delivery is suppressed (R304): counted, and a request is answered with NAK REFUSED by the router. -/
def State.suppress (s : State) (i : Nat) (p : Pkt) : State :=
  let s1 := s.modCluster i (fun c => c.countStart MSH_CNT_SUPPR_CNT 1)
  if asksNak p.opc then s1.routerSend i (nakOf s i p 1) else s1

/-- A cluster handles the first packet of an opcode that its agents serve: suppressed where the cluster is occulted or its region NOCOMP, handled by f
where its agents run, else it waits. -/
def State.onArrival (s : State) (i opc : Nat) (f : State → Pkt → State) : State :=
  match s.takeArrival i opc with
  | none => s
  | some (p, t) => if s.suppressed i then t.suppress i p else if s.runs i then f t p else s

/-- The same for an answer: one to the host-bridge attachment is always accepted, since the attachment stays in service (R23, R304). -/
def State.onAnswer (s : State) (i opc : Nat) (f : State → Pkt → State) : State :=
  match s.takeArrival i opc with
  | none => s
  | some (p, t) => if p.dep = 44 then f t p else if s.suppressed i then t.suppress i p else if s.runs i then f t p else s

/-- Poisoned data from another module is taken off the mesh by the engine that receives it, which is the consumer that R355 (code 24) and R357 name here
(DEDUCED, log entry 25). -/
def State.extPoison (s : State) (i : Nat) (p : Pkt) : State :=
  if p.smod ≠ s.modId then s.failure 24 (regionOf i) (some i) 0 false false else s

/-! ## Element memory from outside (R113, R240) -/

/-- Whether space 1 is open to other agents: the region is drained, or the eyepiece is open (R113). -/
def State.space1Open (s : State) (i : Nat) : Bool := (s.region (regionOf i)).drainedState || s.dome_ EYE_STATUS_OPEN == 1

/-- A read of the enabled bytes of 64 of element memory from outside (R112, R239, R240): bytes lose their parity, as the command names them; a byte of bad parity
among the 64-bit words that the enables touch poisons the answer and is a parity error of the cluster. -/
def State.elemRead (s : State) (i off : Nat) (be : W64) (upsets : List Nat) : (List Byte × Bool) × State :=
  let c := s.cluster i
  let e := off / 0x4000; let a := off % 0x4000
  let struck := upsets.foldl NSet.add (c.elem e).bad
  let bad := (List.range 8).any (fun k => (be.toNat / 2 ^ (8 * k) % 256 != 0) && NSet.meets struck (a + 8 * k) 8)
  let s1 := if upsets.isEmpty then s else s.modElem i e (fun x => { x with bad := struck })
  ((Mem.bytes (c.elem e).mem a 64, bad), if bad then s1.clusterFailure 2 i (c.faultWord e) else s1)

/-- A masked write of element memory from outside (R240): a poisoned one stores its bytes with inverted parity. -/
def State.elemWrite (s : State) (i off : Nat) (bs : List Byte) (mask : List Bool) (poison : Bool) : State :=
  let e := off / 0x4000; let a := off % 0x4000
  let hit := (List.range bs.length).filterMap (fun k => if mask.getD k false then some (a + k) else none)
  s.modElem i e (fun x =>
    let kept := x.bad.filter (fun b => !hit.contains b)
    { x with mem := Mem.writeMask x.mem a bs mask, bad := if poison then hit.foldl NSet.add kept else kept })

/-! ## RD and RDR (R296, R297, R304) -/

/-- The offset of an aligned 32-bit word that byte enables select alone (R112). -/
def oneWord (be : W64) : Option Nat := (List.range 16).find? (fun k => be.toNat == 15 * 2 ^ (4 * k))

/-- A read is served (R111-R113, R304): at cluster memory, element memory, the store port or the registers; what R111 or R113 refuses gets a NAK. -/
def State.serveRd (s : State) (i : Nat) (p : Pkt) (upsets : List Nat) : State :=
  let w := p.pay.headD 0
  let off := bitsOf w 0 29; let sp := bitsOf w 29 3; let be := p.pay.getD 1 0
  let refuse := s.sendPkt i .te (nakOf s i p 1)
  let answer := fun (t : State) (bs : List Byte) (poison : Bool) => t.sendPkt i .te (rdrOf s i p bs poison)
  if p.dep ≠ spaceEndpoint sp ∨ off % 64 ≠ 0 ∨ spaceSize i sp ≤ off then refuse
  else if sp = 0 then let r := (s.upset i upsets).memReadUse i 5 off 64 (fun b => be.toNat.testBit (b - off)); answer r.2 r.1.1 r.1.2
  else if sp = 1 then
    if s.space1Open i then let r := s.elemRead i off be upsets; answer r.2 r.1.1 r.1.2 else refuse
  else if sp = 2 then s.dsEnter i ⟨2, 0, false, off, [], [], 0, false, some p⟩
  else if sp = 3 then
    match oneWord be with
    | some k => answer s (List.replicate (4 * k) 0 ++ leBytes 4 (s.clusterReg i (off + 4 * k)).toNat ++ List.replicate (60 - 4 * k) 0) false
    | none => refuse
  else refuse

/-- RD (R304): a read request reaches its endpoint. -/
def execRd (c : ClusterId) (upsets : List Nat) (s : State) : Host.Outcome State Fault Refusal :=
  .next (s.onArrival c.val 1 (fun t p => t.serveRd c.val p upsets))

/-- The item of an agent that an answer closes: of a kind, with the TAG, at the answer's source. -/
def Sender.answered (x : Sender) (kind tag dmod dy dx : Nat) : Option Xfer :=
  x.items.find? (fun t => t.kind == kind && (if kind = 2 then t.members else t.tag) == tag && t.dmod == dmod && t.dy == dy && t.dx == dx)

/-- RDR (R297, R286, R381): the data goes to the table unit's gather or to the bridge's access; to nobody where the request is closed. -/
def execRdr (c : ClusterId) (s : State) : Host.Outcome State Fault Refusal :=
  .next (s.onAnswer c.val 2 (fun t p =>
    let a := agentOf p.dep
    match ((s.cluster c.val).sender a).answered 6 (pktTag p s.modId) p.smod p.sy p.sx with
    | none => t
    | some x =>
      if s.host.d3hot = true ∧ a = .attach ∧ x.owner % 8 = 3 then s
      else
        let t0 := t.modSender c.val a (fun z => z.dropItem x.id)
        let t1 := if p.poison then t0.extPoison c.val p else t0
        match a with
        | .tu => t1.modCluster c.val (fun k => k.gatherArrive x.owner (payBytes p) (if p.poison then 10 else 0))
        | .attach => t1.hostReadDone x.owner x.members (payBytes p) (if p.poison then 2 else 0)
        | .te => t1))

/-! ## Landings (R236, R308, R316) -/

/-- Receive stream n. -/
def State.recvStream (s : State) (i n : Nat) : Option RecvStream := (s.cluster i).te.recv[n]?
/-- Receive stream n is changed. -/
def State.modRecv (s : State) (i n : Nat) (f : RecvStream → RecvStream) : State :=
  s.modCluster i (fun c => { c with te := { c.te with recv := modAt f c.te.recv n } })

/-- A stream is acknowledged up to the last delivery, with a status and TAG (R307). -/
def State.ackStream (s : State) (i n status tag : Nat) : State :=
  match s.recvStream i n with
  | none => s
  | some r => (s.modRecv i n (fun q => { q with unacked := 0 })).sendPkt i .te (ackOf s i r.smod r.sy r.sx r.sep r.chan (r.expect + 255) status tag 0)

/-- Whether an OPEN is refused (R304, R111-R113): its space, its extent, its endpoint, or a space 3 or 4 write of another size. -/
def State.openBad (s : State) (i : Nat) (p : Pkt) (l : Landing) : Bool :=
  let size := spaceSize i l.space
  let be := BitVec.ofNat 64 (l.firstBe &&& l.lastBe)
  p.dep != spaceEndpoint l.space || size == 0 || decide (size ≤ 64 * l.gran) || (l.add != 0 && l.space != 0 && l.space != 2) ||
  (if l.space = 1 then !s.space1Open i || decide (size < 64 * (l.gran + l.ngran))
   else if l.space = 3 then l.ngran != 1 || (oneWord be).isNone
   else if l.space = 4 then l.ngran != 1 || be.toNat != 0xFFFF
   else !l.plate && decide (size < 64 * (l.gran + l.ngran)))

/-- An OPEN is delivered (R316): the landing starts, or the transit engine answers NAK REFUSED and the stream absorbs the transfer's packets. -/
def State.landOpen (s : State) (i n : Nat) (p : Pkt) : State :=
  let w := p.pay.headD 0
  let l : Landing := ⟨(s.cluster i).te.send.serial, bitsOf w 0 23, bitsOf w 23 3, bitsOf w 26 2, bitOf w 28, bitsOf w 32 16, bitsOf w 48 16,
    (p.pay.getD 1 0).toNat, (p.pay.getD 2 0).toNat, [], 0, 0⟩
  if s.openBad i p l then
    (s.modRecv i n (fun r => { r with landing := none, absorb := true, pool := [] })).sendPkt i .te (nakOf s i p 1)
  else (s.modSender i .te (fun z => { z with serial := z.serial + 1 })).modRecv i n (fun r => { r with landing := some l })

/-- Lane kinds by ADD: 1 INT32, 2 FP32, 3 BF16 (R297, R232). -/
def addKind (add : Nat) : Nat := if add = 0 then 0 else add + 1

/-- The class of R225 under which a landing writes cluster memory: 5 RMT for one of an attachment, 1 SP for a GET of the cluster's own column, else 2 TE. -/
def State.landClass (s : State) (i : Nat) (r : RecvStream) (l : Landing) : Nat :=
  if r.sep = 44 then 5
  else if r.smod = s.modId ∧ cidx r.sx r.sy = i ∧ (s.cluster i).te.send.items.any (fun x =>
    x.kind == 2 && x.owner == 2 && x.tag == l.tag && x.dmod == r.smod && x.dy == r.sy && x.dx == r.sx) = true then 1
  else 2

/-- A granule is put into its place (R236, R237, R265, R278, R316): staged under deterministic mode where it adds in floating point. -/
def State.placeGranule (s : State) (i : Nat) (r : RecvStream) (l : Landing) (g : Nat) (mask : List Bool) (p : Pkt) : State :=
  let bs := payBytes p
  let kind := addKind l.add
  let stagedIt := (s.cluster i).rd CM_CTRL_DETERM == 1 && (kind == 3 || kind == 4)
  let key : DKey := ⟨r.smod, r.sy, r.sx, r.sep, r.chan * 2 ^ 14 + r.adds % 2 ^ 14⟩
  if l.space = 0 then
    if stagedIt then s.stageAny i ⟨64 * g, mask, kind, key, bs, p.poison⟩ else s.asmPut i (64 * g) l.id kind (s.landClass i r l) bs mask p.poison
  else if l.space = 2 then
    if stagedIt then s.stageAny i ⟨stageDs + 64 * g, mask, kind, key, bs, p.poison⟩
    else
      let own := p.smod == s.modId && cidx p.sx p.sy == i
      s.dsEnter i ⟨if own then 0 else 2, 0, true, 64 * g, bs, mask, kind, p.poison, none⟩
  else if l.space = 1 then s.elemWrite i (64 * g) bs mask p.poison
  else if l.space = 3 then
    match oneWord (BitVec.ofNat 64 (l.firstBe &&& l.lastBe)) with
    | some k => s.clusterRegWrite i (64 * g + 4 * k) (BitVec.ofNat 32 (leNat (sliceOf bs (4 * k) 4)))
    | none => s
  else
    let ep := (s.region (regionOf i)).rd TCK_RSCHED_EPOCH
    (s.modCluster i (fun c => { c with tu := { c.tu with doorbell := c.tu.doorbell ++ [(p.pay.getD 0 0, p.pay.getD 1 0, ep)] } })).modRegion
      (regionOf i) (fun g => g.wake ep)

/-- A GET of this engine learns how many granules its landing has taken (R319). -/
def Sender.landed (z : Sender) (r : RecvStream) (l : Landing) : Sender :=
  { z with items := z.items.map (fun x =>
      if x.kind == 2 && x.tag == l.tag && x.dmod == r.smod && x.dy == r.sy && x.dx == r.sx then { x with acks := l.count } else x) }

/-- A landing is complete (R307, R308): its rows are written, and the status goes back. -/
def State.landDone (s : State) (i n : Nat) (l : Landing) : State :=
  match s.recvStream i n with
  | none => s
  | some _ =>
    ((s.asmFlushXfer i l.id).modRecv i n (fun q => { q with landing := none })).ackStream i n (if l.status = 0 then 1 else l.status) l.tag

/-- A DATA packet is delivered (R308, R316): to its granule, under the enables of the first and the last; one past the space, or in space 1 while it is not open
(R113), is not written and the status is REFUSED; poison makes the status POISON. -/
def State.landData (s : State) (i n : Nat) (p : Pkt) : State :=
  match s.recvStream i n with
  | none => s
  | some r => match r.landing with
    | none => s
    | some l =>
      let g := l.gran + (if l.plate then (p.pay.getD 8 0).toNat else l.count)
      let be := (if l.count = 0 then l.firstBe else 2 ^ 64 - 1) &&& (if l.count + 1 = l.ngran then l.lastBe else 2 ^ 64 - 1)
      let inside := l.space == 3 || l.space == 4 || (decide (64 * g + 64 ≤ spaceSize i l.space) && (l.space != 1 || s.space1Open i))
      let st := if inside = false then max l.status 8 else if p.poison then max l.status 7 else l.status
      let l1 := { l with count := l.count + 1, status := st, rows := if l.plate then l.rows ++ [g] else l.rows }
      let s1 := if inside then s.placeGranule i r l g (beMask be 64) p else s
      let s2 := if p.poison then (s1.modCluster i (fun c => c.wr TE_EVENT_POISON 1)).extPoison i p else s1
      let s3 := (s2.modSender i .te (fun z => z.landed r l1)).modRecv i n (fun q => { q with landing := some l1, adds := if l.add = 0 then q.adds else q.adds + 1 })
      if p.last then s3.landDone i n l1 else s3

/-! ## Element tokens (R312, R313) -/

/-- The tokens of a TOKEN packet; a poisoned packet poisons them all. -/
def pktTokens (p : Pkt) : List Tok :=
  let w := p.pay.headD 0
  (List.range (min 7 (bitsOf w 0 3))).map (fun k =>
    let f := bitsOf w (5 * k + 8) 5
    ⟨p.pay.getD (k + 1) 0, if f % 4 = 0 then .data else if f % 4 = 1 then .last else if f % 4 = 2 then .pred else .mark, f / 4 % 4,
      f / 16 == 1 || p.poison⟩)

/-- A TOKEN packet is delivered (R312, R313): a queue that is bound to another source refuses it; else one with START binds the queue, and the tokens, whose
credits are owed to their source, enter the ring toward the queue. -/
def State.landTokens (s : State) (i : Nat) (p : Pkt) : State :=
  let q := bitsOf (p.pay.headD 0) 4 3
  let src := (p.smod, p.sy, p.sx, (p.pay.getD 8 0).toNat)
  let key := 8 * p.dep + q
  let old := SMap.get (fun _ => none) (s.cluster i).te.bound key
  if old ≠ none ∧ old ≠ some src then
    (s.modCluster i (fun c => (c.countStart TE_CNT_QSRC_CNT 1).wr TE_EVENT_QSRC 1)).sendPkt i .te (nakOf s i p 1)
  else
    let ts := pktTokens p
    let s1 := s.modCluster i (fun c =>
      let c0 := { c with te := { c.te with fed := SMap.set (fun _ => none) c.te.fed key (some src) } }
      let c1 := if isStart p then { c0 with te := { c0.te with bound := SMap.set (fun _ => none) c0.te.bound key (some src) } } else c0
      ts.foldl (fun k t => k.pushOut 36 1 p.dep q t) c1)
    let s2 := s1.modRegion (regionOf i) (fun g => ts.foldl (fun h t => h.wake t.epoch) g)
    if ts.any (fun t => t.poison) then (s2.modCluster i (fun c => c.wr TE_EVENT_POISON 1)).extPoison i p else s2

/-! ## Ordered streams (R306, R307) -/

/-- A packet is delivered in order (R306, R307): 16 deliveries without an acknowledgement bring one. -/
def State.deliverOrd (s : State) (i n : Nat) (p : Pkt) : State :=
  let s1 := s.modRecv i n (fun r => { r with expect := (r.expect + 1) % 256, unacked := r.unacked + 1, idle := 0 })
  let s2 := if p.opc = 3 then s1.landOpen i n p else if p.opc = 4 then s1.landData i n p else s1.landTokens i p
  match s2.recvStream i n with
  | some r => if 16 ≤ r.unacked then s2.ackStream i n 0 0 else s2
  | none => s2

/-- Pooled packets that continue the run are delivered (R306). -/
def State.drainPool (i n : Nat) : Nat → State → State
  | 0, s => s
  | f + 1, s =>
    match s.recvStream i n with
    | none => s
    | some r =>
      if r.absorb then s
      else match takeFirst (fun p => p.seq == r.expect) r.pool with
        | none => s
        | some (p, rest) => State.drainPool i n f ((s.modRecv i n (fun q => { q with pool := rest })).deliverOrd i n p)

/-- The receive-stream table with room for a new stream among the entries that are kept for golden packets, or among the others (R300, R306): an unused entry, or
a reusable one. -/
def Te.makeRoom (t : Te) (kept : Bool) : Option (List RecvStream) :=
  if (t.recv.filter (fun r => r.kept == kept)).length < (if kept then 8 else 248) then some t.recv
  else (takeFirst (fun r => r.kept == kept && r.reusable) t.recv).map (fun q => q.2)

/-- The receive-stream table with an entry for a packet's stream, and its place (R300, R306); none where no entry is left for it. -/
def Te.openStream (t : Te) (gold : Bool) (p : Pkt) : Option (Nat × Te) :=
  let add (kept : Bool) (l : List RecvStream) : Nat × Te :=
    (l.length, { t with recv := l ++ [⟨p.smod, p.sy, p.sx, p.sep, p.chan, p.seq, false, [], 0, none, false, 0, 0, kept⟩] })
  match t.recv.findIdx? (fun r => r.is p) with
  | some n => some (n, t)
  | none =>
    match t.makeRoom false with
    | some l => some (add false l)
    | none => if gold then (t.makeRoom true).map (add true) else none

/-- An ordered packet reaches stream n (R306, R310): START resets the stream; the expected packet and what it continues are delivered; one that is ahead waits in
the pool; a stream that has lost packets absorbs them. -/
def State.orderedAt (s1 : State) (i n : Nat) (p : Pkt) : State :=
  if isStart p then
    let s2 := s1.modRecv i n (fun r => { r with expect := p.seq, known := true, absorb := false, landing := none, unacked := 0 })
    State.drainPool i n 256 (s2.deliverOrd i n p)
  else match s1.recvStream i n with
    | none => s1
    | some r =>
      if r.absorb then s1
      else if r.known = true ∧ r.expect = p.seq then State.drainPool i n 256 (s1.deliverOrd i n p)
      else
        let s2 := s1.modRecv i n (fun q => { q with pool := q.pool ++ [p] })
        s2.modCluster i (fun c => c.peak TE_POOL_PEAK c.te.pooled)

/-- An ordered packet reaches the transit engine (R306): one that finds no stream entry any more goes back into the mesh (R304). -/
def State.ordered (s : State) (i : Nat) (p : Pkt) : State :=
  match (s.cluster i).te.openStream (s.goldenPkt p) p with
  | some o => (s.modCluster i (fun c => { c with te := o.2 })).orderedAt i o.1 p
  | none => (s.modCluster i (fun c => c.count MSH_CNT_REFUSE_CNT 1)).routerInject i p

/-- OPEN (R316). -/
def execOpenXfer (c : ClusterId) (s : State) : Host.Outcome State Fault Refusal := .next (s.onArrival c.val 3 (fun t p => t.ordered c.val p))

/-- DATA (R316, R236). -/
def execDataPkt (c : ClusterId) (s : State) : Host.Outcome State Fault Refusal := .next (s.onArrival c.val 4 (fun t p => t.ordered c.val p))

/-- TOKEN (R312, R313). -/
def execTokenPkt (c : ClusterId) (s : State) : Host.Outcome State Fault Refusal := .next (s.onArrival c.val 5 (fun t p => t.ordered c.val p))

/-! ## GET (R316) -/

/-- A GET is served (R225, R304, R315, R316): refused where its space or extent is not one of this cluster; else the data goes back as a PUT, or for a plate whose
header row fails the status goes back at once. -/
def State.serveGet (s : State) (i : Nat) (p : Pkt) : State :=
  let w := p.pay.headD 0; let w1 := p.pay.getD 1 0
  let off := bitsOf w 0 29; let sp := bitsOf w 29 3; let n := bitsOf w 32 16; let plate := bitOf w 48
  if (sp ≠ 0 ∧ sp ≠ 2) ∨ off % 64 ≠ 0 ∨ spaceSize i sp < off + 64 * n then s.sendPkt i .te (nakOf s i p 1)
  else
    let x : Xfer := ⟨noItem, 4, bitsOf w1 16 16, 0, false, 0, 0, p.smod, p.sy, p.sx, 33, bitsOf w 49 2, 0, 0, plate, pktTag p s.modId, 0, [], 0⟩
    let l := if plate then s.plateLoad i sp 2 off n else
      let r := State.teRead i sp 2 n off n s
      (⟨0, r.1.map (fun g => (g.1, g.2, none))⟩, r.2)
    if l.1.status ≠ 0 then l.2.teFinish i x l.1.status
    else
      let m := l.2.noteSent i l.1.grans
      m.2.startXfer i .te { x with status := m.1 } 0 (bitsOf w1 0 15) 0 (BitVec.allOnes 64) (BitVec.allOnes 64) l.1.grans

/-- GET (R316). -/
def execGetPkt (c : ClusterRead) (s : State) : Host.Outcome State Fault Refusal :=
  let k := c.cluster.val
  .next (s.onArrival k 6 (fun t p => (t.upset k c.upsets).serveGet k p))

/-! ## Acknowledgements, credits and refusals (R297, R307, R310, R312, R319) -/

/-- An item of an agent ends (R318, R319): status 0 is DONE. -/
def State.itemDone (s : State) (i : Nat) (a : Agent) (x : Xfer) (status : Nat) : State :=
  match a with
  | .te => s.teFinish i x status
  | .tu => s.modSender i .tu (fun z => z.dropItem x.id)
  | .attach => (s.modSender i .attach (fun z => z.dropItem x.id)).hostWriteDone x.owner x.members (if status = 0 then 1 else status)

/-- The packets of a stream up to a sequence number are acknowledged (R307): how many of each transfer, and what stays outstanding. -/
def SendStream.acked (t : SendStream) (seq : Nat) : List Nat × SendStream :=
  match t.outst.findIdx? (fun o => o.1 == seq) with
  | some k => ((t.outst.take (k + 1)).map (fun o => o.2), { t with outst := t.outst.drop (k + 1) })
  | none => ([], t)

/-- A cumulative ACK at an agent (R307, R319): it frees packets up to its SEQ; a status other than progress ends the transfer. -/
def State.ackIn (s : State) (i : Nat) (a : Agent) (p : Pkt) : State :=
  let w := p.pay.headD 0
  let chan := bitsOf w 0 2; let st := bitsOf w 16 4; let tag := bitsOf w 48 16
  let x := (s.cluster i).sender a
  let freed := (x.streams.filter (fun t => t.is p.smod p.sy p.sx chan)).flatMap (fun t => (t.acked (bitsOf w 8 8)).1)
  let s1 := s.modSender i a (fun z => { z with
    streams := z.streams.map (fun t => if t.is p.smod p.sy p.sx chan then (t.acked (bitsOf w 8 8)).2 else t)
    items := z.items.map (fun y => { y with acks := if y.kind = 3 ∨ y.kind = 2 then y.acks else y.acks + freed.count y.id }) })
  let mine := fun (y : Xfer) => (y.kind == 1 || y.kind == 4 || y.kind == 5) && y.dmod == p.smod && y.dy == p.sy && y.dx == p.sx && y.chan == chan &&
    y.tag == tag
  let s2 := if st = 0 then s1 else match ((s1.cluster i).sender a).items.find? mine with
    | some y => s1.itemDone i a y (if st = 1 then 0 else st)
    | none => s1
  s2.pump i a

/-- ACK (R307, R319): of a stream, or the answer to a GET. -/
def execAck (c : ClusterId) (s : State) : Host.Outcome State Fault Refusal :=
  .next (s.onAnswer c.val 7 (fun t p =>
    let a := agentOf p.dep
    let tag := pktTag p s.modId
    if tag = 0 then t.ackIn c.val a p
    else match ((s.cluster c.val).sender a).answered 2 tag p.smod p.sy p.sx with
      | some x => let st := bitsOf (p.pay.headD 0) 16 4; (t.itemDone c.val a x (if st = 1 then 0 else st)).pump c.val a
      | none => t))

/-- CREDIT (R312): each entry's credits go to the credit table's entry of that destination. -/
def execCredit (c : ClusterId) (s : State) : Host.Outcome State Fault Refusal :=
  .next (s.onAnswer c.val 8 (fun t p =>
    (List.range (min 7 (bitsOf (p.pay.getD 7 0) 0 3))).foldl (fun u k =>
      let w := p.pay.getD k 0
      u.modCluster c.val (fun cl => { cl with te := { cl.te with credit := cl.te.credit.map (fun e =>
        if e.src == bitsOf w 8 5 && e.dmod == p.smod && e.dy == p.sy && e.dx == p.sx && e.elem == bitsOf w 0 5 && e.queue == bitsOf w 5 3
        then { e with credits := e.credits + bitsOf w 16 5 } else e) } })) t))

/-- The tokens of a TOKEN packet, by number. -/
def tokenCount (w0 : W64) : Nat := bitsOf w0 0 3

/-- A credit entry fails (R312): its tokens, `lost` of them in the packet that was refused, the others packed or waiting to be sent, are discarded and counted. -/
def State.failEntry (s : State) (i src dmod dy dx elem queue lost : Nat) : State :=
  s.modCluster i (fun c =>
    let gone := fun (p : Pkt × Nat) => p.1.opc == 5 && p.2 == tokenXfer src && p.1.dmod == dmod && p.1.dy == dy && p.1.dx == dx && p.1.dep == elem &&
      bitsOf (p.1.pay.headD 0) 4 3 == queue
    let waits := (c.te.send.streams.flatMap (fun t => (t.waiting.filter gone).map (fun p => tokenCount (p.1.pay.headD 0)))).sum
    let hit := fun (e : CreditEntry) => e.src == src && e.dmod == dmod && e.dy == dy && e.dx == dx && e.elem == elem && e.queue == queue
    let n := ((c.te.credit.filter hit).map (fun e => e.pack.length)).sum
    let t : Te := { c.te with
      credit := c.te.credit.map (fun e => if hit e then { e with failed := true, pack := [] } else e)
      send := { c.te.send with streams := c.te.send.streams.map (fun t => { t with waiting := t.waiting.filter (fun p => !gone p) }) } }
    { c with te := t }.countStart TE_CNT_DISCARD_CNT (n + waits + lost))

/-- The event of a failure at the transit engine (R324): status 8 REFUSED, 9 UNREACH, 10 LOST. -/
def Cluster.teEvent (c : Cluster) (st : Nat) : Cluster :=
  if st = 8 then c.wr TE_EVENT_REFUSED 1 else if st = 9 then c.wr TE_EVENT_UNREACH 1 else (c.countStart TE_CNT_LOST_CNT 1).wr TE_EVENT_LOST 1

/-- An RD of an agent fails: status 8 REFUSED, 9 UNREACH, 10 LOST (R286, R381). -/
def State.readFailed (s : State) (i : Nat) (a : Agent) (x : Xfer) (st : Nat) : State :=
  let s1 := s.modSender i a (fun z => z.dropItem x.id)
  match a with
  | .tu => s1.modCluster i (fun c => c.gatherArrive x.owner [] (if st = 10 then 9 else 8))
  | .attach => s1.hostReadDone x.owner x.members [] (if st = 10 then 3 else 1)
  | .te => s1

/-- A transfer fails (R310): it completes with the status, its packets are no longer sent, and its stream is reset. -/
def State.xferFailed (s : State) (i : Nat) (a : Agent) (x : Xfer) (st : Nat) : State :=
  ((s.itemDone i a x st).modSender i a (fun z => z.resetStream x.dmod x.dy x.dx x.chan x.id)).pump i a

/-- A NAK at an agent (R297, R310, R312): by the opcode of the packet that it answers. -/
def State.nakIn (s : State) (i : Nat) (a : Agent) (p : Pkt) : State :=
  let h := (p.pay.getD 1 0).toNat + 2 ^ 64 * (p.pay.getD 2 0).toNat
  let opc := h % 32; let dmod := h / 2 ^ 5 % 4096; let dy := h / 2 ^ 17 % 128; let dx := h / 2 ^ 24 % 128; let dep := h / 2 ^ 31 % 64
  let chan := h / 2 ^ 69 % 8; let seq := h / 2 ^ 72 % 256; let rsv := h / 2 ^ 90 % 64
  let tag := if dmod = s.modId then seq + 256 * rsv else seq
  let reason := bitsOf (p.pay.headD 0) 0 4
  let st := if reason = 1 then 8 else if reason = 2 then 9 else 10
  let z := (s.cluster i).sender a
  let s1 := if a = .te then s.modCluster i (fun c => c.teEvent st) else s
  let s2 := if st = 8 then s1 else s1.hifEvent 8
  if opc = 1 then match z.answered 6 tag dmod dy dx with | some x => s2.readFailed i a x st | none => s2
  else if opc = 6 then match z.answered 2 tag dmod dy dx with | some x => (s2.itemDone i a x st).pump i a | none => s2
  else if opc = 10 ∨ opc = 11 then match z.items.find? (fun x => x.kind == 3 && x.chan == chan) with | some x => (s2.itemDone i a x st).pump i a | none => s2
  else if opc = 3 ∨ opc = 4 ∨ opc = 5 then
    let out := ((z.streams.filter (fun t => t.is dmod dy dx chan)).flatMap (fun t => t.outst)).find? (fun o => o.1 == seq)
    match out with
    | none => s2
    | some o =>
      if opc = 5 then
        let src := o.2 - 2 ^ 40
        if st = 10 then (s2.modSender i a (fun y => y.resetStream dmod dy dx chan o.2)).pump i a
        else
          ((s2.failEntry i src dmod dy dx dep (bitsOf (p.pay.getD 3 0) 4 3) (tokenCount (p.pay.getD 3 0))).modSender i a (fun y => { y with streams := y.streams.map (fun t =>
            if t.is dmod dy dx chan then { t with outst := t.outst.filter (fun q => q.1 != seq) } else t) })).pump i a
      else match z.items.find? (fun x => x.id == o.2) with
        | some x => s2.xferFailed i a x st
        | none => s2
  else s2

/-- NAK (R297). -/
def execNak (c : ClusterId) (s : State) : Host.Outcome State Fault Refusal := .next (s.onAnswer c.val 9 (fun t p => t.nakIn c.val (agentOf p.dep) p))

/-! ## Multicast at a member and at its source (R320, R321) -/

/-- The number that stands for a multicast among the transfers of the row-assembly buffers. -/
def mcXfer (p : Pkt) : Nat := 2 ^ 41 + ((p.smod * 128 + p.sy) * 128 + p.sx) * 512 + p.sep * 8 + p.chan

/-- Whether a member's count is the packet's. -/
def McCount.is (m : McCount) (p : Pkt) : Bool := m.smod == p.smod && m.sy == p.sy && m.sx == p.sx && m.sep == p.sep && m.chan == p.chan

/-- The counts with the packet's changed by f; a count not yet there starts at none received. -/
def Te.modMc (t : Te) (p : Pkt) (f : McCount → McCount) : Te :=
  if t.mc.any (fun m => m.is p) then { t with mc := t.mc.map (fun m => if m.is p then f m else m) }
  else { t with mc := t.mc ++ [f ⟨p.smod, p.sy, p.sx, p.sep, p.chan, 0, none⟩] }

/-- A MACK from cluster i to the source of a multicast packet (R297). -/
def mackOf (s : State) (i : Nat) (p : Pkt) (absent : Bool) (tag : Nat) : Pkt :=
  { pktFrom s i 36 with
    opc := 12, dmod := p.smod, dy := p.sy, dx := p.sx, dep := p.sep, chan := 7, pay := pay8 [BitVec.ofNat 64 (bit1 absent + tag * 2 ^ 16)] }

/-- Once a member has counted all that the fence names, every granule is written, MACK goes back, and the count clears (R321). -/
def State.mcCheck (s : State) (i : Nat) (p : Pkt) : State :=
  match (s.cluster i).te.mc.find? (fun m => m.is p) with
  | some ⟨_, _, _, _, _, n, some (want, tag)⟩ =>
    if want ≤ n then
      ((s.asmFlushXfer i (mcXfer p)).modCluster i (fun c => { c with te := { c.te with mc := c.te.mc.filter (fun m => !m.is p) } })).sendPkt i .te
        (mackOf s i p false tag)
    else s
  | _ => s

/-- MDATA (R320, R321): a granule of a multicast is stored at its index, and counted. -/
def execMdata (c : ClusterId) (s : State) : Host.Outcome State Fault Refusal :=
  .next (s.onArrival c.val 10 (fun t p =>
    let g := p.dmod + 4096 * (p.dep % 8)
    let t1 := t.asmPut c.val (64 * g) (mcXfer p) 0 2 (payBytes p) (List.replicate 64 true) p.poison
    let t2 := if p.poison then t1.modCluster c.val (fun k => k.wr TE_EVENT_POISON 1) else t1
    let t3 := t2.modCluster c.val (fun k => { k with te := k.te.modMc p (fun m => { m with count := m.count + 1 }) })
    t3.mcCheck c.val p))

/-- MFENCE (R321): a member notes what the fence names; the router of an occulted member answers ABSENT where it was occulted after the fence's map, and
so does that of a NOCOMP region. -/
def execMfence (c : ClusterId) (s : State) : Host.Outcome State Fault Refusal :=
  match s.takeArrival c.val 11 with
  | none => .next s
  | some (p, t) =>
    let w := p.pay.headD 0
    let tag := bitsOf w 16 16
    if s.suppressed c.val then
      if s.enabled c.val = true ∨ bitsOf w 48 16 < (s.cluster c.val).occGen then .next (t.routerSend c.val (mackOf s c.val p true tag)) else .next t
    else if s.runs c.val then
      .next ((t.modCluster c.val (fun k => { k with te := k.te.modMc p (fun m => { m with fence := some (bitsOf w 0 16, tag) }) })).mcCheck c.val p)
    else .next s

/-- A multicast completes (R321): its status is ABSENT where a member was absent, and the first eight are named. -/
def State.mcDone (s : State) (i : Nat) (x : Xfer) : State :=
  if x.absent.isEmpty then s.teFinish i x 0
  else
    let s1 := s.modCluster i (fun c =>
      let c1 := ((c.wr TE_EVENT_ABSENT 1).wr TE_MC_ABSENT_COUNT x.absent.length).wr TE_MC_ABSENT_TAG x.tag
      (List.range 8).foldl (fun k n => match x.absent[n]? with
        | some m => ((k.wr (TE_MC_ABS_X.nth n) (cx m)).wr (TE_MC_ABS_Y.nth n) (cy m)).wr (TE_MC_ABS_VALID.nth n) 1
        | none => ((k.wr (TE_MC_ABS_X.nth n) 0).wr (TE_MC_ABS_Y.nth n) 0).wr (TE_MC_ABS_VALID.nth n) 0) c1)
    s1.teFinish i x 6

/-- MACK (R321): an acknowledgement, present or absent, is counted; MEMBERS of them complete the multicast. -/
def execMack (c : ClusterId) (s : State) : Host.Outcome State Fault Refusal :=
  .next (s.onAnswer c.val 12 (fun t p =>
    let w := p.pay.headD 0
    match (s.cluster c.val).te.send.items.find? (fun x => x.kind == 3 && x.tag == bitsOf w 16 16) with
    | none => t
    | some x =>
      let y := { x with acks := x.acks + 1, absent := if bitOf w 0 then x.absent ++ [cidx p.sx p.sy] else x.absent }
      let t1 := t.modSender c.val .te (fun z => { z with items := z.items.map (fun k => if k.id == x.id then y else k) })
      if y.members ≤ y.acks then (t1.mcDone c.val y).pump c.val .te else t1))

/-! ## Timers (R307, R310) -/

/-- POOL_GAP_TIMEOUT (R310): a packet has waited 65,536 TCLK in the pool; its stream's pooled packets are discarded and the landing is LOST. -/
def execPoolGapTimeout (c : ClusterId) (i : Nat) (s : State) : Host.Outcome State Fault Refusal :=
  match s.recvStream c.val i with
  | none => .next s
  | some r => if r.pool.isEmpty then .next s else .next (((s.loseStream c.val i).failure 10 (regionOf c.val) none 0 false true).hifEvent 8)

/-- TRACKED_ITEM_TIMEOUT (R310, R355): item i of an agent is unanswered for 131,072 TCLK; it fails LOST, which degrades the module only for an item of
a cluster's own agent toward this module. -/
def execTrackedItemTimeout (c : ClusterId) (agent : Agent) (i : Nat) (s : State) : Host.Outcome State Fault Refusal :=
  match ((s.cluster c.val).sender agent).items[i]? with
  | none => .next s
  | some x =>
    let degr := agent != .attach && x.dmod == s.modId
    let s1 := (s.failure 11 (regionOf c.val) none 0 false degr).hifEvent 8
    let s2 := if agent = .te then s1.modCluster c.val (fun k => k.teEvent 10) else s1
    .next (if x.kind = 6 then s2.readFailed c.val agent x 10
      else if x.kind = 2 ∨ x.kind = 3 then s2.itemDone c.val agent x 10 else s2.xferFailed c.val agent x 10)

/-- ACK_DELAY_TIMEOUT (R307): 64 TCLK after a delivery not yet acknowledged, stream i is acknowledged. -/
def execAckDelayTimeout (c : ClusterId) (i : Nat) (s : State) : Host.Outcome State Fault Refusal :=
  match s.recvStream c.val i with
  | none => .next s
  | some r => if s.runs c.val = true ∧ r.unacked ≠ 0 then .next (s.ackStream c.val i 0 0) else .next s

end Sys2Proof.Machine
end

