-- ==== Sys2Proof/Machine/Cycles.lean ====
section
/-! DEFINITION. The cycles that go by between almanac debits (R80, R81): the debit itself, and the counters of cycles in which an agent waits (R147, R197,
R291, R324). Which counters of waiting are not kept is log entry 2. -/

namespace Sys2Proof.Machine

/-- Whether context k of an element has all it needs but credits or buffer room (R175, R197). -/
def Elem.lacksRoom (x : Elem) (e k drain : Nat) : Bool :=
  match x.plan e k drain 0 [] with | some p => !x.outRoom p && x.respRoom p | none => false

/-- An element's counts of n CCLK (R197): held by HOLD with a context ready; otherwise none ready, and of those the ones that only credits or
buffer room stop. A context that HOLD alone stops counts as ready here, though R175 makes HOLD part of ready: EL_CNT_HOLD counts it, and R197 does not say whether the
other counts do too (DESIGN CHOICE, log entry 12). -/
def Elem.cycles (x : Elem) (e drain n : Nat) (hold : Bool) : Elem :=
  let ks := List.range 8
  if ks.any (fun k => x.ready e k drain) then (if hold then x.count EL_CNT_HOLD_CNT n else x)
  else
    let x1 := x.count EL_CNT_IDLE_CNT n
    if ks.any (fun k => x.lacksRoom e k drain) then x1.count EL_CNT_STALL_CR_CNT n else x1

/-- The tokens that wait to enter a ring at the outputs of the stops, with the ring each waits for (R106, R117). -/
def Cluster.ringWaits (c : Cluster) : List Nat :=
  (List.range 37).flatMap (fun st => [0, 1].filterMap (fun out =>
    match c.waiting st out with | t :: _ => if t.dst = st then none else some t.ring | [] => none))

/-- The rings' counts of n CCLK (R117): each stop whose token waits adds n. -/
def Cluster.ringCycles (c : Cluster) (n : Nat) : Cluster := c.ringWaits.foldl (fun k r => k.count (EL_RING_WAIT_WAIT.nth r) n) c

/-- Whether the folder waits on the epilogue buffer (R134, R147). -/
def Mu.epiWaits (u : Mu) : Bool :=
  match u.atFolder with
  | some r => (r.cmd.epi || r.cmd.spilled) && u.runs.any (fun q => !q.epi.isEmpty)
  | none => false

/-- The matrix unit's counts of n ACLK (R147): the folder waits on the epilogue buffer; a command at the head that may start waits on HOLD, or on a full
completion queue. -/
def Cluster.muCycles (c : Cluster) (n : Nat) (hold : Bool) : Cluster :=
  let c0 := if c.mu.epiWaits then c.count MU_CNT_STALL_EPI_CNT n else c
  match c.mu.queue with
  | [] => c0
  | m :: _ =>
    let c1 := if hold = true ∧ c.mu.startable m = true then c0.count MU_CNT_HOLD_CNT n else c0
    if 16 ≤ c.mu.cq.length then c1.count MU_CNT_STALL_CPL_CNT n else c1

/-- Whether the head of queue q of the narrow port waits only on the lock of its row (R229, R232). -/
def State.npLockWaits (s : State) (i q : Nat) : Bool :=
  match s.nqHead i q with
  | none => false
  | some t =>
    let cl := s.cluster i; let k := reqKind t.tok.data
    t.tok.tag == .data && !t.tok.poison && decide (2 ≤ (cl.nq q).length) && cl.locked (reqAddr t.tok.data / 512) &&
      (k == 1 || (decide (2 ≤ k) && decide (k ≤ 4) && !cl.staged k))

/-- The narrow port's count of n CCLK (R241): each request that a row lock holds back adds n. -/
def State.npCycles (s : State) (i n : Nat) : State :=
  s.modCluster i (fun c => c.count CM_LOCK_WAIT_CNT (n * ((List.range 8).filter (fun q => s.npLockWaits i q)).length))

/-- Whether the SEND at the head of an input queue waits for an entry of the credit table (R313). -/
def State.sendWaits (s : State) (i q : Nat) : Bool :=
  match (s.cluster i).te.unit q with
  | some (false, ts) =>
    let h := match ts with | t :: _ => t.data | [] => 0
    ((s.cluster i).te.credit.find? (fun k => k.is ((s.cluster i).teSource q) (s.sendMod h) h)).isNone && !s.sendReady i q h
  | _ => false

/-- The transit engine's counts (R324): an ordered packet waits on its window, a packet or a descriptor on the 8,192 items, a SEND on a credit-table entry. -/
def State.teCycles (s : State) (i cclk tclk : Nat) : State :=
  let c := s.cluster i
  let waits := fun (q : Nat) => match c.te.unit q with | some (true, ts) => let o := (descOf q ts).opc; o == 2 || o == 3 | _ => false
  let held := c.te.send.streams.any (fun t => !t.waiting.isEmpty)
  let full := decide (8192 ≤ c.te.send.inflight)
  let c1 := if held && !full then c.count TE_CNT_WIN_CNT tclk else c
  let c2 := if full && (held || (List.range 8).any waits) then c1.count TE_CNT_INF_CNT tclk else c1
  s.setCluster i (if (List.range 8).any (fun q => s.sendWaits i q) then c2.count TE_CNT_CRWAIT_CNT cclk else c2)

/-- The table unit's count of n CCLK (R291): lookup waits on the in-flight limit. -/
def Cluster.tuCycles (c : Cluster) (n : Nat) : Cluster :=
  let waits := fun (j : TuJob) => !j.todo.isEmpty && decide (8192 < c.tu.inflight + c.tabGran j.table)
  if c.tu.jobs.any waits then c.count TU_CNT_STALL_INF_CNT n else c

/-- The store port's count of n SCLK (R289): each request held adds n. -/
def Cluster.dsCycles (c : Cluster) (n : Nat) : Cluster := c.count DS_CNT_WAIT_CNT (n * c.dsq.length)

/-- The reorder pool, the receive-stream table and the refresh of the column over n TCLK (R269, R306, R309): pooled packets grow older, so do the streams' last
deliveries, and the column's blocked time runs down. -/
def Cluster.poolCycles (c : Cluster) (n : Nat) : Cluster :=
  { c with dsBlock := c.dsBlock - n, te := { c.te with recv := c.te.recv.map (fun r =>
      { r with idle := min 131072 (r.idle + n), pool := r.pool.map (fun p => { p with age := min 65535 (p.age + n) }) }) } }

/-- The agents of cluster i over the cycles of a debit. -/
def State.clusterCycles (s : State) (i aclk cclk tclk : Nat) : State :=
  let g := s.region (regionOf i)
  let hold := g.rd ALM_STATUS_HOLD == 1
  let s1 := if s.runs i then
      s.modCluster i (fun c =>
        (((((List.range 32).foldl (fun k e => k.modElem e (fun x => x.cycles e g.drainKind cclk hold)) c).muCycles aclk hold).tuCycles cclk).ringCycles cclk).dsCycles (aclk / 4))
    else s
  (if s.runs i then (s1.teCycles i cclk tclk).npCycles i cclk else s1).modCluster i (fun c => c.poolCycles tclk)

/-- ALMANAC_DEBIT (R80, R81, R83): the events counted since the last debit, with the leakage and transit of the cycles that went by, are
subtracted exactly; nothing is debited while the compute clocks are stopped for a relock. The agents of the region's clusters count the cycles in which
they waited. -/
def execAlmanacDebit (r : RegionId) (aclk cclk tclk : Nat) (s : State) : Host.Outcome State Fault Refusal :=
  let g := s.region r.val
  if s.alive r.val ∧ g.rd DRV_STATUS_STATE ≠ 3 then
    let g1 := (g.event 15 tclk).count DRV_CYCLES_CYCLES aclk
    let g2 := if g.power = 4 then g1 else g1.event 14 aclk
    let g3 := if g.rd ALM_STATUS_HOLD = 1 then (g2.count ALM_HOLD_CCLK_CCLK cclk).chrono 16 cclk else g2
    let s1 := (clustersOf r.val).foldl (fun t i => t.clusterCycles i aclk cclk tclk) s
    .next ((s1.setRegion r.val (g3.debitEnergy g3.eventEnergy)).holdCompare r.val)
  else .next s

end Sys2Proof.Machine
end

