-- ==== Sys2Proof/Machine/Wire.lean ====
section
/-! DEFINITION. What a port puts on its lanes (R328-R330, R362): the 256 bytes of a frame, and the blocks of the columns that carry a frame or a control
column. Readings that the words leave open are log entry 20. -/

namespace Sys2Proof.Machine

/-! ## Frames (R330) -/

/-- A slot of a DATA frame: link word, flit header and payload. -/
def linkBytes (k : LinkPkt) : List Byte :=
  leBytes 4 (k.hops + k.vc * 2 ^ 6 + k.cls * 2 ^ 7) ++ leBytes 12 (pktHeader k.pkt) ++
    (List.range 8).flatMap (fun w => leBytes 8 (k.pkt.pay.getD w 0).toNat)

/-- A collimation record as frame bytes 8 to 55 (R362). -/
def colBytes (r : ColRec) : List Byte :=
  [0x43, BitVec.ofNat 8 ((if r.repeated then 1 else 0) + (if r.nondet then 2 else 0))] ++ leBytes 2 r.src ++ leBytes 2 r.dst ++ leBytes 2 0 ++
    leBytes 4 r.set ++ leBytes 4 r.interval ++ leBytes 16 r.digest ++ leBytes 8 r.count ++ leBytes 8 r.fid

/-- Bytes filled up with zeros to a length. -/
def padTo (n : Nat) (l : List Byte) : List Byte := l ++ List.replicate (n - l.length) 0

/-- Frame bytes 8 to 251: the slots, or the finder message; nothing for IDLE. -/
def bodyBytes : Option FrameBody → List Byte
  | none => padTo 244 []
  | some (.data l) => padTo 244 (l.flatMap linkBytes)
  | some (.finder r) => (List.range 244).map (Config.adjByte r)
  | some (.col r) => padTo 244 (colBytes r)

/-- KIND: 0 IDLE, 1 DATA, 2 FINDER. -/
def bodyKind : Option FrameBody → Nat
  | none => 0
  | some (.data _) => 1
  | some _ => 2

/-- NPKT. -/
def bodyCount : Option FrameBody → Nat
  | some (.data l) => l.length
  | _ => 0

/-- The frame header, bytes 0 to 7. -/
def frameWord (h : FrameHdr) (body : Option FrameBody) : Nat :=
  bodyKind body + bodyCount body * 2 ^ 4 + (if h.nakReq then 2 ^ 6 else 0) + h.fseq * 2 ^ 8 + h.ackSeq * 2 ^ 20 + h.credits.getD 0 0 * 2 ^ 32 +
    h.credits.getD 1 0 * 2 ^ 40 + h.credits.getD 2 0 * 2 ^ 48 + h.credits.getD 3 0 * 2 ^ 56

/-- The 256 bytes of a frame; the last four are the CRC-32 over the others. -/
def frameBytes (h : FrameHdr) (body : Option FrameBody) : List Byte :=
  let bs := leBytes 8 (frameWord h body) ++ bodyBytes body
  bs ++ leBytes 4 (crc32 bs)

/-! ## Columns (R328, R329) -/

/-- Whether a port runs on four lanes. -/
def Port.narrow (z : Port) : Bool := z.rd ZL_STATUS_STATE == 5 && z.rd ZL_STATUS_WIDTH4 == 1

/-- The first active lane. -/
def Port.lane0 (z : Port) : Nat := if z.narrow && z.rd ZL_STATUS_HIGH_GROUP == 1 then 4 else 0

/-- The active lanes: all eight until the width is settled. -/
def Port.lanes (z : Port) : List Nat := (List.range (if z.narrow then 4 else 8)).map (fun j => z.lane0 + j)

/-- The columns that carry a frame: byte b in lane b div 32; on four lanes two columns, each byte on lane (b mod 128) div 32 of the group. -/
def Port.frameColumns (z : Port) (bs : List Byte) : List (List Block) :=
  if z.narrow then
    [0, 1].map (fun c => (List.range 4).map (fun j => ⟨z.lane0 + j, false, sliceOf bs (128 * c + 32 * j) 32⟩))
  else [(List.range 8).map (fun j => ⟨j, false, sliceOf bs (32 * j) 32⟩)]

/-- The block of a control column on a lane (R329). The TICK fields stand on the first active lane. -/
def Port.controlBlock (z : Port) (kind : Nat) (vals : List Nat) (lane : Nat) : Block :=
  ⟨lane, true,
    if kind = 0x2D then leBytes 32 (kind + lane * 2 ^ 8)
    else if kind = 0x4B ∧ lane = z.lane0 then leBytes 32 (kind + vals.getD 0 0 % 2 ^ 64 * 2 ^ 8 + vals.getD 1 0 % 2 ^ 22 * 2 ^ 72)
    else if kind = 0x78 then leBytes 1 kind ++ (List.range 31).map (Config.trainByte vals)
    else leBytes 32 kind⟩

/-- The blocks of a control column. -/
def Port.controlColumn (z : Port) (kind : Nat) (vals : List Nat) : List Block := z.lanes.map (z.controlBlock kind vals)

end Sys2Proof.Machine
end

