-- ==== Sys2Proof/Machine/Fabric.lean ====
section
/-! DEFINITION. The Zhevide ports (R325-R340, R347-R349): frames, retry and credits, ingress and egress, training, cartridges and TICK columns.
Readings that the words leave open are log entry 20. -/

namespace Sys2Proof.Machine

/-- Whether port p's adapter runs (R23, R34): its region's transit domain is up and its router is not opaque. -/
def State.adapterUp (s : State) (p : Nat) : Bool :=
  let i := portCluster p
  s.alive (regionOf i) && !(s.region (regionOf i)).hole && !s.opaqueRouter i

/-- The partner port of the same edge cluster (R337). -/
def partner (p : Nat) : Nat := if p % 2 = 0 then p + 1 else p - 1

/-! ## Ingress (R331, R337-R339) -/

/-- A credit of a pair is owed to the peer, since a packet has left the ingress buffer (R332). -/
def Port.owe (z : Port) (pair : Nat) : Port := { z with owed := SMap.set (fun _ => 0) z.owed pair (SMap.get (fun _ => 0) z.owed pair + 1) }

/-- Whether port q is UP and belongs to the bundle of a routing entry's ports (R338): the same next module and, in a torus, the same direction. -/
def State.inBundle (s : State) (q : Nat) (e : RouteEntry) : Bool :=
  s.portUp q && (match e.ports.head? with
    | some h => (s.port h).peerFid == (s.port q).peerFid && (s.dome_ FND_CFG_TOPO != 3 || s.portDir h == s.portDir q)
    | none => false)

/-- The VC that a forwarded packet takes (R339). -/
def State.nextVc (s : State) (arrived out vc : Nat) : Nat :=
  let topo := s.dome_ FND_CFG_TOPO
  if topo = 0 ∨ topo = 2 then 0
  else if topo = 3 ∧ s.portDir arrived / 2 ≠ s.portDir out / 2 then 0
  else if (s.port arrived).rd ZL_STATUS_DATELINE = 1 then 1 else vc

/-- One packet of the ingress buffer is handled (R337); none where it waits for room in the partner's egress queue. -/
def State.ingress (s : State) (p : Nat) (l : LinkPkt) : Option State :=
  let i := portCluster p
  let k := { l.pkt with age := 0, rsv := 0, link := none }
  let s1 := s.debit i 13 1
  if l.pkt.dmod = s.modId then some (s1.routerInject i k)
  else match s.route l.pkt.dmod with
    | none => some (s1.portUnreach p k)
    | some e =>
      if l.hops = 0 then some (s1.portUnreach p k)
      else if s.inBundle (partner p) e then
        let q := partner p
        let f := { k with link := some (l.hops - 1, s.nextVc p q l.vc) }
        if s.egressRoom q f then some ((s1.modPort p (fun z => z.count ZL_CNT_CUT_CNT 1)).egress q f) else none
      else
        let n := (s.port p).fab
        let out := e.pick l.pkt n
        some ((s1.modPort p (fun z => { z with fab := fabNext s.modId l.pkt n })).routerInject i
          { k with rsv := out, link := some (l.hops - 1, s.nextVc p out l.vc) })

/-- The ingress packets of one pair leave the buffer in order, as far as they can. -/
def State.drainPair (s : State) (p pair : Nat) : Nat → State
  | 0 => s
  | n + 1 =>
    match SMap.get (fun _ => []) (s.port p).ingress pair with
    | [] => s
    | l :: rest =>
      match (s.modPort p (fun z => { z with ingress := SMap.set (fun _ => []) z.ingress pair rest }.owe pair)).ingress p l with
      | some t => t.drainPair p pair n
      | none => s

/-- The ingress buffer of a port delivers what it can; a port that is being disabled goes OFF once it is empty (R335, R336). -/
def State.drainIngress (s : State) (p : Nat) : State :=
  let s1 := (List.range 4).foldl (fun t k => t.drainPair p k (SMap.get (fun _ => []) (t.port p).ingress k).length) s
  if (s1.port p).disabling = true ∧ (s1.port p).ingress = [] then s1.modPort p (fun z => { z.noLanes.wr ZL_STATUS_STATE 0 with disabling := false }) else s1

/-- A packet arrives at ingress (R331): one whose link word gives the wrong class for its opcode is discarded and counted. -/
def State.arrive (s : State) (p : Nat) (l : LinkPkt) : State :=
  let pair := 2 * l.vc + l.cls
  if 1 ≤ l.pkt.opc ∧ l.pkt.opc ≤ 9 ∧ pktClass l.pkt.opc = l.cls then
    s.modPort p (fun z => { z with ingress := SMap.set (fun _ => []) z.ingress pair (SMap.get (fun _ => []) z.ingress pair ++ [l]) })
  else s.modPort p (fun z => ((z.countStart ZL_CNT_BAD_CNT 1).wr ZL_EVENT_BAD 1).owe pair)

/-! ## Going DOWN (R334, R336) -/

/-- The packets in a port's egress queues, as they were before they took their link words. -/
def Port.queued (z : Port) : List Pkt :=
  (List.range 4).flatMap (fun k => (SMap.get (fun _ => []) z.egress k).map (fun l => { l.pkt with link := some (l.hops, l.vc) }))

/-- A port goes DOWN (R336): its egress packets go back into the mesh once it has left the routing table, and its ingress buffer delivers what it
holds; so does the partner's, whose packets may have waited for room at this port (R337). -/
def State.portDown (s : State) (p cause : Nat) : State :=
  let z := s.port p
  if z.rd ZL_STATUS_STATE = 0 ∨ z.rd ZL_STATUS_STATE = 6 then s
  else
    let s1 := (s.portFail p cause).modPort p (fun y => { y with ingress := z.ingress })
    ((z.queued.foldl (fun t k => t.reinject p k) s1).drainIngress p).drainIngress (partner p)

/-- A port that is UP goes DOWN with a cause (R334). -/
def State.upDown (s : State) (p cause : Nat) : State := if s.portUp p then s.portDown p cause else s

/-- LIGHT_LOSS (R334): no light on any wavelength of an active lane for 8 µs. -/
def execLightLoss (p : PortId) (s : State) : Host.Outcome State Fault Refusal := .next (s.upDown p.val 1)

/-- FEC_LOCK_LOSS (R334): an active lane loses codeword lock. -/
def execFecLockLoss (p : PortId) (s : State) : Host.Outcome State Fault Refusal := .next (s.upDown p.val 2)

/-- ACK_TIMEOUT (R334): 100 µs without ACKSEQ advancing while frames are held. -/
def execAckTimeout (p : PortId) (s : State) : Host.Outcome State Fault Refusal :=
  .next (if (s.port p.val).retry.isEmpty then s else s.upDown p.val 4)

/-! ## Frames (R330-R333) -/

/-- The retry buffer without the frames up to an acknowledged one (R333); unchanged where it does not hold that frame. -/
def ackRetry (l : List Frame) (a : Nat) : List Frame :=
  if l.any (fun f => f.fseq == a) then (l.dropWhile (fun f => f.fseq != a)).drop 1 else l

/-- The acknowledgement of a received frame: held frames up to it are released, and replays are counted anew where it advances (R333, R334). -/
def Port.acknowledge (z : Port) (a : Nat) : Port :=
  { z with retry := ackRetry z.retry a, acked := a, replays := if a = z.acked then z.replays else 0 }

/-- The credits that a received frame returns (R332). -/
def Port.addCredits (z : Port) (cs : List Nat) : Port :=
  { z with credits := (List.range 4).foldl (fun m k => SMap.set (fun _ => 0) m k (SMap.get (fun _ => 0) m k + cs.getD k 0)) z.credits }

/-- NAKREQ arrives with ACKSEQ a (R333): the frames held are sent again from a + 1; a repeat for the same a during the replay is ignored. -/
def Port.nak (z : Port) (a : Nat) : Port :=
  if z.retry.isEmpty = true ∨ (z.replay.isEmpty = false ∧ z.replayAck = some a) then z
  else { z.wr ZL_EVENT_REPLAY 1 with replay := z.retry, replays := z.replays + 1, replayAck := some a }

/-- A frame is missing: NAKREQ is set in the next frame (R333). -/
def Port.missing (z : Port) : Port := if z.nakFrames = 0 then { z with nakOwed := true, nakFrames := 1 } else z

/-- What every good frame brings (R330, R333): its acknowledgement, credits and NAKREQ; 16 replays without ACKSEQ advancing take the port DOWN
(R334). -/
def State.frameHead (s : State) (p : Nat) (h : FrameHdr) : State :=
  let s1 := s.modPort p (fun z =>
    let z1 := (z.acknowledge h.ackSeq).addCredits h.credits
    if h.nakReq then z1.nak h.ackSeq else z1)
  if 16 ≤ (s1.port p).replays then s1.upDown p 3 else s1

/-- What the code of a received frame's lanes had to correct is counted (R349). -/
def State.fec (s : State) (p : Nat) (h : FrameHdr) : State :=
  s.modPort p (fun z => (z.count ZL_CNT_FEC_CE_CNT h.fecCe).count ZL_CNT_FEC_UE_CNT h.fecUe)

/-- A discarded frame is counted where it failed its CRC (R349). -/
def Port.badFrame (z : Port) (h : FrameHdr) : Port := if h.crcBad then z.count ZL_CNT_CRC_CNT 1 else z

/-- A received DATA or FINDER frame (R333): accepted where it is good and carries the FSEQ expected; else discarded. The second part says
whether its contents are taken. -/
def State.takeFrame (s : State) (p : Nat) (h : FrameHdr) : State × Bool :=
  if s.portUp p = false then (s, false)
  else if h.ok = false then ((s.fec p h).modPort p (fun z => (z.badFrame h).missing), false)
  else
    let s1 := (s.fec p h).frameHead p h
    if s1.portUp p = false then (s1, false)
    else if h.fseq = (s1.port p).rxSeq then
      (s1.modPort p (fun z => { z with rxSeq := (z.rxSeq + 1) % 4096, ackOwed := true, nakOwed := false, nakFrames := 0 }), true)
    else (s1.modPort p Port.missing, false)

/-- ZL_DATA_FRAME (R333, R331, R337): a DATA frame is checked and its packets are taken into ingress. -/
def execZlDataFrame (p : PortId) (hdr : FrameHdr) (pkts : List LinkPkt) (s : State) : Host.Outcome State Fault Refusal :=
  let t := s.takeFrame p.val hdr
  .next (if t.2 then
    let l := pkts.take 3
    (l.foldl (fun u k => u.arrive p.val k) (t.1.modPort p.val (fun z => z.count ZL_CNT_RX_CNT l.length))).drainIngress p.val
  else t.1)

/-- ZL_FINDER_FRAME (R342, R362): an adjacency record is held and flooded if it is newer; a collimation record is taken or passed on. While 64 messages received at
the port wait, a further one is treated as a CRC failure. -/
def execZlFinderFrame (p : PortId) (hdr : FrameHdr) (body : FrameBody) (s : State) : Host.Outcome State Fault Refusal :=
  let t := s.takeFrame p.val { hdr with good := hdr.good && decide ((s.heldFrom p.val).length < 64) }
  .next (if t.2 then
    match body with
    | .finder r => t.1.takeRecord p.val r
    | .col r => t.1.sendCol (some p.val) r
    | .data _ => t.1
  else t.1)

/-- ZL_IDLE_FRAME (R333): an IDLE frame carries the FSEQ of the next frame to be sent, so a lost frame shows; it is not acknowledged. -/
def execZlIdleFrame (p : PortId) (hdr : FrameHdr) (s : State) : Host.Outcome State Fault Refusal :=
  .next (if s.portUp p.val = false then s
  else if hdr.ok = false then (s.fec p.val hdr).modPort p.val (fun z => (z.badFrame hdr).missing)
  else
    let s1 := (s.fec p.val hdr).frameHead p.val hdr
    if s1.portUp p.val = true ∧ hdr.fseq ≠ (s1.port p.val).rxSeq then s1.modPort p.val Port.missing else s1)

/-- NAKREQ_REPEAT (R333): NAKREQ is set again once every 256 frames until the expected frame arrives. -/
def execNakreqRepeat (p : PortId) (s : State) : Host.Outcome State Fault Refusal :=
  .next (s.modPort p.val (fun z => if z.nakFrames = 1 then { z with nakOwed := true } else z))

/-! ## Sending (R329, R330, R332, R333) -/

/-- A frame leaves: its header carries what the port owes (R330, R332), and at most 255 credits of a pair. It takes one column, or two on four lanes (R328). -/
def State.sendFrame (s : State) (p fseq : Nat) (body : Option FrameBody) : State :=
  let z := s.port p
  let cs := (List.range 4).map (fun k => min 255 (SMap.get (fun _ => 0) z.owed k))
  let owed := (List.range 4).foldl (fun m k => SMap.set (fun _ => 0) m k (SMap.get (fun _ => 0) m k - cs.getD k 0)) z.owed
  let n := if z.narrow then 2 else 1
  let h : FrameHdr := ⟨true, false, 0, 0, fseq, (z.rxSeq + 4095) % 4096, z.nakOwed, cs⟩
  (s.setPort p { z with owed := owed, ackOwed := false, nakOwed := false, sinceIdle := z.sinceIdle + n, sinceAlign := z.sinceAlign + n }).emit
    (.frame p h body (z.frameColumns (frameBytes h body)))

/-- A sequenced frame is stored for retry and leaves. -/
def State.sendNew (s : State) (p : Nat) (body : FrameBody) : State :=
  let n := (s.port p).txSeq
  (s.modPort p (fun z => { z with txSeq := (n + 1) % 4096, retry := z.retry ++ [⟨n, body⟩] })).sendFrame p n (some body)

/-- Up to n packets are taken from a pair's egress queue against its credits. -/
def Port.takePair (z : Port) (pair n : Nat) : List LinkPkt × Port :=
  let q := SMap.get (fun _ => []) z.egress pair
  let c := SMap.get (fun _ => 0) z.credits pair
  let k := min n (min q.length c)
  (q.take k, { z with egress := SMap.set (fun _ => []) z.egress pair (q.drop k), credits := SMap.set (fun _ => 0) z.credits pair (c - k) })

/-- The packets of the next DATA frame, at most three. -/
def Port.takeData (z : Port) : List LinkPkt × Port :=
  (List.range 4).foldl (fun a k => let t := a.2.takePair k (3 - a.1.length); (a.1 ++ t.1, t.2)) ([], z)

/-- Whether a pair has a packet queued and no credit (R349). -/
def Port.stalled (z : Port) : Bool :=
  (List.range 4).any (fun k => !(SMap.get (fun _ => []) z.egress k).isEmpty && SMap.get (fun _ => 0) z.credits k == 0)

/-- A control column leaves (R329). -/
def State.sendColumn (s : State) (p kind : Nat) (vals : List Nat) : State :=
  (s.modPort p (fun z => { z with
    sinceIdle := if kind = 0x1E then 0 else z.sinceIdle + 1, sinceAlign := if kind = 0x2D then 0 else z.sinceAlign + 1 })).emit
    (.column p kind vals ((s.port p).controlColumn kind vals))

/-- A frame, or an IDLE column where there is none to send (R332, R333). A frame time with a packet queued and no credit is counted (R349). -/
def State.sendNext (s : State) (p : Nat) : State :=
  let z := if (s.port p).stalled then (s.port p).count ZL_CNT_STALL_CNT 1 else s.port p
  match z.replay with
  | f :: rest => (s.setPort p ({ z with replay := rest }.count ZL_CNT_REPLAY_CNT 1)).sendFrame p f.fseq (some f.body)
  | [] =>
    if 1024 ≤ z.retry.length then (s.setPort p z).sendFrame p z.txSeq none
    else match z.finder with
      | b :: rest => (s.setPort p { z with finder := rest }).sendNew p b.2
      | [] =>
        let t := z.takeData
        if t.1.isEmpty = false then
          ((s.setPort p (t.2.count ZL_CNT_TX_CNT t.1.length)).sendNew p (.data t.1)).drainIngress (partner p)
        else if z.ackOwed = true ∨ z.nakOwed = true ∨ z.owed.any (fun q => q.2 != 0) = true then (s.setPort p t.2).sendFrame p z.txSeq none
        else (s.setPort p t.2).sendColumn p 0x1E []

/-- The parameters that a port sends in a TRAIN column (R335): identity, port, lanes locked, its time stamp, the echo of the peer's last one, and its own
turnaround. The model has no clock: stamp and turnaround are free values (log entry 20). -/
def State.trainVals (s : State) (p : Nat) : List Nat :=
  [s.fid, p, (s.port p).rd ZL_STATUS_LANE_OK, (Config.freeWord s.free).toNat % 2 ^ 32, (s.port p).peerStamp, (Config.freeWord (s.free + 1)).toNat % 2 ^ 32]

/-- ZL_COLUMN_SEND (R329, R333): a port's transmitter sends what is next: an ALIGN or IDLE column that is due, TRAIN in training; when UP a TICK column that is
due, else a frame. -/
def execZlColumnSend (p : PortId) (s : State) : Host.Outcome State Fault Refusal :=
  let z := s.port p.val
  let st := z.rd ZL_STATUS_STATE
  if s.adapterUp p.val = false ∨ st = 0 ∨ st = 6 then .next s
  else
    if 16383 ≤ z.sinceAlign then .next (s.sendColumn p.val 0x2D [])
    else if st = 5 ∧ z.tickDue = true then
      .next ((s.modPort p.val (fun y => { y with tickDue := false })).sendColumn p.val 0x4B [s.tickNum, s.dome_ TCK_PERIOD_PERIOD])
    else if 2044 ≤ z.sinceIdle ∨ (z.narrow = true ∧ z.sinceAlign = 16382) then .next (s.sendColumn p.val 0x1E [])
    else if st ≠ 5 then .next ({ s with free := s.free + 2 }.sendColumn p.val 0x78 (s.trainVals p.val))
    else .next (s.sendNext p.val)

/-! ## Control columns (R329, R335, R347) -/

/-- ZL_IDLE_COLUMN (R329): an IDLE column carries nothing; a receiver may drop it. -/
def execZlIdleColumn (_p : PortId) (s : State) : Host.Outcome State Fault Refusal := .next s

/-- ZL_TICK_COLUMN (R347): the number is held, and a follower that takes its markers from this port imposes one on the RCV path at period
a + PERIOD − L − 2. -/
def execZlTickColumn (p : PortId) (num period arrival : Nat) (s : State) : Host.Outcome State Fault Refusal :=
  if s.portUp p.val then
    let s1 := s.modPort p.val (fun z => { z with tick := num })
    let l := ceilDiv (10 * (s.port p.val).rd ZL_LAT_NS) 64
    .next (if s.dome_ TCK_CTRL_MODE = 0 ∧ s.dome_ TCK_CTRL_RCV_PORT = p.val then s1.emit (.rcvMarker (arrival + period - l - 2)) else s1)
  else .next s

/-- ZL_ALIGN_COLUMN (R335): in ALIGN its lanes are deskewed; all 8, or with NARROW_OK a group of 4, lead to PARAM. -/
def execZlAlignColumn (p : PortId) (lanes : W32) (s : State) : Host.Outcome State Fault Refusal :=
  let z := s.port p.val
  if z.rd ZL_STATUS_STATE = 3 then
    let d := z.deskewed ||| (lanes.toNat &&& z.rd ZL_STATUS_LANE_OK)
    let ok := d == 255 || (z.rd ZL_CTRL_NARROW_OK == 1 && (d &&& 15 == 15 || d &&& 240 == 240))
    let z1 := { z with deskewed := d }
    .next (s.setPort p.val (if ok then z1.wr ZL_STATUS_STATE 4 else z1))
  else .next s

/-- The shares of the four pairs (R332, R349). -/
def Port.shares (z : Port) : List Nat :=
  [z.rd ZL_CRED0_VC0_REQ, z.rd ZL_CRED0_VC0_RSP, z.rd ZL_CRED1_VC1_REQ, z.rd ZL_CRED1_VC1_RSP]

/-- Whether the shares are valid (R332). -/
def Port.sharesOk (z : Port) : Bool := z.shares.all (fun n => decide (64 ≤ n)) && decide (z.shares.sum ≤ 2048)

/-- The port reaches UP (R335): credits are loaded, and the event and a finder run follow. -/
def State.goUp (s : State) (p : Nat) (narrow high : Bool) : State :=
  let z := s.port p
  let z1 := ((z.wr ZL_STATUS_STATE 5).wr ZL_STATUS_WIDTH4 (if narrow then 1 else 0)).wr ZL_STATUS_HIGH_GROUP (if high then 1 else 0)
  let z2 := { z1.wr ZL_EVENT_UP 1 with
    credits := (List.range 4).foldl (fun m k => SMap.set (fun _ => 0) m k (z.shares.getD k 0)) []
    owed := [], retry := [], txSeq := 0, rxSeq := 0, acked := 4095, ackOwed := false, nakOwed := false, nakFrames := 0, replay := [], replays := 0, replayAck := none }
  ((s.setPort p z2).hifEvent 7).portChanged

/-- ZL_TRAIN_COLUMN (R335): in training the peer's time stamp is held, to be echoed. In PARAM the exchange completes: the peer and the latency are taken; a
latency above 400 ns is cause 5, no common group of lanes is cause 6, and otherwise the port is UP. -/
def execZlTrainColumn (p : PortId) (peer : TrainParams) (s : State) : Host.Outcome State Fault Refusal :=
  let z := { s.port p.val with peerStamp := peer.stamp }
  if z.rd ZL_STATUS_STATE = 4 then
    let z1 := (((z.wr ZL_PEER_LO_FID_LO (peer.fid % 2 ^ 32)).wr ZL_PEER_HI_FID_HI (peer.fid / 2 ^ 32)).wr ZL_PEER_PORT_PORT peer.port).wr ZL_LAT_NS peer.lat
    let s1 := s.setPort p.val z1
    let both := z.rd ZL_STATUS_LANE_OK &&& peer.lanes
    .next (if 400 < peer.lat then s1.portDown p.val 5
    else if both = 255 then s1.goUp p.val false false
    else if z.rd ZL_CTRL_NARROW_OK = 0 then s1.portDown p.val 6
    else if both &&& 15 = 15 then s1.goUp p.val true false
    else if both &&& 240 = 240 then s1.goUp p.val true true
    else s1.portDown p.val 6)
  else if 1 ≤ z.rd ZL_STATUS_STATE ∧ z.rd ZL_STATUS_STATE ≤ 3 then .next (s.setPort p.val z)
  else .next s

/-! ## Training (R335) -/

/-- A port enters LIGHT. -/
def Port.light (z : Port) : Port := { (z.wr ZL_STATUS_STATE 1).wr ZL_STATUS_LANE_OK 0 with deskewed := 0 }

/-- An OFF port with EN = 1 (R335): LIGHT where its cartridge is OK and its shares are valid; CFG_ERR where they are not. -/
def State.portTry (s : State) (p : Nat) : State :=
  let z := s.port p
  if z.rd ZL_STATUS_STATE = 0 ∧ z.rd ZL_CTRL_EN = 1 ∧ s.adapterUp p = true then
    if z.sharesOk = false then s.setPort p (z.wr ZL_EVENT_CFG_ERR 1)
    else if s.dome_ (ZL_CART_STATE.nth (p / 4)) = 1 then s.setPort p z.light
    else s
  else s

/-- LIGHT_RECEIVED (R335): light on all wavelengths of at least lanes 0-3 or 4-7. -/
def execLightReceived (p : PortId) (lanes : W32) (s : State) : Host.Outcome State Fault Refusal :=
  let z := s.port p.val
  let l := lanes.toNat % 256
  .next (if z.rd ZL_STATUS_STATE = 1 ∧ (l &&& 15 = 15 ∨ l &&& 240 = 240) then s.setPort p.val { z.wr ZL_STATUS_STATE 2 with deskewed := l } else s)

/-- LOCK_ACHIEVED (R335): codeword lock on each lighted lane. -/
def execLockAchieved (p : PortId) (lanes : W32) (s : State) : Host.Outcome State Fault Refusal :=
  let z := s.port p.val
  let l := lanes.toNat % 256
  .next (if z.rd ZL_STATUS_STATE = 2 ∧ l &&& z.deskewed = z.deskewed then
    s.setPort p.val { (z.wr ZL_STATUS_STATE 3).wr ZL_STATUS_LANE_OK l with deskewed := 0 } else s)

/-- LOCK_TIMEOUT (R335): no lock within 20 ms. -/
def execLockTimeout (p : PortId) (s : State) : Host.Outcome State Fault Refusal :=
  let z := s.port p.val
  .next (if z.rd ZL_STATUS_STATE = 2 then s.setPort p.val z.light else s)

/-- ALIGN_TIMEOUT (R335): no alignment within 5 ms. -/
def execAlignTimeout (p : PortId) (s : State) : Host.Outcome State Fault Refusal :=
  let z := s.port p.val
  .next (if z.rd ZL_STATUS_STATE = 3 then s.setPort p.val z.light else s)

/-- PARAM_TIMEOUT (R335): the exchange does not complete within 10 ms. -/
def execParamTimeout (p : PortId) (s : State) : Host.Outcome State Fault Refusal :=
  .next (if (s.port p.val).rd ZL_STATUS_STATE = 4 then s.portDown p.val 6 else s)

/-- DOWN_RETRAIN (R335): 1 ms in DOWN with EN = 1. -/
def execDownRetrain (p : PortId) (s : State) : Host.Outcome State Fault Refusal :=
  let z := s.port p.val
  .next (if z.rd ZL_STATUS_STATE = 6 ∧ z.rd ZL_CTRL_EN = 1 ∧ s.adapterUp p.val = true then s.setPort p.val z.light else s)

/-- ZL_ENABLE (R335, R349): EN is written 1. -/
def execZlEnable (p : PortId) (s : State) : Host.Outcome State Fault Refusal :=
  .next ((s.modPort p.val (fun z => { z.wr ZL_CTRL_EN 1 with disabling := false })).portTry p.val)

/-- ZL_DISABLE (R334, R335): EN is written 0: an UP port goes DOWN with cause 7; any port goes OFF once its buffers are empty. -/
def execZlDisable (p : PortId) (s : State) : Host.Outcome State Fault Refusal :=
  let s1 := (s.modPort p.val (fun z => z.wr ZL_CTRL_EN 0)).upDown p.val 7
  .next ((s1.modPort p.val (fun z => { z with disabling := true })).drainIngress p.val)

/-- RETRAIN (R349): the port goes DOWN with cause 7 and retrains. -/
def execZlRetrain (p : PortId) (s : State) : Host.Outcome State Fault Refusal := .next (s.portDown p.val 7)

/-- ZL_CRED_WRITE (R332, R335, R349): the shares change while the port is OFF, and an enabled port then trains if they are valid; at any other time CFG_ERR
sets. -/
def execZlCredWrite (p : PortId) (pair : Fin 2) (v : W32) (s : State) : Host.Outcome State Fault Refusal :=
  .next ((s.modPort p.val (fun z =>
    if z.rd ZL_STATUS_STATE ≠ 0 then z.wr ZL_EVENT_CFG_ERR 1
    else if pair.val = 0 then (z.wr ZL_CRED0_VC0_REQ (ZL_CRED0_VC0_REQ.of v)).wr ZL_CRED0_VC0_RSP (ZL_CRED0_VC0_RSP.of v)
    else (z.wr ZL_CRED1_VC1_REQ (ZL_CRED1_VC1_REQ.of v)).wr ZL_CRED1_VC1_RSP (ZL_CRED1_VC1_RSP.of v))).portTry p.val)

/-- A read of ZL_TICK_LO returns the low word and latches the high word (R349). -/
def State.portTickRead (p : Nat) (s : State) : Nat × State :=
  ((s.port p).tick % 2 ^ 32, s.modPort p (fun z => z.wr ZL_TICK_HI_NUM_HI (z.tick / 2 ^ 32)))

/-- ZL_TICK_READ (R349, R379): the host's read through BAR0. -/
def execZlTickRead (p : PortId) (s : State) : Host.Outcome State Fault Refusal :=
  .next (s.bar0Read (0x200024 + 0x100 * p.val) (State.portTickRead p.val))

/-! ## Laser cartridges (R21, R327, R350) -/

/-- The ports that cartridge k feeds (R21). -/
def cartPorts (k : Nat) : List Nat := [4 * k, 4 * k + 1, 4 * k + 2, 4 * k + 3]

/-- A cartridge's state and power (R350). -/
def State.setCart (s : State) (k st power : Nat) : State := (s.setDome (ZL_CART_STATE.nth k) st).setDome (ZL_CART_POWER.nth k) power

/-- The status LED of a cartridge bay (R440). -/
inductive BayLed where
  | off | green | amber | red
  deriving DecidableEq, Repr

/-- The LED of bay k: green OK, amber LOW, red FAULT, off ABSENT; off too without input power (R440, R444). -/
def State.bayLed (s : State) (k : Nat) : BayLed :=
  if s.dome.input = false ∨ s.dome.inputOff = true then .off
  else match s.dome_ (ZL_CART_STATE.nth k) with
    | 1 => .green
    | 2 => .amber
    | 3 => .red
    | _ => .off

/-- CARTRIDGE_REMOVE (R327): its ports go DOWN with cause LIGHT. -/
def execCartridgeRemove (k : Fin 16) (s : State) : Host.Outcome State Fault Refusal :=
  .next ((cartPorts k.val).foldl (fun t p => t.portDown p 1) (s.setCart k.val 0 0))

/-- CARTRIDGE_INSERT (R327, R350): STATE is OK, or LOW below 80% of nominal; enabled ports that are OFF train. -/
def execCartridgeInsert (k : Fin 16) (power : Nat) (s : State) : Host.Outcome State Fault Refusal :=
  .next ((cartPorts k.val).foldl (fun t p => t.portTry p) (s.setCart k.val (if 80 ≤ power then 1 else 2) power))

/-- CARTRIDGE_LOW (R350): the power of a cartridge present falls below 80%, the cartridge faults, or it recovers. -/
def execCartridgeLow (k : Fin 16) (faulted : Bool) (power : Nat) (s : State) : Host.Outcome State Fault Refusal :=
  .next (if s.dome_ (ZL_CART_STATE.nth k.val) = 0 then s
  else (cartPorts k.val).foldl (fun t p => t.portTry p)
    (s.setCart k.val (if faulted then 3 else if power < 80 then 2 else 1) power))

end Sys2Proof.Machine
end

