-- ==== Sys2Proof/Machine/Drain.lean ====
section
/-! DEFINITION. The drain, the forced replacement and the end of an ephemeris (R200-R209), and the application of staged contributions (R235).
Readings that the words leave open are log entry 21. -/

namespace Sys2Proof.Machine

/-- The clusters of region r that hold anything (the others are as at start). -/
def State.liveClusters (s : State) (r : Nat) : List Nat := (s.clusters.map (fun p => p.1)).dedup.filter (fun i => regionOf i == r)

/-- Every cluster of region r that holds anything is changed by f. -/
def State.eachCluster (s : State) (r : Nat) (f : Cluster → Cluster) : State := (s.liveClusters r).foldl (fun t i => t.modCluster i f) s

/-! ## The conditions of a drain (R202) -/

/-- Whether a transit engine holds nothing outbound and has completed every transfer it started (R202). -/
def Te.quiet (t : Te) (epoch : Nat) : Bool :=
  t.queues.all (fun q => q.2.all (fun k => k.epoch != epoch)) && t.send.out.isEmpty && t.send.items.isEmpty &&
  t.send.streams.all (fun x => x.outst.isEmpty && x.waiting.isEmpty) && t.credit.all (fun k => k.pack.isEmpty) && t.done.isEmpty

/-- Whether a cluster meets every condition of R202 but for staged contributions, in a region of the given epoch; `park` allows paused runs. -/
def Cluster.drained (c : Cluster) (epoch : Nat) (park : Bool) : Bool :=
  c.elems.all (fun p => p.2.quiet park) && c.ringsEmpty && c.out.all (fun p => p.2.isEmpty) && c.muQuiet && c.narrow.all (fun p => p.2.isEmpty) &&
  (park || c.mu.list.isEmpty) && c.accs.isEmpty && c.dsq.isEmpty && c.tuQuiet epoch && c.te.quiet epoch

/-- Whether region r meets the conditions of R202 in every enabled cluster, staged contributions apart. A region without compute holds none of
them back. -/
def State.quietRegion (s : State) (r : Nat) (park : Bool) : Bool :=
  let g := s.region r
  g.nocomp || g.dark || (s.liveClusters r).all (fun i => !s.enabled i || (s.cluster i).fenced || (s.cluster i).drained (g.rd TCK_RSCHED_EPOCH) park)

/-- Whether no contribution is staged in region r (R235). -/
def State.unstaged (s : State) (r : Nat) : Bool :=
  (s.region r).nocomp || (s.region r).dark || (s.liveClusters r).all (fun i => !s.enabled i || (s.cluster i).fenced || (s.cluster i).staging.isEmpty)

/-! ## The start of a drain (R201) -/

/-- The slot-end drain of a RUNNING region begins: its sources stop. One asked for during a park drain waits until the region unparks (R203). -/
def State.drainStart (s : State) (r : Nat) : State :=
  let g := s.region r
  if g.sched_ = 2 then
    (s.setRegion r (((g.setSched 3).wr TCK_RSCHED_PARKDRAIN 0).wr TCK_RDRAIN_DRAINED 0)).eachCluster r Cluster.listDrain
  else if g.sched_ = 3 ∧ g.rd TCK_RSCHED_PARKDRAIN = 1 then s.setRegion r { g with drainWaits := true }
  else s

/-- DRAIN_AT_EXPIRY (R201): the slot has run DRAIN_AT CCLK. -/
def execDrainAtExpiry (r : RegionId) (s : State) : Host.Outcome State Fault Refusal :=
  .next (match (s.region r.val).slot with
    | some e => if e.drainAt = 0 then s else s.drainStart r.val
    | none => s)

/-- Whether a cluster's sources are idle (R201): no run, no seed unconsumed, no list fetcher ACTIVE. -/
def Cluster.sourcesIdle (c : Cluster) : Bool :=
  c.elems.all (fun p => p.2.ctxs.all (fun k => k.2.state != .run) && p.2.seedWait.isEmpty) && c.rd MU_LIST_CTRL_ACTIVE == 0

/-- SOURCES_IDLE (R201): all sources of the region are idle. -/
def execSourcesIdle (r : RegionId) (s : State) : Host.Outcome State Fault Refusal :=
  .next (if (s.region r.val).sched_ = 2 ∧ (s.region r.val).startDue = false ∧
      (s.liveClusters r.val).all (fun i => !s.enabled i || (s.cluster i).fenced || (s.cluster i).sourcesIdle) = true then s.drainStart r.val else s)

/-- DRAIN_REQ (R201): a write of 1 to TCK_RDRAIN.REQ. -/
def execDrainReq (r : RegionId) (s : State) : Host.Outcome State Fault Refusal := .next (if s.pageOpen r.val then s.drainStart r.val else s)

/-! ## The end of a drain (R202, R203, R93) -/

/-- The region's bucket of the current interval freezes once a closing is armed (R361). -/
def State.freezeBucket (s : State) (r : Nat) : State := if s.dome.col.armed then s.modRegion r (fun g => { g with frozen := true }) else s

/-- A slot-end drain is complete (R202): the slot is finished, and a park that waited follows at once (R203). Idle credit-table entries are freed
(R312). -/
def State.slotFinished (s : State) (r cclk : Nat) : State :=
  let g := s.region r
  let g1 := ((g.setSched 4).wr TCK_RDRAIN_DRAINED 1).wr TCK_RDRAIN_CCLK_CCLK cclk
  let g2 := { g1 with passed := g.passed + 1 }.parkBegin
  let s1 := (s.setRegion r (if g2.power = 3 then g2.parkGate false else g2)).freezeBucket r
  s1.eachCluster r (fun c => { c with te := { c.te with credit := c.te.credit.filter (fun k => !k.idle) } })

/-- REGION_DRAINED (R202, R93): the conditions have held together for one CCLK. A slot-end drain finishes the slot; a park gates the clocks. -/
def execRegionDrained (r : RegionId) (cclk : Nat) (s : State) : Host.Outcome State Fault Refusal :=
  let g := s.region r.val
  if g.sched_ = 3 ∧ g.rd TCK_RSCHED_PARKDRAIN = 0 then
    .next (if s.quietRegion r.val false = true ∧ s.unstaged r.val = true then s.slotFinished r.val cclk else s)
  else if g.power = 3 then
    .next (if s.quietRegion r.val true then
      s.setRegion r.val ((if g.sched_ = 3 then (g.wr TCK_RDRAIN_DRAINED 1).wr TCK_RDRAIN_CCLK_CCLK cclk else g).parkGate false) else s)
  else .next s

/-- A region enters FAULT by a timeout (R203, R208); a park that the drain deferred begins (R93, R203). -/
def State.drainFault (s : State) (r : Nat) : State :=
  (s.modRegion r (fun g => (((g.setSched 6).wr TCK_RDRAIN_TIMEOUT 1).wr TCK_RSCHED_PARKDRAIN 0).parkBegin)).regionFailure 18 r 0

/-- DRAIN_TIMEOUT (R203): a slot-end drain is not complete one tick period after it began. -/
def execDrainTimeout (r : RegionId) (s : State) : Host.Outcome State Fault Refusal :=
  let g := s.region r.val
  .next (if g.sched_ = 3 ∧ g.rd TCK_RSCHED_PARKDRAIN = 0 then s.drainFault r.val else s)

/-- DACC_APPLY (R235): every other condition of the slot-end drain, or after a forced replacement of the drain, holds: the staging buffer is
applied. -/
def execDaccApply (c : ClusterRead) (s : State) : Host.Outcome State Fault Refusal :=
  let i := c.cluster.val
  let r := regionOf i
  let g := s.region r
  let due := (g.sched_ == 3 && g.rd TCK_RSCHED_PARKDRAIN == 0) || g.sched_ == 5
  .next (if s.runs i = true ∧ due = true ∧ s.quietRegion r false = true ∧ (s.cluster i).staging ≠ [] then (s.upset i c.upsets).applyStaging i else s)

/-! ## The end of an ephemeris (R206, R353, R393) -/

/-- A record is due at a queue; in ERR or OFF it is discarded (R387, R392). -/
def State.queueRecord (s : State) (q : Nat) (c : CqRec) : State :=
  let st := (s.hostQ q).rd HIF_Q_STATUS_STATE
  if st = 1 ∨ st = 2 then s.modHostQ q (fun h => { h with due := h.due ++ [c] }) else s

/-- Whether region r has ended for an ephemeris (R206, R353): FREE, or in a degraded module without compute or in FAULT after its forced replacement. -/
def State.endedIn (s : State) (r : Nat) : Bool :=
  let g := s.region r
  g.sched_ == 0 || (decide (2 ≤ s.mstate) && (g.nocomp || g.dark)) || (g.sched_ == 6 && g.forceOver)

/-- Ephemeris e completes once all of its regions have ended (R206): its number is free, and the record owed is due (R393). -/
def State.ephCheck (s : State) (e : Nat) : State :=
  match SMap.get (fun _ => none) s.dome.ephs e with
  | none => s
  | some x =>
    if x.regions.all s.endedIn then
      let act := s.dome_ TCK_EPH_ACTIVE_ACTIVE; let st := s.dome_ TCK_EPH_ACTIVE_STANDING
      let s1 := (s.modDome (fun d => { d with ephs := SMap.set (fun _ => none) d.ephs e none })).setDome TCK_EPH_ACTIVE_ACTIVE (act &&& (255 - 2 ^ e))
      let s2 := s1.setDome TCK_EPH_ACTIVE_STANDING (st &&& (255 - 2 ^ e))
      let s3 := s2.modHost (fun h => { h with owed := SMap.set (fun _ => none) h.owed e none })
      match SMap.get (fun _ => none) s.host.owed e with
      | some (q, cid) => s3.queueRecord q ⟨cid, x.endStatus, some e, 1, 0, true⟩
      | none => s3
    else s

/-- Every ephemeris is looked at. -/
def State.ephSweep (s : State) : State := (List.range 8).foldl (fun t e => t.ephCheck e) s

/-- A region becomes FREE (R206, R208): memories keep their contents. -/
def State.freeRegion (s : State) (r : Nat) : State :=
  let g := (s.region r).setSched 0
  (s.setRegion r { (g.wr TCK_RDRAIN_DRAINED 0).wr TCK_RSCHED_PARKDRAIN 0 with
    sched := [], slot := none, startDue := false, drainWaits := false, swapsDue := [] }).freezeBucket r

/-- The status that the ephemeris of a region will complete with, unless one is set already (R393). -/
def State.endWith (s : State) (r status : Nat) : State :=
  if (s.region r).sched_ = 0 then s
  else
    let e := (s.region r).rd TCK_RSCHED_EPH
    s.modDome (fun d => { d with ephs := match SMap.get (fun _ => none) d.ephs e with
      | some x => if x.regions.contains r ∧ x.endStatus = 0 then SMap.set (fun _ => none) d.ephs e (some { x with endStatus := status }) else d.ephs
      | none => d.ephs })

/-! ## Forced replacement (R208, R209) -/

/-- An element under a forced replacement: every context is IDLE, its counters, accumulators and block buffer are cleared, and the epoch is the
new one (R208). -/
def Elem.force (x : Elem) (ep : Nat) : Elem :=
  let y := (List.range 4).foldl (fun y k => y.wr (EL_CTR_REMAIN.nth k) 0) (x.wr EL_STATUS_EPOCH ep)
  { y with ctxs := [], block := [], ptr := 0, seedWait := [] }

/-- A cluster under a forced replacement. -/
def Cluster.force (c : Cluster) (ep : Nat) : Cluster :=
  let c1 := (List.range 32).foldl (fun k e => k.modElem e (fun x => x.force ep)) c
  (c1.muForce ep).tuForce

/-- A forced replacement of region r (R208): its sources stop, the epoch advances, and contexts, matrix unit and table unit act as under R208. A park
that a slot-end drain deferred begins (R93). -/
def State.force (s : State) (r : Nat) : State :=
  let g := s.region r
  if g.sched_ = 0 ∨ g.sched_ = 5 ∨ g.sched_ = 7 then s
  else
    let ep := (g.rd TCK_RSCHED_EPOCH + 1) % 4
    let g1 := (((g.setSched 5).wr TCK_RSCHED_EPOCH ep).wr TCK_RSCHED_PARKDRAIN 0).wr TCK_RDRAIN_DRAINED 0
    let s1 := s.setRegion r ({ g1 with slot := none, startDue := false, drainWaits := false, swapsDue := [] } : Region).parkBegin
    (((clustersOf r).foldl (fun t i => t.modCluster i (fun c => c.force ep)) s1).endWith r (if s.mstate = 2 then 24 else 25))

/-- FORCED_REPLACEMENT (R208): a write of 1 to TCK_RDRAIN.FORCE in the region's page. -/
def execForcedReplacement (r : RegionId) (s : State) : Host.Outcome State Fault Refusal := .next (if s.pageOpen r.val then s.force r.val else s)

/-- FORCE written to region r (R208): a region whose controller is silent cannot act on it (R353; log entry 25). -/
def State.forceWrite (s : State) (r : Nat) : State :=
  if s.pageOpen r then s.force r
  else if (s.region r).sched_ = 6 then s.modRegion r (fun g => { g with forceAsked := true })
  else s

/-- Every region of ephemeris e is forced (R208, R222). -/
def State.forceEph (s : State) (e : Nat) : State :=
  match SMap.get (fun _ => none) s.dome.ephs e with
  | some x => x.regions.foldl (fun t r => if (t.region r).rd TCK_RSCHED_EPH = e then t.forceWrite r else t) s
  | none => s

/-- TCK_EPH_FORCE (R222): a write forces the ephemerides whose bits are 1. -/
def execTckEphForce (v : W32) (s : State) : Host.Outcome State Fault Refusal :=
  .next (((List.range 8).foldl (fun t e => if v.getLsbD e then t.forceEph e else t) s).ephSweep)

/-- FORCED_EMPTY (R208): the conditions of R202 hold in a FORCED region: it becomes FREE. -/
def execForcedEmpty (r : RegionId) (s : State) : Host.Outcome State Fault Refusal :=
  .next (if (s.region r.val).sched_ = 5 ∧ s.quietRegion r.val false = true ∧ s.unstaged r.val = true then (s.freeRegion r.val).ephSweep else s)

/-- FORCED_TIMEOUT (R208, R209): a FORCED region that does not empty within one tick enters FAULT under R203. A silent region that is still in FAULT one
tick after FORCE was written to it counts as ended (R353). -/
def execForcedTimeout (r : RegionId) (s : State) : Host.Outcome State Fault Refusal :=
  .next (if (s.region r.val).sched_ = 5 then ((s.drainFault r.val).modRegion r.val (fun g => { g with forceOver := true })).ephSweep
    else if (s.region r.val).sched_ = 6 ∧ (s.region r.val).forceAsked = true then (s.modRegion r.val (fun g => { g with forceOver := true })).ephSweep
    else s)

end Sys2Proof.Machine
end

