-- ==== Sys2Proof/Machine/Tick.lean ====
section
/-! DEFINITION. The meridian tick (R43-R45, R63-R69): what a region does at a tick instant, from the counters of the tick that ends to the start of the slot that
is due (R74-R79, R86, R95, R198-R207), the end of a relock (R53), and the tick of the root (R69). Readings that the words leave open are log entry
21. -/

namespace Sys2Proof.Machine

/-! ## Overruns (R65, R67) -/

/-- SLIP rises by 1; the rise past SLIP_LIMIT is a slip fault, code 20. SLIP has 8 bits and R65 does not say what a further overrun at 255 does:
the model leaves it at 255 (DESIGN CHOICE, log entry 21). -/
def State.overrun (s : State) (r : Nat) : State :=
  let g := s.region r
  let slip := g.rd TCK_RSTATUS_SLIP; let lim := s.dome_ TCK_CTRL_SLIP_LIMIT
  let g1 := ((g.wr TCK_RSTATUS_OVERRUN 1).wr TCK_RSTATUS_SLIP (min 255 (slip + 1))).chrono 21 1
  let s1 := (s.setRegion r g1).hifEvent 1
  if slip ≤ lim ∧ lim < slip + 1 then (s1.modRegion r (fun h => h.wr TCK_RSTATUS_SLIP_FAULT 1)).regionFailure 20 r 0 else s1

/-! ## The swap (R198, R204, R214) -/

/-- The tag of a two-bit code (R103). -/
def tagOfCode (k : Nat) : Tag := if k = 0 then .data else if k = 1 then .last else if k = 2 then .pred else .mark

/-- A little-endian word of an image row. -/
def rowWord (row : List Byte) (o : Nat) : Nat := leNat (sliceOf row o 4)

/-- The seeds that an element's image row gives (R214). -/
def rowSeeds (row : List Byte) : List (Nat × Tok) :=
  [0, 1].filterMap (fun k =>
    let c := rowWord row (0xF8 + 16 * k)
    if c.testBit 7 then some (c % 8, ⟨BitVec.ofNat 64 (leNat (sliceOf row (0xF0 + 16 * k) 8)), tagOfCode (c / 8 % 4), 0, false⟩) else none)

/-- An element takes the registers of its image row, with the epoch patched into every context word (R199, R214). -/
def Elem.loadRow (x : Elem) (row : List Byte) (ep : Nat) : Elem :=
  let x1 := (List.range 32).foldl (fun y k =>
    let w := rowWord row (4 * k)
    y.wr (EL_CTX_WORD.nth k) (if k % 4 = 0 then putBits w 6 2 ep else w)) (x.wr EL_CTRL_CTX_EN (rowWord row 0x80 % 256))
  let x2 := [0, 1].foldl (fun y b =>
    let w := BitVec.ofNat 32 (rowWord row (0x84 + 4 * b))
    ((y.wr (EL_OBIND_DST_STOP.nth b) (EL_OBIND_DST_STOP.of w)).wr (EL_OBIND_DST_QUEUE.nth b) (EL_OBIND_DST_QUEUE.of w)).wr
      (EL_OBIND_VALID.nth b) (EL_OBIND_VALID.of w)) x1
  let x3 := (List.range 8).foldl (fun y q => y.wr (EL_QCFG_KIND.nth q) (rowWord row (0x90 + 4 * q) % 4)) x2
  let x4 := (List.range 8).foldl (fun y k =>
    (y.wr (EL_SEND_LO_HDR_LO.nth k) (rowWord row (0xB0 + 8 * k))).wr (EL_SEND_HI_HDR_HI.nth k) (rowWord row (0xB4 + 8 * k))) x3
  { x4 with seeds := rowSeeds row }

/-- An element is armed with its new set, and takes the region's epoch (R174, R204). -/
def Cluster.armSet (c : Cluster) (e ep : Nat) : Cluster :=
  let x := (c.elem e).arm
  let c1 := c.setElem e (x.wr EL_STATUS_EPOCH ep)
  { c1 with te := c1.te.armed e }

/-- The matrix unit's part of an image (R214). -/
def Cluster.loadRow32 (c : Cluster) (row : List Byte) : Cluster :=
  let c1 := (List.range 8).foldl (fun k b =>
    let w := BitVec.ofNat 32 (rowWord row (4 * b))
    (((k.wr (MU_CBIND_ELEM.nth b) (MU_CBIND_ELEM.of w)).wr (MU_CBIND_QUEUE.nth b) (MU_CBIND_QUEUE.of w)).wr (MU_CBIND_VALID.nth b)
      (MU_CBIND_VALID.of w)).wr (MU_CBIND_CREDITS.nth b) 16) c
  let l := rowWord row 0x20
  { c1 with mu := { c1.mu with setList := if l.testBit 31 then some (l % 4096) else none } }

/-- One cluster swaps in the image that starts at a row: the rows are read, the registers written and the set armed. A poisoned row, or an ARM that fails, is
ARM_ERR: the region enters FAULT, and the cluster has a parity error (R204). -/
def State.swapCluster (s : State) (i row ep : Nat) : State :=
  let r := (List.range 33).foldl (fun (a : List (List Byte) × Bool × State) k =>
    let m := a.2.2.memRead i 0 (512 * (row + k)) 512
    (a.1 ++ [m.1.1], a.2.1 || m.1.2, m.2)) ([], false, s)
  let s1 := r.2.2.modCluster i (fun c =>
    let c1 := (List.range 32).foldl (fun k e => k.modElem e (fun x => x.loadRow (r.1.getD e []) ep)) c
    (List.range 32).foldl (fun k e => k.armSet e ep) (c1.loadRow32 (r.1.getD 32 [])))
  if r.2.1 = true ∨ (List.range 32).any (fun e => ((s1.cluster i).elem e).rd EL_STATUS_CHK != 0) = true then
    (s1.modRegion (regionOf i) (fun g => (g.setSched 6).wr TCK_RDRAIN_ARM_ERR 1)).clusterFailure 9 i 0
  else s1

/-- Region r swaps in set n (R198, R199, R204): the epoch steps, and every placed cluster of the region takes its image.
TCK_RSET.ROW is the first image's row where the placed clusters hold the set at different rows, which R221 does not settle (DESIGN CHOICE, log entry 21). -/
def State.swap (s : State) (r n : Nat) : State :=
  let ep := (((s.region r).rd TCK_RSCHED_EPOCH) + 1) % 4
  let imgs : List (Nat × Nat × Nat) := match s.ephOf r with
    | some e => e.sets.filter (fun x => regionOf x.1 == r && x.2.1 == n && s.enabled x.1 && !(s.cluster x.1).fenced)
    | none => []
  let s1 := s.modRegion r (fun g => ((((g.wr TCK_RSCHED_EPOCH ep).countStart TCK_RSWAPS_CNT 1).wr TCK_RSET_SET n).wr TCK_RSET_ROW
    ((imgs.map (fun x => x.2.2)).headD 0)))
  imgs.foldl (fun t x => t.swapCluster x.1 x.2.2 ep) s1

/-! ## Starting a slot (R204) -/

/-- The seeds of an element's armed set enter their queues (R204), at a faulted context as any token that arrives (R195). A seed takes no credit of its
queue's producer, and its removal returns one as any token's does, which leaves CREDITS at 16 at most (R107; DESIGN CHOICE, log entry 11). -/
def Cluster.seed (c : Cluster) (e ep : Nat) : Cluster :=
  (c.elem e).seeds.foldl (fun k p =>
    let k1 := k.elemToken e p.1 { p.2 with epoch := ep }
    if (k.elem e).faultedQueue p.1 then k1
    else k1.modElem e (fun y => { y with seedWait := SMap.set (fun _ => 0) y.seedWait p.1 (y.queue p.1).length })) c

/-- The placed clusters of region r that run. -/
def State.placed (s : State) (r : Nat) : List Nat :=
  match s.ephOf r with
  | some e => e.places.filter (fun i => regionOf i == r && s.enabled i && !(s.cluster i).fenced)
  | none => []

/-- Seeds and list fetchers of a slot (R204 steps 3 and 4). -/
def State.feed (s : State) (r : Nat) (e : Slot) : State :=
  let ep := (s.region r).rd TCK_RSCHED_EPOCH
  (s.placed r).foldl (fun t i => t.modCluster i (fun c =>
    let c1 := if e.seed then (c.elems.map (fun p => p.1)).dedup.foldl (fun k n => k.seed n ep) c else c
    if e.list then (match c1.mu.setList with | some row => (c1.wr MU_LIST_BASE_ROW row).listRun | none => c1) else c1)) s

/-- The seeds and lists of a slot's start, while the region runs the slot and no slot-end drain has stopped its sources (R201). -/
def State.launch (s : State) (r : Nat) (e : Slot) : State :=
  let g := s.region r
  if g.sched_ = 2 ∨ (g.sched_ = 3 ∧ g.rd TCK_RSCHED_PARKDRAIN = 1) then s.feed r e else s

/-- Whether the compute clocks of a region are stopped, for a relock or a park (R51, R93). -/
def Region.clocksOff (g : Region) : Bool := g.rd DRV_STATUS_STATE == 3 || g.power == 4

/-- The swap of a slot with NEWSET: at once, or when the compute clocks restart (R204). -/
def State.swapDue (s : State) (r : Nat) (e : Slot) : State :=
  if e.newset = false then s
  else if (s.region r).clocksOff then s.modRegion r (fun g => { g with swapsDue := g.swapsDue ++ [e.set] })
  else s.swap r e.set

/-- The compute clocks restart: the swaps that waited take place, then a slot start that waited (R204). -/
def State.clocksOn (s : State) (r : Nat) : State :=
  let g := s.region r
  let s1 := g.swapsDue.foldl (fun t n => t.swap r n) (s.setRegion r { g with swapsDue := [], startDue := false })
  if g.startDue then (match g.slot with | some e => s1.launch r e | none => s1) else s1

/-- Counts that start with a slot (R234, R316). -/
def Cluster.slotCounts (c : Cluster) : Cluster :=
  let c1 := (c.elems.map (fun p => p.1)).dedup.foldl (fun k e => k.modElem e (fun x => { x with seq := 0 })) c
  { c1 with te := { c1.te with recv := c1.te.recv.map (fun x => { x with adds := 0 }) } }

/-- Slot v begins with its entry (R204): with work the region is RUNNING; without, the slot is finished as soon as it is started. The compute part of a
start that falls in a relock, or in a park, waits for the clocks; a region that parks or is parked holds the slot as in a park drain (R75, R93,
R209). -/
def State.begin (s : State) (r v idx : Nat) (e : Slot) : State :=
  let g := s.region r
  let g1 := (g.setSched (if e.work then 2 else 4)).wr TCK_RSLOT_SLOT idx
  let g2 := { g1.wr TCK_RDRAIN_DRAINED (if e.work then 0 else 1) with
    slot := some e, passed := if e.work then v else v + 1, startDue := false }
  let s1 := (s.setRegion r g2).eachCluster r Cluster.slotCounts
  let s2 := (if e.work then s1 else s1.freezeBucket r).swapDue r e
  let s3 := if g.clocksOff then s2.modRegion r (fun h => { h with startDue := e.work }) else s2.launch r e
  s3.modRegion r (fun h => if h.parking = true ∧ h.sched_ = 2 then (h.setSched 3).wr TCK_RSCHED_PARKDRAIN 1 else h)

/-! ## The slot that is due (R65, R66, R200, R206, R207) -/

/-- The schedule index that position v names (R206); none where the ephemeris has ended for the region. -/
def Region.slotIndex (g : Region) (v : Nat) : Option Nat :=
  let n := g.sched.length
  if v < n then some v else match g.loop with | none => none | some l => if l < n then some (l + (v - n) % (n - l)) else none

/-- Whether every region of region r's ephemeris has finished the slots before position v, and its report came in time (R200). -/
def State.barrier (s : State) (r v : Nat) (lead : Bool) : Bool :=
  let n := (s.region r).rd TCK_RSCHED_EPH
  v == 0 || (lead && (match SMap.get (fun _ => none) s.dome.ephs n with
    | some x => x.regions.all (fun q => let h := s.region q; h.sched_ == 0 || h.rd TCK_RSCHED_EPH != n || decide (v ≤ h.passed))
    | none => true))

/-- What a region finds at its tick. -/
inductive Due where
  | early
  | ended
  | barred (e : Slot)
  | gated (e : Slot)
  | start (v idx : Nat) (e : Slot)
  deriving DecidableEq, Repr

/-- The slot due (R65): slots without work are skipped while SLIP is above zero, with their swap (R66, R204); then the barrier and the gate are looked at.
R207 does not say what a slot is for which both fail, nor whether a skipped slot waits for its gate: the model takes the first as barred, an overrun that leaves the
start tick, and the second as not waiting (DESIGN CHOICE, log entry 21). -/
def State.due (r : Nat) (lead : Bool) : Nat → State → Due × State
  | 0, s => (.early, s)
  | n + 1, s =>
    let g := s.region r
    let slip := g.rd TCK_RSTATUS_SLIP
    if g.num < g.start + slip then (.early, s)
    else
      let v := g.num - g.start - slip
      match g.slotIndex v with
      | none => (.ended, s)
      | some k =>
        match g.sched[k]? with
        | none => (.ended, s)
        | some e =>
          if e.newset = true ∧ s.barrier r v lead = false then (.barred e, s)
          else if 0 < slip ∧ e.work = false then
            State.due r lead n ((s.swapDue r e).modRegion r (fun h => { h.wr TCK_RSTATUS_SLIP (slip - 1) with passed := v + 1 }))
          else if e.gate = true ∧ (s.dome_ TCK_GATE_GATE).testBit (g.rd TCK_RSCHED_EPH) = false then (.gated e, s)
          else (.start v k e, s)

/-! ## Refill and parking (R74, R75, R95) -/

/-- The refill of a tick with budget b (R74). -/
def Region.refill (g : Region) (b : Nat) : Region :=
  let full : Int := ((b * fJ : Nat) : Int)
  let cap : Int := ((b / 4 * fJ : Nat) : Int)
  let carry := if 0 ≤ g.balance then min g.balance cap else g.balance
  let g1 := ((g.wr ALM_BUDGET_BUDGET b).wr ALM_STATUS_ZERO (if b = 0 then 1 else 0)).wr ALM_CARRY_CARRY
    (if 0 ≤ g.balance then carry.toNat / fJ else 0)
  { g1.wr ALM_STATUS_DEFICIT (if full + carry < 0 then 1 else 0) with balance := full + carry }

/-- The BUDGET cause follows the budget (R75): a park at zero, and it clears with a budget that is not zero. -/
def Region.budgetCause (g : Region) (b : Nat) : Region :=
  if b = 0 then g.parkCause 2 else g.wr PWR_STATUS_PARK_CAUSE (g.rd PWR_STATUS_PARK_CAUSE &&& 3)

/-- A PARKED region whose causes are clear unparks at a tick (R95): it resumes the slot that it was running, and a slot-end drain that waited begins
(R203). -/
def State.unpark (s : State) (r : Nat) : State :=
  let g := s.region r
  if g.power = 4 ∧ g.rd PWR_STATUS_PARK_CAUSE = 0 then
    let g1 := (g.wr PWR_STATUS_STATE 2).wr PWR_VS_MV 900
    if g.sched_ = 3 ∧ g.rd TCK_RSCHED_PARKDRAIN = 1 then
      let s1 := s.setRegion r { ((g1.setSched 2).wr TCK_RSCHED_PARKDRAIN 0).wr TCK_RDRAIN_DRAINED 0 with drainWaits := false }
      let s2 := if g.drainWaits then s1.drainStart r else s1
      if g.rd DRV_STATUS_STATE = 3 then s2 else s2.clocksOn r
    else if g.rd DRV_STATUS_STATE = 3 then s.setRegion r g1 else (s.setRegion r g1).clocksOn r
  else s

/-- The refill, the BUDGET cause and the unpark of a tick with budget b. -/
def State.budgetTick (s : State) (r b : Nat) : State := (s.modRegion r (fun g => (g.refill b).budgetCause b)).unpark r

/-- A tick of a region that runs no slot of a loaded ephemeris (R455): no refill; zero budgets do not park it. -/
def State.idleTick (s : State) (r : Nat) : State :=
  (s.modRegion r (fun g => ((g.wr ALM_CARRY_CARRY 0).wr ALM_STATUS_DEFICIT 0).wr PWR_STATUS_PARK_CAUSE (g.rd PWR_STATUS_PARK_CAUSE &&& 3))).unpark r

/-- Whether region r's ephemeris is being ended under R353: no slot of it starts. -/
def State.ending (s : State) (r : Nat) : Bool := match s.ephOf r with | some e => e.endStatus == 24 | none => false

/-- A held slot takes its refill where the region is DRAINED (R455), and counts as an overrun where that is asked. -/
def State.heldTick (s : State) (r : Nat) (e : Slot) : State := if (s.region r).sched_ = 4 then s.budgetTick r e.budget else s.idleTick r

/-- The schedule at a tick instant (R65, R66, R200, R204-R207). `counted` says that a RESYNC has counted the overrun already (R67). -/
def State.schedTick (s : State) (r : Nat) (lead counted : Bool) : State :=
  let g := s.region r
  if g.sched_ = 2 ∨ g.sched_ = 3 then
    (if counted then s else s.overrun r).budgetTick r (match g.slot with | some e => e.budget | none => 0)
  else if g.sched_ = 1 ∨ g.sched_ = 4 then
    if s.ending r then ((s.freeRegion r).idleTick r).ephSweep
    else
      let d := State.due r lead (g.rd TCK_RSTATUS_SLIP + 1) s
      let t := d.2
      if (t.region r).sched_ = 6 then t.idleTick r
      else match d.1 with
        | .early => t.idleTick r
        | .ended => ((t.freeRegion r).idleTick r).ephSweep
        | .barred e => ((if counted then t else t.overrun r).modRegion r (fun h => h.wr TCK_RSCHED_WAIT_BAR 1)).heldTick r e
        | .gated e => (t.modRegion r (fun h => { h.wr TCK_RSCHED_WAIT_GATE 1 with start := h.start + 1 })).heldTick r e
        | .start v k e =>
          ((t.modRegion r (fun h => { h.wr ALM_RESERVE_RESERVE e.reserve with reserve := e.reserve })).budgetTick r e.budget).begin r v k e
  else s.idleTick r

/-! ## The tick instant of a region -/

/-- The counters of the tick that ends (R62, R97, R241, R324, R435): registers that report a completed tick take their counts, and the peaks of the next start from
what is held. -/
def State.latchTick (s : State) (r energy : Nat) : State :=
  let s1 := s.modRegion r (fun g =>
    let g1 := g.debitEnergy g.eventEnergy
    let g2 := ({ g1 with regs := Regs.latch pageTable g1.regs g1.cnt, cnt := [], chrLast := g1.chr, chr := [], used := 0 }.wr ALM_USED_USED (g1.used / fJ)).wr
      PWR_ENERGY_ENERGY energy
    if g.throttled then { g2.countStart DS_RTHR_TICKS_CNT 1 with throttled := g.rd DS_RREF_STATUS_MODE == 2 } else g2)
  let s2 := s1.eachCluster r (fun c =>
    { c with
      regs := Regs.latch clTable c.regs c.cnt, cnt := []
      elems := (c.elems.map (fun p => p.1)).dedup.foldl (fun m e =>
        SMap.set (fun _ => Elem.reset) m e (let x := SMap.get (fun _ => Elem.reset) m e; { x with regs := Regs.latch elTable x.regs x.cnt, cnt := [] })) c.elems })
  let s3 := s2.eachCluster r (fun c => (c.peak CM_DACC_PEAK_PEAK c.staging.length).peak TE_POOL_PEAK c.te.pooled)
  (portsOf r).foldl (fun t p => t.modPort p (fun z => { z with regs := Regs.latch zlTable z.regs z.cnt, cnt := [] })) s3

/-- The comparison of measured and debited energy (R86). -/
def State.drift (s : State) (r : Nat) : State :=
  let g := s.region r
  if g.parkedTick then s
  else if 11 * g.rd ALM_USED_USED < 10 * g.rd PWR_ENERGY_ENERGY then
    let n := g.rd ALM_DRIFT_CNT_CNT + 1
    if n = 8 then (s.setRegion r ((g.wr ALM_DRIFT_CNT_CNT 0).wr ALM_STATUS_DRIFT 1)).hifEvent 2 else s.setRegion r (g.wr ALM_DRIFT_CNT_CNT n)
  else s.setRegion r (g.wr ALM_DRIFT_CNT_CNT 0)

/-- The band of the tick (R78). -/
def Region.bandTick (g : Region) : Region :=
  let t := g.hottest (List.range 16)
  let thr (f : Fld) : Nat := 4 * Regs.rd pageTable g.almActive f
  g.wr ALM_STATUS_BAND (if t < thr ALM_BAND_THR_T1 then 0 else if t < thr ALM_BAND_THR_T2 then 1 else if t < thr ALM_BAND_THR_T3 then 2 else 3)

/-- A tick instant of region r with its number (R44, R45): counters, drift, staged values, band and park causes, then the schedule, then the hold
comparison with the refilled balance (R74). -/
def State.tick (s : State) (r num : Nat) (obs : TickObs) (counted : Bool) : State :=
  let s1 := (s.latchTick r obs.energy).drift r
  let trims := s1.trims r
  let s2 := s1.modRegion r (fun g =>
    let g1 := (if g.parkedTick then g.countStart THM_PARK_CNT_CNT 1 else g).freqApply trims
    let g2 := (g1.almStaged.bandTick).coolAtTick
    { (g2.wr TCK_RSCHED_WAIT_BAR 0).wr TCK_RSCHED_WAIT_GATE 0 with num := num, ticked := true, reserve := g2.rd ALM_RESERVE_RESERVE })
  let s3 := s2.schedTick r obs.barLead counted
  (s3.modRegion r (fun g => { g with parkedTick := g.power == 4 })).holdCompare r

/-- The number of a region's next tick: its first takes the module's number (R72). -/
def State.nextNum (s : State) (r : Nat) : Nat := if (s.region r).ticked then (s.region r).num + 1 else s.tickNum

/-- A marker outside every window (R45, R67): a new tick at its instant with the module's number, which is one overrun of a region that runs an
ephemeris. -/
def State.resync (s : State) (r : Nat) (obs : TickObs) : State :=
  let s1 := (s.modRegion r (fun g => { (g.wr TCK_RSTATUS_RESYNC 1).wr TCK_RSTATUS_LOCAL 0 with locals := 0, lastLocal := false, late := false, armed := false })).hifEvent 1
  let st := (s1.region r).sched_
  let runs := st == 2 || st == 3 || st == 4
  (if runs then s1.overrun r else s1).tick r s.tickNum obs runs

/-- MARKER_DECODE (R43-R45): one period of the selected path is classified; `periods` is its tick instant's distance from the last tick instant. A marker
decoded before the expected instant may give its instant after it: the region ticks on its own counter in between, and then realigns. -/
def execMarkerDecode (r : RegionId) (high : HighTime) (periods : Nat) (obs : TickObs) (s : State) : Host.Outcome State Fault Refusal :=
  let g := s.region r.val
  let p := s.dome_ TCK_PERIOD_PERIOD
  let w := p / 8
  if s.alive r.val = false then .next s
  else match high with
    | .half => .next s
    | .threeQuarters => .next (s.setRegion r.val (g.wr TCK_RSTATUS_MARKER_BAD 1))
    | .quarter =>
      if periods ≤ p ∧ p - periods < w then .next (s.setRegion r.val { g with armed := true })
      else if g.lastLocal = true ∧ periods < w then
        .next (s.setRegion r.val { g.wr TCK_RSTATUS_LOCAL 0 with lastLocal := false, locals := 0 })
      else if g.lastLocal = false ∧ p < periods ∧ periods - p < w then .next (s.setRegion r.val { g with late := true })
      else .next (s.resync r.val obs)

/-- TICK_INSTANT (R44, R45): the tick instant that a marker armed. -/
def execTickInstant (r : RegionId) (obs : TickObs) (s : State) : Host.Outcome State Fault Refusal :=
  let g := s.region r.val
  if s.alive r.val = true ∧ g.armed = true then
    .next ((s.setRegion r.val { g.wr TCK_RSTATUS_LOCAL 0 with armed := false, locals := 0, lastLocal := false, late := false }).tick r.val (s.nextNum r.val) obs false)
  else .next s

/-- LOCAL_TICK (R45): no marker by the expected instant; the region ticks on its own counter. A marker that gives its instant just after realigns the counter
and clears LOCAL. -/
def execLocalTick (r : RegionId) (obs : TickObs) (s : State) : Host.Outcome State Fault Refusal :=
  let g := s.region r.val
  if s.alive r.val = true ∧ g.armed = false then
    let n := if g.late then 0 else g.locals + 1
    let g1 := (g.wr TCK_RSTATUS_MISSED 1).wr TCK_RSTATUS_LOCAL (if 2 ≤ n then 1 else 0)
    .next ((s.setRegion r.val { g1 with locals := n, lastLocal := !g.late, late := false }).tick r.val (s.nextNum r.val) obs false)
  else .next s

/-- RELOCK_LOCK (R51, R53, R83): the drive relocks; the stop and its leakage are accounted, a swap and a slot start that waited take place, and a park
cause that waited begins its drain (R95). R53 gives LOCKED; where the selected source is not READY as the relock ends the model enters HOLDOVER, which
R53 gives a LOCKED drive without its source (DESIGN CHOICE, log entry 21). -/
def execRelockLock (r : RegionId) (ns : Nat) (s : State) : Host.Outcome State Fault Refusal :=
  let g := s.region r.val
  if g.rd DRV_STATUS_STATE = 3 then
    let ready := g.rd (drvReady (g.rd DRV_SRC_SEL)) == 1
    let g1 := ((g.relockLeak ns).setDrv (if ready then 2 else 4)).wr DRV_STATUS_RELOCK_NS ns
    let s1 := s.setRegion r.val g1
    let s2 := if g.power = 4 then s1 else s1.clocksOn r.val
    .next ((s2.modRegion r.val Region.parkBegin).holdCompare r.val)
  else .next s

/-! ## The tick of the root (R69, R100, R347, R435) -/

/-- Counts of event `ev` in the completed tick, in one region or (127) in all; a DARK region has no completed tick. -/
def State.chronoCount (s : State) (ev reg : Nat) : Nat :=
  let count (g : Region) : Nat := if g.dark then 0 else SMap.get (fun _ => 0) g.chrLast ev
  if reg = 127 then (s.regions.map (fun p => count p.2)).sum else count (s.region reg)

/-- Whether the eyepiece is open with a bit of SCOPE: 0 SCAN, 1 CHRONO, 2 TRACE, 3 ACCESS (R430, R432). -/
def State.scopeOpen (s : State) (bit : Nat) : Bool := s.dome_ EYE_STATUS_OPEN == 1 && (s.dome_ EYE_STATUS_SCOPE).testBit bit

/-- The chronograph gathers the completed tick (R435): a counter selected during it starts with the next. -/
def State.chronoGather (s : State) : State :=
  if s.scopeOpen 1 then
    ((List.range 16).foldl (fun t i =>
      if s.dome.eye.fresh.contains i then t
      else
        let n := s.chronoCount (s.dome_ (EYE_CHR_SEL_EVENT.nth i)) (s.dome_ (EYE_CHR_SEL_REGION.nth i))
        (t.setDome (EYE_CHR_LAST_CNT.nth i) n).modDome (fun d => { d with eye := { d.eye with
          totals := SMap.set (fun _ => 0) d.eye.totals i ((SMap.get (fun _ => 0) d.eye.totals i + n) % 2 ^ 64) } })) s).modDome
      (fun d => { d with eye := { d.eye with fresh := [] } })
  else s

/-- ROOT_TICK (R69, R100, R300): the root counts a tick and latches the PTM time; the module's sums follow, UP ports owe a TICK column (R347), and the chronograph
gathers. -/
def execRootTick (ptm volt cur energy : Nat) (s : State) : Host.Outcome State Fault Refusal :=
  if s.dome.input then
    let s1 := s.modDome (fun d => { d with ticks := d.ticks + 1, ptm := ptm, golden := if d.ticks = 0 then 0 else d.golden })
    let s2 := ((s1.setDome PWR_IN_VOLT volt).setDome PWR_IN_CUR cur).setDome PWR_IN_ENERGY_ENERGY energy
    let s3 := s2.setDome ALM_MOD_USED_USED (((s.regions.filter (fun p => !p.2.dark)).map (fun p => p.2.rd ALM_USED_USED)).sum)
    let s4 := s3.upPorts.foldl (fun t p => t.modPort p (fun z => { z with tickDue := true })) s3
    .next (s4.chronoGather.ephSweep)
  else .next s

end Sys2Proof.Machine
end

