-- ==== Sys2Proof/Machine/Fault.lean ====
section
/-! DEFINITION. The module's fault states (R351-R353), containment (R33, R38, R321, R356), regions that do not answer (R354, R423) and the fault history
(R366, R367). -/

namespace Sys2Proof.Machine

/-! ## Degrading (R352, R353) -/

/-- Every open collimation interval is abandoned (R353 step 2). -/
def State.colAbandon (s : State) : State :=
  (List.range 112).foldl (fun t r => t.modRegion r (fun g => { g with bucket0 := Bucket.reset, bucket1 := Bucket.reset, frozen := false }))
    (s.modDome (fun d => { d with col := { d.col with interval := none, armed := false } }))

/-- Every RUNNING region is asked to drain, and the ephemerides that `which` picks will complete DEGRADED; their force waits one tick (R353
steps 3 and 4). -/
def State.endAll (s : State) (which : Eph → Bool) : State :=
  let ephs := s.dome.ephs.map (fun p => (p.1, p.2.map (fun x => if which x then { x with endStatus := 24 } else x)))
  let s1 := s.modDome (fun d => { d with ephs := ephs, forcePend := true })
  ((List.range 112).foldl (fun t r => if (s.region r).sched_ = 2 then t.drainStart r else t) s1).ephSweep

/-- A degrading event acts on the module (R352, R353): READY enters DEGRADED; HALTED drains a DIAG ephemeris; START and DEGRADED do not change. -/
def State.degrade (s : State) (code region : Nat) : State :=
  if s.mstate = 1 then
    let s1 := ((s.setDome DOM_FLT_STATUS_SUSPECT 1).setDome DOM_FLT_STATUS_FIRST_CODE code).setDome DOM_FLT_STATUS_FIRST_REGION region
    (((s1.domEvent DOM_FLT_EVENT_DEGRADED).setMstate 2).colAbandon).endAll (fun _ => true)
  else if s.mstate = 3 then (if s.dome.ephs.isEmpty then s else s.endAll (fun x => x.diag))
  else s

/-- DEGRADE (R353): the oldest degrading event reaches the dome controller. -/
def execDegrade (s : State) : Host.Outcome State Fault Refusal :=
  match s.dome.degPend with
  | [] => .next s
  | (c, r) :: t => .next ((s.modDome (fun d => { d with degPend := t })).degrade c r)

/-- DEGRADE_FORCE (R353 step 4): every ephemeris that has not ended is forced. -/
def execDegradeForce (s : State) : Host.Outcome State Fault Refusal :=
  if s.dome.forcePend then
    .next (((List.range 8).foldl (fun t e => t.forceEph e) (s.modDome (fun d => { d with forcePend := false }))).ephSweep)
  else .next s

/-- Whether a region lets a DEGRADED module halt (R352). -/
def Region.haltable (g : Region) : Bool := g.sched_ == 0 || g.nocomp || g.dark || (g.sched_ == 6 && g.forceOver)

/-- MODULE_HALT (R352): every region is FREE, NOCOMP, DARK, or in FAULT after a forced replacement. -/
def execModuleHalt (s : State) : Host.Outcome State Fault Refusal :=
  .next (if s.mstate = 2 ∧ (List.range 112).all (fun r => (s.region r).haltable) = true then s.setMstate 3 else s)

/-- DOM_FLT_SUSPECT (R368): a write of 1 enters DEGRADED. No code of R355 names this event, so FIRST_CODE takes a free value. -/
def execDomFltSuspect (s : State) : Host.Outcome State Fault Refusal := .next (s.takeFree.2.degrade (s.takeFree.1.toNat % 256) 127)

/-- DOM_FLT_REPLACE (R351, R368): a write of 1 sets REPLACE and enters DEGRADED. -/
def execDomFltReplace (s : State) : Host.Outcome State Fault Refusal :=
  .next (s.takeFree.2.setReplace.degrade (s.takeFree.1.toNat % 256) 127)

/-! ## Containment (R33, R38, R321, R356) -/

/-- Whether a cluster lies in the rectangle of a multicast group (R320). -/
def Cluster.groupHas (c : Cluster) (g i : Nat) : Bool :=
  c.rd (TE_MC_LO_VALID.nth g) == 1 && decide (c.rd (TE_MC_LO_X0.nth g) ≤ cx i) && decide (cx i ≤ c.rd (TE_MC_LO_X1.nth g)) &&
  decide (c.rd (TE_MC_LO_Y0.nth g) ≤ cy i) && decide (cy i ≤ c.rd (TE_MC_LO_Y1.nth g))

/-- Every multicast entry whose rectangle holds cluster i loses a member and takes the new map generation (R321). -/
def Cluster.loseMember (c : Cluster) (i gen : Nat) : Cluster :=
  (List.range 256).foldl (fun k g =>
    if k.groupHas g i then (k.wr (TE_MC_HI_MEMBERS.nth g) (k.rd (TE_MC_HI_MEMBERS.nth g) - 1)).wr (TE_MC_HI_MGEN.nth g) gen else k) c

/-- The fence (R33, R356): the cluster's agents and what they hold are abandoned; its router, its port adapters and its host attachment stay
in service. -/
def Cluster.fence (c : Cluster) (gen : Nat) : Cluster :=
  { Cluster.reset with
    regs := c.regs, cnt := c.cnt, attach := c.attach, fifo := c.fifo, xcred := c.xcred, rfab := c.rfab
    arrivals := c.arrivals.filter (fun p => decide (40 ≤ p.dep)), fenced := true, occGen := gen }

/-- A cluster is occulted for containment (R356 step 3): the multicast entries, the merged map, then the fence. -/
def State.occult (s : State) (i : Nat) : State :=
  let gen := if s.dome.merged then (s.dome_ DOM_DMAP_GEN_GEN + 1) % 65536 else 0
  let s1 := (s.clusters.map (fun p => p.1)).dedup.foldl (fun t k => t.modCluster k (fun c => c.loseMember i gen)) s
  let s2 := (s1.modDome (fun d => { d with
    map := SMap.set (fun _ => DefRec.reset) d.map i { SMap.get (fun _ => DefRec.reset) d.map i with cstat := 2, cause := 5 } })).setDome DOM_DMAP_GEN_GEN gen
  let s3 := s2.modCluster i (fun c => c.fence gen)
  (s3.setDome DOM_FLT_CNT_OCC_CNT (s3.dome_ DOM_FLT_CNT_OCC_CNT + 1)).domEvent DOM_FLT_EVENT_OCCULT

/-- CONTAINMENT_OCCULT (R356): the cluster of the lowest index that waits is occulted, once. -/
def execContainmentOccult (s : State) : Host.Outcome State Fault Refusal :=
  match s.dome.occPend with
  | [] => .next s
  | i :: t =>
    let s1 := s.modDome (fun d => { d with occPend := t })
    .next (if s1.enabled i then s1.occult i else s1)

/-! ## Regions that do not answer (R354, R423) -/

/-- DOMEBUS_BYPASS (R354): a region whose VM rail is down, or that is DARK, is bypassed on its chain. -/
def execDomebusBypass (r : RegionId) (s : State) : Host.Outcome State Fault Refusal :=
  let g := s.region r.val
  .next (if g.dark = true ∨ (2 ≤ g.power ∧ (g.rd PWR_STATUS_RAIL_OK).testBit 5 = false) then
    s.modDome (fun d => { d with silent := NSet.add d.silent r.val }) else s)

/-- REGION_CONTROLLER_SILENT (R423, R355 code 25): no answer in 100 µs with VM up; the region enters FAULT. -/
def execRegionControllerSilent (r : RegionId) (s : State) : Host.Outcome State Fault Refusal :=
  .next (if s.alive r.val = true ∧ s.dome.silent.contains r.val = false then
    ((s.modDome (fun d => { d with silent := NSet.add d.silent r.val })).modRegion r.val (fun g => g.setSched 6)).regionFailure 25 r.val 0
  else s)

/-! ## The fault history (R366) -/

/-- FAULT_RECORD_WRITE (R366): the oldest record that waits is written; the record with sequence s lies at index (s − 1) mod 4,096. -/
def execFaultRecordWrite (s : State) : Host.Outcome State Fault Refusal :=
  match s.dome.logPend with
  | [] => .next s
  | w :: t =>
    .next (s.modDome (fun d => { d with
      logPend := t, nor0 := norPut d.nor0 (norHistory + 32 * (((w.getD 0 0).toNat + 4095) % 4096)) (w.flatMap (fun x => leBytes 4 x.toNat)) }))

end Sys2Proof.Machine
end

