-- ==== Sys2Proof/Machine/Collimation.lean ====
section
/-! DEFINITION. Collimation (R359-R365, R369): the closing of an interval, the exchange of records, the comparison and the classification of a
repeat. -/

namespace Sys2Proof.Machine

/-- OPEN (R369): a bucket holds a contribution. -/
def State.colOpen (s : State) : Bool := (List.range 112).any (fun r => (s.region r).bucket0.count != 0 || (s.region r).bucket1.count != 0)

/-- Whether peer entry r is valid (R369). -/
def State.peerValid (s : State) (r : Nat) : Bool := s.dome_ (DOM_COL_PEER_VALID.nth r) == 1

/-- The record of the peer entry r that answers an own record: of the same interval and REPEAT flag (R363). -/
def State.peerRec (s : State) (r : Nat) (own : ColRec) : Option ColRec :=
  if s.peerValid r then (SMap.get (fun _ => []) s.dome.col.held r).find? (fun k => k.interval == own.interval && k.repeated == own.repeated) else none

/-- A record agrees with another: equal digest and count (R363). -/
def colAgrees (a b : ColRec) : Bool := a.digest == b.digest && a.count == b.count

/-- How many of some records agree with a record. -/
def colVotes (a : ColRec) (l : List ColRec) : Nat := (l.filter (fun b => colAgrees a b)).length

/-- The majority among records: held by more than half (R364). -/
def colMajority (l : List ColRec) : Option ColRec := l.find? (fun a => decide (l.length < 2 * colVotes a l))

/-- A result of the repeat classification (R364): RESULT, and whether the first run is missing. -/
def colClassify (first : Option (Nat × Nat)) (own : ColRec) (all : List ColRec) : Nat × Bool :=
  let maj := colMajority all
  let agrees := match maj with | some m => colAgrees own m | none => false
  match first with
  | none => (if agrees then 3 else 6, true)
  | some (d, n) =>
    if own.digest ≠ d ∨ own.count ≠ n then (4, false)
    else if agrees then (3, false)
    else if maj.isSome then (5, false)
    else (6, false)

/-- The action of a repeat's result (R364): a fault record for TRANSIENT; REPLACE or SUSPECT and a degrading event for PERMANENT and SUSPECT. -/
def State.colAct (s : State) (result interval : Nat) : State :=
  if result = 4 then s.failure 22 127 none interval false false
  else if result = 5 then s.failure 23 127 none interval false true
  else if result = 6 then (s.setDome DOM_FLT_STATUS_SUSPECT 1).failure 23 127 none interval true true
  else s

/-- An own record is compared with what its peers sent (R363, R364); `expired` says that the wait ran out. -/
def State.colCompare (s : State) (own : ColRec) (expired : Bool) : State :=
  let got := (List.range 8).filterMap (fun r => s.peerRec r own)
  let s1 := (List.range 8).foldl (fun t r =>
    let m := s.peerRec r own
    let t1 := ((t.setDome (DOM_COL_PEER_RCVD.nth r) (if m.isSome then 1 else 0)).setDome (DOM_COL_PEER_AGREE.nth r)
      (match m with | some k => if colAgrees own k then 1 else 0 | none => 0)).setDome (DOM_COL_PEER_NONDET.nth r)
      (match m with | some k => if k.nondet then 1 else 0 | none => 0)
    match m with
    | some k => t1.modDome (fun d => { d with col := { d.col with
        held := SMap.set (fun _ => []) d.col.held r ((SMap.get (fun _ => []) d.col.held r).erase k) } })
    | none => t1) s
  let s2 := (s1.modDome (fun d => { d with col := { d.col with waiting := d.col.waiting.erase own } })).setDome DOM_COL_STATUS_TIMEOUT (if expired then 1 else 0)
  let s3 := if expired then s2.colEvent DOM_COL_EVENT_TIMEOUT else s2
  let set (t : State) (result : Nat) (nohist : Bool) : State := (t.setDome DOM_COL_STATUS_RESULT result).setDome DOM_COL_STATUS_NOHIST (if nohist then 1 else 0)
  if own.nondet || got.any (fun k => k.nondet) then set s3 7 false
  else if own.repeated then
    let first := (s.dome.col.hist.find? (fun h => h.1 == own.interval)).map (fun h => h.2)
    let c := colClassify first own (own :: got)
    ((set s3 c.1 c.2).colEvent DOM_COL_EVENT_CLASSIFIED).colAct c.1 own.interval
  else if got.all (fun k => colAgrees own k) then set s3 1 false
  else ((set s3 2 false).colEvent DOM_COL_EVENT_MISMATCH).failure 22 127 none own.interval false false

/-- Whether every valid peer's record for an own record has arrived (R363). -/
def State.colReady (s : State) (own : ColRec) : Bool := (List.range 8).all (fun r => !s.peerValid r || (s.peerRec r own).isSome)

/-- Every own record whose peers have all answered is compared (R363). -/
def State.colTry (s : State) : State := s.dome.col.waiting.foldl (fun t own => if t.colReady own then t.colCompare own false else t) s

/-- The closing of interval i (R361): digest, history, registers, the event, the record to each valid peer (R362). -/
def State.colClose (s : State) (i : Nat) : State :=
  let sum := ((List.range 112).map (fun r => (s.region r).bucket0.sum)).sum % colPrime
  let count := ((List.range 112).map (fun r => (s.region r).bucket0.count)).sum % 2 ^ 64
  let nondet := (List.range 112).any (fun r => (s.region r).bucket0.nondet)
  let rep := s.dome_ DOM_COL_CTRL_REPEAT == 1
  let own : ColRec := ⟨rep, nondet, s.modId, 0, s.dome_ DOM_COL_SET_SET, i, sum, count, s.fid⟩
  let s1 := (List.range 112).foldl (fun t r => t.modRegion r (fun g => { g with bucket0 := g.bucket1, bucket1 := Bucket.reset, frozen := false })) s
  let s2 := s1.modDome (fun d => { d with col := { d.col with
    interval := some (i + 1), armed := false, count := count, waiting := d.col.waiting ++ [own]
    hist := if rep then d.col.hist else ((i, sum, count) :: d.col.hist.filter (fun h => h.1 != i)).take 16 } })
  let s3 := (List.range 4).foldl (fun t w => t.setDome (DOM_COL_DIG_DIG.nth w) (sum / 2 ^ (32 * w) % 2 ^ 32)) s2
  let s4 := ((s3.setDome DOM_COL_CNT_LO_CNT_LO (count % 2 ^ 32)).setDome DOM_COL_INTERVAL_I i).colEvent DOM_COL_EVENT_CLOSED
  let s5 := (List.range 8).foldl (fun t r => if t.peerValid r then t.sendCol none { own with dst := t.dome_ (DOM_COL_PEER_MODID.nth r) } else t) s4
  s5.colTry

/-- COL_INTERVAL_CLOSE (R361): the closing is armed and every region has frozen its bucket. -/
def execColIntervalClose (s : State) : Host.Outcome State Fault Refusal :=
  match s.dome.col.interval with
  | some i => .next (if s.dome.col.armed = true ∧ (List.range 112).all (fun r => (s.region r).frozen) = true then s.colClose i else s)
  | none => .next s

/-- A record enters the peer entries that name its sender (R362): each holds four, and a fifth displaces the oldest. -/
def State.colHold (s : State) (k : ColRec) : State :=
  (List.range 8).foldl (fun t r =>
    if t.peerValid r = true ∧ t.dome_ (DOM_COL_PEER_MODID.nth r) = k.src then
      let l := SMap.get (fun _ => []) t.dome.col.held r
      let t1 := t.modDome (fun d => { d with col := { d.col with held := SMap.set (fun _ => []) d.col.held r ((if 4 ≤ l.length then l.drop 1 else l) ++ [k]) } })
      if 4 ≤ l.length then t1.colEvent DOM_COL_EVENT_OVERFLOW else t1
    else t) s

/-- COL_RECORD_RECEIVE (R362, R363): the oldest record that arrived is held or discarded. -/
def execColRecordReceive (s : State) : Host.Outcome State Fault Refusal :=
  match s.dome.col.inbox with
  | [] => .next s
  | k :: t =>
    let s1 := s.modDome (fun d => { d with col := { d.col with inbox := t } })
    .next (if k.set = s1.dome_ DOM_COL_SET_SET then (s1.colHold k).colTry else s1)

/-- COL_WAIT_TIMEOUT (R363): the wait for the peers of the oldest own record expires. -/
def execColWaitTimeout (s : State) : Host.Outcome State Fault Refusal :=
  match s.dome.col.waiting with
  | [] => .next s
  | own :: _ => .next (s.colCompare own true)

/-- DOM_COL_CTRL_WRITE (R360, R369): taken only while no bucket holds a contribution; the current interval becomes undefined. -/
def execDomColCtrlWrite (v : W32) (s : State) : Host.Outcome State Fault Refusal :=
  if s.colOpen then .next (s.colEvent DOM_COL_EVENT_CFG_ERR)
  else
    let s1 := ((s.setDome DOM_COL_CTRL_EN (DOM_COL_CTRL_EN.of v)).setDome DOM_COL_CTRL_REPEAT (DOM_COL_CTRL_REPEAT.of v)).modDome
      (fun d => { d with col := { d.col with interval := none } })
    let n := DOM_COL_CTRL_N.of v
    .next (if 1 ≤ n ∧ n ≤ 256 then s1.setDome DOM_COL_CTRL_N n else s1.colEvent DOM_COL_EVENT_CFG_ERR)

/-- A read of CNT_LO latches CNT_HI (R369). -/
def State.colCntRead (s : State) : Nat × State := (s.dome.col.count % 2 ^ 32, s.setDome DOM_COL_CNT_HI_CNT_HI (s.dome.col.count / 2 ^ 32))

/-- DOM_COL_CNT_READ (R369, R379): the host's read through BAR0. -/
def execDomColCntRead (s : State) : Host.Outcome State Fault Refusal := .next (s.bar0Read 0x640 State.colCntRead)

end Sys2Proof.Machine
end

