-- ==== Sys2Proof/Machine/Ephemeris.lean ====
section
/-! DEFINITION. The ephemeris image and its loader (R210-R220), the clip (R85, R219) and standing ephemerides (R220). The layout of the two 64-byte
heads, which R214 and R215 do not state, and other readings are log entry 22. -/

namespace Sys2Proof.Machine

/-! ## Reading an image (R210-R217) -/

/-- A section: type, offset, size and records (R210). -/
structure Sect where
  ty : Nat
  off : Nat
  size : Nat
  count : Nat
  deriving DecidableEq, Repr

/-- A SETIMAGE record (R214): its cluster, set number, first row and 33 rows. -/
structure SetImg where
  x : Nat
  y : Nat
  set : Nat
  row : Nat
  rows : List (List Byte)
  deriving DecidableEq, Repr

/-- A CMDLIST record (R215): its cluster, first row and entries. -/
structure CmdList where
  x : Nat
  y : Nat
  row : Nat
  entries : List (List Byte)
  deriving DecidableEq, Repr

/-- An image that passes check 1 of R218: the header's fields, the regions in ascending order, and the records of each section; a record of
PLACEMENT, LAYOUT, INIT, MCAST or SCHEDULE is kept as its bits. -/
structure EphImg where
  raw : List Byte
  flags : Nat
  period : Nat
  nslots : Nat
  loop : Nat
  regions : List Nat
  place : List Nat
  layout : List Nat
  inits : List Nat
  sets : List SetImg
  lists : List CmdList
  mcast : List Nat
  sched : List Nat
  deriving DecidableEq, Repr

/-- A little-endian field of bytes. -/
def leAt (bs : List Byte) (o n : Nat) : Nat := leNat (sliceOf bs o n)

/-- Bits [lo + width − 1:lo] of a record. -/
def recBits (v lo width : Nat) : Nat := v / 2 ^ lo % 2 ^ width

/-- Whether bits [lo + width − 1:lo] of a record are zero. -/
def recZero (v lo width : Nat) : Bool := recBits v lo width == 0

/-- The section descriptors (R210). -/
def sectsOf (img : List Byte) (n : Nat) : List Sect :=
  (List.range n).map (fun k => let d := sliceOf img (0x40 + 16 * k) 16; ⟨leAt d 0 2, leAt d 4 4, leAt d 8 4, leAt d 12 4⟩)

/-- Whether no two sections overlap (R210). -/
def sectsApart : List Sect → Bool
  | [] => true
  | a :: t => t.all (fun b => a.size == 0 || b.size == 0 || decide (a.off + a.size ≤ b.off) || decide (b.off + b.size ≤ a.off)) && sectsApart t

/-- The header and the section rules (R210). -/
def headerOk (img : List Byte) (have_ : Nat) : Bool :=
  let len := leAt img 8 4; let n := leAt img 0x28 2; let regs := leAt img 0x18 16
  let ss := sectsOf img n
  decide (64 ≤ have_) && leAt img 0 4 == 0x4D485045 && leAt img 4 2 == 1 && decide (leAt img 6 2 < 8) && decide (64 ≤ len) && decide (len ≤ have_) &&
  len % 64 == 0 && regs != 0 && decide (regs < 2 ^ 112) && (sliceOf img 0x2A 18).all (fun b => b == 0) && decide (1 ≤ n) && decide (n ≤ 7) &&
  decide (0x40 + 16 * n ≤ len) && leAt img 0x3C 4 == crc32 (sliceOf img 0x40 (len - 0x40)) &&
  ss.all (fun s => decide (1 ≤ s.ty) && decide (s.ty ≤ 7) && s.off % 64 == 0 && decide (s.off + s.size ≤ len)) &&
  (List.range n).all (fun k => leAt img (0x42 + 16 * k) 2 == 0) && decide ((ss.map (fun s => s.ty)).Nodup) &&
  [1, 4, 7].all (fun t => ss.any (fun s => s.ty == t)) && sectsApart ss

/-- The records of a section of fixed record size; none where they run past the section. -/
def fixedRecs (img : List Byte) (ss : List Sect) (ty width : Nat) : Option (List Nat) :=
  match ss.find? (fun s => s.ty == ty) with
  | none => some []
  | some s =>
    if width * s.count ≤ s.size then
      let body := sliceOf img s.off (width * s.count)
      some ((chunksOf width s.count body).map leNat)
    else none

/-- The cluster of a record's head (R211, R214, R215). -/
def recX (v : Nat) : Nat := recBits v 0 7
def recY (v : Nat) : Nat := recBits v 8 7

/-- A 64-byte head: word 0 holds X and Y as a PLACEMENT record does, word 1 ROW, word 2 SET or N, of `bits` bits; the rest is reserved (log
entry 22). -/
def headOk (h : List Byte) (bits : Nat) : Bool :=
  recZero (leAt h 0 4) 7 1 && recZero (leAt h 0 4) 15 17 && decide (leAt h 4 4 < 4096) && decide (leAt h 8 4 < 2 ^ bits) &&
  (sliceOf h 12 52).all (fun b => b == 0)

/-- Whether an element's image row has no reserved bit set (R173, R192, R214). -/
def elemRowOk (row : List Byte) : Bool :=
  (List.range 8).all (fun k => let w := leAt row (16 * k) 16; recZero w 30 2 && recZero w 90 6) &&
  decide (rowWord row 0x80 < 256) && decide (rowWord row 0x84 < 1024) && decide (rowWord row 0x88 < 1024) && rowWord row 0x8C == 0 &&
  (List.range 8).all (fun q => decide (rowWord row (0x90 + 4 * q) < 4)) &&
  (List.range 8).all (fun k => decide (leAt row (0xB0 + 8 * k) 8 < 2 ^ 38)) &&
  [0, 1].all (fun k => rowWord row (0xF8 + 16 * k) &&& (2 ^ 32 - 1 - 0x9F) == 0) && rowWord row 0xFC == 0 &&
  (row.drop 0x10C).all (fun b => b == 0)

/-- Whether row 32 of a set image has no reserved bit set (R214). -/
def muRowOk (row : List Byte) : Bool :=
  (List.range 8).all (fun b => decide (rowWord row (4 * b) < 512)) && recZero (rowWord row 0x20) 12 19 && (row.drop 0x24).all (fun b => b == 0)

/-- The SETIMAGE records (R214). -/
def setRecs (img : List Byte) (ss : List Sect) : Option (List SetImg) :=
  match ss.find? (fun s => s.ty == 4) with
  | none => some []
  | some s =>
    let size := 64 + 33 * 512
    if size * s.count ≤ s.size then
      let recs := chunksOf size s.count (sliceOf img s.off (size * s.count))
      let one := fun (b : List Byte) =>
        let h := b.take 64
        (⟨recX (leAt h 0 4), recY (leAt h 0 4), leAt h 8 4, leAt h 4 4, chunksOf 512 33 (b.drop 64)⟩ : SetImg)
      if recs.all (fun b => headOk (b.take 64) 8) && (recs.map one).all (fun x => (x.rows.take 32).all elemRowOk && muRowOk (x.rows.getD 32 [])) then
        some (recs.map one)
      else none
    else none

/-- The CMDLIST records in `n` bytes (R128, R215). -/
def listRecs : Nat → List Byte → Option (List CmdList)
  | 0, _ => some []
  | k + 1, b =>
    let h := b.take 64
    let n := leAt h 8 4
    if b.length < 64 ∨ headOk h 13 = false ∨ b.length < 64 + 64 * n then none
    else
      let entries := chunksOf 64 n (b.drop 64)
      if entries.all (fun e => (List.range 8).all (fun w => leAt e (8 * w) 8 &&& muReserved w == 0)) then
        (listRecs k (b.drop (64 + 64 * n))).map (fun l => ⟨recX (leAt h 0 4), recY (leAt h 0 4), leAt h 4 4, entries⟩ :: l)
      else none

/-- Check 1 of R218: an image whose header, sections or reserved bits are wrong is none. -/
def parseEph (bytes : List Byte) : Option EphImg :=
  if headerOk bytes bytes.length then
    let img := bytes.take (leAt bytes 8 4)
    let ss := sectsOf img (leAt img 0x28 2)
    match fixedRecs img ss 1 8, fixedRecs img ss 2 8, fixedRecs img ss 3 16, setRecs img ss, fixedRecs img ss 6 8, fixedRecs img ss 7 16,
        (match ss.find? (fun s => s.ty == 5) with | some s => listRecs s.count (sliceOf img s.off s.size) | none => some []) with
    | some place, some layout, some inits, some sets, some mcast, some sched, some lists =>
      let rsvOk :=
        place.all (fun v => recZero v 7 1 && recZero v 15 1 && recZero v 48 16) &&
        layout.all (fun v => recZero v 7 1 && recZero v 15 1 && recZero v 41 3 && recZero v 48 16) &&
        inits.all (fun v => recZero v 46 18) && mcast.all (fun v => recZero v 7 1 && recZero v 15 1 && recZero v 23 1 && recZero v 31 1 && recZero v 40 24) &&
        sched.all (fun v => recZero v 98 30)
      if rsvOk then
        some ⟨img, leAt img 6 2, leAt img 0xC 4, leAt img 0x10 4, leAt img 0x14 4, (List.range 112).filter (fun r => (leAt img 0x18 16).testBit r),
          place, layout, inits, sets, lists, mcast, sched⟩
      else none
    | _, _, _, _, _, _, _ => none
  else none

/-- DETERM, STANDING and DIAG (R210). -/
def EphImg.determ (p : EphImg) : Bool := p.flags.testBit 0
def EphImg.standing (p : EphImg) : Bool := p.flags.testBit 1
def EphImg.diag (p : EphImg) : Bool := p.flags.testBit 2
/-- Whether the image has a loop (R210). -/
def EphImg.noLoop (p : EphImg) : Bool := p.loop == 0xFFFFFFFF

/-- The fields of a SCHEDULE entry (R217). -/
def slotOf (v : Nat) : Slot :=
  { budget := recBits v 0 28, work := v.testBit 28, newset := v.testBit 29, seed := v.testBit 30, list := v.testBit 31, reserve := recBits v 32 24,
    set := recBits v 56 8, drainAt := recBits v 64 32, gate := recBits v 96 2 == 1 }

/-- Entry (slot, j) of the schedule (R217). -/
def EphImg.entry (p : EphImg) (slot j : Nat) : Nat := p.sched.getD (slot * p.regions.length + j) 0

/-- Whether an image of a set is held for a cluster (R204, R218). -/
def EphImg.hasSet (p : EphImg) (x y set : Nat) : Bool := p.sets.any (fun i => i.x == x && i.y == y && i.set == set)

/-- The fields of an INIT record (R213). -/
def initDest (v : Nat) : Nat := recBits v 0 46
def initLen (v : Nat) : Nat := recBits v 64 32
def initSrc (v : Nat) : Nat := recBits v 96 32

/-! ## The checks (R218) -/

/-- Whether a cluster is placed (R211). -/
def EphImg.placed (p : EphImg) (x y : Nat) : Bool := p.place.any (fun v => recX v == x && recY v == y)

/-- Check 5 of R218: every placed cluster is enabled and in a region of the ephemeris, and every cluster that a section names is placed. -/
def State.badPlacement (s : State) (p : EphImg) : Bool :=
  p.place.any (fun v => !(inGrid (recX v) (recY v) && s.enabled (cidx (recX v) (recY v)) && p.regions.contains (regionOf (cidx (recX v) (recY v))))) ||
  p.layout.any (fun v => !p.placed (recX v) (recY v)) || p.sets.any (fun i => !p.placed i.x i.y) || p.lists.any (fun l => !p.placed l.x l.y) ||
  p.inits.any (fun v => initLen v != 0 && !p.placed (addrX (initDest v)) (addrY (initDest v)))

/-- Whether one schedule entry of a region breaks check 6 of R218. -/
def EphImg.badEntry (p : EphImg) (r v : Nat) : Bool :=
  let e := slotOf v
  (e.work && e.budget == 0) || ((e.seed || e.list) && !e.work) || (e.work && decide (e.budget < e.reserve)) || decide (2 ≤ recBits v 96 2) ||
  (e.newset && p.place.any (fun c => regionOf (cidx (recX c) (recY c)) == r && !p.hasSet (recX c) (recY c) e.set))

/-- Check 6 of R218. -/
def EphImg.badSched (p : EphImg) : Bool :=
  let n := p.regions.length
  decide (p.nslots < 1) || decide (4096 < p.nslots) || (!p.noLoop && decide (p.nslots ≤ p.loop)) || p.sched.length != p.nslots * n ||
  !(slotOf (p.entry 0 0)).newset ||
  (List.range p.nslots).any (fun k => (List.range n).any (fun j =>
    (slotOf (p.entry k j)).newset != (slotOf (p.entry k 0)).newset || p.badEntry (p.regions.getD j 0) (p.entry k j)))

/-- The first row, row count and kind of a LAYOUT record (R212). -/
def layFirst (v : Nat) : Nat := recBits v 16 12
def layRows (v : Nat) : Nat := recBits v 28 13
def layKind (v : Nat) : Nat := recBits v 44 4

/-- Whether rows of a cluster lie inside a declared range of a kind (R212). -/
def EphImg.inRange (p : EphImg) (x y row n kind : Nat) : Bool :=
  decide (row + n ≤ 4096) && p.layout.any (fun v =>
    recX v == x && recY v == y && layKind v == kind && decide (layFirst v ≤ row) && decide (row + n ≤ layFirst v + layRows v))

/-- Whether the declared ranges of each cluster are apart (R212). -/
def layoutApart : List Nat → Bool
  | [] => true
  | a :: t => t.all (fun b => recX a != recX b || recY a != recY b || decide (layFirst a + layRows a ≤ layFirst b) ||
      decide (layFirst b + layRows b ≤ layFirst a)) && layoutApart t

/-- Whether an INIT record's destination or source is wrong (R111, R213). -/
def EphImg.badInit (p : EphImg) (v : Nat) : Bool :=
  let d := initDest v; let n := initLen v
  let i := cidx (addrX d) (addrY d); let sp := addrSpace d
  n != 0 && (decide (spaceSize i sp < addrOff d + n) || decide (p.raw.length < initSrc v + n) || (sp == 3 && (addrOff d % 4 != 0 || n % 4 != 0)) ||
    (sp == 4 && (addrOff d != 0 || n != 16)))

/-- Check 7 of R218. A plate range must hold a header and a dense strip, which take two rows at least; the record gives no more of the plate (R212,
R243; log entry 22). -/
def EphImg.badLayout (p : EphImg) : Bool :=
  p.layout.any (fun v => decide (layRows v < 1) || decide (4096 < layRows v) || decide (4096 < layFirst v + layRows v) || decide (8 < layKind v) ||
    (layKind v == 1 && decide (layRows v < 2))) ||
  !layoutApart p.layout || p.sets.any (fun i => !p.inRange i.x i.y i.row 33 2) ||
  p.lists.any (fun l => !p.inRange l.x l.y l.row (ceilDiv l.entries.length 8) 3) || p.inits.any p.badInit

/-- The elements that a set image configures, with every EPOCH equal (R214). -/
def SetImg.elems (i : SetImg) : List Elem := (i.rows.take 32).map (fun row => Elem.reset.loadRow row 0)

/-- The enabled contexts of an element. -/
def Elem.views (x : Elem) : List View := ((List.range 8).filter (fun k => (x.rd EL_CTRL_CTX_EN).testBit k)).map (fun k => wordView (x.word k))

/-- The headers that an element's enabled SEND contexts name (R192). -/
def Elem.sendHdrs (x : Elem) : List W64 := (x.views.filter (fun v => v.op == 0x3E)).map (fun v => BitVec.ofNat 64 (x.sendHdr (v.imm % 8)))

/-- A SEND's destination (R313): module, cluster, element and queue. -/
def State.sendDest (s : State) (h : W64) : List Nat := [s.sendMod h, sendY h, sendX h, sendElem h, sendQueue h]

/-- The sources and destinations of a set's SENDs. -/
def State.setSends (s : State) (i : SetImg) : List (List Nat × List Nat) :=
  i.elems.zipIdx.flatMap (fun p => p.1.sendHdrs.map (fun h => ([i.x, i.y, p.2], s.sendDest h)))

/-- The narrow-port queues that a set's bindings name (R228). -/
def SetImg.portQueues (i : SetImg) : List Nat :=
  i.elems.flatMap (fun x => [0, 1].filterMap (fun b =>
    if x.rd (EL_OBIND_VALID.nth b) = 1 ∧ x.rd (EL_OBIND_DST_STOP.nth b) = 33 then some (x.rd (EL_OBIND_DST_QUEUE.nth b)) else none))

/-- Check 8 of R218: R174 in every element, MERGEA under DETERM, one producer for each port queue (R228) and the conditions of R313. -/
def State.badImage (s : State) (p : EphImg) : Bool :=
  let sends := p.sets.flatMap s.setSends
  p.sets.any (fun i => i.elems.any (fun x => x.armCheck != 0 || (p.determ && x.views.any (fun v => v.op == 0x32))) || !(decide i.portQueues.Nodup) ||
    decide (64 < (s.setSends i).eraseDups.length)) ||
  sends.any (fun a => sends.any (fun b => a.2 == b.2 && a.1 != b.1))

/-- Check 9 of R218: a list's size, its END and checks 1 to 4 of R129 (R215). -/
def CmdList.bad (l : CmdList) : Bool :=
  let cmd := fun (e : List Byte) => (⟨(chunksOf 8 8 e).map (fun b => BitVec.ofNat 64 (leNat b)), 0, 8, 0, 0⟩ : MuCmd)
  decide (l.entries.length < 1) || decide (4096 < l.entries.length) ||
  (match l.entries.getLast? with | some e => !(cmd e).fin | none => true) ||
  l.entries.any (fun e => let st := (cmd e).check none; decide (1 ≤ st) && decide (st ≤ 4))

/-- The enabled clusters in a rectangle (R216, R321). -/
def State.members (s : State) (x0 y0 x1 y1 : Nat) : List Nat :=
  (List.range 8960).filter (fun i => decide (x0 ≤ cx i) && decide (cx i ≤ x1) && decide (y0 ≤ cy i) && decide (cy i ≤ y1) && s.enabled i)

/-- The corners of an MCAST record. -/
def mcCorners (v : Nat) : Nat × Nat × Nat × Nat := (recBits v 0 7, recBits v 8 7, recBits v 16 7, recBits v 24 7)
/-- The members of an MCAST record's rectangle. -/
def State.mcMembers (s : State) (v : Nat) : List Nat := let c := mcCorners v; s.members c.1 c.2.1 c.2.2.1 c.2.2.2

/-- The lowest free ephemeris number (R218). -/
def State.freeEph (s : State) : Option Nat := (List.range 8).find? (fun e => (SMap.get (fun _ => none) s.dome.ephs e).isNone)

/-- The load status of a parsed image, in the order of R218 from check 2 on; in HALTED only a DIAG ephemeris loads (R353). -/
def State.loadStatus (s : State) (p : EphImg) : Nat :=
  if p.period = 0 ∨ p.period ≠ s.dome_ TCK_PERIOD_PERIOD then 2
  else if s.mstate = 2 ∨ ((s.flagged = true ∨ s.mstate = 3) ∧ p.diag = false) then 3
  else if p.regions.any (fun r => (s.region r).sched_ != 0) then 4
  else if s.badPlacement p then 5
  else if p.badSched then 6
  else if p.badLayout then 7
  else if s.badImage p then 8
  else if p.lists.any CmdList.bad then 9
  else if p.mcast.any (fun v => (s.mcMembers v).isEmpty) then 10
  else if s.freeEph = none then 11
  else 0

/-! ## The clip (R85, R219) -/

/-- The largest slot budget of the ephemeris that owns a region (R219). -/
def State.ownerBudget (s : State) (r : Nat) : Nat :=
  if (s.region r).sched_ = 0 then 0
  else
    let n := (s.region r).rd TCK_RSCHED_EPH
    match SMap.get (fun _ => none) s.dome.ephs n with
    | some e => if e.regions.contains r then e.budget else 0
    | none => 0

/-- S of a slot (R85): the sum of the 112 region budgets. -/
def State.slotSum (s : State) (p : EphImg) (k : Nat) : Nat :=
  ((List.range 112).map (fun r => if p.regions.contains r then (slotOf (p.entry k (p.regions.idxOf r))).budget else s.ownerBudget r)).sum

/-- 10,000 times E of R85, in µJ: ALM_ENVELOPE × TCK_PERIOD × 0.0064. -/
def State.envelopeE (s : State) : Nat := s.dome_ ALM_ENVELOPE_WATTS * s.dome_ TCK_PERIOD_PERIOD * 64

/-- Whether a slot is clipped (R85). -/
def State.clips (s : State) (p : EphImg) (k : Nat) : Bool := decide (s.envelopeE < s.slotSum p k * 10000)

/-- A slot's entry after the clip: floor(b × E / S) where S is above E (R85). -/
def State.clipped (s : State) (p : EphImg) (k j : Nat) : Slot :=
  let e := slotOf (p.entry k j)
  if s.clips p k then { e with budget := e.budget * s.envelopeE / (s.slotSum p k * 10000) } else e

/-! ## The effect of a load (R199, R205, R213-R218) -/

/-- Bytes copied into the deep store of cluster i, block by block. -/
def State.dsCopy (s : State) (i : Nat) : Nat → Nat → List Byte → State
  | 0, _, _ => s
  | f + 1, off, bs =>
    if bs.isEmpty then s
    else
      let lo := off % 64
      let n := min (64 - lo) bs.length
      let data := List.replicate lo 0 ++ bs.take n ++ List.replicate (64 - lo - n) 0
      let mask := (List.range 64).map (fun k => decide (lo ≤ k) && decide (k < lo + n))
      let t := if dsFull mask 0 then s.dsWriteFull i (off - lo) data false else s.dsWritePart i (off - lo) data mask 0 false []
      State.dsCopy t i f (off + n) (bs.drop n)

/-- An INIT record's bytes are copied to its destination (R213). A doorbell write that finds the FIFO of 16 full is not lost but waits for a place, as R278's waits: it
stands behind the FIFO's 16 here, and no other is accepted before it (DEDUCED, log entry 16). -/
def State.initCopy (s : State) (img : List Byte) (v : Nat) : State :=
  let d := initDest v
  let i := cidx (addrX d) (addrY d); let off := addrOff d
  let bs := sliceOf img (initSrc v) (initLen v)
  if initLen v = 0 then s
  else if addrSpace d = 0 then s.memWriteAll i 0 off bs false (bs.length + 1)
  else if addrSpace d = 1 then
    (bs.zipIdx).foldl (fun t p => t.elemWrite i (off + p.2) [p.1] [true] false) s
  else if addrSpace d = 2 then s.dsCopy i (bs.length + 1) off bs
  else if addrSpace d = 3 then
    (List.range (bs.length / 4)).foldl (fun t k => t.clusterRegWrite i (off + 4 * k) (BitVec.ofNat 32 (leAt bs (4 * k) 4))) s
  else s.modCluster i (fun c =>
    { c with tu := { c.tu with doorbell := c.tu.doorbell ++ [(BitVec.ofNat 64 (leAt bs 0 8), BitVec.ofNat 64 (leAt bs 8 8), 3)] } })

/-- An MCAST record is written into the transit engine's table of a placed cluster (R216, R321). -/
def Cluster.groupWrite (c : Cluster) (v members gen : Nat) : Cluster :=
  let q := mcCorners v; let g := recBits v 32 8
  (((((((c.wr (TE_MC_LO_X0.nth g) q.1).wr (TE_MC_LO_Y0.nth g) q.2.1).wr (TE_MC_LO_X1.nth g) q.2.2.1).wr (TE_MC_LO_Y1.nth g) q.2.2.2).wr
    (TE_MC_LO_VALID.nth g) 1).wr (TE_MC_HI_MEMBERS.nth g) members).wr (TE_MC_HI_MGEN.nth g) gen)

/-- The deterministic controls of a placed cluster (R165, R218). -/
def Cluster.setDeterm (c : Cluster) (i : Nat) : Cluster :=
  let c1 := (c.wr MU_CTRL_DETERM 1).wr CM_CTRL_DETERM 1
  if hasTu i then c1.wr TU_CTRL_DETERM 1 else c1

/-- A region takes its part of the schedule (R199, R205): LOADED, epoch 3, slot 0 due two ticks on. -/
def Region.attach (g : Region) (eph start : Nat) (sched : List Slot) (loop : Option Nat) : Region :=
  let g1 := (((g.setSched 1).wr TCK_RSCHED_EPH eph).wr TCK_RSCHED_EPOCH 3).wr TCK_RSTATUS_SLIP 0
  { g1 with start := start, sched := sched, loop := loop, slot := none, passed := 0, drainWaits := false, startDue := false }

/-- The effect of a successful load under number n. -/
def State.loadEph (s : State) (p : EphImg) (n : Nat) : State :=
  let placed := p.place.map (fun v => cidx (recX v) (recY v))
  let scheds := (List.range p.regions.length).map (fun j => (List.range p.nslots).map (fun k => s.clipped p k j))
  let eph : Eph := ⟨p.regions, placed, p.standing, p.diag, p.determ, 0, p.sets.map (fun i => (cidx i.x i.y, i.set, i.row)),
    scheds.foldl (fun m l => l.foldl (fun a x => max a x.budget) m) 0⟩
  let anyClip := (List.range p.nslots).any (fun k => s.clips p k)
  let s1 := (p.regions.zip scheds).foldl (fun t q =>
    t.modRegion q.1 (fun g => g.attach n (s.tickNum + 2) q.2 (if p.noLoop then none else some p.loop))) s
  let s2 := if anyClip then
      ((List.range 112).foldl (fun t r => t.modRegion r (fun g => g.wr ALM_STATUS_CLIPPED 1)) s1).hifEvent 2 else s1
  let s3 := s2.modDome (fun d => { d with ephs := SMap.set (fun _ => none) d.ephs n (some eph) })
  let s4 := (s3.setDome TCK_EPH_ACTIVE_ACTIVE (s3.dome_ TCK_EPH_ACTIVE_ACTIVE ||| 2 ^ n)).setDome TCK_EPH_ACTIVE_STANDING
    (if p.standing then s3.dome_ TCK_EPH_ACTIVE_STANDING ||| 2 ^ n else s3.dome_ TCK_EPH_ACTIVE_STANDING &&& (255 - 2 ^ n))
  let s5 := s4.setDome TCK_GATE_GATE (s4.dome_ TCK_GATE_GATE &&& (255 - 2 ^ n))
  let s6 := p.inits.foldl (fun t v => t.initCopy p.raw v) s5
  let s7 := p.sets.foldl (fun t i => t.memWriteAll (cidx i.x i.y) 0 (512 * i.row) i.rows.flatten false 34) s6
  let s8 := p.lists.foldl (fun t l => t.memWriteAll (cidx l.x l.y) 0 (512 * l.row) l.entries.flatten false (l.entries.length + 1)) s7
  let s9 := p.mcast.foldl (fun t v => placed.foldl (fun u i =>
    u.modCluster i (fun c => c.groupWrite v (s.mcMembers v).length (s.dome_ DOM_DMAP_GEN_GEN))) t) s8
  if p.determ then placed.foldl (fun t i => t.modCluster i (fun c => c.setDeterm i)) s9 else s9

/-- The loader (R218): the status, the number assigned, and the state; TCK_EPH_LAST shows the result (R222). -/
def State.load (s : State) (bytes : List Byte) : Nat × Option Nat × State :=
  let last := fun (t : State) (st n : Nat) => (t.setDome TCK_EPH_LAST_STATUS st).setDome TCK_EPH_LAST_EPH n
  match parseEph bytes with
  | none => (1, none, last s 1 0)
  | some p =>
    let st := s.loadStatus p
    match s.freeEph with
    | some n => if st = 0 then (0, some n, last (s.loadEph p n) 0 n) else (st, none, last s st 0)
    | none => (st, none, last s st 0)

/-- EPHEMERIS_LOAD (R218, R389-R393): the loader takes the oldest image that waits; the job completes with the status, and an ephemeris-end record may
be owed. -/
def execEphemerisLoad (s : State) : Host.Outcome State Fault Refusal :=
  match s.dome.loader with
  | [] => .next s
  | l :: rest =>
    let r := (s.modDome (fun d => { d with loader := rest })).load l.image
    let t := r.2.2
    match (t.hostQ l.queue).jobs.find? (fun j => j.serial == l.serial) with
    | none => .next t
    | some j =>
      let t1 := match r.2.1 with
        | some n =>
          let t2 := t.modHostQ l.queue (fun h => { h with lastLoad := some n })
          if l.notify = true ∧ j.mute = false ∧ (t.hostQ l.queue).rd HIF_Q_STATUS_STATE = 1 then t2.modHost (fun h => { h with owed := SMap.set (fun _ => none) h.owed n (some (l.queue, l.cid)) }) else t2
        | none => t
      .next (t1.jobDone l.queue { j with status := r.1, eph := r.2.1 } 0)

/-- CAT_STANDING's field of standing ephemeris k (R421). -/
def State.setStanding (s : State) (k st : Nat) : State :=
  let w := s.dome_ CAT_STANDING
  s.setDome CAT_STANDING (w - w / 16 ^ k % 16 * 16 ^ k + st * 16 ^ k)

/-- Whether an image names a region that a standing ephemeris holds (R220). -/
def State.heldByStanding (s : State) (bytes : List Byte) : Bool :=
  match parseEph bytes with
  | none => false
  | some p => p.regions.any (fun r => (s.region r).sched_ != 0 && (match s.ephOf r with | some e => e.standing && e.regions.contains r | none => false))

/-- STANDING_LOAD (R220): the next standing ephemeris of the catalogue is loaded; one whose regions an earlier standing one holds, or that finds no
number, waits with those after it; one that fails a check otherwise is skipped. -/
def execStandingLoad (s : State) : Host.Outcome State Fault Refusal :=
  match s.dome.standing, s.runSlot with
  | (k, off, len) :: rest, some slot =>
    if s.mstate = 0 then .next s
    else
      let r := s.load (s.norBytes slot off len)
      if (r.1 = 4 ∧ s.heldByStanding (s.norBytes slot off len) = true) ∨ r.1 = 11 then .next s
      else .next ((r.2.2.modDome (fun d => { d with standing := rest })).setStanding k r.1)
  | _, _ => .next s

end Sys2Proof.Machine
end

