-- ==== Sys2Proof/Machine/Host.lean ====
section
/-! DEFINITION. The host bridge (R370-R398): the link and its resets, accesses through BAR2, the aperture page, the job queues and their entries,
completion records and MSI-X messages. Readings that the words leave open are log entry 18. -/

namespace Sys2Proof.Machine

/-! ## The link (R370-R375, R443) -/

/-- What the bridge's configuration space reports (R370, R373): functions, class, tags and non-posted requests, the largest payload and read request, and the times
of Readiness Time Reporting, in ms. -/
structure PciCaps where
  functions : Nat
  classCode : Nat
  tags : Nat
  maxPayload : Nat
  maxReadRequest : Nat
  aspm : Bool
  pme : Bool
  resetMs : Nat
  flrMs : Nat
  deriving DecidableEq, Repr

/-- The bridge's capabilities. -/
def bridgeCaps : PciCaps := ⟨1, 0x12, 8192, 4096, 4096, false, false, 100, 100⟩


/-- LINK_RESET (R373, R375): a fundamental reset of the link; the bridge then sends a Device Readiness Status message. -/
def execLinkReset (s : State) : Host.Outcome State Fault Refusal := .next ((s.bridgeReset false).emit .ready)

/-- FLR (R373, R375): a Function Level Reset. -/
def execFlr (s : State) : Host.Outcome State Fault Refusal := .next ((s.bridgeReset true).emit .ready)

/-- LINK_TRAINING (R370): the link trains at rate code 1-7 over the widest of 16, 8 and 4 lanes; with fewer than 4 it returns to Detect, where it has neither rate nor
width (log entry 18). -/
def execLinkTraining (speed lanes : Nat) (s : State) : Host.Outcome State Fault Refusal :=
  .next (if 1 ≤ speed ∧ speed ≤ 7 ∧ 4 ≤ lanes then
    (s.setHif HIF_STATUS_SPEED speed).setHif HIF_STATUS_WIDTH (if 16 ≤ lanes then 16 else if 8 ≤ lanes then 8 else 4)
  else if lanes < 4 then (s.setHif HIF_STATUS_SPEED 0).setHif HIF_STATUS_WIDTH 0 else s)

/-- LINK_DOWN (R443): the host's cable is unplugged; the module runs on as after a reset of the link. -/
def execLinkDown (s : State) : Host.Outcome State Fault Refusal := .next (s.bridgeReset false)

/-- PTM_TRIG (R372): one dialogue latches the local time of the request and the responder's time. -/
def execPtmTrig (localNs masterNs : Nat) (s : State) : Host.Outcome State Fault Refusal :=
  let s1 := ((s.barCount.setHif HIF_PTM_LOCAL_LO_T localNs).setHif HIF_PTM_LOCAL_HI_T (localNs / 2 ^ 32)).setHif HIF_PTM_MASTER_LO_T masterNs
  .next ((s1.setHif HIF_PTM_MASTER_HI_T (masterNs / 2 ^ 32)).setHif HIF_PTM_CTRL_VALID 1)

/-! ## Accesses through BAR2, and reads that flush (R374, R377-R381, R384) -/

/-- HIF_FENCE_READ (R379): it returns zero once every earlier posted write is acknowledged. -/
def execHifFenceRead (s : State) : Host.Outcome State Fault Refusal := .next (s.bar0Reply 0x01000004 0)

/-- HIF_APR_SYNC_READ (R384): every request issued under earlier settings has completed, since each completes at its command. -/
def execHifAprSyncRead (s : State) : Host.Outcome State Fault Refusal := .next (s.bar0Reply 0x03FFF110 0)

/-- BAR2_READ (R374, R377-R379): before READY it returns all ones. -/
def execBar2Read (off len : Nat) (s : State) : Host.Outcome State Fault Refusal :=
  if len = 0 ∨ 4096 < len ∨ 2 ^ 37 < off + len then .next s
  else if s.ready = false then .next (s.barCount.emit (.hostRead true off (List.replicate len 0xFF) false))
  else
    let r : BarRead := ⟨s.host.serial, true, off, s.host.posted.map (fun p => p.id), false, (barBlocks off len).length, List.replicate len 0, 0,
      (barBlocks off len).map (fun b => s.window b.1)⟩
    .next (s.barCount.modHost (fun h => { h with serial := h.serial + 1, reads := h.reads ++ [r] })).readsDone

/-- BAR2_WRITE (R374, R377-R379, R381): one write transfer for each block; a refused block is dropped and sets HIF_ERR. -/
def execBar2Write (off : Nat) (bytes : List Byte) (s : State) : Host.Outcome State Fault Refusal :=
  let n := bytes.length
  if n = 0 ∨ 4096 < n ∨ 2 ^ 37 < off + n then .next s
  else if s.ready = false then .next s.barCount
  else
    let p := s.host.serial
    let good := (barBlocks off n).filter (fun b => (s.barTarget b.1 b.2).isSome)
    let s1 := s.barCount.modHost (fun h => { h with
      serial := h.serial + 1, posted := if good.isEmpty then h.posted else h.posted ++ [⟨p, off, good.length⟩] })
    let s2 := good.foldl (fun t b =>
      match s.barTarget b.1 b.2 with
      | some (i, a) => t.bridgePut i a 0 (8 * p + 1) 0 (sliceOf bytes (b.1 - off) b.2)
      | none => t) s1
    .next (if good.length < (barBlocks off n).length then s2.hifErr 0 off true true else s2)

/-- BAR_READ_TIMEOUT (R380): a read with no response within 80 µs completes with all ones and is LOST. -/
def execBarReadTimeout (i : Nat) (s : State) : Host.Outcome State Fault Refusal :=
  match s.host.reads[i]? with
  | none => .next s
  | some r =>
    .next (if r.bar2 = true ∧ r.issued = true then
      ((s.modHost (fun h => { h with reads := h.reads.filter (fun q => q.id != r.id) })).hifErr 2 r.off false true).emitRead { r with failed := 3 } else s)

/-- APERTURE_WRITE (R382, R398): a host write changes the page; any other is dropped. A write of 1 to LOG.VALID clears the log. -/
def execApertureWrite (off : Nat) (v : W32) (fromHost : Bool) (s : State) : Host.Outcome State Fault Refusal :=
  if fromHost = false then .next s
  else
    let clear := off == 0x100 && HIF_APR_LOG_VALID.of v == 1
    let s1 := s.barCount.modHost (fun h => { h with apr := Regs.write aprTable h.apr off false v })
    .next (if clear then
      (((s1.setApr HIF_APR_LOG_SRC 0).setApr HIF_APR_LOG_WRITE 0).setApr HIF_APR_LOG_QUEUE 0).modHost (fun h => { h with
        apr := Regs.wr aprTable (Regs.wr aprTable h.apr HIF_APR_LOG_ADDR_LO_ADDR 0) HIF_APR_LOG_ADDR_HI_ADDR 0 }) else s1)

/-! ## Queues (R385-R387) -/

/-- Entries of the submission and completion queues (R385). -/
def HostQ.sqSize (h : HostQ) : Nat := 2 ^ h.rd HIF_Q_SIZE_SQ_LOG2
def HostQ.cqSize (h : HostQ) : Nat := 2 ^ h.rd HIF_Q_SIZE_CQ_LOG2
/-- Base addresses (R397). -/
def HostQ.sqBase (h : HostQ) : Nat := h.rd HIF_Q_SQ_LO_BASE + 2 ^ 32 * h.rd HIF_Q_SQ_HI_BASE
def HostQ.cqBase (h : HostQ) : Nat := h.rd HIF_Q_CQ_LO_BASE + 2 ^ 32 * h.rd HIF_Q_CQ_HI_BASE
/-- STATE (R387). -/
def HostQ.state (h : HostQ) : Nat := h.rd HIF_Q_STATUS_STATE

/-- The queue enters ERR with a code (R387): entries not started and records due are gone, and those in progress write no record. -/
def HostQ.err (h : HostQ) (code : Nat) : HostQ :=
  { (h.wr HIF_Q_STATUS_STATE 3).wr HIF_Q_STATUS_ERR code with entries := [], due := [], jobs := h.jobs.map (fun j => { j with mute := true }) }

/-- The next entries are fetched while the queue runs, up to the tail (R383, R386, R387); nothing is fetched before READY or in D3hot (R371, R374). -/
def State.fetch (q : Nat) : Nat → State → State
  | 0, s => s
  | f + 1, s =>
    let h := s.hostQ q
    let idx := (h.rd HIF_Q_STATUS_SQ_HEAD + h.entries.length) % h.sqSize
    if s.ready = false ∨ s.host.d3hot = true ∨ h.state ≠ 1 ∨ idx = h.sqTail then s
    else match s.dmaRead 0 q (h.sqBase + 64 * idx) 64 with
      | (none, t) => t.modHostQ q (fun k => k.err 2)
      | (some bs, t) =>
        State.fetch q f (t.modHostQ q (fun k => { k with entries := k.entries ++ [(chunksOf 8 8 bs).map (fun b => BitVec.ofNat 64 (leNat b))] }))

/-- Every queue that runs fetches what its host offers. -/
def State.fetchAll (s : State) : State := (s.host.queues.map (fun p => p.1)).foldl (fun t q => State.fetch q 65536 t) s

/-- SQ_TAIL_DOORBELL (R386): a value at or above the size is a bad doorbell, code 1. -/
def execSqTailDoorbell (q : QueueId) (v : W32) (s : State) : Host.Outcome State Fault Refusal :=
  let s0 := s.barCount
  let h := s.hostQ q.val
  let t := v.toNat % 65536
  if h.state ≠ 1 then .next s0
  else if h.sqSize ≤ t then .next (s0.modHostQ q.val (fun k => k.err 1))
  else .next (State.fetch q.val 65536 (s0.modHostQ q.val (fun k => { k with sqTail := t })))

/-- CQ_HEAD_DOORBELL (R386). -/
def execCqHeadDoorbell (q : QueueId) (v : W32) (s : State) : Host.Outcome State Fault Refusal :=
  let s0 := s.barCount
  let h := s.hostQ q.val
  let t := v.toNat % 65536
  if h.state = 1 ∨ h.state = 2 then
    if h.cqSize ≤ t then .next (if h.state = 1 then s0.modHostQ q.val (fun k => k.err 1) else s0)
    else .next (s0.modHostQ q.val (fun k => { k with cqHead := t }))
  else .next s0

/-- FETCH_ERROR_COMPLETION (R387): the host answers a fetch with an error; code 4. -/
def execFetchErrorCompletion (q : QueueId) (s : State) : Host.Outcome State Fault Refusal :=
  .next (if (s.hostQ q.val).state = 1 then s.modHostQ q.val (fun k => k.err 4) else s)

/-- QUEUE_ENABLE (R385, R387): OFF starts with both indices at 0 and phase 1, or enters ERR with code 3. -/
def execQueueEnable (q : QueueId) (s : State) : Host.Outcome State Fault Refusal :=
  let h := s.hostQ q.val
  let log2ok := fun (n : Nat) => decide (4 ≤ n) && decide (n ≤ 16)
  if h.state ≠ 0 then .next s.barCount
  else
    let h1 := h.wr HIF_Q_CTRL_EN 1
    if log2ok (h.rd HIF_Q_SIZE_SQ_LOG2) = true ∧ log2ok (h.rd HIF_Q_SIZE_CQ_LOG2) = true ∧ h.sqBase % 4096 = 0 ∧ h.cqBase % 4096 = 0 then
      let h2 := (((h1.wr HIF_Q_STATUS_STATE 1).wr HIF_Q_STATUS_SQ_HEAD 0).wr HIF_Q_CQ_TAIL_TAIL 0).wr HIF_Q_CQ_TAIL_PHASE 1
      .next (s.barCount.setHostQ q.val { h2 with sqTail := 0, cqHead := 0, entries := [], due := [], lastLoad := none })
    else .next (s.barCount.setHostQ q.val (h1.err 3))

/-- The ephemeris-end records owed to a queue are discarded (R387). -/
def Bridge.disown (h : Bridge) (q : Nat) : Bridge :=
  { h with owed := h.owed.map (fun p => (p.1, p.2.filter (fun o => o.1 != q))) |>.filter (fun p => p.2.isSome) }

/-- QUEUE_DISABLE (R387): RUN stops starting entries; ERR becomes OFF. -/
def execQueueDisable (q : QueueId) (s : State) : Host.Outcome State Fault Refusal :=
  let h := (s.hostQ q.val).wr HIF_Q_CTRL_EN 0
  let s1 := s.barCount.modHost (fun k => k.disown q.val)
  if h.state = 1 then .next (s1.setHostQ q.val { h.wr HIF_Q_STATUS_STATE 2 with entries := [] })
  else if h.state = 3 then .next (s1.setHostQ q.val (h.wr HIF_Q_STATUS_STATE 0))
  else .next s.barCount

/-- QUEUE_STOPPED (R387): the started entries have completed and their records are written. -/
def execQueueStopped (q : QueueId) (s : State) : Host.Outcome State Fault Refusal :=
  let h := s.hostQ q.val
  .next (if h.state = 2 ∧ h.jobs = [] ∧ h.due = [] then s.setHostQ q.val (h.wr HIF_Q_STATUS_STATE 0) else s)

/-! ## Entries (R388-R391) -/

/-- The fields of an entry (R388). -/
def entOpc (w : List W64) : Nat := bitsOf (w.getD 0 0) 0 8
def entFence (w : List W64) : Bool := bitOf (w.getD 0 0) 8
def entIrq (w : List W64) : Bool := bitOf (w.getD 0 0) 9
def entNotify (w : List W64) : Bool := bitOf (w.getD 0 0) 10
def entRel (w : List W64) : Bool := bitOf (w.getD 0 0) 11
def entValue (w : List W64) : Nat := bitsOf (w.getD 0 0) 12 1
def entEph (w : List W64) : Nat := bitsOf (w.getD 0 0) 13 3
def entCid (w : List W64) : Nat := bitsOf (w.getD 0 0) 16 16
def entHost (w : List W64) : Nat := bitsOf (w.getD 1 0) 0 64
def entMaddr (w : List W64) : Nat := bitsOf (w.getD 2 0) 0 46
def entLength (w : List W64) : Nat := bitsOf (w.getD 3 0) 0 32

/-- A malformed entry (R389 check 1). -/
def HostQ.badEntry (h : HostQ) (w : List W64) : Bool :=
  decide (5 < entOpc w) || bitsOf (w.getD 0 0) 32 32 != 0 || bitsOf (w.getD 2 0) 46 18 != 0 || bitsOf (w.getD 3 0) 32 32 != 0 ||
  (w.drop 4).any (fun x => x != 0) || (entNotify w && entOpc w != 1) || (entRel w && h.lastLoad.isNone)

/-- Completion records that are spoken for (R390, R393): records due, one for each entry in progress, and those owed for an ephemeris's end. -/
def State.cqReserved (s : State) (q : Nat) : Nat :=
  let h := s.hostQ q
  h.due.length + ((h.jobs.filter (fun j => !j.mute)).map (fun j => if j.notify && j.opc == 1 then 2 else 1)).sum +
  (s.host.owed.filter (fun p => match p.2 with | some o => o.1 == q | none => false)).length

/-- Completion records between the CQ tail and CQ_HEAD that are free (R390). -/
def State.cqFree (s : State) (q : Nat) : Nat :=
  let h := s.hostQ q
  (h.cqHead + h.cqSize - h.rd HIF_Q_CQ_TAIL_TAIL - 1) % h.cqSize - s.cqReserved q

/-- The front entry of a queue, where it may start (R374, R387, R388, R390): two records must be free for a LOAD with NOTIFY, and one that needs DMA waits while in
D3hot (R371). -/
def State.startable (s : State) (q : Nat) : Option (List W64) :=
  let h := s.hostQ q
  match h.entries with
  | [] => none
  | w :: _ =>
    if s.ready = true ∧ h.state = 1 ∧ h.jobs.length < 16 ∧ (entFence w = false ∨ h.jobs = []) ∧
        (if entNotify w && entOpc w == 1 then 2 else 1) ≤ s.cqFree q ∧ (s.host.d3hot = false ∨ entOpc w = 0 ∨ 4 ≤ entOpc w) then some w
    else none

/-- Whether it is queue q's turn (R390): no queue before it, from the one to be served next on, has an entry that may start. -/
def State.turnOf (s : State) (q : Nat) : Bool :=
  let ahead (k : Nat) : Nat := (k + 256 - s.host.nextQ) % 256
  s.host.queues.all (fun p => decide (ahead q ≤ ahead p.1) || (s.startable p.1).isNone)

/-- The status of the checks of R389, in order, with the check of the host range logged where it fails (R383). -/
def State.entryCheck (s : State) (q : Nat) (w : List W64) : Nat × State :=
  let opc := entOpc w
  let moves := opc == 1 || opc == 2 || opc == 3
  if (s.hostQ q).badEntry w then (18, s)
  else if moves = true ∧ entLength w = 0 then (16, s)
  else if moves = true ∧ s.aprAllows (entHost w) (entLength w) (opc == 3) = false then (17, s.aprBlock (if opc = 1 then 3 else 2) q (entHost w) (opc == 3))
  else if (opc = 2 ∨ opc = 3) ∧ ¬ ((addrSpace (entMaddr w) = 0 ∨ addrSpace (entMaddr w) = 2) ∧ s.addrOk (entMaddr w) (entLength w) = true) then (19, s)
  else (0, s)

/-- An entry starts: it leaves the queue, the SQ head moves past it, and it is in progress with the next serial number (R386, R390). -/
def State.startJob (s : State) (q : Nat) (w : List W64) : Job × State :=
  let h := s.hostQ q
  let j : Job := ⟨s.host.serial, entCid w, entOpc w, entIrq w, entNotify w, none, 0, 0, 0, entHost w, entMaddr w, entLength w, 0, false⟩
  let h1 := h.wr HIF_Q_STATUS_SQ_HEAD ((h.rd HIF_Q_STATUS_SQ_HEAD + 1) % h.sqSize)
  (j, (s.setHostQ q { h1 with entries := h.entries.drop 1, jobs := h.jobs ++ [j] }).modHost (fun k => { k with serial := k.serial + 1, nextQ := (q + 1) % 256 }))

/-- An entry of one of the operations that a command names starts, in the queue's turn, and is checked (R389, R390); `run` is what it then does. -/
def State.serveEntry (s : State) (q : Nat) (ops : Nat → Bool) (run : State → List W64 → Job → State) : State :=
  match s.startable q with
  | none => s
  | some w =>
    if ops (entOpc w) = false ∨ s.turnOf q = false then s
    else
      let p := s.startJob q w
      let c := p.2.entryCheck q w
      if c.1 = 0 then run c.2 w p.1 else c.2.jobDone q { p.1 with status := c.1 } 0

/-- SQ_NOP (R388, R389): a NOP completes; an entry with a reserved OPC fails. -/
def execSqNop (q : QueueId) (s : State) : Host.Outcome State Fault Refusal :=
  .next (s.serveEntry q.val (fun o => o == 0 || decide (5 < o)) (fun t _ j => t.jobDone q.val j 0))

/-- LOAD (R389, R390): the image is read through the aperture and passed to the loader. -/
def execLoadJob (q : QueueId) (s : State) : Host.Outcome State Fault Refusal :=
  .next (s.serveEntry q.val (fun o => o == 1) (fun t w j =>
    match t.dmaRead 3 q.val (entHost w) (entLength w) with
    | (some bs, u) => u.modDome (fun d => { d with loader := d.loader ++ [⟨bs, q.val, j.serial, j.cid, j.notify⟩] })
    | (none, u) => u.jobDone q.val { j with status := 17 } 0))

/-- COPY_IN (R391). -/
def execCopyIn (q : QueueId) (s : State) : Host.Outcome State Fault Refusal :=
  .next (s.serveEntry q.val (fun o => o == 2) (fun t _ j => State.copyStep q.val j.serial (copyFuel j) t))

/-- COPY_OUT (R391). -/
def execCopyOut (q : QueueId) (s : State) : Host.Outcome State Fault Refusal :=
  .next (s.serveEntry q.val (fun o => o == 3) (fun t _ j => State.copyStep q.val j.serial (copyFuel j) t))

/-- The ephemeris that a GATE or FORCE names (R388). -/
def State.entryEph (s : State) (q : Nat) (w : List W64) : Nat :=
  if entRel w then (match (s.hostQ q).lastLoad with | some e => e | none => 0) else entEph w

/-- Bit e of a word replaced by v. -/
def setBitTo (w e v : Nat) : Nat := w - w / 2 ^ e % 2 * 2 ^ e + v * 2 ^ e

/-- GATE (R207, R390): TCK_GATE bit EPH takes VALUE. -/
def execGateJob (q : QueueId) (s : State) : Host.Outcome State Fault Refusal :=
  .next (s.serveEntry q.val (fun o => o == 4) (fun t w j =>
    let e := t.entryEph q.val w
    (t.setDome TCK_GATE_GATE (setBitTo (t.dome_ TCK_GATE_GATE) e (entValue w))).jobDone q.val { j with eph := some e } 0))

/-- FORCE (R222, R390): every region of the ephemeris is forced. -/
def execForceJob (q : QueueId) (s : State) : Host.Outcome State Fault Refusal :=
  .next (s.serveEntry q.val (fun o => o == 5) (fun t w j =>
    let e := t.entryEph q.val w
    ((t.forceEph e).ephSweep).jobDone q.val { j with eph := some e } 0))

/-! ## Records and messages (R392-R395) -/

/-- The bytes of a completion record (R392). -/
def State.recordBytes (s : State) (h : HostQ) (c : CqRec) : List Byte :=
  let w0 := c.cid % 65536 + c.status % 256 * 2 ^ 16 + (match c.eph with | some e => e % 8 * 2 ^ 24 + 2 ^ 27 | none => 0) + c.kind % 8 * 2 ^ 28
  leBytes 4 w0 ++ leBytes 4 c.value ++ leBytes 4 (h.rd HIF_Q_STATUS_SQ_HEAD) ++
  leBytes 4 (s.tickNum % 2 ^ 31 + h.rd HIF_Q_CQ_TAIL_PHASE * 2 ^ 31)

/-- CQ_RECORD_WRITE (R383, R387, R392, R394): the oldest record due is written and the tail moves on; a blocked write is ERR, code 2. -/
def execCqRecordWrite (q : QueueId) (s : State) : Host.Outcome State Fault Refusal :=
  let h := s.hostQ q.val
  match h.due with
  | [] => .next s
  | c :: rest =>
    if s.host.d3hot = true ∨ (h.state ≠ 1 ∧ h.state ≠ 2) then .next s
    else
      let tail := h.rd HIF_Q_CQ_TAIL_TAIL
      match s.dmaWrite 1 q.val (h.cqBase + 16 * tail) (s.recordBytes h c) with
      | (false, t) => .next (t.modHostQ q.val (fun k => k.err 2))
      | (true, t) =>
        let wrap := tail + 1 == h.cqSize
        let t1 := t.modHostQ q.val (fun k => { (k.wr HIF_Q_CQ_TAIL_TAIL (if wrap then 0 else tail + 1)).wr HIF_Q_CQ_TAIL_PHASE
          (if wrap then 1 - h.rd HIF_Q_CQ_TAIL_PHASE else h.rd HIF_Q_CQ_TAIL_PHASE) with due := rest })
        .next (if c.irq = true ∨ c.status ≠ 0 ∨ c.kind = 1 then t1.cause q.val else t1)

/-- What a word of the MSI-X table reads as at reset: the mask bit of each entry is set, as PCI Express gives it (log entry 18). -/
def msixReset (k : Nat) : W32 := if k % 4 = 3 then 1 else 0

/-- Word k of the MSI-X table (R376). -/
def State.msixWord (s : State) (k : Nat) : W32 := SMap.get msixReset s.host.msix k

/-- The interval of a vector in µs; 0 acts as 1 (R395). -/
def State.interval (s : State) (v : Nat) : Nat := max 1 (if v < 256 then (s.hostQ v).rd HIF_Q_ITR_US else s.hif (HIF_EVT_ITR_US.nth (v - 256)))

/-- Whether a vector is masked: in the MSI-X table or by the function mask (R395). -/
def State.vectorMasked (s : State) (v : Nat) : Bool := s.host.fmask || bitOf (s.msixWord (4 * v + 3)) 0

/-- MSIX_SEND (R371, R394, R395): a vector with a cause not yet signalled, unmasked and past its interval, sends one message; `elapsedUs` is the time
since its last one. -/
def execMsixSend (vector : Fin 512) (elapsedUs : Nat) (s : State) : Host.Outcome State Fault Refusal :=
  let v := vector.val
  if s.host.causes.contains v = true ∧ s.vectorMasked v = false ∧ s.host.d3hot = false ∧ s.interval v ≤ elapsedUs then
    .next ((s.modHost (fun h => { h with causes := NSet.del h.causes v })).emit
      (.msix v ((s.msixWord (4 * v)).toNat + 2 ^ 32 * (s.msixWord (4 * v + 1)).toNat) (s.msixWord (4 * v + 2)).toNat))
  else .next s

/-! ## Device power (R371) -/

/-- D3HOT_ENTRY (R371): no DMA and no MSI-X from now on; the queues keep their state. -/
def execD3hotEntry (s : State) : Host.Outcome State Fault Refusal := .next (s.modHost (fun h => { h with d3hot := true }))

/-- D0_ENTRY (R371): fetches and copies go on, and records that are due may be written. -/
def execD0Entry (s : State) : Host.Outcome State Fault Refusal :=
  let s1 := (s.modHost (fun h => { h with d3hot := false })).fetchAll
  .next ((s1.host.queues.flatMap (fun p => p.2.jobs.map (fun j => (p.1, j)))).foldl (fun t p =>
    if p.2.opc = 2 ∨ p.2.opc = 3 then State.copyStep p.1 p.2.serial (copyFuel p.2) t else t) s1)

end Sys2Proof.Machine
end

