-- ==== Sys2Proof/Machine/Verify.lean ====
section
/-! DEFINITION. The defect map's bytes (R25-R30) and the verifier's checks of a catalogue slot (R401-R404). Readings that the words leave open are log
entry 23. -/

namespace Sys2Proof.Machine

/-! ## The defect map (R25-R30) -/

/-- Word w of cluster i's record (R28). -/
def DefRec.word (d : DefRec) (i w : Nat) : Nat :=
  if w = 0 then
    d.cstat + 4 * bit1 d.router + 8 * bit1 (hasTu i) + 16 * bit1 (isEdge i) + 2 ^ 8 * d.remaps.length + 2 ^ 16 * d.cause
  else if 2 ≤ w ∧ w ≤ 5 then d.remaps.getD (2 * (w - 2)) 0 + 2 ^ 16 * d.remaps.getD (2 * (w - 2) + 1) 0
  else 0

/-- The record that eight words spell: CSTAT, ROUTER, CAUSE and the valid entries. -/
def recOfWords (ws : List Nat) : DefRec :=
  let w0 := ws.getD 0 0
  let entries := (sliceOf ws 2 4).flatMap (fun w => [w % 2 ^ 16, w / 2 ^ 16])
  ⟨w0 % 4, w0.testBit 2, w0 / 2 ^ 16 % 2 ^ 8, entries.filter (fun e => e.testBit 15)⟩

/-- The fields of a remap entry (R29): its store wafer, whether it takes spare 37, and its sub-array. -/
def remapWafer (e : Nat) : Nat := e / 2 ^ 13 % 4
def remapSpare (e : Nat) : Nat := e / 2 ^ 12 % 2
def remapSub (e : Nat) : Nat := e % 64

/-- No item stands twice in a list. -/
def noRepeat {α : Type} [DecidableEq α] : List α → Bool
  | [] => true
  | a :: t => !t.contains a && noRepeat t

/-- Whether a record is well formed as a catalogue copy (R30): what it says is what its words spell, so that TU, EDGE, NREMAP, the packing of entries and
every reserved bit are as they must be. -/
def recordOk (i : Nat) (ws : List Nat) : Bool :=
  let d := recOfWords ws
  (List.range 8).map (fun w => d.word i w) == ws && decide (d.cstat ≤ 1) && (!d.router || d.cstat != 0) &&
    d.remaps.all (fun e => decide (remapSub e ≤ 35) && e / 2 ^ 6 % 2 ^ 6 == 0) &&
    noRepeat (d.remaps.map (fun e => (remapWafer e, remapSub e))) && noRepeat (d.remaps.map (fun e => (remapWafer e, remapSpare e)))

/-- How many clusters of a list a test picks in a map. -/
def countRecs (m : SMap DefRec) (cs : List Nat) (f : Nat → DefRec → Bool) : Nat :=
  (cs.filter (fun i => f i (SMap.get (fun _ => DefRec.reset) m i))).length

/-- The summary word of region r (R27). -/
def mapSummary (m : SMap DefRec) (r : Nat) : Nat :=
  let n := countRecs m (clustersOf r)
  n (fun _ d => d.cstat == 0) + 2 ^ 8 * n (fun _ d => d.router) + 2 ^ 16 * n (fun i d => d.cstat == 0 && hasTu i) +
    2 ^ 20 * n (fun _ d => d.cstat == 2)

/-- The bytes of the map from 0x40 to its end (R25). -/
def mapBody (m : SMap DefRec) : List Byte :=
  ((List.range 112).flatMap (fun r => leBytes 4 (mapSummary m r))) ++
  (List.range 8960).flatMap (fun i => (List.range 8).flatMap (fun w => leBytes 4 ((SMap.get (fun _ => DefRec.reset) m i).word i w)))

/-- Header word w (R26). -/
def mapHeader (m : SMap DefRec) (w : Nat) : Nat :=
  let n := countRecs m (List.range 8960)
  if w = 0 then 1
  else if w = 1 then 80 + 2 ^ 8 * 112 + 2 ^ 16 * 112
  else if w = 2 then n (fun _ d => d.cstat == 0)
  else if w = 3 then n (fun i d => d.cstat == 0 && hasTu i)
  else if w = 4 then n (fun _ d => d.router)
  else if w = 5 then (m.map (fun p => p.2.remaps.length)).sum
  else if w = 6 then n (fun _ d => d.cstat == 2)
  else if w = 7 then crc32 (mapBody m)
  else 0

/-- The bytes of the whole map (R25). -/
def mapBytes (m : SMap DefRec) : List Byte := (List.range 16).flatMap (fun w => leBytes 4 (mapHeader m w)) ++ mapBody m

/-- The words of record i of a map that begins at an offset of a slot's device. -/
def State.recWords (s : State) (slot base i : Nat) : List Nat :=
  (List.range 8).map (fun w => s.norLe slot (base + 0x200 + 32 * i + 4 * w) 4)

/-- The map at an offset of a slot's device. -/
def State.mapAt (s : State) (slot base : Nat) : SMap DefRec :=
  (List.range 8960).foldl (fun m i => SMap.set (fun _ => DefRec.reset) m i (recOfWords (s.recWords slot base i))) []

/-- A DEFECT_MAP section passes R30: every record well formed, and header and summary as the records make them. -/
def State.mapOk (s : State) (slot base : Nat) : Bool :=
  let m := s.mapAt slot base
  (List.range 8960).all (fun i => recordOk i (s.recWords slot base i)) &&
    (List.range 112).all (fun r => s.norLe slot (base + 0x40 + 4 * r) 4 == mapSummary m r) &&
    (List.range 16).all (fun w => s.norLe slot (base + 4 * w) 4 == mapHeader m w)

/-! ## The catalogue's fields (R401, R402) -/

/-- Whether MAGIC is present (R401). -/
def State.catPresent (s : State) (slot : Nat) : Bool := s.norLe slot 0 4 == 0x4B415443
/-- SVN, GEN, LENGTH, NSECT, SIG_OFFSET and DIR_END (R401, R402). -/
def State.catSvn (s : State) (slot : Nat) : Nat := s.norLe slot 7 1
def State.catGen (s : State) (slot : Nat) : Nat := s.norLe slot 8 4
def State.catLength (s : State) (slot : Nat) : Nat := s.norLe slot 0xC 4
def State.catNsect (s : State) (slot : Nat) : Nat := s.norLe slot 0x10 2
def State.catSig (s : State) (slot : Nat) : Nat := s.norLe slot 0x14 4
def State.catDirEnd (s : State) (slot : Nat) : Nat := 0x200 + 64 * s.catNsect slot

/-- Where a section begins, and its size; zero where there is none. -/
def State.sectOff (s : State) (slot ty : Nat) : Nat := match s.catSection slot ty with | some p => p.1 | none => 0
def State.sectSize (s : State) (slot ty : Nat) : Nat := match s.catSection slot ty with | some p => p.2 | none => 0

/-- The envelope and the fabric identity of a catalogue (R402). -/
def State.catEnvelope (s : State) (slot : Nat) : Nat := s.norLe slot (s.sectOff slot 7) 4
def State.catFid (s : State) (slot : Nat) : Nat := s.norLe slot (s.sectOff slot 8) 8

/-- Whether two directory entries lie apart (R402). -/
def entriesApart (a b : Nat × Nat × Nat) : Bool := decide (a.2.1 + a.2.2 ≤ b.2.1) || decide (b.2.1 + b.2.2 ≤ a.2.1)

/-- No two directory entries overlap. -/
def dirApart : List (Nat × Nat × Nat) → Bool
  | [] => true
  | d :: t => t.all (entriesApart d) && dirApart t

/-- The directory rules (R402). -/
def State.dirOk (s : State) (slot : Nat) : Bool :=
  let d := s.catDir slot
  d.all (fun e => decide (1 ≤ e.1) && decide (e.1 ≤ 9) && e.2.1 % 64 == 0 && decide (s.catDirEnd slot ≤ e.2.1) &&
      decide (e.2.1 + e.2.2 ≤ s.catSig slot)) &&
    (List.range d.length).all (fun k => s.norLe slot (0x202 + 64 * k) 2 == 0 && s.norLe slot (0x20C + 64 * k) 4 == 0) &&
    noRepeat (d.map (fun e => e.1)) && dirApart d

/-- FORMAT, GEN, LENGTH, NSECT, SIG_OFFSET, the reserved fields and the directory (R404 check 2). -/
def State.formatOk (s : State) (slot : Nat) : Bool :=
  s.norLe slot 4 2 == 1 && decide (1 ≤ s.catGen slot) && decide (s.catGen slot ≤ 0xFFFFFFFE) &&
    s.catLength slot % 4096 == 0 && decide (s.catLength slot ≤ 0x3FC00000) && (s.catNsect slot == 8 || s.catNsect slot == 9) &&
    s.catSig slot % 64 == 0 && s.norLe slot 0x12 2 == 0 && s.norLe slot 0x19 7 == 0 && s.norLe slot 0xFC 260 == 0 && s.dirOk slot

/-- "SKA-8960-L4" in ASCII, zero-padded (R401). -/
def orderBytes : List Byte := [0x53, 0x4B, 0x41, 0x2D, 0x38, 0x39, 0x36, 0x30, 0x2D, 0x4C, 0x34, 0, 0, 0, 0, 0]

/-- ORDER, STEPPING and DEVICE_ID are the module's (R404 check 3). -/
def State.partOk (s : State) (slot : Nat) : Bool :=
  s.norBytes slot 0x20 16 == orderBytes && s.norLe slot 0x18 1 == 0xB0 && s.norBytes slot 0x30 48 == deviceId

/-- The public keys of a catalogue: ECDSA, then HSS (R401). -/
def State.catEcdsa (s : State) (slot : Nat) : List Byte := s.norBytes slot 0x60 96
def State.catHss (s : State) (slot : Nat) : List Byte := s.norBytes slot 0xC0 60
/-- The signed message (R403). -/
def State.catMessage (s : State) (slot : Nat) : List Byte := s.norBytes slot 0 (s.catDirEnd slot)

/-- The keys are those of ROM slot KEY_IDX (R404 check 4). -/
def State.keyOk (s : State) (slot : Nat) : Bool :=
  let k := s.norLe slot 6 1
  decide (k ≤ 3) && Config.sha384 (s.catEcdsa slot ++ s.catHss slot) == Config.romKey k

/-- The HSS signature verifies, its parameters meet R403, and its block ends at or before LENGTH (R403, R404 check 6). -/
def State.hssSigOk (s : State) (slot : Nat) : Bool :=
  let o := s.catSig slot
  let n := s.norLe slot (o + 96) 4
  decide (o + 100 + n ≤ s.catLength slot) && hssVerify (s.catHss slot) (s.catMessage slot) (s.norBytes slot (o + 100) n)

/-- Every section has the hash of its directory entry (R404 check 8). -/
def State.hashOk (s : State) (slot : Nat) : Bool :=
  (s.catDir slot).zipIdx.all (fun p => Config.sha384 (s.norBytes slot p.1.2.1 p.1.2.2) == s.norBytes slot (0x210 + 64 * p.2) 48)

/-! ## The rules of the sections (R402) -/

/-- COEFFS: every coefficient below 2²⁴, and T1 < T2 < T3. -/
def State.coeffsOk (s : State) (slot : Nat) : Bool :=
  let o := s.sectOff slot 5
  s.sectSize slot 5 == 112 * 512 && (List.range 112).all (fun r =>
    (List.range 64).all (fun k => decide (s.norLe slot (o + 512 * r + 4 * k) 4 < 2 ^ 24)) &&
      (let t := BitVec.ofNat 32 (s.norLe slot (o + 512 * r + 256) 4)
       decide (ALM_BAND_THR_T1.of t < ALM_BAND_THR_T2.of t) && decide (ALM_BAND_THR_T2.of t < ALM_BAND_THR_T3.of t)))

/-- A word of region r's record in CLOCK_PLAN: 0 DRV_FREQ, 1 DRV_SRC, 2 TRC_SRC, 3 DRV_SEE_CTRL, 4 TRC_SEE_CTRL, 5 THM_CTRL, 6 PWR_ILIM. -/
def State.planWord (s : State) (slot r w : Nat) : W32 := BitVec.ofNat 32 (s.norLe slot (s.sectOff slot 6 + 64 + 32 * r + 4 * w) 4)

/-- CLOCK_PLAN: its values meet R49, R63, R69 and R99. -/
def State.planOk (s : State) (slot : Nat) : Bool :=
  let o := s.sectOff slot 6
  let period := s.norLe slot o 4
  let ctrl := BitVec.ofNat 32 (s.norLe slot (o + 4) 4)
  s.sectSize slot 6 == 64 + 112 * 32 && decide (1250 ≤ period) && decide (period ≤ 2500000) && TCK_CTRL_MASTER_SRC.of ctrl != 3 &&
    TCK_CTRL_SLIP_LIMIT.of ctrl != 0 &&
    (List.range 112).all (fun r =>
      let f := s.planWord slot r 0; let t := s.planWord slot r 5
      freqValid (s.norBytes slot (s.sectOff slot 3 + 256 * r) 256) (DRV_FREQ_MULT.of f) (DRV_FREQ_POSTDIV.of f) (DRV_FREQ_VCODE.of f) &&
        decide (THM_CTRL_WARN.of t ≤ 95) && decide (THM_CTRL_PARK.of t ≤ 105))

/-- A word of FABRIC at byte b. -/
def State.fabWord (s : State) (slot b : Nat) : W32 := BitVec.ofNat 32 (s.norLe slot (s.sectOff slot 8 + b) 4)

/-- FABRIC: the identity is neither 0 nor all ones, and the values meet R350. -/
def State.fabricOk (s : State) (slot : Nat) : Bool :=
  let cfg := s.fabWord slot 8
  let dim := fun (n : Nat) => decide (2 ≤ n) && decide (n ≤ 64)
  s.sectSize slot 8 == 64 && s.catFid slot != 0 && s.catFid slot != 2 ^ 64 - 1 && decide (FND_CFG_TOPO.of cfg ≤ 3) &&
    (FND_CFG_TOPO.of cfg != 3 || (dim (FND_CFG_DIMX.of cfg) && dim (FND_CFG_DIMY.of cfg))) &&
    decide (5 ≤ (s.fabWord slot 48).toNat) && decide ((s.fabWord slot 48).toNat ≤ 255)

/-- STANDING: COUNT is 0-8, with its eight pairs. -/
def State.standingOk (s : State) (slot : Nat) : Bool :=
  match s.catSection slot 9 with
  | none => true
  | some p => decide (68 ≤ p.2) && decide (s.norLe slot p.1 4 ≤ 8)

/-- The required sections are there, and every section keeps its rule (R404 check 9). -/
def State.contentOk (s : State) (slot : Nat) : Bool :=
  (List.range 8).all (fun k => (s.catSection slot (k + 1)).isSome) && s.sectSize slot 3 == 112 * 256 &&
    s.sectSize slot 4 == 287232 && s.mapOk slot (s.sectOff slot 4) && s.coeffsOk slot && s.planOk slot &&
    s.sectSize slot 7 == 4 && decide (1000 ≤ s.catEnvelope slot) && decide (s.catEnvelope slot ≤ 60000) && s.fabricOk slot && s.standingOk slot

/-- The envelope and the identity may still change, or are the bound ones (R404 check 10). -/
def State.limitOk (s : State) (slot : Nat) : Bool :=
  let c := s.dome.ctr
  (s.catEnvelope slot == c.bound || c.changes != 32) && (s.catFid slot == c.fidBound || c.rebinds != 8)

/-- The verifier's result for a slot (R404): the code of the first check that fails, 0 when every check passes. -/
def State.verify (s : State) (slot : Nat) : Nat :=
  if s.catPresent slot = false then 1
  else if s.formatOk slot = false then 2
  else if s.partOk slot = false then 3
  else if s.keyOk slot = false then 4
  else if Config.ecdsaOk (s.catEcdsa slot) (s.catMessage slot) (s.norBytes slot (s.catSig slot) 96) = false then 5
  else if s.hssSigOk slot = false then 6
  else if s.catSvn slot < s.dome.ctr.svn then 7
  else if s.hashOk slot = false then 8
  else if s.contentOk slot = false then 9
  else if s.limitOk slot = false then 10
  else 0

/-! ## The boot record (R400, R405) -/

/-- A slot of the boot record. -/
def State.slot (s : State) (k : Nat) : CatSlot := if k = 0 then s.dome.slotA else s.dome.slotB

/-- A slot is replaced, and the boot record is written with the next sequence number, to the two devices alternately (R400). -/
def State.setSlot (s : State) (k : Nat) (c : CatSlot) : State :=
  s.modDome (fun d =>
    let b : BootRec := ⟨(d.bootSeq + 1) % 2 ^ 32, if k = 0 then c else d.slotA, if k = 0 then d.slotB else c⟩
    { d with
      slotA := b.slotA, slotB := b.slotB, bootSeq := b.seq
      nor0 := if b.seq % 2 = 0 then norPut d.nor0 norBoot b.bytes else d.nor0
      nor1 := if b.seq % 2 = 0 then d.nor1 else norPut d.nor1 norBoot b.bytes })

/-- GEN and SVN of a slot's image, as CAT_SLOT and CAT_SLOT_GEN show them: 0 where it is BLANK (R421). -/
def State.slotGen (s : State) (slot : Nat) : Nat := if s.catPresent slot then s.catGen slot else 0
def State.slotSvn (s : State) (slot : Nat) : Nat := if s.catPresent slot then s.catSvn slot else 0

/-- The candidate list (R406): slots NEW, TRIAL and GOOD by descending GEN, slot A first at equal GEN, then the RETIRED slots. -/
def State.candidates (s : State) : List Nat :=
  let live := fun (k : Nat) => (s.slot k).state == 1 || (s.slot k).state == 2 || (s.slot k).state == 3
  let both := if s.slotGen 0 < s.slotGen 1 then [1, 0] else [0, 1]
  both.filter live ++ [0, 1].filter (fun k => (s.slot k).state == 5)

/-- The candidates are verified in order, and the first one accepted is selected; one that fails becomes BAD with CHECK recorded, and so does one whose
selection would make ATTEMPTS 4 (R405, R406). -/
def State.selectFrom : List Nat → State → Option Nat × State
  | [], s => (none, s)
  | k :: t, s =>
    let c := s.slot k
    let code := s.verify k
    let trial := c.state == 1 || c.state == 2
    if code ≠ 0 then State.selectFrom t (s.setSlot k ⟨4, c.attempts, code⟩)
    else if trial = true ∧ 3 ≤ c.attempts then State.selectFrom t (s.setSlot k ⟨4, c.attempts, 0⟩)
    else (some k, s.setSlot k (if trial then ⟨2, c.attempts + 1, 0⟩ else ⟨c.state, c.attempts, 0⟩))

end Sys2Proof.Machine
end

