-- ==== Sys2Proof/Machine/Start.lean ====
section
/-! DEFINITION. The start sequence (R405-R412), the merge of findings (R36, R37), the counter store's advances at ready (R411, R413), the return to
the previous generation and the update of a slot (R407, R408). Readings that the words leave open are log entry 23. -/

namespace Sys2Proof.Machine

/-- The state that an operation of the start leaves. -/
def State.after (s : State) (f : State → Host.Outcome State Fault Refusal) : State := match f s with | .next t => t | _ => s

/-! ## Findings (R28, R36) -/

/-- The record of a cluster in the map being merged is replaced. -/
def State.setDefect (s : State) (i : Nat) (d : DefRec) : State :=
  s.modDome (fun m => { m with map := SMap.set (fun _ => DefRec.reset) m.map i d })

/-- A finding occults an enabled cluster for this power cycle (R36). -/
def DefRec.found (d : DefRec) (cause : Nat) : DefRec := if d.cstat = 0 then { d with cstat := 2, cause := cause } else d

/-- A router finding (R36): the router becomes opaque, CSTAT 2 where it was 0, and CAUSE 4 in either case. -/
def DefRec.routerFound (d : DefRec) : DefRec := { d with cstat := if d.cstat = 0 then 2 else d.cstat, router := true, cause := 4 }

/-- Whether a spare (0 or 1) of a wafer is free (R36): no valid entry names it, and training has found no fault in it. -/
def DefRec.spareFree (d : DefRec) (wafer spare : Nat) (bad : List (Nat × Nat)) : Bool :=
  !d.remaps.any (fun e => remapWafer e == wafer && remapSpare e == spare) && !bad.contains (wafer, spare)

/-- A remap entry (R29). -/
def remapEntry (wafer spare sub : Nat) : Nat := 2 ^ 15 + wafer * 2 ^ 13 + spare * 2 ^ 12 + sub

/-- A store fault of a trained column (R36): a sub-array in service takes a new entry to a free spare; a spare in use gives its entry to the other
spare; with no spare free the cluster is occulted with CAUSE 6. `bad` holds the column's faulty spares, wafer and spare. -/
def DefRec.storeFound (d : DefRec) (wafer sub : Nat) (bad : List (Nat × Nat)) : DefRec :=
  let named : Nat → Bool := fun e => if 36 ≤ sub then remapWafer e == wafer && remapSpare e == sub - 36 else remapWafer e == wafer && remapSub e == sub
  if 36 ≤ sub ∧ d.remaps.any named = false then d
  else if sub < 36 ∧ d.remaps.any named = true then d
  else
    match ([0, 1] : List Nat).find? (fun k => d.spareFree wafer k bad) with
    | none => d.found 6
    | some k =>
      if 36 ≤ sub then { d with remaps := d.remaps.map (fun e => if named e then remapEntry wafer k (remapSub e) else e) }
      else { d with remaps := d.remaps ++ [remapEntry wafer k sub] }

/-- A finding of self-test, step 5 (R36). -/
def State.mergeTest (s : State) : Finding → State
  | .router c => s.setDefect c.val (s.defect c.val).routerFound
  | .logic c => s.setDefect c.val ((s.defect c.val).found 1)
  | .sram c => s.setDefect c.val ((s.defect c.val).found 2)
  | .training _ => s
  | .store _ _ _ => s

/-- A finding of store training, step 6 (R36), with the faulty spares found so far: cluster, wafer and spare. A cluster that is already occulted takes
none. -/
def State.mergeTraining (s : State) (bad : List (Nat × Nat × Nat)) : Finding → State × List (Nat × Nat × Nat)
  | .training c => (s.setDefect c.val ((s.defect c.val).found 3), bad)
  | .store c wafer sub =>
    if s.enabled c.val then
      let bad1 := if 36 ≤ sub.val then bad ++ [(c.val, wafer.val, sub.val - 36)] else bad
      let mine := (bad1.filter (fun b => b.1 == c.val)).map (fun b => b.2)
      (s.setDefect c.val ((s.defect c.val).storeFound wafer.val sub.val mine), bad1)
    else (s, bad)
  | .router _ => (s, bad)
  | .logic _ => (s, bad)
  | .sram _ => (s, bad)

/-- The merge ends (R31, R36): the merged map's first version. -/
def State.mergeDone (s : State) : State :=
  (s.modDome (fun d => { d with merged := true })).setDome DOM_DMAP_GEN_GEN ((s.dome_ DOM_DMAP_GEN_GEN + 1) % 65536)

/-! ## Mesh formation and the guarantees (R37, R303, R410) -/

/-- Mesh formation (R303): the hole map, from the merged map and the dead regions, in every region controller. -/
def State.formMesh (s : State) : State :=
  let opaque_ := (List.range 8960).filter s.opaqueRouter
  let dead := ((List.range 112).filter (fun r => (s.region r).hole)).map (fun r => 8960 + r)
  (s.modDome (fun d => { d with holes := opaque_ ++ dead, holeGen := d.holeGen + 1 })).spreadHoles

/-- Whether a region counts as holding no enabled cluster and no transit-good router (R410). -/
def Region.discounted (g : Region) : Bool := g.dark || g.nocomp || g.rd DRV_STATUS_STATE == 6 || g.rd TRC_STATUS_STATE == 6

/-- Whether cluster i's router counts as transit-good (R37, R410). -/
def State.goodRouter (s : State) (i : Nat) : Bool := !s.opaqueRouter i && !(s.region (regionOf i)).discounted

/-- The transit-good routers that a search from `front` reaches. -/
def State.spread (s : State) : Nat → List Nat → List Nat → List Nat
  | 0, _, seen => seen
  | n + 1, front, seen =>
    match front with
    | [] => seen
    | i :: rest =>
      let new := ((List.range 4).filterMap (neighbour i)).filter (fun j => s.goodRouter j && !seen.contains j)
      State.spread s n (rest ++ new) (seen ++ new)

/-- The conditions of R37 on the merged map, as R410 counts. -/
def State.guarantee (s : State) : Bool :=
  let counts := fun (i : Nat) => s.enabled i && !(s.region (regionOf i)).discounted
  let good := (List.range 8960).filter s.goodRouter
  decide (8192 ≤ ((List.range 8960).filter counts).length) &&
    (List.range 112).all (fun r => decide (64 ≤ ((clustersOf r).filter counts).length) && (clustersOf r).any s.goodRouter) &&
    decide (832 ≤ ((List.range 8960).filter (fun i => counts i && hasTu i)).length) &&
    (List.range 8960).all (fun i => !isEdge i || !s.opaqueRouter i) &&
    (match good with | [] => false | i :: _ => (s.spread 8961 [i] [i]).length == good.length)

/-! ## The counter store (R413) -/

/-- The counter store is replaced. -/
def State.setCtr (s : State) (c : Counters) : State := s.modDome (fun d => { d with ctr := c })

/-- CTR_SVN advances to a catalogue's SVN (R411). -/
def State.advanceSvn (s : State) (v : Nat) : State :=
  if s.dome.ctr.svn < v then s.setCtr { s.dome.ctr with svn := v } else s

/-- The envelope is bound, which takes one change (R411); beyond 32 the advance is refused (R413). -/
def State.bindEnvelope (s : State) (w : Nat) : State :=
  let c := s.dome.ctr
  if w = c.bound then s else if c.changes < 32 then s.setCtr { c with changes := c.changes + 1, bound := w } else s.setDome CTR_STATUS_LIMIT 1

/-- The identity is bound, which takes one rebind (R411); beyond 8 the advance is refused (R413). -/
def State.bindFid (s : State) (f : Nat) : State :=
  let c := s.dome.ctr
  if f = c.fidBound then s else if c.rebinds < 8 then s.setCtr { c with rebinds := c.rebinds + 1, fidBound := f } else s.setDome CTR_STATUS_LIMIT 1

/-! ## The steps (R409) -/

/-- A failure that stops the start (R409): every breaker opens with cause 4, and the watchdog stops. -/
def State.startFail (s : State) (result : Nat) : State :=
  ((s.allBreakers 4).setDome CAT_STATUS_RESULT result).modDome (fun d => { d with starting := false, watchdog := false })

/-- The next step begins. -/
def State.toStep (s : State) (k : Nat) : State := s.setDome CAT_STATUS_STEP k

/-- The signing-state cache holds the HSS tree state of the leaves used (R399, R419). -/
def State.keepTree (s : State) : State :=
  s.modDome (fun d => { d with nor0 := norPut d.nor0 norHssCache ((Config.treeState d.ctr.lms).take 0x200000) })

/-- Step 1 ends: the counter-store check, the identity and CTR_STARTS; the HSS tree state is regenerated where the cache has lost it (R409, R413, R416, R419). -/
def State.step1 (s : State) (obs : StartObs) : State :=
  if obs.counters = false then (s.setDome CTR_STATUS_INTEGRITY 1).startFail 2
  else if obs.identity.ok = false then s.startFail 1
  else
    let c := s.dome.ctr
    ((s.setCtr { c with starts := if c.starts < 2 ^ 32 - 1 then c.starts + 1 else c.starts }).keepTree).toStep 2

/-- The catalogue of a slot runs (R404, R406, R407): the envelope is written and locked, and the catalogue's defect map is the one to be merged. -/
def State.runSlotNow (s : State) (k : Nat) : State :=
  let m := s.mapAt k (s.sectOff k 4)
  let s1 := (((s.setDome CAT_STATUS_RUN_SLOT k).setDome CAT_STATUS_RUN_VALID 1).setDome CAT_STATUS_FALLBACK_PEND 0).setDome CAT_RUN_GEN_GEN (s.catGen k)
  (s1.setDome ALM_ENVELOPE_WATTS (s.catEnvelope k)).modDome (fun d => { d with envLocked := true, catMap := m, map := m })

/-- Step 2 ends: selection and verification (R406). -/
def State.step2 (s : State) : State :=
  match State.selectFrom s.candidates s with
  | (none, t) => t.startFail 3
  | (some k, t) => (t.runSlotNow k).toStep 3

/-- CLOCK_PLAN's words of region r are written (R402, R409); the selections follow R41, and the set is staged for the first tick after lock. -/
def State.planRegion (s : State) (slot : Nat) (r : RegionId) : State :=
  let w := fun (k : Nat) => s.planWord slot r.val k
  let s1 := ((s.after (execDrvSrcWrite r (w 1))).after (execTrcSrcWrite r (w 2))).modRegion r.val (fun g =>
    (((g.wr DRV_SEE_CTRL_THRESH (DRV_SEE_CTRL_THRESH.of (w 3))).wr DRV_SEE_CTRL_STRETCH (DRV_SEE_CTRL_STRETCH.of (w 3))).wr
      TRC_SEE_CTRL_THRESH (TRC_SEE_CTRL_THRESH.of (w 4))).wr TRC_SEE_CTRL_STRETCH (TRC_SEE_CTRL_STRETCH.of (w 4)))
  let s2 := (s1.after (execThmCtrlWrite r (w 5))).modRegion r.val (fun g => g.wr PWR_ILIM_LIMIT (PWR_ILIM_LIMIT.of (w 6)))
  s2.after (execDrvFreqWrite r (w 0))

/-- COEFFS of region r is written, and is staged for the next tick (R79, R402). -/
def State.coefRegion (s : State) (slot : Nat) (r : RegionId) : State :=
  let o := s.sectOff slot 5 + 512 * r.val
  let t := BitVec.ofNat 32 (s.norLe slot (o + 256) 4)
  s.modRegion r.val (fun g =>
    (List.range 64).foldl (fun h k => h.wr (ALM_COEF_COEF.nth k) (s.norLe slot (o + 4 * k) 4))
      (((g.wr ALM_BAND_THR_T1 (ALM_BAND_THR_T1.of t)).wr ALM_BAND_THR_T2 (ALM_BAND_THR_T2.of t)).wr ALM_BAND_THR_T3 (ALM_BAND_THR_T3.of t)))

/-- Step 4 begins: CLOCK_PLAN and COEFFS are written, in every region whose page answers (R115, R409). -/
def State.enter4 (s : State) (slot : Nat) : State :=
  let w := fun (k : Nat) => BitVec.ofNat 32 (s.norLe slot (s.sectOff slot 6 + 4 * k) 4)
  let s1 := (s.after (execTckPeriodWrite (w 0))).after (execTckCtrlWrite (w 1))
  (List.finRange 112).foldl (fun t r => if t.pageOpen r.val then (t.planRegion slot r).coefRegion slot r else t) s1

/-- Step 4 ends: a generator in FAULT is acquired once more (R409). -/
def Region.reacquire (g : Region) : Region :=
  let g1 := if g.rd DRV_STATUS_STATE = 6 then g.setDrv 1 else g
  if g.rd TRC_STATUS_STATE = 6 then g1.setTrc 1 else g1

/-- Step 8 begins: FABRIC is written, enabled ports train, and the finder runs (R335, R342, R402, R409). -/
def State.enter8 (s : State) (slot : Nat) : State :=
  let w := s.fabWord slot
  let en := s.norLe slot (s.sectOff slot 8 + 32) 8
  let nar := s.norLe slot (s.sectOff slot 8 + 40) 8
  let s1 := ((s.setDome FND_FID_LO_FID_LO (w 0).toNat).setDome FND_FID_HI_FID_HI (w 4).toNat).setDome FND_QUIET_MS (w 48).toNat
  let s2 := (((s1.setDome FND_CFG_ROOT (FND_CFG_ROOT.of (w 8))).setDome FND_CFG_TOPO (FND_CFG_TOPO.of (w 8))).setDome
    FND_CFG_DIMX (FND_CFG_DIMX.of (w 8))).setDome FND_CFG_DIMY (FND_CFG_DIMY.of (w 8))
  let s3 := (s2.setDome FND_CTRL_AUTO (FND_CTRL_AUTO.of (w 12))).setDome FND_CTRL_TICK_AUTO (FND_CTRL_TICK_AUTO.of (w 12))
  let s4 := (List.range 4).foldl (fun t k => t.setDome (FND_PDIR_DIR.nth k) (w (16 + 4 * k)).toNat) s3
  let s5 := (List.range 64).foldl (fun t p =>
    (t.modPort p (fun z => (z.wr ZL_CTRL_NARROW_OK (bit1 (nar.testBit p))).wr ZL_CTRL_EN (bit1 (en.testBit p)))).portTry p) s4
  s5.finderStart

/-- Ready (R411, R374): the lock, the counters, the slot, the watchdog, MSTATE and READY, in order; the queues then fetch. A slot that a fallback request has
retired stays RETIRED (R407). -/
def State.becomeReady (s : State) (slot : Nat) : State :=
  let s1 := s.modDome (fun d => { d with locked := true, envLocked := true })
  let s2 := ((s1.advanceSvn (s.catSvn slot)).bindEnvelope (s.catEnvelope slot)).bindFid (s.catFid slot)
  let c := s2.slot slot
  let s3 := (s2.setSlot slot (if s.dome_ CAT_STATUS_FALLBACK_PEND = 1 then c else { c with state := 3 })).modDome (fun d => { d with watchdog := false })
  ((s3.setMstate (if s3.replace then 3 else 1)).setHif HIF_STATUS_READY 1).fetchAll

/-- Step 10 begins: the catalogue's standing ephemerides wait for the loader, none loaded (R220, R402, R421). -/
def State.enter10 (s : State) (slot : Nat) : State :=
  let l := match s.catSection slot 9 with
    | none => []
    | some p => (List.range (s.norLe slot p.1 4)).map (fun k =>
      (k, p.1 + s.norLe slot (p.1 + 4 + 8 * k) 4, s.norLe slot (p.1 + 8 + 8 * k) 4))
  (s.modDome (fun d => { d with standing := l })).setDome CAT_STANDING 0xFFFFFFFF

/-- START_SEQUENCE (R409): the step in progress ends, with what it observed, and the next one begins. Step 3 ends once its seven waves have come up or
failed; step 9 waits while the counter store is gated (R425). A degrading event of the steps up to 8 does not degrade the module (R412). -/
def execStartSequence (obs : StartObs) (s : State) : Host.Outcome State Fault Refusal :=
  let k := s.dome_ CAT_STATUS_STEP
  let run := match s.runSlot with | some x => x | none => 0
  if s.dome.starting = false ∨ k = 0 ∨ 10 < k then .next s
  else if k = 3 ∧ (s.dome.waves < 7 ∨ (List.range 112).any (fun r => (s.region r).power == 1) = true) then .next s
  else if k = 9 ∧ s.clocked 8 = false then .next s
  else
    let t := s.setDome (CAT_STEP_MS_MS.nth (k - 1)) obs.ms
    .next (
      if k = 1 then t.step1 obs
      else if k = 2 then t.step2
      else if k = 3 then (t.enter4 run).toStep 4
      else if k = 4 then ((List.range 112).foldl (fun u r => u.modRegion r Region.reacquire) t).toStep 5
      else if k = 5 then (obs.findings.foldl (fun u f => u.mergeTest f) t).toStep 6
      else if k = 6 then ((obs.findings.foldl (fun u f => u.1.mergeTraining u.2 f) (t, [])).1.mergeDone).toStep 7
      else if k = 7 then (let u := t.formMesh; if u.guarantee then (u.enter8 run).toStep 8 else u.startFail 4)
      else if k = 8 then (t.toStep 9).modDome (fun d => { d with degPend := [] })
      else if k = 9 then ((t.becomeReady run).enter10 run).toStep 10
      else (t.toStep 0).modDome (fun d => { d with starting := false }))

/-- START_WATCHDOG_EXPIRY (R406): the running slot becomes BAD, every breaker opens with cause 4, and the start begins again at step 1. -/
def execStartWatchdogExpiry (s : State) : Host.Outcome State Fault Refusal :=
  if s.dome.watchdog then
    let s1 := match s.runSlot with | some k => s.setSlot k { s.slot k with state := 4 } | none => s
    .next (s1.allBreakers 4).powerOn
  else .next s

/-! ## Fallback and update (R407, R408) -/

/-- The other slot. -/
def otherSlot (k : Nat) : Nat := 1 - k

/-- A fallback request (R407): the running slot becomes RETIRED until the next start, or FB_REFUSED sets. It waits for a gated counter store (R425). -/
def State.fallback (s : State) : State :=
  let refused := s.setDome CAT_EVENT_FB_REFUSED 1
  if s.clocked 8 = false then s.modDome (fun d => { d with heldReqs := d.heldReqs ++ [.fallback] })
  else match s.runSlot with
    | none => refused
    | some k =>
      if (s.slot (otherSlot k)).state = 3 ∧ s.dome.ctr.svn ≤ s.slotSvn (otherSlot k) ∧ s.dome.upd.isNone = true then
        (s.setSlot k { s.slot k with state := 5 }).setDome CAT_STATUS_FALLBACK_PEND 1
      else refused

/-- FALLBACK (R407). -/
def execFallback (s : State) : Host.Outcome State Fault Refusal := .next s.fallback

/-- A command that arrives through BAR0 is a BAR access, which the bridge counts (R396). -/
def State.viaCount (s : State) (via : Via) : State := if via = .bar0 then s.barCount else s

/-- A refused update write or command (R408, R421). -/
def State.updErr (s : State) : State := s.setDome CAT_EVENT_UPD_ERR 1

/-- Whether a transport may command an update now: MCTP always, BAR0 after ready, the firmware never (R408, R421). -/
def State.updVia (s : State) : Via → Bool
  | .mctp => true
  | .bar0 => s.ready
  | .firmware => false

/-- Whether a slot may be opened (R408): not the running one, and before any slot has been accepted only after NO_CATALOGUE. -/
def State.updTarget (s : State) (slot : Nat) : Bool :=
  match s.runSlot with
  | some k => slot != k
  | none => s.dome_ CAT_STATUS_RESULT == 3

/-- A pending FALLBACK is cancelled (R408): the running slot is again what it was. -/
def State.cancelFallback (s : State) : State :=
  match s.runSlot with
  | some k =>
    if s.dome_ CAT_STATUS_FALLBACK_PEND = 1 then
      (s.setSlot k { s.slot k with state := if s.mstate = 0 then 2 else 3 }).setDome CAT_STATUS_FALLBACK_PEND 0
    else s
  | none => s

/-- A write of OPEN (R408): the target slot becomes EMPTY and its erase begins; one transport owns the update. -/
def State.updOpen (s : State) (slot : Nat) (via : Via) : State :=
  if s.updVia via = false then s
  else if s.dome.upd.isSome = true ∨ s.updTarget slot = false then s.updErr
  else
    let s1 := (s.cancelFallback.setSlot slot ⟨0, 0, 0⟩).modDome (fun d => { d with upd := some (via, slot) })
    ((((s1.setDome CAT_UPD_CTRL_SLOT slot).setDome CAT_UPD_STATUS_STATE 1).setDome CAT_UPD_STATUS_RESULT 0).setDome CAT_UPD_STATUS_CHECK 0).setDome
      CAT_UPD_STATUS_MCTP (if via = .mctp then 1 else 0)

/-- UPD_OPEN (R408). -/
def execUpdOpen (slot : Fin 2) (via : Via) (s : State) : Host.Outcome State Fault Refusal := .next ((s.viaCount via).updOpen slot.val via)

/-- A slot's bytes are replaced. -/
def State.setNor (s : State) (slot : Nat) (f : SMap Byte → SMap Byte) : State :=
  s.modDome (fun d => if slot = 0 then { d with nor0 := f d.nor0 } else { d with nor1 := f d.nor1 })

/-- A word is programmed into a slot's device. -/
def State.program (s : State) (slot a : Nat) (v : W32) : State :=
  s.setNor slot (fun m => norPut m a (leBytes 4 v.toNat))

/-- A write of the window (R408, R421): the owner's, while OPEN, programs the NOR, PIECE below 0x3FC; any other is dropped with UPD_ERR. A write to the gated
xSPI is dropped (R425). -/
def State.updWin (s : State) (off : Nat) (v : W32) (via : Via) : State :=
  let piece := s.dome_ CAT_UPD_OFFSET_PIECE
  if s.updVia via = false ∨ 0x10000 ≤ off ∨ off % 4 ≠ 0 ∨ s.clocked 3 = false then s
  else
    match s.dome.upd with
    | some (owner, slot) =>
      if owner = via ∧ s.dome_ CAT_UPD_STATUS_STATE = 2 ∧ piece < 0x3FC then s.program slot (65536 * piece + off) v else s.updErr
    | none => s.updErr

/-- UPD_WIN_WRITE (R408, R421). -/
def execUpdWinWrite (off : Nat) (v : W32) (via : Via) (s : State) : Host.Outcome State Fault Refusal := .next ((s.viaCount via).updWin off v via)

/-- The verifier's check of an update that closes (R408): NEW, or BAD with CHECK. -/
def State.updCheck (s : State) : State :=
  match s.dome.upd with
  | some (_, slot) =>
    let code := s.verify slot
    let s1 := (s.setSlot slot ⟨if code = 0 then 1 else 4, 0, code⟩).modDome (fun d => { d with upd := none })
    (((s1.setDome CAT_UPD_STATUS_STATE 0).setDome CAT_UPD_STATUS_RESULT (if code = 0 then 1 else 2)).setDome CAT_UPD_STATUS_CHECK code).setDome
      CAT_EVENT_UPD_DONE 1
  | none => s

/-- A write of CLOSE (R408): the owner's CLOSE of an open update is checked; while CRYPTO or CTR is gated the check is held (R425). -/
def State.updClose (s : State) (via : Via) : State :=
  if s.updVia via = false then s
  else
    match s.dome.upd with
    | some (owner, _) =>
      if owner = via ∧ s.dome_ CAT_UPD_STATUS_STATE = 2 then
        (if s.clocked 7 = true ∧ s.clocked 8 = true then s.updCheck
         else (s.setDome CAT_UPD_STATUS_STATE 3).modDome (fun d => { d with heldReqs := d.heldReqs ++ [.close] }))
      else s.updErr
    | none => s.updErr

/-- UPD_CLOSE (R408). -/
def execUpdClose (via : Via) (s : State) : Host.Outcome State Fault Refusal := .next ((s.viaCount via).updClose via)

end Sys2Proof.Machine
end

