-- ==== Sys2Proof/Machine/DomeRegs.lean ====
section
/-! DEFINITION. What a read of the dome space returns (R31, R32, R115, R349, R350, R366, R368, R369, R421, R422, R425, R437, R438), with the registers that
mirror the state, and what a read latches (R68, R72, R97, R221, R349, R369, R438). What the host reads through BAR0 (R374, R376). Readings that the words leave
open are log entry 24. -/

namespace Sys2Proof.Machine

/-- All ones. -/
def ones32 : Nat := 0xFFFFFFFF

/-! ## Registers that mirror the state -/

/-- DOM_DMAP_DATA (R31, R32): the selected word; the catalogue's copy until the merge completes, and all ones, as at reset, before a catalogue is accepted and for
a selection that does not exist. -/
def State.dmapData (s : State) : Nat :=
  let i := s.dome_ DOM_DMAP_SEL_INDEX; let w := s.dome_ DOM_DMAP_SEL_WORD; let page := s.dome_ DOM_DMAP_SEL_PAGE
  let m := if s.dome.merged then s.dome.map else s.dome.catMap
  if s.dome.merged = false ∧ s.runSlot = none then ones32
  else if page = 0 then (if i < 8960 ∧ w < 8 then (SMap.get (fun _ => DefRec.reset) m i).word i w else ones32)
  else if page = 1 then mapHeader m w
  else if page = 2 then (if i < 112 then mapSummary m i else ones32)
  else ones32

/-- DOM_FLT_LOG_DATA (R366, R368): a word of a record of the fault history in the NOR; an empty record is erased and reads as all ones. -/
def State.logData (s : State) : Nat := s.norLe 0 (norHistory + 32 * s.dome_ DOM_FLT_LOG_SEL_INDEX + 4 * s.dome_ DOM_FLT_LOG_SEL_WORD) 4

/-- FND_RT_DATA and FND_RT_DIST (R350): the routing entry of the module that FND_RT_SEL names. -/
def State.routeMirrors (s : State) : List (Fld × Nat) :=
  match s.route (s.dome_ FND_RT_SEL_MOD) with
  | none => []
  | some e =>
    [(FND_RT_DATA_PORT0, e.ports.getD 0 0), (FND_RT_DATA_PORT1, e.ports.getD 1 0), (FND_RT_DATA_PORT2, e.ports.getD 2 0),
      (FND_RT_DATA_PORT3, e.ports.getD 3 0), (FND_RT_DATA_NPORTS, e.ports.length), (FND_RT_DATA_VALID, 1), (FND_RT_DIST_LINKS, e.links),
      (FND_RT_DIST_NS, e.ns)]

/-- CAT_SLOT and CAT_SLOT_GEN (R421). -/
def State.slotMirrors (s : State) : List (Fld × Nat) :=
  ([0, 1] : List Nat).flatMap (fun k =>
    let c := s.slot k
    [(CAT_SLOT_STATE.nth k, c.state), (CAT_SLOT_ATTEMPTS.nth k, c.attempts), (CAT_SLOT_CHECK.nth k, c.check), (CAT_SLOT_SVN.nth k, s.slotSvn k),
      (CAT_SLOT_GEN_GEN.nth k, s.slotGen k)])

/-- The counter-store registers (R422). -/
def State.ctrMirrors (s : State) : List (Fld × Nat) :=
  let c := s.dome.ctr
  [(CTR_SVN_VALUE, c.svn), (CTR_ENV_CHANGES, c.changes), (CTR_ENV_BOUND, c.bound), (CTR_FID_REBINDS, c.rebinds), (CTR_FID_BOUND_LO_FID, c.fidBound),
    (CTR_FID_BOUND_HI_FID, c.fidBound / 2 ^ 32), (CTR_RPL_COUNT, c.rpl), (CTR_RPL_REPLACE, bit1 s.replace), (CTR_LMS_LEAVES, c.lms),
    (CTR_STARTS_COUNT, c.starts), (CTR_STATUS_LMS_EXHAUSTED, bit1 (c.lms == 2 ^ 30))]

/-- The eyepiece's registers that mirror its state (R438). -/
def State.eyeMirrors (s : State) : List (Fld × Nat) :=
  let e := s.dome.eye
  (EYE_STATUS_OPENS, e.opens % 65536) :: (List.range 8).map (fun w => (EYE_NONCE_NONCE.nth w, leNat (sliceOf e.nonce (4 * w) 4))) ++
    (List.range 16).map (fun i => (EYE_CHR_TOT_LO.nth i, SMap.get (fun _ => 0) e.totals i))

/-- Every mirrored field below the region control pages. -/
def State.domeMirrors (s : State) : List (Fld × Nat) :=
  [(DOM_DMAP_DATA_DATA, s.dmapData), (TCK_SNAP_LO_STAMP_LO, s.dome.ptm), (DOM_FLT_STATUS_REPLACE, bit1 s.replace),
    (DOM_FLT_LOG_SEQ_SEQ, s.dome.logSeq - s.dome.logPend.length), (DOM_FLT_LOG_DATA_DATA, s.logData), (DOM_COL_STATUS_OPEN, bit1 s.colOpen)] ++
  s.routeMirrors ++ s.slotMirrors ++ s.ctrMirrors ++ s.eyeMirrors

/-! ## Gates and scopes (R425, R438) -/

/-- Whether the register at a dome offset belongs to a peripheral whose clock is gated (R424, R425): CTR, MON and the xSPI window. -/
def State.gatedReg (s : State) (off : Nat) : Bool :=
  (decide (0x800 ≤ off) && decide (off < 0x824) && !s.clocked 8) || ((off == 0x308 || off == 0x30C) && !s.clocked 6) ||
  (decide (0x300000 ≤ off) && decide (off < 0x310000) && !s.clocked 3)

/-- Whether an eyepiece register is closed (R438): EYE_EXPIRY while the eyepiece is, the others while their scope is. -/
def State.eyeClosed (s : State) (off : Nat) : Bool :=
  if 0xA30 ≤ off ∧ off < 0xA40 then s.dome_ EYE_STATUS_OPEN != 1
  else if 0xA40 ≤ off ∧ off < 0xA60 then !s.scopeOpen 3
  else if 0xA60 ≤ off ∧ off < 0xA80 then !s.scopeOpen 0
  else if 0xB00 ≤ off ∧ off < 0xC00 then !s.scopeOpen 1
  else if 0xC00 ≤ off ∧ off < 0xC20 then !s.scopeOpen 2
  else false

/-! ## Reads -/

/-- The mirrored fields of a region control page (R72, R97, R99, R221). -/
def State.pageMirrors (s : State) (r : Nat) : List (Fld × Nat) :=
  let g := s.region r; let k := g.rd THM_SEL_SENSOR
  [(TCK_RNUM_LO_NUM_LO, g.num), (TCK_RSTART_LO_START_LO, g.start), (ALM_BAL_LO_BAL_LO, g.balWord),
    (THM_DATA_TEMP, if hasSensor r k then SMap.get (fun _ => 0) g.temps k else 0), (THM_DATA_VALID, bit1 (hasSensor r k && g.converted))]

/-- A word of region r's control page (R115, R354): all ones while the region is DARK or bypassed. THM_STORE lies behind MON (R424). -/
def State.pageWord (s : State) (r off : Nat) : W32 :=
  if s.pageOpen r = false then 0xFFFFFFFF
  else if off = 0x394 ∧ s.clocked 6 = false then 0
  else mirrored (Regs.word pageTable (s.region r).regs off) off (s.pageMirrors r)

/-- The ID of port p's peer, once assigned (R349). -/
def State.peerId (s : State) (p : Nat) : Nat := match s.dome.finder.idOf (s.port p).peerFid with | some m => m | none => 0

/-- A word of port p's block (R349). -/
def State.portWord (s : State) (p off : Nat) : W32 :=
  mirrored (Regs.word zlTable (s.port p).regs off) off [(ZL_PEER_PORT_MODID, s.peerId p), (ZL_TICK_LO_NUM_LO, (s.port p).tick)]

/-- A word of the update window (R408, R421): the slot's bytes while OPEN. -/
def State.winWord (s : State) (off : Nat) : W32 :=
  match s.dome.upd with
  | some (_, slot) =>
    if s.dome_ CAT_UPD_STATUS_STATE = 2 then BitVec.ofNat 32 (s.norLe slot (65536 * s.dome_ CAT_UPD_OFFSET_PIECE + off) 4) else 0xFFFFFFFF
  | none => 0xFFFFFFFF

/-- The word at a dome offset (R8, R31, R115, R376, R425, R438): write-only registers and offsets that no table lists read as zero. -/
def State.domeWord (s : State) (off : Nat) : W32 :=
  if s.gatedReg off = true ∨ s.eyeClosed off = true then 0
  else if off < 0x1000 then
    (if 0x620 ≤ off ∧ off < 0x630 then 0 else mirrored (Regs.word domeTable s.dome.regs off) off s.domeMirrors)
  else if 0x100000 ≤ off ∧ off < 0x170000 then s.pageWord ((off - 0x100000) / 0x1000) (off % 0x1000)
  else if 0x200000 ≤ off ∧ off < 0x204000 then s.portWord ((off - 0x200000) / 0x100) (off % 0x100)
  else if 0x300000 ≤ off ∧ off < 0x310000 then s.winWord (off - 0x300000)
  else 0

/-- The high word of a chronograph total is latched (R438). -/
def State.latchTotal (s : State) (i : Nat) : State :=
  s.setDome (EYE_CHR_TOT_HI.nth i) (SMap.get (fun _ => 0) s.dome.eye.totals i / 2 ^ 32)

/-- The high word of a region's start tick is latched (R221). -/
def State.latchStart (s : State) (r : Nat) : State :=
  if s.pageOpen r then s.modRegion r (fun g => g.wr TCK_RSTART_HI_START_HI (g.start / 2 ^ 32)) else s

/-- What a read of a dome offset latches (R68, R72, R97, R221, R349, R369, R438). -/
def State.domeLatch (s : State) (off : Nat) : State :=
  if off = 0x20C then s.snapRead.2
  else if off = 0x640 then s.colCntRead.2
  else if 0xB80 ≤ off ∧ off < 0xC00 ∧ off % 8 = 0 ∧ s.scopeOpen 1 = true then s.latchTotal ((off - 0xB80) / 8)
  else if 0x100000 ≤ off ∧ off < 0x170000 then
    let r := (off - 0x100000) / 0x1000
    if off % 0x1000 = 0x84 then (State.rnumRead r s).2
    else if off % 0x1000 = 0x94 then s.latchStart r
    else if off % 0x1000 = 0x108 then (State.balRead r s).2
    else s
  else if 0x200000 ≤ off ∧ off < 0x204000 ∧ off % 0x100 = 0x24 then (State.portTickRead ((off - 0x200000) / 0x100) s).2
  else s

/-! ## The host's reads through BAR0 and BAR4 (R374, R376, R395) -/

/-- Word k of the pending-bit array (R376, R395): a masked vector with a cause not yet signalled is pending. -/
def State.pendingWord (s : State) (k : Nat) : W32 :=
  BitVec.ofNat 32 (bitsBy 32 (fun b => s.host.causes.contains (32 * k + b) && s.vectorMasked (32 * k + b)))

/-- The word that a host read of BAR4 returns (R376): the MSI-X table, the pending bits, and zero elsewhere (R8). -/
def State.bar4Word (s : State) (off : Nat) : W32 :=
  if off < 0x2000 then s.msixWord (off / 4) else if off < 0x2040 then s.pendingWord ((off - 0x2000) / 4) else 0


/-- HIF_STATUS and the DMA counts mirror the module's state (R396). -/
def State.hifMirrors (s : State) : List (Fld × Nat) :=
  [(HIF_STATUS_FLAGGED, bit1 s.flagged), (HIF_STATUS_ATT39, bit1 (s.attached (cidx 39 0))), (HIF_STATUS_ATT40, bit1 (s.attached (cidx 40 0))),
    (HIF_CNT_DMA_RD_CNT, s.host.rdBytes / 4096), (HIF_CNT_DMA_WR_CNT, s.host.wrBytes / 4096)]

/-- A word of queue q's configuration (R397): the reserved bits of a base read as zero (R8). -/
def State.queueWord (s : State) (q off : Nat) : W32 :=
  let h := s.hostQ q
  mirrored (Regs.word hqTable h.regs off) off
    [(HIF_Q_STATUS_INPROG, min 16 h.jobs.length), (HIF_Q_SQ_LO_BASE, h.rd HIF_Q_SQ_LO_BASE / 4096 * 4096),
      (HIF_Q_CQ_LO_BASE, h.rd HIF_Q_CQ_LO_BASE / 4096 * 4096)]

/-- The word that a host read of BAR0 returns (R374, R376): until ready, only the bridge's own blocks answer. -/
def State.barWord (s : State) (off : Nat) : W32 :=
  if 0x1000000 ≤ off ∧ off < 0x1010000 then mirrored (Regs.word hifTable s.host.hif (off - 0x1000000)) (off - 0x1000000) s.hifMirrors
  else if 0x1010000 ≤ off ∧ off < 0x1014000 then s.queueWord ((off - 0x1010000) / 64) (off % 64)
  else if 0x1100000 ≤ off ∧ off < 0x1200000 then 0
  else if 0x3FFF000 ≤ off ∧ off < 0x4000000 then Regs.word aprTable s.host.apr (off - 0x3FFF000)
  else if s.ready = false then 0xFFFFFFFF
  else if off < 0x1000000 then s.domeWord off
  else 0

end Sys2Proof.Machine
end

