-- ==== Sys2Proof/Machine/Dome.lean ====
section
/-! DEFINITION. The dome controller's peripherals and the management clock (R424-R427), attestation (R417-R419), service tokens (R415, R430, R431) and the
eyepiece (R432-R436). Readings that the words leave open are log entry 24. -/

namespace Sys2Proof.Machine

/-- Whether the dome controller runs: input power applied, and the reset contact not holding it (R428, R446, R448). -/
def State.domeUp (s : State) : Bool := s.dome.input && !s.dome.inputOff && !s.dome.resetLow

/-- The number of a transport in `Output.reply` and in the table of last signed responses. -/
def transportCode : Transport → Nat
  | .doe => 0
  | .smbus => 1
  | .i3c => 2

/-- An answer over MCTP (R429); the commands do not say over which of its two buses they came, and the model answers them under one number. -/
def State.mctpReply (s : State) (bs : List Byte) : State := s.emit (.reply 1 bs)

/-! ## The management clock (R427) -/

/-- MCLK_SRC_WRITE (R41, R427): a READY source is selected; a source that is not, or the value 3, sets SRC_ERR. -/
def execMclkSrcWrite (v : W32) (s : State) : Host.Outcome State Fault Refusal :=
  let k := DOM_MCLK_SRC_SEL.of v
  if k < 3 ∧ (s.dome_ DOM_MCLK_STATUS_READY).testBit k = true then
    .next ((s.setDome DOM_MCLK_SRC_SEL k).setDome DOM_MCLK_STATUS_HOLDOVER 0)
  else .next (s.setDome DOM_MCLK_STATUS_SRC_ERR 1)

/-- MCLK_HOLDOVER_TIMEOUT (R427): after 1 s in holdover the generator switches to INT and sets LOS. -/
def execMclkHoldoverTimeout (s : State) : Host.Outcome State Fault Refusal :=
  if s.dome_ DOM_MCLK_STATUS_HOLDOVER = 1 then
    .next (((s.setDome DOM_MCLK_SRC_SEL 0).setDome DOM_MCLK_STATUS_HOLDOVER 0).setDome DOM_MCLK_STATUS_LOS 1)
  else .next s

/-! ## Attestation (R417-R419) -/

/-- The certificate chain and the HSS endorsement that the identity area holds (R399, R417, R419). -/
def State.identity (s : State) : List Byte × List Byte := Config.identityArea (s.norBytes 0 norIdentity 65536)

/-- GET_CERTIFICATE (R417): the chain of slot 0; no other slot is supported, and a request for one is answered with ERROR. -/
def execGetCertificate (r : CertReq) (s : State) : Host.Outcome State Fault Refusal :=
  .next (if s.domeUp = false then s
    else s.emit (.reply (transportCode r.transport) (if r.slot = 0 then Config.spdmFrame 0 s.identity.1 else Config.spdmFrame 4 [])))

/-- The head of a vendor-defined message: StandardID 4 (IANA), VendorID 0x0001_B6E5, and the subcommand, 1 GET_ENDORSEMENT or 2 COSIGN (R419). That a response
carries it as well is PRESUMED (log entry 24). -/
def vendorHead (sub : Nat) : List Byte := leBytes 2 4 ++ leBytes 4 0x0001B6E5 ++ leBytes 1 sub

/-- GET_ENDORSEMENT (R419): the device HSS public key and its endorsement. -/
def execGetEndorsement (t : Transport) (s : State) : Host.Outcome State Fault Refusal :=
  .next (if s.domeUp then s.emit (.reply (transportCode t) (Config.spdmFrame 3 (vendorHead 1 ++ hssPublicKey ++ s.identity.2))) else s)

/-- A register of the counter store as it reads while it is clocked (R422). -/
def State.ctrWord (s : State) (off : Nat) : Nat := (mirrored (Regs.word domeTable s.dome.regs off) off s.ctrMirrors).toNat

/-- The SHA-384 that a slot's directory gives for a section (R402, R418). -/
def State.sectHash (s : State) (slot ty : Nat) : Option (List Byte) :=
  ((s.catDir slot).zipIdx.find? (fun p => p.1.1 == ty)).map (fun p => s.norBytes slot (0x210 + 64 * p.2) 48)

/-- The measurement blocks, index and value (R418); sections and block 10 once a slot runs, section 9 where the catalogue has it. -/
def State.measurements (s : State) : List (Nat × List Byte) :=
  let run := match s.runSlot with
    | none => []
    | some k => (List.range 9).filterMap (fun t => (s.sectHash k (t + 1)).map (fun h => (t + 1, h))) ++
      [(10, leBytes 1 k ++ leBytes 4 (s.catGen k) ++ leBytes 1 (s.catSvn k) ++ s.norBytes k 6 1)]
  run ++
  [(11, ([0x800, 0x804, 0x808, 0x814, 0x81C] : List Nat).flatMap (fun o => leBytes 4 (s.ctrWord o))),
    (12, Config.sha384 (mapBytes s.dome.map) ++ leBytes 4 (s.dome_ DOM_DMAP_GEN_GEN)),
    (13, leBytes 4 (mirrored (Regs.word domeTable s.dome.regs 0x500) 0x500 [(DOM_FLT_STATUS_REPLACE, bit1 s.replace)]).toNat),
    (0xF0, hssPublicKey)]

/-- Blocks as a response carries them: index, length, value. -/
def spdmBlock (b : Nat × List Byte) : List Byte := leBytes 1 b.1 ++ leBytes 2 b.2.length ++ b.2

/-- A response is signed with the device key over the SHA-384 of the transcript, which `request` brings up to the request and the response ends, and sent; the
connection keeps it whole, signature included (R416, R417, R419; log entry 24). -/
def State.signedReply (s : State) (t : Transport) (kind : Nat) (request contents : List Byte) : State :=
  let m := Config.spdmFrame kind contents
  let resp := m ++ deviceSign (request ++ m)
  (s.modDome (fun d => { d with spdm := SMap.set (fun _ => []) d.spdm (transportCode t) resp })).emit (.reply (transportCode t) resp)

/-- CHALLENGE answered (R417): the hash of the chain and a fresh nonce. -/
def State.doChallenge (s : State) (t : Transport) (request : List Byte) : State :=
  ({ s with free := s.free + 1 }).signedReply t 1 request (Config.sha384 s.identity.1 ++ Config.nonce s.free)

/-- GET_MEASUREMENTS answered (R418). -/
def State.doMeasurements (s : State) (t : Transport) (request : List Byte) : State :=
  s.signedReply t 2 request (s.measurements.flatMap spdmBlock)

/-- COSIGN answered (R413, R419): ERROR before any signed response, and at the limit, where the refused advance sets LIMIT; else a leaf is used up before its
signature is released, and the signing-state cache follows. -/
def State.doCosign (s : State) (t : Transport) : State :=
  let last := SMap.get (fun _ => []) s.dome.spdm (transportCode t)
  let c := s.dome.ctr
  let error := fun (u : State) => u.emit (.reply (transportCode t) (Config.spdmFrame 4 []))
  if last = [] then error s
  else if hssLeaves ≤ c.lms then error (s.setDome CTR_STATUS_LIMIT 1)
  else
    (s.setCtr { c with lms := c.lms + 1 }).keepTree.emit (.reply (transportCode t)
      (Config.spdmFrame 3 (vendorHead 2 ++ deviceCosign c.lms (Config.sha384 last))))

/-- A request waits for its peripherals (R425). -/
def State.holdReq (s : State) (h : Held) : State := s.modDome (fun d => { d with heldReqs := d.heldReqs ++ [h] })

/-- An SPDM request that needs CRYPTO, or CRYPTO and CTR: 0 CHALLENGE, 1 GET_MEASUREMENTS, 2 COSIGN (R417-R419, R425). -/
def State.spdmRequest (s : State) (kind : Nat) (t : Transport) (request : List Byte) : State :=
  if s.clocked 7 = false ∨ (kind ≠ 0 ∧ s.clocked 8 = false) then s.holdReq (.spdm kind t request)
  else if kind = 0 then s.doChallenge t request
  else if kind = 1 then s.doMeasurements t request
  else s.doCosign t

/-- CHALLENGE (R417). -/
def execChallenge (t : Transport) (request : List Byte) (s : State) : Host.Outcome State Fault Refusal :=
  .next (if s.domeUp then s.spdmRequest 0 t request else s)

/-- GET_MEASUREMENTS (R418). -/
def execGetMeasurements (t : Transport) (request : List Byte) (s : State) : Host.Outcome State Fault Refusal :=
  .next (if s.domeUp then s.spdmRequest 1 t request else s)

/-- COSIGN (R419). -/
def execCosign (t : Transport) (s : State) : Host.Outcome State Fault Refusal := .next (if s.domeUp then s.spdmRequest 2 t [] else s)

/-! ## Tokens (R415, R430, R431) -/

/-- The fields of a token (R430). -/
def tokLe (b : List Byte) (o n : Nat) : Nat := leNat (sliceOf b o n)
def tokAction (b : List Byte) : Nat := tokLe b 4 1
def tokScope (b : List Byte) : Nat := tokLe b 5 1
def tokDuration (b : List Byte) : Nat := tokLe b 8 4
def tokBody (b : List Byte) : List Byte := sliceOf b 0 96

/-- Whether a token's form is right: its MAGIC, lengths, ACTION, SCOPE, DURATION and reserved field (R430, R431 check 1). -/
def tokFormat (b : List Byte) : Bool :=
  decide (196 ≤ b.length) && b.length == 196 + tokLe b 192 4 && tokLe b 0 4 == 0x4E454B54 && tokLe b 6 2 == 0 &&
    ((tokAction b == 1 && tokScope b == 0 && tokDuration b == 0) || (tokAction b == 2 && decide (tokScope b < 16) && tokDuration b != 0))

/-- ACTION 1 arrived over BAR0 (R431 check 2). -/
def tokRoute (via : Via) (b : List Byte) : Bool := tokAction b == 1 && via == .bar0

/-- Whether the module's state forbids the token's action (R431 check 8). -/
def State.tokState (s : State) (b : List Byte) : Bool :=
  if tokAction b = 1 then s.dome.ctr.rpl % 2 == 0 || s.dome.ctr.rpl == 15 else s.dome_ EYE_STATUS_OPEN == 1

/-- Whether the service keys are those whose hash ROM key slot 4 holds (R403, R430). -/
def serviceKeysOk : Bool := Config.sha384 (Config.serviceKeys.1 ++ Config.serviceKeys.2) == Config.romKey 4

/-- The checks of R431 on a token, in order: the code of the first that fails, 0 where all pass. -/
def State.tokCheck (s : State) (via : Via) (b : List Byte) : Nat :=
  if tokFormat b = false then 1
  else if tokRoute via b = true then 2
  else if (serviceKeysOk && Config.ecdsaOk Config.serviceKeys.1 (tokBody b) (sliceOf b 96 96)) = false then 3
  else if hssVerify Config.serviceKeys.2 (tokBody b) (b.drop 196) = false then 4
  else if sliceOf b 0x10 48 ≠ deviceId then 5
  else if tokLe b 0x0C 4 ≠ s.dome.ctr.starts then 6
  else if s.dome.eye.nonceOk = false ∨ sliceOf b 0x40 32 ≠ s.dome.eye.nonce then 7
  else if s.tokState b = true then 8
  else 0

/-- The result of a token (R429, R431, R438). -/
def State.tokResult (s : State) (via : Via) (code : Nat) : State :=
  let s1 := (s.setDome EYE_STATUS_RESULT code).setDome EYE_EVENT_TOKEN 1
  if via = .mctp then s1.mctpReply (leBytes 1 0 ++ leBytes 1 code) else s1

/-- The eyepiece opens with a scope for some module ticks (R432): the opening is counted first, in both copies of the NOR (R399; log entry 23). -/
def State.eyeOpen (s : State) (scope duration : Nat) : State :=
  let e := s.tickNum + duration
  let n := leBytes 4 (s.dome.eye.opens + 1)
  ((((s.modDome (fun d => { d with
    eye := { d.eye with opens := d.eye.opens + 1 }, nor0 := norPut d.nor0 norOpens n, nor1 := norPut d.nor1 norOpens n })).setDome EYE_STATUS_OPEN 1).setDome EYE_STATUS_SCOPE scope).setDome
    EYE_EXPIRY_LO_TICK e).setDome EYE_EXPIRY_HI_TICK (e / 2 ^ 32)

/-- A token that passes consumes its nonce and acts: it clears REPLACE, or opens the eyepiece (R415, R431, R432). -/
def State.tokAct (s : State) (b : List Byte) : State :=
  let s1 := s.modDome (fun d => { d with eye := { d.eye with nonceOk := false } })
  if tokAction b = 1 then s1.setCtr { s1.dome.ctr with rpl := s1.dome.ctr.rpl + 1 } else s1.eyeOpen (tokScope b) (tokDuration b)

/-- Whether a token is being verified: one waits for its peripherals (R425, R431). -/
def State.tokBusy (s : State) : Bool := s.dome.heldReqs.any (fun h => match h with | .token _ _ _ => true | _ => false)

/-- A token is verified (R431): its form and route at once, and the rest once CRYPTO and CTR run (R425). While another is being verified it is checked all the same,
and code 9, which stands last, is its result where nothing else fails (DEDUCED, log entry 24). -/
def State.tokSubmit (s : State) (via : Via) (b : List Byte) : State :=
  if tokFormat b = false then s.tokResult via 1
  else if tokRoute via b = true then s.tokResult via 2
  else if s.tokBusy = true then s.tokResult via (if s.tokCheck via b = 0 then 9 else s.tokCheck via b)
  else if s.clocked 7 = false ∨ s.clocked 8 = false then s.holdReq (.token (tokAction b) via b)
  else
    let code := s.tokCheck via b
    (if code = 0 then s.tokAct b else s).tokResult via code

/-- Whether a token may arrive this way now (R374, R429, R438): over MCTP while the dome controller runs, over BAR0 once ready. -/
def State.tokVia (s : State) : Via → Bool
  | .mctp => s.domeUp
  | .bar0 => s.ready
  | .firmware => false

/-- Whether a token is taken this way now: one that comes over MCTP makes, with the message type, the enterprise number and the command, a message of up to 8,192
bytes (R428, R429). -/
def State.tokTakes (s : State) (via : Via) (b : List Byte) : Bool := s.tokVia via && (via != .mctp || decide (b.length + 6 ≤ 8192))

/-- CLEAR_REPLACE (R415): a token whose ACTION is not 2. One that comes through BAR0 is a BAR access (R396). -/
def execClearReplace (via : Via) (token : List Byte) (s : State) : Host.Outcome State Fault Refusal :=
  let s1 := s.viaCount via
  .next (if s.tokTakes via token = true ∧ tokAction token ≠ 2 then s1.tokSubmit via token else s1)

/-- OPEN_EYEPIECE (R432): a token whose ACTION is 2. One that comes through BAR0 is a BAR access (R396). -/
def execOpenEyepiece (via : Via) (token : List Byte) (s : State) : Host.Outcome State Fault Refusal :=
  let s1 := s.viaCount via
  .next (if s.tokTakes via token = true ∧ tokAction token = 2 then s1.tokSubmit via token else s1)

/-- A new nonce replaces the latest one (R429): a free value of 32 bytes. -/
def State.newNonce (s : State) : State :=
  let n := (Config.nonce s.free ++ List.replicate 32 0).take 32
  { s.modDome (fun d => { d with eye := { d.eye with nonce := n, nonceOk := true } }) with free := s.free + 1 }

/-- NONCE (R429). -/
def execNonceCmd (s : State) : Host.Outcome State Fault Refusal :=
  .next (if s.domeUp then (let t := s.newNonce; t.mctpReply (leBytes 1 0 ++ t.dome.eye.nonce)) else s)

/-- NEWNONCE (R438). -/
def execNewnonce (s : State) : Host.Outcome State Fault Refusal := .next (if s.domeUp then s.newNonce else s)

/-! ## Gating (R424, R425) -/

/-- A gating write (R424, R425): one that arrives while a slot is being erased takes effect when the erase ends. -/
def State.gate (s : State) (v : W32) : State :=
  if s.dome_ CAT_UPD_STATUS_STATE = 1 then s.holdReq (.clken v) else s.setDome DOM_CLKEN_EN (DOM_CLKEN_EN.of v)

/-- A request that waited is made again. -/
def State.runHeld (s : State) : Held → State
  | .setReplace => s.setReplace
  | .close => if s.clocked 7 = true ∧ s.clocked 8 = true then s.updCheck else s.holdReq .close
  | .fallback => s.fallback
  | .clken v => s.gate v
  | .token _ via b => s.tokSubmit via b
  | .spdm kind t request => s.spdmRequest kind t request

/-- Every request that waited is made again, in order; one whose peripheral is still gated waits on. -/
def State.runAllHeld (s : State) : State := s.dome.heldReqs.foldl State.runHeld (s.modDome (fun d => { d with heldReqs := [] }))

/-- DOM_CLKEN_WRITE (R424, R425): the dome firmware, which runs once a catalogue does, gates and ungates peripherals. -/
def execDomClkenWrite (v : W32) (s : State) : Host.Outcome State Fault Refusal :=
  .next (if s.domeUp = true ∧ s.runSlot.isSome = true then (s.gate v).runAllHeld else s)

/-- The gating writes that waited for an erase take effect, and then what waited for the peripherals that they ungate. -/
def State.eraseEnds (s : State) : State :=
  if s.dome.heldReqs.any (fun h => match h with | .clken _ => true | _ => false) then s.runAllHeld.runAllHeld else s

/-- UPD_ERASE_DONE (R399, R408): the slot's 1,020 MiB are erased and the update is OPEN. -/
def execUpdEraseDone (s : State) : Host.Outcome State Fault Refusal :=
  match s.dome.upd with
  | some (_, slot) =>
    if s.dome_ CAT_UPD_STATUS_STATE = 1 then
      .next ((s.setNor slot (fun m => m.filter (fun p => decide (0x3FC00000 ≤ p.1)))).setDome CAT_UPD_STATUS_STATE 2).eraseEnds
    else .next s
  | none => .next s

/-- A write of ABORT (R408, R421): the owner closes the update without a check, and the slot stays EMPTY. -/
def State.updAbort (s : State) (via : Via) : State :=
  if s.updVia via = false then s
  else
    match s.dome.upd with
    | some (owner, _) =>
      if owner = via ∧ (s.dome_ CAT_UPD_STATUS_STATE = 1 ∨ s.dome_ CAT_UPD_STATUS_STATE = 2) then
        (((s.modDome (fun d => { d with upd := none })).setDome CAT_UPD_STATUS_STATE 0).setDome CAT_EVENT_UPD_DONE 1).eraseEnds
      else s.updErr
    | none => s.updErr

/-- UPD_ABORT (R408, R421). -/
def execUpdAbort (via : Via) (s : State) : Host.Outcome State Fault Refusal := .next ((s.viaCount via).updAbort via)

/-! ## MCTP control (R428) -/

/-- MCTP_CONTROL (R428): the board management controller assigns the endpoint ID. -/
def execMctpControl (eid : Nat) (s : State) : Host.Outcome State Fault Refusal :=
  .next (if s.domeUp then (s.modDome (fun d => { d with eid := eid % 256 })).mctpReply (leBytes 1 0 ++ leBytes 1 eid) else s)

/-! ## The eyepiece (R432) -/

/-- The eyepiece closes (R432): the trace stops, and the scope with it the scan and the chronograph. -/
def State.eyeClose (s : State) : State :=
  if s.dome_ EYE_STATUS_OPEN = 1 then ((s.setDome EYE_STATUS_OPEN 0).setDome EYE_STATUS_SCOPE 0).setDome EYE_TRC_CTRL_EN 0 else s

/-- EYEPIECE_CLOSE (R432). -/
def execEyepieceClose (s : State) : Host.Outcome State Fault Refusal := .next s.eyeClose

/-- EYEPIECE_EXPIRY (R432): the module tick has reached EYE_EXPIRY. -/
def execEyepieceExpiry (s : State) : Host.Outcome State Fault Refusal :=
  .next (if s.dome_ EYE_EXPIRY_LO_TICK + 2 ^ 32 * s.dome_ EYE_EXPIRY_HI_TICK ≤ s.tickNum then s.eyeClose else s)

/-! ## The access window (R433) -/

/-- EYE_ACC_ADDR. -/
def State.eyeAddr (s : State) : Nat := s.dome_ EYE_ACC_ADDR_LO_ADDR + 2 ^ 32 * s.dome_ EYE_ACC_ADDR_HI_ADDR

/-- Where an eyepiece access goes (R33, R112, R433). -/
inductive EyeWay where
  | refused
  | debugPort (cluster off : Nat)
  | mesh (attach addr : Nat)
  deriving DecidableEq, Repr

/-- The way of an access to one word at address a: an occulted cluster is reached at its MSH_ block alone, through the region controller. -/
def State.eyeWay (s : State) (a : Nat) : EyeWay :=
  let i := cidx (addrX a) (addrY a)
  if inGrid (addrX a) (addrY a) = false ∨ 60 < a % 64 ∨ (addrSpace a = 3 ∧ a % 4 ≠ 0) then .refused
  else if s.enabled i = false then (if addrSpace a = 3 ∧ addrOff a < 0x1000 then .debugPort i (addrOff a) else .refused)
  else if s.addrOk a 4 = false then .refused
  else match s.attachFor (addrX a) with
    | some k => .mesh k a
    | none => .refused

/-- An access begins (R438). -/
def State.eyeStart (s : State) (write : Nat) : State :=
  ((((s.setDome EYE_ACC_CTRL_GO 1).setDome EYE_ACC_CTRL_WRITE write).setDome EYE_ACC_CTRL_BUSY 1).setDome EYE_ACC_CTRL_STATUS 0).modHost (fun h => { h with serial := h.serial + 1 })

/-- EYE_ACC_READ (R433): a word is read; a region that does not answer reads as all ones (R115, R423). -/
def execEyeAccRead (s : State) : Host.Outcome State Fault Refusal :=
  if s.scopeOpen 3 = false ∨ s.dome_ EYE_ACC_CTRL_BUSY = 1 then .next s
  else
    let s1 := s.eyeStart 0
    .next (match s.eyeWay s.eyeAddr with
      | .refused => s1.eyeDone false 0 1
      | .debugPort i off => s1.eyeDone false (if s.pageOpen (regionOf i) then (s.clusterReg i off).toNat else ones32) 0
      | .mesh k a => s1.bridgeRd k a (a % 64) 4 (8 * s.host.serial + 4) (BitVec.ofNat 64 (15 * 2 ^ (a % 64))))

/-- EYE_ACC_WRITE (R433): the word in EYE_ACC_DATA is written. -/
def execEyeAccWrite (s : State) : Host.Outcome State Fault Refusal :=
  if s.scopeOpen 3 = false ∨ s.dome_ EYE_ACC_CTRL_BUSY = 1 then .next s
  else
    let s1 := s.eyeStart 1
    let w := s.dome_ EYE_ACC_DATA_DATA
    .next (match s.eyeWay s.eyeAddr with
      | .refused => s1.eyeDone true 0 1
      | .debugPort i off => (if s.pageOpen (regionOf i) then s1.clusterRegWrite i off (BitVec.ofNat 32 w) else s1).eyeDone true 0 0
      | .mesh k a => s1.bridgePut k a 0 (8 * s.host.serial + 4) 0 (leBytes 4 w))

/-! ## Scan (R434) -/

/-- The bits of a number, least significant first. -/
def bitsLsb (n v : Nat) : List Bool := (List.range n).map (fun k => v.testBit k)

/-- Whether the selected target takes a capture or a shift (R434): a die always, a region chain only while the region is FREE or in FAULT. -/
def State.scanOk (s : State) : Bool :=
  let t := s.dome_ EYE_SCAN_CTRL_TARGET; let r := s.dome_ EYE_SCAN_CTRL_REGION
  decide (t < 2) || (t == 2 && decide (r < 112) && ((s.region r).sched_ == 0 || (s.region r).sched_ == 6))

/-- The mask position of logical local position (lx, ly) in a region, and the logical position of a mask position, which the same rule gives (R17). -/
def maskPos (r lx ly : Nat) : Nat × Nat := if halfOf r = 1 then (9 - lx, 7 - ly) else (lx, ly)

/-- The logical number, lx + 10 ly, of the cluster at place k of a region's chain, which goes through the mask positions row by row (R17; log entry 25). -/
def chainCluster (r k : Nat) : Nat := let p := maskPos r (k % 10) (k / 10); p.1 + 10 * p.2

/-- A position of a region's chain as the eyepiece reports it: the region and the mask coordinates (R17). -/
def scanPosition (r bit : Nat) : Nat × Nat × Nat := (r, bit / 4096 % 10, bit / 40960)

/-- Free bits from k on. -/
def freeBits (k n : Nat) : List Bool := (List.range n).map (fun j => (Config.freeWord (k + j / 64)).getLsbD (j % 64))

/-- Bits of a region's chain. -/
def regionScanBits : Nat := 4096 * 80

/-- The key of the selected target's scan register: 0 and 1 the dies', 4 + r region r's. -/
def State.scanKey (s : State) : Nat := let t := s.dome_ EYE_SCAN_CTRL_TARGET; if t = 2 then 4 + s.dome_ EYE_SCAN_CTRL_REGION else t

/-- The bits of a scan register. -/
def Eye.scan (e : Eye) (k : Nat) : List Bool := SMap.get (fun _ => []) e.chain k

/-- The length of the selected chain (R434, R438): a region's 4,096 bits for each cluster, or what a die's instruction captured. -/
def State.scanLen (s : State) : Nat := if s.dome_ EYE_SCAN_CTRL_TARGET = 2 then regionScanBits else (s.dome.eye.scan s.scanKey).length

/-- The selected target's register takes the bits of a chain. -/
def State.setScan (s : State) (l : List Bool) : State :=
  s.modDome (fun d => { d with eye := { d.eye with chain := SMap.set (fun _ => []) d.eye.chain s.scanKey l } })

/-- The chain that a capture loads (R434): a region's 4,096 bits for each of its clusters in mask order, where `bits` gives them by logical position and those that it
does not give are free; a die's IDCODE, its sampled bits, or the one bit 0 of BYPASS (PRESUMED, log entry 25). -/
def State.scanChain (s : State) (tap : TapInstr) (bits : List Bool) : List Bool :=
  let t := s.dome_ EYE_SCAN_CTRL_TARGET
  if t = 2 then
    let all := bits ++ freeBits s.free (regionScanBits - bits.length)
    (List.range 80).flatMap (fun k => sliceOf all (4096 * chainCluster (s.dome_ EYE_SCAN_CTRL_REGION) k) 4096)
  else match tap with
    | .bypass => [false]
    | .idcode => bitsLsb 32 (if t = 0 then 0x18960B4B else 0x18961B4B)
    | .sample | .extest => bits

/-- SCAN_CAPTURE (R434, R438): CAPTURE is set (R7), and the selected chain is captured under an instruction of its TAP, with the bits that it held; EXTEST only in
HALTED. -/
def execScanCapture (tap : TapInstr) (bits : List Bool) (s : State) : Host.Outcome State Fault Refusal :=
  if s.scopeOpen 0 = false then .next s
  else
    let s1 := s.setDome EYE_SCAN_CTRL_CAPTURE 1
    if s.scanOk = false ∨ (tap = .extest ∧ s.mstate ≠ 3) then .next (s1.setDome EYE_EVENT_SCAN_REF 1)
    else
      let s2 := s1.setScan (s.scanChain tap bits)
      let s3 := if s.dome_ EYE_SCAN_CTRL_TARGET = 2 then { s2 with free := s2.free + (regionScanBits - bits.length + 63) / 64 } else s2
      .next (s3.setDome EYE_SCAN_LEN_BITS s3.scanLen)

/-- SCAN_SHIFT (R434, R438): SHIFT is set (R7); 32 bits go in from EYE_SCAN_DATA and the first 32 come out into it. -/
def execScanShift (s : State) : Host.Outcome State Fault Refusal :=
  if s.scopeOpen 0 = false then .next s
  else
    let s1 := s.setDome EYE_SCAN_CTRL_SHIFT 1
    if s.scanOk = false then .next (s1.setDome EYE_EVENT_SCAN_REF 1)
    else
      let l := s.dome.eye.scan s.scanKey ++ bitsLsb 32 (s.dome_ EYE_SCAN_DATA_DATA)
      .next ((s1.setScan (l.drop 32)).setDome EYE_SCAN_DATA_DATA (bitsBy 32 (fun k => l.getD k false)))

/-! ## The chronograph (R435) -/

/-- CHRONO_SELECT (R435): both counts are cleared, and the selection takes effect at the next tick. -/
def execChronoSelect (i : Fin 16) (v : W32) (s : State) : Host.Outcome State Fault Refusal :=
  if s.scopeOpen 1 = false then .next s
  else
    let s1 := (((s.setDome (EYE_CHR_SEL_EVENT.nth i.val) (EYE_CHR_SEL_EVENT.of v)).setDome (EYE_CHR_SEL_REGION.nth i.val) (EYE_CHR_SEL_REGION.of v)).setDome
      (EYE_CHR_LAST_CNT.nth i.val) 0).setDome (EYE_CHR_TOT_HI.nth i.val) 0
    .next (s1.modDome (fun d => { d with eye := { d.eye with
      totals := SMap.set (fun _ => 0) d.eye.totals i.val 0, fresh := NSet.add d.eye.fresh i.val } }))

/-! ## The trace (R436) -/

/-- The 32 bytes of a trace record. -/
def State.traceBytes (s : State) (w2 : Nat) (words : List W32) : List Byte :=
  leBytes 8 s.tickNum ++ leBytes 4 w2 ++ (List.range 5).flatMap (fun k => leBytes 4 (words.getD k 0).toNat)

/-- Word 2 of a trace record. -/
def traceWord2 (kind region x y : Nat) : Nat := kind % 256 + 2 ^ 8 * (region % 128) + 2 ^ 15 * (x % 128) + 2 ^ 22 * (y % 128)

/-- Records of the ring. -/
def State.traceSize (s : State) : Nat := 2 ^ s.dome_ EYE_TRC_SIZE_LOG2

/-- Whether the ring is full: the module never passes the host's HEAD. -/
def State.traceFull (s : State) : Bool := (s.dome_ EYE_TRC_TAIL_TAIL + 1) % s.traceSize == s.dome_ EYE_TRC_HEAD_HEAD

/-- A record is dropped and counted. -/
def State.traceDrop (s : State) : State :=
  (s.setDome EYE_TRC_DROP_CNT (s.dome_ EYE_TRC_DROP_CNT + 1)).modDome (fun d => { d with eye := { d.eye with lost := d.eye.lost + 1 } })

/-- A record is written at TAIL (R383, R436): a DMA that the aperture blocks stops the trace. -/
def State.tracePut (s : State) (bs : List Byte) : State :=
  let base := s.dome_ EYE_TRC_BASE_LO_BASE + 2 ^ 32 * s.dome_ EYE_TRC_BASE_HI_BASE
  match s.dmaWrite 4 0 (base + 32 * s.dome_ EYE_TRC_TAIL_TAIL) bs with
  | (true, t) => t.setDome EYE_TRC_TAIL_TAIL ((s.dome_ EYE_TRC_TAIL_TAIL + 1) % s.traceSize)
  | (false, t) => (t.setDome EYE_TRC_CTRL_EN 0).setDome EYE_EVENT_TRC_APR 1

/-- The LOSS record (R436): how many records were dropped since the last one written; its other fields are free values. -/
def State.traceLoss (s : State) : State :=
  let w := Config.freeWord s.free; let a := Config.freeWord (s.free + 1); let b := Config.freeWord (s.free + 2)
  let bs := s.traceBytes (5 + 2 ^ 8 * (w.toNat % 2 ^ 24))
    [BitVec.ofNat 32 s.dome.eye.lost, a.truncate 32, BitVec.ofNat 32 (a.toNat / 2 ^ 32), b.truncate 32, BitVec.ofNat 32 (b.toNat / 2 ^ 32)]
  ({ s with free := s.free + 3 }.modDome (fun d => { d with eye := { d.eye with lost := 0 } })).tracePut bs

/-- A LOSS record is written at the first free entry, once there is one (R436). -/
def State.traceRoom (s : State) : State :=
  if s.scopeOpen 2 = true ∧ s.dome_ EYE_TRC_CTRL_EN = 1 ∧ s.dome.eye.lost ≠ 0 ∧ s.traceFull = false ∧ s.host.d3hot = false then s.traceLoss else s

/-- The data of a record (R436): a slot start's slot, epoch, set and SLIP, a drain's TCK_RDRAIN_CCLK, and the new states of a change are read from the region; the old
states of a change, an event's PEND bit and event word, and the words that a kind leaves over are the command's (DEDUCED, log entry 24). -/
def State.traceData (s : State) (kind r : Nat) (words : List W32) : List W32 :=
  let g := s.region r
  let w := fun (k : Nat) => words.getD k 0
  let v := fun (n : Nat) => BitVec.ofNat 32 n
  if 112 ≤ r then words
  else if kind = 1 then [v g.passed, v (g.rd TCK_RSCHED_EPOCH), v (g.rd TCK_RSET_SET), v (g.rd TCK_RSTATUS_SLIP), w 4]
  else if kind = 2 then [v (g.rd TCK_RDRAIN_CCLK_CCLK), w 1, w 2, w 3, w 4]
  else if kind = 3 then [w 0, v g.sched_, w 2, v g.power, w 4]
  else words

/-- TRACE_RECORD (R436): a record of an enabled kind is written, or dropped while the ring is full or the function sleeps (R371); a LOSS record comes first
after drops. -/
def execTraceRecord (kind region x y : Nat) (words : List W32) (s : State) : Host.Outcome State Fault Refusal :=
  let on : State → Bool := fun t => t.dome_ EYE_TRC_CTRL_EN == 1
  if s.scopeOpen 2 = false ∨ on s = false ∨ kind = 0 ∨ 4 < kind ∨ (s.dome_ EYE_TRC_CTRL_KINDS).testBit kind = false then .next s
  else if s.host.d3hot = true ∨ s.traceFull = true then .next s.traceDrop
  else
    let s1 := if s.dome.eye.lost = 0 then s else s.traceLoss
    .next (if on s1 = false then s1
      else if s1.traceFull then s1.traceDrop
      else s1.tracePut (s1.traceBytes (traceWord2 kind region x y) (s1.traceData kind region words)))

end Sys2Proof.Machine
end

