-- ==== Sys2Proof/Machine/RegWrite.lean ====
section
/-! DEFINITION. Writes of registers: the dome space by any of its three ways (R7, R8, R115, R374, R421-R425, R429, R438), clusters' space 3, and the host
bridge's own blocks (R376, R385, R395-R397). A register whose write has a command of its own is written by that command's meaning. Readings that the words
leave open are log entry 24. -/

namespace Sys2Proof.Machine

/-! ## The lock (R7, R411) -/

/-- Whether a write differs from an RWL field of the register at an offset. -/
def rwlDiffers (t : List RegRow) (o : Nat) (old v : W32) : Bool :=
  t.any (fun r => r.covers o && r.access == .rwl && (old &&& r.fld.mask) != (v &&& r.fld.mask))

/-- The lock-violation status of a block that has no bit of its own (R7). -/
def State.lockViol (s : State) : State := s.setDome TCK_STATUS_LOCK_VIOL 1

/-- A write of a dome register under its access codes; RWL fields are read only after the lock. -/
def State.domePut (s : State) (off : Nat) (v : W32) : State :=
  let s1 := s.modDome (fun d => { d with regs := Regs.write domeTable d.regs off d.locked v })
  if s.dome.locked = true ∧ rwlDiffers domeTable off (Regs.word domeTable s.dome.regs off) v = true then s1.lockViol else s1

/-- A write of a region's control page under its access codes. -/
def State.pagePut (s : State) (r off : Nat) (v : W32) : State :=
  let s1 := s.modRegion r (fun g => { g with regs := Regs.write pageTable g.regs off s.dome.locked v })
  if s.dome.locked = true ∧ rwlDiffers pageTable off (Regs.word pageTable (s.region r).regs off) v = true then s1.lockViol else s1

/-- An effect that happens when a bit is written 1. -/
def State.whenSet (s : State) (f : Fld) (v : W32) (act : State → Host.Outcome State Fault Refusal) : State := if f.of v = 1 then s.after act else s

/-! ## The dome space -/

/-- FND_CFG (R350): TOPO 4-7 is ignored and sets CFG_ERR. -/
def State.fndCfgPut (s : State) (v : W32) : State :=
  if s.dome.locked = false ∧ 4 ≤ FND_CFG_TOPO.of v then (s.domePut 0x404 (FND_CFG_TOPO.put v (s.dome_ FND_CFG_TOPO))).setDome TCK_STATUS_CFG_ERR 1
  else s.domePut 0x404 v

/-- CAT_UPD_CTRL (R408, R421): the write of a transport that does not own the open update is dropped, and sets UPD_ERR. -/
def State.updCtrlPut (s : State) (via : Via) (v : W32) : State :=
  let k := CAT_UPD_CTRL_SLOT.of v
  let foreign := match s.dome.upd with | some (owner, _) => owner != via | none => false
  if foreign then s.updErr
  else
    let s1 := s.setDome CAT_UPD_CTRL_SLOT k
    let s2 := if CAT_UPD_CTRL_OPEN.of v = 1 then s1.updOpen k via else s1
    let s3 := if CAT_UPD_CTRL_CLOSE.of v = 1 then s2.updClose via else s2
    if CAT_UPD_CTRL_ABORT.of v = 1 then s3.updAbort via else s3

/-- CAT_UPD_OFFSET (R408): a transport that does not own the open update is refused. -/
def State.updOffsetPut (s : State) (via : Via) (v : W32) : State :=
  match s.dome.upd with
  | some (owner, _) => if owner = via then s.domePut 0x788 v else s.updErr
  | none => s.domePut 0x788 v

/-- The token in EYE_TOKEN (R430, R438). -/
def State.tokenWindow (s : State) : List Byte :=
  let n := 196 + Mem.le s.dome.eye.token 192 4
  Mem.bytes s.dome.eye.token 0 (if n ≤ 8192 then n else 8192)

/-- EYE_CTRL (R438). A submission over MCTP is no TOKEN message, so RESULT alone reports it. -/
def State.eyeCtrlPut (s : State) (via : Via) (v : W32) : State :=
  let s1 := if EYE_CTRL_SUBMIT.of v = 1 then s.tokSubmit (if via = .bar0 then .bar0 else .firmware) s.tokenWindow else s
  (s1.whenSet EYE_CTRL_NEWNONCE v execNewnonce).whenSet EYE_CTRL_CLOSE v execEyepieceClose

/-- EYE_ACC_CTRL (R433, R438): GO starts the access that WRITE names. -/
def State.eyeAccPut (s : State) (v : W32) : State :=
  let s1 := s.setDome EYE_ACC_CTRL_WRITE (EYE_ACC_CTRL_WRITE.of v)
  s1.whenSet EYE_ACC_CTRL_GO v (if EYE_ACC_CTRL_WRITE.of v = 1 then execEyeAccWrite else execEyeAccRead)

/-- EYE_SCAN_CTRL (R434, R438): the selection, then a capture, then a shift. -/
def State.eyeScanPut (s : State) (v : W32) : State :=
  let s1 := (s.setDome EYE_SCAN_CTRL_TARGET (EYE_SCAN_CTRL_TARGET.of v)).setDome EYE_SCAN_CTRL_REGION (EYE_SCAN_CTRL_REGION.of v)
  ((s1.setDome EYE_SCAN_LEN_BITS s1.scanLen).whenSet EYE_SCAN_CTRL_CAPTURE v (execScanCapture .idcode [])).whenSet EYE_SCAN_CTRL_SHIFT v execScanShift

/-- EYE_TRC_CTRL (R436, R438): EN begins the count of dropped records. -/
def State.eyeTracePut (s : State) (v : W32) : State :=
  let starts := s.dome_ EYE_TRC_CTRL_EN == 0 && EYE_TRC_CTRL_EN.of v == 1
  let s1 := s.domePut 0xC0C v
  if starts then (s1.setDome EYE_TRC_DROP_CNT 0).modDome (fun d => { d with eye := { d.eye with lost := 0 } }) else s1

/-- A write of a register below the control pages that has an effect of its own. -/
def State.domeCtrl (s : State) (via : Via) (off : Nat) (v : W32) : State :=
  if off = 0x4 then (if via = .firmware then s.after (execDomClkenWrite v) else s)
  else if off = 0x8 then s.after (execMclkSrcWrite v)
  else if off = 0x200 then s.after (execTckPeriodWrite v)
  else if off = 0x204 then s.after (execTckCtrlWrite v)
  else if off = 0x228 then s.after (execTckEphForce v)
  else if off = 0x300 then s.after (execAlmEnvelopeWrite v)
  else if off = 0x400 then (s.domePut 0x400 v).whenSet FND_CTRL_RUN v execFinderRun
  else if off = 0x404 then s.fndCfgPut v
  else if off = 0x504 then (s.whenSet DOM_FLT_CTRL_REPLACE v execDomFltReplace).whenSet DOM_FLT_CTRL_SUSPECT v execDomFltSuspect
  else if off = 0x600 then s.after (execDomColCtrlWrite v)
  else if (off = 0x610 ∨ (0x620 ≤ off ∧ off < 0x630) ∨ (0x660 ≤ off ∧ off < 0x680)) ∧ s.colOpen = true then s.colEvent DOM_COL_EVENT_CFG_ERR
  else if off = 0x614 then (if DOM_COL_WAIT_MS.of v = 0 then s.colEvent DOM_COL_EVENT_CFG_ERR else s.domePut 0x614 v)
  else if off = 0x720 then s.whenSet CAT_CTRL_FALLBACK v execFallback
  else if off = 0x780 then s.updCtrlPut via v
  else if off = 0x788 then s.updOffsetPut via v
  else if off = 0xA04 then s.eyeCtrlPut via v
  else if off = 0xA4C then s.eyeAccPut v
  else if off = 0xA60 then s.eyeScanPut v
  else if h : 0xB00 ≤ off ∧ off < 0xB40 then s.after (execChronoSelect ⟨(off - 0xB00) / 4, by omega⟩ v)
  else if off = 0xC08 then (if 8 ≤ EYE_TRC_SIZE_LOG2.of v ∧ EYE_TRC_SIZE_LOG2.of v ≤ 20 then s.domePut 0xC08 v else s)
  else if off = 0xC0C then s.eyeTracePut v
  else if off = 0xC10 then (s.domePut 0xC10 v).traceRoom
  else s.domePut off v

/-- A write of a region's control page (R115, R354): dropped while the region is DARK or bypassed. -/
def State.pageWrite (s : State) (r : RegionId) (off : Nat) (v : W32) : State :=
  if s.pageOpen r.val = false then s
  else if off = 0x0 then s.after (execDrvSrcWrite r v)
  else if off = 0x8 then s.after (execDrvFreqWrite r v)
  else if off = 0x40 then s.after (execTrcSrcWrite r v)
  else if off = 0x48 then s.after (execTrcCtrlWrite r v)
  else if off = 0x9C then
    ((s.pagePut r.val 0x9C v).whenSet TCK_RDRAIN_REQ v (execDrainReq r)).whenSet TCK_RDRAIN_FORCE v (execForcedReplacement r)
  else if off = 0x104 then s.after (execAlmReserveWrite r v)
  else if off = 0x120 then s.after (execAlmBandThrWrite r v)
  else if h : 0x140 ≤ off ∧ off < 0x240 then s.after (execAlmCoefWrite r ⟨(off - 0x140) / 0x40, by omega⟩ ⟨(off - 0x140) % 0x40 / 4, by omega⟩ v)
  else if off = 0x308 then s.whenSet PWR_CTRL_FORCE_DARK v (execForceDark r)
  else if off = 0x380 then s.after (execThmCtrlWrite r v)
  else s.pagePut r.val off v

/-- A write of a port's block (R349). -/
def State.portWrite (s : State) (p : PortId) (off : Nat) (v : W32) : State :=
  if off = 0 then
    let s1 := s.modPort p.val (fun z => z.wr ZL_CTRL_NARROW_OK (ZL_CTRL_NARROW_OK.of v))
    let was := (s.port p.val).rd ZL_CTRL_EN; let now := ZL_CTRL_EN.of v
    let s2 := if was = 0 ∧ now = 1 then s1.after (execZlEnable p) else if was = 1 ∧ now = 0 then s1.after (execZlDisable p) else s1
    s2.whenSet ZL_CTRL_RETRAIN v (execZlRetrain p)
  else if off = 0x1C then s.after (execZlCredWrite p 0 v)
  else if off = 0x20 then s.after (execZlCredWrite p 1 v)
  else s.modPort p.val (fun z => { z with regs := Regs.write zlTable z.regs off false v })

/-- Whether a write of the dome space arrives (R374, R428): the host's once the module is ready, MCTP's while the dome controller runs, the firmware's
once a catalogue runs it. -/
def State.domeVia (s : State) : Via → Bool
  | .bar0 => s.ready
  | .mctp => s.domeUp
  | .firmware => s.domeUp && s.runSlot.isSome

/-- A write at a dome offset (R7, R8, R115, R374, R376, R425, R438). -/
def State.domeWrite (s : State) (via : Via) (off : Nat) (v : W32) : State :=
  if s.domeVia via = false ∨ off % 4 ≠ 0 ∨ s.gatedReg off = true ∨ s.eyeClosed off = true then s
  else if off < 0x1000 then s.domeCtrl via off v
  else if h : 0x100000 ≤ off ∧ off < 0x170000 then s.pageWrite ⟨(off - 0x100000) / 0x1000, by omega⟩ (off % 0x1000) v
  else if h : 0x200000 ≤ off ∧ off < 0x204000 then s.portWrite ⟨(off - 0x200000) / 0x100, by omega⟩ (off % 0x100) v
  else if 0x300000 ≤ off ∧ off < 0x310000 then s.updWin (off - 0x300000) v via
  else if 0x400000 ≤ off ∧ off < 0x402000 then
    s.modDome (fun d => { d with eye := { d.eye with token := Mem.write d.eye.token (off - 0x400000) (leBytes 4 v.toNat) } })
  else s

/-! ## MCTP register commands (R429) -/

/-- The STATUS of a register message (R429): LENGTH, then ALIGN, else OK. -/
def mctpStatus (a : MctpAt) : Nat := if a.whole = false then 1 else if a.off % 4 ≠ 0 then 2 else 0

/-- REG_READ (R429): STATUS and DATA; where STATUS is not OK, DATA is a free value. -/
def execRegRead (a : MctpAt) (s : State) : Host.Outcome State Fault Refusal :=
  if s.domeUp = false then .next s
  else if mctpStatus a ≠ 0 then .next (s.takeFree.2.mctpReply (leBytes 1 (mctpStatus a) ++ leBytes 4 s.takeFree.1.toNat))
  else .next ((s.domeLatch a.off).mctpReply (leBytes 1 0 ++ leBytes 4 (s.domeWord a.off).toNat))

/-- REG_WRITE (R429). -/
def execRegWrite (a : MctpAt) (v : W32) (s : State) : Host.Outcome State Fault Refusal :=
  if s.domeUp = false then .next s
  else if mctpStatus a ≠ 0 then .next (s.mctpReply (leBytes 1 (mctpStatus a)))
  else .next ((s.domeWrite .mctp a.off v).mctpReply (leBytes 1 0))

/-- Consecutive words are written in order. -/
def State.writeWords (s : State) (off : Nat) : List W32 → State
  | [] => s
  | v :: t => (s.domeWrite .mctp off v).writeWords (off + 4) t

/-- BLOCK_WRITE (R429): 1 to 16 words; another count is LENGTH. -/
def execBlockWrite (a : MctpAt) (vs : List W32) (s : State) : Host.Outcome State Fault Refusal :=
  if s.domeUp = false then .next s
  else if vs = [] ∨ 16 < vs.length then .next (s.mctpReply (leBytes 1 1))
  else if mctpStatus a ≠ 0 then .next (s.mctpReply (leBytes 1 (mctpStatus a)))
  else .next ((s.writeWords a.off vs).mctpReply (leBytes 1 0))

/-! ## The host bridge's blocks (R376, R385, R395-R397) -/

/-- A write of the HIF_ block (R396); a dialogue that TRIG starts here takes its times as free values. -/
def State.hifWrite (s : State) (off : Nat) (v : W32) : State :=
  let s1 := s.modHost (fun h => { h with hif := Regs.write hifTable h.hif off false v })
  if off = 0x28 ∧ HIF_PTM_CTRL_TRIG.of v = 1 then
    let k := s1.free
    ({ s1 with free := k + 2 }).after (execPtmTrig (Config.freeWord k).toNat (Config.freeWord (k + 1)).toNat)
  else s1

/-- A write of queue q's configuration (R385, R387, R397): base and size only while the queue is OFF. Bits [11:0] of a
base are reserved: they read as zero, and one that is set makes the base unaligned at EN. -/
def State.queueWrite (s : State) (q : QueueId) (off : Nat) (v : W32) : State :=
  let put (w : W32) : State := s.modHostQ q.val (fun h => { h with regs := Regs.write hqTable h.regs off false w })
  if off = 0 ∨ off = 4 ∨ off = 8 ∨ off = 0xC ∨ off = 0x10 then (if (s.hostQ q.val).state = 0 then put v else s)
  else if off = 0x14 then s.after (if HIF_Q_CTRL_EN.of v = 1 then execQueueEnable q else execQueueDisable q)
  else put v

/-- A write of BAR4 (R376): the MSI-X table; the mask bit alone of an entry's last word; the pending-bit array is read only. -/
def State.msixWrite (s : State) (off : Nat) (v : W32) : State :=
  if 0x2000 ≤ off ∨ off % 4 ≠ 0 then s
  else
    let k := off / 4
    s.modHost (fun h => { h with msix := SMap.set msixReset h.msix k (if k % 4 = 3 then v &&& 1 else v) })

/-- Whether a cluster's space 3 takes a write: the cluster is enabled and its region has power (R33, R89). -/
def State.spaceOpen (s : State) (i : Nat) : Bool := s.enabled i && !(s.region (regionOf i)).dark

/-- Whether a write's own command counts the BAR access that it is (R396): a dialogue that TRIG starts, and a queue's EN. -/
def countsItself : RegAddr → W32 → Bool
  | .hif off, v => off == 0x28 && HIF_PTM_CTRL_TRIG.of v == 1
  | .queue _ off, _ => off == 0x14
  | _, _ => false

/-- REGISTER_WRITE (R7): a write to a register of any block. The bridge's own blocks take the host's writes alone (R376, R429). -/
def execRegisterWrite (via : Via) (addr : RegAddr) (v : W32) (s : State) : Host.Outcome State Fault Refusal :=
  let s0 := if via = .bar0 ∧ countsItself addr v = false then s.barCount else s
  match addr with
  | .dome off => .next (s0.domeWrite via off v)
  | .page r off => .next (if off < 0x1000 then s0.domeWrite via (0x100000 + 0x1000 * r.val + off) v else s0)
  | .port p off => .next (if off < 0x100 then s0.domeWrite via (0x200000 + 0x100 * p.val + off) v else s0)
  | .cluster c off => .next (if s0.domeVia via = true ∧ s0.spaceOpen c.val = true ∧ off < 0x20000 ∧ off % 4 = 0 then s0.clusterRegWrite c.val off v else s0)
  | .hif off => .next (if via = .bar0 ∧ off % 4 = 0 then s0.hifWrite off v else s0)
  | .queue q off => .next (if via = .bar0 ∧ off % 4 = 0 ∧ off < 64 then s0.queueWrite q off v else s0)
  | .bar4 off => .next (if via = .bar0 then s0.msixWrite off v else s0)

end Sys2Proof.Machine
end

