-- ==== Sys2Proof/Machine/Dispatch.lean ====
section
/-! DEFINITION. One arm for each command: its meaning. -/

namespace Sys2Proof.Machine

/-- A command's effect on everything but the queue of waiting commands. -/
def exec (i : Instr) (s : State) : Host.Outcome State Fault Refusal :=
  match i with
  | .readyRise site src => Sys2Proof.Machine.execReadyRise site src s
  | .referenceLoss site src => Sys2Proof.Machine.execReferenceLoss site src s
  | .readyFreqLoss site src => Sys2Proof.Machine.execReadyFreqLoss site src s
  | .drvSrcWrite r v => Sys2Proof.Machine.execDrvSrcWrite r v s
  | .trcSrcWrite r v => Sys2Proof.Machine.execTrcSrcWrite r v s
  | .markerDecode r high periods obs => Sys2Proof.Machine.execMarkerDecode r high periods obs s
  | .tickInstant r obs => Sys2Proof.Machine.execTickInstant r obs s
  | .localTick r obs => Sys2Proof.Machine.execLocalTick r obs s
  | .masterMarkerInsert => Sys2Proof.Machine.execMasterMarkerInsert s
  | .masterLos => Sys2Proof.Machine.execMasterLos s
  | .rootTick ptm volt cur energy => Sys2Proof.Machine.execRootTick ptm volt cur energy s
  | .drvFreqWrite r v => Sys2Proof.Machine.execDrvFreqWrite r v s
  | .relockLock r ns => Sys2Proof.Machine.execRelockLock r ns s
  | .relockTimeout r => Sys2Proof.Machine.execRelockTimeout r s
  | .unlock r => Sys2Proof.Machine.execUnlock r s
  | .acquireLock r transit => Sys2Proof.Machine.execAcquireLock r transit s
  | .acquireTimeout r transit => Sys2Proof.Machine.execAcquireTimeout r transit s
  | .holdoverTimeout r => Sys2Proof.Machine.execHoldoverTimeout r s
  | .transitUnlock r => Sys2Proof.Machine.execTransitUnlock r s
  | .transitReacquire r => Sys2Proof.Machine.execTransitReacquire r s
  | .transitReacquireTimeout r => Sys2Proof.Machine.execTransitReacquireTimeout r s
  | .trcCtrlWrite r v => Sys2Proof.Machine.execTrcCtrlWrite r v s
  | .seeingStretch r transit droopMv periods => Sys2Proof.Machine.execSeeingStretch r transit droopMv periods s
  | .tckSnapRead => Sys2Proof.Machine.execTckSnapRead s
  | .tckRnumRead r => Sys2Proof.Machine.execTckRnumRead r s
  | .tckPeriodWrite v => Sys2Proof.Machine.execTckPeriodWrite v s
  | .tckCtrlWrite v => Sys2Proof.Machine.execTckCtrlWrite v s
  | .goldenRotate => Sys2Proof.Machine.execGoldenRotate s
  | .almanacDebit r aclk cclk tclk => Sys2Proof.Machine.execAlmanacDebit r aclk cclk tclk s
  | .almBandThrWrite r v => Sys2Proof.Machine.execAlmBandThrWrite r v s
  | .almCoefWrite r band cls v => Sys2Proof.Machine.execAlmCoefWrite r band cls v s
  | .almReserveWrite r v => Sys2Proof.Machine.execAlmReserveWrite r v s
  | .almBalRead r => Sys2Proof.Machine.execAlmBalRead r s
  | .currentLimit r deciAmps periods => Sys2Proof.Machine.execCurrentLimit r deciAmps periods s
  | .almEnvelopeWrite v => Sys2Proof.Machine.execAlmEnvelopeWrite v s
  | .breakerTrip r rail deciAmps => Sys2Proof.Machine.execBreakerTrip r rail deciAmps s
  | .forceDark r => Sys2Proof.Machine.execForceDark r s
  | .inputLoss => Sys2Proof.Machine.execInputLoss s
  | .inputOvervoltage => Sys2Proof.Machine.execInputOvervoltage s
  | .inputRise => Sys2Proof.Machine.execInputRise s
  | .inputReconnect => Sys2Proof.Machine.execInputReconnect s
  | .sensorConversion r quarterDegrees => Sys2Proof.Machine.execSensorConversion r quarterDegrees s
  | .darkThreshold r => Sys2Proof.Machine.execDarkThreshold r s
  | .parkDrainTimeout r => Sys2Proof.Machine.execParkDrainTimeout r s
  | .rampDone r => Sys2Proof.Machine.execRampDone r s
  | .rampFail r => Sys2Proof.Machine.execRampFail r s
  | .thmCtrlWrite r v => Sys2Proof.Machine.execThmCtrlWrite r v s
  | .powerWave => Sys2Proof.Machine.execPowerWave s
  | .ringInsert c stop out => Sys2Proof.Machine.execRingInsert c stop out s
  | .ringReserve c stop out => Sys2Proof.Machine.execRingReserve c stop out s
  | .ringEject c stop ring good => Sys2Proof.Machine.execRingEject c stop ring good s
  | .creditReturn c stop ring good => Sys2Proof.Machine.execCreditReturn c stop ring good s
  | .muLaneToken c lane => Sys2Proof.Machine.execMuLaneToken c lane s
  | .muCmdEnqueue c => Sys2Proof.Machine.execMuCmdEnqueue c s
  | .muListRun c => Sys2Proof.Machine.execMuListRun c s
  | .muListFetch c upsets => Sys2Proof.Machine.execMuListFetch c upsets s
  | .muNop c => Sys2Proof.Machine.execMuNop c s
  | .matmul c upsets => Sys2Proof.Machine.execMatmul c upsets s
  | .matmulSparse c upsets => Sys2Proof.Machine.execMatmulSparse c upsets s
  | .muFailedRetire c => Sys2Proof.Machine.execMuFailedRetire c s
  | .muEpilogue c => Sys2Proof.Machine.execMuEpilogue c s
  | .muCmdComplete c => Sys2Proof.Machine.execMuCmdComplete c s
  | .muCompletionSend c b => Sys2Proof.Machine.execMuCompletionSend c b s
  | .muCbindWrite c b v => Sys2Proof.Machine.execMuCbindWrite c b v s
  | .arm c e => Sys2Proof.Machine.execArm c e s
  | .staleTokenDiscard c e q => Sys2Proof.Machine.execStaleTokenDiscard c e q s
  | .contextRunEmit c e x => Sys2Proof.Machine.execContextRunEmit c e x s
  | .nldResponse c e ring good => Sys2Proof.Machine.execNldResponse c e ring good s
  | .passOp c e x => Sys2Proof.Machine.execPassOp c e x s
  | .iadd c e x => Sys2Proof.Machine.execIadd c e x s
  | .isub c e x => Sys2Proof.Machine.execIsub c e x s
  | .imul c e x => Sys2Proof.Machine.execImul c e x s
  | .imulh c e x => Sys2Proof.Machine.execImulh c e x s
  | .iand c e x => Sys2Proof.Machine.execIand c e x s
  | .ior c e x => Sys2Proof.Machine.execIor c e x s
  | .ixor c e x => Sys2Proof.Machine.execIxor c e x s
  | .ishl c e x => Sys2Proof.Machine.execIshl c e x s
  | .ishr c e x => Sys2Proof.Machine.execIshr c e x s
  | .isra c e x => Sys2Proof.Machine.execIsra c e x s
  | .imin c e x => Sys2Proof.Machine.execImin c e x s
  | .imax c e x => Sys2Proof.Machine.execImax c e x s
  | .icmp c e x => Sys2Proof.Machine.execIcmp c e x s
  | .imad c e x => Sys2Proof.Machine.execImad c e x s
  | .fadd c e x => Sys2Proof.Machine.execFadd c e x s
  | .fsub c e x => Sys2Proof.Machine.execFsub c e x s
  | .fmul c e x => Sys2Proof.Machine.execFmul c e x s
  | .ffma c e x => Sys2Proof.Machine.execFfma c e x s
  | .fmin c e x => Sys2Proof.Machine.execFmin c e x s
  | .fmax c e x => Sys2Proof.Machine.execFmax c e x s
  | .fcmp c e x => Sys2Proof.Machine.execFcmp c e x s
  | .frcp c e x => Sys2Proof.Machine.execFrcp c e x s
  | .frsq c e x => Sys2Proof.Machine.execFrsq c e x s
  | .fexp2 c e x => Sys2Proof.Machine.execFexp2 c e x s
  | .flog2 c e x => Sys2Proof.Machine.execFlog2 c e x s
  | .accOp c e x => Sys2Proof.Machine.execAccOp c e x s
  | .vadd c e x => Sys2Proof.Machine.execVadd c e x s
  | .vmul c e x => Sys2Proof.Machine.execVmul c e x s
  | .vfma c e x => Sys2Proof.Machine.execVfma c e x s
  | .vmax c e x => Sys2Proof.Machine.execVmax c e x s
  | .vmin c e x => Sys2Proof.Machine.execVmin c e x s
  | .vdot c e x => Sys2Proof.Machine.execVdot c e x s
  | .cvt c e x => Sys2Proof.Machine.execCvt c e x s
  | .cvtmx c e x => Sys2Proof.Machine.execCvtmx c e x s
  | .zdet c e x => Sys2Proof.Machine.execZdet c e x s
  | .popc c e x => Sys2Proof.Machine.execPopc c e x s
  | .penc c e x => Sys2Proof.Machine.execPenc c e x s
  | .ld c e x upsets => Sys2Proof.Machine.execLd c e x upsets s
  | .st c e x => Sys2Proof.Machine.execSt c e x s
  | .nld c e x => Sys2Proof.Machine.execNld c e x s
  | .nst c e x => Sys2Proof.Machine.execNst c e x s
  | .nacc c e x => Sys2Proof.Machine.execNacc c e x s
  | .switchOp c e x => Sys2Proof.Machine.execSwitchOp c e x s
  | .mergeOp c e x => Sys2Proof.Machine.execMergeOp c e x s
  | .mergea c e x => Sys2Proof.Machine.execMergea c e x s
  | .filterOp c e x => Sys2Proof.Machine.execFilterOp c e x s
  | .repeatOp c e x => Sys2Proof.Machine.execRepeatOp c e x s
  | .countOp c e x => Sys2Proof.Machine.execCountOp c e x s
  | .ncount c e x => Sys2Proof.Machine.execNcount c e x s
  | .mcmd c e x upsets => Sys2Proof.Machine.execMcmd c e x upsets s
  | .send c e x => Sys2Proof.Machine.execSend c e x s
  | .xfer c e x upsets => Sys2Proof.Machine.execXfer c e x upsets s
  | .drainAtExpiry r => Sys2Proof.Machine.execDrainAtExpiry r s
  | .sourcesIdle r => Sys2Proof.Machine.execSourcesIdle r s
  | .drainReq r => Sys2Proof.Machine.execDrainReq r s
  | .regionDrained r cclk => Sys2Proof.Machine.execRegionDrained r cclk s
  | .drainTimeout r => Sys2Proof.Machine.execDrainTimeout r s
  | .forcedReplacement r => Sys2Proof.Machine.execForcedReplacement r s
  | .tckEphForce v => Sys2Proof.Machine.execTckEphForce v s
  | .forcedEmpty r => Sys2Proof.Machine.execForcedEmpty r s
  | .forcedTimeout r => Sys2Proof.Machine.execForcedTimeout r s
  | .ephemerisLoad => Sys2Proof.Machine.execEphemerisLoad s
  | .standingLoad => Sys2Proof.Machine.execStandingLoad s
  | .npLoad c q upsets => Sys2Proof.Machine.execNpLoad c q upsets s
  | .npStore c q => Sys2Proof.Machine.execNpStore c q s
  | .npAddInt32 c q upsets => Sys2Proof.Machine.execNpAddInt32 c q upsets s
  | .npAddFp32 c q upsets => Sys2Proof.Machine.execNpAddFp32 c q upsets s
  | .npAddBf16 c q upsets => Sys2Proof.Machine.execNpAddBf16 c q upsets s
  | .npAccWriteback c q => Sys2Proof.Machine.execNpAccWriteback c q s
  | .daccApply c => Sys2Proof.Machine.execDaccApply c s
  | .assemblyWrite c n => Sys2Proof.Machine.execAssemblyWrite c n s
  | .assemblyIdleFlush c n => Sys2Proof.Machine.execAssemblyIdleFlush c n s
  | .cmCtrlWrite c v => Sys2Proof.Machine.execCmCtrlWrite c v s
  | .dsGranuleRead c n flips => Sys2Proof.Machine.execDsGranuleRead c n flips s
  | .dsGranuleWrite c n => Sys2Proof.Machine.execDsGranuleWrite c n s
  | .dsPartialWrite c n flips => Sys2Proof.Machine.execDsPartialWrite c n flips s
  | .dsRowClose c bank => Sys2Proof.Machine.execDsRowClose c bank s
  | .dsScrub c flips => Sys2Proof.Machine.execDsScrub c flips s
  | .dsRefresh c => Sys2Proof.Machine.execDsRefresh c s
  | .storeSensorConversion r degrees => Sys2Proof.Machine.execStoreSensorConversion r degrees s
  | .tuDoorbell c w0 w1 => Sys2Proof.Machine.execTuDoorbell c w0 w1 s
  | .tuJobToken c q => Sys2Proof.Machine.execTuJobToken c q s
  | .tuNop c src => Sys2Proof.Machine.execTuNop c src s
  | .tuBag c src upsets => Sys2Proof.Machine.execTuBag c src upsets s
  | .tuInsert c src => Sys2Proof.Machine.execTuInsert c src s
  | .tuEvict c src => Sys2Proof.Machine.execTuEvict c src s
  | .tuFlush c src => Sys2Proof.Machine.execTuFlush c src s
  | .tuGranuleArrival c n => Sys2Proof.Machine.execTuGranuleArrival c n s
  | .tuCompletionSend c b => Sys2Proof.Machine.execTuCompletionSend c b s
  | .tuCommitGo c => Sys2Proof.Machine.execTuCommitGo c s
  | .tuCommitApply c => Sys2Proof.Machine.execTuCommitApply c s
  | .tuIdxSelWrite c v => Sys2Proof.Machine.execTuIdxSelWrite c v s
  | .tuIdxFlagsWrite c v => Sys2Proof.Machine.execTuIdxFlagsWrite c v s
  | .routerArbitrate c plane headerErrs payloadErrs => Sys2Proof.Machine.execRouterArbitrate c plane headerErrs payloadErrs s
  | .crossingCredit c plane dir => Sys2Proof.Machine.execCrossingCredit c plane dir s
  | .packetAgeOut c holder => Sys2Proof.Machine.execPacketAgeOut c holder s
  | .rd c upsets => Sys2Proof.Machine.execRd c upsets s
  | .rdr c => Sys2Proof.Machine.execRdr c s
  | .openXfer c => Sys2Proof.Machine.execOpenXfer c s
  | .dataPkt c => Sys2Proof.Machine.execDataPkt c s
  | .tokenPkt c => Sys2Proof.Machine.execTokenPkt c s
  | .getPkt c => Sys2Proof.Machine.execGetPkt c s
  | .ack c => Sys2Proof.Machine.execAck c s
  | .credit c => Sys2Proof.Machine.execCredit c s
  | .nak c => Sys2Proof.Machine.execNak c s
  | .mdata c => Sys2Proof.Machine.execMdata c s
  | .mfence c => Sys2Proof.Machine.execMfence c s
  | .mack c => Sys2Proof.Machine.execMack c s
  | .poolGapTimeout c n => Sys2Proof.Machine.execPoolGapTimeout c n s
  | .trackedItemTimeout c agent n => Sys2Proof.Machine.execTrackedItemTimeout c agent n s
  | .ackDelayTimeout c n => Sys2Proof.Machine.execAckDelayTimeout c n s
  | .tokenPackTimeout c n => Sys2Proof.Machine.execTokenPackTimeout c n s
  | .creditReturnTimeout c n => Sys2Proof.Machine.execCreditReturnTimeout c n s
  | .teSendUnit c q => Sys2Proof.Machine.execTeSendUnit c q s
  | .teNop c q => Sys2Proof.Machine.execTeNop c q s
  | .put c q upsets => Sys2Proof.Machine.execPut c q upsets s
  | .teGetXfer c q => Sys2Proof.Machine.execTeGetXfer c q s
  | .mcast c q upsets => Sys2Proof.Machine.execMcast c q upsets s
  | .teCompletionSend c b => Sys2Proof.Machine.execTeCompletionSend c b s
  | .crossingDead c dir => Sys2Proof.Machine.execCrossingDead c dir s
  | .holeMapUpdate => Sys2Proof.Machine.execHoleMapUpdate s
  | .zlDataFrame p hdr pkts => Sys2Proof.Machine.execZlDataFrame p hdr pkts s
  | .zlFinderFrame p hdr body => Sys2Proof.Machine.execZlFinderFrame p hdr body s
  | .zlIdleFrame p hdr => Sys2Proof.Machine.execZlIdleFrame p hdr s
  | .zlTickColumn p num period arrival => Sys2Proof.Machine.execZlTickColumn p num period arrival s
  | .zlAlignColumn p lanes => Sys2Proof.Machine.execZlAlignColumn p lanes s
  | .zlTrainColumn p peer => Sys2Proof.Machine.execZlTrainColumn p peer s
  | .zlIdleColumn p => Sys2Proof.Machine.execZlIdleColumn p s
  | .nakreqRepeat p => Sys2Proof.Machine.execNakreqRepeat p s
  | .lightLoss p => Sys2Proof.Machine.execLightLoss p s
  | .fecLockLoss p => Sys2Proof.Machine.execFecLockLoss p s
  | .ackTimeout p => Sys2Proof.Machine.execAckTimeout p s
  | .lightReceived p lanes => Sys2Proof.Machine.execLightReceived p lanes s
  | .lockAchieved p lanes => Sys2Proof.Machine.execLockAchieved p lanes s
  | .lockTimeout p => Sys2Proof.Machine.execLockTimeout p s
  | .alignTimeout p => Sys2Proof.Machine.execAlignTimeout p s
  | .paramTimeout p => Sys2Proof.Machine.execParamTimeout p s
  | .downRetrain p => Sys2Proof.Machine.execDownRetrain p s
  | .zlEnable p => Sys2Proof.Machine.execZlEnable p s
  | .zlDisable p => Sys2Proof.Machine.execZlDisable p s
  | .zlRetrain p => Sys2Proof.Machine.execZlRetrain p s
  | .zlCredWrite p pair v => Sys2Proof.Machine.execZlCredWrite p pair v s
  | .zlTickRead p => Sys2Proof.Machine.execZlTickRead p s
  | .cartridgeRemove k => Sys2Proof.Machine.execCartridgeRemove k s
  | .cartridgeInsert k power => Sys2Proof.Machine.execCartridgeInsert k power s
  | .finderRun => Sys2Proof.Machine.execFinderRun s
  | .finderQuiet => Sys2Proof.Machine.execFinderQuiet s
  | .finderTimeout => Sys2Proof.Machine.execFinderTimeout s
  | .finderComputeDone => Sys2Proof.Machine.execFinderComputeDone s
  | .degrade => Sys2Proof.Machine.execDegrade s
  | .degradeForce => Sys2Proof.Machine.execDegradeForce s
  | .moduleHalt => Sys2Proof.Machine.execModuleHalt s
  | .containmentOccult => Sys2Proof.Machine.execContainmentOccult s
  | .domebusBypass r => Sys2Proof.Machine.execDomebusBypass r s
  | .regionControllerSilent r => Sys2Proof.Machine.execRegionControllerSilent r s
  | .colIntervalClose => Sys2Proof.Machine.execColIntervalClose s
  | .colRecordReceive => Sys2Proof.Machine.execColRecordReceive s
  | .colWaitTimeout => Sys2Proof.Machine.execColWaitTimeout s
  | .domColCtrlWrite v => Sys2Proof.Machine.execDomColCtrlWrite v s
  | .domColCntRead => Sys2Proof.Machine.execDomColCntRead s
  | .domFltSuspect => Sys2Proof.Machine.execDomFltSuspect s
  | .domFltReplace => Sys2Proof.Machine.execDomFltReplace s
  | .faultRecordWrite => Sys2Proof.Machine.execFaultRecordWrite s
  | .linkReset => Sys2Proof.Machine.execLinkReset s
  | .flr => Sys2Proof.Machine.execFlr s
  | .d3hotEntry => Sys2Proof.Machine.execD3hotEntry s
  | .d0Entry => Sys2Proof.Machine.execD0Entry s
  | .ptmTrig localNs masterNs => Sys2Proof.Machine.execPtmTrig localNs masterNs s
  | .bar2Read off len => Sys2Proof.Machine.execBar2Read off len s
  | .bar2Write off bytes => Sys2Proof.Machine.execBar2Write off bytes s
  | .barReadTimeout n => Sys2Proof.Machine.execBarReadTimeout n s
  | .hifFenceRead => Sys2Proof.Machine.execHifFenceRead s
  | .hifAprSyncRead => Sys2Proof.Machine.execHifAprSyncRead s
  | .apertureWrite off v fromHost => Sys2Proof.Machine.execApertureWrite off v fromHost s
  | .sqTailDoorbell q v => Sys2Proof.Machine.execSqTailDoorbell q v s
  | .cqHeadDoorbell q v => Sys2Proof.Machine.execCqHeadDoorbell q v s
  | .queueEnable q => Sys2Proof.Machine.execQueueEnable q s
  | .queueDisable q => Sys2Proof.Machine.execQueueDisable q s
  | .queueStopped q => Sys2Proof.Machine.execQueueStopped q s
  | .sqNop q => Sys2Proof.Machine.execSqNop q s
  | .loadJob q => Sys2Proof.Machine.execLoadJob q s
  | .copyIn q => Sys2Proof.Machine.execCopyIn q s
  | .copyOut q => Sys2Proof.Machine.execCopyOut q s
  | .gateJob q => Sys2Proof.Machine.execGateJob q s
  | .forceJob q => Sys2Proof.Machine.execForceJob q s
  | .cqRecordWrite q => Sys2Proof.Machine.execCqRecordWrite q s
  | .msixSend vector elapsedUs => Sys2Proof.Machine.execMsixSend vector elapsedUs s
  | .startSequence obs => Sys2Proof.Machine.execStartSequence obs s
  | .startWatchdogExpiry => Sys2Proof.Machine.execStartWatchdogExpiry s
  | .fallback => Sys2Proof.Machine.execFallback s
  | .updOpen slot via => Sys2Proof.Machine.execUpdOpen slot via s
  | .updEraseDone => Sys2Proof.Machine.execUpdEraseDone s
  | .updWinWrite off v via => Sys2Proof.Machine.execUpdWinWrite off v via s
  | .updClose via => Sys2Proof.Machine.execUpdClose via s
  | .updAbort via => Sys2Proof.Machine.execUpdAbort via s
  | .clearReplace via token => Sys2Proof.Machine.execClearReplace via token s
  | .openEyepiece via token => Sys2Proof.Machine.execOpenEyepiece via token s
  | .getCertificate t => Sys2Proof.Machine.execGetCertificate t s
  | .challenge t request => Sys2Proof.Machine.execChallenge t request s
  | .getMeasurements t request => Sys2Proof.Machine.execGetMeasurements t request s
  | .getEndorsement t => Sys2Proof.Machine.execGetEndorsement t s
  | .cosign t => Sys2Proof.Machine.execCosign t s
  | .domClkenWrite v => Sys2Proof.Machine.execDomClkenWrite v s
  | .mclkSrcWrite v => Sys2Proof.Machine.execMclkSrcWrite v s
  | .mclkHoldoverTimeout => Sys2Proof.Machine.execMclkHoldoverTimeout s
  | .regRead off => Sys2Proof.Machine.execRegRead off s
  | .regWrite off v => Sys2Proof.Machine.execRegWrite off v s
  | .blockWrite off vs => Sys2Proof.Machine.execBlockWrite off vs s
  | .nonceCmd => Sys2Proof.Machine.execNonceCmd s
  | .newnonce => Sys2Proof.Machine.execNewnonce s
  | .eyepieceClose => Sys2Proof.Machine.execEyepieceClose s
  | .eyepieceExpiry => Sys2Proof.Machine.execEyepieceExpiry s
  | .eyeAccRead => Sys2Proof.Machine.execEyeAccRead s
  | .eyeAccWrite => Sys2Proof.Machine.execEyeAccWrite s
  | .scanCapture tap bits => Sys2Proof.Machine.execScanCapture tap bits s
  | .scanShift => Sys2Proof.Machine.execScanShift s
  | .chronoSelect n v => Sys2Proof.Machine.execChronoSelect n v s
  | .traceRecord kind region x y words => Sys2Proof.Machine.execTraceRecord kind region x y words s
  | .resetN low => Sys2Proof.Machine.execResetN low s
  | .registerWrite via addr v => Sys2Proof.Machine.execRegisterWrite via addr v s
  | .zlColumnSend p => Sys2Proof.Machine.execZlColumnSend p s
  | .cartridgeLow k faulted power => Sys2Proof.Machine.execCartridgeLow k faulted power s
  | .fetchErrorCompletion q => Sys2Proof.Machine.execFetchErrorCompletion q s
  | .linkTraining speed lanes => Sys2Proof.Machine.execLinkTraining speed lanes s
  | .linkDown => Sys2Proof.Machine.execLinkDown s
  | .mctpControl eid => Sys2Proof.Machine.execMctpControl eid s

end Sys2Proof.Machine
end

