-- ==== Sys2Proof/Safety.lean ====
section
/-! DEFINITION. What counts as a safe state of the module, in the terms that claims use: every memory in its canonical form, and the bounds that the manual's
hardware keeps whatever the firmware and the host do (R352, R400, R413, R420). -/

namespace Sys2Proof.Machine

/-- A memory is in its canonical form: addresses rise, and no entry is what an unlisted address reads as. -/
abbrev Memory.wf (m : Mem) : Bool := SMap.wf memDefault m

/-- The counters of the counter store lie within their ranges (R413). -/
def Counters.wf (c : Counters) : Bool :=
  decide (c.svn ≤ 255) && decide (c.changes ≤ 32) && decide (c.rebinds ≤ 8) && decide (c.rpl ≤ 15) && decide (c.lms ≤ 2 ^ 30) && decide (c.starts ≤ 2 ^ 32 - 1)

/-- No counter of a store is below its value in another (R413). -/
def Counters.le (a b : Counters) : Bool :=
  decide (a.svn ≤ b.svn) && decide (a.changes ≤ b.changes) && decide (a.rebinds ≤ b.rebinds) && decide (a.rpl ≤ b.rpl) && decide (a.lms ≤ b.lms) &&
    decide (a.starts ≤ b.starts)

/-- The permissions of the aperture: the words of its sixteen ranges (R382, R398). -/
def State.aperture (s : State) : List W32 := (List.range 64).map (fun k => Regs.word aprTable s.host.apr (4 * k))

/-! ## Frames: what two states share -/

/-- t differs from s at region r alone. -/
def OnlyRegion (s t : State) (r : Nat) : Prop := { t with regions := s.regions } = s ∧ ∀ k, k ≠ r → t.region k = s.region k

/-- t differs from s in the regions alone. -/
def OnlyRegions (s t : State) : Prop := { t with regions := s.regions } = s

/-- t differs from s at cluster c alone. -/
def OnlyCluster (s t : State) (c : Nat) : Prop := { t with clusters := s.clusters } = s ∧ ∀ k, k ≠ c → t.cluster k = s.cluster k

/-- What a command leaves of a region when it makes almanac and chronograph events alone (R77, R435). -/
def RegionEvents (g h : Region) : Prop := { h with ev := g.ev, chr := g.chr } = g

/-- t differs from s at cluster c, and in the almanac and chronograph events of its region. -/
def OnlyClusterEvents (s t : State) (c : Nat) : Prop :=
  { t with clusters := s.clusters, regions := s.regions } = s ∧ (∀ k, k ≠ c → t.cluster k = s.cluster k) ∧
    (∀ k, k ≠ regionOf c → t.region k = s.region k) ∧ RegionEvents (s.region (regionOf c)) (t.region (regionOf c))

/-- t differs from s at port p alone. -/
def OnlyPort (s t : State) (p : Nat) : Prop := { t with ports := s.ports } = s ∧ ∀ k, k ≠ p → t.port k = s.port k

/-- t differs from s in the host bridge alone. -/
def OnlyHost (s t : State) : Prop := { t with host := s.host } = s

/-- t differs from s in the host bridge and in what the module sends, alone. -/
def OnlyHostOut (s t : State) : Prop := { t with host := s.host, out := s.out } = s

/-- t differs from s in the host bridge and at cluster c, alone. -/
def OnlyHostCluster (s t : State) (c : Nat) : Prop :=
  { t with host := s.host, clusters := s.clusters } = s ∧ ∀ k, k ≠ c → t.cluster k = s.cluster k

/-- t differs from s at job queue q alone. -/
def OnlyQueue (s t : State) (q : Nat) : Prop :=
  { t with host := { t.host with queues := s.host.queues } } = s ∧ ∀ k, k ≠ q → t.hostQ k = s.hostQ k

/-- t differs from s in the dome controller alone. -/
def OnlyDome (s t : State) : Prop := { t with dome := s.dome } = s

/-- What a command leaves of the host bridge when it raises event bits and their causes alone (R394). -/
def HostEvents (s t : State) : Prop := { t.host with hif := s.host.hif, causes := s.host.causes } = s.host ∧
  ∀ o, o ≠ HIF_EVT_PEND_PEND.off → Regs.word hifTable t.host.hif o = Regs.word hifTable s.host.hif o

/-- What a host read of BAR0 that is answered at once leaves of the host bridge: one more access counted (R396), one transfer number taken. -/
def CountedRead (s t : State) : Prop :=
  { t.host with hif := s.host.hif, serial := s.host.serial } = s.host ∧ t.hif HIF_CNT_BAR_CNT = (s.hif HIF_CNT_BAR_CNT + 1) % 2 ^ 32 ∧
    ∀ o, o ≠ HIF_CNT_BAR_CNT.off → Regs.word hifTable t.host.hif o = Regs.word hifTable s.host.hif o

/-- t differs from s in the dome controller and in the host bridge's events alone. -/
def OnlyDomeEvents (s t : State) : Prop := { t with dome := s.dome, host := s.host } = s ∧ HostEvents s t

/-- What a command leaves of the dome controller when it makes fault records, degrading events and register changes at the offsets given, alone. -/
def DomeRecords (d e : Dome) (offs : List Nat) : Prop :=
  { e with regs := d.regs, logPend := d.logPend, logSeq := d.logSeq, degPend := d.degPend } = d ∧
    ∀ o, o ∉ offs → Regs.word domeTable e.regs o = Regs.word domeTable d.regs o

/-- The NOR devices of t differ from those of s in the copies of the boot record alone (R399, R400). -/
def OnlyBoot (s t : State) : Prop :=
  ∀ k a, (a < 0x3FC01000 ∨ 0x3FC01010 ≤ a) → t.nor k a = s.nor k a

/-- The boot record is no older than its copies, its next number does not wrap, and its slots hold values of their fields (R400). -/
def Dome.bootFits (d : Dome) : Bool :=
  let old (b : Option BootRec) : Bool := match b with | some r => decide (r.seq ≤ d.bootSeq) | none => true
  let fits (c : CatSlot) : Bool := decide (c.state < 8) && decide (c.attempts < 4) && decide (c.check < 16)
  decide (d.bootSeq + 1 < 2 ^ 32) && old (bootCopy d.nor0) && old (bootCopy d.nor1) && fits d.slotA && fits d.slotB

/-- t differs from s in the dome registers at the offsets given, alone. -/
def OnlyDomeRegs (s t : State) (offs : List Nat) : Prop :=
  { t with dome := { t.dome with regs := s.dome.regs } } = s ∧
    ∀ o, o ∉ offs → Regs.word domeTable t.dome.regs o = Regs.word domeTable s.dome.regs o

/-- Region h differs from g in the page registers at the offsets given, alone. -/
def RegionRegs (g h : Region) (offs : List Nat) : Prop :=
  { h with regs := g.regs } = g ∧ ∀ o, o ∉ offs → Regs.word pageTable h.regs o = Regs.word pageTable g.regs o

/-- Cluster d differs from c in the space 3 registers at the offsets given, alone. -/
def ClusterRegs (c d : Cluster) (offs : List Nat) : Prop :=
  { d with regs := c.regs } = c ∧ ∀ o, o ∉ offs → Regs.word clTable d.regs o = Regs.word clTable c.regs o

/-- Port w differs from z in the registers at the offsets given, alone. -/
def PortRegs (z w : Port) (offs : List Nat) : Prop :=
  { w with regs := z.regs } = z ∧ ∀ o, o ∉ offs → Regs.word zlTable w.regs o = Regs.word zlTable z.regs o

/-- The cluster's other elements, and all of it but its elements, are as before. -/
def OnlyElem (c d : Cluster) (e : Nat) : Prop := { d with elems := c.elems } = c ∧ ∀ k, k ≠ e → d.elem k = c.elem k

/-- The events of a class that wait for their debit (R77). -/
abbrev Region.waits (g : Region) (cls : Nat) : Nat := SMap.get (fun _ => 0) g.ev cls

/-- How often the chronograph has seen an event in the tick (R435). -/
abbrev Region.seen (g : Region) (e : Nat) : Nat := SMap.get (fun _ => 0) g.chr e

/-- The code at column k of row i of a raw operand of rb row blocks at a row of memory (R123). -/
def rawCode (m : Mem) (row f rb i k : Nat) : Nat :=
  (denseStrip f rb (Mem.bytes m (512 * (row + k / 16 * ceilDiv (rb * blockBytes f) 512)) (rb * blockBytes f))).codes.getD (16 * i + k % 16) 0

/-- The product of row i of a raw A and column j of the first column block of B, over the codes that a memory holds (R123, R132, R155). -/
def MuCmd.rawProduct (m : MuCmd) (mem : Mem) (i j : Nat) : W32 :=
  let ks := stepK m.fa
  let n := m.k / ks
  foldSteps 0 (stepsOf m.fa ks n ((List.range m.k).map (rawCode mem m.aRow m.fa (m.m / 16) i)) [])
    (stepsOf m.fb ks n ((List.range m.k).map (fun k => rawCode mem m.bRow m.fb (ceilDiv m.k 16) k j)) []) (List.replicate n (List.replicate ks true))

/-- A running count of the tick in a cluster. -/
abbrev Cluster.tally (c : Cluster) (f : Fld) : Nat := Regs.rd clTable c.cnt f

/-- A running count of the tick in an element. -/
abbrev Elem.tally (x : Elem) (f : Fld) : Nat := Regs.rd elTable x.cnt f

/-- t differs from s at cluster c and at region r alone. -/
def OnlyClusterRegion (s t : State) (c r : Nat) : Prop :=
  { t with clusters := s.clusters, regions := s.regions } = s ∧ (∀ k, k ≠ c → t.cluster k = s.cluster k) ∧ ∀ k, k ≠ r → t.region k = s.region k

/-- t differs from s in region r, and in clusters of region r, alone. -/
def OnlyInRegion (s t : State) (r : Nat) : Prop :=
  { t with regions := s.regions, clusters := s.clusters } = s ∧ (∀ k, k ≠ r → t.region k = s.region k) ∧
    ∀ c, regionOf c ≠ r → t.cluster c = s.cluster c

/-- Memory n is m but for the bytes of bs at addresses a on whose mask is set. -/
def WritesMasked (m n : Mem) (a : Nat) (bs : List Byte) (mask : List Bool) : Prop :=
  (∀ k, k < mask.length → Mem.byte n (a + k) = if mask.getD k false then bs.getD k 0 else Mem.byte m (a + k)) ∧
    ∀ b, b < a ∨ a + mask.length ≤ b → Mem.byte n b = Mem.byte m b

/-! ## Firings (R168-R193) -/

/-- What a firing of context x of element e reads. -/
def State.fireView (s : State) (c e x : Nat) (upsets : List Nat) : View :=
  ((s.cluster c).elem e).view e x (s.region (regionOf c)).drainKind (Config.freeWord s.free) upsets

/-- Context x of element e, in WAIT with operation op, is the one that fires next: its cluster runs, no HOLD is in force, and it is the first ready
context from the round-robin pointer on (R81, R175, R176). -/
def State.mayFire (s : State) (c e x op : Nat) : Bool :=
  s.runs c && !s.held c && ((((s.cluster c).elem e).ctx x).state == .wait) && (((s.cluster c).elem e).ctxWord x 0 % 64 == op) &&
    (((s.cluster c).elem e).next e (s.region (regionOf c)).drainKind == some x)

/-- The queues of the bound inputs. -/
def View.queues (v : View) : List Nat := v.boundIns.filterMap v.inQ

/-- Every bound input has a head with tag `tg`, none poisoned, and each has a queue of its own (R174 check 4). -/
def View.headsAre (v : View) (tg : Tag → Bool) : Bool :=
  !v.boundIns.isEmpty && v.boundIns.all (fun k => match v.head k with | some t => tg t.tag && !t.poison | none => false) && decide v.queues.Nodup

/-- The heads let the operation act on DATA: all DATA or PRED, and the predicate input does not stop it (R178, R179). -/
def View.acts (v : View) : Bool :=
  v.headsAre Tag.isData && !((v.pmode == 1 && !(v.data 3).getLsbD 0) || (v.pmode == 2 && (v.data 3).getLsbD 0))

/-- The operands of a 32-bit operation: IN0, IN1 or IMM, and IN2 (R180, R181). -/
def View.opA (v : View) : W32 := (v.data 0).setWidth 32
def View.opB (v : View) : W32 := if v.bound 1 then (v.data 1).setWidth 32 else BitVec.ofNat 32 v.imm
def View.opC (v : View) : W32 := (v.data 2).setWidth 32

/-- Tokens for output binding b, if it is enabled. -/
def View.out (v : View) (b : Nat) (ts : List Tok) : List Tok := if v.outEn b then ts else []

/-- What a firing without a fault leaves: tokens o0 and o1 at the back of the output buffers, the heads of the queues qs gone, context x as k, element
memory m, the pointer past x, one event of class cls; EL_ registers change at the bindings' credits and the offsets given alone, and nothing else
changes but credits on the rings. -/
def Fired (s t : State) (c e x : Nat) (qs : List Nat) (o0 o1 : List Tok) (k : Ctx) (m : Mem) (cls : Nat) (offs : List Nat) : Prop :=
  ((t.cluster c).elem e).out0 = ((s.cluster c).elem e).out0 ++ o0 ∧ ((t.cluster c).elem e).out1 = ((s.cluster c).elem e).out1 ++ o1 ∧
  (∀ q, ((t.cluster c).elem e).queue q = if q ∈ qs then (((s.cluster c).elem e).queue q).drop 1 else ((s.cluster c).elem e).queue q) ∧
  ((t.cluster c).elem e).ctx x = k ∧ (∀ j, j ≠ x → ((t.cluster c).elem e).ctx j = ((s.cluster c).elem e).ctx j) ∧
  ((t.cluster c).elem e).mem = m ∧ ((t.cluster c).elem e).ptr = (x + 1) % 8 ∧
  (t.region (regionOf c)).waits cls = (s.region (regionOf c)).waits cls + 1 ∧
  (∀ o, o ∉ [(EL_OBIND_CREDITS.nth 0).off, (EL_OBIND_CREDITS.nth 1).off] ++ offs →
    Regs.word elTable ((t.cluster c).elem e).regs o = Regs.word elTable ((s.cluster c).elem e).regs o) ∧
  { t.cluster c with elems := (s.cluster c).elems, ringCreds := (s.cluster c).ringCreds } = s.cluster c ∧
  (∀ j, j ≠ e → (t.cluster c).elem j = (s.cluster c).elem j) ∧ OnlyClusterEvents { s with free := t.free } t c

/-- An operation that acts on DATA emits one token on every enabled output and keeps its context and element memory. -/
def EmitsOne (i : ClusterId → Fin 32 → Fin 8 → Instr) (op cls : Nat) (r : View → Tok) : Prop :=
  ∀ (s : State) (c : ClusterId) (e : Fin 32) (x : Fin 8), s.mayFire c.val e.val x.val op = true → (s.fireView c.val e.val x.val []).acts = true →
    ∃ t, Sys2Proof.Machine.exec (i c e x) s = .next t ∧
      Fired s t c.val e.val x.val (s.fireView c.val e.val x.val []).queues
        ((s.fireView c.val e.val x.val []).out 0 [r (s.fireView c.val e.val x.val [])])
        ((s.fireView c.val e.val x.val []).out 1 [r (s.fireView c.val e.val x.val [])])
        (((s.cluster c.val).elem e.val).ctx x.val) ((s.cluster c.val).elem e.val).mem cls [] ∧ t.free = s.free

/-- An operation of class 6 whose result is f of its 32-bit operands (R180, R181). -/
def Scalar (i : ClusterId → Fin 32 → Fin 8 → Instr) (op : Nat) (f : W32 → W32 → W32 → W32) : Prop :=
  EmitsOne i op 6 (fun v => ⟨(f v.opA v.opB v.opC).setWidth 64, .data, v.epoch, false⟩)

/-- An operation of class 6 whose result is a predicate of COND and its operands (R169, R180). -/
def Predicate (i : ClusterId → Fin 32 → Fin 8 → Instr) (op : Nat) (f : Nat → W32 → W32 → Bool) : Prop :=
  EmitsOne i op 6 (fun v => ⟨if f v.cond v.opA v.opB then 1 else 0, .pred, v.epoch, false⟩)

/-- A lane operation of class 7: each lane of FMT computed exactly from the lanes of IN0, of IN1 or IMM, and of IN2, and rounded once (R181). -/
def Lanes (i : ClusterId → Fin 32 → Fin 8 → Instr) (op : Nat) (f : FVal → FVal → FVal → FVal) : Prop :=
  EmitsOne i op 7 (fun v => ⟨BitVec.ofNat 64 (packLanes v.fmt ((List.range (lanesOf v.fmt)).map (fun j =>
    encodeEl .rne v.sat v.fmt (f (decodeEl v.fmt (laneAt v.fmt (v.data 0) j)) (decodeEl v.fmt (v.laneB j))
      (decodeEl v.fmt (laneAt v.fmt (v.data 2) j)))))), .data, v.epoch, false⟩)

/-- LAST and MARK pass an operation of R178 with IN0's payload on every enabled output, and a mixture of tags faults the context with cause TAG (1). -/
def TagsPass (i : ClusterId → Fin 32 → Fin 8 → Instr) (op cls : Nat) : Prop :=
  ∀ (s : State) (c : ClusterId) (e : Fin 32) (x : Fin 8) (tg : Tag), s.mayFire c.val e.val x.val op = true → tg = .last ∨ tg = .mark →
    (s.fireView c.val e.val x.val []).headsAre (fun a => a == tg) = true →
    ∃ t, Sys2Proof.Machine.exec (i c e x) s = .next t ∧
      Fired s t c.val e.val x.val (s.fireView c.val e.val x.val []).queues
        ((s.fireView c.val e.val x.val []).out 0 [⟨(s.fireView c.val e.val x.val []).data 0, tg, (s.fireView c.val e.val x.val []).epoch, false⟩])
        ((s.fireView c.val e.val x.val []).out 1 [⟨(s.fireView c.val e.val x.val []).data 0, tg, (s.fireView c.val e.val x.val []).epoch, false⟩])
        (((s.cluster c.val).elem e.val).ctx x.val) ((s.cluster c.val).elem e.val).mem cls []

/-- The context has faulted with a cause: its number and operation are recorded where no fault was, CTX_FAULT is set, and nothing is emitted or stored (R195). -/
def ContextFaults (s t : State) (c e x op cause : Nat) : Prop :=
  (((t.cluster c).elem e).ctx x).state = .fault ∧
  (((s.cluster c).elem e).rd EL_FAULT_CAUSE = 0 → ((t.cluster c).elem e).rd EL_FAULT_CAUSE = cause ∧
    ((t.cluster c).elem e).rd EL_FAULT_CTX = x ∧ ((t.cluster c).elem e).rd EL_FAULT_OP = op) ∧
  ((t.cluster c).elem e).rd EL_EVENT_CTX_FAULT = 1 ∧
  ((t.cluster c).elem e).out0 = ((s.cluster c).elem e).out0 ∧ ((t.cluster c).elem e).out1 = ((s.cluster c).elem e).out1 ∧
  ((t.cluster c).elem e).mem = ((s.cluster c).elem e).mem ∧ ∀ j, j ≠ c → t.cluster j = s.cluster j

/-- Mixed tags at the bound heads fault the context with cause TAG and emit nothing (R178, R195). -/
def MixedTagsFault (i : ClusterId → Fin 32 → Fin 8 → Instr) (op : Nat) : Prop :=
  ∀ (s : State) (c : ClusterId) (e : Fin 32) (x : Fin 8), s.mayFire c.val e.val x.val op = true →
    (s.fireView c.val e.val x.val []).boundIns.all (fun k => ((s.fireView c.val e.val x.val []).head k).isSome) = true →
    (∀ tg : Tag → Bool, tg = Tag.isData ∨ tg = (fun a => a == .last) ∨ tg = (fun a => a == .mark) →
      (s.fireView c.val e.val x.val []).boundIns.all (fun k => (((s.fireView c.val e.val x.val []).head k).map (fun t => tg t.tag)).getD false) = false) →
    ∃ t, Sys2Proof.Machine.exec (i c e x) s = .next t ∧ ContextFaults s t c.val e.val x.val op 1

/-- A poisoned token among bound heads that are all DATA, all LAST or all MARK faults the context with cause POISON (R108, R195). -/
def PoisonFaults (i : ClusterId → Fin 32 → Fin 8 → Instr) (op : Nat) : Prop :=
  ∀ (s : State) (c : ClusterId) (e : Fin 32) (x : Fin 8) (tg : Tag → Bool), s.mayFire c.val e.val x.val op = true →
    tg = Tag.isData ∨ tg = (fun a => a == .last) ∨ tg = (fun a => a == .mark) →
    (s.fireView c.val e.val x.val []).boundIns.all (fun k => (((s.fireView c.val e.val x.val []).head k).map (fun t => tg t.tag)).getD false) = true →
    (s.fireView c.val e.val x.val []).poisoned (s.fireView c.val e.val x.val []).boundIns = true →
    ∃ t, Sys2Proof.Machine.exec (i c e x) s = .next t ∧ ContextFaults s t c.val e.val x.val op 2

/-- The predicate at IN3 does not match the mode (R179). -/
def View.misses (v : View) : Bool := (v.pmode == 1 && !(v.data 3).getLsbD 0) || (v.pmode == 2 && (v.data 3).getLsbD 0)

/-- A firing on DATA whose predicate does not match consumes its inputs, emits nothing, accesses nothing and is debited (R179). -/
def PredicateMisses (i : ClusterId → Fin 32 → Fin 8 → Instr) (op cls : Nat) : Prop :=
  ∀ (s : State) (c : ClusterId) (e : Fin 32) (x : Fin 8), s.mayFire c.val e.val x.val op = true →
    (s.fireView c.val e.val x.val []).headsAre Tag.isData = true → (s.fireView c.val e.val x.val []).misses = true →
    ∃ t, Sys2Proof.Machine.exec (i c e x) s = .next t ∧
      Fired s t c.val e.val x.val (s.fireView c.val e.val x.val []).queues [] [] (((s.cluster c.val).elem e.val).ctx x.val) ((s.cluster c.val).elem e.val).mem cls []

/-- The operations that R178 governs, with their codes and classes (R180), but SEND and FILTER, whose LAST and MARK have a form of their own. -/
def passers : List ((ClusterId → Fin 32 → Fin 8 → Instr) × Nat × Nat) :=
  [(Instr.passOp, 0x00, 6), (Instr.iadd, 0x01, 6), (Instr.isub, 0x02, 6), (Instr.imul, 0x03, 6), (Instr.imulh, 0x04, 6), (Instr.iand, 0x05, 6),
   (Instr.ior, 0x06, 6), (Instr.ixor, 0x07, 6), (Instr.ishl, 0x08, 6), (Instr.ishr, 0x09, 6), (Instr.isra, 0x0A, 6), (Instr.imin, 0x0B, 6),
   (Instr.imax, 0x0C, 6), (Instr.icmp, 0x0D, 6), (Instr.imad, 0x0E, 6), (Instr.fadd, 0x10, 6), (Instr.fsub, 0x11, 6), (Instr.fmul, 0x12, 6),
   (Instr.ffma, 0x13, 6), (Instr.fmin, 0x14, 6), (Instr.fmax, 0x15, 6), (Instr.fcmp, 0x16, 6), (Instr.frcp, 0x17, 6), (Instr.frsq, 0x18, 6),
   (Instr.fexp2, 0x19, 6), (Instr.flog2, 0x1A, 6), (Instr.vadd, 0x1C, 7), (Instr.vmul, 0x1D, 7), (Instr.vfma, 0x1E, 7), (Instr.vmax, 0x1F, 7),
   (Instr.vmin, 0x20, 7), (Instr.vdot, 0x21, 7), (Instr.cvt, 0x22, 7), (Instr.zdet, 0x24, 6), (Instr.popc, 0x25, 6), (Instr.penc, 0x26, 6),
   (fun c e x => Instr.ld c e x [], 0x28, 6), (Instr.st, 0x29, 6), (Instr.nld, 0x2A, 6), (Instr.nst, 0x2B, 6), (Instr.nacc, 0x2C, 6),
   (fun c e x => Instr.mcmd c e x [], 0x3C, 6), (fun c e x => Instr.xfer c e x [], 0x3F, 6)]

/-- The checks of R218 after the first, in their order: each status and whether the image fails its check (R218, R353). -/
def State.loadChecks (s : State) (p : EphImg) : List (Nat × Bool) :=
  [(2, p.period == 0 || p.period != s.dome_ TCK_PERIOD_PERIOD),
   (3, s.mstate == 2 || ((s.flagged || s.mstate == 3) && !p.diag)),
   (4, p.regions.any (fun r => (s.region r).sched_ != 0)), (5, s.badPlacement p), (6, p.badSched), (7, p.badLayout), (8, s.badImage p),
   (9, p.lists.any CmdList.bad), (10, p.mcast.any (fun v => (s.mcMembers v).isEmpty)), (11, s.freeEph == none)]

/-- Every firing command of an element (R175, R180). -/
def firings (c : ClusterId) (e : Fin 32) (x : Fin 8) (upsets : List Nat) : List Instr :=
  passers.map (fun p => p.1 c e x) ++ [Instr.ld c e x upsets, Instr.mcmd c e x upsets, Instr.xfer c e x upsets, Instr.send c e x, Instr.filterOp c e x,
    Instr.accOp c e x, Instr.cvtmx c e x, Instr.switchOp c e x, Instr.mergeOp c e x, Instr.mergea c e x, Instr.repeatOp c e x, Instr.countOp c e x,
    Instr.ncount c e x]

/-! ## Writes of registers (R7, R8) -/

/-- What a write of v does to the word of the register at offset o, field by field under the field's access code, with the reserved bits as they were (R7, R8).
A W1S bit that stays set is one that log entry 24 names; another starts something and reads as it did. -/
abbrev AccessCodes (t : List RegRow) (o : Nat) (locked : Bool) (old new v : W32) : Prop :=
  (∀ r ∈ t, r.covers o = true → new &&& r.fld.mask = (match r.access with
    | .ro => old
    | .rw | .wo | .rwp => v
    | .rwl => if locked then old else v
    | .w1c => old &&& ~~~ v
    | .w1s => if staysSet.contains r.fld then old ||| v else old) &&& r.fld.mask) ∧
  ∀ k, k < 32 → (∀ r ∈ t, r.covers o = true → r.fld.mask.getLsbD k = false) → new.getLsbD k = old.getLsbD k

/-- The offsets below the control pages whose write has a condition or an effect of its own, beside EYE_CHR_SEL (0xB00 to 0xB3F) and the collimation set. -/
def domeOwnWrites : List Nat :=
  [0x4, 0x8, 0x200, 0x204, 0x228, 0x300, 0x400, 0x404, 0x504, 0x600, 0x614, 0x720, 0x780, 0x788, 0xA04, 0xA4C, 0xA60, 0xC08, 0xC0C, 0xC10]

/-- The offsets of a region's page whose write has a condition or an effect of its own, beside ALM_COEF (0x140 to 0x23F). -/
def pageOwnWrites : List Nat := [0x0, 0x8, 0x40, 0x48, 0x9C, 0x104, 0x120, 0x308, 0x380]

/-- Whether the write of a cluster register below the elements' blocks has a condition or an effect of its own: the table unit's block, bindings, fields that need a
drained region, and those with limits. -/
def clusterOwnWrite (off : Nat) : Bool :=
  off / 0x1000 == 5 || (decide (0x1040 ≤ off) && decide (off < 0x1060)) || (decide (0x1800 ≤ off) && decide (off < 0x2000)) ||
  [0x2000, 0x3000, 0x4000, 0x4004, 0x8014].contains off || (decide (0x8020 ≤ off) && decide (off < 0x804C)) ||
  (decide (0x8200 ≤ off) && decide (off < 0x8400))

/-- One fault record of a code and a region has been made between two states (R366, R367). -/
abbrev Logged (s t : State) (code region : Nat) : Prop :=
  t.dome.logSeq = s.dome.logSeq + 1 ∧ t.dome.logPend.dropLast = s.dome.logPend ∧
    (t.dome.logPend.getLast?).map (fun w => (w.getD 3 0).toNat % 2 ^ 15) = some (code + 256 * region)

/-- Bit e of HIF_EVT_PEND is set (R394). -/
abbrev Pends (t : State) (e : Nat) : Prop := (t.hif HIF_EVT_PEND_PEND).testBit e = true

end Sys2Proof.Machine
end

