-- ==== Sys2Proof/Certificates/Slice0/Obligations.lean ====
section
/-! DEFINITION. The statements for the provers: what each command of the module does where it completes, what it leaves as it was, and what no step
changes. Each is named for what it states. -/

open Sys2Proof Sys2Proof.Machine

/-- A source that becomes READY returns a generator in holdover on it to lock; READY lost for frequency holds it over. (from 02_clock_drives_and_tick.md
(R40, R53, R54, R59)) The model's choices, no rule's: that READY_FREQ_LOSS drops READY without LOS, event or record, and which generators a returning
source locks (assumption log entry 10). -/
def Obligations.ReadyRestoresLock : Prop :=
  (∀ (s : State) (r : RegionId) (src : Src), s.alive r.val = true → 
      ∃ t, exec (.readyRise (.region r) src) s = .next t ∧
      (t.region r.val).rd (drvReady (srcCode src)) = 1 ∧
      (t.region r.val).rd (trcReady (srcCode src)) = 1 ∧
      ((s.region r.val).rd DRV_SRC_SEL = srcCode src → (s.region r.val).rd DRV_STATUS_STATE = 4 ∨ (s.region r.val).rd DRV_STATUS_STATE = 5 →
      (t.region r.val).rd DRV_STATUS_STATE = 2 ∧ (t.region r.val).rd DRV_STATUS_LOCK = 1) ∧
      ((s.region r.val).rd DRV_SRC_SEL ≠ srcCode src → (t.region r.val).rd DRV_STATUS_STATE = (s.region r.val).rd DRV_STATUS_STATE) ∧
      ((s.region r.val).rd TRC_SRC_SEL = srcCode src → (s.region r.val).rd TRC_STATUS_STATE = 4 → (s.region r.val).trcTry = false →
      (t.region r.val).rd TRC_STATUS_STATE = 2 ∧ (t.region r.val).rd TRC_STATUS_LOCK = 1) ∧
      ((s.region r.val).rd TRC_SRC_SEL ≠ srcCode src → (t.region r.val).rd TRC_STATUS_STATE = (s.region r.val).rd TRC_STATUS_STATE) ∧
      OnlyRegion s t r.val ∧
      RegionRegs (s.region r.val) (t.region r.val)
      [DRV_SRC_STATUS_LOS.off, TRC_SRC_STATUS_LOS.off, DRV_STATUS_STATE.off, TRC_STATUS_STATE.off, PWR_STATUS_PARK_CAUSE.off]) ∧
  (∀ (s : State) (src : Src), 
      ∃ t, exec (.readyRise .root src) s = .next t ∧
      srcCode src ∈ t.dome.rootReady ∧
      (s.dome_ TCK_CTRL_MASTER_SRC = srcCode src → t.dome.rootHold = false) ∧
      (s.dome_ TCK_CTRL_MASTER_SRC ≠ srcCode src → t.dome.rootHold = s.dome.rootHold) ∧
      { t with dome := { t.dome with rootReady := s.dome.rootReady, rootHold := s.dome.rootHold } } = s) ∧
  (∀ (s : State) (src : Src), srcCode src ≤ 1 → 
      ∃ t, exec (.readyRise .mclk src) s = .next t ∧
      (t.dome_ DOM_MCLK_STATUS_READY).testBit (srcCode src + 1) = true ∧
      (s.dome_ DOM_MCLK_SRC_SEL = srcCode src + 1 → t.dome_ DOM_MCLK_STATUS_HOLDOVER = 0) ∧
      (s.dome_ DOM_MCLK_SRC_SEL ≠ srcCode src + 1 → t.dome_ DOM_MCLK_STATUS_HOLDOVER = s.dome_ DOM_MCLK_STATUS_HOLDOVER) ∧
      OnlyDomeRegs s t [DOM_MCLK_STATUS_READY.off]) ∧
  (∀ (s : State) (r : RegionId) (src : Src), s.alive r.val = true → 
      ∃ t, exec (.readyFreqLoss (.region r) src) s = .next t ∧
      (t.region r.val).rd (drvReady (srcCode src)) = 0 ∧
      (t.region r.val).rd (trcReady (srcCode src)) = 0 ∧
      ((s.region r.val).rd DRV_SRC_SEL = srcCode src → (s.region r.val).rd DRV_STATUS_STATE = 2 →
      (t.region r.val).rd DRV_STATUS_STATE = 4 ∧ (t.region r.val).rd DRV_STATUS_LOCK = 0) ∧
      ((s.region r.val).rd TRC_SRC_SEL = srcCode src → (s.region r.val).rd TRC_STATUS_STATE = 2 →
      (t.region r.val).rd TRC_STATUS_STATE = 4 ∧ (t.region r.val).rd TRC_STATUS_LOCK = 0) ∧
      (t.region r.val).rd DRV_SRC_STATUS_LOS = (s.region r.val).rd DRV_SRC_STATUS_LOS ∧
      OnlyRegion s t r.val ∧
      RegionRegs (s.region r.val) (t.region r.val) [DRV_SRC_STATUS_LOS.off, TRC_SRC_STATUS_LOS.off, DRV_STATUS_STATE.off, TRC_STATUS_STATE.off]) ∧
  (∀ (s : State) (src : Src), 
      ∃ t, exec (.readyFreqLoss .root src) s = .next t ∧
      srcCode src ∉ t.dome.rootReady ∧
      (s.dome_ TCK_CTRL_MASTER_SRC = srcCode src → t.dome.rootHold = true) ∧
      (s.dome_ TCK_CTRL_MASTER_SRC ≠ srcCode src → t.dome.rootHold = s.dome.rootHold)) ∧
  (∀ (s : State) (src : Src), srcCode src ≤ 1 → 
      ∃ t, exec (.readyFreqLoss .mclk src) s = .next t ∧
      (t.dome_ DOM_MCLK_STATUS_READY).testBit (srcCode src + 1) = false ∧
      (s.dome_ DOM_MCLK_SRC_SEL = srcCode src + 1 → t.dome_ DOM_MCLK_STATUS_HOLDOVER = 1) ∧
      (s.dome_ DOM_MCLK_SRC_SEL ≠ srcCode src + 1 → t.dome_ DOM_MCLK_STATUS_HOLDOVER = s.dome_ DOM_MCLK_STATUS_HOLDOVER) ∧
      OnlyDomeRegs s t [DOM_MCLK_STATUS_READY.off])

/-- A reference that fails holds over the generators that select it, with LOS, the CLOCK event and one merged record. (from 02_clock_drives_and_tick.md
(R57), 14_faults_and_collimation.md (R355)) The model's choice, no rule's: that the merged record is made by the first region that sees the loss
(assumption log entry 10). -/
def Obligations.ReferenceLossHoldsOver : Prop :=
  (∀ (s : State) (r : RegionId) (src : Src), s.alive r.val = true → (s.region r.val).rd DRV_SRC_SEL = srcCode src → (s.region r.val).rd DRV_STATUS_STATE = 2 → (s.region r.val).rd (drvReady (srcCode src)) = 1 → 
      ∃ t, exec (.referenceLoss (.region r) src) s = .next t ∧
      (t.region r.val).rd (drvReady (srcCode src)) = 0 ∧
      (t.region r.val).rd DRV_STATUS_STATE = 4 ∧
      (t.region r.val).rd DRV_STATUS_LOCK = 0 ∧
      (t.region r.val).rd DRV_SRC_STATUS_LOS = 1 ∧
      Pends t 5 ∧
      ((s.regions.any (fun p => p.1 != r.val && (p.2.rd DRV_STATUS_STATE == 4 || p.2.rd TRC_STATUS_STATE == 4))) = false → Logged s t 14 127) ∧
      ((s.regions.any (fun p => p.1 != r.val && (p.2.rd DRV_STATUS_STATE == 4 || p.2.rd TRC_STATUS_STATE == 4))) = true → t.dome = s.dome) ∧
      (∀ k, k ≠ r.val → t.region k = s.region k) ∧
      { t with regions := s.regions, dome := s.dome, host := s.host } = s) ∧
  (∀ (s : State) (r : RegionId) (src : Src), s.alive r.val = true → (s.region r.val).rd TRC_SRC_SEL = srcCode src → (s.region r.val).rd TRC_STATUS_STATE = 2 → (s.region r.val).rd (trcReady (srcCode src)) = 1 → 
      ∃ t, exec (.referenceLoss (.region r) src) s = .next t ∧
      (t.region r.val).rd (trcReady (srcCode src)) = 0 ∧
      (t.region r.val).rd TRC_STATUS_STATE = 4 ∧
      (t.region r.val).rd TRC_STATUS_LOCK = 0 ∧
      (t.region r.val).rd TRC_SRC_STATUS_LOS = 1 ∧
      Pends t 5 ∧
      ((s.regions.any (fun p => p.1 != r.val && (p.2.rd DRV_STATUS_STATE == 4 || p.2.rd TRC_STATUS_STATE == 4))) = false → Logged s t 14 127) ∧
      ((s.regions.any (fun p => p.1 != r.val && (p.2.rd DRV_STATUS_STATE == 4 || p.2.rd TRC_STATUS_STATE == 4))) = true → t.dome = s.dome) ∧
      (∀ k, k ≠ r.val → t.region k = s.region k) ∧
      { t with regions := s.regions, dome := s.dome, host := s.host } = s) ∧
  (∀ (s : State), s.dome_ TCK_CTRL_MODE = 1 → 
      ∃ t, exec (.masterLos) s = .next t ∧
      t.dome.rootHold = true ∧
      t.dome_ TCK_STATUS_MASTER_LOS = 1 ∧
      Pends t 5 ∧
      s.dome_ TCK_CTRL_MASTER_SRC ∉ t.dome.rootReady ∧
      { t with dome := s.dome, host := s.host } = s) ∧
  (∀ (s : State), s.dome_ TCK_CTRL_MODE = 1 → 
      ∃ t, exec (.masterMarkerInsert) s = .next t ∧
      t.dome.markers = s.dome.markers + 1 ∧
      t.out = s.out ++ [Output.markers s.dome.rootReady] ∧
      { t with dome := { t.dome with markers := s.dome.markers }, out := s.out } = s)

/-- A write of SEL takes a READY source and refuses any other. (R41) -/
def Obligations.SourceSelection : Prop :=
  (∀ (s : State) (r : RegionId) (v : W32), s.pageOpen r.val = true → DRV_SRC_SEL.of v ≠ 3 → (s.region r.val).rd (drvReady (DRV_SRC_SEL.of v)) ≠ 0 → 
      ∃ t, exec (.drvSrcWrite r v) s = .next t ∧
      (t.region r.val).rd DRV_SRC_SEL = DRV_SRC_SEL.of v ∧
      (t.region r.val).rd DRV_SRC_STATUS_ACTIVE = DRV_SRC_SEL.of v ∧
      (t.region r.val).rd DRV_SRC_STATUS_SRC_ERR = (s.region r.val).rd DRV_SRC_STATUS_SRC_ERR ∧
      OnlyRegion s t r.val ∧
      RegionRegs (s.region r.val) (t.region r.val) [DRV_SRC_SEL.off, DRV_SRC_STATUS_SRC_ERR.off, DRV_STATUS_STATE.off, PWR_STATUS_PARK_CAUSE.off]) ∧
  (∀ (s : State) (r : RegionId) (v : W32), s.pageOpen r.val = true → (DRV_SRC_SEL.of v = 3 ∨ (s.region r.val).rd (drvReady (DRV_SRC_SEL.of v)) = 0) → 
      ∃ t, exec (.drvSrcWrite r v) s = .next t ∧
      (t.region r.val).rd DRV_SRC_SEL = (s.region r.val).rd DRV_SRC_SEL ∧
      (t.region r.val).rd DRV_SRC_STATUS_SRC_ERR = 1 ∧
      OnlyRegion s t r.val ∧
      RegionRegs (s.region r.val) (t.region r.val) [DRV_SRC_STATUS_SRC_ERR.off]) ∧
  (∀ (s : State) (r : RegionId) (v : W32), s.pageOpen r.val = true → TRC_SRC_SEL.of v ≠ 3 → (s.region r.val).rd (trcReady (TRC_SRC_SEL.of v)) ≠ 0 → 
      ∃ t, exec (.trcSrcWrite r v) s = .next t ∧
      (t.region r.val).rd TRC_SRC_SEL = TRC_SRC_SEL.of v ∧
      (t.region r.val).rd TRC_SRC_STATUS_ACTIVE = TRC_SRC_SEL.of v ∧
      (t.region r.val).rd TRC_SRC_STATUS_SRC_ERR = (s.region r.val).rd TRC_SRC_STATUS_SRC_ERR ∧
      OnlyRegion s t r.val ∧
      RegionRegs (s.region r.val) (t.region r.val) [TRC_SRC_SEL.off, TRC_SRC_STATUS_SRC_ERR.off, TRC_STATUS_STATE.off]) ∧
  (∀ (s : State) (r : RegionId) (v : W32), s.pageOpen r.val = true → (TRC_SRC_SEL.of v = 3 ∨ (s.region r.val).rd (trcReady (TRC_SRC_SEL.of v)) = 0) → 
      ∃ t, exec (.trcSrcWrite r v) s = .next t ∧
      (t.region r.val).rd TRC_SRC_SEL = (s.region r.val).rd TRC_SRC_SEL ∧
      (t.region r.val).rd TRC_SRC_STATUS_SRC_ERR = 1 ∧
      OnlyRegion s t r.val ∧
      RegionRegs (s.region r.val) (t.region r.val) [TRC_SRC_STATUS_SRC_ERR.off])

/-- Writes of a region's control page take the fields written and change nothing else. (from 02_clock_drives_and_tick.md (R50, R55),
03_almanac_power_heat.md (R79, R97, R99)) -/
def Obligations.PageRegisterWrites : Prop :=
  (∀ (s : State) (r : RegionId) (v : W32), s.pageOpen r.val = true → 
      ∃ t, exec (.drvFreqWrite r v) s = .next t ∧
      (t.region r.val).rd DRV_FREQ_MULT = DRV_FREQ_MULT.of v ∧
      (t.region r.val).rd DRV_FREQ_POSTDIV = DRV_FREQ_POSTDIV.of v ∧
      (t.region r.val).rd DRV_FREQ_VCODE = DRV_FREQ_VCODE.of v ∧
      ((t.region r.val).rd DRV_STATUS_PEND = 0 ↔ (DRV_FREQ_MULT.of v = (s.region r.val).rd DRV_ACTIVE_MULT ∧
      DRV_FREQ_POSTDIV.of v = (s.region r.val).rd DRV_ACTIVE_POSTDIV ∧ DRV_FREQ_VCODE.of v = (s.region r.val).rd DRV_ACTIVE_VCODE)) ∧
      (t.region r.val).rd DRV_STATUS_STATE = (s.region r.val).rd DRV_STATUS_STATE ∧
      OnlyRegion s t r.val ∧
      RegionRegs (s.region r.val) (t.region r.val) [DRV_FREQ_MULT.off, DRV_STATUS_PEND.off]) ∧
  (∀ (s : State) (r : RegionId) (v : W32), s.pageOpen r.val = true → 
      ∃ t, exec (.trcCtrlWrite r v) s = .next t ∧
      (t.region r.val).rd TRC_CTRL_HALF_REQ = TRC_CTRL_HALF_REQ.of v ∧
      (t.region r.val).rd TRC_CTRL_HALF_THM = (s.region r.val).rd TRC_CTRL_HALF_THM ∧
      ((t.region r.val).rd TRC_CTRL_HALF = 1 ↔ (TRC_CTRL_HALF_REQ.of v = 1 ∨ (s.region r.val).rd TRC_CTRL_HALF_THM = 1)) ∧
      OnlyRegion s t r.val ∧
      RegionRegs (s.region r.val) (t.region r.val) [TRC_CTRL_HALF.off]) ∧
  (∀ (s : State) (r : RegionId) (v : W32), s.pageOpen r.val = true → 
      ∃ t, exec (.almBandThrWrite r v) s = .next t ∧
      (t.region r.val).rd ALM_BAND_THR_T1 = ALM_BAND_THR_T1.of v ∧
      (t.region r.val).rd ALM_BAND_THR_T2 = ALM_BAND_THR_T2.of v ∧
      (t.region r.val).rd ALM_BAND_THR_T3 = ALM_BAND_THR_T3.of v ∧
      OnlyRegion s t r.val ∧
      RegionRegs (s.region r.val) (t.region r.val) [ALM_BAND_THR_T1.off]) ∧
  (∀ (s : State) (r : RegionId) (band : Fin 4) (cls : Fin 16) (v : W32), s.pageOpen r.val = true → 
      ∃ t, exec (.almCoefWrite r band cls v) s = .next t ∧
      (t.region r.val).rd (ALM_COEF_COEF.nth (16 * band.val + cls.val)) = ALM_COEF_COEF.of v ∧
      OnlyRegion s t r.val ∧
      RegionRegs (s.region r.val) (t.region r.val) [(ALM_COEF_COEF.nth (16 * band.val + cls.val)).off]) ∧
  (∀ (s : State) (r : RegionId) (v : W32), s.pageOpen r.val = true → 
      ∃ t, exec (.almReserveWrite r v) s = .next t ∧
      (t.region r.val).rd ALM_RESERVE_RESERVE = ALM_RESERVE_RESERVE.of v ∧
      OnlyRegion s t r.val ∧
      RegionRegs (s.region r.val) (t.region r.val) [ALM_RESERVE_RESERVE.off]) ∧
  (∀ (s : State) (r : RegionId) (v : W32), s.pageOpen r.val = true → s.dome.locked = false → 
      ∃ t, exec (.thmCtrlWrite r v) s = .next t ∧
      ((t.region r.val).rd THM_CTRL_WARN = if THM_CTRL_WARN.of v ≤ 95 then THM_CTRL_WARN.of v else (s.region r.val).rd THM_CTRL_WARN) ∧
      ((t.region r.val).rd THM_CTRL_PARK = if THM_CTRL_PARK.of v ≤ 105 then THM_CTRL_PARK.of v else (s.region r.val).rd THM_CTRL_PARK) ∧
      (95 < THM_CTRL_WARN.of v ∨ 105 < THM_CTRL_PARK.of v → (t.region r.val).rd THM_STATUS_CFG_ERR = 1) ∧
      (THM_CTRL_WARN.of v ≤ 95 ∧ THM_CTRL_PARK.of v ≤ 105 → (t.region r.val).rd THM_STATUS_CFG_ERR = (s.region r.val).rd THM_STATUS_CFG_ERR) ∧
      OnlyRegion s t r.val ∧
      RegionRegs (s.region r.val) (t.region r.val) [THM_CTRL_WARN.off, THM_STATUS_CFG_ERR.off]) ∧
  (∀ (s : State) (r : RegionId) (v : W32), s.pageOpen r.val = true → s.dome.locked = true → THM_CTRL_WARN.of v ≠ (s.region r.val).rd THM_CTRL_WARN → 
      ∃ t, exec (.thmCtrlWrite r v) s = .next t ∧
      (t.region r.val).rd THM_STATUS_LOCK_VIOL = 1 ∧
      OnlyRegion s t r.val ∧
      RegionRegs (s.region r.val) (t.region r.val) [THM_STATUS_LOCK_VIOL.off])

/-- Unlock, relock and acquisition move the clock drive and the transit clock as R52, R53 and R54 say. (from 02_clock_drives_and_tick.md (R52, R53, R54,
R58), 14_faults_and_collimation.md (R355)) -/
def Obligations.GeneratorFailures : Prop :=
  (∀ (s : State) (r : RegionId), (s.region r.val).rd DRV_STATUS_STATE = 1 → (s.region r.val).rd (drvReady ((s.region r.val).rd DRV_SRC_SEL)) = 1 → 
      ∃ t, exec (.acquireLock r false) s = .next t ∧
      (t.region r.val).rd DRV_STATUS_STATE = 2 ∧
      (t.region r.val).rd DRV_STATUS_LOCK = 1 ∧
      (t.region r.val).rd DRV_SRC_STATUS_ACTIVE = (s.region r.val).rd DRV_SRC_SEL ∧
      OnlyRegion s t r.val ∧
      RegionRegs (s.region r.val) (t.region r.val) [DRV_STATUS_STATE.off, DRV_SRC_STATUS_ACTIVE.off]) ∧
  (∀ (s : State) (r : RegionId), (s.region r.val).rd TRC_STATUS_STATE = 1 → (s.region r.val).rd (trcReady ((s.region r.val).rd TRC_SRC_SEL)) = 1 → 
      ∃ t, exec (.acquireLock r true) s = .next t ∧
      (t.region r.val).rd TRC_STATUS_STATE = 2 ∧
      (t.region r.val).rd TRC_STATUS_LOCK = 1 ∧
      (t.region r.val).rd TRC_SRC_STATUS_ACTIVE = (s.region r.val).rd TRC_SRC_SEL ∧
      OnlyRegion s t r.val ∧
      RegionRegs (s.region r.val) (t.region r.val) [TRC_STATUS_STATE.off, TRC_SRC_STATUS_ACTIVE.off]) ∧
  (∀ (s : State) (r : RegionId), (s.region r.val).rd DRV_STATUS_STATE = 1 → 
      ∃ t, exec (.acquireTimeout r false) s = .next t ∧
      (t.region r.val).rd DRV_STATUS_STATE = 6 ∧
      (t.region r.val).rd DRV_STATUS_LOCK = 0 ∧
      Logged s t 13 r.val ∧
      t.dome.degPend = s.dome.degPend ++ [(13, r.val)] ∧
      ((∀ k, k ≠ r.val → t.region k = s.region k) ∧ { t with regions := s.regions, dome := s.dome, host := s.host } = s) ∧
      RegionRegs (s.region r.val) (t.region r.val) [DRV_STATUS_STATE.off]) ∧
  (∀ (s : State) (r : RegionId), (s.region r.val).rd TRC_STATUS_STATE = 1 → 
      ∃ t, exec (.acquireTimeout r true) s = .next t ∧
      (t.region r.val).rd TRC_STATUS_STATE = 6 ∧
      Logged s t 13 r.val ∧
      t.dome.degPend = s.dome.degPend ++ [(13, r.val)] ∧
      ((∀ k, k ≠ r.val → t.region k = s.region k) ∧ { t with regions := s.regions, dome := s.dome, host := s.host } = s) ∧
      RegionRegs (s.region r.val) (t.region r.val) [TRC_STATUS_STATE.off]) ∧
  (∀ (s : State) (r : RegionId), (s.region r.val).rd DRV_STATUS_STATE = 2 → 
      ∃ t, exec (.unlock r) s = .next t ∧
      (t.region r.val).rd DRV_STATUS_STATE = 3 ∧
      (t.region r.val).rd DRV_STATUS_UNLOCK = 1 ∧
      (t.region r.val).computing = false ∧
      Pends t 5 ∧
      Logged s t 12 r.val ∧
      t.dome.degPend = s.dome.degPend ++ [(12, r.val)] ∧
      ((∀ k, k ≠ r.val → t.region k = s.region k) ∧ { t with regions := s.regions, dome := s.dome, host := s.host } = s)) ∧
  (∀ (s : State) (r : RegionId), (s.region r.val).rd DRV_STATUS_STATE = 3 → 
      ∃ t, exec (.relockTimeout r) s = .next t ∧
      (t.region r.val).rd DRV_STATUS_STATE = 6 ∧
      (t.region r.val).computing = false ∧
      Logged s t 13 r.val ∧
      t.dome.degPend = s.dome.degPend ++ [(13, r.val)] ∧
      ((∀ k, k ≠ r.val → t.region k = s.region k) ∧ { t with regions := s.regions, dome := s.dome, host := s.host } = s)) ∧
  (∀ (s : State) (r : RegionId), (s.region r.val).rd TRC_STATUS_STATE = 2 → 
      ∃ t, exec (.transitUnlock r) s = .next t ∧
      (t.region r.val).rd TRC_STATUS_STATE = 4 ∧
      (t.region r.val).rd TRC_STATUS_UNLOCK = 1 ∧
      (t.region r.val).trcTry = true ∧
      Pends t 5 ∧
      Logged s t 12 r.val ∧
      ((∀ k, k ≠ r.val → t.region k = s.region k) ∧ { t with regions := s.regions, dome := s.dome, host := s.host } = s)) ∧
  (∀ (s : State) (r : RegionId), (s.region r.val).rd TRC_STATUS_STATE = 4 → (s.region r.val).trcTry = true → 
      ∃ t, exec (.transitReacquire r) s = .next t ∧
      (t.region r.val).rd TRC_STATUS_STATE = 2 ∧
      (t.region r.val).trcTry = false ∧
      OnlyRegion s t r.val) ∧
  (∀ (s : State) (r : RegionId), (s.region r.val).rd TRC_STATUS_STATE = 4 → (s.region r.val).trcTry = true → 
      ∃ t, exec (.transitReacquireTimeout r) s = .next t ∧
      (t.region r.val).rd TRC_STATUS_STATE = 6 ∧
      (t.region r.val).hole = true ∧
      Logged s t 13 r.val ∧
      ((∀ k, k ≠ r.val → t.region k = s.region k) ∧ { t with regions := s.regions, dome := s.dome, host := s.host } = s)) ∧
  (∀ (s : State) (r : RegionId), (s.region r.val).rd DRV_STATUS_STATE = 4 → 
      ∃ t, exec (.holdoverTimeout r) s = .next t ∧
      (t.region r.val).rd DRV_STATUS_STATE = 5 ∧
      (t.region r.val).rd PWR_STATUS_PARK_CAUSE = (s.region r.val).rd PWR_STATUS_PARK_CAUSE ||| 2 ∧
      ((s.region r.val).power = 2 → (s.region r.val).sched_ ≠ 3 → (t.region r.val).power = 3) ∧
      (t.region r.val).rd TRC_STATUS_STATE = (s.region r.val).rd TRC_STATUS_STATE ∧
      OnlyRegion s t r.val)

/-- A decoded marker arms the tick, realigns a local one, or starts a resynchronised tick; a region ticks with the next number. (from
02_clock_drives_and_tick.md (R43, R44, R45, R67, R72)) The model's choices, no rule's: that LOCAL is cleared at the tick a marker makes, and that the
region's first tick takes the module's number (assumption log entry 21). -/
def Obligations.MarkersAndTicks : Prop :=
  (∀ (s : State) (r : RegionId) (n : Nat) (obs : TickObs), s.alive r.val = true → 
      ∃ t, exec (.markerDecode r .threeQuarters n obs) s = .next t ∧
      (t.region r.val).rd TCK_RSTATUS_MARKER_BAD = 1 ∧
      OnlyRegion s t r.val ∧
      RegionRegs (s.region r.val) (t.region r.val) [TCK_RSTATUS_MARKER_BAD.off]) ∧
  (∀ (s : State) (r : RegionId) (n : Nat) (obs : TickObs), 
      ∃ t, exec (.markerDecode r .half n obs) s = .next t ∧
      t = s) ∧
  (∀ (s : State) (r : RegionId) (n : Nat) (obs : TickObs), s.alive r.val = true → n ≤ s.dome_ TCK_PERIOD_PERIOD → s.dome_ TCK_PERIOD_PERIOD < n + s.dome_ TCK_PERIOD_PERIOD / 8 → 
      ∃ t, exec (.markerDecode r .quarter n obs) s = .next t ∧
      (t.region r.val).armed = true ∧
      OnlyRegion s t r.val ∧
      { t.region r.val with armed := (s.region r.val).armed } = s.region r.val) ∧
  (∀ (s : State) (r : RegionId) (n : Nat) (obs : TickObs), s.alive r.val = true → (s.region r.val).lastLocal = true → n < s.dome_ TCK_PERIOD_PERIOD / 8 → 
      ∃ t, exec (.markerDecode r .quarter n obs) s = .next t ∧
      (t.region r.val).rd TCK_RSTATUS_LOCAL = 0 ∧
      (t.region r.val).num = (s.region r.val).num ∧
      (t.region r.val).locals = 0 ∧
      OnlyRegion s t r.val) ∧
  (∀ (s : State) (r : RegionId) (n : Nat) (obs : TickObs), s.alive r.val = true → (s.region r.val).lastLocal = false → s.dome_ TCK_PERIOD_PERIOD < n → n < s.dome_ TCK_PERIOD_PERIOD + s.dome_ TCK_PERIOD_PERIOD / 8 → 
      ∃ t, exec (.markerDecode r .quarter n obs) s = .next t ∧
      (t.region r.val).late = true ∧
      OnlyRegion s t r.val ∧
      { t.region r.val with late := (s.region r.val).late } = s.region r.val) ∧
  (∀ (s : State) (r : RegionId) (n : Nat) (obs : TickObs), s.alive r.val = true → (s.dome_ TCK_PERIOD_PERIOD < n ∨ n + s.dome_ TCK_PERIOD_PERIOD / 8 ≤ s.dome_ TCK_PERIOD_PERIOD) → ((s.region r.val).lastLocal = false ∨ s.dome_ TCK_PERIOD_PERIOD / 8 ≤ n) → ((s.region r.val).lastLocal = true ∨ n ≤ s.dome_ TCK_PERIOD_PERIOD ∨ s.dome_ TCK_PERIOD_PERIOD + s.dome_ TCK_PERIOD_PERIOD / 8 ≤ n) → (s.region r.val).sched_ = 0 → 
      ∃ t, exec (.markerDecode r .quarter n obs) s = .next t ∧
      (t.region r.val).num = s.tickNum ∧
      (t.region r.val).rd TCK_RSTATUS_RESYNC = 1 ∧
      (t.region r.val).rd TCK_RSTATUS_LOCAL = 0 ∧
      Pends t 1 ∧
      (∀ k, k ≠ r.val → (t.region k).num = (s.region k).num)) ∧
  (∀ (s : State) (r : RegionId) (obs : TickObs), s.alive r.val = true → (s.region r.val).armed = true → (s.region r.val).sched_ = 0 → (s.region r.val).swapsDue = [] → 
      ∃ t, exec (.tickInstant r obs) s = .next t ∧
      ((t.region r.val).num = (if (s.region r.val).ticked = true then (s.region r.val).num + 1 else s.tickNum)) ∧
      (t.region r.val).armed = false ∧
      (t.region r.val).rd TCK_RSTATUS_LOCAL = 0 ∧
      (t.region r.val).rd PWR_ENERGY_ENERGY = obs.energy % 2 ^ 32 ∧
      (t.region r.val).used = 0 ∧
      (t.region r.val).ev = [] ∧
      (∀ k, k ≠ r.val → t.region k = s.region k)) ∧
  (∀ (s : State) (r : RegionId) (obs : TickObs), s.alive r.val = true → (s.region r.val).armed = false → (s.region r.val).sched_ = 0 → 
      ∃ t, exec (.localTick r obs) s = .next t ∧
      ((t.region r.val).num = (if (s.region r.val).ticked = true then (s.region r.val).num + 1 else s.tickNum)) ∧
      (t.region r.val).rd TCK_RSTATUS_MISSED = 1 ∧
      ((t.region r.val).rd TCK_RSTATUS_LOCAL = (if (s.region r.val).late = false ∧ 1 ≤ (s.region r.val).locals then 1 else 0)) ∧
      ((t.region r.val).locals = (if (s.region r.val).late = true then 0 else (s.region r.val).locals + 1)) ∧
      (t.region r.val).late = false ∧
      (∀ k, k ≠ r.val → t.region k = s.region k))

/-- A tick that finds the slot unfinished is an overrun: SLIP rises by 1, the slot goes on, and the balance is refilled. (from 02_clock_drives_and_tick.md
(R65), 03_almanac_power_heat.md (R74)) -/
def Obligations.TickOverrun : Prop :=
  (∀ (s : State) (r : RegionId) (obs : TickObs) (e : Slot), s.alive r.val = true → (s.region r.val).armed = true → (s.region r.val).sched_ = 2 → (s.region r.val).slot = some e → 0 < e.budget → (s.region r.val).power = 2 → (s.region r.val).rd PWR_STATUS_PARK_CAUSE = 0 → 
      ∃ t, exec (.tickInstant r obs) s = .next t ∧
      (t.region r.val).rd TCK_RSTATUS_OVERRUN = 1 ∧
      (t.region r.val).rd TCK_RSTATUS_SLIP = min 255 ((s.region r.val).rd TCK_RSTATUS_SLIP + 1) ∧
      Pends t 1 ∧
      (t.region r.val).slot = some e ∧
      (t.region r.val).sched_ = 2 ∧
      ((t.region r.val).balance = ((e.budget * 1000000000 : Nat) : Int) +
      (let b := (s.region r.val).balance - ((s.region r.val).eventEnergy : Int);
      if 0 ≤ b then min b ((e.budget / 4 * 1000000000 : Nat) : Int) else b)) ∧
      (∀ k, k ≠ r.val → t.region k = s.region k))

/-- The tick of the root counts, stamps the PTM time, and gives every UP port a TICK column to send. (from 02_clock_drives_and_tick.md (R69),
13_zhevide_fabric.md (R347), 03_almanac_power_heat.md (R100), 12_wafer_mesh.md (R300)) -/
def Obligations.RootTickCounts : Prop :=
  (∀ (s : State) (ptm volt cur energy : Nat), s.dome.input = true → 
      ∃ t, exec (.rootTick ptm volt cur energy) s = .next t ∧
      t.dome.ticks = s.dome.ticks + 1 ∧
      t.dome.ptm = ptm ∧
      t.dome_ PWR_IN_VOLT = volt % 2 ^ PWR_IN_VOLT.width ∧
      t.dome_ PWR_IN_CUR = cur % 2 ^ PWR_IN_CUR.width ∧
      (s.dome.ticks = 0 → t.dome.golden = 0) ∧
      (s.dome.ticks ≠ 0 → t.dome.golden = s.dome.golden) ∧
      (∀ p, p < 64 → s.portUp p = true → (t.port p).tickDue = true) ∧
      (∀ p, s.portUp p = false → t.port p = s.port p) ∧
      t.regions = s.regions ∧ t.clusters = s.clusters) ∧
  (∀ (s : State), 
      ∃ t, exec (.goldenRotate) s = .next t ∧
      t.dome.golden = (s.dome.golden + 1) % 112 ∧
      { t with dome := { t.dome with golden := s.dome.golden } } = s)

/-- Host reads that latch: the tick snapshot, a region's tick number and its balance. (from 02_clock_drives_and_tick.md (R68, R72),
03_almanac_power_heat.md (R97), 15_host_bridge.md (R374, R379, R396)) The model's choice, no rule's: that these reads are the host's BAR0 reads, which
wait for posted writes and are counted (assumption log entry 18). -/
def Obligations.LatchingReads : Prop :=
  (∀ (s : State), s.ready = true → s.host.posted = [] → 
      ∃ t, exec (.tckSnapRead) s = .next t ∧
      t.out = s.out ++ [Output.hostRead false 0x20C (leBytes 4 (s.dome.ptm % 2 ^ 32)) false] ∧
      t.dome_ TCK_SNAP_LO_STAMP_LO = s.dome.ptm % 2 ^ 32 ∧
      t.dome_ TCK_SNAP_HI_STAMP_HI = s.dome.ptm / 2 ^ 32 % 2 ^ 32 ∧
      t.dome_ TCK_SNAP_NUM_LO_NUM_LO = s.tickNum % 2 ^ 32 ∧
      t.dome_ TCK_SNAP_NUM_HI_NUM_HI = s.tickNum / 2 ^ 32 % 2 ^ 32 ∧
      CountedRead s t ∧
      OnlyDomeRegs { s with out := t.out, host := t.host } t [0x20C, 0x210, 0x214, 0x218]) ∧
  (∀ (s : State), s.ready = false → s.host.posted = [] → 
      ∃ t, exec (.tckSnapRead) s = .next t ∧
      t.out = s.out ++ [Output.hostRead false 0x20C (leBytes 4 0xFFFFFFFF) false] ∧
      CountedRead s t ∧
      { t with out := s.out, host := s.host } = s) ∧
  (∀ (s : State), s.ready = true → s.host.posted ≠ [] → 
      ∃ t, exec (.tckSnapRead) s = .next t ∧
      t.out = s.out ∧
      (t.host.reads.getLast?).map (fun (x : BarRead) => (x.bar2, x.off, x.waits, x.data)) =
      some (false, 0x20C, s.host.posted.map (fun p => p.id), leBytes 4 (s.dome.ptm % 2 ^ 32)) ∧
      t.host.reads.length = s.host.reads.length + 1) ∧
  (∀ (s : State) (r : RegionId), s.ready = true → s.host.posted = [] → s.pageOpen r.val = true → 
      ∃ t, exec (.tckRnumRead r) s = .next t ∧
      t.out = s.out ++ [Output.hostRead false (0x100084 + 0x1000 * r.val) (leBytes 4 ((s.region r.val).num % 2 ^ 32)) false] ∧
      (t.region r.val).rd TCK_RNUM_HI_NUM_HI = (s.region r.val).num / 2 ^ 32 % 2 ^ 32 ∧
      CountedRead s t ∧
      OnlyRegion { s with out := t.out, host := t.host } t r.val ∧
      RegionRegs (s.region r.val) (t.region r.val) [TCK_RNUM_HI_NUM_HI.off]) ∧
  (∀ (s : State) (r : RegionId), s.ready = true → s.host.posted = [] → s.pageOpen r.val = false → 
      ∃ t, exec (.tckRnumRead r) s = .next t ∧
      t.out = s.out ++ [Output.hostRead false (0x100084 + 0x1000 * r.val) (leBytes 4 0xFFFFFFFF) false] ∧
      CountedRead s t ∧
      { t with out := s.out, host := s.host } = s) ∧
  (∀ (s : State) (r : RegionId), s.ready = true → s.host.posted = [] → s.pageOpen r.val = true → 
      ∃ t, exec (.almBalRead r) s = .next t ∧
      t.out = s.out ++ [Output.hostRead false (0x100108 + 0x1000 * r.val) (leBytes 4 ((BitVec.ofInt 64 (s.region r.val).balance).toNat % 2 ^ 32)) false] ∧
      (t.region r.val).rd ALM_BAL_HI_BAL_HI = (BitVec.ofInt 64 (s.region r.val).balance).toNat / 2 ^ 32 ∧
      CountedRead s t ∧
      OnlyRegion { s with out := t.out, host := t.host } t r.val ∧
      RegionRegs (s.region r.val) (t.region r.val) [ALM_BAL_HI_BAL_HI.off]) ∧
  (∀ (s : State) (r : RegionId), s.ready = true → s.host.posted = [] → s.pageOpen r.val = false → 
      ∃ t, exec (.almBalRead r) s = .next t ∧
      t.out = s.out ++ [Output.hostRead false (0x100108 + 0x1000 * r.val) (leBytes 4 0xFFFFFFFF) false] ∧
      CountedRead s t ∧
      { t with out := s.out, host := s.host } = s)

/-- The tick period, the tick control and the envelope take values in range before their lock and none after it. (from 02_clock_drives_and_tick.md (R63,
R69), 03_almanac_power_heat.md (R84, R100), 00_scope.md (R7)) -/
def Obligations.LockedModuleRegisters : Prop :=
  (∀ (s : State) (v : W32), s.dome.locked = false → 1250 ≤ TCK_PERIOD_PERIOD.of v → TCK_PERIOD_PERIOD.of v ≤ 2500000 → 
      ∃ t, exec (.tckPeriodWrite v) s = .next t ∧
      t.dome_ TCK_PERIOD_PERIOD = TCK_PERIOD_PERIOD.of v ∧
      OnlyDomeRegs s t [TCK_PERIOD_PERIOD.off]) ∧
  (∀ (s : State) (v : W32), s.dome.locked = false → (TCK_PERIOD_PERIOD.of v < 1250 ∨ 2500000 < TCK_PERIOD_PERIOD.of v) → 
      ∃ t, exec (.tckPeriodWrite v) s = .next t ∧
      t.dome_ TCK_PERIOD_PERIOD = s.dome_ TCK_PERIOD_PERIOD ∧
      t.dome_ TCK_STATUS_CFG_ERR = 1 ∧
      OnlyDomeRegs s t [TCK_STATUS_CFG_ERR.off]) ∧
  (∀ (s : State) (v : W32), s.dome.locked = true → 
      ∃ t, exec (.tckPeriodWrite v) s = .next t ∧
      t.dome_ TCK_PERIOD_PERIOD = s.dome_ TCK_PERIOD_PERIOD ∧
      (TCK_PERIOD_PERIOD.of v ≠ s.dome_ TCK_PERIOD_PERIOD → t.dome_ TCK_STATUS_LOCK_VIOL = 1) ∧
      (TCK_PERIOD_PERIOD.of v = s.dome_ TCK_PERIOD_PERIOD → t = s) ∧
      OnlyDomeRegs s t [TCK_STATUS_LOCK_VIOL.off]) ∧
  (∀ (s : State) (v : W32), s.dome.locked = false → 
      ∃ t, exec (.tckCtrlWrite v) s = .next t ∧
      t.dome_ TCK_CTRL_MODE = TCK_CTRL_MODE.of v ∧
      t.dome_ TCK_CTRL_RCV_PORT = TCK_CTRL_RCV_PORT.of v ∧
      (t.dome_ TCK_CTRL_MASTER_SRC = (if TCK_CTRL_MASTER_SRC.of v = 3 then s.dome_ TCK_CTRL_MASTER_SRC else TCK_CTRL_MASTER_SRC.of v)) ∧
      (t.dome_ TCK_CTRL_SLIP_LIMIT = (if TCK_CTRL_SLIP_LIMIT.of v = 0 then s.dome_ TCK_CTRL_SLIP_LIMIT else TCK_CTRL_SLIP_LIMIT.of v)) ∧
      (TCK_CTRL_MASTER_SRC.of v = 3 ∨ TCK_CTRL_SLIP_LIMIT.of v = 0 → t.dome_ TCK_STATUS_CFG_ERR = 1) ∧
      (TCK_CTRL_MASTER_SRC.of v ≠ 3 ∧ TCK_CTRL_SLIP_LIMIT.of v ≠ 0 → t.dome_ TCK_STATUS_CFG_ERR = s.dome_ TCK_STATUS_CFG_ERR) ∧
      OnlyDomeRegs s t [TCK_CTRL_MODE.off, TCK_STATUS_CFG_ERR.off]) ∧
  (∀ (s : State) (v : W32), s.dome.locked = true → (TCK_CTRL_MODE.of v ≠ s.dome_ TCK_CTRL_MODE ∨ TCK_CTRL_MASTER_SRC.of v ≠ s.dome_ TCK_CTRL_MASTER_SRC ∨
      TCK_CTRL_SLIP_LIMIT.of v ≠ s.dome_ TCK_CTRL_SLIP_LIMIT ∨ TCK_CTRL_RCV_PORT.of v ≠ s.dome_ TCK_CTRL_RCV_PORT) → 
      ∃ t, exec (.tckCtrlWrite v) s = .next t ∧
      t.dome_ TCK_STATUS_LOCK_VIOL = 1 ∧
      t.dome_ TCK_CTRL_MODE = s.dome_ TCK_CTRL_MODE ∧
      t.dome_ TCK_CTRL_MASTER_SRC = s.dome_ TCK_CTRL_MASTER_SRC ∧
      t.dome_ TCK_CTRL_SLIP_LIMIT = s.dome_ TCK_CTRL_SLIP_LIMIT ∧
      t.dome_ TCK_CTRL_RCV_PORT = s.dome_ TCK_CTRL_RCV_PORT ∧
      OnlyDomeRegs s t [TCK_STATUS_LOCK_VIOL.off]) ∧
  (∀ (s : State) (v : W32), s.dome.locked = true → TCK_CTRL_MODE.of v = s.dome_ TCK_CTRL_MODE → TCK_CTRL_MASTER_SRC.of v = s.dome_ TCK_CTRL_MASTER_SRC → TCK_CTRL_SLIP_LIMIT.of v = s.dome_ TCK_CTRL_SLIP_LIMIT → TCK_CTRL_RCV_PORT.of v = s.dome_ TCK_CTRL_RCV_PORT → 
      ∃ t, exec (.tckCtrlWrite v) s = .next t ∧
      t = s) ∧
  (∀ (s : State) (v : W32), s.dome.envLocked = false → 
      ∃ t, exec (.almEnvelopeWrite v) s = .next t ∧
      (t.dome_ ALM_ENVELOPE_WATTS =
      (if 1000 ≤ ALM_ENVELOPE_WATTS.of v ∧ ALM_ENVELOPE_WATTS.of v ≤ 60000 then ALM_ENVELOPE_WATTS.of v else s.dome_ ALM_ENVELOPE_WATTS)) ∧
      (¬(1000 ≤ ALM_ENVELOPE_WATTS.of v ∧ ALM_ENVELOPE_WATTS.of v ≤ 60000) → t.dome_ TCK_STATUS_CFG_ERR = 1) ∧
      OnlyDomeRegs s t [ALM_ENVELOPE_WATTS.off, TCK_STATUS_CFG_ERR.off]) ∧
  (∀ (s : State) (v : W32), s.dome.envLocked = true → ALM_ENVELOPE_WATTS.of v ≠ s.dome_ ALM_ENVELOPE_WATTS → 
      ∃ t, exec (.almEnvelopeWrite v) s = .next t ∧
      t.dome_ TCK_STATUS_LOCK_VIOL = 1 ∧
      t.dome_ ALM_ENVELOPE_WATTS = s.dome_ ALM_ENVELOPE_WATTS ∧
      OnlyDomeRegs s t [TCK_STATUS_LOCK_VIOL.off]) ∧
  (∀ (s : State) (v : W32), s.dome.envLocked = true → ALM_ENVELOPE_WATTS.of v = s.dome_ ALM_ENVELOPE_WATTS → 
      ∃ t, exec (.almEnvelopeWrite v) s = .next t ∧
      t = s)

/-- Droops and excess current stretch root periods; a debit subtracts the events exactly and compares with the reserve. (from 02_clock_drives_and_tick.md
(R53, R60, R62), 03_almanac_power_heat.md (R80, R81, R83, R87, R455)) -/
def Obligations.StretchesAndDebits : Prop :=
  (∀ (s : State) (r : RegionId) (mv n : Nat), (s.region r.val).computing = true → 5 * (s.region r.val).rd DRV_SEE_CTRL_THRESH < mv → 
      ∃ t, exec (.seeingStretch r false mv n) s = .next t ∧
      Regs.rd pageTable (t.region r.val).cnt DRV_SEE_CNT_CNT = (Regs.rd pageTable (s.region r.val).cnt DRV_SEE_CNT_CNT + n) % 2 ^ 32 ∧
      Regs.rd pageTable (t.region r.val).cnt DRV_SEE_LOST_LOST =
      (Regs.rd pageTable (s.region r.val).cnt DRV_SEE_LOST_LOST + n * stretchEighths ((s.region r.val).rd DRV_SEE_CTRL_STRETCH)) % 2 ^ 32 ∧
      OnlyRegion s t r.val ∧
      { t.region r.val with cnt := (s.region r.val).cnt, chr := (s.region r.val).chr } = s.region r.val) ∧
  (∀ (s : State) (r : RegionId) (mv n : Nat), s.alive r.val = true → 5 * (s.region r.val).rd TRC_SEE_CTRL_THRESH < mv → 
      ∃ t, exec (.seeingStretch r true mv n) s = .next t ∧
      Regs.rd pageTable (t.region r.val).cnt TRC_SEE_CNT_CNT = (Regs.rd pageTable (s.region r.val).cnt TRC_SEE_CNT_CNT + n) % 2 ^ 32 ∧
      OnlyRegion s t r.val ∧
      { t.region r.val with cnt := (s.region r.val).cnt } = s.region r.val) ∧
  (∀ (s : State) (r : RegionId) (a n : Nat), (s.region r.val).computing = true → 10 * (s.region r.val).rd PWR_ILIM_LIMIT < a → 
      ∃ t, exec (.currentLimit r a n) s = .next t ∧
      (t.region r.val).rd PWR_VA_CUR = a % 2 ^ PWR_VA_CUR.width ∧
      Regs.rd pageTable (t.region r.val).cnt PWR_LIM_CNT_CNT = (Regs.rd pageTable (s.region r.val).cnt PWR_LIM_CNT_CNT + n) % 2 ^ 32 ∧
      Regs.rd pageTable (t.region r.val).cnt DRV_SEE_CNT_CNT = (Regs.rd pageTable (s.region r.val).cnt DRV_SEE_CNT_CNT + n) % 2 ^ 32 ∧
      OnlyRegion s t r.val) ∧
  (∀ (s : State) (r : RegionId) (aclk cclk tclk : Nat), s.alive r.val = true → (s.region r.val).rd DRV_STATUS_STATE ≠ 3 → 
      ∃ t, exec (.almanacDebit r aclk cclk tclk) s = .next t ∧
      ((t.region r.val).used = (s.region r.val).used +
      (if (s.region r.val).power = 4 then (s.region r.val).event 15 tclk else ((s.region r.val).event 15 tclk).event 14 aclk).eventEnergy) ∧
      ((s.region r.val).noSlot = false → (t.region r.val).balance = (s.region r.val).balance -
      ((if (s.region r.val).power = 4 then (s.region r.val).event 15 tclk else ((s.region r.val).event 15 tclk).event 14 aclk).eventEnergy : Int)) ∧
      ((s.region r.val).noSlot = true → (t.region r.val).balance = (s.region r.val).balance) ∧
      (t.region r.val).ev = [] ∧
      ((t.region r.val).rd ALM_STATUS_HOLD = 1 ↔ ((s.region r.val).noSlot = false ∧ (t.region r.val).balance < (((s.region r.val).reserve * 1000000000 : Nat) : Int))) ∧
      (∀ k, k ≠ r.val → t.region k = s.region k) ∧
      (∀ k, k < 8960 → regionOf k ≠ r.val → t.cluster k = s.cluster k) ∧
      t.dome = s.dome ∧ t.ports = s.ports ∧ t.hostMem = s.hostMem) ∧
  (∀ (s : State) (r : RegionId) (ns : Nat), (s.region r.val).rd DRV_STATUS_STATE = 3 → (s.region r.val).startDue = false → 
      ∃ t, exec (.relockLock r ns) s = .next t ∧
      ((t.region r.val).rd DRV_STATUS_STATE = (if (s.region r.val).rd (drvReady ((s.region r.val).rd DRV_SRC_SEL)) = 1 then 2 else 4)) ∧
      (t.region r.val).rd DRV_STATUS_RELOCK_NS = ns % 2 ^ 16 ∧
      ((t.region r.val).used = (s.region r.val).used + (s.region r.val).eventEnergy +
      (if (s.region r.val).power = 4 then 0 else ceilDiv (ns * (s.region r.val).root * 25) 1000 * (s.region r.val).coef 14)) ∧
      (∀ k, k ≠ r.val → t.region k = s.region k))

/-- A breaker that trips, FORCE_DARK, the dark threshold and a failed ramp open the rails and what R89 opens with them. (from 03_almanac_power_heat.md
(R88, R89, R90, R92, R96, R98), 14_faults_and_collimation.md (R355, R366)) -/
def Obligations.BreakersOpen : Prop :=
  (∀ (s : State) (r : RegionId) (rail : Fin 6) (a : Nat), railTrip rail.val < a → (s.region r.val).power ≠ 0 → ((s.region r.val).rd PWR_BRK_TRIP).testBit rail.val = false → ((s.region r.val).rd PWR_BRK_TRIP ||| cascade (2 ^ rail.val)) ≠ (s.region r.val).rd PWR_BRK_TRIP → 
      ∃ t, exec (.breakerTrip r rail a) s = .next t ∧
      (t.region r.val).rd PWR_BRK_TRIP = (s.region r.val).rd PWR_BRK_TRIP ||| cascade (2 ^ rail.val) ∧
      ((t.region r.val).rd PWR_BRK_CAUSE = (if (s.region r.val).rd PWR_BRK_TRIP = 0 then 1 else (s.region r.val).rd PWR_BRK_CAUSE)) ∧
      ((t.region r.val).power = (if rail.val = 1 ∨ rail.val = 5 ∨ (s.region r.val).power = 6 then 6 else if (s.region r.val).power = 1 then 1 else 5)) ∧
      (t.region r.val).rd DRV_STATUS_STATE = 0 ∧
      (t.region r.val).sched_ = 6 ∧
      Pends t 4 ∧
      (t.dome.logPend.getLast?).map (fun (w : List W32) => (w.getD 3 0).toNat % 2 ^ 15) = some (15 + 256 * r.val) ∧
      (∀ k, k ≠ r.val → t.region k = s.region k) ∧
      (∀ k, k < 8960 → regionOf k ≠ r.val → t.cluster k = s.cluster k)) ∧
  (∀ (s : State) (r : RegionId) (rail : Fin 6) (a : Nat), a ≤ railTrip rail.val → (s.region r.val).power ≠ 0 → ((s.region r.val).rd PWR_BRK_TRIP).testBit rail.val = false → 
      ∃ t, exec (.breakerTrip r rail a) s = .next t ∧
      (t.region r.val).rd (railCur.getD rail.val PWR_VA_CUR) = a % 2 ^ (railCur.getD rail.val PWR_VA_CUR).width ∧
      OnlyRegion s t r.val ∧
      RegionRegs (s.region r.val) (t.region r.val) [(railCur.getD rail.val PWR_VA_CUR).off]) ∧
  (∀ (s : State) (r : RegionId), s.pageOpen r.val = true → (s.region r.val).power ≠ 0 → (s.region r.val).rd PWR_BRK_TRIP ≠ 63 → 
      ∃ t, exec (.forceDark r) s = .next t ∧
      (t.region r.val).rd PWR_BRK_TRIP = 63 ∧
      ((s.region r.val).rd PWR_BRK_TRIP = 0 → (t.region r.val).rd PWR_BRK_CAUSE = 4) ∧
      (t.region r.val).power = 6 ∧
      (t.region r.val).rd DRV_STATUS_STATE = 0 ∧
      (t.region r.val).rd TRC_STATUS_STATE = 0 ∧
      (t.dome.logPend.getLast?).map (fun (w : List W32) => (w.getD 3 0).toNat % 2 ^ 15) = some (16 + 256 * r.val) ∧
      (∀ k, k < 8960 → regionOf k = r.val → t.cluster k = Cluster.reset) ∧
      (∀ k, k ≠ r.val → t.region k = s.region k) ∧
      (∀ k, k < 8960 → regionOf k ≠ r.val → t.cluster k = s.cluster k)) ∧
  (∀ (s : State) (r : RegionId), (s.region r.val).power ≠ 0 → (s.region r.val).rd PWR_BRK_TRIP ≠ 63 → 
      ∃ t, exec (.darkThreshold r) s = .next t ∧
      (t.region r.val).rd PWR_BRK_TRIP = 63 ∧
      ((s.region r.val).rd PWR_BRK_TRIP = 0 → (t.region r.val).rd PWR_BRK_CAUSE = 2) ∧
      (t.region r.val).power = 6 ∧
      (t.region r.val).rd DRV_STATUS_STATE = 0 ∧
      (t.dome.logPend.getLast?).map (fun (w : List W32) => (w.getD 3 0).toNat % 2 ^ 15) = some (16 + 256 * r.val) ∧
      (∀ k, k ≠ r.val → t.region k = s.region k)) ∧
  (∀ (s : State) (r : RegionId), (s.region r.val).power = 1 → (s.region r.val).rd PWR_BRK_TRIP ≠ 63 → 
      ∃ t, exec (.rampFail r) s = .next t ∧
      (t.region r.val).rd PWR_BRK_TRIP = 63 ∧
      ((s.region r.val).rd PWR_BRK_TRIP = 0 → (t.region r.val).rd PWR_BRK_CAUSE = 6) ∧
      (t.region r.val).power = 6 ∧
      (t.dome.logPend.getLast?).map (fun (w : List W32) => (w.getD 3 0).toNat % 2 ^ 15) = some (16 + 256 * r.val) ∧
      (∀ k, k ≠ r.val → t.region k = s.region k))

/-- A ramp ends ACTIVE, a park gates the clocks, a power wave starts sixteen regions, and sensors halve TCLK or park. (from 03_almanac_power_heat.md (R91,
R92, R93, R96), 02_clock_drives_and_tick.md (R53, R54, R55), 16_start_catalogue_trust.md (R409)) The model's choices, no rule's: that the events
waiting are debited as the region parks, and that HOT is the lowest index where sensors share the hottest reading (assumption log entry 21). -/
def Obligations.RampParkAndHeat : Prop :=
  (∀ (s : State) (r : RegionId), (s.region r.val).power = 1 → (s.region r.val).rd PWR_BRK_TRIP = 0 → 
      ∃ t, exec (.rampDone r) s = .next t ∧
      ((s.region r.val).rd PWR_STATUS_PARK_CAUSE = 0 → (t.region r.val).power = 2) ∧
      ((s.region r.val).rd PWR_STATUS_PARK_CAUSE ≠ 0 → (s.region r.val).sched_ ≠ 3 → (s.region r.val).rd DRV_STATUS_STATE ≠ 3 → (t.region r.val).power = 3) ∧
      (t.region r.val).rd PWR_STATUS_RAIL_OK = 63 ∧
      (t.region r.val).rd PWR_VA_MV = (800 + 5 * (s.region r.val).rd DRV_ACTIVE_VCODE) % 2 ^ PWR_VA_MV.width ∧
      (t.region r.val).rd PWR_VT_MV = 850 ∧
      (t.region r.val).rd PWR_VS_MV = 900 ∧
      ((t.region r.val).rd DRV_STATUS_STATE = (if (s.region r.val).rd DRV_STATUS_STATE = 0 then 1 else (s.region r.val).rd DRV_STATUS_STATE)) ∧
      ((t.region r.val).rd TRC_STATUS_STATE = (if (s.region r.val).rd TRC_STATUS_STATE = 0 then 1 else (s.region r.val).rd TRC_STATUS_STATE)) ∧
      OnlyRegion s t r.val) ∧
  (∀ (s : State) (r : RegionId), (s.region r.val).power = 3 → 
      ∃ t, exec (.parkDrainTimeout r) s = .next t ∧
      (t.region r.val).power = 4 ∧
      (t.region r.val).rd PWR_STATUS_UNDRAINED = 1 ∧
      (t.region r.val).rd PWR_VS_MV = 700 ∧
      (t.region r.val).computing = false ∧
      OnlyRegion s t r.val ∧
      ((∀ o, o ∉ [PWR_STATUS_STATE.off, PWR_VS_MV.off] → Regs.word pageTable (t.region r.val).regs o = Regs.word pageTable (s.region r.val).regs o) ∧
      { t.region r.val with regs := (s.region r.val).regs, parkedTick := (s.region r.val).parkedTick, used := (s.region r.val).used, balance := (s.region r.val).balance, ev := (s.region r.val).ev } = s.region r.val ∧
      (t.region r.val).used = (s.region r.val).used + (s.region r.val).eventEnergy)) ∧
  (∀ (s : State), s.dome.starting = true → s.dome.waves < 7 → s.dome_ CAT_STATUS_STEP = 3 → 
      ∃ t, exec (.powerWave) s = .next t ∧
      t.dome.waves = s.dome.waves + 1 ∧
      (∀ k, 16 * s.dome.waves ≤ k → k < 16 * s.dome.waves + 16 → (s.region k).power = 0 → (t.region k).power = 1) ∧
      (∀ k, k < 16 * s.dome.waves ∨ 16 * s.dome.waves + 16 ≤ k ∨ (s.region k).power ≠ 0 → t.region k = s.region k) ∧
      { t with regions := s.regions, dome := { t.dome with waves := s.dome.waves } } = s) ∧
  (∀ (s : State) (r : RegionId) (l : List Nat), s.alive r.val = true → 
      ∃ t, exec (.sensorConversion r l) s = .next t ∧
      (t.region r.val).rd THM_MAX_TEMP = (((List.range 18).filter (hasSensor r.val)).map (fun k => l.getD k 0 % 2048)).foldl max 0 ∧
      hasSensor r.val ((t.region r.val).rd THM_STATUS_HOT) = true ∧
      l.getD ((t.region r.val).rd THM_STATUS_HOT) 0 % 2048 = (t.region r.val).rd THM_MAX_TEMP ∧
      (∀ k, k < (t.region r.val).rd THM_STATUS_HOT → l.getD k 0 % 2048 < (t.region r.val).rd THM_MAX_TEMP) ∧
      ((∀ k, k ≠ r.val → t.region k = s.region k) ∧ { t with regions := s.regions, host := s.host } = s)) ∧
  (∀ (s : State) (r : RegionId) (l : List Nat) (k : Fin 2), s.alive r.val = true → hasSensor r.val (16 + k.val) = true → 380 ≤ l.getD (16 + k.val) 0 % 2048 → 
      ∃ t, exec (.sensorConversion r l) s = .next t ∧
      (t.region r.val).rd THM_STATUS_EMERG = 1 ∧
      (t.region r.val).rd TRC_CTRL_HALF_THM = 1 ∧
      (t.region r.val).rd TRC_CTRL_HALF = 1 ∧
      ((∀ k, k ≠ r.val → t.region k = s.region k) ∧ { t with regions := s.regions, host := s.host } = s)) ∧
  (∀ (s : State) (r : RegionId) (l : List Nat) (k : Fin 16), s.alive r.val = true → 440 ≤ l.getD k.val 0 % 2048 → 
      ∃ t, exec (.sensorConversion r l) s = .next t ∧
      (t.region r.val).rd THM_STATUS_EMERG = 1 ∧
      (t.region r.val).rd TRC_CTRL_HALF_THM = 1 ∧
      (t.region r.val).rd TRC_CTRL_HALF = 1 ∧
      ((∀ k, k ≠ r.val → t.region k = s.region k) ∧ { t with regions := s.regions, host := s.host } = s)) ∧
  (∀ (s : State) (r : RegionId) (l : List Nat) (k : Fin 16), s.alive r.val = true → (s.region r.val).rd PWR_STATUS_PARK_CAUSE = 0 → 4 * (s.region r.val).rd THM_CTRL_PARK ≤ l.getD k.val 0 % 2048 → 
      ∃ t, exec (.sensorConversion r l) s = .next t ∧
      (t.region r.val).rd THM_STATUS_PARK = 1 ∧
      (t.region r.val).rd PWR_STATUS_PARK_CAUSE = 1 ∧
      Pends t 3 ∧
      ((s.region r.val).power = 2 → (s.region r.val).rd DRV_STATUS_STATE ≠ 3 → (s.region r.val).sched_ ≠ 3 → (t.region r.val).power = 3) ∧
      ((∀ k, k ≠ r.val → t.region k = s.region k) ∧ { t with regions := s.regions, host := s.host } = s))

/-- Input loss and the reset contact open every breaker; input power and the rising contact begin the start sequence. (from 03_almanac_power_heat.md
(R90), 18_connectors_and_ratings.md (R446, R448), 16_start_catalogue_trust.md (R406, R409), 15_host_bridge.md (R374)) The model's choice, no rule's:
what RESET_N leaves of the records not yet written and of the bridge (assumption log entry 23). -/
def Obligations.InputPowerAndReset : Prop :=
  (∀ (s : State), 
      ∃ t, exec (.inputLoss) s = .next t ∧
      t.dome.input = false ∧
      (t.hif HIF_STATUS_READY = 0) ∧
      (∀ r, r < 112 → (s.region r).power ≠ 0 → (s.region r).rd PWR_BRK_TRIP ≠ 63 → (t.region r).power = 6 ∧ (t.region r).rd PWR_BRK_TRIP = 63) ∧
      t.dome.ctr = s.dome.ctr ∧ t.dome.nor0 = s.dome.nor0 ∧ t.dome.nor1 = s.dome.nor1 ∧ t.hostMem = s.hostMem) ∧
  (∀ (s : State), s.dome.input = true → 
      ∃ t, exec (.inputOvervoltage) s = .next t ∧
      t.dome.inputOff = true ∧
      (t.hif HIF_STATUS_READY = 0) ∧
      (∀ r, r < 112 → (s.region r).power ≠ 0 → (s.region r).rd PWR_BRK_TRIP ≠ 63 → (t.region r).power = 6 ∧ (t.region r).rd PWR_BRK_TRIP = 63) ∧
      t.dome.ctr = s.dome.ctr ∧ t.dome.nor0 = s.dome.nor0 ∧ t.dome.nor1 = s.dome.nor1 ∧ t.hostMem = s.hostMem) ∧
  (∀ (s : State), (s.dome.input = false ∨ s.dome.inputOff = true) → s.dome.resetLow = false → 
      ∃ t, exec (.inputRise) s = .next t ∧
      t.dome.starting = true ∧ t.dome.watchdog = true ∧ t.dome.input = true ∧ t.dome.inputOff = false ∧
      t.dome_ CAT_STATUS_STEP = 1 ∧
      (t.hif HIF_STATUS_READY = 0) ∧
      t.regions = [] ∧ t.clusters = [] ∧ t.ports = [] ∧
      t.dome.ctr = s.dome.ctr ∧ t.dome.nor0 = s.dome.nor0 ∧ t.dome.nor1 = s.dome.nor1 ∧ t.hostMem = s.hostMem ∧
      t.dome.slotA = s.dome.bootRecord.slotA ∧ t.dome.slotB = s.dome.bootRecord.slotB) ∧
  (∀ (s : State), s.dome.inputOff = true → s.dome.resetLow = false → 
      ∃ t, exec (.inputReconnect) s = .next t ∧
      t.dome.starting = true ∧ t.dome.watchdog = true ∧ t.dome.input = true ∧ t.dome.inputOff = false ∧
      t.dome_ CAT_STATUS_STEP = 1 ∧
      (t.hif HIF_STATUS_READY = 0) ∧
      t.dome.slotA = s.dome.bootRecord.slotA ∧ t.dome.slotB = s.dome.bootRecord.slotB ∧
      t.regions = [] ∧ t.clusters = [] ∧ t.ports = [] ∧
      t.dome.ctr = s.dome.ctr ∧ t.dome.nor0 = s.dome.nor0 ∧ t.dome.nor1 = s.dome.nor1) ∧
  (∀ (s : State), (s.dome.input = false ∨ s.dome.inputOff = true) → s.dome.resetLow = true → 
      ∃ t, exec (.inputRise) s = .next t ∧
      t.dome.input = true ∧ t.dome.inputOff = false ∧ t.dome.starting = s.dome.starting ∧ t.dome.resetLow = true) ∧
  (∀ (s : State), s.dome.inputOff = true → s.dome.resetLow = true → 
      ∃ t, exec (.inputReconnect) s = .next t ∧
      t.dome.input = true ∧ t.dome.inputOff = false ∧ t.dome.starting = s.dome.starting ∧ t.dome.resetLow = true) ∧
  (∀ (s : State), s.dome.resetLow = false → 
      ∃ t, exec (.resetN true) s = .next t ∧
      t.dome.resetLow = true ∧ t.dome.starting = false ∧
      (t.dome.logPend.map (fun (w : List W32) => (w.getD 3 0).toNat % 2 ^ 15) =
      (if ∃ r : RegionId, (s.region r.val).power ≠ 0 ∧ (s.region r.val).rd PWR_BRK_TRIP ≠ 63 then [16 + 256 * 127] else [])) ∧
      (t.hif HIF_STATUS_READY = 0) ∧
      (∀ r, r < 112 → (s.region r).power ≠ 0 → (s.region r).rd PWR_BRK_TRIP ≠ 63 → (t.region r).power = 6 ∧ (t.region r).rd PWR_BRK_TRIP = 63) ∧
      t.dome.ctr = s.dome.ctr ∧ t.dome.nor0 = s.dome.nor0 ∧ t.dome.nor1 = s.dome.nor1 ∧ t.hostMem = s.hostMem) ∧
  (∀ (s : State), s.dome.resetLow = true → s.dome.input = true → s.dome.inputOff = false → 
      ∃ t, exec (.resetN false) s = .next t ∧
      t.dome.resetLow = false ∧ t.dome.starting = true ∧ t.dome.watchdog = true ∧
      t.dome_ CAT_STATUS_STEP = 1 ∧
      t.regions = [] ∧ t.clusters = [] ∧ t.ports = [] ∧
      t.dome.ctr = s.dome.ctr ∧ t.dome.nor0 = s.dome.nor0 ∧ t.dome.nor1 = s.dome.nor1)

/-- Tokens enter a ring, ride it and leave it in the consumer's queue, and credits come back to their binding. (from 04_cluster_anatomy.md (R102, R105,
R106, R107, R108)) The model's choices, no rule's: which slot a stop takes, which token has reserved one, the order in which tokens leave, and that
the hops are debited at insertion (assumption log entry 11). -/
def Obligations.RingTokensMove : Prop :=
  (∀ (s : State) (c : ClusterId) (stop : Fin 37) (out : Fin 2) (k : RingTok) (rest : List RingTok) (j : Nat), s.runs c.val = true → (s.cluster c.val).waiting stop.val out.val = k :: rest → k.dst ≠ stop.val → (s.cluster c.val).slotFor k.ring stop.val = some j → 
      ∃ t, exec (.ringInsert c stop out) s = .next t ∧
      (t.cluster c.val).ringToks = (s.cluster c.val).ringToks ++ [{ k with slot := j }] ∧
      (t.cluster c.val).waiting stop.val out.val = rest ∧
      (t.cluster c.val).ringResv = (s.cluster c.val).ringResv.erase (k.ring, stop.val, j) ∧
      (t.region (regionOf c.val)).waits 8 = (s.region (regionOf c.val)).waits 8 + ringHops stop.val k.dst ∧
      OnlyClusterEvents s t c.val) ∧
  (∀ (s : State) (c : ClusterId) (e : Fin 32) (out : Fin 2) (k : RingTok) (rest : List RingTok), s.runs c.val = true → (s.cluster c.val).waiting e.val out.val = k :: rest → k.dst = e.val → ((s.cluster c.val).elem e.val).faultedQueue k.queue = false → 
      ∃ t, exec (.ringInsert c ⟨e.val, by omega⟩ out) s = .next t ∧
      ((t.cluster c.val).elem e.val).queue k.queue = ((s.cluster c.val).elem e.val).queue k.queue ++ [k.tok] ∧
      (t.cluster c.val).waiting e.val out.val = rest ∧
      (t.cluster c.val).ringToks = (s.cluster c.val).ringToks ∧
      OnlyClusterRegion s t c.val (regionOf c.val)) ∧
  (∀ (s : State) (c : ClusterId) (stop : Fin 37) (out : Fin 2) (k : RingTok) (rest : List RingTok) (j : Nat), s.runs c.val = true → (s.cluster c.val).waiting stop.val out.val = k :: rest → k.dst ≠ stop.val → (s.cluster c.val).reserved k.ring stop.val = false → ((s.cluster c.val).slotsUsed k.ring).find? (fun x => !((s.cluster c.val).slotsResv k.ring).contains x) = some j → 
      ∃ t, exec (.ringReserve c stop out) s = .next t ∧
      (t.cluster c.val).ringResv = (s.cluster c.val).ringResv ++ [(k.ring, stop.val, j)] ∧
      OnlyCluster s t c.val ∧
      { t.cluster c.val with ringResv := (s.cluster c.val).ringResv } = s.cluster c.val) ∧
  (∀ (s : State) (c : ClusterId) (e : Fin 32) (ring : Fin 4) (k : RingTok) (rest : List RingTok) (good : Bool), s.runs c.val = true → takeFirst (fun u => u.ring == ring.val && u.dst == e.val && u.src != 33) (s.cluster c.val).ringToks = some (k, rest) → ((s.cluster c.val).elem e.val).faultedQueue k.queue = false → 
      ∃ t, exec (.ringEject c ⟨e.val, by omega⟩ ring good) s = .next t ∧
      (((t.cluster c.val).elem e.val).queue k.queue = ((s.cluster c.val).elem e.val).queue k.queue ++ [if good then k.tok else { k.tok with poison := true }]) ∧
      (t.cluster c.val).ringToks = rest ∧
      (good = false → k.tok.poison = false → ((t.cluster c.val).rd EL_RING_ERR_PERR).testBit ring.val = true ∧
      (t.dome.logPend.getLast?).map (fun (w : List W32) => (w.getD 3 0).toNat % 256) = some 3) ∧
      (good = true ∨ k.tok.poison = true → t.dome = s.dome ∧ t.host = s.host) ∧
      ((∀ j, j ≠ c.val → t.cluster j = s.cluster j) ∧ ∀ j, j ≠ regionOf c.val → t.region j = s.region j)) ∧
  (∀ (s : State) (c : ClusterId) (e : Fin 32) (ring : Fin 4) (k : RingCredit) (rest : List RingCredit), s.runs c.val = true → takeFirst (fun (u : RingCredit) => u.ring == ring.val && u.stop == e.val && u.slot.isSome) (s.cluster c.val).ringCreds = some (k, rest) → 
      ∃ t, exec (.creditReturn c ⟨e.val, by omega⟩ ring true) s = .next t ∧
      ((t.cluster c.val).elem e.val).rd (EL_OBIND_CREDITS.nth k.out) =
      min 16 (((s.cluster c.val).elem e.val).rd (EL_OBIND_CREDITS.nth k.out) + 1) ∧
      (t.cluster c.val).ringCreds = ({ s.cluster c.val with ringCreds := rest }.creditEnter ring.val).ringCreds ∧
      (∀ j, j ∈ List.range 32 → j ≠ e.val → (t.cluster c.val).elem j = (s.cluster c.val).elem j) ∧
      (∀ j, j ≠ c.val → t.cluster j = s.cluster j)) ∧
  (∀ (s : State) (c : ClusterId) (stop : Fin 37) (ring : Fin 4) (k : RingCredit) (rest : List RingCredit), s.runs c.val = true → takeFirst (fun (u : RingCredit) => u.ring == ring.val && u.stop == stop.val && u.slot.isSome) (s.cluster c.val).ringCreds = some (k, rest) → 
      ∃ t, exec (.creditReturn c stop ring false) s = .next t ∧
      (t.cluster c.val).ringCreds = ({ s.cluster c.val with ringCreds := rest }.creditEnter ring.val).ringCreds ∧
      ((t.cluster c.val).rd EL_RING_ERR_PERR).testBit ring.val = true ∧
      (t.cluster c.val).rd EL_RING_ERR_CPERR = 1 ∧
      ((t.cluster c.val).elems = (s.cluster c.val).elems ∧ ∀ j, j ≠ c.val → t.cluster j = s.cluster j))

/-- Command words assemble in a lane or are fetched as a list, and a complete command enters the queue with its checks. (from 05_matrix_unit.md (R126,
R127, R129, R131, R147)) The model's choice, no rule's: status 8 for a command with a poisoned lane word (assumption log entry 14). -/
def Obligations.MatrixCommandPorts : Prop :=
  (∀ (s : State) (c : ClusterId) (l : Fin 8) (k : Tok) (rest : List Tok), s.runs c.val = true → ((s.cluster c.val).mu.lane l.val).full = false → ((s.cluster c.val).mu.lane l.val).discard = false → ((s.cluster c.val).mu.lane l.val).toks = k :: rest → k.epoch = (s.region (regionOf c.val)).rd TCK_RSCHED_EPOCH → (((s.cluster c.val).mu.lane l.val).words.length = 0 ∨ k.epoch = ((s.cluster c.val).mu.lane l.val).epoch) → ((((s.cluster c.val).mu.lane l.val).words.length < 7 ∧ k.tag = .data) ∨ (((s.cluster c.val).mu.lane l.val).words.length = 7 ∧ k.tag = .last)) → 
      ∃ t, exec (.muLaneToken c l) s = .next t ∧
      ((t.cluster c.val).mu.lane l.val).words = ((s.cluster c.val).mu.lane l.val).words ++ [k.data] ∧
      ((t.cluster c.val).mu.lane l.val).toks = rest ∧
      ((t.cluster c.val).mu.lane l.val).full = decide (((s.cluster c.val).mu.lane l.val).words.length = 7) ∧
      ((t.cluster c.val).mu.lane l.val).bad = (((s.cluster c.val).mu.lane l.val).bad || k.poison) ∧
      OnlyCluster s t c.val ∧
      { t.cluster c.val with mu := { (t.cluster c.val).mu with lanes := (s.cluster c.val).mu.lanes } } = s.cluster c.val) ∧
  (∀ (s : State) (c : ClusterId) (l : Fin 8) (k : Tok) (rest : List Tok), s.runs c.val = true → ((s.cluster c.val).mu.lane l.val).full = false → ((s.cluster c.val).mu.lane l.val).discard = false → ((s.cluster c.val).mu.lane l.val).toks = k :: rest → k.epoch = (s.region (regionOf c.val)).rd TCK_RSCHED_EPOCH → ((s.cluster c.val).mu.lane l.val).words.length < 7 → k.tag ≠ .data → 
      ∃ t, exec (.muLaneToken c l) s = .next t ∧
      ((t.cluster c.val).mu.lane l.val).words = [] ∧
      ((t.cluster c.val).mu.lane l.val).discard = !(k.tag == .last) ∧
      (t.cluster c.val).rd MU_EVENT_MALFORMED = 1 ∧
      (t.cluster c.val).rd MU_CNT_MALFORM_CNT = ((s.cluster c.val).rd MU_CNT_MALFORM_CNT + 1) % 2 ^ 32 ∧
      OnlyCluster s t c.val) ∧
  (∀ (s : State) (c : ClusterId) (l : Fin 8) (k : Tok) (rest : List Tok), s.runs c.val = true → ((s.cluster c.val).mu.lane l.val).full = false → ((s.cluster c.val).mu.lane l.val).discard = false → ((s.cluster c.val).mu.lane l.val).toks = k :: rest → ((s.cluster c.val).mu.lane l.val).words ≠ [] → k.epoch ≠ ((s.cluster c.val).mu.lane l.val).epoch → 
      ∃ t, exec (.muLaneToken c l) s = .next t ∧
      ((t.cluster c.val).mu.lane l.val).words = [] ∧
      ((t.cluster c.val).mu.lane l.val).toks = rest ∧
      ((t.cluster c.val).mu.lane l.val).discard = !(k.tag == .last) ∧
      (t.cluster c.val).rd MU_EVENT_MALFORMED = 1 ∧
      (t.cluster c.val).rd MU_CNT_MALFORM_CNT = ((s.cluster c.val).rd MU_CNT_MALFORM_CNT + 1) % 2 ^ 32 ∧
      OnlyCluster s t c.val) ∧
  (∀ (s : State) (c : ClusterId), (s.cluster c.val).rd MU_LIST_CTRL_ACTIVE ≠ 1 → 
      ∃ t, exec (.muListRun c) s = .next t ∧
      (t.cluster c.val).rd MU_LIST_CTRL_ACTIVE = 1 ∧
      (t.cluster c.val).rd MU_LIST_CTRL_NEXT = (s.cluster c.val).rd MU_LIST_BASE_ROW ∧
      OnlyCluster s t c.val) ∧
  (∀ (s : State) (c : ClusterId) (u : List Nat), s.runs c.val = true → (s.cluster c.val).rd MU_LIST_CTRL_ACTIVE ≠ 0 → (s.cluster c.val).mu.list = [] → (s.region (regionOf c.val)).listPaused = false → (s.cluster c.val).rowsPoisoned (512 * (s.cluster c.val).rd MU_LIST_CTRL_NEXT) 512 = false → ((s.upset c.val u).cluster c.val).badBytes (512 * (s.cluster c.val).rd MU_LIST_CTRL_NEXT) 512 (fun _ => true) = [] → 
      ∃ t, exec (.muListFetch c u) s = .next t ∧
      (t.cluster c.val).mu.list = (List.range 8).map (fun e => (List.range 8).map (fun w =>
      BitVec.ofNat 64 (leNat (Mem.bytes (s.cluster c.val).mem (512 * (s.cluster c.val).rd MU_LIST_CTRL_NEXT + 64 * e + 8 * w) 8)))) ∧
      (t.cluster c.val).mem = (s.cluster c.val).mem ∧
      (t.region (regionOf c.val)).waits 3 = (s.region (regionOf c.val)).waits 3 + 1 ∧
      OnlyClusterEvents s t c.val) ∧
  (∀ (s : State) (c : ClusterId) (k : Nat), s.runs c.val = true → (s.cluster c.val).mu.queue.length < 16 → (s.cluster c.val).mu.nextSource (s.region (regionOf c.val)).listPaused 9 (s.cluster c.val).mu.rr = some k → k < 8 → 
      ∃ t, exec (.muCmdEnqueue c) s = .next t ∧
      (t.cluster c.val).mu.queue.dropLast = (s.cluster c.val).mu.queue ∧
      ((t.cluster c.val).mu.queue.getLast?).map (fun (m : MuCmd) => (m.words, m.epoch, m.src)) =
      some (((s.cluster c.val).mu.lane k).words, ((s.cluster c.val).mu.lane k).epoch, k) ∧
      (((t.cluster c.val).mu.queue.getLast?).map (fun (m : MuCmd) => m.status) =
      some (if ((s.cluster c.val).mu.lane k).bad then 8
      else MuCmd.check ⟨((s.cluster c.val).mu.lane k).words, ((s.cluster c.val).mu.lane k).epoch, k, 0, (s.cluster c.val).mu.serial⟩ (s.cluster c.val).mu.chain)) ∧
      ((t.cluster c.val).mu.lane k).words = [] ∧
      ((t.cluster c.val).mu.lane k).full = false ∧
      (t.cluster c.val).mu.rr = (k + 1) % 9 ∧
      OnlyCluster s t c.val) ∧
  (∀ (s : State) (c : ClusterId) (x : List W64) (rest : List (List W64)), s.runs c.val = true → (s.cluster c.val).mu.queue.length < 16 → (s.cluster c.val).mu.nextSource (s.region (regionOf c.val)).listPaused 9 (s.cluster c.val).mu.rr = some 8 → (s.cluster c.val).mu.list = x :: rest → (s.cluster c.val).rd MU_LIST_CTRL_ACTIVE = 1 → 
      ∃ t, exec (.muCmdEnqueue c) s = .next t ∧
      (t.cluster c.val).mu.queue.dropLast = (s.cluster c.val).mu.queue ∧
      ((t.cluster c.val).mu.queue.getLast?).map (fun (m : MuCmd) => (m.words, m.epoch, m.src, m.status)) =
      some (x, (s.region (regionOf c.val)).rd TCK_RSCHED_EPOCH, 8,
      MuCmd.check ⟨x, (s.region (regionOf c.val)).rd TCK_RSCHED_EPOCH, 8, 0, (s.cluster c.val).mu.serial⟩ (s.cluster c.val).mu.chain) ∧
      (bitOf (x.headD 0) 28 = false → (t.cluster c.val).mu.list = rest) ∧
      (bitOf (x.headD 0) 28 = true → (t.cluster c.val).mu.list = [] ∧ (t.cluster c.val).rd MU_LIST_CTRL_ACTIVE = 0) ∧
      (t.cluster c.val).mu.rr = 0 ∧
      OnlyCluster s t c.val) ∧
  (∀ (s : State) (c : ClusterId) (b : Fin 8) (v : W32), s.suppressed c.val = false → (s.region (regionOf c.val)).drainedState = true → 
      ∃ t, exec (.muCbindWrite c b v) s = .next t ∧
      (t.cluster c.val).rd (MU_CBIND_ELEM.nth b.val) = MU_CBIND_ELEM.of v ∧
      (t.cluster c.val).rd (MU_CBIND_QUEUE.nth b.val) = MU_CBIND_QUEUE.of v ∧
      (t.cluster c.val).rd (MU_CBIND_VALID.nth b.val) = MU_CBIND_VALID.of v ∧
      (t.cluster c.val).rd (MU_CBIND_CREDITS.nth b.val) = 16 ∧
      OnlyCluster s t c.val ∧
      ClusterRegs (s.cluster c.val) (t.cluster c.val) [(MU_CBIND_ELEM.nth b.val).off]) ∧
  (∀ (s : State) (c : ClusterId) (b : Fin 8) (v : W32), s.suppressed c.val = false → (s.region (regionOf c.val)).drainedState = false → 
      ∃ t, exec (.muCbindWrite c b v) s = .next t ∧
      (t.cluster c.val).rd MU_EVENT_CFG_ERR = 1 ∧
      OnlyCluster s t c.val ∧
      ClusterRegs (s.cluster c.val) (t.cluster c.val) [MU_EVENT_CFG_ERR.off]) ∧
  (∀ (s : State) (c : ClusterId) (b : Fin 8) (v : W32), s.suppressed c.val = true → 
      ∃ t, exec (.muCbindWrite c b v) s = .next t ∧
      t = s)

/-- A NOP, a failed command and a finished command leave the matrix unit with their status and their completion. (from 05_matrix_unit.md (R129, R131,
R136, R145, R457)) The model's choice, no rule's: that a completion entry must be free before a command is taken (assumption log entry 14). -/
def Obligations.MatrixCommandsRetire : Prop :=
  (∀ (s : State) (c : ClusterId) (m : MuCmd) (rest : List MuCmd), (s.cluster c.val).mu.queue = m :: rest → s.runs c.val = true → m.status = 0 → m.opc = 0 → (s.cluster c.val).mu.cqFree = true → (m.fence = false ∨ (s.cluster c.val).mu.written = true) → 
      ∃ t, exec (.muNop c) s = .next t ∧
      (t.cluster c.val).mu.queue = rest ∧
      (t.cluster c.val).tally MU_CNT_CMDS_CNT = ((s.cluster c.val).tally MU_CNT_CMDS_CNT + 1) % 2 ^ 32 ∧
      (m.cen = true → m.epoch = (s.region (regionOf c.val)).rd TCK_RSCHED_EPOCH → (s.cluster c.val).rd (MU_CBIND_VALID.nth m.cbind) ≠ 0 →
      (t.cluster c.val).mu.cq = (s.cluster c.val).mu.cq ++ [⟨m.tag, 0, false, m.inSpilled, 0, m.cbind, m.epoch, m.seq⟩]) ∧
      (m.cen = false → (t.cluster c.val).mu.cq = (s.cluster c.val).mu.cq) ∧
      (t.region (regionOf c.val)).seen 23 = (s.region (regionOf c.val)).seen 23 + 1 ∧
      OnlyClusterEvents s t c.val) ∧
  (∀ (s : State) (c : ClusterId) (m : MuCmd) (rest : List MuCmd), (s.cluster c.val).mu.queue = m :: rest → s.runs c.val = true → m.status ≠ 0 → (s.cluster c.val).mu.cqFree = true → 
      ∃ t, exec (.muFailedRetire c) s = .next t ∧
      (t.cluster c.val).mu.queue = rest ∧
      (t.cluster c.val).rd MU_STATUS_LAST_ERR = m.status % 16 ∧
      (t.cluster c.val).rd MU_ERR_TAG_TAG = m.tag ∧
      (t.cluster c.val).rd MU_ERR_TAG_SRC = m.src % 16 ∧
      (m.status = 8 → (t.cluster c.val).rd MU_EVENT_POISON = 1) ∧
      (m.status ≠ 8 → (t.cluster c.val).rd MU_EVENT_CMD_ERR = 1) ∧
      (m.cen = false ∨ m.epoch ≠ (s.region (regionOf c.val)).rd TCK_RSCHED_EPOCH ∨ (s.cluster c.val).rd (MU_CBIND_VALID.nth m.cbind) ≠ 0 →
      (t.cluster c.val).tally MU_CNT_REJ_CNT = ((s.cluster c.val).tally MU_CNT_REJ_CNT + 1) % 2 ^ 32) ∧
      (m.cen = true → m.epoch = (s.region (regionOf c.val)).rd TCK_RSCHED_EPOCH → (s.cluster c.val).rd (MU_CBIND_VALID.nth m.cbind) ≠ 0 →
      (t.cluster c.val).mu.cq = (s.cluster c.val).mu.cq ++ [⟨m.tag, m.status, false, m.inSpilled, 0, m.cbind, m.epoch, m.seq⟩]) ∧
      (t.cluster c.val).mem = (s.cluster c.val).mem ∧
      OnlyCluster s t c.val) ∧
  (∀ (s : State) (c : ClusterId) (m : MuCmd) (rest : List MuCmd), (s.cluster c.val).mu.queue = m :: rest → s.runs c.val = true → m.status = 0 → m.opc = 1 → (m.chain = 2 ∨ m.chain = 3) → ((s.cluster c.val).mu.folding.map (fun (g : OpenChain) => g.failed)) = some true → (s.cluster c.val).mu.cqFree = true → 
      ∃ t, exec (.muFailedRetire c) s = .next t ∧
      (t.cluster c.val).mu.queue = rest ∧
      (t.cluster c.val).rd MU_STATUS_LAST_ERR = 6 ∧
      (t.cluster c.val).rd MU_EVENT_CMD_ERR = 1 ∧
      (t.cluster c.val).rd MU_ERR_TAG_TAG = m.tag ∧
      (t.cluster c.val).mem = (s.cluster c.val).mem ∧
      OnlyCluster s t c.val) ∧
  (∀ (s : State) (c : ClusterId) (r : MuRun) (rest : List MuRun), takeFirst MuRun.done (s.cluster c.val).mu.runs = some (r, rest) → s.runs c.val = true → r.stale = false → (s.cluster c.val).mu.cq.length < 16 → 
      ∃ t, exec (.muCmdComplete c) s = .next t ∧
      (t.cluster c.val).mu.runs = rest ∧
      (r.status = 0 → (t.cluster c.val).tally MU_CNT_CMDS_CNT = ((s.cluster c.val).tally MU_CNT_CMDS_CNT + 1) % 2 ^ 32) ∧
      (r.cmd.cen = false → (t.cluster c.val).mu.cq = (s.cluster c.val).mu.cq) ∧
      ((t.region (regionOf c.val)).seen 23 = (s.region (regionOf c.val)).seen 23 + (if r.status = 0 then 1 else 0)) ∧
      (r.cmd.cen = true → r.cmd.epoch = (s.region (regionOf c.val)).rd TCK_RSCHED_EPOCH → (s.cluster c.val).rd (MU_CBIND_VALID.nth r.cmd.cbind) ≠ 0 →
      (t.cluster c.val).mu.cq.dropLast = (s.cluster c.val).mu.cq ∧
      ((t.cluster c.val).mu.cq.getLast?).map (fun (d : MuDone) => (d.tag, d.status, d.spilled, d.cbind, d.seq)) =
      some (r.cmd.tag, r.status, r.cmd.inSpilled, r.cmd.cbind, r.cmd.seq)) ∧
      (t.cluster c.val).mem = (s.cluster c.val).mem ∧
      (t.cluster c.val).mu.queue = (s.cluster c.val).mu.queue ∧
      OnlyClusterEvents s t c.val) ∧
  (∀ (s : State) (c : ClusterId) (r : MuRun) (rest : List MuRun), takeFirst MuRun.done (s.cluster c.val).mu.runs = some (r, rest) → s.runs c.val = true → r.stale = true → (s.cluster c.val).mu.cq.length < 16 → 
      ∃ t, exec (.muCmdComplete c) s = .next t ∧
      (t.cluster c.val).mu.runs = rest ∧
      OnlyCluster s t c.val ∧
      { t.cluster c.val with mu := { (t.cluster c.val).mu with runs := (s.cluster c.val).mu.runs } } = s.cluster c.val) ∧
  (∀ (s : State) (c : ClusterId) (b : Fin 8) (d : MuDone) (rest : List MuDone), s.runs c.val = true → (s.cluster c.val).rd (MU_CBIND_CREDITS.nth b.val) ≠ 0 → takeFirst (fun (q : MuDone) => q.cbind == b.val && q.seq ==
      ((s.cluster c.val).mu.cq.filter (fun q => q.cbind == b.val)).foldl (fun a q => min a q.seq) (s.cluster c.val).mu.serial) (s.cluster c.val).mu.cq = some (d, rest) → (s.cluster c.val).mu.runs.any (fun r => r.cmd.cbind == b.val && r.cmd.cen && decide (r.cmd.seq < d.seq)) = false → 
      ∃ t, exec (.muCompletionSend c b) s = .next t ∧
      (t.cluster c.val).mu.cq = rest ∧
      (t.cluster c.val).rd (MU_CBIND_CREDITS.nth b.val) = (s.cluster c.val).rd (MU_CBIND_CREDITS.nth b.val) - 1 ∧
      ((t.cluster c.val).waiting 32 0).map (fun u => u.tok.data) = ((s.cluster c.val).waiting 32 0).map (fun u => u.tok.data) ++ [d.payload] ∧
      ((t.cluster c.val).waiting 32 0).getLast?.map (fun u => (u.dst, u.queue)) =
      some ((s.cluster c.val).rd (MU_CBIND_ELEM.nth b.val), (s.cluster c.val).rd (MU_CBIND_QUEUE.nth b.val)) ∧
      OnlyCluster s t c.val)

/-- A MATMUL at the head starts and its n-blocks run as far as the epilogue buffer takes them; the epilogue takes the oldest tile pair. (from
05_matrix_unit.md (R123, R130, R132, R134, R136, R137, R144), 06_number_formats.md (R155), 10_plates_and_sparsity.md (R259)) The model's choice, no
rule's: that the n-blocks run as far as the epilogue buffer takes them, and that one MU_EPILOGUE takes one tile pair (assumption log entry 2). -/
def Obligations.MatrixMultiplyRuns : Prop :=
  (∀ (s : State) (c : ClusterId) (m : MuCmd) (rest : List MuCmd) (u : MuUpsets), (s.cluster c.val).mu.queue = m :: rest → s.muCanStart c.val m false = true → 
      ∃ t, exec (.matmul c u) s = .next t ∧
      (t.cluster c.val).mu.queue = rest ∧
      (t.cluster c.val).mu.runs.map (fun r => r.cmd) = (s.cluster c.val).mu.runs.map (fun r => r.cmd) ++ [m] ∧
      (t.cluster c.val).mem = (s.cluster c.val).mem ∧
      (u.storage = [] → u.mem = [] → 0 < m.blocks → m.aRaw = true → m.permute = false → m.resid = false → fmtMx m.fa = false → fmtMx m.fb = false →
      (s.cluster c.val).rowPoison = [] → (s.cluster c.val).memBad = [] → (s.cluster c.val).mu.badTiles = [] → (s.cluster c.val).mu.runs = [] →
      ((t.cluster c.val).mu.runs.getLast?).map (fun (r : MuRun) => (r.status, r.epi.length)) = some (0, if m.epi || m.spilled then m.tiles else 0)) ∧
      (u.storage = [] → u.mem = [] → 0 < m.blocks → m.aRaw = true → m.permute = false → m.resid = false → m.chain = 0 → fmtMx m.fa = false → fmtMx m.fb = false →
      (s.cluster c.val).rowPoison = [] → (s.cluster c.val).memBad = [] → (s.cluster c.val).mu.runs = [] →
      ∀ (p : Fin 32) (i : Fin 32) (j : Fin 16), p.val < m.tiles →
      ((t.cluster c.val).mu.runs.getLast?).map (fun (r : MuRun) => (r.epi.map (fun q => q.vals.getD (16 * i.val + j.val) 0)).getD p.val 0) =
      some (m.rawProduct (s.cluster c.val).mem (32 * p.val + i.val) j.val)) ∧
      (∀ j, j ≠ c.val → t.cluster j = s.cluster j)) ∧
  (∀ (s : State) (c : ClusterId) (m : MuCmd) (rest : List MuCmd) (u : MuUpsets), (s.cluster c.val).mu.queue = m :: rest → s.muCanStart c.val m true = true → 
      ∃ t, exec (.matmulSparse c u) s = .next t ∧
      (t.cluster c.val).mu.queue = rest ∧
      (t.cluster c.val).mu.runs.map (fun r => r.cmd) = (s.cluster c.val).mu.runs.map (fun r => r.cmd) ++ [m] ∧
      (t.cluster c.val).mem = (s.cluster c.val).mem ∧
      (u.storage = [] → u.mem = [] → 0 < m.blocks → m.aRaw = true → m.permute = false → m.resid = false → m.chain = 0 → fmtMx m.fa = false → fmtMx m.fb = false →
      (s.cluster c.val).rowPoison = [] → (s.cluster c.val).memBad = [] → (s.cluster c.val).mu.runs = [] →
      ∀ (p : Fin 32) (i : Fin 32) (j : Fin 16), p.val < m.tiles →
      ((t.cluster c.val).mu.runs.getLast?).map (fun (r : MuRun) => (r.epi.map (fun q => q.vals.getD (16 * i.val + j.val) 0)).getD p.val 0) =
      some (m.rawProduct (s.cluster c.val).mem (32 * p.val + i.val) j.val)) ∧
      (∀ j, j ≠ c.val → t.cluster j = s.cluster j)) ∧
  (∀ (s : State) (c : ClusterId) (r : MuRun) (q : TilePair) (rest : List TilePair), s.runs c.val = true → (s.cluster c.val).mu.runs.find? (fun r => !r.epi.isEmpty) = some r → r.epi = q :: rest → q.bad = false → r.cmd.scale = false → r.cmd.bias = false → r.cmd.resid = false → 
      ∃ t, exec (.muEpilogue ⟨c, ⟨[], []⟩, false⟩) s = .next t ∧
      (rest ≠ [] → ∀ w ∈ (t.cluster c.val).mu.runs, w.cmd.seq = r.cmd.seq → w.epi = rest) ∧
      (q.t + 1 ≠ r.cmd.tiles → (t.cluster c.val).mem = (s.cluster c.val).mem) ∧
      (t.cluster c.val).mu.runs.length = (s.cluster c.val).mu.runs.length ∧
      (t.cluster c.val).mu.queue = (s.cluster c.val).mu.queue ∧
      (∀ j, j ≠ c.val → t.cluster j = s.cluster j)) ∧
  (∀ (s : State) (c : ClusterId) (r : MuRun) (q : TilePair), s.runs c.val = true → (s.cluster c.val).mu.runs.find? (fun r => !r.epi.isEmpty) = some r → r.epi = [q] → q.t = 0 → q.bad = false → q.vals.length = 512 → q.n < r.cmd.blocks → r.cmd.m = 32 → r.cmd.chain = 0 → r.cmd.scale = false → r.cmd.bias = false → r.cmd.resid = false → r.cmd.sr = false → r.cmd.compress = false → r.strip = [] → r.perm = List.range 32 → (s.cluster c.val).mu.runs.filter (fun w => w.cmd.seq == r.cmd.seq) = [r] → s.muClash c.val r = false → 
      ∃ t, exec (.muEpilogue ⟨c, ⟨[], []⟩, false⟩) s = .next t ∧
      Mem.bytes (t.cluster c.val).mem (512 * (r.cmd.cRow + 1 + q.n * slotRows 32 r.cmd.fc)) (2 * blockBytes r.cmd.fc) =
      (List.range 2).flatMap (fun b => packEls r.cmd.fc ((sliceOf q.vals (256 * b) 256).map (fun v => (s.cluster c.val).stages r.cmd v 0x3F800000 0 none 0))) ∧
      (∀ a, a < 512 * r.cmd.cRow ∨ 512 * (r.cmd.cRow + plateExtent 32 r.cmd.n r.cmd.fc) ≤ a → Mem.byte (t.cluster c.val).mem a = Mem.byte (s.cluster c.val).mem a) ∧
      (∀ j, j ≠ c.val → t.cluster j = s.cluster j))

/-- Integer and bit operations of an element fire with the 32-bit result that R180 gives, on every enabled output. (from 07_dataflow_elements.md (R173,
R175, R176, R178, R180, R181)) -/
def Obligations.IntegerOperations : Prop :=
  Scalar Instr.iadd 0x01 (fun a b _ => a + b) ∧ Scalar Instr.isub 0x02 (fun a b _ => a - b) ∧ Scalar Instr.imul 0x03 (fun a b _ => a * b) ∧
  Scalar Instr.imulh 0x04 (fun a b _ => ((a.signExtend 64 * b.signExtend 64) >>> 32).setWidth 32) ∧
  Scalar Instr.iand 0x05 (fun a b _ => a &&& b) ∧ Scalar Instr.ior 0x06 (fun a b _ => a ||| b) ∧ Scalar Instr.ixor 0x07 (fun a b _ => a ^^^ b) ∧
  Scalar Instr.ishl 0x08 (fun a b _ => a <<< (b.toNat % 32)) ∧ Scalar Instr.ishr 0x09 (fun a b _ => a >>> (b.toNat % 32)) ∧
  Scalar Instr.isra 0x0A (fun a b _ => a.sshiftRight (b.toNat % 32)) ∧ Scalar Instr.imin 0x0B (fun a b _ => if b.slt a then b else a) ∧
  Scalar Instr.imax 0x0C (fun a b _ => if a.slt b then b else a) ∧ Scalar Instr.imad 0x0E (fun a b c => a * b + c) ∧
  Predicate Instr.icmp 0x0D (fun k a b => if k = 0 then a == b else if k = 1 then a != b else if k = 2 then a.slt b else if k = 3 then a.sle b
    else if k = 4 then b.slt a else b.sle a) ∧
  EmitsOne Instr.popc 0x25 6 (fun v => ⟨BitVec.ofNat 64 ((List.range 64).filter (fun j => (v.data 0).getLsbD j)).length, .data, v.epoch, false⟩) ∧
  EmitsOne Instr.passOp 0x00 6 (fun v => ⟨v.data 0, (match v.head 0 with | some k => k.tag | none => .data), v.epoch, false⟩)

/-- FP32 operations of an element fire with one rounding of the exact result, and the special functions with R182's value. (from 07_dataflow_elements.md
(R180, R181, R182), 06_number_formats.md (R166, R167)) The special functions' values are free values, since R182 bounds their error and gives no value
(assumption log entry 9): their clauses say that the result is the one value that the unit has for the operand. -/
def Obligations.FloatOperations : Prop :=
  Scalar Instr.fadd 0x10 (fun a b _ => toF32 (fsum [f32 a, f32 b])) ∧ Scalar Instr.fsub 0x11 (fun a b _ => toF32 (fsum [f32 a, (f32 b).neg])) ∧
  Scalar Instr.fmul 0x12 (fun a b _ => toF32 ((f32 a).mul (f32 b))) ∧ Scalar Instr.ffma 0x13 (fun a b c => toF32 (fsum [(f32 a).mul (f32 b), f32 c])) ∧
  Scalar Instr.fmin 0x14 (fun a b _ => toF32 (fminZ (f32 a) (f32 b))) ∧ Scalar Instr.fmax 0x15 (fun a b _ => toF32 (fmaxZ (f32 a) (f32 b))) ∧
  Predicate Instr.fcmp 0x16 (fun k a b => if (f32 a).isNan || (f32 b).isNan then k == 6 || k == 1 else if k = 6 then false else if k = 7 then true
    else condInt k (fcmp (f32 a) (f32 b))) ∧
  Scalar Instr.frcp 0x17 (fun a _ _ => specialFn 0 a) ∧ Scalar Instr.frsq 0x18 (fun a _ _ => specialFn 1 a) ∧
  Scalar Instr.fexp2 0x19 (fun a _ _ => specialFn 2 a) ∧ Scalar Instr.flog2 0x1A (fun a _ _ => specialFn 3 a) ∧
  (∀ (s : State) (c : ClusterId) (e : Fin 32) (x : Fin 8) (k : Tok), s.mayFire c.val e.val x.val 0x1B = true →
    (s.fireView c.val e.val x.val []).head 0 = some k → k.tag.isData = true → k.poison = false →
    ∃ t, exec (.accOp c e x) s = .next t ∧
      Fired s t c.val e.val x.val (((s.fireView c.val e.val x.val []).inQ 0).toList) [] []
        { ((s.cluster c.val).elem e.val).ctx x.val with
          accOpen := true
          acc := BitVec.ofNat 64 (packLanes 11 ([0, 1].map (fun j =>
            let a := laneAt 11 (((s.cluster c.val).elem e.val).ctx x.val).acc j; let b := laneAt 11 k.data j
            if (s.fireView c.val e.val x.val []).fmt = 12 then (a + b) % 2 ^ 32
            else (toF32 (fsum [f32 (BitVec.ofNat 32 a), f32 (BitVec.ofNat 32 b)])).toNat))) }
        ((s.cluster c.val).elem e.val).mem 7 []) ∧
  (∀ (s : State) (c : ClusterId) (e : Fin 32) (x : Fin 8) (k : Tok), s.mayFire c.val e.val x.val 0x1B = true →
    (s.fireView c.val e.val x.val []).head 0 = some k → k.tag = .last → k.poison = false →
    ∃ t, exec (.accOp c e x) s = .next t ∧
      Fired s t c.val e.val x.val (((s.fireView c.val e.val x.val []).inQ 0).toList)
        ((s.fireView c.val e.val x.val []).out 0 [⟨(((s.cluster c.val).elem e.val).ctx x.val).acc, .data, (s.fireView c.val e.val x.val []).epoch, false⟩])
        ((s.fireView c.val e.val x.val []).out 1 [⟨(((s.cluster c.val).elem e.val).ctx x.val).acc, .data, (s.fireView c.val e.val x.val []).epoch, false⟩])
        { ((s.cluster c.val).elem e.val).ctx x.val with accOpen := false, acc := 0 } ((s.cluster c.val).elem e.val).mem 7 [])

/-- Lane operations compute each lane exactly and round it once; CVT, VDOT, ZDET and CVTMX give R180's and R190's tokens. (from 07_dataflow_elements.md
(R180, R181, R183, R190), 06_number_formats.md (R152, R167)) -/
def Obligations.LaneOperations : Prop :=
  Lanes Instr.vadd 0x1C (fun a b _ => fsum [a, b]) ∧ Lanes Instr.vmul 0x1D (fun a b _ => a.mul b) ∧ Lanes Instr.vfma 0x1E (fun a b c => fsum [a.mul b, c]) ∧
  Lanes Instr.vmax 0x1F (fun a b _ => fmaxZ a b) ∧ Lanes Instr.vmin 0x20 (fun a b _ => fminZ a b) ∧
  EmitsOne Instr.vdot 0x21 7 (fun v => ⟨(toF32 (fsum ((List.range (lanesOf v.fmt)).map (fun j =>
    (decodeEl v.fmt (laneAt v.fmt (v.data 0) j)).mul (decodeEl v.fmt (v.laneB j))) ++
    (if v.bound 2 then [decodeEl 11 (v.opC.toNat)] else [])))).setWidth 64, .data, v.epoch, false⟩) ∧
  EmitsOne Instr.cvt 0x22 7 (fun v => ⟨BitVec.ofNat 64 (packLanes v.fmt2 ((List.range (lanesOf v.fmt2)).map (fun j =>
    if v.imm2 % 8 + j < lanesOf v.fmt then encodeEl .rne v.sat v.fmt2 (decodeEl v.fmt (laneAt v.fmt (v.data 0) (v.imm2 % 8 + j))) else 0))),
    .data, v.epoch, false⟩) ∧
  EmitsOne Instr.zdet 0x24 6 (fun v => ⟨BitVec.ofNat 64 ((List.range (lanesOf v.fmt)).foldl (fun m j =>
    if (decodeEl v.fmt (laneAt v.fmt (v.data 0) j)).isZero then m else m + 2 ^ j) 0), .data, v.epoch, false⟩) ∧
  (∀ (s : State) (c : ClusterId) (e : Fin 32) (x : Fin 8) (k : Tok), s.mayFire c.val e.val x.val 0x23 = true →
    (s.fireView c.val e.val x.val []).head 0 = some k → k.tag.isData = true → k.poison = false → ((s.cluster c.val).elem e.val).block.length < 30 →
    ∃ t, exec (.cvtmx c e x) s = .next t ∧
      Fired s t c.val e.val x.val (((s.fireView c.val e.val x.val []).inQ 0).toList) [] [] (((s.cluster c.val).elem e.val).ctx x.val)
        ((s.cluster c.val).elem e.val).mem 7 [] ∧
      ((t.cluster c.val).elem e.val).block = ((s.cluster c.val).elem e.val).block ++ [k.data.setWidth 32, (k.data >>> 32).setWidth 32]) ∧
  (∀ (s : State) (c : ClusterId) (e : Fin 32) (x : Fin 8) (k : Tok) (b : List W32), s.mayFire c.val e.val x.val 0x23 = true →
    (s.fireView c.val e.val x.val []).head 0 = some k → k.tag.isData = true → k.poison = false → ((s.cluster c.val).elem e.val).block = b → b.length = 30 →
    ∃ t, exec (.cvtmx c e x) s = .next t ∧
      Fired s t c.val e.val x.val (((s.fireView c.val e.val x.val []).inQ 0).toList)
        ((packCodes (fmtBits (s.fireView c.val e.val x.val []).fmt2)
          (toMx (s.fireView c.val e.val x.val []).fmt2 (b ++ [k.data.setWidth 32, (k.data >>> 32).setWidth 32])).2).map
          (fun w => ⟨BitVec.ofNat 64 w, .data, (s.fireView c.val e.val x.val []).epoch, false⟩))
        [⟨BitVec.ofNat 64 (toMx (s.fireView c.val e.val x.val []).fmt2 (b ++ [k.data.setWidth 32, (k.data >>> 32).setWidth 32])).1, .data,
          (s.fireView c.val e.val x.val []).epoch, false⟩]
        (((s.cluster c.val).elem e.val).ctx x.val) ((s.cluster c.val).elem e.val).mem 7 [] ∧ ((t.cluster c.val).elem e.val).block = [])

/-- LAST and MARK pass, a missed predicate consumes, mixed tags and poison fault: for every operation that R178 governs. (from 07_dataflow_elements.md
(R108, R178, R179, R192, R195)) -/
def Obligations.TagsDecideFirings : Prop :=
  (∀ p ∈ passers, TagsPass p.1 p.2.1 p.2.2) ∧
  (∀ p ∈ passers ++ [(Instr.send, 0x3E, 6)], PredicateMisses p.1 p.2.1 p.2.2 ∧ MixedTagsFault p.1 p.2.1 ∧ PoisonFaults p.1 p.2.1) ∧
  (∀ (s : State) (c : ClusterId) (e : Fin 32) (x : Fin 8) (tg : Tag), s.mayFire c.val e.val x.val 0x3E = true → tg = .last ∨ tg = .mark →
    (s.fireView c.val e.val x.val []).headsAre (fun a => a == tg) = true → (s.fireView c.val e.val x.val []).bound 0 = true →
    ∃ t, exec (.send c e x) s = .next t ∧
      Fired s t c.val e.val x.val (s.fireView c.val e.val x.val []).queues
        [⟨BitVec.ofNat 64 (((s.cluster c.val).elem e.val).sendHdr ((s.fireView c.val e.val x.val []).imm % 8)), .data, (s.fireView c.val e.val x.val []).epoch, false⟩,
         ⟨(s.fireView c.val e.val x.val []).data 0, tg, (s.fireView c.val e.val x.val []).epoch, false⟩] []
        (((s.cluster c.val).elem e.val).ctx x.val) ((s.cluster c.val).elem e.val).mem 6 []) ∧
  (∀ (s : State) (c : ClusterId) (e : Fin 32) (x : Fin 8) (d q : Tok), s.mayFire c.val e.val x.val 0x33 = true →
    (s.fireView c.val e.val x.val []).head 0 = some d → (s.fireView c.val e.val x.val []).head 1 = some q →
    (s.fireView c.val e.val x.val []).bound 3 = false → (s.fireView c.val e.val x.val []).inQ 0 ≠ (s.fireView c.val e.val x.val []).inQ 1 →
    d.poison = false → q.poison = false → d.tag = q.tag → d.tag = .last ∨ d.tag = .mark →
    ∃ t, exec (.filterOp c e x) s = .next t ∧
      Fired s t c.val e.val x.val (((s.fireView c.val e.val x.val []).inQ 0).toList ++ ((s.fireView c.val e.val x.val []).inQ 1).toList)
        ((s.fireView c.val e.val x.val []).out 0 [⟨d.data, d.tag, (s.fireView c.val e.val x.val []).epoch, false⟩])
        ((s.fireView c.val e.val x.val []).out 1 [⟨d.data, d.tag, (s.fireView c.val e.val x.val []).epoch, false⟩])
        (((s.cluster c.val).elem e.val).ctx x.val) ((s.cluster c.val).elem e.val).mem 6 []) ∧
  (∀ (s : State) (c : ClusterId) (e : Fin 32) (x : Fin 8) (d q : Tok), s.mayFire c.val e.val x.val 0x33 = true →
    (s.fireView c.val e.val x.val []).head 0 = some d → (s.fireView c.val e.val x.val []).head 1 = some q →
    (s.fireView c.val e.val x.val []).bound 3 = false →
    (d.tag.isData = true ∧ q.tag.isData = false) ∨ (d.tag.isData = false ∧ q.tag ≠ d.tag) →
    ∃ t, exec (.filterOp c e x) s = .next t ∧ ContextFaults s t c.val e.val x.val 0x33 1) ∧
  (∀ (s : State) (c : ClusterId) (e : Fin 32) (x : Fin 8) (d q : Tok), s.mayFire c.val e.val x.val 0x33 = true →
    (s.fireView c.val e.val x.val []).head 0 = some d → (s.fireView c.val e.val x.val []).head 1 = some q →
    (s.fireView c.val e.val x.val []).bound 3 = false → d.poison = true ∨ q.poison = true →
    (d.tag = .data ∧ q.tag = .pred) ∨ (d.tag = q.tag ∧ (d.tag = .last ∨ d.tag = .mark)) →
    ∃ t, exec (.filterOp c e x) s = .next t ∧ ContextFaults s t c.val e.val x.val 0x33 2)

/-- LD, ST and the request operations read, write and send what R188 to R193 say. (from 07_dataflow_elements.md (R188, R189, R191, R192, R193),
09_cluster_memory.md (R229, R239, R240)) -/
def Obligations.ElementMemoryAndRequests : Prop :=
  (∀ (s : State) (c : ClusterId) (e : Fin 32) (x : Fin 8) (u : List Nat), s.mayFire c.val e.val x.val 0x28 = true → (s.fireView c.val e.val x.val u).acts = true → (s.fireView c.val e.val x.val u).parityOk ((s.fireView c.val e.val x.val u).elAddr) 8 = true → 
      ∃ t, exec (.ld c e x u) s = .next t ∧
      ((t.cluster c.val).elem e.val).out0.drop ((s.cluster c.val).elem e.val).out0.length = (s.fireView c.val e.val x.val u).out 0
      [⟨BitVec.ofNat 64 (leNat (Mem.bytes ((s.cluster c.val).elem e.val).mem (((s.fireView c.val e.val x.val u).addr +
      8 * (s.fireView c.val e.val x.val u).opA.toNat) % 0x4000) 8)), .data, (s.fireView c.val e.val x.val u).epoch, false⟩] ∧
      ((t.cluster c.val).elem e.val).mem = ((s.cluster c.val).elem e.val).mem ∧
      Fired s t c.val e.val x.val (s.fireView c.val e.val x.val u).queues
      ((s.fireView c.val e.val x.val u).out 0 [⟨BitVec.ofNat 64 (leNat (Mem.bytes ((s.cluster c.val).elem e.val).mem (((s.fireView c.val e.val x.val u).addr +
      8 * (s.fireView c.val e.val x.val u).opA.toNat) % 0x4000) 8)), .data, (s.fireView c.val e.val x.val u).epoch, false⟩])
      ((s.fireView c.val e.val x.val u).out 1 [⟨BitVec.ofNat 64 (leNat (Mem.bytes ((s.cluster c.val).elem e.val).mem (((s.fireView c.val e.val x.val u).addr +
      8 * (s.fireView c.val e.val x.val u).opA.toNat) % 0x4000) 8)), .data, (s.fireView c.val e.val x.val u).epoch, false⟩])
      (((s.cluster c.val).elem e.val).ctx x.val) ((s.cluster c.val).elem e.val).mem 6 []) ∧
  (∀ (s : State) (c : ClusterId) (e : Fin 32) (x : Fin 8) (u : List Nat), s.mayFire c.val e.val x.val 0x28 = true → (s.fireView c.val e.val x.val u).acts = true → (s.fireView c.val e.val x.val u).parityOk ((s.fireView c.val e.val x.val u).elAddr) 8 = false → 
      ∃ t, exec (.ld c e x u) s = .next t ∧
      (((t.cluster c.val).elem e.val).ctx x.val).state = .fault ∧
      (((s.cluster c.val).elem e.val).rd EL_FAULT_CAUSE = 0 → ((t.cluster c.val).elem e.val).rd EL_FAULT_CAUSE = 2) ∧
      ((t.cluster c.val).elem e.val).out0 = ((s.cluster c.val).elem e.val).out0 ∧
      Logged s t 2 (regionOf c.val) ∧
      (s.enabled c.val = true → c.val ∈ t.dome.occPend) ∧
      (∀ j, j ≠ c.val → t.cluster j = s.cluster j)) ∧
  (∀ (s : State) (c : ClusterId) (e : Fin 32) (x : Fin 8), s.mayFire c.val e.val x.val 0x29 = true → (s.fireView c.val e.val x.val []).acts = true → 
      ∃ t, exec (.st c e x) s = .next t ∧
      Mem.bytes ((t.cluster c.val).elem e.val).mem (((s.fireView c.val e.val x.val []).addr + 8 * (s.fireView c.val e.val x.val []).opA.toNat) % 0x4000) 8 =
      leBytes 8 ((s.fireView c.val e.val x.val []).data 1).toNat ∧
      (∀ a, a < ((s.fireView c.val e.val x.val []).addr + 8 * (s.fireView c.val e.val x.val []).opA.toNat) % 0x4000 ∨
      ((s.fireView c.val e.val x.val []).addr + 8 * (s.fireView c.val e.val x.val []).opA.toNat) % 0x4000 + 8 ≤ a →
      Mem.byte ((t.cluster c.val).elem e.val).mem a = Mem.byte ((s.cluster c.val).elem e.val).mem a) ∧
      (Fired s t c.val e.val x.val (s.fireView c.val e.val x.val []).queues
      ((s.fireView c.val e.val x.val []).out 0 [⟨(s.fireView c.val e.val x.val []).data 0,
      (match (s.fireView c.val e.val x.val []).head 0 with | some k => k.tag | none => .data), (s.fireView c.val e.val x.val []).epoch, false⟩]) []
      (((s.cluster c.val).elem e.val).ctx x.val) ((t.cluster c.val).elem e.val).mem 6 [])) ∧
  (∀ (s : State) (c : ClusterId) (e : Fin 32) (x : Fin 8), s.mayFire c.val e.val x.val 0x2A = true → (s.fireView c.val e.val x.val []).acts = true → 
      ∃ t, exec (.nld c e x) s = .next t ∧
      Fired s t c.val e.val x.val (s.fireView c.val e.val x.val []).queues
      [⟨BitVec.ofNat 64 (((s.fireView c.val e.val x.val []).imm % 2 ^ 21 + 8 * (s.fireView c.val e.val x.val []).opA.toNat) % 2 ^ 21 / 8 * 8 +
      (s.fireView c.val e.val x.val []).imm2 % 256 * 2 ^ 21 + e.val * 2 ^ 32 + (s.fireView c.val e.val x.val []).imm / 2 ^ 29 * 2 ^ 37),
      .data, (s.fireView c.val e.val x.val []).epoch, false⟩] []
      (((s.cluster c.val).elem e.val).ctx x.val) ((s.cluster c.val).elem e.val).mem 6 [(EL_QCFG_OUTST.nth ((s.fireView c.val e.val x.val []).imm / 2 ^ 29)).off] ∧
      ((t.cluster c.val).elem e.val).rd (EL_QCFG_OUTST.nth ((s.fireView c.val e.val x.val []).imm / 2 ^ 29)) =
      (((s.cluster c.val).elem e.val).rd (EL_QCFG_OUTST.nth ((s.fireView c.val e.val x.val []).imm / 2 ^ 29)) + 1) % 32) ∧
  (∀ (s : State) (c : ClusterId) (e : Fin 32) (x : Fin 8), s.mayFire c.val e.val x.val 0x2B = true → (s.fireView c.val e.val x.val []).acts = true → 
      ∃ t, exec (.nst c e x) s = .next t ∧
      Fired s t c.val e.val x.val (s.fireView c.val e.val x.val []).queues
      [⟨BitVec.ofNat 64 (((s.fireView c.val e.val x.val []).imm % 2 ^ 21 + 8 * (s.fireView c.val e.val x.val []).opA.toNat) % 2 ^ 21 / 8 * 8 +
      (s.fireView c.val e.val x.val []).imm2 % 256 * 2 ^ 21 + 2 ^ 29 + e.val * 2 ^ 32), .data, (s.fireView c.val e.val x.val []).epoch, false⟩,
      ⟨(s.fireView c.val e.val x.val []).data 1, .data, (s.fireView c.val e.val x.val []).epoch, false⟩] []
      (((s.cluster c.val).elem e.val).ctx x.val) ((s.cluster c.val).elem e.val).mem 6 []) ∧
  (∀ (s : State) (c : ClusterId) (e : Fin 32) (x : Fin 8), s.mayFire c.val e.val x.val 0x2C = true → (s.fireView c.val e.val x.val []).acts = true → 
      ∃ t, exec (.nacc c e x) s = .next t ∧
      (Fired s t c.val e.val x.val (s.fireView c.val e.val x.val []).queues
      [⟨BitVec.ofNat 64 (((s.fireView c.val e.val x.val []).imm % 2 ^ 21 + 8 * (s.fireView c.val e.val x.val []).opA.toNat) % 2 ^ 21 / 8 * 8 +
      (s.fireView c.val e.val x.val []).imm2 % 256 * 2 ^ 21 +
      (if (s.fireView c.val e.val x.val []).fmt = 12 then 2 else if (s.fireView c.val e.val x.val []).fmt = 11 then 3 else 4) * 2 ^ 29 + e.val * 2 ^ 32),
      .data, (s.fireView c.val e.val x.val []).epoch, false⟩,
      ⟨(s.fireView c.val e.val x.val []).data 1, .data, (s.fireView c.val e.val x.val []).epoch, false⟩] []
      (((s.cluster c.val).elem e.val).ctx x.val) ((s.cluster c.val).elem e.val).mem 6 [])) ∧
  (∀ (s : State) (c : ClusterId) (e : Fin 32) (x : Fin 8) (u : List Nat), s.mayFire c.val e.val x.val 0x3C = true → (s.fireView c.val e.val x.val u).acts = true → (s.fireView c.val e.val x.val u).parityOk ((s.fireView c.val e.val x.val u).addr) 64 = true → 
      ∃ t, exec (.mcmd c e x u) s = .next t ∧
      (((t.cluster c.val).elem e.val).out0.drop ((s.cluster c.val).elem e.val).out0.length).map (fun k => (k.tag, k.epoch, k.poison)) =
      ([.data, .data, .data, .data, .data, .data, .data, .last] : List Tag).map (fun g => (g, (s.fireView c.val e.val x.val u).epoch, false)) ∧
      (∀ j ∈ ([0, 1, 2, 4, 5] : List Nat), (((((t.cluster c.val).elem e.val).out0.drop ((s.cluster c.val).elem e.val).out0.length).map (fun k => k.data.toNat)).getD j 0) =
      leNat (Mem.bytes ((s.cluster c.val).elem e.val).mem ((s.fireView c.val e.val x.val u).addr + 8 * j) 8)) ∧
      (((((t.cluster c.val).elem e.val).out0.drop ((s.cluster c.val).elem e.val).out0.length).map (fun k => k.data.toNat)).getD 3 0) % 2 ^ 12 = (leNat (Mem.bytes ((s.cluster c.val).elem e.val).mem ((s.fireView c.val e.val x.val u).addr + 24) 8) + ((s.fireView c.val e.val x.val u).data 0).toNat % 2 ^ 16) % 2 ^ 12 ∧
      (((((t.cluster c.val).elem e.val).out0.drop ((s.cluster c.val).elem e.val).out0.length).map (fun k => k.data.toNat)).getD 3 0) / 2 ^ 12 % 2 ^ 20 = leNat (Mem.bytes ((s.cluster c.val).elem e.val).mem ((s.fireView c.val e.val x.val u).addr + 24) 8) / 2 ^ 12 % 2 ^ 20 ∧
      (((((t.cluster c.val).elem e.val).out0.drop ((s.cluster c.val).elem e.val).out0.length).map (fun k => k.data.toNat)).getD 3 0) / 2 ^ 32 % 2 ^ 12 = (leNat (Mem.bytes ((s.cluster c.val).elem e.val).mem ((s.fireView c.val e.val x.val u).addr + 24) 8) / 2 ^ 32 + ((s.fireView c.val e.val x.val u).data 0).toNat / 2 ^ 16 % 2 ^ 16) % 2 ^ 12 ∧
      (((((t.cluster c.val).elem e.val).out0.drop ((s.cluster c.val).elem e.val).out0.length).map (fun k => k.data.toNat)).getD 3 0) / 2 ^ 44 = leNat (Mem.bytes ((s.cluster c.val).elem e.val).mem ((s.fireView c.val e.val x.val u).addr + 24) 8) / 2 ^ 44 ∧
      ((((((t.cluster c.val).elem e.val).out0.drop ((s.cluster c.val).elem e.val).out0.length).map (fun k => k.data.toNat)).getD 6 0) = (if (s.fireView c.val e.val x.val u).bound 1 = true then leNat (Mem.bytes ((s.cluster c.val).elem e.val).mem ((s.fireView c.val e.val x.val u).addr + 48) 8) / 2 ^ 32 * 2 ^ 32 + ((s.fireView c.val e.val x.val u).data 1).toNat % 2 ^ 32 else leNat (Mem.bytes ((s.cluster c.val).elem e.val).mem ((s.fireView c.val e.val x.val u).addr + 48) 8))) ∧
      ((((((t.cluster c.val).elem e.val).out0.drop ((s.cluster c.val).elem e.val).out0.length).map (fun k => k.data.toNat)).getD 7 0) = (if (s.fireView c.val e.val x.val u).bound 2 = true then leNat (Mem.bytes ((s.cluster c.val).elem e.val).mem ((s.fireView c.val e.val x.val u).addr + 56) 8) / 2 ^ 16 * 2 ^ 16 + ((s.fireView c.val e.val x.val u).data 2).toNat % 2 ^ 16 else leNat (Mem.bytes ((s.cluster c.val).elem e.val).mem ((s.fireView c.val e.val x.val u).addr + 56) 8))) ∧
      (∃ o0, Fired s t c.val e.val x.val (s.fireView c.val e.val x.val u).queues o0 [] (((s.cluster c.val).elem e.val).ctx x.val)
      ((s.cluster c.val).elem e.val).mem 6 [])) ∧
  (∀ (s : State) (c : ClusterId) (e : Fin 32) (x : Fin 8) (k : Tok), s.mayFire c.val e.val x.val 0x3E = true → (s.fireView c.val e.val x.val []).acts = true → (s.fireView c.val e.val x.val []).head 0 = some k → 
      ∃ t, exec (.send c e x) s = .next t ∧
      Fired s t c.val e.val x.val (s.fireView c.val e.val x.val []).queues
      [⟨BitVec.ofNat 64 (((s.cluster c.val).elem e.val).sendHdr ((s.fireView c.val e.val x.val []).imm % 8)), .data, (s.fireView c.val e.val x.val []).epoch, false⟩,
      ⟨k.data, k.tag, (s.fireView c.val e.val x.val []).epoch, false⟩] []
      (((s.cluster c.val).elem e.val).ctx x.val) ((s.cluster c.val).elem e.val).mem 6 []) ∧
  (∀ (s : State) (c : ClusterId) (e : Fin 32) (x : Fin 8) (u : List Nat), s.mayFire c.val e.val x.val 0x3F = true → (s.fireView c.val e.val x.val u).acts = true → (s.fireView c.val e.val x.val u).parityOk ((s.fireView c.val e.val x.val u).addr) 32 = true → 
      ∃ t, exec (.xfer c e x u) s = .next t ∧
      (Fired s t c.val e.val x.val (s.fireView c.val e.val x.val u).queues
      (([0, 1, 2].map (fun j => BitVec.ofNat 64 (leNat (Mem.bytes ((s.cluster c.val).elem e.val).mem ((s.fireView c.val e.val x.val u).addr + 8 * j) 8))) ++
      [if (s.fireView c.val e.val x.val u).imm.testBit 0 then (s.fireView c.val e.val x.val u).data 0
      else BitVec.ofNat 64 (leNat (Mem.bytes ((s.cluster c.val).elem e.val).mem ((s.fireView c.val e.val x.val u).addr + 24) 8))]).map (fun w => ⟨w, Tag.data, (s.fireView c.val e.val x.val u).epoch, false⟩))
      [] (((s.cluster c.val).elem e.val).ctx x.val) ((s.cluster c.val).elem e.val).mem 6 []))

/-- SWITCH, FILTER, MERGE, MERGEA and REPEAT steer tokens by predicate and by arrival. (from 07_dataflow_elements.md (R184)) -/
def Obligations.SteeringOperations : Prop :=
  (∀ (s : State) (c : ClusterId) (e : Fin 32) (x : Fin 8) (d q : Tok), s.mayFire c.val e.val x.val 0x30 = true → (s.fireView c.val e.val x.val []).head 0 = some d → (s.fireView c.val e.val x.val []).head 1 = some q → d.tag = .data → q.tag = .pred → d.poison = false → q.poison = false → (s.fireView c.val e.val x.val []).bound 3 = false → (s.fireView c.val e.val x.val []).inQ 0 ≠ (s.fireView c.val e.val x.val []).inQ 1 → 
      ∃ t, exec (.switchOp c e x) s = .next t ∧
      (Fired s t c.val e.val x.val (((s.fireView c.val e.val x.val []).inQ 0).toList ++ ((s.fireView c.val e.val x.val []).inQ 1).toList)
      (if q.data.getLsbD 0 then (s.fireView c.val e.val x.val []).out 0 [⟨d.data, .data, (s.fireView c.val e.val x.val []).epoch, false⟩] else [])
      (if q.data.getLsbD 0 then [] else (s.fireView c.val e.val x.val []).out 1 [⟨d.data, .data, (s.fireView c.val e.val x.val []).epoch, false⟩])
      (((s.cluster c.val).elem e.val).ctx x.val) ((s.cluster c.val).elem e.val).mem 6 [])) ∧
  (∀ (s : State) (c : ClusterId) (e : Fin 32) (x : Fin 8) (d q : Tok), s.mayFire c.val e.val x.val 0x33 = true → (s.fireView c.val e.val x.val []).head 0 = some d → (s.fireView c.val e.val x.val []).head 1 = some q → d.tag = .data → q.tag = .pred → d.poison = false → q.poison = false → (s.fireView c.val e.val x.val []).bound 3 = false → (s.fireView c.val e.val x.val []).inQ 0 ≠ (s.fireView c.val e.val x.val []).inQ 1 → 
      ∃ t, exec (.filterOp c e x) s = .next t ∧
      (Fired s t c.val e.val x.val (((s.fireView c.val e.val x.val []).inQ 0).toList ++ ((s.fireView c.val e.val x.val []).inQ 1).toList)
      (if q.data.getLsbD 0 then (s.fireView c.val e.val x.val []).out 0 [⟨d.data, .data, (s.fireView c.val e.val x.val []).epoch, false⟩] else [])
      (if q.data.getLsbD 0 then (s.fireView c.val e.val x.val []).out 1 [⟨d.data, .data, (s.fireView c.val e.val x.val []).epoch, false⟩] else [])
      (((s.cluster c.val).elem e.val).ctx x.val) ((s.cluster c.val).elem e.val).mem 6 [])) ∧
  (∀ (s : State) (c : ClusterId) (e : Fin 32) (x : Fin 8) (d q : Tok) (k : Nat), s.mayFire c.val e.val x.val 0x31 = true → (s.fireView c.val e.val x.val []).head 2 = some q → q.tag = .pred → k = (if q.data.getLsbD 0 then 0 else 1) → (s.fireView c.val e.val x.val []).head k = some d → d.tag = .data → d.poison = false → q.poison = false → (s.fireView c.val e.val x.val []).inQ k ≠ (s.fireView c.val e.val x.val []).inQ 2 → 
      ∃ t, exec (.mergeOp c e x) s = .next t ∧
      Fired s t c.val e.val x.val (((s.fireView c.val e.val x.val []).inQ k).toList ++ ((s.fireView c.val e.val x.val []).inQ 2).toList)
      ((s.fireView c.val e.val x.val []).out 0 [⟨d.data, .data, (s.fireView c.val e.val x.val []).epoch, false⟩])
      ((s.fireView c.val e.val x.val []).out 1 [⟨d.data, .data, (s.fireView c.val e.val x.val []).epoch, false⟩])
      (((s.cluster c.val).elem e.val).ctx x.val) ((s.cluster c.val).elem e.val).mem 6 []) ∧
  (∀ (s : State) (c : ClusterId) (e : Fin 32) (x : Fin 8) (d : Tok) (k : Fin 2), s.mayFire c.val e.val x.val 0x32 = true → (s.fireView c.val e.val x.val []).head k.val = some d → (s.fireView c.val e.val x.val []).head (1 - k.val) = none → d.tag.isData = true → d.poison = false → 
      ∃ t, exec (.mergea c e x) s = .next t ∧
      Fired s t c.val e.val x.val (((s.fireView c.val e.val x.val []).inQ k.val).toList)
      ((s.fireView c.val e.val x.val []).out 0 [⟨d.data, d.tag, (s.fireView c.val e.val x.val []).epoch, false⟩])
      ((s.fireView c.val e.val x.val []).out 1 [⟨d.data, d.tag, (s.fireView c.val e.val x.val []).epoch, false⟩])
      (((s.cluster c.val).elem e.val).ctx x.val) ((s.cluster c.val).elem e.val).mem 6 []) ∧
  (∀ (s : State) (c : ClusterId) (e : Fin 32) (x : Fin 8) (d q : Tok), s.mayFire c.val e.val x.val 0x34 = true → (s.fireView c.val e.val x.val []).head 0 = some d → (s.fireView c.val e.val x.val []).head 1 = some q → d.tag.isData = true → q.tag.isData = true → d.poison = false → q.poison = false → 
      ∃ t, exec (.repeatOp c e x) s = .next t ∧
      Fired s t c.val e.val x.val (((s.fireView c.val e.val x.val []).inQ 1).toList)
      ((s.fireView c.val e.val x.val []).out 0 [⟨d.data, d.tag, (s.fireView c.val e.val x.val []).epoch, false⟩])
      ((s.fireView c.val e.val x.val []).out 1 [⟨d.data, d.tag, (s.fireView c.val e.val x.val []).epoch, false⟩])
      (((s.cluster c.val).elem e.val).ctx x.val) ((s.cluster c.val).elem e.val).mem 6 []) ∧
  (∀ (s : State) (c : ClusterId) (e : Fin 32) (x : Fin 8) (d q : Tok), s.mayFire c.val e.val x.val 0x34 = true → (s.fireView c.val e.val x.val []).head 0 = some d → (s.fireView c.val e.val x.val []).head 1 = some q → d.tag ≠ .mark → q.tag = .last → d.poison = false → q.poison = false → (s.fireView c.val e.val x.val []).inQ 0 ≠ (s.fireView c.val e.val x.val []).inQ 1 → 
      ∃ t, exec (.repeatOp c e x) s = .next t ∧
      (∃ w : W64, Fired s t c.val e.val x.val (((s.fireView c.val e.val x.val []).inQ 0).toList ++ ((s.fireView c.val e.val x.val []).inQ 1).toList)
      ((s.fireView c.val e.val x.val []).out 0 [⟨w, .last, (s.fireView c.val e.val x.val []).epoch, false⟩])
      ((s.fireView c.val e.val x.val []).out 1 [⟨w, .last, (s.fireView c.val e.val x.val []).epoch, false⟩])
      (((s.cluster c.val).elem e.val).ctx x.val) ((s.cluster c.val).elem e.val).mem 6 []))

/-- COUNT, NCOUNT and PENC emit their index streams one token a firing, and a context in RUN goes on with them. (from 07_dataflow_elements.md (R185, R186,
R187, R194, R201)) -/
def Obligations.CountingOperations : Prop :=
  (∀ (s : State) (c : ClusterId) (e : Fin 32) (x : Fin 8) (k : Tok), s.mayFire c.val e.val x.val 0x38 = true → (s.region (regionOf c.val)).drainKind = 0 → (s.fireView c.val e.val x.val []).head 0 = some k → k.tag.isData = true → k.poison = false → 
      ∃ t, exec (.countOp c e x) s = .next t ∧
      ((t.cluster c.val).elem e.val).rd (EL_CTR_REMAIN.nth (s.fireView c.val e.val x.val []).ctr) = k.data.toNat / 2 ^ 32 - 1 ∧
      (0 < k.data.toNat / 2 ^ 32 → Fired s t c.val e.val x.val (((s.fireView c.val e.val x.val []).inQ 0).toList)
      ((s.fireView c.val e.val x.val []).out 0 [⟨(k.data.setWidth 32).setWidth 64, .data, (s.fireView c.val e.val x.val []).epoch, false⟩])
      ((s.fireView c.val e.val x.val []).out 1 [⟨(k.data.setWidth 32).setWidth 64, .data, (s.fireView c.val e.val x.val []).epoch, false⟩])
      { ((s.cluster c.val).elem e.val).ctx x.val with state := .run, run := ⟨k.data.toNat % 2 ^ 32, k.data.toNat / 2 ^ 32, 0, 1, 0⟩ }
      ((s.cluster c.val).elem e.val).mem 6 [(EL_CTR_REMAIN.nth (s.fireView c.val e.val x.val []).ctr).off]) ∧
      (k.data.toNat / 2 ^ 32 = 0 → Fired s t c.val e.val x.val (((s.fireView c.val e.val x.val []).inQ 0).toList)
      ((s.fireView c.val e.val x.val []).out 0 [⟨0, .last, (s.fireView c.val e.val x.val []).epoch, false⟩])
      ((s.fireView c.val e.val x.val []).out 1 [⟨0, .last, (s.fireView c.val e.val x.val []).epoch, false⟩])
      { ((s.cluster c.val).elem e.val).ctx x.val with state := .wait, run := ⟨0, 0, 0, 0, 0⟩ }
      ((s.cluster c.val).elem e.val).mem 6 [(EL_CTR_REMAIN.nth (s.fireView c.val e.val x.val []).ctr).off])) ∧
  (∀ (s : State) (c : ClusterId) (e : Fin 32) (x : Fin 8) (k : Tok), s.mayFire c.val e.val x.val 0x39 = true → (s.region (regionOf c.val)).drainKind = 0 → (s.fireView c.val e.val x.val []).head 0 = some k → k.tag.isData = true → k.poison = false → 0 < k.data.toNat / 2 ^ 32 % 2 ^ 16 → 0 < k.data.toNat / 2 ^ 48 → 
      ∃ t, exec (.ncount c e x) s = .next t ∧
      Fired s t c.val e.val x.val (((s.fireView c.val e.val x.val []).inQ 0).toList)
      [⟨(k.data.setWidth 32).setWidth 64, .data, (s.fireView c.val e.val x.val []).epoch, false⟩] []
      { ((s.cluster c.val).elem e.val).ctx x.val with
      state := .run, run := ⟨k.data.toNat % 2 ^ 32, k.data.toNat / 2 ^ 32 % 2 ^ 16, k.data.toNat / 2 ^ 48, 1, 0⟩ }
      ((s.cluster c.val).elem e.val).mem 6
      [(EL_CTR_REMAIN.nth (s.fireView c.val e.val x.val []).ctr).off, (EL_CTR_REMAIN.nth ((s.fireView c.val e.val x.val []).ctr + 1)).off]) ∧
  (∀ (s : State) (c : ClusterId) (e : Fin 32) (x : Fin 8) (b : Nat), s.mayFire c.val e.val x.val 0x26 = true → (s.region (regionOf c.val)).drainKind = 0 → (s.fireView c.val e.val x.val []).acts = true → b < 64 → ((s.fireView c.val e.val x.val []).data 0).getLsbD b = true → (∀ j ∈ List.range b, ((s.fireView c.val e.val x.val []).data 0).getLsbD j = false) → 
      ∃ t, exec (.penc c e x) s = .next t ∧
      Fired s t c.val e.val x.val (s.fireView c.val e.val x.val []).queues
      ((s.fireView c.val e.val x.val []).out 0
      [⟨BitVec.ofNat 64 (((s.fireView c.val e.val x.val []).imm + b) % 2 ^ 32), .data, (s.fireView c.val e.val x.val []).epoch, false⟩])
      ((s.fireView c.val e.val x.val []).out 1
      [⟨BitVec.ofNat 64 (((s.fireView c.val e.val x.val []).imm + b) % 2 ^ 32), .data, (s.fireView c.val e.val x.val []).epoch, false⟩])
      { ((s.cluster c.val).elem e.val).ctx x.val with state := .run, run := ⟨((s.fireView c.val e.val x.val []).data 0).toNat, 0, 0, 1, 0⟩ }
      ((s.cluster c.val).elem e.val).mem 6 []) ∧
  (∀ (s : State) (c : ClusterId) (e : Fin 32) (x : Fin 8) (r : Run), s.runs c.val = true → s.held c.val = false → (s.region (regionOf c.val)).drainKind = 0 → (((s.cluster c.val).elem e.val).ctx x.val).state = .run → ((s.cluster c.val).elem e.val).ctxWord x.val 0 % 64 = 0x38 → ((s.cluster c.val).elem e.val).next e.val (s.region (regionOf c.val)).drainKind = some x.val → (((s.cluster c.val).elem e.val).ctx x.val).run = r → 
      ∃ t, exec (.contextRunEmit c e x) s = .next t ∧
      (r.i < r.inner → Fired s t c.val e.val x.val []
      ((s.fireView c.val e.val x.val []).out 0 [⟨BitVec.ofNat 64 ((BitVec.ofInt 32 ((r.base : Int) +
      r.i * (BitVec.ofNat 32 (s.fireView c.val e.val x.val []).imm).toInt)).toNat + r.i % 2 ^ 32 * 2 ^ 32), .data, (s.fireView c.val e.val x.val []).epoch, false⟩])
      ((s.fireView c.val e.val x.val []).out 1 [⟨BitVec.ofNat 64 ((BitVec.ofInt 32 ((r.base : Int) +
      r.i * (BitVec.ofNat 32 (s.fireView c.val e.val x.val []).imm).toInt)).toNat + r.i % 2 ^ 32 * 2 ^ 32), .data, (s.fireView c.val e.val x.val []).epoch, false⟩])
      { ((s.cluster c.val).elem e.val).ctx x.val with state := .run, run := { r with i := r.i + 1 } }
      ((s.cluster c.val).elem e.val).mem 6 [(EL_CTR_REMAIN.nth (s.fireView c.val e.val x.val []).ctr).off]) ∧
      (r.inner ≤ r.i → Fired s t c.val e.val x.val []
      ((s.fireView c.val e.val x.val []).out 0 [⟨BitVec.ofNat 64 (r.inner * 2 ^ 32), .last, (s.fireView c.val e.val x.val []).epoch, false⟩])
      ((s.fireView c.val e.val x.val []).out 1 [⟨BitVec.ofNat 64 (r.inner * 2 ^ 32), .last, (s.fireView c.val e.val x.val []).epoch, false⟩])
      { ((s.cluster c.val).elem e.val).ctx x.val with state := .wait, run := ⟨0, 0, 0, 0, 0⟩ }
      ((s.cluster c.val).elem e.val).mem 6 [(EL_CTR_REMAIN.nth (s.fireView c.val e.val x.val []).ctr).off]))

/-- ARM checks and arms a context set, stale tokens are discarded, and narrow-port responses enter their queue. (from 07_dataflow_elements.md (R171, R172,
R174, R456)) The model's choice, no rule's: that both bindings have 16 credits after ARM whatever they had (assumption log entry 12). -/
def Obligations.ArmAndArrivals : Prop :=
  (∀ (s : State) (c : ClusterId) (e : Fin 32), s.runs c.val = true → (s.region (regionOf c.val)).drainedState = true → ((s.cluster c.val).elem e.val).armCheck = 0 → 
      ∃ t, exec (.arm c e) s = .next t ∧
      ((t.cluster c.val).elem e.val).rd EL_STATUS_CHK = 0 ∧
      (∀ j ∈ List.range 8, (((t.cluster c.val).elem e.val).ctx j).state = (if (((s.cluster c.val).elem e.val).rd EL_CTRL_CTX_EN).testBit j = true then .wait else .idle)) ∧
      (∀ j ∈ List.range 4, ((t.cluster c.val).elem e.val).rd (EL_CTR_REMAIN.nth j) = 0) ∧
      ((t.cluster c.val).elem e.val).rd (EL_OBIND_CREDITS.nth 0) = 16 ∧ ((t.cluster c.val).elem e.val).rd (EL_OBIND_CREDITS.nth 1) = 16 ∧
      ((t.cluster c.val).elem e.val).rd EL_FAULT_CAUSE = 0 ∧
      ((t.cluster c.val).elem e.val).block = [] ∧
      ((t.cluster c.val).elem e.val).queues = ((s.cluster c.val).elem e.val).queues ∧ ((t.cluster c.val).elem e.val).mem = ((s.cluster c.val).elem e.val).mem ∧
      (OnlyCluster s t c.val ∧ ∀ j, j ≠ e.val → (t.cluster c.val).elem j = (s.cluster c.val).elem j)) ∧
  (∀ (s : State) (c : ClusterId) (e : Fin 32), s.runs c.val = true → (s.region (regionOf c.val)).drainedState = true → ((s.cluster c.val).elem e.val).armCheck ≠ 0 → 
      ∃ t, exec (.arm c e) s = .next t ∧
      ((t.cluster c.val).elem e.val).rd EL_STATUS_CHK = ((s.cluster c.val).elem e.val).armCheck ∧
      ((t.cluster c.val).elem e.val).rd EL_EVENT_CFG_ERR = 1 ∧
      { (t.cluster c.val).elem e.val with regs := ((s.cluster c.val).elem e.val).regs } = (s.cluster c.val).elem e.val ∧
      OnlyCluster s t c.val ∧ OnlyElem (s.cluster c.val) (t.cluster c.val) e.val) ∧
  (∀ (s : State) (c : ClusterId) (e : Fin 32), s.runs c.val = true → (s.region (regionOf c.val)).drainedState = false → 
      ∃ t, exec (.arm c e) s = .next t ∧
      ((t.cluster c.val).elem e.val).rd EL_EVENT_CFG_ERR = 1 ∧
      ((∀ o, o ≠ EL_EVENT_CFG_ERR.off → Regs.word elTable ((t.cluster c.val).elem e.val).regs o = Regs.word elTable ((s.cluster c.val).elem e.val).regs o) ∧
      { (t.cluster c.val).elem e.val with regs := ((s.cluster c.val).elem e.val).regs } = (s.cluster c.val).elem e.val) ∧
      OnlyCluster s t c.val ∧ OnlyElem (s.cluster c.val) (t.cluster c.val) e.val) ∧
  (∀ (s : State) (c : ClusterId) (e : Fin 32) (q : Fin 8) (k : Tok) (rest : List Tok), s.runs c.val = true → ((s.cluster c.val).elem e.val).queue q.val = k :: rest → k.epoch ≠ ((s.cluster c.val).elem e.val).rd EL_STATUS_EPOCH → k.epoch ≠ (((s.cluster c.val).elem e.val).rd EL_STATUS_EPOCH + 1) % 4 → 
      ∃ t, exec (.staleTokenDiscard c e q) s = .next t ∧
      ((t.cluster c.val).elem e.val).queue q.val = rest ∧
      ((t.cluster c.val).elem e.val).rd EL_CNT_STALE_CNT = (((s.cluster c.val).elem e.val).rd EL_CNT_STALE_CNT + 1) % 2 ^ 32 ∧
      ((t.cluster c.val).elem e.val).rd EL_EVENT_STALE = 1 ∧
      (OnlyCluster s t c.val ∧ ∀ j, j ≠ e.val → (t.cluster c.val).elem j = (s.cluster c.val).elem j)) ∧
  (∀ (s : State) (c : ClusterId) (e : Fin 32) (ring : Fin 4) (k : RingTok) (rest : List RingTok), s.runs c.val = true → takeFirst (fun t => t.ring == ring.val && t.dst == e.val && t.src == 33) (s.cluster c.val).ringToks = some (k, rest) → ((s.cluster c.val).elem e.val).faultedQueue k.queue = false → 
      ∃ t, exec (.nldResponse c e ring true) s = .next t ∧
      ((t.cluster c.val).elem e.val).queue k.queue = ((s.cluster c.val).elem e.val).queue k.queue ++ [k.tok] ∧
      ((t.cluster c.val).elem e.val).rd (EL_QCFG_OUTST.nth k.queue) = ((s.cluster c.val).elem e.val).rd (EL_QCFG_OUTST.nth k.queue) - 1 ∧
      (t.cluster c.val).ringToks = rest ∧
      OnlyClusterRegion s t c.val (regionOf c.val))

/-- While HOLD is in force in a cluster's region no element of it fires and its matrix unit starts no command. (from 03_almanac_power_heat.md (R81),
07_dataflow_elements.md (R175)) -/
def Obligations.HoldStopsNewWork : Prop :=
  (∀ (s : State) (c : ClusterId) (e : Fin 32) (x : Fin 8) (u b : List Nat), s.held c.val = true → 
      ∀ i ∈ firings c e x u ++ [Instr.contextRunEmit c e x, Instr.matmul c ⟨u, b⟩, Instr.matmulSparse c ⟨u, b⟩], exec i s = .next s)

/-- A slot-end drain begins at DRAIN_AT, with idle sources or on request, and ends finished, parked or in FAULT. (from 08_ephemerides_and_folding.md
(R201, R202, R203, R209), 03_almanac_power_heat.md (R93)) -/
def Obligations.DrainsBeginAndEnd : Prop :=
  (∀ (s : State) (r : RegionId) (e : Slot), (s.region r.val).sched_ = 2 → (s.region r.val).slot = some e → e.drainAt ≠ 0 → 
      ∃ t, exec (.drainAtExpiry r) s = .next t ∧
      (t.region r.val).sched_ = 3 ∧
      (t.region r.val).drainKind = 1 ∧
      (t.region r.val).rd TCK_RDRAIN_DRAINED = 0 ∧
      (t.region r.val).slot = some e ∧
      (∀ c, regionOf c = r.val → (t.cluster c).rd MU_LIST_CTRL_ACTIVE = 0 ∧ (t.cluster c).elems = (s.cluster c).elems) ∧
      OnlyInRegion s t r.val) ∧
  (∀ (s : State) (r : RegionId), (s.region r.val).sched_ = 2 → (s.region r.val).startDue = false → (s.liveClusters r.val).all (fun i => !s.enabled i || (s.cluster i).fenced || (s.cluster i).sourcesIdle) = true → 
      ∃ t, exec (.sourcesIdle r) s = .next t ∧
      (t.region r.val).sched_ = 3 ∧
      (t.region r.val).drainKind = 1 ∧
      (t.region r.val).rd TCK_RDRAIN_DRAINED = 0 ∧
      OnlyInRegion s t r.val) ∧
  (∀ (s : State) (r : RegionId), s.pageOpen r.val = true → (s.region r.val).sched_ = 2 → 
      ∃ t, exec (.drainReq r) s = .next t ∧
      (t.region r.val).sched_ = 3 ∧
      (t.region r.val).drainKind = 1 ∧
      (t.region r.val).rd TCK_RDRAIN_DRAINED = 0 ∧
      (∀ c, regionOf c = r.val → (t.cluster c).rd MU_LIST_CTRL_ACTIVE = 0) ∧
      OnlyInRegion s t r.val) ∧
  (∀ (s : State) (r : RegionId), s.pageOpen r.val = true → (s.region r.val).drainKind = 2 → (s.region r.val).sched_ = 3 → 
      ∃ t, exec (.drainReq r) s = .next t ∧
      (t.region r.val).drainWaits = true ∧
      (t.region r.val).drainKind = 2 ∧
      OnlyRegion s t r.val) ∧
  (∀ (s : State) (r : RegionId) (n : Nat), (s.region r.val).sched_ = 3 → (s.region r.val).rd TCK_RSCHED_PARKDRAIN = 0 → s.quietRegion r.val false = true → s.unstaged r.val = true → (s.region r.val).rd PWR_STATUS_PARK_CAUSE = 0 → (s.region r.val).power = 2 → 
      ∃ t, exec (.regionDrained r n) s = .next t ∧
      (t.region r.val).sched_ = 4 ∧
      (t.region r.val).rd TCK_RDRAIN_DRAINED = 1 ∧
      (t.region r.val).rd TCK_RDRAIN_CCLK_CCLK = n % 2 ^ TCK_RDRAIN_CCLK_CCLK.width ∧
      (t.region r.val).passed = (s.region r.val).passed + 1 ∧
      (t.region r.val).power = 2 ∧
      (∀ c, (t.cluster c).mem = (s.cluster c).mem ∧ (t.cluster c).elems = (s.cluster c).elems) ∧
      OnlyInRegion s t r.val) ∧
  (∀ (s : State) (r : RegionId) (n : Nat), (s.region r.val).sched_ = 3 → (s.region r.val).rd TCK_RSCHED_PARKDRAIN = 1 → (s.region r.val).power = 3 → s.quietRegion r.val true = true → 
      ∃ t, exec (.regionDrained r n) s = .next t ∧
      (t.region r.val).power = 4 ∧
      (t.region r.val).sched_ = 3 ∧
      (t.region r.val).rd PWR_STATUS_UNDRAINED = 0 ∧
      (t.region r.val).rd TCK_RDRAIN_CCLK_CCLK = n % 2 ^ TCK_RDRAIN_CCLK_CCLK.width ∧
      (t.region r.val).slot = (s.region r.val).slot ∧
      OnlyRegion s t r.val) ∧
  (∀ (s : State) (r : RegionId), (s.region r.val).sched_ = 3 → (s.region r.val).rd TCK_RSCHED_PARKDRAIN = 0 → 
      ∃ t, exec (.drainTimeout r) s = .next t ∧
      (t.region r.val).sched_ = 6 ∧
      (t.region r.val).rd TCK_RDRAIN_TIMEOUT = 1 ∧
      Logged s t 18 r.val ∧
      t.dome.degPend = s.dome.degPend ++ [(18, r.val)] ∧
      (∀ k, k ≠ r.val → t.region k = s.region k) ∧
      t.clusters = s.clusters)

/-- A forced replacement idles every context under the next epoch; the emptied region becomes FREE and keeps its memories. (from
08_ephemerides_and_folding.md (R208, R209, R222), 14_faults_and_collimation.md (R353)) The model's choice, no rule's: that a region in FAULT whose
controller is silent counts as ended (R353; assumption log entry 25). -/
def Obligations.ForcedReplacement : Prop :=
  (∀ (s : State) (r : RegionId), s.pageOpen r.val = true → (s.region r.val).sched_ ∈ [1, 2, 3, 4, 6] → 
      ∃ t, exec (.forcedReplacement r) s = .next t ∧
      (t.region r.val).sched_ = 5 ∧
      (t.region r.val).rd TCK_RSCHED_EPOCH = ((s.region r.val).rd TCK_RSCHED_EPOCH + 1) % 4 ∧
      (t.region r.val).slot = none ∧
      (t.region r.val).balance = 0 ∧
      (t.region r.val).rd TCK_RDRAIN_DRAINED = 0 ∧
      (∀ c e x, c < 8960 → e < 32 → regionOf c = r.val → (((t.cluster c).elem e).ctx x).state = .idle) ∧
      (∀ c, (t.cluster c).mem = (s.cluster c).mem ∧ (t.cluster c).ds = (s.cluster c).ds) ∧
      ((∀ k, k ≠ r.val → t.region k = s.region k) ∧ ∀ c, regionOf c ≠ r.val → t.cluster c = s.cluster c)) ∧
  (∀ (s : State) (r : RegionId) (e : Fin 8) (x : Eph), SMap.get (fun _ => none) s.dome.ephs e.val = some x → r.val ∈ x.regions → s.pageOpen r.val = true → (s.region r.val).rd TCK_RSCHED_EPH = e.val → (s.region r.val).sched_ ∈ [1, 2, 3, 4, 6] → 
      ∃ t, exec (.tckEphForce (BitVec.ofNat 32 (2 ^ e.val))) s = .next t ∧
      (t.region r.val).sched_ = 5 ∧
      (t.region r.val).rd TCK_RSCHED_EPOCH = ((s.region r.val).rd TCK_RSCHED_EPOCH + 1) % 4 ∧
      (t.region r.val).slot = none ∧
      (∀ k, k ∉ x.regions → t.region k = s.region k)) ∧
  (∀ (s : State) (r : RegionId), (s.region r.val).sched_ = 5 → s.quietRegion r.val false = true → s.unstaged r.val = true → 
      ∃ t, exec (.forcedEmpty r) s = .next t ∧
      (t.region r.val).sched_ = 0 ∧
      (t.region r.val).slot = none ∧
      (t.region r.val).sched = [] ∧
      (t.clusters = s.clusters ∧ ∀ k, k ≠ r.val → t.region k = s.region k)) ∧
  (∀ (s : State) (r : RegionId), (s.region r.val).sched_ = 5 → 
      ∃ t, exec (.forcedTimeout r) s = .next t ∧
      (t.region r.val).sched_ = 6 ∧
      (t.region r.val).rd TCK_RDRAIN_TIMEOUT = 1 ∧
      Logged s t 18 r.val ∧
      (t.clusters = s.clusters ∧ ∀ k, k ≠ r.val → t.region k = s.region k)) ∧
  (∀ (s : State) (r : RegionId), (s.region r.val).sched_ = 6 → (s.region r.val).forceAsked = true → 
      ∃ t, exec (.forcedTimeout r) s = .next t ∧
      (t.region r.val).forceOver = true ∧
      (t.region r.val).sched_ = 6 ∧
      (t.clusters = s.clusters ∧ ∀ k, k ≠ r.val → t.region k = s.region k))

/-- The loader checks an image, gives it the lowest free number and loads its regions, or reports the first failed check. (from
08_ephemerides_and_folding.md (R199, R205, R218, R220, R222), 15_host_bridge.md (R390, R392)) The model's choice, no rule's: that a load writes SLIP 0
(assumption log entry 22). -/
def Obligations.EphemerisLoads : Prop :=
  (∀ (s : State) (l : LoadReq) (rest : List LoadReq) (j : Job), s.dome.loader = l :: rest → parseEph l.image = none → (s.hostQ l.queue).jobs.find? (fun k => k.serial == l.serial) = some j → j.mute = false → (s.hostQ l.queue).rd HIF_Q_STATUS_STATE ≠ 3 → 
      ∃ t, exec (.ephemerisLoad) s = .next t ∧
      t.dome.loader = rest ∧
      t.dome_ TCK_EPH_LAST_STATUS = 1 ∧
      (t.hostQ l.queue).due = (s.hostQ l.queue).due ++ [⟨j.cid, 1, none, 0, 0, j.irq⟩] ∧
      (t.hostQ l.queue).jobs = (s.hostQ l.queue).jobs.filter (fun k => k.serial != j.serial) ∧
      (t.regions = s.regions ∧ t.clusters = s.clusters ∧ ∀ k, k ≠ l.queue → t.hostQ k = s.hostQ k)) ∧
  (∀ (s : State) (l : LoadReq) (rest : List LoadReq) (j : Job) (p : EphImg), s.dome.loader = l :: rest → parseEph l.image = some p → s.loadStatus p ≠ 0 → (s.hostQ l.queue).jobs.find? (fun k => k.serial == l.serial) = some j → j.mute = false → (s.hostQ l.queue).rd HIF_Q_STATUS_STATE ≠ 3 → 
      ∃ t, exec (.ephemerisLoad) s = .next t ∧
      t.dome.loader = rest ∧
      t.dome_ TCK_EPH_LAST_STATUS = (((s.loadChecks p).find? (fun q => q.2)).map (fun q => q.1)).getD 0 ∧
      (t.hostQ l.queue).due = (s.hostQ l.queue).due ++ [⟨j.cid, (((s.loadChecks p).find? (fun q => q.2)).map (fun q => q.1)).getD 0, none, 0, 0, j.irq⟩] ∧
      t.dome.ephs = s.dome.ephs ∧
      (t.regions = s.regions ∧ t.clusters = s.clusters ∧ ∀ k, k ≠ l.queue → t.hostQ k = s.hostQ k)) ∧
  (∀ (s : State) (l : LoadReq) (rest : List LoadReq) (j : Job) (p : EphImg) (n : Nat), s.dome.loader = l :: rest → parseEph l.image = some p → s.loadStatus p = 0 → s.freeEph = some n → (∀ v ∈ p.inits, initLen v = 0 ∨ addrSpace (initDest v) = 0 ∨ 4 ≤ addrSpace (initDest v)) → (s.hostQ l.queue).jobs.find? (fun k => k.serial == l.serial) = some j → j.mute = false → (s.hostQ l.queue).rd HIF_Q_STATUS_STATE ≠ 3 → 
      ∃ t, exec (.ephemerisLoad) s = .next t ∧
      t.dome.loader = rest ∧
      t.dome_ TCK_EPH_LAST_STATUS = 0 ∧
      t.dome_ TCK_EPH_LAST_EPH = n % 2 ^ TCK_EPH_LAST_EPH.width ∧
      (t.dome_ TCK_EPH_ACTIVE_ACTIVE).testBit n = true ∧
      (t.hostQ l.queue).due = (s.hostQ l.queue).due ++ [⟨j.cid, 0, some n, 0, 0, j.irq⟩] ∧
      (t.hostQ l.queue).lastLoad = some n ∧
      (∀ r ∈ p.regions, (t.region r).sched_ = 1 ∧ (t.region r).rd TCK_RSCHED_EPH = n ∧ (t.region r).rd TCK_RSCHED_EPOCH = 3 ∧
      (t.region r).rd TCK_RSTATUS_SLIP = 0 ∧ (t.region r).start = s.tickNum + 2)) ∧
  (∀ (s : State) (k off len slot : Nat) (rest : List (Nat × Nat × Nat)), s.dome.standing = (k, off, len) :: rest → s.runSlot = some slot → s.mstate ≠ 0 → k < 8 → ((s.load (s.norBytes slot off len)).1 ≠ 4 ∨ s.heldByStanding (s.norBytes slot off len) = false) → (s.load (s.norBytes slot off len)).1 ≠ 11 → 
      ∃ t, exec (.standingLoad) s = .next t ∧
      t.dome.standing = rest ∧
      t.dome_ CAT_STANDING / 16 ^ k % 16 = (s.load (s.norBytes slot off len)).1 ∧
      t.regions = (s.load (s.norBytes slot off len)).2.2.regions ∧ t.clusters = (s.load (s.norBytes slot off len)).2.2.clusters) ∧
  (∀ (s : State) (k off len slot : Nat) (rest : List (Nat × Nat × Nat)), s.dome.standing = (k, off, len) :: rest → s.runSlot = some slot → (((s.load (s.norBytes slot off len)).1 = 4 ∧ s.heldByStanding (s.norBytes slot off len) = true) ∨ (s.load (s.norBytes slot off len)).1 = 11) → 
      ∃ t, exec (.standingLoad) s = .next t ∧
      t = s)

/-- The narrow port loads, stores and adds as its request tokens say, and writes nothing but the enabled bytes. (from 09_cluster_memory.md (R228, R229,
R230, R231, R232, R233, R234)) The model's choice, no rule's: one round-robin pointer for each kind of grant, of which an add of class 5 takes two
turns (assumption log entry 13). -/
def Obligations.NarrowPortRequests : Prop :=
  (∀ (s : State) (c : ClusterId) (q : Fin 8) (k : NTok) (u : List Nat), s.nqHead c.val q.val = some k → k.tok.tag = .data → k.tok.poison = false → reqKind k.tok.data = 0 → (s.cluster c.val).rowsPoisoned (reqAddr k.tok.data) 8 = false → s.npTurn c.val false = some q.val → ((s.upset c.val u).cluster c.val).badBytes (reqAddr k.tok.data) 8 (reqUses k.tok.data) = [] → 
      ∃ t, exec (.npLoad c q u) s = .next t ∧
      (t.cluster c.val).nq q.val = ((s.cluster c.val).nq q.val).drop 1 ∧
      (((t.cluster c.val).waiting 33 (k.ring % 2)).map (fun w => (w.dst, w.queue, w.tok)) =
      ((s.cluster c.val).waiting 33 (k.ring % 2)).map (fun w => (w.dst, w.queue, w.tok)) ++ [(reqElem k.tok.data, reqRq k.tok.data,
      ⟨BitVec.ofNat 64 (leNat ((List.range 8).map (fun j => if (reqBe k.tok.data).testBit j then Mem.byte (s.cluster c.val).mem (reqAddr k.tok.data + j) else 0))),
      .data, k.tok.epoch, false⟩)]) ∧
      (t.cluster c.val).mem = (s.cluster c.val).mem ∧
      (t.region (regionOf c.val)).waits 5 = (s.region (regionOf c.val)).waits 5 + 1 ∧
      (t.region (regionOf c.val)).waits 3 = (s.region (regionOf c.val)).waits 3 + 1 ∧
      OnlyClusterEvents s t c.val) ∧
  (∀ (s : State) (c : ClusterId) (q : Fin 8) (k d : NTok) (rest : List NTok), s.nqHead c.val q.val = some k → (s.cluster c.val).nq q.val = k :: d :: rest → k.tok.tag = .data → k.tok.poison = false → reqKind k.tok.data = 1 → s.npTurn c.val true = some q.val → 
      ∃ t, exec (.npStore c q) s = .next t ∧
      (t.cluster c.val).nq q.val = rest ∧
      (t.region (regionOf c.val)).waits 5 = (s.region (regionOf c.val)).waits 5 + 1 ∧
      (t.region (regionOf c.val)).waits 4 = (s.region (regionOf c.val)).waits 4 + 1 ∧
      (∀ j ∈ List.range 8, (reqBe k.tok.data).testBit j = true →
      Mem.byte (t.cluster c.val).mem (reqAddr k.tok.data + j) = BitVec.ofNat 8 (d.tok.data.toNat / 2 ^ (8 * j))) ∧
      WritesMasked (s.cluster c.val).mem (t.cluster c.val).mem (reqAddr k.tok.data) (leBytes 8 d.tok.data.toNat) (beMask (reqBe k.tok.data) 8) ∧
      OnlyClusterEvents s t c.val) ∧
  (∀ (s : State) (c : ClusterId) (q : Fin 8) (k d : NTok) (rest : List NTok), s.nqHead c.val q.val = some k → (s.cluster c.val).nq q.val = k :: d :: rest → k.tok.tag = .data → k.tok.poison = false → reqKind k.tok.data = 2 → s.npTurn c.val false = some q.val → (s.cluster c.val).rowsPoisoned (reqAddr k.tok.data) 8 = false → (s.cluster c.val).badBytes (reqAddr k.tok.data) 8 (reqUses k.tok.data) = [] → 
      ∃ t, exec (.npAddInt32 c q []) s = .next t ∧
      (t.cluster c.val).nq q.val = rest ∧
      (t.cluster c.val).accs = (s.cluster c.val).accs ++ [⟨q.val, reqAddr k.tok.data,
      addInto 2 8 (Mem.bytes (s.cluster c.val).mem (reqAddr k.tok.data) 8) (leBytes 8 d.tok.data.toNat) (beMask (reqBe k.tok.data) 8),
      beMask (reqBe k.tok.data) 8, d.tok.poison⟩] ∧
      ((t.cluster c.val).elem (reqElem k.tok.data)).seq = (((s.cluster c.val).elem (reqElem k.tok.data)).seq + 1) % 65536 ∧
      (t.cluster c.val).mem = (s.cluster c.val).mem ∧
      (t.region (regionOf c.val)).waits 5 = (s.region (regionOf c.val)).waits 5 + 2 ∧
      OnlyClusterEvents s t c.val) ∧
  (∀ (s : State) (c : ClusterId) (q : Fin 8) (k d : NTok) (rest : List NTok), s.nqHead c.val q.val = some k → (s.cluster c.val).nq q.val = k :: d :: rest → k.tok.tag = .data → k.tok.poison = false → reqKind k.tok.data = 3 → (s.cluster c.val).rd CM_CTRL_DETERM ≠ 1 → s.npTurn c.val false = some q.val → (s.cluster c.val).rowsPoisoned (reqAddr k.tok.data) 8 = false → (s.cluster c.val).badBytes (reqAddr k.tok.data) 8 (reqUses k.tok.data) = [] → 
      ∃ t, exec (.npAddFp32 c q []) s = .next t ∧
      (t.cluster c.val).nq q.val = rest ∧
      (t.cluster c.val).accs = (s.cluster c.val).accs ++ [⟨q.val, reqAddr k.tok.data,
      addInto 3 8 (Mem.bytes (s.cluster c.val).mem (reqAddr k.tok.data) 8) (leBytes 8 d.tok.data.toNat) (beMask (reqBe k.tok.data) 8),
      beMask (reqBe k.tok.data) 8, d.tok.poison⟩] ∧
      ((t.cluster c.val).elem (reqElem k.tok.data)).seq = (((s.cluster c.val).elem (reqElem k.tok.data)).seq + 1) % 65536 ∧
      (t.cluster c.val).mem = (s.cluster c.val).mem ∧
      OnlyClusterEvents s t c.val) ∧
  (∀ (s : State) (c : ClusterId) (q : Fin 8) (k d : NTok) (rest : List NTok), s.nqHead c.val q.val = some k → (s.cluster c.val).nq q.val = k :: d :: rest → k.tok.tag = .data → k.tok.poison = false → reqKind k.tok.data = 3 → (s.cluster c.val).rd CM_CTRL_DETERM = 1 → s.npTurn c.val false = some q.val → (s.cluster c.val).staging.length < 1024 → 
      ∃ t, exec (.npAddFp32 c q []) s = .next t ∧
      (t.cluster c.val).nq q.val = rest ∧
      (t.cluster c.val).staging.dropLast = (s.cluster c.val).staging ∧
      ((t.cluster c.val).staging.getLast?).map (fun (e : DEntry) => (e.addr, e.kind, e.key)) = some (reqAddr k.tok.data / 64 * 64, 3,
      ⟨s.modId, cy c.val, cx c.val, reqElem k.tok.data, ((s.cluster c.val).elem (reqElem k.tok.data)).seq⟩) ∧
      (t.cluster c.val).accs = (s.cluster c.val).accs ∧
      (t.cluster c.val).mem = (s.cluster c.val).mem ∧
      OnlyClusterEvents s t c.val) ∧
  (∀ (s : State) (c : ClusterId) (q : Fin 8) (k d : NTok) (rest : List NTok), s.nqHead c.val q.val = some k → (s.cluster c.val).nq q.val = k :: d :: rest → k.tok.tag = .data → k.tok.poison = false → reqKind k.tok.data = 4 → (s.cluster c.val).rd CM_CTRL_DETERM ≠ 1 → s.npTurn c.val false = some q.val → (s.cluster c.val).rowsPoisoned (reqAddr k.tok.data) 8 = false → (s.cluster c.val).badBytes (reqAddr k.tok.data) 8 (reqUses k.tok.data) = [] → 
      ∃ t, exec (.npAddBf16 c q []) s = .next t ∧
      (t.cluster c.val).nq q.val = rest ∧
      (t.cluster c.val).accs = (s.cluster c.val).accs ++ [⟨q.val, reqAddr k.tok.data,
      addInto 4 8 (Mem.bytes (s.cluster c.val).mem (reqAddr k.tok.data) 8) (leBytes 8 d.tok.data.toNat) (beMask (reqBe k.tok.data) 8),
      beMask (reqBe k.tok.data) 8, d.tok.poison⟩] ∧
      ((t.cluster c.val).elem (reqElem k.tok.data)).seq = (((s.cluster c.val).elem (reqElem k.tok.data)).seq + 1) % 65536 ∧
      (t.cluster c.val).mem = (s.cluster c.val).mem ∧
      OnlyClusterEvents s t c.val) ∧
  (∀ (s : State) (c : ClusterId) (q : Fin 8) (k d : NTok) (rest : List NTok), s.nqHead c.val q.val = some k → (s.cluster c.val).nq q.val = k :: d :: rest → k.tok.tag = .data → k.tok.poison = false → reqKind k.tok.data = 4 → (s.cluster c.val).rd CM_CTRL_DETERM = 1 → s.npTurn c.val false = some q.val → (s.cluster c.val).staging.length < 1024 → 
      ∃ t, exec (.npAddBf16 c q []) s = .next t ∧
      (t.cluster c.val).nq q.val = rest ∧
      (t.cluster c.val).staging.dropLast = (s.cluster c.val).staging ∧
      ((t.cluster c.val).staging.getLast?).map (fun (e : DEntry) => (e.addr, e.kind, e.key)) = some (reqAddr k.tok.data / 64 * 64, 4,
      ⟨s.modId, cy c.val, cx c.val, reqElem k.tok.data, ((s.cluster c.val).elem (reqElem k.tok.data)).seq⟩) ∧
      (t.cluster c.val).accs = (s.cluster c.val).accs ∧
      (t.cluster c.val).mem = (s.cluster c.val).mem ∧
      OnlyClusterEvents s t c.val) ∧
  (∀ (s : State) (c : ClusterId) (q : Fin 8) (a : NAcc) (rest : List NAcc), s.runs c.val = true → takeFirst (fun (b : NAcc) => b.queue == q.val) (s.cluster c.val).accs = some (a, rest) → a.data.length = a.mask.length → (∀ b ∈ rest, b.addr / 512 ≠ a.addr / 512) → 
      ∃ t, exec (.npAccWriteback c q) s = .next t ∧
      (t.cluster c.val).accs = rest ∧
      (t.region (regionOf c.val)).waits 4 = (s.region (regionOf c.val)).waits 4 + 1 ∧
      WritesMasked (s.cluster c.val).mem (t.cluster c.val).mem a.addr a.data a.mask ∧
      OnlyClusterEvents s t c.val)

/-- Row-assembly buffers are written under their masks, staged contributions are applied in key order, CM_CTRL only when drained. (from
09_cluster_memory.md (R234, R235, R236, R237, R241)) -/
def Obligations.AssemblyStagingAndControl : Prop :=
  (∀ (s : State) (c : ClusterId) (i : Fin 8) (b : AsmBuf), s.runs c.val = true → (s.cluster c.val).asm[i.val]? = some b → b.grans.all (fun g => g.isSome) = true → (s.cluster c.val).locked b.row = false → b.row512.1.length = 512 → b.row512.2.length = 512 → 
      ∃ t, exec (.assemblyWrite ⟨c, []⟩ i) s = .next t ∧
      (t.cluster c.val).asm = (s.cluster c.val).asm.eraseIdx i.val ∧
      (WritesMasked (s.cluster c.val).mem (t.cluster c.val).mem (512 * b.row)
      (if b.kind = 0 then b.row512.1 else addInto b.kind 512 (Mem.bytes (s.cluster c.val).mem (512 * b.row) 512) b.row512.1 b.row512.2) b.row512.2) ∧
      (∀ j, j ≠ c.val → t.cluster j = s.cluster j)) ∧
  (∀ (s : State) (c : ClusterId) (i : Fin 8) (b : AsmBuf), s.runs c.val = true → (s.cluster c.val).asm[i.val]? = some b → (s.cluster c.val).locked b.row = false → b.row512.1.length = 512 → b.row512.2.length = 512 → 
      ∃ t, exec (.assemblyIdleFlush ⟨c, []⟩ i) s = .next t ∧
      (t.cluster c.val).asm = (s.cluster c.val).asm.eraseIdx i.val ∧
      (WritesMasked (s.cluster c.val).mem (t.cluster c.val).mem (512 * b.row)
      (if b.kind = 0 then b.row512.1 else addInto b.kind 512 (Mem.bytes (s.cluster c.val).mem (512 * b.row) 512) b.row512.1 b.row512.2) b.row512.2) ∧
      (∀ j, j ≠ c.val → t.cluster j = s.cluster j)) ∧
  (∀ (s : State) (c : ClusterId) (a : Nat) (d : DEntry), s.runs c.val = true → (s.region (regionOf c.val)).sched_ = 3 → (s.region (regionOf c.val)).rd TCK_RSCHED_PARKDRAIN = 0 → s.quietRegion (regionOf c.val) false = true → d ∈ (s.cluster c.val).staging → (∀ e ∈ (s.cluster c.val).staging, e.addr = a) → a + 64 ≤ 2 ^ 21 → 
      ∃ t, exec (.daccApply ⟨c, []⟩) s = .next t ∧
      (t.cluster c.val).staging = [] ∧
      WritesMasked (s.cluster c.val).mem (t.cluster c.val).mem a
      (((s.cluster c.val).staging.foldl (fun l e => insertEntry e l) []).foldl (fun b e => addInto e.kind 64 b e.data e.mask) (Mem.bytes (s.cluster c.val).mem a 64))
      ((List.range 64).map (fun k => (s.cluster c.val).staging.any (fun e => e.mask.getD k false))) ∧
      (∀ j, j ≠ c.val → t.cluster j = s.cluster j)) ∧
  (∀ (s : State) (c : ClusterId) (v : W32), s.suppressed c.val = false → (s.region (regionOf c.val)).drainedState = true → 
      ∃ t, exec (.cmCtrlWrite c v) s = .next t ∧
      (t.cluster c.val).rd CM_CTRL_DETERM = CM_CTRL_DETERM.of v ∧
      ((t.cluster c.val).rd CM_CTRL_URGENT = (if CM_CTRL_URGENT.of v < 8 then (s.cluster c.val).rd CM_CTRL_URGENT else CM_CTRL_URGENT.of v)) ∧
      (CM_CTRL_URGENT.of v < 8 → (t.cluster c.val).rd CM_EVENT_CFG_ERR = 1) ∧
      OnlyCluster s t c.val ∧
      ClusterRegs (s.cluster c.val) (t.cluster c.val) [CM_CTRL_DETERM.off, CM_EVENT_CFG_ERR.off]) ∧
  (∀ (s : State) (c : ClusterId) (v : W32), s.suppressed c.val = false → (s.region (regionOf c.val)).drainedState = false → 
      ∃ t, exec (.cmCtrlWrite c v) s = .next t ∧
      (t.cluster c.val).rd CM_EVENT_CFG_ERR = 1 ∧
      OnlyCluster s t c.val ∧
      ClusterRegs (s.cluster c.val) (t.cluster c.val) [CM_EVENT_CFG_ERR.off]) ∧
  (∀ (s : State) (c : ClusterId) (v : W32), s.suppressed c.val = true → 
      ∃ t, exec (.cmCtrlWrite c v) s = .next t ∧
      t = s)

/-- The store port reads, writes and merges granules of a column, closes rows, scrubs, refreshes and sets the refresh mode. (from
11_deep_store_and_tables.md (R264, R265, R266, R268, R269, R270, R271)) -/
def Obligations.DeepStoreAccesses : Prop :=
  (∀ (s : State) (c : ClusterId) (i : Fin 64) (q : DsReq), (s.cluster c.val).dsq[i.val]? = some q → s.dsReady c.val i.val = true → q.write = false → q.src = 1 → rsVerify q.off (Mem.bytes (s.cluster c.val).ds (s.dsPhys c.val q.off) 64)
      (s.dsChk c.val q.off (Mem.bytes (s.cluster c.val).ds (s.dsPhys c.val q.off) 64)) = .clean → 
      ∃ t, exec (.dsGranuleRead c i []) s = .next t ∧
      (t.cluster c.val).dsq = (s.cluster c.val).dsq.eraseIdx i.val ∧
      (t.cluster c.val).tu = ((s.cluster c.val).gatherArrive q.tag (Mem.bytes (s.cluster c.val).ds (s.dsPhys c.val q.off) 64) 0).tu ∧
      (t.cluster c.val).ds = (s.cluster c.val).ds ∧
      (t.cluster c.val).tally DS_CNT_RD_CNT = ((s.cluster c.val).tally DS_CNT_RD_CNT + 1) % 2 ^ 32 ∧
      (t.region (regionOf c.val)).waits 10 = (s.region (regionOf c.val)).waits 10 + 1 ∧
      OnlyClusterEvents s t c.val) ∧
  (∀ (s : State) (c : ClusterId) (i : Fin 64) (q : DsReq), (s.cluster c.val).dsq[i.val]? = some q → s.dsReady c.val i.val = true → q.write = true → dsFull q.mask q.add = true → q.data.length = 64 → 
      ∃ t, exec (.dsGranuleWrite c i) s = .next t ∧
      (t.cluster c.val).dsq = (s.cluster c.val).dsq.eraseIdx i.val ∧
      Mem.bytes (t.cluster c.val).ds (s.dsPhys c.val q.off) 64 = q.data ∧
      (t.cluster c.val).tally DS_CNT_WR_CNT = ((s.cluster c.val).tally DS_CNT_WR_CNT + 1) % 2 ^ 32 ∧
      (t.region (regionOf c.val)).waits 10 = (s.region (regionOf c.val)).waits 10 + 1 ∧
      WritesMasked (s.cluster c.val).ds (t.cluster c.val).ds (s.dsPhys c.val q.off) q.data q.mask ∧
      OnlyClusterEvents s t c.val) ∧
  (∀ (s : State) (c : ClusterId) (i : Fin 64) (q : DsReq), (s.cluster c.val).dsq[i.val]? = some q → s.dsReady c.val i.val = true → q.write = true → q.add = 0 → dsFull q.mask q.add = false → q.data.length = 64 → q.mask.length = 64 → rsVerify q.off (Mem.bytes (s.cluster c.val).ds (s.dsPhys c.val q.off) 64)
      (s.dsChk c.val q.off (Mem.bytes (s.cluster c.val).ds (s.dsPhys c.val q.off) 64)) = .clean → 
      ∃ t, exec (.dsPartialWrite c i []) s = .next t ∧
      (t.cluster c.val).dsq = (s.cluster c.val).dsq.eraseIdx i.val ∧
      (t.cluster c.val).tally DS_CNT_RMW_CNT = ((s.cluster c.val).tally DS_CNT_RMW_CNT + 1) % 2 ^ 32 ∧
      (t.region (regionOf c.val)).waits 10 = (s.region (regionOf c.val)).waits 10 + 2 ∧
      WritesMasked (s.cluster c.val).ds (t.cluster c.val).ds (s.dsPhys c.val q.off) q.data q.mask ∧
      OnlyClusterEvents s t c.val) ∧
  (∀ (s : State) (c : ClusterId) (b : Nat), 
      ∃ t, exec (.dsRowClose c b) s = .next t ∧
      SMap.get (fun _ => 0) (t.cluster c.val).dsOpen b = 0 ∧
      (∀ k, k ≠ b → SMap.get (fun _ => 0) (t.cluster c.val).dsOpen k = SMap.get (fun _ => 0) (s.cluster c.val).dsOpen k) ∧
      OnlyCluster s t c.val ∧ { t.cluster c.val with dsOpen := (s.cluster c.val).dsOpen } = s.cluster c.val) ∧
  (∀ (s : State) (c : ClusterId), s.runs c.val = true → (s.cluster c.val).rd DS_CTRL_SCRUB_EN ≠ 0 → (s.cluster c.val).dsq = [] → (s.cluster c.val).dsBlock = 0 → rsVerify (64 * (s.cluster c.val).rd DS_SCRUB_POS_GRAN)
      (Mem.bytes (s.cluster c.val).ds (s.dsPhys c.val (64 * (s.cluster c.val).rd DS_SCRUB_POS_GRAN)) 64)
      (s.dsChk c.val (64 * (s.cluster c.val).rd DS_SCRUB_POS_GRAN)
      (Mem.bytes (s.cluster c.val).ds (s.dsPhys c.val (64 * (s.cluster c.val).rd DS_SCRUB_POS_GRAN)) 64)) = .clean → 
      ∃ t, exec (.dsScrub c []) s = .next t ∧
      (t.cluster c.val).rd DS_SCRUB_POS_GRAN = ((s.cluster c.val).rd DS_SCRUB_POS_GRAN + 1) % 0x480000 ∧
      (t.cluster c.val).ds = (s.cluster c.val).ds ∧
      OnlyClusterEvents s t c.val) ∧
  (∀ (s : State) (c : ClusterId), s.enabled c.val = true → (∀ k ∈ ([1, 3, 4] : List Nat), ((s.region (regionOf c.val)).rd PWR_STATUS_RAIL_OK).testBit k = true) → (s.region (regionOf c.val)).power ≠ 4 → 
      ∃ t, exec (.dsRefresh c) s = .next t ∧
      (t.cluster c.val).dsOpen = [] ∧
      (t.cluster c.val).dsAct = [] ∧
      (t.region (regionOf c.val)).waits 12 = (s.region (regionOf c.val)).waits 12 + 1 ∧
      ((∀ j, j ≠ c.val → t.cluster j = s.cluster j) ∧ ∀ k, k ≠ regionOf c.val → t.region k = s.region k) ∧
      ((t.cluster c.val).dsBlock = (if (s.region (regionOf c.val)).rd TRC_CTRL_HALF = 1 then 350 else 700)) ∧
      { t.cluster c.val with dsOpen := (s.cluster c.val).dsOpen, dsAct := (s.cluster c.val).dsAct, dsBlock := (s.cluster c.val).dsBlock } = s.cluster c.val) ∧
  (∀ (s : State) (r : RegionId) (a b c d : Nat), a < 256 → b < 256 → c < 256 → d < 256 → 
      ∃ t, exec (.storeSensorConversion r [some a, some b, some c, some d]) s = .next t ∧
      (t.region r.val).rd THM_STORE_W0 = a ∧
      (t.region r.val).rd THM_STORE_W1 = b ∧
      (t.region r.val).rd THM_STORE_W2 = c ∧
      (t.region r.val).rd THM_STORE_W3 = d ∧
      (t.region r.val).rd DS_RREF_STATUS_TEMP = max (max a b) (max c d) ∧
      (t.region r.val).rd DS_RREF_STATUS_SENSOR_ERR = 0 ∧
      (max (max a b) (max c d) ≤ 82 → (t.region r.val).rd DS_RREF_STATUS_MODE = 0) ∧
      (85 < max (max a b) (max c d) → max (max a b) (max c d) ≤ 92 → (t.region r.val).rd DS_RREF_STATUS_MODE = 1) ∧
      (95 < max (max a b) (max c d) → (t.region r.val).rd DS_RREF_STATUS_MODE = 2 ∧ ((s.region r.val).rd DS_RREF_STATUS_MODE ≠ 2 → Pends t 3)) ∧
      (∀ k, k ≠ r.val → t.region k = s.region k))

/-- Jobs reach the table unit by the doorbell or token by token, completions leave against a credit, the window and the commit act. (from
11_deep_store_and_tables.md (R278, R280, R282, R288, R291)) The model's choices, no rule's: that a ring-form job takes its IDs one by one as the
lookup has done with the one before, and what becomes of a malformed job in progress (assumption log entry 16). -/
def Obligations.TableUnitPorts : Prop :=
  (∀ (s : State) (c : ClusterId) (a b : W64), hasTu c.val = true → s.runs c.val = true → (s.cluster c.val).doorbells < 16 → 
      ∃ t, exec (.tuDoorbell c a b) s = .next t ∧
      (t.cluster c.val).tu = { (s.cluster c.val).tu with
      doorbell := (s.cluster c.val).tu.doorbell ++ [(a, b, (s.region (regionOf c.val)).rd TCK_RSCHED_EPOCH)] } ∧
      OnlyClusterRegion s t c.val (regionOf c.val) ∧
      { t.cluster c.val with tu := (s.cluster c.val).tu } = s.cluster c.val) ∧
  (∀ (s : State) (c : ClusterId) (q : Fin 8) (k : Tok) (rest : List Tok), s.runs c.val = true → ((s.cluster c.val).tu.queue q.val).full = false → ((s.cluster c.val).tu.queue q.val).discard = false → ((s.cluster c.val).tu.queue q.val).toks = k :: rest → (s.cluster c.val).tu.jobs = [] → ((s.cluster c.val).tu.queue q.val).words = [] → k.epoch = (s.region (regionOf c.val)).rd TCK_RSCHED_EPOCH → k.tag = .data → 
      ∃ t, exec (.tuJobToken c q) s = .next t ∧
      (t.cluster c.val).tu.queue q.val = ⟨rest, [k], false, false⟩ ∧
      OnlyCluster s t c.val ∧
      (∀ j, j ≠ q.val → (t.cluster c.val).tu.queue j = (s.cluster c.val).tu.queue j)) ∧
  (∀ (s : State) (c : ClusterId) (q : Fin 8) (k w : Tok) (rest : List Tok), s.runs c.val = true → ((s.cluster c.val).tu.queue q.val).full = false → ((s.cluster c.val).tu.queue q.val).discard = false → ((s.cluster c.val).tu.queue q.val).toks = k :: rest → (s.cluster c.val).tu.jobs = [] → ((s.cluster c.val).tu.queue q.val).words = [w] → k.epoch = w.epoch → k.tag = .data → 
      ∃ t, exec (.tuJobToken c q) s = .next t ∧
      (t.cluster c.val).tu.queue q.val = ⟨rest, [w, k], true, false⟩ ∧
      OnlyCluster s t c.val ∧
      (∀ j, j ≠ q.val → (t.cluster c.val).tu.queue j = (s.cluster c.val).tu.queue j)) ∧
  (∀ (s : State) (c : ClusterId) (q : Fin 8) (k w : Tok) (rest : List Tok), s.runs c.val = true → ((s.cluster c.val).tu.queue q.val).full = false → ((s.cluster c.val).tu.queue q.val).discard = false → ((s.cluster c.val).tu.queue q.val).toks = k :: rest → (s.cluster c.val).tu.jobs = [] → ((s.cluster c.val).tu.queue q.val).words = [w] → (k.epoch ≠ w.epoch ∨ k.tag ≠ .data) → 
      ∃ t, exec (.tuJobToken c q) s = .next t ∧
      (t.cluster c.val).tu.queue q.val = ⟨rest, [], false, k.tag != .mark⟩ ∧
      (t.cluster c.val).rd TU_EVENT_MALFORMED = 1 ∧
      (t.cluster c.val).rd TU_CNT_MALFORM_CNT = ((s.cluster c.val).rd TU_CNT_MALFORM_CNT + 1) % 2 ^ 32 ∧
      OnlyCluster s t c.val) ∧
  (∀ (s : State) (c : ClusterId) (q : Fin 8) (k : Tok) (rest : List Tok) (j : TuJob), s.runs c.val = true → ((s.cluster c.val).tu.queue q.val).full = false → ((s.cluster c.val).tu.queue q.val).discard = false → ((s.cluster c.val).tu.queue q.val).toks = k :: rest → (s.cluster c.val).tu.jobs = [j] → j.src = q.val → 0 < j.left → j.stale = false → j.status = 0 → j.todo = [] → k.epoch = j.epoch → k.tag = .data → (j.opc ≠ 1 ∨ (s.cluster c.val).groupReady { j with todo := [(j.nb - j.left, k.data, k.poison)] } = none) → 
      ∃ t, exec (.tuJobToken c q) s = .next t ∧
      (t.cluster c.val).tu.jobs = [{ j with todo := [(j.nb - j.left, k.data, k.poison)] }] ∧
      ((t.cluster c.val).tu.queue q.val).toks = rest ∧
      OnlyCluster s t c.val ∧ (t.cluster c.val).mem = (s.cluster c.val).mem) ∧
  (∀ (s : State) (c : ClusterId) (q : Fin 8) (k : Tok) (rest : List Tok) (j : TuJob), s.runs c.val = true → ((s.cluster c.val).tu.queue q.val).full = false → ((s.cluster c.val).tu.queue q.val).discard = false → ((s.cluster c.val).tu.queue q.val).toks = k :: rest → (s.cluster c.val).tu.jobs = [j] → j.src = q.val → 1 < j.left → j.stale = false → j.todo = [] → k.epoch = j.epoch → k.tag = .last → (j.opc ≠ 1 ∨ (s.cluster c.val).groupReady { j with left := j.left - 1 } = none) → 
      ∃ t, exec (.tuJobToken c q) s = .next t ∧
      (t.cluster c.val).tu.jobs = [{ j with left := j.left - 1 }] ∧
      ((t.cluster c.val).tu.queue q.val).toks = rest ∧
      OnlyCluster s t c.val ∧ (t.cluster c.val).mem = (s.cluster c.val).mem) ∧
  (∀ (s : State) (c : ClusterId) (q : Fin 8) (k : Tok) (rest : List Tok) (j : TuJob), s.runs c.val = true → ((s.cluster c.val).tu.queue q.val).full = false → ((s.cluster c.val).tu.queue q.val).discard = false → ((s.cluster c.val).tu.queue q.val).toks = k :: rest → (s.cluster c.val).tu.jobs = [j] → j.src = q.val → 0 < j.left → k.tag = .mark → 
      ∃ t, exec (.tuJobToken c q) s = .next t ∧
      (t.cluster c.val).tu.queue q.val = ⟨rest, [], false, false⟩ ∧
      (t.cluster c.val).rd TU_EVENT_MALFORMED = 1 ∧
      (t.cluster c.val).rd TU_CNT_MALFORM_CNT = ((s.cluster c.val).rd TU_CNT_MALFORM_CNT + 1) % 2 ^ 32 ∧
      (∀ x ∈ (t.cluster c.val).tu.jobs, x.stale = true ∧ x.todo = [] ∧ x.left = 0) ∧
      OnlyCluster s t c.val ∧ (t.cluster c.val).mem = (s.cluster c.val).mem) ∧
  (∀ (s : State) (c : ClusterId) (b : Fin 8) (d : TuDone) (rest : List TuDone), s.runs c.val = true → takeFirst (fun (k : TuDone) => k.cbind == b.val) (s.cluster c.val).tu.done = some (d, rest) → (s.cluster c.val).rd (TU_CBIND_CREDITS.nth b.val) ≠ 0 → 
      ∃ t, exec (.tuCompletionSend c b) s = .next t ∧
      (t.cluster c.val).tu.done = rest ∧
      (t.cluster c.val).rd (TU_CBIND_CREDITS.nth b.val) = (s.cluster c.val).rd (TU_CBIND_CREDITS.nth b.val) - 1 ∧
      (((t.cluster c.val).waiting 35 0).getLast?.map (fun u => (u.dst, u.queue, u.tok)) = some ((s.cluster c.val).rd (TU_CBIND_ELEM.nth b.val),
      (s.cluster c.val).rd (TU_CBIND_QUEUE.nth b.val),
      ⟨BitVec.ofNat 64 (d.tag + d.status * 2 ^ 16 + (if d.dense then 2 ^ 20 else 0) + d.count * 2 ^ 32), .data, d.epoch, false⟩)) ∧
      OnlyCluster s t c.val) ∧
  (∀ (s : State) (c : ClusterId), hasTu c.val = true → s.suppressed c.val = false → 
      ∃ t, exec (.tuCommitGo c) s = .next t ∧
      (t.cluster c.val).tu.commit = true ∧
      OnlyCluster s t c.val ∧
      { t.cluster c.val with tu := { (t.cluster c.val).tu with commit := (s.cluster c.val).tu.commit } } = s.cluster c.val) ∧
  (∀ (s : State) (c : ClusterId), s.suppressed c.val = false → (s.cluster c.val).tu.commit = true → (s.cluster c.val).tu.jobs = [] → (s.cluster c.val).tu.gathers = [] → (s.cluster c.val).rd TU_IDX_SIZE ≤ 4 → (s.cluster c.val).rd TU_IDX_SLOTG ∈ [1, 2, 4, 8] → (s.cluster c.val).rd TU_IDX_CACHE_ROW + 1024 * 2 ^ (s.cluster c.val).rd TU_IDX_SIZE * (s.cluster c.val).rd TU_IDX_SLOTG / 8 ≤ 4096 → 
      ∃ t, exec (.tuCommitApply c) s = .next t ∧
      (t.cluster c.val).rd TU_IDX_ACTIVE_SIZE = (s.cluster c.val).rd TU_IDX_SIZE ∧
      (t.cluster c.val).rd TU_IDX_ACTIVE_SLOTG = (s.cluster c.val).rd TU_IDX_SLOTG ∧
      (t.cluster c.val).rd TU_IDX_ACTIVE_CACHE_ROW = (s.cluster c.val).rd TU_IDX_CACHE_ROW ∧
      (t.cluster c.val).rd TU_HASH_ACTIVE_SEED = (s.cluster c.val).rd TU_HASH_SEED ∧
      (t.cluster c.val).tu.index = [] ∧
      (t.cluster c.val).tu.commit = false ∧
      OnlyCluster s t c.val) ∧
  (∀ (s : State) (c : ClusterId), s.suppressed c.val = false → (s.cluster c.val).tu.commit = true → (s.cluster c.val).tu.jobs = [] → (s.cluster c.val).tu.gathers = [] → (4 < (s.cluster c.val).rd TU_IDX_SIZE ∨ (s.cluster c.val).rd TU_IDX_SLOTG ∉ [1, 2, 4, 8] ∨
      4096 < (s.cluster c.val).rd TU_IDX_CACHE_ROW + 1024 * 2 ^ (s.cluster c.val).rd TU_IDX_SIZE * (s.cluster c.val).rd TU_IDX_SLOTG / 8) → 
      ∃ t, exec (.tuCommitApply c) s = .next t ∧
      (t.cluster c.val).rd TU_IDX_SIZE = (s.cluster c.val).rd TU_IDX_ACTIVE_SIZE ∧
      (t.cluster c.val).rd TU_HASH_SEED = (s.cluster c.val).rd TU_HASH_ACTIVE_SEED ∧
      (t.cluster c.val).rd TU_EVENT_CFG_ERR = 1 ∧
      (t.cluster c.val).tu.index = (s.cluster c.val).tu.index ∧
      (t.cluster c.val).tu.commit = false ∧
      OnlyCluster s t c.val) ∧
  (∀ (s : State) (c : ClusterId) (v : W32), hasTu c.val = true → s.suppressed c.val = false → 
      ∃ t, exec (.tuIdxSelWrite c v) s = .next t ∧
      (t.cluster c.val).rd TU_IDX_SEL_ENTRY = TU_IDX_SEL_ENTRY.of v ∧
      ((t.cluster c.val).rd TU_IDX_FLAGS_VALID = (if ((s.cluster c.val).tu.entry (TU_IDX_SEL_ENTRY.of v)).valid then 1 else 0)) ∧
      (t.cluster c.val).rd TU_IDX_TAG_ID = ((s.cluster c.val).tu.entry (TU_IDX_SEL_ENTRY.of v)).id % 2 ^ 32 ∧
      (t.cluster c.val).tu = (s.cluster c.val).tu ∧
      OnlyCluster s t c.val) ∧
  (∀ (s : State) (c : ClusterId) (v : W32), hasTu c.val = true → s.suppressed c.val = false → (s.cluster c.val).tu.jobs = [] → (s.cluster c.val).tu.commit = false → (s.cluster c.val).rd TU_IDX_SEL_ENTRY < 1024 * 2 ^ (s.cluster c.val).rd TU_IDX_ACTIVE_SIZE → 
      ∃ t, exec (.tuIdxFlagsWrite c v) s = .next t ∧
      (t.cluster c.val).tu.entry ((s.cluster c.val).rd TU_IDX_SEL_ENTRY) = ⟨TU_IDX_FLAGS_TABLE.of v, (s.cluster c.val).rd TU_IDX_TAG_ID,
      TU_IDX_FLAGS_VALID.of v == 1, TU_IDX_FLAGS_PIN.of v == 1, TU_IDX_FLAGS_KIND.of v == 1, false,
      (s.cluster c.val).rd TU_IDX_RD_LO_ADDR_LO + 2 ^ 32 * (s.cluster c.val).rd TU_IDX_RD_HI_ADDR_HI, (s.cluster c.val).tu.clock⟩ ∧
      (∀ e, e ≠ (s.cluster c.val).rd TU_IDX_SEL_ENTRY → (t.cluster c.val).tu.entry e = (s.cluster c.val).tu.entry e) ∧
      OnlyCluster s t c.val) ∧
  (∀ (s : State) (c : ClusterId) (v : W32), hasTu c.val = true → s.suppressed c.val = false → ((s.cluster c.val).tu.jobs ≠ [] ∨ (s.cluster c.val).tu.commit = true) → 
      ∃ t, exec (.tuIdxFlagsWrite c v) s = .next t ∧
      (t.cluster c.val).rd TU_EVENT_CFG_ERR = 1 ∧
      (t.cluster c.val).tu = (s.cluster c.val).tu ∧
      OnlyCluster s t c.val ∧
      ClusterRegs (s.cluster c.val) (t.cluster c.val) [TU_EVENT_CFG_ERR.off]) ∧
  (∀ (s : State) (c : ClusterId) (v : W32), s.suppressed c.val = true → 
      ∀ i ∈ [Instr.tuCommitGo c, Instr.tuCommitApply c, Instr.tuIdxSelWrite c v, Instr.tuIdxFlagsWrite c v], exec i s = .next s)

/-- NOP, BAG, INSERT, EVICT and FLUSH start from the source due, do their work on the index and the store, and complete. (from 11_deep_store_and_tables.md
(R273, R276, R278, R279, R281, R282, R283, R284)) The model's choice, no rule's: that TU_CNT_REJ counts jobs that fail a check, and a completion
without a valid binding, TU_CNT_JOBS the others, and TU_CNT_EVICT what EVICT invalidates (assumption log entry 16). -/
def Obligations.TableUnitJobs : Prop :=
  (∀ (s : State) (c : ClusterId) (src : Fin 9) (j : TuJob) (ts : List Tok), s.runs c.val = true → (s.cluster c.val).tu.jobs = [] → (s.cluster c.val).tu.gathers = [] → (s.cluster c.val).tu.commit = false → (s.cluster c.val).tu.nextSource 9 (s.cluster c.val).tu.rr = some src.val → (s.cluster c.val).tu.front src.val = some (j, ts) → j.opc = 0 → (s.cluster c.val).tuCheck j = 0 → ts.any (fun k => k.poison) = false → 
      ∃ t, exec (.tuNop c src) s = .next t ∧
      (t.cluster c.val).tu.jobs = [] ∧
      (t.cluster c.val).tu.rr = (src.val + 1) % 9 ∧
      (t.cluster c.val).tally TU_CNT_JOBS_CNT = ((s.cluster c.val).tally TU_CNT_JOBS_CNT + 1) % 2 ^ 32 ∧
      (j.cen = false → (t.cluster c.val).tu.done = (s.cluster c.val).tu.done) ∧
      (j.cen = true → j.epoch = (s.region (regionOf c.val)).rd TCK_RSCHED_EPOCH → (s.cluster c.val).rd (TU_CBIND_VALID.nth j.cbind) ≠ 0 →
      (t.cluster c.val).tu.done = (s.cluster c.val).tu.done ++ [⟨j.tag, 0, false, 0, j.cbind, true, j.epoch⟩]) ∧
      OnlyCluster s t c.val ∧ (t.cluster c.val).mem = (s.cluster c.val).mem ∧ (t.cluster c.val).tu.index = (s.cluster c.val).tu.index) ∧
  (∀ (s : State) (c : ClusterId) (src : Fin 9) (j : TuJob) (ts : List Tok) (u : List Nat), s.runs c.val = true → (s.cluster c.val).tu.jobs = [] → (s.cluster c.val).tu.gathers = [] → (s.cluster c.val).tu.commit = false → (s.cluster c.val).tu.nextSource 9 (s.cluster c.val).tu.rr = some src.val → (s.cluster c.val).tu.front src.val = some (j, ts) → j.opc = 1 → (s.cluster c.val).tuCheck j ≠ 0 → j.left = 0 → 
      ∃ t, exec (.tuBag c src u) s = .next t ∧
      (t.cluster c.val).tu.jobs = [] ∧
      (t.cluster c.val).rd TU_ERR_TAG_STATUS = (s.cluster c.val).tuCheck j ∧
      (t.cluster c.val).rd TU_ERR_TAG_TAG = j.tag ∧
      (t.cluster c.val).rd TU_EVENT_JOB_ERR = 1 ∧
      ((t.cluster c.val).tally TU_CNT_REJ_CNT = ((s.cluster c.val).tally TU_CNT_REJ_CNT +
      (if j.cen = true ∧ j.epoch = (s.region (regionOf c.val)).rd TCK_RSCHED_EPOCH ∧ (s.cluster c.val).rd (TU_CBIND_VALID.nth j.cbind) = 0 then 2 else 1)) % 2 ^ 32) ∧
      OnlyCluster s t c.val ∧ (t.cluster c.val).mem = (s.cluster c.val).mem ∧ (t.cluster c.val).tu.index = (s.cluster c.val).tu.index) ∧
  (∀ (s : State) (c : ClusterId) (src : Fin 9) (j : TuJob) (a b : Tok), s.runs c.val = true → (s.cluster c.val).tu.jobs = [] → (s.cluster c.val).tu.commit = false → (s.cluster c.val).tu.nextSource 9 (s.cluster c.val).tu.rr = some src.val → (s.cluster c.val).tu.front src.val = some (j, [a, b]) → j.opc = 1 → j.list = false → (s.cluster c.val).tuCheck j = 0 → a.poison = false → b.poison = false → 
      ∃ t, exec (.tuBag c src []) s = .next t ∧
      (t.cluster c.val).tu.jobs = [{ j with bags := List.replicate j.nb ⟨[], 0, false⟩ }] ∧
      j.left = j.nb ∧
      (t.cluster c.val).tu.rr = (src.val + 1) % 9 ∧
      ((t.cluster c.val).tu.queue src.val).words = [] ∧
      ((t.cluster c.val).tu.queue src.val).full = false ∧
      OnlyCluster s t c.val ∧ (t.cluster c.val).mem = (s.cluster c.val).mem ∧ (t.cluster c.val).tu.index = (s.cluster c.val).tu.index) ∧
  (∀ (s : State) (c : ClusterId) (src : Fin 9) (j : TuJob) (id : W64) (b0 : Bag), s.runs c.val = true → (s.cluster c.val).tu.jobs = [j] → (s.cluster c.val).tu.gathers = [] → j.src = src.val → j.opc = 1 → j.stale = false → j.todo = [(0, id, false)] → j.nb = 1 → j.bags = [b0] → (s.cluster c.val).lookupRoom j 0 = true → (s.cluster c.val).dsq = [] → id.toNat / 2 ^ 32 % 2 ^ 16 = 0 → (s.cluster c.val).badId j.table (id.toNat % 2 ^ 32) = false → (s.cluster c.val).tabGran j.table = 1 → (s.cluster c.val).rd TU_CTRL_POLICY ≠ 1 → (s.cluster c.val).findEntry j.table (id.toNat % 2 ^ 32) = none → (s.cluster c.val).homeXY j.table (id.toNat % 2 ^ 32) = (cx c.val, cy c.val) → (s.cluster c.val).homeOff j.table (id.toNat % 2 ^ 32) % 64 = 0 → 
      ∃ t, exec (.tuBag c src []) s = .next t ∧
      (t.cluster c.val).dsq.map (fun q => (q.src, q.write, q.off)) = [(1, false, (s.cluster c.val).homeOff j.table (id.toNat % 2 ^ 32))] ∧
      (t.cluster c.val).tu.gathers.map (fun g => (g.job, g.bag, g.gran, g.weight.toNat, g.fill.isNone, g.arrived)) =
      [(j.serial, 0, 0, id.toNat / 2 ^ 48 * 2 ^ 16, true, false)] ∧
      (t.cluster c.val).tu.jobs = [{ j with todo := [], pos := j.pos + 1, bags := [{ b0 with pooled := b0.pooled + 1 }] }] ∧
      (t.cluster c.val).tally TU_CNT_LOOKUP_CNT = ((s.cluster c.val).tally TU_CNT_LOOKUP_CNT + 1) % 2 ^ 32 ∧
      (t.cluster c.val).tally TU_CNT_MISS_CNT = ((s.cluster c.val).tally TU_CNT_MISS_CNT + 1) % 2 ^ 32 ∧
      (t.region (regionOf c.val)).waits 11 = (s.region (regionOf c.val)).waits 11 + 1 ∧
      OnlyClusterEvents s t c.val ∧ (t.cluster c.val).mem = (s.cluster c.val).mem ∧ (t.cluster c.val).tu.index = (s.cluster c.val).tu.index) ∧
  (∀ (s : State) (c : ClusterId) (src : Fin 9) (j : TuJob) (id : W64) (e : Nat), s.runs c.val = true → (s.cluster c.val).tu.jobs = [j] → (s.cluster c.val).tu.gathers = [] → j.src = src.val → j.opc = 2 → j.stale = false → j.todo = [(0, id, false)] → j.left = 0 → (s.cluster c.val).lookupRoom j 0 = true → id.toNat / 2 ^ 32 % 2 ^ 16 = 0 → (s.cluster c.val).badId j.table (id.toNat % 2 ^ 32) = false → (s.cluster c.val).findEntry j.table (id.toNat % 2 ^ 32) = some e → 
      ∃ t, exec (.tuInsert c src) s = .next t ∧
      (t.cluster c.val).tu.entry e = { (s.cluster c.val).tu.entry e with pin := true } ∧
      (t.cluster c.val).tu.jobs = [] ∧
      (t.cluster c.val).tu.gathers = [] ∧
      (t.cluster c.val).dsq = (s.cluster c.val).dsq ∧
      (OnlyClusterEvents s t c.val ∧ ∀ k, k ≠ e → (t.cluster c.val).tu.entry k = (s.cluster c.val).tu.entry k)) ∧
  (∀ (s : State) (c : ClusterId) (src : Fin 9) (j : TuJob) (id : W64) (e : Nat), s.runs c.val = true → (s.cluster c.val).tu.jobs = [j] → (s.cluster c.val).tu.gathers = [] → j.src = src.val → j.opc = 2 → j.stale = false → j.todo = [(0, id, false)] → (s.cluster c.val).lookupRoom j 0 = true → (s.cluster c.val).dsq = [] → id.toNat / 2 ^ 32 % 2 ^ 16 = 0 → (s.cluster c.val).badId j.table (id.toNat % 2 ^ 32) = false → (s.cluster c.val).tabGran j.table = 1 → (s.cluster c.val).findEntry j.table (id.toNat % 2 ^ 32) = none → (s.cluster c.val).victim j.table (id.toNat % 2 ^ 32) = some e → (s.cluster c.val).homeXY j.table (id.toNat % 2 ^ 32) = (cx c.val, cy c.val) → (s.cluster c.val).homeOff j.table (id.toNat % 2 ^ 32) % 64 = 0 → 
      ∃ t, exec (.tuInsert c src) s = .next t ∧
      (t.cluster c.val).tu.entry e = ⟨j.table, id.toNat % 2 ^ 32, true, true, false, true, 0, (s.cluster c.val).tu.clock⟩ ∧
      (t.cluster c.val).dsq.map (fun q => (q.src, q.write, q.off)) = [(1, false, (s.cluster c.val).homeOff j.table (id.toNat % 2 ^ 32))] ∧
      (t.cluster c.val).tu.jobs = [{ j with todo := [], pos := j.pos + 1, changed := j.changed + 1 }] ∧
      (t.cluster c.val).tally TU_CNT_INSERT_CNT = ((s.cluster c.val).tally TU_CNT_INSERT_CNT + 1) % 2 ^ 32 ∧
      (OnlyClusterEvents s t c.val ∧ ∀ k, k ≠ e → (t.cluster c.val).tu.entry k = (s.cluster c.val).tu.entry k)) ∧
  (∀ (s : State) (c : ClusterId) (src : Fin 9) (j : TuJob) (id : W64) (e : Nat), s.runs c.val = true → (s.cluster c.val).tu.jobs = [j] → (s.cluster c.val).tu.gathers = [] → j.src = src.val → j.opc = 3 → j.stale = false → j.todo = [(0, id, false)] → j.left = 0 → id.toNat / 2 ^ 32 % 2 ^ 16 = 0 → (s.cluster c.val).badId j.table (id.toNat % 2 ^ 32) = false → (s.cluster c.val).findEntry j.table (id.toNat % 2 ^ 32) = some e → ((s.cluster c.val).tu.entry e).fill = false → 
      ∃ t, exec (.tuEvict c src) s = .next t ∧
      (t.cluster c.val).tu.entry e = IdxEntry.reset ∧
      (t.cluster c.val).tu.jobs = [] ∧
      (t.cluster c.val).tally TU_CNT_EVICT_CNT = ((s.cluster c.val).tally TU_CNT_EVICT_CNT + 1) % 2 ^ 32 ∧
      (OnlyClusterEvents s t c.val ∧ ∀ k, k ≠ e → (t.cluster c.val).tu.entry k = (s.cluster c.val).tu.entry k)) ∧
  (∀ (s : State) (c : ClusterId) (src : Fin 9) (j : TuJob) (ts : List Tok), s.runs c.val = true → (s.cluster c.val).tu.jobs = [] → (s.cluster c.val).tu.gathers = [] → (s.cluster c.val).tu.commit = false → (s.cluster c.val).tu.nextSource 9 (s.cluster c.val).tu.rr = some src.val → (s.cluster c.val).tu.front src.val = some (j, ts) → j.opc = 4 → (s.cluster c.val).tuCheck j = 0 → ts.any (fun k => k.poison) = false → (s.cluster c.val).tu.index.any (fun p => p.2.fill) = false → 
      ∃ t, exec (.tuFlush c src) s = .next t ∧
      (t.cluster c.val).tu.index = [] ∧
      (t.cluster c.val).tu.jobs = [] ∧
      (t.cluster c.val).tally TU_CNT_JOBS_CNT = ((s.cluster c.val).tally TU_CNT_JOBS_CNT + 1) % 2 ^ 32 ∧
      OnlyCluster s t c.val ∧ (t.cluster c.val).mem = (s.cluster c.val).mem) ∧
  (∀ (s : State) (c : ClusterId) (j : TuJob) (g k : Gather), s.runs c.val = true → (s.cluster c.val).tu.jobs = [j] → (s.cluster c.val).tu.gathers = [g, k] → j.opc = 1 → j.stale = false → j.nb ≤ 16 → g.bag < j.nb → g.job = j.serial → k.job = j.serial → k.bag = g.bag → k.serial ≠ g.serial → k.pooled = false → g.arrived = true → g.pooled = false → g.fill = none → g.pool = true → g.status = 0 → (s.cluster c.val).inOrder j g = true → 
      ∃ t, exec (.tuGranuleArrival c 0) s = .next t ∧
      (t.cluster c.val).tu.jobs = [j.poolIn ((s.cluster c.val).tabFmt j.table) ((s.cluster c.val).tabElems j.table) g] ∧
      (t.cluster c.val).tu.gathers = [k] ∧
      (t.cluster c.val).tally TU_CNT_GRAN_CNT = ((s.cluster c.val).tally TU_CNT_GRAN_CNT + 1) % 2 ^ 32 ∧
      OnlyCluster s t c.val ∧ (t.cluster c.val).mem = (s.cluster c.val).mem)

/-- A router delivers a packet at its destination or moves it one hop on a productive output, never losing or copying it. (from 12_wafer_mesh.md (R299,
R302, R304, R309)) -/
def Obligations.RoutersMoveOnePacket : Prop :=
  (∀ (s : State) (c : ClusterId) (pl : Fin 2) (d : Fin 4) (p : Pkt), s.opaqueRouter c.val = false → (s.region (regionOf c.val)).hole = false → (s.cluster c.val).input pl.val d.val = [p] → (∀ k ∈ List.range 5, k ≠ d.val → (s.cluster c.val).input pl.val k = []) → isCrossing c.val d.val = false → s.nextLocal c.val pl.val = none → p.mcast = false → p.dmod = s.modId → p.age < 65535 → cidx p.dx p.dy = c.val → p.opc ∈ [2, 7, 8, 9, 12] → 
      ∃ t, exec (.routerArbitrate c pl [] []) s = .next t ∧
      (t.cluster c.val).arrivals = (s.cluster c.val).arrivals ++ [{ p with age := min 65535 (p.age + 1) }] ∧
      (t.cluster c.val).input pl.val d.val = [] ∧
      (t.cluster c.val).tally MSH_CNT_EJ_CNT = ((s.cluster c.val).tally MSH_CNT_EJ_CNT + 1) % 2 ^ 32 ∧
      OnlyCluster s t c.val) ∧
  (∀ (s : State) (c : ClusterId) (pl : Fin 2) (d : Fin 4) (p : Pkt) (k n : Nat) (rest : List Nat), s.opaqueRouter c.val = false → (s.region (regionOf c.val)).hole = false → (s.region (regionOf c.val)).holes = [] → (s.cluster c.val).input pl.val d.val = [p] → (∀ k ∈ List.range 5, k ≠ d.val → (s.cluster c.val).input pl.val k = []) → isCrossing c.val d.val = false → s.nextLocal c.val pl.val = none → p.mcast = false → p.dmod = s.modId → p.age < 65535 → cidx p.dx p.dy ≠ c.val → productive c.val (cidx p.dx p.dy) = k :: rest → s.outFree c.val pl.val k = true → neighbour c.val k = some n → 
      ∃ t, exec (.routerArbitrate c pl [] []) s = .next t ∧
      (t.cluster n).input pl.val (opposite k) = (s.cluster n).input pl.val (opposite k) ++ [{ p with age := min 65535 (p.age + 1) }] ∧
      (t.cluster c.val).input pl.val d.val = [] ∧
      (t.cluster c.val).arrivals = (s.cluster c.val).arrivals ∧
      (isCrossing c.val k = true → (t.cluster c.val).xcredit pl.val k = (s.cluster c.val).xcredit pl.val k - 1) ∧
      (t.cluster c.val).tally MSH_CNT_FWD_CNT = ((s.cluster c.val).tally MSH_CNT_FWD_CNT + 1) % 2 ^ 32 ∧
      ({ t with clusters := s.clusters } = s ∧ ∀ j, j ≠ c.val → j ≠ n → t.cluster j = s.cluster j)) ∧
  (∀ (s : State) (c : ClusterId) (pl : Fin 2) (d : Fin 4) (n : Nat), neighbour c.val d.val = some n → isCrossing c.val d.val = true → (s.cluster c.val).xcredit pl.val d.val + ((s.cluster n).input pl.val (opposite d.val)).length < 8 → 
      ∃ t, exec (.crossingCredit c pl d) s = .next t ∧
      (t.cluster c.val).xcredit pl.val d.val = (s.cluster c.val).xcredit pl.val d.val + 1 ∧
      OnlyCluster s t c.val ∧ { t.cluster c.val with xcred := (s.cluster c.val).xcred } = s.cluster c.val)

/-- A packet of full age becomes a NAK, a stream that waits too long is lost, and a dead crossing reaches every hole map. (from 12_wafer_mesh.md (R303,
R309, R310), 14_faults_and_collimation.md (R353, R355, R366)) -/
def Obligations.PacketsLostAndHoles : Prop :=
  (∀ (s : State) (c : ClusterId) (pl : Fin 2) (d : Fin 5) (n : Nat) (p : Pkt), ((s.cluster c.val).input pl.val d.val)[n]? = some p → d.val ≠ 4 → 65535 ≤ p.age → 
      ∃ t, exec (.packetAgeOut c (.router pl d n)) s = .next t ∧
      (t.cluster c.val).input pl.val d.val = ((s.cluster c.val).input pl.val d.val).eraseIdx n ∧
      (t.cluster c.val).rd MSH_CNT_LOST_CNT = ((s.cluster c.val).rd MSH_CNT_LOST_CNT + 1) % 2 ^ 32 ∧
      (t.cluster c.val).rd MSH_EVENT_LOST = 1 ∧
      Logged s t 10 (regionOf c.val) ∧
      t.dome.degPend = s.dome.degPend ++ [(10, regionOf c.val)] ∧
      Pends t 8 ∧
      (p.smod = s.modId → ([0, 1] : List Nat).any (fun l => decide (((t.cluster c.val).input l 4).map (fun q => [q.opc, q.dmod, q.dy, q.dx, q.dep, q.chan, (q.pay.headD 0).toNat]) =
      ((s.cluster c.val).input l 4).map (fun q => [q.opc, q.dmod, q.dy, q.dx, q.dep, q.chan, (q.pay.headD 0).toNat]) ++ [[9, p.smod, p.sy, p.sx, p.sep, 7, 3]])) = true) ∧
      (∀ j, j ≠ c.val → t.cluster j = s.cluster j)) ∧
  (∀ (s : State) (c : ClusterId) (n : Nat) (r : RecvStream), (s.cluster c.val).te.recv[n]? = some r → r.pool.any (fun p => decide (65535 ≤ p.age)) = true → 
      ∃ t, exec (.packetAgeOut c (.pool n)) s = .next t ∧
      ((t.cluster c.val).te.recv[n]?).map (fun q => (q.pool, q.absorb, q.landing)) = some ([], true, r.landing.map (fun l => { l with status := 10 })) ∧
      (t.cluster c.val).rd TE_EVENT_LOST = 1 ∧
      Logged s t 10 (regionOf c.val) ∧
      (∀ j, j ≠ c.val → t.cluster j = s.cluster j)) ∧
  (∀ (s : State) (c : ClusterId) (n : Nat) (r : RecvStream), (s.cluster c.val).te.recv[n]? = some r → r.pool ≠ [] → 
      ∃ t, exec (.poolGapTimeout c n) s = .next t ∧
      ((t.cluster c.val).te.recv[n]?).map (fun q => (q.pool, q.absorb, q.landing)) = some ([], true, r.landing.map (fun l => { l with status := 10 })) ∧
      (t.cluster c.val).rd TE_CNT_LOST_CNT = ((s.cluster c.val).rd TE_CNT_LOST_CNT + 1) % 2 ^ 32 ∧
      (t.cluster c.val).rd TE_EVENT_LOST = 1 ∧
      Logged s t 10 (regionOf c.val) ∧
      Pends t 8 ∧
      (∀ j, j ≠ c.val → t.cluster j = s.cluster j)) ∧
  (∀ (s : State) (c : ClusterId) (d : Fin 4) (n : Nat), neighbour c.val d.val = some n → isCrossing c.val d.val = true → (s.region (regionOf n)).hole = true → 
      ∃ t, exec (.crossingDead c d) s = .next t ∧
      (t.cluster c.val).rd MSH_STATUS_DEAD = (s.cluster c.val).rd MSH_STATUS_DEAD ||| 2 ^ d.val ∧
      (t.cluster c.val).rd MSH_EVENT_DEAD = 1 ∧
      t.dome.holes.contains (8960 + regionOf n) = true ∧
      (t.dome.holeGen = (if s.dome.holes.contains (8960 + regionOf n) then s.dome.holeGen else s.dome.holeGen + 1)) ∧
      (t.regions = s.regions ∧ ∀ j, j ≠ c.val → t.cluster j = s.cluster j)) ∧
  (∀ (s : State), 
      ∃ t, exec (.holeMapUpdate) s = .next t ∧
      (∀ r, r < 112 → (s.region r).dark = false → (t.region r).holes = s.dome.holes ∧ (t.region r).holeGen = s.dome.holeGen) ∧
      (∀ r, (s.region r).dark = true → t.region r = s.region r) ∧
      OnlyRegions s t)

/-- Reads are answered, and ordered packets open a landing, fill granules and deliver tokens in sequence. (from 12_wafer_mesh.md (R297, R304, R306, R307,
R308, R313, R316), 11_deep_store_and_tables.md (R283, R286), 09_cluster_memory.md (R236)) The model's choices, no rule's: the source element in the
ninth payload word of a TOKEN packet (assumption log entry 15) and the order in which a landing is set up (assumption log entry 19). -/
def Obligations.ReadsAndStreamsArrive : Prop :=
  (∀ (s : State) (c : ClusterId) (p : Pkt) (rest : List Pkt) (u : List Nat), takeFirst (fun q => q.opc == 1) (s.cluster c.val).arrivals = some (p, rest) → s.suppressed c.val = false → s.runs c.val = true → p.dep = 33 → (p.pay.headD 0).toNat < 0x200000 → (p.pay.headD 0).toNat % 64 = 0 → p.smod = s.modId → cidx p.sx p.sy ≠ c.val → (s.cluster c.val).rowsPoisoned (p.pay.headD 0).toNat 64 = false → ((s.upset c.val u).cluster c.val).badBytes (p.pay.headD 0).toNat 64 (fun b => (p.pay.getD 1 0).toNat.testBit (b - (p.pay.headD 0).toNat)) = [] → 
      ∃ t, exec (.rd c u) s = .next t ∧
      (t.cluster c.val).arrivals = rest ∧
      ((t.cluster c.val).te.send.out.drop (s.cluster c.val).te.send.out.length).map (fun q => (q.opc, q.dmod, q.dy, q.dx, q.dep, q.poison)) =
      [(2, p.smod, p.sy, p.sx, p.sep, false)] ∧
      (((t.cluster c.val).te.send.out.drop (s.cluster c.val).te.send.out.length).map (fun q => payBytes q) =
      [(List.range 64).map (fun j => if (p.pay.getD 1 0).toNat.testBit j then Mem.byte (s.cluster c.val).mem ((p.pay.headD 0).toNat + j) else 0)]) ∧
      (t.cluster c.val).mem = (s.cluster c.val).mem ∧
      OnlyClusterEvents s t c.val) ∧
  (∀ (s : State) (c : ClusterId) (p : Pkt) (rest : List Pkt) (u : List Nat), takeFirst (fun q => q.opc == 1) (s.cluster c.val).arrivals = some (p, rest) → s.suppressed c.val = true → 
      ∃ t, exec (.rd c u) s = .next t ∧
      (t.cluster c.val).arrivals.take rest.length = rest ∧
      (t.cluster c.val).rd MSH_CNT_SUPPR_CNT = ((s.cluster c.val).rd MSH_CNT_SUPPR_CNT + 1) % 2 ^ 32 ∧
      (t.cluster c.val).mem = (s.cluster c.val).mem ∧
      OnlyCluster s t c.val) ∧
  (∀ (s : State) (c : ClusterId) (p : Pkt) (rest : List Pkt) (y : Xfer), takeFirst (fun q => q.opc == 2) (s.cluster c.val).arrivals = some (p, rest) → s.suppressed c.val = false → s.runs c.val = true → p.dep = 35 → p.poison = false → (s.cluster c.val).tuSend.answered 6 (pktTag p s.modId) p.smod p.sy p.sx = some y → 
      ∃ t, exec (.rdr c) s = .next t ∧
      (t.cluster c.val).arrivals = rest ∧
      (t.cluster c.val).tuSend.items = (s.cluster c.val).tuSend.items.filter (fun k => k.id != y.id) ∧
      (t.cluster c.val).tu = ((s.cluster c.val).gatherArrive y.owner (payBytes p) 0).tu ∧
      OnlyCluster s t c.val) ∧
  (∀ (s : State) (c : ClusterId) (p : Pkt) (rest : List Pkt), takeFirst (fun q => q.opc == 3) (s.cluster c.val).arrivals = some (p, rest) → s.suppressed c.val = false → s.runs c.val = true → isStart p = true → (s.cluster c.val).te.stream p = none → (s.cluster c.val).te.recv.length < 248 → p.dep = 33 → bitsOf (p.pay.headD 0) 23 3 = 0 → bitOf (p.pay.headD 0) 28 = false → 0 < bitsOf (p.pay.headD 0) 32 16 → 64 * (bitsOf (p.pay.headD 0) 0 23 + bitsOf (p.pay.headD 0) 32 16) ≤ 0x200000 → 
      ∃ t, exec (.openXfer c) s = .next t ∧
      (t.cluster c.val).arrivals = rest ∧
      (t.cluster c.val).te.recv.dropLast = (s.cluster c.val).te.recv ∧
      ((t.cluster c.val).te.recv.getLast?).map (fun r => (r.smod, r.sy, r.sx, r.sep, r.chan)) = some (p.smod, p.sy, p.sx, p.sep, p.chan) ∧
      ((t.cluster c.val).te.recv.getLast?).map (fun r => (r.expect, r.absorb)) = some ((p.seq + 1) % 256, false) ∧
      (((t.cluster c.val).te.recv.getLast?).bind (fun r => r.landing)).map (fun l => (l.space, l.gran, l.ngran, l.tag, l.count, l.status)) =
      some (0, bitsOf (p.pay.headD 0) 0 23, bitsOf (p.pay.headD 0) 32 16, bitsOf (p.pay.headD 0) 48 16, 0, 0) ∧
      (t.cluster c.val).mem = (s.cluster c.val).mem ∧
      OnlyCluster s t c.val) ∧
  (∀ (s : State) (c : ClusterId) (p : Pkt) (rest : List Pkt) (r : RecvStream) (l : Landing), takeFirst (fun q => q.opc == 4) (s.cluster c.val).arrivals = some (p, rest) → s.suppressed c.val = false → s.runs c.val = true → (s.cluster c.val).te.recv = [r] → r.is p = true → r.absorb = false → r.known = true → r.expect = p.seq → r.pool = [] → r.unacked < 15 → r.landing = some l → l.space = 0 → l.add = 0 → l.plate = false → 64 * (l.gran + l.count) + 64 ≤ 0x200000 → p.last = false → p.poison = false → (s.cluster c.val).asm = [] → 
      ∃ t, exec (.dataPkt c) s = .next t ∧
      (t.cluster c.val).arrivals = rest ∧
      ((t.cluster c.val).asm = [AsmBuf.put ⟨(l.gran + l.count) / 8, [l.id], List.replicate 8 none, 0, s.landClass c.val r l⟩ ((l.gran + l.count) % 8) (payBytes p)
      (beMask ((if l.count = 0 then l.firstBe else 2 ^ 64 - 1) &&& (if l.count + 1 = l.ngran then l.lastBe else 2 ^ 64 - 1)) 64) false]) ∧
      (t.cluster c.val).te.recv.map (fun q => (q.expect, q.unacked)) = [((p.seq + 1) % 256, r.unacked + 1)] ∧
      (t.cluster c.val).te.recv.map (fun q => q.landing.map (fun m => (m.count, m.status))) = [some (l.count + 1, l.status)] ∧
      (t.cluster c.val).mem = (s.cluster c.val).mem ∧
      OnlyCluster s t c.val) ∧
  (∀ (s : State) (c : ClusterId) (p : Pkt) (rest : List Pkt) (r : RecvStream), takeFirst (fun q => q.opc == 5) (s.cluster c.val).arrivals = some (p, rest) → s.suppressed c.val = false → s.runs c.val = true → (s.cluster c.val).te.recv = [r] → r.is p = true → isStart p = false → r.absorb = false → r.known = true → r.expect = p.seq → r.pool = [] → r.unacked < 15 → p.poison = false → SMap.get (fun _ => none) (s.cluster c.val).te.bound (8 * p.dep + bitsOf (p.pay.headD 0) 4 3) ∈ [none, some (p.smod, p.sy, p.sx, (p.pay.getD 8 0).toNat)] → 
      ∃ t, exec (.tokenPkt c) s = .next t ∧
      (t.cluster c.val).arrivals = rest ∧
      ((t.cluster c.val).waiting 36 1).map (fun w => (w.dst, w.queue, w.tok)) = ((s.cluster c.val).waiting 36 1).map (fun w => (w.dst, w.queue, w.tok)) ++
      (pktTokens p).map (fun k => (p.dep, bitsOf (p.pay.headD 0) 4 3, k)) ∧
      (t.cluster c.val).te.bound = (s.cluster c.val).te.bound ∧
      OnlyClusterRegion s t c.val (regionOf c.val)) ∧
  (∀ (s : State) (c : ClusterId) (p : Pkt) (rest : List Pkt) (r : RecvStream), takeFirst (fun q => q.opc == 5) (s.cluster c.val).arrivals = some (p, rest) → s.suppressed c.val = false → s.runs c.val = true → (s.cluster c.val).te.recv = [r] → r.is p = true → isStart p = true → r.pool = [] → p.poison = false → SMap.get (fun _ => none) (s.cluster c.val).te.bound (8 * p.dep + bitsOf (p.pay.headD 0) 4 3) ∈ [none, some (p.smod, p.sy, p.sx, (p.pay.getD 8 0).toNat)] → 
      ∃ t, exec (.tokenPkt c) s = .next t ∧
      (t.cluster c.val).arrivals = rest ∧
      (t.cluster c.val).te.recv.map (fun q => (q.expect, q.absorb)) = [((p.seq + 1) % 256, false)] ∧
      ((t.cluster c.val).waiting 36 1).map (fun w => (w.dst, w.queue, w.tok)) = ((s.cluster c.val).waiting 36 1).map (fun w => (w.dst, w.queue, w.tok)) ++
      (pktTokens p).map (fun k => (p.dep, bitsOf (p.pay.headD 0) 4 3, k)) ∧
      SMap.get (fun _ => none) (t.cluster c.val).te.bound (8 * p.dep + bitsOf (p.pay.headD 0) 4 3) = some (p.smod, p.sy, p.sx, (p.pay.getD 8 0).toNat) ∧
      OnlyClusterRegion s t c.val (regionOf c.val)) ∧
  (∀ (s : State) (c : ClusterId) (p : Pkt) (rest : List Pkt), takeFirst (fun q => q.opc == 6) (s.cluster c.val).arrivals = some (p, rest) → s.suppressed c.val = false → s.runs c.val = true → (p.pay.headD 0).toNat % 64 = 0 → bitsOf (p.pay.headD 0) 29 3 = 0 → bitsOf (p.pay.headD 0) 32 16 = 1 → bitOf (p.pay.headD 0) 48 = false → bitsOf (p.pay.headD 0) 0 29 < 0x200000 → p.smod = s.modId → cidx p.sx p.sy ≠ c.val → (s.cluster c.val).te.send.streams = [] → (s.cluster c.val).rowsPoisoned (bitsOf (p.pay.headD 0) 0 29) 64 = false → (s.cluster c.val).te.send.inflight ≤ 8190 → (s.cluster c.val).badBytes (bitsOf (p.pay.headD 0) 0 29) 64 (fun _ => true) = [] → 
      ∃ t, exec (.getPkt ⟨c, []⟩) s = .next t ∧
      (t.cluster c.val).arrivals = rest ∧
      ((t.cluster c.val).te.send.out.drop (s.cluster c.val).te.send.out.length).map (fun q => (q.opc, q.dmod, q.dy, q.dx, q.last, q.poison)) =
      [(3, p.smod, p.sy, p.sx, false, false), (4, p.smod, p.sy, p.sx, true, false)] ∧
      (((t.cluster c.val).te.send.out.drop ((s.cluster c.val).te.send.out.length + 1)).map (fun q => payBytes q)) =
      [Mem.bytes (s.cluster c.val).mem (bitsOf (p.pay.headD 0) 0 29) 64] ∧
      (t.cluster c.val).te.send.items.map (fun k => (k.kind, k.tag)) =
      (s.cluster c.val).te.send.items.map (fun k => (k.kind, k.tag)) ++ [(4, bitsOf (p.pay.getD 1 0) 16 16)] ∧
      (t.cluster c.val).mem = (s.cluster c.val).mem ∧
      OnlyClusterEvents s t c.val)

/-- ACK, CREDIT, NAK, MACK and the timers end what the engines track; multicasts count their granules and their members. (from 12_wafer_mesh.md (R297,
R307, R310, R312, R319, R320, R321)) -/
def Obligations.AnswersCloseWhatIsTracked : Prop :=
  (∀ (s : State) (c : ClusterId) (p : Pkt) (rest : List Pkt) (z : SendStream) (y : Xfer) (q m : Nat), takeFirst (fun k => k.opc == 7) (s.cluster c.val).arrivals = some (p, rest) → s.suppressed c.val = false → s.runs c.val = true → p.dep = 36 → pktTag p s.modId = 0 → (s.cluster c.val).te.send.streams = [z] → z.is p.smod p.sy p.sx (bitsOf (p.pay.headD 0) 0 2) = true → z.waiting = [] → z.outst = [(q, m)] → bitsOf (p.pay.headD 0) 8 8 = q → bitsOf (p.pay.headD 0) 16 4 = 1 → (s.cluster c.val).te.send.items = [y] → y.kind = 1 → (y.dmod, y.dy, y.dx, y.chan, y.tag) = (p.smod, p.sy, p.sx, bitsOf (p.pay.headD 0) 0 2, bitsOf (p.pay.headD 0) 48 16) → y.status = 0 → y.cen = false → 
      ∃ t, exec (.ack c) s = .next t ∧
      (t.cluster c.val).arrivals = rest ∧
      (t.cluster c.val).te.send.streams = [] ∧
      (t.cluster c.val).te.send.items = [] ∧
      (t.cluster c.val).tally TE_CNT_XFER_CNT = ((s.cluster c.val).tally TE_CNT_XFER_CNT + 1) % 2 ^ 32 ∧
      OnlyCluster s t c.val) ∧
  (∀ (s : State) (c : ClusterId) (p : Pkt) (rest : List Pkt), takeFirst (fun k => k.opc == 8) (s.cluster c.val).arrivals = some (p, rest) → s.suppressed c.val = false → s.runs c.val = true → p.dep = 36 → bitsOf (p.pay.getD 7 0) 0 3 = 1 → 
      ∃ t, exec (.credit c) s = .next t ∧
      (t.cluster c.val).arrivals = rest ∧
      ((t.cluster c.val).te.credit = (s.cluster c.val).te.credit.map (fun e =>
      if e.src = bitsOf (p.pay.getD 0 0) 8 5 ∧ e.dmod = p.smod ∧ e.dy = p.sy ∧ e.dx = p.sx ∧ e.elem = bitsOf (p.pay.getD 0 0) 0 5 ∧
      e.queue = bitsOf (p.pay.getD 0 0) 5 3 then { e with credits := e.credits + bitsOf (p.pay.getD 0 0) 16 5 } else e)) ∧
      OnlyCluster s t c.val) ∧
  (∀ (s : State) (c : ClusterId) (p : Pkt) (rest : List Pkt) (y : Xfer) (hd : Nat), takeFirst (fun k => k.opc == 9) (s.cluster c.val).arrivals = some (p, rest) → s.suppressed c.val = false → s.runs c.val = true → p.dep = 35 → hd = (p.pay.getD 1 0).toNat + 2 ^ 64 * (p.pay.getD 2 0).toNat → hd % 32 = 1 → hd / 2 ^ 5 % 4096 = s.modId → bitsOf (p.pay.headD 0) 0 4 = 1 → (s.cluster c.val).tuSend.answered 6 (hd / 2 ^ 72 % 256 + 256 * (hd / 2 ^ 90 % 64)) s.modId (hd / 2 ^ 17 % 128) (hd / 2 ^ 24 % 128) = some y → 
      ∃ t, exec (.nak c) s = .next t ∧
      (t.cluster c.val).arrivals = rest ∧
      (t.cluster c.val).tuSend.items = (s.cluster c.val).tuSend.items.filter (fun k => k.id != y.id) ∧
      (t.cluster c.val).tu = ((s.cluster c.val).gatherArrive y.owner [] 8).tu ∧
      OnlyCluster s t c.val) ∧
  (∀ (s : State) (c : ClusterId) (p : Pkt) (rest : List Pkt), takeFirst (fun k => k.opc == 10) (s.cluster c.val).arrivals = some (p, rest) → s.suppressed c.val = false → s.runs c.val = true → p.poison = false → (s.cluster c.val).asm = [] → (s.cluster c.val).te.mc = [] → 
      ∃ t, exec (.mdata c) s = .next t ∧
      (t.cluster c.val).arrivals = rest ∧
      (t.cluster c.val).asm = [AsmBuf.put ⟨(p.dmod + 4096 * (p.dep % 8)) / 8, [mcXfer p], List.replicate 8 none, 0, 2⟩ ((p.dmod + 4096 * (p.dep % 8)) % 8)
      (payBytes p) (List.replicate 64 true) false] ∧
      (t.cluster c.val).te.mc = [⟨p.smod, p.sy, p.sx, p.sep, p.chan, 1, none⟩] ∧
      (t.cluster c.val).mem = (s.cluster c.val).mem ∧
      OnlyCluster s t c.val) ∧
  (∀ (s : State) (c : ClusterId) (p : Pkt) (rest : List Pkt) (m : McCount), takeFirst (fun k => k.opc == 11) (s.cluster c.val).arrivals = some (p, rest) → s.suppressed c.val = false → s.runs c.val = true → p.smod = s.modId → cidx p.sx p.sy ≠ c.val → (s.cluster c.val).asm = [] → (s.cluster c.val).te.mc = [m] → m.is p = true → bitsOf (p.pay.headD 0) 0 16 ≤ m.count → 
      ∃ t, exec (.mfence c) s = .next t ∧
      (t.cluster c.val).arrivals = rest ∧
      (t.cluster c.val).te.mc = [] ∧
      ((t.cluster c.val).te.send.out.drop (s.cluster c.val).te.send.out.length).map (fun q => (q.opc, q.dmod, q.dy, q.dx, q.dep, q.pay.headD 0)) =
      [(12, p.smod, p.sy, p.sx, p.sep, BitVec.ofNat 64 (bitsOf (p.pay.headD 0) 16 16 * 2 ^ 16))] ∧
      OnlyCluster s t c.val) ∧
  (∀ (s : State) (c : ClusterId) (p : Pkt) (rest : List Pkt) (y : Xfer), takeFirst (fun k => k.opc == 12) (s.cluster c.val).arrivals = some (p, rest) → s.suppressed c.val = false → s.runs c.val = true → p.dep = 36 → (s.cluster c.val).te.send.items = [y] → y.kind = 3 → y.tag = bitsOf (p.pay.headD 0) 16 16 → y.members = y.acks + 1 → y.absent = [] → bitOf (p.pay.headD 0) 0 = false → y.status = 0 → y.cen = false → 
      ∃ t, exec (.mack c) s = .next t ∧
      (t.cluster c.val).arrivals = rest ∧
      (t.cluster c.val).te.send.items = [] ∧
      (t.cluster c.val).tally TE_CNT_XFER_CNT = ((s.cluster c.val).tally TE_CNT_XFER_CNT + 1) % 2 ^ 32 ∧
      OnlyCluster s t c.val) ∧
  (∀ (s : State) (c : ClusterId) (i : Nat) (y : Xfer), (s.cluster c.val).te.send.items[i]? = some y → y.kind = 2 → y.cen = false → y.status ≤ 10 → 
      ∃ t, exec (.trackedItemTimeout c .te i) s = .next t ∧
      (t.cluster c.val).te.send.items = (s.cluster c.val).te.send.items.filter (fun k => k.id != y.id) ∧
      (t.cluster c.val).rd TE_ERR_TAG_STATUS = 10 ∧
      (t.cluster c.val).rd TE_ERR_TAG_TAG = y.tag % 2 ^ TE_ERR_TAG_TAG.width ∧
      Logged s t 11 (regionOf c.val) ∧
      (t.dome.degPend = s.dome.degPend ++ (if y.dmod = s.modId then [(11, regionOf c.val)] else [])) ∧
      (∀ j, j ≠ c.val → t.cluster j = s.cluster j)) ∧
  (∀ (s : State) (c : ClusterId) (i : Nat) (r : RecvStream), (s.cluster c.val).te.recv[i]? = some r → s.runs c.val = true → r.unacked ≠ 0 → r.smod = s.modId → cidx r.sx r.sy ≠ c.val → 
      ∃ t, exec (.ackDelayTimeout c i) s = .next t ∧
      ((t.cluster c.val).te.recv[i]?).map (fun q => q.unacked) = some 0 ∧
      ((t.cluster c.val).te.send.out.drop (s.cluster c.val).te.send.out.length).map (fun q => (q.opc, q.dy, q.dx, q.dep, q.pay.headD 0)) =
      [(7, r.sy, r.sx, r.sep, BitVec.ofNat 64 (r.chan + (r.expect + 255) % 256 * 2 ^ 8))] ∧
      OnlyCluster s t c.val)

/-- The transit engine packs tokens against credits, checks descriptors and sends the packets of PUT, GET and MCAST. (from 12_wafer_mesh.md (R311, R312,
R314, R315, R316, R318, R319, R320)) -/
def Obligations.TransitEngineSends : Prop :=
  (∀ (s : State) (c : ClusterId) (q : Fin 8) (a d : Tok) (k : CreditEntry), s.teNext c.val = some (q.val, false, [a, d]) → a.poison = false → s.sendBad a.data = false → (s.cluster c.val).te.credit = [k] → k.is ((s.cluster c.val).teSource q.val) (s.sendMod a.data) a.data = true → k.failed = false → k.chan = sendChan a.data → k.pack.length < 6 → d.tag = .data → 
      ∃ t, exec (.teSendUnit c q) s = .next t ∧
      (t.cluster c.val).te.credit = [{ k with credits := k.credits - 1, pack := k.pack ++ [d] }] ∧
      (t.cluster c.val).te.queue q.val = ((s.cluster c.val).te.queue q.val).drop 2 ∧
      (t.cluster c.val).te.send.out = (s.cluster c.val).te.send.out ∧
      OnlyCluster s t c.val) ∧
  (∀ (s : State) (c : ClusterId) (i : Nat) (k : CreditEntry), s.runs c.val = true → (s.cluster c.val).te.credit[i]? = some k → k.pack ≠ [] → k.dmod = s.modId → cidx k.dx k.dy ≠ c.val → (s.cluster c.val).te.send.streams = [] → (s.cluster c.val).te.send.inflight < 8192 → 
      ∃ t, exec (.tokenPackTimeout c i) s = .next t ∧
      ((t.cluster c.val).te.credit[i]?).map (fun e => (e.pack, e.credits)) = some ([], k.credits) ∧
      ((t.cluster c.val).te.send.out.drop (s.cluster c.val).te.send.out.length).map (fun q => (q.opc, q.dmod, q.dy, q.dx, q.dep)) = [(5, k.dmod, k.dy, k.dx, k.elem)] ∧
      (k.pack.length ≤ 7 → ((t.cluster c.val).te.send.out.drop (s.cluster c.val).te.send.out.length).flatMap (fun q => (sliceOf q.pay 1 k.pack.length)) =
      k.pack.map (fun w => w.data)) ∧
      OnlyCluster s t c.val) ∧
  (∀ (s : State) (c : ClusterId) (i : Nat) (o : Owed), s.runs c.val = true → (s.cluster c.val).te.owed[i]? = some o → o.owed ≤ 16 → o.smod = s.modId → cidx o.sx o.sy ≠ c.val → 
      ∃ t, exec (.creditReturnTimeout c i) s = .next t ∧
      (t.cluster c.val).te.owed = (s.cluster c.val).te.owed.eraseIdx i ∧
      ((t.cluster c.val).te.send.out.drop (s.cluster c.val).te.send.out.length).map (fun q => (q.opc, q.dmod, q.dy, q.dx, q.dep, q.pay.headD 0)) =
      [(8, o.smod, o.sy, o.sx, 36, BitVec.ofNat 64 (o.elem + o.queue * 2 ^ 5 + o.src * 2 ^ 8 + o.owed * 2 ^ 16))] ∧
      OnlyCluster s t c.val) ∧
  (∀ (s : State) (c : ClusterId) (q : Fin 8) (d : Desc), s.teDesc c.val q.val (fun o => o == 0 || decide (3 < o)) = some d → d.poison = false → s.descStatus c.val d = 0 → 
      ∃ t, exec (.teNop c q) s = .next t ∧
      (t.cluster c.val).te.queue q.val = ((s.cluster c.val).te.queue q.val).drop 4 ∧
      (t.cluster c.val).tally TE_CNT_XFER_CNT = ((s.cluster c.val).tally TE_CNT_XFER_CNT + 1) % 2 ^ 32 ∧
      (d.cen = false → (t.cluster c.val).te.done = (s.cluster c.val).te.done) ∧
      (d.cen = true → d.epoch = (s.region (regionOf c.val)).rd TCK_RSCHED_EPOCH → (s.cluster c.val).rd (TE_CBIND_VALID.nth d.cbind) ≠ 0 →
      (t.cluster c.val).te.done = (s.cluster c.val).te.done ++ [⟨d.tag, 0, d.plate, 0, d.cbind, true, d.epoch⟩]) ∧
      OnlyCluster s t c.val ∧ (t.cluster c.val).mem = (s.cluster c.val).mem) ∧
  (∀ (s : State) (c : ClusterId) (q : Fin 8) (d : Desc), s.teDesc c.val q.val (fun o => o == 1) = some d → d.poison = false → s.descStatus c.val d = 0 → d.perm = false → d.plate = false → d.ngran = 1 → d.dmod s.modId = s.modId → cidx (addrX d.addr) (addrY d.addr) ≠ c.val → (s.cluster c.val).te.send.streams = [] → (s.cluster c.val).te.send.inflight ≤ 8190 → (s.cluster c.val).rowsPoisoned (64 * d.loc) 64 = false → (s.cluster c.val).badBytes (64 * d.loc) 64 (fun _ => true) = [] → 
      ∃ t, exec (.put c q []) s = .next t ∧
      (t.cluster c.val).te.queue q.val = ((s.cluster c.val).te.queue q.val).drop 4 ∧
      ((t.cluster c.val).te.send.out.drop (s.cluster c.val).te.send.out.length).map (fun k => (k.opc, k.dy, k.dx, k.chan, k.last, k.poison)) =
      [(3, addrY d.addr, addrX d.addr, d.chan, false, false), (4, addrY d.addr, addrX d.addr, d.chan, true, false)] ∧
      ((t.cluster c.val).te.send.out.drop ((s.cluster c.val).te.send.out.length + 1)).map (fun k => payBytes k) =
      [Mem.bytes (s.cluster c.val).mem (64 * d.loc) 64] ∧
      (t.cluster c.val).te.send.items.map (fun k => (k.kind, k.tag, k.ngran)) =
      (s.cluster c.val).te.send.items.map (fun k => (k.kind, k.tag, k.ngran)) ++ [(1, d.tag, 1)] ∧
      (t.cluster c.val).mem = (s.cluster c.val).mem ∧
      OnlyClusterEvents s t c.val) ∧
  (∀ (s : State) (c : ClusterId) (q : Fin 8) (d : Desc) (u : List Nat), s.teDesc c.val q.val (fun o => o == 1) = some d → d.poison = false → s.descStatus c.val d ≠ 0 → d.cen = false → 
      ∃ t, exec (.put c q u) s = .next t ∧
      (t.cluster c.val).te.queue q.val = ((s.cluster c.val).te.queue q.val).drop 4 ∧
      (t.cluster c.val).te.send.out = (s.cluster c.val).te.send.out ∧
      (t.cluster c.val).rd TE_ERR_TAG_STATUS = s.descStatus c.val d ∧
      (t.cluster c.val).rd TE_ERR_TAG_TAG = d.tag ∧
      (t.cluster c.val).rd TE_EVENT_XFER_ERR = 1 ∧
      (t.cluster c.val).mem = (s.cluster c.val).mem ∧
      OnlyCluster s t c.val) ∧
  (∀ (s : State) (c : ClusterId) (q : Fin 8) (d : Desc), s.teDesc c.val q.val (fun o => o == 2) = some d → d.poison = false → s.descStatus c.val d = 0 → d.dmod s.modId = s.modId → cidx (addrX d.addr) (addrY d.addr) ≠ c.val → 
      ∃ t, exec (.teGetXfer c q) s = .next t ∧
      (t.cluster c.val).te.queue q.val = ((s.cluster c.val).te.queue q.val).drop 4 ∧
      ((t.cluster c.val).te.send.out.drop (s.cluster c.val).te.send.out.length).map (fun k => (k.opc, k.dy, k.dx, k.dep, k.chan)) =
      [(6, addrY d.addr, addrX d.addr, 36, 4 + d.chan)] ∧
      (t.cluster c.val).te.send.items.map (fun k => (k.kind, k.tag, k.ngran)) =
      (s.cluster c.val).te.send.items.map (fun k => (k.kind, k.tag, k.ngran)) ++ [(2, d.tag, d.ngran)] ∧
      (t.cluster c.val).mem = (s.cluster c.val).mem ∧
      OnlyCluster s t c.val) ∧
  (∀ (s : State) (c : ClusterId) (q : Fin 8) (d : Desc), s.teDesc c.val q.val (fun o => o == 3) = some d → d.poison = false → s.descStatus c.val d = 0 → d.perm = false → d.ngran = 1 → (s.cluster c.val).rd (TE_MC_HI_MEMBERS.nth d.group) ≠ 0 → (s.cluster c.val).rowsPoisoned (64 * d.loc) 64 = false → (s.cluster c.val).badBytes (64 * d.loc) 64 (fun _ => true) = [] → 
      ∃ t, exec (.mcast c q []) s = .next t ∧
      (t.cluster c.val).te.queue q.val = ((s.cluster c.val).te.queue q.val).drop 4 ∧
      ((t.cluster c.val).te.send.out.drop (s.cluster c.val).te.send.out.length).map (fun k => (k.opc, k.mcast, k.chan)) =
      [(10, true, 4 + d.chan), (11, true, 4 + d.chan)] ∧
      (((t.cluster c.val).te.send.out.drop (s.cluster c.val).te.send.out.length).take 1).map (fun k => (payBytes k, k.dmod + 4096 * k.dep)) =
      [(Mem.bytes (s.cluster c.val).mem (64 * d.loc) 64, addrOff d.addr / 64)] ∧
      (t.cluster c.val).te.send.items.map (fun k => (k.kind, k.tag, k.members, k.acks)) =
      (s.cluster c.val).te.send.items.map (fun k => (k.kind, k.tag, k.members, k.acks)) ++ [(3, d.tag, (s.cluster c.val).rd (TE_MC_HI_MEMBERS.nth d.group), 0)] ∧
      OnlyClusterEvents s t c.val) ∧
  (∀ (s : State) (c : ClusterId) (b : Fin 8) (d : TeDone) (rest : List TeDone), s.runs c.val = true → takeFirst (fun (k : TeDone) => k.cbind == b.val) (s.cluster c.val).te.done = some (d, rest) → (s.cluster c.val).rd (TE_CBIND_CREDITS.nth b.val) ≠ 0 → 
      ∃ t, exec (.teCompletionSend c b) s = .next t ∧
      (t.cluster c.val).te.done = rest ∧
      (t.cluster c.val).rd (TE_CBIND_CREDITS.nth b.val) = (s.cluster c.val).rd (TE_CBIND_CREDITS.nth b.val) - 1 ∧
      (((t.cluster c.val).waiting 36 0).getLast?.map (fun u => (u.dst, u.queue, u.tok)) = some ((s.cluster c.val).rd (TE_CBIND_ELEM.nth b.val),
      (s.cluster c.val).rd (TE_CBIND_QUEUE.nth b.val),
      ⟨BitVec.ofNat 64 (d.tag + d.status * 2 ^ 16 + (if d.plate then 1 else 0) * 2 ^ 20 + d.count * 2 ^ 32), .data, d.epoch, false⟩)) ∧
      OnlyCluster s t c.val)

/-- A good frame with the expected FSEQ is taken once, its credits and acknowledgement with it; any other only asks for a replay. (from
13_zhevide_fabric.md (R330, R331, R332, R333, R337, R342, R347, R362)) The model's choices, no rule's: that the header of a good frame is valid
whatever its FSEQ, and that a port at which 64 finder messages are held treats a further one as a frame of bad CRC (assumption log entry 20). -/
def Obligations.FramesAreTakenInOrder : Prop :=
  (∀ (s : State) (p : PortId) (h : FrameHdr) (l : LinkPkt), s.portUp p.val = true → h.ok = true → h.fseq = (s.port p.val).rxSeq → h.nakReq = false → (s.port p.val).replays < 16 → l.pkt.dmod = s.modId → l.pkt.mcast = false → cidx l.pkt.dx l.pkt.dy ≠ portCluster p.val → 1 ≤ l.pkt.opc ∧ l.pkt.opc ≤ 9 → l.cls = pktClass l.pkt.opc → l.vc < 2 → (s.port p.val).ingress = [] → (s.port p.val).disabling = false → ((s.cluster (portCluster p.val)).input 0 4).length ≤ ((s.cluster (portCluster p.val)).input 1 4).length → 
      ∃ t, exec (.zlDataFrame p h [l]) s = .next t ∧
      (t.port p.val).rxSeq = (h.fseq + 1) % 4096 ∧
      (t.port p.val).ackOwed = true ∧
      (t.port p.val).ingress = [] ∧
      (t.cluster (portCluster p.val)).input 0 4 = (s.cluster (portCluster p.val)).input 0 4 ++ [{ l.pkt with age := 0, rsv := 0, link := none }] ∧
      SMap.get (fun _ => 0) (t.port p.val).owed (2 * l.vc + l.cls) = SMap.get (fun _ => 0) (s.port p.val).owed (2 * l.vc + l.cls) + 1 ∧
      (∀ k ∈ List.range 4, SMap.get (fun _ => 0) (t.port p.val).credits k = SMap.get (fun _ => 0) (s.port p.val).credits k + h.credits.getD k 0) ∧
      ((∀ q, q ≠ p.val → t.port q = s.port q) ∧ ∀ j, j ≠ portCluster p.val → t.cluster j = s.cluster j)) ∧
  (∀ (s : State) (p : PortId) (h : FrameHdr) (ls : List LinkPkt), s.portUp p.val = true → h.ok = false → (s.port p.val).nakFrames = 0 → 
      ∃ t, exec (.zlDataFrame p h ls) s = .next t ∧
      (t.port p.val).nakOwed = true ∧
      (t.port p.val).rxSeq = (s.port p.val).rxSeq ∧
      (t.port p.val).ingress = (s.port p.val).ingress ∧
      (t.port p.val).retry = (s.port p.val).retry ∧
      (Regs.rd zlTable (t.port p.val).cnt ZL_CNT_CRC_CNT = (if h.crcBad then Regs.rd zlTable (s.port p.val).cnt ZL_CNT_CRC_CNT + 1 else Regs.rd zlTable (s.port p.val).cnt ZL_CNT_CRC_CNT) % 2 ^ 32) ∧
      OnlyPort s t p.val) ∧
  (∀ (s : State) (p : PortId) (h : FrameHdr) (ls : List LinkPkt), s.portUp p.val = true → h.ok = true → h.nakReq = false → (s.port p.val).replays < 16 → h.fseq ≠ (s.port p.val).rxSeq → (s.port p.val).nakFrames = 0 → 
      ∃ t, exec (.zlDataFrame p h ls) s = .next t ∧
      (t.port p.val).nakOwed = true ∧
      (t.port p.val).rxSeq = (s.port p.val).rxSeq ∧
      (t.port p.val).ackOwed = (s.port p.val).ackOwed ∧
      (t.port p.val).ingress = (s.port p.val).ingress ∧
      OnlyPort s t p.val) ∧
  (∀ (s : State) (p : PortId) (h : FrameHdr) (a b : List Frame) (k : Frame), s.portUp p.val = true → h.ok = true → h.nakReq = false → (s.port p.val).replays < 16 → h.fseq = (s.port p.val).rxSeq → (s.port p.val).retry = a ++ k :: b → k.fseq = h.ackSeq → a.all (fun j => j.fseq != h.ackSeq) = true → 
      ∃ t, exec (.zlIdleFrame p h) s = .next t ∧
      (t.port p.val).retry = b ∧
      (t.port p.val).rxSeq = (s.port p.val).rxSeq ∧
      (t.port p.val).ackOwed = (s.port p.val).ackOwed ∧
      (∀ k ∈ List.range 4, SMap.get (fun _ => 0) (t.port p.val).credits k = SMap.get (fun _ => 0) (s.port p.val).credits k + h.credits.getD k 0) ∧
      OnlyPort s t p.val) ∧
  (∀ (s : State) (p : PortId) (h : FrameHdr) (r : ColRec), s.portUp p.val = true → h.ok = true → h.fseq = (s.port p.val).rxSeq → h.nakReq = false → (s.port p.val).replays < 16 → (s.heldFrom p.val).length < 64 → r.dst = s.modId → 
      ∃ t, exec (.zlFinderFrame p h (.col r)) s = .next t ∧
      t.dome.col.inbox = s.dome.col.inbox ++ [r] ∧
      (t.port p.val).rxSeq = (h.fseq + 1) % 4096 ∧
      (t.port p.val).ackOwed = true ∧
      ((∀ q, q ≠ p.val → t.port q = s.port q) ∧ t.clusters = s.clusters)) ∧
  (∀ (s : State) (p : PortId) (h : FrameHdr) (b : FrameBody), s.portUp p.val = true → h.ok = true → 64 ≤ (s.heldFrom p.val).length → (s.port p.val).nakFrames = 0 → 
      ∃ t, exec (.zlFinderFrame p h b) s = .next t ∧
      (t.port p.val).nakOwed = true ∧
      (t.port p.val).rxSeq = (s.port p.val).rxSeq ∧
      t.dome = s.dome ∧
      OnlyPort s t p.val) ∧
  (∀ (s : State) (p : PortId) (h : FrameHdr), s.portUp p.val = true → h.ok = true → h.nakReq = false → (s.port p.val).replays < 16 → h.fseq ≠ (s.port p.val).rxSeq → (s.port p.val).nakFrames = 0 → 
      ∃ t, exec (.zlIdleFrame p h) s = .next t ∧
      (t.port p.val).nakOwed = true ∧
      (t.port p.val).rxSeq = (s.port p.val).rxSeq ∧
      (t.port p.val).ackOwed = (s.port p.val).ackOwed ∧
      OnlyPort s t p.val) ∧
  (∀ (s : State) (p : PortId), (s.port p.val).nakFrames = 1 → 
      ∃ t, exec (.nakreqRepeat p) s = .next t ∧
      (t.port p.val).nakOwed = true ∧
      OnlyPort s t p.val ∧ { t.port p.val with nakOwed := (s.port p.val).nakOwed } = s.port p.val) ∧
  (∀ (s : State) (p : PortId) (n per a : Nat), s.portUp p.val = true → s.dome_ TCK_CTRL_MODE = 0 → s.dome_ TCK_CTRL_RCV_PORT = p.val → 
      ∃ t, exec (.zlTickColumn p n per a) s = .next t ∧
      (t.port p.val).tick = n ∧
      t.out = s.out ++ [.rcvMarker (a + per - ceilDiv (10 * (s.port p.val).rd ZL_LAT_NS) 64 - 2)] ∧
      (t.regions = s.regions ∧ t.clusters = s.clusters ∧ t.dome = s.dome ∧ ∀ q, q ≠ p.val → t.port q = s.port q)) ∧
  (∀ (s : State) (p : PortId), 
      ∃ t, exec (.zlIdleColumn p) s = .next t ∧
      t = s)

/-- A port's transmitter sends the column or frame that is due; a new frame takes the next FSEQ and is held for retry. (from 13_zhevide_fabric.md (R329,
R330, R332, R333)) The model's choices, no rule's: that fields stand on the first active lane, that eight lanes carry the columns before UP, and that
an IDLE column is due once 2,044 columns have gone without one, where R329 asks for one at least every 2,048 (assumption log entry 20). -/
def Obligations.PortsSend : Prop :=
  (∀ (s : State) (p : PortId), s.adapterUp p.val = true → (s.port p.val).sinceAlign < 16383 → (s.port p.val).sinceIdle < 2044 → (s.port p.val).rd ZL_STATUS_STATE ∈ [1, 2, 3, 4] → 
      ∃ t, exec (.zlColumnSend p) s = .next t ∧
      ((t.out.getLast?).map (fun o => match o with | .column q k vals b => (q, k, vals.take 3, vals.length, vals.getD 4 0, b.length) | _ => (0, 0, [], 0, 0, 0)) =
      some (p.val, 0x78, [s.fid, p.val, (s.port p.val).rd ZL_STATUS_LANE_OK], 6, (s.port p.val).peerStamp, 8)) ∧
      t.out.dropLast = s.out ∧
      ({ t with out := s.out, ports := s.ports, free := s.free } = s ∧ ∀ q, q ≠ p.val → t.port q = s.port q)) ∧
  (∀ (s : State) (p : PortId), s.adapterUp p.val = true → (s.port p.val).sinceAlign = 16383 → (s.port p.val).rd ZL_STATUS_STATE ∈ [1, 2, 3, 4, 5] → (s.port p.val).narrow = false → 
      ∃ t, exec (.zlColumnSend p) s = .next t ∧
      t.out = s.out ++ [.column p.val 0x2D [] ((List.range 8).map (fun k => ⟨k, true, leBytes 32 (0x2D + k * 2 ^ 8)⟩))] ∧
      (t.port p.val).sinceAlign = 0 ∧
      ({ t with out := s.out, ports := s.ports } = s ∧ ∀ q, q ≠ p.val → t.port q = s.port q)) ∧
  (∀ (s : State) (p : PortId), s.adapterUp p.val = true → (s.port p.val).sinceAlign < 16383 → (s.port p.val).rd ZL_STATUS_STATE ∈ [1, 2, 3, 4] → 2044 ≤ (s.port p.val).sinceIdle → 
      ∃ t, exec (.zlColumnSend p) s = .next t ∧
      t.out.dropLast = s.out ∧
      ((t.out.getLast?).map (fun o => match o with | .column q k _ _ => (q, k) | _ => (0, 0)) = some (p.val, 0x1E)) ∧
      (t.port p.val).sinceIdle = 0 ∧
      ({ t with out := s.out, ports := s.ports } = s ∧ ∀ q, q ≠ p.val → t.port q = s.port q)) ∧
  (∀ (s : State) (p : PortId), s.adapterUp p.val = true → (s.port p.val).sinceAlign < 16383 → s.portUp p.val = true → (s.port p.val).tickDue = true → 
      ∃ t, exec (.zlColumnSend p) s = .next t ∧
      t.out = s.out ++ [.column p.val 0x4B [s.tickNum, s.dome_ TCK_PERIOD_PERIOD] ((s.port p.val).controlColumn 0x4B [s.tickNum, s.dome_ TCK_PERIOD_PERIOD])] ∧
      (((s.port p.val).controlColumn 0x4B [s.tickNum, s.dome_ TCK_PERIOD_PERIOD]).headD ⟨0, false, []⟩).bytes = leBytes 32 (0x4B + s.tickNum % 2 ^ 64 * 2 ^ 8 + s.dome_ TCK_PERIOD_PERIOD * 2 ^ 72) ∧
      (t.port p.val).tickDue = false ∧
      ({ t with out := s.out, ports := s.ports } = s ∧ ∀ q, q ≠ p.val → t.port q = s.port q)) ∧
  (∀ (s : State) (p : PortId) (k : Frame) (rest : List Frame), s.adapterUp p.val = true → (s.port p.val).sinceAlign < 16382 → s.portUp p.val = true → (s.port p.val).tickDue = false → (s.port p.val).sinceIdle < 2044 → (s.port p.val).replay = k :: rest → 
      ∃ t, exec (.zlColumnSend p) s = .next t ∧
      ((t.out.getLast?).map (fun o => match o with | .frame q hd b cols => (q, hd.fseq, b == some k.body, cols == (s.port p.val).frameColumns (frameBytes hd b)) | _ => (99, 0, false, false)) =
      some (p.val, k.fseq, true, true)) ∧
      (t.port p.val).replay = rest ∧
      (t.port p.val).retry = (s.port p.val).retry ∧
      (t.port p.val).txSeq = (s.port p.val).txSeq ∧
      ({ t with out := s.out, ports := s.ports } = s ∧ ∀ q, q ≠ p.val → t.port q = s.port q)) ∧
  (∀ (s : State) (p : PortId), s.adapterUp p.val = true → (s.port p.val).sinceAlign < 16382 → s.portUp p.val = true → (s.port p.val).tickDue = false → (s.port p.val).sinceIdle < 2044 → (s.port p.val).replay = [] → (s.port p.val).retry.length < 1024 → (s.port p.val).finder = [] → (s.port p.val).takeData.1 ≠ [] → 
      ∃ t, exec (.zlColumnSend p) s = .next t ∧
      t.out.dropLast = s.out ∧
      ((t.out.getLast?).map (fun o => match o with | .frame q hd b _ => (q, hd.fseq, hd.ackSeq, b == some (.data (s.port p.val).takeData.1)) | _ => (99, 0, 0, false)) =
      some (p.val, (s.port p.val).txSeq, ((s.port p.val).rxSeq + 4095) % 4096, true)) ∧
      (t.port p.val).retry = (s.port p.val).retry ++ [⟨(s.port p.val).txSeq, .data (s.port p.val).takeData.1⟩] ∧
      (t.port p.val).txSeq = ((s.port p.val).txSeq + 1) % 4096 ∧
      (s.port p.val).takeData.1.length ≤ 3)

/-- A port trains through LIGHT, LOCK, ALIGN and PARAM to UP, and goes DOWN with the cause that R334 gives. (from 13_zhevide_fabric.md (R332, R334, R335,
R336, R349), 14_faults_and_collimation.md (R366)) The model's choices, no rule's: that the credits at UP are the port's own shares, and cause 6 for
the exchange's timeout (assumption log entry 20). -/
def Obligations.PortsTrainAndFail : Prop :=
  (∀ (s : State) (p : PortId), (s.port p.val).rd ZL_STATUS_STATE = 0 → s.adapterUp p.val = true → (s.port p.val).sharesOk = true → s.dome_ (ZL_CART_STATE.nth (p.val / 4)) = 1 → 
      ∃ t, exec (.zlEnable p) s = .next t ∧
      (t.port p.val).rd ZL_CTRL_EN = 1 ∧
      (t.port p.val).rd ZL_STATUS_STATE = 1 ∧
      OnlyPort s t p.val) ∧
  (∀ (s : State) (p : PortId), (s.port p.val).rd ZL_STATUS_STATE = 0 → s.adapterUp p.val = true → (s.port p.val).sharesOk = false → 
      ∃ t, exec (.zlEnable p) s = .next t ∧
      (t.port p.val).rd ZL_EVENT_CFG_ERR = 1 ∧
      (t.port p.val).rd ZL_STATUS_STATE = 0 ∧
      OnlyPort s t p.val) ∧
  (∀ (s : State) (p : PortId) (v : W32), (s.port p.val).rd ZL_STATUS_STATE = 1 → v.toNat % 256 = 255 → 
      ∃ t, exec (.lightReceived p v) s = .next t ∧
      (t.port p.val).rd ZL_STATUS_STATE = 2 ∧
      (t.port p.val).deskewed = 255 ∧
      OnlyPort s t p.val ∧ PortRegs (s.port p.val) { t.port p.val with deskewed := (s.port p.val).deskewed } [ZL_STATUS_STATE.off]) ∧
  (∀ (s : State) (p : PortId) (v : W32), (s.port p.val).rd ZL_STATUS_STATE = 2 → v.toNat % 256 &&& (s.port p.val).deskewed = (s.port p.val).deskewed → 
      ∃ t, exec (.lockAchieved p v) s = .next t ∧
      (t.port p.val).rd ZL_STATUS_STATE = 3 ∧
      (t.port p.val).rd ZL_STATUS_LANE_OK = v.toNat % 256 ∧
      OnlyPort s t p.val) ∧
  (∀ (s : State) (p : PortId), (s.port p.val).rd ZL_STATUS_STATE = 2 → 
      ∃ t, exec (.lockTimeout p) s = .next t ∧
      (t.port p.val).rd ZL_STATUS_STATE = 1 ∧
      OnlyPort s t p.val) ∧
  (∀ (s : State) (p : PortId) (v : W32), (s.port p.val).rd ZL_STATUS_STATE = 3 → (s.port p.val).deskewed = 0 → v.toNat &&& (s.port p.val).rd ZL_STATUS_LANE_OK = 255 → 
      ∃ t, exec (.zlAlignColumn p v) s = .next t ∧
      (t.port p.val).rd ZL_STATUS_STATE = 4 ∧
      (t.port p.val).deskewed = 255 ∧
      OnlyPort s t p.val) ∧
  (∀ (s : State) (p : PortId), (s.port p.val).rd ZL_STATUS_STATE = 3 → 
      ∃ t, exec (.alignTimeout p) s = .next t ∧
      (t.port p.val).rd ZL_STATUS_STATE = 1 ∧
      OnlyPort s t p.val) ∧
  (∀ (s : State) (p : PortId) (a : TrainParams), (s.port p.val).rd ZL_STATUS_STATE = 4 → a.lat ≤ 400 → (s.port p.val).rd ZL_STATUS_LANE_OK &&& a.lanes = 255 → 
      ∃ t, exec (.zlTrainColumn p a) s = .next t ∧
      (t.port p.val).rd ZL_STATUS_STATE = 5 ∧
      (t.port p.val).rd ZL_LAT_NS = ((a.now + 2 ^ 32 - a.echo) % 2 ^ 32 - a.turnaround) / 2 ∧
      (t.port p.val).rd ZL_PEER_PORT_PORT = a.port % 2 ^ ZL_PEER_PORT_PORT.width ∧
      (t.port p.val).rd ZL_EVENT_UP = 1 ∧
      (t.port p.val).txSeq = 0 ∧ (t.port p.val).rxSeq = 0 ∧ (t.port p.val).retry = [] ∧
      (List.range 4).map (fun k => SMap.get (fun _ => 0) (t.port p.val).credits k) = (s.port p.val).shares ∧
      Pends t 7 ∧
      t.regions = s.regions ∧ t.clusters = s.clusters) ∧
  (∀ (s : State) (p : PortId) (a : TrainParams), (s.port p.val).rd ZL_STATUS_STATE ∈ [1, 2, 3] → 
      ∃ t, exec (.zlTrainColumn p a) s = .next t ∧
      (t.port p.val).peerStamp = a.stamp ∧
      OnlyPort s t p.val ∧ { t.port p.val with peerStamp := (s.port p.val).peerStamp } = s.port p.val) ∧
  (∀ (s : State) (p : PortId) (a : TrainParams), (s.port p.val).rd ZL_STATUS_STATE = 4 → 400 < a.lat → 
      ∃ t, exec (.zlTrainColumn p a) s = .next t ∧
      (t.port p.val).rd ZL_STATUS_STATE = 6 ∧
      (t.port p.val).rd ZL_STATUS_LAST_DOWN = 5 ∧
      Logged s t 26 (regionOf (portCluster p.val))) ∧
  (∀ (s : State) (p : PortId), (s.port p.val).rd ZL_STATUS_STATE = 6 → (s.port p.val).rd ZL_CTRL_EN = 1 → s.adapterUp p.val = true → 
      ∃ t, exec (.downRetrain p) s = .next t ∧
      (t.port p.val).rd ZL_STATUS_STATE = 1 ∧
      OnlyPort s t p.val) ∧
  (∀ (s : State) (p : PortId), s.portUp p.val = true → 
      ∃ t, exec (.lightLoss p) s = .next t ∧
      (t.port p.val).rd ZL_STATUS_STATE = 6 ∧ (t.port p.val).rd ZL_STATUS_LAST_DOWN = 1 ∧ (t.port p.val).rd ZL_EVENT_DOWN = 1 ∧
      (t.port p.val).retry = [] ∧ (t.port p.val).egress = [] ∧
      Logged s t 26 (regionOf (portCluster p.val)) ∧
      Pends t 7) ∧
  (∀ (s : State) (p : PortId), s.portUp p.val = true → 
      ∃ t, exec (.fecLockLoss p) s = .next t ∧
      (t.port p.val).rd ZL_STATUS_STATE = 6 ∧ (t.port p.val).rd ZL_STATUS_LAST_DOWN = 2 ∧ (t.port p.val).rd ZL_EVENT_DOWN = 1 ∧
      (t.port p.val).retry = [] ∧ (t.port p.val).egress = [] ∧
      Logged s t 26 (regionOf (portCluster p.val))) ∧
  (∀ (s : State) (p : PortId), s.portUp p.val = true → (s.port p.val).retry ≠ [] → 
      ∃ t, exec (.ackTimeout p) s = .next t ∧
      (t.port p.val).rd ZL_STATUS_STATE = 6 ∧ (t.port p.val).rd ZL_STATUS_LAST_DOWN = 4 ∧ (t.port p.val).rd ZL_EVENT_DOWN = 1 ∧
      (t.port p.val).retry = [] ∧ (t.port p.val).egress = [] ∧
      Logged s t 26 (regionOf (portCluster p.val))) ∧
  (∀ (s : State) (p : PortId), (s.port p.val).rd ZL_STATUS_STATE = 4 → 
      ∃ t, exec (.paramTimeout p) s = .next t ∧
      (t.port p.val).rd ZL_STATUS_STATE = 6 ∧ (t.port p.val).rd ZL_STATUS_LAST_DOWN = 6 ∧ (t.port p.val).rd ZL_EVENT_DOWN = 1 ∧
      Logged s t 26 (regionOf (portCluster p.val))) ∧
  (∀ (s : State) (p : PortId), s.portUp p.val = true → 
      ∃ t, exec (.zlRetrain p) s = .next t ∧
      (t.port p.val).rd ZL_STATUS_STATE = 6 ∧ (t.port p.val).rd ZL_STATUS_LAST_DOWN = 7 ∧ (t.port p.val).rd ZL_EVENT_DOWN = 1 ∧
      (t.port p.val).retry = [] ∧ (t.port p.val).egress = [] ∧
      Logged s t 26 (regionOf (portCluster p.val))) ∧
  (∀ (s : State) (p : PortId), s.portUp p.val = true → (s.port p.val).ingress = [] → 
      ∃ t, exec (.zlDisable p) s = .next t ∧
      (t.port p.val).rd ZL_STATUS_STATE = 0 ∧ (t.port p.val).rd ZL_STATUS_LAST_DOWN = 7 ∧ (t.port p.val).rd ZL_CTRL_EN = 0 ∧
      Logged s t 26 (regionOf (portCluster p.val))) ∧
  (∀ (s : State) (p : PortId) (k : Fin 2) (v : W32), (s.port p.val).rd ZL_STATUS_STATE = 0 → (s.port p.val).rd ZL_CTRL_EN = 0 → 
      ∃ t, exec (.zlCredWrite p k v) s = .next t ∧
      (k.val = 0 → (t.port p.val).rd ZL_CRED0_VC0_REQ = ZL_CRED0_VC0_REQ.of v ∧ (t.port p.val).rd ZL_CRED0_VC0_RSP = ZL_CRED0_VC0_RSP.of v) ∧
      (k.val = 1 → (t.port p.val).rd ZL_CRED1_VC1_REQ = ZL_CRED1_VC1_REQ.of v ∧ (t.port p.val).rd ZL_CRED1_VC1_RSP = ZL_CRED1_VC1_RSP.of v) ∧
      (OnlyPort s t p.val ∧ PortRegs (s.port p.val) (t.port p.val) [if k.val = 0 then ZL_CRED0_VC0_REQ.off else ZL_CRED1_VC1_REQ.off])) ∧
  (∀ (s : State) (p : PortId) (v : W32), (s.port p.val).rd ZL_STATUS_STATE = 0 → (s.port p.val).rd ZL_CTRL_EN = 1 → s.adapterUp p.val = true → s.dome_ (ZL_CART_STATE.nth (p.val / 4)) = 1 → [ZL_CRED0_VC0_REQ.of v, ZL_CRED0_VC0_RSP.of v, (s.port p.val).rd ZL_CRED1_VC1_REQ, (s.port p.val).rd ZL_CRED1_VC1_RSP].all (fun n => decide (64 ≤ n)) = true → ZL_CRED0_VC0_REQ.of v + ZL_CRED0_VC0_RSP.of v + (s.port p.val).rd ZL_CRED1_VC1_REQ + (s.port p.val).rd ZL_CRED1_VC1_RSP ≤ 2048 → 
      ∃ t, exec (.zlCredWrite p 0 v) s = .next t ∧
      (t.port p.val).rd ZL_STATUS_STATE = 1 ∧
      (t.port p.val).rd ZL_CRED0_VC0_REQ = ZL_CRED0_VC0_REQ.of v ∧ (t.port p.val).rd ZL_CRED0_VC0_RSP = ZL_CRED0_VC0_RSP.of v ∧
      OnlyPort s t p.val) ∧
  (∀ (s : State) (p : PortId) (k : Fin 2) (v : W32), (s.port p.val).rd ZL_STATUS_STATE ≠ 0 → 
      ∃ t, exec (.zlCredWrite p k v) s = .next t ∧
      (t.port p.val).rd ZL_EVENT_CFG_ERR = 1 ∧
      OnlyPort s t p.val ∧ PortRegs (s.port p.val) (t.port p.val) [ZL_EVENT_CFG_ERR.off]) ∧
  (∀ (s : State) (p : PortId), s.ready = true → s.host.posted = [] → 
      ∃ t, exec (.zlTickRead p) s = .next t ∧
      t.out = s.out ++ [Output.hostRead false (0x200024 + 0x100 * p.val) (leBytes 4 ((s.port p.val).tick % 2 ^ 32)) false] ∧
      (t.port p.val).rd ZL_TICK_HI_NUM_HI = (s.port p.val).tick / 2 ^ 32 % 2 ^ 32 ∧
      OnlyPort { s with out := t.out, host := t.host } t p.val ∧ CountedRead s t)

/-- Cartridges take their ports down and bring them up; the finder discovers, computes, times out and assigns identities. (from 13_zhevide_fabric.md
(R327, R342, R343, R345, R346, R350)) The model's choice, no rule's: that the version of an own record is 2^32 times the number of starts plus the
number of the run (assumption log entry 20). -/
def Obligations.CartridgesAndFinder : Prop :=
  (∀ (s : State) (k : Fin 16), 
      ∃ t, exec (.cartridgeRemove k) s = .next t ∧
      t.dome_ (ZL_CART_STATE.nth k.val) = 0 ∧
      t.dome_ (ZL_CART_POWER.nth k.val) = 0 ∧
      (∀ q, q / 4 = k.val → (s.port q).rd ZL_STATUS_STATE ∉ [0, 6] → (s.port q).disabling = false →
      (t.port q).rd ZL_STATUS_STATE = 6 ∧ (t.port q).rd ZL_STATUS_LAST_DOWN = 1) ∧
      (∀ q, q / 4 = k.val → (s.port q).rd ZL_STATUS_STATE ∈ [0, 6] → (s.port q).disabling = false → (t.port q).rd ZL_STATUS_STATE = (s.port q).rd ZL_STATUS_STATE) ∧
      (∀ q, q / 4 ≠ k.val → (t.port q).rd ZL_STATUS_STATE = (s.port q).rd ZL_STATUS_STATE)) ∧
  (∀ (s : State) (k : Fin 16) (n : Nat), n < 256 → 
      ∃ t, exec (.cartridgeInsert k n) s = .next t ∧
      (t.dome_ (ZL_CART_STATE.nth k.val) = (if 80 ≤ n then 1 else 2)) ∧
      t.dome_ (ZL_CART_POWER.nth k.val) = n % 2 ^ ZL_CART_POWER.width ∧
      (∀ q, q / 4 = k.val → 80 ≤ n → (s.port q).rd ZL_STATUS_STATE = 0 → (s.port q).rd ZL_CTRL_EN = 1 → s.adapterUp q = true → (s.port q).sharesOk = true →
      (t.port q).rd ZL_STATUS_STATE = 1) ∧
      (∀ q, q / 4 ≠ k.val → t.port q = s.port q) ∧
      t.regions = s.regions ∧ t.clusters = s.clusters) ∧
  (∀ (s : State) (k : Fin 16) (b : Bool) (n : Nat), s.dome_ (ZL_CART_STATE.nth k.val) ≠ 0 → 
      ∃ t, exec (.cartridgeLow k b n) s = .next t ∧
      (t.dome_ (ZL_CART_STATE.nth k.val) = (if b then 3 else if n < 80 then 2 else 1)) ∧
      t.dome_ (ZL_CART_POWER.nth k.val) = n % 2 ^ ZL_CART_POWER.width ∧
      (∀ q, q / 4 ≠ k.val → t.port q = s.port q)) ∧
  (∀ (s : State), s.dome_ FND_STATUS_STATE ∈ [0, 3, 4] → 
      ∃ t, exec (.finderRun) s = .next t ∧
      t.dome_ FND_STATUS_STATE = 1 ∧
      t.dome.finder.version = s.dome.finder.version + 1 ∧
      (t.dome.finder.recs.getLast?).map (fun r => (r.fid, r.version)) = some (s.fid, s.dome.ctr.starts * 2 ^ 32 + (s.dome.finder.version + 1)) ∧
      (∀ q, q < 64 → s.portUp q = true → (t.port q).finder.length = (s.port q).finder.length + 1) ∧
      (∀ q, s.portUp q = false → t.port q = s.port q)) ∧
  (∀ (s : State), s.dome_ FND_STATUS_STATE = 1 → 
      ∃ t, exec (.finderQuiet) s = .next t ∧
      t.dome_ FND_STATUS_STATE = 2 ∧
      OnlyDomeRegs s t [FND_STATUS_STATE.off]) ∧
  (∀ (s : State), s.dome_ FND_STATUS_STATE = 1 → 
      ∃ t, exec (.finderTimeout) s = .next t ∧
      t.dome_ FND_STATUS_STATE = 4 ∧
      t.dome_ FND_STATUS_ERR = 4 ∧
      Pends t 7 ∧
      t.ports = s.ports ∧ t.regions = s.regions ∧ t.dome.finder = s.dome.finder) ∧
  (∀ (s : State), s.dome_ FND_STATUS_STATE = 2 → s.upPorts = [] → 
      ∃ t, exec (.finderComputeDone) s = .next t ∧
      t.dome_ FND_STATUS_STATE = 3 ∧
      t.dome_ FND_STATUS_ASSIGNED = 1 ∧
      t.dome_ FND_STATUS_MODULES = 1 ∧
      t.dome.finder.ids = [(s.fid, 0)] ∧
      t.dome_ FND_GEN_GEN = (s.dome_ FND_GEN_GEN + 1) % 2 ^ FND_GEN_GEN.width ∧
      Pends t 7 ∧
      t.regions = s.regions ∧ t.clusters = s.clusters) ∧
  (∀ (s : State), s.dome_ FND_STATUS_STATE = 2 → s.upPorts ≠ [] → finderErr s.dome.finder.recs s.ownRec (graphOf s.dome.finder.recs s.fid) (if s.dome.finder.ranOnce then s.dome.finder.root else
      match (keptIds s.dome.finder.recs (graphOf s.dome.finder.recs s.fid)).find? (fun q => q.2 == 0) with
      | some q => q.1 | none => chooseRoot s.dome.finder.recs (graphOf s.dome.finder.recs s.fid)) = 2 → 
      ∃ t, exec (.finderComputeDone) s = .next t ∧
      t.dome_ FND_STATUS_STATE = 4 ∧
      t.dome_ FND_STATUS_ERR = 2 ∧
      t.dome.finder = s.dome.finder ∧
      Pends t 7)

/-- A degrading event drains the module, which forces and then halts; a failed cluster is fenced once and its neighbours learn of it. (from
14_faults_and_collimation.md (R351, R352, R353, R354, R355, R356, R366, R368), 01_stack_and_floor.md (R33, R38), 12_wafer_mesh.md (R321),
17_dome_and_eyepiece.md (R423)) -/
def Obligations.FaultStatesAndContainment : Prop :=
  (∀ (s : State) (c r : Nat) (rest : List (Nat × Nat)), s.mstate = 1 → s.dome.degPend = (c, r) :: rest → c < 256 → r < 128 → 
      ∃ t, exec (.degrade) s = .next t ∧
      t.mstate = 2 ∧
      t.dome_ DOM_FLT_STATUS_SUSPECT = 1 ∧
      t.dome_ DOM_FLT_STATUS_FIRST_CODE = c ∧
      t.dome_ DOM_FLT_STATUS_FIRST_REGION = r ∧
      t.dome_ DOM_FLT_EVENT_DEGRADED = 1 ∧
      t.dome.degPend = rest ∧
      t.dome.forcePend = true ∧
      t.dome.col.interval = none ∧
      t.dome.col.armed = false ∧
      Pends t 0 ∧
      Pends t 11 ∧
      (∀ k, k < 112 → (t.region k).sched_ = (if (s.region k).sched_ = 2 then 3 else (s.region k).sched_) ∧ (t.region k).bucket0 = Bucket.reset ∧ (t.region k).bucket1 = Bucket.reset) ∧
      (∀ k, k < 112 → (s.region k).sched_ ≠ 2 → { t.region k with bucket0 := (s.region k).bucket0, bucket1 := (s.region k).bucket1, frozen := (s.region k).frozen } = s.region k) ∧
      (∀ e x, e < 8 → SMap.get (fun _ => none) s.dome.ephs e = some x → SMap.get (fun _ => none) t.dome.ephs e = (if x.regions.all t.endedIn then none else some { x with endStatus := 24 })) ∧
      (∀ k, { t.cluster k with regs := (s.cluster k).regs, mu := (s.cluster k).mu } = s.cluster k) ∧
      t.ports = s.ports ∧ t.host.apr = s.host.apr ∧ t.dome.ctr = s.dome.ctr ∧ t.dome.nor0 = s.dome.nor0 ∧ t.dome.nor1 = s.dome.nor1 ∧ t.hostMem = s.hostMem ∧ t.out = s.out) ∧
  (∀ (s : State) (c r : Nat) (rest : List (Nat × Nat)), s.mstate = 2 → s.dome.degPend = (c, r) :: rest → 
      ∃ t, exec (.degrade) s = .next t ∧
      t.mstate = 2 ∧
      t.dome.degPend = rest ∧
      { t with dome := { t.dome with degPend := s.dome.degPend } } = s) ∧
  (∀ (s : State) (e : Fin 8) (y : Eph) (r : RegionId), s.dome.forcePend = true → SMap.get (fun _ => none) s.dome.ephs e.val = some y → r.val ∈ y.regions → s.pageOpen r.val = true → (s.region r.val).rd TCK_RSCHED_EPH = e.val → (s.region r.val).sched_ ∈ [1, 2, 3, 4, 6] → 
      ∃ t, exec (.degradeForce) s = .next t ∧
      t.dome.forcePend = false ∧
      (t.region r.val).sched_ = 5 ∧
      (t.region r.val).rd TCK_RSCHED_EPOCH = ((s.region r.val).rd TCK_RSCHED_EPOCH + 1) % 4 ∧
      (t.region r.val).slot = none ∧
      (t.region r.val).balance = 0 ∧
      (∀ k, (∀ n x, SMap.get (fun _ => none) s.dome.ephs n = some x → k ∉ x.regions) → t.region k = s.region k) ∧
      (∀ c, (t.cluster c).mem = (s.cluster c).mem ∧ (t.cluster c).ds = (s.cluster c).ds) ∧
      t.ports = s.ports ∧ t.host.apr = s.host.apr ∧ t.dome.ctr = s.dome.ctr) ∧
  (∀ (s : State), s.mstate = 2 → (List.range 112).all (fun r => (s.region r).haltable) = true → 
      ∃ t, exec (.moduleHalt) s = .next t ∧
      t.mstate = 3 ∧
      Pends t 11 ∧
      OnlyDomeEvents s t ∧ DomeRecords s.dome t.dome [DOM_FLT_STATUS_MSTATE.off] ∧ t.dome.degPend = s.dome.degPend ∧ t.dome.logSeq = s.dome.logSeq) ∧
  (∀ (s : State) (i : Nat) (rest : List Nat), s.dome.occPend = i :: rest → s.enabled i = true → s.dome.merged = true → 
      ∃ t, exec (.containmentOccult) s = .next t ∧
      (t.defect i).cstat = 2 ∧
      (t.defect i).cause = 5 ∧
      (t.defect i).router = (s.defect i).router ∧
      (t.defect i).remaps = (s.defect i).remaps ∧
      t.dome_ DOM_DMAP_GEN_GEN = (s.dome_ DOM_DMAP_GEN_GEN + 1) % 65536 ∧
      t.dome_ DOM_FLT_CNT_OCC_CNT = (s.dome_ DOM_FLT_CNT_OCC_CNT + 1) % 2 ^ 32 ∧
      t.dome_ DOM_FLT_EVENT_OCCULT = 1 ∧
      t.dome.occPend = rest ∧
      (t.cluster i).fenced = true ∧
      (t.cluster i).occGen = t.dome_ DOM_DMAP_GEN_GEN ∧
      (t.cluster i).mem = [] ∧
      (t.cluster i).elems = [] ∧
      (t.cluster i).te = Te.reset ∧
      (t.cluster i).mu = Mu.reset ∧
      (t.cluster i).tu = Tu.reset ∧
      (t.cluster i).attach = (s.cluster i).attach ∧
      (t.cluster i).fifo = (s.cluster i).fifo ∧
      (t.cluster i).xcred = (s.cluster i).xcred ∧
      (∀ k g, g < 256 → (s.cluster k).groupHas g i = true → (t.cluster k).rd (TE_MC_HI_MEMBERS.nth g) = (s.cluster k).rd (TE_MC_HI_MEMBERS.nth g) - 1 ∧ (t.cluster k).rd (TE_MC_HI_MGEN.nth g) = t.dome_ DOM_DMAP_GEN_GEN) ∧
      (∀ k, k ≠ i → t.defect k = s.defect k ∧ { t.cluster k with regs := (s.cluster k).regs } = s.cluster k) ∧
      (∀ k o, (∀ g, g < 256 → (s.cluster k).groupHas g i = true → o ≠ (TE_MC_HI_MEMBERS.nth g).off) → Regs.word clTable (t.cluster k).regs o = Regs.word clTable (s.cluster k).regs o) ∧
      t.regions = s.regions ∧ t.ports = s.ports ∧ t.dome.degPend = s.dome.degPend ∧ t.host.apr = s.host.apr) ∧
  (∀ (s : State) (r : RegionId), ((s.region r.val).dark = true ∨ (2 ≤ (s.region r.val).power ∧ ((s.region r.val).rd PWR_STATUS_RAIL_OK).testBit 5 = false)) → 
      ∃ t, exec (.domebusBypass r) s = .next t ∧
      t.dome.silent.contains r.val = true ∧
      ({ t with dome := { t.dome with silent := s.dome.silent } } = s ∧ ∀ k, k ≠ r.val → (t.dome.silent.contains k = s.dome.silent.contains k))) ∧
  (∀ (s : State) (r : RegionId), s.alive r.val = true → s.dome.silent.contains r.val = false → 
      ∃ t, exec (.regionControllerSilent r) s = .next t ∧
      (t.region r.val).sched_ = 6 ∧
      t.dome.silent.contains r.val = true ∧
      Logged s t 25 r.val ∧
      t.dome.degPend = s.dome.degPend ++ [(25, r.val)] ∧
      t.dome_ DOM_FLT_EVENT_DOMBUS = 1 ∧
      Pends t 0 ∧
      (t.clusters = s.clusters ∧ t.ports = s.ports ∧ ∀ k, k ≠ r.val → t.region k = s.region k)) ∧
  (∀ (s : State), s.mstate = 1 → 
      ∃ t, exec (.domFltSuspect) s = .next t ∧
      t.mstate = 2 ∧
      t.dome_ DOM_FLT_STATUS_SUSPECT = 1 ∧
      t.dome_ DOM_FLT_STATUS_FIRST_CODE = (Config.freeWord s.free).toNat % 256 ∧
      t.dome_ DOM_FLT_STATUS_FIRST_REGION = 127 ∧
      t.free = s.free + 1 ∧
      t.dome.ctr = s.dome.ctr ∧
      (∀ k, k < 112 → (t.region k).sched_ = (if (s.region k).sched_ = 2 then 3 else (s.region k).sched_)) ∧
      t.ports = s.ports ∧ t.host.apr = s.host.apr ∧ t.dome.nor0 = s.dome.nor0 ∧ t.dome.nor1 = s.dome.nor1 ∧ t.hostMem = s.hostMem) ∧
  (∀ (s : State), s.mstate = 1 → s.clocked 8 = true → 
      ∃ t, exec (.domFltReplace) s = .next t ∧
      t.mstate = 2 ∧
      t.replace = true ∧
      (t.dome.ctr = { s.dome.ctr with rpl := if s.replace then s.dome.ctr.rpl else s.dome.ctr.rpl + 1 }) ∧
      t.dome_ DOM_FLT_STATUS_FIRST_REGION = 127 ∧
      (∀ k, k < 112 → (t.region k).sched_ = (if (s.region k).sched_ = 2 then 3 else (s.region k).sched_)) ∧
      t.ports = s.ports ∧ t.host.apr = s.host.apr ∧ t.dome.nor0 = s.dome.nor0 ∧ t.dome.nor1 = s.dome.nor1 ∧ t.hostMem = s.hostMem) ∧
  (∀ (s : State) (v : List W32) (rest : List (List W32)), s.dome.logPend = v :: rest → 
      ∃ t, exec (.faultRecordWrite) s = .next t ∧
      (List.range (4 * v.length)).map (fun j => t.nor 0 (0x3FF00000 + 32 * (((v.getD 0 0).toNat + 4095) % 4096) + j)) = v.flatMap (fun x => leBytes 4 x.toNat) ∧
      t.dome.logPend = rest ∧
      t.dome.nor1 = s.dome.nor1 ∧
      { t with dome := { t.dome with nor0 := s.dome.nor0, logPend := s.dome.logPend } } = s ∧
      (∀ a, (a < 0x3FF00000 + 32 * (((v.getD 0 0).toNat + 4095) % 4096) ∨ 0x3FF00000 + 32 * (((v.getD 0 0).toNat + 4095) % 4096) + 4 * v.length ≤ a) → t.nor 0 a = s.nor 0 a))

/-- An interval closes into a digest and a record; peers' records decide MATCH, MISMATCH or the class of a repeat. (from 14_faults_and_collimation.md
(R360, R361, R362, R363, R364, R369)) The model's choices, no rule's: that a repeat found TRANSIENT makes a record of code 22, and that the oldest own
record is the one being sent (assumption log entry 25). -/
def Obligations.CollimationCompares : Prop :=
  (∀ (s : State) (i : Nat), s.dome.col.interval = some i → s.dome.col.armed = true → (List.range 112).all (fun r => (s.region r).frozen) = true → s.dome_ DOM_COL_CTRL_REPEAT = 0 → (∀ r ∈ List.range 8, s.peerValid r = true) → s.dome.col.waiting = [] → (∀ r ∈ List.range 8, SMap.get (fun _ => []) s.dome.col.held r = []) → 
      ∃ t, exec (.colIntervalClose) s = .next t ∧
      (∀ j ∈ List.range 4, t.dome_ (DOM_COL_DIG_DIG.nth j) = (((List.range 112).map (fun r => (s.region r).bucket0.sum)).sum % colPrime) / 2 ^ (32 * j) % 2 ^ 32) ∧
      t.dome_ DOM_COL_CNT_LO_CNT_LO = ((List.range 112).map (fun r => (s.region r).bucket0.count)).sum % 2 ^ 32 ∧
      t.dome_ DOM_COL_INTERVAL_I = i % 2 ^ 32 ∧
      t.dome_ DOM_COL_EVENT_CLOSED = 1 ∧
      t.dome.col.interval = some (i + 1) ∧
      t.dome.col.armed = false ∧
      t.dome.col.hist = ((i, ((List.range 112).map (fun r => (s.region r).bucket0.sum)).sum % colPrime, ((List.range 112).map (fun r => (s.region r).bucket0.count)).sum % 2 ^ 64) :: s.dome.col.hist.filter (fun h => h.1 != i)).take 16 ∧
      t.dome.col.waiting.length = 1 ∧
      Pends t 6 ∧
      (∀ r, r < 112 → t.region r = { s.region r with bucket0 := (s.region r).bucket1, bucket1 := Bucket.reset, frozen := false }) ∧
      t.clusters = s.clusters ∧ t.dome.ctr = s.dome.ctr ∧ t.dome.logSeq = s.dome.logSeq ∧ t.dome.degPend = s.dome.degPend ∧ HostEvents s t) ∧
  (∀ (s : State) (k : ColRec) (rest : List ColRec) (r : Fin 8), s.dome.col.inbox = k :: rest → k.set = s.dome_ DOM_COL_SET_SET → s.peerValid r.val = true → s.dome_ (DOM_COL_PEER_MODID.nth r.val) = k.src → s.dome.col.waiting = [] → 
      ∃ t, exec (.colRecordReceive) s = .next t ∧
      t.dome.col.inbox = rest ∧
      (SMap.get (fun _ => []) t.dome.col.held r.val = (if 4 ≤ (SMap.get (fun _ => []) s.dome.col.held r.val).length then (SMap.get (fun _ => []) s.dome.col.held r.val).drop 1 else SMap.get (fun _ => []) s.dome.col.held r.val) ++ [k]) ∧
      (4 ≤ (SMap.get (fun _ => []) s.dome.col.held r.val).length → t.dome_ DOM_COL_EVENT_OVERFLOW = 1) ∧
      OnlyDomeEvents s t ∧ DomeRecords { s.dome with col := t.dome.col } t.dome [DOM_COL_EVENT_OVERFLOW.off] ∧ t.dome.logSeq = s.dome.logSeq ∧ t.dome.degPend = s.dome.degPend) ∧
  (∀ (s : State) (k : ColRec) (rest : List ColRec), s.dome.col.inbox = k :: rest → k.set ≠ s.dome_ DOM_COL_SET_SET → 
      ∃ t, exec (.colRecordReceive) s = .next t ∧
      t = s.modDome (fun d => { d with col := { d.col with inbox := rest } })) ∧
  (∀ (s : State) (k own : ColRec) (rest : List ColRec) (r : Fin 8), s.dome.col.inbox = k :: rest → k.set = s.dome_ DOM_COL_SET_SET → (∀ j ∈ List.range 8, s.peerValid j = decide (j = r.val)) → s.dome_ (DOM_COL_PEER_MODID.nth r.val) = k.src → SMap.get (fun _ => []) s.dome.col.held r.val = [] → s.dome.col.waiting = [own] → own.repeated = false → k.repeated = false → own.nondet = false → k.nondet = false → k.interval = own.interval → 
      ∃ t, exec (.colRecordReceive) s = .next t ∧
      (t.dome_ DOM_COL_STATUS_RESULT = if k.digest = own.digest ∧ k.count = own.count then 1 else 2) ∧
      t.dome_ DOM_COL_STATUS_TIMEOUT = 0 ∧
      t.dome_ DOM_COL_STATUS_NOHIST = 0 ∧
      t.dome_ (DOM_COL_PEER_RCVD.nth r.val) = 1 ∧
      (t.dome_ (DOM_COL_PEER_AGREE.nth r.val) = if k.digest = own.digest ∧ k.count = own.count then 1 else 0) ∧
      t.dome.col.waiting = [] ∧
      SMap.get (fun _ => []) t.dome.col.held r.val = [] ∧
      (¬ (k.digest = own.digest ∧ k.count = own.count) → t.dome_ DOM_COL_EVENT_MISMATCH = 1 ∧ Pends t 6) ∧
      t.dome_ DOM_FLT_STATUS_SUSPECT = s.dome_ DOM_FLT_STATUS_SUSPECT ∧
      t.dome.degPend = s.dome.degPend ∧
      t.dome.ctr = s.dome.ctr ∧
      OnlyDomeEvents s t) ∧
  (∀ (s : State) (own : ColRec) (rest : List ColRec), s.dome.col.waiting = own :: rest → own.repeated = false → own.nondet = false → (∀ r ∈ List.range 8, s.peerRec r own = none) → 
      ∃ t, exec (.colWaitTimeout) s = .next t ∧
      t.dome_ DOM_COL_STATUS_RESULT = 1 ∧
      t.dome_ DOM_COL_STATUS_TIMEOUT = 1 ∧
      t.dome_ DOM_COL_EVENT_TIMEOUT = 1 ∧
      (∀ r ∈ List.range 8, t.dome_ (DOM_COL_PEER_RCVD.nth r) = 0) ∧
      t.dome.col.waiting = rest ∧
      t.dome.logSeq = s.dome.logSeq ∧
      Pends t 6 ∧
      OnlyDomeEvents s t) ∧
  (∀ (s : State) (own k m : ColRec) (rest : List ColRec) (r q : Fin 8) (d n : Nat), s.dome.col.waiting = own :: rest → own.repeated = true → own.nondet = false → r ≠ q → s.peerRec r.val own = some k → s.peerRec q.val own = some m → (∀ j ∈ List.range 8, j ≠ r.val → j ≠ q.val → s.peerRec j own = none) → k.nondet = false → m.nondet = false → (s.dome.col.hist.find? (fun h => h.1 == own.interval)) = some (own.interval, d, n) → s.clocked 8 = true → 
      ∃ t, exec (.colWaitTimeout) s = .next t ∧
      (t.dome_ DOM_COL_STATUS_RESULT = if ¬ (own.digest = d ∧ own.count = n) then 4 else if colAgrees own k = true ∨ colAgrees own m = true then 3 else if colAgrees k m = true then 5 else 6) ∧
      t.dome_ DOM_COL_STATUS_NOHIST = 0 ∧
      t.dome_ DOM_COL_EVENT_CLASSIFIED = 1 ∧
      (own.digest = d → own.count = n → colAgrees own k = false → colAgrees own m = false → colAgrees k m = true → t.replace = true ∧ t.dome.degPend = s.dome.degPend ++ [(23, 127)]) ∧
      (own.digest = d → own.count = n → colAgrees own k = false → colAgrees own m = false → colAgrees k m = false → t.dome_ DOM_FLT_STATUS_SUSPECT = 1 ∧ t.dome.degPend = s.dome.degPend ++ [(23, 127)]) ∧
      (¬ (own.digest = d ∧ own.count = n) → Logged s t 22 127 ∧ t.dome.degPend = s.dome.degPend) ∧
      OnlyDomeEvents s t) ∧
  (∀ (s : State) (own : ColRec) (rest : List ColRec), s.dome.col.waiting = own :: rest → own.repeated = true → own.nondet = false → (∀ r ∈ List.range 8, s.peerRec r own = none) → s.dome.col.hist.find? (fun h => h.1 == own.interval) = none → 
      ∃ t, exec (.colWaitTimeout) s = .next t ∧
      t.dome_ DOM_COL_STATUS_RESULT = 3 ∧
      t.dome_ DOM_COL_STATUS_NOHIST = 1 ∧
      t.dome_ DOM_COL_EVENT_CLASSIFIED = 1 ∧
      OnlyDomeEvents s t) ∧
  (∀ (s : State) (v : W32), s.colOpen = false → 
      ∃ t, exec (.domColCtrlWrite v) s = .next t ∧
      t.dome_ DOM_COL_CTRL_EN = v.toNat % 2 ∧
      t.dome_ DOM_COL_CTRL_REPEAT = v.toNat / 2 % 2 ∧
      (t.dome_ DOM_COL_CTRL_N = if 1 ≤ v.toNat / 16 % 512 ∧ v.toNat / 16 % 512 ≤ 256 then v.toNat / 16 % 512 else s.dome_ DOM_COL_CTRL_N) ∧
      (¬ (1 ≤ v.toNat / 16 % 512 ∧ v.toNat / 16 % 512 ≤ 256) → t.dome_ DOM_COL_EVENT_CFG_ERR = 1 ∧ Pends t 6) ∧
      OnlyDomeEvents s t ∧ DomeRecords { s.dome with col := { s.dome.col with interval := none } } t.dome [DOM_COL_CTRL_EN.off, DOM_COL_EVENT_CFG_ERR.off]) ∧
  (∀ (s : State) (v : W32), s.colOpen = true → 
      ∃ t, exec (.domColCtrlWrite v) s = .next t ∧
      t.dome_ DOM_COL_EVENT_CFG_ERR = 1 ∧
      Pends t 6 ∧
      OnlyDomeEvents s t ∧ DomeRecords s.dome t.dome [DOM_COL_EVENT_CFG_ERR.off]) ∧
  (∀ (s : State), s.ready = true → s.host.posted = [] → 
      ∃ t, exec (.domColCntRead) s = .next t ∧
      t.dome_ DOM_COL_CNT_HI_CNT_HI = s.dome.col.count / 2 ^ 32 % 2 ^ 32 ∧
      t.out = s.out ++ [Output.hostRead false 0x640 (leBytes 4 (s.dome.col.count % 2 ^ 32)) false] ∧
      OnlyDomeRegs { s with out := t.out, host := t.host } t [DOM_COL_CNT_HI_CNT_HI.off] ∧ CountedRead s t)

/-- A reset of the bridge clears it alone; D3hot holds its DMA and messages; the link trains and PTM latches a dialogue. (from 15_host_bridge.md (R370,
R371, R372, R373, R375), 18_connectors_and_ratings.md (R443)) The model's choices, no rule's: what a reset clears of SPEED and WIDTH, and that a link
of fewer than 4 lanes is in Detect (assumption log entry 18). -/
def Obligations.BridgeResetsAndPower : Prop :=
  (∀ (s : State), 
      ∃ t, exec (.linkReset) s = .next t ∧
      t.host.queues = [] ∧
      t.host.apr = [] ∧
      t.host.msix = [] ∧
      t.host.causes = [] ∧
      t.host.posted = [] ∧
      t.host.reads = [] ∧
      t.host.owed = [] ∧
      t.host.d3hot = false ∧
      (t.hif HIF_EVT_PEND_PEND = 0) ∧
      (∀ k ∈ List.range 16, t.hif (HIF_WIN_LO_EN.nth k) = 0) ∧
      (t.hif HIF_STATUS_READY = s.hif HIF_STATUS_READY) ∧
      (t.hif HIF_STATUS_SPEED = 0) ∧
      (t.hif HIF_STATUS_WIDTH = 0) ∧
      t.out = s.out ++ [.ready] ∧
      OnlyHostOut s t) ∧
  (∀ (s : State), 
      ∃ t, exec (.flr) s = .next t ∧
      t.host.queues = [] ∧
      t.host.apr = [] ∧
      t.host.msix = [] ∧
      t.host.causes = [] ∧
      t.host.posted = [] ∧
      t.host.reads = [] ∧
      t.host.owed = [] ∧
      t.host.d3hot = false ∧
      (t.hif HIF_EVT_PEND_PEND = 0) ∧
      (∀ k ∈ List.range 16, t.hif (HIF_WIN_LO_EN.nth k) = 0) ∧
      (t.hif HIF_STATUS_READY = s.hif HIF_STATUS_READY) ∧
      (t.hif HIF_STATUS_SPEED = s.hif HIF_STATUS_SPEED) ∧
      (t.hif HIF_STATUS_WIDTH = s.hif HIF_STATUS_WIDTH) ∧
      t.out = s.out ++ [.ready] ∧
      OnlyHostOut s t) ∧
  (∀ (s : State), 
      ∃ t, exec (.linkDown) s = .next t ∧
      t.host.queues = [] ∧
      t.host.apr = [] ∧
      t.host.causes = [] ∧
      t.host.posted = [] ∧
      t.host.reads = [] ∧
      t.host.owed = [] ∧
      (t.hif HIF_STATUS_READY = s.hif HIF_STATUS_READY) ∧
      (t.hif HIF_STATUS_WIDTH = 0) ∧
      OnlyHost s t) ∧
  (∀ (s : State), 
      ∃ t, exec (.d3hotEntry) s = .next t ∧
      t = { s with host := { s.host with d3hot := true } }) ∧
  (∀ (s : State), s.host.queues = [] → 
      ∃ t, exec (.d0Entry) s = .next t ∧
      t = { s with host := { s.host with d3hot := false } }) ∧
  (∀ (s : State) (q : QueueId) (z : HostQ), s.host.queues = [(q.val, z)] → s.ready = true → z.state = 1 → z.jobs = [] → z.entries = [] → z.rd HIF_Q_STATUS_SQ_HEAD < z.sqSize → z.sqTail = (z.rd HIF_Q_STATUS_SQ_HEAD + 1) % z.sqSize → 2 ≤ z.sqSize → s.aprAllows (z.sqBase + 64 * z.rd HIF_Q_STATUS_SQ_HEAD) 64 false = true → 
      ∃ t, exec (.d0Entry) s = .next t ∧
      t.host.d3hot = false ∧
      (t.hostQ q.val).entries = [(chunksOf 8 8 (Mem.bytes s.hostMem (z.sqBase + 64 * z.rd HIF_Q_STATUS_SQ_HEAD) 64)).map (fun b => BitVec.ofNat 64 (leNat b))] ∧
      { t.hostQ q.val with entries := [] } = z ∧
      OnlyHost s t ∧ t.host.apr = s.host.apr) ∧
  (∀ (s : State), 
      ∃ t, exec (.d0Entry) s = .next t ∧
      t.host.d3hot = false ∧
      t.hostMem = s.hostMem ∧ t.regions = s.regions ∧ t.ports = s.ports ∧ t.dome.ctr = s.dome.ctr) ∧
  (∀ (s : State) (n : Fin 512) (us : Nat), s.host.d3hot = true → 
      ∃ t, exec (.msixSend n us) s = .next t ∧
      t = s) ∧
  (∀ (s : State) (q : QueueId), s.host.d3hot = true → 
      (∃ t, exec (.cqRecordWrite q) s = .next t ∧ t = s) ∧ (∃ t, exec (.loadJob q) s = .next t ∧ t = s) ∧ (∃ t, exec (.copyIn q) s = .next t ∧ t = s) ∧ (∃ t, exec (.copyOut q) s = .next t ∧ t = s)) ∧
  (∀ (s : State) (q : QueueId) (v : W32), s.host.d3hot = true → (s.hostQ q.val).state = 1 → v.toNat % 65536 < (s.hostQ q.val).sqSize → 
      ∃ t, exec (.sqTailDoorbell q v) s = .next t ∧
      (t.hostQ q.val).sqTail = v.toNat % 65536 ∧
      { t.hostQ q.val with sqTail := (s.hostQ q.val).sqTail } = s.hostQ q.val ∧ OnlyQueue s.barCount t q.val) ∧
  (∀ (s : State) (speed lanes : Nat), 1 ≤ speed ∧ speed ≤ 7 → 4 ≤ lanes → 
      ∃ t, exec (.linkTraining speed lanes) s = .next t ∧
      (t.hif HIF_STATUS_SPEED = speed) ∧
      (t.hif HIF_STATUS_WIDTH = if 16 ≤ lanes then 16 else if 8 ≤ lanes then 8 else 4) ∧
      (OnlyHost s t ∧ { t.host with hif := s.host.hif } = s.host ∧ ∀ o, o ≠ HIF_STATUS_SPEED.off → Regs.word hifTable t.host.hif o = Regs.word hifTable s.host.hif o)) ∧
  (∀ (s : State) (speed lanes : Nat), lanes < 4 → 
      ∃ t, exec (.linkTraining speed lanes) s = .next t ∧
      (t.hif HIF_STATUS_SPEED = 0) ∧
      (t.hif HIF_STATUS_WIDTH = 0) ∧
      (OnlyHost s t ∧ { t.host with hif := s.host.hif } = s.host ∧ ∀ o, o ≠ HIF_STATUS_SPEED.off → Regs.word hifTable t.host.hif o = Regs.word hifTable s.host.hif o)) ∧
  (∀ (s : State) (a b : Nat), 
      ∃ t, exec (.ptmTrig a b) s = .next t ∧
      (t.hif HIF_PTM_LOCAL_LO_T = a % 2 ^ 32) ∧
      (t.hif HIF_PTM_LOCAL_HI_T = a / 2 ^ 32 % 2 ^ 32) ∧
      (t.hif HIF_PTM_MASTER_LO_T = b % 2 ^ 32) ∧
      (t.hif HIF_PTM_MASTER_HI_T = b / 2 ^ 32 % 2 ^ 32) ∧
      (t.hif HIF_PTM_CTRL_VALID = 1) ∧
      (OnlyHost s t ∧ { t.host with hif := s.host.hif } = s.host))

/-- A BAR2 access is one mesh transfer per block, waits for earlier posted writes, and fails as R381 says; the aperture takes host writes only. (from
15_host_bridge.md (R374, R377, R378, R379, R380, R381, R382, R384, R396, R398)) The model's choices, no rule's: the offset that HIF_ERR_ADDR logs for
a BAR2 access, and the advisory message as an output (assumption log entry 18). -/
def Obligations.HostAccessesThroughBars : Prop :=
  (∀ (s : State) (off len : Nat), 1 ≤ len ∧ len ≤ 4096 → off + len ≤ 2 ^ 37 → s.ready = false → 
      ∃ t, exec (.bar2Read off len) s = .next t ∧
      t.out = s.out ++ [.hostRead true off (List.replicate len 0xFF) false] ∧
      (t.hif HIF_CNT_BAR_CNT = (s.hif HIF_CNT_BAR_CNT + 1) % 2 ^ 32) ∧
      (OnlyHostOut s t ∧ { t.host with hif := s.host.hif } = s.host)) ∧
  (∀ (s : State) (off len i a : Nat), 1 ≤ len ∧ off % 64 + len ≤ 64 → off + len ≤ 2 ^ 37 → s.ready = true → s.host.posted = [] → s.host.reads = [] → s.barTarget off len = some (i, a) → i < 8960 → 
      ∃ t, exec (.bar2Read off len) s = .next t ∧
      t.host.reads = [⟨s.host.serial, true, off, [], true, 1, List.replicate len 0, 0, [s.window off]⟩] ∧
      t.host.serial = s.host.serial + 1 ∧
      ((t.cluster i).attach.items.getLast?).map (fun x => (x.kind, x.owner, x.members)) = some (6, 8 * s.host.serial, 0) ∧
      (t.cluster i).attach.items.length = (s.cluster i).attach.items.length + 1 ∧
      t.out = s.out ∧
      (t.hif HIF_CNT_BAR_CNT = (s.hif HIF_CNT_BAR_CNT + 1) % 2 ^ 32) ∧
      OnlyHostCluster s t i) ∧
  (∀ (s : State) (off len : Nat), 1 ≤ len ∧ len ≤ 4096 → off + len ≤ 2 ^ 37 → s.ready = true → s.host.posted ≠ [] → s.host.reads = [] → 
      ∃ t, exec (.bar2Read off len) s = .next t ∧
      t.out = s.out ∧
      t.host.reads = [⟨s.host.serial, true, off, s.host.posted.map (fun p => p.id), false, (barBlocks off len).length, List.replicate len 0, 0, (barBlocks off len).map (fun b => s.window b.1)⟩] ∧
      t.host.posted = s.host.posted ∧
      (t.hif HIF_CNT_BAR_CNT = (s.hif HIF_CNT_BAR_CNT + 1) % 2 ^ 32) ∧
      OnlyHost s t ∧ t.host.apr = s.host.apr) ∧
  (∀ (s : State) (off len : Nat), 1 ≤ len ∧ off % 64 + len ≤ 64 → off + len ≤ 2 ^ 37 → s.ready = true → s.host.posted = [] → s.host.reads = [] → s.barTarget off len = none → 
      ∃ t, exec (.bar2Read off len) s = .next t ∧
      t.out = s.out ++ [.advisory 0 off false true, .hostRead true off (List.replicate len 0xFF) false] ∧
      (t.hif HIF_ERR_REFUSED = 1) ∧
      Pends t 10 ∧
      t.host.reads = [] ∧
      (t.hif HIF_CNT_BAR_CNT = (s.hif HIF_CNT_BAR_CNT + 1) % 2 ^ 32) ∧
      OnlyHostOut s t ∧ t.host.apr = s.host.apr ∧ t.host.queues = s.host.queues) ∧
  (∀ (s : State) (off : Nat) (bs : List Byte), 1 ≤ bs.length ∧ bs.length ≤ 4096 → off + bs.length ≤ 2 ^ 37 → s.ready = false → 
      ∃ t, exec (.bar2Write off bs) s = .next t ∧
      (t.hif HIF_CNT_BAR_CNT = (s.hif HIF_CNT_BAR_CNT + 1) % 2 ^ 32) ∧
      (OnlyHost s t ∧ { t.host with hif := s.host.hif } = s.host)) ∧
  (∀ (s : State) (off : Nat) (bs : List Byte) (i a : Nat), 1 ≤ bs.length ∧ off % 64 + bs.length ≤ 64 → off + bs.length ≤ 2 ^ 37 → s.ready = true → s.barTarget off bs.length = some (i, a) → i < 8960 → 
      ∃ t, exec (.bar2Write off bs) s = .next t ∧
      t.host.posted = s.host.posted ++ [⟨s.host.serial, off, 1⟩] ∧
      t.host.serial = s.host.serial + 1 ∧
      ((t.cluster i).attach.items.getLast?).map (fun x => (x.owner, x.ngran, x.dy, x.dx, x.dep)) = some (8 * s.host.serial + 1, 1, addrY a, addrX a, spaceEndpoint (addrSpace a)) ∧
      (t.cluster i).attach.items.length = (s.cluster i).attach.items.length + 1 ∧
      (t.hif HIF_CNT_BAR_CNT = (s.hif HIF_CNT_BAR_CNT + 1) % 2 ^ 32) ∧
      OnlyHostCluster s t i ∧ t.host.apr = s.host.apr) ∧
  (∀ (s : State) (off : Nat) (bs : List Byte), 1 ≤ bs.length ∧ off % 64 + bs.length ≤ 64 → off + bs.length ≤ 2 ^ 37 → s.ready = true → s.barTarget off bs.length = none → 
      ∃ t, exec (.bar2Write off bs) s = .next t ∧
      (t.hif HIF_ERR_REFUSED = 1) ∧
      Pends t 10 ∧
      t.host.posted = s.host.posted ∧
      (s.hif HIF_ERR_REFUSED = 0 → s.hif HIF_ERR_POISON = 0 → s.hif HIF_ERR_LOST = 0 → t.hif HIF_ERR_WRITE = 1 ∧ t.hif HIF_ERR_ADDR_LO_ADDR_LO = off % 2 ^ 32 ∧ t.hif HIF_ERR_ADDR_HI_BAR2 = 1) ∧
      t.out = s.out ++ [.advisory 0 off true true] ∧
      (t.hif HIF_CNT_BAR_CNT = (s.hif HIF_CNT_BAR_CNT + 1) % 2 ^ 32) ∧
      OnlyHostOut s t ∧ t.host.apr = s.host.apr ∧ t.host.queues = s.host.queues) ∧
  (∀ (s : State) (i : Nat) (r : BarRead), s.host.reads[i]? = some r → r.bar2 = true → r.issued = true → 
      ∃ t, exec (.barReadTimeout i) s = .next t ∧
      t.out = s.out ++ [.advisory 2 r.off false true, .hostRead true r.off (r.data.map (fun _ => 0xFF)) false] ∧
      (t.hif HIF_ERR_LOST = 1) ∧
      Pends t 10 ∧
      t.host.reads = s.host.reads.filter (fun q => q.id != r.id) ∧
      OnlyHostOut s t ∧ t.host.apr = s.host.apr ∧ t.host.posted = s.host.posted) ∧
  (∀ (s : State), s.host.posted = [] → 
      ∃ t, exec (.hifFenceRead) s = .next t ∧
      t.out = s.out ++ [.hostRead false 0x01000004 [0, 0, 0, 0] false] ∧
      t.host.reads = s.host.reads ∧
      (t.hif HIF_CNT_BAR_CNT = (s.hif HIF_CNT_BAR_CNT + 1) % 2 ^ 32) ∧
      OnlyHostOut s t ∧ t.host.apr = s.host.apr) ∧
  (∀ (s : State), s.host.posted ≠ [] → 
      ∃ t, exec (.hifFenceRead) s = .next t ∧
      t.out = s.out ∧
      t.host.reads = s.host.reads ++ [⟨s.host.serial, false, 0x01000004, s.host.posted.map (fun p => p.id), false, 0, [0, 0, 0, 0], 0, []⟩] ∧
      OnlyHost s t ∧ t.host.apr = s.host.apr) ∧
  (∀ (s : State), s.host.posted = [] → 
      ∃ t, exec (.hifAprSyncRead) s = .next t ∧
      t.out = s.out ++ [.hostRead false 0x03FFF110 [0, 0, 0, 0] false] ∧
      (t.hif HIF_CNT_BAR_CNT = (s.hif HIF_CNT_BAR_CNT + 1) % 2 ^ 32) ∧
      OnlyHostOut s t ∧ t.host.apr = s.host.apr) ∧
  (∀ (s : State), s.host.posted ≠ [] → 
      ∃ t, exec (.hifAprSyncRead) s = .next t ∧
      t.out = s.out ∧
      t.host.reads = s.host.reads ++ [⟨s.host.serial, false, 0x03FFF110, s.host.posted.map (fun p => p.id), false, 0, [0, 0, 0, 0], 0, []⟩] ∧
      (t.hif HIF_CNT_BAR_CNT = (s.hif HIF_CNT_BAR_CNT + 1) % 2 ^ 32) ∧
      OnlyHost s t ∧ t.host.apr = s.host.apr) ∧
  (∀ (s : State) (r : Fin 16) (v : W32), 
      ∃ t, exec (.apertureWrite (16 * r.val) v true) s = .next t ∧
      t.apr (HIF_APR_BASE_LO_EN.nth r.val) = v.toNat % 2 ∧
      t.apr (HIF_APR_BASE_LO_RD.nth r.val) = v.toNat / 2 % 2 ∧
      t.apr (HIF_APR_BASE_LO_WR.nth r.val) = v.toNat / 4 % 2 ∧
      t.apr (HIF_APR_BASE_LO_BASE_LO.nth r.val) = v.toNat / 4096 ∧
      (t.hif HIF_CNT_BAR_CNT = (s.hif HIF_CNT_BAR_CNT + 1) % 2 ^ 32) ∧
      (OnlyHost s t ∧ ∀ o, o ≠ 16 * r.val → Regs.word aprTable t.host.apr o = Regs.word aprTable s.host.apr o)) ∧
  (∀ (s : State) (r : Fin 16) (v : W32), 
      ∃ t, exec (.apertureWrite (16 * r.val + 8) v true) s = .next t ∧
      t.apr (HIF_APR_LIM_LO_LIM_LO.nth r.val) = v.toNat / 4096 ∧
      (OnlyHost s t ∧ ∀ o, o ≠ 16 * r.val + 8 → Regs.word aprTable t.host.apr o = Regs.word aprTable s.host.apr o)) ∧
  (∀ (s : State) (off : Nat) (v : W32), 
      ∃ t, exec (.apertureWrite off v false) s = .next t ∧
      t = s) ∧
  (∀ (s : State) (off : Nat), s.ready = false → off < 0x1000000 → 
      s.barWord off = 0xFFFFFFFF#32)

/-- Queues follow R387: enabled, stopped and in error; doorbells move indices and fetch; records and messages leave in order. (from 15_host_bridge.md
(R383, R385, R386, R387, R392, R394, R395)) The model's choice, no rule's: that entries are fetched at the doorbell once READY and not in D3hot
(assumption log entry 18). -/
def Obligations.QueuesAndTheirStates : Prop :=
  (∀ (s : State) (q : QueueId), (s.hostQ q.val).state = 0 → 4 ≤ (s.hostQ q.val).rd HIF_Q_SIZE_SQ_LOG2 ∧ (s.hostQ q.val).rd HIF_Q_SIZE_SQ_LOG2 ≤ 16 → 4 ≤ (s.hostQ q.val).rd HIF_Q_SIZE_CQ_LOG2 ∧ (s.hostQ q.val).rd HIF_Q_SIZE_CQ_LOG2 ≤ 16 → (s.hostQ q.val).sqBase % 4096 = 0 ∧ (s.hostQ q.val).cqBase % 4096 = 0 → 
      ∃ t, exec (.queueEnable q) s = .next t ∧
      (t.hostQ q.val).state = 1 ∧
      (t.hostQ q.val).rd HIF_Q_STATUS_SQ_HEAD = 0 ∧
      (t.hostQ q.val).rd HIF_Q_CQ_TAIL_TAIL = 0 ∧
      (t.hostQ q.val).rd HIF_Q_CQ_TAIL_PHASE = 1 ∧
      (t.hostQ q.val).rd HIF_Q_CTRL_EN = 1 ∧
      (t.hostQ q.val).entries = [] ∧
      (t.hostQ q.val).sqBase = (s.hostQ q.val).sqBase ∧
      OnlyQueue s.barCount t q.val) ∧
  (∀ (s : State) (q : QueueId), (s.hostQ q.val).state = 0 → ((s.hostQ q.val).sqBase % 4096 ≠ 0 ∨ (s.hostQ q.val).cqBase % 4096 ≠ 0 ∨ (s.hostQ q.val).rd HIF_Q_SIZE_SQ_LOG2 < 4 ∨ 16 < (s.hostQ q.val).rd HIF_Q_SIZE_SQ_LOG2 ∨ (s.hostQ q.val).rd HIF_Q_SIZE_CQ_LOG2 < 4 ∨ 16 < (s.hostQ q.val).rd HIF_Q_SIZE_CQ_LOG2) → 
      ∃ t, exec (.queueEnable q) s = .next t ∧
      (t.hostQ q.val).state = 3 ∧
      (t.hostQ q.val).rd HIF_Q_STATUS_ERR = 3 ∧
      OnlyQueue s.barCount t q.val) ∧
  (∀ (s : State) (q : QueueId), (s.hostQ q.val).state = 1 → 
      ∃ t, exec (.queueDisable q) s = .next t ∧
      (t.hostQ q.val).state = 2 ∧
      (t.hostQ q.val).entries = [] ∧
      (t.hostQ q.val).jobs = (s.hostQ q.val).jobs ∧
      (t.hostQ q.val).due = (s.hostQ q.val).due ∧
      (∀ k, k ≠ q.val → t.hostQ k = s.hostQ k) ∧
      (OnlyHost s t ∧ t.host.apr = s.host.apr ∧ ∀ p, p ∈ t.host.owed → p ∈ s.host.owed ∧ ∀ o, p.2 = some o → o.1 ≠ q.val)) ∧
  (∀ (s : State) (q : QueueId), (s.hostQ q.val).state = 3 → 
      ∃ t, exec (.queueDisable q) s = .next t ∧
      (t.hostQ q.val).state = 0 ∧
      (t.hostQ q.val).rd HIF_Q_CTRL_EN = 0 ∧
      (OnlyHost s t ∧ ∀ k, k ≠ q.val → t.hostQ k = s.hostQ k)) ∧
  (∀ (s : State) (q : QueueId), (s.hostQ q.val).state = 2 → (s.hostQ q.val).jobs = [] → (s.hostQ q.val).due = [] → 
      ∃ t, exec (.queueStopped q) s = .next t ∧
      (t.hostQ q.val).state = 0 ∧
      OnlyQueue s t q.val) ∧
  (∀ (s : State) (q : QueueId) (v : W32), (s.hostQ q.val).state = 1 → v.toNat % 65536 < (s.hostQ q.val).sqSize → s.ready = false → 
      ∃ t, exec (.sqTailDoorbell q v) s = .next t ∧
      (t.hostQ q.val).sqTail = v.toNat % 65536 ∧
      { t.hostQ q.val with sqTail := (s.hostQ q.val).sqTail } = s.hostQ q.val ∧ OnlyQueue s.barCount t q.val) ∧
  (∀ (s : State) (q : QueueId) (v : W32), (s.hostQ q.val).state = 1 → v.toNat % 65536 < (s.hostQ q.val).sqSize → s.ready = true → s.host.d3hot = false → (s.hostQ q.val).entries = [] → (s.hostQ q.val).rd HIF_Q_STATUS_SQ_HEAD < (s.hostQ q.val).sqSize → v.toNat % 65536 = ((s.hostQ q.val).rd HIF_Q_STATUS_SQ_HEAD + 1) % (s.hostQ q.val).sqSize → 2 ≤ (s.hostQ q.val).sqSize → s.aprAllows ((s.hostQ q.val).sqBase + 64 * (s.hostQ q.val).rd HIF_Q_STATUS_SQ_HEAD) 64 false = true → 
      ∃ t, exec (.sqTailDoorbell q v) s = .next t ∧
      (t.hostQ q.val).entries = [(chunksOf 8 8 (Mem.bytes s.hostMem ((s.hostQ q.val).sqBase + 64 * (s.hostQ q.val).rd HIF_Q_STATUS_SQ_HEAD) 64)).map (fun b => BitVec.ofNat 64 (leNat b))] ∧
      (t.hostQ q.val).sqTail = v.toNat % 65536 ∧
      t.host.rdBytes = s.host.rdBytes + 64 ∧
      (OnlyHost s t ∧ t.host.apr = s.host.apr ∧ ∀ k, k ≠ q.val → t.hostQ k = s.hostQ k)) ∧
  (∀ (s : State) (q : QueueId) (v : W32), (s.hostQ q.val).state = 1 → v.toNat % 65536 < (s.hostQ q.val).sqSize → s.ready = true → s.host.d3hot = false → (s.hostQ q.val).entries = [] → (s.hostQ q.val).rd HIF_Q_STATUS_SQ_HEAD < (s.hostQ q.val).sqSize → v.toNat % 65536 ≠ (s.hostQ q.val).rd HIF_Q_STATUS_SQ_HEAD → s.aprAllows ((s.hostQ q.val).sqBase + 64 * (s.hostQ q.val).rd HIF_Q_STATUS_SQ_HEAD) 64 false = false → 
      ∃ t, exec (.sqTailDoorbell q v) s = .next t ∧
      (t.hostQ q.val).state = 3 ∧
      (t.hostQ q.val).rd HIF_Q_STATUS_ERR = 2 ∧
      t.apr HIF_APR_LOG_VALID = 1 ∧
      t.apr HIF_APR_LOG_CNT_CNT = (s.apr HIF_APR_LOG_CNT_CNT + 1) % 2 ^ 32 ∧
      Pends t 9 ∧
      (OnlyHost s t ∧ ∀ k, k ≠ q.val → t.hostQ k = s.hostQ k)) ∧
  (∀ (s : State) (q : QueueId) (v : W32), (s.hostQ q.val).state = 1 → (s.hostQ q.val).sqSize ≤ v.toNat % 65536 → 
      ∃ t, exec (.sqTailDoorbell q v) s = .next t ∧
      (t.hostQ q.val).state = 3 ∧
      (t.hostQ q.val).rd HIF_Q_STATUS_ERR = 1 ∧
      (t.hostQ q.val).entries = [] ∧
      OnlyQueue s.barCount t q.val) ∧
  (∀ (s : State) (q : QueueId) (v : W32), (s.hostQ q.val).state = 1 → v.toNat % 65536 < (s.hostQ q.val).cqSize → 
      ∃ t, exec (.cqHeadDoorbell q v) s = .next t ∧
      (t.hostQ q.val).cqHead = v.toNat % 65536 ∧
      { t.hostQ q.val with cqHead := (s.hostQ q.val).cqHead } = s.hostQ q.val ∧ OnlyQueue s.barCount t q.val) ∧
  (∀ (s : State) (q : QueueId) (v : W32), (s.hostQ q.val).state = 1 → (s.hostQ q.val).cqSize ≤ v.toNat % 65536 → 
      ∃ t, exec (.cqHeadDoorbell q v) s = .next t ∧
      (t.hostQ q.val).state = 3 ∧
      (t.hostQ q.val).rd HIF_Q_STATUS_ERR = 1 ∧
      OnlyQueue s.barCount t q.val) ∧
  (∀ (s : State) (q : QueueId), (s.hostQ q.val).state = 1 → 
      ∃ t, exec (.fetchErrorCompletion q) s = .next t ∧
      (t.hostQ q.val).state = 3 ∧
      (t.hostQ q.val).rd HIF_Q_STATUS_ERR = 4 ∧
      (t.hostQ q.val).entries = [] ∧
      (t.hostQ q.val).due = [] ∧
      OnlyQueue s t q.val) ∧
  (∀ (s : State) (q : QueueId) (c : CqRec) (rest : List CqRec), (s.hostQ q.val).due = c :: rest → s.host.d3hot = false → ((s.hostQ q.val).state = 1 ∨ (s.hostQ q.val).state = 2) → s.aprAllows ((s.hostQ q.val).cqBase + 16 * (s.hostQ q.val).rd HIF_Q_CQ_TAIL_TAIL) 16 true = true → (s.hostQ q.val).rd HIF_Q_CQ_TAIL_TAIL < (s.hostQ q.val).cqSize → (s.hostQ q.val).cqSize ≤ 65536 → 
      ∃ t, exec (.cqRecordWrite q) s = .next t ∧
      t.hostMem = Mem.write s.hostMem ((s.hostQ q.val).cqBase + 16 * (s.hostQ q.val).rd HIF_Q_CQ_TAIL_TAIL) (s.recordBytes (s.hostQ q.val) c) ∧
      (t.hostQ q.val).due = rest ∧
      (t.hostQ q.val).rd HIF_Q_CQ_TAIL_TAIL = ((s.hostQ q.val).rd HIF_Q_CQ_TAIL_TAIL + 1) % (s.hostQ q.val).cqSize ∧
      ((t.hostQ q.val).rd HIF_Q_CQ_TAIL_PHASE = (if (s.hostQ q.val).rd HIF_Q_CQ_TAIL_TAIL + 1 = (s.hostQ q.val).cqSize then 1 - (s.hostQ q.val).rd HIF_Q_CQ_TAIL_PHASE else (s.hostQ q.val).rd HIF_Q_CQ_TAIL_PHASE)) ∧
      t.host.wrBytes = s.host.wrBytes + 16 ∧
      (c.irq = true ∨ c.status ≠ 0 ∨ c.kind = 1 → t.host.causes.contains q.val = true) ∧
      ({ t with host := s.host, hostMem := s.hostMem } = s ∧ t.host.apr = s.host.apr ∧ ∀ k, k ≠ q.val → t.hostQ k = s.hostQ k) ∧
      (∀ a, a < (s.hostQ q.val).cqBase + 16 * (s.hostQ q.val).rd HIF_Q_CQ_TAIL_TAIL ∨ (s.hostQ q.val).cqBase + 16 * (s.hostQ q.val).rd HIF_Q_CQ_TAIL_TAIL + 16 ≤ a → Mem.byte t.hostMem a = Mem.byte s.hostMem a)) ∧
  (∀ (s : State) (q : QueueId) (c : CqRec) (rest : List CqRec), (s.hostQ q.val).due = c :: rest → s.host.d3hot = false → (s.hostQ q.val).state = 1 → s.aprAllows ((s.hostQ q.val).cqBase + 16 * (s.hostQ q.val).rd HIF_Q_CQ_TAIL_TAIL) 16 true = false → 
      ∃ t, exec (.cqRecordWrite q) s = .next t ∧
      (t.hostQ q.val).state = 3 ∧
      (t.hostQ q.val).rd HIF_Q_STATUS_ERR = 2 ∧
      (t.hostQ q.val).due = [] ∧
      t.hostMem = s.hostMem ∧
      Pends t 9 ∧
      (OnlyHost s t ∧ ∀ k, k ≠ q.val → t.hostQ k = s.hostQ k)) ∧
  (∀ (s : State) (n : Fin 512) (us : Nat), s.host.causes.contains n.val = true → (s.msixWord (4 * n.val + 3)).getLsbD 0 = false → s.host.fmask = false → s.host.d3hot = false → s.interval n.val ≤ us → 
      ∃ t, exec (.msixSend n us) s = .next t ∧
      t.out = s.out ++ [.msix n.val ((s.msixWord (4 * n.val)).toNat + 2 ^ 32 * (s.msixWord (4 * n.val + 1)).toNat) (s.msixWord (4 * n.val + 2)).toNat] ∧
      t.host.causes.contains n.val = false ∧
      OnlyHostOut s t ∧ { t.host with causes := s.host.causes } = s.host)

/-- An entry starts at the head, is checked in order, and loads, copies, gates or forces, with one record when it has completed. (from 15_host_bridge.md
(R383, R386, R388, R389, R390, R391, R392), 08_ephemerides_and_folding.md (R207, R208, R222)) The model's choices, no rule's: that SQ_HEAD moves when
an entry starts (assumption log entry 18), and how a COPY is cut into pieces (assumption log entry 19). -/
def Obligations.EntriesAreServed : Prop :=
  (∀ (s : State) (q : QueueId), s.turnOf q.val = false → 
      (∃ t, exec (.sqNop q) s = .next t ∧ t = s) ∧ (∃ t, exec (.loadJob q) s = .next t ∧ t = s) ∧ (∃ t, exec (.copyIn q) s = .next t ∧ t = s) ∧ (∃ t, exec (.copyOut q) s = .next t ∧ t = s) ∧ (∃ t, exec (.gateJob q) s = .next t ∧ t = s) ∧ (∃ t, exec (.forceJob q) s = .next t ∧ t = s)) ∧
  (∀ (s : State) (q : QueueId) (v : List W64), s.startable q.val = some v → s.turnOf q.val = true → entOpc v = 0 → (s.hostQ q.val).badEntry v = false → 
      ∃ t, exec (.sqNop q) s = .next t ∧
      (t.hostQ q.val).due = (s.hostQ q.val).due ++ [⟨entCid v, 0, none, 0, 0, entIrq v⟩] ∧
      (t.hostQ q.val).entries = (s.hostQ q.val).entries.drop 1 ∧
      (t.hostQ q.val).rd HIF_Q_STATUS_SQ_HEAD = ((s.hostQ q.val).rd HIF_Q_STATUS_SQ_HEAD + 1) % (s.hostQ q.val).sqSize % 65536 ∧
      OnlyQueue { s with host := { s.host with serial := s.host.serial + 1, nextQ := (q.val + 1) % 256 } } t q.val) ∧
  (∀ (s : State) (q : QueueId) (v : List W64), s.startable q.val = some v → s.turnOf q.val = true → entOpc v < 6 → (bitsOf (v.getD 0 0) 32 32 ≠ 0 ∨ bitsOf (v.getD 2 0) 46 18 ≠ 0 ∨ bitsOf (v.getD 3 0) 32 32 ≠ 0 ∨ (v.drop 4).any (fun x => x != 0) = true ∨ (entNotify v = true ∧ entOpc v ≠ 1) ∨ (entRel v = true ∧ (s.hostQ q.val).lastLoad = none)) → 
      ∃ t, exec ([Instr.sqNop q, .loadJob q, .copyIn q, .copyOut q, .gateJob q, .forceJob q].getD (entOpc v) (.sqNop q)) s = .next t ∧ (t.hostQ q.val).due = (s.hostQ q.val).due ++ [⟨entCid v, 18, none, 0, 0, entIrq v⟩] ∧ (t.hostQ q.val).entries = (s.hostQ q.val).entries.drop 1 ∧ OnlyQueue { s with host := { s.host with serial := s.host.serial + 1, nextQ := (q.val + 1) % 256 } } t q.val) ∧
  (∀ (s : State) (q : QueueId) (v : List W64), s.startable q.val = some v → s.turnOf q.val = true → 5 < entOpc v → 
      ∃ t, exec (.sqNop q) s = .next t ∧
      (t.hostQ q.val).due = (s.hostQ q.val).due ++ [⟨entCid v, 18, none, 0, 0, entIrq v⟩] ∧
      (t.hostQ q.val).entries = (s.hostQ q.val).entries.drop 1 ∧
      OnlyQueue { s with host := { s.host with serial := s.host.serial + 1, nextQ := (q.val + 1) % 256 } } t q.val) ∧
  (∀ (s : State) (q : QueueId) (v : List W64), s.startable q.val = some v → s.turnOf q.val = true → s.host.d3hot = false → entOpc v = 1 → (s.hostQ q.val).badEntry v = false → entLength v ≠ 0 → s.aprAllows (entHost v) (entLength v) false = true → 
      ∃ t, exec (.loadJob q) s = .next t ∧
      t.dome.loader = s.dome.loader ++ [⟨Mem.bytes s.hostMem (entHost v) (entLength v), q.val, s.host.serial, entCid v, entNotify v⟩] ∧
      (t.hostQ q.val).jobs = (s.hostQ q.val).jobs ++ [⟨s.host.serial, entCid v, 1, entIrq v, entNotify v, none, 0, 0, 0, entHost v, entMaddr v, entLength v, 0, false⟩] ∧
      (t.hostQ q.val).due = (s.hostQ q.val).due ∧
      t.host.rdBytes = s.host.rdBytes + entLength v ∧
      ({ t with host := s.host, dome := s.dome } = s ∧ { t.dome with loader := s.dome.loader } = s.dome ∧ ∀ k, k ≠ q.val → t.hostQ k = s.hostQ k)) ∧
  (∀ (s : State) (q : QueueId) (v : List W64), s.startable q.val = some v → s.turnOf q.val = true → s.host.d3hot = false → entOpc v = 1 → (s.hostQ q.val).badEntry v = false → entLength v ≠ 0 → s.aprAllows (entHost v) (entLength v) false = false → 
      ∃ t, exec (.loadJob q) s = .next t ∧
      (t.hostQ q.val).due = (s.hostQ q.val).due ++ [⟨entCid v, 17, none, 0, 0, entIrq v⟩] ∧
      t.dome.loader = s.dome.loader ∧
      t.apr HIF_APR_LOG_VALID = 1 ∧
      Pends t 9 ∧
      (OnlyHost s t ∧ ∀ k, k ≠ q.val → t.hostQ k = s.hostQ k)) ∧
  (∀ (s : State) (q : QueueId) (v : List W64), s.startable q.val = some v → s.turnOf q.val = true → s.host.d3hot = false → entOpc v = 1 → (s.hostQ q.val).badEntry v = false → entLength v = 0 → 
      ∃ t, exec (.loadJob q) s = .next t ∧
      (t.hostQ q.val).due = (s.hostQ q.val).due ++ [⟨entCid v, 16, none, 0, 0, entIrq v⟩] ∧
      OnlyQueue { s with host := { s.host with serial := s.host.serial + 1, nextQ := (q.val + 1) % 256 } } t q.val) ∧
  (∀ (s : State) (q : QueueId) (v : List W64) (i : Nat), s.startable q.val = some v → s.turnOf q.val = true → s.host.d3hot = false → entOpc v = 2 → (s.hostQ q.val).badEntry v = false → entLength v ≠ 0 → s.aprAllows (entHost v) (entLength v) false = true → (addrSpace (entMaddr v) = 0 ∨ addrSpace (entMaddr v) = 2) → s.addrOk (entMaddr v) (entLength v) = true → entMaddr v % 262144 + entLength v ≤ 262144 → s.attachFor (addrX (entMaddr v)) = some i → (∀ j ∈ s.host.queues, ∀ k ∈ j.2.jobs, k.serial ≠ s.host.serial) → 
      ∃ t, exec (.copyIn q) s = .next t ∧
      (t.hostQ q.val).jobs = (s.hostQ q.val).jobs ++ [⟨s.host.serial, entCid v, 2, entIrq v, entNotify v, none, 0, 0, 1, entHost v, entMaddr v, entLength v, entLength v, false⟩] ∧
      (t.hostQ q.val).due = (s.hostQ q.val).due ∧
      ((t.cluster i).attach.items.getLast?).map (fun x => (x.owner, x.members, x.chan)) = some (8 * s.host.serial + 2, entLength v, s.host.rr % 4) ∧
      (t.cluster i).attach.items.length = (s.cluster i).attach.items.length + 1 ∧
      t.host.rdBytes = s.host.rdBytes + entLength v ∧
      (OnlyHostCluster s t i ∧ ∀ k, k ≠ q.val → t.hostQ k = s.hostQ k)) ∧
  (∀ (s : State) (q : QueueId) (v : List W64), s.startable q.val = some v → s.turnOf q.val = true → s.host.d3hot = false → entOpc v = 2 → (s.hostQ q.val).badEntry v = false → entLength v ≠ 0 → s.aprAllows (entHost v) (entLength v) false = true → s.addrOk (entMaddr v) (entLength v) = false → 
      ∃ t, exec (.copyIn q) s = .next t ∧
      (t.hostQ q.val).due = (s.hostQ q.val).due ++ [⟨entCid v, 19, none, 0, 0, entIrq v⟩] ∧
      OnlyQueue { s with host := { s.host with serial := s.host.serial + 1, nextQ := (q.val + 1) % 256 } } t q.val) ∧
  (∀ (s : State) (q : QueueId) (v : List W64) (i : Nat), s.startable q.val = some v → s.turnOf q.val = true → s.host.d3hot = false → entOpc v = 3 → (s.hostQ q.val).badEntry v = false → entLength v ≠ 0 → s.aprAllows (entHost v) (entLength v) true = true → (addrSpace (entMaddr v) = 0 ∨ addrSpace (entMaddr v) = 2) → s.addrOk (entMaddr v) (entLength v) = true → entMaddr v % 64 + entLength v ≤ 64 → s.attachFor (addrX (entMaddr v)) = some i → (∀ j ∈ s.host.queues, ∀ k ∈ j.2.jobs, k.serial ≠ s.host.serial) → 
      ∃ t, exec (.copyOut q) s = .next t ∧
      (t.hostQ q.val).jobs = (s.hostQ q.val).jobs ++ [⟨s.host.serial, entCid v, 3, entIrq v, entNotify v, none, 0, 0, 1, entHost v, entMaddr v, entLength v, entLength v, false⟩] ∧
      ((t.cluster i).attach.items.getLast?).map (fun x => (x.kind, x.owner, x.members, x.chan)) = some (6, 8 * s.host.serial + 3, 0, 4 + s.host.rr % 4) ∧
      (t.cluster i).attach.items.length = (s.cluster i).attach.items.length + 1 ∧
      t.hostMem = s.hostMem ∧
      (OnlyHostCluster s t i ∧ ∀ k, k ≠ q.val → t.hostQ k = s.hostQ k)) ∧
  (∀ (s : State) (q : QueueId) (v : List W64), s.startable q.val = some v → s.turnOf q.val = true → entOpc v = 4 → (s.hostQ q.val).badEntry v = false → entRel v = false → 
      ∃ t, exec (.gateJob q) s = .next t ∧
      (t.dome_ TCK_GATE_GATE).testBit (entEph v) = (entValue v == 1) ∧
      (t.hostQ q.val).due = (s.hostQ q.val).due ++ [⟨entCid v, 0, some (entEph v), 0, 0, entIrq v⟩] ∧
      (∀ e, e < 8 → e ≠ entEph v → (t.dome_ TCK_GATE_GATE).testBit e = (s.dome_ TCK_GATE_GATE).testBit e) ∧
      ({ t with dome := s.dome, host := s.host } = s ∧ OnlyDomeRegs { s with host := t.host } t [TCK_GATE_GATE.off] ∧ ∀ k, k ≠ q.val → t.hostQ k = s.hostQ k)) ∧
  (∀ (s : State) (q : QueueId) (v : List W64) (x : Eph) (r : RegionId), s.startable q.val = some v → s.turnOf q.val = true → entOpc v = 5 → (s.hostQ q.val).badEntry v = false → entRel v = false → SMap.get (fun _ => none) s.dome.ephs (entEph v) = some x → r.val ∈ x.regions → s.pageOpen r.val = true → (s.region r.val).rd TCK_RSCHED_EPH = entEph v → (s.region r.val).sched_ ∈ [1, 2, 3, 4, 6] → 
      ∃ t, exec (.forceJob q) s = .next t ∧
      (t.region r.val).sched_ = 5 ∧
      (t.region r.val).rd TCK_RSCHED_EPOCH = ((s.region r.val).rd TCK_RSCHED_EPOCH + 1) % 4 ∧
      (t.hostQ q.val).due.length ≥ (s.hostQ q.val).due.length + 1 ∧
      (∀ k, k ∉ x.regions → t.region k = s.region k) ∧
      (∀ c, (t.cluster c).mem = (s.cluster c).mem ∧ (t.cluster c).ds = (s.cluster c).ds))

/-- Each step of the start sequence takes what it observed and begins the next; a failure opens every breaker and stops the start. (from
16_start_catalogue_trust.md (R405, R406, R409, R410, R411, R413, R416, R421), 01_stack_and_floor.md (R29, R36, R37), 12_wafer_mesh.md (R303),
15_host_bridge.md (R374), 14_faults_and_collimation.md (R352)) -/
def Obligations.StartStepsInOrder : Prop :=
  (∀ (s : State) (o : StartObs), s.dome.starting = true → s.dome_ CAT_STATUS_STEP = 1 → o.identity.ok = true → o.counters = true → 
      ∃ t, exec (.startSequence o) s = .next t ∧
      t.dome_ CAT_STATUS_STEP = 2 ∧
      (t.dome.ctr = { s.dome.ctr with starts := if s.dome.ctr.starts < 2 ^ 32 - 1 then s.dome.ctr.starts + 1 else s.dome.ctr.starts }) ∧
      t.dome_ (CAT_STEP_MS_MS.nth 0) = o.ms % 2 ^ CAT_STEP_MS_MS.width ∧
      OnlyDome s t ∧ { t.dome with regs := s.dome.regs, ctr := s.dome.ctr, nor0 := s.dome.nor0 } = s.dome ∧
      (∀ a, a < 0x3FD00000 ∨ 0x3FF00000 ≤ a → t.nor 0 a = s.nor 0 a)) ∧
  (∀ (s : State) (o : StartObs), s.dome.starting = true → s.dome_ CAT_STATUS_STEP = 1 → (o.identity.ok = false ∨ o.counters = false) → 
      ∃ t, exec (.startSequence o) s = .next t ∧
      (t.dome_ CAT_STATUS_RESULT = if o.counters then 1 else 2) ∧
      (t.dome_ CTR_STATUS_INTEGRITY = if o.counters then s.dome_ CTR_STATUS_INTEGRITY else 1) ∧
      t.dome.starting = false ∧
      t.dome.watchdog = false ∧
      t.dome.ctr = s.dome.ctr ∧
      (∀ r ∈ List.range 112, (s.region r).power ≠ 0 → (s.region r).rd PWR_BRK_TRIP ≠ 63 → (t.region r).rd PWR_BRK_TRIP = 63) ∧
      (t.host.apr = s.host.apr ∧ t.hostMem = s.hostMem ∧ t.dome.nor0 = s.dome.nor0 ∧ t.dome.nor1 = s.dome.nor1 ∧ ∀ c, (s.region (regionOf c)).power = 0 → t.cluster c = s.cluster c)) ∧
  (∀ (s : State) (o : StartObs), s.dome.starting = true → s.dome_ CAT_STATUS_STEP = 2 → 
      ∃ t, exec (.startSequence o) s = .next t ∧
      ((State.selectFrom (s.setDome (CAT_STEP_MS_MS.nth 1) o.ms).candidates (s.setDome (CAT_STEP_MS_MS.nth 1) o.ms)).1 = none → t.dome_ CAT_STATUS_RESULT = 3 ∧ t.dome.starting = false) ∧
      (∀ k, (State.selectFrom (s.setDome (CAT_STEP_MS_MS.nth 1) o.ms).candidates (s.setDome (CAT_STEP_MS_MS.nth 1) o.ms)).1 = some k → t.dome_ CAT_STATUS_STEP = 3 ∧ t.runSlot = some k ∧ t.dome.envLocked = true ∧ t.dome_ ALM_ENVELOPE_WATTS = (State.selectFrom (s.setDome (CAT_STEP_MS_MS.nth 1) o.ms).candidates (s.setDome (CAT_STEP_MS_MS.nth 1) o.ms)).2.catEnvelope k % 2 ^ ALM_ENVELOPE_WATTS.width ∧ t.dome.map = (State.selectFrom (s.setDome (CAT_STEP_MS_MS.nth 1) o.ms).candidates (s.setDome (CAT_STEP_MS_MS.nth 1) o.ms)).2.mapAt k ((State.selectFrom (s.setDome (CAT_STEP_MS_MS.nth 1) o.ms).candidates (s.setDome (CAT_STEP_MS_MS.nth 1) o.ms)).2.sectOff k 4) ∧ t.clusters = s.clusters ∧ t.ports = s.ports ∧ t.regions = s.regions) ∧
      t.dome.ctr = s.dome.ctr ∧ OnlyBoot s t ∧ t.host.apr = s.host.apr) ∧
  (∀ (s : State) (o : StartObs), s.dome.starting = true → s.dome_ CAT_STATUS_STEP = 3 → 7 ≤ s.dome.waves → (List.range 112).any (fun r => (s.region r).power == 1) = false → 
      ∃ t, exec (.startSequence o) s = .next t ∧
      t.dome_ CAT_STATUS_STEP = 4 ∧
      t.dome_ (CAT_STEP_MS_MS.nth 2) = o.ms % 2 ^ CAT_STEP_MS_MS.width ∧
      t.dome.starting = true ∧
      t.clusters = s.clusters ∧ t.dome.ctr = s.dome.ctr ∧ t.dome.map = s.dome.map ∧ t.host.apr = s.host.apr) ∧
  (∀ (s : State) (o : StartObs), s.dome.starting = true → s.dome_ CAT_STATUS_STEP = 3 → s.dome.waves < 7 → 
      ∃ t, exec (.startSequence o) s = .next t ∧
      t = s) ∧
  (∀ (s : State) (o : StartObs), s.dome.starting = true → s.dome_ CAT_STATUS_STEP = 4 → 
      ∃ t, exec (.startSequence o) s = .next t ∧
      t.dome_ CAT_STATUS_STEP = 5 ∧
      (∀ r, r < 112 → (t.region r).rd DRV_STATUS_STATE = (if (s.region r).rd DRV_STATUS_STATE = 6 then 1 else (s.region r).rd DRV_STATUS_STATE) ∧ (t.region r).rd TRC_STATUS_STATE = (if (s.region r).rd TRC_STATUS_STATE = 6 then 1 else (s.region r).rd TRC_STATUS_STATE)) ∧
      t.clusters = s.clusters ∧ t.dome.ctr = s.dome.ctr ∧ t.dome.map = s.dome.map) ∧
  (∀ (s : State) (d : IdentityObs) (ms : Nat) (c : ClusterId), s.dome.starting = true → s.dome_ CAT_STATUS_STEP = 5 → 
      ∃ t, exec (.startSequence ⟨d, true, [.logic c], ms⟩) s = .next t ∧
      t.dome_ CAT_STATUS_STEP = 6 ∧
      (t.defect c.val = if (s.defect c.val).cstat = 0 then { s.defect c.val with cstat := 2, cause := 1 } else s.defect c.val) ∧
      ((∀ k, k ≠ c.val → t.defect k = s.defect k) ∧ OnlyDome s t ∧ t.dome.ctr = s.dome.ctr)) ∧
  (∀ (s : State) (d : IdentityObs) (ms : Nat) (c : ClusterId) (wf : Fin 4) (b : Fin 36), s.dome.starting = true → s.dome_ CAT_STATUS_STEP = 6 → s.enabled c.val = true → (s.defect c.val).remaps = [] → 
      ∃ t, exec (.startSequence ⟨d, true, [.store c wf (b.castLE (by omega))], ms⟩) s = .next t ∧
      t.dome_ CAT_STATUS_STEP = 7 ∧
      (t.defect c.val).remaps = [2 ^ 15 + wf.val * 2 ^ 13 + b.val] ∧
      (t.defect c.val).cstat = 0 ∧
      t.dome.merged = true ∧
      t.dome_ DOM_DMAP_GEN_GEN = (s.dome_ DOM_DMAP_GEN_GEN + 1) % 65536 ∧
      ((∀ k, k ≠ c.val → t.defect k = s.defect k) ∧ OnlyDome s t ∧ t.dome.ctr = s.dome.ctr)) ∧
  (∀ (s : State) (o : StartObs), s.dome.starting = true → s.dome_ CAT_STATUS_STEP = 7 → 
      ∃ t, exec (.startSequence o) s = .next t ∧
      t.dome.holeGen = s.dome.holeGen + 1 ∧
      t.dome.holes = (List.range 8960).filter s.opaqueRouter ++ ((List.range 112).filter (fun r => (s.region r).hole)).map (fun r => 8960 + r) ∧
      (s.guarantee = false → t.dome_ CAT_STATUS_RESULT = 4 ∧ t.dome.starting = false) ∧
      (s.guarantee = true → t.dome_ CAT_STATUS_STEP = 8 ∧ t.dome.starting = true) ∧
      (t.dome.ctr = s.dome.ctr ∧ t.dome.map = s.dome.map ∧ t.host.apr = s.host.apr ∧ (s.guarantee = true → t.clusters = s.clusters))) ∧
  (∀ (s : State) (o : StartObs), s.dome.starting = true → s.dome_ CAT_STATUS_STEP = 8 → 
      ∃ t, exec (.startSequence o) s = .next t ∧
      t.dome_ CAT_STATUS_STEP = 9 ∧
      t.dome.degPend = [] ∧
      OnlyDomeRegs { s with dome := { s.dome with degPend := [] } } t [CAT_STATUS_STEP.off, (CAT_STEP_MS_MS.nth 7).off]) ∧
  (∀ (s : State) (o : StartObs) (k : Nat), s.dome.starting = true → s.dome_ CAT_STATUS_STEP = 9 → s.clocked 8 = true → s.runSlot = some k → 
      ∃ t, exec (.startSequence o) s = .next t ∧
      t.ready = true ∧
      (t.mstate = if s.replace then 3 else 1) ∧
      t.dome.locked = true ∧
      t.dome.envLocked = true ∧
      t.dome.watchdog = false ∧
      t.dome.ctr.svn = max s.dome.ctr.svn (s.catSvn k) ∧
      (t.dome.ctr.bound = if s.catEnvelope k = s.dome.ctr.bound then s.dome.ctr.bound else if s.dome.ctr.changes < 32 then s.catEnvelope k else s.dome.ctr.bound) ∧
      (t.dome.ctr.changes = if s.catEnvelope k = s.dome.ctr.bound then s.dome.ctr.changes else if s.dome.ctr.changes < 32 then s.dome.ctr.changes + 1 else s.dome.ctr.changes) ∧
      t.dome.ctr.rpl = s.dome.ctr.rpl ∧
      t.dome.ctr.starts = s.dome.ctr.starts ∧
      t.dome_ CAT_STATUS_STEP = 10 ∧
      t.clusters = s.clusters ∧ t.ports = s.ports ∧ t.regions = s.regions ∧ t.aperture = s.aperture ∧ t.hostMem = s.hostMem ∧ t.dome.map = s.dome.map) ∧
  (∀ (s : State) (o : StartObs), s.dome.starting = true → s.dome_ CAT_STATUS_STEP = 10 → 
      ∃ t, exec (.startSequence o) s = .next t ∧
      t.dome_ CAT_STATUS_STEP = 0 ∧
      t.dome.starting = false ∧
      t.mstate = s.mstate ∧
      { t with dome := { t.dome with regs := s.dome.regs, starting := s.dome.starting } } = s) ∧
  (∀ (s : State) (o : StartObs), s.dome.starting = false → 
      ∃ t, exec (.startSequence o) s = .next t ∧
      t = s)

/-- An update erases, programs and checks the slot that does not run, for one transport; fallback and the watchdog retire the one that does. (from
16_start_catalogue_trust.md (R399, R406, R407, R408, R421)) The model's choices, no rule's: the layout of the boot record, and that an even number
goes to device 0 and an odd one to device 1 (assumption log entry 23). -/
def Obligations.CatalogueSlotsAndUpdates : Prop :=
  (∀ (s : State) (k : Fin 2), s.dome.watchdog = true → s.runSlot = some k.val → s.dome.bootFits = true → 
      ∃ t, exec (.startWatchdogExpiry) s = .next t ∧
      (t.slot k.val).state = 4 ∧
      t.dome_ CAT_STATUS_STEP = 1 ∧
      t.dome.starting = true ∧
      t.dome.watchdog = true ∧
      t.ready = false ∧
      t.dome.ctr = s.dome.ctr ∧
      t.dome.locked = false ∧
      t.regions = [] ∧ t.clusters = [] ∧ t.ports = [] ∧ OnlyBoot s t ∧ t.host.apr = s.host.apr ∧ t.hostMem = s.hostMem ∧
      (∀ j, j < 2 → j ≠ k.val → t.slot j = s.slot j)) ∧
  (∀ (s : State) (k : Fin 2), s.runSlot = some k.val → (s.slot (1 - k.val)).state = 3 → s.dome.ctr.svn ≤ s.slotSvn (1 - k.val) → s.dome.upd = none → s.clocked 8 = true → 
      ∃ t, exec (.fallback) s = .next t ∧
      (t.slot k.val).state = 5 ∧
      t.dome_ CAT_STATUS_FALLBACK_PEND = 1 ∧
      t.slot (1 - k.val) = s.slot (1 - k.val) ∧
      t.dome_ CAT_EVENT_FB_REFUSED = s.dome_ CAT_EVENT_FB_REFUSED ∧
      t.norBytes ((s.dome.bootSeq + 1) % 2 ^ 32 % 2) 0x3FC01000 16 = BootRec.bytes ⟨(s.dome.bootSeq + 1) % 2 ^ 32, t.slot 0, t.slot 1⟩ ∧
      OnlyDome s t ∧ OnlyBoot s t ∧ { t.dome with
      regs := s.dome.regs, slotA := s.dome.slotA, slotB := s.dome.slotB, bootSeq := s.dome.bootSeq, nor0 := s.dome.nor0, nor1 := s.dome.nor1 } = s.dome ∧
      ((if (s.dome.bootSeq + 1) % 2 ^ 32 % 2 = 0 then t.dome.nor1 = s.dome.nor1 else t.dome.nor0 = s.dome.nor0))) ∧
  (∀ (s : State), (∀ k ∈ List.range 2, s.runSlot = some k → (s.slot (1 - k)).state ≠ 3) → s.dome_ CAT_STATUS_RUN_SLOT < 2 → s.clocked 8 = true → 
      ∃ t, exec (.fallback) s = .next t ∧
      t.dome_ CAT_EVENT_FB_REFUSED = 1 ∧
      OnlyDomeRegs s t [CAT_EVENT_FB_REFUSED.off]) ∧
  (∀ (s : State), s.clocked 8 = false → 
      ∃ t, exec (.fallback) s = .next t ∧
      t = s.modDome (fun d => { d with heldReqs := d.heldReqs ++ [.fallback] })) ∧
  (∀ (s : State) (k : Fin 2) (via : Via), s.updVia via = true → s.dome.upd = none → s.runSlot = some (1 - k.val) → s.dome_ CAT_STATUS_FALLBACK_PEND = 0 → 
      ∃ t, exec (.updOpen k via) s = .next t ∧
      t.dome.upd = some (via, k.val) ∧
      t.slot k.val = ⟨0, 0, 0⟩ ∧
      t.slot (1 - k.val) = s.slot (1 - k.val) ∧
      t.dome_ CAT_UPD_STATUS_STATE = 1 ∧
      (t.dome_ CAT_UPD_STATUS_MCTP = if via = .mctp then 1 else 0) ∧
      t.dome_ CAT_UPD_CTRL_SLOT = k.val ∧
      OnlyDome (s.viaCount via) t ∧ t.dome.ctr = s.dome.ctr ∧ OnlyBoot s t) ∧
  (∀ (s : State) (k : Fin 2) (via : Via), s.updVia via = true → (s.dome.upd ≠ none ∨ s.runSlot = some k.val) → 
      ∃ t, exec (.updOpen k via) s = .next t ∧
      t.dome_ CAT_EVENT_UPD_ERR = 1 ∧
      OnlyDomeRegs (s.viaCount via) t [CAT_EVENT_UPD_ERR.off]) ∧
  (∀ (s : State) (k : Fin 2) (via : Via), s.dome.upd = some (via, k.val) → s.dome_ CAT_UPD_STATUS_STATE = 1 → s.dome.heldReqs = [] → 
      ∃ t, exec (.updEraseDone) s = .next t ∧
      t.dome_ CAT_UPD_STATUS_STATE = 2 ∧
      (∀ a, SMap.get norDefault (if k.val = 0 then t.dome.nor0 else t.dome.nor1) a = (if a < 0x3FC00000 then 0xFF else SMap.get norDefault (if k.val = 0 then s.dome.nor0 else s.dome.nor1) a)) ∧
      (OnlyDome s t ∧ t.dome.ctr = s.dome.ctr ∧ t.slot 0 = s.slot 0 ∧ t.slot 1 = s.slot 1 ∧ (if k.val = 0 then t.dome.nor1 = s.dome.nor1 else t.dome.nor0 = s.dome.nor0))) ∧
  (∀ (s : State) (k : Fin 2) (via : Via) (off : Nat) (v : W32), s.updVia via = true → off < 0x10000 → off % 4 = 0 → s.clocked 3 = true → s.dome.upd = some (via, k.val) → s.dome_ CAT_UPD_STATUS_STATE = 2 → s.dome_ CAT_UPD_OFFSET_PIECE < 0x3FC → 
      ∃ t, exec (.updWinWrite off v via) s = .next t ∧
      (∀ j, j < 4 → SMap.get norDefault (if k.val = 0 then t.dome.nor0 else t.dome.nor1) (65536 * s.dome_ CAT_UPD_OFFSET_PIECE + off + j) = BitVec.ofNat 8 (v.toNat / 2 ^ (8 * j))) ∧
      (∀ a, a < 65536 * s.dome_ CAT_UPD_OFFSET_PIECE + off ∨ 65536 * s.dome_ CAT_UPD_OFFSET_PIECE + off + 4 ≤ a → SMap.get norDefault (if k.val = 0 then t.dome.nor0 else t.dome.nor1) a = SMap.get norDefault (if k.val = 0 then s.dome.nor0 else s.dome.nor1) a) ∧
      ({ t with dome := { t.dome with nor0 := s.dome.nor0, nor1 := s.dome.nor1 } } = s.viaCount via ∧ (if k.val = 0 then t.dome.nor1 = s.dome.nor1 else t.dome.nor0 = s.dome.nor0))) ∧
  (∀ (s : State) (k : Fin 2) (o via : Via) (off : Nat) (v : W32), s.updVia via = true → off < 0x10000 → off % 4 = 0 → s.clocked 3 = true → s.dome.upd = some (o, k.val) → (o ≠ via ∨ s.dome_ CAT_UPD_STATUS_STATE ≠ 2 ∨ 0x3FC ≤ s.dome_ CAT_UPD_OFFSET_PIECE) → 
      ∃ t, exec (.updWinWrite off v via) s = .next t ∧
      t.dome_ CAT_EVENT_UPD_ERR = 1 ∧
      OnlyDomeRegs (s.viaCount via) t [CAT_EVENT_UPD_ERR.off]) ∧
  (∀ (s : State) (k : Fin 2) (via : Via), s.updVia via = true → s.dome.upd = some (via, k.val) → s.dome_ CAT_UPD_STATUS_STATE = 2 → s.clocked 7 = true → s.clocked 8 = true → 
      ∃ t, exec (.updClose via) s = .next t ∧
      (t.slot k.val = ⟨if s.verify k.val = 0 then 1 else 4, 0, s.verify k.val⟩) ∧
      t.slot (1 - k.val) = s.slot (1 - k.val) ∧
      (t.dome_ CAT_UPD_STATUS_RESULT = if s.verify k.val = 0 then 1 else 2) ∧
      t.dome_ CAT_UPD_STATUS_STATE = 0 ∧
      t.dome_ CAT_EVENT_UPD_DONE = 1 ∧
      t.dome.upd = none ∧
      OnlyDome (s.viaCount via) t ∧ t.dome.ctr = s.dome.ctr ∧ OnlyBoot s t) ∧
  (∀ (s : State) (k : Fin 2) (via : Via), s.updVia via = true → s.dome.upd = some (via, k.val) → (s.dome_ CAT_UPD_STATUS_STATE = 1 ∨ s.dome_ CAT_UPD_STATUS_STATE = 2) → 
      ∃ t, exec (.updAbort via) s = .next t ∧
      t.dome.upd = none ∧
      t.dome_ CAT_UPD_STATUS_STATE = 0 ∧
      t.dome_ CAT_EVENT_UPD_DONE = 1 ∧
      OnlyDome (s.viaCount via) t ∧ { t.dome with regs := s.dome.regs, upd := s.dome.upd } = s.dome) ∧
  (∀ (s : State) (k : Fin 2) (o via : Via), s.updVia via = true → s.dome.upd = some (o, k.val) → o ≠ via → 
      ∃ t, exec (.updClose via) s = .next t ∧
      t.dome_ CAT_EVENT_UPD_ERR = 1 ∧
      OnlyDomeRegs (s.viaCount via) t [CAT_EVENT_UPD_ERR.off]) ∧
  (∀ (s : State) (k : Fin 2) (o via : Via), s.updVia via = true → s.dome.upd = some (o, k.val) → o ≠ via → 
      ∃ t, exec (.updAbort via) s = .next t ∧
      t.dome_ CAT_EVENT_UPD_ERR = 1 ∧
      OnlyDomeRegs (s.viaCount via) t [CAT_EVENT_UPD_ERR.off])

/-- Attestation answers are framed and signed, a leaf is spent before its signature; tokens act only if every check passes; gated work waits. (from
16_start_catalogue_trust.md (R413, R415, R416, R417, R418, R419), 17_dome_and_eyepiece.md (R424, R425, R427, R428, R429, R430, R431)) The model's
choices, no rule's: that a response carries the vendor's head of its request, and that the framing is opaque (assumption log entry 24). -/
def Obligations.DomeControllerServices : Prop :=
  (∀ (s : State) (tr : Transport), s.domeUp = true → 
      ∃ t, exec (.getCertificate ⟨tr, 0⟩) s = .next t ∧
      t.out = s.out ++ [.reply (transportCode tr) (Config.spdmFrame 0 s.identity.1)] ∧
      { t with out := s.out } = s) ∧
  (∀ (s : State) (tr : Transport) (n : Nat), s.domeUp = true → n ≠ 0 → 
      ∃ t, exec (.getCertificate ⟨tr, n⟩) s = .next t ∧
      t.out = s.out ++ [.reply (transportCode tr) (Config.spdmFrame 4 [])] ∧
      { t with out := s.out } = s) ∧
  (∀ (s : State) (tr : Transport), s.domeUp = true → 
      ∃ t, exec (.getEndorsement tr) s = .next t ∧
      t.out = s.out ++ [.reply (transportCode tr) (Config.spdmFrame 3 (leBytes 2 4 ++ leBytes 4 0x0001B6E5 ++ leBytes 1 1 ++ hssPublicKey ++ s.identity.2))] ∧
      { t with out := s.out } = s) ∧
  (∀ (s : State) (tr : Transport) (b : List Byte), s.domeUp = true → s.clocked 7 = true → 
      ∃ t, exec (.challenge tr b) s = .next t ∧
      t.free = s.free + 1 ∧
      (∃ m, t.out = s.out ++ [.reply (transportCode tr) (m ++ deviceSign (b ++ m))] ∧ SMap.get (fun _ => []) t.dome.spdm (transportCode tr) = m ++ deviceSign (b ++ m) ∧ m = Config.spdmFrame 1 (Config.sha384 s.identity.1 ++ Config.nonce s.free)) ∧
      { t with out := s.out, free := s.free, dome := { t.dome with spdm := s.dome.spdm } } = s) ∧
  (∀ (s : State) (tr : Transport) (b : List Byte), s.domeUp = true → s.clocked 7 = false → 
      ∃ t, exec (.challenge tr b) s = .next t ∧
      t = s.modDome (fun d => { d with heldReqs := d.heldReqs ++ [.spdm 0 tr b] })) ∧
  (∀ (s : State) (tr : Transport) (b : List Byte), s.domeUp = true → s.clocked 7 = true → s.clocked 8 = true → 
      ∃ t, exec (.getMeasurements tr b) s = .next t ∧
      (∃ m, t.out = s.out ++ [.reply (transportCode tr) (m ++ deviceSign (b ++ m))] ∧ SMap.get (fun _ => []) t.dome.spdm (transportCode tr) = m ++ deviceSign (b ++ m) ∧ m = Config.spdmFrame 2 (s.measurements.flatMap spdmBlock)) ∧
      { t with out := s.out, dome := { t.dome with spdm := s.dome.spdm } } = s) ∧
  (∀ (s : State) (tr : Transport), s.domeUp = true → s.clocked 7 = true → s.clocked 8 = true → SMap.get (fun _ => []) s.dome.spdm (transportCode tr) ≠ [] → s.dome.ctr.lms < 2 ^ 30 → 
      ∃ t, exec (.cosign tr) s = .next t ∧
      t.dome.ctr = { s.dome.ctr with lms := s.dome.ctr.lms + 1 } ∧
      t.out = s.out ++ [.reply (transportCode tr) (Config.spdmFrame 3 (leBytes 2 4 ++ leBytes 4 0x0001B6E5 ++ leBytes 1 2 ++ deviceCosign s.dome.ctr.lms (Config.sha384 (SMap.get (fun _ => []) s.dome.spdm (transportCode tr)))))] ∧
      ({ t with out := s.out, dome := { t.dome with ctr := s.dome.ctr, nor0 := s.dome.nor0 } } = s ∧ ∀ a, a < 0x3FD00000 ∨ 0x3FF00000 ≤ a → t.nor 0 a = s.nor 0 a)) ∧
  (∀ (s : State) (tr : Transport), s.domeUp = true → s.clocked 7 = true → s.clocked 8 = true → (SMap.get (fun _ => []) s.dome.spdm (transportCode tr) = [] ∨ 2 ^ 30 ≤ s.dome.ctr.lms) → 
      ∃ t, exec (.cosign tr) s = .next t ∧
      t.out = s.out ++ [.reply (transportCode tr) (Config.spdmFrame 4 [])] ∧
      (SMap.get (fun _ => []) s.dome.spdm (transportCode tr) ≠ [] → t.dome_ CTR_STATUS_LIMIT = 1) ∧
      ({ t with out := s.out, dome := s.dome } = s ∧ { t.dome with regs := s.dome.regs } = s.dome ∧ ∀ o, o ≠ CTR_STATUS_LIMIT.off → Regs.word domeTable t.dome.regs o = Regs.word domeTable s.dome.regs o)) ∧
  (∀ (s : State) (v : W32), s.domeUp = true → s.runSlot.isSome = true → s.dome.heldReqs = [] → s.dome_ CAT_UPD_STATUS_STATE ≠ 1 → 
      ∃ t, exec (.domClkenWrite v) s = .next t ∧
      t.dome_ DOM_CLKEN_EN = DOM_CLKEN_EN.of v ∧
      OnlyDomeRegs s t [DOM_CLKEN_EN.off]) ∧
  (∀ (s : State) (v : W32), s.domeUp = true → s.runSlot.isSome = true → s.dome.heldReqs = [] → s.dome_ CAT_UPD_STATUS_STATE = 1 → 
      ∃ t, exec (.domClkenWrite v) s = .next t ∧
      t.dome_ DOM_CLKEN_EN = s.dome_ DOM_CLKEN_EN ∧
      t = s.modDome (fun d => { d with heldReqs := [.clken v] })) ∧
  (∀ (s : State) (v : W32), s.domeUp = true → s.runSlot.isSome = true → s.dome.heldReqs = [.setReplace] → (DOM_CLKEN_EN.of v).testBit 8 = true → s.dome_ CAT_UPD_STATUS_STATE ≠ 1 → 
      ∃ t, exec (.domClkenWrite v) s = .next t ∧
      t.replace = true ∧
      t.dome.heldReqs = [] ∧
      (t.dome.ctr.rpl = if s.replace then s.dome.ctr.rpl else s.dome.ctr.rpl + 1) ∧
      OnlyDome s t ∧ t.dome.nor0 = s.dome.nor0 ∧ t.dome.eye = s.dome.eye) ∧
  (∀ (s : State) (v : W32), DOM_MCLK_SRC_SEL.of v < 3 → (s.dome_ DOM_MCLK_STATUS_READY).testBit (DOM_MCLK_SRC_SEL.of v) = true → 
      ∃ t, exec (.mclkSrcWrite v) s = .next t ∧
      t.dome_ DOM_MCLK_SRC_SEL = DOM_MCLK_SRC_SEL.of v ∧
      t.dome_ DOM_MCLK_STATUS_HOLDOVER = 0 ∧
      OnlyDomeRegs s t [DOM_MCLK_SRC_SEL.off, DOM_MCLK_STATUS_HOLDOVER.off]) ∧
  (∀ (s : State) (v : W32), (DOM_MCLK_SRC_SEL.of v = 3 ∨ (s.dome_ DOM_MCLK_STATUS_READY).testBit (DOM_MCLK_SRC_SEL.of v) = false) → 
      ∃ t, exec (.mclkSrcWrite v) s = .next t ∧
      t.dome_ DOM_MCLK_STATUS_SRC_ERR = 1 ∧
      t.dome_ DOM_MCLK_SRC_SEL = s.dome_ DOM_MCLK_SRC_SEL ∧
      OnlyDomeRegs s t [DOM_MCLK_STATUS_SRC_ERR.off]) ∧
  (∀ (s : State), s.dome_ DOM_MCLK_STATUS_HOLDOVER = 1 → 
      ∃ t, exec (.mclkHoldoverTimeout) s = .next t ∧
      t.dome_ DOM_MCLK_SRC_SEL = 0 ∧
      t.dome_ DOM_MCLK_STATUS_LOS = 1 ∧
      t.dome_ DOM_MCLK_STATUS_HOLDOVER = 0 ∧
      OnlyDomeRegs s t [DOM_MCLK_SRC_SEL.off, DOM_MCLK_STATUS_LOS.off]) ∧
  (∀ (s : State) (n : Nat), s.domeUp = true → 
      ∃ t, exec (.mctpControl n) s = .next t ∧
      t.dome.eid = n % 256 ∧
      t.out = s.out ++ [.reply 1 (leBytes 1 0 ++ leBytes 1 n)] ∧
      { t with out := s.out, dome := { t.dome with eid := s.dome.eid } } = s) ∧
  (∀ (s : State) (via : Via) (b : List Byte), s.tokTakes via b = true → tokAction b ≠ 2 → tokFormat b = true → tokRoute via b = false → s.tokBusy = false → s.clocked 7 = true → s.clocked 8 = true → 
      ∃ t, exec (.clearReplace via b) s = .next t ∧
      t.dome_ EYE_STATUS_RESULT = s.tokCheck via b ∧
      t.dome_ EYE_EVENT_TOKEN = 1 ∧
      (t.dome.ctr.rpl = if s.tokCheck via b = 0 then s.dome.ctr.rpl + 1 else s.dome.ctr.rpl) ∧
      (s.tokCheck via b = 0 → s.replace = true ∧ t.replace = false ∧ t.dome.eye.nonceOk = false) ∧
      (via = .mctp → t.out = s.out ++ [.reply 1 (leBytes 1 0 ++ leBytes 1 (s.tokCheck via b))]) ∧
      ({ t with out := s.out, dome := s.dome } = s.viaCount via ∧ (s.tokCheck via b ≠ 0 → { t.dome with regs := s.dome.regs } = s.dome)) ∧
      (∀ o, o ∉ [EYE_STATUS_RESULT.off, EYE_EVENT_TOKEN.off] → Regs.word domeTable t.dome.regs o = Regs.word domeTable s.dome.regs o)) ∧
  (∀ (s : State) (b : List Byte), s.ready = true → tokFormat b = true → tokAction b = 1 → 
      ∃ t, exec (.clearReplace .bar0 b) s = .next t ∧
      t.dome_ EYE_STATUS_RESULT = 2 ∧
      t.dome.ctr = s.dome.ctr ∧
      t.out = s.out ∧
      OnlyDomeRegs s.barCount t [EYE_STATUS_RESULT.off, EYE_EVENT_TOKEN.off])

/-- The eyepiece opens by a token for its scopes alone, reaches registers, scans, counts and traces, and closes at its expiry. (from
17_dome_and_eyepiece.md (R429, R430, R431, R432, R433, R434, R435, R436, R437, R438)) The model's choices, no rule's: the place of the opening count
in the NOR (assumption log entry 23); that EN clears at a close, and which words of a trace record the region gives (assumption log entry 24); a
region's chain of 4,096 bits for each cluster in mask order, with free bits where none are given, and BYPASS's one bit (assumption log entry 25). -/
def Obligations.EyepieceOpensAndObserves : Prop :=
  (∀ (s : State) (via : Via) (b : List Byte), s.tokTakes via b = true → tokAction b = 2 → tokFormat b = true → s.tokBusy = false → s.clocked 7 = true → s.clocked 8 = true → 
      ∃ t, exec (.openEyepiece via b) s = .next t ∧
      t.dome_ EYE_STATUS_RESULT = s.tokCheck via b ∧
      t.dome_ EYE_EVENT_TOKEN = 1 ∧
      (s.tokCheck via b = 0 → t.dome_ EYE_STATUS_OPEN = 1 ∧ t.dome_ EYE_STATUS_SCOPE = tokScope b ∧ t.dome.eye.opens = s.dome.eye.opens + 1 ∧ t.dome.eye.nonceOk = false ∧ t.dome_ EYE_EXPIRY_LO_TICK = (s.tickNum + tokDuration b) % 2 ^ 32) ∧
      (s.tokCheck via b ≠ 0 → t.dome_ EYE_STATUS_OPEN = s.dome_ EYE_STATUS_OPEN ∧ t.dome.eye = s.dome.eye) ∧
      t.dome.ctr = s.dome.ctr ∧
      (via = .mctp → t.out = s.out ++ [.reply 1 (leBytes 1 0 ++ leBytes 1 (s.tokCheck via b))]) ∧
      (s.tokCheck via b = 0 → (t.norBytes 0 0x3FC02000 4 = leBytes 4 (s.dome.eye.opens + 1) ∧ t.norBytes 1 0x3FC02000 4 = leBytes 4 (s.dome.eye.opens + 1))) ∧
      (s.tokCheck via b ≠ 0 → (t.dome.nor0 = s.dome.nor0 ∧ t.dome.nor1 = s.dome.nor1)) ∧
      { t with out := s.out, dome := { t.dome with regs := s.dome.regs, eye := s.dome.eye, nor0 := s.dome.nor0, nor1 := s.dome.nor1 } } = s.viaCount via ∧
      (∀ k a, (a < 0x3FC02000 ∨ 0x3FC02004 ≤ a) → t.nor k a = s.nor k a)) ∧
  (∀ (s : State), s.domeUp = true → 
      ∃ t, exec (.nonceCmd) s = .next t ∧
      t.dome.eye.nonce = (Config.nonce s.free ++ List.replicate 32 0).take 32 ∧
      t.dome.eye.nonceOk = true ∧
      t.out = s.out ++ [.reply 1 (leBytes 1 0 ++ t.dome.eye.nonce)] ∧
      t.free = s.free + 1 ∧
      { t with out := s.out, free := s.free, dome := { t.dome with eye := { t.dome.eye with nonce := s.dome.eye.nonce, nonceOk := s.dome.eye.nonceOk } } } = s) ∧
  (∀ (s : State), s.domeUp = true → 
      ∃ t, exec (.newnonce) s = .next t ∧
      t.dome.eye.nonce = (Config.nonce s.free ++ List.replicate 32 0).take 32 ∧
      t.dome.eye.nonceOk = true ∧
      { t with free := s.free, dome := { t.dome with eye := { t.dome.eye with nonce := s.dome.eye.nonce, nonceOk := s.dome.eye.nonceOk } } } = s) ∧
  (∀ (s : State), s.dome_ EYE_STATUS_OPEN = 1 → 
      ∃ t, exec (.eyepieceClose) s = .next t ∧
      t.dome_ EYE_STATUS_OPEN = 0 ∧
      t.dome_ EYE_STATUS_SCOPE = 0 ∧
      t.dome_ EYE_TRC_CTRL_EN = 0 ∧
      OnlyDomeRegs s t [EYE_STATUS_OPEN.off, EYE_TRC_CTRL_EN.off]) ∧
  (∀ (s : State), s.dome_ EYE_STATUS_OPEN = 1 → s.dome_ EYE_EXPIRY_LO_TICK + 2 ^ 32 * s.dome_ EYE_EXPIRY_HI_TICK ≤ s.tickNum → 
      ∃ t, exec (.eyepieceExpiry) s = .next t ∧
      t.dome_ EYE_STATUS_OPEN = 0 ∧
      t.dome_ EYE_STATUS_SCOPE = 0 ∧
      t.dome_ EYE_TRC_CTRL_EN = 0 ∧
      OnlyDomeRegs s t [EYE_STATUS_OPEN.off, EYE_TRC_CTRL_EN.off]) ∧
  (∀ (s : State), s.tickNum < s.dome_ EYE_EXPIRY_LO_TICK + 2 ^ 32 * s.dome_ EYE_EXPIRY_HI_TICK → 
      ∃ t, exec (.eyepieceExpiry) s = .next t ∧
      t = s) ∧
  (∀ (s : State), s.scopeOpen 3 = true → s.dome_ EYE_ACC_CTRL_BUSY = 0 → s.eyeWay s.eyeAddr = .refused → 
      ∃ t, exec (.eyeAccRead) s = .next t ∧
      t.dome_ EYE_ACC_CTRL_BUSY = 0 ∧
      t.dome_ EYE_ACC_CTRL_STATUS = 1 ∧
      t.dome_ EYE_ACC_DATA_DATA = 0xFFFFFFFF ∧
      t.dome_ EYE_EVENT_ACC_ERR = 1 ∧
      t.clusters = s.clusters ∧ t.regions = s.regions ∧ t.ports = s.ports ∧ t.out = s.out ∧ t.host.apr = s.host.apr ∧ t.dome.ctr = s.dome.ctr) ∧
  (∀ (s : State) (k a : Nat), s.scopeOpen 3 = true → s.dome_ EYE_ACC_CTRL_BUSY = 0 → s.eyeWay s.eyeAddr = .mesh k a → k < 8960 → 
      ∃ t, exec (.eyeAccRead) s = .next t ∧
      t.dome_ EYE_ACC_CTRL_BUSY = 1 ∧
      t.dome_ EYE_ACC_CTRL_STATUS = 0 ∧
      ((t.cluster k).attach.items.getLast?).map (fun x => (x.kind, x.owner, x.members)) = some (6, 8 * s.host.serial + 4, a % 64) ∧
      (t.cluster k).attach.items.length = (s.cluster k).attach.items.length + 1 ∧
      ((∀ j, j ≠ k → t.cluster j = s.cluster j) ∧ t.regions = s.regions ∧ t.host.apr = s.host.apr ∧ t.dome.ctr = s.dome.ctr)) ∧
  (∀ (s : State), s.scopeOpen 3 = true → s.dome_ EYE_ACC_CTRL_BUSY = 0 → s.eyeWay s.eyeAddr = .refused → 
      ∃ t, exec (.eyeAccWrite) s = .next t ∧
      t.dome_ EYE_ACC_CTRL_BUSY = 0 ∧
      t.dome_ EYE_ACC_CTRL_STATUS = 1 ∧
      t.dome_ EYE_EVENT_ACC_ERR = 1 ∧
      t.clusters = s.clusters ∧ t.regions = s.regions ∧ t.ports = s.ports ∧ t.host.apr = s.host.apr ∧ t.dome.ctr = s.dome.ctr) ∧
  (∀ (s : State) (k a : Nat), s.scopeOpen 3 = true → s.dome_ EYE_ACC_CTRL_BUSY = 0 → s.eyeWay s.eyeAddr = .mesh k a → k < 8960 → 
      ∃ t, exec (.eyeAccWrite) s = .next t ∧
      t.dome_ EYE_ACC_CTRL_BUSY = 1 ∧
      t.dome_ EYE_ACC_CTRL_WRITE = 1 ∧
      ((t.cluster k).attach.items.getLast?).map (fun x => (x.owner, x.ngran, x.dy, x.dx)) = some (8 * s.host.serial + 4, 1, addrY a, addrX a) ∧
      (t.cluster k).attach.items.length = (s.cluster k).attach.items.length + 1 ∧
      ((∀ j, j ≠ k → t.cluster j = s.cluster j) ∧ t.regions = s.regions ∧ t.host.apr = s.host.apr ∧ t.dome.ctr = s.dome.ctr)) ∧
  (∀ (s : State) (i : TapInstr) (bits : List Bool), s.scopeOpen 0 = true → s.dome_ EYE_SCAN_CTRL_TARGET < 2 → (i = .extest → s.mstate = 3) → 
      ∃ t, exec (.scanCapture i bits) s = .next t ∧
      t.dome_ EYE_SCAN_CTRL_CAPTURE = 1 ∧
      (i = .idcode → (t.dome.eye.scan s.scanKey).length = 32 ∧ ∀ k ∈ List.range 32, (t.dome.eye.scan s.scanKey).getD k false = Nat.testBit (if s.dome_ EYE_SCAN_CTRL_TARGET = 0 then 0x18960B4B else 0x18961B4B) k) ∧
      (i = .bypass → t.dome.eye.scan s.scanKey = [false]) ∧
      (i = .sample ∨ i = .extest → t.dome.eye.scan s.scanKey = bits) ∧
      t.dome_ EYE_SCAN_LEN_BITS = (t.dome.eye.scan s.scanKey).length % 2 ^ EYE_SCAN_LEN_BITS.width ∧
      (OnlyDome s t ∧ { t.dome with regs := s.dome.regs, eye := { t.dome.eye with chain := s.dome.eye.chain } } = s.dome ∧ ∀ k, k ≠ s.scanKey → t.dome.eye.scan k = s.dome.eye.scan k)) ∧
  (∀ (s : State) (i : TapInstr) (bits : List Bool), s.scopeOpen 0 = true → s.dome_ EYE_SCAN_CTRL_TARGET = 2 → (s.region (s.dome_ EYE_SCAN_CTRL_REGION)).sched_ ∈ [1, 2, 3, 4, 5, 7] → 
      ∃ t, exec (.scanCapture i bits) s = .next t ∧
      t.dome_ EYE_EVENT_SCAN_REF = 1 ∧
      t.dome_ EYE_SCAN_CTRL_CAPTURE = 1 ∧
      OnlyDomeRegs s t [EYE_EVENT_SCAN_REF.off, EYE_SCAN_CTRL_CAPTURE.off]) ∧
  (∀ (s : State) (bits : List Bool), s.scopeOpen 0 = true → s.dome_ EYE_SCAN_CTRL_TARGET < 2 → s.mstate ≠ 3 → 
      ∃ t, exec (.scanCapture .extest bits) s = .next t ∧
      t.dome_ EYE_EVENT_SCAN_REF = 1 ∧
      OnlyDomeRegs s t [EYE_EVENT_SCAN_REF.off, EYE_SCAN_CTRL_CAPTURE.off]) ∧
  (∀ (s : State) (bits : List Bool), s.scopeOpen 0 = true → s.dome_ EYE_SCAN_CTRL_TARGET = 2 → s.dome_ EYE_SCAN_CTRL_REGION < 112 → (s.region (s.dome_ EYE_SCAN_CTRL_REGION)).sched_ ∈ [0, 6] → 
      ∃ t, exec (.scanCapture .sample bits) s = .next t ∧
      (t.dome.eye.scan (4 + s.dome_ EYE_SCAN_CTRL_REGION) = (List.range 80).flatMap (fun k => sliceOf (bits ++ freeBits s.free (327680 - bits.length))
      (4096 * (if halfOf (s.dome_ EYE_SCAN_CTRL_REGION) = 1 then (9 - k % 10) + 10 * (7 - k / 10) else k)) 4096)) ∧
      t.dome_ EYE_SCAN_LEN_BITS = 327680 ∧
      { t with free := s.free, dome := s.dome } = s ∧ { t.dome with regs := s.dome.regs, eye := { t.dome.eye with chain := s.dome.eye.chain } } = s.dome) ∧
  (∀ (s : State), s.scopeOpen 0 = true → s.dome_ EYE_SCAN_CTRL_TARGET < 2 → 32 ≤ (s.dome.eye.scan s.scanKey).length → 
      ∃ t, exec (.scanShift) s = .next t ∧
      t.dome.eye.scan s.scanKey = (s.dome.eye.scan s.scanKey).drop 32 ++ (List.range 32).map (fun k => (s.dome_ EYE_SCAN_DATA_DATA).testBit k) ∧
      (∀ k ∈ List.range 32, (t.dome_ EYE_SCAN_DATA_DATA).testBit k = (s.dome.eye.scan s.scanKey).getD k false) ∧
      t.dome_ EYE_SCAN_CTRL_SHIFT = 1 ∧
      OnlyDome s t ∧ { t.dome with regs := s.dome.regs, eye := { t.dome.eye with chain := s.dome.eye.chain } } = s.dome) ∧
  (∀ (s : State) (i : Fin 16) (v : W32), s.scopeOpen 1 = true → 
      ∃ t, exec (.chronoSelect i v) s = .next t ∧
      t.dome_ (EYE_CHR_SEL_EVENT.nth i.val) = EYE_CHR_SEL_EVENT.of v ∧
      t.dome_ (EYE_CHR_SEL_REGION.nth i.val) = EYE_CHR_SEL_REGION.of v ∧
      t.dome_ (EYE_CHR_LAST_CNT.nth i.val) = 0 ∧
      SMap.get (fun _ => 0) t.dome.eye.totals i.val = 0 ∧
      (∀ k, k ≠ i.val → SMap.get (fun _ => 0) t.dome.eye.totals k = SMap.get (fun _ => 0) s.dome.eye.totals k) ∧
      OnlyDome s t ∧ { t.dome with regs := s.dome.regs, eye := { t.dome.eye with totals := s.dome.eye.totals, fresh := s.dome.eye.fresh } } = s.dome) ∧
  (∀ (s : State) (k r x y : Nat) (ws : List W32), s.scopeOpen 2 = true → s.dome_ EYE_TRC_CTRL_EN = 1 → 1 ≤ k ∧ k ≤ 4 → (s.dome_ EYE_TRC_CTRL_KINDS).testBit k = true → s.host.d3hot = false → s.traceFull = false → s.dome.eye.lost = 0 → s.aprAllows (s.dome_ EYE_TRC_BASE_LO_BASE + 2 ^ 32 * s.dome_ EYE_TRC_BASE_HI_BASE + 32 * s.dome_ EYE_TRC_TAIL_TAIL) 32 true = true → s.dome_ EYE_TRC_SIZE_LOG2 ≤ 20 → 
      ∃ t, exec (.traceRecord k r x y ws) s = .next t ∧
      t.hostMem = Mem.write s.hostMem (s.dome_ EYE_TRC_BASE_LO_BASE + 2 ^ 32 * s.dome_ EYE_TRC_BASE_HI_BASE + 32 * s.dome_ EYE_TRC_TAIL_TAIL) (leBytes 8 s.tickNum ++ leBytes 4 (k % 256 + 2 ^ 8 * (r % 128) + 2 ^ 15 * (x % 128) + 2 ^ 22 * (y % 128)) ++ (List.range 5).flatMap (fun j => leBytes 4 ((s.traceData k r ws).getD j 0).toNat)) ∧
      (k = 2 → r < 112 → ((s.traceData k r ws).getD 0 0).toNat = (s.region r).rd TCK_RDRAIN_CCLK_CCLK) ∧
      (k = 3 → r < 112 → ((s.traceData k r ws).getD 1 0).toNat = (s.region r).sched_ ∧ ((s.traceData k r ws).getD 3 0).toNat = (s.region r).power) ∧
      t.dome_ EYE_TRC_TAIL_TAIL = (s.dome_ EYE_TRC_TAIL_TAIL + 1) % 2 ^ s.dome_ EYE_TRC_SIZE_LOG2 ∧
      t.host.wrBytes = s.host.wrBytes + 32 ∧
      { t with hostMem := s.hostMem, dome := s.dome, host := s.host } = s ∧ { t.dome with regs := s.dome.regs } = s.dome ∧ t.host.apr = s.host.apr ∧ t.host.queues = s.host.queues) ∧
  (∀ (s : State) (k r x y : Nat) (ws : List W32), s.scopeOpen 2 = true → s.dome_ EYE_TRC_CTRL_EN = 1 → 1 ≤ k ∧ k ≤ 4 → (s.dome_ EYE_TRC_CTRL_KINDS).testBit k = true → s.traceFull = true → 
      ∃ t, exec (.traceRecord k r x y ws) s = .next t ∧
      t.dome_ EYE_TRC_DROP_CNT = (s.dome_ EYE_TRC_DROP_CNT + 1) % 2 ^ 32 ∧
      t.dome.eye.lost = s.dome.eye.lost + 1 ∧
      t.hostMem = s.hostMem ∧
      OnlyDome s t ∧ { t.dome with regs := s.dome.regs, eye := { t.dome.eye with lost := s.dome.eye.lost } } = s.dome) ∧
  (∀ (s : State) (j : TapInstr) (bits : List Bool) (i : Fin 16) (v : W32) (k r x y : Nat) (ws : List W32), s.scopeOpen 0 = false → s.scopeOpen 1 = false → s.scopeOpen 2 = false → s.scopeOpen 3 = false → 
      exec .eyeAccRead s = .next s ∧ exec .eyeAccWrite s = .next s ∧ exec (.scanCapture j bits) s = .next s ∧ exec .scanShift s = .next s ∧ exec (.chronoSelect i v) s = .next s ∧ exec (.traceRecord k r x y ws) s = .next s)

/-- Register commands write what the access codes allow, by the way that may, and read what the tables give. (from 00_scope.md (R7, R8), 15_host_bridge.md
(R374, R376, R385, R387, R396, R397), 17_dome_and_eyepiece.md (R425, R429), 16_start_catalogue_trust.md (R411)) -/
def Obligations.RegisterReadsAndWrites : Prop :=
  (∀ (s : State) (off : Nat), s.domeUp = true → off % 4 = 0 → 
      ∃ t, exec (.regRead ⟨off, true⟩) s = .next t ∧
      t.out = s.out ++ [.reply 1 (leBytes 1 0 ++ leBytes 4 (s.domeWord off).toNat)] ∧
      (t.clusters = s.clusters ∧ t.host = s.host ∧ t.hostMem = s.hostMem ∧ t.dome.ctr = s.dome.ctr ∧ (off < 0xB80 → off ≠ 0x20C → off ≠ 0x640 → { t with out := s.out } = s))) ∧
  (∀ (s : State) (off : Nat), s.domeUp = true → off % 4 ≠ 0 → 
      ∃ t, exec (.regRead ⟨off, true⟩) s = .next t ∧
      t.out = s.out ++ [.reply 1 (leBytes 1 2 ++ leBytes 4 (Config.freeWord s.free).toNat)] ∧
      { t with out := s.out, free := s.free } = s) ∧
  (∀ (s : State) (v : W32), s.domeUp = true → s.colOpen = false → 
      ∃ t, exec (.regWrite ⟨0x610, true⟩ v) s = .next t ∧
      t.dome_ DOM_COL_SET_SET = v.toNat ∧
      t.out = s.out ++ [.reply 1 (leBytes 1 0)] ∧
      ({ t with out := s.out, dome := s.dome } = s ∧ { t.dome with regs := s.dome.regs } = s.dome ∧ ∀ o, o ≠ 0x610 → Regs.word domeTable t.dome.regs o = Regs.word domeTable s.dome.regs o)) ∧
  (∀ (s : State) (off : Nat) (v : W32), s.domeUp = true → off % 4 ≠ 0 → 
      ∃ t, exec (.regWrite ⟨off, true⟩ v) s = .next t ∧
      t = s.emit (.reply 1 (leBytes 1 2))) ∧
  (∀ (s : State) (a b : W32), s.domeUp = true → s.colOpen = false → 
      ∃ t, exec (.blockWrite ⟨0x610, true⟩ [a, b]) s = .next t ∧
      t.dome_ DOM_COL_SET_SET = a.toNat ∧
      (t.dome_ DOM_COL_WAIT_MS = if b.toNat % 65536 = 0 then s.dome_ DOM_COL_WAIT_MS else b.toNat % 65536) ∧
      t.out = s.out ++ [.reply 1 (leBytes 1 0)] ∧
      { t with out := s.out, dome := s.dome, host := s.host } = s ∧ { t.dome with regs := s.dome.regs } = s.dome ∧ HostEvents s t) ∧
  (∀ (s : State) (off : Nat) (vs : List W32), s.domeUp = true → (vs = [] ∨ 16 < vs.length) → 
      ∃ t, exec (.blockWrite ⟨off, true⟩ vs) s = .next t ∧
      t = s.emit (.reply 1 (leBytes 1 1))) ∧
  (∀ (s : State) (off : Nat) (v : W32) (vs : List W32), s.domeUp = true → 
      (∃ t, exec (.regRead ⟨off, false⟩) s = .next t ∧ t.out = s.out ++ [.reply 1 (leBytes 1 1 ++ leBytes 4 (Config.freeWord s.free).toNat)]) ∧ exec (.regWrite ⟨off, false⟩ v) s = .next (s.emit (.reply 1 (leBytes 1 1))) ∧ exec (.blockWrite ⟨off, false⟩ vs) s = .next (s.emit (.reply 1 (leBytes 1 1)))) ∧
  (∀ (s : State) (via : Via) (off : Nat) (v : W32), s.domeVia via = true → s.gatedReg off = false → s.eyeClosed off = false → off < 0x1000 ∧ off % 4 = 0 → off ∉ domeOwnWrites ∧ ¬(0xB00 ≤ off ∧ off < 0xB40) → ((0x610 ≤ off ∧ off < 0x680 → s.colOpen = false)) → 
      ∃ t, exec (.registerWrite via (.dome off) v) s = .next t ∧
      AccessCodes domeTable off s.dome.locked (Regs.word domeTable s.dome.regs off) (Regs.word domeTable t.dome.regs off) v ∧
      (OnlyDomeRegs (s.viaCount via) t (if rwlDiffers domeTable off (Regs.word domeTable s.dome.regs off) v then [off, TCK_STATUS_LOCK_VIOL.off] else [off]))) ∧
  (∀ (s : State) (off : Nat), off < 0x1000 → (domeTable.any (fun r => r.covers off)) = false → Regs.word domeTable s.dome.regs off = 0 → 
      s.domeWord off = 0) ∧
  (∀ (s : State) (k : Fin 4), 
      s.domeWord (0x620 + 4 * k.val) = 0) ∧
  (∀ (s : State) (via : Via) (r : RegionId) (off : Nat) (v : W32), s.domeVia via = true → s.pageOpen r.val = true → off < 0x1000 ∧ off % 4 = 0 → off ∉ pageOwnWrites → ¬(0x140 ≤ off ∧ off < 0x240) → 
      ∃ t, exec (.registerWrite via (.page r off) v) s = .next t ∧
      AccessCodes pageTable off s.dome.locked (Regs.word pageTable (s.region r.val).regs off) (Regs.word pageTable (t.region r.val).regs off) v ∧
      (∀ k, k ≠ r.val → t.region k = s.region k) ∧
      t.clusters = s.clusters ∧ t.ports = s.ports ∧ RegionRegs (s.region r.val) (t.region r.val) [off]) ∧
  (∀ (s : State) (via : Via) (z : PortId) (off : Nat) (v : W32), s.domeVia via = true → off < 0x100 ∧ off % 4 = 0 → off ∉ [0, 0x1C, 0x20] → 
      ∃ t, exec (.registerWrite via (.port z off) v) s = .next t ∧
      AccessCodes zlTable off false (Regs.word zlTable (s.port z.val).regs off) (Regs.word zlTable (t.port z.val).regs off) v ∧
      OnlyPort (s.viaCount via) t z.val ∧ PortRegs (s.port z.val) (t.port z.val) [off]) ∧
  (∀ (s : State) (via : Via) (i : ClusterId) (off : Nat) (v : W32), s.domeVia via = true → s.spaceOpen i.val = true → off < 0x10000 ∧ off % 4 = 0 → clusterOwnWrite off = false → 
      ∃ t, exec (.registerWrite via (.cluster i off) v) s = .next t ∧
      AccessCodes clTable off false (Regs.word clTable (s.cluster i.val).regs off) (Regs.word clTable (t.cluster i.val).regs off) v ∧
      OnlyCluster (s.viaCount via) t i.val ∧ ClusterRegs (s.cluster i.val) (t.cluster i.val) [off]) ∧
  (∀ (s : State) (off : Nat) (v : W32), off % 4 = 0 → off ≠ 0x28 → off ≠ HIF_CNT_BAR_CNT.off → 
      ∃ t, exec (.registerWrite .bar0 (.hif off) v) s = .next t ∧
      (AccessCodes hifTable off false (Regs.word hifTable s.host.hif off) (Regs.word hifTable t.host.hif off) v) ∧
      (OnlyHost s t ∧ { t.host with hif := s.host.hif } = s.host ∧ ∀ o, o ≠ off → o ≠ HIF_CNT_BAR_CNT.off → Regs.word hifTable t.host.hif o = Regs.word hifTable s.host.hif o)) ∧
  (∀ (s : State) (v : W32), s.ready = true → s.colOpen = false → 
      ∃ t, exec (.registerWrite .bar0 (.dome 0x610) v) s = .next t ∧
      t.dome_ DOM_COL_SET_SET = v.toNat ∧
      OnlyDomeRegs s.barCount t [0x610]) ∧
  (∀ (s : State) (v : W32), s.ready = true → s.colOpen = true → 
      ∃ t, exec (.registerWrite .bar0 (.dome 0x610) v) s = .next t ∧
      t.dome_ DOM_COL_SET_SET = s.dome_ DOM_COL_SET_SET ∧
      t.dome_ DOM_COL_EVENT_CFG_ERR = 1 ∧
      { t with dome := s.dome, host := s.host } = s) ∧
  (∀ (s : State) (off : Nat) (v : W32), s.ready = false → 
      ∃ t, exec (.registerWrite .bar0 (.dome off) v) s = .next t ∧
      t = s.barCount) ∧
  (∀ (s : State) (v : W32), s.domeUp = true → s.dome.locked = true → 
      ∃ t, exec (.registerWrite .mctp (.dome 0x408) v) s = .next t ∧
      t.dome_ FND_FID_LO_FID_LO = s.dome_ FND_FID_LO_FID_LO ∧
      (v.toNat ≠ s.dome_ FND_FID_LO_FID_LO → t.dome_ TCK_STATUS_LOCK_VIOL = 1) ∧
      OnlyDomeRegs s t [TCK_STATUS_LOCK_VIOL.off]) ∧
  (∀ (s : State) (v : W32), 
      ∃ t, exec (.registerWrite .bar0 (.hif 0x24) v) s = .next t ∧
      (t.hif HIF_EVT_MASK_MASK = v.toNat) ∧
      (OnlyHost s t ∧ ∀ o, o ≠ 0x24 → o ≠ HIF_CNT_BAR_CNT.off → Regs.word hifTable t.host.hif o = Regs.word hifTable s.host.hif o)) ∧
  (∀ (s : State) (via : Via) (off : Nat) (v : W32), via ≠ .bar0 → 
      ∃ t, exec (.registerWrite via (.hif off) v) s = .next t ∧
      t = s) ∧
  (∀ (s : State) (q : QueueId) (v : W32), (s.hostQ q.val).state = 0 → 
      ∃ t, exec (.registerWrite .bar0 (.queue q 0) v) s = .next t ∧
      (t.hostQ q.val).rd HIF_Q_SQ_LO_BASE = v.toNat ∧
      (t.queueWord q.val 0).toNat = v.toNat / 4096 * 4096 ∧
      OnlyQueue s.barCount t q.val) ∧
  (∀ (s : State) (q : QueueId) (v : W32), (s.hostQ q.val).state ≠ 0 → 
      ∃ t, exec (.registerWrite .bar0 (.queue q 0) v) s = .next t ∧
      t = s.barCount) ∧
  (∀ (s : State) (k : Fin 512) (v : W32), 
      ∃ t, exec (.registerWrite .bar0 (.bar4 (16 * k.val)) v) s = .next t ∧
      t.msixWord (4 * k.val) = v ∧
      (OnlyHost s t ∧ ∀ j, j ≠ 4 * k.val → t.msixWord j = s.msixWord j)) ∧
  (∀ (s : State) (r : RegionId) (v : W32), s.domeUp = true → s.pageOpen r.val = true → 
      ∃ t, exec (.registerWrite .mctp (.page r 0x38C) v) s = .next t ∧
      (t.region r.val).rd THM_SEL_SENSOR = THM_SEL_SENSOR.of v ∧
      OnlyRegion s t r.val ∧ RegionRegs (s.region r.val) (t.region r.val) [THM_SEL_SENSOR.off]) ∧
  (∀ (s : State) (z : PortId) (v : W32), s.ready = true → (s.port z.val).rd ZL_CTRL_EN = ZL_CTRL_EN.of v → ZL_CTRL_RETRAIN.of v = 0 → 
      ∃ t, exec (.registerWrite .bar0 (.port z 0) v) s = .next t ∧
      (t.port z.val).rd ZL_CTRL_NARROW_OK = ZL_CTRL_NARROW_OK.of v ∧
      OnlyPort s.barCount t z.val ∧ PortRegs (s.port z.val) (t.port z.val) [ZL_CTRL_NARROW_OK.off]) ∧
  (∀ (s : State) (c : ClusterId) (v : W32), s.domeUp = true → s.spaceOpen c.val = true → 
      ∃ t, exec (.registerWrite .mctp (.cluster c MU_LIST_BASE_ROW.off) v) s = .next t ∧
      (t.cluster c.val).rd MU_LIST_BASE_ROW = MU_LIST_BASE_ROW.of v ∧
      OnlyCluster s t c.val ∧ ClusterRegs (s.cluster c.val) (t.cluster c.val) [MU_LIST_BASE_ROW.off])

/-- A step runs the command at the front of the queue on the rest of it, and idles on an empty queue. (from 00_scope.md, 01_stack_and_floor.md) -/
def Obligations.StepRunsTheFrontCommand : Prop :=
  (∀ (i : Instr) (rest : List Instr) (s : State), step { s with pending := i :: rest } = exec i { s with pending := rest }) ∧
  (∀ s : State, s.pending = [] → step s = .next s)

/-- Right after reset nothing runs, the counters lie in their ranges, every aperture range is disabled and the memories are canonical. (from
15_host_bridge.md (R375, R382), 16_start_catalogue_trust.md (R413), 03_almanac_power_heat.md (R94), 08_ephemerides_and_folding.md (R199)) The model's
choices, no rule's: the factory contents of the counter store, which R413 calls stored and does not give (assumption log entry 4). -/
def Obligations.ResetState : Prop :=
  State.reset.mstate = 0 ∧ State.reset.ready = false ∧ State.reset.pending = [] ∧ State.reset.out = [] ∧
  (∀ r, (State.reset.region r).power = 0 ∧ (State.reset.region r).sched_ = 0) ∧ Counters.wf State.reset.dome.ctr = true ∧
  State.reset.dome.ctr.rpl = 0 ∧ State.reset.replace = false ∧
  (∀ addr len write, State.reset.aprAllows addr len write = false) ∧ (∀ q, (State.reset.hostQ q).state = 0) ∧
  Memory.wf State.reset.hostMem = true ∧ ∀ c e, Memory.wf ((State.reset.cluster c).elem e).mem = true

/-- Every command completes in every state; no step decreases a counter or leaves its range, touches the queue, or breaks host memory's form. (from
16_start_catalogue_trust.md (R413, R414), 14_faults_and_collimation.md (R351), 15_host_bridge.md (R374)) -/
def Obligations.EveryStepKeepsTheStores : Prop :=
  (∀ (i : Instr) (s : State), ∃ t, exec i s = .next t) ∧
  (∀ s t : State, Counters.wf s.dome.ctr = true → step s = .next t →
    Counters.wf t.dome.ctr = true ∧ Counters.le s.dome.ctr t.dome.ctr = true) ∧
  (∀ s t : State, Memory.wf s.hostMem = true → step s = .next t → Memory.wf t.hostMem = true) ∧
  (∀ s t : State, step s = .next t → t.pending = s.pending.drop 1)

/-- REPLACE is set exactly at an odd CTR_RPL.COUNT; setting it advances an even count, changes nothing where it is set, and at 15 it stays. (R414) -/
def Obligations.ReplaceFollowsTheCounter : Prop :=
  (∀ s : State, s.replace = true ↔ s.dome.ctr.rpl % 2 = 1) ∧
  (∀ s : State, s.clocked 8 = true → s.dome.ctr.rpl % 2 = 0 →
    ∃ t, exec .domFltReplace s = .next t ∧ t.dome.ctr = { s.dome.ctr with rpl := s.dome.ctr.rpl + 1 } ∧ t.replace = true) ∧
  (∀ s : State, s.clocked 8 = true → s.dome.ctr.rpl % 2 = 1 →
    ∃ t, exec .domFltReplace s = .next t ∧ t.dome.ctr = s.dome.ctr ∧ t.replace = true) ∧
  (∀ s t : State, Counters.wf s.dome.ctr = true → s.dome.ctr.rpl = 15 → step s = .next t → t.dome.ctr.rpl = 15 ∧ t.replace = true)

/-- The aperture permits what enabled ranges cover, no step changes host memory elsewhere, only the host writes it, and reset disables it. (from
15_host_bridge.md (R375, R382, R383)) The model's choices, no rule's: which of the bridge's registers a reset covers (assumption log entry 18), and
that RESET_N resets the bridge too (assumption log entry 23). -/
def Obligations.ApertureBoundsBridgeDma : Prop :=
  (∀ (s : State) (addr len : Nat) (write : Bool), s.aprAllows addr len write = true ↔
    ∃ r < 16, s.apr (HIF_APR_BASE_LO_EN.nth r) = 1 ∧ s.apr ((if write then HIF_APR_BASE_LO_WR else HIF_APR_BASE_LO_RD).nth r) = 1 ∧
      4096 * s.apr (HIF_APR_BASE_LO_BASE_LO.nth r) + 2 ^ 32 * s.apr (HIF_APR_BASE_HI_BASE_HI.nth r) ≤ addr ∧
      addr + len ≤ 4096 * s.apr (HIF_APR_LIM_LO_LIM_LO.nth r) + 2 ^ 32 * s.apr (HIF_APR_LIM_HI_LIM_HI.nth r) + 4096) ∧
  (∀ (s : State) (r addr len : Nat) (write : Bool), 1 ≤ len →
    4096 * s.apr (HIF_APR_LIM_LO_LIM_LO.nth r) + 2 ^ 32 * s.apr (HIF_APR_LIM_HI_LIM_HI.nth r) <
      4096 * s.apr (HIF_APR_BASE_LO_BASE_LO.nth r) + 2 ^ 32 * s.apr (HIF_APR_BASE_HI_BASE_HI.nth r) →
    s.aprRange r addr len write = false) ∧
  (∀ (s : State) (src queue addr : Nat) (bs : List Byte), s.aprAllows addr bs.length true = false →
    (s.dmaWrite src queue addr bs).1 = false ∧ (s.dmaWrite src queue addr bs).2.hostMem = s.hostMem ∧
    (s.dmaWrite src queue addr bs).2.apr HIF_APR_LOG_VALID = 1 ∧
    (s.dmaWrite src queue addr bs).2.apr HIF_APR_LOG_CNT_CNT = (s.apr HIF_APR_LOG_CNT_CNT + 1) % 2 ^ 32 ∧ Pends (s.dmaWrite src queue addr bs).2 9) ∧
  (∀ (s t : State) (a : Nat), step s = .next t → Mem.byte t.hostMem a ≠ Mem.byte s.hostMem a → s.aprAllows a 1 true = true) ∧
  (∀ (s : State) (off : Nat) (v : W32), exec (.apertureWrite off v false) s = .next s) ∧
  (∀ (i : Instr) (s t : State), (match i with
      | .apertureWrite _ _ w => w = false
      | .linkReset => False | .flr => False | .linkDown => False | .resetN _ => False | .inputRise => False | .inputReconnect => False
      | _ => True) → exec i s = .next t → t.aperture = s.aperture) ∧
  (∀ (s : State) (i : Instr), i = .linkReset ∨ i = .flr ∨ (i = .resetN true ∧ s.dome.resetLow = false) →
    ∃ t, exec i s = .next t ∧ ∀ r < 16, t.apr (HIF_APR_BASE_LO_EN.nth r) = 0)
end

