-- ==== Sys2Proof/Laws/Sparse.lean ====
section
/-! SUPPORT. Reading and writing sparse maps and memories, and their canonical form. -/

namespace Sys2Proof.Machine

variable {α : Type}

theorem SMap.get_erase (d : Nat → α) (m : SMap α) (k j : Nat) :
    SMap.get d (SMap.erase m k) j = if j = k then d j else SMap.get d m j := by
  induction m with
  | nil => simp [SMap.erase, SMap.get]
  | cons p t ih =>
    obtain ⟨i, v⟩ := p
    simp only [SMap.erase] at ih ⊢
    by_cases h : i = k
    · subst h; simp only [List.filter_cons, bne_self_eq_false, Bool.false_eq_true, if_false, ih, SMap.get]
      by_cases hj : j = i
      · simp [hj]
      · simp [hj, Ne.symm hj]
    · simp only [List.filter_cons, bne_iff_ne, ne_eq, h, not_false_eq_true, if_true, SMap.get, ih]
      by_cases hi : i = j
      · subst hi; simp [h]
      · simp [hi]

theorem SMap.get_insert (d : Nat → α) (m : SMap α) (k : Nat) (v : α) (j : Nat) :
    SMap.get d (SMap.insert m k v) j = if j = k then v else SMap.get d m j := by
  induction m with
  | nil => simp only [SMap.insert, SMap.get]; by_cases h : k = j <;> simp [h, Ne.symm]
  | cons p t ih =>
    obtain ⟨i, w⟩ := p
    simp only [SMap.insert]
    split
    · simp only [SMap.get]; by_cases h : k = j
      · simp [h]
      · simp [h, Ne.symm h]
    · split
      · next h => subst h; simp only [SMap.get]; by_cases h : i = j
                  · simp [h]
                  · simp [h, Ne.symm h]
      · next h => simp only [SMap.get, ih]; by_cases hi : i = j
                  · subst hi; simp [h]
                  · simp [hi]

theorem SMap.get_set [DecidableEq α] (d : Nat → α) (m : SMap α) (k : Nat) (v : α) (j : Nat) :
    SMap.get d (SMap.set d m k v) j = if j = k then v else SMap.get d m j := by
  unfold SMap.set; split
  · next h => rw [SMap.get_erase]; by_cases hj : j = k <;> simp [hj, h]
  · rw [SMap.get_insert]

@[simp] theorem SMap.get_set_same [DecidableEq α] (d : Nat → α) (m : SMap α) (k : Nat) (v : α) : SMap.get d (SMap.set d m k v) k = v := by
  simp [SMap.get_set]

theorem SMap.get_set_ne [DecidableEq α] (d : Nat → α) (m : SMap α) {k j : Nat} (v : α) (h : j ≠ k) :
    SMap.get d (SMap.set d m k v) j = SMap.get d m j := by
  simp [SMap.get_set, h]

/-! ## The canonical form -/

theorem SMap.wfFrom_mono [DecidableEq α] (d : Nat → α) {lo : Option Nat} {k : Nat} {m : SMap α} (hk : ∀ l, lo = some l → l < k)
    (h : SMap.wfFrom d (some k) m = true) : SMap.wfFrom d lo m = true := by
  cases m with
  | nil => rfl
  | cons p t =>
    obtain ⟨j, v⟩ := p
    simp only [SMap.wfFrom, Bool.and_eq_true, decide_eq_true_eq] at h ⊢
    refine ⟨⟨?_, h.1.2⟩, h.2⟩
    cases lo with
    | none => rfl
    | some l => simp only [decide_eq_true_eq]; have := hk l rfl; omega

theorem SMap.wfFrom_erase [DecidableEq α] (d : Nat → α) (k : Nat) : ∀ (m : SMap α) (lo : Option Nat),
    SMap.wfFrom d lo m = true → SMap.wfFrom d lo (SMap.erase m k) = true
  | [], _, _ => rfl
  | (j, v) :: t, lo, h => by
    simp only [SMap.wfFrom, Bool.and_eq_true, decide_eq_true_eq] at h
    simp only [SMap.erase, List.filter_cons]
    have ih := SMap.wfFrom_erase d k t (some j) h.2
    split
    · simp only [SMap.wfFrom, Bool.and_eq_true, decide_eq_true_eq]; exact ⟨h.1, ih⟩
    · refine SMap.wfFrom_mono d (k := j) ?_ ih
      intro l hl; subst hl; simpa using h.1.1

theorem SMap.wfFrom_insert [DecidableEq α] (d : Nat → α) (k : Nat) (v : α) (hv : v ≠ d k) : ∀ (m : SMap α) (lo : Option Nat),
    (∀ l, lo = some l → l < k) → SMap.wfFrom d lo m = true → SMap.wfFrom d lo (SMap.insert m k v) = true
  | [], lo, hlo, _ => by
    simp only [SMap.insert, SMap.wfFrom, Bool.and_eq_true, decide_eq_true_eq, and_true]
    refine ⟨?_, hv⟩
    cases lo with
    | none => rfl
    | some l => simpa using hlo l rfl
  | (j, w) :: t, lo, hlo, h => by
    simp only [SMap.wfFrom, Bool.and_eq_true, decide_eq_true_eq] at h
    simp only [SMap.insert]
    split
    · next hkj =>
      simp only [SMap.wfFrom, Bool.and_eq_true, decide_eq_true_eq]
      refine ⟨⟨?_, hv⟩, ⟨hkj, h.1.2⟩, h.2⟩
      cases lo with
      | none => rfl
      | some l => simpa using hlo l rfl
    · split
      · next hjk => subst hjk; simp only [SMap.wfFrom, Bool.and_eq_true, decide_eq_true_eq]; exact ⟨⟨h.1.1, hv⟩, h.2⟩
      · next h1 h2 =>
        simp only [SMap.wfFrom, Bool.and_eq_true, decide_eq_true_eq]
        refine ⟨h.1, SMap.wfFrom_insert d k v hv t (some j) ?_ h.2⟩
        intro l hl; cases hl; omega

/-- Every write of a sparse map keeps the canonical form. -/
theorem SMap.wf_set [DecidableEq α] (d : Nat → α) (m : SMap α) (k : Nat) (v : α) (h : SMap.wf d m = true) : SMap.wf d (SMap.set d m k v) = true := by
  unfold SMap.set SMap.wf at *
  split
  · exact SMap.wfFrom_erase d k m none h
  · next hv => exact SMap.wfFrom_insert d k v hv m none (by simp) h

/-! ## Memories -/

theorem Mem.byte_setByte (m : Mem) (a b : Nat) (v : Byte) : Mem.byte (Mem.setByte m a v) b = if b = a then v else Mem.byte m b :=
  SMap.get_set memDefault m a v b

theorem Mem.wf_setByte (m : Mem) (a : Nat) (v : Byte) (h : SMap.wf memDefault m = true) : SMap.wf memDefault (Mem.setByte m a v) = true :=
  SMap.wf_set memDefault m a v h

/-- A write changes the bytes from `a` on and no other. -/
theorem Mem.byte_write : ∀ (bs : List Byte) (m : Mem) (a b : Nat),
    Mem.byte (Mem.write m a bs) b = if a ≤ b ∧ b < a + bs.length then bs.getD (b - a) 0 else Mem.byte m b
  | [], m, a, b => by simp only [Mem.write, List.length_nil, Nat.add_zero]; rw [if_neg]; omega
  | x :: xs, m, a, b => by
    rw [Mem.write, Mem.byte_write xs, Mem.byte_setByte]
    by_cases h : a + 1 ≤ b ∧ b < a + 1 + xs.length
    · have h2 : a ≤ b ∧ b < a + (x :: xs).length := by simp; omega
      rw [if_pos h, if_pos h2]
      have : b - a = (b - (a + 1)) + 1 := by omega
      rw [this]; rfl
    · rw [if_neg h]
      by_cases h3 : b = a
      · subst h3; simp
      · rw [if_neg h3, if_neg]; simp; omega

theorem Mem.byte_write_out (m : Mem) (a b : Nat) (bs : List Byte) (h : b < a ∨ a + bs.length ≤ b) :
    Mem.byte (Mem.write m a bs) b = Mem.byte m b := by
  rw [Mem.byte_write, if_neg]; omega

/-- A write keeps the canonical form. -/
theorem Mem.wf_write : ∀ (bs : List Byte) (m : Mem) (a : Nat), SMap.wf memDefault m = true → SMap.wf memDefault (Mem.write m a bs) = true
  | [], _, _, h => h
  | b :: bs, m, a, h => Mem.wf_write bs _ (a + 1) (Mem.wf_setByte m a b h)

/-- A masked write keeps the canonical form. -/
theorem Mem.wf_writeMask : ∀ (bs : List Byte) (es : List Bool) (m : Mem) (a : Nat), SMap.wf memDefault m = true →
    SMap.wf memDefault (Mem.writeMask m a bs es) = true
  | [], es, _, _, h => by cases es <;> exact h
  | _ :: _, [], _, _, h => h
  | b :: bs, true :: es, m, a, h => Mem.wf_writeMask bs es _ (a + 1) (Mem.wf_setByte m a b h)
  | _ :: bs, false :: es, m, a, h => Mem.wf_writeMask bs es m (a + 1) h

/-- A masked write leaves every byte outside its range. -/
theorem Mem.byte_writeMask_out : ∀ (bs : List Byte) (es : List Bool) (m : Mem) (a b : Nat), (b < a ∨ a + bs.length ≤ b) →
    Mem.byte (Mem.writeMask m a bs es) b = Mem.byte m b
  | [], es, _, _, _, _ => by cases es <;> rfl
  | _ :: _, [], _, _, _, _ => rfl
  | x :: bs, e :: es, m, a, b, h => by
    rw [Mem.writeMask, Mem.byte_writeMask_out bs es _ _ _ (by simp at h; omega)]
    cases e
    · rfl
    · simp only [if_true]; rw [Mem.byte_setByte, if_neg]; simp at h; omega

/-! ## Sets -/

@[simp] theorem NSet.mem_add (s : NSet) (k j : Nat) : j ∈ NSet.add s k ↔ j = k ∨ j ∈ s := by
  induction s with
  | nil => simp [NSet.add]
  | cons i t ih =>
    simp only [NSet.add]; split
    · simp
    · split
      · next h => subst h; simp
      · simp [ih]; tauto

@[simp] theorem NSet.mem_del (s : NSet) (k j : Nat) : j ∈ NSet.del s k ↔ j ∈ s ∧ j ≠ k := by simp [NSet.del]

end Sys2Proof.Machine
end

