-- ==== Sys2Proof/Laws/Registers.lean ====
section
/-! SUPPORT. Reading a register field after a write of one: the same field, a field of another register, and another field of the same register. -/

namespace Sys2Proof.Machine

theorem Fld.testBit_mask (f : Fld) (i : Nat) (hi : i < 32) : f.mask.getLsbD i = (decide (f.lo ≤ i) && decide (i < f.lo + f.width)) := by
  simp only [Fld.mask, BitVec.getLsbD_ofNat, hi, decide_true, Bool.true_and, Nat.testBit_shiftLeft, Nat.testBit_two_pow_sub_one]
  by_cases h : f.lo ≤ i
  · simp only [ge_iff_le, h, decide_true, Bool.true_and]
    congr 1; simp only [eq_iff_iff]; omega
  · simp [h]

theorem Fld.testBit_put (f : Fld) (w : BitVec 32) (v i : Nat) (hi : i < 32) :
    (f.put w v).getLsbD i = if f.lo ≤ i ∧ i < f.lo + f.width then v.testBit (i - f.lo) else w.getLsbD i := by
  simp only [Fld.put, BitVec.getLsbD_or, BitVec.getLsbD_and, BitVec.getLsbD_not, Fld.testBit_mask f i hi, BitVec.getLsbD_ofNat, hi, decide_true,
    Bool.true_and, Nat.testBit_shiftLeft]
  by_cases h1 : f.lo ≤ i <;> by_cases h2 : i < f.lo + f.width <;> simp [h1, h2]

theorem Fld.testBit_of (f : Fld) (w : BitVec 32) (i : Nat) : (f.of w).testBit i = (decide (i < f.width) && w.getLsbD (i + f.lo)) := by
  simp [Fld.of, Nat.testBit_mod_two_pow, Nat.testBit_shiftRight, BitVec.testBit_toNat, Nat.add_comm]

/-- A field reads as what was written to it, cut to its width. -/
theorem Fld.of_put_same (f : Fld) (w : BitVec 32) (v : Nat) (h : f.lo + f.width ≤ 32) : f.of (f.put w v) = v % 2 ^ f.width := by
  apply Nat.eq_of_testBit_eq
  intro i
  rw [Fld.testBit_of, Nat.testBit_mod_two_pow]
  by_cases hi : i < f.width
  · rw [Fld.testBit_put f w v (i + f.lo) (by omega), if_pos (by omega), Nat.add_sub_cancel]
  · simp [hi]

/-- A field keeps its value when a field that shares no bit with it is written. -/
theorem Fld.of_put_disjoint (f g : Fld) (w : BitVec 32) (v : Nat) (hg : g.lo + g.width ≤ 32)
    (h : f.lo + f.width ≤ g.lo ∨ g.lo + g.width ≤ f.lo) : g.of (f.put w v) = g.of w := by
  apply Nat.eq_of_testBit_eq
  intro i
  rw [Fld.testBit_of, Fld.testBit_of]
  by_cases hi : i < g.width
  · rw [Fld.testBit_put f w v (i + g.lo) (by omega), if_neg (by omega)]
  · simp [hi]

theorem Fld.of_lt (f : Fld) (w : BitVec 32) : f.of w < 2 ^ f.width := Nat.mod_lt _ (Nat.two_pow_pos _)

theorem Regs.word_setWord (t : List RegRow) (r : Regs) (o p : Nat) (w : BitVec 32) :
    Regs.word t (Regs.setWord t r o w) p = if p = o then w else Regs.word t r p := SMap.get_set _ _ _ _ _

theorem Regs.word_wr (t : List RegRow) (r : Regs) (f : Fld) (v p : Nat) :
    Regs.word t (Regs.wr t r f v) p = if p = f.off then f.put (Regs.word t r f.off) v else Regs.word t r p := Regs.word_setWord t r f.off p _

theorem Regs.word_wr_ne (t : List RegRow) (r : Regs) (f : Fld) (v : Nat) {p : Nat} (h : p ≠ f.off) :
    Regs.word t (Regs.wr t r f v) p = Regs.word t r p := by rw [Regs.word_wr, if_neg h]

/-- A field reads as what was written to it. -/
theorem Regs.rd_wr_same (t : List RegRow) (r : Regs) (f : Fld) (v : Nat) (h : f.lo + f.width ≤ 32) :
    Regs.rd t (Regs.wr t r f v) f = v % 2 ^ f.width := by
  rw [Regs.rd, Regs.word_wr, if_pos rfl, Fld.of_put_same f _ v h]

/-- A field of another register keeps its value. -/
theorem Regs.rd_wr_ne (t : List RegRow) (r : Regs) (f g : Fld) (v : Nat) (h : g.off ≠ f.off) : Regs.rd t (Regs.wr t r f v) g = Regs.rd t r g := by
  rw [Regs.rd, Regs.word_wr_ne t r f v h, Regs.rd]

/-- Another field of the same register keeps its value. -/
theorem Regs.rd_wr_disjoint (t : List RegRow) (r : Regs) (f g : Fld) (v : Nat) (hg : g.lo + g.width ≤ 32)
    (h : f.lo + f.width ≤ g.lo ∨ g.lo + g.width ≤ f.lo) : Regs.rd t (Regs.wr t r f v) g = Regs.rd t r g := by
  by_cases ho : g.off = f.off
  · rw [Regs.rd, Regs.word_wr, if_pos ho, Fld.of_put_disjoint f g _ v hg h, Regs.rd, ho]
  · exact Regs.rd_wr_ne t r f g v ho

/-- Every write of a register file keeps its canonical form. -/
theorem Regs.wf_wr (t : List RegRow) (r : Regs) (f : Fld) (v : Nat) (h : SMap.wf (regReset t) r = true) :
    SMap.wf (regReset t) (Regs.wr t r f v) = true := SMap.wf_set _ _ _ _ h

end Sys2Proof.Machine
end

