-- ==== Sys2Proof/Laws/State.lean ====
section
/-! SUPPORT. One lemma for each field of the state under each update, and what the accessors read after an update: no later proof unfolds a record. -/

namespace Sys2Proof.Machine

@[simp] theorem State.setRegion_dome (s : State) (r : Nat) (g : Region) : (s.setRegion r g).dome = s.dome := rfl
@[simp] theorem State.setRegion_host (s : State) (r : Nat) (g : Region) : (s.setRegion r g).host = s.host := rfl
@[simp] theorem State.setRegion_clusters (s : State) (r : Nat) (g : Region) : (s.setRegion r g).clusters = s.clusters := rfl
@[simp] theorem State.setRegion_ports (s : State) (r : Nat) (g : Region) : (s.setRegion r g).ports = s.ports := rfl
@[simp] theorem State.setRegion_hostMem (s : State) (r : Nat) (g : Region) : (s.setRegion r g).hostMem = s.hostMem := rfl
@[simp] theorem State.setRegion_out (s : State) (r : Nat) (g : Region) : (s.setRegion r g).out = s.out := rfl
@[simp] theorem State.setRegion_free (s : State) (r : Nat) (g : Region) : (s.setRegion r g).free = s.free := rfl
@[simp] theorem State.setRegion_pending (s : State) (r : Nat) (g : Region) : (s.setRegion r g).pending = s.pending := rfl

@[simp] theorem State.modRegion_dome (s : State) (r : Nat) (f : Region → Region) : (s.modRegion r f).dome = s.dome := rfl
@[simp] theorem State.modRegion_host (s : State) (r : Nat) (f : Region → Region) : (s.modRegion r f).host = s.host := rfl
@[simp] theorem State.modRegion_clusters (s : State) (r : Nat) (f : Region → Region) : (s.modRegion r f).clusters = s.clusters := rfl
@[simp] theorem State.modRegion_ports (s : State) (r : Nat) (f : Region → Region) : (s.modRegion r f).ports = s.ports := rfl
@[simp] theorem State.modRegion_hostMem (s : State) (r : Nat) (f : Region → Region) : (s.modRegion r f).hostMem = s.hostMem := rfl
@[simp] theorem State.modRegion_out (s : State) (r : Nat) (f : Region → Region) : (s.modRegion r f).out = s.out := rfl
@[simp] theorem State.modRegion_free (s : State) (r : Nat) (f : Region → Region) : (s.modRegion r f).free = s.free := rfl
@[simp] theorem State.modRegion_pending (s : State) (r : Nat) (f : Region → Region) : (s.modRegion r f).pending = s.pending := rfl

@[simp] theorem State.setCluster_dome (s : State) (i : Nat) (c : Cluster) : (s.setCluster i c).dome = s.dome := rfl
@[simp] theorem State.setCluster_host (s : State) (i : Nat) (c : Cluster) : (s.setCluster i c).host = s.host := rfl
@[simp] theorem State.setCluster_regions (s : State) (i : Nat) (c : Cluster) : (s.setCluster i c).regions = s.regions := rfl
@[simp] theorem State.setCluster_ports (s : State) (i : Nat) (c : Cluster) : (s.setCluster i c).ports = s.ports := rfl
@[simp] theorem State.setCluster_hostMem (s : State) (i : Nat) (c : Cluster) : (s.setCluster i c).hostMem = s.hostMem := rfl
@[simp] theorem State.setCluster_out (s : State) (i : Nat) (c : Cluster) : (s.setCluster i c).out = s.out := rfl
@[simp] theorem State.setCluster_free (s : State) (i : Nat) (c : Cluster) : (s.setCluster i c).free = s.free := rfl
@[simp] theorem State.setCluster_pending (s : State) (i : Nat) (c : Cluster) : (s.setCluster i c).pending = s.pending := rfl

@[simp] theorem State.modCluster_dome (s : State) (i : Nat) (f : Cluster → Cluster) : (s.modCluster i f).dome = s.dome := rfl
@[simp] theorem State.modCluster_host (s : State) (i : Nat) (f : Cluster → Cluster) : (s.modCluster i f).host = s.host := rfl
@[simp] theorem State.modCluster_regions (s : State) (i : Nat) (f : Cluster → Cluster) : (s.modCluster i f).regions = s.regions := rfl
@[simp] theorem State.modCluster_ports (s : State) (i : Nat) (f : Cluster → Cluster) : (s.modCluster i f).ports = s.ports := rfl
@[simp] theorem State.modCluster_hostMem (s : State) (i : Nat) (f : Cluster → Cluster) : (s.modCluster i f).hostMem = s.hostMem := rfl
@[simp] theorem State.modCluster_out (s : State) (i : Nat) (f : Cluster → Cluster) : (s.modCluster i f).out = s.out := rfl
@[simp] theorem State.modCluster_free (s : State) (i : Nat) (f : Cluster → Cluster) : (s.modCluster i f).free = s.free := rfl
@[simp] theorem State.modCluster_pending (s : State) (i : Nat) (f : Cluster → Cluster) : (s.modCluster i f).pending = s.pending := rfl

@[simp] theorem State.modElem_dome (s : State) (i e : Nat) (f : Elem → Elem) : (s.modElem i e f).dome = s.dome := rfl
@[simp] theorem State.modElem_host (s : State) (i e : Nat) (f : Elem → Elem) : (s.modElem i e f).host = s.host := rfl
@[simp] theorem State.modElem_regions (s : State) (i e : Nat) (f : Elem → Elem) : (s.modElem i e f).regions = s.regions := rfl
@[simp] theorem State.modElem_ports (s : State) (i e : Nat) (f : Elem → Elem) : (s.modElem i e f).ports = s.ports := rfl
@[simp] theorem State.modElem_hostMem (s : State) (i e : Nat) (f : Elem → Elem) : (s.modElem i e f).hostMem = s.hostMem := rfl
@[simp] theorem State.modElem_out (s : State) (i e : Nat) (f : Elem → Elem) : (s.modElem i e f).out = s.out := rfl
@[simp] theorem State.modElem_free (s : State) (i e : Nat) (f : Elem → Elem) : (s.modElem i e f).free = s.free := rfl
@[simp] theorem State.modElem_pending (s : State) (i e : Nat) (f : Elem → Elem) : (s.modElem i e f).pending = s.pending := rfl

@[simp] theorem State.setPort_dome (s : State) (p : Nat) (z : Port) : (s.setPort p z).dome = s.dome := rfl
@[simp] theorem State.setPort_host (s : State) (p : Nat) (z : Port) : (s.setPort p z).host = s.host := rfl
@[simp] theorem State.setPort_regions (s : State) (p : Nat) (z : Port) : (s.setPort p z).regions = s.regions := rfl
@[simp] theorem State.setPort_clusters (s : State) (p : Nat) (z : Port) : (s.setPort p z).clusters = s.clusters := rfl
@[simp] theorem State.setPort_hostMem (s : State) (p : Nat) (z : Port) : (s.setPort p z).hostMem = s.hostMem := rfl
@[simp] theorem State.setPort_out (s : State) (p : Nat) (z : Port) : (s.setPort p z).out = s.out := rfl
@[simp] theorem State.setPort_free (s : State) (p : Nat) (z : Port) : (s.setPort p z).free = s.free := rfl
@[simp] theorem State.setPort_pending (s : State) (p : Nat) (z : Port) : (s.setPort p z).pending = s.pending := rfl

@[simp] theorem State.modPort_dome (s : State) (p : Nat) (f : Port → Port) : (s.modPort p f).dome = s.dome := rfl
@[simp] theorem State.modPort_host (s : State) (p : Nat) (f : Port → Port) : (s.modPort p f).host = s.host := rfl
@[simp] theorem State.modPort_regions (s : State) (p : Nat) (f : Port → Port) : (s.modPort p f).regions = s.regions := rfl
@[simp] theorem State.modPort_clusters (s : State) (p : Nat) (f : Port → Port) : (s.modPort p f).clusters = s.clusters := rfl
@[simp] theorem State.modPort_hostMem (s : State) (p : Nat) (f : Port → Port) : (s.modPort p f).hostMem = s.hostMem := rfl
@[simp] theorem State.modPort_out (s : State) (p : Nat) (f : Port → Port) : (s.modPort p f).out = s.out := rfl
@[simp] theorem State.modPort_free (s : State) (p : Nat) (f : Port → Port) : (s.modPort p f).free = s.free := rfl
@[simp] theorem State.modPort_pending (s : State) (p : Nat) (f : Port → Port) : (s.modPort p f).pending = s.pending := rfl

@[simp] theorem State.setHostQ_dome (s : State) (q : Nat) (h : HostQ) : (s.setHostQ q h).dome = s.dome := rfl
@[simp] theorem State.setHostQ_regions (s : State) (q : Nat) (h : HostQ) : (s.setHostQ q h).regions = s.regions := rfl
@[simp] theorem State.setHostQ_clusters (s : State) (q : Nat) (h : HostQ) : (s.setHostQ q h).clusters = s.clusters := rfl
@[simp] theorem State.setHostQ_ports (s : State) (q : Nat) (h : HostQ) : (s.setHostQ q h).ports = s.ports := rfl
@[simp] theorem State.setHostQ_hostMem (s : State) (q : Nat) (h : HostQ) : (s.setHostQ q h).hostMem = s.hostMem := rfl
@[simp] theorem State.setHostQ_out (s : State) (q : Nat) (h : HostQ) : (s.setHostQ q h).out = s.out := rfl
@[simp] theorem State.setHostQ_free (s : State) (q : Nat) (h : HostQ) : (s.setHostQ q h).free = s.free := rfl
@[simp] theorem State.setHostQ_pending (s : State) (q : Nat) (h : HostQ) : (s.setHostQ q h).pending = s.pending := rfl

@[simp] theorem State.modHostQ_dome (s : State) (q : Nat) (f : HostQ → HostQ) : (s.modHostQ q f).dome = s.dome := rfl
@[simp] theorem State.modHostQ_regions (s : State) (q : Nat) (f : HostQ → HostQ) : (s.modHostQ q f).regions = s.regions := rfl
@[simp] theorem State.modHostQ_clusters (s : State) (q : Nat) (f : HostQ → HostQ) : (s.modHostQ q f).clusters = s.clusters := rfl
@[simp] theorem State.modHostQ_ports (s : State) (q : Nat) (f : HostQ → HostQ) : (s.modHostQ q f).ports = s.ports := rfl
@[simp] theorem State.modHostQ_hostMem (s : State) (q : Nat) (f : HostQ → HostQ) : (s.modHostQ q f).hostMem = s.hostMem := rfl
@[simp] theorem State.modHostQ_out (s : State) (q : Nat) (f : HostQ → HostQ) : (s.modHostQ q f).out = s.out := rfl
@[simp] theorem State.modHostQ_free (s : State) (q : Nat) (f : HostQ → HostQ) : (s.modHostQ q f).free = s.free := rfl
@[simp] theorem State.modHostQ_pending (s : State) (q : Nat) (f : HostQ → HostQ) : (s.modHostQ q f).pending = s.pending := rfl

@[simp] theorem State.modDome_host (s : State) (f : Dome → Dome) : (s.modDome f).host = s.host := rfl
@[simp] theorem State.modDome_regions (s : State) (f : Dome → Dome) : (s.modDome f).regions = s.regions := rfl
@[simp] theorem State.modDome_clusters (s : State) (f : Dome → Dome) : (s.modDome f).clusters = s.clusters := rfl
@[simp] theorem State.modDome_ports (s : State) (f : Dome → Dome) : (s.modDome f).ports = s.ports := rfl
@[simp] theorem State.modDome_hostMem (s : State) (f : Dome → Dome) : (s.modDome f).hostMem = s.hostMem := rfl
@[simp] theorem State.modDome_out (s : State) (f : Dome → Dome) : (s.modDome f).out = s.out := rfl
@[simp] theorem State.modDome_free (s : State) (f : Dome → Dome) : (s.modDome f).free = s.free := rfl
@[simp] theorem State.modDome_pending (s : State) (f : Dome → Dome) : (s.modDome f).pending = s.pending := rfl

@[simp] theorem State.modHost_dome (s : State) (f : Bridge → Bridge) : (s.modHost f).dome = s.dome := rfl
@[simp] theorem State.modHost_regions (s : State) (f : Bridge → Bridge) : (s.modHost f).regions = s.regions := rfl
@[simp] theorem State.modHost_clusters (s : State) (f : Bridge → Bridge) : (s.modHost f).clusters = s.clusters := rfl
@[simp] theorem State.modHost_ports (s : State) (f : Bridge → Bridge) : (s.modHost f).ports = s.ports := rfl
@[simp] theorem State.modHost_hostMem (s : State) (f : Bridge → Bridge) : (s.modHost f).hostMem = s.hostMem := rfl
@[simp] theorem State.modHost_out (s : State) (f : Bridge → Bridge) : (s.modHost f).out = s.out := rfl
@[simp] theorem State.modHost_free (s : State) (f : Bridge → Bridge) : (s.modHost f).free = s.free := rfl
@[simp] theorem State.modHost_pending (s : State) (f : Bridge → Bridge) : (s.modHost f).pending = s.pending := rfl

@[simp] theorem State.emit_dome (s : State) (o : Output) : (s.emit o).dome = s.dome := rfl
@[simp] theorem State.emit_host (s : State) (o : Output) : (s.emit o).host = s.host := rfl
@[simp] theorem State.emit_regions (s : State) (o : Output) : (s.emit o).regions = s.regions := rfl
@[simp] theorem State.emit_clusters (s : State) (o : Output) : (s.emit o).clusters = s.clusters := rfl
@[simp] theorem State.emit_ports (s : State) (o : Output) : (s.emit o).ports = s.ports := rfl
@[simp] theorem State.emit_hostMem (s : State) (o : Output) : (s.emit o).hostMem = s.hostMem := rfl
@[simp] theorem State.emit_free (s : State) (o : Output) : (s.emit o).free = s.free := rfl
@[simp] theorem State.emit_pending (s : State) (o : Output) : (s.emit o).pending = s.pending := rfl

@[simp] theorem State.setDome_host (s : State) (f : Fld) (v : Nat) : (s.setDome f v).host = s.host := rfl
@[simp] theorem State.setDome_regions (s : State) (f : Fld) (v : Nat) : (s.setDome f v).regions = s.regions := rfl
@[simp] theorem State.setDome_clusters (s : State) (f : Fld) (v : Nat) : (s.setDome f v).clusters = s.clusters := rfl
@[simp] theorem State.setDome_ports (s : State) (f : Fld) (v : Nat) : (s.setDome f v).ports = s.ports := rfl
@[simp] theorem State.setDome_hostMem (s : State) (f : Fld) (v : Nat) : (s.setDome f v).hostMem = s.hostMem := rfl
@[simp] theorem State.setDome_out (s : State) (f : Fld) (v : Nat) : (s.setDome f v).out = s.out := rfl
@[simp] theorem State.setDome_free (s : State) (f : Fld) (v : Nat) : (s.setDome f v).free = s.free := rfl
@[simp] theorem State.setDome_pending (s : State) (f : Fld) (v : Nat) : (s.setDome f v).pending = s.pending := rfl

@[simp] theorem State.setHif_dome (s : State) (f : Fld) (v : Nat) : (s.setHif f v).dome = s.dome := rfl
@[simp] theorem State.setHif_regions (s : State) (f : Fld) (v : Nat) : (s.setHif f v).regions = s.regions := rfl
@[simp] theorem State.setHif_clusters (s : State) (f : Fld) (v : Nat) : (s.setHif f v).clusters = s.clusters := rfl
@[simp] theorem State.setHif_ports (s : State) (f : Fld) (v : Nat) : (s.setHif f v).ports = s.ports := rfl
@[simp] theorem State.setHif_hostMem (s : State) (f : Fld) (v : Nat) : (s.setHif f v).hostMem = s.hostMem := rfl
@[simp] theorem State.setHif_out (s : State) (f : Fld) (v : Nat) : (s.setHif f v).out = s.out := rfl
@[simp] theorem State.setHif_free (s : State) (f : Fld) (v : Nat) : (s.setHif f v).free = s.free := rfl
@[simp] theorem State.setHif_pending (s : State) (f : Fld) (v : Nat) : (s.setHif f v).pending = s.pending := rfl

@[simp] theorem State.setApr_dome (s : State) (f : Fld) (v : Nat) : (s.setApr f v).dome = s.dome := rfl
@[simp] theorem State.setApr_regions (s : State) (f : Fld) (v : Nat) : (s.setApr f v).regions = s.regions := rfl
@[simp] theorem State.setApr_clusters (s : State) (f : Fld) (v : Nat) : (s.setApr f v).clusters = s.clusters := rfl
@[simp] theorem State.setApr_ports (s : State) (f : Fld) (v : Nat) : (s.setApr f v).ports = s.ports := rfl
@[simp] theorem State.setApr_hostMem (s : State) (f : Fld) (v : Nat) : (s.setApr f v).hostMem = s.hostMem := rfl
@[simp] theorem State.setApr_out (s : State) (f : Fld) (v : Nat) : (s.setApr f v).out = s.out := rfl
@[simp] theorem State.setApr_free (s : State) (f : Fld) (v : Nat) : (s.setApr f v).free = s.free := rfl
@[simp] theorem State.setApr_pending (s : State) (f : Fld) (v : Nat) : (s.setApr f v).pending = s.pending := rfl

@[simp] theorem State.debit_dome (s : State) (i k n : Nat) : (s.debit i k n).dome = s.dome := rfl
@[simp] theorem State.debit_host (s : State) (i k n : Nat) : (s.debit i k n).host = s.host := rfl
@[simp] theorem State.debit_clusters (s : State) (i k n : Nat) : (s.debit i k n).clusters = s.clusters := rfl
@[simp] theorem State.debit_ports (s : State) (i k n : Nat) : (s.debit i k n).ports = s.ports := rfl
@[simp] theorem State.debit_hostMem (s : State) (i k n : Nat) : (s.debit i k n).hostMem = s.hostMem := rfl
@[simp] theorem State.debit_out (s : State) (i k n : Nat) : (s.debit i k n).out = s.out := rfl
@[simp] theorem State.debit_free (s : State) (i k n : Nat) : (s.debit i k n).free = s.free := rfl
@[simp] theorem State.debit_pending (s : State) (i k n : Nat) : (s.debit i k n).pending = s.pending := rfl

/-! ## Accessors after updates -/

theorem State.region_setRegion (s : State) (r q : Nat) (g : Region) : (s.setRegion r g).region q = if q = r then g else s.region q :=
  SMap.get_set _ _ _ _ _
@[simp] theorem State.region_setRegion_same (s : State) (r : Nat) (g : Region) : (s.setRegion r g).region r = g := by simp [State.region_setRegion]
theorem State.region_setRegion_ne (s : State) {r q : Nat} (g : Region) (h : q ≠ r) : (s.setRegion r g).region q = s.region q := by
  simp [State.region_setRegion, h]
theorem State.region_modRegion (s : State) (r q : Nat) (f : Region → Region) : (s.modRegion r f).region q = if q = r then f (s.region r) else s.region q :=
  State.region_setRegion _ _ _ _
@[simp] theorem State.region_modRegion_same (s : State) (r : Nat) (f : Region → Region) : (s.modRegion r f).region r = f (s.region r) := by
  simp [State.region_modRegion]

theorem State.cluster_setCluster (s : State) (i j : Nat) (c : Cluster) : (s.setCluster i c).cluster j = if j = i then c else s.cluster j :=
  SMap.get_set _ _ _ _ _
@[simp] theorem State.cluster_setCluster_same (s : State) (i : Nat) (c : Cluster) : (s.setCluster i c).cluster i = c := by simp [State.cluster_setCluster]
theorem State.cluster_setCluster_ne (s : State) {i j : Nat} (c : Cluster) (h : j ≠ i) : (s.setCluster i c).cluster j = s.cluster j := by
  simp [State.cluster_setCluster, h]
theorem State.cluster_modCluster (s : State) (i j : Nat) (f : Cluster → Cluster) :
    (s.modCluster i f).cluster j = if j = i then f (s.cluster i) else s.cluster j := State.cluster_setCluster _ _ _ _
@[simp] theorem State.cluster_modCluster_same (s : State) (i : Nat) (f : Cluster → Cluster) : (s.modCluster i f).cluster i = f (s.cluster i) := by
  simp [State.cluster_modCluster]

theorem State.port_setPort (s : State) (p q : Nat) (z : Port) : (s.setPort p z).port q = if q = p then z else s.port q := SMap.get_set _ _ _ _ _
@[simp] theorem State.port_setPort_same (s : State) (p : Nat) (z : Port) : (s.setPort p z).port p = z := by simp [State.port_setPort]
theorem State.port_modPort (s : State) (p q : Nat) (f : Port → Port) : (s.modPort p f).port q = if q = p then f (s.port p) else s.port q :=
  State.port_setPort _ _ _ _

theorem State.hostQ_setHostQ (s : State) (q k : Nat) (h : HostQ) : (s.setHostQ q h).hostQ k = if k = q then h else s.hostQ k := SMap.get_set _ _ _ _ _
@[simp] theorem State.hostQ_setHostQ_same (s : State) (q : Nat) (h : HostQ) : (s.setHostQ q h).hostQ q = h := by simp [State.hostQ_setHostQ]

theorem Cluster.elem_setElem (c : Cluster) (e k : Nat) (x : Elem) : (c.setElem e x).elem k = if k = e then x else c.elem k := SMap.get_set _ _ _ _ _
@[simp] theorem Cluster.elem_setElem_same (c : Cluster) (e : Nat) (x : Elem) : (c.setElem e x).elem e = x := by simp [Cluster.elem_setElem]
theorem Cluster.elem_modElem (c : Cluster) (e k : Nat) (f : Elem → Elem) : (c.modElem e f).elem k = if k = e then f (c.elem e) else c.elem k :=
  Cluster.elem_setElem _ _ _ _

/-! ## Accessors of the parts that an update does not touch -/

@[simp] theorem State.cluster_setRegion (s : State) (r : Nat) (g : Region) (w : Nat) : (s.setRegion r g).cluster w = s.cluster w := rfl
@[simp] theorem State.port_setRegion (s : State) (r : Nat) (g : Region) (w : Nat) : (s.setRegion r g).port w = s.port w := rfl
@[simp] theorem State.domeReg_setRegion (s : State) (r : Nat) (g : Region) (w : Fld) : (s.setRegion r g).dome_ w = s.dome_ w := rfl
@[simp] theorem State.hostQ_setRegion (s : State) (r : Nat) (g : Region) (w : Nat) : (s.setRegion r g).hostQ w = s.hostQ w := rfl
@[simp] theorem State.hif_setRegion (s : State) (r : Nat) (g : Region) (w : Fld) : (s.setRegion r g).hif w = s.hif w := rfl
@[simp] theorem State.apr_setRegion (s : State) (r : Nat) (g : Region) (w : Fld) : (s.setRegion r g).apr w = s.apr w := rfl

@[simp] theorem State.cluster_modRegion (s : State) (r : Nat) (f : Region → Region) (w : Nat) : (s.modRegion r f).cluster w = s.cluster w := rfl
@[simp] theorem State.port_modRegion (s : State) (r : Nat) (f : Region → Region) (w : Nat) : (s.modRegion r f).port w = s.port w := rfl
@[simp] theorem State.domeReg_modRegion (s : State) (r : Nat) (f : Region → Region) (w : Fld) : (s.modRegion r f).dome_ w = s.dome_ w := rfl
@[simp] theorem State.hostQ_modRegion (s : State) (r : Nat) (f : Region → Region) (w : Nat) : (s.modRegion r f).hostQ w = s.hostQ w := rfl
@[simp] theorem State.hif_modRegion (s : State) (r : Nat) (f : Region → Region) (w : Fld) : (s.modRegion r f).hif w = s.hif w := rfl
@[simp] theorem State.apr_modRegion (s : State) (r : Nat) (f : Region → Region) (w : Fld) : (s.modRegion r f).apr w = s.apr w := rfl

@[simp] theorem State.region_setCluster (s : State) (i : Nat) (c : Cluster) (w : Nat) : (s.setCluster i c).region w = s.region w := rfl
@[simp] theorem State.port_setCluster (s : State) (i : Nat) (c : Cluster) (w : Nat) : (s.setCluster i c).port w = s.port w := rfl
@[simp] theorem State.domeReg_setCluster (s : State) (i : Nat) (c : Cluster) (w : Fld) : (s.setCluster i c).dome_ w = s.dome_ w := rfl
@[simp] theorem State.hostQ_setCluster (s : State) (i : Nat) (c : Cluster) (w : Nat) : (s.setCluster i c).hostQ w = s.hostQ w := rfl
@[simp] theorem State.hif_setCluster (s : State) (i : Nat) (c : Cluster) (w : Fld) : (s.setCluster i c).hif w = s.hif w := rfl
@[simp] theorem State.apr_setCluster (s : State) (i : Nat) (c : Cluster) (w : Fld) : (s.setCluster i c).apr w = s.apr w := rfl

@[simp] theorem State.region_modCluster (s : State) (i : Nat) (f : Cluster → Cluster) (w : Nat) : (s.modCluster i f).region w = s.region w := rfl
@[simp] theorem State.port_modCluster (s : State) (i : Nat) (f : Cluster → Cluster) (w : Nat) : (s.modCluster i f).port w = s.port w := rfl
@[simp] theorem State.domeReg_modCluster (s : State) (i : Nat) (f : Cluster → Cluster) (w : Fld) : (s.modCluster i f).dome_ w = s.dome_ w := rfl
@[simp] theorem State.hostQ_modCluster (s : State) (i : Nat) (f : Cluster → Cluster) (w : Nat) : (s.modCluster i f).hostQ w = s.hostQ w := rfl
@[simp] theorem State.hif_modCluster (s : State) (i : Nat) (f : Cluster → Cluster) (w : Fld) : (s.modCluster i f).hif w = s.hif w := rfl
@[simp] theorem State.apr_modCluster (s : State) (i : Nat) (f : Cluster → Cluster) (w : Fld) : (s.modCluster i f).apr w = s.apr w := rfl

@[simp] theorem State.region_modElem (s : State) (i e : Nat) (f : Elem → Elem) (w : Nat) : (s.modElem i e f).region w = s.region w := rfl
@[simp] theorem State.port_modElem (s : State) (i e : Nat) (f : Elem → Elem) (w : Nat) : (s.modElem i e f).port w = s.port w := rfl
@[simp] theorem State.domeReg_modElem (s : State) (i e : Nat) (f : Elem → Elem) (w : Fld) : (s.modElem i e f).dome_ w = s.dome_ w := rfl
@[simp] theorem State.hostQ_modElem (s : State) (i e : Nat) (f : Elem → Elem) (w : Nat) : (s.modElem i e f).hostQ w = s.hostQ w := rfl
@[simp] theorem State.hif_modElem (s : State) (i e : Nat) (f : Elem → Elem) (w : Fld) : (s.modElem i e f).hif w = s.hif w := rfl
@[simp] theorem State.apr_modElem (s : State) (i e : Nat) (f : Elem → Elem) (w : Fld) : (s.modElem i e f).apr w = s.apr w := rfl

@[simp] theorem State.region_setPort (s : State) (p : Nat) (z : Port) (w : Nat) : (s.setPort p z).region w = s.region w := rfl
@[simp] theorem State.cluster_setPort (s : State) (p : Nat) (z : Port) (w : Nat) : (s.setPort p z).cluster w = s.cluster w := rfl
@[simp] theorem State.domeReg_setPort (s : State) (p : Nat) (z : Port) (w : Fld) : (s.setPort p z).dome_ w = s.dome_ w := rfl
@[simp] theorem State.hostQ_setPort (s : State) (p : Nat) (z : Port) (w : Nat) : (s.setPort p z).hostQ w = s.hostQ w := rfl
@[simp] theorem State.hif_setPort (s : State) (p : Nat) (z : Port) (w : Fld) : (s.setPort p z).hif w = s.hif w := rfl
@[simp] theorem State.apr_setPort (s : State) (p : Nat) (z : Port) (w : Fld) : (s.setPort p z).apr w = s.apr w := rfl

@[simp] theorem State.region_modPort (s : State) (p : Nat) (f : Port → Port) (w : Nat) : (s.modPort p f).region w = s.region w := rfl
@[simp] theorem State.cluster_modPort (s : State) (p : Nat) (f : Port → Port) (w : Nat) : (s.modPort p f).cluster w = s.cluster w := rfl
@[simp] theorem State.domeReg_modPort (s : State) (p : Nat) (f : Port → Port) (w : Fld) : (s.modPort p f).dome_ w = s.dome_ w := rfl
@[simp] theorem State.hostQ_modPort (s : State) (p : Nat) (f : Port → Port) (w : Nat) : (s.modPort p f).hostQ w = s.hostQ w := rfl
@[simp] theorem State.hif_modPort (s : State) (p : Nat) (f : Port → Port) (w : Fld) : (s.modPort p f).hif w = s.hif w := rfl
@[simp] theorem State.apr_modPort (s : State) (p : Nat) (f : Port → Port) (w : Fld) : (s.modPort p f).apr w = s.apr w := rfl

@[simp] theorem State.region_setHostQ (s : State) (q : Nat) (h : HostQ) (w : Nat) : (s.setHostQ q h).region w = s.region w := rfl
@[simp] theorem State.cluster_setHostQ (s : State) (q : Nat) (h : HostQ) (w : Nat) : (s.setHostQ q h).cluster w = s.cluster w := rfl
@[simp] theorem State.port_setHostQ (s : State) (q : Nat) (h : HostQ) (w : Nat) : (s.setHostQ q h).port w = s.port w := rfl
@[simp] theorem State.domeReg_setHostQ (s : State) (q : Nat) (h : HostQ) (w : Fld) : (s.setHostQ q h).dome_ w = s.dome_ w := rfl

@[simp] theorem State.region_modHostQ (s : State) (q : Nat) (f : HostQ → HostQ) (w : Nat) : (s.modHostQ q f).region w = s.region w := rfl
@[simp] theorem State.cluster_modHostQ (s : State) (q : Nat) (f : HostQ → HostQ) (w : Nat) : (s.modHostQ q f).cluster w = s.cluster w := rfl
@[simp] theorem State.port_modHostQ (s : State) (q : Nat) (f : HostQ → HostQ) (w : Nat) : (s.modHostQ q f).port w = s.port w := rfl
@[simp] theorem State.domeReg_modHostQ (s : State) (q : Nat) (f : HostQ → HostQ) (w : Fld) : (s.modHostQ q f).dome_ w = s.dome_ w := rfl

@[simp] theorem State.region_modDome (s : State) (f : Dome → Dome) (w : Nat) : (s.modDome f).region w = s.region w := rfl
@[simp] theorem State.cluster_modDome (s : State) (f : Dome → Dome) (w : Nat) : (s.modDome f).cluster w = s.cluster w := rfl
@[simp] theorem State.port_modDome (s : State) (f : Dome → Dome) (w : Nat) : (s.modDome f).port w = s.port w := rfl
@[simp] theorem State.hostQ_modDome (s : State) (f : Dome → Dome) (w : Nat) : (s.modDome f).hostQ w = s.hostQ w := rfl
@[simp] theorem State.hif_modDome (s : State) (f : Dome → Dome) (w : Fld) : (s.modDome f).hif w = s.hif w := rfl
@[simp] theorem State.apr_modDome (s : State) (f : Dome → Dome) (w : Fld) : (s.modDome f).apr w = s.apr w := rfl

@[simp] theorem State.region_modHost (s : State) (f : Bridge → Bridge) (w : Nat) : (s.modHost f).region w = s.region w := rfl
@[simp] theorem State.cluster_modHost (s : State) (f : Bridge → Bridge) (w : Nat) : (s.modHost f).cluster w = s.cluster w := rfl
@[simp] theorem State.port_modHost (s : State) (f : Bridge → Bridge) (w : Nat) : (s.modHost f).port w = s.port w := rfl
@[simp] theorem State.domeReg_modHost (s : State) (f : Bridge → Bridge) (w : Fld) : (s.modHost f).dome_ w = s.dome_ w := rfl

@[simp] theorem State.region_emit (s : State) (o : Output) (w : Nat) : (s.emit o).region w = s.region w := rfl
@[simp] theorem State.cluster_emit (s : State) (o : Output) (w : Nat) : (s.emit o).cluster w = s.cluster w := rfl
@[simp] theorem State.port_emit (s : State) (o : Output) (w : Nat) : (s.emit o).port w = s.port w := rfl
@[simp] theorem State.domeReg_emit (s : State) (o : Output) (w : Fld) : (s.emit o).dome_ w = s.dome_ w := rfl
@[simp] theorem State.hostQ_emit (s : State) (o : Output) (w : Nat) : (s.emit o).hostQ w = s.hostQ w := rfl
@[simp] theorem State.hif_emit (s : State) (o : Output) (w : Fld) : (s.emit o).hif w = s.hif w := rfl
@[simp] theorem State.apr_emit (s : State) (o : Output) (w : Fld) : (s.emit o).apr w = s.apr w := rfl

@[simp] theorem State.region_setDome (s : State) (f : Fld) (v : Nat) (w : Nat) : (s.setDome f v).region w = s.region w := rfl
@[simp] theorem State.cluster_setDome (s : State) (f : Fld) (v : Nat) (w : Nat) : (s.setDome f v).cluster w = s.cluster w := rfl
@[simp] theorem State.port_setDome (s : State) (f : Fld) (v : Nat) (w : Nat) : (s.setDome f v).port w = s.port w := rfl
@[simp] theorem State.hostQ_setDome (s : State) (f : Fld) (v : Nat) (w : Nat) : (s.setDome f v).hostQ w = s.hostQ w := rfl
@[simp] theorem State.hif_setDome (s : State) (f : Fld) (v : Nat) (w : Fld) : (s.setDome f v).hif w = s.hif w := rfl
@[simp] theorem State.apr_setDome (s : State) (f : Fld) (v : Nat) (w : Fld) : (s.setDome f v).apr w = s.apr w := rfl

@[simp] theorem State.region_setHif (s : State) (f : Fld) (v : Nat) (w : Nat) : (s.setHif f v).region w = s.region w := rfl
@[simp] theorem State.cluster_setHif (s : State) (f : Fld) (v : Nat) (w : Nat) : (s.setHif f v).cluster w = s.cluster w := rfl
@[simp] theorem State.port_setHif (s : State) (f : Fld) (v : Nat) (w : Nat) : (s.setHif f v).port w = s.port w := rfl
@[simp] theorem State.domeReg_setHif (s : State) (f : Fld) (v : Nat) (w : Fld) : (s.setHif f v).dome_ w = s.dome_ w := rfl

@[simp] theorem State.region_setApr (s : State) (f : Fld) (v : Nat) (w : Nat) : (s.setApr f v).region w = s.region w := rfl
@[simp] theorem State.cluster_setApr (s : State) (f : Fld) (v : Nat) (w : Nat) : (s.setApr f v).cluster w = s.cluster w := rfl
@[simp] theorem State.port_setApr (s : State) (f : Fld) (v : Nat) (w : Nat) : (s.setApr f v).port w = s.port w := rfl
@[simp] theorem State.domeReg_setApr (s : State) (f : Fld) (v : Nat) (w : Fld) : (s.setApr f v).dome_ w = s.dome_ w := rfl

@[simp] theorem State.cluster_debit (s : State) (i k n : Nat) (w : Nat) : (s.debit i k n).cluster w = s.cluster w := rfl
@[simp] theorem State.port_debit (s : State) (i k n : Nat) (w : Nat) : (s.debit i k n).port w = s.port w := rfl
@[simp] theorem State.domeReg_debit (s : State) (i k n : Nat) (w : Fld) : (s.debit i k n).dome_ w = s.dome_ w := rfl
@[simp] theorem State.hostQ_debit (s : State) (i k n : Nat) (w : Nat) : (s.debit i k n).hostQ w = s.hostQ w := rfl
@[simp] theorem State.hif_debit (s : State) (i k n : Nat) (w : Fld) : (s.debit i k n).hif w = s.hif w := rfl
@[simp] theorem State.apr_debit (s : State) (i k n : Nat) (w : Fld) : (s.debit i k n).apr w = s.apr w := rfl

/-! ## Register fields -/

theorem State.dome_setDome_same (s : State) (f : Fld) (v : Nat) (h : f.lo + f.width ≤ 32) : (s.setDome f v).dome_ f = v % 2 ^ f.width :=
  Regs.rd_wr_same domeTable s.dome.regs f v h
theorem State.dome_setDome_ne (s : State) (f g : Fld) (v : Nat) (h : g.off ≠ f.off) : (s.setDome f v).dome_ g = s.dome_ g :=
  Regs.rd_wr_ne domeTable s.dome.regs f g v h
theorem State.dome_setDome_disjoint (s : State) (f g : Fld) (v : Nat) (hg : g.lo + g.width ≤ 32) (h : f.lo + f.width ≤ g.lo ∨ g.lo + g.width ≤ f.lo) :
    (s.setDome f v).dome_ g = s.dome_ g := Regs.rd_wr_disjoint domeTable s.dome.regs f g v hg h
theorem State.hif_setHif_same (s : State) (f : Fld) (v : Nat) (h : f.lo + f.width ≤ 32) : (s.setHif f v).hif f = v % 2 ^ f.width :=
  Regs.rd_wr_same hifTable s.host.hif f v h
theorem State.hif_setHif_ne (s : State) (f g : Fld) (v : Nat) (h : g.off ≠ f.off) : (s.setHif f v).hif g = s.hif g :=
  Regs.rd_wr_ne hifTable s.host.hif f g v h
theorem Region.rd_wr_same (g : Region) (f : Fld) (v : Nat) (h : f.lo + f.width ≤ 32) : (g.wr f v).rd f = v % 2 ^ f.width :=
  Regs.rd_wr_same pageTable g.regs f v h
theorem Region.rd_wr_ne (g : Region) (f k : Fld) (v : Nat) (h : k.off ≠ f.off) : (g.wr f v).rd k = g.rd k := Regs.rd_wr_ne pageTable g.regs f k v h
theorem Region.rd_wr_disjoint (g : Region) (f k : Fld) (v : Nat) (hk : k.lo + k.width ≤ 32) (h : f.lo + f.width ≤ k.lo ∨ k.lo + k.width ≤ f.lo) :
    (g.wr f v).rd k = g.rd k := Regs.rd_wr_disjoint pageTable g.regs f k v hk h
theorem Cluster.rd_wr_same (c : Cluster) (f : Fld) (v : Nat) (h : f.lo + f.width ≤ 32) : (c.wr f v).rd f = v % 2 ^ f.width :=
  Regs.rd_wr_same clTable c.regs f v h
theorem Cluster.rd_wr_ne (c : Cluster) (f k : Fld) (v : Nat) (h : k.off ≠ f.off) : (c.wr f v).rd k = c.rd k := Regs.rd_wr_ne clTable c.regs f k v h
theorem Elem.rd_wr_same (x : Elem) (f : Fld) (v : Nat) (h : f.lo + f.width ≤ 32) : (x.wr f v).rd f = v % 2 ^ f.width :=
  Regs.rd_wr_same elTable x.regs f v h
theorem Elem.rd_wr_ne (x : Elem) (f k : Fld) (v : Nat) (h : k.off ≠ f.off) : (x.wr f v).rd k = x.rd k := Regs.rd_wr_ne elTable x.regs f k v h
theorem Port.rd_wr_same (z : Port) (f : Fld) (v : Nat) (h : f.lo + f.width ≤ 32) : (z.wr f v).rd f = v % 2 ^ f.width :=
  Regs.rd_wr_same zlTable z.regs f v h
theorem Port.rd_wr_ne (z : Port) (f k : Fld) (v : Nat) (h : k.off ≠ f.off) : (z.wr f v).rd k = z.rd k := Regs.rd_wr_ne zlTable z.regs f k v h
theorem HostQ.rd_wr_same (q : HostQ) (f : Fld) (v : Nat) (h : f.lo + f.width ≤ 32) : (q.wr f v).rd f = v % 2 ^ f.width :=
  Regs.rd_wr_same hqTable q.regs f v h

@[simp] theorem Region.wr_cnt (x : Region) (f : Fld) (v : Nat) : (x.wr f v).cnt = x.cnt := rfl
@[simp] theorem Region.wr_almActive (x : Region) (f : Fld) (v : Nat) : (x.wr f v).almActive = x.almActive := rfl
@[simp] theorem Region.wr_reserve (x : Region) (f : Fld) (v : Nat) : (x.wr f v).reserve = x.reserve := rfl
@[simp] theorem Region.wr_balance (x : Region) (f : Fld) (v : Nat) : (x.wr f v).balance = x.balance := rfl
@[simp] theorem Region.wr_used (x : Region) (f : Fld) (v : Nat) : (x.wr f v).used = x.used := rfl
@[simp] theorem Region.wr_ev (x : Region) (f : Fld) (v : Nat) : (x.wr f v).ev = x.ev := rfl
@[simp] theorem Region.wr_temps (x : Region) (f : Fld) (v : Nat) : (x.wr f v).temps = x.temps := rfl
@[simp] theorem Region.wr_warnOn (x : Region) (f : Fld) (v : Nat) : (x.wr f v).warnOn = x.warnOn := rfl
@[simp] theorem Region.wr_parkedTick (x : Region) (f : Fld) (v : Nat) : (x.wr f v).parkedTick = x.parkedTick := rfl
@[simp] theorem Region.wr_num (x : Region) (f : Fld) (v : Nat) : (x.wr f v).num = x.num := rfl
@[simp] theorem Region.wr_start (x : Region) (f : Fld) (v : Nat) : (x.wr f v).start = x.start := rfl
@[simp] theorem Region.wr_armed (x : Region) (f : Fld) (v : Nat) : (x.wr f v).armed = x.armed := rfl
@[simp] theorem Region.wr_locals (x : Region) (f : Fld) (v : Nat) : (x.wr f v).locals = x.locals := rfl
@[simp] theorem Region.wr_lastLocal (x : Region) (f : Fld) (v : Nat) : (x.wr f v).lastLocal = x.lastLocal := rfl
@[simp] theorem Region.wr_trcTry (x : Region) (f : Fld) (v : Nat) : (x.wr f v).trcTry = x.trcTry := rfl
@[simp] theorem Region.wr_sched (x : Region) (f : Fld) (v : Nat) : (x.wr f v).sched = x.sched := rfl
@[simp] theorem Region.wr_loop (x : Region) (f : Fld) (v : Nat) : (x.wr f v).loop = x.loop := rfl
@[simp] theorem Region.wr_slot (x : Region) (f : Fld) (v : Nat) : (x.wr f v).slot = x.slot := rfl
@[simp] theorem Region.wr_passed (x : Region) (f : Fld) (v : Nat) : (x.wr f v).passed = x.passed := rfl
@[simp] theorem Region.wr_drainWaits (x : Region) (f : Fld) (v : Nat) : (x.wr f v).drainWaits = x.drainWaits := rfl
@[simp] theorem Region.wr_startDue (x : Region) (f : Fld) (v : Nat) : (x.wr f v).startDue = x.startDue := rfl
@[simp] theorem Region.wr_bucket0 (x : Region) (f : Fld) (v : Nat) : (x.wr f v).bucket0 = x.bucket0 := rfl
@[simp] theorem Region.wr_bucket1 (x : Region) (f : Fld) (v : Nat) : (x.wr f v).bucket1 = x.bucket1 := rfl
@[simp] theorem Region.wr_frozen (x : Region) (f : Fld) (v : Nat) : (x.wr f v).frozen = x.frozen := rfl
@[simp] theorem Region.wr_holes (x : Region) (f : Fld) (v : Nat) : (x.wr f v).holes = x.holes := rfl
@[simp] theorem Region.wr_holeGen (x : Region) (f : Fld) (v : Nat) : (x.wr f v).holeGen = x.holeGen := rfl
@[simp] theorem Region.wr_throttled (x : Region) (f : Fld) (v : Nat) : (x.wr f v).throttled = x.throttled := rfl
@[simp] theorem Region.wr_chr (x : Region) (f : Fld) (v : Nat) : (x.wr f v).chr = x.chr := rfl
@[simp] theorem Region.wr_chrLast (x : Region) (f : Fld) (v : Nat) : (x.wr f v).chrLast = x.chrLast := rfl
@[simp] theorem Region.wr_forceOver (x : Region) (f : Fld) (v : Nat) : (x.wr f v).forceOver = x.forceOver := rfl
@[simp] theorem Region.wr_forceAsked (x : Region) (f : Fld) (v : Nat) : (x.wr f v).forceAsked = x.forceAsked := rfl
@[simp] theorem Region.wr_ticked (x : Region) (f : Fld) (v : Nat) : (x.wr f v).ticked = x.ticked := rfl
@[simp] theorem Region.wr_converted (x : Region) (f : Fld) (v : Nat) : (x.wr f v).converted = x.converted := rfl
@[simp] theorem Region.wr_swapsDue (x : Region) (f : Fld) (v : Nat) : (x.wr f v).swapsDue = x.swapsDue := rfl
@[simp] theorem Region.count_regs (x : Region) (f : Fld) (v : Nat) : (x.count f v).regs = x.regs := rfl
@[simp] theorem Region.count_almActive (x : Region) (f : Fld) (v : Nat) : (x.count f v).almActive = x.almActive := rfl
@[simp] theorem Region.count_reserve (x : Region) (f : Fld) (v : Nat) : (x.count f v).reserve = x.reserve := rfl
@[simp] theorem Region.count_balance (x : Region) (f : Fld) (v : Nat) : (x.count f v).balance = x.balance := rfl
@[simp] theorem Region.count_used (x : Region) (f : Fld) (v : Nat) : (x.count f v).used = x.used := rfl
@[simp] theorem Region.count_ev (x : Region) (f : Fld) (v : Nat) : (x.count f v).ev = x.ev := rfl
@[simp] theorem Region.count_temps (x : Region) (f : Fld) (v : Nat) : (x.count f v).temps = x.temps := rfl
@[simp] theorem Region.count_warnOn (x : Region) (f : Fld) (v : Nat) : (x.count f v).warnOn = x.warnOn := rfl
@[simp] theorem Region.count_parkedTick (x : Region) (f : Fld) (v : Nat) : (x.count f v).parkedTick = x.parkedTick := rfl
@[simp] theorem Region.count_num (x : Region) (f : Fld) (v : Nat) : (x.count f v).num = x.num := rfl
@[simp] theorem Region.count_start (x : Region) (f : Fld) (v : Nat) : (x.count f v).start = x.start := rfl
@[simp] theorem Region.count_armed (x : Region) (f : Fld) (v : Nat) : (x.count f v).armed = x.armed := rfl
@[simp] theorem Region.count_locals (x : Region) (f : Fld) (v : Nat) : (x.count f v).locals = x.locals := rfl
@[simp] theorem Region.count_lastLocal (x : Region) (f : Fld) (v : Nat) : (x.count f v).lastLocal = x.lastLocal := rfl
@[simp] theorem Region.count_trcTry (x : Region) (f : Fld) (v : Nat) : (x.count f v).trcTry = x.trcTry := rfl
@[simp] theorem Region.count_sched (x : Region) (f : Fld) (v : Nat) : (x.count f v).sched = x.sched := rfl
@[simp] theorem Region.count_loop (x : Region) (f : Fld) (v : Nat) : (x.count f v).loop = x.loop := rfl
@[simp] theorem Region.count_slot (x : Region) (f : Fld) (v : Nat) : (x.count f v).slot = x.slot := rfl
@[simp] theorem Region.count_passed (x : Region) (f : Fld) (v : Nat) : (x.count f v).passed = x.passed := rfl
@[simp] theorem Region.count_drainWaits (x : Region) (f : Fld) (v : Nat) : (x.count f v).drainWaits = x.drainWaits := rfl
@[simp] theorem Region.count_startDue (x : Region) (f : Fld) (v : Nat) : (x.count f v).startDue = x.startDue := rfl
@[simp] theorem Region.count_bucket0 (x : Region) (f : Fld) (v : Nat) : (x.count f v).bucket0 = x.bucket0 := rfl
@[simp] theorem Region.count_bucket1 (x : Region) (f : Fld) (v : Nat) : (x.count f v).bucket1 = x.bucket1 := rfl
@[simp] theorem Region.count_frozen (x : Region) (f : Fld) (v : Nat) : (x.count f v).frozen = x.frozen := rfl
@[simp] theorem Region.count_holes (x : Region) (f : Fld) (v : Nat) : (x.count f v).holes = x.holes := rfl
@[simp] theorem Region.count_holeGen (x : Region) (f : Fld) (v : Nat) : (x.count f v).holeGen = x.holeGen := rfl
@[simp] theorem Region.count_throttled (x : Region) (f : Fld) (v : Nat) : (x.count f v).throttled = x.throttled := rfl
@[simp] theorem Region.count_chr (x : Region) (f : Fld) (v : Nat) : (x.count f v).chr = x.chr := rfl
@[simp] theorem Region.count_chrLast (x : Region) (f : Fld) (v : Nat) : (x.count f v).chrLast = x.chrLast := rfl
@[simp] theorem Region.count_forceOver (x : Region) (f : Fld) (v : Nat) : (x.count f v).forceOver = x.forceOver := rfl
@[simp] theorem Region.count_forceAsked (x : Region) (f : Fld) (v : Nat) : (x.count f v).forceAsked = x.forceAsked := rfl
@[simp] theorem Region.count_ticked (x : Region) (f : Fld) (v : Nat) : (x.count f v).ticked = x.ticked := rfl
@[simp] theorem Region.count_converted (x : Region) (f : Fld) (v : Nat) : (x.count f v).converted = x.converted := rfl
@[simp] theorem Region.count_swapsDue (x : Region) (f : Fld) (v : Nat) : (x.count f v).swapsDue = x.swapsDue := rfl

@[simp] theorem Cluster.wr_cnt (x : Cluster) (f : Fld) (v : Nat) : (x.wr f v).cnt = x.cnt := rfl
@[simp] theorem Cluster.wr_elems (x : Cluster) (f : Fld) (v : Nat) : (x.wr f v).elems = x.elems := rfl
@[simp] theorem Cluster.wr_mu (x : Cluster) (f : Fld) (v : Nat) : (x.wr f v).mu = x.mu := rfl
@[simp] theorem Cluster.wr_mem (x : Cluster) (f : Fld) (v : Nat) : (x.wr f v).mem = x.mem := rfl
@[simp] theorem Cluster.wr_memBad (x : Cluster) (f : Fld) (v : Nat) : (x.wr f v).memBad = x.memBad := rfl
@[simp] theorem Cluster.wr_rowPoison (x : Cluster) (f : Fld) (v : Nat) : (x.wr f v).rowPoison = x.rowPoison := rfl
@[simp] theorem Cluster.wr_narrow (x : Cluster) (f : Fld) (v : Nat) : (x.wr f v).narrow = x.narrow := rfl
@[simp] theorem Cluster.wr_accs (x : Cluster) (f : Fld) (v : Nat) : (x.wr f v).accs = x.accs := rfl
@[simp] theorem Cluster.wr_staging (x : Cluster) (f : Fld) (v : Nat) : (x.wr f v).staging = x.staging := rfl
@[simp] theorem Cluster.wr_asm (x : Cluster) (f : Fld) (v : Nat) : (x.wr f v).asm = x.asm := rfl
@[simp] theorem Cluster.wr_ds (x : Cluster) (f : Fld) (v : Nat) : (x.wr f v).ds = x.ds := rfl
@[simp] theorem Cluster.wr_dsErr (x : Cluster) (f : Fld) (v : Nat) : (x.wr f v).dsErr = x.dsErr := rfl
@[simp] theorem Cluster.wr_dsq (x : Cluster) (f : Fld) (v : Nat) : (x.wr f v).dsq = x.dsq := rfl
@[simp] theorem Cluster.wr_dsOpen (x : Cluster) (f : Fld) (v : Nat) : (x.wr f v).dsOpen = x.dsOpen := rfl
@[simp] theorem Cluster.wr_dsAct (x : Cluster) (f : Fld) (v : Nat) : (x.wr f v).dsAct = x.dsAct := rfl
@[simp] theorem Cluster.wr_tu (x : Cluster) (f : Fld) (v : Nat) : (x.wr f v).tu = x.tu := rfl
@[simp] theorem Cluster.wr_te (x : Cluster) (f : Fld) (v : Nat) : (x.wr f v).te = x.te := rfl
@[simp] theorem Cluster.wr_tuSend (x : Cluster) (f : Fld) (v : Nat) : (x.wr f v).tuSend = x.tuSend := rfl
@[simp] theorem Cluster.wr_attach (x : Cluster) (f : Fld) (v : Nat) : (x.wr f v).attach = x.attach := rfl
@[simp] theorem Cluster.wr_ringToks (x : Cluster) (f : Fld) (v : Nat) : (x.wr f v).ringToks = x.ringToks := rfl
@[simp] theorem Cluster.wr_ringCreds (x : Cluster) (f : Fld) (v : Nat) : (x.wr f v).ringCreds = x.ringCreds := rfl
@[simp] theorem Cluster.wr_ringResv (x : Cluster) (f : Fld) (v : Nat) : (x.wr f v).ringResv = x.ringResv := rfl
@[simp] theorem Cluster.wr_out (x : Cluster) (f : Fld) (v : Nat) : (x.wr f v).out = x.out := rfl
@[simp] theorem Cluster.wr_fifo (x : Cluster) (f : Fld) (v : Nat) : (x.wr f v).fifo = x.fifo := rfl
@[simp] theorem Cluster.wr_xcred (x : Cluster) (f : Fld) (v : Nat) : (x.wr f v).xcred = x.xcred := rfl
@[simp] theorem Cluster.wr_arrivals (x : Cluster) (f : Fld) (v : Nat) : (x.wr f v).arrivals = x.arrivals := rfl
@[simp] theorem Cluster.wr_fenced (x : Cluster) (f : Fld) (v : Nat) : (x.wr f v).fenced = x.fenced := rfl
@[simp] theorem Cluster.wr_occGen (x : Cluster) (f : Fld) (v : Nat) : (x.wr f v).occGen = x.occGen := rfl
@[simp] theorem Cluster.wr_npRd (x : Cluster) (f : Fld) (v : Nat) : (x.wr f v).npRd = x.npRd := rfl
@[simp] theorem Cluster.wr_npWr (x : Cluster) (f : Fld) (v : Nat) : (x.wr f v).npWr = x.npWr := rfl
@[simp] theorem Cluster.wr_rfab (x : Cluster) (f : Fld) (v : Nat) : (x.wr f v).rfab = x.rfab := rfl
@[simp] theorem Cluster.wr_dsBlock (x : Cluster) (f : Fld) (v : Nat) : (x.wr f v).dsBlock = x.dsBlock := rfl
@[simp] theorem Cluster.count_regs (x : Cluster) (f : Fld) (v : Nat) : (x.count f v).regs = x.regs := rfl
@[simp] theorem Cluster.count_elems (x : Cluster) (f : Fld) (v : Nat) : (x.count f v).elems = x.elems := rfl
@[simp] theorem Cluster.count_mu (x : Cluster) (f : Fld) (v : Nat) : (x.count f v).mu = x.mu := rfl
@[simp] theorem Cluster.count_mem (x : Cluster) (f : Fld) (v : Nat) : (x.count f v).mem = x.mem := rfl
@[simp] theorem Cluster.count_memBad (x : Cluster) (f : Fld) (v : Nat) : (x.count f v).memBad = x.memBad := rfl
@[simp] theorem Cluster.count_rowPoison (x : Cluster) (f : Fld) (v : Nat) : (x.count f v).rowPoison = x.rowPoison := rfl
@[simp] theorem Cluster.count_narrow (x : Cluster) (f : Fld) (v : Nat) : (x.count f v).narrow = x.narrow := rfl
@[simp] theorem Cluster.count_accs (x : Cluster) (f : Fld) (v : Nat) : (x.count f v).accs = x.accs := rfl
@[simp] theorem Cluster.count_staging (x : Cluster) (f : Fld) (v : Nat) : (x.count f v).staging = x.staging := rfl
@[simp] theorem Cluster.count_asm (x : Cluster) (f : Fld) (v : Nat) : (x.count f v).asm = x.asm := rfl
@[simp] theorem Cluster.count_ds (x : Cluster) (f : Fld) (v : Nat) : (x.count f v).ds = x.ds := rfl
@[simp] theorem Cluster.count_dsErr (x : Cluster) (f : Fld) (v : Nat) : (x.count f v).dsErr = x.dsErr := rfl
@[simp] theorem Cluster.count_dsq (x : Cluster) (f : Fld) (v : Nat) : (x.count f v).dsq = x.dsq := rfl
@[simp] theorem Cluster.count_dsOpen (x : Cluster) (f : Fld) (v : Nat) : (x.count f v).dsOpen = x.dsOpen := rfl
@[simp] theorem Cluster.count_dsAct (x : Cluster) (f : Fld) (v : Nat) : (x.count f v).dsAct = x.dsAct := rfl
@[simp] theorem Cluster.count_tu (x : Cluster) (f : Fld) (v : Nat) : (x.count f v).tu = x.tu := rfl
@[simp] theorem Cluster.count_te (x : Cluster) (f : Fld) (v : Nat) : (x.count f v).te = x.te := rfl
@[simp] theorem Cluster.count_tuSend (x : Cluster) (f : Fld) (v : Nat) : (x.count f v).tuSend = x.tuSend := rfl
@[simp] theorem Cluster.count_attach (x : Cluster) (f : Fld) (v : Nat) : (x.count f v).attach = x.attach := rfl
@[simp] theorem Cluster.count_ringToks (x : Cluster) (f : Fld) (v : Nat) : (x.count f v).ringToks = x.ringToks := rfl
@[simp] theorem Cluster.count_ringCreds (x : Cluster) (f : Fld) (v : Nat) : (x.count f v).ringCreds = x.ringCreds := rfl
@[simp] theorem Cluster.count_ringResv (x : Cluster) (f : Fld) (v : Nat) : (x.count f v).ringResv = x.ringResv := rfl
@[simp] theorem Cluster.count_out (x : Cluster) (f : Fld) (v : Nat) : (x.count f v).out = x.out := rfl
@[simp] theorem Cluster.count_fifo (x : Cluster) (f : Fld) (v : Nat) : (x.count f v).fifo = x.fifo := rfl
@[simp] theorem Cluster.count_xcred (x : Cluster) (f : Fld) (v : Nat) : (x.count f v).xcred = x.xcred := rfl
@[simp] theorem Cluster.count_arrivals (x : Cluster) (f : Fld) (v : Nat) : (x.count f v).arrivals = x.arrivals := rfl
@[simp] theorem Cluster.count_fenced (x : Cluster) (f : Fld) (v : Nat) : (x.count f v).fenced = x.fenced := rfl
@[simp] theorem Cluster.count_occGen (x : Cluster) (f : Fld) (v : Nat) : (x.count f v).occGen = x.occGen := rfl
@[simp] theorem Cluster.count_npRd (x : Cluster) (f : Fld) (v : Nat) : (x.count f v).npRd = x.npRd := rfl
@[simp] theorem Cluster.count_npWr (x : Cluster) (f : Fld) (v : Nat) : (x.count f v).npWr = x.npWr := rfl
@[simp] theorem Cluster.count_rfab (x : Cluster) (f : Fld) (v : Nat) : (x.count f v).rfab = x.rfab := rfl
@[simp] theorem Cluster.count_dsBlock (x : Cluster) (f : Fld) (v : Nat) : (x.count f v).dsBlock = x.dsBlock := rfl
@[simp] theorem Cluster.setElem_regs (x : Cluster) (e : Nat) (k : Elem) : (x.setElem e k).regs = x.regs := rfl
@[simp] theorem Cluster.setElem_cnt (x : Cluster) (e : Nat) (k : Elem) : (x.setElem e k).cnt = x.cnt := rfl
@[simp] theorem Cluster.setElem_mu (x : Cluster) (e : Nat) (k : Elem) : (x.setElem e k).mu = x.mu := rfl
@[simp] theorem Cluster.setElem_mem (x : Cluster) (e : Nat) (k : Elem) : (x.setElem e k).mem = x.mem := rfl
@[simp] theorem Cluster.setElem_memBad (x : Cluster) (e : Nat) (k : Elem) : (x.setElem e k).memBad = x.memBad := rfl
@[simp] theorem Cluster.setElem_rowPoison (x : Cluster) (e : Nat) (k : Elem) : (x.setElem e k).rowPoison = x.rowPoison := rfl
@[simp] theorem Cluster.setElem_narrow (x : Cluster) (e : Nat) (k : Elem) : (x.setElem e k).narrow = x.narrow := rfl
@[simp] theorem Cluster.setElem_accs (x : Cluster) (e : Nat) (k : Elem) : (x.setElem e k).accs = x.accs := rfl
@[simp] theorem Cluster.setElem_staging (x : Cluster) (e : Nat) (k : Elem) : (x.setElem e k).staging = x.staging := rfl
@[simp] theorem Cluster.setElem_asm (x : Cluster) (e : Nat) (k : Elem) : (x.setElem e k).asm = x.asm := rfl
@[simp] theorem Cluster.setElem_ds (x : Cluster) (e : Nat) (k : Elem) : (x.setElem e k).ds = x.ds := rfl
@[simp] theorem Cluster.setElem_dsErr (x : Cluster) (e : Nat) (k : Elem) : (x.setElem e k).dsErr = x.dsErr := rfl
@[simp] theorem Cluster.setElem_dsq (x : Cluster) (e : Nat) (k : Elem) : (x.setElem e k).dsq = x.dsq := rfl
@[simp] theorem Cluster.setElem_dsOpen (x : Cluster) (e : Nat) (k : Elem) : (x.setElem e k).dsOpen = x.dsOpen := rfl
@[simp] theorem Cluster.setElem_dsAct (x : Cluster) (e : Nat) (k : Elem) : (x.setElem e k).dsAct = x.dsAct := rfl
@[simp] theorem Cluster.setElem_tu (x : Cluster) (e : Nat) (k : Elem) : (x.setElem e k).tu = x.tu := rfl
@[simp] theorem Cluster.setElem_te (x : Cluster) (e : Nat) (k : Elem) : (x.setElem e k).te = x.te := rfl
@[simp] theorem Cluster.setElem_tuSend (x : Cluster) (e : Nat) (k : Elem) : (x.setElem e k).tuSend = x.tuSend := rfl
@[simp] theorem Cluster.setElem_attach (x : Cluster) (e : Nat) (k : Elem) : (x.setElem e k).attach = x.attach := rfl
@[simp] theorem Cluster.setElem_ringToks (x : Cluster) (e : Nat) (k : Elem) : (x.setElem e k).ringToks = x.ringToks := rfl
@[simp] theorem Cluster.setElem_ringCreds (x : Cluster) (e : Nat) (k : Elem) : (x.setElem e k).ringCreds = x.ringCreds := rfl
@[simp] theorem Cluster.setElem_ringResv (x : Cluster) (e : Nat) (k : Elem) : (x.setElem e k).ringResv = x.ringResv := rfl
@[simp] theorem Cluster.setElem_out (x : Cluster) (e : Nat) (k : Elem) : (x.setElem e k).out = x.out := rfl
@[simp] theorem Cluster.setElem_fifo (x : Cluster) (e : Nat) (k : Elem) : (x.setElem e k).fifo = x.fifo := rfl
@[simp] theorem Cluster.setElem_xcred (x : Cluster) (e : Nat) (k : Elem) : (x.setElem e k).xcred = x.xcred := rfl
@[simp] theorem Cluster.setElem_arrivals (x : Cluster) (e : Nat) (k : Elem) : (x.setElem e k).arrivals = x.arrivals := rfl
@[simp] theorem Cluster.setElem_fenced (x : Cluster) (e : Nat) (k : Elem) : (x.setElem e k).fenced = x.fenced := rfl
@[simp] theorem Cluster.setElem_occGen (x : Cluster) (e : Nat) (k : Elem) : (x.setElem e k).occGen = x.occGen := rfl
@[simp] theorem Cluster.setElem_npRd (x : Cluster) (e : Nat) (k : Elem) : (x.setElem e k).npRd = x.npRd := rfl
@[simp] theorem Cluster.setElem_npWr (x : Cluster) (e : Nat) (k : Elem) : (x.setElem e k).npWr = x.npWr := rfl
@[simp] theorem Cluster.setElem_rfab (x : Cluster) (e : Nat) (k : Elem) : (x.setElem e k).rfab = x.rfab := rfl
@[simp] theorem Cluster.setElem_dsBlock (x : Cluster) (e : Nat) (k : Elem) : (x.setElem e k).dsBlock = x.dsBlock := rfl

@[simp] theorem Elem.wr_cnt (x : Elem) (f : Fld) (v : Nat) : (x.wr f v).cnt = x.cnt := rfl
@[simp] theorem Elem.wr_queues (x : Elem) (f : Fld) (v : Nat) : (x.wr f v).queues = x.queues := rfl
@[simp] theorem Elem.wr_out0 (x : Elem) (f : Fld) (v : Nat) : (x.wr f v).out0 = x.out0 := rfl
@[simp] theorem Elem.wr_out1 (x : Elem) (f : Fld) (v : Nat) : (x.wr f v).out1 = x.out1 := rfl
@[simp] theorem Elem.wr_ctxs (x : Elem) (f : Fld) (v : Nat) : (x.wr f v).ctxs = x.ctxs := rfl
@[simp] theorem Elem.wr_ptr (x : Elem) (f : Fld) (v : Nat) : (x.wr f v).ptr = x.ptr := rfl
@[simp] theorem Elem.wr_block (x : Elem) (f : Fld) (v : Nat) : (x.wr f v).block = x.block := rfl
@[simp] theorem Elem.wr_mem (x : Elem) (f : Fld) (v : Nat) : (x.wr f v).mem = x.mem := rfl
@[simp] theorem Elem.wr_bad (x : Elem) (f : Fld) (v : Nat) : (x.wr f v).bad = x.bad := rfl
@[simp] theorem Elem.wr_seq (x : Elem) (f : Fld) (v : Nat) : (x.wr f v).seq = x.seq := rfl
@[simp] theorem Elem.wr_seeds (x : Elem) (f : Fld) (v : Nat) : (x.wr f v).seeds = x.seeds := rfl
@[simp] theorem Elem.wr_seedWait (x : Elem) (f : Fld) (v : Nat) : (x.wr f v).seedWait = x.seedWait := rfl
@[simp] theorem Elem.wr_sends (x : Elem) (f : Fld) (v : Nat) : (x.wr f v).sends = x.sends := rfl
@[simp] theorem Elem.count_regs (x : Elem) (f : Fld) (v : Nat) : (x.count f v).regs = x.regs := rfl
@[simp] theorem Elem.count_queues (x : Elem) (f : Fld) (v : Nat) : (x.count f v).queues = x.queues := rfl
@[simp] theorem Elem.count_out0 (x : Elem) (f : Fld) (v : Nat) : (x.count f v).out0 = x.out0 := rfl
@[simp] theorem Elem.count_out1 (x : Elem) (f : Fld) (v : Nat) : (x.count f v).out1 = x.out1 := rfl
@[simp] theorem Elem.count_ctxs (x : Elem) (f : Fld) (v : Nat) : (x.count f v).ctxs = x.ctxs := rfl
@[simp] theorem Elem.count_ptr (x : Elem) (f : Fld) (v : Nat) : (x.count f v).ptr = x.ptr := rfl
@[simp] theorem Elem.count_block (x : Elem) (f : Fld) (v : Nat) : (x.count f v).block = x.block := rfl
@[simp] theorem Elem.count_mem (x : Elem) (f : Fld) (v : Nat) : (x.count f v).mem = x.mem := rfl
@[simp] theorem Elem.count_bad (x : Elem) (f : Fld) (v : Nat) : (x.count f v).bad = x.bad := rfl
@[simp] theorem Elem.count_seq (x : Elem) (f : Fld) (v : Nat) : (x.count f v).seq = x.seq := rfl
@[simp] theorem Elem.count_seeds (x : Elem) (f : Fld) (v : Nat) : (x.count f v).seeds = x.seeds := rfl
@[simp] theorem Elem.count_seedWait (x : Elem) (f : Fld) (v : Nat) : (x.count f v).seedWait = x.seedWait := rfl
@[simp] theorem Elem.count_sends (x : Elem) (f : Fld) (v : Nat) : (x.count f v).sends = x.sends := rfl

@[simp] theorem Port.wr_cnt (x : Port) (f : Fld) (v : Nat) : (x.wr f v).cnt = x.cnt := rfl
@[simp] theorem Port.wr_egress (x : Port) (f : Fld) (v : Nat) : (x.wr f v).egress = x.egress := rfl
@[simp] theorem Port.wr_ingress (x : Port) (f : Fld) (v : Nat) : (x.wr f v).ingress = x.ingress := rfl
@[simp] theorem Port.wr_credits (x : Port) (f : Fld) (v : Nat) : (x.wr f v).credits = x.credits := rfl
@[simp] theorem Port.wr_owed (x : Port) (f : Fld) (v : Nat) : (x.wr f v).owed = x.owed := rfl
@[simp] theorem Port.wr_retry (x : Port) (f : Fld) (v : Nat) : (x.wr f v).retry = x.retry := rfl
@[simp] theorem Port.wr_txSeq (x : Port) (f : Fld) (v : Nat) : (x.wr f v).txSeq = x.txSeq := rfl
@[simp] theorem Port.wr_rxSeq (x : Port) (f : Fld) (v : Nat) : (x.wr f v).rxSeq = x.rxSeq := rfl
@[simp] theorem Port.wr_acked (x : Port) (f : Fld) (v : Nat) : (x.wr f v).acked = x.acked := rfl
@[simp] theorem Port.wr_ackOwed (x : Port) (f : Fld) (v : Nat) : (x.wr f v).ackOwed = x.ackOwed := rfl
@[simp] theorem Port.wr_nakOwed (x : Port) (f : Fld) (v : Nat) : (x.wr f v).nakOwed = x.nakOwed := rfl
@[simp] theorem Port.wr_replay (x : Port) (f : Fld) (v : Nat) : (x.wr f v).replay = x.replay := rfl
@[simp] theorem Port.wr_replays (x : Port) (f : Fld) (v : Nat) : (x.wr f v).replays = x.replays := rfl
@[simp] theorem Port.wr_replayAck (x : Port) (f : Fld) (v : Nat) : (x.wr f v).replayAck = x.replayAck := rfl
@[simp] theorem Port.wr_nakFrames (x : Port) (f : Fld) (v : Nat) : (x.wr f v).nakFrames = x.nakFrames := rfl
@[simp] theorem Port.wr_finder (x : Port) (f : Fld) (v : Nat) : (x.wr f v).finder = x.finder := rfl
@[simp] theorem Port.wr_sinceIdle (x : Port) (f : Fld) (v : Nat) : (x.wr f v).sinceIdle = x.sinceIdle := rfl
@[simp] theorem Port.wr_sinceAlign (x : Port) (f : Fld) (v : Nat) : (x.wr f v).sinceAlign = x.sinceAlign := rfl
@[simp] theorem Port.wr_tickDue (x : Port) (f : Fld) (v : Nat) : (x.wr f v).tickDue = x.tickDue := rfl
@[simp] theorem Port.wr_deskewed (x : Port) (f : Fld) (v : Nat) : (x.wr f v).deskewed = x.deskewed := rfl
@[simp] theorem Port.wr_tick (x : Port) (f : Fld) (v : Nat) : (x.wr f v).tick = x.tick := rfl
@[simp] theorem Port.wr_disabling (x : Port) (f : Fld) (v : Nat) : (x.wr f v).disabling = x.disabling := rfl
@[simp] theorem Port.wr_fab (x : Port) (f : Fld) (v : Nat) : (x.wr f v).fab = x.fab := rfl
@[simp] theorem Port.wr_peerStamp (x : Port) (f : Fld) (v : Nat) : (x.wr f v).peerStamp = x.peerStamp := rfl
@[simp] theorem Port.count_regs (x : Port) (f : Fld) (v : Nat) : (x.count f v).regs = x.regs := rfl
@[simp] theorem Port.count_egress (x : Port) (f : Fld) (v : Nat) : (x.count f v).egress = x.egress := rfl
@[simp] theorem Port.count_ingress (x : Port) (f : Fld) (v : Nat) : (x.count f v).ingress = x.ingress := rfl
@[simp] theorem Port.count_credits (x : Port) (f : Fld) (v : Nat) : (x.count f v).credits = x.credits := rfl
@[simp] theorem Port.count_owed (x : Port) (f : Fld) (v : Nat) : (x.count f v).owed = x.owed := rfl
@[simp] theorem Port.count_retry (x : Port) (f : Fld) (v : Nat) : (x.count f v).retry = x.retry := rfl
@[simp] theorem Port.count_txSeq (x : Port) (f : Fld) (v : Nat) : (x.count f v).txSeq = x.txSeq := rfl
@[simp] theorem Port.count_rxSeq (x : Port) (f : Fld) (v : Nat) : (x.count f v).rxSeq = x.rxSeq := rfl
@[simp] theorem Port.count_acked (x : Port) (f : Fld) (v : Nat) : (x.count f v).acked = x.acked := rfl
@[simp] theorem Port.count_ackOwed (x : Port) (f : Fld) (v : Nat) : (x.count f v).ackOwed = x.ackOwed := rfl
@[simp] theorem Port.count_nakOwed (x : Port) (f : Fld) (v : Nat) : (x.count f v).nakOwed = x.nakOwed := rfl
@[simp] theorem Port.count_replay (x : Port) (f : Fld) (v : Nat) : (x.count f v).replay = x.replay := rfl
@[simp] theorem Port.count_replays (x : Port) (f : Fld) (v : Nat) : (x.count f v).replays = x.replays := rfl
@[simp] theorem Port.count_replayAck (x : Port) (f : Fld) (v : Nat) : (x.count f v).replayAck = x.replayAck := rfl
@[simp] theorem Port.count_nakFrames (x : Port) (f : Fld) (v : Nat) : (x.count f v).nakFrames = x.nakFrames := rfl
@[simp] theorem Port.count_finder (x : Port) (f : Fld) (v : Nat) : (x.count f v).finder = x.finder := rfl
@[simp] theorem Port.count_sinceIdle (x : Port) (f : Fld) (v : Nat) : (x.count f v).sinceIdle = x.sinceIdle := rfl
@[simp] theorem Port.count_sinceAlign (x : Port) (f : Fld) (v : Nat) : (x.count f v).sinceAlign = x.sinceAlign := rfl
@[simp] theorem Port.count_tickDue (x : Port) (f : Fld) (v : Nat) : (x.count f v).tickDue = x.tickDue := rfl
@[simp] theorem Port.count_deskewed (x : Port) (f : Fld) (v : Nat) : (x.count f v).deskewed = x.deskewed := rfl
@[simp] theorem Port.count_tick (x : Port) (f : Fld) (v : Nat) : (x.count f v).tick = x.tick := rfl
@[simp] theorem Port.count_disabling (x : Port) (f : Fld) (v : Nat) : (x.count f v).disabling = x.disabling := rfl
@[simp] theorem Port.count_fab (x : Port) (f : Fld) (v : Nat) : (x.count f v).fab = x.fab := rfl
@[simp] theorem Port.count_peerStamp (x : Port) (f : Fld) (v : Nat) : (x.count f v).peerStamp = x.peerStamp := rfl

@[simp] theorem HostQ.wr_sqTail (x : HostQ) (f : Fld) (v : Nat) : (x.wr f v).sqTail = x.sqTail := rfl
@[simp] theorem HostQ.wr_cqHead (x : HostQ) (f : Fld) (v : Nat) : (x.wr f v).cqHead = x.cqHead := rfl
@[simp] theorem HostQ.wr_entries (x : HostQ) (f : Fld) (v : Nat) : (x.wr f v).entries = x.entries := rfl
@[simp] theorem HostQ.wr_jobs (x : HostQ) (f : Fld) (v : Nat) : (x.wr f v).jobs = x.jobs := rfl
@[simp] theorem HostQ.wr_due (x : HostQ) (f : Fld) (v : Nat) : (x.wr f v).due = x.due := rfl
@[simp] theorem HostQ.wr_lastLoad (x : HostQ) (f : Fld) (v : Nat) : (x.wr f v).lastLoad = x.lastLoad := rfl

end Sys2Proof.Machine
end

