-- ==== Sys2Proof/Laws/Keeps.lean ====
section
/-! SUPPORT. What the operations of the dome controller, of power, the rings and the elements keep, whatever their arguments: one lemma per operation and command, for the statements about every step. -/

namespace Sys2Proof.Machine

/-! ## The relation -/

/-- What no command changes but in the ways the manual gives: t has the waiting commands of s; its counter store is in range where that of s is, and no
counter is lower (R413); host memory is canonical where that of s is. -/
structure KeepsStores (s t : State) : Prop where
  pending : t.pending = s.pending
  ctr : Counters.wf s.dome.ctr = true → Counters.wf t.dome.ctr = true ∧ Counters.le s.dome.ctr t.dome.ctr = true
  mem : Memory.wf s.hostMem = true → Memory.wf t.hostMem = true

/-- The same, and every range of the aperture page is as it was (R382). -/
structure Keeps (s t : State) : Prop extends KeepsStores s t where
  apr : t.aperture = s.aperture

theorem Counters.le_refl (a : Counters) : Counters.le a a = true := by simp [Counters.le]
theorem Counters.le_trans {a b c : Counters} (h : Counters.le a b = true) (k : Counters.le b c = true) : Counters.le a c = true := by
  simp only [Counters.le, Bool.and_eq_true, decide_eq_true_eq] at *; omega

theorem KeepsStores.trans {s t u : State} (h : KeepsStores s t) (k : KeepsStores t u) : KeepsStores s u :=
  ⟨k.pending.trans h.pending, fun w => ⟨(k.ctr (h.ctr w).1).1, Counters.le_trans (h.ctr w).2 (k.ctr (h.ctr w).1).2⟩, fun w => k.mem (h.mem w)⟩
theorem Keeps.refl (s : State) : Keeps s s := ⟨⟨rfl, fun h => ⟨h, Counters.le_refl _⟩, id⟩, rfl⟩

/-! ## States that share the four parts -/

/-- A state that shares the queue, the counters, host memory and the aperture. -/
theorem Keeps.same {s t u : State} (h : Keeps s t) (hp : u.pending = t.pending) (hc : u.dome.ctr = t.dome.ctr) (hm : u.hostMem = t.hostMem)
    (ha : u.host.apr = t.host.apr) : Keeps s u :=
  ⟨⟨hp.trans h.pending, fun w => hc ▸ h.ctr w, fun w => hm ▸ h.mem w⟩, by rw [← h.apr]; simp only [State.aperture, ha]⟩
theorem Keeps.modDome {s t : State} (h : Keeps s t) (f : Dome → Dome) (hf : (f t.dome).ctr = t.dome.ctr) : Keeps s (t.modDome f) :=
  h.same rfl hf rfl rfl
theorem Keeps.modHost {s t : State} (h : Keeps s t) (f : Bridge → Bridge) (hf : (f t.host).apr = t.host.apr) : Keeps s (t.modHost f) :=
  h.same rfl rfl rfl hf
/-- The log registers of the aperture page lie above its ranges. -/
theorem Keeps.setApr {s t : State} (h : Keeps s t) (f : Fld) (v : Nat) (hf : 256 ≤ f.off) : Keeps s (t.setApr f v) := by
  refine ⟨⟨h.pending, h.ctr, h.mem⟩, ?_⟩
  rw [← h.apr]
  simp only [State.aperture]
  refine List.map_congr_left fun k hk => ?_
  rw [List.mem_range] at hk
  exact Regs.word_wr_ne _ _ _ _ (by omega)
/-- The counter store replaced by one in range and no lower. -/
theorem Keeps.counters {s0 : State} (s : State) (c : Counters) (hk : Keeps s0 s)
    (hc : Counters.wf s.dome.ctr = true → Counters.wf c = true ∧ Counters.le s.dome.ctr c = true) : Keeps s0 (s.modDome (fun d => { d with ctr := c })) :=
  ⟨⟨hk.pending, fun w => ⟨(hc (hk.ctr w).1).1, Counters.le_trans (hk.ctr w).2 (hc (hk.ctr w).1).2⟩, hk.mem⟩, hk.apr⟩
theorem Keeps.mkState {s t : State} {d : Dome} {x : Bridge} {r : SMap Region} {c : SMap Cluster} {p : SMap Port} {m : Mem} {o : List Output} {n : Nat}
    {l : List Instr} (hp : l = t.pending) (hk : Keeps s t) (hd : d.ctr = t.dome.ctr) (hx : x.apr = t.host.apr) (hm : m = t.hostMem) :
    Keeps s ⟨d, x, r, c, p, m, o, n, l⟩ := hk.same hp hd hm hx

/-! ## Loops, choices and results -/

theorem Keeps.foldl {s t : State} {α : Type} (h : Keeps s t) (l : List α) (f : State → α → State) (hf : ∀ u a, Keeps s u → Keeps s (f u a)) :
    Keeps s (l.foldl f t) := by
  induction l generalizing t with
  | nil => exact h
  | cons a l ih => exact ih (hf t a h)
theorem Keeps.foldlOf {s : State} {α β : Type} (g : β → State) {b : β} (h : Keeps s (g b)) (l : List α) (f : β → α → β)
    (hf : ∀ u a, Keeps s (g u) → Keeps s (g (f u a))) : Keeps s (g (l.foldl f b)) := by
  induction l generalizing b with
  | nil => exact h
  | cons a l ih => exact ih (hf b a h)
theorem Keeps.ite {s0 a b : State} {c : Prop} [Decidable c] (ha : Keeps s0 a) (hb : Keeps s0 b) : Keeps s0 (if c then a else b) := by
  split <;> assumption
theorem Keeps.dite {s0 : State} {c : Prop} [Decidable c] {a : c → State} {b : ¬c → State} (ha : ∀ h, Keeps s0 (a h)) (hb : ∀ h, Keeps s0 (b h)) :
    Keeps s0 (dite c a b) := by
  split <;> solve_by_elim
theorem Keeps.iteSnd {α : Type} {s0 : State} {c : Prop} [Decidable c] {a b : α × State} (ha : Keeps s0 a.2) (hb : Keeps s0 b.2) :
    Keeps s0 (if c then a else b).2 := by
  split <;> assumption
theorem Keeps.of_snd {s t : State} {α : Type} {a : α} {p : α × State} (h : p = (a, t)) (hk : Keeps s p.2) : Keeps s t := by subst h; exact hk
theorem Keeps.of_fst {s t : State} {α : Type} {a : α} {p : State × α} (h : p = (t, a)) (hk : Keeps s p.1) : Keeps s t := by subst h; exact hk

/-- What a command keeps where it answers a next state. -/
structure KeepsOut (s : State) (o : Host.Outcome State Fault Refusal) : Prop where
  keeps : ∀ t, o = .next t → Keeps s t
theorem KeepsOut.next {s t : State} (h : Keeps s t) : KeepsOut s (.next t) := ⟨by intro u hu; cases hu; exact h⟩
theorem KeepsOut.ite {s0 : State} {a b : Host.Outcome State Fault Refusal} {c : Prop} [Decidable c] (ha : KeepsOut s0 a) (hb : KeepsOut s0 b) :
    KeepsOut s0 (if c then a else b) := by
  split <;> assumption
theorem Keeps.after {s t : State} (h : Keeps s t) (f : State → Host.Outcome State Fault Refusal) (hf : ∀ u, Keeps s u → KeepsOut s (f u)) :
    Keeps s (t.after f) := by
  unfold State.after
  split
  · exact (hf t h).keeps _ ‹_›
  · exact h

/-- What an operation keeps where it gives a state. -/
structure KeepsOpt (s : State) (o : Option State) : Prop where
  keeps : ∀ t, o = some t → Keeps s t
theorem KeepsOpt.some {s t : State} (h : Keeps s t) : KeepsOpt s (some t) := ⟨by intro u hu; cases hu; exact h⟩
theorem KeepsOpt.none {s : State} : KeepsOpt s none := ⟨by intro u hu; cases hu⟩
theorem KeepsOpt.get {s t : State} {o : Option State} (e : o = Option.some t) (h : KeepsOpt s o) : Keeps s t := h.keeps t e
structure KeepsOpt2 {α : Type} (s : State) (o : Option (α × State)) : Prop where
  keeps : ∀ p, o = some p → Keeps s p.2
theorem KeepsOpt2.some {s t : State} {α : Type} {a : α} (h : Keeps s t) : KeepsOpt2 s (some (a, t)) := ⟨by intro u hu; cases hu; exact h⟩
theorem KeepsOpt2.none {s : State} {α : Type} : KeepsOpt2 (α := α) s none := ⟨by intro u hu; cases hu⟩
theorem KeepsOpt2.get {s t : State} {α : Type} {a : α} {o : Option (α × State)} (e : o = Option.some (a, t)) (h : KeepsOpt2 s o) : Keeps s t :=
  h.keeps (a, t) e

/-! ## Operations -/

/-! ## Ops -/

theorem State.setRegion_keeps {s0 : State} (s : State) (r : Nat) (g : Region) (hk : Keeps s0 s) : Keeps s0 (State.setRegion s r g) := by
  unfold State.setRegion
  try dsimp only
  with_reducible repeat'
    first | assumption | refine Keeps.mkState (hp := rfl) ?_ ?_ ?_ ?_
  all_goals rfl

theorem State.modRegion_keeps {s0 : State} (s : State) (r : Nat) (f : Region → Region) (hk : Keeps s0 s) : Keeps s0 (State.modRegion s r f) := by
  unfold State.modRegion
  try dsimp only
  with_reducible repeat'
    first | assumption | apply State.setRegion_keeps

theorem State.setCluster_keeps {s0 : State} (s : State) (i : Nat) (c : Cluster) (hk : Keeps s0 s) : Keeps s0 (State.setCluster s i c) := by
  unfold State.setCluster
  try dsimp only
  with_reducible repeat'
    first | assumption | refine Keeps.mkState (hp := rfl) ?_ ?_ ?_ ?_
  all_goals rfl

theorem State.modCluster_keeps {s0 : State} (s : State) (i : Nat) (f : Cluster → Cluster) (hk : Keeps s0 s) : Keeps s0 (State.modCluster s i f)
    := by
  unfold State.modCluster
  try dsimp only
  with_reducible repeat'
    first | assumption | apply State.setCluster_keeps

theorem State.setPort_keeps {s0 : State} (s : State) (p : Nat) (z : Port) (hk : Keeps s0 s) : Keeps s0 (State.setPort s p z) := by
  unfold State.setPort
  try dsimp only
  with_reducible repeat'
    first | assumption | refine Keeps.mkState (hp := rfl) ?_ ?_ ?_ ?_
  all_goals rfl

theorem State.modPort_keeps {s0 : State} (s : State) (p : Nat) (f : Port → Port) (hk : Keeps s0 s) : Keeps s0 (State.modPort s p f) := by
  unfold State.modPort
  try dsimp only
  with_reducible repeat'
    first | assumption | apply State.setPort_keeps

theorem State.setHostQ_keeps {s0 : State} (s : State) (q : Nat) (h : HostQ) (hk : Keeps s0 s) : Keeps s0 (State.setHostQ s q h) := by
  unfold State.setHostQ
  try dsimp only
  with_reducible repeat'
    first | assumption | refine Keeps.mkState (hp := rfl) ?_ ?_ ?_ ?_
  all_goals rfl

theorem State.modHostQ_keeps {s0 : State} (s : State) (q : Nat) (f : HostQ → HostQ) (hk : Keeps s0 s) : Keeps s0 (State.modHostQ s q f) := by
  unfold State.modHostQ
  try dsimp only
  with_reducible repeat'
    first | assumption | apply State.setHostQ_keeps

theorem State.emit_keeps {s0 : State} (s : State) (o : Output) (hk : Keeps s0 s) : Keeps s0 (State.emit s o) := by
  unfold State.emit
  try dsimp only
  with_reducible repeat'
    first | assumption | refine Keeps.mkState (hp := rfl) ?_ ?_ ?_ ?_
  all_goals rfl

theorem State.modElem_keeps {s0 : State} (s : State) (i e : Nat) (f : Elem → Elem) (hk : Keeps s0 s) : Keeps s0 (State.modElem s i e f) := by
  unfold State.modElem
  try dsimp only
  with_reducible repeat'
    first | assumption | apply State.modCluster_keeps

theorem State.setDome_keeps {s0 : State} (s : State) (f : Fld) (v : Nat) (hk : Keeps s0 s) : Keeps s0 (State.setDome s f v) := by
  unfold State.setDome
  try dsimp only
  with_reducible repeat'
    first | assumption | refine Keeps.mkState (hp := rfl) ?_ ?_ ?_ ?_
  all_goals rfl

theorem State.setHif_keeps {s0 : State} (s : State) (f : Fld) (v : Nat) (hk : Keeps s0 s) : Keeps s0 (State.setHif s f v) := by
  unfold State.setHif
  try dsimp only
  with_reducible repeat'
    first | assumption | refine Keeps.mkState (hp := rfl) ?_ ?_ ?_ ?_
  all_goals rfl

theorem State.barCount_keeps {s0 : State} (s : State) (hk : Keeps s0 s) : Keeps s0 (State.barCount s) := by
  unfold State.barCount
  try dsimp only
  with_reducible repeat'
    first | assumption | apply State.setHif_keeps

theorem State.emitRead_keeps {s0 : State} (s : State) (r : BarRead) (hk : Keeps s0 s) : Keeps s0 (State.emitRead s r) := by
  unfold State.emitRead
  try dsimp only
  with_reducible repeat'
    first | assumption | apply State.emit_keeps

theorem State.bar0Reply_keeps {s0 : State} (s : State) (off v : Nat) (hk : Keeps s0 s) : Keeps s0 (State.bar0Reply s off v) := by
  unfold State.bar0Reply
  try dsimp only
  with_reducible repeat'
    first | assumption | apply State.emitRead_keeps | apply Keeps.modHost | apply State.barCount_keeps | split
  all_goals rfl

theorem State.bar0Read_keeps {s0 : State} (s : State) (off : Nat) (read : State → Nat × State) (hr : Keeps s0 (read s).2) (hk : Keeps s0 s) :
    Keeps s0 (State.bar0Read s off read) := by
  unfold State.bar0Read
  with_reducible repeat'
    first | assumption | apply State.bar0Reply_keeps | split

theorem State.debit_keeps {s0 : State} (s : State) (i cls n : Nat) (hk : Keeps s0 s) : Keeps s0 (State.debit s i cls n) := by
  unfold State.debit
  try dsimp only
  with_reducible repeat'
    first | assumption | apply State.modRegion_keeps

theorem State.takeFree_keeps {s0 : State} (s : State) (hk : Keeps s0 s) : Keeps s0 (State.takeFree s).2 := by
  unfold State.takeFree
  try dsimp only
  with_reducible repeat'
    first | assumption | refine Keeps.mkState (hp := rfl) ?_ ?_ ?_ ?_
  all_goals rfl

/-! ## Flags -/

theorem State.cause_keeps {s0 : State} (s : State) (v : Nat) (hk : Keeps s0 s) : Keeps s0 (State.cause s v) := by
  unfold State.cause
  try dsimp only
  with_reducible repeat'
    first | assumption | apply Keeps.modHost
  all_goals rfl

theorem State.hifEvent_keeps {s0 : State} (s : State) (e : Nat) (hk : Keeps s0 s) : Keeps s0 (State.hifEvent s e) := by
  unfold State.hifEvent
  try dsimp only
  with_reducible repeat'
    first | assumption | apply State.setHif_keeps | apply State.cause_keeps | split

theorem State.setMstate_keeps {s0 : State} (s : State) (m : Nat) (hk : Keeps s0 s) : Keeps s0 (State.setMstate s m) := by
  unfold State.setMstate
  try dsimp only
  with_reducible repeat'
    first | assumption | apply State.hifEvent_keeps | apply State.setDome_keeps | split

theorem State.setReplace_keeps {s0 : State} (s : State) (hk : Keeps s0 s) : Keeps s0 (State.setReplace s) := by
  unfold State.setReplace
  split
  · split
    · exact hk
    · refine Keeps.counters s _ hk fun w => ?_
      simp only [State.replace, beq_iff_eq] at *
      simp only [Counters.wf, Counters.le, Bool.and_eq_true, decide_eq_true_eq] at *
      omega
  · exact hk.modDome _ rfl

theorem State.domEvent_keeps {s0 : State} (s : State) (f : Fld) (hk : Keeps s0 s) : Keeps s0 (State.domEvent s f) := by
  unfold State.domEvent
  try dsimp only
  with_reducible repeat'
    first | assumption | apply State.hifEvent_keeps | apply State.setDome_keeps

theorem State.record_keeps {s0 : State} (s : State) (code region : Nat) (loc : Option Nat) (detail result : Nat) (hk : Keeps s0 s) :
    Keeps s0 (State.record s code region loc detail result) := by
  unfold State.record
  try dsimp only
  with_reducible repeat'
    first | assumption | apply Keeps.modDome
  all_goals rfl

theorem State.degradeSoon_keeps {s0 : State} (s : State) (code region : Nat) (hk : Keeps s0 s) : Keeps s0 (State.degradeSoon s code region) := by
  unfold State.degradeSoon
  try dsimp only
  with_reducible repeat'
    first | assumption | apply Keeps.modDome
  all_goals rfl

theorem State.occultSoon_keeps {s0 : State} (s : State) (i : Nat) (hk : Keeps s0 s) : Keeps s0 (State.occultSoon s i) := by
  unfold State.occultSoon
  try dsimp only
  with_reducible repeat'
    first | assumption | apply Keeps.modDome | split
  all_goals rfl

theorem State.failure_keeps {s0 : State} (s : State) (code region : Nat) (loc : Option Nat) (detail : Nat) (suspect degr : Bool) (hk : Keeps s0 s) :
    Keeps s0 (State.failure s code region loc detail suspect degr) := by
  unfold State.failure
  try dsimp only
  with_reducible repeat'
    first | assumption | apply State.record_keeps | apply State.domEvent_keeps | apply State.setReplace_keeps | apply State.occultSoon_keeps
          | apply State.degradeSoon_keeps | split

theorem State.regionFailure_keeps {s0 : State} (s : State) (code region detail : Nat) (hk : Keeps s0 s) :
    Keeps s0 (State.regionFailure s code region detail) := by
  unfold State.regionFailure
  try dsimp only
  with_reducible repeat'
    first | assumption | apply State.failure_keeps

theorem State.clusterFailure_keeps {s0 : State} (s : State) (code i detail : Nat) (hk : Keeps s0 s) :
    Keeps s0 (State.clusterFailure s code i detail) := by
  unfold State.clusterFailure
  try dsimp only
  with_reducible repeat'
    first | assumption | apply State.failure_keeps

/-! ## Finder -/

theorem State.flood_keeps {s0 : State} (s : State) (b : FrameBody) (but : Option Nat) (hk : Keeps s0 s) : Keeps s0 (State.flood s b but) := by
  unfold State.flood
  try dsimp only
  with_reducible repeat'
    first | assumption | apply State.modPort_keeps | apply Keeps.foldl | intro _ | split

theorem State.announce_keeps {s0 : State} (s : State) (hk : Keeps s0 s) : Keeps s0 (State.announce s) := by
  unfold State.announce
  try dsimp only
  with_reducible repeat'
    first | assumption | apply Keeps.modDome | apply State.flood_keeps
  all_goals rfl

theorem State.finderStart_keeps {s0 : State} (s : State) (hk : Keeps s0 s) : Keeps s0 (State.finderStart s) := by
  unfold State.finderStart
  try dsimp only
  with_reducible repeat'
    first | assumption | apply State.announce_keeps | apply State.setDome_keeps | split

theorem State.portChanged_keeps {s0 : State} (s : State) (hk : Keeps s0 s) : Keeps s0 (State.portChanged s) := by
  unfold State.portChanged
  try dsimp only
  with_reducible repeat'
    first | assumption | apply State.announce_keeps | apply State.finderStart_keeps | split

theorem State.takeTwin_keeps {s0 : State} (s : State) (p : Nat) (r : AdjRec) (hk : Keeps s0 s) : Keeps s0 (State.takeTwin s p r) := by
  unfold State.takeTwin
  try dsimp only
  with_reducible repeat'
    first | assumption | apply State.flood_keeps | apply Keeps.modDome | split
  all_goals rfl

theorem State.takeRecord_keeps {s0 : State} (s : State) (p : Nat) (r : AdjRec) (hk : Keeps s0 s) : Keeps s0 (State.takeRecord s p r) := by
  unfold State.takeRecord
  try dsimp only
  with_reducible repeat'
    first | assumption | apply State.flood_keeps | apply State.takeTwin_keeps | apply Keeps.modDome | split
  all_goals rfl

theorem execFinderRun_keeps {s0 : State} (s : State) (hk : Keeps s0 s) : KeepsOut s0 (execFinderRun s) := by
  unfold execFinderRun
  try dsimp only
  with_reducible repeat'
    first | assumption | apply KeepsOut.next | apply State.finderStart_keeps

theorem execFinderQuiet_keeps {s0 : State} (s : State) (hk : Keeps s0 s) : KeepsOut s0 (execFinderQuiet s) := by
  unfold execFinderQuiet
  try dsimp only
  with_reducible repeat'
    first | assumption | apply KeepsOut.next | apply State.setDome_keeps | split

theorem State.finderError_keeps {s0 : State} (s : State) (code : Nat) (hk : Keeps s0 s) : Keeps s0 (State.finderError s code) := by
  unfold State.finderError
  try dsimp only
  with_reducible repeat'
    first | assumption | apply State.hifEvent_keeps | apply State.setDome_keeps

theorem execFinderTimeout_keeps {s0 : State} (s : State) (hk : Keeps s0 s) : KeepsOut s0 (execFinderTimeout s) := by
  unfold execFinderTimeout
  try dsimp only
  with_reducible repeat'
    first | assumption | apply KeepsOut.next | apply State.finderError_keeps | split

theorem State.finderDone_keeps {s0 : State} (s : State) (ids : List (Nat × Nat)) (root n : Nat) (routes : SMap (Option RouteEntry))
    (lines : List Nat) (hk : Keeps s0 s) : Keeps s0 (State.finderDone s ids root n routes lines) := by
  unfold State.finderDone
  try dsimp only
  with_reducible repeat'
    first | assumption | apply Keeps.modDome | apply State.modPort_keeps | apply State.setDome_keeps | apply State.hifEvent_keeps
          | apply Keeps.foldl | intro _ | split
  all_goals rfl

theorem State.tickAuto_keeps {s0 : State} (s : State) (rs : List AdjRec) (first : Nat) (hk : Keeps s0 s) : Keeps s0 (State.tickAuto s rs first)
    := by
  unfold State.tickAuto
  try dsimp only
  with_reducible repeat'
    first | assumption | apply State.setDome_keeps | split

theorem State.finderCompute_keeps {s0 : State} (s : State) (hk : Keeps s0 s) : Keeps s0 (State.finderCompute s) := by
  unfold State.finderCompute
  try dsimp only
  with_reducible repeat'
    first | assumption | apply State.finderDone_keeps | apply State.finderError_keeps | apply State.tickAuto_keeps | apply Keeps.foldl | intro _
          | split

theorem execFinderComputeDone_keeps {s0 : State} (s : State) (hk : Keeps s0 s) : KeepsOut s0 (execFinderComputeDone s) := by
  unfold execFinderComputeDone
  try dsimp only
  with_reducible repeat'
    first | assumption | apply KeepsOut.next | apply State.finderCompute_keeps | split

theorem State.sendCol_keeps {s0 : State} (s : State) (p : Option Nat) (r : ColRec) (hk : Keeps s0 s) : Keeps s0 (State.sendCol s p r) := by
  unfold State.sendCol
  try dsimp only
  with_reducible repeat'
    first | assumption | apply Keeps.modDome | apply State.modPort_keeps | split
  all_goals rfl

theorem State.portFail_keeps {s0 : State} (s : State) (p cause : Nat) (hk : Keeps s0 s) : Keeps s0 (State.portFail s p cause) := by
  unfold State.portFail
  try dsimp only
  with_reducible repeat'
    first | assumption | apply Keeps.modDome | apply State.setPort_keeps | apply State.portChanged_keeps | apply State.regionFailure_keeps
          | apply State.hifEvent_keeps | split
  all_goals rfl

/-! ## Clock -/

theorem execReadyRise_keeps {s0 : State} (site : Site) (src : Src) (s : State) (hk : Keeps s0 s) : KeepsOut s0 (execReadyRise site src s) := by
  unfold execReadyRise
  try dsimp only
  with_reducible repeat'
    first | assumption | apply KeepsOut.next | apply State.modRegion_keeps | apply Keeps.modDome | apply State.setDome_keeps | split
  all_goals rfl

theorem State.siteFall_keeps {s0 : State} (s : State) (site : Site) (k : Nat) (hk : Keeps s0 s) : Keeps s0 (State.siteFall s site k) := by
  unfold State.siteFall
  try dsimp only
  with_reducible repeat'
    first | assumption | apply State.modRegion_keeps | apply Keeps.modDome | apply State.hifEvent_keeps | apply State.setDome_keeps | split
  all_goals rfl

theorem execReferenceLoss_keeps {s0 : State} (site : Site) (src : Src) (s : State) (hk : Keeps s0 s) : KeepsOut s0 (execReferenceLoss site src s)
    := by
  unfold execReferenceLoss
  try dsimp only
  with_reducible repeat'
    first | assumption | apply KeepsOut.next | apply State.modRegion_keeps | apply State.hifEvent_keeps | apply State.regionFailure_keeps
          | apply State.siteFall_keeps | split

theorem execReadyFreqLoss_keeps {s0 : State} (site : Site) (src : Src) (s : State) (hk : Keeps s0 s) : KeepsOut s0 (execReadyFreqLoss site src s)
    := by
  unfold execReadyFreqLoss
  try dsimp only
  with_reducible repeat'
    first | assumption | apply KeepsOut.next | apply State.siteFall_keeps | split

theorem execDrvSrcWrite_keeps {s0 : State} (r : RegionId) (v : W32) (s : State) (hk : Keeps s0 s) : KeepsOut s0 (execDrvSrcWrite r v s) := by
  unfold execDrvSrcWrite
  try dsimp only
  with_reducible repeat'
    first | assumption | apply KeepsOut.next | apply State.modRegion_keeps | split

theorem execTrcSrcWrite_keeps {s0 : State} (r : RegionId) (v : W32) (s : State) (hk : Keeps s0 s) : KeepsOut s0 (execTrcSrcWrite r v s) := by
  unfold execTrcSrcWrite
  try dsimp only
  with_reducible repeat'
    first | assumption | apply KeepsOut.next | apply State.modRegion_keeps | split

theorem execMasterMarkerInsert_keeps {s0 : State} (s : State) (hk : Keeps s0 s) : KeepsOut s0 (execMasterMarkerInsert s) := by
  unfold execMasterMarkerInsert
  try dsimp only
  with_reducible repeat'
    first | assumption | apply KeepsOut.next | apply State.emit_keeps | apply Keeps.modDome | split
  all_goals rfl

theorem execMasterLos_keeps {s0 : State} (s : State) (hk : Keeps s0 s) : KeepsOut s0 (execMasterLos s) := by
  unfold execMasterLos
  try dsimp only
  with_reducible repeat'
    first | assumption | apply KeepsOut.next | apply State.siteFall_keeps | split

theorem execDrvFreqWrite_keeps {s0 : State} (r : RegionId) (v : W32) (s : State) (hk : Keeps s0 s) : KeepsOut s0 (execDrvFreqWrite r v s) := by
  unfold execDrvFreqWrite
  try dsimp only
  with_reducible repeat'
    first | assumption | apply KeepsOut.next | apply State.modRegion_keeps | split

theorem execRelockTimeout_keeps {s0 : State} (r : RegionId) (s : State) (hk : Keeps s0 s) : KeepsOut s0 (execRelockTimeout r s) := by
  unfold execRelockTimeout
  try dsimp only
  with_reducible repeat'
    first | assumption | apply KeepsOut.next | apply State.regionFailure_keeps | apply State.modRegion_keeps | split

theorem execUnlock_keeps {s0 : State} (r : RegionId) (s : State) (hk : Keeps s0 s) : KeepsOut s0 (execUnlock r s) := by
  unfold execUnlock
  try dsimp only
  with_reducible repeat'
    first | assumption | apply KeepsOut.next | apply State.regionFailure_keeps | apply State.hifEvent_keeps | apply State.modRegion_keeps | split

theorem execAcquireLock_keeps {s0 : State} (r : RegionId) (transit : Bool) (s : State) (hk : Keeps s0 s) : KeepsOut s0 (execAcquireLock r transit s)
    := by
  unfold execAcquireLock
  try dsimp only
  with_reducible repeat'
    first | assumption | apply KeepsOut.next | apply State.setRegion_keeps | split

theorem execAcquireTimeout_keeps {s0 : State} (r : RegionId) (transit : Bool) (s : State) (hk : Keeps s0 s) :
    KeepsOut s0 (execAcquireTimeout r transit s) := by
  unfold execAcquireTimeout
  try dsimp only
  with_reducible repeat'
    first | assumption | apply KeepsOut.next | apply State.regionFailure_keeps | apply State.setRegion_keeps | split

theorem execTransitUnlock_keeps {s0 : State} (r : RegionId) (s : State) (hk : Keeps s0 s) : KeepsOut s0 (execTransitUnlock r s) := by
  unfold execTransitUnlock
  try dsimp only
  with_reducible repeat'
    first | assumption | apply KeepsOut.next | apply State.regionFailure_keeps | apply State.hifEvent_keeps | apply State.modRegion_keeps | split

theorem execTransitReacquire_keeps {s0 : State} (r : RegionId) (s : State) (hk : Keeps s0 s) : KeepsOut s0 (execTransitReacquire r s) := by
  unfold execTransitReacquire
  try dsimp only
  with_reducible repeat'
    first | assumption | apply KeepsOut.next | apply State.setRegion_keeps | split

theorem execTransitReacquireTimeout_keeps {s0 : State} (r : RegionId) (s : State) (hk : Keeps s0 s) : KeepsOut s0 (execTransitReacquireTimeout r s)
    := by
  unfold execTransitReacquireTimeout
  try dsimp only
  with_reducible repeat'
    first | assumption | apply KeepsOut.next | apply State.regionFailure_keeps | apply State.setRegion_keeps | split

theorem execTrcCtrlWrite_keeps {s0 : State} (r : RegionId) (v : W32) (s : State) (hk : Keeps s0 s) : KeepsOut s0 (execTrcCtrlWrite r v s) := by
  unfold execTrcCtrlWrite
  try dsimp only
  with_reducible repeat'
    first | assumption | apply KeepsOut.next | apply State.modRegion_keeps | split

theorem execSeeingStretch_keeps {s0 : State} (r : RegionId) (transit : Bool) (droopMv periods : Nat) (s : State) (hk : Keeps s0 s) :
    KeepsOut s0 (execSeeingStretch r transit droopMv periods s) := by
  unfold execSeeingStretch
  try dsimp only
  with_reducible repeat'
    first | assumption | apply KeepsOut.next | apply State.setRegion_keeps | split

theorem State.snapRead_keeps {s0 : State} (s : State) (hk : Keeps s0 s) : Keeps s0 (State.snapRead s).2 := by
  unfold State.snapRead
  try dsimp only
  with_reducible repeat'
    first | assumption | apply State.setDome_keeps

theorem execTckSnapRead_keeps {s0 : State} (s : State) (hk : Keeps s0 s) : KeepsOut s0 (execTckSnapRead s) :=
  KeepsOut.next (State.bar0Read_keeps _ _ _ (State.snapRead_keeps _ hk) hk)

theorem State.rnumRead_keeps {s0 : State} (r : Nat) (s : State) (hk : Keeps s0 s) : Keeps s0 (State.rnumRead r s).2 := by
  unfold State.rnumRead
  split <;> dsimp only
  · exact State.setRegion_keeps _ _ _ hk
  · exact hk

theorem execTckRnumRead_keeps {s0 : State} (r : RegionId) (s : State) (hk : Keeps s0 s) : KeepsOut s0 (execTckRnumRead r s) :=
  KeepsOut.next (State.bar0Read_keeps _ _ _ (State.rnumRead_keeps _ _ hk) hk)

theorem execTckPeriodWrite_keeps {s0 : State} (v : W32) (s : State) (hk : Keeps s0 s) : KeepsOut s0 (execTckPeriodWrite v s) := by
  unfold execTckPeriodWrite
  try dsimp only
  with_reducible repeat'
    first | assumption | apply KeepsOut.next | apply State.setDome_keeps | split

theorem execTckCtrlWrite_keeps {s0 : State} (v : W32) (s : State) (hk : Keeps s0 s) : KeepsOut s0 (execTckCtrlWrite v s) := by
  unfold execTckCtrlWrite
  try dsimp only
  with_reducible repeat'
    first | assumption | apply KeepsOut.next | apply State.setDome_keeps | split

theorem execGoldenRotate_keeps {s0 : State} (s : State) (hk : Keeps s0 s) : KeepsOut s0 (execGoldenRotate s) := by
  unfold execGoldenRotate
  try dsimp only
  with_reducible repeat'
    first | assumption | apply KeepsOut.next | apply Keeps.modDome
  all_goals rfl

/-! ## Digest -/

theorem State.colArm_keeps {s0 : State} (s : State) (hk : Keeps s0 s) : Keeps s0 (State.colArm s) := by
  unfold State.colArm
  try dsimp only
  with_reducible repeat'
    first | assumption | apply State.modRegion_keeps | apply Keeps.modDome | apply Keeps.foldl | intro _ | split
  all_goals rfl

theorem State.colEvent_keeps {s0 : State} (s : State) (f : Fld) (hk : Keeps s0 s) : Keeps s0 (State.colEvent s f) := by
  unfold State.colEvent
  try dsimp only
  with_reducible repeat'
    first | assumption | apply State.hifEvent_keeps | apply State.setDome_keeps

theorem State.colStray_keeps {s0 : State} (s : State) (n : Nat) (hk : Keeps s0 s) : Keeps s0 (State.colStray s n) := by
  unfold State.colStray
  try dsimp only
  with_reducible repeat'
    first | assumption | apply State.colEvent_keeps | apply State.setDome_keeps

theorem State.contribute_keeps {s0 : State} (s : State) (i step : Nat) (nondet : Bool) (fmt : Nat) (els : List (Nat × Nat)) (hk : Keeps s0 s) :
    Keeps s0 (State.contribute s i step nondet fmt els) := by
  unfold State.contribute
  try dsimp only
  with_reducible repeat'
    first | assumption | apply Keeps.modDome | apply State.colStray_keeps | apply State.modRegion_keeps | apply State.colArm_keeps
          | apply Keeps.foldl | intro _ | split
  all_goals rfl

/-! ## Power -/

theorem State.holdCompare_keeps {s0 : State} (s : State) (r : Nat) (hk : Keeps s0 s) : Keeps s0 (State.holdCompare s r) := by
  unfold State.holdCompare
  try dsimp only
  with_reducible repeat'
    first | assumption | apply State.hifEvent_keeps | apply State.setRegion_keeps | split

theorem execAlmBandThrWrite_keeps {s0 : State} (r : RegionId) (v : W32) (s : State) (hk : Keeps s0 s) : KeepsOut s0 (execAlmBandThrWrite r v s)
    := by
  unfold execAlmBandThrWrite
  try dsimp only
  with_reducible repeat'
    first | assumption | apply KeepsOut.next | apply State.modRegion_keeps | split

theorem execAlmCoefWrite_keeps {s0 : State} (r : RegionId) (band : Fin 4) (cls : Fin 16) (v : W32) (s : State) (hk : Keeps s0 s) :
    KeepsOut s0 (execAlmCoefWrite r band cls v s) := by
  unfold execAlmCoefWrite
  try dsimp only
  with_reducible repeat'
    first | assumption | apply KeepsOut.next | apply State.modRegion_keeps | split

theorem execAlmReserveWrite_keeps {s0 : State} (r : RegionId) (v : W32) (s : State) (hk : Keeps s0 s) : KeepsOut s0 (execAlmReserveWrite r v s)
    := by
  unfold execAlmReserveWrite
  try dsimp only
  with_reducible repeat'
    first | assumption | apply KeepsOut.next | apply State.modRegion_keeps | split

theorem State.balRead_keeps {s0 : State} (r : Nat) (s : State) (hk : Keeps s0 s) : Keeps s0 (State.balRead r s).2 := by
  unfold State.balRead
  split <;> dsimp only
  · exact State.setRegion_keeps _ _ _ hk
  · exact hk

theorem execAlmBalRead_keeps {s0 : State} (r : RegionId) (s : State) (hk : Keeps s0 s) : KeepsOut s0 (execAlmBalRead r s) :=
  KeepsOut.next (State.bar0Read_keeps _ _ _ (State.balRead_keeps _ _ hk) hk)

theorem execCurrentLimit_keeps {s0 : State} (r : RegionId) (deciAmps periods : Nat) (s : State) (hk : Keeps s0 s) :
    KeepsOut s0 (execCurrentLimit r deciAmps periods s) := by
  unfold execCurrentLimit
  try dsimp only
  with_reducible repeat'
    first | assumption | apply KeepsOut.next | apply State.setRegion_keeps | split

theorem execAlmEnvelopeWrite_keeps {s0 : State} (v : W32) (s : State) (hk : Keeps s0 s) : KeepsOut s0 (execAlmEnvelopeWrite v s) := by
  unfold execAlmEnvelopeWrite
  try dsimp only
  with_reducible repeat'
    first | assumption | apply KeepsOut.next | apply State.setDome_keeps | split

theorem State.railsOpen_keeps {s0 : State} (s : State) (r rails cause : Nat) (hk : Keeps s0 s) : Keeps s0 (State.railsOpen s r rails cause) := by
  unfold State.railsOpen
  refine Keeps.ite ?_ ?_
  · refine (Keeps.foldl ?_ _ _ fun _ _ h => State.portFail_keeps _ _ _ h)
    exact (State.setRegion_keeps _ _ _ hk).foldl _ _ fun _ _ h => State.setCluster_keeps _ _ _ h
  · exact (State.setRegion_keeps _ _ _ hk).foldl _ _ fun _ _ h => State.modCluster_keeps _ _ _ h

theorem State.breakers_keeps {s0 : State} (s : State) (r rails cause : Nat) (hk : Keeps s0 s) : Keeps s0 (State.breakers s r rails cause) := by
  unfold State.breakers
  try dsimp only
  with_reducible repeat'
    first | assumption | apply State.hifEvent_keeps | apply State.railsOpen_keeps | apply State.regionFailure_keeps | split

theorem State.allBreakers_keeps {s0 : State} (s : State) (cause : Nat) (hk : Keeps s0 s) : Keeps s0 (State.allBreakers s cause) := by
  unfold State.allBreakers
  try dsimp only
  with_reducible repeat'
    first | assumption | apply State.railsOpen_keeps | apply State.regionFailure_keeps | apply State.hifEvent_keeps | apply Keeps.foldl | intro _
          | split

theorem execBreakerTrip_keeps {s0 : State} (r : RegionId) (rail : Fin 6) (deciAmps : Nat) (s : State) (hk : Keeps s0 s) : KeepsOut s0 (execBreakerTrip r rail deciAmps s) := by
  unfold execBreakerTrip
  try dsimp only
  with_reducible repeat'
    first | assumption | apply KeepsOut.next | apply State.setRegion_keeps | apply State.breakers_keeps | split

theorem execForceDark_keeps {s0 : State} (r : RegionId) (s : State) (hk : Keeps s0 s) : KeepsOut s0 (execForceDark r s) := by
  unfold execForceDark
  try dsimp only
  with_reducible repeat'
    first | assumption | apply KeepsOut.next | apply State.modRegion_keeps | apply State.breakers_keeps | split

theorem execInputLoss_keeps {s0 : State} (s : State) (hk : Keeps s0 s) : KeepsOut s0 (execInputLoss s) := by
  unfold execInputLoss
  try dsimp only
  with_reducible repeat'
    first | assumption | apply KeepsOut.next | apply State.setHif_keeps | apply Keeps.modDome | apply State.allBreakers_keeps
  all_goals rfl

theorem execInputOvervoltage_keeps {s0 : State} (s : State) (hk : Keeps s0 s) : KeepsOut s0 (execInputOvervoltage s) := by
  unfold execInputOvervoltage
  try dsimp only
  with_reducible repeat'
    first | assumption | apply KeepsOut.next | apply State.setHif_keeps | apply Keeps.modDome | apply State.allBreakers_keeps | split
  all_goals rfl

theorem execDarkThreshold_keeps {s0 : State} (r : RegionId) (s : State) (hk : Keeps s0 s) : KeepsOut s0 (execDarkThreshold r s) := by
  unfold execDarkThreshold
  try dsimp only
  with_reducible repeat'
    first | assumption | apply KeepsOut.next | apply State.breakers_keeps

theorem execRampFail_keeps {s0 : State} (r : RegionId) (s : State) (hk : Keeps s0 s) : KeepsOut s0 (execRampFail r s) := by
  unfold execRampFail
  try dsimp only
  with_reducible repeat'
    first | assumption | apply KeepsOut.next | apply State.breakers_keeps | split

theorem execPowerWave_keeps {s0 : State} (s : State) (hk : Keeps s0 s) : KeepsOut s0 (execPowerWave s) := by
  unfold execPowerWave
  try dsimp only
  with_reducible repeat'
    first | assumption | apply KeepsOut.next | apply Keeps.modDome | apply State.modRegion_keeps | apply Keeps.foldl | intro _ | split
  all_goals rfl

theorem execRampDone_keeps {s0 : State} (r : RegionId) (s : State) (hk : Keeps s0 s) : KeepsOut s0 (execRampDone r s) := by
  unfold execRampDone
  try dsimp only
  with_reducible repeat'
    first | assumption | apply KeepsOut.next | apply State.setRegion_keeps | split

theorem execParkDrainTimeout_keeps {s0 : State} (r : RegionId) (s : State) (hk : Keeps s0 s) : KeepsOut s0 (execParkDrainTimeout r s) := by
  unfold execParkDrainTimeout
  try dsimp only
  with_reducible repeat'
    first | assumption | apply KeepsOut.next | apply State.modRegion_keeps | split

theorem execHoldoverTimeout_keeps {s0 : State} (r : RegionId) (s : State) (hk : Keeps s0 s) : KeepsOut s0 (execHoldoverTimeout r s) := by
  unfold execHoldoverTimeout
  try dsimp only
  with_reducible repeat'
    first | assumption | apply KeepsOut.next | apply State.modRegion_keeps | split

theorem execSensorConversion_keeps {s0 : State} (r : RegionId) (quarterDegrees : List Nat) (s : State) (hk : Keeps s0 s) : KeepsOut s0 (execSensorConversion r quarterDegrees s) := by
  unfold execSensorConversion
  refine KeepsOut.ite ?_ (.next hk)
  extract_lets
  exact .next (Keeps.ite (State.hifEvent_keeps _ _ (State.setRegion_keeps _ _ _ hk)) (State.setRegion_keeps _ _ _ hk))

theorem execThmCtrlWrite_keeps {s0 : State} (r : RegionId) (v : W32) (s : State) (hk : Keeps s0 s) : KeepsOut s0 (execThmCtrlWrite r v s) := by
  unfold execThmCtrlWrite
  try dsimp only
  with_reducible repeat'
    first | assumption | apply KeepsOut.next | apply State.setRegion_keeps | split

theorem State.powerOn_keeps {s0 : State} (s : State) (hk : Keeps s0 s) : Keeps s0 (State.powerOn s) := by
  unfold State.powerOn
  try dsimp only
  with_reducible repeat'
    first | assumption | apply State.setHif_keeps | refine Keeps.mkState (hp := rfl) ?_ ?_ ?_ ?_
  all_goals rfl

theorem State.dropLog_keeps {s0 : State} (s : State) (hk : Keeps s0 s) : Keeps s0 (State.dropLog s) := by
  unfold State.dropLog
  try dsimp only
  with_reducible repeat'
    first | assumption | apply Keeps.modDome
  all_goals rfl

/-! ## Packet -/

theorem State.modSender_keeps {s0 : State} (s : State) (i : Nat) (a : Agent) (f : Sender → Sender) (hk : Keeps s0 s) :
    Keeps s0 (State.modSender s i a f) := by
  unfold State.modSender
  try dsimp only
  with_reducible repeat'
    first | assumption | apply State.modCluster_keeps

theorem State.sendPkt_keeps {s0 : State} (s : State) (i : Nat) (a : Agent) (p : Pkt) (hk : Keeps s0 s) : Keeps s0 (State.sendPkt s i a p) := by
  unfold State.sendPkt
  try dsimp only
  with_reducible repeat'
    first | assumption | apply State.modCluster_keeps | apply State.modSender_keeps | split

theorem State.sendCredits_keeps {s0 : State} (s : State) (i n : Nat) (hk : Keeps s0 s) : Keeps s0 (State.sendCredits s i n) := by
  unfold State.sendCredits
  try dsimp only
  with_reducible repeat'
    first | assumption | apply State.sendPkt_keeps | apply State.modCluster_keeps | split

theorem State.creditsDue_keeps {s0 : State} (s : State) (i : Nat) (hk : Keeps s0 s) : Keeps s0 (State.creditsDue s i) := by
  unfold State.creditsDue
  try dsimp only
  with_reducible repeat'
    first | assumption | apply State.sendCredits_keeps | split

/-! ## Ring -/

theorem execRingInsert_keeps {s0 : State} (c : ClusterId) (stop : Fin 37) (out : Fin 2) (s : State) (hk : Keeps s0 s) :
    KeepsOut s0 (execRingInsert c stop out s) := by
  unfold execRingInsert
  try dsimp only
  with_reducible repeat'
    first | assumption | apply KeepsOut.next | apply State.setCluster_keeps | apply State.modRegion_keeps | apply State.debit_keeps | split

theorem execRingReserve_keeps {s0 : State} (c : ClusterId) (stop : Fin 37) (out : Fin 2) (s : State) (hk : Keeps s0 s) :
    KeepsOut s0 (execRingReserve c stop out s) := by
  unfold execRingReserve
  try dsimp only
  with_reducible repeat'
    first | assumption | apply KeepsOut.next | apply State.setCluster_keeps | split

theorem State.eject_keeps {s0 : State} (s : State) (c : Nat) (t : RingTok) (rest : List RingTok) (good : Bool) (hk : Keeps s0 s) :
    Keeps s0 (State.eject s c t rest good) := by
  unfold State.eject
  try dsimp only
  with_reducible repeat'
    first | assumption | apply State.setCluster_keeps | apply State.modRegion_keeps | apply State.clusterFailure_keeps | split

theorem execRingEject_keeps {s0 : State} (c : ClusterId) (stop : Fin 37) (ring : Fin 4) (good : Bool) (s : State) (hk : Keeps s0 s) :
    KeepsOut s0 (execRingEject c stop ring good s) := by
  unfold execRingEject
  try dsimp only
  with_reducible repeat'
    first | assumption | apply KeepsOut.next | apply State.eject_keeps | split

theorem execCreditReturn_keeps {s0 : State} (c : ClusterId) (stop : Fin 37) (ring : Fin 4) (good : Bool) (s : State) (hk : Keeps s0 s) :
    KeepsOut s0 (execCreditReturn c stop ring good s) := by
  unfold execCreditReturn
  try dsimp only
  with_reducible repeat'
    first | assumption | apply KeepsOut.next | apply State.creditsDue_keeps | apply State.setCluster_keeps | apply State.clusterFailure_keeps
          | split

end Sys2Proof.Machine
end

