-- ==== Sys2Proof/Laws/KeepsCluster.lean ====
section
/-! SUPPORT. What the operations of a cluster keep, whatever their arguments: one lemma per operation and command, for the statements about every step. -/

namespace Sys2Proof.Machine

/-! ## Element -/

theorem State.armElem_keeps {s0 : State} (s : State) (c e : Nat) (hk : Keeps s0 s) : Keeps s0 (State.armElem s c e) := by
  unfold State.armElem
  try dsimp only
  with_reducible repeat'
    first | assumption | apply State.modCluster_keeps | apply State.modElem_keeps | split

theorem execArm_keeps {s0 : State} (c : ClusterId) (e : Fin 32) (s : State) (hk : Keeps s0 s) : KeepsOut s0 (execArm c e s) := by
  unfold execArm
  try dsimp only
  with_reducible repeat'
    first | assumption | apply KeepsOut.next | apply State.armElem_keeps | split

theorem State.applyPlan_keeps {s0 : State} (s : State) (c e i : Nat) (p : Plan) (hk : Keeps s0 s) : Keeps s0 (State.applyPlan s c e i p) := by
  unfold State.applyPlan
  try dsimp only
  with_reducible repeat'
    first | assumption | apply State.clusterFailure_keeps | apply State.setCluster_keeps | apply State.modRegion_keeps | apply State.modElem_keeps
          | apply State.debit_keeps | apply Keeps.foldl | intro _ | apply Keeps.ite | split | dsimp only
          | refine Keeps.mkState (hp := rfl) ?_ ?_ ?_ ?_
  all_goals (try rfl)

theorem State.fire_keeps {s0 : State} (s : State) (c e i op : Nat) (plan : View → Option Plan) (upsets : List Nat) (hk : Keeps s0 s) : Keeps s0 (State.fire s c e i op plan upsets) := by
  unfold State.fire
  try dsimp only
  with_reducible repeat'
    first | assumption | apply State.applyPlan_keeps | split

theorem execContextRunEmit_keeps {s0 : State} (c : ClusterId) (e : Fin 32) (x : Fin 8) (s : State) (hk : Keeps s0 s) : KeepsOut s0 (execContextRunEmit c e x s) := by
  unfold execContextRunEmit
  try dsimp only
  with_reducible repeat'
    first | assumption | apply KeepsOut.next | apply State.applyPlan_keeps | split

theorem execStaleTokenDiscard_keeps {s0 : State} (c : ClusterId) (e : Fin 32) (q : Fin 8) (s : State) (hk : Keeps s0 s) : KeepsOut s0 (execStaleTokenDiscard c e q s) := by
  unfold execStaleTokenDiscard
  try dsimp only
  with_reducible repeat'
    first | assumption | apply KeepsOut.next | apply State.modCluster_keeps | apply State.modElem_keeps | split

theorem execNldResponse_keeps {s0 : State} (c : ClusterId) (e : Fin 32) (ring : Fin 4) (good : Bool) (s : State) (hk : Keeps s0 s) : KeepsOut s0 (execNldResponse c e ring good s) := by
  unfold execNldResponse
  try dsimp only
  with_reducible repeat'
    first | assumption | apply KeepsOut.next | apply State.modElem_keeps | apply State.eject_keeps | split

theorem execPassOp_keeps {s0 : State} (c : ClusterId) (e : Fin 32) (x : Fin 8) (s : State) (hk : Keeps s0 s) : KeepsOut s0 (execPassOp c e x s)
    := by
  unfold execPassOp
  try dsimp only
  with_reducible repeat'
    first | assumption | apply KeepsOut.next | apply State.fire_keeps

theorem execIadd_keeps {s0 : State} (c : ClusterId) (e : Fin 32) (x : Fin 8) (s : State) (hk : Keeps s0 s) : KeepsOut s0 (execIadd c e x s) := by
  unfold execIadd
  try dsimp only
  with_reducible repeat'
    first | assumption | apply KeepsOut.next | apply State.fire_keeps

theorem execIsub_keeps {s0 : State} (c : ClusterId) (e : Fin 32) (x : Fin 8) (s : State) (hk : Keeps s0 s) : KeepsOut s0 (execIsub c e x s) := by
  unfold execIsub
  try dsimp only
  with_reducible repeat'
    first | assumption | apply KeepsOut.next | apply State.fire_keeps

theorem execImul_keeps {s0 : State} (c : ClusterId) (e : Fin 32) (x : Fin 8) (s : State) (hk : Keeps s0 s) : KeepsOut s0 (execImul c e x s) := by
  unfold execImul
  try dsimp only
  with_reducible repeat'
    first | assumption | apply KeepsOut.next | apply State.fire_keeps

theorem execImulh_keeps {s0 : State} (c : ClusterId) (e : Fin 32) (x : Fin 8) (s : State) (hk : Keeps s0 s) : KeepsOut s0 (execImulh c e x s) := by
  unfold execImulh
  try dsimp only
  with_reducible repeat'
    first | assumption | apply KeepsOut.next | apply State.fire_keeps

theorem execIand_keeps {s0 : State} (c : ClusterId) (e : Fin 32) (x : Fin 8) (s : State) (hk : Keeps s0 s) : KeepsOut s0 (execIand c e x s) := by
  unfold execIand
  try dsimp only
  with_reducible repeat'
    first | assumption | apply KeepsOut.next | apply State.fire_keeps

theorem execIor_keeps {s0 : State} (c : ClusterId) (e : Fin 32) (x : Fin 8) (s : State) (hk : Keeps s0 s) : KeepsOut s0 (execIor c e x s) := by
  unfold execIor
  try dsimp only
  with_reducible repeat'
    first | assumption | apply KeepsOut.next | apply State.fire_keeps

theorem execIxor_keeps {s0 : State} (c : ClusterId) (e : Fin 32) (x : Fin 8) (s : State) (hk : Keeps s0 s) : KeepsOut s0 (execIxor c e x s) := by
  unfold execIxor
  try dsimp only
  with_reducible repeat'
    first | assumption | apply KeepsOut.next | apply State.fire_keeps

theorem execIshl_keeps {s0 : State} (c : ClusterId) (e : Fin 32) (x : Fin 8) (s : State) (hk : Keeps s0 s) : KeepsOut s0 (execIshl c e x s) := by
  unfold execIshl
  try dsimp only
  with_reducible repeat'
    first | assumption | apply KeepsOut.next | apply State.fire_keeps

theorem execIshr_keeps {s0 : State} (c : ClusterId) (e : Fin 32) (x : Fin 8) (s : State) (hk : Keeps s0 s) : KeepsOut s0 (execIshr c e x s) := by
  unfold execIshr
  try dsimp only
  with_reducible repeat'
    first | assumption | apply KeepsOut.next | apply State.fire_keeps

theorem execIsra_keeps {s0 : State} (c : ClusterId) (e : Fin 32) (x : Fin 8) (s : State) (hk : Keeps s0 s) : KeepsOut s0 (execIsra c e x s) := by
  unfold execIsra
  try dsimp only
  with_reducible repeat'
    first | assumption | apply KeepsOut.next | apply State.fire_keeps

theorem execImin_keeps {s0 : State} (c : ClusterId) (e : Fin 32) (x : Fin 8) (s : State) (hk : Keeps s0 s) : KeepsOut s0 (execImin c e x s) := by
  unfold execImin
  try dsimp only
  with_reducible repeat'
    first | assumption | apply KeepsOut.next | apply State.fire_keeps

theorem execImax_keeps {s0 : State} (c : ClusterId) (e : Fin 32) (x : Fin 8) (s : State) (hk : Keeps s0 s) : KeepsOut s0 (execImax c e x s) := by
  unfold execImax
  try dsimp only
  with_reducible repeat'
    first | assumption | apply KeepsOut.next | apply State.fire_keeps

theorem execIcmp_keeps {s0 : State} (c : ClusterId) (e : Fin 32) (x : Fin 8) (s : State) (hk : Keeps s0 s) : KeepsOut s0 (execIcmp c e x s) := by
  unfold execIcmp
  try dsimp only
  with_reducible repeat'
    first | assumption | apply KeepsOut.next | apply State.fire_keeps

theorem execImad_keeps {s0 : State} (c : ClusterId) (e : Fin 32) (x : Fin 8) (s : State) (hk : Keeps s0 s) : KeepsOut s0 (execImad c e x s) := by
  unfold execImad
  try dsimp only
  with_reducible repeat'
    first | assumption | apply KeepsOut.next | apply State.fire_keeps

theorem execFadd_keeps {s0 : State} (c : ClusterId) (e : Fin 32) (x : Fin 8) (s : State) (hk : Keeps s0 s) : KeepsOut s0 (execFadd c e x s) := by
  unfold execFadd
  try dsimp only
  with_reducible repeat'
    first | assumption | apply KeepsOut.next | apply State.fire_keeps

theorem execFsub_keeps {s0 : State} (c : ClusterId) (e : Fin 32) (x : Fin 8) (s : State) (hk : Keeps s0 s) : KeepsOut s0 (execFsub c e x s) := by
  unfold execFsub
  try dsimp only
  with_reducible repeat'
    first | assumption | apply KeepsOut.next | apply State.fire_keeps

theorem execFmul_keeps {s0 : State} (c : ClusterId) (e : Fin 32) (x : Fin 8) (s : State) (hk : Keeps s0 s) : KeepsOut s0 (execFmul c e x s) := by
  unfold execFmul
  try dsimp only
  with_reducible repeat'
    first | assumption | apply KeepsOut.next | apply State.fire_keeps

theorem execFfma_keeps {s0 : State} (c : ClusterId) (e : Fin 32) (x : Fin 8) (s : State) (hk : Keeps s0 s) : KeepsOut s0 (execFfma c e x s) := by
  unfold execFfma
  try dsimp only
  with_reducible repeat'
    first | assumption | apply KeepsOut.next | apply State.fire_keeps

theorem execFmin_keeps {s0 : State} (c : ClusterId) (e : Fin 32) (x : Fin 8) (s : State) (hk : Keeps s0 s) : KeepsOut s0 (execFmin c e x s) := by
  unfold execFmin
  try dsimp only
  with_reducible repeat'
    first | assumption | apply KeepsOut.next | apply State.fire_keeps

theorem execFmax_keeps {s0 : State} (c : ClusterId) (e : Fin 32) (x : Fin 8) (s : State) (hk : Keeps s0 s) : KeepsOut s0 (execFmax c e x s) := by
  unfold execFmax
  try dsimp only
  with_reducible repeat'
    first | assumption | apply KeepsOut.next | apply State.fire_keeps

theorem execFcmp_keeps {s0 : State} (c : ClusterId) (e : Fin 32) (x : Fin 8) (s : State) (hk : Keeps s0 s) : KeepsOut s0 (execFcmp c e x s) := by
  unfold execFcmp
  try dsimp only
  with_reducible repeat'
    first | assumption | apply KeepsOut.next | apply State.fire_keeps

theorem execFrcp_keeps {s0 : State} (c : ClusterId) (e : Fin 32) (x : Fin 8) (s : State) (hk : Keeps s0 s) : KeepsOut s0 (execFrcp c e x s) := by
  unfold execFrcp
  try dsimp only
  with_reducible repeat'
    first | assumption | apply KeepsOut.next | apply State.fire_keeps

theorem execFrsq_keeps {s0 : State} (c : ClusterId) (e : Fin 32) (x : Fin 8) (s : State) (hk : Keeps s0 s) : KeepsOut s0 (execFrsq c e x s) := by
  unfold execFrsq
  try dsimp only
  with_reducible repeat'
    first | assumption | apply KeepsOut.next | apply State.fire_keeps

theorem execFexp2_keeps {s0 : State} (c : ClusterId) (e : Fin 32) (x : Fin 8) (s : State) (hk : Keeps s0 s) : KeepsOut s0 (execFexp2 c e x s) := by
  unfold execFexp2
  try dsimp only
  with_reducible repeat'
    first | assumption | apply KeepsOut.next | apply State.fire_keeps

theorem execFlog2_keeps {s0 : State} (c : ClusterId) (e : Fin 32) (x : Fin 8) (s : State) (hk : Keeps s0 s) : KeepsOut s0 (execFlog2 c e x s) := by
  unfold execFlog2
  try dsimp only
  with_reducible repeat'
    first | assumption | apply KeepsOut.next | apply State.fire_keeps

theorem execAccOp_keeps {s0 : State} (c : ClusterId) (e : Fin 32) (x : Fin 8) (s : State) (hk : Keeps s0 s) : KeepsOut s0 (execAccOp c e x s) := by
  unfold execAccOp
  try dsimp only
  with_reducible repeat'
    first | assumption | apply KeepsOut.next | apply State.fire_keeps

theorem execVadd_keeps {s0 : State} (c : ClusterId) (e : Fin 32) (x : Fin 8) (s : State) (hk : Keeps s0 s) : KeepsOut s0 (execVadd c e x s) := by
  unfold execVadd
  try dsimp only
  with_reducible repeat'
    first | assumption | apply KeepsOut.next | apply State.fire_keeps

theorem execVmul_keeps {s0 : State} (c : ClusterId) (e : Fin 32) (x : Fin 8) (s : State) (hk : Keeps s0 s) : KeepsOut s0 (execVmul c e x s) := by
  unfold execVmul
  try dsimp only
  with_reducible repeat'
    first | assumption | apply KeepsOut.next | apply State.fire_keeps

theorem execVfma_keeps {s0 : State} (c : ClusterId) (e : Fin 32) (x : Fin 8) (s : State) (hk : Keeps s0 s) : KeepsOut s0 (execVfma c e x s) := by
  unfold execVfma
  try dsimp only
  with_reducible repeat'
    first | assumption | apply KeepsOut.next | apply State.fire_keeps

theorem execVmax_keeps {s0 : State} (c : ClusterId) (e : Fin 32) (x : Fin 8) (s : State) (hk : Keeps s0 s) : KeepsOut s0 (execVmax c e x s) := by
  unfold execVmax
  try dsimp only
  with_reducible repeat'
    first | assumption | apply KeepsOut.next | apply State.fire_keeps

theorem execVmin_keeps {s0 : State} (c : ClusterId) (e : Fin 32) (x : Fin 8) (s : State) (hk : Keeps s0 s) : KeepsOut s0 (execVmin c e x s) := by
  unfold execVmin
  try dsimp only
  with_reducible repeat'
    first | assumption | apply KeepsOut.next | apply State.fire_keeps

theorem execVdot_keeps {s0 : State} (c : ClusterId) (e : Fin 32) (x : Fin 8) (s : State) (hk : Keeps s0 s) : KeepsOut s0 (execVdot c e x s) := by
  unfold execVdot
  try dsimp only
  with_reducible repeat'
    first | assumption | apply KeepsOut.next | apply State.fire_keeps

theorem execCvt_keeps {s0 : State} (c : ClusterId) (e : Fin 32) (x : Fin 8) (s : State) (hk : Keeps s0 s) : KeepsOut s0 (execCvt c e x s) := by
  unfold execCvt
  try dsimp only
  with_reducible repeat'
    first | assumption | apply KeepsOut.next | apply State.fire_keeps

theorem execCvtmx_keeps {s0 : State} (c : ClusterId) (e : Fin 32) (x : Fin 8) (s : State) (hk : Keeps s0 s) : KeepsOut s0 (execCvtmx c e x s) := by
  unfold execCvtmx
  try dsimp only
  with_reducible repeat'
    first | assumption | apply KeepsOut.next | apply State.fire_keeps

theorem execZdet_keeps {s0 : State} (c : ClusterId) (e : Fin 32) (x : Fin 8) (s : State) (hk : Keeps s0 s) : KeepsOut s0 (execZdet c e x s) := by
  unfold execZdet
  try dsimp only
  with_reducible repeat'
    first | assumption | apply KeepsOut.next | apply State.fire_keeps

theorem execPopc_keeps {s0 : State} (c : ClusterId) (e : Fin 32) (x : Fin 8) (s : State) (hk : Keeps s0 s) : KeepsOut s0 (execPopc c e x s) := by
  unfold execPopc
  try dsimp only
  with_reducible repeat'
    first | assumption | apply KeepsOut.next | apply State.fire_keeps

theorem execPenc_keeps {s0 : State} (c : ClusterId) (e : Fin 32) (x : Fin 8) (s : State) (hk : Keeps s0 s) : KeepsOut s0 (execPenc c e x s) := by
  unfold execPenc
  try dsimp only
  with_reducible repeat'
    first | assumption | apply KeepsOut.next | apply State.fire_keeps

theorem execLd_keeps {s0 : State} (c : ClusterId) (e : Fin 32) (x : Fin 8) (upsets : List Nat) (s : State) (hk : Keeps s0 s) :
    KeepsOut s0 (execLd c e x upsets s) := by
  unfold execLd
  try dsimp only
  with_reducible repeat'
    first | assumption | apply KeepsOut.next | apply State.fire_keeps

theorem execSt_keeps {s0 : State} (c : ClusterId) (e : Fin 32) (x : Fin 8) (s : State) (hk : Keeps s0 s) : KeepsOut s0 (execSt c e x s) := by
  unfold execSt
  try dsimp only
  with_reducible repeat'
    first | assumption | apply KeepsOut.next | apply State.fire_keeps

theorem execNld_keeps {s0 : State} (c : ClusterId) (e : Fin 32) (x : Fin 8) (s : State) (hk : Keeps s0 s) : KeepsOut s0 (execNld c e x s) := by
  unfold execNld
  try dsimp only
  with_reducible repeat'
    first | assumption | apply KeepsOut.next | apply State.fire_keeps

theorem execNst_keeps {s0 : State} (c : ClusterId) (e : Fin 32) (x : Fin 8) (s : State) (hk : Keeps s0 s) : KeepsOut s0 (execNst c e x s) := by
  unfold execNst
  try dsimp only
  with_reducible repeat'
    first | assumption | apply KeepsOut.next | apply State.fire_keeps

theorem execNacc_keeps {s0 : State} (c : ClusterId) (e : Fin 32) (x : Fin 8) (s : State) (hk : Keeps s0 s) : KeepsOut s0 (execNacc c e x s) := by
  unfold execNacc
  try dsimp only
  with_reducible repeat'
    first | assumption | apply KeepsOut.next | apply State.fire_keeps

theorem execSwitchOp_keeps {s0 : State} (c : ClusterId) (e : Fin 32) (x : Fin 8) (s : State) (hk : Keeps s0 s) : KeepsOut s0 (execSwitchOp c e x s)
    := by
  unfold execSwitchOp
  try dsimp only
  with_reducible repeat'
    first | assumption | apply KeepsOut.next | apply State.fire_keeps

theorem execMergeOp_keeps {s0 : State} (c : ClusterId) (e : Fin 32) (x : Fin 8) (s : State) (hk : Keeps s0 s) : KeepsOut s0 (execMergeOp c e x s)
    := by
  unfold execMergeOp
  try dsimp only
  with_reducible repeat'
    first | assumption | apply KeepsOut.next | apply State.fire_keeps

theorem execMergea_keeps {s0 : State} (c : ClusterId) (e : Fin 32) (x : Fin 8) (s : State) (hk : Keeps s0 s) : KeepsOut s0 (execMergea c e x s)
    := by
  unfold execMergea
  try dsimp only
  with_reducible repeat'
    first | assumption | apply KeepsOut.next | apply State.fire_keeps

theorem execFilterOp_keeps {s0 : State} (c : ClusterId) (e : Fin 32) (x : Fin 8) (s : State) (hk : Keeps s0 s) : KeepsOut s0 (execFilterOp c e x s)
    := by
  unfold execFilterOp
  try dsimp only
  with_reducible repeat'
    first | assumption | apply KeepsOut.next | apply State.fire_keeps

theorem execRepeatOp_keeps {s0 : State} (c : ClusterId) (e : Fin 32) (x : Fin 8) (s : State) (hk : Keeps s0 s) : KeepsOut s0 (execRepeatOp c e x s)
    := by
  unfold execRepeatOp
  try dsimp only
  with_reducible repeat'
    first | assumption | apply KeepsOut.next | apply State.fire_keeps

theorem execCountOp_keeps {s0 : State} (c : ClusterId) (e : Fin 32) (x : Fin 8) (s : State) (hk : Keeps s0 s) : KeepsOut s0 (execCountOp c e x s)
    := by
  unfold execCountOp
  try dsimp only
  with_reducible repeat'
    first | assumption | apply KeepsOut.next | apply State.fire_keeps

theorem execNcount_keeps {s0 : State} (c : ClusterId) (e : Fin 32) (x : Fin 8) (s : State) (hk : Keeps s0 s) : KeepsOut s0 (execNcount c e x s)
    := by
  unfold execNcount
  try dsimp only
  with_reducible repeat'
    first | assumption | apply KeepsOut.next | apply State.fire_keeps

theorem execMcmd_keeps {s0 : State} (c : ClusterId) (e : Fin 32) (x : Fin 8) (upsets : List Nat) (s : State) (hk : Keeps s0 s) :
    KeepsOut s0 (execMcmd c e x upsets s) := by
  unfold execMcmd
  try dsimp only
  with_reducible repeat'
    first | assumption | apply KeepsOut.next | apply State.fire_keeps

theorem execSend_keeps {s0 : State} (c : ClusterId) (e : Fin 32) (x : Fin 8) (s : State) (hk : Keeps s0 s) : KeepsOut s0 (execSend c e x s) := by
  unfold execSend
  try dsimp only
  with_reducible repeat'
    first | assumption | apply KeepsOut.next | apply State.fire_keeps

theorem execXfer_keeps {s0 : State} (c : ClusterId) (e : Fin 32) (x : Fin 8) (upsets : List Nat) (s : State) (hk : Keeps s0 s) :
    KeepsOut s0 (execXfer c e x upsets s) := by
  unfold execXfer
  try dsimp only
  with_reducible repeat'
    first | assumption | apply KeepsOut.next | apply State.fire_keeps

/-! ## ClusterMem -/

theorem State.upset_keeps {s0 : State} (s : State) (i : Nat) (bs : List Nat) (hk : Keeps s0 s) : Keeps s0 (State.upset s i bs) := by
  unfold State.upset
  try dsimp only
  with_reducible repeat'
    first | assumption | apply State.modCluster_keeps | apply Keeps.foldl | intro _ | split

theorem State.memCheck_keeps {s0 : State} (s : State) (c cls a n : Nat) (use : Nat → Bool) (hk : Keeps s0 s) : Keeps s0 (State.memCheck s c cls a n use).2 := by
  unfold State.memCheck
  try dsimp only
  with_reducible repeat'
    first | assumption | apply State.clusterFailure_keeps | apply State.setCluster_keeps | apply Keeps.ite | split | dsimp only

theorem State.memReadUse_keeps {s0 : State} (s : State) (c cls a n : Nat) (use : Nat → Bool) (hk : Keeps s0 s) : Keeps s0 (State.memReadUse s c cls a n use).2 := by
  unfold State.memReadUse
  try dsimp only
  with_reducible repeat'
    first | assumption | apply State.memCheck_keeps | apply State.modCluster_keeps | apply State.debit_keeps

theorem State.memRead_keeps {s0 : State} (s : State) (c cls a n : Nat) (hk : Keeps s0 s) : Keeps s0 (State.memRead s c cls a n).2 := by
  unfold State.memRead
  try dsimp only
  with_reducible repeat'
    first | assumption | apply State.memReadUse_keeps

theorem State.rowWrite_keeps {s0 : State} (s : State) (i cls a : Nat) (bs : List Byte) (mask : List Bool) (poison : Bool) (hk : Keeps s0 s) : Keeps s0 (State.rowWrite s i cls a bs mask poison) := by
  unfold State.rowWrite
  try dsimp only
  with_reducible repeat'
    first | assumption | apply State.modCluster_keeps | apply State.debit_keeps

theorem State.unlockRow_keeps {s0 : State} (s : State) (i row : Nat) (hk : Keeps s0 s) : Keeps s0 (State.unlockRow s i row) := by
  unfold State.unlockRow
  try dsimp only
  with_reducible repeat'
    first | assumption | apply State.modCluster_keeps | apply State.rowWrite_keeps | apply Keeps.foldl | intro _ | split

theorem State.memWrite_keeps {s0 : State} (s : State) (i cls a : Nat) (bs : List Byte) (mask : List Bool) (poison : Bool) (hk : Keeps s0 s) : Keeps s0 (State.memWrite s i cls a bs mask poison) := by
  unfold State.memWrite
  try dsimp only
  with_reducible repeat'
    first | assumption | apply State.unlockRow_keeps | apply State.rowWrite_keeps

theorem State.memWriteAll_keeps {s0 : State} (s : State) (i cls a : Nat) (bs : List Byte) (p : Bool) (n : Nat) (hk : Keeps s0 s) :
    Keeps s0 (State.memWriteAll s i cls a bs p n) := by
  induction n generalizing s a bs with
  | zero => cases bs <;> exact hk
  | succ f ih =>
    cases bs with
    | nil => exact hk
    | cons b bs => exact ih _ _ _ (State.memWrite_keeps _ _ _ _ _ _ _ hk)

theorem State.applyBlock_keeps {s0 : State} (s : State) (c addr : Nat) (ds : List DEntry) (hk : Keeps s0 s) : Keeps s0 (State.applyBlock s c addr ds) := by
  unfold State.applyBlock
  try dsimp only
  with_reducible repeat'
    first | assumption | apply State.unlockRow_keeps | apply State.memWrite_keeps | apply State.memRead_keeps | apply Keeps.foldl | intro _

theorem State.stage_keeps {s0 : State} (s : State) (c : Nat) (d : DEntry) (hk : Keeps s0 s) : Keeps s0 (State.stage s c d) := by
  unfold State.stage
  try dsimp only
  with_reducible repeat'
    first | assumption | apply State.setCluster_keeps | apply State.applyBlock_keeps | split

theorem State.nqSkip_keeps {s0 : State} (s : State) (c q : Nat) (t : NTok) (hk : Keeps s0 s) : Keeps s0 (State.nqSkip s c q t) := by
  unfold State.nqSkip
  try dsimp only
  with_reducible repeat'
    first | assumption | apply State.modCluster_keeps | split

theorem execNpLoad_keeps {s0 : State} (c : ClusterId) (q : Fin 8) (upsets : List Nat) (s : State) (hk : Keeps s0 s) : KeepsOut s0 (execNpLoad c q upsets s) := by
  unfold execNpLoad
  try dsimp only
  with_reducible repeat'
    first | assumption | apply KeepsOut.next | apply State.modCluster_keeps | apply State.memReadUse_keeps | apply State.nqSkip_keeps
          | apply State.debit_keeps | apply State.upset_keeps | apply KeepsOut.ite | apply Keeps.ite | split | dsimp only

theorem execNpStore_keeps {s0 : State} (c : ClusterId) (q : Fin 8) (s : State) (hk : Keeps s0 s) : KeepsOut s0 (execNpStore c q s) := by
  unfold execNpStore
  try dsimp only
  with_reducible repeat'
    first | assumption | apply KeepsOut.next | apply State.nqSkip_keeps | apply State.modCluster_keeps | apply State.debit_keeps
          | apply State.memWrite_keeps | split

theorem State.npAdd_keeps {s0 : State} (s : State) (c q kind : Nat) (upsets : List Nat) (hk : Keeps s0 s) : Keeps s0 (State.npAdd s c q kind upsets) := by
  unfold State.npAdd
  try dsimp only
  with_reducible repeat'
    first | assumption | apply State.modCluster_keeps | apply State.memReadUse_keeps | apply State.modElem_keeps | apply State.nqSkip_keeps
          | apply State.debit_keeps | apply State.upset_keeps | apply State.stage_keeps | apply Keeps.ite | split | dsimp only

theorem execNpAddInt32_keeps {s0 : State} (c : ClusterId) (q : Fin 8) (upsets : List Nat) (s : State) (hk : Keeps s0 s) :
    KeepsOut s0 (execNpAddInt32 c q upsets s) := by
  unfold execNpAddInt32
  try dsimp only
  with_reducible repeat'
    first | assumption | apply KeepsOut.next | apply State.npAdd_keeps

theorem execNpAddFp32_keeps {s0 : State} (c : ClusterId) (q : Fin 8) (upsets : List Nat) (s : State) (hk : Keeps s0 s) :
    KeepsOut s0 (execNpAddFp32 c q upsets s) := by
  unfold execNpAddFp32
  try dsimp only
  with_reducible repeat'
    first | assumption | apply KeepsOut.next | apply State.npAdd_keeps

theorem execNpAddBf16_keeps {s0 : State} (c : ClusterId) (q : Fin 8) (upsets : List Nat) (s : State) (hk : Keeps s0 s) :
    KeepsOut s0 (execNpAddBf16 c q upsets s) := by
  unfold execNpAddBf16
  try dsimp only
  with_reducible repeat'
    first | assumption | apply KeepsOut.next | apply State.npAdd_keeps

theorem execNpAccWriteback_keeps {s0 : State} (c : ClusterId) (q : Fin 8) (s : State) (hk : Keeps s0 s) : KeepsOut s0 (execNpAccWriteback c q s)
    := by
  unfold execNpAccWriteback
  try dsimp only
  with_reducible repeat'
    first | assumption | apply KeepsOut.next | apply State.memWrite_keeps | apply State.modCluster_keeps | split

theorem State.cmCtrl_keeps {s0 : State} (s : State) (c : Nat) (v : W32) (hk : Keeps s0 s) : Keeps s0 (State.cmCtrl s c v) := by
  unfold State.cmCtrl
  try dsimp only
  with_reducible repeat'
    first | assumption | apply State.setCluster_keeps | split

theorem execCmCtrlWrite_keeps {s0 : State} (c : ClusterId) (v : W32) (s : State) (hk : Keeps s0 s) : KeepsOut s0 (execCmCtrlWrite c v s) := by
  unfold execCmCtrlWrite
  try dsimp only
  with_reducible repeat'
    first | assumption | apply KeepsOut.next | apply State.cmCtrl_keeps | split

theorem State.asmWrite_keeps {s0 : State} (s : State) (c : Nat) (b : AsmBuf) (hk : Keeps s0 s) : Keeps s0 (State.asmWrite s c b) := by
  unfold State.asmWrite
  try dsimp only
  with_reducible repeat'
    first | assumption | apply State.modCluster_keeps | apply State.unlockRow_keeps | apply State.memWrite_keeps | apply State.memRead_keeps | split

theorem State.asmFlush_keeps {s0 : State} (s : State) (c i : Nat) (hk : Keeps s0 s) : Keeps s0 (State.asmFlush s c i) := by
  unfold State.asmFlush
  try dsimp only
  with_reducible repeat'
    first | assumption | apply State.asmWrite_keeps | apply State.modCluster_keeps | split

theorem State.asmFlushXfer_keeps {s0 : State} (s : State) (c xfer : Nat) (hk : Keeps s0 s) : Keeps s0 (State.asmFlushXfer s c xfer) := by
  unfold State.asmFlushXfer
  try dsimp only
  with_reducible repeat'
    first | assumption | apply State.asmWrite_keeps | apply State.modCluster_keeps | apply Keeps.foldl | intro _

theorem State.asmPut_keeps {s0 : State} (s : State) (c addr xfer kind cls : Nat) (bs : List Byte) (mask : List Bool) (poison : Bool) (hk : Keeps s0 s) : Keeps s0 (State.asmPut s c addr xfer kind cls bs mask poison) := by
  unfold State.asmPut
  try dsimp only
  with_reducible repeat'
    first | assumption | apply State.setCluster_keeps | apply State.modCluster_keeps | apply State.asmWrite_keeps | apply State.asmFlush_keeps | split

theorem execAssemblyWrite_keeps {s0 : State} (c : ClusterRead) (i : Fin 8) (s : State) (hk : Keeps s0 s) : KeepsOut s0 (execAssemblyWrite c i s) := by
  unfold execAssemblyWrite
  try dsimp only
  with_reducible repeat'
    first | assumption | apply KeepsOut.next | apply State.asmFlush_keeps | apply State.upset_keeps | split

theorem execAssemblyIdleFlush_keeps {s0 : State} (c : ClusterRead) (i : Fin 8) (s : State) (hk : Keeps s0 s) : KeepsOut s0 (execAssemblyIdleFlush c i s) := by
  unfold execAssemblyIdleFlush
  try dsimp only
  with_reducible repeat'
    first | assumption | apply KeepsOut.next | apply State.asmFlush_keeps | apply State.upset_keeps | split

/-! ## Plates -/

theorem State.freeBytes_keeps {s0 : State} (s : State) (n : Nat) (hk : Keeps s0 s) : Keeps s0 (State.freeBytes s n).2 := by
  unfold State.freeBytes
  try dsimp only
  with_reducible repeat'
    first | assumption | refine Keeps.mkState (hp := rfl) ?_ ?_ ?_ ?_
  all_goals rfl

theorem State.writeStrip_keeps {s0 : State} (s : State) (i cls row : Nat) (o : StripOut) (d cells : Nat) (poison : Bool) (hk : Keeps s0 s) :
    Keeps s0 (State.writeStrip s i cls row o d cells poison) := by
  unfold State.writeStrip
  try dsimp only
  with_reducible repeat'
    first | assumption | apply State.freeBytes_keeps | apply State.memWriteAll_keeps | apply State.modCluster_keeps

theorem State.writeHeader_keeps {s0 : State} (s : State) (i cls row f rows cols : Nat) (p : PlateSum) (hk : Keeps s0 s) :
    Keeps s0 (State.writeHeader s i cls row f rows cols p) := by
  unfold State.writeHeader
  try dsimp only
  with_reducible repeat'
    first | assumption | apply State.modCluster_keeps | apply State.memWriteAll_keeps

theorem State.freeCodes_keeps {s0 : State} (s : State) (f n : Nat) (hk : Keeps s0 s) : Keeps s0 (State.freeCodes s f n).2 := by
  unfold State.freeCodes
  try dsimp only
  with_reducible repeat'
    first | assumption | refine Keeps.mkState (hp := rfl) ?_ ?_ ?_ ?_
  all_goals rfl

theorem State.openPlate_keeps {s0 : State} (s : State) (i : Nat) (rows : Nat × Nat) (p : PlateSum) (hk : Keeps s0 s) :
    Keeps s0 (State.openPlate s i rows p).2 :=
  (State.modCluster_keeps (State.freeBytes s (512 * rows.2)).2 i
    (fun c => { c with mem := Mem.write c.mem (512 * rows.1) (State.freeBytes s (512 * rows.2)).1 })
    (State.freeBytes_keeps s _ hk)).same rfl rfl rfl rfl

/-! ## MatrixQueue -/

theorem execMuLaneToken_keeps {s0 : State} (c : ClusterId) (lane : Fin 8) (s : State) (hk : Keeps s0 s) : KeepsOut s0 (execMuLaneToken c lane s)
    := by
  unfold execMuLaneToken
  try dsimp only
  with_reducible repeat'
    first | assumption | apply KeepsOut.next | apply State.setCluster_keeps | split

theorem execMuListRun_keeps {s0 : State} (c : ClusterId) (s : State) (hk : Keeps s0 s) : KeepsOut s0 (execMuListRun c s) := by
  unfold execMuListRun
  try dsimp only
  with_reducible repeat'
    first | assumption | apply KeepsOut.next | apply State.modCluster_keeps

theorem execMuListFetch_keeps {s0 : State} (c : ClusterId) (upsets : List Nat) (s : State) (hk : Keeps s0 s) : KeepsOut s0 (execMuListFetch c upsets s) := by
  unfold execMuListFetch
  try dsimp only
  with_reducible repeat'
    first | assumption | apply KeepsOut.next | apply State.modCluster_keeps | apply State.memRead_keeps | apply State.upset_keeps | split

theorem execMuCmdEnqueue_keeps {s0 : State} (c : ClusterId) (s : State) (hk : Keeps s0 s) : KeepsOut s0 (execMuCmdEnqueue c s) := by
  unfold execMuCmdEnqueue
  try dsimp only
  with_reducible repeat'
    first | assumption | apply KeepsOut.next | apply State.setCluster_keeps | split

theorem State.muComplete_keeps {s0 : State} (s : State) (i : Nat) (m : MuCmd) (status : Nat) (dense : Bool) (cbytes : Nat) (hk : Keeps s0 s) :
    Keeps s0 (State.muComplete s i m status dense cbytes) := by
  unfold State.muComplete
  try dsimp only
  with_reducible repeat'
    first | assumption | apply State.modCluster_keeps | apply State.modRegion_keeps | split

theorem execMuNop_keeps {s0 : State} (c : ClusterId) (s : State) (hk : Keeps s0 s) : KeepsOut s0 (execMuNop c s) := by
  unfold execMuNop
  try dsimp only
  with_reducible repeat'
    first | assumption | apply KeepsOut.next | apply State.muComplete_keeps | apply State.setCluster_keeps | split

theorem execMuFailedRetire_keeps {s0 : State} (c : ClusterId) (s : State) (hk : Keeps s0 s) : KeepsOut s0 (execMuFailedRetire c s) := by
  unfold execMuFailedRetire
  try dsimp only
  with_reducible repeat'
    first | assumption | apply KeepsOut.next | apply State.muComplete_keeps | apply State.setCluster_keeps | split

theorem execMuCompletionSend_keeps {s0 : State} (c : ClusterId) (b : Fin 8) (s : State) (hk : Keeps s0 s) : KeepsOut s0 (execMuCompletionSend c b s)
    := by
  unfold execMuCompletionSend
  try dsimp only
  with_reducible repeat'
    first | assumption | apply KeepsOut.next | apply State.setCluster_keeps | apply Keeps.foldl | intro _ | split

theorem State.muCbind_keeps {s0 : State} (s : State) (c b : Nat) (v : W32) (hk : Keeps s0 s) : Keeps s0 (State.muCbind s c b v) := by
  unfold State.muCbind
  try dsimp only
  with_reducible repeat'
    first | assumption | apply State.setCluster_keeps | split

theorem execMuCbindWrite_keeps {s0 : State} (c : ClusterId) (b : Fin 8) (v : W32) (s : State) (hk : Keeps s0 s) : KeepsOut s0 (execMuCbindWrite c b v s) := by
  unfold execMuCbindWrite
  try dsimp only
  with_reducible repeat'
    first | assumption | apply KeepsOut.next | apply State.muCbind_keeps | split

/-! ## Matrix -/

theorem State.readRaw_keeps {s0 : State} (s : State) (i row f rb : Nat) (hk : Keeps s0 s) : Keeps s0 (State.readRaw s i row f rb).2 := by
  unfold State.readRaw
  try dsimp only
  with_reducible repeat'
    first | assumption | apply State.memRead_keeps

theorem State.readSlot_keeps {s0 : State} (s : State) (i row f rb : Nat) (comp : Bool) (hk : Keeps s0 s) : Keeps s0 (State.readSlot s i row f rb comp).2 := by
  unfold State.readSlot
  try dsimp only
  with_reducible repeat'
    first | assumption | apply State.memRead_keeps | apply State.readRaw_keeps | split

theorem State.readStrips_keeps {s0 : State} (i row f rb : Nat) (head : Option (List Byte)) (n k : Nat) (s : State) (hk : Keeps s0 s) :
    Keeps s0 (State.readStrips i row f rb head n k s).2 := by
  induction n generalizing k s with
  | zero => exact hk
  | succ m ih =>
    unfold State.readStrips
    cases head with
    | none =>
      have h := State.readRaw_keeps s i (row + k * ceilDiv (rb * blockBytes f) 512) f rb hk
      dsimp only
      split
      · exact h
      · exact ih _ _ h
    | some x =>
      have h := State.readSlot_keeps s i (row + 1 + k * ceilDiv (rb * blockBytes f) 512) f rb (hdrComp x k) hk
      dsimp only
      split
      · exact h
      · split
        · exact h
        · exact ih _ _ h

theorem State.readColumn_keeps {s0 : State} (i row bytes block : Nat) (live : Nat → Bool) (n k : Nat) (s : State) (hk : Keeps s0 s) :
    Keeps s0 (State.readColumn i row bytes block live n k s).2 := by
  induction n generalizing k s with
  | zero => exact hk
  | succ f ih =>
    refine ih _ _ (?_ : Keeps s0 (ite _ _ _ : (List Byte × Bool) × State).2)
    exact Keeps.iteSnd (State.memReadUse_keeps _ _ _ _ _ _ hk) hk

theorem State.fillHeader_keeps {s0 : State} (s : State) (i row f rb cb : Nat) (raw : Bool) (hk : Keeps s0 s) : Keeps s0 (State.fillHeader s i row f rb cb raw).2 := by
  unfold State.fillHeader
  try dsimp only
  with_reducible repeat'
    first | assumption | apply State.modCluster_keeps | apply State.memRead_keeps | split

theorem State.fillPerm_keeps {s0 : State} (s : State) (i : Nat) (m : MuCmd) (hk : Keeps s0 s) : Keeps s0 (State.fillPerm s i m).2 := by
  unfold State.fillPerm
  try dsimp only
  with_reducible repeat'
    first | assumption | apply State.memRead_keeps | split

theorem State.readA_keeps {s0 : State} (s : State) (i : Nat) (r : MuRun) (hk : Keeps s0 s) : Keeps s0 (State.readA s i r).2 := by
  unfold State.readA
  try dsimp only
  with_reducible repeat'
    first | assumption | apply State.readStrips_keeps | apply State.memRead_keeps | apply Keeps.foldl | intro _ | apply Keeps.ite | split | dsimp only

theorem State.readB_keeps {s0 : State} (s : State) (i : Nat) (m : MuCmd) (a : OpA) (n : Nat) (hk : Keeps s0 s) : Keeps s0 (State.readB s i m a n).2 := by
  unfold State.readB
  try dsimp only
  with_reducible repeat'
    first | assumption | apply State.modCluster_keeps | apply State.readColumn_keeps | apply State.memRead_keeps | apply State.readRaw_keeps
          | apply Keeps.ite | split | dsimp only

theorem State.countBlock_keeps {s0 : State} (s : State) (i : Nat) (m : MuCmd) (a : OpA) (w : Walk) (hk : Keeps s0 s) : Keeps s0 (State.countBlock s i m a w) := by
  unfold State.countBlock
  try dsimp only
  with_reducible repeat'
    first | assumption | apply State.modCluster_keeps | apply State.debit_keeps | apply Keeps.ite | split | dsimp only

theorem State.muStart_keeps {s0 : State} (s : State) (i : Nat) (m : MuCmd) (status : Nat) (headA headR : Option (List Byte)) (perm : List Nat) (hk : Keeps s0 s) : Keeps s0 (State.muStart s i m status headA headR perm) := by
  unfold State.muStart
  try dsimp only
  with_reducible repeat'
    first | assumption | apply State.setCluster_keeps | refine Keeps.mkState (hp := rfl) ?_ ?_ ?_ ?_ | split
  all_goals (try rfl)

theorem State.muFill_keeps {s0 : State} (s : State) (i : Nat) (m : MuCmd) (hk : Keeps s0 s) : Keeps s0 (State.muFill s i m) := by
  unfold State.muFill
  try dsimp only
  with_reducible repeat'
    first | assumption | apply State.fillHeader_keeps | apply State.fillPerm_keeps | apply State.muStart_keeps | split

theorem State.muStop_keeps {s0 : State} (s : State) (i : Nat) (m : MuCmd) (status : Nat) (hk : Keeps s0 s) : Keeps s0 (State.muStop s i m status) := by
  unfold State.muStop
  try dsimp only
  with_reducible repeat'
    first | assumption | apply State.modCluster_keeps | split

theorem State.muHand_keeps {s0 : State} (s : State) (i : Nat) (r : MuRun) (vals : List (List W32)) (groups : List (Nat × Nat)) (bad : Bool) (hk : Keeps s0 s) : Keeps s0 (State.muHand s i r vals groups bad) := by
  unfold State.muHand
  try dsimp only
  with_reducible repeat'
    first | assumption | apply State.modCluster_keeps | apply State.muStop_keeps | apply Keeps.foldl | intro _ | apply Keeps.ite | split | dsimp only

theorem State.muBlock_keeps {s0 : State} (s : State) (i : Nat) (r : MuRun) (bad : Bool) (hk : Keeps s0 s) : Keeps s0 (State.muBlock s i r bad) := by
  unfold State.muBlock
  try dsimp only
  with_reducible repeat'
    first | assumption | apply State.clusterFailure_keeps | apply State.modCluster_keeps | apply State.countBlock_keeps | apply State.muStop_keeps
          | apply State.muHand_keeps | apply State.readA_keeps | apply State.readB_keeps | apply Keeps.ite | split | dsimp only

theorem State.muAdvance_keeps {s0 : State} (i n : Nat) (bad : List Nat) (s : State) (hk : Keeps s0 s) : Keeps s0 (State.muAdvance i n bad s) := by
  induction n generalizing s bad with
  | zero => exact hk
  | succ f ih =>
    unfold State.muAdvance
    repeat' first | with_reducible assumption | with_reducible apply ih | with_reducible apply State.muBlock_keeps | split

theorem State.muBegin_keeps {s0 : State} (s : State) (i : Nat) (sparse : Bool) (upsets bad : List Nat) (hk : Keeps s0 s) : Keeps s0 (State.muBegin s i sparse upsets bad) := by
  unfold State.muBegin
  try dsimp only
  with_reducible repeat'
    first | assumption | apply State.modCluster_keeps | apply State.muAdvance_keeps | apply State.muFill_keeps | apply State.upset_keeps
          | apply Keeps.ite | split | dsimp only

theorem execMatmul_keeps {s0 : State} (c : ClusterId) (upsets : MuUpsets) (s : State) (hk : Keeps s0 s) : KeepsOut s0 (execMatmul c upsets s) := by
  unfold execMatmul
  try dsimp only
  with_reducible repeat'
    first | assumption | apply KeepsOut.next | apply State.muBegin_keeps

theorem execMatmulSparse_keeps {s0 : State} (c : ClusterId) (upsets : MuUpsets) (s : State) (hk : Keeps s0 s) : KeepsOut s0 (execMatmulSparse c upsets s) := by
  unfold execMatmulSparse
  try dsimp only
  with_reducible repeat'
    first | assumption | apply KeepsOut.next | apply State.muBegin_keeps

theorem State.readColumns_keeps {s0 : State} (s : State) (i row n t len : Nat) (held : List Byte × Bool) (hk : Keeps s0 s) : Keeps s0 (State.readColumns s i row n t len held).2 := by
  unfold State.readColumns
  try dsimp only
  with_reducible repeat'
    first | assumption | apply State.memRead_keeps | split

theorem State.readResid_keeps {s0 : State} (s : State) (i : Nat) (r : MuRun) (n t : Nat) (hk : Keeps s0 s) : Keeps s0 (State.readResid s i r n t).2 := by
  unfold State.readResid
  try dsimp only
  with_reducible repeat'
    first | assumption | apply State.readSlot_keeps | split

theorem State.muHeader_keeps {s0 : State} (s : State) (i : Nat) (m : MuCmd) (p : PlateSum) (hk : Keeps s0 s) :
    Keeps s0 (State.muHeader s i m p) := by
  unfold State.muHeader
  try dsimp only
  with_reducible repeat'
    first | assumption | apply State.modCluster_keeps | apply State.openPlate_keeps | apply State.writeHeader_keeps | split

theorem State.muStrip_keeps {s0 : State} (s : State) (i : Nat) (r : MuRun) (n : Nat) (hk : Keeps s0 s) : Keeps s0 (State.muStrip s i r n) := by
  unfold State.muStrip
  try dsimp only
  with_reducible repeat'
    first | assumption | apply State.memWriteAll_keeps | apply State.writeStrip_keeps | apply State.contribute_keeps | apply State.modCluster_keeps
          | apply State.muHeader_keeps | apply State.freeCodes_keeps | split

theorem State.muPair_keeps {s0 : State} (s : State) (i : Nat) (r : MuRun) (p : TilePair) (rest : List TilePair) (store : Bool) (hk : Keeps s0 s) : Keeps s0 (State.muPair s i r p rest store) := by
  unfold State.muPair
  try dsimp only
  with_reducible repeat'
    first | assumption | apply State.clusterFailure_keeps | apply State.readColumns_keeps | apply State.modCluster_keeps | apply State.readResid_keeps
          | apply State.muStrip_keeps | apply State.muStop_keeps | apply Keeps.ite | split | dsimp only

theorem execMuEpilogue_keeps {s0 : State} (c : EpilogueRead) (s : State) (hk : Keeps s0 s) : KeepsOut s0 (execMuEpilogue c s) := by
  unfold execMuEpilogue
  try dsimp only
  with_reducible repeat'
    first | assumption | apply KeepsOut.next | apply State.muAdvance_keeps | apply State.muPair_keeps | apply State.upset_keeps | apply KeepsOut.ite
          | apply Keeps.ite | split | dsimp only

theorem execMuCmdComplete_keeps {s0 : State} (c : ClusterId) (s : State) (hk : Keeps s0 s) : KeepsOut s0 (execMuCmdComplete c s) := by
  unfold execMuCmdComplete
  try dsimp only
  with_reducible repeat'
    first | assumption | apply KeepsOut.next | apply State.muComplete_keeps | apply State.setCluster_keeps | apply Keeps.foldl | intro _ | split

/-! ## Send -/

theorem State.pump_keeps {s0 : State} (s : State) (i : Nat) (a : Agent) (hk : Keeps s0 s) : Keeps s0 (State.pump s i a) := by
  unfold State.pump
  try dsimp only
  with_reducible repeat'
    first | assumption | apply State.sendPkt_keeps | apply State.modSender_keeps | apply Keeps.foldl | intro _

theorem State.sendOrdered_keeps {s0 : State} (s : State) (i : Nat) (a : Agent) (ps : List Pkt) (xfer : Nat) (hk : Keeps s0 s) :
    Keeps s0 (State.sendOrdered s i a ps xfer) := by
  unfold State.sendOrdered
  try dsimp only
  with_reducible repeat'
    first | assumption | apply State.pump_keeps | apply State.modSender_keeps | split

theorem State.sendRd_keeps {s0 : State} (s : State) (i : Nat) (a : Agent) (dmod y x space off : Nat) (be : W64) (chan owner : Nat)
    (hk : Keeps s0 s) : Keeps s0 (State.sendRd s i a dmod y x space off be chan owner) := by
  unfold State.sendRd
  try dsimp only
  with_reducible repeat'
    first | assumption | apply State.sendPkt_keeps | apply State.modSender_keeps

/-! ## DeepStore -/

theorem State.dsTouch_keeps {s0 : State} (s : State) (i off : Nat) (hk : Keeps s0 s) : Keeps s0 (State.dsTouch s i off) := by
  unfold State.dsTouch
  try dsimp only
  with_reducible repeat'
    first | assumption | apply State.setCluster_keeps | split

theorem State.dsPut_keeps {s0 : State} (s : State) (i off : Nat) (data chk : List Byte) (hk : Keeps s0 s) : Keeps s0 (State.dsPut s i off data chk)
    := by
  unfold State.dsPut
  try dsimp only
  with_reducible repeat'
    first | assumption | apply State.modCluster_keeps

theorem State.dsFlip_keeps {s0 : State} (s : State) (i off : Nat) (flips : List (Nat × Byte)) (hk : Keeps s0 s) :
    Keeps s0 (State.dsFlip s i off flips) := by
  unfold State.dsFlip
  try dsimp only
  with_reducible repeat'
    first | assumption | apply State.dsPut_keeps | apply Keeps.foldl | intro _ | split

theorem State.dsCorrected_keeps {s0 : State} (s : State) (i off : Nat) (data chk : List Byte) (hk : Keeps s0 s) :
    Keeps s0 (State.dsCorrected s i off data chk) := by
  unfold State.dsCorrected
  try dsimp only
  with_reducible repeat'
    first | assumption | apply State.debit_keeps | apply State.modCluster_keeps | apply State.dsPut_keeps

theorem State.dsRead_keeps {s0 : State} (s : State) (i off : Nat) (flips : List (Nat × Byte)) (hk : Keeps s0 s) : Keeps s0 (State.dsRead s i off flips).2 := by
  unfold State.dsRead
  try dsimp only
  with_reducible repeat'
    first | assumption | apply State.clusterFailure_keeps | apply State.dsCorrected_keeps | apply State.modCluster_keeps | apply State.dsTouch_keeps
          | apply State.dsFlip_keeps | apply State.debit_keeps | apply Keeps.ite | split | dsimp only

theorem State.dsStore_keeps {s0 : State} (s : State) (i off : Nat) (data : List Byte) (poison : Bool) (hk : Keeps s0 s) :
    Keeps s0 (State.dsStore s i off data poison) := by
  unfold State.dsStore
  try dsimp only
  with_reducible repeat'
    first | assumption | apply State.dsPut_keeps | apply State.debit_keeps | apply State.modCluster_keeps

theorem State.dsWriteFull_keeps {s0 : State} (s : State) (i off : Nat) (data : List Byte) (poison : Bool) (hk : Keeps s0 s) :
    Keeps s0 (State.dsWriteFull s i off data poison) := by
  unfold State.dsWriteFull
  try dsimp only
  with_reducible repeat'
    first | assumption | apply State.dsStore_keeps | apply State.dsTouch_keeps

theorem State.dsWritePart_keeps {s0 : State} (s : State) (i off : Nat) (data : List Byte) (mask : List Bool) (add : Nat) (poison : Bool)
    (flips : List (Nat × Byte)) (hk : Keeps s0 s) : Keeps s0 (State.dsWritePart s i off data mask add poison flips) := by
  unfold State.dsWritePart
  try dsimp only
  with_reducible repeat'
    first | assumption | apply State.dsRead_keeps | apply State.modCluster_keeps | apply State.dsStore_keeps

theorem State.dsDeliver_keeps {s0 : State} (s : State) (i : Nat) (q : DsReq) (data : List Byte) (poison : Bool) (hk : Keeps s0 s) :
    Keeps s0 (State.dsDeliver s i q data poison) := by
  unfold State.dsDeliver
  try dsimp only
  with_reducible repeat'
    first | assumption | apply State.modCluster_keeps | apply State.sendPkt_keeps | split

theorem State.dsServe_keeps {s0 : State} (s : State) (i : Nat) (q : DsReq) (flips : List (Nat × Byte)) (hk : Keeps s0 s) :
    Keeps s0 (State.dsServe s i q flips) := by
  unfold State.dsServe
  try dsimp only
  with_reducible repeat'
    first | assumption | apply State.dsWriteFull_keeps | apply State.dsWritePart_keeps | apply State.dsRead_keeps | apply State.dsDeliver_keeps
          | split

theorem State.dsServeAt_keeps {s0 : State} (s : State) (i n : Nat) (flips : List (Nat × Byte)) (hk : Keeps s0 s) :
    Keeps s0 (State.dsServeAt s i n flips) := by
  unfold State.dsServeAt
  try dsimp only
  with_reducible repeat'
    first | assumption | apply State.dsServe_keeps | apply State.modCluster_keeps | split

theorem State.dsCommand_keeps {s0 : State} (s : State) (i n kind : Nat) (flips : List (Nat × Byte)) (hk : Keeps s0 s) :
    Keeps s0 (State.dsCommand s i n kind flips) := by
  unfold State.dsCommand
  try dsimp only
  with_reducible repeat'
    first | assumption | apply State.dsServeAt_keeps | split

theorem execDsGranuleRead_keeps {s0 : State} (c : ClusterId) (i : Fin 64) (flips : List (Nat × Byte)) (s : State) (hk : Keeps s0 s) :
    KeepsOut s0 (execDsGranuleRead c i flips s) := by
  unfold execDsGranuleRead
  try dsimp only
  with_reducible repeat'
    first | assumption | apply KeepsOut.next | apply State.dsCommand_keeps

theorem execDsGranuleWrite_keeps {s0 : State} (c : ClusterId) (i : Fin 64) (s : State) (hk : Keeps s0 s) : KeepsOut s0 (execDsGranuleWrite c i s)
    := by
  unfold execDsGranuleWrite
  try dsimp only
  with_reducible repeat'
    first | assumption | apply KeepsOut.next | apply State.dsCommand_keeps

theorem execDsPartialWrite_keeps {s0 : State} (c : ClusterId) (i : Fin 64) (flips : List (Nat × Byte)) (s : State) (hk : Keeps s0 s) :
    KeepsOut s0 (execDsPartialWrite c i flips s) := by
  unfold execDsPartialWrite
  try dsimp only
  with_reducible repeat'
    first | assumption | apply KeepsOut.next | apply State.dsCommand_keeps

theorem execDsRowClose_keeps {s0 : State} (c : ClusterId) (bank : Nat) (s : State) (hk : Keeps s0 s) : KeepsOut s0 (execDsRowClose c bank s) := by
  unfold execDsRowClose
  try dsimp only
  with_reducible repeat'
    first | assumption | apply KeepsOut.next | apply State.modCluster_keeps

theorem State.dsMakeRoom_keeps {s0 : State} (i src n : Nat) (s : State) (hk : Keeps s0 s) : Keeps s0 (State.dsMakeRoom i src n s) := by
  induction n generalizing s with
  | zero => exact hk
  | succ f ih =>
    unfold State.dsMakeRoom
    repeat' first | with_reducible assumption | with_reducible apply ih | with_reducible apply State.dsServeAt_keeps | split

theorem State.dsEnter_keeps {s0 : State} (s : State) (i : Nat) (q : DsReq) (hk : Keeps s0 s) : Keeps s0 (State.dsEnter s i q) :=
  State.modCluster_keeps _ _ _ (State.dsMakeRoom_keeps _ _ _ _ hk)

theorem State.dsSettle_keeps {s0 : State} (i n : Nat) (s : State) (hk : Keeps s0 s) : Keeps s0 (State.dsSettle i n s) := by
  induction n generalizing s with
  | zero => exact hk
  | succ f ih =>
    unfold State.dsSettle
    repeat' first | with_reducible assumption | with_reducible apply ih | with_reducible apply State.dsServeAt_keeps | split

theorem State.dsTeRead_keeps {s0 : State} (s : State) (i off : Nat) (hk : Keeps s0 s) : Keeps s0 (State.dsTeRead s i off).2 :=
  State.dsRead_keeps _ _ _ _ (State.dsSettle_keeps _ _ _ hk)

theorem execDsScrub_keeps {s0 : State} (c : ClusterId) (flips : List (Nat × Byte)) (s : State) (hk : Keeps s0 s) :
    KeepsOut s0 (execDsScrub c flips s) := by
  unfold execDsScrub
  try dsimp only
  with_reducible repeat'
    first | assumption | apply KeepsOut.next | apply State.dsRead_keeps | apply State.modCluster_keeps | apply State.dsStore_keeps | split

theorem execDsRefresh_keeps {s0 : State} (c : ClusterId) (s : State) (hk : Keeps s0 s) : KeepsOut s0 (execDsRefresh c s) := by
  unfold execDsRefresh
  try dsimp only
  with_reducible repeat'
    first | assumption | apply KeepsOut.next | apply State.setCluster_keeps | apply State.modRegion_keeps | apply State.debit_keeps | split

theorem execStoreSensorConversion_keeps {s0 : State} (r : RegionId) (degrees : List (Option Nat)) (s : State) (hk : Keeps s0 s) : KeepsOut s0 (execStoreSensorConversion r degrees s) := by
  unfold execStoreSensorConversion
  extract_lets g bad at_ hot old mode g1 g2 s1
  have h : Keeps s0 s1 := State.setRegion_keeps _ _ _ hk
  clear_value s1
  exact KeepsOut.ite (.next (State.hifEvent_keeps _ _ (Keeps.foldl h _ _ fun u c hu => State.modCluster_keeps _ _ _ hu))) (.next h)

theorem State.applyAny_keeps {s0 : State} (s : State) (i addr : Nat) (ds : List DEntry) (hk : Keeps s0 s) : Keeps s0 (State.applyAny s i addr ds)
    := by
  unfold State.applyAny
  try dsimp only
  with_reducible repeat'
    first | assumption | apply State.applyBlock_keeps | apply State.dsTeRead_keeps | apply State.dsStore_keeps | apply State.dsTouch_keeps
          | apply Keeps.foldl | intro _ | split

theorem State.applyStaging_keeps {s0 : State} (s : State) (c : Nat) (hk : Keeps s0 s) : Keeps s0 (State.applyStaging s c) := by
  unfold State.applyStaging
  try dsimp only
  with_reducible repeat'
    first | assumption | apply State.modCluster_keeps | apply State.applyAny_keeps | apply Keeps.foldl | intro _

theorem State.stageAny_keeps {s0 : State} (s : State) (i : Nat) (d : DEntry) (hk : Keeps s0 s) : Keeps s0 (State.stageAny s i d) := by
  unfold State.stageAny
  try dsimp only
  with_reducible repeat'
    first | assumption | apply State.stage_keeps | apply State.applyAny_keeps | apply State.modCluster_keeps | split

/-! ## TableUnit -/

theorem execTuDoorbell_keeps {s0 : State} (c : ClusterId) (w0 w1 : W64) (s : State) (hk : Keeps s0 s) : KeepsOut s0 (execTuDoorbell c w0 w1 s) := by
  unfold execTuDoorbell
  try dsimp only
  with_reducible repeat'
    first | assumption | apply KeepsOut.next | apply State.modRegion_keeps | apply State.setCluster_keeps | split

theorem State.readRows_keeps {s0 : State} (s : State) (i cls row n : Nat) (hk : Keeps s0 s) : Keeps s0 (State.readRows s i cls row n).2 := by
  induction n generalizing s row with
  | zero => exact hk
  | succ f ih => exact ih _ _ (State.memRead_keeps _ _ _ _ _ hk)

theorem State.tuList_keeps {s0 : State} (s : State) (i : Nat) (j : TuJob) (hk : Keeps s0 s) : Keeps s0 (State.tuList s i j).2 := by
  unfold State.tuList
  try dsimp only
  with_reducible repeat'
    first | assumption | apply State.readRows_keeps | apply Keeps.ite | split | dsimp only

theorem State.tuComplete_keeps {s0 : State} (s : State) (i : Nat) (j : TuJob) (count : Nat) (dense : Bool) (hk : Keeps s0 s) :
    Keeps s0 (State.tuComplete s i j count dense) := by
  unfold State.tuComplete
  try dsimp only
  with_reducible repeat'
    first | assumption | apply State.modCluster_keeps

theorem State.writeMasked_keeps {s0 : State} (s : State) (i n a : Nat) (bs : List (Byte × Bool)) (hk : Keeps s0 s) : Keeps s0 ((State.writeMasked s i n a bs)) := by
  induction n generalizing s a bs with
  | zero => exact hk
  | succ f ih =>
    unfold State.writeMasked
    try dsimp only
    repeat' first | with_reducible assumption | with_reducible apply ih | with_reducible apply State.modCluster_keeps | with_reducible apply State.memWrite_keeps | split

theorem State.writeBlock_keeps {s0 : State} (s : State) (i : Nat) (j : TuJob) (k c : Nat) (l : List Nat) (hk : Keeps s0 s) :
    Keeps s0 (State.writeBlock s i j k c l) := by
  unfold State.writeBlock
  try dsimp only
  with_reducible repeat'
    first | assumption | apply State.writeMasked_keeps

theorem State.writeGroup_keeps {s0 : State} (s : State) (i : Nat) (j : TuJob) (k : Nat) (hk : Keeps s0 s) : Keeps s0 (State.writeGroup s i j k)
    := by
  unfold State.writeGroup
  try dsimp only
  with_reducible repeat'
    first | assumption | apply State.writeBlock_keeps | apply State.modCluster_keeps | apply Keeps.foldl | intro _ | apply State.freeCodes_keeps | split

theorem State.packStrip_keeps {s0 : State} (s : State) (i : Nat) (j : TuJob) (p : PlateSum) (c : Nat) (hk : Keeps s0 s) : Keeps s0 (State.packStrip s i j p c).2 := by
  unfold State.packStrip
  try dsimp only
  with_reducible repeat'
    first | assumption | apply State.modCluster_keeps | apply State.writeStrip_keeps | apply State.memRead_keeps | split

theorem State.finishBag_keeps {s0 : State} (s : State) (i : Nat) (j : TuJob) (hk : Keeps s0 s) : Keeps s0 (State.finishBag s i j) := by
  unfold State.finishBag
  dsimp only
  with_reducible apply State.tuComplete_keeps
  refine Keeps.iteSnd ?_ ?_
  · with_reducible apply State.openPlate_keeps
    with_reducible apply State.writeHeader_keeps
    split
    · exact Keeps.foldlOf (fun (a : PlateSum × State) => a.2) hk _ _ fun u a hu => State.packStrip_keeps _ _ _ _ _ hu
    · dsimp only; with_reducible apply State.modCluster_keeps; exact hk
  · dsimp only
    with_reducible apply State.writeHeader_keeps
    split
    · exact Keeps.foldlOf (fun (a : PlateSum × State) => a.2) hk _ _ fun u a hu => State.packStrip_keeps _ _ _ _ _ hu
    · dsimp only; with_reducible apply State.modCluster_keeps; exact hk

theorem State.tuAdvance_keeps {s0 : State} (s : State) (i : Nat) (j : TuJob) (hk : Keeps s0 s) : KeepsOpt s0 (State.tuAdvance s i j) := by
  unfold State.tuAdvance
  try dsimp only
  with_reducible repeat'
    first | assumption | exact KeepsOpt.none | apply KeepsOpt.some | apply State.tuComplete_keeps | apply State.writeGroup_keeps
          | apply State.finishBag_keeps | split

theorem State.tuSettle_keeps {s0 : State} (i n : Nat) (s : State) (hk : Keeps s0 s) : Keeps s0 (State.tuSettle i n s) := by
  induction n generalizing s with
  | zero => exact hk
  | succ f ih =>
    unfold State.tuSettle
    split
    · obtain ⟨j, -, hj⟩ := List.exists_of_findSome?_eq_some ‹_›
      exact ih _ ((State.tuAdvance_keeps s i j hk).keeps _ hj)
    · exact hk

theorem State.tuDrain_keeps {s0 : State} (s : State) (i : Nat) (hk : Keeps s0 s) : Keeps s0 (State.tuDrain s i) := by
  unfold State.tuDrain
  try dsimp only
  with_reducible repeat'
    first | assumption | apply State.tuSettle_keeps

theorem State.gather1_keeps {s0 : State} (s : State) (i y x off : Nat) (g : Gather) (hk : Keeps s0 s) : Keeps s0 (State.gather1 s i y x off g) := by
  unfold State.gather1
  try dsimp only
  with_reducible repeat'
    first | assumption | apply State.modCluster_keeps | apply State.dsEnter_keeps | apply State.sendRd_keeps | split

theorem State.gatherRow_keeps {s0 : State} (s : State) (i y x off : Nat) (g : Gather) (n : Nat) (hk : Keeps s0 s) : Keeps s0 ((State.gatherRow s i y x off g n)) := by
  induction n generalizing s with
  | zero => exact hk
  | succ f ih => unfold State.gatherRow; exact State.gather1_keeps _ _ _ _ _ _ (ih _ hk)

theorem State.slotHit_keeps {s0 : State} (s : State) (i e gran : Nat) (g : Gather) (upsets : List Nat) (hk : Keeps s0 s) : Keeps s0 (State.slotHit s i e gran g upsets) := by
  unfold State.slotHit
  try dsimp only
  with_reducible repeat'
    first | assumption | apply State.modCluster_keeps | apply State.memRead_keeps | apply State.upset_keeps | split

theorem State.home_keeps {s0 : State} (s : State) (i t n : Nat) (hk : Keeps s0 s) : Keeps s0 (State.home s i t n).2 :=
  State.memCheck_keeps _ _ _ _ _ _ hk

theorem State.lookup_keeps {s0 : State} (s : State) (i : Nat) (j : TuJob) (id : W64) (bag : Nat) (upsets : List Nat) (hk : Keeps s0 s) :
    Keeps s0 (State.lookup s i j id bag upsets) := by
  unfold State.lookup
  try dsimp only
  with_reducible repeat'
    first | assumption | apply State.modCluster_keeps | apply State.debit_keeps | apply State.gatherRow_keeps | apply State.setCluster_keeps
          | apply State.slotHit_keeps | apply State.home_keeps | split

theorem State.bagId_keeps {s0 : State} (s : State) (i : Nat) (j : TuJob) (bag : Nat) (id : W64) (poison : Bool) (upsets : List Nat)
    (hk : Keeps s0 s) : Keeps s0 (State.bagId s i j bag id poison upsets) := by
  unfold State.bagId
  try dsimp only
  with_reducible repeat'
    first | assumption | apply State.modCluster_keeps | apply State.lookup_keeps | split

theorem State.runBag_keeps {s0 : State} (i serial : Nat) (upsets : List Nat) (n : Nat) (s : State) (hk : Keeps s0 s) : Keeps s0 ((State.runBag i serial upsets n s)) := by
  induction n generalizing s with
  | zero => exact hk
  | succ f ih =>
    unfold State.runBag
    try dsimp only
    repeat' first | with_reducible assumption | with_reducible apply ih | with_reducible apply State.bagId_keeps | split

theorem State.insertId_keeps {s0 : State} (s : State) (i : Nat) (j : TuJob) (id : W64) (poison : Bool) (hk : Keeps s0 s) :
    Keeps s0 (State.insertId s i j id poison) := by
  unfold State.insertId
  try dsimp only
  with_reducible repeat'
    first | assumption | apply State.home_keeps | apply State.modCluster_keeps | apply State.debit_keeps | apply State.gatherRow_keeps | split

theorem State.runInsert_keeps {s0 : State} (i serial n : Nat) (s : State) (hk : Keeps s0 s) : Keeps s0 ((State.runInsert i serial n s)) := by
  induction n generalizing s with
  | zero => exact hk
  | succ f ih =>
    unfold State.runInsert
    try dsimp only
    repeat' first | with_reducible assumption | with_reducible apply ih | with_reducible apply State.insertId_keeps | split

theorem State.evictId_keeps {s0 : State} (s : State) (i : Nat) (j : TuJob) (id : W64) (poison : Bool) (hk : Keeps s0 s) :
    KeepsOpt s0 (State.evictId s i j id poison) := by
  unfold State.evictId
  try dsimp only
  with_reducible repeat'
    first | assumption | exact KeepsOpt.none | apply KeepsOpt.some | apply State.modCluster_keeps | apply State.debit_keeps | split

theorem State.runEvict_keeps {s0 : State} (i serial n : Nat) (s : State) (hk : Keeps s0 s) : Keeps s0 ((State.runEvict i serial n s)) := by
  induction n generalizing s with
  | zero => exact hk
  | succ f ih =>
    unfold State.runEvict
    try dsimp only
    repeat' first | with_reducible assumption | with_reducible apply ih | with_reducible apply State.evictId_keeps | split | with_reducible refine Keeps.of_snd ‹_ = (_, _)› ?_ | with_reducible refine KeepsOpt.get ‹_ = some _› ?_

theorem State.runFlush_keeps {s0 : State} (i serial : Nat) (s : State) (hk : Keeps s0 s) : Keeps s0 (State.runFlush i serial s) := by
  unfold State.runFlush
  try dsimp only
  with_reducible repeat'
    first | assumption | apply State.setCluster_keeps | split

theorem State.tuBegin_keeps {s0 : State} (s : State) (i src : Nat) (j : TuJob) (toks : List Tok) (hk : Keeps s0 s) :
    Keeps s0 (State.tuBegin s i src j toks) := by
  unfold State.tuBegin
  try dsimp only
  with_reducible repeat'
    first | assumption | apply State.modCluster_keeps | apply State.tuList_keeps | split

theorem State.tuTake_keeps {s0 : State} (s : State) (i src opc : Nat) (hk : Keeps s0 s) : KeepsOpt2 s0 (State.tuTake s i src opc) := by
  unfold State.tuTake
  try dsimp only
  with_reducible repeat'
    first | assumption | exact KeepsOpt2.none | apply KeepsOpt2.some | apply State.tuBegin_keeps | split

theorem execTuJobToken_keeps {s0 : State} (c : ClusterId) (q : Fin 8) (s : State) (hk : Keeps s0 s) : KeepsOut s0 (execTuJobToken c q s) := by
  unfold execTuJobToken
  try dsimp only
  with_reducible repeat'
    first | assumption | apply KeepsOut.next | apply State.setCluster_keeps | apply State.tuDrain_keeps | split

theorem execTuNop_keeps {s0 : State} (c : ClusterId) (src : Fin 9) (s : State) (hk : Keeps s0 s) : KeepsOut s0 (execTuNop c src s) := by
  unfold execTuNop
  try dsimp only
  with_reducible repeat'
    first | assumption | apply KeepsOut.next | apply State.tuTake_keeps | apply State.tuDrain_keeps | split | refine KeepsOpt2.get ‹_ = some _› ?_

theorem execTuBag_keeps {s0 : State} (c : ClusterId) (src : Fin 9) (upsets : List Nat) (s : State) (hk : Keeps s0 s) :
    KeepsOut s0 (execTuBag c src upsets s) := by
  unfold execTuBag
  try dsimp only
  with_reducible repeat'
    first | assumption | apply KeepsOut.next | apply State.tuTake_keeps | apply State.tuDrain_keeps | apply State.runBag_keeps | split
          | refine KeepsOpt2.get ‹_ = some _› ?_

theorem execTuInsert_keeps {s0 : State} (c : ClusterId) (src : Fin 9) (s : State) (hk : Keeps s0 s) : KeepsOut s0 (execTuInsert c src s) := by
  unfold execTuInsert
  try dsimp only
  with_reducible repeat'
    first | assumption | apply KeepsOut.next | apply State.tuTake_keeps | apply State.tuDrain_keeps | apply State.runInsert_keeps | split
          | refine KeepsOpt2.get ‹_ = some _› ?_

theorem execTuEvict_keeps {s0 : State} (c : ClusterId) (src : Fin 9) (s : State) (hk : Keeps s0 s) : KeepsOut s0 (execTuEvict c src s) := by
  unfold execTuEvict
  try dsimp only
  with_reducible repeat'
    first | assumption | apply KeepsOut.next | apply State.tuTake_keeps | apply State.tuDrain_keeps | apply State.runEvict_keeps | split
          | refine KeepsOpt2.get ‹_ = some _› ?_

theorem execTuFlush_keeps {s0 : State} (c : ClusterId) (src : Fin 9) (s : State) (hk : Keeps s0 s) : KeepsOut s0 (execTuFlush c src s) := by
  unfold execTuFlush
  try dsimp only
  with_reducible repeat'
    first | assumption | apply KeepsOut.next | apply State.tuTake_keeps | apply State.tuDrain_keeps | apply State.runFlush_keeps | split
          | refine KeepsOpt2.get ‹_ = some _› ?_

theorem State.fillSlot_keeps {s0 : State} (s : State) (i : Nat) (g : Gather) (e : Nat) (hk : Keeps s0 s) : Keeps s0 (State.fillSlot s i g e) := by
  unfold State.fillSlot
  try dsimp only
  with_reducible repeat'
    first | assumption | apply State.modCluster_keeps | apply State.memWrite_keeps | split

theorem State.poolGranule_keeps {s0 : State} (s : State) (i : Nat) (j : TuJob) (g : Gather) (hk : Keeps s0 s) : Keeps s0 (State.poolGranule s i j g)
    := by
  unfold State.poolGranule
  try dsimp only
  with_reducible repeat'
    first | assumption | apply State.setCluster_keeps | apply State.fillSlot_keeps | split

theorem execTuGranuleArrival_keeps {s0 : State} (c : ClusterId) (i : Nat) (s : State) (hk : Keeps s0 s) : KeepsOut s0 (execTuGranuleArrival c i s)
    := by
  unfold execTuGranuleArrival
  try dsimp only
  with_reducible repeat'
    first | assumption | apply KeepsOut.next | apply State.tuDrain_keeps | apply State.poolGranule_keeps | split

theorem execTuCompletionSend_keeps {s0 : State} (c : ClusterId) (b : Fin 8) (s : State) (hk : Keeps s0 s) : KeepsOut s0 (execTuCompletionSend c b s)
    := by
  unfold execTuCompletionSend
  try dsimp only
  with_reducible repeat'
    first | assumption | apply KeepsOut.next | apply State.setCluster_keeps | split

theorem execTuCommitGo_keeps {s0 : State} (c : ClusterId) (s : State) (hk : Keeps s0 s) : KeepsOut s0 (execTuCommitGo c s) := by
  unfold execTuCommitGo
  try dsimp only
  with_reducible repeat'
    first | assumption | apply KeepsOut.next | apply State.modCluster_keeps | split

theorem execTuCommitApply_keeps {s0 : State} (c : ClusterId) (s : State) (hk : Keeps s0 s) : KeepsOut s0 (execTuCommitApply c s) := by
  unfold execTuCommitApply
  try dsimp only
  with_reducible repeat'
    first | assumption | apply KeepsOut.next | apply State.setCluster_keeps | split

theorem execTuIdxSelWrite_keeps {s0 : State} (c : ClusterId) (v : W32) (s : State) (hk : Keeps s0 s) : KeepsOut s0 (execTuIdxSelWrite c v s) := by
  unfold execTuIdxSelWrite
  try dsimp only
  with_reducible repeat'
    first | assumption | apply KeepsOut.next | apply State.modCluster_keeps | split

theorem State.tuIdxFlags_keeps {s0 : State} (s : State) (c : Nat) (v : W32) (hk : Keeps s0 s) : Keeps s0 (State.tuIdxFlags s c v) := by
  unfold State.tuIdxFlags
  try dsimp only
  with_reducible repeat'
    first | assumption | apply State.setCluster_keeps | split

theorem execTuIdxFlagsWrite_keeps {s0 : State} (c : ClusterId) (v : W32) (s : State) (hk : Keeps s0 s) : KeepsOut s0 (execTuIdxFlagsWrite c v s)
    := by
  unfold execTuIdxFlagsWrite
  try dsimp only
  with_reducible repeat'
    first | assumption | apply KeepsOut.next | apply State.tuIdxFlags_keeps

/-! ## ClusterRegs -/

theorem State.drainedPut_keeps {s0 : State} (s : State) (i off : Nat) (err : Fld) (v : W32) (hk : Keeps s0 s) :
    Keeps s0 (State.drainedPut s i off err v) := by
  unfold State.drainedPut
  try dsimp only
  with_reducible repeat'
    first | assumption | apply State.modCluster_keeps | split

theorem State.cbindPut_keeps {s0 : State} (s : State) (i off : Nat) (err credits : Fld) (v : W32) (hk : Keeps s0 s) :
    Keeps s0 (State.cbindPut s i off err credits v) := by
  unfold State.cbindPut
  try dsimp only
  with_reducible repeat'
    first | assumption | apply State.modCluster_keeps | split

theorem State.elemRegWrite_keeps {s0 : State} (s : State) (i e o : Nat) (v : W32) (hk : Keeps s0 s) : Keeps s0 (State.elemRegWrite s i e o v) := by
  unfold State.elemRegWrite
  try dsimp only
  with_reducible repeat'
    first | assumption | apply State.modElem_keeps | apply State.modCluster_keeps | apply State.armElem_keeps | split

theorem State.tuRegWrite_keeps {s0 : State} (s : State) (i off : Nat) (v : W32) (hk : Keeps s0 s) : Keeps s0 (State.tuRegWrite s i off v) := by
  unfold State.tuRegWrite
  try dsimp only
  with_reducible repeat'
    first | assumption | apply State.modCluster_keeps | apply State.cbindPut_keeps | apply State.drainedPut_keeps | apply State.tuIdxFlags_keeps
          | split

theorem State.clusterRegWrite_keeps {s0 : State} (s : State) (i : Nat) (off : Nat) (v : W32) (hk : Keeps s0 s) : Keeps s0 (State.clusterRegWrite s i off v) := by
  unfold State.clusterRegWrite
  extract_lets put
  have hp : Keeps s0 put := by unfold put; with_reducible apply State.modCluster_keeps; exact hk
  clear_value put
  repeat' first | with_reducible assumption | with_reducible apply State.elemRegWrite_keeps | with_reducible apply State.tuRegWrite_keeps | with_reducible apply State.cbindPut_keeps | with_reducible apply State.drainedPut_keeps | with_reducible apply State.cmCtrl_keeps | with_reducible apply State.muCbind_keeps | with_reducible apply State.modCluster_keeps | (with_reducible refine Keeps.ite ?_ ?_)

end Sys2Proof.Machine
end

