-- ==== Sys2Proof/Laws/KeepsMesh.lean ====
section
/-! SUPPORT. What the operations of the mesh, the host port, the transfers and the fabric keep, whatever their arguments: one lemma per operation and command, for the statements about every step. -/

namespace Sys2Proof.Machine

/-! ## Mesh -/

theorem State.routerInject_keeps {s0 : State} (s : State) (i : Nat) (p : Pkt) (hk : Keeps s0 s) : Keeps s0 (State.routerInject s i p) := by
  unfold State.routerInject
  try dsimp only
  with_reducible repeat'
    first | assumption | apply State.modCluster_keeps | split

theorem State.routerSent_keeps {s0 : State} (s : State) (i : Nat) (p : Pkt) (hk : Keeps s0 s) : Keeps s0 (State.routerSent s i p) := by
  unfold State.routerSent
  try dsimp only
  with_reducible repeat'
    first | assumption | apply State.modCluster_keeps

theorem State.routerSend_keeps {s0 : State} (s : State) (i : Nat) (p : Pkt) (hk : Keeps s0 s) : Keeps s0 (State.routerSend s i p) := by
  unfold State.routerSend
  try dsimp only
  with_reducible repeat'
    first | assumption | apply State.routerInject_keeps | apply State.routerSent_keeps | apply Keeps.ite | split | dsimp only

theorem State.portSend_keeps {s0 : State} (s : State) (port : Nat) (p : Pkt) (hk : Keeps s0 s) : KeepsOpt s0 (s.portSend port p) := by
  unfold State.portSend
  cases s.ported p (s.port port).fab with
  | none => exact KeepsOpt.none
  | some q => exact KeepsOpt.some (State.routerInject_keeps _ _ _ (State.modPort_keeps _ _ _ hk))

theorem State.egress_keeps {s0 : State} (s : State) (port : Nat) (p : Pkt) (hk : Keeps s0 s) : Keeps s0 (State.egress s port p) := by
  unfold State.egress
  try dsimp only
  with_reducible repeat'
    first | assumption | apply State.debit_keeps | apply State.modPort_keeps

theorem State.portUnreach_keeps {s0 : State} (s : State) (port : Nat) (p : Pkt) (hk : Keeps s0 s) : Keeps s0 (State.portUnreach s port p) := by
  unfold State.portUnreach
  have h1 : Keeps s0 ((s.modPort port (fun z => z.countStart ZL_CNT_UNREACH_CNT 1)).hifEvent 8) := State.hifEvent_keeps _ _ (State.modPort_keeps _ _ _ hk)
  refine Keeps.ite ?_ h1
  have h2 := State.portSend_keeps _ port (nakOf s (portCluster port) p 2) h1
  revert h2
  generalize State.portSend _ port _ = o
  intro h2
  cases o with
  | none => exact h1
  | some t => exact h2.keeps t rfl

theorem State.reinject_keeps {s0 : State} (s : State) (port : Nat) (p : Pkt) (hk : Keeps s0 s) : Keeps s0 (State.reinject s port p) := by
  unfold State.reinject
  split
  · exact KeepsOpt.get ‹_› (State.portSend_keeps s port p hk)
  · exact State.portUnreach_keeps _ _ _ hk

theorem State.ejected_keeps {s0 : State} (s : State) (i : Nat) (p : Pkt) (hk : Keeps s0 s) : Keeps s0 (State.ejected s i p) := by
  unfold State.ejected
  try dsimp only
  with_reducible repeat'
    first | assumption | apply State.modCluster_keeps | apply State.egress_keeps | apply State.reinject_keeps | split

theorem Arb.put_keeps {s0 : State} (a : Arb) (i : Nat) (plane : Nat) (d : Nat) (p : Pkt) (hk : Keeps s0 a.s) : Keeps s0 ((Arb.put a i plane d p).s) := by
  unfold Arb.put
  split
  · exact hk
  · dsimp only
    with_reducible apply State.modCluster_keeps
    with_reducible apply State.modCluster_keeps
    exact hk

theorem Arb.deflect_keeps {s0 : State} (a : Arb) (i : Nat) (plane : Nat) (want : List Nat) (p : Pkt) (hk : Keeps s0 a.s) : Keeps s0 ((Arb.deflect a i plane want p).s)  := by
  unfold Arb.deflect
  extract_lets _ _ _ v d s1 s2
  apply Arb.put_keeps
  dsimp only
  unfold s2 s1 v
  with_reducible apply State.modRegion_keeps
  with_reducible apply State.modCluster_keeps
  exact State.takeFree_keeps _ hk

theorem Arb.toward_keeps {s0 : State} (a : Arb) (i plane j : Nat) (p : Pkt) (hk : Keeps s0 a.s) (b : Arb) (e : a.toward i plane j p = some b) :
    Keeps s0 b.s := by
  unfold Arb.toward at e
  dsimp only at e
  split at e
  · cases e; exact Arb.put_keeps _ _ _ _ _ hk
  · split at e
    · cases e; exact Arb.put_keeps _ _ _ _ _ hk
    · split at e
      · cases e
      · cases e; exact Arb.deflect_keeps _ _ _ _ _ hk

theorem Arb.refuse_keeps {s0 : State} (a : Arb) (i plane : Nat) (p : Pkt) (hk : Keeps s0 a.s) (b : Arb) (e : a.refuse i plane p = some b) :
    Keeps s0 b.s := by
  unfold Arb.refuse at e
  split at e
  · cases e
  · cases e
    apply Arb.deflect_keeps
    dsimp only
    with_reducible apply State.modRegion_keeps
    with_reducible apply State.modCluster_keeps
    exact hk

theorem Arb.nakUnreach_keeps {s0 : State} (a : Arb) (i plane : Nat) (p : Pkt) (hk : Keeps s0 a.s) (b : Arb) (e : a.nakUnreach i plane p = some b) :
    Keeps s0 b.s := by
  unfold Arb.nakUnreach at e
  have h1 : Keeps s0 ((a.s.modCluster i (fun c => c.wr MSH_EVENT_UNREACH 1)).hifEvent 8) := State.hifEvent_keeps _ _ (State.modCluster_keeps _ _ _ hk)
  revert e
  generalize (a.s.modCluster i (fun c => c.wr MSH_EVENT_UNREACH 1)).hifEvent 8 = s1 at h1
  intro e
  dsimp only at e
  have h2 := State.routerSent_keeps s1 i (nakOf s1 i p 2) h1
  split at e
  · cases e; exact h1
  · split at e
    · cases e; exact State.ejected_keeps _ _ _ h2
    · split at e
      · cases e; exact h2
      · split at e
        · next b' hb => cases e; exact Arb.toward_keeps _ _ _ _ _ (by exact h2) _ hb
        · cases e; exact State.routerInject_keeps _ _ _ h2

theorem Arb.unicast_keeps {s0 : State} (a : Arb) (i plane : Nat) (p : Pkt) (hk : Keeps s0 a.s) (b : Arb) (e : a.unicast i plane p = some b) :
    Keeps s0 b.s := by
  unfold Arb.unicast at e
  dsimp only at e
  split at e
  · split at e
    · split at e
      · split at e
        · cases e
        · cases e; exact Arb.deflect_keeps _ _ _ _ _ hk
      · cases e; exact State.ejected_keeps _ _ _ hk
    · exact Arb.refuse_keeps _ _ _ _ hk _ e
  · split at e
    · exact Arb.nakUnreach_keeps _ _ _ _ hk _ e
    · exact Arb.toward_keeps _ _ _ _ _ hk _ e

theorem Arb.copy_keeps {s0 : State} (a : Arb) (i : Nat) (plane : Nat) (c : Nat × Pkt) (hk : Keeps s0 a.s) : Keeps s0 ((Arb.copy a i plane c).s)  := by
  unfold Arb.copy
  dsimp only
  split
  · apply Arb.put_keeps
    dsimp only
    with_reducible apply State.modCluster_keeps; exact hk
  · with_reducible apply State.modCluster_keeps
    with_reducible apply State.modCluster_keeps; exact hk

theorem Arb.multicast_keeps {s0 : State} (a : Arb) (i plane : Nat) (p : Pkt) (hk : Keeps s0 a.s) (b : Arb) (e : a.multicast i plane p = some b) :
    Keeps s0 b.s := by
  unfold Arb.multicast at e
  dsimp only at e
  have h1 : Keeps s0 ((mcCopies i p).foldl (fun b c => b.copy i plane c) a).s := Keeps.foldlOf Arb.s hk _ _ fun u c hu => Arb.copy_keeps _ _ _ _ hu
  revert e
  generalize (mcCopies i p).foldl (fun b c => b.copy i plane c) a = a1 at h1
  intro e
  split at e
  · split at e
    · exact Arb.nakUnreach_keeps _ _ _ _ hk _ e
    · exact Arb.toward_keeps _ _ _ _ _ hk _ e
  · split at e
    · cases e; exact State.ejected_keeps _ _ _ h1
    · split at e
      · next b' hb =>
        cases e
        split at hb
        · split at hb
          · cases hb
          · cases hb; exact Arb.deflect_keeps _ _ _ _ _ h1
        · exact Arb.refuse_keeps _ _ _ _ h1 _ hb
      · cases e; dsimp only; with_reducible apply State.modCluster_keeps; exact h1

theorem Arb.assign_keeps {s0 : State} (a : Arb) (i plane : Nat) (p : Pkt) (hk : Keeps s0 a.s) (b : Arb) (e : a.assign i plane p = some b) :
    Keeps s0 b.s := by
  unfold Arb.assign at e
  split at e
  · exact Arb.multicast_keeps _ _ _ _ hk _ e
  · exact Arb.unicast_keeps _ _ _ _ hk _ e

theorem State.popInput_keeps {s0 : State} (s : State) (i plane port : Nat) (hk : Keeps s0 s) : Keeps s0 (State.popInput s i plane port) := by
  unfold State.popInput
  try dsimp only
  with_reducible repeat'
    first | assumption | apply State.modCluster_keeps

theorem Arb.heads_keeps {s0 : State} (a : Arb) (i : Nat) (plane : Nat) (ports : List Nat) (crossing : Bool) (hk : Keeps s0 a.s) : Keeps s0 ((Arb.heads a i plane ports crossing).s)  := by
  unfold Arb.heads
  refine Keeps.foldlOf Arb.s hk _ _ fun b q hb => ?_
  split
  · exact hb
  · split
    · next c hc => exact Arb.assign_keeps _ _ _ _ (State.popInput_keeps _ _ _ _ hb) _ hc
    · exact hb

theorem State.headerErr_keeps {s0 : State} (s : State) (i plane d : Nat) (hk : Keeps s0 s) : Keeps s0 (State.headerErr s i plane d) := by
  unfold State.headerErr
  try dsimp only
  with_reducible repeat'
    first | assumption | apply State.modCluster_keeps | apply State.popInput_keeps | apply State.clusterFailure_keeps | split

theorem State.payloadErr_keeps {s0 : State} (s : State) (i plane d : Nat) (hk : Keeps s0 s) : Keeps s0 (State.payloadErr s i plane d) := by
  unfold State.payloadErr
  try dsimp only
  with_reducible repeat'
    first | assumption | apply State.modCluster_keeps | apply State.clusterFailure_keeps | split

theorem State.ageRouter_keeps {s0 : State} (s : State) (i plane port n : Nat) (hk : Keeps s0 s) : Keeps s0 (State.ageRouter s i plane port n) := by
  unfold State.ageRouter
  try dsimp only
  with_reducible repeat'
    first | assumption | apply State.modCluster_keeps | apply State.hifEvent_keeps | apply State.failure_keeps | apply State.routerSend_keeps
          | split

theorem State.loseStream_keeps {s0 : State} (s : State) (i n : Nat) (hk : Keeps s0 s) : Keeps s0 (State.loseStream s i n) := by
  unfold State.loseStream
  try dsimp only
  with_reducible repeat'
    first | assumption | apply State.modCluster_keeps

theorem State.ageInput_keeps {s0 : State} (i plane port n : Nat) (s : State) (hk : Keeps s0 s) : Keeps s0 (State.ageInput i plane port n s) := by
  induction n generalizing s with
  | zero => exact hk
  | succ f ih =>
    unfold State.ageInput
    split
    · exact hk
    · exact ih _ (State.ageRouter_keeps _ _ _ _ _ hk)

theorem Arb.inject_keeps {s0 : State} (a : Arb) (i : Nat) (plane : Nat) (hk : Keeps s0 a.s) : Keeps s0 ((Arb.inject a i plane).s) := by
  unfold Arb.inject
  split
  · exact hk
  · split
    · exact hk
    · extract_lets s1
      have h1 : Keeps s0 s1 := by
        unfold s1
        split
        · exact State.popInput_keeps _ _ _ _ hk
        · with_reducible apply State.modCluster_keeps
          with_reducible apply State.debit_keeps
          with_reducible apply State.modSender_keeps
          exact hk
      split
      · next b hb => exact Arb.assign_keeps _ _ _ _ (by exact h1) _ hb
      · exact hk

theorem execRouterArbitrate_keeps {s0 : State} (c : ClusterId) (plane : Fin 2) (headerErrs payloadErrs : List (Fin 5)) (s : State) (hk : Keeps s0 s) :
    KeepsOut s0 (execRouterArbitrate c plane headerErrs payloadErrs s) := by
  unfold execRouterArbitrate
  extract_lets i sA s1 s2 s3 a0 a1 a2 a3 a4
  split
  · exact .next hk
  · have hA : Keeps s0 sA := hk.foldl _ _ fun u d hu => State.ageInput_keeps _ _ _ _ _ hu
    have h3 : Keeps s0 s3 := Keeps.foldl (Keeps.foldl (State.modCluster_keeps _ _ _ hA) _ _ fun u d hu => State.headerErr_keeps _ _ _ _ hu) _ _
      fun u d hu => State.payloadErr_keeps _ _ _ _ hu
    have h2 : Keeps s0 a3.s := Arb.inject_keeps _ _ _ (Arb.heads_keeps _ _ _ _ _ (Arb.heads_keeps _ _ _ _ _ h3))
    refine .next ?_
    unfold a4
    split
    · exact Arb.inject_keeps _ _ _ h2
    · exact h2

theorem execCrossingCredit_keeps {s0 : State} (c : ClusterId) (plane : Fin 2) (dir : Fin 4) (s : State) (hk : Keeps s0 s) :
    KeepsOut s0 (execCrossingCredit c plane dir s) := by
  unfold execCrossingCredit
  try dsimp only
  with_reducible repeat'
    first | assumption | apply KeepsOut.next | apply State.setCluster_keeps | split

theorem execPacketAgeOut_keeps {s0 : State} (c : ClusterId) (holder : Holder) (s : State) (hk : Keeps s0 s) :
    KeepsOut s0 (execPacketAgeOut c holder s) := by
  unfold execPacketAgeOut
  try dsimp only
  with_reducible repeat'
    first | assumption | apply KeepsOut.next | apply State.ageRouter_keeps | apply State.hifEvent_keeps | apply State.failure_keeps
          | apply State.loseStream_keeps | split

theorem execCrossingDead_keeps {s0 : State} (c : ClusterId) (dir : Fin 4) (s : State) (hk : Keeps s0 s) : KeepsOut s0 (execCrossingDead c dir s)
    := by
  unfold execCrossingDead
  try dsimp only
  with_reducible repeat'
    first | assumption | apply KeepsOut.next | apply State.setCluster_keeps | apply Keeps.modDome | split
  all_goals rfl

theorem State.spreadHoles_keeps {s0 : State} (s : State) (hk : Keeps s0 s) : Keeps s0 (State.spreadHoles s) := by
  unfold State.spreadHoles
  try dsimp only
  with_reducible repeat'
    first | assumption | apply State.modRegion_keeps | apply Keeps.foldl | intro _ | split

theorem execHoleMapUpdate_keeps {s0 : State} (s : State) (hk : Keeps s0 s) : KeepsOut s0 (execHoleMapUpdate s) := by
  unfold execHoleMapUpdate
  try dsimp only
  with_reducible repeat'
    first | assumption | apply KeepsOut.next | apply State.spreadHoles_keeps

/-! ## HostPort -/

theorem State.aprBlock_keeps {s0 : State} (s : State) (src queue addr : Nat) (write : Bool) (hk : Keeps s0 s) :
    Keeps s0 (State.aprBlock s src queue addr write) := by
  unfold State.aprBlock
  try dsimp only
  with_reducible repeat'
    first | assumption | apply Keeps.setApr | apply State.hifEvent_keeps | split
  all_goals first | rfl | (show 256 ≤ _; decide)

theorem State.dmaRead_keeps {s0 : State} (s : State) (src queue addr len : Nat) (hk : Keeps s0 s) : Keeps s0 (State.dmaRead s src queue addr len).2
    := by
  unfold State.dmaRead
  try dsimp only
  with_reducible repeat'
    first | assumption | apply Keeps.modHost | apply State.aprBlock_keeps | split
  all_goals rfl

theorem State.dmaWrite_keeps {s0 : State} (s : State) (src queue addr : Nat) (bs : List Byte) (hk : Keeps s0 s) :
    Keeps s0 ((State.dmaWrite s src queue addr bs).2) := by
  unfold State.dmaWrite
  split
  · exact ⟨⟨hk.pending, hk.ctr, fun w => Mem.wf_write bs s.hostMem addr (hk.mem w)⟩, hk.apr⟩
  · exact State.aprBlock_keeps _ _ _ _ _ hk

theorem State.hifErr_keeps {s0 : State} (s : State) (kind off : Nat) (write bar2 : Bool) (hk : Keeps s0 s) : Keeps s0 (State.hifErr s kind off write bar2) := by
  unfold State.hifErr
  try dsimp only
  with_reducible repeat'
    first | assumption | apply State.hifEvent_keeps | apply State.setHif_keeps | apply State.emit_keeps | apply Keeps.ite | split | dsimp only

theorem State.startXfer_keeps {s0 : State} (s : State) (i : Nat) (a : Agent) (x0 : Xfer) (space gran add : Nat) (fbe lbe : W64)
    (grans : List (List Byte × Bool × Option Nat)) (hk : Keeps s0 s) : Keeps s0 (State.startXfer s i a x0 space gran add fbe lbe grans) := by
  unfold State.startXfer
  try dsimp only
  with_reducible repeat'
    first | assumption | apply State.modSender_keeps | apply State.sendOrdered_keeps

theorem State.bridgePut_keeps {s0 : State} (s : State) (i a chan owner n : Nat) (bs : List Byte) (hk : Keeps s0 s) :
    Keeps s0 (State.bridgePut s i a chan owner n bs) := by
  unfold State.bridgePut
  try dsimp only
  with_reducible repeat'
    first | assumption | apply State.startXfer_keeps

theorem State.bridgeRd_keeps {s0 : State} (s : State) (i a pos chan owner : Nat) (be : W64) (hk : Keeps s0 s) :
    Keeps s0 (State.bridgeRd s i a pos chan owner be) := by
  unfold State.bridgeRd
  try dsimp only
  with_reducible repeat'
    first | assumption | apply State.sendRd_keeps | apply State.modSender_keeps

theorem State.barIssue_keeps {s0 : State} (s : State) (r : BarRead) (hk : Keeps s0 s) : Keeps s0 (State.barIssue s r) := by
  unfold State.barIssue
  try dsimp only
  with_reducible repeat'
    first | assumption | apply State.bridgeRd_keeps | apply State.hifErr_keeps | apply Keeps.modHost | apply Keeps.foldl | intro _ | split
  all_goals rfl

theorem State.readsDone_keeps {s0 : State} (s : State) (hk : Keeps s0 s) : Keeps s0 (State.readsDone s) := by
  unfold State.readsDone
  try dsimp only
  with_reducible repeat'
    first | assumption | apply State.barIssue_keeps | apply State.emitRead_keeps | apply Keeps.modHost | apply Keeps.foldl | intro _
  all_goals rfl

theorem State.barBlock_keeps {s0 : State} (s : State) (id pos : Nat) (bs : List Byte) (fail : Nat) (hk : Keeps s0 s) :
    Keeps s0 (State.barBlock s id pos bs fail) := by
  unfold State.barBlock
  try dsimp only
  with_reducible repeat'
    first | assumption | apply Keeps.modHost | apply State.hifErr_keeps | apply State.readsDone_keeps | split
  all_goals rfl

theorem State.postedBlock_keeps {s0 : State} (s : State) (id status : Nat) (hk : Keeps s0 s) : Keeps s0 (State.postedBlock s id status) := by
  unfold State.postedBlock
  try dsimp only
  with_reducible repeat'
    first | assumption | apply State.hifErr_keeps | apply State.readsDone_keeps | apply Keeps.modHost | split
  all_goals rfl

theorem State.setJob_keeps {s0 : State} (s : State) (q : Nat) (j : Job) (hk : Keeps s0 s) : Keeps s0 (State.setJob s q j) := by
  unfold State.setJob
  try dsimp only
  with_reducible repeat'
    first | assumption | apply State.modHostQ_keeps

theorem State.jobDone_keeps {s0 : State} (s : State) (q : Nat) (j : Job) (value : Nat) (hk : Keeps s0 s) : Keeps s0 (State.jobDone s q j value)
    := by
  unfold State.jobDone
  try dsimp only
  with_reducible repeat'
    first | assumption | apply State.modHostQ_keeps

theorem State.copyInPiece_keeps {s0 : State} (s : State) (q : Nat) (j : Job) (hk : Keeps s0 s) : Keeps s0 (State.copyInPiece s q j) := by
  unfold State.copyInPiece
  try dsimp only
  with_reducible repeat'
    first | assumption | apply State.setJob_keeps | apply State.dmaRead_keeps | apply State.bridgePut_keeps | apply Keeps.modHost | split
          | refine Keeps.of_snd ‹_ = (_, _)› ?_
  all_goals rfl

theorem State.copyOutBlock_keeps {s0 : State} (s : State) (q : Nat) (j : Job) (hk : Keeps s0 s) : Keeps s0 (State.copyOutBlock s q j) := by
  unfold State.copyOutBlock
  try dsimp only
  with_reducible repeat'
    first | assumption | apply State.setJob_keeps | apply State.bridgeRd_keeps | apply Keeps.modHost | split
  all_goals rfl

theorem State.copyStep_keeps {s0 : State} (q serial n : Nat) (s : State) (hk : Keeps s0 s) : Keeps s0 (State.copyStep q serial n s) := by
  induction n generalizing s with
  | zero => exact hk
  | succ f ih =>
    unfold State.copyStep
    repeat' first | with_reducible assumption | with_reducible apply ih | with_reducible apply State.copyInPiece_keeps | with_reducible apply State.copyOutBlock_keeps | with_reducible apply State.jobDone_keeps | split

theorem State.copyInDone_keeps {s0 : State} (s : State) (serial n status : Nat) (hk : Keeps s0 s) : Keeps s0 (State.copyInDone s serial n status)
    := by
  unfold State.copyInDone
  try dsimp only
  with_reducible repeat'
    first | assumption | apply State.copyStep_keeps | apply State.setJob_keeps | split

theorem State.copyOutDone_keeps {s0 : State} (s : State) (serial pos : Nat) (bs : List Byte) (fail : Nat) (hk : Keeps s0 s) :
    Keeps s0 (State.copyOutDone s serial pos bs fail) := by
  unfold State.copyOutDone
  try dsimp only
  with_reducible repeat'
    first | assumption | apply State.dmaWrite_keeps | apply State.copyStep_keeps | apply State.setJob_keeps | split

theorem State.eyeDone_keeps {s0 : State} (s : State) (write : Bool) (w fail : Nat) (hk : Keeps s0 s) : Keeps s0 (State.eyeDone s write w fail) := by
  unfold State.eyeDone
  try dsimp only
  with_reducible repeat'
    first | assumption | apply State.setDome_keeps | split

theorem State.hostReadDone_keeps {s0 : State} (s : State) (owner pos : Nat) (bs : List Byte) (fail : Nat) (hk : Keeps s0 s) :
    Keeps s0 (State.hostReadDone s owner pos bs fail) := by
  unfold State.hostReadDone
  try dsimp only
  with_reducible repeat'
    first | assumption | apply State.barBlock_keeps | apply State.copyOutDone_keeps | apply State.eyeDone_keeps | split

theorem State.hostWriteDone_keeps {s0 : State} (s : State) (owner n status : Nat) (hk : Keeps s0 s) :
    Keeps s0 (State.hostWriteDone s owner n status) := by
  unfold State.hostWriteDone
  try dsimp only
  with_reducible repeat'
    first | assumption | apply State.postedBlock_keeps | apply State.copyInDone_keeps | apply State.eyeDone_keeps | split

/-! ## Transfer -/

theorem State.sendPack_keeps {s0 : State} (s : State) (i n : Nat) (hk : Keeps s0 s) : Keeps s0 (State.sendPack s i n) := by
  unfold State.sendPack
  try dsimp only
  with_reducible repeat'
    first | assumption | apply State.sendOrdered_keeps | apply State.modCluster_keeps | split

theorem State.teSend_keeps {s0 : State} (s : State) (i q : Nat) (hd d : Tok) (hk : Keeps s0 s) : Keeps s0 (State.teSend s i q hd d) := by
  unfold State.teSend
  try dsimp only
  with_reducible repeat'
    first | assumption | apply State.setCluster_keeps | apply State.modCluster_keeps | apply State.sendPack_keeps | split

theorem State.teFinish_keeps {s0 : State} (s : State) (i : Nat) (x : Xfer) (status : Nat) (hk : Keeps s0 s) : Keeps s0 (State.teFinish s i x status)
    := by
  unfold State.teFinish
  try dsimp only
  with_reducible repeat'
    first | assumption | apply State.modSender_keeps | apply State.sendPkt_keeps | apply State.setCluster_keeps | split

theorem execTeCompletionSend_keeps {s0 : State} (c : ClusterId) (b : Fin 8) (s : State) (hk : Keeps s0 s) : KeepsOut s0 (execTeCompletionSend c b s)
    := by
  unfold execTeCompletionSend
  try dsimp only
  with_reducible repeat'
    first | assumption | apply KeepsOut.next | apply State.setCluster_keeps | split

theorem State.teRead_keeps {s0 : State} (i space cls n a k : Nat) (s : State) (hk : Keeps s0 s) : Keeps s0 (State.teRead i space cls n a k s).2 := by
  induction n generalizing s a k with
  | zero => exact hk
  | succ f ih =>
    unfold State.teRead
    try dsimp only
    repeat' first | with_reducible assumption | with_reducible apply ih | with_reducible apply State.memRead_keeps | with_reducible apply State.dsTeRead_keeps | split

theorem State.plateRows_keeps {s0 : State} (i space cls a cb : Nat) (row0 : List Byte) (n : Nat) (s : State) (hk : Keeps s0 s) :
    Keeps s0 (State.plateRows i space cls a cb row0 n s).2 := by
  induction n generalizing s with
  | zero => exact hk
  | succ f ih =>
    unfold State.plateRows
    try dsimp only
    repeat' first | with_reducible assumption | with_reducible apply ih | with_reducible apply State.teRead_keeps | split

theorem State.plateLoad_keeps {s0 : State} (s : State) (i space cls a ngran : Nat) (hk : Keeps s0 s) : Keeps s0 (State.plateLoad s i space cls a ngran).2 := by
  unfold State.plateLoad
  try dsimp only
  with_reducible repeat'
    first | assumption | apply State.plateRows_keeps | apply State.teRead_keeps | intro _ | apply Keeps.ite | split | dsimp only

theorem State.rawLoad_keeps {s0 : State} (s : State) (i cls : Nat) (d : Desc) (hk : Keeps s0 s) : Keeps s0 (State.rawLoad s i cls d).2 := by
  unfold State.rawLoad
  try dsimp only
  with_reducible repeat'
    first | assumption | apply State.memRead_keeps | apply State.teRead_keeps | intro _ | apply Keeps.ite | split | dsimp only

theorem execTeSendUnit_keeps {s0 : State} (c : ClusterId) (q : Fin 8) (s : State) (hk : Keeps s0 s) : KeepsOut s0 (execTeSendUnit c q s) := by
  unfold execTeSendUnit
  try dsimp only
  with_reducible repeat'
    first | assumption | apply KeepsOut.next | apply State.teSend_keeps | split

theorem execTeNop_keeps {s0 : State} (c : ClusterId) (q : Fin 8) (s : State) (hk : Keeps s0 s) : KeepsOut s0 (execTeNop c q s) := by
  unfold execTeNop
  try dsimp only
  with_reducible repeat'
    first | assumption | apply KeepsOut.next | apply State.modCluster_keeps | apply State.teFinish_keeps | split

theorem State.noteSent_keeps {s0 : State} (s : State) (i : Nat) (grans : List (List Byte × Bool × Option Nat)) (hk : Keeps s0 s) :
    Keeps s0 (State.noteSent s i grans).2 := by
  unfold State.noteSent
  try dsimp only
  with_reducible repeat'
    first | assumption | apply State.modCluster_keeps | split

theorem execPut_keeps {s0 : State} (c : ClusterId) (q : Fin 8) (upsets : List Nat) (s : State) (hk : Keeps s0 s) : KeepsOut s0 (execPut c q upsets s) := by
  unfold execPut
  try dsimp only
  with_reducible repeat'
    first | assumption | apply KeepsOut.next | apply State.modCluster_keeps | apply State.startXfer_keeps | apply State.plateLoad_keeps
          | apply State.teFinish_keeps | apply State.noteSent_keeps | apply State.rawLoad_keeps | apply State.upset_keeps | apply KeepsOut.ite
          | apply Keeps.ite | split | dsimp only

theorem execTeGetXfer_keeps {s0 : State} (c : ClusterId) (q : Fin 8) (s : State) (hk : Keeps s0 s) : KeepsOut s0 (execTeGetXfer c q s) := by
  unfold execTeGetXfer
  try dsimp only
  with_reducible repeat'
    first | assumption | apply KeepsOut.next | apply State.modCluster_keeps | apply State.teFinish_keeps | apply State.sendPkt_keeps
          | apply State.modSender_keeps | split

theorem execMcast_keeps {s0 : State} (c : ClusterId) (q : Fin 8) (upsets : List Nat) (s : State) (hk : Keeps s0 s) : KeepsOut s0 (execMcast c q upsets s) := by
  unfold execMcast
  try dsimp only
  with_reducible repeat'
    first | assumption | apply KeepsOut.next | apply State.modCluster_keeps | apply State.modSender_keeps | apply State.teFinish_keeps
          | apply State.noteSent_keeps | apply State.sendPkt_keeps | apply State.rawLoad_keeps | apply State.upset_keeps | apply Keeps.foldl | intro _
          | apply KeepsOut.ite | apply Keeps.ite | split | dsimp only

theorem execTokenPackTimeout_keeps {s0 : State} (c : ClusterId) (i : Nat) (s : State) (hk : Keeps s0 s) : KeepsOut s0 (execTokenPackTimeout c i s)
    := by
  unfold execTokenPackTimeout
  try dsimp only
  with_reducible repeat'
    first | assumption | apply KeepsOut.next | apply State.sendPack_keeps | split

theorem execCreditReturnTimeout_keeps {s0 : State} (c : ClusterId) (i : Nat) (s : State) (hk : Keeps s0 s) :
    KeepsOut s0 (execCreditReturnTimeout c i s) := by
  unfold execCreditReturnTimeout
  try dsimp only
  with_reducible repeat'
    first | assumption | apply KeepsOut.next | apply State.sendCredits_keeps | split

/-! ## Transit -/

theorem State.takeArrival_keeps {s0 : State} (s : State) (i opc : Nat) (hk : Keeps s0 s) : KeepsOpt2 s0 (State.takeArrival s i opc) := by
  unfold State.takeArrival
  try dsimp only
  with_reducible repeat'
    first | assumption | exact KeepsOpt2.none | apply KeepsOpt2.some | apply State.modCluster_keeps | split

theorem State.suppress_keeps {s0 : State} (s : State) (i : Nat) (p : Pkt) (hk : Keeps s0 s) : Keeps s0 (State.suppress s i p) := by
  unfold State.suppress
  try dsimp only
  with_reducible repeat'
    first | assumption | apply State.modCluster_keeps | apply State.routerSend_keeps | split

theorem State.onArrival_keeps {s0 : State} (s : State) (i opc : Nat) (f : State → Pkt → State) (hk : Keeps s0 s)
    (hf : ∀ u p, Keeps s0 u → Keeps s0 (f u p)) : Keeps s0 (State.onArrival s i opc f) := by
  unfold State.onArrival
  repeat' first | with_reducible assumption | with_reducible apply hf | with_reducible apply State.suppress_keeps | split | with_reducible refine KeepsOpt2.get ‹_ = some _› ?_ | with_reducible apply State.takeArrival_keeps

theorem State.onAnswer_keeps {s0 : State} (s : State) (i opc : Nat) (f : State → Pkt → State) (hk : Keeps s0 s)
    (hf : ∀ u p, Keeps s0 u → Keeps s0 (f u p)) : Keeps s0 (State.onAnswer s i opc f) := by
  unfold State.onAnswer
  repeat' first | with_reducible assumption | with_reducible apply hf | with_reducible apply State.suppress_keeps | split | with_reducible refine KeepsOpt2.get ‹_ = some _› ?_ | with_reducible apply State.takeArrival_keeps

theorem State.extPoison_keeps {s0 : State} (s : State) (i : Nat) (p : Pkt) (hk : Keeps s0 s) : Keeps s0 (State.extPoison s i p) := by
  unfold State.extPoison
  try dsimp only
  with_reducible repeat'
    first | assumption | apply State.failure_keeps | split

theorem State.elemRead_keeps {s0 : State} (s : State) (i off : Nat) (be : W64) (upsets : List Nat) (hk : Keeps s0 s) : Keeps s0 (State.elemRead s i off be upsets).2 := by
  unfold State.elemRead
  try dsimp only
  with_reducible repeat'
    first | assumption | apply State.clusterFailure_keeps | apply State.modElem_keeps | apply Keeps.ite | split | dsimp only

theorem State.elemWrite_keeps {s0 : State} (s : State) (i off : Nat) (bs : List Byte) (mask : List Bool) (poison : Bool) (hk : Keeps s0 s) :
    Keeps s0 (State.elemWrite s i off bs mask poison) := by
  unfold State.elemWrite
  try dsimp only
  with_reducible repeat'
    first | assumption | apply State.modElem_keeps

theorem State.serveRd_keeps {s0 : State} (s : State) (i : Nat) (p : Pkt) (upsets : List Nat) (hk : Keeps s0 s) : Keeps s0 (State.serveRd s i p upsets) := by
  unfold State.serveRd
  try dsimp only
  with_reducible repeat'
    first | assumption | apply State.memReadUse_keeps | apply State.elemRead_keeps | apply State.sendPkt_keeps | apply State.dsEnter_keeps
          | apply State.upset_keeps | apply Keeps.ite | split | dsimp only

theorem execRd_keeps {s0 : State} (c : ClusterId) (upsets : List Nat) (s : State) (hk : Keeps s0 s) : KeepsOut s0 (execRd c upsets s) := by
  unfold execRd
  try dsimp only
  with_reducible repeat'
    first | assumption | apply KeepsOut.next | apply State.onArrival_keeps | apply State.serveRd_keeps | intro _

theorem execRdr_keeps {s0 : State} (c : ClusterId) (s : State) (hk : Keeps s0 s) : KeepsOut s0 (execRdr c s) := by
  unfold execRdr
  try dsimp only
  with_reducible repeat'
    first | assumption | apply KeepsOut.next | apply State.onAnswer_keeps | apply State.extPoison_keeps | apply State.modSender_keeps
          | apply State.modCluster_keeps | apply State.hostReadDone_keeps | intro _ | split

theorem State.modRecv_keeps {s0 : State} (s : State) (i n : Nat) (f : RecvStream → RecvStream) (hk : Keeps s0 s) : Keeps s0 (State.modRecv s i n f)
    := by
  unfold State.modRecv
  try dsimp only
  with_reducible repeat'
    first | assumption | apply State.modCluster_keeps

theorem State.ackStream_keeps {s0 : State} (s : State) (i n status tag : Nat) (hk : Keeps s0 s) : Keeps s0 (State.ackStream s i n status tag) := by
  unfold State.ackStream
  try dsimp only
  with_reducible repeat'
    first | assumption | apply State.sendPkt_keeps | apply State.modRecv_keeps | split

theorem State.landOpen_keeps {s0 : State} (s : State) (i n : Nat) (p : Pkt) (hk : Keeps s0 s) : Keeps s0 (State.landOpen s i n p) := by
  unfold State.landOpen
  try dsimp only
  with_reducible repeat'
    first | assumption | apply State.sendPkt_keeps | apply State.modRecv_keeps | apply State.modSender_keeps | split

theorem State.placeGranule_keeps {s0 : State} (s : State) (i : Nat) (r : RecvStream) (l : Landing) (g : Nat) (mask : List Bool) (p : Pkt) (hk : Keeps s0 s) : Keeps s0 (State.placeGranule s i r l g mask p) := by
  unfold State.placeGranule
  try dsimp only
  with_reducible repeat'
    first | assumption | apply State.clusterRegWrite_keeps | apply State.modCluster_keeps | apply State.modRegion_keeps | apply State.elemWrite_keeps
          | apply State.stageAny_keeps | apply State.dsEnter_keeps | apply State.asmPut_keeps | apply Keeps.ite | split | dsimp only

theorem State.landDone_keeps {s0 : State} (s : State) (i n : Nat) (l : Landing) (hk : Keeps s0 s) : Keeps s0 (State.landDone s i n l) := by
  unfold State.landDone
  try dsimp only
  with_reducible repeat'
    first | assumption | apply State.modRecv_keeps | apply State.asmFlushXfer_keeps | apply State.modSender_keeps | apply State.ackStream_keeps
          | split

theorem State.landData_keeps {s0 : State} (s : State) (i n : Nat) (p : Pkt) (hk : Keeps s0 s) : Keeps s0 (State.landData s i n p) := by
  unfold State.landData
  try dsimp only
  with_reducible repeat'
    first | assumption | apply State.placeGranule_keeps | apply State.extPoison_keeps | apply State.modSender_keeps | apply State.modCluster_keeps
          | apply State.modRecv_keeps | apply Keeps.ite
          | apply State.landDone_keeps | split

theorem State.landTokens_keeps {s0 : State} (s : State) (i : Nat) (p : Pkt) (hk : Keeps s0 s) : Keeps s0 (State.landTokens s i p) := by
  unfold State.landTokens
  try dsimp only
  with_reducible repeat'
    first | assumption | apply State.sendPkt_keeps | apply State.modCluster_keeps | apply State.modRegion_keeps | apply State.extPoison_keeps
          | apply Keeps.foldl | intro _ | split

theorem State.deliverOrd_keeps {s0 : State} (s : State) (i n : Nat) (p : Pkt) (hk : Keeps s0 s) : Keeps s0 (State.deliverOrd s i n p) := by
  unfold State.deliverOrd
  try dsimp only
  with_reducible repeat'
    first | assumption | apply State.modRecv_keeps | apply State.landOpen_keeps | apply State.landData_keeps | apply State.landTokens_keeps
          | apply State.ackStream_keeps | split

theorem State.drainPool_keeps {s0 : State} (i n k : Nat) (s : State) (hk : Keeps s0 s) : Keeps s0 ((State.drainPool i n k s)) := by
  induction k generalizing s with
  | zero => exact hk
  | succ f ih =>
    unfold State.drainPool
    try dsimp only
    repeat' first | with_reducible assumption | with_reducible apply ih | with_reducible apply State.deliverOrd_keeps | with_reducible apply State.modRecv_keeps | split

theorem State.orderedAt_keeps {s0 : State} (s : State) (i n : Nat) (p : Pkt) (hk : Keeps s0 s) : Keeps s0 (State.orderedAt s i n p) := by
  unfold State.orderedAt
  try dsimp only
  with_reducible repeat'
    first | assumption | apply State.modCluster_keeps | apply State.modRecv_keeps | apply State.drainPool_keeps | apply State.deliverOrd_keeps
          | split

theorem State.ordered_keeps {s0 : State} (s : State) (i : Nat) (p : Pkt) (hk : Keeps s0 s) : Keeps s0 (State.ordered s i p) := by
  unfold State.ordered
  with_reducible repeat'
    first | assumption | apply State.orderedAt_keeps | apply State.routerInject_keeps | apply State.modCluster_keeps | split

theorem execOpenXfer_keeps {s0 : State} (c : ClusterId) (s : State) (hk : Keeps s0 s) : KeepsOut s0 (execOpenXfer c s) := by
  unfold execOpenXfer
  try dsimp only
  with_reducible repeat'
    first | assumption | apply KeepsOut.next | apply State.onArrival_keeps | apply State.ordered_keeps | intro _

theorem execDataPkt_keeps {s0 : State} (c : ClusterId) (s : State) (hk : Keeps s0 s) : KeepsOut s0 (execDataPkt c s) := by
  unfold execDataPkt
  try dsimp only
  with_reducible repeat'
    first | assumption | apply KeepsOut.next | apply State.onArrival_keeps | apply State.ordered_keeps | intro _ | split

theorem execTokenPkt_keeps {s0 : State} (c : ClusterId) (s : State) (hk : Keeps s0 s) : KeepsOut s0 (execTokenPkt c s) := by
  unfold execTokenPkt
  try dsimp only
  with_reducible repeat'
    first | assumption | apply KeepsOut.next | apply State.onArrival_keeps | apply State.ordered_keeps | intro _

theorem State.serveGet_keeps {s0 : State} (s : State) (i : Nat) (p : Pkt) (hk : Keeps s0 s) : Keeps s0 (State.serveGet s i p) := by
  unfold State.serveGet
  try dsimp only
  with_reducible repeat'
    first | assumption | apply State.startXfer_keeps | apply State.plateLoad_keeps | apply State.teFinish_keeps | apply State.noteSent_keeps
          | apply State.sendPkt_keeps | apply State.teRead_keeps | intro _ | apply Keeps.ite | split | dsimp only

theorem execGetPkt_keeps {s0 : State} (c : ClusterRead) (s : State) (hk : Keeps s0 s) : KeepsOut s0 (execGetPkt c s) := by
  unfold execGetPkt
  try dsimp only
  with_reducible repeat'
    first | assumption | apply KeepsOut.next | apply State.onArrival_keeps | apply State.serveGet_keeps | apply State.upset_keeps | intro _

theorem State.itemDone_keeps {s0 : State} (s : State) (i : Nat) (a : Agent) (x : Xfer) (status : Nat) (hk : Keeps s0 s) :
    Keeps s0 (State.itemDone s i a x status) := by
  unfold State.itemDone
  try dsimp only
  with_reducible repeat'
    first | assumption | apply State.teFinish_keeps | apply State.modSender_keeps | apply State.hostWriteDone_keeps | split

theorem State.ackIn_keeps {s0 : State} (s : State) (i : Nat) (a : Agent) (p : Pkt) (hk : Keeps s0 s) : Keeps s0 (State.ackIn s i a p) := by
  unfold State.ackIn
  try dsimp only
  with_reducible repeat'
    first | assumption | apply State.modSender_keeps | apply State.itemDone_keeps | apply State.pump_keeps | split

theorem execAck_keeps {s0 : State} (c : ClusterId) (s : State) (hk : Keeps s0 s) : KeepsOut s0 (execAck c s) := by
  unfold execAck
  try dsimp only
  with_reducible repeat'
    first | assumption | apply KeepsOut.next | apply State.onAnswer_keeps | apply State.itemDone_keeps | apply State.ackIn_keeps
          | apply State.pump_keeps | intro _ | apply KeepsOut.ite | apply Keeps.ite | split | dsimp only

theorem execCredit_keeps {s0 : State} (c : ClusterId) (s : State) (hk : Keeps s0 s) : KeepsOut s0 (execCredit c s) := by
  unfold execCredit
  try dsimp only
  with_reducible repeat'
    first | assumption | apply KeepsOut.next | apply State.onAnswer_keeps | apply State.modCluster_keeps | apply Keeps.foldl | intro _

theorem State.failEntry_keeps {s0 : State} (s : State) (i src dmod dy dx elem queue lost : Nat) (hk : Keeps s0 s) : Keeps s0 (State.failEntry s i src dmod dy dx elem queue lost) := by
  unfold State.failEntry
  try dsimp only
  with_reducible repeat'
    first | assumption | apply State.modCluster_keeps | apply Keeps.ite | split | dsimp only

theorem State.readFailed_keeps {s0 : State} (s : State) (i : Nat) (a : Agent) (x : Xfer) (st : Nat) (hk : Keeps s0 s) :
    Keeps s0 (State.readFailed s i a x st) := by
  unfold State.readFailed
  try dsimp only
  with_reducible repeat'
    first | assumption | apply State.modSender_keeps | apply State.modCluster_keeps | apply State.hostReadDone_keeps | split

theorem State.xferFailed_keeps {s0 : State} (s : State) (i : Nat) (a : Agent) (x : Xfer) (st : Nat) (hk : Keeps s0 s) :
    Keeps s0 (State.xferFailed s i a x st) := by
  unfold State.xferFailed
  try dsimp only
  with_reducible repeat'
    first | assumption | apply State.pump_keeps | apply State.modSender_keeps | apply State.itemDone_keeps

theorem State.nakIn_keeps {s0 : State} (s : State) (i : Nat) (a : Agent) (p : Pkt) (hk : Keeps s0 s) : Keeps s0 (State.nakIn s i a p) := by
  unfold State.nakIn
  try dsimp only
  with_reducible repeat'
    first | assumption | apply State.modCluster_keeps | apply State.readFailed_keeps | apply State.xferFailed_keeps | apply State.modSender_keeps
          | apply State.failEntry_keeps | apply State.hifEvent_keeps | apply State.itemDone_keeps | apply State.pump_keeps | apply Keeps.ite | split
          | dsimp only

theorem execNak_keeps {s0 : State} (c : ClusterId) (s : State) (hk : Keeps s0 s) : KeepsOut s0 (execNak c s) := by
  unfold execNak
  try dsimp only
  with_reducible repeat'
    first | assumption | apply KeepsOut.next | apply State.onAnswer_keeps | apply State.nakIn_keeps | intro _

theorem State.mcCheck_keeps {s0 : State} (s : State) (i : Nat) (p : Pkt) (hk : Keeps s0 s) : Keeps s0 (State.mcCheck s i p) := by
  unfold State.mcCheck
  try dsimp only
  with_reducible repeat'
    first | assumption | apply State.sendPkt_keeps | apply State.modCluster_keeps | apply State.asmFlushXfer_keeps | split

theorem execMdata_keeps {s0 : State} (c : ClusterId) (s : State) (hk : Keeps s0 s) : KeepsOut s0 (execMdata c s) := by
  unfold execMdata
  try dsimp only
  with_reducible repeat'
    first | assumption | apply KeepsOut.next | apply State.onArrival_keeps | apply State.asmPut_keeps | apply State.modCluster_keeps
          | apply State.mcCheck_keeps | intro _ | split

theorem execMfence_keeps {s0 : State} (c : ClusterId) (s : State) (hk : Keeps s0 s) : KeepsOut s0 (execMfence c s) := by
  unfold execMfence
  try dsimp only
  with_reducible repeat'
    first | assumption | apply KeepsOut.next | apply State.takeArrival_keeps | apply State.routerSend_keeps | apply State.mcCheck_keeps
          | apply State.modCluster_keeps | split | refine KeepsOpt2.get ‹_ = some _› ?_

theorem State.mcDone_keeps {s0 : State} (s : State) (i : Nat) (x : Xfer) (hk : Keeps s0 s) : Keeps s0 (State.mcDone s i x) := by
  unfold State.mcDone
  try dsimp only
  with_reducible repeat'
    first | assumption | apply State.teFinish_keeps | apply State.modCluster_keeps | apply Keeps.foldl | intro _ | split

theorem execMack_keeps {s0 : State} (c : ClusterId) (s : State) (hk : Keeps s0 s) : KeepsOut s0 (execMack c s) := by
  unfold execMack
  try dsimp only
  with_reducible repeat'
    first | assumption | apply KeepsOut.next | apply State.modSender_keeps | apply State.onAnswer_keeps | apply State.mcDone_keeps
          | apply State.pump_keeps | intro _ | apply KeepsOut.ite | apply Keeps.ite | split | dsimp only

theorem execPoolGapTimeout_keeps {s0 : State} (c : ClusterId) (i : Nat) (s : State) (hk : Keeps s0 s) : KeepsOut s0 (execPoolGapTimeout c i s) := by
  unfold execPoolGapTimeout
  try dsimp only
  with_reducible repeat'
    first | assumption | apply KeepsOut.next | apply State.hifEvent_keeps | apply State.failure_keeps | apply State.loseStream_keeps | split

theorem execTrackedItemTimeout_keeps {s0 : State} (c : ClusterId) (agent : Agent) (i : Nat) (s : State) (hk : Keeps s0 s) :
    KeepsOut s0 (execTrackedItemTimeout c agent i s) := by
  unfold execTrackedItemTimeout
  try dsimp only
  with_reducible repeat'
    first | assumption | apply KeepsOut.next | apply State.hifEvent_keeps | apply State.failure_keeps | apply State.modCluster_keeps
          | apply State.readFailed_keeps | apply State.itemDone_keeps | apply State.xferFailed_keeps | split

theorem execAckDelayTimeout_keeps {s0 : State} (c : ClusterId) (i : Nat) (s : State) (hk : Keeps s0 s) : KeepsOut s0 (execAckDelayTimeout c i s)
    := by
  unfold execAckDelayTimeout
  try dsimp only
  with_reducible repeat'
    first | assumption | apply KeepsOut.next | apply State.ackStream_keeps | split

/-! ## Cycles -/

theorem State.teCycles_keeps {s0 : State} (s : State) (i cclk tclk : Nat) (hk : Keeps s0 s) : Keeps s0 (State.teCycles s i cclk tclk) := by
  unfold State.teCycles
  try dsimp only
  with_reducible repeat'
    first | assumption | apply State.setCluster_keeps

theorem State.npCycles_keeps {s0 : State} (s : State) (i n : Nat) (hk : Keeps s0 s) : Keeps s0 (State.npCycles s i n) := by
  unfold State.npCycles
  with_reducible repeat'
    first | assumption | apply State.modCluster_keeps

theorem State.clusterCycles_keeps {s0 : State} (s : State) (i aclk cclk tclk : Nat) (hk : Keeps s0 s) :
    Keeps s0 (State.clusterCycles s i aclk cclk tclk) := by
  unfold State.clusterCycles
  try dsimp only
  with_reducible repeat'
    first | assumption | apply State.modCluster_keeps | apply State.teCycles_keeps | apply State.npCycles_keeps | apply Keeps.foldl | intro _ | split

theorem execAlmanacDebit_keeps {s0 : State} (r : RegionId) (aclk cclk tclk : Nat) (s : State) (hk : Keeps s0 s) :
    KeepsOut s0 (execAlmanacDebit r aclk cclk tclk s) := by
  unfold execAlmanacDebit
  try dsimp only
  with_reducible repeat'
    first | assumption | apply KeepsOut.next | apply State.clusterCycles_keeps | apply State.holdCompare_keeps | apply State.setRegion_keeps
          | apply Keeps.foldl | intro _ | split

/-! ## Fabric -/

theorem State.ingress_keeps {s0 : State} (s : State) (p : Nat) (l : LinkPkt) (hk : Keeps s0 s) : KeepsOpt s0 (State.ingress s p l) := by
  unfold State.ingress
  try dsimp only
  with_reducible repeat'
    first | assumption | exact KeepsOpt.none | apply KeepsOpt.some | apply State.debit_keeps | apply State.routerInject_keeps
          | apply State.portUnreach_keeps | apply State.egress_keeps | apply State.modPort_keeps | split

theorem State.drainPair_keeps {s0 : State} (s : State) (p pair n : Nat) (hk : Keeps s0 s) : Keeps s0 ((State.drainPair s p pair n)) := by
  induction n generalizing s with
  | zero => exact hk
  | succ f ih =>
    unfold State.drainPair
    split
    · exact hk
    · split
      · next t e => apply ih; exact KeepsOpt.get e (State.ingress_keeps _ _ _ (by with_reducible apply State.modPort_keeps; exact hk))
      · exact hk

theorem State.drainIngress_keeps {s0 : State} (s : State) (p : Nat) (hk : Keeps s0 s) : Keeps s0 (State.drainIngress s p) := by
  unfold State.drainIngress
  try dsimp only
  with_reducible repeat'
    first | assumption | apply State.drainPair_keeps | apply State.modPort_keeps | apply Keeps.foldl | intro _ | split

theorem State.arrive_keeps {s0 : State} (s : State) (p : Nat) (l : LinkPkt) (hk : Keeps s0 s) : Keeps s0 (State.arrive s p l) := by
  unfold State.arrive
  try dsimp only
  with_reducible repeat'
    first | assumption | apply State.modPort_keeps | split

theorem State.portDown_keeps {s0 : State} (s : State) (p cause : Nat) (hk : Keeps s0 s) : Keeps s0 (State.portDown s p cause) := by
  unfold State.portDown
  try dsimp only
  with_reducible repeat'
    first | assumption | apply State.drainIngress_keeps | apply State.portFail_keeps | apply State.reinject_keeps | apply State.modPort_keeps
          | apply Keeps.foldl | intro _ | apply Keeps.ite | split | dsimp only

theorem State.upDown_keeps {s0 : State} (s : State) (p cause : Nat) (hk : Keeps s0 s) : Keeps s0 (State.upDown s p cause) := by
  unfold State.upDown
  try dsimp only
  with_reducible repeat'
    first | assumption | apply State.portDown_keeps | split

theorem execLightLoss_keeps {s0 : State} (p : PortId) (s : State) (hk : Keeps s0 s) : KeepsOut s0 (execLightLoss p s) := by
  unfold execLightLoss
  try dsimp only
  with_reducible repeat'
    first | assumption | apply KeepsOut.next | apply State.upDown_keeps

theorem execFecLockLoss_keeps {s0 : State} (p : PortId) (s : State) (hk : Keeps s0 s) : KeepsOut s0 (execFecLockLoss p s) := by
  unfold execFecLockLoss
  try dsimp only
  with_reducible repeat'
    first | assumption | apply KeepsOut.next | apply State.upDown_keeps

theorem execAckTimeout_keeps {s0 : State} (p : PortId) (s : State) (hk : Keeps s0 s) : KeepsOut s0 (execAckTimeout p s) := by
  unfold execAckTimeout
  try dsimp only
  with_reducible repeat'
    first | assumption | apply KeepsOut.next | apply State.upDown_keeps | split

theorem State.frameHead_keeps {s0 : State} (s : State) (p : Nat) (h : FrameHdr) (hk : Keeps s0 s) : Keeps s0 (State.frameHead s p h) := by
  unfold State.frameHead
  try dsimp only
  with_reducible repeat'
    first | assumption | apply State.modPort_keeps | apply State.upDown_keeps | split

theorem State.fec_keeps {s0 : State} (s : State) (p : Nat) (h : FrameHdr) (hk : Keeps s0 s) : Keeps s0 (State.fec s p h) := by
  unfold State.fec
  try dsimp only
  with_reducible repeat'
    first | assumption | apply State.modPort_keeps

theorem State.takeFrame_keeps {s0 : State} (s : State) (p : Nat) (h : FrameHdr) (hk : Keeps s0 s) : Keeps s0 (State.takeFrame s p h).1 := by
  unfold State.takeFrame
  try dsimp only
  with_reducible repeat'
    first | assumption | apply State.frameHead_keeps | apply State.modPort_keeps | apply State.fec_keeps | apply Keeps.ite | split | dsimp only

theorem execZlDataFrame_keeps {s0 : State} (p : PortId) (hdr : FrameHdr) (pkts : List LinkPkt) (s : State) (hk : Keeps s0 s) :
    KeepsOut s0 (execZlDataFrame p hdr pkts s) := by
  unfold execZlDataFrame
  try dsimp only
  with_reducible repeat'
    first | assumption | apply KeepsOut.next | apply State.takeFrame_keeps | apply State.drainIngress_keeps | apply State.arrive_keeps
          | apply State.modPort_keeps | apply Keeps.foldl | intro _ | split

theorem execZlFinderFrame_keeps {s0 : State} (p : PortId) (hdr : FrameHdr) (body : FrameBody) (s : State) (hk : Keeps s0 s) :
    KeepsOut s0 (execZlFinderFrame p hdr body s) := by
  unfold execZlFinderFrame
  try dsimp only
  with_reducible repeat'
    first | assumption | apply KeepsOut.next | apply State.takeFrame_keeps | apply State.takeRecord_keeps | apply State.sendCol_keeps | split

theorem execZlIdleFrame_keeps {s0 : State} (p : PortId) (hdr : FrameHdr) (s : State) (hk : Keeps s0 s) : KeepsOut s0 (execZlIdleFrame p hdr s) := by
  unfold execZlIdleFrame
  try dsimp only
  with_reducible repeat'
    first | assumption | apply KeepsOut.next | apply State.frameHead_keeps | apply State.modPort_keeps | apply State.fec_keeps | apply KeepsOut.ite
          | apply Keeps.ite | split | dsimp only

theorem execNakreqRepeat_keeps {s0 : State} (p : PortId) (s : State) (hk : Keeps s0 s) : KeepsOut s0 (execNakreqRepeat p s) := by
  unfold execNakreqRepeat
  try dsimp only
  with_reducible repeat'
    first | assumption | apply KeepsOut.next | apply State.modPort_keeps

theorem State.sendFrame_keeps {s0 : State} (s : State) (p fseq : Nat) (body : Option FrameBody) (hk : Keeps s0 s) :
    Keeps s0 (State.sendFrame s p fseq body) := by
  unfold State.sendFrame
  try dsimp only
  with_reducible repeat'
    first | assumption | apply State.emit_keeps | apply State.setPort_keeps

theorem State.sendNew_keeps {s0 : State} (s : State) (p : Nat) (body : FrameBody) (hk : Keeps s0 s) : Keeps s0 (State.sendNew s p body) := by
  unfold State.sendNew
  try dsimp only
  with_reducible repeat'
    first | assumption | apply State.sendFrame_keeps | apply State.modPort_keeps

theorem State.sendColumn_keeps {s0 : State} (s : State) (p kind : Nat) (vals : List Nat) (hk : Keeps s0 s) : Keeps s0 (State.sendColumn s p kind vals) := by
  unfold State.sendColumn
  try dsimp only
  with_reducible repeat'
    first | assumption | apply State.modPort_keeps | apply State.emit_keeps | apply Keeps.ite | split | dsimp only

theorem State.sendNext_keeps {s0 : State} (s : State) (p : Nat) (hk : Keeps s0 s) : Keeps s0 (State.sendNext s p) := by
  unfold State.sendNext
  try dsimp only
  with_reducible repeat'
    first | assumption | apply State.sendFrame_keeps | apply State.setPort_keeps | apply State.sendNew_keeps | apply State.drainIngress_keeps
          | apply State.sendColumn_keeps | split

theorem execZlColumnSend_keeps {s0 : State} (p : PortId) (s : State) (hk : Keeps s0 s) : KeepsOut s0 (execZlColumnSend p s) := by
  unfold execZlColumnSend
  try dsimp only
  with_reducible repeat'
    first | assumption | apply KeepsOut.next | apply State.sendColumn_keeps | apply State.sendNext_keeps | apply State.modPort_keeps
          | apply KeepsOut.ite | apply Keeps.ite | split | dsimp only | refine Keeps.mkState (hp := rfl) ?_ ?_ ?_ ?_
  all_goals (try rfl)

theorem execZlIdleColumn_keeps {s0 : State} (_p : PortId) (s : State) (hk : Keeps s0 s) : KeepsOut s0 (execZlIdleColumn _p s) := by
  unfold execZlIdleColumn
  try dsimp only
  with_reducible repeat'
    first | assumption | apply KeepsOut.next

theorem execZlTickColumn_keeps {s0 : State} (p : PortId) (num period arrival : Nat) (s : State) (hk : Keeps s0 s) :
    KeepsOut s0 (execZlTickColumn p num period arrival s) := by
  unfold execZlTickColumn
  try dsimp only
  with_reducible repeat'
    first | assumption | apply KeepsOut.next | apply State.modPort_keeps | apply State.emit_keeps | split

theorem execZlAlignColumn_keeps {s0 : State} (p : PortId) (lanes : W32) (s : State) (hk : Keeps s0 s) : KeepsOut s0 (execZlAlignColumn p lanes s)
    := by
  unfold execZlAlignColumn
  try dsimp only
  with_reducible repeat'
    first | assumption | apply KeepsOut.next | apply State.setPort_keeps | split

theorem State.goUp_keeps {s0 : State} (s : State) (p : Nat) (narrow high : Bool) (hk : Keeps s0 s) : Keeps s0 (State.goUp s p narrow high) := by
  unfold State.goUp
  try dsimp only
  with_reducible repeat'
    first | assumption | apply State.portChanged_keeps | apply State.hifEvent_keeps | apply State.setPort_keeps

theorem execZlTrainColumn_keeps {s0 : State} (p : PortId) (peer : TrainParams) (s : State) (hk : Keeps s0 s) :
    KeepsOut s0 (execZlTrainColumn p peer s) := by
  unfold execZlTrainColumn
  try dsimp only
  with_reducible repeat'
    first | assumption | apply KeepsOut.next | apply State.setPort_keeps | apply State.portDown_keeps | apply State.goUp_keeps | split

theorem State.portTry_keeps {s0 : State} (s : State) (p : Nat) (hk : Keeps s0 s) : Keeps s0 (State.portTry s p) := by
  unfold State.portTry
  try dsimp only
  with_reducible repeat'
    first | assumption | apply State.setPort_keeps | split

theorem execLightReceived_keeps {s0 : State} (p : PortId) (lanes : W32) (s : State) (hk : Keeps s0 s) : KeepsOut s0 (execLightReceived p lanes s)
    := by
  unfold execLightReceived
  try dsimp only
  with_reducible repeat'
    first | assumption | apply KeepsOut.next | apply State.setPort_keeps | split

theorem execLockAchieved_keeps {s0 : State} (p : PortId) (lanes : W32) (s : State) (hk : Keeps s0 s) : KeepsOut s0 (execLockAchieved p lanes s)
    := by
  unfold execLockAchieved
  try dsimp only
  with_reducible repeat'
    first | assumption | apply KeepsOut.next | apply State.setPort_keeps | split

theorem execLockTimeout_keeps {s0 : State} (p : PortId) (s : State) (hk : Keeps s0 s) : KeepsOut s0 (execLockTimeout p s) := by
  unfold execLockTimeout
  try dsimp only
  with_reducible repeat'
    first | assumption | apply KeepsOut.next | apply State.setPort_keeps | split

theorem execAlignTimeout_keeps {s0 : State} (p : PortId) (s : State) (hk : Keeps s0 s) : KeepsOut s0 (execAlignTimeout p s) := by
  unfold execAlignTimeout
  try dsimp only
  with_reducible repeat'
    first | assumption | apply KeepsOut.next | apply State.setPort_keeps | split

theorem execParamTimeout_keeps {s0 : State} (p : PortId) (s : State) (hk : Keeps s0 s) : KeepsOut s0 (execParamTimeout p s) := by
  unfold execParamTimeout
  try dsimp only
  with_reducible repeat'
    first | assumption | apply KeepsOut.next | apply State.portDown_keeps | split

theorem execDownRetrain_keeps {s0 : State} (p : PortId) (s : State) (hk : Keeps s0 s) : KeepsOut s0 (execDownRetrain p s) := by
  unfold execDownRetrain
  try dsimp only
  with_reducible repeat'
    first | assumption | apply KeepsOut.next | apply State.setPort_keeps | split

theorem execZlEnable_keeps {s0 : State} (p : PortId) (s : State) (hk : Keeps s0 s) : KeepsOut s0 (execZlEnable p s) := by
  unfold execZlEnable
  try dsimp only
  with_reducible repeat'
    first | assumption | apply KeepsOut.next | apply State.portTry_keeps | apply State.modPort_keeps

theorem execZlDisable_keeps {s0 : State} (p : PortId) (s : State) (hk : Keeps s0 s) : KeepsOut s0 (execZlDisable p s) := by
  unfold execZlDisable
  try dsimp only
  with_reducible repeat'
    first | assumption | apply KeepsOut.next | apply State.upDown_keeps | apply State.modPort_keeps | apply State.drainIngress_keeps

theorem execZlRetrain_keeps {s0 : State} (p : PortId) (s : State) (hk : Keeps s0 s) : KeepsOut s0 (execZlRetrain p s) := by
  unfold execZlRetrain
  try dsimp only
  with_reducible repeat'
    first | assumption | apply KeepsOut.next | apply State.portDown_keeps

theorem execZlCredWrite_keeps {s0 : State} (p : PortId) (pair : Fin 2) (v : W32) (s : State) (hk : Keeps s0 s) : KeepsOut s0 (execZlCredWrite p pair v s) := by
  unfold execZlCredWrite
  try dsimp only
  with_reducible repeat'
    first | assumption | apply KeepsOut.next | apply State.modPort_keeps | apply State.portTry_keeps | apply KeepsOut.ite | apply Keeps.ite | split
          | dsimp only

theorem State.portTickRead_keeps {s0 : State} (p : Nat) (s : State) (hk : Keeps s0 s) : Keeps s0 (State.portTickRead p s).2 := by
  unfold State.portTickRead
  try dsimp only
  with_reducible repeat'
    first | assumption | apply State.modPort_keeps | apply State.tick_keeps

theorem execZlTickRead_keeps {s0 : State} (p : PortId) (s : State) (hk : Keeps s0 s) : KeepsOut s0 (execZlTickRead p s) := by
  unfold execZlTickRead
  try dsimp only
  with_reducible repeat'
    first | assumption | apply KeepsOut.next | apply State.portTickRead_keeps | apply State.bar0Read_keeps

theorem State.setCart_keeps {s0 : State} (s : State) (k st power : Nat) (hk : Keeps s0 s) : Keeps s0 (State.setCart s k st power) := by
  unfold State.setCart
  try dsimp only
  with_reducible repeat'
    first | assumption | apply State.setDome_keeps

theorem execCartridgeRemove_keeps {s0 : State} (k : Fin 16) (s : State) (hk : Keeps s0 s) : KeepsOut s0 (execCartridgeRemove k s) := by
  unfold execCartridgeRemove
  try dsimp only
  with_reducible repeat'
    first | assumption | apply KeepsOut.next | apply State.portDown_keeps | apply State.setCart_keeps | apply Keeps.foldl | intro _

theorem execCartridgeInsert_keeps {s0 : State} (k : Fin 16) (power : Nat) (s : State) (hk : Keeps s0 s) :
    KeepsOut s0 (execCartridgeInsert k power s) := by
  unfold execCartridgeInsert
  try dsimp only
  with_reducible repeat'
    first | assumption | apply KeepsOut.next | apply State.portTry_keeps | apply State.setCart_keeps | apply Keeps.foldl

theorem execCartridgeLow_keeps {s0 : State} (k : Fin 16) (faulted : Bool) (power : Nat) (s : State) (hk : Keeps s0 s) :
    KeepsOut s0 (execCartridgeLow k faulted power s) := by
  unfold execCartridgeLow
  try dsimp only
  with_reducible repeat'
    first | assumption | apply KeepsOut.next | apply State.portTry_keeps | apply State.setCart_keeps | apply Keeps.foldl | intro _ | split

end Sys2Proof.Machine
end

