-- ==== Sys2Proof/Laws/KeepsRegions.lean ====
section
/-! SUPPORT. What the operations of the tick, the faults, collimation and the ephemerides keep, whatever their arguments: one lemma per operation and command, for the statements about every step. -/

namespace Sys2Proof.Machine

/-! ## Drain -/

theorem State.eachCluster_keeps {s0 : State} (s : State) (r : Nat) (f : Cluster → Cluster) (hk : Keeps s0 s) : Keeps s0 (State.eachCluster s r f)
    := by
  unfold State.eachCluster
  try dsimp only
  with_reducible repeat'
    first | assumption | apply State.modCluster_keeps | apply Keeps.foldl | intro _

theorem State.drainStart_keeps {s0 : State} (s : State) (r : Nat) (hk : Keeps s0 s) : Keeps s0 (State.drainStart s r) := by
  unfold State.drainStart
  try dsimp only
  with_reducible repeat'
    first | assumption | apply State.eachCluster_keeps | apply State.setRegion_keeps | split

theorem execDrainAtExpiry_keeps {s0 : State} (r : RegionId) (s : State) (hk : Keeps s0 s) : KeepsOut s0 (execDrainAtExpiry r s) := by
  unfold execDrainAtExpiry
  try dsimp only
  with_reducible repeat'
    first | assumption | apply KeepsOut.next | apply State.drainStart_keeps | split

theorem execSourcesIdle_keeps {s0 : State} (r : RegionId) (s : State) (hk : Keeps s0 s) : KeepsOut s0 (execSourcesIdle r s) := by
  unfold execSourcesIdle
  try dsimp only
  with_reducible repeat'
    first | assumption | apply KeepsOut.next | apply State.drainStart_keeps | split

theorem execDrainReq_keeps {s0 : State} (r : RegionId) (s : State) (hk : Keeps s0 s) : KeepsOut s0 (execDrainReq r s) := by
  unfold execDrainReq
  try dsimp only
  with_reducible repeat'
    first | assumption | apply KeepsOut.next | apply State.drainStart_keeps | split

theorem State.freezeBucket_keeps {s0 : State} (s : State) (r : Nat) (hk : Keeps s0 s) : Keeps s0 (State.freezeBucket s r) := by
  unfold State.freezeBucket
  try dsimp only
  with_reducible repeat'
    first | assumption | apply State.modRegion_keeps | split

theorem State.slotFinished_keeps {s0 : State} (s : State) (r cclk : Nat) (hk : Keeps s0 s) : Keeps s0 (State.slotFinished s r cclk) := by
  unfold State.slotFinished
  try dsimp only
  with_reducible repeat'
    first | assumption | apply State.freezeBucket_keeps | apply State.setRegion_keeps | apply State.eachCluster_keeps

theorem execRegionDrained_keeps {s0 : State} (r : RegionId) (cclk : Nat) (s : State) (hk : Keeps s0 s) : KeepsOut s0 (execRegionDrained r cclk s)
    := by
  unfold execRegionDrained
  try dsimp only
  with_reducible repeat'
    first | assumption | apply KeepsOut.next | apply State.slotFinished_keeps | apply State.setRegion_keeps | split

theorem State.drainFault_keeps {s0 : State} (s : State) (r : Nat) (hk : Keeps s0 s) : Keeps s0 (State.drainFault s r) := by
  unfold State.drainFault
  try dsimp only
  with_reducible repeat'
    first | assumption | apply State.regionFailure_keeps | apply State.modRegion_keeps

theorem execDrainTimeout_keeps {s0 : State} (r : RegionId) (s : State) (hk : Keeps s0 s) : KeepsOut s0 (execDrainTimeout r s) := by
  unfold execDrainTimeout
  try dsimp only
  with_reducible repeat'
    first | assumption | apply KeepsOut.next | apply State.drainFault_keeps | split

theorem execDaccApply_keeps {s0 : State} (c : ClusterRead) (s : State) (hk : Keeps s0 s) : KeepsOut s0 (execDaccApply c s) := by
  unfold execDaccApply
  try dsimp only
  with_reducible repeat'
    first | assumption | apply KeepsOut.next | apply State.applyStaging_keeps | apply State.upset_keeps | apply KeepsOut.ite | apply Keeps.ite | split
          | dsimp only

theorem State.queueRecord_keeps {s0 : State} (s : State) (q : Nat) (c : CqRec) (hk : Keeps s0 s) : Keeps s0 (State.queueRecord s q c) := by
  unfold State.queueRecord
  try dsimp only
  with_reducible repeat'
    first | assumption | apply State.modHostQ_keeps | split

theorem State.ephCheck_keeps {s0 : State} (s : State) (e : Nat) (hk : Keeps s0 s) : Keeps s0 (State.ephCheck s e) := by
  unfold State.ephCheck
  try dsimp only
  with_reducible repeat'
    first | assumption | apply State.setDome_keeps | apply Keeps.modDome | apply Keeps.modHost | apply State.queueRecord_keeps | split
  all_goals rfl

theorem State.ephSweep_keeps {s0 : State} (s : State) (hk : Keeps s0 s) : Keeps s0 (State.ephSweep s) := by
  unfold State.ephSweep
  try dsimp only
  with_reducible repeat'
    first | assumption | apply State.ephCheck_keeps | apply Keeps.foldl

theorem State.freeRegion_keeps {s0 : State} (s : State) (r : Nat) (hk : Keeps s0 s) : Keeps s0 (State.freeRegion s r) := by
  unfold State.freeRegion
  try dsimp only
  with_reducible repeat'
    first | assumption | apply State.freezeBucket_keeps | apply State.setRegion_keeps

theorem State.endWith_keeps {s0 : State} (s : State) (r status : Nat) (hk : Keeps s0 s) : Keeps s0 (State.endWith s r status) := by
  unfold State.endWith
  try dsimp only
  with_reducible repeat'
    first | assumption | apply Keeps.modDome | split
  all_goals rfl

theorem State.force_keeps {s0 : State} (s : State) (r : Nat) (hk : Keeps s0 s) : Keeps s0 (State.force s r) := by
  unfold State.force
  try dsimp only
  with_reducible repeat'
    first | assumption | apply State.setRegion_keeps | apply State.endWith_keeps | apply State.modCluster_keeps | apply Keeps.foldl | intro _
          | split

theorem execForcedReplacement_keeps {s0 : State} (r : RegionId) (s : State) (hk : Keeps s0 s) : KeepsOut s0 (execForcedReplacement r s) := by
  unfold execForcedReplacement
  try dsimp only
  with_reducible repeat'
    first | assumption | apply KeepsOut.next | apply State.force_keeps | split

theorem State.forceWrite_keeps {s0 : State} (s : State) (r : Nat) (hk : Keeps s0 s) : Keeps s0 (State.forceWrite s r) := by
  unfold State.forceWrite
  try dsimp only
  with_reducible repeat'
    first | assumption | apply State.modRegion_keeps | apply State.force_keeps | split

theorem State.forceEph_keeps {s0 : State} (s : State) (e : Nat) (hk : Keeps s0 s) : Keeps s0 (State.forceEph s e) := by
  unfold State.forceEph
  try dsimp only
  with_reducible repeat'
    first | assumption | apply State.forceWrite_keeps | apply Keeps.foldl | intro _ | apply Keeps.ite | split | dsimp only

theorem execTckEphForce_keeps {s0 : State} (v : W32) (s : State) (hk : Keeps s0 s) : KeepsOut s0 (execTckEphForce v s) := by
  unfold execTckEphForce
  try dsimp only
  with_reducible repeat'
    first | assumption | apply KeepsOut.next | apply State.ephSweep_keeps | apply State.forceEph_keeps | apply Keeps.foldl | intro _ | split

theorem execForcedEmpty_keeps {s0 : State} (r : RegionId) (s : State) (hk : Keeps s0 s) : KeepsOut s0 (execForcedEmpty r s) := by
  unfold execForcedEmpty
  try dsimp only
  with_reducible repeat'
    first | assumption | apply KeepsOut.next | apply State.ephSweep_keeps | apply State.freeRegion_keeps | split

theorem execForcedTimeout_keeps {s0 : State} (r : RegionId) (s : State) (hk : Keeps s0 s) : KeepsOut s0 (execForcedTimeout r s) := by
  unfold execForcedTimeout
  try dsimp only
  with_reducible repeat'
    first | assumption | apply KeepsOut.next | apply State.ephSweep_keeps | apply State.modRegion_keeps | apply State.drainFault_keeps | split

/-! ## Tick -/

theorem State.overrun_keeps {s0 : State} (s : State) (r : Nat) (hk : Keeps s0 s) : Keeps s0 (State.overrun s r) := by
  unfold State.overrun
  try dsimp only
  with_reducible repeat'
    first | assumption | apply State.hifEvent_keeps | apply State.setRegion_keeps | apply State.regionFailure_keeps | apply State.modRegion_keeps
          | split

theorem State.swapCluster_keeps {s0 : State} (s : State) (i row ep : Nat) (hk : Keeps s0 s) : Keeps s0 (State.swapCluster s i row ep) := by
  unfold State.swapCluster
  extract_lets r s1
  have hr : Keeps s0 r.2.2 := Keeps.foldlOf (fun b : List (List Byte) × Bool × State => b.2.2) hk _ _ fun _ _ h => State.memRead_keeps _ _ _ _ _ h
  have h1 : Keeps s0 s1 := State.modCluster_keeps _ _ _ hr
  refine Keeps.ite ?_ h1
  exact State.clusterFailure_keeps _ _ _ _ (State.modRegion_keeps _ _ _ h1)

theorem State.swap_keeps {s0 : State} (s : State) (r n : Nat) (hk : Keeps s0 s) : Keeps s0 (State.swap s r n) := by
  unfold State.swap
  try dsimp only
  with_reducible repeat'
    first | assumption | apply State.modRegion_keeps | apply State.swapCluster_keeps | apply Keeps.foldl | intro _

theorem State.feed_keeps {s0 : State} (s : State) (r : Nat) (e : Slot) (hk : Keeps s0 s) : Keeps s0 (State.feed s r e) := by
  unfold State.feed
  try dsimp only
  with_reducible repeat'
    first | assumption | apply State.modCluster_keeps | apply Keeps.foldl | intro _

theorem State.launch_keeps {s0 : State} (s : State) (r : Nat) (e : Slot) (hk : Keeps s0 s) : Keeps s0 (State.launch s r e) := by
  unfold State.launch
  try dsimp only
  with_reducible repeat'
    first | assumption | apply State.swap_keeps | apply State.feed_keeps | split

theorem State.swapDue_keeps {s0 : State} (s : State) (r : Nat) (e : Slot) (hk : Keeps s0 s) : Keeps s0 (State.swapDue s r e) := by
  unfold State.swapDue
  try dsimp only
  with_reducible repeat'
    first | assumption | apply State.modRegion_keeps | apply State.swap_keeps | split

theorem State.clocksOn_keeps {s0 : State} (s : State) (r : Nat) (hk : Keeps s0 s) : Keeps s0 (State.clocksOn s r) := by
  unfold State.clocksOn
  try dsimp only
  with_reducible repeat'
    first | assumption | apply State.setRegion_keeps | apply State.launch_keeps | apply State.swap_keeps | apply Keeps.foldl | intro _ | split

theorem State.begin_keeps {s0 : State} (s : State) (r v idx : Nat) (e : Slot) (hk : Keeps s0 s) : Keeps s0 (State.begin s r v idx e) := by
  unfold State.begin
  try dsimp only
  with_reducible repeat'
    first | assumption | apply State.freezeBucket_keeps | apply State.eachCluster_keeps | apply State.setRegion_keeps | apply State.modRegion_keeps
          | apply State.swapDue_keeps | apply State.launch_keeps | intro _ | apply Keeps.ite | split | dsimp only

theorem State.due_keeps {s0 : State} (r : Nat) (lead : Bool) (n : Nat) (s : State) (hk : Keeps s0 s) : Keeps s0 (State.due r lead n s).2 := by
  induction n generalizing s with
  | zero => exact hk
  | succ f ih =>
    unfold State.due
    try dsimp only
    repeat' first | with_reducible assumption | with_reducible apply ih | with_reducible apply State.swapDue_keeps | with_reducible apply State.modRegion_keeps | split

theorem State.unpark_keeps {s0 : State} (s : State) (r : Nat) (hk : Keeps s0 s) : Keeps s0 (State.unpark s r) := by
  unfold State.unpark
  try dsimp only
  with_reducible repeat'
    first | assumption | apply State.drainStart_keeps | apply State.setRegion_keeps | apply State.clocksOn_keeps | apply Keeps.ite | split
          | dsimp only

theorem State.budgetTick_keeps {s0 : State} (s : State) (r b : Nat) (hk : Keeps s0 s) : Keeps s0 (State.budgetTick s r b) := by
  unfold State.budgetTick
  try dsimp only
  with_reducible repeat'
    first | assumption | apply State.unpark_keeps | apply State.modRegion_keeps

theorem State.idleTick_keeps {s0 : State} (s : State) (r : Nat) (hk : Keeps s0 s) : Keeps s0 (State.idleTick s r) := by
  unfold State.idleTick
  try dsimp only
  with_reducible repeat'
    first | assumption | apply State.unpark_keeps | apply State.modRegion_keeps

theorem State.heldTick_keeps {s0 : State} (s : State) (r : Nat) (e : Slot) (hk : Keeps s0 s) : Keeps s0 (State.heldTick s r e) := by
  unfold State.heldTick
  try dsimp only
  with_reducible repeat'
    first | assumption | apply State.budgetTick_keeps | apply State.idleTick_keeps | split

theorem State.schedTick_keeps {s0 : State} (s : State) (r : Nat) (lead counted : Bool) (hk : Keeps s0 s) :
    Keeps s0 (State.schedTick s r lead counted) := by
  unfold State.schedTick
  try dsimp only
  with_reducible repeat'
    first | assumption | apply State.budgetTick_keeps | apply State.overrun_keeps | apply State.ephSweep_keeps | apply State.idleTick_keeps
          | apply State.freeRegion_keeps | apply State.due_keeps | apply State.heldTick_keeps | apply State.modRegion_keeps
          | apply State.begin_keeps | split

theorem State.latchTick_keeps {s0 : State} (s : State) (r energy : Nat) (hk : Keeps s0 s) : Keeps s0 (State.latchTick s r energy) := by
  unfold State.latchTick
  try dsimp only
  with_reducible repeat'
    first | assumption | apply State.modRegion_keeps | apply State.eachCluster_keeps | apply State.modPort_keeps | apply Keeps.foldl | intro _

theorem State.drift_keeps {s0 : State} (s : State) (r : Nat) (hk : Keeps s0 s) : Keeps s0 (State.drift s r) := by
  unfold State.drift
  try dsimp only
  with_reducible repeat'
    first | assumption | apply State.hifEvent_keeps | apply State.setRegion_keeps | split

theorem State.tick_keeps {s0 : State} (s : State) (r num : Nat) (obs : TickObs) (counted : Bool) (hk : Keeps s0 s) :
    Keeps s0 (State.tick s r num obs counted) := by
  unfold State.tick
  try dsimp only
  with_reducible repeat'
    first | assumption | apply State.drift_keeps | apply State.latchTick_keeps | apply State.modRegion_keeps | apply State.schedTick_keeps
          | apply State.holdCompare_keeps

theorem State.resync_keeps {s0 : State} (s : State) (r : Nat) (obs : TickObs) (hk : Keeps s0 s) : Keeps s0 (State.resync s r obs) := by
  unfold State.resync
  try dsimp only
  with_reducible repeat'
    first | assumption | apply State.hifEvent_keeps | apply State.modRegion_keeps | apply State.tick_keeps | apply State.overrun_keeps | split

theorem execMarkerDecode_keeps {s0 : State} (r : RegionId) (high : HighTime) (periods : Nat) (obs : TickObs) (s : State) (hk : Keeps s0 s) :
    KeepsOut s0 (execMarkerDecode r high periods obs s) := by
  unfold execMarkerDecode
  try dsimp only
  with_reducible repeat'
    first | assumption | apply KeepsOut.next | apply State.setRegion_keeps | apply State.resync_keeps | split

theorem execTickInstant_keeps {s0 : State} (r : RegionId) (obs : TickObs) (s : State) (hk : Keeps s0 s) : KeepsOut s0 (execTickInstant r obs s)
    := by
  unfold execTickInstant
  try dsimp only
  with_reducible repeat'
    first | assumption | apply KeepsOut.next | apply State.tick_keeps | apply State.setRegion_keeps | split

theorem execLocalTick_keeps {s0 : State} (r : RegionId) (obs : TickObs) (s : State) (hk : Keeps s0 s) : KeepsOut s0 (execLocalTick r obs s) := by
  unfold execLocalTick
  try dsimp only
  with_reducible repeat'
    first | assumption | apply KeepsOut.next | apply State.tick_keeps | apply State.setRegion_keeps | split

theorem execRelockLock_keeps {s0 : State} (r : RegionId) (ns : Nat) (s : State) (hk : Keeps s0 s) : KeepsOut s0 (execRelockLock r ns s) := by
  unfold execRelockLock
  try dsimp only
  with_reducible repeat'
    first | assumption | apply KeepsOut.next | apply State.holdCompare_keeps | apply State.setRegion_keeps | apply State.modRegion_keeps
          | apply State.clocksOn_keeps | apply KeepsOut.ite | apply Keeps.ite | split | dsimp only

theorem State.chronoGather_keeps {s0 : State} (s : State) (hk : Keeps s0 s) : Keeps s0 (State.chronoGather s) := by
  unfold State.chronoGather
  try dsimp only
  with_reducible repeat'
    first | assumption | apply Keeps.modDome | apply State.setDome_keeps | apply Keeps.foldl | intro _ | split
  all_goals rfl

theorem execRootTick_keeps {s0 : State} (ptm volt cur energy : Nat) (s : State) (hk : Keeps s0 s) : KeepsOut s0 (execRootTick ptm volt cur energy s)
    := by
  unfold execRootTick
  try dsimp only
  with_reducible repeat'
    first | assumption | apply KeepsOut.next | apply Keeps.modDome | apply State.setDome_keeps | apply State.modPort_keeps
          | apply State.ephSweep_keeps | apply State.chronoGather_keeps | apply Keeps.foldl | intro _ | split
  all_goals rfl

/-! ## Fault -/

theorem State.colAbandon_keeps {s0 : State} (s : State) (hk : Keeps s0 s) : Keeps s0 (State.colAbandon s) := by
  unfold State.colAbandon
  try dsimp only
  with_reducible repeat'
    first | assumption | apply State.modRegion_keeps | apply Keeps.modDome | apply Keeps.foldl | intro _
  all_goals rfl

theorem State.endAll_keeps {s0 : State} (s : State) (which : Eph → Bool) (hk : Keeps s0 s) : Keeps s0 (State.endAll s which) := by
  unfold State.endAll
  try dsimp only
  with_reducible repeat'
    first | assumption | apply Keeps.modDome | apply State.ephSweep_keeps | apply State.drainStart_keeps | apply Keeps.foldl | intro _ | split
  all_goals rfl

theorem State.degrade_keeps {s0 : State} (s : State) (code region : Nat) (hk : Keeps s0 s) : Keeps s0 (State.degrade s code region) := by
  unfold State.degrade
  try dsimp only
  with_reducible repeat'
    first | assumption | apply State.setDome_keeps | apply State.endAll_keeps | apply State.colAbandon_keeps | apply State.setMstate_keeps
          | apply State.domEvent_keeps | split

theorem execDegrade_keeps {s0 : State} (s : State) (hk : Keeps s0 s) : KeepsOut s0 (execDegrade s) := by
  unfold execDegrade
  try dsimp only
  with_reducible repeat'
    first | assumption | apply KeepsOut.next | apply State.degrade_keeps | apply Keeps.modDome | split
  all_goals rfl

theorem execDegradeForce_keeps {s0 : State} (s : State) (hk : Keeps s0 s) : KeepsOut s0 (execDegradeForce s) := by
  unfold execDegradeForce
  try dsimp only
  with_reducible repeat'
    first | assumption | apply KeepsOut.next | apply State.ephSweep_keeps | apply State.forceEph_keeps | apply Keeps.modDome | apply Keeps.foldl
          | intro _ | split
  all_goals rfl

theorem execModuleHalt_keeps {s0 : State} (s : State) (hk : Keeps s0 s) : KeepsOut s0 (execModuleHalt s) := by
  unfold execModuleHalt
  try dsimp only
  with_reducible repeat'
    first | assumption | apply KeepsOut.next | apply State.setMstate_keeps | split

theorem execDomFltSuspect_keeps {s0 : State} (s : State) (hk : Keeps s0 s) : KeepsOut s0 (execDomFltSuspect s) := by
  unfold execDomFltSuspect
  try dsimp only
  with_reducible repeat'
    first | assumption | apply KeepsOut.next | apply State.degrade_keeps | apply State.takeFree_keeps

theorem execDomFltReplace_keeps {s0 : State} (s : State) (hk : Keeps s0 s) : KeepsOut s0 (execDomFltReplace s) := by
  unfold execDomFltReplace
  try dsimp only
  with_reducible repeat'
    first | assumption | apply KeepsOut.next | apply State.degrade_keeps | apply State.setReplace_keeps | apply State.takeFree_keeps

theorem State.occult_keeps {s0 : State} (s : State) (i : Nat) (hk : Keeps s0 s) : Keeps s0 (State.occult s i) := by
  unfold State.occult
  try dsimp only
  with_reducible repeat'
    first | assumption | apply State.modCluster_keeps | apply State.setDome_keeps | apply Keeps.modDome | apply State.domEvent_keeps
          | apply Keeps.foldl | intro _ | split
  all_goals rfl

theorem execContainmentOccult_keeps {s0 : State} (s : State) (hk : Keeps s0 s) : KeepsOut s0 (execContainmentOccult s) := by
  unfold execContainmentOccult
  try dsimp only
  with_reducible repeat'
    first | assumption | apply KeepsOut.next | apply Keeps.modDome | apply State.occult_keeps | split
  all_goals rfl

theorem execDomebusBypass_keeps {s0 : State} (r : RegionId) (s : State) (hk : Keeps s0 s) : KeepsOut s0 (execDomebusBypass r s) := by
  unfold execDomebusBypass
  try dsimp only
  with_reducible repeat'
    first | assumption | apply KeepsOut.next | apply Keeps.modDome | split
  all_goals rfl

theorem execRegionControllerSilent_keeps {s0 : State} (r : RegionId) (s : State) (hk : Keeps s0 s) : KeepsOut s0 (execRegionControllerSilent r s)
    := by
  unfold execRegionControllerSilent
  try dsimp only
  with_reducible repeat'
    first | assumption | apply KeepsOut.next | apply State.regionFailure_keeps | apply State.modRegion_keeps | apply Keeps.modDome | split
  all_goals rfl

theorem execFaultRecordWrite_keeps {s0 : State} (s : State) (hk : Keeps s0 s) : KeepsOut s0 (execFaultRecordWrite s) := by
  unfold execFaultRecordWrite
  try dsimp only
  with_reducible repeat'
    first | assumption | apply KeepsOut.next | apply Keeps.modDome | split
  all_goals rfl

/-! ## Collimation -/

theorem State.colAct_keeps {s0 : State} (s : State) (result interval : Nat) (hk : Keeps s0 s) : Keeps s0 (State.colAct s result interval) := by
  unfold State.colAct
  try dsimp only
  with_reducible repeat'
    first | assumption | apply State.failure_keeps | apply State.setDome_keeps | split

theorem State.colCompare_keeps {s0 : State} (s : State) (own : ColRec) (expired : Bool) (hk : Keeps s0 s) :
    Keeps s0 (State.colCompare s own expired) := by
  unfold State.colCompare
  try dsimp only
  with_reducible repeat'
    first | assumption | apply State.setDome_keeps | apply Keeps.modDome | apply State.colEvent_keeps | apply State.colAct_keeps
          | apply State.failure_keeps | apply Keeps.foldl | intro _ | split
  all_goals rfl

theorem State.colTry_keeps {s0 : State} (s : State) (hk : Keeps s0 s) : Keeps s0 (State.colTry s) := by
  unfold State.colTry
  try dsimp only
  with_reducible repeat'
    first | assumption | apply State.colCompare_keeps | apply Keeps.foldl | intro _ | split

theorem State.colClose_keeps {s0 : State} (s : State) (i : Nat) (hk : Keeps s0 s) : Keeps s0 (State.colClose s i) := by
  unfold State.colClose
  try dsimp only
  with_reducible repeat'
    first | assumption | apply State.modRegion_keeps | apply Keeps.modDome | apply State.setDome_keeps | apply State.colEvent_keeps
          | apply State.sendCol_keeps | apply State.colTry_keeps | apply Keeps.foldl | intro _ | split
  all_goals rfl

theorem execColIntervalClose_keeps {s0 : State} (s : State) (hk : Keeps s0 s) : KeepsOut s0 (execColIntervalClose s) := by
  unfold execColIntervalClose
  try dsimp only
  with_reducible repeat'
    first | assumption | apply KeepsOut.next | apply State.colClose_keeps | split

theorem State.colHold_keeps {s0 : State} (s : State) (k : ColRec) (hk : Keeps s0 s) : Keeps s0 (State.colHold s k) := by
  unfold State.colHold
  try dsimp only
  with_reducible repeat'
    first | assumption | apply Keeps.modDome | apply State.colEvent_keeps | apply Keeps.foldl | intro _ | split
  all_goals rfl

theorem execColRecordReceive_keeps {s0 : State} (s : State) (hk : Keeps s0 s) : KeepsOut s0 (execColRecordReceive s) := by
  unfold execColRecordReceive
  try dsimp only
  with_reducible repeat'
    first | assumption | apply KeepsOut.next | apply Keeps.modDome | apply State.colTry_keeps | apply State.colHold_keeps | split
  all_goals rfl

theorem execColWaitTimeout_keeps {s0 : State} (s : State) (hk : Keeps s0 s) : KeepsOut s0 (execColWaitTimeout s) := by
  unfold execColWaitTimeout
  try dsimp only
  with_reducible repeat'
    first | assumption | apply KeepsOut.next | apply State.colCompare_keeps | split

theorem execDomColCtrlWrite_keeps {s0 : State} (v : W32) (s : State) (hk : Keeps s0 s) : KeepsOut s0 (execDomColCtrlWrite v s) := by
  unfold execDomColCtrlWrite
  try dsimp only
  with_reducible repeat'
    first | assumption | apply KeepsOut.next | apply State.colEvent_keeps | apply Keeps.modDome | apply State.setDome_keeps | split
  all_goals rfl

theorem State.colCntRead_keeps {s0 : State} (s : State) (hk : Keeps s0 s) : Keeps s0 (State.colCntRead s).2 := by
  unfold State.colCntRead
  try dsimp only
  with_reducible repeat'
    first | assumption | apply State.setDome_keeps

theorem execDomColCntRead_keeps {s0 : State} (s : State) (hk : Keeps s0 s) : KeepsOut s0 (execDomColCntRead s) := by
  unfold execDomColCntRead
  try dsimp only
  with_reducible repeat'
    first | assumption | apply KeepsOut.next | apply State.colCntRead_keeps | apply State.bar0Read_keeps

/-! ## Ephemeris -/

theorem State.dsCopy_keeps {s0 : State} (s : State) (i n off : Nat) (bs : List Byte) (hk : Keeps s0 s) : Keeps s0 ((State.dsCopy s i n off bs)) := by
  induction n generalizing s off bs with
  | zero => exact hk
  | succ f ih =>
    unfold State.dsCopy
    try dsimp only
    repeat' first | with_reducible assumption | with_reducible apply ih | with_reducible apply State.dsWriteFull_keeps | with_reducible apply State.dsWritePart_keeps | split

theorem State.initCopy_keeps {s0 : State} (s : State) (img : List Byte) (v : Nat) (hk : Keeps s0 s) : Keeps s0 (State.initCopy s img v) := by
  unfold State.initCopy
  try dsimp only
  with_reducible repeat'
    first | assumption | apply State.memWriteAll_keeps | apply State.elemWrite_keeps | apply State.dsCopy_keeps | apply State.clusterRegWrite_keeps
          | apply State.modCluster_keeps | apply Keeps.foldl | intro _ | split

theorem State.loadEph_keeps {s0 : State} (s : State) (p : EphImg) (n : Nat) (hk : Keeps s0 s) : Keeps s0 (State.loadEph s p n) := by
  unfold State.loadEph
  try dsimp only
  with_reducible repeat'
    first | assumption | apply State.modRegion_keeps | apply State.hifEvent_keeps | apply Keeps.modDome | apply State.setDome_keeps
          | apply State.initCopy_keeps | apply State.memWriteAll_keeps | apply State.modCluster_keeps | apply Keeps.foldl | intro _ | split
  all_goals rfl

theorem State.load_keeps {s0 : State} (s : State) (bytes : List Byte) (hk : Keeps s0 s) : Keeps s0 (State.load s bytes).2.2 := by
  unfold State.load
  try dsimp only
  with_reducible repeat'
    first | assumption | apply State.setDome_keeps | apply State.loadEph_keeps | split

theorem execEphemerisLoad_keeps {s0 : State} (s : State) (hk : Keeps s0 s) : KeepsOut s0 (execEphemerisLoad s) := by
  unfold execEphemerisLoad
  try dsimp only
  with_reducible repeat'
    first | assumption | apply KeepsOut.next | apply State.load_keeps | apply Keeps.modDome | apply State.modHostQ_keeps | apply Keeps.modHost
          | apply State.jobDone_keeps | split | refine Keeps.of_snd ‹_ = (_, _)› ?_
  all_goals rfl

theorem State.setStanding_keeps {s0 : State} (s : State) (k st : Nat) (hk : Keeps s0 s) : Keeps s0 (State.setStanding s k st) := by
  unfold State.setStanding
  try dsimp only
  with_reducible repeat'
    first | assumption | apply State.setDome_keeps

theorem execStandingLoad_keeps {s0 : State} (s : State) (hk : Keeps s0 s) : KeepsOut s0 (execStandingLoad s) := by
  unfold execStandingLoad
  try dsimp only
  with_reducible repeat'
    first | assumption | apply KeepsOut.next | apply State.load_keeps | apply State.setStanding_keeps | apply Keeps.modDome | split
          | refine Keeps.of_snd ‹_ = (_, _)› ?_
  all_goals rfl

end Sys2Proof.Machine
end

