-- ==== Sys2Proof/Laws/KeepsModule.lean ====
section
/-! SUPPORT. What the operations of the host bridge, the start and the register writes keep, whatever their arguments: one lemma per operation and command, for the statements about every step. -/

namespace Sys2Proof.Machine

/-! ## Host -/

theorem execLinkTraining_keeps {s0 : State} (speed lanes : Nat) (s : State) (hk : Keeps s0 s) : KeepsOut s0 (execLinkTraining speed lanes s) := by
  unfold execLinkTraining
  try dsimp only
  with_reducible repeat'
    first | assumption | apply KeepsOut.next | apply State.setHif_keeps | split

theorem execPtmTrig_keeps {s0 : State} (localNs masterNs : Nat) (s : State) (hk : Keeps s0 s) : KeepsOut s0 (execPtmTrig localNs masterNs s) := by
  unfold execPtmTrig
  try dsimp only
  with_reducible repeat'
    first | assumption | apply KeepsOut.next | apply State.setHif_keeps | apply State.barCount_keeps

theorem execHifFenceRead_keeps {s0 : State} (s : State) (hk : Keeps s0 s) : KeepsOut s0 (execHifFenceRead s) := by
  unfold execHifFenceRead
  try dsimp only
  with_reducible repeat'
    first | assumption | apply KeepsOut.next | apply State.bar0Reply_keeps

theorem execHifAprSyncRead_keeps {s0 : State} (s : State) (hk : Keeps s0 s) : KeepsOut s0 (execHifAprSyncRead s) := by
  unfold execHifAprSyncRead
  try dsimp only
  with_reducible repeat'
    first | assumption | apply KeepsOut.next | apply State.bar0Reply_keeps

theorem execBar2Read_keeps {s0 : State} (off len : Nat) (s : State) (hk : Keeps s0 s) : KeepsOut s0 (execBar2Read off len s) := by
  unfold execBar2Read
  try dsimp only
  with_reducible repeat'
    first | assumption | apply KeepsOut.next | apply State.emit_keeps | apply State.barCount_keeps | apply State.readsDone_keeps
          | apply Keeps.modHost | split
  all_goals rfl

theorem execBar2Write_keeps {s0 : State} (off : Nat) (bytes : List Byte) (s : State) (hk : Keeps s0 s) : KeepsOut s0 (execBar2Write off bytes s)
    := by
  unfold execBar2Write
  try dsimp only
  with_reducible repeat'
    first | assumption | apply KeepsOut.next | apply State.barCount_keeps | apply Keeps.modHost | apply State.bridgePut_keeps
          | apply State.hifErr_keeps | apply Keeps.foldl | intro _ | split
  all_goals rfl

theorem execBarReadTimeout_keeps {s0 : State} (i : Nat) (s : State) (hk : Keeps s0 s) : KeepsOut s0 (execBarReadTimeout i s) := by
  unfold execBarReadTimeout
  try dsimp only
  with_reducible repeat'
    first | assumption | apply KeepsOut.next | apply State.emitRead_keeps | apply State.hifErr_keeps | apply Keeps.modHost | split
  all_goals rfl

theorem State.fetch_keeps {s0 : State} (q n : Nat) (s : State) (hk : Keeps s0 s) : Keeps s0 ((State.fetch q n s)) := by
  induction n generalizing s with
  | zero => exact hk
  | succ f ih =>
    unfold State.fetch
    extract_lets h idx
    split
    · exact hk
    · split
      · next t e => with_reducible apply State.modHostQ_keeps; exact Keeps.of_snd e (State.dmaRead_keeps _ _ _ _ _ hk)
      · next bs t e => apply ih; with_reducible apply State.modHostQ_keeps; exact Keeps.of_snd e (State.dmaRead_keeps _ _ _ _ _ hk)

theorem State.fetchAll_keeps {s0 : State} (s : State) (hk : Keeps s0 s) : Keeps s0 (State.fetchAll s) := by
  unfold State.fetchAll
  try dsimp only
  with_reducible repeat'
    first | assumption | apply State.fetch_keeps | apply Keeps.foldl | intro _

theorem execSqTailDoorbell_keeps {s0 : State} (q : QueueId) (v : W32) (s : State) (hk : Keeps s0 s) : KeepsOut s0 (execSqTailDoorbell q v s) := by
  unfold execSqTailDoorbell
  try dsimp only
  with_reducible repeat'
    first | assumption | apply KeepsOut.next | apply State.barCount_keeps | apply State.modHostQ_keeps | apply State.fetch_keeps | split

theorem execCqHeadDoorbell_keeps {s0 : State} (q : QueueId) (v : W32) (s : State) (hk : Keeps s0 s) : KeepsOut s0 (execCqHeadDoorbell q v s) := by
  unfold execCqHeadDoorbell
  try dsimp only
  with_reducible repeat'
    first | assumption | apply KeepsOut.next | apply State.barCount_keeps | apply State.modHostQ_keeps | split

theorem execFetchErrorCompletion_keeps {s0 : State} (q : QueueId) (s : State) (hk : Keeps s0 s) : KeepsOut s0 (execFetchErrorCompletion q s) := by
  unfold execFetchErrorCompletion
  try dsimp only
  with_reducible repeat'
    first | assumption | apply KeepsOut.next | apply State.modHostQ_keeps | split

theorem execQueueEnable_keeps {s0 : State} (q : QueueId) (s : State) (hk : Keeps s0 s) : KeepsOut s0 (execQueueEnable q s) := by
  unfold execQueueEnable
  try dsimp only
  with_reducible repeat'
    first | assumption | apply KeepsOut.next | apply State.barCount_keeps | apply State.setHostQ_keeps | split

theorem execQueueDisable_keeps {s0 : State} (q : QueueId) (s : State) (hk : Keeps s0 s) : KeepsOut s0 (execQueueDisable q s) := by
  unfold execQueueDisable
  try dsimp only
  with_reducible repeat'
    first | assumption | apply KeepsOut.next | apply Keeps.modHost | apply State.barCount_keeps | apply State.setHostQ_keeps | split
  all_goals rfl

theorem execQueueStopped_keeps {s0 : State} (q : QueueId) (s : State) (hk : Keeps s0 s) : KeepsOut s0 (execQueueStopped q s) := by
  unfold execQueueStopped
  try dsimp only
  with_reducible repeat'
    first | assumption | apply KeepsOut.next | apply State.setHostQ_keeps | split

theorem State.entryCheck_keeps {s0 : State} (s : State) (q : Nat) (w : List W64) (hk : Keeps s0 s) : Keeps s0 (State.entryCheck s q w).2 := by
  unfold State.entryCheck
  try dsimp only
  with_reducible repeat'
    first | assumption | apply State.aprBlock_keeps | split

theorem State.startJob_keeps {s0 : State} (s : State) (q : Nat) (w : List W64) (hk : Keeps s0 s) : Keeps s0 (State.startJob s q w).2 := by
  unfold State.startJob
  try dsimp only
  with_reducible repeat'
    first | assumption | apply Keeps.modHost | apply State.setHostQ_keeps
  all_goals rfl

theorem State.serveEntry_keeps {s0 : State} (s : State) (q : Nat) (ops : Nat → Bool) (run : State → List W64 → Job → State) (hk : Keeps s0 s)
    (hr : ∀ u w j, Keeps s0 u → Keeps s0 (run u w j)) : Keeps s0 (State.serveEntry s q ops run) := by
  unfold State.serveEntry
  try dsimp only
  with_reducible repeat'
    first | assumption | apply hr | apply State.entryCheck_keeps | apply State.startJob_keeps | apply State.jobDone_keeps | apply Keeps.ite | split

theorem execSqNop_keeps {s0 : State} (q : QueueId) (s : State) (hk : Keeps s0 s) : KeepsOut s0 (execSqNop q s) := by
  unfold execSqNop
  try dsimp only
  with_reducible repeat'
    first | assumption | apply KeepsOut.next | apply State.serveEntry_keeps | apply State.jobDone_keeps | intro _

theorem execLoadJob_keeps {s0 : State} (q : QueueId) (s : State) (hk : Keeps s0 s) : KeepsOut s0 (execLoadJob q s) := by
  unfold execLoadJob
  try dsimp only
  with_reducible repeat'
    first | assumption | apply KeepsOut.next | apply State.serveEntry_keeps | apply State.dmaRead_keeps | apply State.jobDone_keeps
          | apply Keeps.modDome | intro _ | apply KeepsOut.ite | apply Keeps.ite | refine Keeps.of_snd ‹_ = (_, _)› ?_ | split | dsimp only
  all_goals (try rfl)

theorem execCopyIn_keeps {s0 : State} (q : QueueId) (s : State) (hk : Keeps s0 s) : KeepsOut s0 (execCopyIn q s) := by
  unfold execCopyIn
  try dsimp only
  with_reducible repeat'
    first | assumption | apply KeepsOut.next | apply State.serveEntry_keeps | apply State.copyStep_keeps | intro _

theorem execCopyOut_keeps {s0 : State} (q : QueueId) (s : State) (hk : Keeps s0 s) : KeepsOut s0 (execCopyOut q s) := by
  unfold execCopyOut
  try dsimp only
  with_reducible repeat'
    first | assumption | apply KeepsOut.next | apply State.serveEntry_keeps | apply State.copyStep_keeps | intro _

theorem execGateJob_keeps {s0 : State} (q : QueueId) (s : State) (hk : Keeps s0 s) : KeepsOut s0 (execGateJob q s) := by
  unfold execGateJob
  try dsimp only
  with_reducible repeat'
    first | assumption | apply KeepsOut.next | apply State.serveEntry_keeps | apply State.setDome_keeps | apply State.jobDone_keeps | intro _

theorem execForceJob_keeps {s0 : State} (q : QueueId) (s : State) (hk : Keeps s0 s) : KeepsOut s0 (execForceJob q s) := by
  unfold execForceJob
  try dsimp only
  with_reducible repeat'
    first | assumption | apply KeepsOut.next | apply State.serveEntry_keeps | apply State.ephSweep_keeps | apply State.forceEph_keeps
          | apply State.jobDone_keeps | intro _

theorem execCqRecordWrite_keeps {s0 : State} (q : QueueId) (s : State) (hk : Keeps s0 s) : KeepsOut s0 (execCqRecordWrite q s) := by
  unfold execCqRecordWrite
  try dsimp only
  with_reducible repeat'
    first | assumption | apply KeepsOut.next | apply State.dmaWrite_keeps | apply State.modHostQ_keeps | apply State.cause_keeps | split
          | refine Keeps.of_snd ‹_ = (_, _)› ?_

theorem execMsixSend_keeps {s0 : State} (vector : Fin 512) (elapsedUs : Nat) (s : State) (hk : Keeps s0 s) :
    KeepsOut s0 (execMsixSend vector elapsedUs s) := by
  unfold execMsixSend
  try dsimp only
  with_reducible repeat'
    first | assumption | apply KeepsOut.next | apply State.emit_keeps | apply Keeps.modHost | split
  all_goals rfl

theorem execD3hotEntry_keeps {s0 : State} (s : State) (hk : Keeps s0 s) : KeepsOut s0 (execD3hotEntry s) := by
  unfold execD3hotEntry
  try dsimp only
  with_reducible repeat'
    first | assumption | apply KeepsOut.next | apply Keeps.modHost
  all_goals rfl

theorem execD0Entry_keeps {s0 : State} (s : State) (hk : Keeps s0 s) : KeepsOut s0 (execD0Entry s) := by
  unfold execD0Entry
  try dsimp only
  with_reducible repeat'
    first | assumption | apply KeepsOut.next | apply State.fetchAll_keeps | apply Keeps.modHost | apply State.copyStep_keeps | apply Keeps.foldl
          | intro _ | split
  all_goals rfl

/-! ## Verify -/

theorem State.setSlot_keeps {s0 : State} (s : State) (k : Nat) (c : CatSlot) (hk : Keeps s0 s) : Keeps s0 (State.setSlot s k c) := by
  unfold State.setSlot
  try dsimp only
  with_reducible repeat'
    first | assumption | apply Keeps.modDome | split
  all_goals rfl

theorem State.selectFrom_keeps {s0 : State} (l : List Nat) (s : State) (hk : Keeps s0 s) : Keeps s0 ((State.selectFrom l s).2) := by
  induction l generalizing s with
  | nil => exact hk
  | cons a l ih =>
    unfold State.selectFrom
    dsimp only
    repeat' first | with_reducible assumption | with_reducible apply ih | with_reducible apply State.setSlot_keeps | split

/-! ## Start -/

theorem State.setDefect_keeps {s0 : State} (s : State) (i : Nat) (d : DefRec) (hk : Keeps s0 s) : Keeps s0 (State.setDefect s i d) := by
  unfold State.setDefect
  try dsimp only
  with_reducible repeat'
    first | assumption | apply Keeps.modDome
  all_goals rfl

theorem State.mergeTest_keeps {s0 : State} (s : State) (a1 : Finding) (hk : Keeps s0 s) : Keeps s0 (State.mergeTest s a1) := by
  unfold State.mergeTest
  try dsimp only
  with_reducible repeat'
    first | assumption | apply State.setDefect_keeps | split

theorem State.mergeTraining_keeps {s0 : State} (s : State) (bad : List (Nat × Nat × Nat)) (a2 : Finding) (hk : Keeps s0 s) :
    Keeps s0 (State.mergeTraining s bad a2).1 := by
  unfold State.mergeTraining
  try dsimp only
  with_reducible repeat'
    first | assumption | apply State.setDefect_keeps | split

theorem State.mergeDone_keeps {s0 : State} (s : State) (hk : Keeps s0 s) : Keeps s0 (State.mergeDone s) := by
  unfold State.mergeDone
  try dsimp only
  with_reducible repeat'
    first | assumption | apply State.setDome_keeps | apply Keeps.modDome
  all_goals rfl

theorem State.formMesh_keeps {s0 : State} (s : State) (hk : Keeps s0 s) : Keeps s0 (State.formMesh s) := by
  unfold State.formMesh
  try dsimp only
  with_reducible repeat'
    first | assumption | apply State.spreadHoles_keeps | apply Keeps.modDome
  all_goals rfl

theorem State.setCtr_keeps {s0 : State} (s : State) (c : Counters) (hk : Keeps s0 s)
    (hc : Counters.wf s.dome.ctr = true → Counters.wf c = true ∧ Counters.le s.dome.ctr c = true) : Keeps s0 (State.setCtr s c) :=
  ⟨⟨hk.pending, fun w => ⟨(hc (hk.ctr w).1).1, Counters.le_trans (hk.ctr w).2 (hc (hk.ctr w).1).2⟩, hk.mem⟩, hk.apr⟩

theorem State.advanceSvn_keeps {s0 : State} (s : State) (v : Nat) (hv : v ≤ 255) (hk : Keeps s0 s) : Keeps s0 (State.advanceSvn s v) := by
  unfold State.advanceSvn
  split
  · refine State.setCtr_keeps s _ hk fun w => ?_
    simp only [Counters.wf, Counters.le, Bool.and_eq_true, decide_eq_true_eq] at *
    omega
  · exact hk

theorem State.bindEnvelope_keeps {s0 : State} (s : State) (w : Nat) (hk : Keeps s0 s) : Keeps s0 (State.bindEnvelope s w) := by
  unfold State.bindEnvelope
  extract_lets c
  split
  · exact hk
  split
  · refine State.setCtr_keeps s _ hk fun w => ?_
    simp only [Counters.wf, Counters.le, Bool.and_eq_true, decide_eq_true_eq, c] at *
    omega
  · exact State.setDome_keeps _ _ _ hk

theorem State.bindFid_keeps {s0 : State} (s : State) (f : Nat) (hk : Keeps s0 s) : Keeps s0 (State.bindFid s f) := by
  unfold State.bindFid
  extract_lets c
  split
  · exact hk
  split
  · refine State.setCtr_keeps s _ hk fun w => ?_
    simp only [Counters.wf, Counters.le, Bool.and_eq_true, decide_eq_true_eq, c] at *
    omega
  · exact State.setDome_keeps _ _ _ hk

theorem State.startFail_keeps {s0 : State} (s : State) (result : Nat) (hk : Keeps s0 s) : Keeps s0 (State.startFail s result) := by
  unfold State.startFail
  try dsimp only
  with_reducible repeat'
    first | assumption | apply Keeps.modDome | apply State.setDome_keeps | apply State.allBreakers_keeps
  all_goals rfl

theorem State.toStep_keeps {s0 : State} (s : State) (k : Nat) (hk : Keeps s0 s) : Keeps s0 (State.toStep s k) := by
  unfold State.toStep
  try dsimp only
  with_reducible repeat'
    first | assumption | apply State.setDome_keeps

theorem State.keepTree_keeps {s0 : State} (s : State) (hk : Keeps s0 s) : Keeps s0 s.keepTree := by
  unfold State.keepTree
  apply Keeps.modDome
  · assumption
  all_goals rfl

theorem State.step1_keeps {s0 : State} (s : State) (obs : StartObs) (hk : Keeps s0 s) : Keeps s0 (State.step1 s obs)  := by
  unfold State.step1
  split
  · exact State.startFail_keeps _ _ (State.setDome_keeps _ _ _ hk)
  split
  · exact State.startFail_keeps _ _ hk
  · refine State.toStep_keeps _ _ (State.keepTree_keeps _ (State.setCtr_keeps s _ hk fun w => ?_))
    simp only [Counters.wf, Counters.le, Bool.and_eq_true, decide_eq_true_eq] at *
    split <;> omega

theorem State.runSlotNow_keeps {s0 : State} (s : State) (k : Nat) (hk : Keeps s0 s) : Keeps s0 (State.runSlotNow s k) := by
  unfold State.runSlotNow
  try dsimp only
  with_reducible repeat'
    first | assumption | apply State.setDome_keeps | apply Keeps.modDome
  all_goals rfl

theorem State.step2_keeps {s0 : State} (s : State) (hk : Keeps s0 s) : Keeps s0 (State.step2 s) := by
  unfold State.step2
  try dsimp only
  with_reducible repeat'
    first | assumption | apply State.selectFrom_keeps | apply State.startFail_keeps | apply State.toStep_keeps | apply State.runSlotNow_keeps
          | split | refine Keeps.of_snd ‹_ = (_, _)› ?_

theorem State.planRegion_keeps {s0 : State} (s : State) (slot : Nat) (r : RegionId) (hk : Keeps s0 s) : Keeps s0 (State.planRegion s slot r) := by
  unfold State.planRegion
  try dsimp only
  with_reducible repeat'
    first | assumption | apply State.modRegion_keeps | apply Keeps.after | apply execDrvSrcWrite_keeps | apply execTrcSrcWrite_keeps
          | apply execThmCtrlWrite_keeps | apply execDrvFreqWrite_keeps

theorem State.coefRegion_keeps {s0 : State} (s : State) (slot : Nat) (r : RegionId) (hk : Keeps s0 s) : Keeps s0 (State.coefRegion s slot r) := by
  unfold State.coefRegion
  try dsimp only
  with_reducible repeat'
    first | assumption | apply State.modRegion_keeps

theorem State.enter4_keeps {s0 : State} (s : State) (slot : Nat) (hk : Keeps s0 s) : Keeps s0 (State.enter4 s slot) := by
  unfold State.enter4
  try dsimp only
  with_reducible repeat'
    first | assumption | apply Keeps.after | apply execTckPeriodWrite_keeps | apply execTckCtrlWrite_keeps | apply State.coefRegion_keeps
          | apply State.planRegion_keeps | apply Keeps.foldl | intro _ | split

theorem State.enter8_keeps {s0 : State} (s : State) (slot : Nat) (hk : Keeps s0 s) : Keeps s0 (State.enter8 s slot) := by
  unfold State.enter8
  try dsimp only
  with_reducible repeat'
    first | assumption | apply State.setDome_keeps | apply State.portTry_keeps | apply State.modPort_keeps | apply State.finderStart_keeps
          | apply Keeps.foldl | intro _

theorem leNat_one (f : Nat → Byte) (a : Nat) : leNat ((List.range 1).map (fun k => f (a + k))) ≤ 255 := by
  simp [leNat]; omega

theorem State.catSvn_le (s : State) (slot : Nat) : s.catSvn slot ≤ 255 := by
  unfold State.catSvn State.norLe State.norBytes
  exact leNat_one _ _

theorem State.becomeReady_keeps {s0 : State} (s : State) (slot : Nat) (hk : Keeps s0 s) : Keeps s0 (State.becomeReady s slot) := by
  unfold State.becomeReady
  try dsimp only
  with_reducible repeat'
    first | assumption | apply State.bindEnvelope_keeps | apply State.advanceSvn_keeps | apply State.setMstate_keeps | apply State.fetchAll_keeps
          | apply State.setSlot_keeps | apply State.bindFid_keeps | apply State.setHif_keeps | apply Keeps.modDome | intro _ | apply Keeps.ite | split
          | dsimp only
  all_goals first | rfl | exact State.catSvn_le _ _

theorem State.enter10_keeps {s0 : State} (s : State) (slot : Nat) (hk : Keeps s0 s) : Keeps s0 (State.enter10 s slot) := by
  unfold State.enter10
  try dsimp only
  with_reducible repeat'
    first | assumption | apply State.setDome_keeps | apply Keeps.modDome | split
  all_goals rfl

theorem execStartSequence_keeps {s0 : State} (obs : StartObs) (s : State) (hk : Keeps s0 s) : KeepsOut s0 (execStartSequence obs s) := by
  unfold execStartSequence
  extract_lets k run t u
  have ht : Keeps s0 t := State.setDome_keeps _ _ _ hk
  have hu : Keeps s0 u := State.formMesh_keeps _ ht
  clear_value t u
  refine KeepsOut.ite (.next hk) (KeepsOut.ite (.next hk) (KeepsOut.ite (.next hk) (.next ?_)))
  repeat' first | with_reducible assumption | (with_reducible refine Keeps.ite ?_ ?_) | with_reducible apply State.step1_keeps | with_reducible apply State.step2_keeps | with_reducible apply State.toStep_keeps | with_reducible apply State.enter4_keeps | with_reducible apply State.enter8_keeps | with_reducible apply State.enter10_keeps | with_reducible apply State.becomeReady_keeps | with_reducible apply State.startFail_keeps | with_reducible apply Keeps.modDome | rfl | with_reducible apply State.mergeDone_keeps | (with_reducible refine Keeps.foldl ?_ _ _ fun u a hu => ?_) | with_reducible apply State.modRegion_keeps | with_reducible apply State.mergeTest_keeps
  exact Keeps.foldlOf (fun (a : State × List (Nat × Nat × Nat)) => a.1) ht _ _ fun u a hu => State.mergeTraining_keeps _ _ _ hu

theorem execStartWatchdogExpiry_keeps {s0 : State} (s : State) (hk : Keeps s0 s) : KeepsOut s0 (execStartWatchdogExpiry s) := by
  unfold execStartWatchdogExpiry
  try dsimp only
  with_reducible repeat'
    first | assumption | apply KeepsOut.next | apply State.setSlot_keeps | apply State.powerOn_keeps | apply State.allBreakers_keeps | split

theorem State.fallback_keeps {s0 : State} (s : State) (hk : Keeps s0 s) : Keeps s0 (State.fallback s) := by
  unfold State.fallback
  try dsimp only
  with_reducible repeat'
    first | assumption | apply State.setDome_keeps | apply State.setSlot_keeps | apply Keeps.modDome | split
  all_goals rfl

theorem execFallback_keeps {s0 : State} (s : State) (hk : Keeps s0 s) : KeepsOut s0 (execFallback s) := .next (State.fallback_keeps s hk)

theorem State.viaCount_keeps {s0 : State} (s : State) (via : Via) (hk : Keeps s0 s) : Keeps s0 (s.viaCount via) := by
  unfold State.viaCount
  split
  · exact State.barCount_keeps s hk
  · exact hk

theorem State.updErr_keeps {s0 : State} (s : State) (hk : Keeps s0 s) : Keeps s0 (State.updErr s) := by
  unfold State.updErr
  try dsimp only
  with_reducible repeat'
    first | assumption | apply State.setDome_keeps

theorem State.cancelFallback_keeps {s0 : State} (s : State) (hk : Keeps s0 s) : Keeps s0 (State.cancelFallback s) := by
  unfold State.cancelFallback
  try dsimp only
  with_reducible repeat'
    first | assumption | apply State.setDome_keeps | apply State.setSlot_keeps | split

theorem State.updOpen_keeps {s0 : State} (s : State) (slot : Nat) (via : Via) (hk : Keeps s0 s) : Keeps s0 (State.updOpen s slot via) := by
  unfold State.updOpen
  try dsimp only
  with_reducible repeat'
    first | assumption | apply State.updErr_keeps | apply Keeps.modDome | apply State.setSlot_keeps | apply State.cancelFallback_keeps | apply State.setDome_keeps | split
  all_goals rfl

theorem execUpdOpen_keeps {s0 : State} (slot : Fin 2) (via : Via) (s : State) (hk : Keeps s0 s) : KeepsOut s0 (execUpdOpen slot via s) :=
  .next (State.updOpen_keeps _ _ _ (State.viaCount_keeps _ _ hk))

theorem State.setNor_keeps {s0 : State} (s : State) (slot : Nat) (f : SMap Byte → SMap Byte) (hk : Keeps s0 s) : Keeps s0 (State.setNor s slot f)
    := by
  unfold State.setNor
  try dsimp only
  with_reducible repeat'
    first | assumption | apply Keeps.modDome | split
  all_goals rfl

theorem State.program_keeps {s0 : State} (s : State) (slot a : Nat) (v : W32) (hk : Keeps s0 s) : Keeps s0 (State.program s slot a v) := by
  unfold State.program
  try dsimp only
  with_reducible repeat'
    first | assumption | apply State.setNor_keeps

theorem State.updWin_keeps {s0 : State} (s : State) (off : Nat) (v : W32) (via : Via) (hk : Keeps s0 s) : Keeps s0 (State.updWin s off v via) := by
  unfold State.updWin
  try dsimp only
  with_reducible repeat'
    first | assumption | apply State.program_keeps | apply State.updErr_keeps | split

theorem execUpdWinWrite_keeps {s0 : State} (off : Nat) (v : W32) (via : Via) (s : State) (hk : Keeps s0 s) :
    KeepsOut s0 (execUpdWinWrite off v via s) := .next (State.updWin_keeps _ _ _ _ (State.viaCount_keeps _ _ hk))

theorem State.updCheck_keeps {s0 : State} (s : State) (hk : Keeps s0 s) : Keeps s0 (State.updCheck s) := by
  unfold State.updCheck
  try dsimp only
  with_reducible repeat'
    first | assumption | apply Keeps.modDome | apply State.setSlot_keeps | apply State.setDome_keeps | split
  all_goals rfl

theorem State.updClose_keeps {s0 : State} (s : State) (via : Via) (hk : Keeps s0 s) : Keeps s0 (State.updClose s via) := by
  unfold State.updClose
  try dsimp only
  with_reducible repeat'
    first | assumption | apply State.updCheck_keeps | apply Keeps.modDome | apply State.setDome_keeps | apply State.updErr_keeps | split
  all_goals rfl

theorem execUpdClose_keeps {s0 : State} (via : Via) (s : State) (hk : Keeps s0 s) : KeepsOut s0 (execUpdClose via s) :=
  .next (State.updClose_keeps _ _ (State.viaCount_keeps _ _ hk))

/-! ## DomeRegs -/

theorem State.latchTotal_keeps {s0 : State} (s : State) (i : Nat) (hk : Keeps s0 s) : Keeps s0 (State.latchTotal s i) := by
  unfold State.latchTotal
  try dsimp only
  with_reducible repeat'
    first | assumption | apply State.setDome_keeps

theorem State.latchStart_keeps {s0 : State} (s : State) (r : Nat) (hk : Keeps s0 s) : Keeps s0 (State.latchStart s r) := by
  unfold State.latchStart
  try dsimp only
  with_reducible repeat'
    first | assumption | apply State.modRegion_keeps | split

theorem State.domeLatch_keeps {s0 : State} (s : State) (off : Nat) (hk : Keeps s0 s) : Keeps s0 (State.domeLatch s off) := by
  unfold State.domeLatch
  try dsimp only
  with_reducible repeat'
    first | assumption | apply State.portTickRead_keeps | apply State.colCntRead_keeps | apply State.latchTotal_keeps | apply State.latchStart_keeps
          | apply State.snapRead_keeps | apply State.rnumRead_keeps | apply State.balRead_keeps | apply Keeps.ite | split | dsimp only

/-! ## Dome -/

theorem State.mctpReply_keeps {s0 : State} (s : State) (bs : List Byte) (hk : Keeps s0 s) : Keeps s0 (State.mctpReply s bs) := by
  unfold State.mctpReply
  try dsimp only
  with_reducible repeat'
    first | assumption | apply State.emit_keeps

theorem execMclkSrcWrite_keeps {s0 : State} (v : W32) (s : State) (hk : Keeps s0 s) : KeepsOut s0 (execMclkSrcWrite v s) := by
  unfold execMclkSrcWrite
  try dsimp only
  with_reducible repeat'
    first | assumption | apply KeepsOut.next | apply State.setDome_keeps | split

theorem execMclkHoldoverTimeout_keeps {s0 : State} (s : State) (hk : Keeps s0 s) : KeepsOut s0 (execMclkHoldoverTimeout s) := by
  unfold execMclkHoldoverTimeout
  try dsimp only
  with_reducible repeat'
    first | assumption | apply KeepsOut.next | apply State.setDome_keeps | split

theorem execGetCertificate_keeps {s0 : State} (t : CertReq) (s : State) (hk : Keeps s0 s) : KeepsOut s0 (execGetCertificate t s) := by
  unfold execGetCertificate
  try dsimp only
  with_reducible repeat'
    first | assumption | apply KeepsOut.next | apply State.emit_keeps | split

theorem execGetEndorsement_keeps {s0 : State} (t : Transport) (s : State) (hk : Keeps s0 s) : KeepsOut s0 (execGetEndorsement t s) := by
  unfold execGetEndorsement
  try dsimp only
  with_reducible repeat'
    first | assumption | apply KeepsOut.next | apply State.emit_keeps | split

theorem State.signedReply_keeps {s0 : State} (s : State) (t : Transport) (kind : Nat) (request contents : List Byte) (hk : Keeps s0 s) :
    Keeps s0 (State.signedReply s t kind request contents) := by
  unfold State.signedReply
  try dsimp only
  with_reducible repeat'
    first | assumption | apply State.emit_keeps | apply Keeps.modDome
  all_goals rfl

theorem State.doChallenge_keeps {s0 : State} (s : State) (t : Transport) (request : List Byte) (hk : Keeps s0 s) :
    Keeps s0 (State.doChallenge s t request) := by
  unfold State.doChallenge
  try dsimp only
  with_reducible repeat'
    first | assumption | apply State.signedReply_keeps | refine Keeps.mkState (hp := rfl) ?_ ?_ ?_ ?_
  all_goals rfl

theorem State.doMeasurements_keeps {s0 : State} (s : State) (t : Transport) (request : List Byte) (hk : Keeps s0 s) :
    Keeps s0 (State.doMeasurements s t request) := by
  unfold State.doMeasurements
  try dsimp only
  with_reducible repeat'
    first | assumption | apply State.signedReply_keeps

theorem State.doCosign_keeps {s0 : State} (s : State) (t : Transport) (hk : Keeps s0 s) : Keeps s0 (State.doCosign s t)  := by
  unfold State.doCosign
  extract_lets last c error
  split
  · exact State.emit_keeps _ _ hk
  split
  · exact State.emit_keeps _ _ (State.setDome_keeps _ _ _ hk)
  · next h =>
    refine State.emit_keeps _ _ (State.keepTree_keeps _ (State.setCtr_keeps s _ hk fun w => ?_))
    simp only [Counters.wf, Counters.le, Bool.and_eq_true, decide_eq_true_eq, c, hssLeaves] at *
    omega

theorem State.holdReq_keeps {s0 : State} (s : State) (h : Held) (hk : Keeps s0 s) : Keeps s0 (State.holdReq s h) := by
  unfold State.holdReq
  try dsimp only
  with_reducible repeat'
    first | assumption | apply Keeps.modDome
  all_goals rfl

theorem State.spdmRequest_keeps {s0 : State} (s : State) (kind : Nat) (t : Transport) (request : List Byte) (hk : Keeps s0 s) :
    Keeps s0 (State.spdmRequest s kind t request) := by
  unfold State.spdmRequest
  try dsimp only
  with_reducible repeat'
    first | assumption | apply State.holdReq_keeps | apply State.doChallenge_keeps | apply State.doMeasurements_keeps | apply State.doCosign_keeps
          | split

theorem execChallenge_keeps {s0 : State} (t : Transport) (request : List Byte) (s : State) (hk : Keeps s0 s) :
    KeepsOut s0 (execChallenge t request s) := by
  unfold execChallenge
  try dsimp only
  with_reducible repeat'
    first | assumption | apply KeepsOut.next | apply State.spdmRequest_keeps | split

theorem execGetMeasurements_keeps {s0 : State} (t : Transport) (request : List Byte) (s : State) (hk : Keeps s0 s) :
    KeepsOut s0 (execGetMeasurements t request s) := by
  unfold execGetMeasurements
  try dsimp only
  with_reducible repeat'
    first | assumption | apply KeepsOut.next | apply State.spdmRequest_keeps | split

theorem execCosign_keeps {s0 : State} (t : Transport) (s : State) (hk : Keeps s0 s) : KeepsOut s0 (execCosign t s) := by
  unfold execCosign
  try dsimp only
  with_reducible repeat'
    first | assumption | apply KeepsOut.next | apply State.spdmRequest_keeps | split

theorem State.tokResult_keeps {s0 : State} (s : State) (via : Via) (code : Nat) (hk : Keeps s0 s) : Keeps s0 (State.tokResult s via code) := by
  unfold State.tokResult
  try dsimp only
  with_reducible repeat'
    first | assumption | apply State.setDome_keeps | apply State.mctpReply_keeps | split

theorem State.eyeOpen_keeps {s0 : State} (s : State) (scope duration : Nat) (hk : Keeps s0 s) : Keeps s0 (State.eyeOpen s scope duration) := by
  unfold State.eyeOpen
  try dsimp only
  with_reducible repeat'
    first | assumption | apply State.setDome_keeps | apply Keeps.modDome
  all_goals rfl

theorem State.tokAct_keeps {s0 : State} (s : State) (b : List Byte)
    (ho : Counters.wf s.dome.ctr = true → tokAction b = 1 → s.dome.ctr.rpl < 15) (hk : Keeps s0 s) : Keeps s0 (State.tokAct s b) := by
  unfold State.tokAct
  extract_lets s1 src
  have h1 : Keeps s0 s1 := Keeps.modDome hk _ rfl
  split
  · next h =>
    refine State.setCtr_keeps s1 _ h1 fun w => ?_
    have := ho w h
    have e : s1.dome.ctr = s.dome.ctr := rfl
    rw [e] at w ⊢
    simp only [Counters.wf, Counters.le, src, e, Bool.and_eq_true, decide_eq_true_eq] at *
    omega
  · exact State.eyeOpen_keeps _ _ _ h1

theorem State.tokSubmit_keeps {s0 : State} (s : State) (via : Via) (b : List Byte) (hk : Keeps s0 s) : Keeps s0 (State.tokSubmit s via b) := by
  unfold State.tokSubmit
  dsimp only
  repeat' first | with_reducible assumption | with_reducible apply State.tokResult_keeps | with_reducible apply State.holdReq_keeps | split
  next h =>
      refine State.tokAct_keeps s b (fun w k => ?_) hk
      unfold State.tokCheck at h
      split_ifs at h
      next h8 =>
      simp only [State.tokState, k, if_true, Bool.or_eq_true, beq_iff_eq, not_or] at h8
      simp only [Counters.wf, Bool.and_eq_true, decide_eq_true_eq] at w
      omega

theorem execClearReplace_keeps {s0 : State} (via : Via) (token : List Byte) (s : State) (hk : Keeps s0 s) :
    KeepsOut s0 (execClearReplace via token s) := by
  unfold execClearReplace
  try dsimp only
  with_reducible repeat'
    first | assumption | apply KeepsOut.next | apply State.tokSubmit_keeps | apply State.viaCount_keeps | split

theorem execOpenEyepiece_keeps {s0 : State} (via : Via) (token : List Byte) (s : State) (hk : Keeps s0 s) :
    KeepsOut s0 (execOpenEyepiece via token s) := by
  unfold execOpenEyepiece
  try dsimp only
  with_reducible repeat'
    first | assumption | apply KeepsOut.next | apply State.tokSubmit_keeps | apply State.viaCount_keeps | split

theorem State.newNonce_keeps {s0 : State} (s : State) (hk : Keeps s0 s) : Keeps s0 (State.newNonce s) := by
  unfold State.newNonce
  try dsimp only
  with_reducible repeat'
    first | assumption | apply Keeps.modDome | refine Keeps.mkState (hp := rfl) ?_ ?_ ?_ ?_
  all_goals rfl

theorem execNonceCmd_keeps {s0 : State} (s : State) (hk : Keeps s0 s) : KeepsOut s0 (execNonceCmd s) := by
  unfold execNonceCmd
  try dsimp only
  with_reducible repeat'
    first | assumption | apply KeepsOut.next | apply State.newNonce_keeps | apply State.mctpReply_keeps | split

theorem execNewnonce_keeps {s0 : State} (s : State) (hk : Keeps s0 s) : KeepsOut s0 (execNewnonce s) := by
  unfold execNewnonce
  try dsimp only
  with_reducible repeat'
    first | assumption | apply KeepsOut.next | apply State.newNonce_keeps | split

theorem State.gate_keeps {s0 : State} (s : State) (v : W32) (hk : Keeps s0 s) : Keeps s0 (State.gate s v) := by
  unfold State.gate
  try dsimp only
  with_reducible repeat'
    first | assumption | apply State.holdReq_keeps | apply State.setDome_keeps | split

theorem State.runHeld_keeps {s0 : State} (s : State) (a1 : Held) (hk : Keeps s0 s) : Keeps s0 (State.runHeld s a1) := by
  unfold State.runHeld
  try dsimp only
  with_reducible repeat'
    first | assumption | apply State.setReplace_keeps | apply State.fallback_keeps | apply State.gate_keeps | apply State.updCheck_keeps | apply State.holdReq_keeps | apply State.tokSubmit_keeps
          | apply State.spdmRequest_keeps | split

theorem State.runAllHeld_keeps {s0 : State} (s : State) (hk : Keeps s0 s) : Keeps s0 (State.runAllHeld s) := by
  unfold State.runAllHeld
  try dsimp only
  with_reducible repeat'
    first | assumption | apply State.runHeld_keeps | apply Keeps.modDome | apply Keeps.foldl | intro _
  all_goals rfl

theorem execDomClkenWrite_keeps {s0 : State} (v : W32) (s : State) (hk : Keeps s0 s) : KeepsOut s0 (execDomClkenWrite v s) := by
  unfold execDomClkenWrite
  try dsimp only
  with_reducible repeat'
    first | assumption | apply KeepsOut.next | apply State.runAllHeld_keeps | apply State.gate_keeps | split

theorem State.eraseEnds_keeps {s0 : State} (s : State) (hk : Keeps s0 s) : Keeps s0 (State.eraseEnds s) := by
  unfold State.eraseEnds
  try dsimp only
  with_reducible repeat'
    first | assumption | apply State.runAllHeld_keeps | split

theorem execUpdEraseDone_keeps {s0 : State} (s : State) (hk : Keeps s0 s) : KeepsOut s0 (execUpdEraseDone s) := by
  unfold execUpdEraseDone
  try dsimp only
  with_reducible repeat'
    first | assumption | apply KeepsOut.next | apply State.eraseEnds_keeps | apply State.setDome_keeps | apply State.setNor_keeps | split

theorem State.updAbort_keeps {s0 : State} (s : State) (via : Via) (hk : Keeps s0 s) : Keeps s0 (State.updAbort s via) := by
  unfold State.updAbort
  try dsimp only
  with_reducible repeat'
    first | assumption | apply State.eraseEnds_keeps | apply State.setDome_keeps | apply Keeps.modDome | apply State.updErr_keeps | split
  all_goals rfl

theorem execUpdAbort_keeps {s0 : State} (via : Via) (s : State) (hk : Keeps s0 s) : KeepsOut s0 (execUpdAbort via s) :=
  .next (State.updAbort_keeps _ _ (State.viaCount_keeps _ _ hk))

theorem execMctpControl_keeps {s0 : State} (eid : Nat) (s : State) (hk : Keeps s0 s) : KeepsOut s0 (execMctpControl eid s) := by
  unfold execMctpControl
  try dsimp only
  with_reducible repeat'
    first | assumption | apply KeepsOut.next | apply State.mctpReply_keeps | apply Keeps.modDome | split
  all_goals rfl

theorem State.eyeClose_keeps {s0 : State} (s : State) (hk : Keeps s0 s) : Keeps s0 (State.eyeClose s) := by
  unfold State.eyeClose
  try dsimp only
  with_reducible repeat'
    first | assumption | apply State.setDome_keeps | split

theorem execEyepieceClose_keeps {s0 : State} (s : State) (hk : Keeps s0 s) : KeepsOut s0 (execEyepieceClose s) := by
  unfold execEyepieceClose
  try dsimp only
  with_reducible repeat'
    first | assumption | apply KeepsOut.next | apply State.eyeClose_keeps

theorem execEyepieceExpiry_keeps {s0 : State} (s : State) (hk : Keeps s0 s) : KeepsOut s0 (execEyepieceExpiry s) := by
  unfold execEyepieceExpiry
  try dsimp only
  with_reducible repeat'
    first | assumption | apply KeepsOut.next | apply State.eyeClose_keeps | split

theorem State.eyeStart_keeps {s0 : State} (s : State) (write : Nat) (hk : Keeps s0 s) : Keeps s0 (State.eyeStart s write) := by
  unfold State.eyeStart
  try dsimp only
  with_reducible repeat'
    first | assumption | apply Keeps.modHost | apply State.setDome_keeps
  all_goals rfl

theorem execEyeAccRead_keeps {s0 : State} (s : State) (hk : Keeps s0 s) : KeepsOut s0 (execEyeAccRead s) := by
  unfold execEyeAccRead
  try dsimp only
  with_reducible repeat'
    first | assumption | apply KeepsOut.next | apply State.eyeStart_keeps | apply State.eyeDone_keeps | apply State.bridgeRd_keeps | split

theorem execEyeAccWrite_keeps {s0 : State} (s : State) (hk : Keeps s0 s) : KeepsOut s0 (execEyeAccWrite s) := by
  unfold execEyeAccWrite
  try dsimp only
  with_reducible repeat'
    first | assumption | apply KeepsOut.next | apply State.eyeStart_keeps | apply State.eyeDone_keeps | apply State.clusterRegWrite_keeps
          | apply State.bridgePut_keeps | split

theorem State.setScan_keeps {s0 : State} (s : State) (l : List Bool) (hk : Keeps s0 s) : Keeps s0 (State.setScan s l) := by
  unfold State.setScan
  try dsimp only
  with_reducible repeat'
    first | assumption | apply Keeps.modDome
  all_goals rfl

theorem execScanCapture_keeps {s0 : State} (tap : TapInstr) (bits : List Bool) (s : State) (hk : Keeps s0 s) :
    KeepsOut s0 (execScanCapture tap bits s) := by
  unfold execScanCapture
  split
  · exact .next hk
  extract_lets s1 s2 s3
  have h1 : Keeps s0 s1 := State.setDome_keeps _ _ _ hk
  split
  · exact .next (State.setDome_keeps _ _ _ h1)
  have h2 : Keeps s0 s2 := State.setScan_keeps _ _ h1
  clear_value s2
  exact .next (State.setDome_keeps _ _ _ (Keeps.ite (h2.same rfl rfl rfl rfl) h2))

theorem execScanShift_keeps {s0 : State} (s : State) (hk : Keeps s0 s) : KeepsOut s0 (execScanShift s) := by
  unfold execScanShift
  try dsimp only
  with_reducible repeat'
    first | assumption | apply KeepsOut.next | apply State.setDome_keeps | apply State.setScan_keeps | split

theorem execChronoSelect_keeps {s0 : State} (i : Fin 16) (v : W32) (s : State) (hk : Keeps s0 s) : KeepsOut s0 (execChronoSelect i v s) := by
  unfold execChronoSelect
  try dsimp only
  with_reducible repeat'
    first | assumption | apply KeepsOut.next | apply State.setDome_keeps | apply Keeps.modDome | split
  all_goals rfl

theorem State.traceDrop_keeps {s0 : State} (s : State) (hk : Keeps s0 s) : Keeps s0 (State.traceDrop s) := by
  unfold State.traceDrop
  try dsimp only
  with_reducible repeat'
    first | assumption | apply Keeps.modDome | apply State.setDome_keeps
  all_goals rfl

theorem State.tracePut_keeps {s0 : State} (s : State) (bs : List Byte) (hk : Keeps s0 s) : Keeps s0 (State.tracePut s bs) := by
  unfold State.tracePut
  try dsimp only
  with_reducible repeat'
    first | assumption | apply State.dmaWrite_keeps | apply State.setDome_keeps | split | refine Keeps.of_snd ‹_ = (_, _)› ?_

theorem State.traceLoss_keeps {s0 : State} (s : State) (hk : Keeps s0 s) : Keeps s0 (State.traceLoss s) := by
  unfold State.traceLoss
  try dsimp only
  with_reducible repeat'
    first | assumption | apply State.tracePut_keeps | apply Keeps.modDome | refine Keeps.mkState (hp := rfl) ?_ ?_ ?_ ?_
  all_goals rfl

theorem execTraceRecord_keeps {s0 : State} (kind region x y : Nat) (words : List W32) (s : State) (hk : Keeps s0 s) :
    KeepsOut s0 (execTraceRecord kind region x y words s) := by
  unfold execTraceRecord
  try dsimp only
  with_reducible repeat'
    first | assumption | apply KeepsOut.next | apply State.traceDrop_keeps | apply State.traceLoss_keeps | apply State.tracePut_keeps | split

theorem State.traceRoom_keeps {s0 : State} (s : State) (hk : Keeps s0 s) : Keeps s0 (State.traceRoom s) := by
  unfold State.traceRoom
  try dsimp only
  with_reducible repeat'
    first | assumption | apply State.traceLoss_keeps | split

/-! ## RegWrite -/

theorem State.lockViol_keeps {s0 : State} (s : State) (hk : Keeps s0 s) : Keeps s0 (State.lockViol s) := by
  unfold State.lockViol
  try dsimp only
  with_reducible repeat'
    first | assumption | apply State.setDome_keeps

theorem State.domePut_keeps {s0 : State} (s : State) (off : Nat) (v : W32) (hk : Keeps s0 s) : Keeps s0 (State.domePut s off v) := by
  unfold State.domePut
  try dsimp only
  with_reducible repeat'
    first | assumption | apply Keeps.modDome | apply State.lockViol_keeps | split
  all_goals rfl

theorem State.pagePut_keeps {s0 : State} (s : State) (r off : Nat) (v : W32) (hk : Keeps s0 s) : Keeps s0 (State.pagePut s r off v) := by
  unfold State.pagePut
  try dsimp only
  with_reducible repeat'
    first | assumption | apply State.modRegion_keeps | apply State.lockViol_keeps | split

theorem State.whenSet_keeps {s0 : State} (s : State) (f : Fld) (v : W32) (act : State → Host.Outcome State Fault Refusal) (hk : Keeps s0 s)
    (ha : ∀ u, Keeps s0 u → KeepsOut s0 (act u)) : Keeps s0 (State.whenSet s f v act) := by
  unfold State.whenSet
  split
  · exact hk.after _ ha
  · exact hk

theorem State.fndCfgPut_keeps {s0 : State} (s : State) (v : W32) (hk : Keeps s0 s) : Keeps s0 (State.fndCfgPut s v) := by
  unfold State.fndCfgPut
  try dsimp only
  with_reducible repeat'
    first | assumption | apply State.setDome_keeps | apply State.domePut_keeps | split

theorem State.updCtrlPut_keeps {s0 : State} (s : State) (via : Via) (v : W32) (hk : Keeps s0 s) : Keeps s0 (State.updCtrlPut s via v) := by
  unfold State.updCtrlPut
  try dsimp only
  with_reducible repeat'
    first | assumption | apply State.setDome_keeps | apply State.updOpen_keeps | apply State.updClose_keeps | apply State.updAbort_keeps
          | apply State.updErr_keeps | apply Keeps.ite | split

theorem State.updOffsetPut_keeps {s0 : State} (s : State) (via : Via) (v : W32) (hk : Keeps s0 s) : Keeps s0 (State.updOffsetPut s via v) := by
  unfold State.updOffsetPut
  try dsimp only
  with_reducible repeat'
    first | assumption | apply State.domePut_keeps | apply State.updErr_keeps | split

theorem State.eyeCtrlPut_keeps {s0 : State} (s : State) (via : Via) (v : W32) (hk : Keeps s0 s) : Keeps s0 (State.eyeCtrlPut s via v) := by
  unfold State.eyeCtrlPut
  try dsimp only
  with_reducible repeat'
    first | assumption | apply State.tokSubmit_keeps | apply State.whenSet_keeps | apply execNewnonce_keeps | apply execEyepieceClose_keeps
          | intro _ | split

theorem State.eyeAccPut_keeps {s0 : State} (s : State) (v : W32) (hk : Keeps s0 s) : Keeps s0 (State.eyeAccPut s v) := by
  unfold State.eyeAccPut
  try dsimp only
  with_reducible repeat'
    first | assumption | apply State.setDome_keeps | apply State.whenSet_keeps | apply execEyeAccWrite_keeps | apply execEyeAccRead_keeps | intro _
          | split

theorem State.eyeScanPut_keeps {s0 : State} (s : State) (v : W32) (hk : Keeps s0 s) : Keeps s0 (State.eyeScanPut s v) := by
  unfold State.eyeScanPut
  try dsimp only
  with_reducible repeat'
    first | assumption | apply State.setDome_keeps | apply execScanCapture_keeps | apply State.whenSet_keeps | apply execScanShift_keeps | intro _

theorem State.eyeTracePut_keeps {s0 : State} (s : State) (v : W32) (hk : Keeps s0 s) : Keeps s0 (State.eyeTracePut s v) := by
  unfold State.eyeTracePut
  try dsimp only
  with_reducible repeat'
    first | assumption | apply State.domePut_keeps | apply Keeps.modDome | apply State.setDome_keeps | split
  all_goals rfl

theorem State.domeCtrl_keeps {s0 : State} (s : State) (via : Via) (off : Nat) (v : W32) (hk : Keeps s0 s) : Keeps s0 (State.domeCtrl s via off v) := by
  unfold State.domeCtrl
  try dsimp only
  with_reducible repeat'
    first | assumption | apply execAlmEnvelopeWrite_keeps | apply execDomColCtrlWrite_keeps | apply execTckPeriodWrite_keeps
          | apply State.updOffsetPut_keeps | apply execDomFltSuspect_keeps | apply execDomFltReplace_keeps | apply execDomClkenWrite_keeps
          | apply State.eyeTracePut_keeps | apply execTckCtrlWrite_keeps | apply execMclkSrcWrite_keeps | apply execChronoSelect_keeps
          | apply State.updCtrlPut_keeps | apply State.eyeCtrlPut_keeps | apply State.eyeScanPut_keeps | apply execTckEphForce_keeps
          | apply State.fndCfgPut_keeps | apply State.eyeAccPut_keeps | apply State.colEvent_keeps | apply execFinderRun_keeps
          | apply State.traceRoom_keeps | apply State.domePut_keeps | apply State.whenSet_keeps | apply execFallback_keeps | apply Keeps.after | apply Keeps.ite | split
          | dsimp only

theorem State.pageWrite_keeps {s0 : State} (s : State) (r : RegionId) (off : Nat) (v : W32) (hk : Keeps s0 s) : Keeps s0 (State.pageWrite s r off v)
    := by
  unfold State.pageWrite
  try dsimp only
  with_reducible repeat'
    first | assumption | apply Keeps.after | apply execDrvSrcWrite_keeps | apply execDrvFreqWrite_keeps | apply execTrcSrcWrite_keeps
          | apply execTrcCtrlWrite_keeps | apply State.whenSet_keeps | apply State.pagePut_keeps | apply execDrainReq_keeps
          | apply execForcedReplacement_keeps | apply execAlmReserveWrite_keeps | apply execAlmBandThrWrite_keeps | apply execAlmCoefWrite_keeps
          | apply execForceDark_keeps | apply execThmCtrlWrite_keeps | intro _ | split

theorem State.portWrite_keeps {s0 : State} (s : State) (p : PortId) (off : Nat) (v : W32) (hk : Keeps s0 s) : Keeps s0 (State.portWrite s p off v) := by
  unfold State.portWrite
  try dsimp only
  with_reducible repeat'
    first | assumption | apply execZlCredWrite_keeps | apply State.modPort_keeps | apply execZlDisable_keeps | apply execZlRetrain_keeps
          | apply State.whenSet_keeps | apply execZlEnable_keeps | apply Keeps.after | intro _ | apply Keeps.ite | split | dsimp only

theorem State.domeWrite_keeps {s0 : State} (s : State) (via : Via) (off : Nat) (v : W32) (hk : Keeps s0 s) : Keeps s0 (State.domeWrite s via off v)
    := by
  unfold State.domeWrite
  try dsimp only
  with_reducible repeat'
    first | assumption | apply State.domeCtrl_keeps | apply State.pageWrite_keeps | apply State.portWrite_keeps | apply Keeps.after
          | apply State.updWin_keeps | apply Keeps.modDome | intro _ | split
  all_goals rfl

theorem execRegRead_keeps {s0 : State} (off : MctpAt) (s : State) (hk : Keeps s0 s) : KeepsOut s0 (execRegRead off s) := by
  unfold execRegRead
  try dsimp only
  with_reducible repeat'
    first | assumption | apply KeepsOut.next | apply State.mctpReply_keeps | apply State.takeFree_keeps | apply State.domeLatch_keeps | split

theorem execRegWrite_keeps {s0 : State} (off : MctpAt) (v : W32) (s : State) (hk : Keeps s0 s) : KeepsOut s0 (execRegWrite off v s) := by
  unfold execRegWrite
  try dsimp only
  with_reducible repeat'
    first | assumption | apply KeepsOut.next | apply State.mctpReply_keeps | apply State.domeWrite_keeps | split

theorem State.writeWords_keeps {s0 : State} (s : State) (off : Nat) (l : List W32) (hk : Keeps s0 s) : Keeps s0 (State.writeWords s off l) := by
  induction l generalizing s off with
  | nil => exact hk
  | cons v l ih => exact ih _ _ (State.domeWrite_keeps _ _ _ _ hk)

theorem execBlockWrite_keeps {s0 : State} (off : MctpAt) (vs : List W32) (s : State) (hk : Keeps s0 s) : KeepsOut s0 (execBlockWrite off vs s) := by
  unfold execBlockWrite
  try dsimp only
  with_reducible repeat'
    first | assumption | apply KeepsOut.next | apply State.mctpReply_keeps | apply State.writeWords_keeps | split

theorem State.hifWrite_keeps {s0 : State} (s : State) (off : Nat) (v : W32) (hk : Keeps s0 s) : Keeps s0 (State.hifWrite s off v) := by
  unfold State.hifWrite
  try dsimp only
  with_reducible repeat'
    first | assumption | apply Keeps.modHost | apply Keeps.after | apply execPtmTrig_keeps | intro _ | split
          | refine Keeps.mkState (hp := rfl) ?_ ?_ ?_ ?_
  all_goals rfl

theorem State.queueWrite_keeps {s0 : State} (s : State) (q : QueueId) (off : Nat) (v : W32) (hk : Keeps s0 s) :
    Keeps s0 (State.queueWrite s q off v) := by
  unfold State.queueWrite
  try dsimp only
  with_reducible repeat'
    first | assumption | apply State.modHostQ_keeps | apply Keeps.after | apply execQueueEnable_keeps | apply execQueueDisable_keeps | intro _
          | split

theorem State.msixWrite_keeps {s0 : State} (s : State) (off : Nat) (v : W32) (hk : Keeps s0 s) : Keeps s0 (State.msixWrite s off v) := by
  unfold State.msixWrite
  try dsimp only
  with_reducible repeat'
    first | assumption | apply Keeps.modHost | split
  all_goals rfl

theorem execRegisterWrite_keeps {s0 : State} (via : Via) (addr : RegAddr) (v : W32) (s : State) (hk : Keeps s0 s) :
    KeepsOut s0 (execRegisterWrite via addr v s) := by
  unfold execRegisterWrite
  try dsimp only
  with_reducible repeat'
    first | assumption | apply KeepsOut.next | apply State.barCount_keeps | apply State.domeWrite_keeps | apply State.clusterRegWrite_keeps
          | apply State.hifWrite_keeps | apply State.queueWrite_keeps | apply State.msixWrite_keeps | split

/-! ## The commands that reset the host bridge or write its aperture page -/

/-- A state that shares the queue, the counters and host memory. -/
theorem KeepsStores.same {s t u : State} (h : KeepsStores s t) (hp : u.pending = t.pending) (hc : u.dome.ctr = t.dome.ctr) (hm : u.hostMem = t.hostMem) :
    KeepsStores s u :=
  ⟨hp.trans h.pending, fun w => hc ▸ h.ctr w, fun w => hm ▸ h.mem w⟩

theorem State.bridgeReset_keepsStores {s0 : State} (s : State) (link : Bool) (hk : KeepsStores s0 s) : KeepsStores s0 (s.bridgeReset link) := by
  unfold State.bridgeReset
  dsimp only
  split <;> exact hk.same rfl rfl rfl

theorem State.applyInput_keepsStores {s0 : State} (s : State) (hk : KeepsStores s0 s) : KeepsStores s0 s.applyInput := by
  unfold State.applyInput
  have h := State.bridgeReset_keepsStores s.dropLog false (hk.trans (State.dropLog_keeps s (Keeps.refl s)).toKeepsStores)
  dsimp only
  split
  · exact h.same rfl rfl rfl
  · exact h.same rfl rfl rfl

theorem execLinkReset_keepsStores (s t : State) (h : execLinkReset s = .next t) : KeepsStores s t := by
  cases h; exact (State.bridgeReset_keepsStores s false (Keeps.refl s).toKeepsStores).same rfl rfl rfl
theorem execFlr_keepsStores (s t : State) (h : execFlr s = .next t) : KeepsStores s t := by
  cases h; exact (State.bridgeReset_keepsStores s true (Keeps.refl s).toKeepsStores).same rfl rfl rfl
theorem execLinkDown_keepsStores (s t : State) (h : execLinkDown s = .next t) : KeepsStores s t := by
  cases h; exact State.bridgeReset_keepsStores s false (Keeps.refl s).toKeepsStores
theorem execInputRise_keepsStores (s t : State) (h : execInputRise s = .next t) : KeepsStores s t := by
  unfold execInputRise at h
  split at h <;> cases h
  · exact State.applyInput_keepsStores s (Keeps.refl s).toKeepsStores
  · exact (Keeps.refl _).toKeepsStores
theorem execInputReconnect_keepsStores (s t : State) (h : execInputReconnect s = .next t) : KeepsStores s t := by
  unfold execInputReconnect at h
  split at h <;> cases h
  · exact State.applyInput_keepsStores s (Keeps.refl s).toKeepsStores
  · exact (Keeps.refl _).toKeepsStores
theorem execResetN_keepsStores (low : Bool) (s t : State) (h : execResetN low s = .next t) : KeepsStores s t := by
  unfold execResetN at h
  split at h
  · split at h <;> cases h
    · exact (Keeps.refl _).toKeepsStores
    · have h1 : KeepsStores s (s.dropLog.allBreakers 4) := (State.allBreakers_keeps _ 4 (State.dropLog_keeps _ (Keeps.refl s))).toKeepsStores
      generalize s.dropLog.allBreakers 4 = s1 at h1 ⊢
      split
      · exact State.bridgeReset_keepsStores _ _ (h1.same rfl rfl rfl)
      · refine KeepsStores.trans ?_ (State.hifEvent_keeps _ 4 (Keeps.refl _)).toKeepsStores
        refine State.bridgeReset_keepsStores _ _ ?_
        exact h1.same rfl rfl rfl
  · split at h <;> cases h
    · split
      · exact (State.powerOn_keeps s (Keeps.refl s)).toKeepsStores
      · exact (Keeps.refl s).toKeepsStores.same rfl rfl rfl
    · exact (Keeps.refl _).toKeepsStores
theorem execApertureWrite_keepsStores (off : Nat) (v : W32) (host : Bool) (s t : State) (h : execApertureWrite off v host s = .next t) :
    KeepsStores s t := by
  unfold execApertureWrite at h
  split at h
  · cases h; exact (Keeps.refl _).toKeepsStores
  · have hb := (State.barCount_keeps s (Keeps.refl s)).toKeepsStores
    cases h
    split <;> exact hb.same rfl rfl rfl
/-- A write of the aperture page that is not the host's changes nothing (R382). -/
theorem execApertureWrite_dropped (off : Nat) (v : W32) (s : State) : execApertureWrite off v false s = .next s := rfl

end Sys2Proof.Machine
end

