-- ==== Sys2Proof/Tests/Slice0.lean ====
section
/-! SUPPORT. The author's own tests: the checks of WellFormed each refuse an ill-formed command, the operations give the manual's worked examples, and
each statement's hypotheses are met by a state written out here. -/

set_option Elab.async false

open Sys2Proof Sys2Proof.Machine
namespace Sys2Proof.Tests

/-- A page with the fields given. -/
def pageOf (fs : List (Fld × Nat)) : Region := fs.foldl (fun g p => g.wr p.1 p.2) Region.reset
/-- A region that computes: ACTIVE, its drive and its transit clock LOCKED on REF A, and a source READY. -/
def live (fs : List (Fld × Nat)) : Region :=
  pageOf ([(PWR_STATUS_STATE, 2), (PWR_STATUS_RAIL_OK, 63), (DRV_STATUS_STATE, 2), (DRV_STATUS_LOCK, 1), (TRC_STATUS_STATE, 2), (TRC_STATUS_LOCK, 1),
    (DRV_SRC_STATUS_REFA_READY, 1), (TRC_SRC_STATUS_REFA_READY, 1), (TCK_RSCHED_STATE, 2)] ++ fs)
/-- A module whose region 0 is as given. -/
def inRegion (g : Region) : State := State.reset.setRegion 0 g
/-- A module whose region 0 computes, with the dome fields given. -/
def withDome (s : State) (fs : List (Fld × Nat)) : State := fs.foldl (fun t p => t.setDome p.1 p.2) s
/-- A module whose region 0 computes and whose cluster 0 is as given. -/
def inCluster (c : Cluster) : State := (inRegion (live [])).setCluster 0 c

/-- A context word 0: operation, inputs 0 to n - 1 bound to the queues of their numbers, both outputs enabled as given. -/
def ctxWord0 (op n outs : Nat) : Nat := op + (List.range n).foldl (fun a k => a + (8 + k) * 2 ^ (8 + 4 * k)) 0 + outs * 2 ^ 24
/-- The number of inputs that an operation needs. -/
def inputCount (op : Nat) : Nat := match opInputs op with | some (req, _) => req.length | none => 0
/-- A module whose cluster 0 has element 0 ready to fire operation op in context 0, with payload d at every input. -/
def fireWit2 (op : Nat) (d : W64) : State :=
  let tag := fun (k : Nat) => if (k = 1 ∧ (op = 0x30 ∨ op = 0x33)) ∨ (k = 2 ∧ op = 0x31) then Tag.pred else Tag.data
  let x0 := ((Elem.reset.wr (EL_CTX_WORD.nth 0) (ctxWord0 op (inputCount op) (if op = 0x23 then 3 else 1))).wr (EL_OBIND_CREDITS.nth 0) 16).wr
    (EL_OBIND_CREDITS.nth 1) 16
  let x1 := (x0.wr (EL_CTX_WORD.nth 2) 11).setCtx 0 { Ctx.reset with state := .wait }
  let n := if op = 0x32 then 1 else inputCount op
  let x2 := (List.range n).foldl (fun x k => x.setQueue k [⟨if tag k = .pred then 1 else d, tag k, 0, false⟩]) x1
  inCluster (Cluster.reset.setElem 0 x2)
def fireWit (op : Nat) : State := fireWit2 op 5
/-- The same with the tag given at every input. -/
def tagWit (op : Nat) (tg : Nat → Tag) : State :=
  (fireWit op).modElem 0 0 (fun x => (List.range (inputCount op)).foldl (fun y k => y.setQueue k [⟨5, tg k, 0, false⟩]) x)
/-- A COUNT run that has emitted one of three body tokens. -/
def runWit : State :=
  (fireWit 0x38).modElem 0 0 (fun x => (x.setCtx 0 { Ctx.reset with state := .run, run := ⟨5, 3, 0, 1, 0⟩ }).setQueue 0 [])
/-- An ephemeris image (R210): region 0, one slot without work, no cluster placed; its header, three descriptors, and a SCHEDULE of one entry. -/
def ephBody : List Byte :=
  leBytes 2 1 ++ leBytes 2 0 ++ leBytes 4 128 ++ leBytes 4 0 ++ leBytes 4 0 ++
  leBytes 2 4 ++ leBytes 2 0 ++ leBytes 4 128 ++ leBytes 4 0 ++ leBytes 4 0 ++
  leBytes 2 7 ++ leBytes 2 0 ++ leBytes 4 128 ++ leBytes 4 16 ++ leBytes 4 1 ++ List.replicate 16 0 ++
  leBytes 4 (2 ^ 29) ++ List.replicate 60 0
def ephImage : List Byte :=
  leBytes 4 0x4D485045 ++ leBytes 2 1 ++ leBytes 2 0 ++ leBytes 4 192 ++ leBytes 4 0x7A12 ++ leBytes 4 1 ++ leBytes 4 0xFFFFFFFF ++
  leBytes 16 1 ++ leBytes 2 3 ++ List.replicate 18 0 ++ leBytes 4 (crc32 ephBody) ++ ephBody
def ephParsed : EphImg := ⟨ephImage, 0, 0x7A12, 1, 0xFFFFFFFF, [0], [], [], [], [], [], [], [2 ^ 29]⟩
/-- A module whose catalogue holds that image at its start, with region 0 in use. -/
def norEph : State :=
  { (withDome (inRegion (live [])) [(CAT_STATUS_RUN_VALID, 1), (DOM_FLT_STATUS_MSTATE, 1)]) with
    dome := { (withDome State.reset [(CAT_STATUS_RUN_VALID, 1), (DOM_FLT_STATUS_MSTATE, 1)]).dome with
      nor0 := (ephImage.zipIdx.map (fun p => (p.2, p.1))).filter (fun p => p.2 != 0xFF), standing := [(2, 0, 192)] } }
/-- A narrow-port request token of a kind (R189): address 40, all bytes, element 3, response queue 1. -/
def npReq (kind : Nat) : W64 := BitVec.ofNat 64 (40 + 255 * 2 ^ 21 + kind * 2 ^ 29 + 3 * 2 ^ 32 + 2 ^ 37)
/-- A cluster whose table 0 is valid: FP32, one granule, one shard at (0, 0), 100 rows. -/
def tuTable (u : Tu) : Cluster :=
  (((((({ Cluster.reset with tu := u }.wr (TU_TAB_CFG_VALID.nth 0) 1).wr (TU_TAB_CFG_FMT.nth 0) 11).wr (TU_TAB_CFG_GRAN.nth 0) 1).wr
    (TU_TAB_SHARDS_SHARDS.nth 0) 1).wr (TU_TAB_ROWS_ROWS.nth 0) 100).wr TU_IDX_ACTIVE_SLOTG 1).wr TU_CBIND_VALID 1
/-- A table unit with the descriptor of a ring-form job of one bag at queue 2. -/
def tuRing (w0 : W64) : Tu :=
  { Tu.reset with queues := [(2, ⟨[], [⟨w0, .data, 0, false⟩, ⟨1, .data, 0, false⟩], true, false⟩)] }
/-- The first way of the set of ID n of table 0, at seed 0 and size code 0. -/
def tuSet (n : Nat) : Nat := 8 * (tuTable Tu.reset).idxSet 0 n
/-- A packet of an opcode from and to cluster 0 of module 0, endpoint 36. -/
def mkPkt (opc : Nat) : Pkt := ⟨opc, 0, 0, 0, 36, 0, 0, 0, 36, 0, 0, 0, false, false, false, false, 0, List.replicate 8 0, none⟩
/-- A receive stream from cluster (3, 0), channel 0. -/
def rStream : RecvStream := ⟨0, 0, 3, 36, 0, 0, true, [], 0, none, false, 0, 0, false⟩
/-- A tracked item with every field zero. -/
def xItem : Xfer := ⟨4, 0, 0, 0, false, 0, 0, 0, 0, 0, 36, 0, 1, 0, false, 0, 0, [], 0⟩
/-- The tokens of a transfer descriptor: opcode and tag 9, word 1, word 3. -/
def teToks (opc : Nat) (w1 w3 : W64) : List Tok :=
  [⟨BitVec.ofNat 64 (2 ^ 63 + 9 * 2 ^ 16 + opc), .data, 0, false⟩, ⟨w1, .data, 0, false⟩, ⟨0, .data, 0, false⟩, ⟨w3, .data, 0, false⟩]
/-- A cluster with that descriptor at input queue 1. -/
def teQueued (opc : Nat) (w1 w3 : W64) : Cluster := { Cluster.reset with te := { Te.reset with queues := [(1, teToks opc w1 w3)] } }
/-- A module whose port 0 is UP in a live region, with the port's fields given. -/
def upPort (fs : List (Fld × Nat)) : State :=
  ((State.reset.setRegion (regionOf (portCluster 0)) (live [(TRC_STATUS_STATE, 2)]))).setPort 0
    ((([(ZL_STATUS_STATE, 5)] ++ fs : List (Fld × Nat)).foldl (fun (z : Port) p => z.wr p.1 p.2) Port.reset))
/-- A queue in RUN of 16 entries and 16 records, with the fields given. -/
def qRun (fs : List (Fld × Nat)) : HostQ :=
  ([(HIF_Q_STATUS_STATE, 1), (HIF_Q_SIZE_SQ_LOG2, 4), (HIF_Q_SIZE_CQ_LOG2, 4), (HIF_Q_CQ_TAIL_PHASE, 1)] ++ fs : List (Fld × Nat)).foldl
    (fun (h : HostQ) p => h.wr p.1 p.2) HostQ.reset
/-- A READY module, its attachment at (39, 0) in service, an open aperture from 0 to 1 MiB, and queue 3 as given. -/
def hostUp (h : HostQ) : State :=
  ((((((State.reset.setRegion 3 (live [])).setHif HIF_STATUS_READY 1).setApr HIF_APR_BASE_LO_EN 1).setApr HIF_APR_BASE_LO_RD 1).setApr
    HIF_APR_BASE_LO_WR 1).setApr HIF_APR_LIM_LO_LIM_LO 255).setHostQ 3 h
/-- A submission entry of an operation: CID 7, host address 64, module address 0, length n. -/
def sqEntry (opc n : Nat) : List W64 := [BitVec.ofNat 64 (opc + 7 * 2 ^ 16), 64, 0, BitVec.ofNat 64 n, 0, 0, 0, 0]
/-- A READY module whose queue 3 has that entry at its front. -/
def jobUp (opc n : Nat) : State := hostUp { qRun [] with sqTail := 1, entries := [sqEntry opc n] }
/-- The same with window 0 of BAR2 at module address 0. -/
def barUp : State := (hostUp (qRun [])).setHif HIF_WIN_LO_EN 1
/-- A module whose dome controller runs, with its registers' fields given. -/
def domeOn (fs : List (Fld × Nat)) : State := withDome (State.reset.modDome (fun d => { d with input := true })) fs
/-- A module in step k of its start. -/
def starting (k : Nat) (fs : List (Fld × Nat)) : State :=
  (domeOn ([(CAT_STATUS_STEP, k)] ++ fs)).modDome (fun d => { d with starting := true, watchdog := true, waves := 7 })
/-- An observation of a step without faults. -/
def obsOk : StartObs := ⟨⟨true, true, [], []⟩, true, [], 12⟩
/-- A CLEAR_REPLACE token of the right form, for the start numbered n. -/
def clearToken (n : Nat) : List Byte := leBytes 4 0x4E454B54 ++ leBytes 4 1 ++ leBytes 4 0 ++ leBytes 4 n ++ List.replicate 180 0
/-- An OPEN_EYEPIECE token of the right form: every scope, 100 ticks. -/
def openToken : List Byte := leBytes 4 0x4E454B54 ++ leBytes 4 (2 + 15 * 2 ^ 8) ++ leBytes 4 100 ++ leBytes 4 0 ++ List.replicate 180 0
/-- A module whose eyepiece is open with every scope. -/
def eyeOn (fs : List (Fld × Nat)) : State := domeOn ([(EYE_STATUS_OPEN, 1), (EYE_STATUS_SCOPE, 15)] ++ fs)

/-! ## Helpers -/

/-- The state a command leaves; the reset state where it answers none. -/
def after (o : Host.Outcome State Fault Refusal) : State := match o with | .next t => t | _ => State.reset
/-- The payloads that element 0 of cluster 0 emitted on output 0. -/
def sent (o : Host.Outcome State Fault Refusal) : List W64 := (((after o).cluster 0).elem 0).out0.map (fun k => k.data)

/-- An operation with payload d at IN0 and the immediate given. -/
def immWit (op : Nat) (d : W64) (imm : Nat) : State := (fireWit2 op d).modElem 0 0 (fun x => x.wr (EL_CTX_WORD.nth 1) imm)

/-! ## WellFormed refuses -/

/-- A frame header without credits owed. -/
def hdr0 : FrameHdr := ⟨false, false, 0, 0, 0, 0, false, [0, 0, 0, 0]⟩
/-- A link word of a packet. -/
def link0 (p : Pkt) : LinkPkt := ⟨0, 0, 0, p⟩

theorem test_wf_pkt_opcode : (mkPkt 32).wellFormed = false := by decide
theorem test_wf_pkt_fields : ({ mkPkt 2 with dmod := 4096 }.wellFormed || { mkPkt 2 with dy := 128 }.wellFormed || { mkPkt 2 with dx := 128 }.wellFormed ||
    { mkPkt 2 with dep := 64 }.wellFormed || { mkPkt 2 with smod := 4096 }.wellFormed || { mkPkt 2 with sy := 128 }.wellFormed ||
    { mkPkt 2 with sx := 128 }.wellFormed || { mkPkt 2 with sep := 64 }.wellFormed || { mkPkt 2 with chan := 8 }.wellFormed ||
    { mkPkt 2 with seq := 256 }.wellFormed || { mkPkt 2 with age := 65536 }.wellFormed || { mkPkt 2 with rsv := 64 }.wellFormed ||
    { mkPkt 2 with pay := [] }.wellFormed) = false := by decide
theorem test_wf_pkt_accepts : (mkPkt 2).wellFormed = true := by decide
theorem test_wf_link : ({ link0 (mkPkt 2) with hops := 64 }.wellFormed || { link0 (mkPkt 2) with vc := 2 }.wellFormed ||
    { link0 (mkPkt 2) with cls := 2 }.wellFormed) = false := by decide
theorem test_wf_header : ({ hdr0 with fseq := 4096 }.wellFormed || { hdr0 with ackSeq := 4096 }.wellFormed || { hdr0 with credits := [0] }.wellFormed ||
    { hdr0 with credits := [256, 0, 0, 0] }.wellFormed) = false := by decide
theorem test_wf_record : ((⟨2 ^ 64, 0, false, 0, 0, 0, none, []⟩ : AdjRec).wellFormed || (⟨5, 0, false, 4, 0, 0, none, []⟩ : AdjRec).wellFormed ||
    (⟨5, 0, false, 0, 0, 0, none, [⟨64, 0, 0, 0, 0⟩]⟩ : AdjRec).wellFormed) = false := by decide
theorem test_wf_col_record : ((⟨false, false, 4096, 0, 0, 0, 0, 0, 0⟩ : ColRec).wellFormed || (⟨false, false, 0, 0, 0, 0, 2 ^ 128, 0, 0⟩ : ColRec).wellFormed) =
    false := by decide
theorem test_wf_data_frame : (Instr.zlDataFrame 0 hdr0 (List.replicate 4 (link0 (mkPkt 2)))).wellFormed = false := by decide
theorem test_wf_finder_frame : (Instr.zlFinderFrame 0 hdr0 (.finder ⟨5, 0, false, 4, 0, 0, none, []⟩)).wellFormed = false := by decide
theorem test_wf_idle_frame : (Instr.zlIdleFrame 0 { hdr0 with ackSeq := 4096 }).wellFormed = false := by decide
theorem test_wf_train : (Instr.zlTrainColumn 0 ⟨0, 64, 0, 0, 0, 0, 0⟩).wellFormed = false := by decide
theorem test_wf_sensors : (Instr.sensorConversion 0 []).wellFormed = false := by decide
theorem test_wf_store_sensors : (Instr.storeSensorConversion 0 [none]).wellFormed = false := by decide
theorem test_wf_root_tick : (Instr.rootTick (2 ^ 64) 0 0 0).wellFormed = false := by decide
theorem test_wf_flips : ((Instr.dsGranuleRead 0 0 [(67, 1)]).wellFormed || (Instr.dsPartialWrite 0 0 [(0, 0)]).wellFormed ||
    (Instr.dsScrub 0 [(67, 1)]).wellFormed) = false := by decide
theorem test_wf_tick_column : (Instr.zlTickColumn 0 (2 ^ 64) 0 0).wellFormed = false := by decide
theorem test_wf_cartridge : ((Instr.cartridgeInsert 0 256).wellFormed || (Instr.cartridgeLow 0 false 256).wellFormed) = false := by decide
theorem test_wf_ptm : (Instr.ptmTrig (2 ^ 64) 0).wellFormed = false := by decide
theorem test_wf_bar2 : ((Instr.bar2Read 0 0).wellFormed || (Instr.bar2Read 0 4097).wellFormed || (Instr.bar2Read (2 ^ 37 - 1) 2).wellFormed ||
    (Instr.bar2Write 0 []).wellFormed) = false := by decide
theorem test_wf_aperture : ((Instr.apertureWrite 2 0 true).wellFormed || (Instr.apertureWrite 4096 0 true).wellFormed) = false := by decide
theorem test_wf_link_training : ((Instr.linkTraining 0 16).wellFormed || (Instr.linkTraining 5 17).wellFormed) = false := by decide
theorem test_wf_window : (Instr.updWinWrite 65536 0 .bar0).wellFormed = false := by decide
theorem test_wf_eyepiece : ((Instr.regRead ⟨2 ^ 32, true⟩).wellFormed || (Instr.regWrite ⟨2 ^ 32, true⟩ 0).wellFormed ||
    (Instr.traceRecord 0 0 0 0 []).wellFormed || (Instr.traceRecord 5 0 0 0 []).wellFormed || (Instr.traceRecord 1 128 0 0 []).wellFormed) = false := by
  decide
theorem test_wf_register_write : ((Instr.registerWrite .bar0 (.dome 2) 0).wellFormed || (Instr.registerWrite .bar0 (.page 0 0x1000) 0).wellFormed ||
    (Instr.registerWrite .bar0 (.port 0 0x100) 0).wellFormed || (Instr.registerWrite .bar0 (.cluster 0 0x20000) 0).wellFormed ||
    (Instr.registerWrite .bar0 (.hif 0x10000) 0).wellFormed || (Instr.registerWrite .bar0 (.queue 0 0x40) 0).wellFormed ||
    (Instr.registerWrite .bar0 (.bar4 0x4000) 0).wellFormed) = false := by decide
theorem test_wf_mctp : (Instr.mctpControl 256).wellFormed = false := by decide

/-! ## The manual's worked examples -/

/-- Chapter 0: cluster (23, 57) lies in region 58, a north half. -/
theorem test_region_of_cluster : regionOf (cidx 23 57) = 58 ∧ halfOf 58 = 1 := by decide
/-- Chapter 1: cluster (64, 93) is record 7,504 and lies in region 94; it is a table-unit cluster. -/
theorem test_cluster_record : cidx 64 93 = 7504 ∧ regionOf 7504 = 94 ∧ hasTu 7504 = true := by decide
/-- Chapter 1: cluster (12, 40) is record 3,212 of region 41, and holds no table unit. -/
theorem test_cluster_record_3212 : cidx 12 40 = 3212 ∧ regionOf 3212 = 41 ∧ hasTu 3212 = false := by decide
/-- R20: port 2k of the west edge sits in cluster (0, 105 - 14k). -/
theorem test_port_clusters : portCluster 0 = cidx 5 0 ∧ portCluster 17 = cidx 79 7 ∧ portCluster 47 = cidx 5 111 ∧ portCluster 62 = cidx 0 7 := by decide
/-- Chapter 2: a root of 3.35 GHz is MULT 0x86, POSTDIV 0, VCODE 30. -/
theorem test_freq_write : (after (execDrvFreqWrite 0 0x1E0086#32 (inRegion (live [])))).region 0 |>.rd DRV_FREQ_MULT |> (· = 134) := by decide +kernel
/-- Chapter 3: THM_MAX 0x1A4 is 105.0 °C, and with PARK at its reset of 105 the region parks. -/
theorem test_park_heat : ((after (execSensorConversion 0 (List.replicate 18 0x1A4) (inRegion (live [])))).region 0).rd THM_STATUS_PARK = 1 := by
  decide +kernel
/-- Chapter 3: 60,000 W at 31,250 periods is 12,000,000 µJ (in units of 100 pJ). -/
theorem test_envelope : (withDome State.reset [(ALM_ENVELOPE_WATTS, 60000), (TCK_PERIOD_PERIOD, 31250)]).envelopeE = 12000000 * 10000 := by decide +kernel
/-- Chapter 4: element 5 to element 20 is 16 hops clockwise, on ring 0. -/
theorem test_ring_distance : ringHops 5 20 = 16 ∧ ringOf 5 20 0 = 0 := by decide
/-- Chapter 4: the worked slot of element 5's FP32 1.0 to queue 2 of element 20: bits [87:64] read 0x0082_2944. -/
theorem test_slot_word : (let c := { Cluster.reset with ringToks := [⟨0, 5, 0, 20, 2, ⟨0x3F800000, .data, 1, false⟩, 9⟩] }
    (c.slotWord 0 9 % 2 ^ 64, c.slotWord 0 9 / 2 ^ 64 % 2 ^ 24)) = (0x3F800000, 0x00822944) := by decide +kernel
/-- R330: an IDLE frame of zeros has KIND 0 and ends in the CRC-32 of its first 252 bytes. -/
theorem test_frame_bytes : (frameBytes hdr0 none).length = 256 ∧ (frameBytes hdr0 none).drop 252 = leBytes 4 (crc32 (List.replicate 252 0)) := by
  decide +kernel
/-- Chapter 4: ALM_RESERVE of region 58 lies at dome offset 0x0013_A104. -/
theorem test_page_offset : 0x100000 + 0x1000 * 58 + ALM_RESERVE_RESERVE.off = 0x13A104 := by decide
/-- Chapter 6: the FP8 step (448, 2⁻⁹, −448, 2⁻⁹) · (448, 1, 448, 1) accumulates 2⁻⁸. -/
theorem test_cube_step :
    cubeStep 0 (some 0) (([(0x7E, 0x7E), (0x01, 0x38), (0xFE, 0x7E), (0x01, 0x38)] : List (Nat × Nat)).map (fun p => (decodeEl 0 p.1, decodeEl 0 p.2))) =
      0x3B800000 := by decide +kernel
/-- Chapter 6: 300.0 to FP8 E4M3, nearest and with the two draws. -/
theorem test_e4m3_300 : encodeFloat .rne true 0 (f32 0x43960000) = 0x79 ∧ encodeFloat (.sr 0xB34F12) true 0 (f32 0x43960000) = 0x7A ∧
    encodeFloat (.sr 0x2C0001) true 0 (f32 0x43960000) = 0x79 := by decide +kernel
/-- Chapter 6: 460.0 to FP8 E4M3; rounded up it overflows. -/
theorem test_e4m3_460 : encodeFloat .rne true 0 (f32 0x43E60000) = 0x7E ∧ encodeFloat (.sr 0xFFFFFF) true 0 (f32 0x43E60000) = 0x7E ∧
    encodeFloat (.sr 0xFFFFFF) false 0 (f32 0x43E60000) = 0x7F := by decide +kernel
/-- Chapter 6: 3.1, −1.3, 0.2 and 0.75 to MXFP4 with scale 0x7E. -/
theorem test_mxfp4 : toMx 6 [0x40466666, 0xBFA66666, 0x3E4CCCCD, 0x3F400000] = (0x7E, [0x7, 0xD, 0x0, 0x3]) := by decide +kernel
/-- Chapter 6: the seed of cluster (23, 57), array 1, at STEP 0x0100_002A. -/
theorem test_sr_seed : srSeed 0x0100002A 23 57 1 = srMix (0x01002A ^^^ srMix 0x725E00) := by decide +kernel
/-- Chapter 7: the COUNT example's word 0 reads OP 0x38, EPOCH 1, IN0 at queue 0 and both outputs. -/
theorem test_count_word : (wordView 0x03000878).op = 0x38 ∧ (wordView 0x03000878).epoch = 1 ∧ (wordView 0x03000878).inQ 0 = some 0 ∧
    (wordView 0x03000878).outEn 0 = true ∧ (wordView 0x03000878).outEn 1 = true := by decide +kernel
/-- Chapter 8: with four slots and LOOP 3, position 6 names slot 3. -/
theorem test_slot_due : ({ Region.reset with sched := List.replicate 4 ⟨0, false, false, false, false, 0, 0, 0, false⟩, loop := some 3 }).slotIndex 6 = some 3 := by
  decide +kernel
/-- Chapter 10: an FP8 strip of RB 4 with block rows 0 and 2 of 40 and 9 elements takes 145 bytes and one row; its header word. -/
theorem test_strip : (let o := stripOut 0 4 true (List.replicate 40 0x38 ++ List.replicate 472 0 ++ List.replicate 9 0x38 ++ List.replicate 503 0)
    (o.size, o.rows, o.comp, leNat (o.bytes.take 8), leNat (sliceOf o.bytes 8 8))) = (145, 1, true, 0x0000003100010002, 5) := by decide +kernel
/-- Chapter 10: the header words of a dense 64 × 256 FP8 plate of finite values. -/
theorem test_plate_header : (let h := plateHeader 0 64 256 ⟨List.replicate 16 false, 16384, 64, 0, true, false⟩
    (hdrWord h 0, hdrWord h 1)) = (0x3001, 0x01000040) := by decide +kernel
/-- Chapter 14: placement record 5, E4M3 element 0x7E at byte 0x18_0025. -/
theorem test_col_hash : colHash 0 5 0 (3072 * 512 + 37) 0x7E = 0x0000000500180025000000000000007E ^ 3 % colPrime := by decide +kernel
/-- Chapter 15: module address 0x1494_0000_0000 is cluster (20, 41), and lies nearer attachment (39, 0). -/
theorem test_module_address : addrX 0x149400000000 = 20 ∧ addrY 0x149400000000 = 41 ∧ addrSpace 0x149400000000 = 0 := by decide
/-- Chapter 17: a token with ACTION 2 and SCOPE 0x04 for 0xC350 ticks. -/
theorem test_token_fields : (let b := leBytes 4 0x4E454B54 ++ leBytes 4 (2 + 4 * 2 ^ 8) ++ leBytes 4 0xC350 ++ List.replicate 184 0
    (tokAction b, tokScope b, tokDuration b)) = (2, 4, 50000) := by decide +kernel
/-- Integer corners of R180: the high product of the most negative numbers, and the arithmetic shift. -/
theorem test_imulh_isra : sent (execImulh 0 0 0 (immWit 0x04 0x80000000 0x80000000)) = [0x40000000] ∧
    sent (execIsra 0 0 0 (immWit 0x0A 0x80000004 4)) = [0xF8000000] := by
  decide +kernel
/-- FP32 corners of R180 to R182: 1.0 + 1.0, and 1 / 0. -/
theorem test_fadd_frcp : sent (execFadd 0 0 0 (immWit 0x10 0x3F800000 0x3F800000)) = [0x40000000] ∧
    sent (execFrcp 0 0 0 (fireWit2 0x17 0)) = [0x7F800000] := by
  decide +kernel
/-- A deep-store granule without errors verifies, and one wrong symbol is corrected (R268). -/
theorem test_granule_code : (let d := List.replicate 64 (7 : Byte); rsVerify 0 d (rsCheck 0 d)) = .clean ∧
    (let d := List.replicate 64 (7 : Byte); rsVerify 0 (9 :: d.drop 1) (rsCheck 0 d)) = .corrected 0 14 := by decide +kernel
/-- No word spells a command: the table gives no row bits. -/
theorem test_no_words : decodeTableWord 32 0 = none ∧ State.reset.withFetchWord 32 5 = State.reset := by decide +kernel
/-- One step runs the front command, and an empty queue idles. -/
theorem test_step_front : (after (step { State.reset with pending := [.cartridgeRemove 3, .moduleHalt] })).pending = [.moduleHalt] := by decide +kernel
theorem test_step_idle : step State.reset = .next State.reset := rfl

/-- Two symbols in error are detected (R264). -/
theorem test_granule_two_errors : (let d := List.replicate 64 (7 : Byte); rsVerify 0 (9 :: 5 :: d.drop 2) (rsCheck 0 d)) = .bad := by decide +kernel

/-- A command whose C shares a row with its A has undefined results (R129). -/
theorem test_overlapping_operands :
    (⟨[0x2008771, 0x400100020, 0, 0, 0, 0, 0, 0], 0, 0, 0, 0⟩ : MuCmd).overlaps = true ∧
    (⟨[0x2008771, 0x400100020, 0, 0x0000010000800040, 0, 0, 0, 0], 0, 0, 0, 0⟩ : MuCmd).overlaps = false := by decide +kernel

/-! ## The statements' hypotheses are met -/

/-- The operations of one input and two, three inputs and requests: DATA at every input lets each fire. -/
theorem test_met_integerOperations :
    ∀ op ∈ ([0x00, 0x01, 0x02, 0x03, 0x04, 0x05, 0x06, 0x07, 0x08, 0x09, 0x0A, 0x0B, 0x0C, 0x0D, 0x0E, 0x25] : List Nat),
      (fireWit op).mayFire 0 0 0 op = true ∧ ((fireWit op).fireView 0 0 0 []).acts = true := by decide +kernel
theorem test_met_floatOperations :
    (∀ op ∈ ([0x10, 0x11, 0x12, 0x13, 0x14, 0x15, 0x16, 0x17, 0x18, 0x19, 0x1A] : List Nat),
      (fireWit op).mayFire 0 0 0 op = true ∧ ((fireWit op).fireView 0 0 0 []).acts = true) ∧
    (∃ k, (fireWit 0x1B).mayFire 0 0 0 0x1B = true ∧ ((fireWit 0x1B).fireView 0 0 0 []).head 0 = some k ∧ k.tag.isData = true ∧ k.poison = false) ∧
    (∃ k, (tagWit 0x1B (fun _ => .last)).mayFire 0 0 0 0x1B = true ∧ ((tagWit 0x1B (fun _ => .last)).fireView 0 0 0 []).head 0 = some k ∧ k.tag = .last ∧
      k.poison = false) :=
  ⟨by decide +kernel, ⟨⟨5, .data, 0, false⟩, by decide +kernel⟩, ⟨⟨5, .last, 0, false⟩, by decide +kernel⟩⟩
theorem test_met_laneOperations :
    (∀ op ∈ ([0x1C, 0x1D, 0x1E, 0x1F, 0x20, 0x21, 0x22, 0x24] : List Nat),
      (fireWit op).mayFire 0 0 0 op = true ∧ ((fireWit op).fireView 0 0 0 []).acts = true) ∧
    (∃ k, (fireWit 0x23).mayFire 0 0 0 0x23 = true ∧ ((fireWit 0x23).fireView 0 0 0 []).head 0 = some k ∧ k.tag.isData = true ∧ k.poison = false ∧
      (((fireWit 0x23).cluster 0).elem 0).block.length < 30) ∧
    (∃ (s : State) (k : Tok), s.mayFire 0 0 0 0x23 = true ∧ (s.fireView 0 0 0 []).head 0 = some k ∧ k.tag.isData = true ∧ k.poison = false ∧
      ((s.cluster 0).elem 0).block.length = 30) :=
  ⟨by decide +kernel, ⟨⟨5, .data, 0, false⟩, by decide +kernel⟩,
    ⟨(fireWit 0x23).modElem 0 0 (fun x => { x with block := List.replicate 30 0 }), ⟨5, .data, 0, false⟩, by decide +kernel⟩⟩
/-- An operation with PMODE 1 and its predicate at queue 3, whose tags at the inputs are as given. -/
def mixWit (op : Nat) (tg : Nat → Tag) : State :=
  (tagWit op tg).modElem 0 0 (fun x => (x.wr (EL_CTX_WORD.nth 0) (x.ctxWord 0 0 + 11 * 2 ^ 20 + 2 ^ 28)).setQueue 3 [⟨1, tg 3, 0, false⟩])
theorem test_met_tagsDecideFirings :
    (∀ op ∈ passers.map (fun p => p.2.1),
      (tagWit op (fun _ => .mark)).mayFire 0 0 0 op = true ∧ ((tagWit op (fun _ => .mark)).fireView 0 0 0 []).headsAre (fun a => a == .mark) = true) ∧
    (∀ op ∈ passers.map (fun p => p.2.1) ++ [0x3E],
      let s := mixWit op (fun k => if k = 3 then .last else .data)
      s.mayFire 0 0 0 op = true ∧ (s.fireView 0 0 0 []).boundIns.all (fun k => ((s.fireView 0 0 0 []).head k).isSome) = true ∧
      ∀ tg ∈ ([Tag.isData, (fun a => a == .last), (fun a => a == .mark)] : List (Tag → Bool)),
        (s.fireView 0 0 0 []).boundIns.all (fun k => (((s.fireView 0 0 0 []).head k).map (fun t => tg t.tag)).getD false) = false) := by decide +kernel
/-- The same with the predicate at queue 3 as given and queue 3 poisoned or not. -/
def predWit (op : Nat) (w : W64) (poison : Bool) : State :=
  (mixWit op (fun _ => .data)).modElem 0 0 (fun x => x.setQueue 3 [⟨w, .data, 0, poison⟩])
theorem test_met_tagsDecideFirings_predicate :
    ∀ op ∈ passers.map (fun p => p.2.1) ++ [0x3E],
      (predWit op 0 false).mayFire 0 0 0 op = true ∧ ((predWit op 0 false).fireView 0 0 0 []).headsAre Tag.isData = true ∧
      ((predWit op 0 false).fireView 0 0 0 []).misses = true ∧ (predWit op 1 true).mayFire 0 0 0 op = true ∧
      ((predWit op 1 true).fireView 0 0 0 []).poisoned ((predWit op 1 true).fireView 0 0 0 []).boundIns = true := by decide +kernel
theorem test_met_tagsDecideFirings_filter :
    (tagWit 0x3E (fun _ => .last)).mayFire 0 0 0 0x3E = true ∧ (tagWit 0x33 (fun _ => .last)).mayFire 0 0 0 0x33 = true ∧
    (tagWit 0x33 (fun k => if k = 1 then .last else .data)).mayFire 0 0 0 0x33 = true ∧
    ((fireWit 0x33).modElem 0 0 (fun x => x.setQueue 0 [⟨5, .data, 0, true⟩])).mayFire 0 0 0 0x33 = true := by decide +kernel
theorem test_met_everyStepKeepsTheStores : Counters.wf State.reset.dome.ctr = true ∧ Memory.wf State.reset.hostMem = true ∧
    step State.reset = .next State.reset :=
  ⟨by decide +kernel, by decide +kernel, rfl⟩
theorem test_met_replaceFollowsTheCounter :
    (∃ s : State, s.clocked 8 = true ∧ s.dome.ctr.rpl % 2 = 0) ∧ (∃ s : State, s.clocked 8 = true ∧ s.dome.ctr.rpl % 2 = 1) ∧
    (∃ s t : State, Counters.wf s.dome.ctr = true ∧ s.dome.ctr.rpl = 15 ∧ step s = .next t) :=
  ⟨⟨domeOn [], by decide +kernel⟩, ⟨(domeOn []).modDome (fun d => { d with ctr := { d.ctr with rpl := 1 } }), by decide +kernel⟩,
    ⟨State.reset.modDome (fun d => { d with ctr := { d.ctr with rpl := 15 } }), _, by decide +kernel, by decide +kernel, rfl⟩⟩
theorem test_met_apertureBoundsBridgeDma :
    (∃ r : Nat, 4096 * (State.reset.setApr HIF_APR_BASE_LO_BASE_LO 1).apr (HIF_APR_LIM_LO_LIM_LO.nth r) +
        2 ^ 32 * (State.reset.setApr HIF_APR_BASE_LO_BASE_LO 1).apr (HIF_APR_LIM_HI_LIM_HI.nth r) <
      4096 * (State.reset.setApr HIF_APR_BASE_LO_BASE_LO 1).apr (HIF_APR_BASE_LO_BASE_LO.nth r) +
        2 ^ 32 * (State.reset.setApr HIF_APR_BASE_LO_BASE_LO 1).apr (HIF_APR_BASE_HI_BASE_HI.nth r)) ∧
    State.reset.aprAllows 0 64 true = false ∧ State.reset.dome.resetLow = false ∧
    (match Sys2Proof.Machine.execModuleHalt State.reset with | .next _ => True | _ => False) :=
  ⟨⟨0, by decide +kernel⟩, by decide +kernel, rfl, trivial⟩

/-- A state and operands for each clause of ReadyRestoresLock that has hypotheses. -/
theorem test_met_readyRestoresLock :
    (∃ (s : State) (r : RegionId), (s.alive r.val = true)) ∧
    (∃ (src : Src), (srcCode src ≤ 1)) ∧
    (∃ (s : State) (r : RegionId), (s.alive r.val = true)) ∧
    (∃ (src : Src), (srcCode src ≤ 1)) :=
  ⟨⟨inRegion (live [(DRV_STATUS_STATE, 4), (TRC_STATUS_STATE, 4)]), 0, by decide +kernel⟩,
    ⟨.refB, by decide +kernel⟩,
    ⟨inRegion (live []), 0, by decide +kernel⟩,
    ⟨.refA, by decide +kernel⟩⟩

/-- A state and operands for each clause of ReferenceLossHoldsOver that has hypotheses. -/
theorem test_met_referenceLossHoldsOver :
    (∃ (s : State) (r : RegionId) (src : Src), (s.alive r.val = true) ∧ ((s.region r.val).rd DRV_SRC_SEL = srcCode src) ∧
      ((s.region r.val).rd DRV_STATUS_STATE = 2) ∧ ((s.region r.val).rd (drvReady (srcCode src)) = 1)) ∧
    (∃ (s : State) (r : RegionId) (src : Src), (s.alive r.val = true) ∧ ((s.region r.val).rd TRC_SRC_SEL = srcCode src) ∧
      ((s.region r.val).rd TRC_STATUS_STATE = 2) ∧ ((s.region r.val).rd (trcReady (srcCode src)) = 1)) ∧
    (∃ (s : State), (s.dome_ TCK_CTRL_MODE = 1)) ∧
    (∃ (s : State), (s.dome_ TCK_CTRL_MODE = 1)) :=
  ⟨⟨inRegion (live []), 0, .refA, by decide +kernel⟩,
    ⟨inRegion (live []), 0, .refA, by decide +kernel⟩,
    ⟨withDome State.reset [(TCK_CTRL_MODE, 1)], by decide +kernel⟩,
    ⟨withDome State.reset [(TCK_CTRL_MODE, 1)], by decide +kernel⟩⟩

/-- A state and operands for each clause of SourceSelection that has hypotheses. -/
theorem test_met_sourceSelection :
    (∃ (s : State) (r : RegionId) (v : W32), (s.pageOpen r.val = true) ∧ (DRV_SRC_SEL.of v ≠ 3) ∧
      ((s.region r.val).rd (drvReady (DRV_SRC_SEL.of v)) ≠ 0)) ∧
    (∃ (s : State) (r : RegionId) (v : W32), (s.pageOpen r.val = true) ∧
      (DRV_SRC_SEL.of v = 3 ∨ (s.region r.val).rd (drvReady (DRV_SRC_SEL.of v)) = 0)) ∧
    (∃ (s : State) (r : RegionId) (v : W32), (s.pageOpen r.val = true) ∧ (TRC_SRC_SEL.of v ≠ 3) ∧
      ((s.region r.val).rd (trcReady (TRC_SRC_SEL.of v)) ≠ 0)) ∧
    (∃ (s : State) (r : RegionId) (v : W32), (s.pageOpen r.val = true) ∧
      (TRC_SRC_SEL.of v = 3 ∨ (s.region r.val).rd (trcReady (TRC_SRC_SEL.of v)) = 0)) :=
  ⟨⟨inRegion (live [(DRV_SRC_STATUS_REFB_READY, 1)]), 0, 1#32, by decide +kernel⟩,
    ⟨inRegion (live []), 0, 3#32, by decide +kernel⟩,
    ⟨inRegion (live []), 0, 0#32, by decide +kernel⟩,
    ⟨inRegion (live []), 0, 2#32, by decide +kernel⟩⟩

/-- A state and operands for each clause of PageRegisterWrites that has hypotheses. -/
theorem test_met_pageRegisterWrites :
    (∃ (s : State) (r : RegionId), (s.pageOpen r.val = true)) ∧
    (∃ (s : State) (r : RegionId), (s.pageOpen r.val = true)) ∧
    (∃ (s : State) (r : RegionId), (s.pageOpen r.val = true)) ∧
    (∃ (s : State) (r : RegionId), (s.pageOpen r.val = true)) ∧
    (∃ (s : State) (r : RegionId), (s.pageOpen r.val = true)) ∧
    (∃ (s : State) (r : RegionId), (s.pageOpen r.val = true) ∧ (s.dome.locked = false)) ∧
    (∃ (s : State) (r : RegionId) (v : W32), (s.pageOpen r.val = true) ∧ (s.dome.locked = true) ∧
      (THM_CTRL_WARN.of v ≠ (s.region r.val).rd THM_CTRL_WARN)) :=
  ⟨⟨inRegion (live []), 0, by decide +kernel⟩,
    ⟨inRegion (live []), 0, by decide +kernel⟩,
    ⟨inRegion (live []), 0, by decide +kernel⟩,
    ⟨inRegion (live []), 0, by decide +kernel⟩,
    ⟨inRegion (live []), 0, by decide +kernel⟩,
    ⟨inRegion (live []), 0, by decide +kernel⟩,
    ⟨(inRegion (live [])).modDome (fun d => { d with locked := true }), 0, 1#32, by decide +kernel⟩⟩

/-- A state and operands for each clause of GeneratorFailures that has hypotheses. -/
theorem test_met_generatorFailures :
    (∃ (s : State) (r : RegionId), ((s.region r.val).rd DRV_STATUS_STATE = 1) ∧
      ((s.region r.val).rd (drvReady ((s.region r.val).rd DRV_SRC_SEL)) = 1)) ∧
    (∃ (s : State) (r : RegionId), ((s.region r.val).rd TRC_STATUS_STATE = 1) ∧
      ((s.region r.val).rd (trcReady ((s.region r.val).rd TRC_SRC_SEL)) = 1)) ∧
    (∃ (s : State) (r : RegionId), ((s.region r.val).rd DRV_STATUS_STATE = 1)) ∧
    (∃ (s : State) (r : RegionId), ((s.region r.val).rd TRC_STATUS_STATE = 1)) ∧
    (∃ (s : State) (r : RegionId), ((s.region r.val).rd DRV_STATUS_STATE = 2)) ∧
    (∃ (s : State) (r : RegionId), ((s.region r.val).rd DRV_STATUS_STATE = 3)) ∧
    (∃ (s : State) (r : RegionId), ((s.region r.val).rd TRC_STATUS_STATE = 2)) ∧
    (∃ (s : State) (r : RegionId), ((s.region r.val).rd TRC_STATUS_STATE = 4) ∧ ((s.region r.val).trcTry = true)) ∧
    (∃ (s : State) (r : RegionId), ((s.region r.val).rd TRC_STATUS_STATE = 4) ∧ ((s.region r.val).trcTry = true)) ∧
    (∃ (s : State) (r : RegionId), ((s.region r.val).rd DRV_STATUS_STATE = 4)) :=
  ⟨⟨inRegion (live [(DRV_STATUS_STATE, 1)]), 0, by decide +kernel⟩,
    ⟨inRegion (live [(TRC_STATUS_STATE, 1)]), 0, by decide +kernel⟩,
    ⟨inRegion (live [(DRV_STATUS_STATE, 1)]), 0, by decide +kernel⟩,
    ⟨inRegion (live [(TRC_STATUS_STATE, 1)]), 0, by decide +kernel⟩,
    ⟨inRegion (live []), 0, by decide +kernel⟩,
    ⟨inRegion (live [(DRV_STATUS_STATE, 3)]), 0, by decide +kernel⟩,
    ⟨inRegion (live []), 0, by decide +kernel⟩,
    ⟨inRegion { live [(TRC_STATUS_STATE, 4)] with trcTry := true }, 0, by decide +kernel⟩,
    ⟨inRegion { live [(TRC_STATUS_STATE, 4)] with trcTry := true }, 0, by decide +kernel⟩,
    ⟨inRegion (live [(DRV_STATUS_STATE, 4)]), 0, by decide +kernel⟩⟩

/-- A state and operands for each clause of MarkersAndTicks that has hypotheses. -/
theorem test_met_markersAndTicks :
    (∃ (s : State) (r : RegionId), (s.alive r.val = true)) ∧
    (∃ (s : State) (r : RegionId) (n : Nat), (s.alive r.val = true) ∧ (n ≤ s.dome_ TCK_PERIOD_PERIOD) ∧
      (s.dome_ TCK_PERIOD_PERIOD < n + s.dome_ TCK_PERIOD_PERIOD / 8)) ∧
    (∃ (s : State) (r : RegionId) (n : Nat), (s.alive r.val = true) ∧ ((s.region r.val).lastLocal = true) ∧ (n < s.dome_ TCK_PERIOD_PERIOD / 8)) ∧
    (∃ (s : State) (r : RegionId) (n : Nat), (s.alive r.val = true) ∧ ((s.region r.val).lastLocal = false) ∧ (s.dome_ TCK_PERIOD_PERIOD < n) ∧
      (n < s.dome_ TCK_PERIOD_PERIOD + s.dome_ TCK_PERIOD_PERIOD / 8)) ∧
    (∃ (s : State) (r : RegionId) (n : Nat), (s.alive r.val = true) ∧
      (s.dome_ TCK_PERIOD_PERIOD < n ∨ n + s.dome_ TCK_PERIOD_PERIOD / 8 ≤ s.dome_ TCK_PERIOD_PERIOD) ∧
      ((s.region r.val).lastLocal = false ∨ s.dome_ TCK_PERIOD_PERIOD / 8 ≤ n) ∧
      ((s.region r.val).lastLocal = true ∨ n ≤ s.dome_ TCK_PERIOD_PERIOD ∨ s.dome_ TCK_PERIOD_PERIOD + s.dome_ TCK_PERIOD_PERIOD / 8 ≤ n) ∧
      ((s.region r.val).sched_ = 0)) ∧
    (∃ (s : State) (r : RegionId), (s.alive r.val = true) ∧ ((s.region r.val).armed = true) ∧ ((s.region r.val).sched_ = 0) ∧
      ((s.region r.val).swapsDue = [])) ∧
    (∃ (s : State) (r : RegionId), (s.alive r.val = true) ∧ ((s.region r.val).armed = false) ∧ ((s.region r.val).sched_ = 0)) :=
  ⟨⟨inRegion (live []), 0, by decide +kernel⟩,
    ⟨inRegion (live []), 0, 31250, by decide +kernel⟩,
    ⟨inRegion { live [(TCK_RSTATUS_LOCAL, 1)] with lastLocal := true }, 0, 100, by decide +kernel⟩,
    ⟨inRegion (live []), 0, 31251, by decide +kernel⟩,
    ⟨inRegion (live [(TCK_RSCHED_STATE, 0)]), 0, 40000, by decide +kernel⟩,
    ⟨inRegion { live [(TCK_RSCHED_STATE, 0)] with armed := true }, 0, by decide +kernel⟩,
    ⟨inRegion { live [(TCK_RSCHED_STATE, 0)] with locals := 1 }, 0, by decide +kernel⟩⟩

/-- A state and operands for each clause of TickOverrun that has hypotheses. -/
theorem test_met_tickOverrun :
    (∃ (s : State) (r : RegionId) (e : Slot), (s.alive r.val = true) ∧ ((s.region r.val).armed = true) ∧ ((s.region r.val).sched_ = 2) ∧
      ((s.region r.val).slot = some e) ∧ (0 < e.budget) ∧ ((s.region r.val).power = 2) ∧ ((s.region r.val).rd PWR_STATUS_PARK_CAUSE = 0)) :=
  ⟨inRegion { live [] with armed := true, slot := some ⟨100, true, false, false, false, 0, 0, 0, false⟩, balance := -5 }, 0, ⟨100, true, false, false, false, 0, 0, 0, false⟩, by decide +kernel⟩

/-- A state and operands for each clause of RootTickCounts that has hypotheses. -/
theorem test_met_rootTickCounts :
    (∃ (s : State), (s.dome.input = true)) :=
  ⟨State.reset.modDome (fun d => { d with input := true }), by decide +kernel⟩

/-- A state and operands for each clause of LatchingReads that has hypotheses. -/
theorem test_met_latchingReads :
    (∃ (s : State), (s.ready = true) ∧ (s.host.posted = [])) ∧
    (∃ (s : State), (s.ready = false) ∧ (s.host.posted = [])) ∧
    (∃ (s : State), (s.ready = true) ∧ (s.host.posted ≠ [])) ∧
    (∃ (s : State) (r : RegionId), (s.ready = true) ∧ (s.host.posted = []) ∧ (s.pageOpen r.val = true)) ∧
    (∃ (s : State) (r : RegionId), (s.ready = true) ∧ (s.host.posted = []) ∧ (s.pageOpen r.val = false)) ∧
    (∃ (s : State) (r : RegionId), (s.ready = true) ∧ (s.host.posted = []) ∧ (s.pageOpen r.val = true)) ∧
    (∃ (s : State) (r : RegionId), (s.ready = true) ∧ (s.host.posted = []) ∧ (s.pageOpen r.val = false)) :=
  ⟨⟨(hostUp HostQ.reset).modDome (fun d => { d with ptm := 0x2540BE400, ticks := 50001 }), by decide +kernel⟩,
    ⟨State.reset, by decide +kernel⟩,
    ⟨(hostUp HostQ.reset).modHost (fun h => { h with posted := [⟨4, 8, 1⟩] }), by decide +kernel⟩,
    ⟨(hostUp HostQ.reset).setRegion 0 { live [] with num := 0x100000003 }, 0, by decide +kernel⟩,
    ⟨(hostUp HostQ.reset).setRegion 0 (live [(PWR_STATUS_STATE, 6)]), 0, by decide +kernel⟩,
    ⟨(hostUp HostQ.reset).setRegion 0 { live [] with balance := -1 }, 0, by decide +kernel⟩,
    ⟨(hostUp HostQ.reset).setRegion 0 (live [(PWR_STATUS_STATE, 6)]), 0, by decide +kernel⟩⟩

/-- A state and operands for each clause of LockedModuleRegisters that has hypotheses. -/
theorem test_met_lockedModuleRegisters :
    (∃ (s : State) (v : W32), (s.dome.locked = false) ∧ (1250 ≤ TCK_PERIOD_PERIOD.of v) ∧ (TCK_PERIOD_PERIOD.of v ≤ 2500000)) ∧
    (∃ (s : State) (v : W32), (s.dome.locked = false) ∧ (TCK_PERIOD_PERIOD.of v < 1250 ∨ 2500000 < TCK_PERIOD_PERIOD.of v)) ∧
    (∃ (s : State), (s.dome.locked = true)) ∧
    (∃ (s : State), (s.dome.locked = false)) ∧
    (∃ (s : State) (v : W32), (s.dome.locked = true) ∧
      (TCK_CTRL_MODE.of v ≠ s.dome_ TCK_CTRL_MODE ∨ TCK_CTRL_MASTER_SRC.of v ≠ s.dome_ TCK_CTRL_MASTER_SRC ∨       TCK_CTRL_SLIP_LIMIT.of v ≠ s.dome_ TCK_CTRL_SLIP_LIMIT ∨ TCK_CTRL_RCV_PORT.of v ≠ s.dome_ TCK_CTRL_RCV_PORT)) ∧
    (∃ (s : State) (v : W32), (s.dome.locked = true) ∧ (TCK_CTRL_MODE.of v = s.dome_ TCK_CTRL_MODE) ∧
      (TCK_CTRL_MASTER_SRC.of v = s.dome_ TCK_CTRL_MASTER_SRC) ∧ (TCK_CTRL_SLIP_LIMIT.of v = s.dome_ TCK_CTRL_SLIP_LIMIT) ∧
      (TCK_CTRL_RCV_PORT.of v = s.dome_ TCK_CTRL_RCV_PORT)) ∧
    (∃ (s : State), (s.dome.envLocked = false)) ∧
    (∃ (s : State) (v : W32), (s.dome.envLocked = true) ∧ (ALM_ENVELOPE_WATTS.of v ≠ s.dome_ ALM_ENVELOPE_WATTS)) ∧
    (∃ (s : State) (v : W32), (s.dome.envLocked = true) ∧ (ALM_ENVELOPE_WATTS.of v = s.dome_ ALM_ENVELOPE_WATTS)) :=
  ⟨⟨State.reset, 1250#32, by decide +kernel⟩,
    ⟨State.reset, 1249#32, by decide +kernel⟩,
    ⟨State.reset.modDome (fun d => { d with locked := true }), by decide +kernel⟩,
    ⟨State.reset, by decide +kernel⟩,
    ⟨State.reset.modDome (fun d => { d with locked := true }), 0x3F0F06#32, by decide +kernel⟩,
    ⟨(withDome State.reset [(TCK_CTRL_MODE, 0), (TCK_CTRL_MASTER_SRC, 0), (TCK_CTRL_SLIP_LIMIT, 0), (TCK_CTRL_RCV_PORT, 0)]).modDome (fun d => { d with locked := true }), 0#32, by decide +kernel⟩,
    ⟨State.reset, by decide +kernel⟩,
    ⟨State.reset.modDome (fun d => { d with envLocked := true }), 1000#32, by decide +kernel⟩,
    ⟨(withDome State.reset [(ALM_ENVELOPE_WATTS, 1000)]).modDome (fun d => { d with envLocked := true }), 1000#32, by decide +kernel⟩⟩

/-- A state and operands for each clause of StretchesAndDebits that has hypotheses. -/
theorem test_met_stretchesAndDebits :
    (∃ (s : State) (r : RegionId) (mv : Nat), ((s.region r.val).computing = true) ∧ (5 * (s.region r.val).rd DRV_SEE_CTRL_THRESH < mv)) ∧
    (∃ (s : State) (r : RegionId) (mv : Nat), (s.alive r.val = true) ∧ (5 * (s.region r.val).rd TRC_SEE_CTRL_THRESH < mv)) ∧
    (∃ (s : State) (r : RegionId) (a : Nat), ((s.region r.val).computing = true) ∧ (10 * (s.region r.val).rd PWR_ILIM_LIMIT < a)) ∧
    (∃ (s : State) (r : RegionId), (s.alive r.val = true) ∧ ((s.region r.val).rd DRV_STATUS_STATE ≠ 3)) ∧
    (∃ (s : State) (r : RegionId), ((s.region r.val).rd DRV_STATUS_STATE = 3) ∧ ((s.region r.val).startDue = false)) :=
  ⟨⟨inRegion (live []), 0, 500, by decide +kernel⟩,
    ⟨inRegion (live []), 0, 500, by decide +kernel⟩,
    ⟨inRegion (live []), 0, 5000, by decide +kernel⟩,
    ⟨inRegion { live [] with balance := 5, reserve := 1 }, 0, by decide +kernel⟩,
    ⟨inRegion (live [(DRV_STATUS_STATE, 3)]), 0, by decide +kernel⟩⟩

/-- A state and operands for each clause of BreakersOpen that has hypotheses. -/
theorem test_met_breakersOpen :
    (∃ (s : State) (r : RegionId) (rail : Fin 6) (a : Nat), (railTrip rail.val < a) ∧ ((s.region r.val).power ≠ 0) ∧
      (((s.region r.val).rd PWR_BRK_TRIP).testBit rail.val = false) ∧
      (((s.region r.val).rd PWR_BRK_TRIP ||| cascade (2 ^ rail.val)) ≠ (s.region r.val).rd PWR_BRK_TRIP)) ∧
    (∃ (s : State) (r : RegionId) (rail : Fin 6) (a : Nat), (a ≤ railTrip rail.val) ∧ ((s.region r.val).power ≠ 0) ∧
      (((s.region r.val).rd PWR_BRK_TRIP).testBit rail.val = false)) ∧
    (∃ (s : State) (r : RegionId), (s.pageOpen r.val = true) ∧ ((s.region r.val).power ≠ 0) ∧ ((s.region r.val).rd PWR_BRK_TRIP ≠ 63)) ∧
    (∃ (s : State) (r : RegionId), ((s.region r.val).power ≠ 0) ∧ ((s.region r.val).rd PWR_BRK_TRIP ≠ 63)) ∧
    (∃ (s : State) (r : RegionId), ((s.region r.val).power = 1) ∧ ((s.region r.val).rd PWR_BRK_TRIP ≠ 63)) :=
  ⟨⟨inRegion (live []), 0, 0, 4001, by decide +kernel⟩,
    ⟨inRegion (live []), 0, 2, 1200, by decide +kernel⟩,
    ⟨inRegion (live []), 0, by decide +kernel⟩,
    ⟨inRegion (live [(PWR_STATUS_STATE, 4)]), 0, by decide +kernel⟩,
    ⟨inRegion (live [(PWR_STATUS_STATE, 1)]), 0, by decide +kernel⟩⟩

/-- A state and operands for each clause of RampParkAndHeat that has hypotheses. -/
theorem test_met_rampParkAndHeat :
    (∃ (s : State) (r : RegionId), ((s.region r.val).power = 1) ∧ ((s.region r.val).rd PWR_BRK_TRIP = 0)) ∧
    (∃ (s : State) (r : RegionId), ((s.region r.val).power = 3)) ∧
    (∃ (s : State), (s.dome.starting = true) ∧ (s.dome.waves < 7) ∧ (s.dome_ CAT_STATUS_STEP = 3)) ∧
    (∃ (s : State) (r : RegionId), (s.alive r.val = true)) ∧
    (∃ (s : State) (r : RegionId) (l : List Nat) (k : Fin 2), (s.alive r.val = true) ∧ (hasSensor r.val (16 + k.val) = true) ∧
      (380 ≤ l.getD (16 + k.val) 0 % 2048)) ∧
    (∃ (s : State) (r : RegionId) (l : List Nat) (k : Fin 16), (s.alive r.val = true) ∧ (440 ≤ l.getD k.val 0 % 2048)) ∧
    (∃ (s : State) (r : RegionId) (l : List Nat) (k : Fin 16), (s.alive r.val = true) ∧ ((s.region r.val).rd PWR_STATUS_PARK_CAUSE = 0) ∧
      (4 * (s.region r.val).rd THM_CTRL_PARK ≤ l.getD k.val 0 % 2048)) :=
  ⟨⟨inRegion (live [(PWR_STATUS_STATE, 1), (DRV_STATUS_STATE, 0)]), 0, by decide +kernel⟩,
    ⟨inRegion (live [(PWR_STATUS_STATE, 3)]), 0, by decide +kernel⟩,
    ⟨withDome (State.reset.modDome (fun d => { d with starting := true, waves := 6 })) [(CAT_STATUS_STEP, 3)], by decide +kernel⟩,
    ⟨inRegion (live []), 0, by decide +kernel⟩,
    ⟨(State.reset.setRegion 3 (live [])), 3, [0, 0, 0, 0, 0, 0, 0, 0, 0, 0, 0, 0, 0, 0, 0, 0, 380], 0, by decide +kernel⟩,
    ⟨inRegion (live []), 0, [440], 0, by decide +kernel⟩,
    ⟨inRegion (live [(THM_CTRL_PARK, 105)]), 0, [420], 0, by decide +kernel⟩⟩

/-- A state and operands for each clause of InputPowerAndReset that has hypotheses. -/
theorem test_met_inputPowerAndReset :
    (∃ (s : State), (s.dome.input = true)) ∧
    (∃ (s : State), (s.dome.input = false ∨ s.dome.inputOff = true) ∧ (s.dome.resetLow = false)) ∧
    (∃ (s : State), (s.dome.inputOff = true) ∧ (s.dome.resetLow = false)) ∧
    (∃ (s : State), (s.dome.input = false ∨ s.dome.inputOff = true) ∧ (s.dome.resetLow = true)) ∧
    (∃ (s : State), (s.dome.inputOff = true) ∧ (s.dome.resetLow = true)) ∧
    (∃ (s : State), (s.dome.resetLow = false)) ∧
    (∃ (s : State), (s.dome.resetLow = true) ∧ (s.dome.input = true) ∧ (s.dome.inputOff = false)) :=
  ⟨⟨(inRegion (live [])).modDome (fun d => { d with input := true }), by decide +kernel⟩,
    ⟨inRegion (live []), by decide +kernel⟩,
    ⟨(inRegion (live [])).modDome (fun d => { d with inputOff := true }), by decide +kernel⟩,
    ⟨(inRegion (live [])).modDome (fun d => { d with resetLow := true }), by decide +kernel⟩,
    ⟨(inRegion (live [])).modDome (fun d => { d with inputOff := true, resetLow := true }), by decide +kernel⟩,
    ⟨inRegion (live []), by decide +kernel⟩,
    ⟨(inRegion (live [])).modDome (fun d => { d with resetLow := true, input := true }), by decide +kernel⟩⟩

/-- A state and operands for each clause of RingTokensMove that has hypotheses. -/
theorem test_met_ringTokensMove :
    (∃ (s : State) (c : ClusterId) (stop : Fin 37) (out : Fin 2) (k : RingTok) (rest : List RingTok) (j : Nat), (s.runs c.val = true) ∧
      ((s.cluster c.val).waiting stop.val out.val = k :: rest) ∧ (k.dst ≠ stop.val) ∧ ((s.cluster c.val).slotFor k.ring stop.val = some j)) ∧
    (∃ (s : State) (c : ClusterId) (e : Fin 32) (out : Fin 2) (k : RingTok) (rest : List RingTok), (s.runs c.val = true) ∧
      ((s.cluster c.val).waiting e.val out.val = k :: rest) ∧ (k.dst = e.val) ∧ (((s.cluster c.val).elem e.val).faultedQueue k.queue = false)) ∧
    (∃ (s : State) (c : ClusterId) (stop : Fin 37) (out : Fin 2) (k : RingTok) (rest : List RingTok) (j : Nat), (s.runs c.val = true) ∧
      ((s.cluster c.val).waiting stop.val out.val = k :: rest) ∧ (k.dst ≠ stop.val) ∧ ((s.cluster c.val).reserved k.ring stop.val = false) ∧
      (((s.cluster c.val).slotsUsed k.ring).find? (fun x => !((s.cluster c.val).slotsResv k.ring).contains x) = some j)) ∧
    (∃ (s : State) (c : ClusterId) (e : Fin 32) (ring : Fin 4) (k : RingTok) (rest : List RingTok), (s.runs c.val = true) ∧
      (takeFirst (fun u => u.ring == ring.val && u.dst == e.val && u.src != 33) (s.cluster c.val).ringToks = some (k, rest)) ∧
      (((s.cluster c.val).elem e.val).faultedQueue k.queue = false)) ∧
    (∃ (s : State) (c : ClusterId) (e : Fin 32) (ring : Fin 4) (k : RingCredit) (rest : List RingCredit), (s.runs c.val = true) ∧
      (takeFirst (fun (u : RingCredit) => u.ring == ring.val && u.stop == e.val && u.slot.isSome) (s.cluster c.val).ringCreds = some (k, rest))) ∧
    (∃ (s : State) (c : ClusterId) (stop : Fin 37) (ring : Fin 4) (k : RingCredit) (rest : List RingCredit), (s.runs c.val = true) ∧
      (takeFirst (fun (u : RingCredit) => u.ring == ring.val && u.stop == stop.val && u.slot.isSome) (s.cluster c.val).ringCreds = some (k, rest))) :=
  ⟨⟨inCluster ((Cluster.reset.setElem 3 { Elem.reset.wr (EL_OBIND_DST_STOP.nth 0) 5 with out0 := [⟨7, .data, 0, false⟩] })), 0, 3, 0, ⟨0, 3, 0, 5, 0, ⟨7, .data, 0, false⟩, 0⟩, [], 0, by decide +kernel⟩,
    ⟨inCluster ((Cluster.reset.setElem 3 { Elem.reset.wr (EL_OBIND_DST_STOP.nth 0) 3 with out0 := [⟨7, .data, 0, false⟩] })), 0, 3, 0, ⟨0, 3, 0, 3, 0, ⟨7, .data, 0, false⟩, 0⟩, [], by decide +kernel⟩,
    ⟨inCluster ((Cluster.reset.setElem 3 { Elem.reset.wr (EL_OBIND_DST_STOP.nth 0) 5 with out0 := [⟨7, .data, 0, false⟩] }) |> fun c => { c with ringToks := [⟨0, 1, 0, 2, 0, ⟨7, .data, 0, false⟩, 4⟩] }), 0, 3, 0, ⟨0, 3, 0, 5, 0, ⟨7, .data, 0, false⟩, 0⟩, [], 4, by decide +kernel⟩,
    ⟨inCluster { Cluster.reset with ringToks := [⟨0, 3, 0, 5, 1, ⟨7, .data, 0, false⟩, 2⟩] }, 0, 5, 0, ⟨0, 3, 0, 5, 1, ⟨7, .data, 0, false⟩, 2⟩, [], by decide +kernel⟩,
    ⟨inCluster { Cluster.reset with ringCreds := [⟨2, 3, 1, some 0⟩] }, 0, 3, 2, ⟨2, 3, 1, some 0⟩, [], by decide +kernel⟩,
    ⟨inCluster { Cluster.reset with ringCreds := [⟨2, 3, 1, some 0⟩] }, 0, 3, 2, ⟨2, 3, 1, some 0⟩, [], by decide +kernel⟩⟩

/-- A state and operands for each clause of MatrixCommandPorts that has hypotheses. -/
theorem test_met_matrixCommandPorts :
    (∃ (s : State) (c : ClusterId) (l : Fin 8) (k : Tok) (rest : List Tok), (s.runs c.val = true) ∧
      (((s.cluster c.val).mu.lane l.val).full = false) ∧ (((s.cluster c.val).mu.lane l.val).discard = false) ∧
      (((s.cluster c.val).mu.lane l.val).toks = k :: rest) ∧ (k.epoch = (s.region (regionOf c.val)).rd TCK_RSCHED_EPOCH) ∧
      (((s.cluster c.val).mu.lane l.val).words.length = 0 ∨ k.epoch = ((s.cluster c.val).mu.lane l.val).epoch) ∧
      ((((s.cluster c.val).mu.lane l.val).words.length < 7 ∧ k.tag = .data) ∨ (((s.cluster c.val).mu.lane l.val).words.length = 7 ∧
      k.tag = .last))) ∧
    (∃ (s : State) (c : ClusterId) (l : Fin 8) (k : Tok) (rest : List Tok), (s.runs c.val = true) ∧
      (((s.cluster c.val).mu.lane l.val).full = false) ∧ (((s.cluster c.val).mu.lane l.val).discard = false) ∧
      (((s.cluster c.val).mu.lane l.val).toks = k :: rest) ∧ (k.epoch = (s.region (regionOf c.val)).rd TCK_RSCHED_EPOCH) ∧
      (((s.cluster c.val).mu.lane l.val).words.length < 7) ∧ (k.tag ≠ .data)) ∧
    (∃ (s : State) (c : ClusterId) (l : Fin 8) (k : Tok) (rest : List Tok), (s.runs c.val = true) ∧
      (((s.cluster c.val).mu.lane l.val).full = false) ∧ (((s.cluster c.val).mu.lane l.val).discard = false) ∧
      (((s.cluster c.val).mu.lane l.val).toks = k :: rest) ∧ (((s.cluster c.val).mu.lane l.val).words ≠ []) ∧
      (k.epoch ≠ ((s.cluster c.val).mu.lane l.val).epoch)) ∧
    (∃ (s : State) (c : ClusterId), ((s.cluster c.val).rd MU_LIST_CTRL_ACTIVE ≠ 1)) ∧
    (∃ (s : State) (c : ClusterId) (u : List Nat), (s.runs c.val = true) ∧ ((s.cluster c.val).rd MU_LIST_CTRL_ACTIVE ≠ 0) ∧
      ((s.cluster c.val).mu.list = []) ∧ ((s.region (regionOf c.val)).listPaused = false) ∧
      ((s.cluster c.val).rowsPoisoned (512 * (s.cluster c.val).rd MU_LIST_CTRL_NEXT) 512 = false) ∧
      (((s.upset c.val u).cluster c.val).badBytes (512 * (s.cluster c.val).rd MU_LIST_CTRL_NEXT) 512 (fun _ => true) = [])) ∧
    (∃ (s : State) (c : ClusterId) (k : Nat), (s.runs c.val = true) ∧ ((s.cluster c.val).mu.queue.length < 16) ∧
      ((s.cluster c.val).mu.nextSource (s.region (regionOf c.val)).listPaused 9 (s.cluster c.val).mu.rr = some k) ∧ (k < 8)) ∧
    (∃ (s : State) (c : ClusterId) (x : List W64) (rest : List (List W64)), (s.runs c.val = true) ∧ ((s.cluster c.val).mu.queue.length < 16) ∧
      ((s.cluster c.val).mu.nextSource (s.region (regionOf c.val)).listPaused 9 (s.cluster c.val).mu.rr = some 8) ∧
      ((s.cluster c.val).mu.list = x :: rest) ∧ ((s.cluster c.val).rd MU_LIST_CTRL_ACTIVE = 1)) ∧
    (∃ (s : State) (c : ClusterId), (s.suppressed c.val = false) ∧ ((s.region (regionOf c.val)).drainedState = true)) ∧
    (∃ (s : State) (c : ClusterId), (s.suppressed c.val = false) ∧ ((s.region (regionOf c.val)).drainedState = false)) ∧
    (∃ (s : State) (c : ClusterId), (s.suppressed c.val = true)) :=
  ⟨⟨inCluster { Cluster.reset with mu := Mu.reset.setLane 2 { Lane.reset with toks := [⟨5, .last, 0, false⟩], words := [0, 0, 0, 0, 0, 0, 0] } }, 0, 2, ⟨5, .last, 0, false⟩, [], by decide +kernel⟩,
    ⟨inCluster { Cluster.reset with mu := Mu.reset.setLane 2 { Lane.reset with toks := [⟨5, .mark, 0, false⟩], words := [0, 0] } }, 0, 2, ⟨5, .mark, 0, false⟩, [], by decide +kernel⟩,
    ⟨inCluster { Cluster.reset with mu := Mu.reset.setLane 2 { Lane.reset with toks := [⟨5, .data, 1, false⟩], words := [0, 0] } }, 0, 2, ⟨5, .data, 1, false⟩, [], by decide +kernel⟩,
    ⟨inCluster Cluster.reset, 0, by decide +kernel⟩,
    ⟨inCluster ({ Cluster.reset with mem := [(512, 1), (600, 2)] }.wr MU_LIST_CTRL_ACTIVE 1 |>.wr MU_LIST_CTRL_NEXT 1), 0, [], by decide +kernel⟩,
    ⟨inCluster { Cluster.reset with mu := Mu.reset.setLane 2 { Lane.reset with full := true, words := [0, 0, 0, 0, 0, 0, 0, 9] } }, 0, 2, by decide +kernel⟩,
    ⟨inCluster ({ Cluster.reset with mu := { Mu.reset with list := [[0, 0, 0, 0, 0, 0, 0, 9]] } }.wr MU_LIST_CTRL_ACTIVE 1), 0, [0, 0, 0, 0, 0, 0, 0, 9], [], by decide +kernel⟩,
    ⟨inRegion (live [(TCK_RDRAIN_DRAINED, 1), (TCK_RSCHED_STATE, 4)]), 0, by decide +kernel⟩,
    ⟨inCluster Cluster.reset, 0, by decide +kernel⟩,
    ⟨inRegion (pageOf [(PWR_STATUS_STATE, 5)]), 0, by decide +kernel⟩⟩

/-- A state and operands for each clause of MatrixCommandsRetire that has hypotheses. -/
theorem test_met_matrixCommandsRetire :
    (∃ (s : State) (c : ClusterId) (m : MuCmd) (rest : List MuCmd), ((s.cluster c.val).mu.queue = m :: rest) ∧ (s.runs c.val = true) ∧
      (m.status = 0) ∧ (m.opc = 0) ∧ ((s.cluster c.val).mu.cqFree = true) ∧ (m.fence = false ∨ (s.cluster c.val).mu.written = true)) ∧
    (∃ (s : State) (c : ClusterId) (m : MuCmd) (rest : List MuCmd), ((s.cluster c.val).mu.queue = m :: rest) ∧ (s.runs c.val = true) ∧
      (m.status ≠ 0) ∧ ((s.cluster c.val).mu.cqFree = true)) ∧
    (∃ (s : State) (c : ClusterId) (m : MuCmd) (rest : List MuCmd), ((s.cluster c.val).mu.queue = m :: rest) ∧ (s.runs c.val = true) ∧
      (m.status = 0) ∧ (m.opc = 1) ∧ (m.chain = 2 ∨ m.chain = 3) ∧
      (((s.cluster c.val).mu.folding.map (fun (g : OpenChain) => g.failed)) = some true) ∧ ((s.cluster c.val).mu.cqFree = true)) ∧
    (∃ (s : State) (c : ClusterId) (r : MuRun) (rest : List MuRun), (takeFirst MuRun.done (s.cluster c.val).mu.runs = some (r, rest)) ∧
      (s.runs c.val = true) ∧ (r.stale = false) ∧ ((s.cluster c.val).mu.cq.length < 16)) ∧
    (∃ (s : State) (c : ClusterId) (r : MuRun) (rest : List MuRun), (takeFirst MuRun.done (s.cluster c.val).mu.runs = some (r, rest)) ∧
      (s.runs c.val = true) ∧ (r.stale = true) ∧ ((s.cluster c.val).mu.cq.length < 16)) ∧
    (∃ (s : State) (c : ClusterId) (b : Fin 8) (d : MuDone) (rest : List MuDone), (s.runs c.val = true) ∧
      ((s.cluster c.val).rd (MU_CBIND_CREDITS.nth b.val) ≠ 0) ∧
      (takeFirst (fun (q : MuDone) => q.cbind == b.val && q.seq ==       ((s.cluster c.val).mu.cq.filter (fun q => q.cbind == b.val)).foldl (fun a q => min a q.seq) (s.cluster c.val).mu.serial) (s.cluster c.val).mu.cq = some (d, rest)) ∧
      ((s.cluster c.val).mu.runs.any (fun r => r.cmd.cbind == b.val && r.cmd.cen && decide (r.cmd.seq < d.seq)) = false)) :=
  ⟨⟨inCluster { Cluster.reset with mu := { Mu.reset with queue := [⟨[0, 0, 0, 0, 0, 0, 0, 9], 0, 0, 0, 1⟩] } }, 0, ⟨[0, 0, 0, 0, 0, 0, 0, 9], 0, 0, 0, 1⟩, [], by decide +kernel⟩,
    ⟨inCluster { Cluster.reset with mu := { Mu.reset with queue := [⟨[0, 0, 0, 0, 0, 0, 0, 9], 0, 0, 1, 1⟩] } }, 0, ⟨[0, 0, 0, 0, 0, 0, 0, 9], 0, 0, 1, 1⟩, [], by decide +kernel⟩,
    ⟨inCluster { Cluster.reset with mu := { Mu.reset with folding := some ⟨true, true, 0⟩, queue := [⟨[0x2C08771, 0x400100020, 0, 0, 0, 0, 0, 0], 0, 0, 0, 1⟩] } }, 0, ⟨[0x2C08771, 0x400100020, 0, 0, 0, 0, 0, 0], 0, 0, 0, 1⟩, [], by decide +kernel⟩,
    ⟨inCluster ({ Cluster.reset with mu := { Mu.reset with runs := [⟨⟨[1, 0, 0, 0, 0, 0, 0, 0x80009], 0, 0, 0, 1⟩, [], 0, none, none, [], 0, 0, true, 0, false, false, [], false, PlateSum.start, [], ([], false), ([], false)⟩] } }.wr (MU_CBIND_VALID.nth 0) 1), 0, ⟨⟨[1, 0, 0, 0, 0, 0, 0, 0x80009], 0, 0, 0, 1⟩, [], 0, none, none, [], 0, 0, true, 0, false, false, [], false, PlateSum.start, [], ([], false), ([], false)⟩, [], by decide +kernel⟩,
    ⟨inCluster { Cluster.reset with mu := { Mu.reset with runs := [⟨⟨[1, 0, 0, 0, 0, 0, 0, 0x80009], 0, 0, 0, 1⟩, [], 0, none, none, [], 0, 0, true, 0, true, true, [], false, PlateSum.start, [], ([], false), ([], false)⟩] } }, 0, ⟨⟨[1, 0, 0, 0, 0, 0, 0, 0x80009], 0, 0, 0, 1⟩, [], 0, none, none, [], 0, 0, true, 0, true, true, [], false, PlateSum.start, [], ([], false), ([], false)⟩, [], by decide +kernel⟩,
    ⟨inCluster ({ Cluster.reset with mu := { Mu.reset with cq := [⟨9, 0, false, false, 0, 2, 0, 4⟩], serial := 5 } }.wr (MU_CBIND_CREDITS.nth 2) 16), 0, 2, ⟨9, 0, false, false, 0, 2, 0, 4⟩, [], by decide +kernel⟩⟩

/-- A state and operands for each clause of MatrixMultiplyRuns that has hypotheses. -/
theorem test_met_matrixMultiplyRuns :
    (∃ (s : State) (c : ClusterId) (m : MuCmd) (rest : List MuCmd), ((s.cluster c.val).mu.queue = m :: rest) ∧
      (s.muCanStart c.val m false = true)) ∧
    (∃ (s : State) (c : ClusterId) (m : MuCmd) (rest : List MuCmd), ((s.cluster c.val).mu.queue = m :: rest) ∧
      (s.muCanStart c.val m true = true)) ∧
    (∃ (s : State) (c : ClusterId) (r : MuRun) (q : TilePair) (rest : List TilePair), (s.runs c.val = true) ∧
      ((s.cluster c.val).mu.runs.find? (fun r => !r.epi.isEmpty) = some r) ∧ (r.epi = q :: rest) ∧ (q.bad = false) ∧ (r.cmd.scale = false) ∧
      (r.cmd.bias = false) ∧ (r.cmd.resid = false)) ∧
    (∃ (s : State) (c : ClusterId) (r : MuRun) (q : TilePair), (s.runs c.val = true) ∧
      ((s.cluster c.val).mu.runs.find? (fun r => !r.epi.isEmpty) = some r) ∧ (r.epi = [q]) ∧ (q.t = 0) ∧ (q.bad = false) ∧
      (q.vals.length = 512) ∧ (q.n < r.cmd.blocks) ∧ (r.cmd.m = 32) ∧ (r.cmd.chain = 0) ∧ (r.cmd.scale = false) ∧ (r.cmd.bias = false) ∧
      (r.cmd.resid = false) ∧ (r.cmd.sr = false) ∧ (r.cmd.compress = false) ∧ (r.strip = []) ∧ (r.perm = List.range 32) ∧
      ((s.cluster c.val).mu.runs.filter (fun w => w.cmd.seq == r.cmd.seq) = [r]) ∧ (s.muClash c.val r = false)) :=
  ⟨⟨inCluster { Cluster.reset with mu := { Mu.reset with queue := [⟨[0x2008771, 0x400100020, 0, 0, 0, 0, 0, 0], 0, 0, 0, 1⟩] } }, 0, ⟨[0x2008771, 0x400100020, 0, 0, 0, 0, 0, 0], 0, 0, 0, 1⟩, [], by decide +kernel⟩,
    ⟨inCluster { Cluster.reset with mu := { Mu.reset with queue := [⟨[0x2108771, 0x400100020, 0, 0, 0, 0, 0, 0], 0, 0, 0, 1⟩] } }, 0, ⟨[0x2108771, 0x400100020, 0, 0, 0, 0, 0, 0], 0, 0, 0, 1⟩, [], by decide +kernel⟩,
    ⟨inCluster { Cluster.reset with mu := { Mu.reset with runs := [⟨⟨[0x2008771, 0x400100020, 0, 0, 0, 0, 0, 0], 0, 0, 0, 1⟩, [⟨0, 0, [], false⟩], 0, none, none, [], 0, 0, true, 1, false, false, [], false, PlateSum.start, [], ([], false), ([], false)⟩] } }, 0, ⟨⟨[0x2008771, 0x400100020, 0, 0, 0, 0, 0, 0], 0, 0, 0, 1⟩, [⟨0, 0, [], false⟩], 0, none, none, [], 0, 0, true, 1, false, false, [], false, PlateSum.start, [], ([], false), ([], false)⟩, ⟨0, 0, [], false⟩, [], by decide +kernel⟩,
    ⟨inCluster { Cluster.reset with mu := { Mu.reset with runs := [⟨⟨[0x2008771, 0x400100020, 0, 0x500000000, 0, 0, 0, 0], 0, 0, 0, 1⟩, [⟨0, 0, List.replicate 512 0x3F800000, false⟩], 0, none, none, List.range 32, 0, 0, true, 1, false, false, [], false, PlateSum.start, [], ([], false), ([], false)⟩] } }, 0, ⟨⟨[0x2008771, 0x400100020, 0, 0x500000000, 0, 0, 0, 0], 0, 0, 0, 1⟩, [⟨0, 0, List.replicate 512 0x3F800000, false⟩], 0, none, none, List.range 32, 0, 0, true, 1, false, false, [], false, PlateSum.start, [], ([], false), ([], false)⟩, ⟨0, 0, List.replicate 512 0x3F800000, false⟩, by decide +kernel⟩⟩

/-- A state and operands for each clause of ElementMemoryAndRequests that has hypotheses. -/
theorem test_met_elementMemoryAndRequests :
    (∃ (s : State) (c : ClusterId) (e : Fin 32) (x : Fin 8) (u : List Nat), (s.mayFire c.val e.val x.val 0x28 = true) ∧
      ((s.fireView c.val e.val x.val u).acts = true) ∧
      ((s.fireView c.val e.val x.val u).parityOk ((s.fireView c.val e.val x.val u).elAddr) 8 = true)) ∧
    (∃ (s : State) (c : ClusterId) (e : Fin 32) (x : Fin 8) (u : List Nat), (s.mayFire c.val e.val x.val 0x28 = true) ∧
      ((s.fireView c.val e.val x.val u).acts = true) ∧
      ((s.fireView c.val e.val x.val u).parityOk ((s.fireView c.val e.val x.val u).elAddr) 8 = false)) ∧
    (∃ (s : State) (c : ClusterId) (e : Fin 32) (x : Fin 8), (s.mayFire c.val e.val x.val 0x29 = true) ∧
      ((s.fireView c.val e.val x.val []).acts = true)) ∧
    (∃ (s : State) (c : ClusterId) (e : Fin 32) (x : Fin 8), (s.mayFire c.val e.val x.val 0x2A = true) ∧
      ((s.fireView c.val e.val x.val []).acts = true)) ∧
    (∃ (s : State) (c : ClusterId) (e : Fin 32) (x : Fin 8), (s.mayFire c.val e.val x.val 0x2B = true) ∧
      ((s.fireView c.val e.val x.val []).acts = true)) ∧
    (∃ (s : State) (c : ClusterId) (e : Fin 32) (x : Fin 8), (s.mayFire c.val e.val x.val 0x2C = true) ∧
      ((s.fireView c.val e.val x.val []).acts = true)) ∧
    (∃ (s : State) (c : ClusterId) (e : Fin 32) (x : Fin 8) (u : List Nat), (s.mayFire c.val e.val x.val 0x3C = true) ∧
      ((s.fireView c.val e.val x.val u).acts = true) ∧
      ((s.fireView c.val e.val x.val u).parityOk ((s.fireView c.val e.val x.val u).addr) 64 = true)) ∧
    (∃ (s : State) (c : ClusterId) (e : Fin 32) (x : Fin 8) (k : Tok), (s.mayFire c.val e.val x.val 0x3E = true) ∧
      ((s.fireView c.val e.val x.val []).acts = true) ∧ ((s.fireView c.val e.val x.val []).head 0 = some k)) ∧
    (∃ (s : State) (c : ClusterId) (e : Fin 32) (x : Fin 8) (u : List Nat), (s.mayFire c.val e.val x.val 0x3F = true) ∧
      ((s.fireView c.val e.val x.val u).acts = true) ∧
      ((s.fireView c.val e.val x.val u).parityOk ((s.fireView c.val e.val x.val u).addr) 32 = true)) :=
  ⟨⟨fireWit 0x28, 0, 0, 0, [], by decide +kernel⟩,
    ⟨fireWit 0x28, 0, 0, 0, [43], by decide +kernel⟩,
    ⟨fireWit 0x29, 0, 0, 0, by decide +kernel⟩,
    ⟨fireWit 0x2A, 0, 0, 0, by decide +kernel⟩,
    ⟨fireWit 0x2B, 0, 0, 0, by decide +kernel⟩,
    ⟨fireWit 0x2C, 0, 0, 0, by decide +kernel⟩,
    ⟨fireWit 0x3C, 0, 0, 0, [], by decide +kernel⟩,
    ⟨fireWit 0x3E, 0, 0, 0, ⟨5, .data, 0, false⟩, by decide +kernel⟩,
    ⟨fireWit 0x3F, 0, 0, 0, [], by decide +kernel⟩⟩

/-- A state and operands for each clause of SteeringOperations that has hypotheses. -/
theorem test_met_steeringOperations :
    (∃ (s : State) (c : ClusterId) (e : Fin 32) (x : Fin 8) (d : Tok) (q : Tok), (s.mayFire c.val e.val x.val 0x30 = true) ∧
      ((s.fireView c.val e.val x.val []).head 0 = some d) ∧ ((s.fireView c.val e.val x.val []).head 1 = some q) ∧ (d.tag = .data) ∧
      (q.tag = .pred) ∧ (d.poison = false) ∧ (q.poison = false) ∧ ((s.fireView c.val e.val x.val []).bound 3 = false) ∧
      ((s.fireView c.val e.val x.val []).inQ 0 ≠ (s.fireView c.val e.val x.val []).inQ 1)) ∧
    (∃ (s : State) (c : ClusterId) (e : Fin 32) (x : Fin 8) (d : Tok) (q : Tok), (s.mayFire c.val e.val x.val 0x33 = true) ∧
      ((s.fireView c.val e.val x.val []).head 0 = some d) ∧ ((s.fireView c.val e.val x.val []).head 1 = some q) ∧ (d.tag = .data) ∧
      (q.tag = .pred) ∧ (d.poison = false) ∧ (q.poison = false) ∧ ((s.fireView c.val e.val x.val []).bound 3 = false) ∧
      ((s.fireView c.val e.val x.val []).inQ 0 ≠ (s.fireView c.val e.val x.val []).inQ 1)) ∧
    (∃ (s : State) (c : ClusterId) (e : Fin 32) (x : Fin 8) (d : Tok) (q : Tok) (k : Nat), (s.mayFire c.val e.val x.val 0x31 = true) ∧
      ((s.fireView c.val e.val x.val []).head 2 = some q) ∧ (q.tag = .pred) ∧ (k = (if q.data.getLsbD 0 then 0 else 1)) ∧
      ((s.fireView c.val e.val x.val []).head k = some d) ∧ (d.tag = .data) ∧ (d.poison = false) ∧ (q.poison = false) ∧
      ((s.fireView c.val e.val x.val []).inQ k ≠ (s.fireView c.val e.val x.val []).inQ 2)) ∧
    (∃ (s : State) (c : ClusterId) (e : Fin 32) (x : Fin 8) (d : Tok) (k : Fin 2), (s.mayFire c.val e.val x.val 0x32 = true) ∧
      ((s.fireView c.val e.val x.val []).head k.val = some d) ∧ ((s.fireView c.val e.val x.val []).head (1 - k.val) = none) ∧
      (d.tag.isData = true) ∧ (d.poison = false)) ∧
    (∃ (s : State) (c : ClusterId) (e : Fin 32) (x : Fin 8) (d : Tok) (q : Tok), (s.mayFire c.val e.val x.val 0x34 = true) ∧
      ((s.fireView c.val e.val x.val []).head 0 = some d) ∧ ((s.fireView c.val e.val x.val []).head 1 = some q) ∧ (d.tag.isData = true) ∧
      (q.tag.isData = true) ∧ (d.poison = false) ∧ (q.poison = false)) ∧
    (∃ (s : State) (c : ClusterId) (e : Fin 32) (x : Fin 8) (d : Tok) (q : Tok), (s.mayFire c.val e.val x.val 0x34 = true) ∧
      ((s.fireView c.val e.val x.val []).head 0 = some d) ∧ ((s.fireView c.val e.val x.val []).head 1 = some q) ∧ (d.tag ≠ .mark) ∧
      (q.tag = .last) ∧ (d.poison = false) ∧ (q.poison = false) ∧
      ((s.fireView c.val e.val x.val []).inQ 0 ≠ (s.fireView c.val e.val x.val []).inQ 1)) :=
  ⟨⟨fireWit 0x30, 0, 0, 0, ⟨5, .data, 0, false⟩, ⟨1, .pred, 0, false⟩, by decide +kernel⟩,
    ⟨fireWit 0x33, 0, 0, 0, ⟨5, .data, 0, false⟩, ⟨1, .pred, 0, false⟩, by decide +kernel⟩,
    ⟨fireWit 0x31, 0, 0, 0, ⟨5, .data, 0, false⟩, ⟨1, .pred, 0, false⟩, 0, by decide +kernel⟩,
    ⟨fireWit 0x32, 0, 0, 0, ⟨5, .data, 0, false⟩, 0, by decide +kernel⟩,
    ⟨fireWit 0x34, 0, 0, 0, ⟨5, .data, 0, false⟩, ⟨5, .data, 0, false⟩, by decide +kernel⟩,
    ⟨tagWit 0x34 (fun k => if k = 1 then .last else .data), 0, 0, 0, ⟨5, .data, 0, false⟩, ⟨5, .last, 0, false⟩, by decide +kernel⟩⟩

/-- A state and operands for each clause of CountingOperations that has hypotheses. -/
theorem test_met_countingOperations :
    (∃ (s : State) (c : ClusterId) (e : Fin 32) (x : Fin 8) (k : Tok), (s.mayFire c.val e.val x.val 0x38 = true) ∧
      ((s.region (regionOf c.val)).drainKind = 0) ∧ ((s.fireView c.val e.val x.val []).head 0 = some k) ∧ (k.tag.isData = true) ∧
      (k.poison = false)) ∧
    (∃ (s : State) (c : ClusterId) (e : Fin 32) (x : Fin 8) (k : Tok), (s.mayFire c.val e.val x.val 0x39 = true) ∧
      ((s.region (regionOf c.val)).drainKind = 0) ∧ ((s.fireView c.val e.val x.val []).head 0 = some k) ∧ (k.tag.isData = true) ∧
      (k.poison = false) ∧ (0 < k.data.toNat / 2 ^ 32 % 2 ^ 16) ∧ (0 < k.data.toNat / 2 ^ 48)) ∧
    (∃ (s : State) (c : ClusterId) (e : Fin 32) (x : Fin 8) (b : Nat), (s.mayFire c.val e.val x.val 0x26 = true) ∧
      ((s.region (regionOf c.val)).drainKind = 0) ∧ ((s.fireView c.val e.val x.val []).acts = true) ∧ (b < 64) ∧
      (((s.fireView c.val e.val x.val []).data 0).getLsbD b = true) ∧
      (∀ j ∈ List.range b, ((s.fireView c.val e.val x.val []).data 0).getLsbD j = false)) ∧
    (∃ (s : State) (c : ClusterId) (e : Fin 32) (x : Fin 8) (r : Run), (s.runs c.val = true) ∧ (s.held c.val = false) ∧
      ((s.region (regionOf c.val)).drainKind = 0) ∧ ((((s.cluster c.val).elem e.val).ctx x.val).state = .run) ∧
      (((s.cluster c.val).elem e.val).ctxWord x.val 0 % 64 = 0x38) ∧
      (((s.cluster c.val).elem e.val).next e.val (s.region (regionOf c.val)).drainKind = some x.val) ∧
      ((((s.cluster c.val).elem e.val).ctx x.val).run = r)) :=
  ⟨⟨fireWit 0x38, 0, 0, 0, ⟨5, .data, 0, false⟩, by decide +kernel⟩,
    ⟨fireWit2 0x39 0x0002000300000005, 0, 0, 0, ⟨0x0002000300000005, .data, 0, false⟩, by decide +kernel⟩,
    ⟨fireWit 0x26, 0, 0, 0, 0, by decide +kernel⟩,
    ⟨runWit, 0, 0, 0, ⟨5, 3, 0, 1, 0⟩, by decide +kernel⟩⟩

/-- A state and operands for each clause of ArmAndArrivals that has hypotheses. -/
theorem test_met_armAndArrivals :
    (∃ (s : State) (c : ClusterId) (e : Fin 32), (s.runs c.val = true) ∧ ((s.region (regionOf c.val)).drainedState = true) ∧
      (((s.cluster c.val).elem e.val).armCheck = 0)) ∧
    (∃ (s : State) (c : ClusterId) (e : Fin 32), (s.runs c.val = true) ∧ ((s.region (regionOf c.val)).drainedState = true) ∧
      (((s.cluster c.val).elem e.val).armCheck ≠ 0)) ∧
    (∃ (s : State) (c : ClusterId), (s.runs c.val = true) ∧ ((s.region (regionOf c.val)).drainedState = false)) ∧
    (∃ (s : State) (c : ClusterId) (e : Fin 32) (q : Fin 8) (k : Tok) (rest : List Tok), (s.runs c.val = true) ∧
      (((s.cluster c.val).elem e.val).queue q.val = k :: rest) ∧ (k.epoch ≠ ((s.cluster c.val).elem e.val).rd EL_STATUS_EPOCH) ∧
      (k.epoch ≠ (((s.cluster c.val).elem e.val).rd EL_STATUS_EPOCH + 1) % 4)) ∧
    (∃ (s : State) (c : ClusterId) (e : Fin 32) (ring : Fin 4) (k : RingTok) (rest : List RingTok), (s.runs c.val = true) ∧
      (takeFirst (fun t => t.ring == ring.val && t.dst == e.val && t.src == 33) (s.cluster c.val).ringToks = some (k, rest)) ∧
      (((s.cluster c.val).elem e.val).faultedQueue k.queue = false)) :=
  ⟨⟨(inRegion (live [(TCK_RSCHED_STATE, 4)])).setCluster 0 Cluster.reset, 0, 0, by decide +kernel⟩,
    ⟨(inRegion (live [(TCK_RSCHED_STATE, 4)])).setCluster 0 (Cluster.reset.setElem 0 ((Elem.reset.wr EL_CTRL_CTX_EN 1).wr (EL_CTX_WORD.nth 0) 0x3D)), 0, 0, by decide +kernel⟩,
    ⟨inCluster Cluster.reset, 0, by decide +kernel⟩,
    ⟨inCluster (Cluster.reset.setElem 0 (Elem.reset.setQueue 3 [⟨5, .data, 2, false⟩])), 0, 0, 3, ⟨5, .data, 2, false⟩, [], by decide +kernel⟩,
    ⟨inCluster { Cluster.reset with ringToks := [⟨0, 33, 0, 5, 1, ⟨7, .data, 0, false⟩, 2⟩] }, 0, 5, 0, ⟨0, 33, 0, 5, 1, ⟨7, .data, 0, false⟩, 2⟩, [], by decide +kernel⟩⟩

/-- A state and operands for each clause of HoldStopsNewWork that has hypotheses. -/
theorem test_met_holdStopsNewWork :
    (∃ (s : State) (c : ClusterId), (s.held c.val = true)) :=
  ⟨inRegion (live [(ALM_STATUS_HOLD, 1)]), 0, by decide +kernel⟩

/-- A state and operands for each clause of DrainsBeginAndEnd that has hypotheses. -/
theorem test_met_drainsBeginAndEnd :
    (∃ (s : State) (r : RegionId) (e : Slot), ((s.region r.val).sched_ = 2) ∧ ((s.region r.val).slot = some e) ∧ (e.drainAt ≠ 0)) ∧
    (∃ (s : State) (r : RegionId), ((s.region r.val).sched_ = 2) ∧ ((s.region r.val).startDue = false) ∧
      ((s.liveClusters r.val).all (fun i => !s.enabled i || (s.cluster i).fenced || (s.cluster i).sourcesIdle) = true)) ∧
    (∃ (s : State) (r : RegionId), (s.pageOpen r.val = true) ∧ ((s.region r.val).sched_ = 2)) ∧
    (∃ (s : State) (r : RegionId), (s.pageOpen r.val = true) ∧ ((s.region r.val).drainKind = 2) ∧ ((s.region r.val).sched_ = 3)) ∧
    (∃ (s : State) (r : RegionId), ((s.region r.val).sched_ = 3) ∧ ((s.region r.val).rd TCK_RSCHED_PARKDRAIN = 0) ∧
      (s.quietRegion r.val false = true) ∧ (s.unstaged r.val = true) ∧ ((s.region r.val).rd PWR_STATUS_PARK_CAUSE = 0) ∧
      ((s.region r.val).power = 2)) ∧
    (∃ (s : State) (r : RegionId), ((s.region r.val).sched_ = 3) ∧ ((s.region r.val).rd TCK_RSCHED_PARKDRAIN = 1) ∧ ((s.region r.val).power = 3) ∧
      (s.quietRegion r.val true = true)) ∧
    (∃ (s : State) (r : RegionId), ((s.region r.val).sched_ = 3) ∧ ((s.region r.val).rd TCK_RSCHED_PARKDRAIN = 0)) :=
  ⟨⟨inRegion { live [] with slot := some ⟨100, true, false, false, false, 0, 0, 50, false⟩ }, 0, ⟨100, true, false, false, false, 0, 0, 50, false⟩, by decide +kernel⟩,
    ⟨inRegion (live []), 0, by decide +kernel⟩,
    ⟨inRegion (live []), 0, by decide +kernel⟩,
    ⟨inRegion (live [(TCK_RSCHED_STATE, 3), (TCK_RSCHED_PARKDRAIN, 1), (PWR_STATUS_STATE, 3)]), 0, by decide +kernel⟩,
    ⟨inRegion (live [(TCK_RSCHED_STATE, 3)]), 0, by decide +kernel⟩,
    ⟨inRegion (live [(TCK_RSCHED_STATE, 3), (TCK_RSCHED_PARKDRAIN, 1), (PWR_STATUS_STATE, 3)]), 0, by decide +kernel⟩,
    ⟨inRegion (live [(TCK_RSCHED_STATE, 3)]), 0, by decide +kernel⟩⟩

/-- A state and operands for each clause of ForcedReplacement that has hypotheses. -/
theorem test_met_forcedReplacement :
    (∃ (s : State) (r : RegionId), (s.pageOpen r.val = true) ∧ ((s.region r.val).sched_ ∈ [1, 2, 3, 4, 6])) ∧
    (∃ (s : State) (r : RegionId) (e : Fin 8) (x : Eph), (SMap.get (fun _ => none) s.dome.ephs e.val = some x) ∧ (r.val ∈ x.regions) ∧
      (s.pageOpen r.val = true) ∧ ((s.region r.val).rd TCK_RSCHED_EPH = e.val) ∧ ((s.region r.val).sched_ ∈ [1, 2, 3, 4, 6])) ∧
    (∃ (s : State) (r : RegionId), ((s.region r.val).sched_ = 5) ∧ (s.quietRegion r.val false = true) ∧ (s.unstaged r.val = true)) ∧
    (∃ (s : State) (r : RegionId), ((s.region r.val).sched_ = 5)) ∧
    (∃ (s : State) (r : RegionId), ((s.region r.val).sched_ = 6) ∧ ((s.region r.val).forceAsked = true)) :=
  ⟨⟨inCluster (Cluster.reset.setElem 0 (Elem.reset.setCtx 2 { Ctx.reset with state := .run })), 0, by decide +kernel⟩,
    ⟨(inRegion (live [(TCK_RSCHED_EPH, 3)])).modDome (fun d => { d with ephs := [(3, some ⟨[0], [], false, false, false, 0, [], 0⟩)] }), 0, 3, ⟨[0], [], false, false, false, 0, [], 0⟩, by decide +kernel⟩,
    ⟨inRegion (live [(TCK_RSCHED_STATE, 5)]), 0, by decide +kernel⟩,
    ⟨inRegion (live [(TCK_RSCHED_STATE, 5)]), 0, by decide +kernel⟩,
    ⟨inRegion { live [(TCK_RSCHED_STATE, 6)] with forceAsked := true }, 0, by decide +kernel⟩⟩

/-- A state and operands for each clause of EphemerisLoads that has hypotheses. -/
theorem test_met_ephemerisLoads :
    (∃ (s : State) (l : LoadReq) (rest : List LoadReq) (j : Job), (s.dome.loader = l :: rest) ∧ (parseEph l.image = none) ∧
      ((s.hostQ l.queue).jobs.find? (fun k => k.serial == l.serial) = some j) ∧ (j.mute = false) ∧
      ((s.hostQ l.queue).rd HIF_Q_STATUS_STATE ≠ 3)) ∧
    (∃ (s : State) (l : LoadReq) (rest : List LoadReq) (j : Job) (p : EphImg), (s.dome.loader = l :: rest) ∧ (parseEph l.image = some p) ∧
      (s.loadStatus p ≠ 0) ∧ ((s.hostQ l.queue).jobs.find? (fun k => k.serial == l.serial) = some j) ∧ (j.mute = false) ∧
      ((s.hostQ l.queue).rd HIF_Q_STATUS_STATE ≠ 3)) ∧
    (∃ (s : State) (l : LoadReq) (rest : List LoadReq) (j : Job) (p : EphImg) (n : Nat), (s.dome.loader = l :: rest) ∧
      (parseEph l.image = some p) ∧ (s.loadStatus p = 0) ∧ (s.freeEph = some n) ∧
      (∀ v ∈ p.inits, initLen v = 0 ∨ addrSpace (initDest v) = 0 ∨ 4 ≤ addrSpace (initDest v)) ∧
      ((s.hostQ l.queue).jobs.find? (fun k => k.serial == l.serial) = some j) ∧ (j.mute = false) ∧
      ((s.hostQ l.queue).rd HIF_Q_STATUS_STATE ≠ 3)) ∧
    (∃ (s : State) (k : Nat) (off : Nat) (len : Nat) (slot : Nat) (rest : List (Nat × Nat × Nat)), (s.dome.standing = (k, off, len) :: rest) ∧
      (s.runSlot = some slot) ∧ (s.mstate ≠ 0) ∧ (k < 8) ∧
      ((s.load (s.norBytes slot off len)).1 ≠ 4 ∨ s.heldByStanding (s.norBytes slot off len) = false) ∧
      ((s.load (s.norBytes slot off len)).1 ≠ 11)) ∧
    (∃ (s : State) (k : Nat) (off : Nat) (len : Nat) (slot : Nat) (rest : List (Nat × Nat × Nat)), (s.dome.standing = (k, off, len) :: rest) ∧
      (s.runSlot = some slot) ∧ (((s.load (s.norBytes slot off len)).1 = 4 ∧
      s.heldByStanding (s.norBytes slot off len) = true) ∨ (s.load (s.norBytes slot off len)).1 = 11)) :=
  ⟨⟨(State.reset.modDome (fun d => { d with loader := [⟨[1, 2, 3], 2, 7, 9, false⟩] })).modHostQ 2 (fun h => { h with jobs := [⟨7, 9, 1, true, false, none, 0, 0, 0, 0, 0, 0, 0, false⟩] }), ⟨[1, 2, 3], 2, 7, 9, false⟩, [], ⟨7, 9, 1, true, false, none, 0, 0, 0, 0, 0, 0, 0, false⟩, by decide +kernel⟩,
    ⟨((inRegion (live [])).modDome (fun d => { d with loader := [⟨ephImage, 2, 7, 9, false⟩] })).modHostQ 2 (fun h => { h with jobs := [⟨7, 9, 1, true, false, none, 0, 0, 0, 0, 0, 0, 0, false⟩] }), ⟨ephImage, 2, 7, 9, false⟩, [], ⟨7, 9, 1, true, false, none, 0, 0, 0, 0, 0, 0, 0, false⟩, ephParsed, by decide +kernel⟩,
    ⟨(State.reset.modDome (fun d => { d with loader := [⟨ephImage, 2, 7, 9, false⟩] })).modHostQ 2 (fun h => { h with jobs := [⟨7, 9, 1, true, false, none, 0, 0, 0, 0, 0, 0, 0, false⟩] }), ⟨ephImage, 2, 7, 9, false⟩, [], ⟨7, 9, 1, true, false, none, 0, 0, 0, 0, 0, 0, 0, false⟩, ephParsed, 0, by decide +kernel⟩,
    ⟨(withDome State.reset [(CAT_STATUS_RUN_VALID, 1), (DOM_FLT_STATUS_MSTATE, 1)]).modDome (fun d => { d with standing := [(2, 64, 16)] }), 2, 64, 16, 0, [], by decide +kernel⟩,
    ⟨norEph.modDome (fun d => { d with ephs := [(0, some ⟨[0], [], true, false, false, 0, [], 0⟩)] }), 2, 0, 192, 0, [], by decide +kernel⟩⟩

/-- A state and operands for each clause of NarrowPortRequests that has hypotheses. -/
theorem test_met_narrowPortRequests :
    (∃ (s : State) (c : ClusterId) (q : Fin 8) (k : NTok) (u : List Nat), (s.nqHead c.val q.val = some k) ∧ (k.tok.tag = .data) ∧
      (k.tok.poison = false) ∧ (reqKind k.tok.data = 0) ∧ ((s.cluster c.val).rowsPoisoned (reqAddr k.tok.data) 8 = false) ∧
      (s.npTurn c.val false = some q.val) ∧ (((s.upset c.val u).cluster c.val).badBytes (reqAddr k.tok.data) 8 (reqUses k.tok.data) = [])) ∧
    (∃ (s : State) (c : ClusterId) (q : Fin 8) (k : NTok) (d : NTok) (rest : List NTok), (s.nqHead c.val q.val = some k) ∧
      ((s.cluster c.val).nq q.val = k :: d :: rest) ∧ (k.tok.tag = .data) ∧ (k.tok.poison = false) ∧ (reqKind k.tok.data = 1) ∧
      (s.npTurn c.val true = some q.val)) ∧
    (∃ (s : State) (c : ClusterId) (q : Fin 8) (k : NTok) (d : NTok) (rest : List NTok), (s.nqHead c.val q.val = some k) ∧
      ((s.cluster c.val).nq q.val = k :: d :: rest) ∧ (k.tok.tag = .data) ∧ (k.tok.poison = false) ∧ (reqKind k.tok.data = 2) ∧
      (s.npTurn c.val false = some q.val) ∧ ((s.cluster c.val).rowsPoisoned (reqAddr k.tok.data) 8 = false) ∧
      ((s.cluster c.val).badBytes (reqAddr k.tok.data) 8 (reqUses k.tok.data) = [])) ∧
    (∃ (s : State) (c : ClusterId) (q : Fin 8) (k : NTok) (d : NTok) (rest : List NTok), (s.nqHead c.val q.val = some k) ∧
      ((s.cluster c.val).nq q.val = k :: d :: rest) ∧ (k.tok.tag = .data) ∧ (k.tok.poison = false) ∧ (reqKind k.tok.data = 3) ∧
      ((s.cluster c.val).rd CM_CTRL_DETERM ≠ 1) ∧ (s.npTurn c.val false = some q.val) ∧
      ((s.cluster c.val).rowsPoisoned (reqAddr k.tok.data) 8 = false) ∧
      ((s.cluster c.val).badBytes (reqAddr k.tok.data) 8 (reqUses k.tok.data) = [])) ∧
    (∃ (s : State) (c : ClusterId) (q : Fin 8) (k : NTok) (d : NTok) (rest : List NTok), (s.nqHead c.val q.val = some k) ∧
      ((s.cluster c.val).nq q.val = k :: d :: rest) ∧ (k.tok.tag = .data) ∧ (k.tok.poison = false) ∧ (reqKind k.tok.data = 3) ∧
      ((s.cluster c.val).rd CM_CTRL_DETERM = 1) ∧ (s.npTurn c.val false = some q.val) ∧ ((s.cluster c.val).staging.length < 1024)) ∧
    (∃ (s : State) (c : ClusterId) (q : Fin 8) (k : NTok) (d : NTok) (rest : List NTok), (s.nqHead c.val q.val = some k) ∧
      ((s.cluster c.val).nq q.val = k :: d :: rest) ∧ (k.tok.tag = .data) ∧ (k.tok.poison = false) ∧ (reqKind k.tok.data = 4) ∧
      ((s.cluster c.val).rd CM_CTRL_DETERM ≠ 1) ∧ (s.npTurn c.val false = some q.val) ∧
      ((s.cluster c.val).rowsPoisoned (reqAddr k.tok.data) 8 = false) ∧
      ((s.cluster c.val).badBytes (reqAddr k.tok.data) 8 (reqUses k.tok.data) = [])) ∧
    (∃ (s : State) (c : ClusterId) (q : Fin 8) (k : NTok) (d : NTok) (rest : List NTok), (s.nqHead c.val q.val = some k) ∧
      ((s.cluster c.val).nq q.val = k :: d :: rest) ∧ (k.tok.tag = .data) ∧ (k.tok.poison = false) ∧ (reqKind k.tok.data = 4) ∧
      ((s.cluster c.val).rd CM_CTRL_DETERM = 1) ∧ (s.npTurn c.val false = some q.val) ∧ ((s.cluster c.val).staging.length < 1024)) ∧
    (∃ (s : State) (c : ClusterId) (q : Fin 8) (a : NAcc) (rest : List NAcc), (s.runs c.val = true) ∧
      (takeFirst (fun (b : NAcc) => b.queue == q.val) (s.cluster c.val).accs = some (a, rest)) ∧ (a.data.length = a.mask.length) ∧
      (∀ b ∈ rest, b.addr / 512 ≠ a.addr / 512)) :=
  ⟨⟨inCluster { Cluster.reset with narrow := [(2, [⟨⟨npReq 0, .data, 0, false⟩, 1⟩])], mem := [(41, 7), (47, 9)] }, 0, 2, ⟨⟨npReq 0, .data, 0, false⟩, 1⟩, [], by decide +kernel⟩,
    ⟨inCluster { Cluster.reset with narrow := [(2, [⟨⟨npReq 1, .data, 0, false⟩, 1⟩, ⟨⟨0x1122334455667788, .data, 0, false⟩, 1⟩])], mem := [(41, 7), (47, 9)] }, 0, 2, ⟨⟨npReq 1, .data, 0, false⟩, 1⟩, ⟨⟨0x1122334455667788, .data, 0, false⟩, 1⟩, [], by decide +kernel⟩,
    ⟨inCluster { Cluster.reset with narrow := [(2, [⟨⟨npReq 2, .data, 0, false⟩, 1⟩, ⟨⟨0x0000000100000002, .data, 0, false⟩, 1⟩])], mem := [(40, 255), (47, 9)] }, 0, 2, ⟨⟨npReq 2, .data, 0, false⟩, 1⟩, ⟨⟨0x0000000100000002, .data, 0, false⟩, 1⟩, [], by decide +kernel⟩,
    ⟨inCluster { Cluster.reset with narrow := [(2, [⟨⟨npReq 3, .data, 0, false⟩, 1⟩, ⟨⟨0x3F8000003F800000, .data, 0, false⟩, 1⟩])], mem := [(43, 0x40)] }, 0, 2, ⟨⟨npReq 3, .data, 0, false⟩, 1⟩, ⟨⟨0x3F8000003F800000, .data, 0, false⟩, 1⟩, [], by decide +kernel⟩,
    ⟨inCluster ({ Cluster.reset with narrow := [(2, [⟨⟨npReq 3, .data, 0, false⟩, 1⟩, ⟨⟨0x3F8000003F800000, .data, 0, false⟩, 1⟩])] }.wr CM_CTRL_DETERM 1), 0, 2, ⟨⟨npReq 3, .data, 0, false⟩, 1⟩, ⟨⟨0x3F8000003F800000, .data, 0, false⟩, 1⟩, [], by decide +kernel⟩,
    ⟨inCluster { Cluster.reset with narrow := [(2, [⟨⟨npReq 4, .data, 0, false⟩, 1⟩, ⟨⟨0x3F803F803F803F80, .data, 0, false⟩, 1⟩])], mem := [(43, 0x40)] }, 0, 2, ⟨⟨npReq 4, .data, 0, false⟩, 1⟩, ⟨⟨0x3F803F803F803F80, .data, 0, false⟩, 1⟩, [], by decide +kernel⟩,
    ⟨inCluster ({ Cluster.reset with narrow := [(2, [⟨⟨npReq 4, .data, 0, false⟩, 1⟩, ⟨⟨0x3F803F803F803F80, .data, 0, false⟩, 1⟩])] }.wr CM_CTRL_DETERM 1), 0, 2, ⟨⟨npReq 4, .data, 0, false⟩, 1⟩, ⟨⟨0x3F803F803F803F80, .data, 0, false⟩, 1⟩, [], by decide +kernel⟩,
    ⟨inCluster { Cluster.reset with accs := [⟨2, 40, [1, 2, 3, 4, 5, 6, 7, 8], [true, true, true, true, false, false, false, false], false⟩] }, 0, 2, ⟨2, 40, [1, 2, 3, 4, 5, 6, 7, 8], [true, true, true, true, false, false, false, false], false⟩, [], by decide +kernel⟩⟩

/-- A state and operands for each clause of AssemblyStagingAndControl that has hypotheses. -/
theorem test_met_assemblyStagingAndControl :
    (∃ (s : State) (c : ClusterId) (i : Fin 8) (b : AsmBuf), (s.runs c.val = true) ∧ ((s.cluster c.val).asm[i.val]? = some b) ∧
      (b.grans.all (fun g => g.isSome) = true) ∧ ((s.cluster c.val).locked b.row = false) ∧ (b.row512.1.length = 512) ∧
      (b.row512.2.length = 512)) ∧
    (∃ (s : State) (c : ClusterId) (i : Fin 8) (b : AsmBuf), (s.runs c.val = true) ∧ ((s.cluster c.val).asm[i.val]? = some b) ∧
      ((s.cluster c.val).locked b.row = false) ∧ (b.row512.1.length = 512) ∧ (b.row512.2.length = 512)) ∧
    (∃ (s : State) (c : ClusterId) (a : Nat) (d : DEntry), (s.runs c.val = true) ∧ ((s.region (regionOf c.val)).sched_ = 3) ∧
      ((s.region (regionOf c.val)).rd TCK_RSCHED_PARKDRAIN = 0) ∧ (s.quietRegion (regionOf c.val) false = true) ∧
      (d ∈ (s.cluster c.val).staging) ∧ (∀ e ∈ (s.cluster c.val).staging, e.addr = a) ∧ (a + 64 ≤ 2 ^ 21)) ∧
    (∃ (s : State) (c : ClusterId), (s.suppressed c.val = false) ∧ ((s.region (regionOf c.val)).drainedState = true)) ∧
    (∃ (s : State) (c : ClusterId), (s.suppressed c.val = false) ∧ ((s.region (regionOf c.val)).drainedState = false)) ∧
    (∃ (s : State) (c : ClusterId), (s.suppressed c.val = true)) :=
  ⟨⟨inCluster { Cluster.reset with asm := [⟨3, [1], List.replicate 8 (some (List.replicate 64 9, List.replicate 64 true, false)), 0, 2⟩] }, 0, 0, ⟨3, [1], List.replicate 8 (some (List.replicate 64 9, List.replicate 64 true, false)), 0, 2⟩, by decide +kernel⟩,
    ⟨inCluster { Cluster.reset with asm := [⟨3, [1], [none, some (List.replicate 64 9, List.replicate 64 true, false), none, none, none, none, none, none], 0, 2⟩] }, 0, 0, ⟨3, [1], [none, some (List.replicate 64 9, List.replicate 64 true, false), none, none, none, none, none, none], 0, 2⟩, by decide +kernel⟩,
    ⟨(inRegion (live [(TCK_RSCHED_STATE, 3)])).setCluster 0 { Cluster.reset with staging := [⟨128, List.replicate 64 true, 3, ⟨0, 0, 0, 1, 0⟩, List.replicate 64 0, false⟩] }, 0, 128, ⟨128, List.replicate 64 true, 3, ⟨0, 0, 0, 1, 0⟩, List.replicate 64 0, false⟩, by decide +kernel⟩,
    ⟨State.reset, 0, by decide +kernel⟩,
    ⟨inCluster Cluster.reset, 0, by decide +kernel⟩,
    ⟨inRegion (pageOf [(PWR_STATUS_STATE, 5)]), 0, by decide +kernel⟩⟩

/-- A state and operands for each clause of DeepStoreAccesses that has hypotheses. -/
theorem test_met_deepStoreAccesses :
    (∃ (s : State) (c : ClusterId) (i : Fin 64) (q : DsReq), ((s.cluster c.val).dsq[i.val]? = some q) ∧ (s.dsReady c.val i.val = true) ∧
      (q.write = false) ∧ (q.src = 1) ∧
      (rsVerify q.off (Mem.bytes (s.cluster c.val).ds (s.dsPhys c.val q.off) 64)       (s.dsChk c.val q.off (Mem.bytes (s.cluster c.val).ds (s.dsPhys c.val q.off) 64)) = .clean)) ∧
    (∃ (s : State) (c : ClusterId) (i : Fin 64) (q : DsReq), ((s.cluster c.val).dsq[i.val]? = some q) ∧ (s.dsReady c.val i.val = true) ∧
      (q.write = true) ∧ (dsFull q.mask q.add = true) ∧ (q.data.length = 64)) ∧
    (∃ (s : State) (c : ClusterId) (i : Fin 64) (q : DsReq), ((s.cluster c.val).dsq[i.val]? = some q) ∧ (s.dsReady c.val i.val = true) ∧
      (q.write = true) ∧ (q.add = 0) ∧ (dsFull q.mask q.add = false) ∧ (q.data.length = 64) ∧ (q.mask.length = 64) ∧
      (rsVerify q.off (Mem.bytes (s.cluster c.val).ds (s.dsPhys c.val q.off) 64)       (s.dsChk c.val q.off (Mem.bytes (s.cluster c.val).ds (s.dsPhys c.val q.off) 64)) = .clean)) ∧
    (∃ (s : State) (c : ClusterId), (s.runs c.val = true) ∧ ((s.cluster c.val).rd DS_CTRL_SCRUB_EN ≠ 0) ∧ ((s.cluster c.val).dsq = []) ∧
      ((s.cluster c.val).dsBlock = 0) ∧
      (rsVerify (64 * (s.cluster c.val).rd DS_SCRUB_POS_GRAN)       (Mem.bytes (s.cluster c.val).ds (s.dsPhys c.val (64 * (s.cluster c.val).rd DS_SCRUB_POS_GRAN)) 64)       (s.dsChk c.val (64 * (s.cluster c.val).rd DS_SCRUB_POS_GRAN)       (Mem.bytes (s.cluster c.val).ds (s.dsPhys c.val (64 * (s.cluster c.val).rd DS_SCRUB_POS_GRAN)) 64)) = .clean)) ∧
    (∃ (s : State) (c : ClusterId), (s.enabled c.val = true) ∧
      (∀ k ∈ ([1, 3, 4] : List Nat), ((s.region (regionOf c.val)).rd PWR_STATUS_RAIL_OK).testBit k = true) ∧
      ((s.region (regionOf c.val)).power ≠ 4)) ∧
    (∃ (a : Nat) (b : Nat) (c : Nat) (d : Nat), (a < 256) ∧ (b < 256) ∧ (c < 256) ∧ (d < 256)) :=
  ⟨⟨inCluster { Cluster.reset with dsq := [⟨1, 7, false, 128, [], [], 0, false, none⟩] }, 0, 0, ⟨1, 7, false, 128, [], [], 0, false, none⟩, by decide +kernel⟩,
    ⟨inCluster { Cluster.reset with dsq := [⟨0, 7, true, 128, List.replicate 64 5, List.replicate 64 true, 0, false, none⟩] }, 0, 0, ⟨0, 7, true, 128, List.replicate 64 5, List.replicate 64 true, 0, false, none⟩, by decide +kernel⟩,
    ⟨inCluster { Cluster.reset with dsq := [⟨0, 7, true, 128, List.replicate 64 5, List.replicate 32 true ++ List.replicate 32 false, 0, false, none⟩] }, 0, 0, ⟨0, 7, true, 128, List.replicate 64 5, List.replicate 32 true ++ List.replicate 32 false, 0, false, none⟩, by decide +kernel⟩,
    ⟨inCluster (Cluster.reset.wr DS_CTRL_SCRUB_EN 1), 0, by decide +kernel⟩,
    ⟨inCluster { Cluster.reset with dsOpen := [(5, 9)] }, 0, by decide +kernel⟩,
    ⟨80, 97, 81, 82, by decide +kernel⟩⟩

/-- A state and operands for each clause of TableUnitPorts that has hypotheses. -/
theorem test_met_tableUnitPorts :
    (∃ (s : State) (c : ClusterId), (hasTu c.val = true) ∧ (s.runs c.val = true) ∧ ((s.cluster c.val).doorbells < 16)) ∧
    (∃ (s : State) (c : ClusterId) (q : Fin 8) (k : Tok) (rest : List Tok), (s.runs c.val = true) ∧
      (((s.cluster c.val).tu.queue q.val).full = false) ∧ (((s.cluster c.val).tu.queue q.val).discard = false) ∧
      (((s.cluster c.val).tu.queue q.val).toks = k :: rest) ∧ ((s.cluster c.val).tu.jobs = []) ∧
      (((s.cluster c.val).tu.queue q.val).words = []) ∧ (k.epoch = (s.region (regionOf c.val)).rd TCK_RSCHED_EPOCH) ∧ (k.tag = .data)) ∧
    (∃ (s : State) (c : ClusterId) (q : Fin 8) (k : Tok) (w : Tok) (rest : List Tok), (s.runs c.val = true) ∧
      (((s.cluster c.val).tu.queue q.val).full = false) ∧ (((s.cluster c.val).tu.queue q.val).discard = false) ∧
      (((s.cluster c.val).tu.queue q.val).toks = k :: rest) ∧ ((s.cluster c.val).tu.jobs = []) ∧
      (((s.cluster c.val).tu.queue q.val).words = [w]) ∧ (k.epoch = w.epoch) ∧ (k.tag = .data)) ∧
    (∃ (s : State) (c : ClusterId) (q : Fin 8) (k : Tok) (w : Tok) (rest : List Tok), (s.runs c.val = true) ∧
      (((s.cluster c.val).tu.queue q.val).full = false) ∧ (((s.cluster c.val).tu.queue q.val).discard = false) ∧
      (((s.cluster c.val).tu.queue q.val).toks = k :: rest) ∧ ((s.cluster c.val).tu.jobs = []) ∧
      (((s.cluster c.val).tu.queue q.val).words = [w]) ∧ (k.epoch ≠ w.epoch ∨ k.tag ≠ .data)) ∧
    (∃ (s : State) (c : ClusterId) (q : Fin 8) (k : Tok) (rest : List Tok) (j : TuJob), (s.runs c.val = true) ∧
      (((s.cluster c.val).tu.queue q.val).full = false) ∧ (((s.cluster c.val).tu.queue q.val).discard = false) ∧
      (((s.cluster c.val).tu.queue q.val).toks = k :: rest) ∧ ((s.cluster c.val).tu.jobs = [j]) ∧ (j.src = q.val) ∧ (0 < j.left) ∧
      (j.stale = false) ∧ (j.status = 0) ∧ (j.todo = []) ∧ (k.epoch = j.epoch) ∧ (k.tag = .data) ∧
      (j.opc ≠ 1 ∨ (s.cluster c.val).groupReady { j with todo := [(j.nb - j.left, k.data, k.poison)] } = none)) ∧
    (∃ (s : State) (c : ClusterId) (q : Fin 8) (k : Tok) (rest : List Tok) (j : TuJob), (s.runs c.val = true) ∧
      (((s.cluster c.val).tu.queue q.val).full = false) ∧ (((s.cluster c.val).tu.queue q.val).discard = false) ∧
      (((s.cluster c.val).tu.queue q.val).toks = k :: rest) ∧ ((s.cluster c.val).tu.jobs = [j]) ∧ (j.src = q.val) ∧ (1 < j.left) ∧
      (j.stale = false) ∧ (j.todo = []) ∧ (k.epoch = j.epoch) ∧ (k.tag = .last) ∧
      (j.opc ≠ 1 ∨ (s.cluster c.val).groupReady { j with left := j.left - 1 } = none)) ∧
    (∃ (s : State) (c : ClusterId) (q : Fin 8) (k : Tok) (rest : List Tok) (j : TuJob), (s.runs c.val = true) ∧
      (((s.cluster c.val).tu.queue q.val).full = false) ∧ (((s.cluster c.val).tu.queue q.val).discard = false) ∧
      (((s.cluster c.val).tu.queue q.val).toks = k :: rest) ∧ ((s.cluster c.val).tu.jobs = [j]) ∧ (j.src = q.val) ∧ (0 < j.left) ∧
      (k.tag = .mark)) ∧
    (∃ (s : State) (c : ClusterId) (b : Fin 8) (d : TuDone) (rest : List TuDone), (s.runs c.val = true) ∧
      (takeFirst (fun (k : TuDone) => k.cbind == b.val) (s.cluster c.val).tu.done = some (d, rest)) ∧
      ((s.cluster c.val).rd (TU_CBIND_CREDITS.nth b.val) ≠ 0)) ∧
    (∃ (s : State) (c : ClusterId), (hasTu c.val = true) ∧ (s.suppressed c.val = false)) ∧
    (∃ (s : State) (c : ClusterId), (s.suppressed c.val = false) ∧ ((s.cluster c.val).tu.commit = true) ∧ ((s.cluster c.val).tu.jobs = []) ∧
      ((s.cluster c.val).tu.gathers = []) ∧ ((s.cluster c.val).rd TU_IDX_SIZE ≤ 4) ∧ ((s.cluster c.val).rd TU_IDX_SLOTG ∈ [1, 2, 4, 8]) ∧
      ((s.cluster c.val).rd TU_IDX_CACHE_ROW + 1024 * 2 ^ (s.cluster c.val).rd TU_IDX_SIZE * (s.cluster c.val).rd TU_IDX_SLOTG / 8 ≤ 4096)) ∧
    (∃ (s : State) (c : ClusterId), (s.suppressed c.val = false) ∧ ((s.cluster c.val).tu.commit = true) ∧ ((s.cluster c.val).tu.jobs = []) ∧
      ((s.cluster c.val).tu.gathers = []) ∧
      (4 < (s.cluster c.val).rd TU_IDX_SIZE ∨ (s.cluster c.val).rd TU_IDX_SLOTG ∉ [1, 2, 4, 8] ∨       4096 < (s.cluster c.val).rd TU_IDX_CACHE_ROW + 1024 * 2 ^ (s.cluster c.val).rd TU_IDX_SIZE * (s.cluster c.val).rd TU_IDX_SLOTG / 8)) ∧
    (∃ (s : State) (c : ClusterId), (hasTu c.val = true) ∧ (s.suppressed c.val = false)) ∧
    (∃ (s : State) (c : ClusterId), (hasTu c.val = true) ∧ (s.suppressed c.val = false) ∧ ((s.cluster c.val).tu.jobs = []) ∧
      ((s.cluster c.val).tu.commit = false) ∧ ((s.cluster c.val).rd TU_IDX_SEL_ENTRY < 1024 * 2 ^ (s.cluster c.val).rd TU_IDX_ACTIVE_SIZE)) ∧
    (∃ (s : State) (c : ClusterId), (hasTu c.val = true) ∧ (s.suppressed c.val = false) ∧
      ((s.cluster c.val).tu.jobs ≠ [] ∨ (s.cluster c.val).tu.commit = true)) ∧
    (∃ (s : State) (c : ClusterId), (s.suppressed c.val = true)) :=
  ⟨⟨(inRegion (live [])).setCluster 4 Cluster.reset, 4, by decide +kernel⟩,
    ⟨(inRegion (live [])).setCluster 4 { Cluster.reset with tu := { Tu.reset with queues := [(3, ⟨[⟨9, .data, 0, false⟩], [], false, false⟩)] } }, 4, 3, ⟨9, .data, 0, false⟩, [], by decide +kernel⟩,
    ⟨(inRegion (live [])).setCluster 4 { Cluster.reset with tu := { Tu.reset with queues := [(3, ⟨[⟨9, .data, 0, false⟩], [⟨9, .data, 0, false⟩], false, false⟩)] } }, 4, 3, ⟨9, .data, 0, false⟩, ⟨9, .data, 0, false⟩, [], by decide +kernel⟩,
    ⟨(inRegion (live [])).setCluster 4 { Cluster.reset with tu := { Tu.reset with queues := [(3, ⟨[⟨9, .mark, 0, false⟩], [⟨9, .data, 0, false⟩], false, false⟩)] } }, 4, 3, ⟨9, .mark, 0, false⟩, ⟨9, .data, 0, false⟩, [], by decide +kernel⟩,
    ⟨(inRegion (live [])).setCluster 4 { Cluster.reset with tu := { Tu.reset with queues := [(3, ⟨[⟨9, .data, 0, false⟩], [], false, false⟩)], jobs := [⟨0x2C0001, 2, 0, 3, 0, 0, [⟨[], 0, false⟩, ⟨[], 0, false⟩], [], 0, [], PlateSum.start, false, 0, 2⟩] } }, 4, 3, ⟨9, .data, 0, false⟩, [], ⟨0x2C0001, 2, 0, 3, 0, 0, [⟨[], 0, false⟩, ⟨[], 0, false⟩], [], 0, [], PlateSum.start, false, 0, 2⟩, by decide +kernel⟩,
    ⟨(inRegion (live [])).setCluster 4 { Cluster.reset with tu := { Tu.reset with queues := [(3, ⟨[⟨9, .last, 0, false⟩], [], false, false⟩)], jobs := [⟨0x2C0001, 2, 0, 3, 0, 0, [⟨[], 0, false⟩, ⟨[], 0, false⟩], [], 0, [], PlateSum.start, false, 0, 2⟩] } }, 4, 3, ⟨9, .last, 0, false⟩, [], ⟨0x2C0001, 2, 0, 3, 0, 0, [⟨[], 0, false⟩, ⟨[], 0, false⟩], [], 0, [], PlateSum.start, false, 0, 2⟩, by decide +kernel⟩,
    ⟨(inRegion (live [])).setCluster 4 { Cluster.reset with tu := { Tu.reset with queues := [(3, ⟨[⟨9, .mark, 0, false⟩], [], false, false⟩)], jobs := [⟨0x2C0001, 2, 0, 3, 0, 0, [⟨[], 0, false⟩, ⟨[], 0, false⟩], [], 0, [], PlateSum.start, false, 0, 2⟩] } }, 4, 3, ⟨9, .mark, 0, false⟩, [], ⟨0x2C0001, 2, 0, 3, 0, 0, [⟨[], 0, false⟩, ⟨[], 0, false⟩], [], 0, [], PlateSum.start, false, 0, 2⟩, by decide +kernel⟩,
    ⟨(inRegion (live [])).setCluster 4 ({ Cluster.reset with tu := { Tu.reset with done := [⟨9, 3, true, 5, 2, true, 0⟩] } }.wr (TU_CBIND_CREDITS.nth 2) 16), 4, 2, ⟨9, 3, true, 5, 2, true, 0⟩, [], by decide +kernel⟩,
    ⟨State.reset, 4, by decide +kernel⟩,
    ⟨(inRegion (live [])).setCluster 4 ({ Cluster.reset with tu := { Tu.reset with commit := true, index := [(3, ⟨1, 7, true, false, false, false, 0, 0⟩)] } }.wr TU_IDX_SLOTG 2), 4, by decide +kernel⟩,
    ⟨(inRegion (live [])).setCluster 4 ({ Cluster.reset with tu := { Tu.reset with commit := true } }.wr TU_IDX_SLOTG 3), 4, by decide +kernel⟩,
    ⟨(inRegion (live [])).setCluster 4 { Cluster.reset with tu := { Tu.reset with index := [(3, ⟨1, 7, true, false, false, false, 0, 0⟩)] } }, 4, by decide +kernel⟩,
    ⟨(inRegion (live [])).setCluster 4 (Cluster.reset.wr TU_IDX_TAG_ID 77), 4, by decide +kernel⟩,
    ⟨(inRegion (live [])).setCluster 4 { Cluster.reset with tu := { Tu.reset with commit := true } }, 4, by decide +kernel⟩,
    ⟨inRegion (pageOf [(PWR_STATUS_STATE, 5)]), 4, by decide +kernel⟩⟩

/-- A state and operands for each clause of TableUnitJobs that has hypotheses. -/
theorem test_met_tableUnitJobs :
    (∃ (s : State) (c : ClusterId) (src : Fin 9) (j : TuJob) (ts : List Tok), (s.runs c.val = true) ∧ ((s.cluster c.val).tu.jobs = []) ∧
      ((s.cluster c.val).tu.gathers = []) ∧ ((s.cluster c.val).tu.commit = false) ∧
      ((s.cluster c.val).tu.nextSource 9 (s.cluster c.val).tu.rr = some src.val) ∧ ((s.cluster c.val).tu.front src.val = some (j, ts)) ∧
      (j.opc = 0) ∧ ((s.cluster c.val).tuCheck j = 0) ∧ (ts.any (fun k => k.poison) = false)) ∧
    (∃ (s : State) (c : ClusterId) (src : Fin 9) (j : TuJob) (ts : List Tok), (s.runs c.val = true) ∧ ((s.cluster c.val).tu.jobs = []) ∧
      ((s.cluster c.val).tu.gathers = []) ∧ ((s.cluster c.val).tu.commit = false) ∧
      ((s.cluster c.val).tu.nextSource 9 (s.cluster c.val).tu.rr = some src.val) ∧ ((s.cluster c.val).tu.front src.val = some (j, ts)) ∧
      (j.opc = 1) ∧ ((s.cluster c.val).tuCheck j ≠ 0) ∧ (j.left = 0)) ∧
    (∃ (s : State) (c : ClusterId) (src : Fin 9) (j : TuJob) (a : Tok) (b : Tok), (s.runs c.val = true) ∧ ((s.cluster c.val).tu.jobs = []) ∧
      ((s.cluster c.val).tu.commit = false) ∧ ((s.cluster c.val).tu.nextSource 9 (s.cluster c.val).tu.rr = some src.val) ∧
      ((s.cluster c.val).tu.front src.val = some (j, [a, b])) ∧ (j.opc = 1) ∧ (j.list = false) ∧ ((s.cluster c.val).tuCheck j = 0) ∧
      (a.poison = false) ∧ (b.poison = false)) ∧
    (∃ (s : State) (c : ClusterId) (src : Fin 9) (j : TuJob) (id : W64) (b0 : Bag), (s.runs c.val = true) ∧ ((s.cluster c.val).tu.jobs = [j]) ∧
      ((s.cluster c.val).tu.gathers = []) ∧ (j.src = src.val) ∧ (j.opc = 1) ∧ (j.stale = false) ∧ (j.todo = [(0, id, false)]) ∧ (j.nb = 1) ∧
      (j.bags = [b0]) ∧ ((s.cluster c.val).lookupRoom j 0 = true) ∧ ((s.cluster c.val).dsq = []) ∧ (id.toNat / 2 ^ 32 % 2 ^ 16 = 0) ∧
      ((s.cluster c.val).badId j.table (id.toNat % 2 ^ 32) = false) ∧ ((s.cluster c.val).tabGran j.table = 1) ∧
      ((s.cluster c.val).rd TU_CTRL_POLICY ≠ 1) ∧ ((s.cluster c.val).findEntry j.table (id.toNat % 2 ^ 32) = none) ∧
      ((s.cluster c.val).homeXY j.table (id.toNat % 2 ^ 32) = (cx c.val, cy c.val)) ∧
      ((s.cluster c.val).homeOff j.table (id.toNat % 2 ^ 32) % 64 = 0)) ∧
    (∃ (s : State) (c : ClusterId) (src : Fin 9) (j : TuJob) (id : W64) (e : Nat), (s.runs c.val = true) ∧ ((s.cluster c.val).tu.jobs = [j]) ∧
      ((s.cluster c.val).tu.gathers = []) ∧ (j.src = src.val) ∧ (j.opc = 2) ∧ (j.stale = false) ∧ (j.todo = [(0, id, false)]) ∧ (j.left = 0) ∧
      ((s.cluster c.val).lookupRoom j 0 = true) ∧ (id.toNat / 2 ^ 32 % 2 ^ 16 = 0) ∧
      ((s.cluster c.val).badId j.table (id.toNat % 2 ^ 32) = false) ∧ ((s.cluster c.val).findEntry j.table (id.toNat % 2 ^ 32) = some e)) ∧
    (∃ (s : State) (c : ClusterId) (src : Fin 9) (j : TuJob) (id : W64) (e : Nat), (s.runs c.val = true) ∧ ((s.cluster c.val).tu.jobs = [j]) ∧
      ((s.cluster c.val).tu.gathers = []) ∧ (j.src = src.val) ∧ (j.opc = 2) ∧ (j.stale = false) ∧ (j.todo = [(0, id, false)]) ∧
      ((s.cluster c.val).lookupRoom j 0 = true) ∧ ((s.cluster c.val).dsq = []) ∧ (id.toNat / 2 ^ 32 % 2 ^ 16 = 0) ∧
      ((s.cluster c.val).badId j.table (id.toNat % 2 ^ 32) = false) ∧ ((s.cluster c.val).tabGran j.table = 1) ∧
      ((s.cluster c.val).findEntry j.table (id.toNat % 2 ^ 32) = none) ∧ ((s.cluster c.val).victim j.table (id.toNat % 2 ^ 32) = some e) ∧
      ((s.cluster c.val).homeXY j.table (id.toNat % 2 ^ 32) = (cx c.val, cy c.val)) ∧
      ((s.cluster c.val).homeOff j.table (id.toNat % 2 ^ 32) % 64 = 0)) ∧
    (∃ (s : State) (c : ClusterId) (src : Fin 9) (j : TuJob) (id : W64) (e : Nat), (s.runs c.val = true) ∧ ((s.cluster c.val).tu.jobs = [j]) ∧
      ((s.cluster c.val).tu.gathers = []) ∧ (j.src = src.val) ∧ (j.opc = 3) ∧ (j.stale = false) ∧ (j.todo = [(0, id, false)]) ∧ (j.left = 0) ∧
      (id.toNat / 2 ^ 32 % 2 ^ 16 = 0) ∧ ((s.cluster c.val).badId j.table (id.toNat % 2 ^ 32) = false) ∧
      ((s.cluster c.val).findEntry j.table (id.toNat % 2 ^ 32) = some e) ∧ (((s.cluster c.val).tu.entry e).fill = false)) ∧
    (∃ (s : State) (c : ClusterId) (src : Fin 9) (j : TuJob) (ts : List Tok), (s.runs c.val = true) ∧ ((s.cluster c.val).tu.jobs = []) ∧
      ((s.cluster c.val).tu.gathers = []) ∧ ((s.cluster c.val).tu.commit = false) ∧
      ((s.cluster c.val).tu.nextSource 9 (s.cluster c.val).tu.rr = some src.val) ∧ ((s.cluster c.val).tu.front src.val = some (j, ts)) ∧
      (j.opc = 4) ∧ ((s.cluster c.val).tuCheck j = 0) ∧ (ts.any (fun k => k.poison) = false) ∧
      ((s.cluster c.val).tu.index.any (fun p => p.2.fill) = false)) ∧
    (∃ (s : State) (c : ClusterId) (j : TuJob) (g : Gather) (k : Gather), (s.runs c.val = true) ∧ ((s.cluster c.val).tu.jobs = [j]) ∧
      ((s.cluster c.val).tu.gathers = [g, k]) ∧ (j.opc = 1) ∧ (j.stale = false) ∧ (j.nb ≤ 16) ∧ (g.bag < j.nb) ∧ (g.job = j.serial) ∧
      (k.job = j.serial) ∧ (k.bag = g.bag) ∧ (k.serial ≠ g.serial) ∧ (k.pooled = false) ∧ (g.arrived = true) ∧ (g.pooled = false) ∧
      (g.fill = none) ∧ (g.pool = true) ∧ (g.status = 0) ∧ ((s.cluster c.val).inOrder j g = true)) :=
  ⟨⟨inCluster (tuTable { Tu.reset with doorbell := [(0x4800, 0, 0)] }), 0, 8, ⟨0x4800, 0, 0, 8, 0, 0, [], [], 0, [], PlateSum.start, false, 0, 0⟩, [], by decide +kernel⟩,
    ⟨inCluster { Cluster.reset with tu := { Tu.reset with doorbell := [(0x801, 0, 0)] } }, 0, 8, ⟨0x801, 0, 0, 8, 0, 0, [], [], 0, [], PlateSum.start, false, 0, 0⟩, [], by decide +kernel⟩,
    ⟨inCluster (tuTable (tuRing 0x2C0001)), 0, 2, ⟨0x2C0001, 1, 0, 2, 0, 0, [], [], 0, [], PlateSum.start, false, 0, 1⟩, ⟨0x2C0001, .data, 0, false⟩, ⟨1, .data, 0, false⟩, by decide +kernel⟩,
    ⟨inCluster (tuTable { Tu.reset with jobs := [⟨0x2C0001, 1, 0, 2, 0, 0, [⟨[], 0, false⟩], [(0, 5, false)], 0, [], PlateSum.start, false, 0, 1⟩] }), 0, 2, ⟨0x2C0001, 1, 0, 2, 0, 0, [⟨[], 0, false⟩], [(0, 5, false)], 0, [], PlateSum.start, false, 0, 1⟩, 5, ⟨[], 0, false⟩, by decide +kernel⟩,
    ⟨inCluster (tuTable { Tu.reset with jobs := [⟨0x2, 1, 0, 2, 0, 0, [⟨[], 0, false⟩], [(0, 5, false)], 0, [], PlateSum.start, false, 0, 0⟩], index := [(tuSet 5, ⟨0, 5, true, false, false, false, 0, 0⟩)] }), 0, 2, ⟨0x2, 1, 0, 2, 0, 0, [⟨[], 0, false⟩], [(0, 5, false)], 0, [], PlateSum.start, false, 0, 0⟩, 5, tuSet 5, by decide +kernel⟩,
    ⟨inCluster (tuTable { Tu.reset with jobs := [⟨0x2, 1, 0, 2, 0, 0, [⟨[], 0, false⟩], [(0, 5, false)], 0, [], PlateSum.start, false, 0, 0⟩] }), 0, 2, ⟨0x2, 1, 0, 2, 0, 0, [⟨[], 0, false⟩], [(0, 5, false)], 0, [], PlateSum.start, false, 0, 0⟩, 5, tuSet 5, by decide +kernel⟩,
    ⟨inCluster (tuTable { Tu.reset with jobs := [⟨0x3, 1, 0, 2, 0, 0, [⟨[], 0, false⟩], [(0, 5, false)], 0, [], PlateSum.start, false, 0, 0⟩], index := [(tuSet 5, ⟨0, 5, true, false, false, false, 0, 0⟩)] }), 0, 2, ⟨0x3, 1, 0, 2, 0, 0, [⟨[], 0, false⟩], [(0, 5, false)], 0, [], PlateSum.start, false, 0, 0⟩, 5, tuSet 5, by decide +kernel⟩,
    ⟨inCluster (tuTable { Tu.reset with doorbell := [(0x4804, 0, 0)], index := [(3, ⟨0, 5, true, false, false, false, 0, 0⟩)] }), 0, 8, ⟨0x4804, 0, 0, 8, 0, 0, [], [], 0, [], PlateSum.start, false, 0, 0⟩, [], by decide +kernel⟩,
    ⟨inCluster (tuTable { Tu.reset with jobs := [⟨0x2C0001, 1, 0, 2, 0, 0, [⟨[], 1, false⟩], [], 1, [], PlateSum.start, false, 0, 0⟩], gathers := [⟨0, 0, 0, 0, 0, none, true, 4, true, List.replicate 64 1, 0, false, false⟩, ⟨0, 0, 1, 0, 0, none, true, 5, false, [], 0, false, false⟩] }), 0, ⟨0x2C0001, 1, 0, 2, 0, 0, [⟨[], 1, false⟩], [], 1, [], PlateSum.start, false, 0, 0⟩, ⟨0, 0, 0, 0, 0, none, true, 4, true, List.replicate 64 1, 0, false, false⟩, ⟨0, 0, 1, 0, 0, none, true, 5, false, [], 0, false, false⟩, by decide +kernel⟩⟩

/-- A state and operands for each clause of RoutersMoveOnePacket that has hypotheses. -/
theorem test_met_routersMoveOnePacket :
    (∃ (s : State) (c : ClusterId) (pl : Fin 2) (d : Fin 4) (p : Pkt), (s.opaqueRouter c.val = false) ∧
      ((s.region (regionOf c.val)).hole = false) ∧ ((s.cluster c.val).input pl.val d.val = [p]) ∧
      (∀ k ∈ List.range 5, k ≠ d.val → (s.cluster c.val).input pl.val k = []) ∧ (isCrossing c.val d.val = false) ∧
      (s.nextLocal c.val pl.val = none) ∧ (p.mcast = false) ∧ (p.dmod = s.modId) ∧ (p.age < 65535) ∧ (cidx p.dx p.dy = c.val) ∧
      (p.opc ∈ [2, 7, 8, 9, 12])) ∧
    (∃ (s : State) (c : ClusterId) (pl : Fin 2) (d : Fin 4) (p : Pkt) (k : Nat) (n : Nat) (rest : List Nat), (s.opaqueRouter c.val = false) ∧
      ((s.region (regionOf c.val)).hole = false) ∧ ((s.region (regionOf c.val)).holes = []) ∧ ((s.cluster c.val).input pl.val d.val = [p]) ∧
      (∀ k ∈ List.range 5, k ≠ d.val → (s.cluster c.val).input pl.val k = []) ∧ (isCrossing c.val d.val = false) ∧
      (s.nextLocal c.val pl.val = none) ∧ (p.mcast = false) ∧ (p.dmod = s.modId) ∧ (p.age < 65535) ∧ (cidx p.dx p.dy ≠ c.val) ∧
      (productive c.val (cidx p.dx p.dy) = k :: rest) ∧ (s.outFree c.val pl.val k = true) ∧ (neighbour c.val k = some n)) ∧
    (∃ (s : State) (c : ClusterId) (pl : Fin 2) (d : Fin 4) (n : Nat), (neighbour c.val d.val = some n) ∧ (isCrossing c.val d.val = true) ∧
      ((s.cluster c.val).xcredit pl.val d.val + ((s.cluster n).input pl.val (opposite d.val)).length < 8)) :=
  ⟨⟨inCluster (Cluster.reset.setInput 1 0 [mkPkt 7]), 0, 1, 0, mkPkt 7, by decide +kernel⟩,
    ⟨inCluster (Cluster.reset.setInput 1 0 [{ mkPkt 7 with dx := 3, dy := 2 }]), 0, 1, 0, { mkPkt 7 with dx := 3, dy := 2 }, 0, 80, [1], by decide +kernel⟩,
    ⟨(inRegion (live [])).setCluster 9 (Cluster.reset.setXcredit 0 1 4), 9, 0, 1, 10, by decide +kernel⟩⟩

/-- A state and operands for each clause of PacketsLostAndHoles that has hypotheses. -/
theorem test_met_packetsLostAndHoles :
    (∃ (s : State) (c : ClusterId) (pl : Fin 2) (d : Fin 5) (n : Nat) (p : Pkt), (((s.cluster c.val).input pl.val d.val)[n]? = some p) ∧
      (d.val ≠ 4) ∧ (65535 ≤ p.age)) ∧
    (∃ (s : State) (c : ClusterId) (n : Nat) (r : RecvStream), ((s.cluster c.val).te.recv[n]? = some r) ∧
      (r.pool.any (fun p => decide (65535 ≤ p.age)) = true)) ∧
    (∃ (s : State) (c : ClusterId) (n : Nat) (r : RecvStream), ((s.cluster c.val).te.recv[n]? = some r) ∧ (r.pool ≠ [])) ∧
    (∃ (s : State) (c : ClusterId) (d : Fin 4) (n : Nat), (neighbour c.val d.val = some n) ∧ (isCrossing c.val d.val = true) ∧
      ((s.region (regionOf n)).hole = true)) :=
  ⟨⟨inCluster (Cluster.reset.setInput 1 0 [{ mkPkt 4 with age := 65535 }]), 0, 1, 0, 0, { mkPkt 4 with age := 65535 }, by decide +kernel⟩,
    ⟨inCluster { Cluster.reset with te := { Te.reset with recv := [{ rStream with pool := [{ mkPkt 4 with age := 65535 }] }] } }, 0, 0, { rStream with pool := [{ mkPkt 4 with age := 65535 }] }, by decide +kernel⟩,
    ⟨inCluster { Cluster.reset with te := { Te.reset with recv := [{ rStream with pool := [mkPkt 4] }] } }, 0, 0, { rStream with pool := [mkPkt 4] }, by decide +kernel⟩,
    ⟨(inRegion (live [])).setRegion 1 (pageOf [(PWR_STATUS_STATE, 6)]), 9, 1, 10, by decide +kernel⟩⟩

/-- A state and operands for each clause of ReadsAndStreamsArrive that has hypotheses. -/
theorem test_met_readsAndStreamsArrive :
    (∃ (s : State) (c : ClusterId) (p : Pkt) (rest : List Pkt) (u : List Nat), (takeFirst (fun q => q.opc == 1) (s.cluster c.val).arrivals = some (p, rest)) ∧
      (s.suppressed c.val = false) ∧ (s.runs c.val = true) ∧ (p.dep = 33) ∧ ((p.pay.headD 0).toNat < 0x200000) ∧
      ((p.pay.headD 0).toNat % 64 = 0) ∧ (p.smod = s.modId) ∧ (cidx p.sx p.sy ≠ c.val) ∧
      ((s.cluster c.val).rowsPoisoned (p.pay.headD 0).toNat 64 = false) ∧
      (((s.upset c.val u).cluster c.val).badBytes (p.pay.headD 0).toNat 64 (fun b => (p.pay.getD 1 0).toNat.testBit (b - (p.pay.headD 0).toNat)) = [])) ∧
    (∃ (s : State) (c : ClusterId) (p : Pkt) (rest : List Pkt), (takeFirst (fun q => q.opc == 1) (s.cluster c.val).arrivals = some (p, rest)) ∧
      (s.suppressed c.val = true)) ∧
    (∃ (s : State) (c : ClusterId) (p : Pkt) (rest : List Pkt) (y : Xfer), (takeFirst (fun q => q.opc == 2) (s.cluster c.val).arrivals = some (p, rest)) ∧
      (s.suppressed c.val = false) ∧ (s.runs c.val = true) ∧ (p.dep = 35) ∧ (p.poison = false) ∧
      ((s.cluster c.val).tuSend.answered 6 (pktTag p s.modId) p.smod p.sy p.sx = some y)) ∧
    (∃ (s : State) (c : ClusterId) (p : Pkt) (rest : List Pkt), (takeFirst (fun q => q.opc == 3) (s.cluster c.val).arrivals = some (p, rest)) ∧
      (s.suppressed c.val = false) ∧ (s.runs c.val = true) ∧ (isStart p = true) ∧ ((s.cluster c.val).te.stream p = none) ∧
      ((s.cluster c.val).te.recv.length < 248) ∧ (p.dep = 33) ∧ (bitsOf (p.pay.headD 0) 23 3 = 0) ∧ (bitOf (p.pay.headD 0) 28 = false) ∧
      (0 < bitsOf (p.pay.headD 0) 32 16) ∧ (64 * (bitsOf (p.pay.headD 0) 0 23 + bitsOf (p.pay.headD 0) 32 16) ≤ 0x200000)) ∧
    (∃ (s : State) (c : ClusterId) (p : Pkt) (rest : List Pkt) (r : RecvStream) (l : Landing), (takeFirst (fun q => q.opc == 4) (s.cluster c.val).arrivals = some (p, rest)) ∧
      (s.suppressed c.val = false) ∧ (s.runs c.val = true) ∧ ((s.cluster c.val).te.recv = [r]) ∧ (r.is p = true) ∧ (r.absorb = false) ∧
      (r.known = true) ∧ (r.expect = p.seq) ∧ (r.pool = []) ∧ (r.unacked < 15) ∧ (r.landing = some l) ∧ (l.space = 0) ∧ (l.add = 0) ∧
      (l.plate = false) ∧ (64 * (l.gran + l.count) + 64 ≤ 0x200000) ∧ (p.last = false) ∧ (p.poison = false) ∧ ((s.cluster c.val).asm = [])) ∧
    (∃ (s : State) (c : ClusterId) (p : Pkt) (rest : List Pkt) (r : RecvStream), (takeFirst (fun q => q.opc == 5) (s.cluster c.val).arrivals = some (p, rest)) ∧
      (s.suppressed c.val = false) ∧ (s.runs c.val = true) ∧ ((s.cluster c.val).te.recv = [r]) ∧ (r.is p = true) ∧ (isStart p = false) ∧
      (r.absorb = false) ∧ (r.known = true) ∧ (r.expect = p.seq) ∧ (r.pool = []) ∧ (r.unacked < 15) ∧ (p.poison = false) ∧
      (SMap.get (fun _ => none) (s.cluster c.val).te.bound (8 * p.dep + bitsOf (p.pay.headD 0) 4 3) ∈ [none, some (p.smod, p.sy, p.sx, (p.pay.getD 8 0).toNat)])) ∧
    (∃ (s : State) (c : ClusterId) (p : Pkt) (rest : List Pkt) (r : RecvStream), (takeFirst (fun q => q.opc == 5) (s.cluster c.val).arrivals = some (p, rest)) ∧
      (s.suppressed c.val = false) ∧ (s.runs c.val = true) ∧ ((s.cluster c.val).te.recv = [r]) ∧ (r.is p = true) ∧ (isStart p = true) ∧
      (r.pool = []) ∧ (p.poison = false) ∧
      (SMap.get (fun _ => none) (s.cluster c.val).te.bound (8 * p.dep + bitsOf (p.pay.headD 0) 4 3) ∈ [none, some (p.smod, p.sy, p.sx, (p.pay.getD 8 0).toNat)])) ∧
    (∃ (s : State) (c : ClusterId) (p : Pkt) (rest : List Pkt), (takeFirst (fun q => q.opc == 6) (s.cluster c.val).arrivals = some (p, rest)) ∧
      (s.suppressed c.val = false) ∧ (s.runs c.val = true) ∧ ((p.pay.headD 0).toNat % 64 = 0) ∧ (bitsOf (p.pay.headD 0) 29 3 = 0) ∧
      (bitsOf (p.pay.headD 0) 32 16 = 1) ∧ (bitOf (p.pay.headD 0) 48 = false) ∧ (bitsOf (p.pay.headD 0) 0 29 < 0x200000) ∧ (p.smod = s.modId) ∧
      (cidx p.sx p.sy ≠ c.val) ∧ ((s.cluster c.val).te.send.streams = []) ∧
      ((s.cluster c.val).rowsPoisoned (bitsOf (p.pay.headD 0) 0 29) 64 = false) ∧ ((s.cluster c.val).te.send.inflight ≤ 8190) ∧
      ((s.cluster c.val).badBytes (bitsOf (p.pay.headD 0) 0 29) 64 (fun _ => true) = [])) :=
  ⟨⟨inCluster { Cluster.reset with arrivals := [{ mkPkt 1 with dep := 33, sx := 3, pay := [128, 0xFF, 0, 0, 0, 0, 0, 0] }], mem := [(130, 7), (140, 8)] }, 0, { mkPkt 1 with dep := 33, sx := 3, pay := [128, 0xFF, 0, 0, 0, 0, 0, 0] }, [], [], by decide +kernel⟩,
    ⟨(inRegion (live [(PWR_STATUS_STATE, 5)])).setCluster 0 { Cluster.reset with arrivals := [{ mkPkt 1 with sx := 3 }] }, 0, { mkPkt 1 with sx := 3 }, [], by decide +kernel⟩,
    ⟨inCluster { Cluster.reset with arrivals := [{ mkPkt 2 with dep := 35, seq := 9, sx := 3 }], tuSend := { Sender.reset with items := [{ xItem with kind := 6, tag := 9, dx := 3, owner := 4 }] } }, 0, { mkPkt 2 with dep := 35, seq := 9, sx := 3 }, [], { xItem with kind := 6, tag := 9, dx := 3, owner := 4 }, by decide +kernel⟩,
    ⟨inCluster { Cluster.reset with arrivals := [{ mkPkt 3 with dep := 33, sx := 3, seq := 7, pay := [0x0005000240000002, 0, 0, 0, 0, 0, 0, 0] }] }, 0, { mkPkt 3 with dep := 33, sx := 3, seq := 7, pay := [0x0005000240000002, 0, 0, 0, 0, 0, 0, 0] }, [], by decide +kernel⟩,
    ⟨inCluster { Cluster.reset with arrivals := [{ mkPkt 4 with dep := 33, sx := 3, sep := 36, seq := 8 }], te := { Te.reset with recv := [{ rStream with expect := 8, landing := some ⟨1, 3, 0, 0, false, 4, 5, 0xFFFFFFFFFFFFFFFF, 0xFFFFFFFFFFFFFFFF, [], 1, 0⟩ }] } }, 0, { mkPkt 4 with dep := 33, sx := 3, sep := 36, seq := 8 }, [], { rStream with expect := 8, landing := some ⟨1, 3, 0, 0, false, 4, 5, 0xFFFFFFFFFFFFFFFF, 0xFFFFFFFFFFFFFFFF, [], 1, 0⟩ }, ⟨1, 3, 0, 0, false, 4, 5, 0xFFFFFFFFFFFFFFFF, 0xFFFFFFFFFFFFFFFF, [], 1, 0⟩, by decide +kernel⟩,
    ⟨inCluster { Cluster.reset with arrivals := [{ mkPkt 5 with dep := 4, sx := 3, sep := 36, seq := 8, pay := [0x12, 7, 8, 0, 0, 0, 0, 0, 2] }], te := { Te.reset with recv := [{ rStream with expect := 8 }] } }, 0, { mkPkt 5 with dep := 4, sx := 3, sep := 36, seq := 8, pay := [0x12, 7, 8, 0, 0, 0, 0, 0, 2] }, [], { rStream with expect := 8 }, by decide +kernel⟩,
    ⟨inCluster { Cluster.reset with arrivals := [{ mkPkt 5 with dep := 4, sx := 3, sep := 36, seq := 8, pay := [0x1A, 7, 8, 0, 0, 0, 0, 0, 2] }], te := { Te.reset with recv := [rStream] } }, 0, { mkPkt 5 with dep := 4, sx := 3, sep := 36, seq := 8, pay := [0x1A, 7, 8, 0, 0, 0, 0, 0, 2] }, [], rStream, by decide +kernel⟩,
    ⟨inCluster { Cluster.reset with arrivals := [{ mkPkt 6 with sx := 3, sep := 36, pay := [0x100000080, 0x50000, 0, 0, 0, 0, 0, 0] }], mem := [(130, 7)] }, 0, { mkPkt 6 with sx := 3, sep := 36, pay := [0x100000080, 0x50000, 0, 0, 0, 0, 0, 0] }, [], by decide +kernel⟩⟩

/-- A state and operands for each clause of AnswersCloseWhatIsTracked that has hypotheses. -/
theorem test_met_answersCloseWhatIsTracked :
    (∃ (s : State) (c : ClusterId) (p : Pkt) (rest : List Pkt) (z : SendStream) (y : Xfer) (q : Nat) (m : Nat), (takeFirst (fun k => k.opc == 7) (s.cluster c.val).arrivals = some (p, rest)) ∧
      (s.suppressed c.val = false) ∧ (s.runs c.val = true) ∧ (p.dep = 36) ∧ (pktTag p s.modId = 0) ∧ ((s.cluster c.val).te.send.streams = [z]) ∧
      (z.is p.smod p.sy p.sx (bitsOf (p.pay.headD 0) 0 2) = true) ∧ (z.waiting = []) ∧ (z.outst = [(q, m)]) ∧ (bitsOf (p.pay.headD 0) 8 8 = q) ∧
      (bitsOf (p.pay.headD 0) 16 4 = 1) ∧ ((s.cluster c.val).te.send.items = [y]) ∧ (y.kind = 1) ∧
      ((y.dmod, y.dy, y.dx, y.chan, y.tag) = (p.smod, p.sy, p.sx, bitsOf (p.pay.headD 0) 0 2, bitsOf (p.pay.headD 0) 48 16)) ∧ (y.status = 0) ∧
      (y.cen = false)) ∧
    (∃ (s : State) (c : ClusterId) (p : Pkt) (rest : List Pkt), (takeFirst (fun k => k.opc == 8) (s.cluster c.val).arrivals = some (p, rest)) ∧
      (s.suppressed c.val = false) ∧ (s.runs c.val = true) ∧ (p.dep = 36) ∧ (bitsOf (p.pay.getD 7 0) 0 3 = 1)) ∧
    (∃ (s : State) (c : ClusterId) (p : Pkt) (rest : List Pkt) (y : Xfer) (hd : Nat), (takeFirst (fun k => k.opc == 9) (s.cluster c.val).arrivals = some (p, rest)) ∧
      (s.suppressed c.val = false) ∧ (s.runs c.val = true) ∧ (p.dep = 35) ∧ (hd = (p.pay.getD 1 0).toNat + 2 ^ 64 * (p.pay.getD 2 0).toNat) ∧
      (hd % 32 = 1) ∧ (hd / 2 ^ 5 % 4096 = s.modId) ∧ (bitsOf (p.pay.headD 0) 0 4 = 1) ∧
      ((s.cluster c.val).tuSend.answered 6 (hd / 2 ^ 72 % 256 + 256 * (hd / 2 ^ 90 % 64)) s.modId (hd / 2 ^ 17 % 128) (hd / 2 ^ 24 % 128) = some y)) ∧
    (∃ (s : State) (c : ClusterId) (p : Pkt) (rest : List Pkt), (takeFirst (fun k => k.opc == 10) (s.cluster c.val).arrivals = some (p, rest)) ∧
      (s.suppressed c.val = false) ∧ (s.runs c.val = true) ∧ (p.poison = false) ∧ ((s.cluster c.val).asm = []) ∧
      ((s.cluster c.val).te.mc = [])) ∧
    (∃ (s : State) (c : ClusterId) (p : Pkt) (rest : List Pkt) (m : McCount), (takeFirst (fun k => k.opc == 11) (s.cluster c.val).arrivals = some (p, rest)) ∧
      (s.suppressed c.val = false) ∧ (s.runs c.val = true) ∧ (p.smod = s.modId) ∧ (cidx p.sx p.sy ≠ c.val) ∧ ((s.cluster c.val).asm = []) ∧
      ((s.cluster c.val).te.mc = [m]) ∧ (m.is p = true) ∧ (bitsOf (p.pay.headD 0) 0 16 ≤ m.count)) ∧
    (∃ (s : State) (c : ClusterId) (p : Pkt) (rest : List Pkt) (y : Xfer), (takeFirst (fun k => k.opc == 12) (s.cluster c.val).arrivals = some (p, rest)) ∧
      (s.suppressed c.val = false) ∧ (s.runs c.val = true) ∧ (p.dep = 36) ∧ ((s.cluster c.val).te.send.items = [y]) ∧ (y.kind = 3) ∧
      (y.tag = bitsOf (p.pay.headD 0) 16 16) ∧ (y.members = y.acks + 1) ∧ (y.absent = []) ∧ (bitOf (p.pay.headD 0) 0 = false) ∧ (y.status = 0) ∧
      (y.cen = false)) ∧
    (∃ (s : State) (c : ClusterId) (i : Nat) (y : Xfer), ((s.cluster c.val).te.send.items[i]? = some y) ∧ (y.kind = 2) ∧ (y.cen = false) ∧
      (y.status ≤ 10)) ∧
    (∃ (s : State) (c : ClusterId) (i : Nat) (r : RecvStream), ((s.cluster c.val).te.recv[i]? = some r) ∧ (s.runs c.val = true) ∧
      (r.unacked ≠ 0) ∧ (r.smod = s.modId) ∧ (cidx r.sx r.sy ≠ c.val)) :=
  ⟨⟨inCluster { Cluster.reset with arrivals := [{ mkPkt 7 with sx := 3, pay := [0x0005000000010902, 0, 0, 0, 0, 0, 0, 0] }], te := { Te.reset with send := { Sender.reset with streams := [⟨36, 0, 0, 3, 2, 10, [(9, 4)], []⟩], items := [{ xItem with kind := 1, tag := 5, dx := 3, chan := 2 }] } } }, 0, { mkPkt 7 with sx := 3, pay := [0x0005000000010902, 0, 0, 0, 0, 0, 0, 0] }, [], ⟨36, 0, 0, 3, 2, 10, [(9, 4)], []⟩, { xItem with kind := 1, tag := 5, dx := 3, chan := 2 }, 9, 4, by decide +kernel⟩,
    ⟨inCluster { Cluster.reset with arrivals := [{ mkPkt 8 with sx := 3, pay := [0x80244, 0, 0, 0, 0, 0, 0, 1] }], te := { Te.reset with credit := [⟨2, 0, 0, 3, 4, 2, 0, 8, false, []⟩] } }, 0, { mkPkt 8 with sx := 3, pay := [0x80244, 0, 0, 0, 0, 0, 0, 1] }, [], by decide +kernel⟩,
    ⟨inCluster { Cluster.reset with arrivals := [{ mkPkt 9 with dep := 35, sx := 3, pay := [1, 0x3000001, 0x900, 0, 0, 0, 0, 0] }], tuSend := { Sender.reset with items := [{ xItem with kind := 6, tag := 9, dx := 3, owner := 4 }] } }, 0, { mkPkt 9 with dep := 35, sx := 3, pay := [1, 0x3000001, 0x900, 0, 0, 0, 0, 0] }, [], { xItem with kind := 6, tag := 9, dx := 3, owner := 4 }, 0x9000000000003000001, by decide +kernel⟩,
    ⟨inCluster { Cluster.reset with arrivals := [{ mkPkt 10 with sx := 3, dmod := 77, mcast := true }] }, 0, { mkPkt 10 with sx := 3, dmod := 77, mcast := true }, [], by decide +kernel⟩,
    ⟨inCluster { Cluster.reset with arrivals := [{ mkPkt 11 with sx := 3, pay := [0x50002, 0, 0, 0, 0, 0, 0, 0] }], te := { Te.reset with mc := [⟨0, 0, 3, 36, 0, 2, none⟩] } }, 0, { mkPkt 11 with sx := 3, pay := [0x50002, 0, 0, 0, 0, 0, 0, 0] }, [], ⟨0, 0, 3, 36, 0, 2, none⟩, by decide +kernel⟩,
    ⟨inCluster { Cluster.reset with arrivals := [{ mkPkt 12 with sx := 3, pay := [0x50000, 0, 0, 0, 0, 0, 0, 0] }], te := { Te.reset with send := { Sender.reset with items := [{ xItem with kind := 3, tag := 5, members := 1 }] } } }, 0, { mkPkt 12 with sx := 3, pay := [0x50000, 0, 0, 0, 0, 0, 0, 0] }, [], { xItem with kind := 3, tag := 5, members := 1 }, by decide +kernel⟩,
    ⟨inCluster { Cluster.reset with te := { Te.reset with send := { Sender.reset with items := [{ xItem with kind := 2, tag := 5 }] } } }, 0, 0, { xItem with kind := 2, tag := 5 }, by decide +kernel⟩,
    ⟨inCluster { Cluster.reset with te := { Te.reset with recv := [{ rStream with unacked := 3, expect := 8 }] } }, 0, 0, { rStream with unacked := 3, expect := 8 }, by decide +kernel⟩⟩

/-- A state and operands for each clause of TransitEngineSends that has hypotheses. -/
theorem test_met_transitEngineSends :
    (∃ (s : State) (c : ClusterId) (q : Fin 8) (a : Tok) (d : Tok) (k : CreditEntry), (s.teNext c.val = some (q.val, false, [a, d])) ∧
      (a.poison = false) ∧ (s.sendBad a.data = false) ∧ ((s.cluster c.val).te.credit = [k]) ∧
      (k.is ((s.cluster c.val).teSource q.val) (s.sendMod a.data) a.data = true) ∧ (k.failed = false) ∧ (k.chan = sendChan a.data) ∧
      (k.pack.length < 6) ∧ (d.tag = .data)) ∧
    (∃ (s : State) (c : ClusterId) (i : Nat) (k : CreditEntry), (s.runs c.val = true) ∧ ((s.cluster c.val).te.credit[i]? = some k) ∧
      (k.pack ≠ []) ∧ (k.dmod = s.modId) ∧ (cidx k.dx k.dy ≠ c.val) ∧ ((s.cluster c.val).te.send.streams = []) ∧
      ((s.cluster c.val).te.send.inflight < 8192)) ∧
    (∃ (s : State) (c : ClusterId) (i : Nat) (o : Owed), (s.runs c.val = true) ∧ ((s.cluster c.val).te.owed[i]? = some o) ∧ (o.owed ≤ 16) ∧
      (o.smod = s.modId) ∧ (cidx o.sx o.sy ≠ c.val)) ∧
    (∃ (s : State) (c : ClusterId) (q : Fin 8) (d : Desc), (s.teDesc c.val q.val (fun o => o == 0 || decide (3 < o)) = some d) ∧
      (d.poison = false) ∧ (s.descStatus c.val d = 0)) ∧
    (∃ (s : State) (c : ClusterId) (q : Fin 8) (d : Desc), (s.teDesc c.val q.val (fun o => o == 1) = some d) ∧ (d.poison = false) ∧
      (s.descStatus c.val d = 0) ∧ (d.perm = false) ∧ (d.plate = false) ∧ (d.ngran = 1) ∧ (d.dmod s.modId = s.modId) ∧
      (cidx (addrX d.addr) (addrY d.addr) ≠ c.val) ∧ ((s.cluster c.val).te.send.streams = []) ∧ ((s.cluster c.val).te.send.inflight ≤ 8190) ∧
      ((s.cluster c.val).rowsPoisoned (64 * d.loc) 64 = false) ∧ ((s.cluster c.val).badBytes (64 * d.loc) 64 (fun _ => true) = [])) ∧
    (∃ (s : State) (c : ClusterId) (q : Fin 8) (d : Desc), (s.teDesc c.val q.val (fun o => o == 1) = some d) ∧ (d.poison = false) ∧
      (s.descStatus c.val d ≠ 0) ∧ (d.cen = false)) ∧
    (∃ (s : State) (c : ClusterId) (q : Fin 8) (d : Desc), (s.teDesc c.val q.val (fun o => o == 2) = some d) ∧ (d.poison = false) ∧
      (s.descStatus c.val d = 0) ∧ (d.dmod s.modId = s.modId) ∧ (cidx (addrX d.addr) (addrY d.addr) ≠ c.val)) ∧
    (∃ (s : State) (c : ClusterId) (q : Fin 8) (d : Desc), (s.teDesc c.val q.val (fun o => o == 3) = some d) ∧ (d.poison = false) ∧
      (s.descStatus c.val d = 0) ∧ (d.perm = false) ∧ (d.ngran = 1) ∧ ((s.cluster c.val).rd (TE_MC_HI_MEMBERS.nth d.group) ≠ 0) ∧
      ((s.cluster c.val).rowsPoisoned (64 * d.loc) 64 = false) ∧ ((s.cluster c.val).badBytes (64 * d.loc) 64 (fun _ => true) = [])) ∧
    (∃ (s : State) (c : ClusterId) (b : Fin 8) (d : TeDone) (rest : List TeDone), (s.runs c.val = true) ∧
      (takeFirst (fun (k : TeDone) => k.cbind == b.val) (s.cluster c.val).te.done = some (d, rest)) ∧
      ((s.cluster c.val).rd (TE_CBIND_CREDITS.nth b.val) ≠ 0)) :=
  ⟨⟨inCluster { Cluster.reset with te := { Te.reset with queues := [(1, [⟨0x110184000, .data, 0, false⟩, ⟨77, .data, 0, false⟩])], credit := [⟨0, 0, 4, 3, 4, 2, 0, 8, false, []⟩] } }, 0, 1, ⟨0x110184000, .data, 0, false⟩, ⟨77, .data, 0, false⟩, ⟨0, 0, 4, 3, 4, 2, 0, 8, false, []⟩, by decide +kernel⟩,
    ⟨inCluster { Cluster.reset with te := { Te.reset with credit := [⟨0, 0, 4, 3, 4, 2, 0, 8, false, [⟨77, .data, 0, false⟩]⟩] } }, 0, 0, ⟨0, 0, 4, 3, 4, 2, 0, 8, false, [⟨77, .data, 0, false⟩]⟩, by decide +kernel⟩,
    ⟨inCluster { Cluster.reset with te := { Te.reset with owed := [⟨0, 4, 3, 2, 4, 2, 5⟩] } }, 0, 0, ⟨0, 4, 3, 2, 4, 2, 5⟩, by decide +kernel⟩,
    ⟨inCluster (teQueued 0 0x10000 0x80), 0, 1, descOf 1 (teToks 0 0x10000 0x80), by decide +kernel⟩,
    ⟨inCluster { teQueued 1 0x10005 (0x300000000 + 128) with mem := [(325, 9)] }, 0, 1, descOf 1 (teToks 1 0x10005 (0x300000000 + 128)), by decide +kernel⟩,
    ⟨inCluster (teQueued 1 0x00005 (0x300000000 + 128)), 0, 1, descOf 1 (teToks 1 0x00005 (0x300000000 + 128)), by decide +kernel⟩,
    ⟨inCluster (teQueued 2 0x10005 (0x300000000 + 128)), 0, 1, descOf 1 (teToks 2 0x10005 (0x300000000 + 128)), by decide +kernel⟩,
    ⟨inCluster (((teQueued 3 0x10005 128).wr (TE_MC_LO_VALID.nth 0) 1).wr (TE_MC_HI_MEMBERS.nth 0) 4), 0, 1, descOf 1 (teToks 3 0x10005 128), by decide +kernel⟩,
    ⟨inCluster ({ Cluster.reset with te := { Te.reset with done := [⟨9, 3, true, 5, 2, true, 0⟩] } }.wr (TE_CBIND_CREDITS.nth 2) 16), 0, 2, ⟨9, 3, true, 5, 2, true, 0⟩, [], by decide +kernel⟩⟩

/-- A state and operands for each clause of FramesAreTakenInOrder that has hypotheses. -/
theorem test_met_framesAreTakenInOrder :
    (∃ (s : State) (p : PortId) (h : FrameHdr) (l : LinkPkt), (s.portUp p.val = true) ∧ (h.ok = true) ∧ (h.fseq = (s.port p.val).rxSeq) ∧
      (h.nakReq = false) ∧ ((s.port p.val).replays < 16) ∧ (l.pkt.dmod = s.modId) ∧ (l.pkt.mcast = false) ∧
      (cidx l.pkt.dx l.pkt.dy ≠ portCluster p.val) ∧ (1 ≤ l.pkt.opc ∧ l.pkt.opc ≤ 9) ∧ (l.cls = pktClass l.pkt.opc) ∧ (l.vc < 2) ∧
      ((s.port p.val).ingress = []) ∧ ((s.port p.val).disabling = false) ∧
      (((s.cluster (portCluster p.val)).input 0 4).length ≤ ((s.cluster (portCluster p.val)).input 1 4).length)) ∧
    (∃ (s : State) (p : PortId) (h : FrameHdr), (s.portUp p.val = true) ∧ (h.ok = false) ∧ ((s.port p.val).nakFrames = 0)) ∧
    (∃ (s : State) (p : PortId) (h : FrameHdr), (s.portUp p.val = true) ∧ (h.ok = true) ∧ (h.nakReq = false) ∧ ((s.port p.val).replays < 16) ∧
      (h.fseq ≠ (s.port p.val).rxSeq) ∧ ((s.port p.val).nakFrames = 0)) ∧
    (∃ (s : State) (p : PortId) (h : FrameHdr) (a : List Frame) (b : List Frame) (k : Frame), (s.portUp p.val = true) ∧ (h.ok = true) ∧
      (h.nakReq = false) ∧ ((s.port p.val).replays < 16) ∧ (h.fseq = (s.port p.val).rxSeq) ∧ ((s.port p.val).retry = a ++ k :: b) ∧
      (k.fseq = h.ackSeq) ∧ (a.all (fun j => j.fseq != h.ackSeq) = true)) ∧
    (∃ (s : State) (p : PortId) (h : FrameHdr) (r : ColRec), (s.portUp p.val = true) ∧ (h.ok = true) ∧ (h.fseq = (s.port p.val).rxSeq) ∧
      (h.nakReq = false) ∧ ((s.port p.val).replays < 16) ∧ ((s.heldFrom p.val).length < 64) ∧ (r.dst = s.modId)) ∧
    (∃ (s : State) (p : PortId) (h : FrameHdr), (s.portUp p.val = true) ∧ (h.ok = true) ∧ (64 ≤ (s.heldFrom p.val).length) ∧
      ((s.port p.val).nakFrames = 0)) ∧
    (∃ (s : State) (p : PortId) (h : FrameHdr), (s.portUp p.val = true) ∧ (h.ok = true) ∧ (h.nakReq = false) ∧ ((s.port p.val).replays < 16) ∧
      (h.fseq ≠ (s.port p.val).rxSeq) ∧ ((s.port p.val).nakFrames = 0)) ∧
    (∃ (s : State) (p : PortId), ((s.port p.val).nakFrames = 1)) ∧
    (∃ (s : State) (p : PortId), (s.portUp p.val = true) ∧ (s.dome_ TCK_CTRL_MODE = 0) ∧ (s.dome_ TCK_CTRL_RCV_PORT = p.val)) :=
  ⟨⟨upPort [], 0, ⟨true, false, 0, 0, 0, 4095, false, [1, 2, 3, 4]⟩, ⟨5, 0, 0, { mkPkt 1 with dx := 7, dy := 7 }⟩, by decide +kernel⟩,
    ⟨upPort [], 0, ⟨true, true, 0, 0, 0, 4095, false, [1, 2, 3, 4]⟩, by decide +kernel⟩,
    ⟨upPort [], 0, ⟨true, false, 0, 0, 3, 4095, false, [1, 2, 3, 4]⟩, by decide +kernel⟩,
    ⟨(upPort []).modPort 0 (fun z => { z with retry := [⟨3, .data []⟩, ⟨4, .data []⟩, ⟨5, .data []⟩] }), 0, ⟨true, false, 0, 0, 0, 4, false, [1, 2, 3, 4]⟩, [⟨3, .data []⟩], [⟨5, .data []⟩], ⟨4, .data []⟩, by decide +kernel⟩,
    ⟨upPort [], 0, ⟨true, false, 0, 0, 0, 4095, false, [1, 2, 3, 4]⟩, ⟨false, false, 3, 0, 0, 7, 9, 1, 5⟩, by decide +kernel⟩,
    ⟨(upPort []).setPort 1 { ((Port.reset.wr ZL_STATUS_STATE 5)) with finder := (List.range 64).map (fun k => (some 0, .col ⟨false, false, 3, 1, 0, 7, 9, 1, k⟩)) }, 0, ⟨true, false, 0, 0, 0, 4095, false, [1, 2, 3, 4]⟩, by decide +kernel⟩,
    ⟨upPort [], 0, ⟨true, false, 0, 0, 3, 4095, false, [0, 0, 0, 0]⟩, by decide +kernel⟩,
    ⟨State.reset.setPort 0 { Port.reset with nakFrames := 1 }, 0, by decide +kernel⟩,
    ⟨upPort [(ZL_LAT_NS, 100)], 0, by decide +kernel⟩⟩

/-- A state and operands for each clause of PortsSend that has hypotheses. -/
theorem test_met_portsSend :
    (∃ (s : State) (p : PortId), (s.adapterUp p.val = true) ∧ ((s.port p.val).sinceAlign < 16383) ∧ ((s.port p.val).sinceIdle < 2044) ∧
      ((s.port p.val).rd ZL_STATUS_STATE ∈ [1, 2, 3, 4])) ∧
    (∃ (s : State) (p : PortId), (s.adapterUp p.val = true) ∧ ((s.port p.val).sinceAlign = 16383) ∧
      ((s.port p.val).rd ZL_STATUS_STATE ∈ [1, 2, 3, 4, 5]) ∧ ((s.port p.val).narrow = false)) ∧
    (∃ (s : State) (p : PortId), (s.adapterUp p.val = true) ∧ ((s.port p.val).sinceAlign < 16383) ∧
      ((s.port p.val).rd ZL_STATUS_STATE ∈ [1, 2, 3, 4]) ∧ (2044 ≤ (s.port p.val).sinceIdle)) ∧
    (∃ (s : State) (p : PortId), (s.adapterUp p.val = true) ∧ ((s.port p.val).sinceAlign < 16383) ∧ (s.portUp p.val = true) ∧
      ((s.port p.val).tickDue = true)) ∧
    (∃ (s : State) (p : PortId) (k : Frame) (rest : List Frame), (s.adapterUp p.val = true) ∧ ((s.port p.val).sinceAlign < 16382) ∧
      (s.portUp p.val = true) ∧ ((s.port p.val).tickDue = false) ∧ ((s.port p.val).sinceIdle < 2044) ∧ ((s.port p.val).replay = k :: rest)) ∧
    (∃ (s : State) (p : PortId), (s.adapterUp p.val = true) ∧ ((s.port p.val).sinceAlign < 16382) ∧ (s.portUp p.val = true) ∧
      ((s.port p.val).tickDue = false) ∧ ((s.port p.val).sinceIdle < 2044) ∧ ((s.port p.val).replay = []) ∧
      ((s.port p.val).retry.length < 1024) ∧ ((s.port p.val).finder = []) ∧ ((s.port p.val).takeData.1 ≠ [])) :=
  ⟨⟨(upPort [(ZL_STATUS_STATE, 2)]), 0, by decide +kernel⟩,
    ⟨(upPort [(ZL_STATUS_STATE, 2)]).modPort 0 (fun z => { z with sinceAlign := 16383 }), 0, by decide +kernel⟩,
    ⟨(upPort [(ZL_STATUS_STATE, 2)]).modPort 0 (fun z => { z with sinceIdle := 2044 }), 0, by decide +kernel⟩,
    ⟨(upPort []).modPort 0 (fun z => { z with tickDue := true }), 0, by decide +kernel⟩,
    ⟨(upPort []).modPort 0 (fun z => { z with replay := [⟨3, .data []⟩] }), 0, ⟨3, .data []⟩, [], by decide +kernel⟩,
    ⟨(upPort []).modPort 0 (fun z => { z with egress := [(0, [⟨5, 0, 0, mkPkt 1⟩])], credits := [(0, 9)] }), 0, by decide +kernel⟩⟩

/-- A state and operands for each clause of PortsTrainAndFail that has hypotheses. -/
theorem test_met_portsTrainAndFail :
    (∃ (s : State) (p : PortId), ((s.port p.val).rd ZL_STATUS_STATE = 0) ∧ (s.adapterUp p.val = true) ∧ ((s.port p.val).sharesOk = true) ∧
      (s.dome_ (ZL_CART_STATE.nth (p.val / 4)) = 1)) ∧
    (∃ (s : State) (p : PortId), ((s.port p.val).rd ZL_STATUS_STATE = 0) ∧ (s.adapterUp p.val = true) ∧ ((s.port p.val).sharesOk = false)) ∧
    (∃ (s : State) (p : PortId) (v : W32), ((s.port p.val).rd ZL_STATUS_STATE = 1) ∧ (v.toNat % 256 = 255)) ∧
    (∃ (s : State) (p : PortId) (v : W32), ((s.port p.val).rd ZL_STATUS_STATE = 2) ∧
      (v.toNat % 256 &&& (s.port p.val).deskewed = (s.port p.val).deskewed)) ∧
    (∃ (s : State) (p : PortId), ((s.port p.val).rd ZL_STATUS_STATE = 2)) ∧
    (∃ (s : State) (p : PortId) (v : W32), ((s.port p.val).rd ZL_STATUS_STATE = 3) ∧ ((s.port p.val).deskewed = 0) ∧
      (v.toNat &&& (s.port p.val).rd ZL_STATUS_LANE_OK = 255)) ∧
    (∃ (s : State) (p : PortId), ((s.port p.val).rd ZL_STATUS_STATE = 3)) ∧
    (∃ (s : State) (p : PortId) (a : TrainParams), ((s.port p.val).rd ZL_STATUS_STATE = 4) ∧ (a.lat ≤ 400) ∧
      ((s.port p.val).rd ZL_STATUS_LANE_OK &&& a.lanes = 255)) ∧
    (∃ (s : State) (p : PortId), ((s.port p.val).rd ZL_STATUS_STATE ∈ [1, 2, 3])) ∧
    (∃ (s : State) (p : PortId) (a : TrainParams), ((s.port p.val).rd ZL_STATUS_STATE = 4) ∧ (400 < a.lat)) ∧
    (∃ (s : State) (p : PortId), ((s.port p.val).rd ZL_STATUS_STATE = 6) ∧ ((s.port p.val).rd ZL_CTRL_EN = 1) ∧ (s.adapterUp p.val = true)) ∧
    (∃ (s : State) (p : PortId), (s.portUp p.val = true)) ∧
    (∃ (s : State) (p : PortId), (s.portUp p.val = true)) ∧
    (∃ (s : State) (p : PortId), (s.portUp p.val = true) ∧ ((s.port p.val).retry ≠ [])) ∧
    (∃ (s : State) (p : PortId), ((s.port p.val).rd ZL_STATUS_STATE = 4)) ∧
    (∃ (s : State) (p : PortId), (s.portUp p.val = true)) ∧
    (∃ (s : State) (p : PortId), (s.portUp p.val = true) ∧ ((s.port p.val).ingress = [])) ∧
    (∃ (s : State) (p : PortId), ((s.port p.val).rd ZL_STATUS_STATE = 0) ∧ ((s.port p.val).rd ZL_CTRL_EN = 0)) ∧
    (∃ (s : State) (p : PortId) (v : W32), ((s.port p.val).rd ZL_STATUS_STATE = 0) ∧ ((s.port p.val).rd ZL_CTRL_EN = 1) ∧
      (s.adapterUp p.val = true) ∧ (s.dome_ (ZL_CART_STATE.nth (p.val / 4)) = 1) ∧
      ([ZL_CRED0_VC0_REQ.of v, ZL_CRED0_VC0_RSP.of v, (s.port p.val).rd ZL_CRED1_VC1_REQ, (s.port p.val).rd ZL_CRED1_VC1_RSP].all (fun n => decide (64 ≤ n)) = true) ∧
      (ZL_CRED0_VC0_REQ.of v + ZL_CRED0_VC0_RSP.of v + (s.port p.val).rd ZL_CRED1_VC1_REQ + (s.port p.val).rd ZL_CRED1_VC1_RSP ≤ 2048)) ∧
    (∃ (s : State) (p : PortId), ((s.port p.val).rd ZL_STATUS_STATE ≠ 0)) ∧
    (∃ (s : State), (s.ready = true) ∧ (s.host.posted = [])) :=
  ⟨⟨(upPort [(ZL_STATUS_STATE, 0), (ZL_CRED0_VC0_REQ, 64), (ZL_CRED0_VC0_RSP, 64), (ZL_CRED1_VC1_REQ, 64), (ZL_CRED1_VC1_RSP, 64)]).setDome (ZL_CART_STATE.nth 0) 1, 0, by decide +kernel⟩,
    ⟨upPort [(ZL_STATUS_STATE, 0), (ZL_CRED0_VC0_REQ, 1)], 0, by decide +kernel⟩,
    ⟨upPort [(ZL_STATUS_STATE, 1)], 0, 255, by decide +kernel⟩,
    ⟨(upPort [(ZL_STATUS_STATE, 2)]).modPort 0 (fun z => { z with deskewed := 255 }), 0, 255, by decide +kernel⟩,
    ⟨upPort [(ZL_STATUS_STATE, 2)], 0, by decide +kernel⟩,
    ⟨upPort [(ZL_STATUS_STATE, 3), (ZL_STATUS_LANE_OK, 255)], 0, 255, by decide +kernel⟩,
    ⟨upPort [(ZL_STATUS_STATE, 3)], 0, by decide +kernel⟩,
    ⟨upPort [(ZL_STATUS_STATE, 4), (ZL_STATUS_LANE_OK, 255), (ZL_CRED0_VC0_REQ, 64)], 0, ⟨7, 3, 255, 0, 1000, 40, 1240⟩, by decide +kernel⟩,
    ⟨upPort [(ZL_STATUS_STATE, 2)], 0, by decide +kernel⟩,
    ⟨upPort [(ZL_STATUS_STATE, 4)], 0, ⟨7, 3, 255, 0, 1000, 40, 2040⟩, by decide +kernel⟩,
    ⟨upPort [(ZL_STATUS_STATE, 6), (ZL_CTRL_EN, 1)], 0, by decide +kernel⟩,
    ⟨upPort [], 0, by decide +kernel⟩,
    ⟨upPort [], 0, by decide +kernel⟩,
    ⟨(upPort []).modPort 0 (fun z => { z with retry := [⟨3, .data []⟩] }), 0, by decide +kernel⟩,
    ⟨upPort [(ZL_STATUS_STATE, 4)], 0, by decide +kernel⟩,
    ⟨upPort [], 0, by decide +kernel⟩,
    ⟨upPort [(ZL_CTRL_EN, 1)], 0, by decide +kernel⟩,
    ⟨State.reset, 0, by decide +kernel⟩,
    ⟨(upPort [(ZL_STATUS_STATE, 0), (ZL_CTRL_EN, 1), (ZL_CRED1_VC1_REQ, 64), (ZL_CRED1_VC1_RSP, 64)]).setDome (ZL_CART_STATE.nth 0) 1, 0, 0x00400040, by decide +kernel⟩,
    ⟨upPort [], 0, by decide +kernel⟩,
    ⟨(State.reset.setPort 0 { Port.reset with tick := 0x100000003 }).setHif HIF_STATUS_READY 1, by decide +kernel⟩⟩

/-- A state and operands for each clause of CartridgesAndFinder that has hypotheses. -/
theorem test_met_cartridgesAndFinder :
    (∃ (n : Nat), (n < 256)) ∧
    (∃ (s : State) (k : Fin 16), (s.dome_ (ZL_CART_STATE.nth k.val) ≠ 0)) ∧
    (∃ (s : State), (s.dome_ FND_STATUS_STATE ∈ [0, 3, 4])) ∧
    (∃ (s : State), (s.dome_ FND_STATUS_STATE = 1)) ∧
    (∃ (s : State), (s.dome_ FND_STATUS_STATE = 1)) ∧
    (∃ (s : State), (s.dome_ FND_STATUS_STATE = 2) ∧ (s.upPorts = [])) ∧
    (∃ (s : State), (s.dome_ FND_STATUS_STATE = 2) ∧ (s.upPorts ≠ []) ∧
      (finderErr s.dome.finder.recs s.ownRec (graphOf s.dome.finder.recs s.fid) (if s.dome.finder.ranOnce then s.dome.finder.root else       match (keptIds s.dome.finder.recs (graphOf s.dome.finder.recs s.fid)).find? (fun q => q.2 == 0) with       | some q => q.1 | none => chooseRoot s.dome.finder.recs (graphOf s.dome.finder.recs s.fid)) = 2)) :=
  ⟨⟨90, by decide +kernel⟩,
    ⟨State.reset.setDome (ZL_CART_STATE.nth 3) 1, 3, by decide +kernel⟩,
    ⟨upPort [], by decide +kernel⟩,
    ⟨State.reset.setDome FND_STATUS_STATE 1, by decide +kernel⟩,
    ⟨State.reset.setDome FND_STATUS_STATE 1, by decide +kernel⟩,
    ⟨State.reset.setDome FND_STATUS_STATE 2, by decide +kernel⟩,
    ⟨((upPort []).setDome FND_STATUS_STATE 2).modDome (fun d => { d with finder := { d.finder with recs := [⟨5, 1, false, 0, 0, 0, none, []⟩, ⟨5, 1, false, 0, 0, 0, none, [⟨0, 1, 0, 0, 0⟩]⟩] } }), by decide +kernel⟩⟩

/-- A state and operands for each clause of FaultStatesAndContainment that has hypotheses. -/
theorem test_met_faultStatesAndContainment :
    (∃ (s : State) (c : Nat) (r : Nat) (rest : List (Nat × Nat)), (s.mstate = 1) ∧ (s.dome.degPend = (c, r) :: rest) ∧ (c < 256) ∧ (r < 128)) ∧
    (∃ (s : State) (c : Nat) (r : Nat) (rest : List (Nat × Nat)), (s.mstate = 2) ∧ (s.dome.degPend = (c, r) :: rest)) ∧
    (∃ (s : State) (e : Fin 8) (y : Eph) (r : RegionId), (s.dome.forcePend = true) ∧ (SMap.get (fun _ => none) s.dome.ephs e.val = some y) ∧
      (r.val ∈ y.regions) ∧ (s.pageOpen r.val = true) ∧ ((s.region r.val).rd TCK_RSCHED_EPH = e.val) ∧
      ((s.region r.val).sched_ ∈ [1, 2, 3, 4, 6])) ∧
    (∃ (s : State), (s.mstate = 2) ∧ ((List.range 112).all (fun r => (s.region r).haltable) = true)) ∧
    (∃ (s : State) (i : Nat) (rest : List Nat), (s.dome.occPend = i :: rest) ∧ (s.enabled i = true) ∧ (s.dome.merged = true)) ∧
    (∃ (s : State) (r : RegionId), ((s.region r.val).dark = true ∨ (2 ≤ (s.region r.val).power ∧
      ((s.region r.val).rd PWR_STATUS_RAIL_OK).testBit 5 = false))) ∧
    (∃ (s : State) (r : RegionId), (s.alive r.val = true) ∧ (s.dome.silent.contains r.val = false)) ∧
    (∃ (s : State), (s.mstate = 1)) ∧
    (∃ (s : State), (s.mstate = 1) ∧ (s.clocked 8 = true)) ∧
    (∃ (s : State) (v : List W32) (rest : List (List W32)), (s.dome.logPend = v :: rest)) :=
  ⟨⟨(withDome (inRegion (live [])) [(DOM_FLT_STATUS_MSTATE, 1)]).modDome (fun d => { d with degPend := [(12, 5), (13, 7)], ephs := [(3, some ⟨[0], [], false, false, false, 0, [], 0⟩)] }), 12, 5, [(13, 7)], by decide +kernel⟩,
    ⟨(withDome (inRegion (live [])) [(DOM_FLT_STATUS_MSTATE, 2)]).modDome (fun d => { d with degPend := [(12, 5), (13, 7)] }), 12, 5, [(13, 7)], by decide +kernel⟩,
    ⟨(inRegion (live [(TCK_RSCHED_EPH, 3)])).modDome (fun d => { d with forcePend := true, ephs := [(3, some ⟨[0], [], false, false, false, 24, [], 0⟩)] }), 3, ⟨[0], [], false, false, false, 24, [], 0⟩, 0, by decide +kernel⟩,
    ⟨withDome State.reset [(DOM_FLT_STATUS_MSTATE, 2)], by decide +kernel⟩,
    ⟨(inCluster ((((((Cluster.reset.wr (TE_MC_LO_VALID.nth 2) 1).wr (TE_MC_LO_X0.nth 2) 0).wr (TE_MC_LO_X1.nth 2) 3).wr (TE_MC_LO_Y1.nth 2) 1).wr (TE_MC_HI_MEMBERS.nth 2) 8))).modDome (fun d => { d with occPend := [81], merged := true }), 81, [], by decide +kernel⟩,
    ⟨inRegion (pageOf [(PWR_STATUS_STATE, 6)]), 0, by decide +kernel⟩,
    ⟨inRegion (live []), 0, by decide +kernel⟩,
    ⟨withDome (inRegion (live [])) [(DOM_FLT_STATUS_MSTATE, 1)], by decide +kernel⟩,
    ⟨withDome (inRegion (live [])) [(DOM_FLT_STATUS_MSTATE, 1), (DOM_CLKEN_EN, 0x100)], by decide +kernel⟩,
    ⟨State.reset.modDome (fun d => { d with logPend := [[1, 2, 3, 4, 5, 6, 7, 8]] }), [1, 2, 3, 4, 5, 6, 7, 8], [], by decide +kernel⟩⟩

/-- A state and operands for each clause of CollimationCompares that has hypotheses. -/
theorem test_met_collimationCompares :
    (∃ (s : State) (i : Nat), (s.dome.col.interval = some i) ∧ (s.dome.col.armed = true) ∧
      ((List.range 112).all (fun r => (s.region r).frozen) = true) ∧ (s.dome_ DOM_COL_CTRL_REPEAT = 0) ∧
      (∀ r ∈ List.range 8, s.peerValid r = true) ∧ (s.dome.col.waiting = []) ∧
      (∀ r ∈ List.range 8, SMap.get (fun _ => []) s.dome.col.held r = [])) ∧
    (∃ (s : State) (k : ColRec) (rest : List ColRec) (r : Fin 8), (s.dome.col.inbox = k :: rest) ∧ (k.set = s.dome_ DOM_COL_SET_SET) ∧
      (s.peerValid r.val = true) ∧ (s.dome_ (DOM_COL_PEER_MODID.nth r.val) = k.src) ∧ (s.dome.col.waiting = [])) ∧
    (∃ (s : State) (k : ColRec) (rest : List ColRec), (s.dome.col.inbox = k :: rest) ∧ (k.set ≠ s.dome_ DOM_COL_SET_SET)) ∧
    (∃ (s : State) (k : ColRec) (own : ColRec) (rest : List ColRec) (r : Fin 8), (s.dome.col.inbox = k :: rest) ∧
      (k.set = s.dome_ DOM_COL_SET_SET) ∧ (∀ j ∈ List.range 8, s.peerValid j = decide (j = r.val)) ∧
      (s.dome_ (DOM_COL_PEER_MODID.nth r.val) = k.src) ∧ (SMap.get (fun _ => []) s.dome.col.held r.val = []) ∧ (s.dome.col.waiting = [own]) ∧
      (own.repeated = false) ∧ (k.repeated = false) ∧ (own.nondet = false) ∧ (k.nondet = false) ∧ (k.interval = own.interval)) ∧
    (∃ (s : State) (own : ColRec) (rest : List ColRec), (s.dome.col.waiting = own :: rest) ∧ (own.repeated = false) ∧ (own.nondet = false) ∧
      (∀ r ∈ List.range 8, s.peerRec r own = none)) ∧
    (∃ (s : State) (own : ColRec) (k : ColRec) (m : ColRec) (rest : List ColRec) (r : Fin 8) (q : Fin 8) (d : Nat) (n : Nat), (s.dome.col.waiting = own :: rest) ∧
      (own.repeated = true) ∧ (own.nondet = false) ∧ (r ≠ q) ∧ (s.peerRec r.val own = some k) ∧ (s.peerRec q.val own = some m) ∧
      (∀ j ∈ List.range 8, j ≠ r.val → j ≠ q.val → s.peerRec j own = none) ∧ (k.nondet = false) ∧ (m.nondet = false) ∧
      ((s.dome.col.hist.find? (fun h => h.1 == own.interval)) = some (own.interval, d, n)) ∧ (s.clocked 8 = true)) ∧
    (∃ (s : State) (own : ColRec) (rest : List ColRec), (s.dome.col.waiting = own :: rest) ∧ (own.repeated = true) ∧ (own.nondet = false) ∧
      (∀ r ∈ List.range 8, s.peerRec r own = none) ∧ (s.dome.col.hist.find? (fun h => h.1 == own.interval) = none)) ∧
    (∃ (s : State), (s.colOpen = false)) ∧
    (∃ (s : State), (s.colOpen = true)) ∧
    (∃ (s : State), (s.ready = true) ∧ (s.host.posted = [])) :=
  ⟨⟨(withDome ((List.range 112).foldl (fun t r => t.setRegion r { Region.reset with frozen := true, bucket0 := ⟨r + 1, 2, false⟩ }) State.reset) ((List.range 8).map (fun r => (DOM_COL_PEER_VALID.nth r, 1)))).modDome (fun d => { d with col := { d.col with interval := some 5, armed := true } }), 5, by decide +kernel⟩,
    ⟨(withDome State.reset [(DOM_COL_PEER_VALID.nth 2, 1), (DOM_COL_PEER_MODID.nth 2, 9)]).modDome (fun d => { d with col := { d.col with inbox := [⟨false, false, 9, 0, 0, 3, 77, 4, 1⟩], held := [(2, List.replicate 4 ⟨false, false, 9, 0, 0, 2, 7, 4, 1⟩)] } }), ⟨false, false, 9, 0, 0, 3, 77, 4, 1⟩, [], 2, by decide +kernel⟩,
    ⟨State.reset.modDome (fun d => { d with col := { d.col with inbox := [⟨false, false, 9, 0, 1, 3, 77, 4, 1⟩] } }), ⟨false, false, 9, 0, 1, 3, 77, 4, 1⟩, [], by decide +kernel⟩,
    ⟨(withDome State.reset [(DOM_COL_PEER_VALID.nth 2, 1), (DOM_COL_PEER_MODID.nth 2, 9)]).modDome (fun d => { d with col := { d.col with inbox := [⟨false, false, 9, 0, 0, 3, 77, 4, 1⟩], waiting := [⟨false, false, 0, 0, 0, 3, 78, 4, 1⟩] } }), ⟨false, false, 9, 0, 0, 3, 77, 4, 1⟩, ⟨false, false, 0, 0, 0, 3, 78, 4, 1⟩, [], 2, by decide +kernel⟩,
    ⟨State.reset.modDome (fun d => { d with col := { d.col with waiting := [⟨false, false, 0, 0, 0, 3, 78, 4, 1⟩] } }), ⟨false, false, 0, 0, 0, 3, 78, 4, 1⟩, [], by decide +kernel⟩,
    ⟨(withDome State.reset [(DOM_COL_PEER_VALID.nth 2, 1), (DOM_COL_PEER_VALID.nth 3, 1), (DOM_CLKEN_EN, 0x100)]).modDome (fun d => { d with col := { d.col with waiting := [⟨true, false, 0, 0, 0, 3, 78, 4, 1⟩], hist := [(3, 78, 4)], held := [(2, [⟨true, false, 9, 0, 0, 3, 77, 4, 1⟩]), (3, [⟨true, false, 8, 0, 0, 3, 77, 4, 1⟩])] } }), ⟨true, false, 0, 0, 0, 3, 78, 4, 1⟩, ⟨true, false, 9, 0, 0, 3, 77, 4, 1⟩, ⟨true, false, 8, 0, 0, 3, 77, 4, 1⟩, [], 2, 3, 78, 4, by decide +kernel⟩,
    ⟨State.reset.modDome (fun d => { d with col := { d.col with waiting := [⟨true, false, 0, 0, 0, 3, 78, 4, 1⟩] } }), ⟨true, false, 0, 0, 0, 3, 78, 4, 1⟩, [], by decide +kernel⟩,
    ⟨State.reset, by decide +kernel⟩,
    ⟨inRegion { Region.reset with bucket0 := ⟨1, 1, false⟩ }, by decide +kernel⟩,
    ⟨(State.reset.modDome (fun d => { d with col := { d.col with count := 2 ^ 40 + 3 } })).setHif HIF_STATUS_READY 1, by decide +kernel⟩⟩

/-- A state and operands for each clause of BridgeResetsAndPower that has hypotheses. -/
theorem test_met_bridgeResetsAndPower :
    (∃ (s : State), (s.host.queues = [])) ∧
    (∃ (s : State) (q : QueueId) (z : HostQ), (s.host.queues = [(q.val, z)]) ∧ (s.ready = true) ∧ (z.state = 1) ∧ (z.jobs = []) ∧
      (z.entries = []) ∧ (z.rd HIF_Q_STATUS_SQ_HEAD < z.sqSize) ∧ (z.sqTail = (z.rd HIF_Q_STATUS_SQ_HEAD + 1) % z.sqSize) ∧ (2 ≤ z.sqSize) ∧
      (s.aprAllows (z.sqBase + 64 * z.rd HIF_Q_STATUS_SQ_HEAD) 64 false = true)) ∧
    (∃ (s : State), (s.host.d3hot = true)) ∧
    (∃ (s : State), (s.host.d3hot = true)) ∧
    (∃ (s : State) (q : QueueId) (v : W32), (s.host.d3hot = true) ∧ ((s.hostQ q.val).state = 1) ∧ (v.toNat % 65536 < (s.hostQ q.val).sqSize)) ∧
    (∃ (speed : Nat) (lanes : Nat), (1 ≤ speed ∧ speed ≤ 7) ∧ (4 ≤ lanes)) ∧
    (∃ (lanes : Nat), (lanes < 4)) :=
  ⟨⟨{ State.reset with host := { Bridge.reset with d3hot := true } }, by decide +kernel⟩,
    ⟨{ hostUp { qRun [] with sqTail := 1 } with host := { (hostUp { qRun [] with sqTail := 1 }).host with d3hot := true } }, 3, { qRun [] with sqTail := 1 }, by decide +kernel⟩,
    ⟨{ State.reset with host := { Bridge.reset with d3hot := true, causes := [5] } }, by decide +kernel⟩,
    ⟨{ jobUp 1 16 with host := { (jobUp 1 16).host with d3hot := true } }, by decide +kernel⟩,
    ⟨{ hostUp (qRun []) with host := { (hostUp (qRun [])).host with d3hot := true } }, 3, 5, by decide +kernel⟩,
    ⟨5, 12, by decide +kernel⟩,
    ⟨2, by decide +kernel⟩⟩

/-- A state and operands for each clause of HostAccessesThroughBars that has hypotheses. -/
theorem test_met_hostAccessesThroughBars :
    (∃ (s : State) (off : Nat) (len : Nat), (1 ≤ len ∧ len ≤ 4096) ∧ (off + len ≤ 2 ^ 37) ∧ (s.ready = false)) ∧
    (∃ (s : State) (off : Nat) (len : Nat) (i : Nat) (a : Nat), (1 ≤ len ∧ off % 64 + len ≤ 64) ∧ (off + len ≤ 2 ^ 37) ∧ (s.ready = true) ∧
      (s.host.posted = []) ∧ (s.host.reads = []) ∧ (s.barTarget off len = some (i, a)) ∧ (i < 8960)) ∧
    (∃ (s : State) (off : Nat) (len : Nat), (1 ≤ len ∧ len ≤ 4096) ∧ (off + len ≤ 2 ^ 37) ∧ (s.ready = true) ∧ (s.host.posted ≠ []) ∧
      (s.host.reads = [])) ∧
    (∃ (s : State) (off : Nat) (len : Nat), (1 ≤ len ∧ off % 64 + len ≤ 64) ∧ (off + len ≤ 2 ^ 37) ∧ (s.ready = true) ∧ (s.host.posted = []) ∧
      (s.host.reads = []) ∧ (s.barTarget off len = none)) ∧
    (∃ (s : State) (off : Nat) (bs : List Byte), (1 ≤ bs.length ∧ bs.length ≤ 4096) ∧ (off + bs.length ≤ 2 ^ 37) ∧ (s.ready = false)) ∧
    (∃ (s : State) (off : Nat) (bs : List Byte) (i : Nat) (a : Nat), (1 ≤ bs.length ∧ off % 64 + bs.length ≤ 64) ∧ (off + bs.length ≤ 2 ^ 37) ∧
      (s.ready = true) ∧ (s.barTarget off bs.length = some (i, a)) ∧ (i < 8960)) ∧
    (∃ (s : State) (off : Nat) (bs : List Byte), (1 ≤ bs.length ∧ off % 64 + bs.length ≤ 64) ∧ (off + bs.length ≤ 2 ^ 37) ∧ (s.ready = true) ∧
      (s.barTarget off bs.length = none)) ∧
    (∃ (s : State) (i : Nat) (r : BarRead), (s.host.reads[i]? = some r) ∧ (r.bar2 = true) ∧ (r.issued = true)) ∧
    (∃ (s : State), (s.host.posted = [])) ∧
    (∃ (s : State), (s.host.posted ≠ [])) ∧
    (∃ (s : State), (s.host.posted = [])) ∧
    (∃ (s : State), (s.host.posted ≠ [])) ∧
    (∃ (s : State) (off : Nat), (s.ready = false) ∧ (off < 0x1000000)) :=
  ⟨⟨State.reset, 60, 8, by decide +kernel⟩,
    ⟨barUp, 64, 8, 39, 64, by decide +kernel⟩,
    ⟨{ barUp with host := { barUp.host with posted := [⟨3, 64, 1⟩] } }, 64, 8, by decide +kernel⟩,
    ⟨hostUp (qRun []), 64, 8, by decide +kernel⟩,
    ⟨State.reset, 60, [1, 2, 3], by decide +kernel⟩,
    ⟨barUp, 64, [1, 2, 3], 39, 64, by decide +kernel⟩,
    ⟨hostUp (qRun []), 64, [1, 2, 3], by decide +kernel⟩,
    ⟨{ State.reset with host := { Bridge.reset with reads := [⟨3, true, 64, [], true, 1, [0, 0], 0, [none]⟩] } }, 0, ⟨3, true, 64, [], true, 1, [0, 0], 0, [none]⟩, by decide +kernel⟩,
    ⟨hostUp (qRun []), by decide +kernel⟩,
    ⟨{ State.reset with host := { Bridge.reset with posted := [⟨3, 64, 1⟩] } }, by decide +kernel⟩,
    ⟨hostUp (qRun []), by decide +kernel⟩,
    ⟨{ State.reset with host := { Bridge.reset with posted := [⟨3, 64, 1⟩] } }, by decide +kernel⟩,
    ⟨State.reset, 0x500, by decide +kernel⟩⟩

/-- A state and operands for each clause of QueuesAndTheirStates that has hypotheses. -/
theorem test_met_queuesAndTheirStates :
    (∃ (s : State) (q : QueueId), ((s.hostQ q.val).state = 0) ∧ (4 ≤ (s.hostQ q.val).rd HIF_Q_SIZE_SQ_LOG2 ∧
      (s.hostQ q.val).rd HIF_Q_SIZE_SQ_LOG2 ≤ 16) ∧ (4 ≤ (s.hostQ q.val).rd HIF_Q_SIZE_CQ_LOG2 ∧ (s.hostQ q.val).rd HIF_Q_SIZE_CQ_LOG2 ≤ 16) ∧
      ((s.hostQ q.val).sqBase % 4096 = 0 ∧ (s.hostQ q.val).cqBase % 4096 = 0)) ∧
    (∃ (s : State) (q : QueueId), ((s.hostQ q.val).state = 0) ∧
      ((s.hostQ q.val).sqBase % 4096 ≠ 0 ∨ (s.hostQ q.val).cqBase % 4096 ≠ 0 ∨ (s.hostQ q.val).rd HIF_Q_SIZE_SQ_LOG2 < 4 ∨ 16 < (s.hostQ q.val).rd HIF_Q_SIZE_SQ_LOG2 ∨ (s.hostQ q.val).rd HIF_Q_SIZE_CQ_LOG2 < 4 ∨ 16 < (s.hostQ q.val).rd HIF_Q_SIZE_CQ_LOG2)) ∧
    (∃ (s : State) (q : QueueId), ((s.hostQ q.val).state = 1)) ∧
    (∃ (s : State) (q : QueueId), ((s.hostQ q.val).state = 3)) ∧
    (∃ (s : State) (q : QueueId), ((s.hostQ q.val).state = 2) ∧ ((s.hostQ q.val).jobs = []) ∧ ((s.hostQ q.val).due = [])) ∧
    (∃ (s : State) (q : QueueId) (v : W32), ((s.hostQ q.val).state = 1) ∧ (v.toNat % 65536 < (s.hostQ q.val).sqSize) ∧ (s.ready = false)) ∧
    (∃ (s : State) (q : QueueId) (v : W32), ((s.hostQ q.val).state = 1) ∧ (v.toNat % 65536 < (s.hostQ q.val).sqSize) ∧ (s.ready = true) ∧
      (s.host.d3hot = false) ∧ ((s.hostQ q.val).entries = []) ∧ ((s.hostQ q.val).rd HIF_Q_STATUS_SQ_HEAD < (s.hostQ q.val).sqSize) ∧
      (v.toNat % 65536 = ((s.hostQ q.val).rd HIF_Q_STATUS_SQ_HEAD + 1) % (s.hostQ q.val).sqSize) ∧ (2 ≤ (s.hostQ q.val).sqSize) ∧
      (s.aprAllows ((s.hostQ q.val).sqBase + 64 * (s.hostQ q.val).rd HIF_Q_STATUS_SQ_HEAD) 64 false = true)) ∧
    (∃ (s : State) (q : QueueId) (v : W32), ((s.hostQ q.val).state = 1) ∧ (v.toNat % 65536 < (s.hostQ q.val).sqSize) ∧ (s.ready = true) ∧
      (s.host.d3hot = false) ∧ ((s.hostQ q.val).entries = []) ∧ ((s.hostQ q.val).rd HIF_Q_STATUS_SQ_HEAD < (s.hostQ q.val).sqSize) ∧
      (v.toNat % 65536 ≠ (s.hostQ q.val).rd HIF_Q_STATUS_SQ_HEAD) ∧
      (s.aprAllows ((s.hostQ q.val).sqBase + 64 * (s.hostQ q.val).rd HIF_Q_STATUS_SQ_HEAD) 64 false = false)) ∧
    (∃ (s : State) (q : QueueId) (v : W32), ((s.hostQ q.val).state = 1) ∧ ((s.hostQ q.val).sqSize ≤ v.toNat % 65536)) ∧
    (∃ (s : State) (q : QueueId) (v : W32), ((s.hostQ q.val).state = 1) ∧ (v.toNat % 65536 < (s.hostQ q.val).cqSize)) ∧
    (∃ (s : State) (q : QueueId) (v : W32), ((s.hostQ q.val).state = 1) ∧ ((s.hostQ q.val).cqSize ≤ v.toNat % 65536)) ∧
    (∃ (s : State) (q : QueueId), ((s.hostQ q.val).state = 1)) ∧
    (∃ (s : State) (q : QueueId) (c : CqRec) (rest : List CqRec), ((s.hostQ q.val).due = c :: rest) ∧ (s.host.d3hot = false) ∧
      ((s.hostQ q.val).state = 1 ∨ (s.hostQ q.val).state = 2) ∧
      (s.aprAllows ((s.hostQ q.val).cqBase + 16 * (s.hostQ q.val).rd HIF_Q_CQ_TAIL_TAIL) 16 true = true) ∧
      ((s.hostQ q.val).rd HIF_Q_CQ_TAIL_TAIL < (s.hostQ q.val).cqSize) ∧ ((s.hostQ q.val).cqSize ≤ 65536)) ∧
    (∃ (s : State) (q : QueueId) (c : CqRec) (rest : List CqRec), ((s.hostQ q.val).due = c :: rest) ∧ (s.host.d3hot = false) ∧
      ((s.hostQ q.val).state = 1) ∧ (s.aprAllows ((s.hostQ q.val).cqBase + 16 * (s.hostQ q.val).rd HIF_Q_CQ_TAIL_TAIL) 16 true = false)) ∧
    (∃ (s : State) (n : Fin 512) (us : Nat), (s.host.causes.contains n.val = true) ∧ ((s.msixWord (4 * n.val + 3)).getLsbD 0 = false) ∧
      (s.host.fmask = false) ∧ (s.host.d3hot = false) ∧ (s.interval n.val ≤ us)) :=
  ⟨⟨hostUp (qRun [(HIF_Q_STATUS_STATE, 0), (HIF_Q_SQ_HI_BASE, 1)]), 3, by decide +kernel⟩,
    ⟨hostUp (qRun [(HIF_Q_STATUS_STATE, 0), (HIF_Q_SIZE_SQ_LOG2, 17)]), 3, by decide +kernel⟩,
    ⟨jobUp 0 0, 3, by decide +kernel⟩,
    ⟨hostUp (qRun [(HIF_Q_STATUS_STATE, 3)]), 3, by decide +kernel⟩,
    ⟨hostUp (qRun [(HIF_Q_STATUS_STATE, 2)]), 3, by decide +kernel⟩,
    ⟨(hostUp (qRun [])).setHif HIF_STATUS_READY 0, 3, 5, by decide +kernel⟩,
    ⟨hostUp (qRun []), 3, 1, by decide +kernel⟩,
    ⟨(hostUp (qRun [])).setApr HIF_APR_BASE_LO_EN 0, 3, 1, by decide +kernel⟩,
    ⟨hostUp (qRun []), 3, 16, by decide +kernel⟩,
    ⟨hostUp (qRun []), 3, 5, by decide +kernel⟩,
    ⟨hostUp (qRun []), 3, 16, by decide +kernel⟩,
    ⟨jobUp 0 0, 3, by decide +kernel⟩,
    ⟨hostUp { qRun [(HIF_Q_CQ_TAIL_TAIL, 15)] with due := [⟨7, 0, none, 0, 0, true⟩] }, 3, ⟨7, 0, none, 0, 0, true⟩, [], by decide +kernel⟩,
    ⟨(hostUp { qRun [] with due := [⟨7, 0, none, 0, 0, true⟩] }).setApr HIF_APR_BASE_LO_EN 0, 3, ⟨7, 0, none, 0, 0, true⟩, [], by decide +kernel⟩,
    ⟨{ State.reset with host := { Bridge.reset with causes := [5], msix := [(20, 0x1000), (22, 9), (23, 0)] } }, 5, 3, by decide +kernel⟩⟩

/-- A state and operands for each clause of EntriesAreServed that has hypotheses. -/
theorem test_met_entriesAreServed :
    (∃ (s : State) (q : QueueId), (s.turnOf q.val = false)) ∧
    (∃ (s : State) (q : QueueId) (v : List W64), (s.startable q.val = some v) ∧ (s.turnOf q.val = true) ∧ (entOpc v = 0) ∧
      ((s.hostQ q.val).badEntry v = false)) ∧
    (∃ (s : State) (q : QueueId) (v : List W64), (s.startable q.val = some v) ∧ (s.turnOf q.val = true) ∧ (entOpc v < 6) ∧
      (bitsOf (v.getD 0 0) 32 32 ≠ 0 ∨ bitsOf (v.getD 2 0) 46 18 ≠ 0 ∨ bitsOf (v.getD 3 0) 32 32 ≠ 0 ∨ (v.drop 4).any (fun x => x != 0) = true ∨ (entNotify v = true ∧
      entOpc v ≠ 1) ∨ (entRel v = true ∧ (s.hostQ q.val).lastLoad = none))) ∧
    (∃ (s : State) (q : QueueId) (v : List W64), (s.startable q.val = some v) ∧ (s.turnOf q.val = true) ∧ (5 < entOpc v)) ∧
    (∃ (s : State) (q : QueueId) (v : List W64), (s.startable q.val = some v) ∧ (s.turnOf q.val = true) ∧ (s.host.d3hot = false) ∧
      (entOpc v = 1) ∧ ((s.hostQ q.val).badEntry v = false) ∧ (entLength v ≠ 0) ∧ (s.aprAllows (entHost v) (entLength v) false = true)) ∧
    (∃ (s : State) (q : QueueId) (v : List W64), (s.startable q.val = some v) ∧ (s.turnOf q.val = true) ∧ (s.host.d3hot = false) ∧
      (entOpc v = 1) ∧ ((s.hostQ q.val).badEntry v = false) ∧ (entLength v ≠ 0) ∧ (s.aprAllows (entHost v) (entLength v) false = false)) ∧
    (∃ (s : State) (q : QueueId) (v : List W64), (s.startable q.val = some v) ∧ (s.turnOf q.val = true) ∧ (s.host.d3hot = false) ∧
      (entOpc v = 1) ∧ ((s.hostQ q.val).badEntry v = false) ∧ (entLength v = 0)) ∧
    (∃ (s : State) (q : QueueId) (v : List W64) (i : Nat), (s.startable q.val = some v) ∧ (s.turnOf q.val = true) ∧ (s.host.d3hot = false) ∧
      (entOpc v = 2) ∧ ((s.hostQ q.val).badEntry v = false) ∧ (entLength v ≠ 0) ∧ (s.aprAllows (entHost v) (entLength v) false = true) ∧
      (addrSpace (entMaddr v) = 0 ∨ addrSpace (entMaddr v) = 2) ∧ (s.addrOk (entMaddr v) (entLength v) = true) ∧
      (entMaddr v % 262144 + entLength v ≤ 262144) ∧ (s.attachFor (addrX (entMaddr v)) = some i) ∧
      (∀ j ∈ s.host.queues, ∀ k ∈ j.2.jobs, k.serial ≠ s.host.serial)) ∧
    (∃ (s : State) (q : QueueId) (v : List W64), (s.startable q.val = some v) ∧ (s.turnOf q.val = true) ∧ (s.host.d3hot = false) ∧
      (entOpc v = 2) ∧ ((s.hostQ q.val).badEntry v = false) ∧ (entLength v ≠ 0) ∧ (s.aprAllows (entHost v) (entLength v) false = true) ∧
      (s.addrOk (entMaddr v) (entLength v) = false)) ∧
    (∃ (s : State) (q : QueueId) (v : List W64) (i : Nat), (s.startable q.val = some v) ∧ (s.turnOf q.val = true) ∧ (s.host.d3hot = false) ∧
      (entOpc v = 3) ∧ ((s.hostQ q.val).badEntry v = false) ∧ (entLength v ≠ 0) ∧ (s.aprAllows (entHost v) (entLength v) true = true) ∧
      (addrSpace (entMaddr v) = 0 ∨ addrSpace (entMaddr v) = 2) ∧ (s.addrOk (entMaddr v) (entLength v) = true) ∧
      (entMaddr v % 64 + entLength v ≤ 64) ∧ (s.attachFor (addrX (entMaddr v)) = some i) ∧
      (∀ j ∈ s.host.queues, ∀ k ∈ j.2.jobs, k.serial ≠ s.host.serial)) ∧
    (∃ (s : State) (q : QueueId) (v : List W64), (s.startable q.val = some v) ∧ (s.turnOf q.val = true) ∧ (entOpc v = 4) ∧
      ((s.hostQ q.val).badEntry v = false) ∧ (entRel v = false)) ∧
    (∃ (s : State) (q : QueueId) (v : List W64) (x : Eph) (r : RegionId), (s.startable q.val = some v) ∧ (s.turnOf q.val = true) ∧
      (entOpc v = 5) ∧ ((s.hostQ q.val).badEntry v = false) ∧ (entRel v = false) ∧ (SMap.get (fun _ => none) s.dome.ephs (entEph v) = some x) ∧
      (r.val ∈ x.regions) ∧ (s.pageOpen r.val = true) ∧ ((s.region r.val).rd TCK_RSCHED_EPH = entEph v) ∧
      ((s.region r.val).sched_ ∈ [1, 2, 3, 4, 6])) :=
  ⟨⟨((jobUp 0 0).setHostQ 2 { qRun [] with sqTail := 1, entries := [sqEntry 0 0] }), 3, by decide +kernel⟩,
    ⟨jobUp 0 0, 3, sqEntry 0 0, by decide +kernel⟩,
    ⟨jobUp (2 + 2 ^ 10) 16, 3, sqEntry (2 + 2 ^ 10) 16, by decide +kernel⟩,
    ⟨jobUp 9 0, 3, sqEntry 9 0, by decide +kernel⟩,
    ⟨jobUp 1 16, 3, sqEntry 1 16, by decide +kernel⟩,
    ⟨(jobUp 1 16).setApr HIF_APR_BASE_LO_EN 0, 3, sqEntry 1 16, by decide +kernel⟩,
    ⟨jobUp 1 0, 3, sqEntry 1 0, by decide +kernel⟩,
    ⟨jobUp 2 16, 3, sqEntry 2 16, 39, by decide +kernel⟩,
    ⟨hostUp { qRun [] with sqTail := 1, entries := [[BitVec.ofNat 64 2, 64, BitVec.ofNat 64 (127 * 2 ^ 32), 16, 0, 0, 0, 0]] }, 3, [BitVec.ofNat 64 2, 64, BitVec.ofNat 64 (127 * 2 ^ 32), 16, 0, 0, 0, 0], by decide +kernel⟩,
    ⟨jobUp 3 16, 3, sqEntry 3 16, 39, by decide +kernel⟩,
    ⟨hostUp { qRun [] with sqTail := 1, entries := [[BitVec.ofNat 64 (4 + 2 ^ 12 + 5 * 2 ^ 13), 0, 0, 0, 0, 0, 0, 0]] }, 3, [BitVec.ofNat 64 (4 + 2 ^ 12 + 5 * 2 ^ 13), 0, 0, 0, 0, 0, 0, 0], by decide +kernel⟩,
    ⟨((jobUp 5 0).setRegion 0 (live [])).modDome (fun d => { d with ephs := [(0, some ⟨[0], [], false, false, false, 0, [], 0⟩)] }), 3, sqEntry 5 0, ⟨[0], [], false, false, false, 0, [], 0⟩, 0, by decide +kernel⟩⟩

/-- A state and operands for each clause of StartStepsInOrder that has hypotheses. -/
theorem test_met_startStepsInOrder :
    (∃ (s : State) (o : StartObs), (s.dome.starting = true) ∧ (s.dome_ CAT_STATUS_STEP = 1) ∧ (o.identity.ok = true) ∧ (o.counters = true)) ∧
    (∃ (s : State) (o : StartObs), (s.dome.starting = true) ∧ (s.dome_ CAT_STATUS_STEP = 1) ∧ (o.identity.ok = false ∨ o.counters = false)) ∧
    (∃ (s : State), (s.dome.starting = true) ∧ (s.dome_ CAT_STATUS_STEP = 2)) ∧
    (∃ (s : State), (s.dome.starting = true) ∧ (s.dome_ CAT_STATUS_STEP = 3) ∧ (7 ≤ s.dome.waves) ∧
      ((List.range 112).any (fun r => (s.region r).power == 1) = false)) ∧
    (∃ (s : State), (s.dome.starting = true) ∧ (s.dome_ CAT_STATUS_STEP = 3) ∧ (s.dome.waves < 7)) ∧
    (∃ (s : State), (s.dome.starting = true) ∧ (s.dome_ CAT_STATUS_STEP = 4)) ∧
    (∃ (s : State), (s.dome.starting = true) ∧ (s.dome_ CAT_STATUS_STEP = 5)) ∧
    (∃ (s : State) (c : ClusterId), (s.dome.starting = true) ∧ (s.dome_ CAT_STATUS_STEP = 6) ∧ (s.enabled c.val = true) ∧
      ((s.defect c.val).remaps = [])) ∧
    (∃ (s : State), (s.dome.starting = true) ∧ (s.dome_ CAT_STATUS_STEP = 7)) ∧
    (∃ (s : State), (s.dome.starting = true) ∧ (s.dome_ CAT_STATUS_STEP = 8)) ∧
    (∃ (s : State) (k : Nat), (s.dome.starting = true) ∧ (s.dome_ CAT_STATUS_STEP = 9) ∧ (s.clocked 8 = true) ∧ (s.runSlot = some k)) ∧
    (∃ (s : State), (s.dome.starting = true) ∧ (s.dome_ CAT_STATUS_STEP = 10)) ∧
    (∃ (s : State), (s.dome.starting = false)) :=
  ⟨⟨starting 1 [], obsOk, by decide +kernel⟩,
    ⟨starting 1 [], { obsOk with counters := false }, by decide +kernel⟩,
    ⟨starting 2 [], by decide +kernel⟩,
    ⟨starting 3 [], by decide +kernel⟩,
    ⟨(starting 3 []).modDome (fun d => { d with waves := 6 }), by decide +kernel⟩,
    ⟨(starting 4 []).setRegion 3 (pageOf [(DRV_STATUS_STATE, 6)]), by decide +kernel⟩,
    ⟨starting 5 [], by decide +kernel⟩,
    ⟨starting 6 [], 17, by decide +kernel⟩,
    ⟨starting 7 [], by decide +kernel⟩,
    ⟨starting 8 [], by decide +kernel⟩,
    ⟨starting 9 [(CAT_STATUS_RUN_VALID, 1), (DOM_CLKEN_EN, 0x1FF)], 0, by decide +kernel⟩,
    ⟨starting 10 [], by decide +kernel⟩,
    ⟨State.reset, by decide +kernel⟩⟩

/-- A state and operands for each clause of CatalogueSlotsAndUpdates that has hypotheses. -/
theorem test_met_catalogueSlotsAndUpdates :
    (∃ (s : State) (k : Fin 2), (s.dome.watchdog = true) ∧ (s.runSlot = some k.val) ∧ (s.dome.bootFits = true)) ∧
    (∃ (s : State) (k : Fin 2), (s.runSlot = some k.val) ∧ ((s.slot (1 - k.val)).state = 3) ∧ (s.dome.ctr.svn ≤ s.slotSvn (1 - k.val)) ∧
      (s.dome.upd = none) ∧ (s.clocked 8 = true)) ∧
    (∃ (s : State), (∀ k ∈ List.range 2, s.runSlot = some k → (s.slot (1 - k)).state ≠ 3) ∧ (s.dome_ CAT_STATUS_RUN_SLOT < 2) ∧
      (s.clocked 8 = true)) ∧
    (∃ (s : State), (s.clocked 8 = false)) ∧
    (∃ (s : State) (k : Fin 2) (via : Via), (s.updVia via = true) ∧ (s.dome.upd = none) ∧ (s.runSlot = some (1 - k.val)) ∧
      (s.dome_ CAT_STATUS_FALLBACK_PEND = 0)) ∧
    (∃ (s : State) (k : Fin 2) (via : Via), (s.updVia via = true) ∧ (s.dome.upd ≠ none ∨ s.runSlot = some k.val)) ∧
    (∃ (s : State) (k : Fin 2) (via : Via), (s.dome.upd = some (via, k.val)) ∧ (s.dome_ CAT_UPD_STATUS_STATE = 1) ∧ (s.dome.heldReqs = [])) ∧
    (∃ (s : State) (k : Fin 2) (via : Via) (off : Nat), (s.updVia via = true) ∧ (off < 0x10000) ∧ (off % 4 = 0) ∧ (s.clocked 3 = true) ∧
      (s.dome.upd = some (via, k.val)) ∧ (s.dome_ CAT_UPD_STATUS_STATE = 2) ∧ (s.dome_ CAT_UPD_OFFSET_PIECE < 0x3FC)) ∧
    (∃ (s : State) (k : Fin 2) (o : Via) (via : Via) (off : Nat), (s.updVia via = true) ∧ (off < 0x10000) ∧ (off % 4 = 0) ∧ (s.clocked 3 = true) ∧
      (s.dome.upd = some (o, k.val)) ∧ (o ≠ via ∨ s.dome_ CAT_UPD_STATUS_STATE ≠ 2 ∨ 0x3FC ≤ s.dome_ CAT_UPD_OFFSET_PIECE)) ∧
    (∃ (s : State) (k : Fin 2) (via : Via), (s.updVia via = true) ∧ (s.dome.upd = some (via, k.val)) ∧ (s.dome_ CAT_UPD_STATUS_STATE = 2) ∧
      (s.clocked 7 = true) ∧ (s.clocked 8 = true)) ∧
    (∃ (s : State) (k : Fin 2) (via : Via), (s.updVia via = true) ∧ (s.dome.upd = some (via, k.val)) ∧
      (s.dome_ CAT_UPD_STATUS_STATE = 1 ∨ s.dome_ CAT_UPD_STATUS_STATE = 2)) ∧
    (∃ (s : State) (k : Fin 2) (o : Via) (via : Via), (s.updVia via = true) ∧ (s.dome.upd = some (o, k.val)) ∧ (o ≠ via)) ∧
    (∃ (s : State) (k : Fin 2) (o : Via) (via : Via), (s.updVia via = true) ∧ (s.dome.upd = some (o, k.val)) ∧ (o ≠ via)) :=
  ⟨⟨starting 8 [(CAT_STATUS_RUN_VALID, 1)], 0, by decide +kernel⟩,
    ⟨(domeOn [(CAT_STATUS_RUN_VALID, 1), (DOM_CLKEN_EN, 0x1FF)]).setSlot 1 ⟨3, 0, 0⟩, 0, by decide +kernel⟩,
    ⟨domeOn [(CAT_STATUS_RUN_VALID, 1), (DOM_CLKEN_EN, 0x1FF)], by decide +kernel⟩,
    ⟨domeOn [(CAT_STATUS_RUN_VALID, 1), (DOM_CLKEN_EN, 0)], by decide +kernel⟩,
    ⟨domeOn [(CAT_STATUS_RUN_VALID, 1)], 1, .mctp, by decide +kernel⟩,
    ⟨domeOn [(CAT_STATUS_RUN_VALID, 1)], 0, .mctp, by decide +kernel⟩,
    ⟨(domeOn [(CAT_UPD_STATUS_STATE, 1)]).modDome (fun d => { d with upd := some (.mctp, 1), nor1 := [(5, 3)] }), 1, .mctp, by decide +kernel⟩,
    ⟨(domeOn [(CAT_UPD_STATUS_STATE, 2), (CAT_UPD_OFFSET_PIECE, 3), (DOM_CLKEN_EN, 0x1FF)]).modDome (fun d => { d with upd := some (.mctp, 1) }), 1, .mctp, 16, by decide +kernel⟩,
    ⟨(domeOn [(CAT_UPD_STATUS_STATE, 2), (CAT_UPD_OFFSET_PIECE, 0x3FC), (DOM_CLKEN_EN, 0x1FF)]).modDome (fun d => { d with upd := some (.mctp, 1) }), 1, .mctp, .mctp, 16, by decide +kernel⟩,
    ⟨(domeOn [(CAT_UPD_STATUS_STATE, 2), (DOM_CLKEN_EN, 0x1FF)]).modDome (fun d => { d with upd := some (.mctp, 1) }), 1, .mctp, by decide +kernel⟩,
    ⟨(domeOn [(CAT_UPD_STATUS_STATE, 2)]).modDome (fun d => { d with upd := some (.mctp, 1) }), 1, .mctp, by decide +kernel⟩,
    ⟨(domeOn [(CAT_UPD_STATUS_STATE, 2)]).modDome (fun d => { d with upd := some (.bar0, 1) }), 1, .bar0, .mctp, by decide +kernel⟩,
    ⟨(domeOn [(CAT_UPD_STATUS_STATE, 2)]).modDome (fun d => { d with upd := some (.bar0, 1) }), 1, .bar0, .mctp, by decide +kernel⟩⟩

/-- A state and operands for each clause of DomeControllerServices that has hypotheses. -/
theorem test_met_domeControllerServices :
    (∃ (s : State), (s.domeUp = true)) ∧
    (∃ (s : State) (n : Nat), (s.domeUp = true) ∧ (n ≠ 0)) ∧
    (∃ (s : State), (s.domeUp = true)) ∧
    (∃ (s : State), (s.domeUp = true) ∧ (s.clocked 7 = true)) ∧
    (∃ (s : State), (s.domeUp = true) ∧ (s.clocked 7 = false)) ∧
    (∃ (s : State), (s.domeUp = true) ∧ (s.clocked 7 = true) ∧ (s.clocked 8 = true)) ∧
    (∃ (s : State) (tr : Transport), (s.domeUp = true) ∧ (s.clocked 7 = true) ∧ (s.clocked 8 = true) ∧
      (SMap.get (fun _ => []) s.dome.spdm (transportCode tr) ≠ []) ∧ (s.dome.ctr.lms < 2 ^ 30)) ∧
    (∃ (s : State) (tr : Transport), (s.domeUp = true) ∧ (s.clocked 7 = true) ∧ (s.clocked 8 = true) ∧
      (SMap.get (fun _ => []) s.dome.spdm (transportCode tr) = [] ∨ 2 ^ 30 ≤ s.dome.ctr.lms)) ∧
    (∃ (s : State), (s.domeUp = true) ∧ (s.runSlot.isSome = true) ∧ (s.dome.heldReqs = []) ∧ (s.dome_ CAT_UPD_STATUS_STATE ≠ 1)) ∧
    (∃ (s : State), (s.domeUp = true) ∧ (s.runSlot.isSome = true) ∧ (s.dome.heldReqs = []) ∧ (s.dome_ CAT_UPD_STATUS_STATE = 1)) ∧
    (∃ (s : State) (v : W32), (s.domeUp = true) ∧ (s.runSlot.isSome = true) ∧ (s.dome.heldReqs = [.setReplace]) ∧
      ((DOM_CLKEN_EN.of v).testBit 8 = true) ∧ (s.dome_ CAT_UPD_STATUS_STATE ≠ 1)) ∧
    (∃ (s : State) (v : W32), (DOM_MCLK_SRC_SEL.of v < 3) ∧ ((s.dome_ DOM_MCLK_STATUS_READY).testBit (DOM_MCLK_SRC_SEL.of v) = true)) ∧
    (∃ (s : State) (v : W32), (DOM_MCLK_SRC_SEL.of v = 3 ∨ (s.dome_ DOM_MCLK_STATUS_READY).testBit (DOM_MCLK_SRC_SEL.of v) = false)) ∧
    (∃ (s : State), (s.dome_ DOM_MCLK_STATUS_HOLDOVER = 1)) ∧
    (∃ (s : State), (s.domeUp = true)) ∧
    (∃ (s : State) (via : Via) (b : List Byte), (s.tokTakes via b = true) ∧ (tokAction b ≠ 2) ∧ (tokFormat b = true) ∧ (tokRoute via b = false) ∧
      (s.tokBusy = false) ∧ (s.clocked 7 = true) ∧ (s.clocked 8 = true)) ∧
    (∃ (s : State) (b : List Byte), (s.ready = true) ∧ (tokFormat b = true) ∧ (tokAction b = 1)) :=
  ⟨⟨domeOn [], by decide +kernel⟩,
    ⟨domeOn [], 1, by decide +kernel⟩,
    ⟨domeOn [], by decide +kernel⟩,
    ⟨domeOn [(DOM_CLKEN_EN, 0x1FF)], by decide +kernel⟩,
    ⟨domeOn [(DOM_CLKEN_EN, 0)], by decide +kernel⟩,
    ⟨domeOn [(DOM_CLKEN_EN, 0x1FF)], by decide +kernel⟩,
    ⟨(domeOn [(DOM_CLKEN_EN, 0x1FF)]).modDome (fun d => { d with spdm := [(1, [7])] }), .smbus, by decide +kernel⟩,
    ⟨domeOn [(DOM_CLKEN_EN, 0x1FF)], .smbus, by decide +kernel⟩,
    ⟨domeOn [(CAT_STATUS_RUN_VALID, 1)], by decide +kernel⟩,
    ⟨domeOn [(CAT_STATUS_RUN_VALID, 1), (CAT_UPD_STATUS_STATE, 1)], by decide +kernel⟩,
    ⟨(domeOn [(CAT_STATUS_RUN_VALID, 1)]).modDome (fun d => { d with heldReqs := [.setReplace] }), 0x1FF, by decide +kernel⟩,
    ⟨domeOn [(DOM_MCLK_STATUS_READY, 7)], 1, by decide +kernel⟩,
    ⟨domeOn [], 3, by decide +kernel⟩,
    ⟨domeOn [(DOM_MCLK_STATUS_HOLDOVER, 1)], by decide +kernel⟩,
    ⟨domeOn [], by decide +kernel⟩,
    ⟨domeOn [(DOM_CLKEN_EN, 0x1FF)], .mctp, clearToken 0, by decide +kernel⟩,
    ⟨State.reset.setHif HIF_STATUS_READY 1, clearToken 0, by decide +kernel⟩⟩

/-- A state and operands for each clause of EyepieceOpensAndObserves that has hypotheses. -/
theorem test_met_eyepieceOpensAndObserves :
    (∃ (s : State) (via : Via) (b : List Byte), (s.tokTakes via b = true) ∧ (tokAction b = 2) ∧ (tokFormat b = true) ∧ (s.tokBusy = false) ∧
      (s.clocked 7 = true) ∧ (s.clocked 8 = true)) ∧
    (∃ (s : State), (s.domeUp = true)) ∧
    (∃ (s : State), (s.domeUp = true)) ∧
    (∃ (s : State), (s.dome_ EYE_STATUS_OPEN = 1)) ∧
    (∃ (s : State), (s.dome_ EYE_STATUS_OPEN = 1) ∧ (s.dome_ EYE_EXPIRY_LO_TICK + 2 ^ 32 * s.dome_ EYE_EXPIRY_HI_TICK ≤ s.tickNum)) ∧
    (∃ (s : State), (s.tickNum < s.dome_ EYE_EXPIRY_LO_TICK + 2 ^ 32 * s.dome_ EYE_EXPIRY_HI_TICK)) ∧
    (∃ (s : State), (s.scopeOpen 3 = true) ∧ (s.dome_ EYE_ACC_CTRL_BUSY = 0) ∧ (s.eyeWay s.eyeAddr = .refused)) ∧
    (∃ (s : State) (k : Nat) (a : Nat), (s.scopeOpen 3 = true) ∧ (s.dome_ EYE_ACC_CTRL_BUSY = 0) ∧ (s.eyeWay s.eyeAddr = .mesh k a) ∧
      (k < 8960)) ∧
    (∃ (s : State), (s.scopeOpen 3 = true) ∧ (s.dome_ EYE_ACC_CTRL_BUSY = 0) ∧ (s.eyeWay s.eyeAddr = .refused)) ∧
    (∃ (s : State) (k : Nat) (a : Nat), (s.scopeOpen 3 = true) ∧ (s.dome_ EYE_ACC_CTRL_BUSY = 0) ∧ (s.eyeWay s.eyeAddr = .mesh k a) ∧
      (k < 8960)) ∧
    (∃ (s : State) (i : TapInstr), (s.scopeOpen 0 = true) ∧ (s.dome_ EYE_SCAN_CTRL_TARGET < 2) ∧ (i = .extest → s.mstate = 3)) ∧
    (∃ (s : State), (s.scopeOpen 0 = true) ∧ (s.dome_ EYE_SCAN_CTRL_TARGET = 2) ∧
      ((s.region (s.dome_ EYE_SCAN_CTRL_REGION)).sched_ ∈ [1, 2, 3, 4, 5, 7])) ∧
    (∃ (s : State), (s.scopeOpen 0 = true) ∧ (s.dome_ EYE_SCAN_CTRL_TARGET < 2) ∧ (s.mstate ≠ 3)) ∧
    (∃ (s : State), (s.scopeOpen 0 = true) ∧ (s.dome_ EYE_SCAN_CTRL_TARGET = 2) ∧ (s.dome_ EYE_SCAN_CTRL_REGION < 112) ∧
      ((s.region (s.dome_ EYE_SCAN_CTRL_REGION)).sched_ ∈ [0, 6])) ∧
    (∃ (s : State), (s.scopeOpen 0 = true) ∧ (s.dome_ EYE_SCAN_CTRL_TARGET < 2) ∧ (32 ≤ (s.dome.eye.scan s.scanKey).length)) ∧
    (∃ (s : State), (s.scopeOpen 1 = true)) ∧
    (∃ (s : State) (k : Nat), (s.scopeOpen 2 = true) ∧ (s.dome_ EYE_TRC_CTRL_EN = 1) ∧ (1 ≤ k ∧ k ≤ 4) ∧
      ((s.dome_ EYE_TRC_CTRL_KINDS).testBit k = true) ∧ (s.host.d3hot = false) ∧ (s.traceFull = false) ∧ (s.dome.eye.lost = 0) ∧
      (s.aprAllows (s.dome_ EYE_TRC_BASE_LO_BASE + 2 ^ 32 * s.dome_ EYE_TRC_BASE_HI_BASE + 32 * s.dome_ EYE_TRC_TAIL_TAIL) 32 true = true) ∧
      (s.dome_ EYE_TRC_SIZE_LOG2 ≤ 20)) ∧
    (∃ (s : State) (k : Nat), (s.scopeOpen 2 = true) ∧ (s.dome_ EYE_TRC_CTRL_EN = 1) ∧ (1 ≤ k ∧ k ≤ 4) ∧
      ((s.dome_ EYE_TRC_CTRL_KINDS).testBit k = true) ∧ (s.traceFull = true)) ∧
    (∃ (s : State), (s.scopeOpen 0 = false) ∧ (s.scopeOpen 1 = false) ∧ (s.scopeOpen 2 = false) ∧ (s.scopeOpen 3 = false)) :=
  ⟨⟨domeOn [(DOM_CLKEN_EN, 0x1FF)], .mctp, openToken, by decide +kernel⟩,
    ⟨domeOn [], by decide +kernel⟩,
    ⟨domeOn [], by decide +kernel⟩,
    ⟨eyeOn [], by decide +kernel⟩,
    ⟨(eyeOn [(EYE_EXPIRY_LO_TICK, 8)]).modDome (fun d => { d with ticks := 9 }), by decide +kernel⟩,
    ⟨eyeOn [(EYE_EXPIRY_LO_TICK, 8)], by decide +kernel⟩,
    ⟨eyeOn [(EYE_ACC_ADDR_HI_ADDR, 127)], by decide +kernel⟩,
    ⟨(eyeOn [(EYE_ACC_ADDR_LO_ADDR, 8)]).setRegion 3 (live []), 39, 8, by decide +kernel⟩,
    ⟨eyeOn [(EYE_ACC_ADDR_HI_ADDR, 127)], by decide +kernel⟩,
    ⟨(eyeOn [(EYE_ACC_ADDR_LO_ADDR, 8)]).setRegion 3 (live []), 39, 8, by decide +kernel⟩,
    ⟨eyeOn [], .sample, by decide +kernel⟩,
    ⟨(eyeOn [(EYE_SCAN_CTRL_TARGET, 2)]).setRegion 0 (live []), by decide +kernel⟩,
    ⟨eyeOn [], by decide +kernel⟩,
    ⟨eyeOn [(EYE_SCAN_CTRL_TARGET, 2), (EYE_SCAN_CTRL_REGION, 100)], by decide +kernel⟩,
    ⟨(eyeOn [(EYE_SCAN_DATA_DATA, 0xA5A5F00F)]).modDome (fun d => { d with eye := { d.eye with chain := [(0, List.replicate 20 true ++ List.replicate 20 false)] } }), by decide +kernel⟩,
    ⟨eyeOn [], by decide +kernel⟩,
    ⟨((hostUp HostQ.reset).modDome (fun d => { d with input := true, regs := (eyeOn [(EYE_TRC_CTRL_EN, 1), (EYE_TRC_CTRL_KINDS, 2), (EYE_TRC_SIZE_LOG2, 8)]).dome.regs })), 1, by decide +kernel⟩,
    ⟨eyeOn [(EYE_TRC_CTRL_EN, 1), (EYE_TRC_CTRL_KINDS, 2), (EYE_TRC_SIZE_LOG2, 8), (EYE_TRC_TAIL_TAIL, 4), (EYE_TRC_HEAD_HEAD, 5)], 1, by decide +kernel⟩,
    ⟨State.reset, by decide +kernel⟩⟩

/-- A state and operands for each clause of RegisterReadsAndWrites that has hypotheses. -/
theorem test_met_registerReadsAndWrites :
    (∃ (s : State) (off : Nat), (s.domeUp = true) ∧ (off % 4 = 0)) ∧
    (∃ (s : State) (off : Nat), (s.domeUp = true) ∧ (off % 4 ≠ 0)) ∧
    (∃ (s : State), (s.domeUp = true) ∧ (s.colOpen = false)) ∧
    (∃ (s : State) (off : Nat), (s.domeUp = true) ∧ (off % 4 ≠ 0)) ∧
    (∃ (s : State), (s.domeUp = true) ∧ (s.colOpen = false)) ∧
    (∃ (s : State) (vs : List W32), (s.domeUp = true) ∧ (vs = [] ∨ 16 < vs.length)) ∧
    (∃ (s : State), (s.domeUp = true)) ∧
    (∃ (s : State) (via : Via) (off : Nat), (s.domeVia via = true) ∧ (s.gatedReg off = false) ∧ (s.eyeClosed off = false) ∧ (off < 0x1000 ∧
      off % 4 = 0) ∧ (off ∉ domeOwnWrites ∧ ¬(0xB00 ≤ off ∧ off < 0xB40)) ∧ ((0x610 ≤ off ∧ off < 0x680 → s.colOpen = false))) ∧
    (∃ (s : State) (off : Nat), (off < 0x1000) ∧ ((domeTable.any (fun r => r.covers off)) = false) ∧ (Regs.word domeTable s.dome.regs off = 0)) ∧
    (∃ (s : State) (via : Via) (r : RegionId) (off : Nat), (s.domeVia via = true) ∧ (s.pageOpen r.val = true) ∧ (off < 0x1000 ∧ off % 4 = 0) ∧
      (off ∉ pageOwnWrites) ∧ (¬(0x140 ≤ off ∧ off < 0x240))) ∧
    (∃ (s : State) (via : Via) (off : Nat), (s.domeVia via = true) ∧ (off < 0x100 ∧ off % 4 = 0) ∧ (off ∉ [0, 0x1C, 0x20])) ∧
    (∃ (s : State) (via : Via) (i : ClusterId) (off : Nat), (s.domeVia via = true) ∧ (s.spaceOpen i.val = true) ∧ (off < 0x10000 ∧ off % 4 = 0) ∧
      (clusterOwnWrite off = false)) ∧
    (∃ (off : Nat), (off % 4 = 0) ∧ (off ≠ 0x28) ∧ (off ≠ HIF_CNT_BAR_CNT.off)) ∧
    (∃ (s : State), (s.ready = true) ∧ (s.colOpen = false)) ∧
    (∃ (s : State), (s.ready = true) ∧ (s.colOpen = true)) ∧
    (∃ (s : State), (s.ready = false)) ∧
    (∃ (s : State), (s.domeUp = true) ∧ (s.dome.locked = true)) ∧
    (∃ (via : Via), (via ≠ .bar0)) ∧
    (∃ (s : State) (q : QueueId), ((s.hostQ q.val).state = 0)) ∧
    (∃ (s : State) (q : QueueId), ((s.hostQ q.val).state ≠ 0)) ∧
    (∃ (s : State) (r : RegionId), (s.domeUp = true) ∧ (s.pageOpen r.val = true)) ∧
    (∃ (s : State) (z : PortId) (v : W32), (s.ready = true) ∧ ((s.port z.val).rd ZL_CTRL_EN = ZL_CTRL_EN.of v) ∧ (ZL_CTRL_RETRAIN.of v = 0)) ∧
    (∃ (s : State) (c : ClusterId), (s.domeUp = true) ∧ (s.spaceOpen c.val = true)) :=
  ⟨⟨domeOn [], 0x610, by decide +kernel⟩,
    ⟨domeOn [], 0x611, by decide +kernel⟩,
    ⟨domeOn [], by decide +kernel⟩,
    ⟨domeOn [], 0x611, by decide +kernel⟩,
    ⟨domeOn [], by decide +kernel⟩,
    ⟨domeOn [], [], by decide +kernel⟩,
    ⟨domeOn [], by decide +kernel⟩,
    ⟨domeOn [(TCK_STATUS_CFG_ERR, 1)], .mctp, 0x208, by decide +kernel⟩,
    ⟨State.reset, 0xFFC, by decide +kernel⟩,
    ⟨(domeOn [(DOM_CLKEN_EN, 0x1FF)]).setRegion 0 (live [(TCK_RSTATUS_OVERRUN, 1)]), .mctp, 0, 0x80, by decide +kernel⟩,
    ⟨domeOn [], .mctp, 0x18, by decide +kernel⟩,
    ⟨domeOn [], .mctp, 7, 0x2008, by decide +kernel⟩,
    ⟨0x24, by decide +kernel⟩,
    ⟨State.reset.setHif HIF_STATUS_READY 1, by decide +kernel⟩,
    ⟨(inRegion { Region.reset with bucket0 := ⟨1, 1, false⟩ }).setHif HIF_STATUS_READY 1, by decide +kernel⟩,
    ⟨State.reset, by decide +kernel⟩,
    ⟨(domeOn []).modDome (fun d => { d with locked := true }), by decide +kernel⟩,
    ⟨.mctp, by decide +kernel⟩,
    ⟨State.reset, 3, by decide +kernel⟩,
    ⟨hostUp (qRun []), 3, by decide +kernel⟩,
    ⟨(domeOn []).setRegion 0 (live []), 0, by decide +kernel⟩,
    ⟨State.reset.setHif HIF_STATUS_READY 1, 7, 4, by decide +kernel⟩,
    ⟨domeOn [], 7, by decide +kernel⟩⟩

end Sys2Proof.Tests
end

section
namespace Sys2Proof.Machine

/-! ## Frames of the single updates -/

theorem OnlyRegion.setRegion (s : State) (r : Nat) (g : Region) : OnlyRegion s (s.setRegion r g) r :=
  ⟨rfl, fun _ h => State.region_setRegion_ne s g h⟩

theorem OnlyRegion.modRegion (s : State) (r : Nat) (f : Region → Region) : OnlyRegion s (s.modRegion r f) r :=
  OnlyRegion.setRegion s r (f (s.region r))

theorem RegionRegs.refl (g : Region) (offs : List Nat) : RegionRegs g g offs := ⟨rfl, fun _ _ => rfl⟩

theorem RegionRegs.wr {g h : Region} {offs : List Nat} (f : Fld) (v : Nat) (hf : f.off ∈ offs) (hr : RegionRegs g h offs) :
    RegionRegs g (h.wr f v) offs := by
  obtain ⟨hframe, hwords⟩ := hr
  refine ⟨hframe, fun o ho => ?_⟩
  have hne : o ≠ f.off := fun he => ho (he ▸ hf)
  exact (Regs.word_wr_ne pageTable h.regs f v hne).trans (hwords o ho)

theorem RegionRegs.ite {g a b : Region} {offs : List Nat} {c : Prop} [Decidable c] (ha : RegionRegs g a offs) (hb : RegionRegs g b offs) :
    RegionRegs g (if c then a else b) offs := by
  split
  · exact ha
  · exact hb

theorem OnlyDomeRegs.refl (s : State) (offs : List Nat) : OnlyDomeRegs s s offs := ⟨rfl, fun _ _ => rfl⟩

theorem OnlyDomeRegs.setDome {s t : State} {offs : List Nat} (f : Fld) (v : Nat) (hf : f.off ∈ offs) (h : OnlyDomeRegs s t offs) :
    OnlyDomeRegs s (t.setDome f v) offs := by
  obtain ⟨hframe, hwords⟩ := h
  refine ⟨hframe, fun o ho => ?_⟩
  have hne : o ≠ f.off := fun he => ho (he ▸ hf)
  exact (Regs.word_wr_ne domeTable t.dome.regs f v hne).trans (hwords o ho)

theorem OnlyDomeRegs.ite {s a b : State} {offs : List Nat} {c : Prop} [Decidable c] (ha : OnlyDomeRegs s a offs) (hb : OnlyDomeRegs s b offs) :
    OnlyDomeRegs s (if c then a else b) offs := by
  split
  · exact ha
  · exact hb

theorem Fld.rd_lt (t : List RegRow) (r : Regs) (f : Fld) : Regs.rd t r f < 2 ^ f.width := Fld.of_lt f _

/-! ## The clock drive and the transit clock -/

@[simp] theorem Region.rd_setDrv_state (g : Region) (st : Nat) : (g.setDrv st).rd DRV_STATUS_STATE = st % 8 := by
  simp (disch := decide) [Region.setDrv, Region.rd_wr_disjoint, Region.rd_wr_same]

@[simp] theorem Region.rd_setDrv_lock (g : Region) (st : Nat) : (g.setDrv st).rd DRV_STATUS_LOCK = if st = 2 then 1 else 0 := by
  rw [Region.setDrv, Region.rd_wr_same _ _ _ (by decide)]
  split <;> rfl

theorem Region.rd_setDrv_ne (g : Region) (st : Nat) {k : Fld} (h : k.off ≠ DRV_STATUS_STATE.off) : (g.setDrv st).rd k = g.rd k :=
  (Region.rd_wr_ne _ DRV_STATUS_LOCK k _ h).trans (Region.rd_wr_ne g DRV_STATUS_STATE k _ h)

@[simp] theorem Region.rd_setTrc_state (g : Region) (st : Nat) : (g.setTrc st).rd TRC_STATUS_STATE = st % 8 := by
  simp (disch := decide) [Region.setTrc, Region.rd_wr_disjoint, Region.rd_wr_same]

@[simp] theorem Region.rd_setTrc_lock (g : Region) (st : Nat) : (g.setTrc st).rd TRC_STATUS_LOCK = if st = 2 then 1 else 0 := by
  rw [Region.setTrc, Region.rd_wr_same _ _ _ (by decide)]
  split <;> rfl

theorem Region.rd_setTrc_ne (g : Region) (st : Nat) {k : Fld} (h : k.off ≠ TRC_STATUS_STATE.off) : (g.setTrc st).rd k = g.rd k :=
  (Region.rd_wr_ne _ TRC_STATUS_LOCK k _ h).trans (Region.rd_wr_ne g TRC_STATUS_STATE k _ h)

theorem RegionRegs.setDrv {g h : Region} {offs : List Nat} (st : Nat) (ho : DRV_STATUS_STATE.off ∈ offs) (hr : RegionRegs g h offs) :
    RegionRegs g (h.setDrv st) offs := (hr.wr DRV_STATUS_STATE st ho).wr DRV_STATUS_LOCK _ ho

theorem RegionRegs.setTrc {g h : Region} {offs : List Nat} (st : Nat) (ho : TRC_STATUS_STATE.off ∈ offs) (hr : RegionRegs g h offs) :
    RegionRegs g (h.setTrc st) offs := (hr.wr TRC_STATUS_STATE st ho).wr TRC_STATUS_LOCK _ ho

/-- A drive in holdover or parked by it returns to lock (R53, R59). -/
theorem Region.drvRegain_locks (g : Region) (h : g.rd DRV_STATUS_STATE = 4 ∨ g.rd DRV_STATUS_STATE = 5) :
    g.drvRegain.rd DRV_STATUS_STATE = 2 ∧ g.drvRegain.rd DRV_STATUS_LOCK = 1 := by
  rcases h with h | h <;> simp (disch := decide) [Region.drvRegain, h, Region.rd_wr_ne]

theorem Region.rd_drvRegain_ne (g : Region) {k : Fld} (hd : k.off ≠ DRV_STATUS_STATE.off) (hp : k.off ≠ PWR_STATUS_PARK_CAUSE.off) :
    g.drvRegain.rd k = g.rd k := by
  unfold Region.drvRegain
  split
  · exact Region.rd_setDrv_ne g 2 hd
  · split
    · rw [Region.rd_wr_ne _ _ _ _ hp, Region.rd_setDrv_ne g 2 hd]
    · rfl

/-- A transit clock in holdover returns to lock, unless an acquisition after an unlock is under way (R54). -/
theorem Region.trcRegain_locks (g : Region) (h : g.rd TRC_STATUS_STATE = 4) (ht : g.trcTry = false) :
    g.trcRegain.rd TRC_STATUS_STATE = 2 ∧ g.trcRegain.rd TRC_STATUS_LOCK = 1 := by
  simp [Region.trcRegain, h, ht]

theorem Region.rd_trcRegain_ne (g : Region) {k : Fld} (h : k.off ≠ TRC_STATUS_STATE.off) : g.trcRegain.rd k = g.rd k := by
  unfold Region.trcRegain
  split
  · exact Region.rd_setTrc_ne g 2 h
  · rfl

theorem RegionRegs.drvRegain {g h : Region} {offs : List Nat} (hd : DRV_STATUS_STATE.off ∈ offs) (hp : PWR_STATUS_PARK_CAUSE.off ∈ offs)
    (hr : RegionRegs g h offs) : RegionRegs g h.drvRegain offs :=
  (hr.setDrv 2 hd).ite (((hr.setDrv 2 hd).wr PWR_STATUS_PARK_CAUSE _ hp).ite hr)

theorem RegionRegs.trcRegain {g h : Region} {offs : List Nat} (ht : TRC_STATUS_STATE.off ∈ offs) (hr : RegionRegs g h offs) :
    RegionRegs g h.trcRegain offs := (hr.setTrc 2 ht).ite hr

end Sys2Proof.Machine
end

section
namespace Sys2Proof.Machine

/-! ## What events and records leave -/

/-- t differs from s in the dome controller and in the host bridge alone. -/
abbrev OnlyDomeHost (s t : State) : Prop := { t with dome := s.dome, host := s.host } = s

theorem OnlyDomeHost.refl (s : State) : OnlyDomeHost s s := rfl

theorem OnlyDomeHost.trans {s t u : State} (h : OnlyDomeHost s t) (k : OnlyDomeHost t u) : OnlyDomeHost s u :=
  (congrArg (fun x : State => { x with dome := s.dome, host := s.host }) k).trans h

theorem OnlyDomeHost.modDome (s : State) (f : Dome → Dome) : OnlyDomeHost s (s.modDome f) := rfl

theorem OnlyDomeHost.setDome (s : State) (f : Fld) (v : Nat) : OnlyDomeHost s (s.setDome f v) := rfl

/-- An event of the host bridge is a matter of the bridge alone (R394). -/
theorem OnlyHost.hifEvent (s : State) (e : Nat) : OnlyHost s (s.hifEvent e) := by
  unfold State.hifEvent
  dsimp only
  split <;> rfl

theorem OnlyDomeHost.hifEvent (s : State) (e : Nat) : OnlyDomeHost s (s.hifEvent e) :=
  congrArg (fun x : State => { x with dome := s.dome }) (OnlyHost.hifEvent s e)

theorem OnlyDomeHost.regions {s t : State} (h : OnlyDomeHost s t) : t.regions = s.regions := by
  have := congrArg State.regions h
  exact this
theorem OnlyDomeHost.clusters {s t : State} (h : OnlyDomeHost s t) : t.clusters = s.clusters := by
  have := congrArg State.clusters h
  exact this
theorem OnlyDomeHost.ports {s t : State} (h : OnlyDomeHost s t) : t.ports = s.ports := by
  have := congrArg State.ports h
  exact this

theorem OnlyDomeHost.region {s t : State} (h : OnlyDomeHost s t) (r : Nat) : t.region r = s.region r :=
  congrArg (fun m => SMap.get (fun _ => Region.reset) m r) h.regions

/-- The frame of a region's update with the events and records it leads to. -/
theorem OnlyDomeHost.frame_setRegion {s t : State} {r : Nat} {g : Region} (h : OnlyDomeHost (s.setRegion r g) t) :
    (∀ k, k ≠ r → t.region k = s.region k) ∧ { t with regions := s.regions, dome := s.dome, host := s.host } = s :=
  ⟨fun k hk => (h.region k).trans (State.region_setRegion_ne s g hk),
    congrArg (fun x : State => { x with regions := s.regions, dome := s.dome, host := s.host }) h⟩

/-! ## Events of the host bridge (R394) -/

@[simp] theorem State.hifEvent_dome (s : State) (e : Nat) : (s.hifEvent e).dome = s.dome := by
  have := congrArg State.dome (OnlyHost.hifEvent s e)
  exact this

@[simp] theorem State.domeReg_hifEvent (s : State) (e : Nat) (f : Fld) : (s.hifEvent e).dome_ f = s.dome_ f :=
  congrArg (fun d : Dome => Regs.rd domeTable d.regs f) (s.hifEvent_dome e)

@[simp] theorem State.region_hifEvent (s : State) (e r : Nat) : (s.hifEvent e).region r = s.region r := (OnlyDomeHost.hifEvent s e).region r

/-- The pending events after event e: those before, and e. -/
theorem State.hif_hifEvent_pend (s : State) (e : Nat) :
    (s.hifEvent e).hif HIF_EVT_PEND_PEND = (s.hif HIF_EVT_PEND_PEND ||| 2 ^ e) % 2 ^ 32 := by
  have hset := State.hif_setHif_same s HIF_EVT_PEND_PEND (s.hif HIF_EVT_PEND_PEND ||| 2 ^ e) (by decide)
  unfold State.hifEvent
  dsimp only
  split <;> exact hset

theorem pends_hifEvent (s : State) {e : Nat} (he : e < 32) : Pends (s.hifEvent e) e := by
  rw [Pends, State.hif_hifEvent_pend, Nat.testBit_mod_two_pow]
  simp [he, Nat.testBit_two_pow_self]

theorem Pends.hifEvent {s : State} {e : Nat} (h : Pends s e) (he : e < 32) (k : Nat) : Pends (s.hifEvent k) e := by
  have hold : (s.hif HIF_EVT_PEND_PEND).testBit e = true := h
  rw [Pends, State.hif_hifEvent_pend, Nat.testBit_mod_two_pow, Nat.testBit_or]
  simp [he, hold]

theorem Pends.of_host {s t : State} {e : Nat} (h : Pends s e) (ht : t.host = s.host) : Pends t e :=
  (congrArg (fun b : Bridge => (Regs.rd hifTable b.hif HIF_EVT_PEND_PEND).testBit e) ht).trans h

/-! ## Fault records and degrading events of a region (R353, R355, R366) -/

/-- A recorded failure of a region, of a code that is neither the breaker's nor collimation's: its record, its event bit, its degrading event. -/
theorem State.regionFailure_eq (s : State) {code : Nat} (r d : Nat) (hu : unrecorded code = false) (h15 : code ≠ 15) (h23 : code ≠ 23) :
    s.regionFailure code r d =
      let s1 := s.record code r none d (recordResult code false (degrading code))
      let s2 := (faultBit code).elim s1 s1.domEvent
      if degrading code then s2.degradeSoon code r else s2 := by
  cases hf : faultBit code <;>
    simp only [State.regionFailure, State.failure, hu, hf, h15, h23, if_false, Bool.false_eq_true, false_and, or_false] <;> rfl

theorem OnlyDomeHost.domEvent (s : State) (f : Fld) : OnlyDomeHost s (s.domEvent f) :=
  (OnlyDomeHost.setDome s f 1).trans (OnlyDomeHost.hifEvent _ 0)

theorem OnlyDomeHost.setReplace (s : State) : OnlyDomeHost s s.setReplace := by
  unfold State.setReplace
  split
  · split <;> rfl
  · rfl

theorem OnlyDomeHost.occultSoon (s : State) (i : Nat) : OnlyDomeHost s (s.occultSoon i) := by
  unfold State.occultSoon
  split <;> rfl

/-- A failure of R355 is a matter of the dome controller and of the host bridge's events alone, whatever its code and its place. -/
theorem OnlyDomeHost.failure (s : State) (code region : Nat) (loc : Option Nat) (detail : Nat) (suspect degr : Bool) :
    OnlyDomeHost s (s.failure code region loc detail suspect degr) := by
  unfold State.failure
  extract_lets s1 s2 s3 s4
  have h1 : OnlyDomeHost s s1 := by
    unfold s1
    split <;> rfl
  have h2 : OnlyDomeHost s s2 := by
    unfold s2
    split
    · exact h1.trans (OnlyDomeHost.domEvent s1 _)
    · exact h1
  have h3 : OnlyDomeHost s s3 := by
    unfold s3
    split
    · exact h2.trans (OnlyDomeHost.setReplace s2)
    · exact h2
  have h4 : OnlyDomeHost s s4 := by
    unfold s4
    split
    · split
      · exact h3.trans (OnlyDomeHost.occultSoon s3 _)
      · exact h3
    · exact h3
  split
  · exact h4.trans (OnlyDomeHost.modDome s4 _)
  · exact h4

theorem Pends.domEvent {s : State} {e : Nat} (h : Pends s e) (he : e < 32) (f : Fld) : Pends (s.domEvent f) e :=
  Pends.hifEvent (s := s.setDome f 1) h he 0

/-- The dome controller after an event bit: only its registers differ. -/
theorem State.domEvent_dome (s : State) (f : Fld) : (s.domEvent f).dome = { s.dome with regs := Regs.wr domeTable s.dome.regs f 1 } :=
  State.hifEvent_dome _ 0

section
variable (s : State) {code : Nat} (r d : Nat) (hu : unrecorded code = false) (h15 : code ≠ 15) (h23 : code ≠ 23)
include hu h15 h23

theorem Pends.regionFailure {e : Nat} (h : Pends s e) (he : e < 32) : Pends (s.regionFailure code r d) e := by
  rw [State.regionFailure_eq s r d hu h15 h23]
  cases faultBit code with
  | none => cases degrading code <;> exact h
  | some f => cases degrading code <;> exact Pends.domEvent (s := s.record _ _ _ _ _) h he f

/-- The records after a region's failure, and the degrading events on their way. -/
theorem State.regionFailure_records :
    (s.regionFailure code r d).dome.logSeq = s.dome.logSeq + 1 ∧
    (s.regionFailure code r d).dome.logPend = s.dome.logPend ++
      [faultRecord (s.dome.logSeq + 1) (s.dome.ticks - 1) code r none d (recordResult code false (degrading code)) s.dome.ctr.starts] ∧
    (s.regionFailure code r d).dome.degPend = s.dome.degPend ++ (if degrading code then [(code, r)] else []) := by
  rw [State.regionFailure_eq s r d hu h15 h23]
  cases faultBit code with
  | none => cases degrading code <;> simp [State.record, State.degradeSoon, State.modDome]
  | some f => cases degrading code <;> simp [State.record, State.degradeSoon, State.modDome, State.domEvent_dome]

theorem State.regionFailure_logged (hr : code + 256 * r < 2 ^ 15) : Logged s (s.regionFailure code r d) code r := by
  obtain ⟨hseq, hpend, -⟩ := State.regionFailure_records s r d hu h15 h23
  refine ⟨hseq, by rw [hpend, List.dropLast_concat], ?_⟩
  rw [hpend, List.getLast?_concat, Option.map_some]
  have hw : (BitVec.ofNat 32 (code + r * 256)).toNat % 2 ^ 15 = code + 256 * r := by
    rw [BitVec.toNat_ofNat]
    omega
  exact congrArg some hw

end

end Sys2Proof.Machine
end

section
namespace Sys2Proof.Machine

/-! ## READY of a source at a region -/

theorem drvReady_off (k : Nat) : (drvReady k).off = DRV_SRC_STATUS_LOS.off := by unfold drvReady; split <;> rfl
theorem trcReady_off (k : Nat) : (trcReady k).off = TRC_SRC_STATUS_LOS.off := by unfold trcReady; split <;> rfl
theorem drvReady_width (k : Nat) : (drvReady k).width = 1 := by unfold drvReady; split <;> rfl
theorem trcReady_width (k : Nat) : (trcReady k).width = 1 := by unfold trcReady; split <;> rfl
theorem drvReady_lo_le (k : Nat) : (drvReady k).lo ≤ 2 := by unfold drvReady; split <;> decide
theorem trcReady_lo_le (k : Nat) : (trcReady k).lo ≤ 2 := by unfold trcReady; split <;> decide

/-- READY of source k in both generators' status registers (R70, R71). -/
def Region.setReady (g : Region) (k v : Nat) : Region := (g.wr (drvReady k) v).wr (trcReady k) v

theorem Region.rd_setReady_ne (g : Region) (k v : Nat) {f : Fld} (hd : f.off ≠ DRV_SRC_STATUS_LOS.off) (ht : f.off ≠ TRC_SRC_STATUS_LOS.off) :
    (g.setReady k v).rd f = g.rd f := by
  rw [Region.setReady, Region.rd_wr_ne _ _ _ _ (by rwa [trcReady_off]), Region.rd_wr_ne _ _ _ _ (by rwa [drvReady_off])]

theorem Region.rd_setReady_drv (g : Region) (k v : Nat) : (g.setReady k v).rd (drvReady k) = v % 2 := by
  have hlo := drvReady_lo_le k
  have hw := drvReady_width k
  rw [Region.setReady, Region.rd_wr_ne _ _ _ _ (by rw [drvReady_off, trcReady_off]; decide), Region.rd_wr_same _ _ _ (by omega), hw, Nat.pow_one]

theorem Region.rd_setReady_trc (g : Region) (k v : Nat) : (g.setReady k v).rd (trcReady k) = v % 2 := by
  have hlo := trcReady_lo_le k
  have hw := trcReady_width k
  rw [Region.setReady, Region.rd_wr_same _ _ _ (by omega), hw, Nat.pow_one]

/-- The fields of the status registers above the READY bits keep their values. -/
theorem Region.rd_setReady_above (g : Region) (k v : Nat) {f : Fld} (hf : f.lo + f.width ≤ 32) (h : 3 ≤ f.lo) :
    (g.setReady k v).rd f = g.rd f := by
  have hd := drvReady_lo_le k
  have ht := trcReady_lo_le k
  have hdw := drvReady_width k
  have htw := trcReady_width k
  rw [Region.setReady, Region.rd_wr_disjoint _ _ _ _ hf (.inl (by omega)), Region.rd_wr_disjoint _ _ _ _ hf (.inl (by omega))]

theorem RegionRegs.setReady {g h : Region} {offs : List Nat} (k v : Nat) (hd : DRV_SRC_STATUS_LOS.off ∈ offs) (ht : TRC_SRC_STATUS_LOS.off ∈ offs)
    (hr : RegionRegs g h offs) : RegionRegs g (h.setReady k v) offs :=
  (hr.wr (drvReady k) v (by rwa [drvReady_off])).wr (trcReady k) v (by rwa [trcReady_off])

/-- A source that becomes READY: first its READY bits, then each generator that selects it regains it (R40, R53, R54). -/
theorem Region.readyRise_eq (g : Region) (k : Nat) : g.readyRise k =
    let g2 := if g.rd DRV_SRC_SEL = k then (g.setReady k 1).drvRegain else g.setReady k 1
    if g.rd TRC_SRC_SEL = k then g2.trcRegain else g2 := by
  have hdrv : (g.setReady k 1).rd DRV_SRC_SEL = g.rd DRV_SRC_SEL := Region.rd_setReady_ne g k 1 (by decide) (by decide)
  have htrc : (if g.rd DRV_SRC_SEL = k then (g.setReady k 1).drvRegain else g.setReady k 1).rd TRC_SRC_SEL = g.rd TRC_SRC_SEL := by
    split <;> simp (disch := decide) [Region.rd_drvRegain_ne, Region.rd_setReady_ne]
  have hrise : g.readyRise k =
      let g2 := if (g.setReady k 1).rd DRV_SRC_SEL = k then (g.setReady k 1).drvRegain else g.setReady k 1
      if g2.rd TRC_SRC_SEL = k then g2.trcRegain else g2 := rfl
  rw [hrise, hdrv]
  dsimp only
  rw [htrc]

/-- A source that is no longer READY: first its READY bits, then each LOCKED generator that selects it holds over (R53, R57). -/
theorem Region.readyFall_eq (g : Region) (k : Nat) : g.readyFall k =
    let g2 := if g.rd DRV_SRC_SEL = k ∧ g.rd DRV_STATUS_STATE = 2 then (g.setReady k 0).setDrv 4 else g.setReady k 0
    if g.rd TRC_SRC_SEL = k ∧ g.rd TRC_STATUS_STATE = 2 then g2.setTrc 4 else g2 := by
  have hsame : ∀ f : Fld, f.off ≠ DRV_SRC_STATUS_LOS.off → f.off ≠ TRC_SRC_STATUS_LOS.off → (g.setReady k 0).rd f = g.rd f :=
    fun f hd ht => Region.rd_setReady_ne g k 0 hd ht
  have htrc : ∀ f : Fld, f.off ≠ DRV_STATUS_STATE.off → ∀ c : Prop, ∀ _ : Decidable c,
      (if c then (g.setReady k 0).setDrv 4 else g.setReady k 0).rd f = (g.setReady k 0).rd f := by
    intro f hf c _
    split
    · exact Region.rd_setDrv_ne _ 4 hf
    · rfl
  have hfall : g.readyFall k =
      let g2 := if (g.setReady k 0).rd DRV_SRC_SEL = k ∧ (g.setReady k 0).rd DRV_STATUS_STATE = 2 then (g.setReady k 0).setDrv 4 else g.setReady k 0
      if g2.rd TRC_SRC_SEL = k ∧ g2.rd TRC_STATUS_STATE = 2 then g2.setTrc 4 else g2 := rfl
  rw [hfall]
  dsimp only
  rw [htrc TRC_SRC_SEL (by decide), htrc TRC_STATUS_STATE (by decide), hsame DRV_SRC_SEL (by decide) (by decide),
    hsame DRV_STATUS_STATE (by decide) (by decide), hsame TRC_SRC_SEL (by decide) (by decide), hsame TRC_STATUS_STATE (by decide) (by decide)]

end Sys2Proof.Machine
end

section
namespace Sys2Proof.Machine

/-- What a rise of READY leaves: every register but those of the generators' states and the park cause reads as after the READY bits. -/
theorem Region.rd_readyRise_ne (g : Region) (k : Nat) {f : Fld} (hd : f.off ≠ DRV_STATUS_STATE.off) (ht : f.off ≠ TRC_STATUS_STATE.off)
    (hp : f.off ≠ PWR_STATUS_PARK_CAUSE.off) : (g.readyRise k).rd f = (g.setReady k 1).rd f := by
  rw [Region.readyRise_eq]
  dsimp only
  split <;> split <;> simp only [Region.rd_trcRegain_ne _ ht, Region.rd_drvRegain_ne _ hd hp]

theorem Region.rd_readyRise_drvStatus (g : Region) (k : Nat) {f : Fld} (hf : f.off = DRV_STATUS_STATE.off) :
    (g.readyRise k).rd f = (if g.rd DRV_SRC_SEL = k then (g.setReady k 1).drvRegain else g.setReady k 1).rd f := by
  have ht : f.off ≠ TRC_STATUS_STATE.off := by rw [hf]; decide
  rw [Region.readyRise_eq]
  dsimp only
  by_cases h : g.rd TRC_SRC_SEL = k
  · rw [if_pos h, Region.rd_trcRegain_ne _ ht]
  · rw [if_neg h]

/-- The clock drive that selects the source: holdover and its park end in lock (R53, R59). -/
theorem Region.readyRise_drv_locks (g : Region) (k : Nat) (hs : g.rd DRV_SRC_SEL = k) (h : g.rd DRV_STATUS_STATE = 4 ∨ g.rd DRV_STATUS_STATE = 5) :
    (g.readyRise k).rd DRV_STATUS_STATE = 2 ∧ (g.readyRise k).rd DRV_STATUS_LOCK = 1 := by
  rw [g.rd_readyRise_drvStatus k rfl, g.rd_readyRise_drvStatus k (f := DRV_STATUS_LOCK) rfl, if_pos hs]
  exact Region.drvRegain_locks _ (by rwa [Region.rd_setReady_ne _ _ _ (by decide) (by decide)])

theorem Region.readyRise_drv_other (g : Region) (k : Nat) (hs : g.rd DRV_SRC_SEL ≠ k) :
    (g.readyRise k).rd DRV_STATUS_STATE = g.rd DRV_STATUS_STATE := by
  rw [g.rd_readyRise_drvStatus k rfl, if_neg hs, Region.rd_setReady_ne _ _ _ (by decide) (by decide)]

/-- The transit clock that selects the source: holdover ends in lock (R54). -/
theorem Region.readyRise_trc_locks (g : Region) (k : Nat) (hs : g.rd TRC_SRC_SEL = k) (h : g.rd TRC_STATUS_STATE = 4) (ht : g.trcTry = false) :
    (g.readyRise k).rd TRC_STATUS_STATE = 2 ∧ (g.readyRise k).rd TRC_STATUS_LOCK = 1 := by
  rw [Region.readyRise_eq, if_pos hs]
  refine Region.trcRegain_locks _ ?_ ?_
  · split <;> simpa (disch := decide) [Region.rd_drvRegain_ne, Region.rd_setReady_ne] using h
  · split
    · unfold Region.drvRegain
      split
      · exact ht
      · split <;> exact ht
    · exact ht

theorem Region.readyRise_trc_other (g : Region) (k : Nat) (hs : g.rd TRC_SRC_SEL ≠ k) :
    (g.readyRise k).rd TRC_STATUS_STATE = g.rd TRC_STATUS_STATE := by
  rw [Region.readyRise_eq, if_neg hs]
  split <;> simp (disch := decide) [Region.rd_drvRegain_ne, Region.rd_setReady_ne]

theorem Region.readyRise_regs (g : Region) (k : Nat) : RegionRegs g (g.readyRise k)
    [DRV_SRC_STATUS_LOS.off, TRC_SRC_STATUS_LOS.off, DRV_STATUS_STATE.off, TRC_STATUS_STATE.off, PWR_STATUS_PARK_CAUSE.off] := by
  rw [Region.readyRise_eq]
  have h1 := (RegionRegs.refl g [DRV_SRC_STATUS_LOS.off, TRC_SRC_STATUS_LOS.off, DRV_STATUS_STATE.off, TRC_STATUS_STATE.off,
    PWR_STATUS_PARK_CAUSE.off]).setReady k 1 (by decide) (by decide)
  have h2 := (h1.drvRegain (by decide) (by decide)).ite (c := g.rd DRV_SRC_SEL = k) h1
  exact (h2.trcRegain (by decide)).ite h2

/-- What a fall of READY leaves: every register but those of the generators' states reads as after the READY bits. -/
theorem Region.rd_readyFall_ne (g : Region) (k : Nat) {f : Fld} (hd : f.off ≠ DRV_STATUS_STATE.off) (ht : f.off ≠ TRC_STATUS_STATE.off) :
    (g.readyFall k).rd f = (g.setReady k 0).rd f := by
  rw [Region.readyFall_eq]
  dsimp only
  split <;> split <;> simp only [Region.rd_setTrc_ne _ _ ht, Region.rd_setDrv_ne _ _ hd]

theorem Region.readyFall_drv_holds (g : Region) (k : Nat) (hs : g.rd DRV_SRC_SEL = k) (h : g.rd DRV_STATUS_STATE = 2) :
    (g.readyFall k).rd DRV_STATUS_STATE = 4 ∧ (g.readyFall k).rd DRV_STATUS_LOCK = 0 := by
  rw [Region.readyFall_eq]
  dsimp only
  rw [if_pos (And.intro hs h)]
  split <;> simp (disch := decide) [Region.rd_setTrc_ne]

theorem Region.readyFall_trc_holds (g : Region) (k : Nat) (hs : g.rd TRC_SRC_SEL = k) (h : g.rd TRC_STATUS_STATE = 2) :
    (g.readyFall k).rd TRC_STATUS_STATE = 4 ∧ (g.readyFall k).rd TRC_STATUS_LOCK = 0 := by
  have hfall : g.readyFall k =
      (if g.rd DRV_SRC_SEL = k ∧ g.rd DRV_STATUS_STATE = 2 then (g.setReady k 0).setDrv 4 else g.setReady k 0).setTrc 4 := by
    rw [Region.readyFall_eq]
    exact if_pos ⟨hs, h⟩
  simp [hfall]

theorem Region.readyFall_regs (g : Region) (k : Nat) : RegionRegs g (g.readyFall k)
    [DRV_SRC_STATUS_LOS.off, TRC_SRC_STATUS_LOS.off, DRV_STATUS_STATE.off, TRC_STATUS_STATE.off] := by
  rw [Region.readyFall_eq]
  have h1 := (RegionRegs.refl g [DRV_SRC_STATUS_LOS.off, TRC_SRC_STATUS_LOS.off, DRV_STATUS_STATE.off, TRC_STATUS_STATE.off]).setReady k 0
    (by decide) (by decide)
  have h2 := (h1.setDrv 4 (by decide)).ite (c := g.rd DRV_SRC_SEL = k ∧ g.rd DRV_STATUS_STATE = 2) h1
  exact (h2.setTrc 4 (by decide)).ite h2

/-! ## READY at the root and at the MCLK generator -/

theorem State.mclkOn_iff (s : State) {k : Nat} (hk : k ≤ 1) : s.mclkOn k = true ↔ s.dome_ DOM_MCLK_SRC_SEL = k + 1 := by
  simp [State.mclkOn, hk]

/-- READY of the MCLK generator set or cleared, with its holdover where it selects the source (R427). -/
theorem mclk_step (s : State) {k : Nat} (hk : k ≤ 1) (ready hold : Nat) (hh : hold < 2) :
    let s1 := s.setDome DOM_MCLK_STATUS_READY ready
    let t := if s.mclkOn k then s1.setDome DOM_MCLK_STATUS_HOLDOVER hold else s1
    t.dome_ DOM_MCLK_STATUS_READY = ready % 8 ∧
    (s.dome_ DOM_MCLK_SRC_SEL = k + 1 → t.dome_ DOM_MCLK_STATUS_HOLDOVER = hold) ∧
    (s.dome_ DOM_MCLK_SRC_SEL ≠ k + 1 → t.dome_ DOM_MCLK_STATUS_HOLDOVER = s.dome_ DOM_MCLK_STATUS_HOLDOVER) ∧
    OnlyDomeRegs s t [DOM_MCLK_STATUS_READY.off] := by
  intro s1 t
  have hframe : OnlyDomeRegs s s1 [DOM_MCLK_STATUS_READY.off] := (OnlyDomeRegs.refl s _).setDome _ _ (by decide)
  by_cases hon : s.dome_ DOM_MCLK_SRC_SEL = k + 1
  · have ht : t = s1.setDome DOM_MCLK_STATUS_HOLDOVER hold := if_pos ((s.mclkOn_iff hk).2 hon)
    rw [ht]
    refine ⟨?_, fun _ => ?_, fun h => absurd hon h, hframe.setDome _ _ (by decide)⟩
    · simp (disch := decide) [s1, State.dome_setDome_disjoint, State.dome_setDome_same]
    · rw [State.dome_setDome_same _ _ _ (by decide)]
      exact Nat.mod_eq_of_lt hh
  · have ht : t = s1 := if_neg (fun h => hon ((s.mclkOn_iff hk).1 h))
    rw [ht]
    refine ⟨State.dome_setDome_same s _ _ (by decide), fun h => absurd h hon, fun _ => ?_, hframe⟩
    exact State.dome_setDome_disjoint s _ _ _ (by decide) (by decide)

/-- READY falls at the root: the inserter holds over where it was MASTER_SRC (R48, R69). -/
theorem State.siteFall_root (s : State) (k : Nat) :
    k ∉ (s.siteFall .root k).dome.rootReady ∧
    (s.dome_ TCK_CTRL_MASTER_SRC = k → (s.siteFall .root k).dome.rootHold = true) ∧
    (s.dome_ TCK_CTRL_MASTER_SRC ≠ k → (s.siteFall .root k).dome.rootHold = s.dome.rootHold) := by
  have hready : (s.siteFall .root k).dome.rootReady = NSet.del s.dome.rootReady k := by
    unfold State.siteFall
    dsimp only
    split <;> simp [State.setDome, State.modDome]
  have hhold : (s.siteFall .root k).dome.rootHold = if s.dome_ TCK_CTRL_MASTER_SRC = k then true else s.dome.rootHold := by
    unfold State.siteFall
    dsimp only
    split <;> simp [State.setDome, State.modDome]
  rw [hready, hhold]
  exact ⟨fun h => ((NSet.mem_del _ _ _).1 h).2 rfl, fun h => if_pos h, fun h => if_neg h⟩

/-- Settles O1: READY_RISE and READY_FREQ_LOSS at a region, at the root and at the MCLK generator. -/
theorem readyRestoresLock : Obligations.ReadyRestoresLock := by
  unfold Obligations.ReadyRestoresLock
  refine ⟨fun s r src ha => ?_, fun s src => ?_, fun s src hk => ?_, fun s r src ha => ?_, fun s src => ?_, fun s src hk => ?_⟩
  · refine ⟨s.modRegion r.val (fun g => g.readyRise (srcCode src)), congrArg Host.Outcome.next (if_pos ha), ?_⟩
    have hframe := OnlyRegion.modRegion s r.val (fun g => g.readyRise (srcCode src))
    rw [State.region_modRegion_same]
    generalize s.region r.val = g at hframe ⊢
    generalize srcCode src = k at hframe ⊢
    refine ⟨?_, ?_, g.readyRise_drv_locks k, g.readyRise_drv_other k, g.readyRise_trc_locks k, g.readyRise_trc_other k, hframe, g.readyRise_regs k⟩
    · rw [g.rd_readyRise_ne k (by rw [drvReady_off]; decide) (by rw [drvReady_off]; decide) (by rw [drvReady_off]; decide), g.rd_setReady_drv]
    · rw [g.rd_readyRise_ne k (by rw [trcReady_off]; decide) (by rw [trcReady_off]; decide) (by rw [trcReady_off]; decide), g.rd_setReady_trc]
  · refine ⟨_, rfl, (NSet.mem_add _ _ _).2 (.inl rfl), fun h => if_pos h, fun h => if_neg h, rfl⟩
  · obtain ⟨hready, hheld, hother, hframe⟩ := mclk_step s hk (s.dome_ DOM_MCLK_STATUS_READY ||| 2 ^ (srcCode src + 1)) 0 (by decide)
    refine ⟨_, if_pos hk, ?_, hheld, hother, hframe⟩
    rw [hready, show 8 = 2 ^ 3 from rfl, Nat.testBit_mod_two_pow, Nat.testBit_or, Nat.testBit_two_pow_self]
    simp; omega
  · refine ⟨s.modRegion r.val (fun g => g.readyFall (srcCode src)), congrArg Host.Outcome.next (if_pos ha), ?_⟩
    have hframe := OnlyRegion.modRegion s r.val (fun g => g.readyFall (srcCode src))
    rw [State.region_modRegion_same]
    generalize s.region r.val = g at hframe ⊢
    generalize srcCode src = k at hframe ⊢
    refine ⟨?_, ?_, g.readyFall_drv_holds k, g.readyFall_trc_holds k, ?_, hframe, g.readyFall_regs k⟩
    · rw [g.rd_readyFall_ne k (by rw [drvReady_off]; decide) (by rw [drvReady_off]; decide), g.rd_setReady_drv]
    · rw [g.rd_readyFall_ne k (by rw [trcReady_off]; decide) (by rw [trcReady_off]; decide), g.rd_setReady_trc]
    · rw [g.rd_readyFall_ne k (by decide) (by decide), g.rd_setReady_above k 0 (by decide) (by decide)]
  · refine ⟨s.siteFall .root (srcCode src), rfl, ?_⟩
    obtain ⟨hready, hhold, hother⟩ := s.siteFall_root (srcCode src)
    exact ⟨hready, hhold, hother⟩
  · obtain ⟨hready, hheld, hother, hframe⟩ := mclk_step s hk (s.dome_ DOM_MCLK_STATUS_READY &&& (7 - 2 ^ (srcCode src + 1))) 1 (by decide)
    refine ⟨_, congrArg Host.Outcome.next (if_pos hk), ?_, hheld, hother, hframe⟩
    have hbit : (7 - 2 ^ (srcCode src + 1)).testBit (srcCode src + 1) = false := by interval_cases srcCode src <;> rfl
    rw [hready, show 8 = 2 ^ 3 from rfl, Nat.testBit_mod_two_pow, Nat.testBit_and, hbit, Bool.and_false, Bool.and_false]

end Sys2Proof.Machine
end

section
namespace Sys2Proof.Machine

/-! ## Loss of a reference (R57) -/

theorem Region.readyFall_drvReady (g : Region) (k : Nat) : (g.readyFall k).rd (drvReady k) = 0 := by
  rw [g.rd_readyFall_ne k (by rw [drvReady_off]; decide) (by rw [drvReady_off]; decide), g.rd_setReady_drv]

theorem Region.readyFall_trcReady (g : Region) (k : Nat) : (g.readyFall k).rd (trcReady k) = 0 := by
  rw [g.rd_readyFall_ne k (by rw [trcReady_off]; decide) (by rw [trcReady_off]; decide), g.rd_setReady_trc]

/-- The loss of source k concerns the clock drive: it selects the source, is on, and the source was READY (R57). -/
def Region.losesDrv (g : Region) (k : Nat) : Bool := g.rd DRV_SRC_SEL == k && genOn (g.rd DRV_STATUS_STATE) && g.rd (drvReady k) == 1
/-- The loss of source k concerns the transit clock (R57). -/
def Region.losesTrc (g : Region) (k : Nat) : Bool := g.rd TRC_SRC_SEL == k && genOn (g.rd TRC_STATUS_STATE) && g.rd (trcReady k) == 1

/-- The region after the loss of source k: READY fallen, and LOS set in each generator that the loss concerns (R57). -/
def Region.loseSource (g : Region) (k : Nat) : Region :=
  let g2 := if g.losesDrv k then (g.readyFall k).wr DRV_SRC_STATUS_LOS 1 else g.readyFall k
  if g.losesTrc k then g2.wr TRC_SRC_STATUS_LOS 1 else g2

theorem Region.rd_loseSource_below (g : Region) (k : Nat) {f : Fld} (h : f.lo + f.width ≤ 9) : (g.loseSource k).rd f = (g.readyFall k).rd f := by
  have hd : ∀ x : Region, (x.wr DRV_SRC_STATUS_LOS 1).rd f = x.rd f := fun x => Region.rd_wr_disjoint x _ f 1 (by omega) (.inr h)
  have ht : ∀ x : Region, (x.wr TRC_SRC_STATUS_LOS 1).rd f = x.rd f := fun x => Region.rd_wr_disjoint x _ f 1 (by omega) (.inr h)
  unfold Region.loseSource
  dsimp only
  split <;> split <;> simp only [hd, ht]

theorem Region.loseSource_drvLos (g : Region) (k : Nat) (h : g.losesDrv k = true) : (g.loseSource k).rd DRV_SRC_STATUS_LOS = 1 := by
  unfold Region.loseSource
  rw [if_pos h]
  split <;> simp (disch := decide) [Region.rd_wr_ne, Region.rd_wr_same]

theorem Region.loseSource_trcLos (g : Region) (k : Nat) (h : g.losesTrc k = true) : (g.loseSource k).rd TRC_SRC_STATUS_LOS = 1 := by
  unfold Region.loseSource
  rw [if_pos h]
  exact Region.rd_wr_same _ _ _ (by decide)

theorem Region.loseSource_drv (g : Region) (k : Nat) (hs : g.rd DRV_SRC_SEL = k) (h : g.rd DRV_STATUS_STATE = 2) :
    (g.loseSource k).rd (drvReady k) = 0 ∧ (g.loseSource k).rd DRV_STATUS_STATE = 4 ∧ (g.loseSource k).rd DRV_STATUS_LOCK = 0 := by
  have hlo := drvReady_lo_le k
  have hw := drvReady_width k
  rw [g.rd_loseSource_below k (by omega), g.rd_loseSource_below k (by decide), g.rd_loseSource_below k (by decide)]
  exact ⟨g.readyFall_drvReady k, g.readyFall_drv_holds k hs h⟩

theorem Region.loseSource_trc (g : Region) (k : Nat) (hs : g.rd TRC_SRC_SEL = k) (h : g.rd TRC_STATUS_STATE = 2) :
    (g.loseSource k).rd (trcReady k) = 0 ∧ (g.loseSource k).rd TRC_STATUS_STATE = 4 ∧ (g.loseSource k).rd TRC_STATUS_LOCK = 0 := by
  have hlo := trcReady_lo_le k
  have hw := trcReady_width k
  rw [g.rd_loseSource_below k (by omega), g.rd_loseSource_below k (by decide), g.rd_loseSource_below k (by decide)]
  exact ⟨g.readyFall_trcReady k, g.readyFall_trc_holds k hs h⟩

/-- Whether a region other than r has a generator in holdover: the loss's event is then merged into the one already made (log entry 10). -/
abbrev State.othersHold (s : State) (r : Nat) : Bool :=
  s.regions.any (fun p => p.1 != r && (p.2.rd DRV_STATUS_STATE == 4 || p.2.rd TRC_STATUS_STATE == 4))

/-- A loss that concerns a generator of region r: the region, the CLOCK event, and the record unless another region is in holdover. -/
theorem exec_referenceLoss (s : State) (r : RegionId) (src : Src) (ha : s.alive r.val = true)
    (hl : ((s.region r.val).losesDrv (srcCode src) || (s.region r.val).losesTrc (srcCode src)) = true) :
    exec (.referenceLoss (.region r) src) s =
      let s2 := (s.setRegion r.val ((s.region r.val).loseSource (srcCode src))).hifEvent 5
      .next (if s.othersHold r.val then s2 else s2.regionFailure 14 127 0) :=
  (if_pos ha).trans (if_pos hl)

/-- What every such loss shows: the region as it loses the source, the event, one merged record, and the rest of the module as before. -/
theorem exec_referenceLoss_spec (s : State) (r : RegionId) (src : Src) (ha : s.alive r.val = true)
    (hl : ((s.region r.val).losesDrv (srcCode src) || (s.region r.val).losesTrc (srcCode src)) = true) :
    ∃ t, exec (.referenceLoss (.region r) src) s = .next t ∧ t.region r.val = (s.region r.val).loseSource (srcCode src) ∧ Pends t 5 ∧
      (s.othersHold r.val = false → Logged s t 14 127) ∧ (s.othersHold r.val = true → t.dome = s.dome) ∧
      (∀ k, k ≠ r.val → t.region k = s.region k) ∧ { t with regions := s.regions, dome := s.dome, host := s.host } = s := by
  have hexec := exec_referenceLoss s r src ha hl
  generalize (s.region r.val).loseSource (srcCode src) = g at hexec
  have hev : OnlyDomeHost (s.setRegion r.val g) ((s.setRegion r.val g).hifEvent 5) := OnlyDomeHost.hifEvent _ 5
  have hdome : ((s.setRegion r.val g).hifEvent 5).dome = s.dome := State.hifEvent_dome _ 5
  have hpend : Pends ((s.setRegion r.val g).hifEvent 5) 5 := pends_hifEvent _ (by decide)
  dsimp only at hexec
  cases ho : s.othersHold r.val with
  | true =>
    rw [ho, if_pos rfl] at hexec
    exact ⟨_, hexec, by simp, hpend, by simp, fun _ => hdome, hev.frame_setRegion⟩
  | false =>
    rw [ho, if_neg (by decide)] at hexec
    have hrec := hev.trans (OnlyDomeHost.failure _ 14 127 none 0 false (degrading 14))
    have hlog := State.regionFailure_logged (code := 14) ((s.setRegion r.val g).hifEvent 5) 127 0 (by decide) (by decide) (by decide) (by decide)
    refine ⟨_, hexec, (hrec.region r.val).trans (State.region_setRegion_same s _ _), Pends.regionFailure _ _ _ (by decide) (by decide) (by decide) hpend (by decide),
      fun _ => ?_, by simp, hrec.frame_setRegion⟩
    simpa only [Logged, hdome] using hlog

/-- MASTER_SRC lost in master mode: the root in holdover with MASTER_LOS and the CLOCK event (R48). -/
theorem State.siteFall_rootMaster (s : State) (hm : s.dome_ TCK_CTRL_MODE = 1) :
    (s.siteFall .root (s.dome_ TCK_CTRL_MASTER_SRC)).dome_ TCK_STATUS_MASTER_LOS = 1 ∧
    Pends (s.siteFall .root (s.dome_ TCK_CTRL_MASTER_SRC)) 5 ∧ OnlyDomeHost s (s.siteFall .root (s.dome_ TCK_CTRL_MASTER_SRC)) := by
  have heq : s.siteFall .root (s.dome_ TCK_CTRL_MASTER_SRC) =
      ((s.modDome (fun d => { d with
        rootReady := NSet.del d.rootReady (s.dome_ TCK_CTRL_MASTER_SRC)
        rootHold := if s.dome_ TCK_CTRL_MASTER_SRC = s.dome_ TCK_CTRL_MASTER_SRC then true else d.rootHold })).setDome TCK_STATUS_MASTER_LOS 1).hifEvent 5 :=
    if_pos ⟨rfl, hm⟩
  rw [heq]
  exact ⟨(State.domeReg_hifEvent _ 5 _).trans (State.dome_setDome_same _ _ _ (by decide)), pends_hifEvent _ (by decide),
    (OnlyDomeHost.modDome s _).trans ((OnlyDomeHost.setDome _ _ _).trans (OnlyDomeHost.hifEvent _ 5))⟩

/-- Settles O2: REFERENCE_LOSS for the clock drive and for the transit clock, MASTER_LOS and MASTER_MARKER_INSERT. -/
theorem referenceLossHoldsOver : Obligations.ReferenceLossHoldsOver := by
  unfold Obligations.ReferenceLossHoldsOver
  refine ⟨fun s r src ha hsel hst hready => ?_, fun s r src ha hsel hst hready => ?_, fun s hm => ?_, fun s hm => ?_⟩
  · have hl : (s.region r.val).losesDrv (srcCode src) = true := by simp [Region.losesDrv, hsel, hst, hready, genOn]
    obtain ⟨t, hexec, hreg, hrest⟩ := exec_referenceLoss_spec s r src ha (by rw [hl, Bool.true_or])
    obtain ⟨hfall, hstate, hlock⟩ := (s.region r.val).loseSource_drv (srcCode src) hsel hst
    refine ⟨t, hexec, ?_⟩
    rw [hreg]
    exact ⟨hfall, hstate, hlock, Region.loseSource_drvLos _ _ hl, hrest⟩
  · have hl : (s.region r.val).losesTrc (srcCode src) = true := by simp [Region.losesTrc, hsel, hst, hready, genOn]
    obtain ⟨t, hexec, hreg, hrest⟩ := exec_referenceLoss_spec s r src ha (by rw [hl, Bool.or_true])
    obtain ⟨hfall, hstate, hlock⟩ := (s.region r.val).loseSource_trc (srcCode src) hsel hst
    refine ⟨t, hexec, ?_⟩
    rw [hreg]
    exact ⟨hfall, hstate, hlock, Region.loseSource_trcLos _ _ hl, hrest⟩
  · obtain ⟨hready, hhold, -⟩ := s.siteFall_root (s.dome_ TCK_CTRL_MASTER_SRC)
    obtain ⟨hlos, hpend, hframe⟩ := s.siteFall_rootMaster hm
    exact ⟨_, if_pos hm, hhold rfl, hlos, hpend, hready, hframe⟩
  · exact ⟨_, if_pos hm, rfl, rfl, rfl⟩

/-! ## Selection of a source (R41) -/

/-- A write that takes effect at a region's page. -/
theorem exec_page {s : State} {r : RegionId} {i : Instr} {f : Region → Region} {g : Region}
    (hexec : exec i s = if s.pageOpen r.val then .next (s.modRegion r.val f) else .next s) (hp : s.pageOpen r.val = true)
    (hf : f (s.region r.val) = g) : exec i s = .next (s.setRegion r.val g) := by
  rw [hexec, if_pos hp, ← hf]
  rfl

/-- Settles O3: DRV_SRC_WRITE and TRC_SRC_WRITE of a READY source and of any other. -/
theorem sourceSelection : Obligations.SourceSelection := by
  unfold Obligations.SourceSelection
  refine ⟨fun s r v hp h3 hr => ?_, fun s r v hp hbad => ?_, fun s r v hp h3 hr => ?_, fun s r v hp hbad => ?_⟩
  · refine ⟨_, exec_page rfl hp (if_neg (not_or.2 ⟨h3, hr⟩)), ?_⟩
    have hk : DRV_SRC_SEL.of v % 4 = DRV_SRC_SEL.of v := Nat.mod_eq_of_lt (DRV_SRC_SEL.of_lt v)
    rw [State.region_setRegion_same]
    refine ⟨?_, ?_, ?_, OnlyRegion.setRegion _ _ _, ?_⟩
    · simpa (disch := decide) [Region.rd_drvRegain_ne, Region.rd_wr_ne, Region.rd_wr_same] using hk
    · simpa (disch := decide) [Region.rd_drvRegain_ne, Region.rd_wr_same] using hk
    · simp (disch := decide) [Region.rd_drvRegain_ne, Region.rd_wr_ne, Region.rd_wr_disjoint]
    · exact (((RegionRegs.refl _ _).wr _ _ (by decide)).wr _ _ (by decide)).drvRegain (by decide) (by decide)
  · refine ⟨_, exec_page rfl hp (if_pos hbad), ?_⟩
    rw [State.region_setRegion_same]
    exact ⟨Region.rd_wr_ne _ _ _ _ (by decide), Region.rd_wr_same _ _ _ (by decide), OnlyRegion.setRegion _ _ _,
      (RegionRegs.refl _ _).wr _ _ (by decide)⟩
  · refine ⟨_, exec_page rfl hp (if_neg (not_or.2 ⟨h3, hr⟩)), ?_⟩
    have hk : TRC_SRC_SEL.of v % 4 = TRC_SRC_SEL.of v := Nat.mod_eq_of_lt (TRC_SRC_SEL.of_lt v)
    rw [State.region_setRegion_same]
    refine ⟨?_, ?_, ?_, OnlyRegion.setRegion _ _ _, ?_⟩
    · simpa (disch := decide) [Region.rd_trcRegain_ne, Region.rd_wr_ne, Region.rd_wr_same] using hk
    · simpa (disch := decide) [Region.rd_trcRegain_ne, Region.rd_wr_same] using hk
    · simp (disch := decide) [Region.rd_trcRegain_ne, Region.rd_wr_ne, Region.rd_wr_disjoint]
    · exact (((RegionRegs.refl _ _).wr _ _ (by decide)).wr _ _ (by decide)).trcRegain (by decide)
  · refine ⟨_, exec_page rfl hp (if_pos hbad), ?_⟩
    rw [State.region_setRegion_same]
    exact ⟨Region.rd_wr_ne _ _ _ _ (by decide), Region.rd_wr_same _ _ _ (by decide), OnlyRegion.setRegion _ _ _,
      (RegionRegs.refl _ _).wr _ _ (by decide)⟩

end Sys2Proof.Machine
end

section
namespace Sys2Proof.Machine

/-! ## Writes of a region's control page -/

/-- A field written with its value in a word reads as that value. -/
theorem Region.rd_wr_of (g : Region) (f : Fld) (v : W32) (h : f.lo + f.width ≤ 32) : (g.wr f (f.of v)).rd f = f.of v :=
  (Region.rd_wr_same g f _ h).trans (Nat.mod_eq_of_lt (f.of_lt v))

/-- A one-bit field written with the truth of c reads 1 where c holds. -/
theorem Region.rd_wr_flag (g : Region) (f : Fld) (c : Prop) [Decidable c] (h : f.lo + f.width ≤ 32) (hw : 0 < f.width) :
    (g.wr f (if c then 1 else 0)).rd f = if c then 1 else 0 := by
  rw [Region.rd_wr_same g f _ h]
  exact Nat.mod_eq_of_lt (lt_of_le_of_lt (by split <;> omega : (if c then 1 else 0) ≤ 1) (Nat.one_lt_two_pow (by omega)))

/-- The three fields of DRV_FREQ staged (R50). -/
def Region.stageFreq (g : Region) (v : W32) : Region :=
  ((g.wr DRV_FREQ_MULT (DRV_FREQ_MULT.of v)).wr DRV_FREQ_POSTDIV (DRV_FREQ_POSTDIV.of v)).wr DRV_FREQ_VCODE (DRV_FREQ_VCODE.of v)

theorem Region.stageFreq_reads (g : Region) (v : W32) : (g.stageFreq v).rd DRV_FREQ_MULT = DRV_FREQ_MULT.of v ∧
    (g.stageFreq v).rd DRV_FREQ_POSTDIV = DRV_FREQ_POSTDIV.of v ∧ (g.stageFreq v).rd DRV_FREQ_VCODE = DRV_FREQ_VCODE.of v := by
  refine ⟨?_, ?_, ?_⟩ <;> simp (disch := decide) only [Region.stageFreq, Region.rd_wr_of, Region.rd_wr_disjoint]

theorem Region.rd_stageFreq_ne (g : Region) (v : W32) {f : Fld} (h : f.off ≠ DRV_FREQ_MULT.off) : (g.stageFreq v).rd f = g.rd f := by
  simp only [Region.stageFreq, Region.rd_wr_ne _ DRV_FREQ_VCODE f _ h, Region.rd_wr_ne _ DRV_FREQ_POSTDIV f _ h, Region.rd_wr_ne _ DRV_FREQ_MULT f _ h]

theorem Region.stageFreq_differs (g : Region) (v : W32) : (g.stageFreq v).freqDiffers = false ↔ DRV_FREQ_MULT.of v = g.rd DRV_ACTIVE_MULT ∧
    DRV_FREQ_POSTDIV.of v = g.rd DRV_ACTIVE_POSTDIV ∧ DRV_FREQ_VCODE.of v = g.rd DRV_ACTIVE_VCODE := by
  obtain ⟨hmult, hpost, hvcode⟩ := g.stageFreq_reads v
  simp (disch := decide) [Region.freqDiffers, hmult, hpost, hvcode, Region.rd_stageFreq_ne, and_assoc]

/-- THM_CTRL as a write before the lock leaves it: each threshold in range is taken, another sets CFG_ERR (R99). -/
def Region.setThm (g : Region) (v : W32) : Region :=
  let g1 := if THM_CTRL_WARN.of v ≤ 95 then g.wr THM_CTRL_WARN (THM_CTRL_WARN.of v) else g.wr THM_STATUS_CFG_ERR 1
  if THM_CTRL_PARK.of v ≤ 105 then g1.wr THM_CTRL_PARK (THM_CTRL_PARK.of v) else g1.wr THM_STATUS_CFG_ERR 1

theorem Region.setThm_reads (g : Region) (v : W32) :
    ((g.setThm v).rd THM_CTRL_WARN = if THM_CTRL_WARN.of v ≤ 95 then THM_CTRL_WARN.of v else g.rd THM_CTRL_WARN) ∧
    ((g.setThm v).rd THM_CTRL_PARK = if THM_CTRL_PARK.of v ≤ 105 then THM_CTRL_PARK.of v else g.rd THM_CTRL_PARK) ∧
    (95 < THM_CTRL_WARN.of v ∨ 105 < THM_CTRL_PARK.of v → (g.setThm v).rd THM_STATUS_CFG_ERR = 1) ∧
    (THM_CTRL_WARN.of v ≤ 95 ∧ THM_CTRL_PARK.of v ≤ 105 → (g.setThm v).rd THM_STATUS_CFG_ERR = g.rd THM_STATUS_CFG_ERR) := by
  by_cases hw : THM_CTRL_WARN.of v ≤ 95 <;> by_cases hp : THM_CTRL_PARK.of v ≤ 105 <;>
    simp (disch := decide) [Region.setThm, hw, hp, Region.rd_wr_ne, Region.rd_wr_disjoint, Region.rd_wr_same] <;> omega

theorem Region.setThm_regs (g : Region) (v : W32) : RegionRegs g (g.setThm v) [THM_CTRL_WARN.off, THM_STATUS_CFG_ERR.off] := by
  have h0 := RegionRegs.refl g [THM_CTRL_WARN.off, THM_STATUS_CFG_ERR.off]
  have h1 := (h0.wr THM_CTRL_WARN (THM_CTRL_WARN.of v) (by decide)).ite (c := THM_CTRL_WARN.of v ≤ 95) (h0.wr THM_STATUS_CFG_ERR 1 (by decide))
  exact (h1.wr THM_CTRL_PARK _ (by decide)).ite (h1.wr THM_STATUS_CFG_ERR 1 (by decide))

/-- Settles O4: the writes of DRV_FREQ, TRC_CTRL, the almanac's staged registers and THM_CTRL. -/
theorem pageRegisterWrites : Obligations.PageRegisterWrites := by
  unfold Obligations.PageRegisterWrites
  refine ⟨fun s r v hp => ?_, fun s r v hp => ?_, fun s r v hp => ?_, fun s r band cls v hp => ?_, fun s r v hp => ?_, fun s r v hp hl => ?_,
    fun s r v hp hl hw => ?_⟩
  · have hexec : exec (.drvFreqWrite r v) s = .next (s.setRegion r.val
        (((s.region r.val).stageFreq v).wr DRV_STATUS_PEND (if ((s.region r.val).stageFreq v).freqDiffers then 1 else 0))) := exec_page rfl hp rfl
    obtain ⟨hmult, hpost, hvcode⟩ := (s.region r.val).stageFreq_reads v
    refine ⟨_, hexec, ?_⟩
    rw [State.region_setRegion_same]
    refine ⟨(Region.rd_wr_ne _ _ _ _ (by decide)).trans hmult, (Region.rd_wr_ne _ _ _ _ (by decide)).trans hpost,
      (Region.rd_wr_ne _ _ _ _ (by decide)).trans hvcode, ?_, ?_, OnlyRegion.setRegion _ _ _, ?_⟩
    · rw [Region.rd_wr_flag _ _ _ (by decide) (by decide), ← Region.stageFreq_differs]
      simp
    · rw [Region.rd_wr_disjoint _ _ _ _ (by decide) (by decide), Region.rd_stageFreq_ne _ _ (by decide)]
    · exact ((((RegionRegs.refl _ _).wr _ _ (by decide)).wr _ _ (by decide)).wr _ _ (by decide)).wr _ _ (by decide)
  · refine ⟨_, exec_page (g := ((s.region r.val).wr TRC_CTRL_HALF_REQ (TRC_CTRL_HALF_REQ.of v)).halfRate) rfl hp rfl, ?_⟩
    rw [State.region_setRegion_same, Region.halfRate]
    refine ⟨?_, ?_, ?_, OnlyRegion.setRegion _ _ _, ((RegionRegs.refl _ _).wr _ _ (by decide)).wr _ _ (by decide)⟩
    · simp (disch := decide) only [Region.rd_wr_disjoint, Region.rd_wr_of]
    · simp (disch := decide) only [Region.rd_wr_disjoint]
    · rw [Region.rd_wr_flag _ _ _ (by decide) (by decide)]
      simp (disch := decide) [Region.rd_wr_disjoint, Region.rd_wr_of, or_iff_not_imp_left]
  · refine ⟨_, exec_page rfl hp rfl, ?_⟩
    rw [State.region_setRegion_same]
    refine ⟨?_, ?_, ?_, OnlyRegion.setRegion _ _ _, (((RegionRegs.refl _ _).wr _ _ (by decide)).wr _ _ (by decide)).wr _ _ (by decide)⟩ <;>
      simp (disch := decide) only [Region.rd_wr_disjoint, Region.rd_wr_of]
  · refine ⟨_, exec_page rfl hp rfl, ?_⟩
    rw [State.region_setRegion_same]
    exact ⟨Region.rd_wr_of _ (ALM_COEF_COEF.nth _) v (show ALM_COEF_COEF.lo + ALM_COEF_COEF.width ≤ 32 by decide),
      OnlyRegion.setRegion _ _ _, (RegionRegs.refl _ _).wr _ _ (List.mem_singleton.2 rfl)⟩
  · refine ⟨_, exec_page rfl hp rfl, ?_⟩
    rw [State.region_setRegion_same]
    exact ⟨Region.rd_wr_of _ _ v (by decide), OnlyRegion.setRegion _ _ _, (RegionRegs.refl _ _).wr _ _ (by decide)⟩
  · have hexec : exec (.thmCtrlWrite r v) s = .next (s.setRegion r.val ((s.region r.val).setThm v)) :=
      (if_pos hp).trans (if_neg (by rw [hl]; decide))
    refine ⟨_, hexec, ?_⟩
    rw [State.region_setRegion_same]
    obtain ⟨hwarn, hpark, hbad, hgood⟩ := (s.region r.val).setThm_reads v
    exact ⟨hwarn, hpark, hbad, hgood, OnlyRegion.setRegion _ _ _, (s.region r.val).setThm_regs v⟩
  · have hdiff : ¬(THM_CTRL_WARN.of v = (s.region r.val).rd THM_CTRL_WARN ∧ THM_CTRL_PARK.of v = (s.region r.val).rd THM_CTRL_PARK) := fun h => hw h.1
    have hexec : exec (.thmCtrlWrite r v) s = .next (s.setRegion r.val ((s.region r.val).wr THM_STATUS_LOCK_VIOL 1)) :=
      ((if_pos hp).trans (if_pos hl)).trans (congrArg (fun g => Host.Outcome.next (s.setRegion r.val g)) (if_neg hdiff))
    refine ⟨_, hexec, ?_⟩
    rw [State.region_setRegion_same]
    exact ⟨Region.rd_wr_same _ _ _ (by decide), OnlyRegion.setRegion _ _ _, (RegionRegs.refl _ _).wr _ _ (by decide)⟩

end Sys2Proof.Machine
end

section
namespace Sys2Proof.Machine

/-! ## Failures of a generator (R52-R54, R58) -/

/-- A command that changes region r to g and then records a generator's failure (code 12 or 13), with events alone in between: the region, the events
so far, the record, the degrading event, and the rest of the module as before. -/
theorem exec_generatorFails {i : Instr} {s u : State} {r : RegionId} {g : Region} {code : Nat} (hc : code = 12 ∨ code = 13)
    (hu : OnlyDomeHost (s.setRegion r.val g) u) (hd : u.dome = s.dome) (hexec : exec i s = .next (u.regionFailure code r.val 0)) :
    ∃ t, exec i s = .next t ∧ t.region r.val = g ∧ (∀ e < 32, Pends u e → Pends t e) ∧ Logged s t code r.val ∧
      t.dome.degPend = s.dome.degPend ++ [(code, r.val)] ∧
      (∀ k, k ≠ r.val → t.region k = s.region k) ∧ { t with regions := s.regions, dome := s.dome, host := s.host } = s := by
  have hr := r.isLt
  have hrec : unrecorded code = false := by rcases hc with rfl | rfl <;> rfl
  have hdeg : degrading code = true := by rcases hc with rfl | rfl <;> rfl
  have h15 : code ≠ 15 := by omega
  have h23 : code ≠ 23 := by omega
  have hall := hu.trans (OnlyDomeHost.failure u code r.val none 0 false (degrading code))
  have hlog := State.regionFailure_logged u r.val 0 hrec h15 h23 (by omega)
  obtain ⟨-, -, hpend⟩ := State.regionFailure_records u r.val 0 hrec h15 h23
  rw [hdeg, if_pos rfl, hd] at hpend
  refine ⟨_, hexec, (hall.region r.val).trans (State.region_setRegion_same s _ _), fun e he h => h.regionFailure u r.val 0 hrec h15 h23 he, ?_, hpend,
    hall.frame_setRegion⟩
  simpa only [Logged, hd] using hlog

theorem Region.computing_eq_false (g : Region) (h2 : g.rd DRV_STATUS_STATE ≠ 2) (h4 : g.rd DRV_STATUS_STATE ≠ 4) (h5 : g.rd DRV_STATUS_STATE ≠ 5) :
    g.computing = false := by
  simp [Region.computing, h2, h4, h5]

/-! ## The begin of a park (R93) -/

theorem Region.setSched_eq (g : Region) {st : Nat} (h : ¬(st = 0 ∨ st = 1 ∨ st = 5 ∨ st = 6)) :
    g.setSched st = { g.wr TCK_RSCHED_STATE st with forceOver := false, forceAsked := false } := if_neg h

/-- A region whose park begins: PARKING, and the slot that runs begins its park drain. -/
theorem Region.parkBegin_power (g : Region) (hc : g.rd PWR_STATUS_PARK_CAUSE ≠ 0) (hp : g.power = 2) (hd : g.rd DRV_STATUS_STATE ≠ 3)
    (hs : g.sched_ ≠ 3) : g.parkBegin.power = 3 := by
  have hcond : g.rd PWR_STATUS_PARK_CAUSE ≠ 0 ∧ g.power = 2 ∧ g.rd DRV_STATUS_STATE ≠ 3 ∧ ¬(g.sched_ = 3 ∧ g.rd TCK_RSCHED_PARKDRAIN = 0) :=
    ⟨hc, hp, hd, fun h => hs h.1⟩
  have hpower : ((g.wr PWR_STATUS_STATE 3).wr PWR_STATUS_UNDRAINED 0).rd PWR_STATUS_STATE = 3 := by
    simp (disch := decide) [Region.rd_wr_disjoint, Region.rd_wr_same]
  rw [Region.parkBegin, if_pos hcond]
  dsimp only
  split
  · rw [Region.power, Region.rd_wr_ne _ _ _ _ (by decide), Region.setSched_eq _ (by decide)]
    exact (Region.rd_wr_ne _ TCK_RSCHED_STATE _ _ (by decide)).trans hpower
  · exact hpower

/-- The begin of a park changes power, UNDRAINED and the schedule, and no other field. -/
theorem Region.rd_parkBegin (g : Region) {f : Fld} (hs : f.off ≠ TCK_RSCHED_STATE.off)
    (hp : f.off ≠ PWR_STATUS_STATE.off ∨ (3 ≤ f.lo ∧ f.lo + f.width ≤ 19)) : g.parkBegin.rd f = g.rd f := by
  have hpower : ((g.wr PWR_STATUS_STATE 3).wr PWR_STATUS_UNDRAINED 0).rd f = g.rd f := by
    rcases hp with hp | ⟨hlo, hhi⟩
    · exact (Region.rd_wr_ne _ PWR_STATUS_UNDRAINED f _ hp).trans (Region.rd_wr_ne g PWR_STATUS_STATE f _ hp)
    · exact (Region.rd_wr_disjoint _ PWR_STATUS_UNDRAINED f _ (by omega) (.inr hhi)).trans
        (Region.rd_wr_disjoint g PWR_STATUS_STATE f _ (by omega) (.inl hlo))
  unfold Region.parkBegin
  split
  · dsimp only
    split
    · refine (Region.rd_wr_ne _ TCK_RSCHED_PARKDRAIN f _ hs).trans ?_
      rw [Region.setSched_eq _ (by decide)]
      exact (Region.rd_wr_ne _ TCK_RSCHED_STATE f _ hs).trans hpower
    · exact hpower
  · rfl

/-- The drive parks after its holdover: the park cause joins those present, and a powered region with nothing to defer it begins to park (R58, R93). -/
theorem Region.holdoverPark_reads (g : Region) :
    ((g.setDrv 5).parkCause 1).rd DRV_STATUS_STATE = 5 ∧
    ((g.setDrv 5).parkCause 1).rd PWR_STATUS_PARK_CAUSE = g.rd PWR_STATUS_PARK_CAUSE ||| 2 ∧
    (g.power = 2 → g.sched_ ≠ 3 → ((g.setDrv 5).parkCause 1).power = 3) ∧
    ((g.setDrv 5).parkCause 1).rd TRC_STATUS_STATE = g.rd TRC_STATUS_STATE := by
  have hlt : g.rd PWR_STATUS_PARK_CAUSE ||| 2 < 2 ^ 3 := Nat.or_lt_two_pow (Fld.rd_lt pageTable g.regs PWR_STATUS_PARK_CAUSE) (by decide)
  have hne : g.rd PWR_STATUS_PARK_CAUSE ||| 2 ≠ 0 := fun h => absurd (Nat.or_eq_zero_iff.1 h).2 (by decide)
  have hold : (g.setDrv 5).rd PWR_STATUS_PARK_CAUSE = g.rd PWR_STATUS_PARK_CAUSE := Region.rd_setDrv_ne _ _ (by decide)
  have hcause : ((g.setDrv 5).wr PWR_STATUS_PARK_CAUSE (g.rd PWR_STATUS_PARK_CAUSE ||| 2)).rd PWR_STATUS_PARK_CAUSE =
      g.rd PWR_STATUS_PARK_CAUSE ||| 2 := (Region.rd_wr_same _ _ _ (by decide)).trans (Nat.mod_eq_of_lt hlt)
  have hdrv : ((g.setDrv 5).wr PWR_STATUS_PARK_CAUSE (g.rd PWR_STATUS_PARK_CAUSE ||| 2)).rd DRV_STATUS_STATE = 5 :=
    (Region.rd_wr_ne _ _ _ _ (by decide)).trans (Region.rd_setDrv_state g 5)
  have heq : (g.setDrv 5).parkCause 1 = ((g.setDrv 5).wr PWR_STATUS_PARK_CAUSE (g.rd PWR_STATUS_PARK_CAUSE ||| 2)).parkBegin := by
    rw [Region.parkCause, hold]
    rfl
  rw [heq]
  refine ⟨?_, ?_, fun hp hs => Region.parkBegin_power _ (by rw [hcause]; exact hne) ?_ (by rw [hdrv]; decide) ?_, ?_⟩
  · rw [Region.rd_parkBegin _ (by decide) (.inl (by decide)), hdrv]
  · rw [Region.rd_parkBegin _ (by decide) (.inr (by decide)), hcause]
  · rw [Region.power, Region.rd_wr_disjoint _ _ _ _ (by decide) (by decide), Region.rd_setDrv_ne _ _ (by decide)]
    exact hp
  · rw [Region.sched_, Region.rd_wr_ne _ _ _ _ (by decide), Region.rd_setDrv_ne _ _ (by decide)]
    exact hs
  · rw [Region.rd_parkBegin _ (by decide) (.inl (by decide)), Region.rd_wr_ne _ _ _ _ (by decide), Region.rd_setDrv_ne _ _ (by decide)]

/-- Settles O5: acquisition, unlock, relock and holdover of the clock drive and of the transit clock. -/
theorem generatorFailures : Obligations.GeneratorFailures := by
  unfold Obligations.GeneratorFailures
  refine ⟨fun s r hst hready => ?_, fun s r hst hready => ?_, fun s r hst => ?_, fun s r hst => ?_, fun s r hst => ?_, fun s r hst => ?_,
    fun s r hst => ?_, fun s r hst htry => ?_, fun s r hst htry => ?_, fun s r hst => ?_⟩
  · refine ⟨_, congrArg Host.Outcome.next (if_pos ⟨hst, hready⟩), ?_⟩
    have hsel := Nat.mod_eq_of_lt (Fld.rd_lt pageTable (s.region r.val).regs DRV_SRC_SEL)
    rw [State.region_setRegion_same]
    refine ⟨?_, ?_, (Region.rd_wr_same _ _ _ (by decide)).trans hsel, OnlyRegion.setRegion _ _ _,
      ((RegionRegs.refl _ _).setDrv 2 (by decide)).wr _ _ (by decide)⟩ <;> simp (disch := decide) [Region.rd_wr_ne]
  · refine ⟨_, congrArg Host.Outcome.next (if_pos ⟨hst, hready⟩), ?_⟩
    have hsel := Nat.mod_eq_of_lt (Fld.rd_lt pageTable (s.region r.val).regs TRC_SRC_SEL)
    rw [State.region_setRegion_same]
    refine ⟨?_, ?_, (Region.rd_wr_same _ _ _ (by decide)).trans hsel, OnlyRegion.setRegion _ _ _,
      ((RegionRegs.refl _ _).setTrc 2 (by decide)).wr _ _ (by decide)⟩ <;> simp (disch := decide) [Region.rd_wr_ne]
  · obtain ⟨t, hexec, hreg, -, hlog, hdeg, hframe⟩ := exec_generatorFails (i := .acquireTimeout r false) (code := 13)
      (g := (s.region r.val).setDrv 6) (.inr rfl) (OnlyDomeHost.refl _) rfl (congrArg Host.Outcome.next (if_pos hst))
    refine ⟨t, hexec, ?_⟩
    rw [hreg]
    exact ⟨Region.rd_setDrv_state _ _, Region.rd_setDrv_lock _ _, hlog, hdeg, hframe, (RegionRegs.refl _ _).setDrv 6 (by decide)⟩
  · obtain ⟨t, hexec, hreg, -, hlog, hdeg, hframe⟩ := exec_generatorFails (i := .acquireTimeout r true) (code := 13)
      (g := (s.region r.val).setTrc 6) (.inr rfl) (OnlyDomeHost.refl _) rfl (congrArg Host.Outcome.next (if_pos hst))
    refine ⟨t, hexec, ?_⟩
    rw [hreg]
    exact ⟨Region.rd_setTrc_state _ _, hlog, hdeg, hframe, (RegionRegs.refl _ _).setTrc 6 (by decide)⟩
  · obtain ⟨t, hexec, hreg, hpend, hlog, hdeg, hframe⟩ := exec_generatorFails (i := .unlock r) (code := 12)
      (g := ((s.region r.val).setDrv 3).wr DRV_STATUS_UNLOCK 1) (.inl rfl) (OnlyDomeHost.hifEvent _ 5) (State.hifEvent_dome _ 5) (if_pos hst)
    have hstate : (((s.region r.val).setDrv 3).wr DRV_STATUS_UNLOCK 1).rd DRV_STATUS_STATE = 3 :=
      (Region.rd_wr_disjoint _ _ _ _ (by decide) (by decide)).trans (Region.rd_setDrv_state _ 3)
    refine ⟨t, hexec, ?_⟩
    rw [hreg]
    exact ⟨hstate, Region.rd_wr_same _ _ _ (by decide), Region.computing_eq_false _ (by omega) (by omega) (by omega),
      hpend 5 (by decide) (pends_hifEvent _ (by decide)), hlog, hdeg, hframe⟩
  · obtain ⟨t, hexec, hreg, -, hlog, hdeg, hframe⟩ := exec_generatorFails (i := .relockTimeout r) (code := 13)
      (g := (s.region r.val).setDrv 6) (.inr rfl) (OnlyDomeHost.refl _) rfl (if_pos hst)
    have hstate := (s.region r.val).rd_setDrv_state 6
    refine ⟨t, hexec, ?_⟩
    rw [hreg]
    exact ⟨hstate, Region.computing_eq_false _ (by omega) (by omega) (by omega), hlog, hdeg, hframe⟩
  · obtain ⟨t, hexec, hreg, hpend, hlog, -, hframe⟩ := exec_generatorFails (i := .transitUnlock r) (code := 12)
      (g := { ((s.region r.val).setTrc 4).wr TRC_STATUS_UNLOCK 1 with trcTry := true }) (.inl rfl) (OnlyDomeHost.hifEvent _ 5)
      (State.hifEvent_dome _ 5) (if_pos hst)
    refine ⟨t, hexec, ?_⟩
    rw [hreg]
    exact ⟨(Region.rd_wr_disjoint _ TRC_STATUS_UNLOCK TRC_STATUS_STATE 1 (by decide) (by decide)).trans (Region.rd_setTrc_state _ 4),
      Region.rd_wr_same _ _ _ (by decide), rfl, hpend 5 (by decide) (pends_hifEvent _ (by decide)), hlog, hframe⟩
  · refine ⟨_, congrArg Host.Outcome.next (if_pos ⟨hst, htry⟩), ?_⟩
    rw [State.region_setRegion_same]
    exact ⟨Region.rd_setTrc_state _ 2, rfl, OnlyRegion.setRegion _ _ _⟩
  · obtain ⟨t, hexec, hreg, -, hlog, -, hframe⟩ := exec_generatorFails (i := .transitReacquireTimeout r) (code := 13)
      (g := { (s.region r.val).setTrc 6 with trcTry := false }) (.inr rfl) (OnlyDomeHost.refl _) rfl
      (congrArg Host.Outcome.next (if_pos ⟨hst, htry⟩))
    have hstate : ({ (s.region r.val).setTrc 6 with trcTry := false } : Region).rd TRC_STATUS_STATE = 6 := Region.rd_setTrc_state _ 6
    refine ⟨t, hexec, ?_⟩
    rw [hreg]
    exact ⟨hstate, by simp [Region.hole, hstate], hlog, hframe⟩
  · have hexec : exec (.holdoverTimeout r) s = .next (s.setRegion r.val (((s.region r.val).setDrv 5).parkCause 1)) :=
      congrArg Host.Outcome.next (if_pos hst)
    obtain ⟨hdrv, hcause, hpower, htrc⟩ := (s.region r.val).holdoverPark_reads
    refine ⟨_, hexec, ?_⟩
    rw [State.region_setRegion_same]
    exact ⟨hdrv, hcause, hpower, htrc, OnlyRegion.setRegion _ _ _⟩

end Sys2Proof.Machine
end

section
namespace Sys2Proof.Machine

/-! ## Locked registers of the module (R63, R69, R84) -/

/-- A field written with its value in a word reads as that value. -/
theorem State.dome_setDome_of (s : State) (f : Fld) (v : W32) (h : f.lo + f.width ≤ 32) : (s.setDome f (f.of v)).dome_ f = f.of v :=
  (State.dome_setDome_same s f _ h).trans (Nat.mod_eq_of_lt (f.of_lt v))

/-- TCK_CTRL as a write before the lock leaves it: MODE and RCV_PORT are taken, an invalid MASTER_SRC or SLIP_LIMIT is ignored and sets CFG_ERR (R69). -/
def State.setTckCtrl (s : State) (v : W32) : State :=
  let s1 := (s.setDome TCK_CTRL_MODE (TCK_CTRL_MODE.of v)).setDome TCK_CTRL_RCV_PORT (TCK_CTRL_RCV_PORT.of v)
  let s2 := if TCK_CTRL_MASTER_SRC.of v = 3 then s1.setDome TCK_STATUS_CFG_ERR 1 else s1.setDome TCK_CTRL_MASTER_SRC (TCK_CTRL_MASTER_SRC.of v)
  if TCK_CTRL_SLIP_LIMIT.of v = 0 then s2.setDome TCK_STATUS_CFG_ERR 1 else s2.setDome TCK_CTRL_SLIP_LIMIT (TCK_CTRL_SLIP_LIMIT.of v)

theorem State.setTckCtrl_taken (s : State) (v : W32) :
    (s.setTckCtrl v).dome_ TCK_CTRL_MODE = TCK_CTRL_MODE.of v ∧ (s.setTckCtrl v).dome_ TCK_CTRL_RCV_PORT = TCK_CTRL_RCV_PORT.of v ∧
    ((s.setTckCtrl v).dome_ TCK_CTRL_MASTER_SRC =
      (if TCK_CTRL_MASTER_SRC.of v = 3 then s.dome_ TCK_CTRL_MASTER_SRC else TCK_CTRL_MASTER_SRC.of v)) ∧
    ((s.setTckCtrl v).dome_ TCK_CTRL_SLIP_LIMIT =
      (if TCK_CTRL_SLIP_LIMIT.of v = 0 then s.dome_ TCK_CTRL_SLIP_LIMIT else TCK_CTRL_SLIP_LIMIT.of v)) := by
  by_cases hsrc : TCK_CTRL_MASTER_SRC.of v = 3 <;> by_cases hslip : TCK_CTRL_SLIP_LIMIT.of v = 0 <;>
    simp (disch := decide) only [State.setTckCtrl, hsrc, hslip, if_true, if_false, State.dome_setDome_of, State.dome_setDome_ne,
      State.dome_setDome_disjoint, and_self]

theorem State.setTckCtrl_cfgErr (s : State) (v : W32) :
    (TCK_CTRL_MASTER_SRC.of v = 3 ∨ TCK_CTRL_SLIP_LIMIT.of v = 0 → (s.setTckCtrl v).dome_ TCK_STATUS_CFG_ERR = 1) ∧
    (TCK_CTRL_MASTER_SRC.of v ≠ 3 ∧ TCK_CTRL_SLIP_LIMIT.of v ≠ 0 → (s.setTckCtrl v).dome_ TCK_STATUS_CFG_ERR = s.dome_ TCK_STATUS_CFG_ERR) := by
  by_cases hsrc : TCK_CTRL_MASTER_SRC.of v = 3 <;> by_cases hslip : TCK_CTRL_SLIP_LIMIT.of v = 0 <;>
    simp (disch := decide) [State.setTckCtrl, hsrc, hslip, State.dome_setDome_same, State.dome_setDome_ne]

theorem State.setTckCtrl_frame (s : State) (v : W32) : OnlyDomeRegs s (s.setTckCtrl v) [TCK_CTRL_MODE.off, TCK_STATUS_CFG_ERR.off] := by
  have h1 := ((OnlyDomeRegs.refl s [TCK_CTRL_MODE.off, TCK_STATUS_CFG_ERR.off]).setDome TCK_CTRL_MODE (TCK_CTRL_MODE.of v) (by decide)).setDome
    TCK_CTRL_RCV_PORT (TCK_CTRL_RCV_PORT.of v) (by decide)
  have h2 := (h1.setDome TCK_STATUS_CFG_ERR 1 (by decide)).ite (c := TCK_CTRL_MASTER_SRC.of v = 3)
    (h1.setDome TCK_CTRL_MASTER_SRC (TCK_CTRL_MASTER_SRC.of v) (by decide))
  exact (h2.setDome TCK_STATUS_CFG_ERR 1 (by decide)).ite (h2.setDome TCK_CTRL_SLIP_LIMIT (TCK_CTRL_SLIP_LIMIT.of v) (by decide))

/-- What a write after a lock does where a locked value differs: LOCK_VIOL sets and no other register changes (R7). -/
theorem State.setLockViol_spec (s : State) : (s.setDome TCK_STATUS_LOCK_VIOL 1).dome_ TCK_STATUS_LOCK_VIOL = 1 ∧
    (∀ f : Fld, f.off ≠ TCK_STATUS_LOCK_VIOL.off → (s.setDome TCK_STATUS_LOCK_VIOL 1).dome_ f = s.dome_ f) ∧
    OnlyDomeRegs s (s.setDome TCK_STATUS_LOCK_VIOL 1) [TCK_STATUS_LOCK_VIOL.off] :=
  ⟨State.dome_setDome_same s _ _ (by decide), fun f hf => State.dome_setDome_ne s _ f _ hf, (OnlyDomeRegs.refl s _).setDome _ _ (by decide)⟩

/-- Settles O10: TCK_PERIOD, TCK_CTRL and ALM_ENVELOPE before and after their lock. -/
theorem lockedModuleRegisters : Obligations.LockedModuleRegisters := by
  unfold Obligations.LockedModuleRegisters
  refine ⟨fun s v hl hlo hhi => ?_, fun s v hl hbad => ?_, fun s v hl => ?_, fun s v hl => ?_, fun s v hl hdiff => ?_,
    fun s v hl hmode hsrc hslip hport => ?_, fun s v hl => ?_, fun s v hl hdiff => ?_, fun s v hl hsame => ?_⟩
  · exact ⟨_, (if_neg (by rw [hl]; decide)).trans (if_pos ⟨hlo, hhi⟩), State.dome_setDome_of _ _ v (by decide),
      (OnlyDomeRegs.refl s _).setDome _ _ (by decide)⟩
  · exact ⟨_, (if_neg (by rw [hl]; decide)).trans (if_neg (by omega)), State.dome_setDome_ne _ _ _ _ (by decide),
      State.dome_setDome_same _ _ _ (by decide), (OnlyDomeRegs.refl s _).setDome _ _ (by decide)⟩
  · obtain ⟨hviol, hkeep, hframe⟩ := s.setLockViol_spec
    by_cases hsame : TCK_PERIOD_PERIOD.of v = s.dome_ TCK_PERIOD_PERIOD
    · exact ⟨s, (if_pos hl).trans (congrArg Host.Outcome.next (if_pos hsame)), rfl, fun h => absurd hsame h, fun _ => rfl, OnlyDomeRegs.refl s _⟩
    · exact ⟨_, (if_pos hl).trans (congrArg Host.Outcome.next (if_neg hsame)), hkeep _ (by decide), fun _ => hviol, fun h => absurd h hsame, hframe⟩
  · have hexec : exec (.tckCtrlWrite v) s = .next (s.setTckCtrl v) := if_neg (by rw [hl]; decide)
    obtain ⟨hmode, hport, hsrc, hslip⟩ := s.setTckCtrl_taken v
    obtain ⟨hbad, hgood⟩ := s.setTckCtrl_cfgErr v
    exact ⟨_, hexec, hmode, hport, hsrc, hslip, hbad, hgood, s.setTckCtrl_frame v⟩
  · obtain ⟨hviol, hkeep, hframe⟩ := s.setLockViol_spec
    have hnot : ¬(TCK_CTRL_MODE.of v = s.dome_ TCK_CTRL_MODE ∧ TCK_CTRL_MASTER_SRC.of v = s.dome_ TCK_CTRL_MASTER_SRC ∧
        TCK_CTRL_SLIP_LIMIT.of v = s.dome_ TCK_CTRL_SLIP_LIMIT ∧ TCK_CTRL_RCV_PORT.of v = s.dome_ TCK_CTRL_RCV_PORT) := by tauto
    exact ⟨_, (if_pos hl).trans (congrArg Host.Outcome.next (if_neg hnot)), hviol, hkeep _ (by decide), hkeep _ (by decide), hkeep _ (by decide),
      hkeep _ (by decide), hframe⟩
  · exact ⟨s, (if_pos hl).trans (congrArg Host.Outcome.next (if_pos ⟨hmode, hsrc, hslip, hport⟩)), rfl⟩
  · by_cases hr : 1000 ≤ ALM_ENVELOPE_WATTS.of v ∧ ALM_ENVELOPE_WATTS.of v ≤ 60000
    · refine ⟨_, (if_neg (by rw [hl]; decide)).trans (if_pos hr), ?_, fun h => absurd hr h, (OnlyDomeRegs.refl s _).setDome _ _ (by decide)⟩
      rw [if_pos hr, State.dome_setDome_of _ _ v (by decide)]
    · refine ⟨_, (if_neg (by rw [hl]; decide)).trans (if_neg hr), ?_, fun _ => State.dome_setDome_same _ _ _ (by decide),
        (OnlyDomeRegs.refl s _).setDome _ _ (by decide)⟩
      rw [if_neg hr, State.dome_setDome_ne _ _ _ _ (by decide)]
  · obtain ⟨hviol, hkeep, hframe⟩ := s.setLockViol_spec
    exact ⟨_, (if_pos hl).trans (congrArg Host.Outcome.next (if_neg hdiff)), hviol, hkeep _ (by decide), hframe⟩
  · exact ⟨s, (if_pos hl).trans (congrArg Host.Outcome.next (if_pos hsame)), rfl⟩

end Sys2Proof.Machine
end

section
namespace Sys2Proof.Machine

/-! ## Host reads of BAR0 that latch (R68, R72, R97, R379) -/

/-- A read of BAR0 with no posted write outstanding is answered at once (R379): it is counted, takes a transfer number, and its value goes out. -/
theorem State.bar0Reply_answered (s : State) (off v : Nat) (h : s.host.posted = []) :
    s.bar0Reply off v = (s.barCount.modHost (fun b => { b with serial := b.serial + 1 })).emit (.hostRead false off (leBytes 4 v) false) := by
  simp [State.bar0Reply, h, State.emitRead]

/-- A read of BAR0 behind posted writes waits for every one of them (R379). -/
theorem State.bar0Reply_waits (s : State) (off v : Nat) (h : s.host.posted ≠ []) :
    s.bar0Reply off v = (s.barCount.modHost (fun b => { b with serial := b.serial + 1 })).modHost (fun b => { b with
      reads := b.reads ++ [⟨s.host.serial, false, off, s.host.posted.map (fun p => p.id), false, 0, leBytes 4 v, 0, []⟩] }) := by
  simp [State.bar0Reply, h]

theorem CountedRead.barCount (s : State) (o : Output) :
    CountedRead s ((s.barCount.modHost (fun b => { b with serial := b.serial + 1 })).emit o) :=
  ⟨rfl, State.hif_setHif_same s HIF_CNT_BAR_CNT _ (by decide), fun _ ho => Regs.word_wr_ne hifTable s.host.hif HIF_CNT_BAR_CNT _ ho⟩

theorem CountedRead.of_host {s u t w : State} (h : CountedRead u t) (hs : s.host = u.host) (ht : w.host = t.host) : CountedRead s w := by
  unfold CountedRead State.hif at h ⊢
  rwa [hs, ht]

/-- What an answered read of a latching register shows, where the read gives value v and leaves the state u: the value goes out, the read is counted, and
all but the bridge and the output is as u has it. -/
theorem bar0Read_answered {i : Instr} {s : State} {off : Nat} {read : State → Nat × State} (hexec : exec i s = .next (s.bar0Read off read))
    (hr : s.ready = true) {v : Nat} {u : State} (hread : read s = (v, u)) (hu : u.host = s.host ∧ u.out = s.out) (hp : s.host.posted = []) :
    ∃ (o : List Output) (b : Bridge), exec i s = .next { u with out := o, host := b } ∧
      o = s.out ++ [Output.hostRead false off (leBytes 4 v) false] ∧ CountedRead s { u with out := o, host := b } := by
  obtain ⟨hhost, hout⟩ := hu
  have hreply := u.bar0Reply_answered off v (by rw [hhost]; exact hp)
  have hcount := CountedRead.barCount u (.hostRead false off (leBytes 4 v) false)
  rw [State.bar0Read, if_pos hr, hread] at hexec
  dsimp only at hexec
  rw [hreply] at hexec
  exact ⟨_, _, hexec, congrArg (· ++ [_]) hout, hcount.of_host hhost.symm rfl⟩

/-- Before READY every such read returns all ones and latches nothing (R374). -/
theorem bar0Read_notReady {i : Instr} {s : State} {off : Nat} {read : State → Nat × State} (hexec : exec i s = .next (s.bar0Read off read))
    (hr : s.ready = false) (hp : s.host.posted = []) :
    ∃ t, exec i s = .next t ∧ t.out = s.out ++ [Output.hostRead false off (leBytes 4 0xFFFFFFFF) false] ∧ CountedRead s t ∧
      { t with out := s.out, host := s.host } = s := by
  rw [State.bar0Read, if_neg (by rw [hr]; decide), s.bar0Reply_answered _ _ hp] at hexec
  exact ⟨_, hexec, rfl, CountedRead.barCount s _, rfl⟩

theorem State.snapRead_reads (s : State) : s.snapRead.2.dome_ TCK_SNAP_LO_STAMP_LO = s.dome.ptm % 2 ^ 32 ∧
    s.snapRead.2.dome_ TCK_SNAP_HI_STAMP_HI = s.dome.ptm / 2 ^ 32 % 2 ^ 32 ∧
    s.snapRead.2.dome_ TCK_SNAP_NUM_LO_NUM_LO = s.tickNum % 2 ^ 32 ∧
    s.snapRead.2.dome_ TCK_SNAP_NUM_HI_NUM_HI = s.tickNum / 2 ^ 32 % 2 ^ 32 := by
  refine ⟨?_, ?_, ?_, ?_⟩ <;> simp (disch := decide) [State.snapRead, State.dome_setDome_ne, State.dome_setDome_same]

theorem State.snapRead_frame (s : State) : OnlyDomeRegs s s.snapRead.2 [0x20C, 0x210, 0x214, 0x218] :=
  ((((OnlyDomeRegs.refl s _).setDome TCK_SNAP_LO_STAMP_LO _ (by decide)).setDome TCK_SNAP_HI_STAMP_HI _ (by decide)).setDome TCK_SNAP_NUM_LO_NUM_LO _
    (by decide)).setDome TCK_SNAP_NUM_HI_NUM_HI _ (by decide)

theorem OnlyDomeRegs.bridge {s u : State} {offs : List Nat} (h : OnlyDomeRegs s u offs) (o : List Output) (b : Bridge) :
    OnlyDomeRegs { s with out := o, host := b } { u with out := o, host := b } offs :=
  ⟨congrArg (fun x : State => { x with out := o, host := b }) h.1, h.2⟩

theorem OnlyRegion.bridge {s u : State} {r : Nat} (h : OnlyRegion s u r) (o : List Output) (b : Bridge) :
    OnlyRegion { s with out := o, host := b } { u with out := o, host := b } r :=
  ⟨congrArg (fun x : State => { x with out := o, host := b }) h.1, h.2⟩

/-- A read of a region's page that latches field f with x: the region's other registers and the module's other units are as before. -/
theorem bar0Read_page {i : Instr} {s : State} {off : Nat} {r : RegionId} {read : State → Nat × State} {f : Fld} {v x : Nat}
    (hexec : exec i s = .next (s.bar0Read off read)) (hread : read s = (v, s.setRegion r.val ((s.region r.val).wr f x)))
    (hf : f.lo + f.width ≤ 32) (hr : s.ready = true) (hp : s.host.posted = []) :
    ∃ t, exec i s = .next t ∧ t.out = s.out ++ [Output.hostRead false off (leBytes 4 v) false] ∧
      (t.region r.val).rd f = x % 2 ^ f.width ∧ CountedRead s t ∧ OnlyRegion { s with out := t.out, host := t.host } t r.val ∧
      RegionRegs (s.region r.val) (t.region r.val) [f.off] := by
  obtain ⟨o, b, hnext, hout, hcount⟩ := bar0Read_answered hexec hr hread ⟨rfl, rfl⟩ hp
  have hreg : ({ s.setRegion r.val ((s.region r.val).wr f x) with out := o, host := b } : State).region r.val = (s.region r.val).wr f x :=
    State.region_setRegion_same _ _ _
  refine ⟨_, hnext, hout, ?_, hcount, (OnlyRegion.setRegion s r.val _).bridge o b, ?_⟩
  · rw [hreg, Region.rd_wr_same _ f x hf]
  · rw [hreg]
    exact (RegionRegs.refl _ _).wr f x (List.mem_singleton.2 rfl)

/-- A read of a region's page that does not answer returns all ones and latches nothing (R115). -/
theorem bar0Read_shut {i : Instr} {s : State} {off : Nat} {read : State → Nat × State} (hexec : exec i s = .next (s.bar0Read off read))
    (hread : read s = (0xFFFFFFFF, s)) (hr : s.ready = true) (hp : s.host.posted = []) :
    ∃ t, exec i s = .next t ∧ t.out = s.out ++ [Output.hostRead false off (leBytes 4 0xFFFFFFFF) false] ∧ CountedRead s t ∧
      { t with out := s.out, host := s.host } = s := by
  obtain ⟨o, b, hnext, hout, hcount⟩ := bar0Read_answered hexec hr hread ⟨rfl, rfl⟩ hp
  exact ⟨_, hnext, hout, hcount, rfl⟩

/-- Settles O9: TCK_SNAP_READ, TCK_RNUM_READ and ALM_BAL_READ. -/
theorem latchingReads : Obligations.LatchingReads := by
  unfold Obligations.LatchingReads
  refine ⟨fun s hr hp => ?_, fun s hr hp => bar0Read_notReady rfl hr hp, fun s hr hp => ?_, fun s r hr hp ho => ?_, fun s r hr hp ho => ?_,
    fun s r hr hp ho => ?_, fun s r hr hp ho => ?_⟩
  · obtain ⟨o, b, hnext, hout, hcount⟩ := bar0Read_answered (i := .tckSnapRead) rfl hr (read := State.snapRead) rfl ⟨rfl, rfl⟩ hp
    obtain ⟨hlo, hhi, hnlo, hnhi⟩ := s.snapRead_reads
    exact ⟨_, hnext, hout, hlo, hhi, hnlo, hnhi, hcount, s.snapRead_frame.bridge o b⟩
  · have hexec : exec .tckSnapRead s = .next (s.snapRead.2.bar0Reply 0x20C s.snapRead.1) := congrArg Host.Outcome.next (if_pos hr)
    rw [State.bar0Reply_waits _ _ _ (show s.snapRead.2.host.posted ≠ [] from hp)] at hexec
    refine ⟨_, hexec, rfl, ?_, ?_⟩
    · exact (congrArg (Option.map _) (List.getLast?_concat ..)).trans rfl
    · exact List.length_append.trans rfl
  · exact bar0Read_page (f := TCK_RNUM_HI_NUM_HI) rfl (if_pos ho) (by decide) hr hp
  · exact bar0Read_shut rfl (if_neg (by rw [ho]; decide)) hr hp
  · obtain ⟨t, hexec, hout, hhi, hrest⟩ := bar0Read_page (i := .almBalRead r) (f := ALM_BAL_HI_BAL_HI) rfl (if_pos ho) (by decide) hr hp
    have hlt : (s.region r.val).balWord / 2 ^ 32 < 2 ^ 32 := Nat.div_lt_of_lt_mul (BitVec.isLt _)
    exact ⟨t, hexec, hout, hhi.trans (Nat.mod_eq_of_lt hlt), hrest⟩
  · exact bar0Read_shut rfl (if_neg (by rw [ho]; decide)) hr hp

end Sys2Proof.Machine
end

section
namespace Sys2Proof.Machine

/-! ## The tick of the root (R69, R347, R435) -/

/-- What the end of a root tick leaves: t differs from s in the host bridge, in the eyepiece, in the ephemerides in use, and in the dome registers of the
chronograph and of TCK_EPH_ACTIVE, alone. -/
def ChronoEphOnly (s t : State) : Prop :=
  { t with host := s.host, dome := { t.dome with regs := s.dome.regs, eye := s.dome.eye, ephs := s.dome.ephs } } = s ∧
    ∀ o, o < EYE_CHR_LAST_CNT.off → o ≠ TCK_EPH_ACTIVE_ACTIVE.off → Regs.word domeTable t.dome.regs o = Regs.word domeTable s.dome.regs o

theorem ChronoEphOnly.refl (s : State) : ChronoEphOnly s s := ⟨rfl, fun _ _ _ => rfl⟩

theorem ChronoEphOnly.trans {s t u : State} (h : ChronoEphOnly s t) (k : ChronoEphOnly t u) : ChronoEphOnly s u :=
  ⟨(congrArg (fun x : State => { x with
      host := s.host, dome := { x.dome with regs := s.dome.regs, eye := s.dome.eye, ephs := s.dome.ephs } }) k.1).trans h.1,
    fun o hlt hne => (k.2 o hlt hne).trans (h.2 o hlt hne)⟩

theorem ChronoEphOnly.setDome (s : State) {f : Fld} (v : Nat) (hf : EYE_CHR_LAST_CNT.off ≤ f.off ∨ f.off = TCK_EPH_ACTIVE_ACTIVE.off) :
    ChronoEphOnly s (s.setDome f v) :=
  ⟨rfl, fun o hlt hne => Regs.word_wr_ne domeTable s.dome.regs f v (by omega)⟩

theorem ChronoEphOnly.foldl {α : Type} {f : State → α → State} (hf : ∀ u a, ChronoEphOnly u (f u a)) (l : List α) (s : State) :
    ChronoEphOnly s (l.foldl f s) := by
  induction l generalizing s with
  | nil => exact ChronoEphOnly.refl s
  | cons a l ih => exact (hf s a).trans (ih (f s a))

theorem State.chronoGather_only (s : State) : ChronoEphOnly s s.chronoGather := by
  unfold State.chronoGather
  split
  · refine (ChronoEphOnly.foldl (fun u i => ?_) (List.range 16) s).trans ⟨rfl, fun _ _ _ => rfl⟩
    split
    · exact ChronoEphOnly.refl u
    · exact (ChronoEphOnly.setDome u (f := EYE_CHR_LAST_CNT.nth i) _ (.inl (Nat.le_add_right _ _))).trans ⟨rfl, fun _ _ _ => rfl⟩
  · exact ChronoEphOnly.refl s

theorem State.queueRecord_only (s : State) (q : Nat) (c : CqRec) : ChronoEphOnly s (s.queueRecord q c) := by
  unfold State.queueRecord
  dsimp only
  split
  · exact ⟨rfl, fun _ _ _ => rfl⟩
  · exact ChronoEphOnly.refl s

theorem State.ephCheck_only (s : State) (e : Nat) : ChronoEphOnly s (s.ephCheck e) := by
  unfold State.ephCheck
  split
  · exact ChronoEphOnly.refl s
  · split
    · extract_lets act st s1 s2 s3
      have h1 : ChronoEphOnly s s1 := ChronoEphOnly.trans (t := s.modDome _) ⟨rfl, fun _ _ _ => rfl⟩ (ChronoEphOnly.setDome _ _ (.inr rfl))
      have h2 : ChronoEphOnly s s2 := h1.trans (ChronoEphOnly.setDome s1 _ (.inr rfl))
      have h3 : ChronoEphOnly s s3 := h2.trans ⟨rfl, fun _ _ _ => rfl⟩
      split
      · exact h3.trans (State.queueRecord_only s3 _ _)
      · exact h3
    · exact ChronoEphOnly.refl s

theorem State.ephSweep_only (s : State) : ChronoEphOnly s s.ephSweep := ChronoEphOnly.foldl State.ephCheck_only _ s

theorem ChronoEphOnly.dome_ {s t : State} (h : ChronoEphOnly s t) (f : Fld) (hlt : f.off < EYE_CHR_LAST_CNT.off) (hne : f.off ≠ TCK_EPH_ACTIVE_ACTIVE.off) :
    t.dome_ f = s.dome_ f := congrArg f.of (h.2 f.off hlt hne)

theorem ChronoEphOnly.fields {s t : State} (h : ChronoEphOnly s t) : t.dome.ticks = s.dome.ticks ∧ t.dome.ptm = s.dome.ptm ∧
    t.dome.golden = s.dome.golden ∧ t.ports = s.ports ∧ t.regions = s.regions ∧ t.clusters = s.clusters := by
  have hframe := h.1
  exact ⟨by have := congrArg (fun x : State => x.dome.ticks) hframe; exact this, by have := congrArg (fun x : State => x.dome.ptm) hframe; exact this,
    by have := congrArg (fun x : State => x.dome.golden) hframe; exact this, by have := congrArg State.ports hframe; exact this,
    by have := congrArg State.regions hframe; exact this, by have := congrArg State.clusters hframe; exact this⟩

theorem State.mem_upPorts (s : State) (p : Nat) : p ∈ s.upPorts ↔ p < 64 ∧ s.portUp p = true := by simp [State.upPorts]

/-- Ports that owe a TICK column (R347). -/
def State.oweTicks (s : State) (l : List Nat) : State := l.foldl (fun t p => t.modPort p (fun z => { z with tickDue := true })) s

theorem State.oweTicks_frame (s : State) (l : List Nat) : { s.oweTicks l with ports := s.ports } = s := by
  induction l generalizing s with
  | nil => rfl
  | cons p l ih => exact congrArg (fun x : State => { x with ports := s.ports }) (ih (s.modPort p _))

theorem State.port_oweTicks (s : State) (l : List Nat) (q : Nat) :
    (s.oweTicks l).port q = if q ∈ l then { s.port q with tickDue := true } else s.port q := by
  induction l generalizing s with
  | nil => rfl
  | cons p l ih =>
    have hstep := ih (s.modPort p (fun z => { z with tickDue := true }))
    rw [State.port_modPort] at hstep
    refine hstep.trans ?_
    by_cases hq : q = p
    · subst hq; simp
    · simp [hq]

/-- The root after its count: what ROOT_TICK writes before the ports and the chronograph follow (R69, R100). -/
def State.rootCounted (s : State) (ptm volt cur energy : Nat) : State :=
  let s1 := s.modDome (fun d => { d with ticks := d.ticks + 1, ptm := ptm, golden := if d.ticks = 0 then 0 else d.golden })
  (((s1.setDome PWR_IN_VOLT volt).setDome PWR_IN_CUR cur).setDome PWR_IN_ENERGY_ENERGY energy).setDome ALM_MOD_USED_USED
    (((s.regions.filter (fun p => !p.2.dark)).map (fun p => p.2.rd ALM_USED_USED)).sum)

theorem State.rootCounted_input (s : State) (ptm volt cur energy : Nat) :
    (s.rootCounted ptm volt cur energy).dome_ PWR_IN_VOLT = volt % 2 ^ PWR_IN_VOLT.width ∧
    (s.rootCounted ptm volt cur energy).dome_ PWR_IN_CUR = cur % 2 ^ PWR_IN_CUR.width := by
  constructor <;> simp (disch := decide) only [State.rootCounted, State.dome_setDome_ne, State.dome_setDome_disjoint, State.dome_setDome_same]

theorem State.rootCounted_count (s : State) (ptm volt cur energy : Nat) :
    (s.rootCounted ptm volt cur energy).dome.ticks = s.dome.ticks + 1 ∧ (s.rootCounted ptm volt cur energy).dome.ptm = ptm ∧
    (s.rootCounted ptm volt cur energy).dome.golden = if s.dome.ticks = 0 then 0 else s.dome.golden := ⟨rfl, rfl, rfl⟩

/-- Settles O8: ROOT_TICK with input power, and GOLDEN_ROTATE. -/
theorem rootTickCounts : Obligations.RootTickCounts := by
  unfold Obligations.RootTickCounts
  refine ⟨fun s ptm volt cur energy hin => ?_, fun s => ⟨_, rfl, rfl, rfl⟩⟩
  have hexec : exec (.rootTick ptm volt cur energy) s =
      .next ((s.rootCounted ptm volt cur energy).oweTicks s.upPorts).chronoGather.ephSweep := if_pos hin
  have hrest := (State.chronoGather_only ((s.rootCounted ptm volt cur energy).oweTicks s.upPorts)).trans (State.ephSweep_only _)
  obtain ⟨hticks, hptm, hgolden, hports, hregions, hclusters⟩ := hrest.fields
  have howe := (s.rootCounted ptm volt cur energy).oweTicks_frame s.upPorts
  have hdome : ((s.rootCounted ptm volt cur energy).oweTicks s.upPorts).dome = (s.rootCounted ptm volt cur energy).dome := by
    have := congrArg State.dome howe
    exact this
  have hport : ∀ p, ((s.rootCounted ptm volt cur energy).oweTicks s.upPorts).chronoGather.ephSweep.port p =
      if p ∈ s.upPorts then { s.port p with tickDue := true } else s.port p := fun p =>
    (congrArg (fun m => SMap.get (fun _ => Port.reset) m p) hports).trans (State.port_oweTicks _ _ p)
  have hfield : ∀ f : Fld, f.off = PWR_IN_VOLT.off → ((s.rootCounted ptm volt cur energy).oweTicks s.upPorts).chronoGather.ephSweep.dome_ f =
      (s.rootCounted ptm volt cur energy).dome_ f := fun f hf =>
    (hrest.dome_ f (by rw [hf]; decide) (by rw [hf]; decide)).trans (congrArg (fun d : Dome => Regs.rd domeTable d.regs f) hdome)
  obtain ⟨hvolt, hcur⟩ := s.rootCounted_input ptm volt cur energy
  obtain ⟨hticks0, hptm0, hgolden0⟩ := s.rootCounted_count ptm volt cur energy
  rw [hdome] at hticks hptm hgolden
  refine ⟨_, hexec, hticks.trans hticks0, hptm.trans hptm0, (hfield PWR_IN_VOLT rfl).trans hvolt, (hfield PWR_IN_CUR rfl).trans hcur, fun h0 => ?_, fun h0 => ?_,
    fun p hp hup => ?_, fun p hup => ?_, ?_, ?_⟩
  · rw [hgolden, hgolden0, if_pos h0]
  · rw [hgolden, hgolden0, if_neg h0]
  · rw [hport, if_pos ((s.mem_upPorts p).2 ⟨hp, hup⟩)]
  · rw [hport, if_neg (fun hmem => by simp [((s.mem_upPorts p).1 hmem).2] at hup)]
  · have := congrArg State.regions howe
    exact hregions.trans this
  · have := congrArg State.clusters howe
    exact hclusters.trans this

end Sys2Proof.Machine
end

section
namespace Sys2Proof.Machine

/-! ## Stretched periods (R60, R62, R87) -/

/-- A running count of the tick, a register's 32 bits, after n more. -/
theorem Region.rd_count_same (g : Region) (f : Fld) (n : Nat) (h : f.lo + f.width ≤ 32) :
    Regs.rd pageTable (g.count f n).cnt f = (Regs.rd pageTable g.cnt f + n) % 2 ^ f.width := Regs.rd_wr_same pageTable g.cnt f _ h

theorem Region.rd_count_ne (g : Region) (f k : Fld) (n : Nat) (h : k.off ≠ f.off) :
    Regs.rd pageTable (g.count f n).cnt k = Regs.rd pageTable g.cnt k := Regs.rd_wr_ne pageTable g.cnt f k _ h

/-- What a stretch counts: the periods, and the eighths of a period that they are longer by. -/
theorem Region.stretch_counts (g : Region) (n : Nat) :
    Regs.rd pageTable (g.stretch n).cnt DRV_SEE_CNT_CNT = (Regs.rd pageTable g.cnt DRV_SEE_CNT_CNT + n) % 2 ^ 32 ∧
    Regs.rd pageTable (g.stretch n).cnt DRV_SEE_LOST_LOST =
      (Regs.rd pageTable g.cnt DRV_SEE_LOST_LOST + n * stretchEighths (g.rd DRV_SEE_CTRL_STRETCH)) % 2 ^ 32 ∧
    ∀ f : Fld, f.off ≠ DRV_SEE_CNT_CNT.off → f.off ≠ DRV_SEE_LOST_LOST.off → Regs.rd pageTable (g.stretch n).cnt f = Regs.rd pageTable g.cnt f := by
  have hcnt : (g.stretch n).cnt =
      ((g.count DRV_SEE_CNT_CNT n).count DRV_SEE_LOST_LOST (n * stretchEighths (g.rd DRV_SEE_CTRL_STRETCH))).cnt := rfl
  rw [hcnt]
  refine ⟨?_, ?_, fun f hc hl => ?_⟩
  · rw [Region.rd_count_ne _ _ _ _ (by decide), Region.rd_count_same _ _ _ (by decide)]
  · rw [Region.rd_count_same _ _ _ (by decide), Region.rd_count_ne _ _ _ _ (by decide)]
  · rw [Region.rd_count_ne _ _ _ _ hl, Region.rd_count_ne _ _ _ _ hc]

/-- A region whose compute clocks run has a running controller. -/
theorem State.alive_of_computing (s : State) (r : Nat) (h : (s.region r).computing = true) : s.alive r = true := by
  have hp : (s.region r).power = 2 ∨ (s.region r).power = 3 := by
    simp only [Region.computing, Bool.and_eq_true, Bool.or_eq_true, beq_iff_eq] at h
    exact h.1
  rcases hp with hp | hp <;> simp [State.alive, Region.dark, hp]

/-! ## The hold comparison (R81, R82) -/

/-- A region after the hold comparison: HOLD shows whether the balance is below the reserve, and HELD keeps that it has been. -/
def Region.compared (g : Region) : Region :=
  if g.below = true ∧ g.rd ALM_STATUS_HOLD = 0 then (g.wr ALM_STATUS_HOLD 1).wr ALM_STATUS_HELD 1
  else g.wr ALM_STATUS_HOLD (if g.below then 1 else 0)

theorem Region.compared_hold (g : Region) : g.compared.rd ALM_STATUS_HOLD = if g.below = true then 1 else 0 := by
  unfold Region.compared
  split
  · next h => rw [if_pos h.1, Region.rd_wr_disjoint _ _ _ _ (by decide) (by decide), Region.rd_wr_same _ _ _ (by decide)]; rfl
  · exact Region.rd_wr_flag _ _ _ (by decide) (by decide)

theorem Region.compared_regs (g : Region) : RegionRegs g g.compared [ALM_STATUS_HOLD.off] :=
  (((RegionRegs.refl g _).wr ALM_STATUS_HOLD 1 (by decide)).wr ALM_STATUS_HELD 1 (by decide)).ite ((RegionRegs.refl g _).wr ALM_STATUS_HOLD _ (by decide))

/-- The hold comparison is a matter of its region and of the bridge's events alone. -/
theorem State.holdCompare_spec (s : State) (r : Nat) : (s.holdCompare r).region r = (s.region r).compared ∧
    (∀ k, k ≠ r → (s.holdCompare r).region k = s.region k) ∧ { s.holdCompare r with regions := s.regions, host := s.host } = s := by
  have hstep : s.holdCompare r = s.setRegion r (s.region r).compared ∨ s.holdCompare r = (s.setRegion r (s.region r).compared).hifEvent 2 := by
    unfold State.holdCompare Region.compared
    dsimp only
    split
    · exact .inr rfl
    · exact .inl rfl
  rcases hstep with hstep | hstep
  · rw [hstep]
    exact ⟨State.region_setRegion_same _ _ _, fun k hk => State.region_setRegion_ne s _ hk, rfl⟩
  · rw [hstep]
    refine ⟨?_, fun k hk => ?_, congrArg (fun x : State => { x with regions := s.regions, host := s.host }) (OnlyHost.hifEvent _ 2)⟩
    · rw [State.region_hifEvent, State.region_setRegion_same]
    · rw [State.region_hifEvent, State.region_setRegion_ne s _ hk]

/-! ## The debit (R80, R81, R83) -/

/-- The energy of the waiting events depends on the events, the power state, the band and the active coefficients alone. -/
theorem Region.eventEnergy_congr {g h : Region} (hp : h.power = g.power) (hb : h.rd ALM_STATUS_BAND = g.rd ALM_STATUS_BAND) (he : h.ev = g.ev)
    (ha : h.almActive = g.almActive) : h.eventEnergy = g.eventEnergy := by
  have hcoef : h.coef = g.coef := by
    funext cls
    rw [Region.coef, Region.coef, hb, ha]
  unfold Region.eventEnergy
  rw [hp, he, hcoef]

/-- The events of the cycles that a debit covers: one TRANSIT per TCLK and, unless the region is parked, one LEAK per ACLK (R83). -/
def Region.cycleEvents (g : Region) (aclk tclk : Nat) : Region :=
  if g.power = 4 then g.event 15 tclk else (g.event 15 tclk).event 14 aclk

/-- A region at a debit: the cycles' events, with the counts of cycles and of cycles held (R80, R81). -/
def Region.debitCycles (g : Region) (aclk cclk tclk : Nat) : Region :=
  let g1 := (g.event 15 tclk).count DRV_CYCLES_CYCLES aclk
  let g2 := if g.power = 4 then g1 else g1.event 14 aclk
  if g.rd ALM_STATUS_HOLD = 1 then (g2.count ALM_HOLD_CCLK_CCLK cclk).chrono 16 cclk else g2

theorem Region.debitCycles_same (g : Region) (aclk cclk tclk : Nat) :
    (g.debitCycles aclk cclk tclk).regs = g.regs ∧ (g.debitCycles aclk cclk tclk).used = g.used ∧
    (g.debitCycles aclk cclk tclk).balance = g.balance ∧ (g.debitCycles aclk cclk tclk).reserve = g.reserve ∧
    (g.debitCycles aclk cclk tclk).eventEnergy = (g.cycleEvents aclk tclk).eventEnergy := by
  by_cases hp : g.power = 4 <;> by_cases hh : g.rd ALM_STATUS_HOLD = 1 <;>
    simp only [Region.debitCycles, Region.cycleEvents, hp, hh, if_true, if_false] <;>
    exact ⟨rfl, rfl, rfl, rfl, Region.eventEnergy_congr rfl rfl rfl rfl⟩

theorem OnlyCluster.refl (s : State) (c : Nat) : OnlyCluster s s c := ⟨rfl, fun _ _ => rfl⟩

theorem OnlyCluster.trans {s t u : State} {c : Nat} (h : OnlyCluster s t c) (k : OnlyCluster t u c) : OnlyCluster s u c :=
  ⟨(congrArg (fun x : State => { x with clusters := s.clusters }) k.1).trans h.1, fun j hj => (k.2 j hj).trans (h.2 j hj)⟩

theorem OnlyCluster.setCluster (s : State) (c : Nat) (x : Cluster) : OnlyCluster s (s.setCluster c x) c :=
  ⟨rfl, fun _ h => State.cluster_setCluster_ne s x h⟩

theorem OnlyCluster.modCluster (s : State) (c : Nat) (f : Cluster → Cluster) : OnlyCluster s (s.modCluster c f) c := OnlyCluster.setCluster s c _

/-- The cycles of a debit at a cluster are a matter of that cluster alone. -/
theorem State.clusterCycles_only (s : State) (i aclk cclk tclk : Nat) : OnlyCluster s (s.clusterCycles i aclk cclk tclk) i := by
  unfold State.clusterCycles
  extract_lets g hold s1
  have h1 : OnlyCluster s s1 i := by
    unfold s1
    split
    · exact OnlyCluster.modCluster s i _
    · exact OnlyCluster.refl s i
  refine OnlyCluster.trans ?_ (OnlyCluster.modCluster _ i _)
  split
  · exact h1.trans ((OnlyCluster.setCluster s1 i _).trans (OnlyCluster.modCluster _ i _))
  · exact h1

/-- The cycles of a debit at some clusters leave every other cluster, and all of the module but its clusters. -/
theorem State.foldl_clusterCycles (l : List Nat) (s : State) (aclk cclk tclk : Nat) :
    { l.foldl (fun t i => t.clusterCycles i aclk cclk tclk) s with clusters := s.clusters } = s ∧
    ∀ k, k ∉ l → (l.foldl (fun t i => t.clusterCycles i aclk cclk tclk) s).cluster k = s.cluster k := by
  induction l generalizing s with
  | nil => exact ⟨rfl, fun _ _ => rfl⟩
  | cons i l ih =>
    obtain ⟨hframe, hother⟩ := s.clusterCycles_only i aclk cclk tclk
    obtain ⟨hframe', hother'⟩ := ih (s.clusterCycles i aclk cclk tclk)
    refine ⟨(congrArg (fun x : State => { x with clusters := s.clusters }) hframe').trans hframe, fun k hk => ?_⟩
    rw [List.mem_cons, not_or] at hk
    exact (hother' k hk.2).trans (hother k hk.1)

/-- The clusters of a region lie in it (R14). -/
theorem regionOf_of_mem_clustersOf {r i : Nat} (hi : i ∈ clustersOf r) : regionOf i = r := by
  obtain ⟨k, hk, rfl⟩ := List.mem_map.1 hi
  have hk := List.mem_range.1 hk
  simp only [regionOf, cy, cx, cidx]
  omega

end Sys2Proof.Machine
end

section
namespace Sys2Proof.Machine

theorem Region.noSlot_congr {g h : Region} (hr : h.regs = g.regs) : h.noSlot = g.noSlot := by
  simp only [Region.noSlot, Region.sched_, Region.rd, hr]

theorem Region.compared_fields (g : Region) : g.compared.used = g.used ∧ g.compared.balance = g.balance ∧ g.compared.ev = g.ev := by
  unfold Region.compared
  split <;> exact ⟨rfl, rfl, rfl⟩

/-- A region after a debit and its comparison: the events' energy is added to the tick's total and subtracted from the balance of a region that runs a slot,
and HOLD shows the comparison (R80, R81, R455). -/
theorem Region.debit_compared (g : Region) (aclk cclk tclk : Nat) :
    let e := (g.cycleEvents aclk tclk).eventEnergy
    let h := ((g.debitCycles aclk cclk tclk).debitEnergy (g.debitCycles aclk cclk tclk).eventEnergy).compared
    h.used = g.used + e ∧ (g.noSlot = false → h.balance = g.balance - (e : Int)) ∧ (g.noSlot = true → h.balance = g.balance) ∧ h.ev = [] ∧
    (h.rd ALM_STATUS_HOLD = 1 ↔ g.noSlot = false ∧ h.balance < ((g.reserve * 1000000000 : Nat) : Int)) := by
  obtain ⟨hregs, hused, hbalance, hreserve, henergy⟩ := g.debitCycles_same aclk cclk tclk
  generalize g.debitCycles aclk cclk tclk = g3 at hregs hused hbalance hreserve henergy ⊢
  generalize (g.cycleEvents aclk tclk).eventEnergy = e at henergy ⊢
  have hslot : g3.noSlot = g.noSlot := Region.noSlot_congr hregs
  obtain ⟨hcused, hcbalance, hcev⟩ := (g3.debitEnergy e).compared_fields
  have hbal : (g3.debitEnergy e).compared.balance = if g.noSlot then g.balance else g.balance - (e : Int) := by
    rw [hcbalance, ← hslot, ← hbalance]
    rfl
  have hbelow : (g3.debitEnergy e).below = (!g.noSlot && decide ((g3.debitEnergy e).compared.balance < ((g.reserve * 1000000000 : Nat) : Int))) := by
    rw [hcbalance, ← hslot, ← hreserve]
    rfl
  rw [henergy]
  refine ⟨by rw [hcused, ← hused]; rfl, fun h => by rw [hbal, h]; rfl, fun h => by rw [hbal, h]; rfl, hcev, ?_⟩
  rw [Region.compared_hold, hbelow]
  simp

/-- A debit of a region that is on and outside a relock (R80). -/
theorem exec_almanacDebit (s : State) (r : RegionId) (aclk cclk tclk : Nat) (ha : s.alive r.val = true) (hd : (s.region r.val).rd DRV_STATUS_STATE ≠ 3) :
    exec (.almanacDebit r aclk cclk tclk) s =
      let g3 := (s.region r.val).debitCycles aclk cclk tclk
      .next ((((clustersOf r.val).foldl (fun t i => t.clusterCycles i aclk cclk tclk) s).setRegion r.val
        (g3.debitEnergy g3.eventEnergy)).holdCompare r.val) := if_pos ⟨ha, hd⟩

theorem almanacDebit_spec (s : State) (r : RegionId) (aclk cclk tclk : Nat) (ha : s.alive r.val = true) (hd : (s.region r.val).rd DRV_STATUS_STATE ≠ 3) :
    ∃ t, exec (.almanacDebit r aclk cclk tclk) s = .next t ∧
      t.region r.val = (((s.region r.val).debitCycles aclk cclk tclk).debitEnergy ((s.region r.val).debitCycles aclk cclk tclk).eventEnergy).compared ∧
      (∀ k, k ≠ r.val → t.region k = s.region k) ∧ (∀ k, k < 8960 → regionOf k ≠ r.val → t.cluster k = s.cluster k) ∧
      t.dome = s.dome ∧ t.ports = s.ports ∧ t.hostMem = s.hostMem := by
  have hexec := exec_almanacDebit s r aclk cclk tclk ha hd
  obtain ⟨hcl, hother⟩ := State.foldl_clusterCycles (clustersOf r.val) s aclk cclk tclk
  generalize (clustersOf r.val).foldl (fun t i => t.clusterCycles i aclk cclk tclk) s = s1 at hexec hcl hother
  dsimp only at hexec
  generalize ((s.region r.val).debitCycles aclk cclk tclk).debitEnergy ((s.region r.val).debitCycles aclk cclk tclk).eventEnergy = g4 at hexec ⊢
  obtain ⟨hreg, hregs, hframe⟩ := (s1.setRegion r.val g4).holdCompare_spec r.val
  have hregions : ∀ k, s1.region k = s.region k := fun k => by
    have := congrArg (fun x : State => x.region k) hcl
    exact this
  have hall : { (s1.setRegion r.val g4).holdCompare r.val with regions := s.regions, host := s.host, clusters := s.clusters } = s := by
    have h1 := congrArg (fun x : State => { x with regions := s.regions, host := s.host, clusters := s.clusters }) hframe
    have h2 := congrArg (fun x : State => { x with regions := s.regions, host := s.host }) hcl
    exact h1.trans h2
  refine ⟨_, hexec, hreg.trans (congrArg Region.compared (State.region_setRegion_same _ _ _)), fun k hk => ?_, fun k _ hk => ?_, ?_, ?_, ?_⟩
  · rw [hregs k hk, State.region_setRegion_ne _ _ hk, hregions]
  · have hcluster : ((s1.setRegion r.val g4).holdCompare r.val).clusters = s1.clusters := by
      have := congrArg State.clusters hframe
      exact this
    have hmem : k ∉ clustersOf r.val := fun hm => hk (regionOf_of_mem_clustersOf hm)
    exact (congrArg (fun m => SMap.get (fun _ => Cluster.reset) m k) hcluster).trans (hother k hmem)
  · have := congrArg State.dome hall
    exact this
  · have := congrArg State.ports hall
    exact this
  · have := congrArg State.hostMem hall
    exact this

/-! ## The end of a relock (R53, R83, R204) -/

/-- What the swaps at the end of a relock leave of region r, and of the other regions: the drive's status and the energy debited. -/
def KeepsDrive (r : Nat) (s t : State) : Prop :=
  (∀ k, k ≠ r → t.region k = s.region k) ∧ (t.region r).used = (s.region r).used ∧
    ∀ f : Fld, f.off = DRV_STATUS_STATE.off → (t.region r).rd f = (s.region r).rd f

theorem KeepsDrive.of_regions {r : Nat} {s t : State} (h : t.regions = s.regions) : KeepsDrive r s t := by
  have hreg : ∀ k, t.region k = s.region k := fun k => congrArg (fun m => SMap.get (fun _ => Region.reset) m k) h
  exact ⟨fun k _ => hreg k, by rw [hreg], fun f _ => by rw [hreg]⟩

theorem KeepsDrive.trans {r : Nat} {s t u : State} (h : KeepsDrive r s t) (k : KeepsDrive r t u) : KeepsDrive r s u := by
  obtain ⟨hother, hused, hdrive⟩ := h
  obtain ⟨kother, kused, kdrive⟩ := k
  exact ⟨fun j hj => (kother j hj).trans (hother j hj), kused.trans hused, fun f hf => (kdrive f hf).trans (hdrive f hf)⟩

theorem KeepsDrive.modRegion {r : Nat} (s : State) {f : Region → Region} (hu : (f (s.region r)).used = (s.region r).used)
    (hd : ∀ k : Fld, k.off = DRV_STATUS_STATE.off → (f (s.region r)).rd k = (s.region r).rd k) : KeepsDrive r s (s.modRegion r f) := by
  refine ⟨fun k hk => State.region_setRegion_ne s _ hk, ?_, fun k hk => ?_⟩
  · rw [State.region_modRegion_same, hu]
  · rw [State.region_modRegion_same, hd k hk]

/-- A fold over values that carry a state: each step keeps the drive of the states it carries. -/
theorem KeepsDrive.foldl {α β : Type} {r : Nat} (st : β → State) {f : β → α → β} {l : List α}
    (hf : ∀ b, ∀ a ∈ l, KeepsDrive r (st b) (st (f b a))) (b : β) : KeepsDrive r (st b) (st (l.foldl f b)) := by
  induction l generalizing b with
  | nil => exact KeepsDrive.of_regions rfl
  | cons a l ih => exact (hf b a (by simp)).trans (ih (fun c d hd => hf c d (by simp [hd])) (f b a))

theorem Region.setSched_used (g : Region) (st : Nat) : (g.setSched st).used = g.used := by
  unfold Region.setSched
  dsimp only
  split <;> rfl

/-- A change of the schedule's state leaves every register but TCK_RSCHED, ALM_STATUS and ALM_BUDGET. -/
theorem Region.rd_setSched_ne (g : Region) (st : Nat) {f : Fld} (hs : f.off ≠ TCK_RSCHED_STATE.off) (ha : f.off ≠ ALM_STATUS_HOLD.off)
    (hb : f.off ≠ ALM_BUDGET_BUDGET.off) : (g.setSched st).rd f = g.rd f := by
  have h1 : (g.wr TCK_RSCHED_STATE st).rd f = g.rd f := Region.rd_wr_ne g TCK_RSCHED_STATE f st hs
  unfold Region.setSched
  dsimp only
  split
  · exact ((Region.rd_wr_ne _ ALM_STATUS_ZERO f 1 ha).trans ((Region.rd_wr_ne _ ALM_BUDGET_BUDGET f 0 hb).trans
      (Region.rd_wr_ne _ ALM_STATUS_HOLD f 0 ha))).trans h1
  · exact h1

theorem State.memCheck_regions (s : State) (c cls a n : Nat) (use : Nat → Bool) : (s.memCheck c cls a n use).2.regions = s.regions := by
  unfold State.memCheck
  dsimp only
  split
  · rfl
  · exact (OnlyDomeHost.failure _ _ _ _ _ _ _).regions

theorem KeepsDrive.memRead {r c : Nat} (hc : regionOf c = r) (s : State) (cls a n : Nat) : KeepsDrive r s (s.memRead c cls a n).2 := by
  unfold State.memRead State.memReadUse
  dsimp only
  refine KeepsDrive.trans ?_ (KeepsDrive.of_regions (State.memCheck_regions _ c cls a n _))
  subst hc
  exact (KeepsDrive.of_regions (t := s.modCluster c _) rfl).trans (KeepsDrive.modRegion _ rfl (fun _ _ => rfl))

/-- A cluster of the region swaps its image in: its reads are events of the region, and a failed ARM puts the region's schedule in FAULT (R204). -/
theorem KeepsDrive.swapCluster {r i : Nat} (hi : regionOf i = r) (s : State) (row ep : Nat) : KeepsDrive r s (s.swapCluster i row ep) := by
  unfold State.swapCluster
  extract_lets rd s1
  have hrd : KeepsDrive r s rd.2.2 := KeepsDrive.foldl (fun b : List (List Byte) × Bool × State => b.2.2)
    (fun b k _ => KeepsDrive.memRead hi b.2.2 0 (512 * (row + k)) 512) ([], false, s)
  have h1 : KeepsDrive r s s1 := hrd.trans (KeepsDrive.of_regions (State.modCluster_regions _ _ _))
  clear_value s1 rd
  split
  · subst hi
    have h2 : KeepsDrive (regionOf i) s1 (s1.modRegion (regionOf i) (fun g => (g.setSched 6).wr TCK_RDRAIN_ARM_ERR 1)) :=
      KeepsDrive.modRegion s1 ((Region.wr_used _ _ _).trans (Region.setSched_used _ 6)) fun k hk =>
        (Region.rd_wr_ne _ TCK_RDRAIN_ARM_ERR k 1 (by rw [hk]; decide)).trans
          (Region.rd_setSched_ne _ 6 (by rw [hk]; decide) (by rw [hk]; decide) (by rw [hk]; decide))
    exact (h1.trans h2).trans (KeepsDrive.of_regions (OnlyDomeHost.failure _ 9 (regionOf i) (some i) 0 false (degrading 9)).regions)
  · exact h1

theorem KeepsDrive.swap (s : State) (r n : Nat) : KeepsDrive r s (s.swap r n) := by
  unfold State.swap
  extract_lets ep imgs s1
  have h1 : KeepsDrive r s s1 := KeepsDrive.modRegion s rfl fun k hk => by
    have hne : ∀ f : Fld, f.off ≠ DRV_STATUS_STATE.off → k.off ≠ f.off := fun f hf h => hf (h ▸ hk)
    simp only [Region.countStart, Region.rd_wr_ne _ _ k _ (hne TCK_RSET_ROW (by decide)), Region.rd_wr_ne _ _ k _ (hne TCK_RSET_SET (by decide)),
      Region.rd_wr_ne _ _ k _ (hne TCK_RSWAPS_CNT (by decide)), Region.rd_wr_ne _ _ k _ (hne TCK_RSCHED_EPOCH (by decide))]
  refine h1.trans (KeepsDrive.foldl id (fun u x hx => KeepsDrive.swapCluster ?_ u x.2.2 ep) s1)
  unfold imgs at hx
  split at hx
  · simp only [List.mem_filter, Bool.and_eq_true, beq_iff_eq] at hx
    exact hx.2.1.1.1
  · simp at hx

/-- The clocks restart with no slot start waiting: the swaps that waited take place (R204). -/
theorem KeepsDrive.clocksOn (s : State) (r : Nat) (hd : (s.region r).startDue = false) : KeepsDrive r s (s.clocksOn r) := by
  unfold State.clocksOn
  extract_lets g s1
  rw [if_neg (by rw [show g.startDue = false from hd]; decide)]
  have h0 : KeepsDrive r s (s.setRegion r { g with swapsDue := [], startDue := false }) :=
    KeepsDrive.modRegion s (f := fun g => { g with swapsDue := [], startDue := false }) rfl (fun _ _ => rfl)
  exact h0.trans (KeepsDrive.foldl id (fun u n _ => KeepsDrive.swap u r n) _)

theorem Region.parkBegin_used (g : Region) : g.parkBegin.used = g.used := by
  unfold Region.parkBegin
  split
  · dsimp only
    split
    · exact Region.setSched_used _ 3
    · rfl
  · rfl

theorem KeepsDrive.parkBegin (s : State) (r : Nat) : KeepsDrive r s (s.modRegion r Region.parkBegin) :=
  KeepsDrive.modRegion s (Region.parkBegin_used _) fun k hk => Region.rd_parkBegin _ (by rw [hk]; decide) (.inl (by rw [hk]; decide))

theorem KeepsDrive.holdCompare (s : State) (r : Nat) : KeepsDrive r s (s.holdCompare r) := by
  obtain ⟨hreg, hother, -⟩ := s.holdCompare_spec r
  refine ⟨hother, ?_, fun f hf => ?_⟩
  · rw [hreg]
    exact (s.region r).compared_fields.1
  · rw [hreg]
    exact congrArg f.of ((s.region r).compared_regs.2 f.off (by rw [hf]; decide))

/-- The region at the end of its relock: LOCKED or in holdover, RELOCK_NS, and the leakage of the stop debited with the waiting events (R53, R83). -/
def Region.relocked (g : Region) (ns : Nat) : Region :=
  ((g.relockLeak ns).setDrv (if g.rd (drvReady (g.rd DRV_SRC_SEL)) == 1 then 2 else 4)).wr DRV_STATUS_RELOCK_NS ns

theorem Region.relocked_reads (g : Region) (ns : Nat) :
    ((g.relocked ns).rd DRV_STATUS_STATE = if g.rd (drvReady (g.rd DRV_SRC_SEL)) = 1 then 2 else 4) ∧
    (g.relocked ns).rd DRV_STATUS_RELOCK_NS = ns % 2 ^ 16 ∧
    (g.relocked ns).used = g.used + g.eventEnergy + (if g.power = 4 then 0 else ceilDiv (ns * g.root * 25) 1000 * g.coef 14) := by
  refine ⟨?_, Region.rd_wr_same _ _ _ (by decide), ?_⟩
  · rw [Region.relocked, Region.rd_wr_disjoint _ _ _ _ (by decide) (by decide), Region.rd_setDrv_state]
    by_cases h : g.rd (drvReady (g.rd DRV_SRC_SEL)) = 1 <;> simp [h]
  · have hused : (g.relocked ns).used = g.used + (g.eventEnergy + (if g.power = 4 then 0 else ceilDiv (ns * g.root * 25) 1000) * g.coef 14) := rfl
    rw [hused, ite_mul, Nat.zero_mul, Nat.add_assoc]

/-- RELOCK_LOCK with no slot start waiting: the relocked region, its clocks restarted, and the other regions as before. -/
theorem relockLock_spec (s : State) (r : RegionId) (ns : Nat) (hst : (s.region r.val).rd DRV_STATUS_STATE = 3) (hd : (s.region r.val).startDue = false) :
    ∃ t, exec (.relockLock r ns) s = .next t ∧ KeepsDrive r.val (s.setRegion r.val ((s.region r.val).relocked ns)) t := by
  have hexec : exec (.relockLock r ns) s =
      let s1 := s.setRegion r.val ((s.region r.val).relocked ns)
      let s2 := if (s.region r.val).power = 4 then s1 else s1.clocksOn r.val
      .next ((s2.modRegion r.val Region.parkBegin).holdCompare r.val) := if_pos hst
  refine ⟨_, hexec, ?_⟩
  refine KeepsDrive.trans ?_ ((KeepsDrive.parkBegin _ r.val).trans (KeepsDrive.holdCompare _ r.val))
  split
  · exact KeepsDrive.of_regions rfl
  · refine KeepsDrive.clocksOn _ r.val ?_
    rw [State.region_setRegion_same]
    exact hd

/-- Settles O11: SEEING_STRETCH, CURRENT_LIMIT, ALMANAC_DEBIT and RELOCK_LOCK. -/
theorem stretchesAndDebits : Obligations.StretchesAndDebits := by
  unfold Obligations.StretchesAndDebits
  refine ⟨fun s r mv n hc hm => ?_, fun s r mv n ha hm => ?_, fun s r a n hc hm => ?_, fun s r aclk cclk tclk ha hd => ?_, fun s r ns hst hd => ?_⟩
  · obtain ⟨hcnt, hlost, -⟩ := (s.region r.val).stretch_counts n
    refine ⟨_, congrArg Host.Outcome.next (if_pos ⟨hc, hm⟩), ?_⟩
    rw [State.region_setRegion_same]
    exact ⟨hcnt, hlost, OnlyRegion.setRegion _ _ _, rfl⟩
  · refine ⟨_, congrArg Host.Outcome.next (if_pos ⟨ha, hm⟩), ?_⟩
    rw [State.region_setRegion_same]
    exact ⟨Region.rd_count_same _ _ _ (by decide), OnlyRegion.setRegion _ _ _, rfl⟩
  · have hexec : exec (.currentLimit r a n) s =
        .next (s.setRegion r.val ((((s.region r.val).wr PWR_VA_CUR a).count PWR_LIM_CNT_CNT n).stretch n)) :=
      (if_neg (by rw [s.alive_of_computing r.val hc]; decide)).trans (if_pos ⟨hc, hm⟩)
    obtain ⟨hcnt, -, hother⟩ := Region.stretch_counts (((s.region r.val).wr PWR_VA_CUR a).count PWR_LIM_CNT_CNT n) n
    refine ⟨_, hexec, ?_⟩
    rw [State.region_setRegion_same]
    refine ⟨Region.rd_wr_same _ _ _ (by decide), ?_, ?_, OnlyRegion.setRegion _ _ _⟩
    · rw [hother _ (by decide) (by decide)]
      exact Region.rd_count_same _ _ _ (by decide)
    · rw [hcnt, Region.rd_count_ne _ _ _ _ (by decide)]
      rfl
  · obtain ⟨t, hexec, hreg, hframe⟩ := almanacDebit_spec s r aclk cclk tclk ha hd
    obtain ⟨hused, hslot, hnoSlot, hev, hhold⟩ := (s.region r.val).debit_compared aclk cclk tclk
    refine ⟨t, hexec, ?_⟩
    rw [hreg]
    exact ⟨hused, hslot, hnoSlot, hev, hhold, hframe⟩
  · obtain ⟨t, hexec, hother, hused, hdrive⟩ := relockLock_spec s r ns hst hd
    obtain ⟨hstate, hns, hleak⟩ := (s.region r.val).relocked_reads ns
    rw [State.region_setRegion_same] at hused
    rw [State.region_setRegion_same] at hdrive
    exact ⟨t, hexec, (hdrive DRV_STATUS_STATE rfl).trans hstate, (hdrive DRV_STATUS_RELOCK_NS rfl).trans hns, hused.trans hleak,
      fun k hk => (hother k hk).trans (State.region_setRegion_ne s _ hk)⟩

end Sys2Proof.Machine
end

section
namespace Sys2Proof.Machine

/-! ## An overrun over foreign counts (R65) -/

/-- A slot with work and a budget of 1 µJ. -/
def workSlot : Slot :=
  { budget := 1, work := true, newset := false, seed := false, list := false, reserve := 0, set := 0, drainAt := 0, gate := false }

/-- A RUNNING, ACTIVE region with an armed tick and SLIP 0, whose running counts hold a word for TCK_RSTATUS, a register that counts nothing. The
state's type allows it, and the latch of the tick instant writes the word, SLIP = 5, over the register. -/
def foreignCount : State :=
  State.reset.setRegion 0 { (Region.reset.wr PWR_STATUS_STATE 2).wr TCK_RSCHED_STATE 2 with
    armed := true, slot := some workSlot, cnt := [(TCK_RSTATUS_SLIP.off, TCK_RSTATUS_SLIP.put 0 5)] }

/-- SLIP of region 0 after its tick instant. -/
def State.slipAfterTick (s : State) : Option Nat :=
  match exec (.tickInstant 0 ⟨0, false⟩) s with
  | .next t => some ((t.region 0).rd TCK_RSTATUS_SLIP)
  | _ => none

theorem foreignCount_slip : (foreignCount.region 0).rd TCK_RSTATUS_SLIP = 0 ∧ foreignCount.slipAfterTick = some 6 := by decide +kernel

/-- Refutes O7: the statement's hypotheses do not bound the running counts, and from `foreignCount` the overrun takes SLIP from 0 to 6. -/
theorem not_tickOverrun : ¬ Obligations.TickOverrun := by
  unfold Obligations.TickOverrun
  intro h
  obtain ⟨t, hexec, -, hslip, -⟩ := h foreignCount 0 ⟨0, false⟩ workSlot (by decide +kernel) (by decide +kernel) (by decide +kernel) (by decide +kernel)
    (by decide) (by decide +kernel) (by decide +kernel)
  obtain ⟨hbefore, hafter⟩ := foreignCount_slip
  have hslip : (t.region 0).rd TCK_RSTATUS_SLIP = min 255 ((foreignCount.region 0).rd TCK_RSTATUS_SLIP + 1) := hslip
  rw [State.slipAfterTick, hexec] at hafter
  rw [hbefore] at hslip
  have hsix : (t.region 0).rd TCK_RSTATUS_SLIP = 6 := Option.some.inj hafter
  rw [hsix] at hslip
  exact absurd hslip (by decide)

end Sys2Proof.Machine
end

section
namespace Sys2Proof.Machine

/-! ## HOLD (R81, R175) -/

/-- Every firing command of an element is a firing of its context with an operation and the plan of that operation (R175, R180). -/
theorem exec_firing (c : ClusterId) (e : Fin 32) (x : Fin 8) (upsets : List Nat) :
    ∀ i ∈ firings c e x upsets, ∃ (op : Nat) (plan : View → Option Plan) (u : List Nat),
      ∀ s, exec i s = .next (s.fire c.val e.val x.val op plan u) := by
  simp only [firings, passers, List.map_cons, List.map_nil, List.cons_append, List.nil_append, List.forall_mem_cons, List.not_mem_nil, false_imp_iff,
    implies_true, and_true]
  and_intros <;> exact ⟨_, _, _, fun _ => rfl⟩

theorem State.fire_held (s : State) {c : Nat} (h : s.held c = true) (e i op : Nat) (plan : View → Option Plan) (upsets : List Nat) :
    s.fire c e i op plan upsets = s := by
  unfold State.fire
  simp [h]

theorem execContextRunEmit_held (s : State) (c : ClusterId) (h : s.held c.val = true) (e : Fin 32) (x : Fin 8) :
    execContextRunEmit c e x s = .next s := by
  unfold execContextRunEmit
  simp [h]

theorem State.muCanStart_held (s : State) {i : Nat} (h : s.held i = true) (m : MuCmd) (sparse : Bool) : s.muCanStart i m sparse = false := by
  simp [State.muCanStart, h]

theorem State.muBegin_held (s : State) {i : Nat} (h : s.held i = true) (sparse : Bool) (upsets bad : List Nat) :
    s.muBegin i sparse upsets bad = s := by
  unfold State.muBegin
  dsimp only
  split
  · rfl
  · rw [State.muCanStart_held s h, if_neg (by decide)]

/-- Settles O27: a firing, an emission in RUN and a start of a matrix command each ask that no HOLD is in force. -/
theorem holdStopsNewWork : Obligations.HoldStopsNewWork := by
  unfold Obligations.HoldStopsNewWork
  intro s c e x u b hheld i hi
  rw [List.mem_append] at hi
  rcases hi with hfire | hother
  · obtain ⟨op, plan, upsets, hexec⟩ := exec_firing c e x u i hfire
    rw [hexec, State.fire_held s hheld]
  · simp only [List.mem_cons, List.not_mem_nil, or_false] at hother
    rcases hother with rfl | rfl | rfl
    · exact execContextRunEmit_held s c hheld e x
    · exact congrArg Host.Outcome.next (State.muBegin_held s hheld false u b)
    · exact congrArg Host.Outcome.next (State.muBegin_held s hheld true u b)

end Sys2Proof.Machine
end

section
namespace Sys2Proof.Machine

/-! ## A port that goes DOWN (R336) -/

/-- t differs from s in the ports, in the dome controller and in the host bridge alone. -/
abbrev OnlyPortsDomeHost (s t : State) : Prop := { t with ports := s.ports, dome := s.dome, host := s.host } = s

theorem OnlyPortsDomeHost.refl (s : State) : OnlyPortsDomeHost s s := rfl

theorem OnlyPortsDomeHost.trans {s t u : State} (h : OnlyPortsDomeHost s t) (k : OnlyPortsDomeHost t u) : OnlyPortsDomeHost s u :=
  (congrArg (fun x : State => { x with ports := s.ports, dome := s.dome, host := s.host }) k).trans h

theorem OnlyDomeHost.portsToo {s t : State} (h : OnlyDomeHost s t) : OnlyPortsDomeHost s t :=
  congrArg (fun x : State => { x with ports := s.ports }) h

theorem OnlyPortsDomeHost.foldl {α : Type} {f : State → α → State} (hf : ∀ u a, OnlyPortsDomeHost u (f u a)) (l : List α) (s : State) :
    OnlyPortsDomeHost s (l.foldl f s) := by
  induction l generalizing s with
  | nil => exact OnlyPortsDomeHost.refl s
  | cons a l ih => exact (hf s a).trans (ih (f s a))

theorem OnlyPortsDomeHost.regions {s t : State} (h : OnlyPortsDomeHost s t) : t.regions = s.regions := by
  have := congrArg State.regions h
  exact this
theorem OnlyPortsDomeHost.clusters {s t : State} (h : OnlyPortsDomeHost s t) : t.clusters = s.clusters := by
  have := congrArg State.clusters h
  exact this

/-- A message to every UP port is a matter of the ports alone (R342). -/
theorem State.flood_only (s : State) (b : FrameBody) (p : Option Nat) : OnlyPortsDomeHost s (s.flood b p) :=
  OnlyPortsDomeHost.foldl (fun u q => by
    split
    · exact OnlyPortsDomeHost.refl u
    · rfl) s.upPorts s

theorem State.announce_only (s : State) : OnlyPortsDomeHost s s.announce :=
  OnlyPortsDomeHost.trans (t := (s.modDome _).modDome _) rfl (State.flood_only _ _ none)

theorem State.finderStart_only (s : State) : OnlyPortsDomeHost s s.finderStart := by
  unfold State.finderStart
  dsimp only
  split
  · exact OnlyPortsDomeHost.trans (t := s.setDome FND_STATUS_STATE 1) rfl (State.announce_only _)
  · exact OnlyPortsDomeHost.refl s

theorem State.portChanged_only (s : State) : OnlyPortsDomeHost s s.portChanged := by
  unfold State.portChanged
  split
  · exact State.announce_only s
  · split
    · exact State.finderStart_only s
    · exact OnlyPortsDomeHost.refl s

/-- A port's failure leaves every region and every cluster. -/
theorem State.portFail_only (s : State) (p cause : Nat) : OnlyPortsDomeHost s (s.portFail p cause) := by
  unfold State.portFail
  extract_lets z z1 s1 s2
  have h2 : OnlyPortsDomeHost s s2 :=
    OnlyPortsDomeHost.trans (t := s1) rfl ((OnlyDomeHost.hifEvent s1 7).trans (OnlyDomeHost.failure _ 26 _ none 0 false (degrading 26))).portsToo
  split
  · exact OnlyPortsDomeHost.refl s
  · split
    · exact h2.trans (State.portChanged_only s2)
    · exact h2

/-! ## Clusters of a region -/

theorem mem_clustersOf_regionOf (k : Nat) : k ∈ clustersOf (regionOf k) := by
  refine List.mem_map.2 ⟨(k / 80 % 8) * 10 + k % 80 % 10, List.mem_range.2 (by omega), ?_⟩
  simp only [regionOf, cy, cx, cidx]
  omega

theorem State.foldl_setCluster (l : List Nat) (s : State) (c : Cluster) (k : Nat) :
    (l.foldl (fun t i => t.setCluster i c) s).cluster k = if k ∈ l then c else s.cluster k := by
  induction l generalizing s with
  | nil => rfl
  | cons i l ih =>
    rw [List.foldl_cons, ih, State.cluster_setCluster]
    by_cases hi : k = i <;> simp [hi]

/-- A fold of updates of the clusters of a list leaves every other cluster, and all of the module but its clusters. -/
theorem State.foldl_onlyCluster {f : State → Nat → State} (hf : ∀ u i, OnlyCluster u (f u i) i) (l : List Nat) (s : State) :
    { l.foldl f s with clusters := s.clusters } = s ∧ ∀ k, k ∉ l → (l.foldl f s).cluster k = s.cluster k := by
  induction l generalizing s with
  | nil => exact ⟨rfl, fun _ _ => rfl⟩
  | cons i l ih =>
    obtain ⟨hframe, hother⟩ := hf s i
    obtain ⟨hframe', hother'⟩ := ih (f s i)
    refine ⟨(congrArg (fun x : State => { x with clusters := s.clusters }) hframe').trans hframe, fun k hk => ?_⟩
    rw [List.mem_cons, not_or] at hk
    exact (hother' k hk.2).trans (hother k hk.1)

theorem region_of_onlyClusters {s t : State} (h : { t with clusters := s.clusters } = s) (k : Nat) : t.region k = s.region k := by
  have := congrArg State.regions h
  exact congrArg (fun m => SMap.get (fun _ => Region.reset) m k) this

/-! ## The region whose breakers open (R88, R89) -/

/-- Whether the region is DARK once these rails open: VT is among them, as it is with VM, or the region is DARK already (R89). -/
def Region.darkens (g : Region) (rails : Nat) : Bool := (cascade rails).testBit 1 || g.dark

/-- The rails that open read 0 mV and 0 A. -/
def Region.zeroRails (g : Region) (open_ : Nat) : Region :=
  (List.range 6).foldl (fun h k => if open_.testBit k then (h.wr (railMv.getD k PWR_VA_MV) 0).wr (railCur.getD k PWR_VA_CUR) 0 else h) g

/-- PWR_BRK and PWR_STATUS.RAIL_OK as rails open (R88, R98). -/
def Region.tripRails (g : Region) (rails cause : Nat) : Region :=
  ((g.wr PWR_BRK_TRIP (g.rd PWR_BRK_TRIP ||| cascade rails)).wr PWR_BRK_CAUSE (if g.rd PWR_BRK_TRIP = 0 then cause else g.rd PWR_BRK_CAUSE)).wr
    PWR_STATUS_RAIL_OK (g.rd PWR_STATUS_RAIL_OK &&& (63 - cascade rails))

/-- The region as its breakers open: what `State.railsOpen` makes of it. -/
def Region.openRails (g : Region) (rails cause : Nat) : Region :=
  let g1 := (((((g.tripRails rails cause).zeroRails (cascade rails)).wr PWR_STATUS_STATE
    (if g.darkens rails then 6 else if g.power = 1 then 1 else 5)).setDrv 0).setSched 6).wr TCK_RSCHED_PARKDRAIN 0
  if g.darkens rails then g1.setTrc 0 else g1

theorem State.railsOpen_eq (s : State) (r rails cause : Nat) : s.railsOpen r rails cause =
    let s1 := s.setRegion r ((s.region r).openRails rails cause)
    if (s.region r).darkens rails then
      (portsOf r).foldl (fun t p => t.portFail p 1) ((clustersOf r).foldl (fun t i => t.setCluster i Cluster.reset) s1)
    else (clustersOf r).foldl (fun t i => t.modCluster i (fun c => c.lose (cascade rails))) s1 := rfl

theorem railMv_off (k : Nat) : PWR_VA_MV.off ≤ (railMv.getD k PWR_VA_MV).off := by
  match k with
  | 0 | 1 | 2 | 3 | 4 | 5 => decide
  | n + 6 => exact Nat.le_refl _

theorem railCur_off (k : Nat) : PWR_VA_MV.off ≤ (railCur.getD k PWR_VA_CUR).off := by
  match k with
  | 0 | 1 | 2 | 3 | 4 | 5 => decide
  | n + 6 => exact Nat.le_refl _

/-- The registers of the rails lie at the end of the power block: those before it keep their values. -/
theorem Region.rd_zeroRails (g : Region) (open_ : Nat) {f : Fld} (hf : f.off < PWR_VA_MV.off) : (g.zeroRails open_).rd f = g.rd f := by
  unfold Region.zeroRails
  generalize List.range 6 = l
  induction l generalizing g with
  | nil => rfl
  | cons k l ih =>
    rw [List.foldl_cons, ih]
    have hmv := railMv_off k
    have hcur := railCur_off k
    split
    · rw [Region.rd_wr_ne _ _ _ _ (by omega), Region.rd_wr_ne _ _ _ _ (by omega)]
    · rfl

/-- A field apart from the region's power and clock states, its schedule and the rails reads as after the trip. -/
theorem Region.rd_openRails (g : Region) (rails cause : Nat) {f : Fld} (hlt : f.off < PWR_VA_MV.off) (hs : f.off ≠ PWR_STATUS_STATE.off)
    (hd : f.off ≠ DRV_STATUS_STATE.off) (ht : f.off ≠ TRC_STATUS_STATE.off) (hr : f.off ≠ TCK_RSCHED_STATE.off) (ha : f.off ≠ ALM_STATUS_HOLD.off)
    (hb : f.off ≠ ALM_BUDGET_BUDGET.off) : (g.openRails rails cause).rd f = (g.tripRails rails cause).rd f := by
  have hopen : ∀ st, ((((((g.tripRails rails cause).zeroRails (cascade rails)).wr PWR_STATUS_STATE st).setDrv 0).setSched 6).wr TCK_RSCHED_PARKDRAIN 0).rd f =
      (g.tripRails rails cause).rd f := fun st => by
    rw [Region.rd_wr_ne _ TCK_RSCHED_PARKDRAIN f _ hr, Region.rd_setSched_ne _ 6 hr ha hb, Region.rd_setDrv_ne _ 0 hd, Region.rd_wr_ne _ PWR_STATUS_STATE f _ hs,
      Region.rd_zeroRails _ _ hlt]
  unfold Region.openRails
  dsimp only
  split
  · rw [Region.rd_setTrc_ne _ 0 ht, hopen]
  · exact hopen _

theorem Region.rd_setSched_state (g : Region) (st : Nat) : (g.setSched st).rd TCK_RSCHED_STATE = st % 8 := by
  have h1 : (g.wr TCK_RSCHED_STATE st).rd TCK_RSCHED_STATE = st % 8 := Region.rd_wr_same _ _ _ (by decide)
  unfold Region.setSched
  dsimp only
  split
  · exact ((Region.rd_wr_ne _ ALM_STATUS_ZERO TCK_RSCHED_STATE 1 (by decide)).trans ((Region.rd_wr_ne _ ALM_BUDGET_BUDGET TCK_RSCHED_STATE 0 (by decide)).trans
      (Region.rd_wr_ne _ ALM_STATUS_HOLD TCK_RSCHED_STATE 0 (by decide)))).trans h1
  · exact h1

/-- The states of a region whose breakers opened (R89, R209; log entry 21). -/
theorem Region.openRails_states (g : Region) (rails cause : Nat) :
    (g.openRails rails cause).power = (if g.darkens rails then 6 else if g.power = 1 then 1 else 5) ∧
    (g.openRails rails cause).rd DRV_STATUS_STATE = 0 ∧ (g.openRails rails cause).sched_ = 6 ∧
    (g.darkens rails = true → (g.openRails rails cause).rd TRC_STATUS_STATE = 0) := by
  unfold Region.openRails
  generalize (g.tripRails rails cause).zeroRails (cascade rails) = g0
  have hst : (if g.darkens rails then 6 else if g.power = 1 then 1 else 5) % 8 = if g.darkens rails then 6 else if g.power = 1 then 1 else 5 := by
    split
    · rfl
    · split <;> rfl
  generalize (if g.darkens rails then 6 else if g.power = 1 then 1 else 5) = st at hst ⊢
  cases g.darkens rails <;>
    simp (disch := decide) [Region.power, Region.sched_, Region.rd_setTrc_ne, Region.rd_wr_ne, Region.rd_wr_disjoint, Region.rd_wr_same,
      Region.rd_setSched_ne, Region.rd_setSched_state, Region.rd_setDrv_ne, hst]

/-- PWR_BRK of a region whose breakers opened: the rails join those open, and the first opening leaves its cause (R89). -/
theorem Region.openRails_brk (g : Region) {rails cause : Nat} (hr : cascade rails < 64) (hc : cause < 8) :
    (g.openRails rails cause).rd PWR_BRK_TRIP = g.rd PWR_BRK_TRIP ||| cascade rails ∧
    ((g.openRails rails cause).rd PWR_BRK_CAUSE = if g.rd PWR_BRK_TRIP = 0 then cause else g.rd PWR_BRK_CAUSE) := by
  have htrip : g.rd PWR_BRK_TRIP ||| cascade rails < 2 ^ 6 := Nat.or_lt_two_pow (Fld.rd_lt pageTable g.regs PWR_BRK_TRIP) hr
  have hcause : (if g.rd PWR_BRK_TRIP = 0 then cause else g.rd PWR_BRK_CAUSE) < 2 ^ 3 := by
    split
    · exact hc
    · exact Fld.rd_lt pageTable g.regs PWR_BRK_CAUSE
  simp (disch := decide) only [Region.rd_openRails, Region.tripRails]
  constructor
  · rw [Region.rd_wr_ne _ _ _ _ (by decide), Region.rd_wr_disjoint _ _ _ _ (by decide) (by decide), Region.rd_wr_same _ _ _ (by decide)]
    exact Nat.mod_eq_of_lt htrip
  · rw [Region.rd_wr_ne _ _ _ _ (by decide), Region.rd_wr_same _ _ _ (by decide)]
    exact Nat.mod_eq_of_lt hcause

/-! ## Breakers open (R88, R89, R355) -/

/-- Opening rails is a matter of the region, its clusters, the ports, the dome controller and the bridge; where it makes the region DARK, its clusters'
contents are lost (R89). -/
theorem State.railsOpen_spec (s : State) (r rails cause : Nat) :
    (s.railsOpen r rails cause).region r = (s.region r).openRails rails cause ∧
    (∀ k, k ≠ r → (s.railsOpen r rails cause).region k = s.region k) ∧
    (∀ k, regionOf k ≠ r → (s.railsOpen r rails cause).cluster k = s.cluster k) ∧
    ((s.region r).darkens rails = true → ∀ k, regionOf k = r → (s.railsOpen r rails cause).cluster k = Cluster.reset) := by
  rw [State.railsOpen_eq]
  dsimp only
  generalize (s.region r).openRails rails cause = g
  cases hdark : (s.region r).darkens rails with
  | true =>
    rw [if_pos rfl]
    have hports := OnlyPortsDomeHost.foldl (fun u p => State.portFail_only u p 1) (portsOf r)
      ((clustersOf r).foldl (fun t i => t.setCluster i Cluster.reset) (s.setRegion r g))
    have hclusters := State.foldl_setCluster (clustersOf r) (s.setRegion r g) Cluster.reset
    have hframe := (State.foldl_onlyCluster (fun u i => OnlyCluster.setCluster u i Cluster.reset) (clustersOf r) (s.setRegion r g)).1
    generalize (clustersOf r).foldl (fun t i => t.setCluster i Cluster.reset) (s.setRegion r g) = u at hports hclusters hframe ⊢
    have hregions : ∀ k, ((portsOf r).foldl (fun t p => t.portFail p 1) u).region k = (s.setRegion r g).region k := fun k =>
      (congrArg (fun m => SMap.get (fun _ => Region.reset) m k) hports.regions).trans (region_of_onlyClusters hframe k)
    have hcluster : ∀ k, ((portsOf r).foldl (fun t p => t.portFail p 1) u).cluster k = u.cluster k := fun k =>
      congrArg (fun m => SMap.get (fun _ => Cluster.reset) m k) hports.clusters
    refine ⟨(hregions r).trans (State.region_setRegion_same s r g), fun k hk => (hregions k).trans (State.region_setRegion_ne s g hk), fun k hk => ?_,
      fun _ k hk => ?_⟩
    · rw [hcluster, hclusters, if_neg (fun hm => hk (regionOf_of_mem_clustersOf hm)), State.cluster_setRegion]
    · rw [hcluster, hclusters, if_pos (hk ▸ mem_clustersOf_regionOf k)]
  | false =>
    rw [if_neg (by decide)]
    obtain ⟨hframe, hother⟩ := State.foldl_onlyCluster (fun u i => OnlyCluster.modCluster u i (fun c => c.lose (cascade rails))) (clustersOf r)
      (s.setRegion r g)
    have hregions := region_of_onlyClusters hframe
    exact ⟨(hregions r).trans (State.region_setRegion_same s r g), fun k hk => (hregions k).trans (State.region_setRegion_ne s g hk),
      fun k hk => hother k (fun hm => hk (regionOf_of_mem_clustersOf hm)), fun h => absurd h (by decide)⟩

theorem Pends.setReplace {s : State} {e : Nat} (h : Pends s e) : Pends s.setReplace e := by
  unfold State.setReplace
  split
  · split <;> exact h
  · exact h

theorem State.setReplace_logPend (s : State) : s.setReplace.dome.logPend = s.dome.logPend := by
  unfold State.setReplace
  split
  · split <;> rfl
  · rfl

theorem Pends.occultSoon {s : State} {e : Nat} (h : Pends s e) (i : Nat) : Pends (s.occultSoon i) e := by
  unfold State.occultSoon
  split <;> exact h

theorem State.occultSoon_logPend (s : State) (i : Nat) : (s.occultSoon i).dome.logPend = s.dome.logPend := by
  unfold State.occultSoon
  split <;> rfl

/-- Between s and t one record is made, and no pending event of the bridge goes (R366, R394). -/
def AddsRecord (s t : State) (w : List W32) : Prop := t.dome.logPend = s.dome.logPend ++ [w] ∧ ∀ e < 32, Pends s e → Pends t e

/-- A recorded failure of any code makes its record, whatever else it leads to (R366). -/
theorem State.failure_record (s : State) {code : Nat} (hu : unrecorded code = false) (region : Nat) (loc : Option Nat) (detail : Nat) (suspect degr : Bool) :
    AddsRecord s (s.failure code region loc detail suspect degr) (faultRecord (s.dome.logSeq + 1) (s.dome.ticks - 1) code region loc detail
      (recordResult code suspect degr) s.dome.ctr.starts) := by
  unfold State.failure
  extract_lets s1 s2 s3 s4
  generalize hw : faultRecord _ _ code region loc detail (recordResult code suspect degr) _ = w
  have h1 : AddsRecord s s1 w := by
    unfold s1
    rw [hu, ← hw]
    exact ⟨rfl, fun _ _ h => h⟩
  have h2 : AddsRecord s s2 w := by
    unfold s2
    split
    · exact ⟨(congrArg Dome.logPend (State.domEvent_dome s1 _)).trans h1.1, fun e he h => Pends.domEvent (h1.2 e he h) he _⟩
    · exact h1
  have h3 : AddsRecord s s3 w := by
    unfold s3
    split
    · exact ⟨(State.setReplace_logPend s2).trans h2.1, fun e he h => Pends.setReplace (h2.2 e he h)⟩
    · exact h2
  have h4 : AddsRecord s s4 w := by
    unfold s4
    split
    · split
      · exact ⟨(State.occultSoon_logPend s3 _).trans h3.1, fun e he h => Pends.occultSoon (h3.2 e he h) _⟩
      · exact h3
    · exact h3
  split
  · exact h4
  · exact h4

/-- The newest record that waits is one of a code and a region (R367). -/
theorem AddsRecord.newest {s t : State} {seq tick code region detail result starts : Nat}
    (h : AddsRecord s t (faultRecord seq tick code region none detail result starts)) (hr : code + 256 * region < 2 ^ 15) :
    (t.dome.logPend.getLast?).map (fun (w : List W32) => (w.getD 3 0).toNat % 2 ^ 15) = some (code + 256 * region) := by
  obtain ⟨hpend, -⟩ := h
  rw [hpend, List.getLast?_concat, Option.map_some]
  have hw : (BitVec.ofNat 32 (code + region * 256)).toNat % 2 ^ 15 = code + 256 * region := by
    rw [BitVec.toNat_ofNat]
    omega
  exact congrArg some hw

/-- What every opening of a powered region's breakers shows: the region, the power event, the newest record, and what stays as it was. -/
theorem State.breakers_spec (s : State) {r rails cause : Nat} (hr : r < 112) (hp : (s.region r).power ≠ 0)
    (hnew : ((s.region r).rd PWR_BRK_TRIP ||| cascade rails) ≠ (s.region r).rd PWR_BRK_TRIP) :
    (s.breakers r rails cause).region r = (s.region r).openRails rails cause ∧ Pends (s.breakers r rails cause) 4 ∧
    ((s.breakers r rails cause).dome.logPend.getLast?).map (fun (w : List W32) => (w.getD 3 0).toNat % 2 ^ 15) =
      some ((if cause = 1 then 15 else 16) + 256 * r) ∧
    ((s.region r).darkens rails = true → ∀ k, regionOf k = r → (s.breakers r rails cause).cluster k = Cluster.reset) ∧
    (∀ k, k ≠ r → (s.breakers r rails cause).region k = s.region k) ∧
    ∀ k, regionOf k ≠ r → (s.breakers r rails cause).cluster k = s.cluster k := by
  have hbreak : s.breakers r rails cause = let s1 := (s.railsOpen r rails cause).hifEvent 4
      s1.regionFailure (if cause = 1 then 15 else 16) r (s1.region r).brk := if_neg (not_or.2 ⟨hp, hnew⟩)
  obtain ⟨hregion, hregions, hclusters, hlost⟩ := s.railsOpen_spec r rails cause
  rw [hbreak]
  dsimp only
  have hpend : Pends ((s.railsOpen r rails cause).hifEvent 4) 4 := pends_hifEvent _ (by decide)
  have hevent := OnlyDomeHost.hifEvent (s.railsOpen r rails cause) 4
  have hcode : (if cause = 1 then 15 else 16) = 15 ∨ (if cause = 1 then 15 else 16) = 16 := by split <;> simp
  generalize (if cause = 1 then 15 else 16) = code at hcode ⊢
  generalize (s.railsOpen r rails cause).hifEvent 4 = s1 at hpend hevent ⊢
  have hu : unrecorded code = false := by rcases hcode with rfl | rfl <;> rfl
  have hall := hevent.trans (OnlyDomeHost.failure s1 code r none (s1.region r).brk false (degrading code))
  have hrec := State.failure_record s1 hu r none (s1.region r).brk false (degrading code)
  have hcluster : ∀ k, (s1.regionFailure code r (s1.region r).brk).cluster k = (s.railsOpen r rails cause).cluster k := fun k =>
    congrArg (fun m => SMap.get (fun _ => Cluster.reset) m k) hall.clusters
  exact ⟨(hall.region r).trans hregion, hrec.2 4 (by decide) hpend, hrec.newest (by omega), fun hd k hk => (hcluster k).trans (hlost hd k hk),
    fun k hk => (hall.region k).trans (hregions k hk), fun k hk => (hcluster k).trans (hclusters k hk)⟩

/-- With all six rails among those that open, TRIP shows all of them. -/
theorem Region.trip_all (g : Region) : g.rd PWR_BRK_TRIP ||| cascade 63 = 63 := by
  have hall : ∀ n < 64, n ||| 63 = 63 := by decide
  exact hall _ (Fld.rd_lt pageTable g.regs PWR_BRK_TRIP)

/-- All breakers of a powered region open with a cause other than overcurrent: DARK, with the record of code 16 (R90, R92, R96). -/
theorem State.breakers_all (s : State) {r cause : Nat} (hr : r < 112) (hp : (s.region r).power ≠ 0) (ht : (s.region r).rd PWR_BRK_TRIP ≠ 63)
    (hc : cause < 8) (h1 : cause ≠ 1) :
    ((s.breakers r 63 cause).region r).rd PWR_BRK_TRIP = 63 ∧
    ((s.region r).rd PWR_BRK_TRIP = 0 → ((s.breakers r 63 cause).region r).rd PWR_BRK_CAUSE = cause) ∧
    ((s.breakers r 63 cause).region r).power = 6 ∧ ((s.breakers r 63 cause).region r).rd DRV_STATUS_STATE = 0 ∧
    ((s.breakers r 63 cause).region r).rd TRC_STATUS_STATE = 0 ∧
    ((s.breakers r 63 cause).dome.logPend.getLast?).map (fun (w : List W32) => (w.getD 3 0).toNat % 2 ^ 15) = some (16 + 256 * r) ∧
    (∀ k, regionOf k = r → (s.breakers r 63 cause).cluster k = Cluster.reset) ∧ (∀ k, k ≠ r → (s.breakers r 63 cause).region k = s.region k) ∧
    ∀ k, regionOf k ≠ r → (s.breakers r 63 cause).cluster k = s.cluster k := by
  obtain ⟨hregion, -, hlog, hlost, hother, hclusters⟩ := s.breakers_spec (rails := 63) (cause := cause) hr hp
    (by rw [Region.trip_all]; exact fun h => ht h.symm)
  obtain ⟨htrip, hcause⟩ := (s.region r).openRails_brk (rails := 63) (by decide) hc
  obtain ⟨hpower, hdrv, -, htrc⟩ := (s.region r).openRails_states 63 cause
  rw [if_neg h1] at hlog
  rw [Region.trip_all] at htrip
  rw [hregion]
  exact ⟨htrip, fun h0 => hcause.trans (if_pos h0), hpower.trans (if_pos rfl), hdrv, htrc rfl, hlog, hlost rfl, hother, hclusters⟩

/-- The rails that open with one rail: VT is among them where it is VT or VM (R89). -/
theorem cascade_single (rail : Fin 6) : cascade (2 ^ rail.val) < 64 ∧ ((cascade (2 ^ rail.val)).testBit 1 = true ↔ rail.val = 1 ∨ rail.val = 5) := by
  revert rail
  decide

/-- Settles O12: BREAKER_TRIP above and at or below the trip level, FORCE_DARK, DARK_THRESHOLD and RAMP_FAIL. -/
theorem breakersOpen : Obligations.BreakersOpen := by
  unfold Obligations.BreakersOpen
  refine ⟨fun s r rail a ha hp hclosed hnew => ?_, fun s r rail a ha hp hclosed => ?_, fun s r hopen hp ht => ?_, fun s r hp ht => ?_, fun s r hp ht => ?_⟩
  · have hon : ¬((s.region r.val).power = 0 ∨ ((s.region r.val).rd PWR_BRK_TRIP).testBit rail.val = true) := by simp [hp, hclosed]
    have hexec : exec (.breakerTrip r rail a) s = .next (s.breakers r.val (2 ^ rail.val) 1) := (if_neg hon).trans (if_pos ha)
    obtain ⟨hregion, hpend, hlog, -, hother, hclusters⟩ := s.breakers_spec (cause := 1) r.isLt hp hnew
    obtain ⟨hlt, hvt⟩ := cascade_single rail
    obtain ⟨htrip, hcause⟩ := (s.region r.val).openRails_brk (cause := 1) hlt (by decide)
    obtain ⟨hpower, hdrv, hsched, -⟩ := (s.region r.val).openRails_states (2 ^ rail.val) 1
    have hdark : (s.region r.val).darkens (2 ^ rail.val) = true ↔ rail.val = 1 ∨ rail.val = 5 ∨ (s.region r.val).power = 6 := by
      rw [Region.darkens, Bool.or_eq_true, hvt, Region.dark, beq_iff_eq, or_assoc]
    simp only [hdark] at hpower
    refine ⟨_, hexec, ?_⟩
    rw [hregion]
    exact ⟨htrip, hcause, hpower, hdrv, hsched, hpend, hlog, hother, fun k _ hk => hclusters k hk⟩
  · have hon : ¬((s.region r.val).power = 0 ∨ ((s.region r.val).rd PWR_BRK_TRIP).testBit rail.val = true) := by simp [hp, hclosed]
    refine ⟨_, (if_neg hon).trans (if_neg (Nat.not_lt.2 ha)), ?_⟩
    have hwidth : ∀ k : Fin 6, (railCur.getD k.val PWR_VA_CUR).lo + (railCur.getD k.val PWR_VA_CUR).width ≤ 32 := by decide
    rw [State.region_setRegion_same]
    exact ⟨Region.rd_wr_same _ _ _ (hwidth rail), OnlyRegion.setRegion _ _ _, (RegionRegs.refl _ _).wr _ _ (List.mem_singleton.2 rfl)⟩
  · have hexec : exec (.forceDark r) s = .next ((s.modRegion r.val (fun g => g.wr PWR_CTRL_FORCE_DARK 1)).breakers r.val 63 4) := if_pos hopen
    have hregs : ∀ f : Fld, f.off ≠ PWR_CTRL_FORCE_DARK.off →
        ((s.modRegion r.val (fun g => g.wr PWR_CTRL_FORCE_DARK 1)).region r.val).rd f = (s.region r.val).rd f := fun f hf => by
      rw [State.region_modRegion_same]
      exact Region.rd_wr_ne _ _ _ _ hf
    have htrip := hregs PWR_BRK_TRIP (by decide)
    obtain ⟨hall, hcause, hpower, hdrv, htrc, hlog, hlost, hother, hclusters⟩ := (s.modRegion r.val (fun g => g.wr PWR_CTRL_FORCE_DARK 1)).breakers_all
      (cause := 4) r.isLt (by rw [Region.power, hregs _ (by decide)]; exact hp) (by rw [htrip]; exact ht) (by decide) (by decide)
    exact ⟨_, hexec, hall, fun h0 => hcause (htrip.trans h0), hpower, hdrv, htrc, hlog, fun k _ hk => hlost k hk,
      fun k hk => (hother k hk).trans (State.region_setRegion_ne s _ hk), fun k _ hk => hclusters k hk⟩
  · obtain ⟨hall, hcause, hpower, hdrv, -, hlog, -, hother, -⟩ := s.breakers_all (cause := 2) r.isLt hp ht (by decide) (by decide)
    exact ⟨_, rfl, hall, hcause, hpower, hdrv, hlog, hother⟩
  · obtain ⟨hall, hcause, hpower, -, -, hlog, -, hother, -⟩ := s.breakers_all (cause := 6) r.isLt (by rw [hp]; decide) ht (by decide) (by decide)
    exact ⟨_, if_pos hp, hall, hcause, hpower, hlog, hother⟩

end Sys2Proof.Machine
end

section
namespace Sys2Proof.Machine

/-! ## The end of a ramp (R53, R96) -/

/-- The rails of a region whose ramp ended: ACTIVE, all good, each at its voltage (R88, R96). -/
def Region.railsGood (g : Region) : Region :=
  (((((((g.wr PWR_STATUS_STATE 2).wr PWR_STATUS_RAIL_OK 63).wr PWR_VA_MV (800 + 5 * g.rd DRV_ACTIVE_VCODE)).wr PWR_VT_MV 850).wr PWR_VS_MV 900).wr
    PWR_VDC_MV 1100).wr PWR_VDP_MV 2500).wr PWR_VM_MV 900

/-- A region whose ramp ended, before a park may begin: each generator that is OFF acquires (R53). -/
def Region.ramped (g : Region) : Region :=
  let g1 := if g.rd DRV_STATUS_STATE = 0 then g.railsGood.setDrv 1 else g.railsGood
  if g.rd TRC_STATUS_STATE = 0 then g1.setTrc 1 else g1

theorem exec_rampDone (s : State) (r : RegionId) (hp : (s.region r.val).power = 1) (ht : (s.region r.val).rd PWR_BRK_TRIP = 0) :
    exec (.rampDone r) s = .next (s.setRegion r.val (s.region r.val).ramped.parkBegin) := if_pos ⟨hp, ht⟩

theorem Region.rd_ramped_ne (g : Region) {f : Fld} (hd : f.off ≠ DRV_STATUS_STATE.off) (ht : f.off ≠ TRC_STATUS_STATE.off) :
    g.ramped.rd f = g.railsGood.rd f := by
  unfold Region.ramped
  dsimp only
  split <;> split <;> simp only [Region.rd_setTrc_ne _ _ ht, Region.rd_setDrv_ne _ _ hd]

theorem Region.ramped_generators (g : Region) :
    (g.ramped.rd DRV_STATUS_STATE = if g.rd DRV_STATUS_STATE = 0 then 1 else g.rd DRV_STATUS_STATE) ∧
    (g.ramped.rd TRC_STATUS_STATE = if g.rd TRC_STATUS_STATE = 0 then 1 else g.rd TRC_STATUS_STATE) := by
  have hdrv : g.railsGood.rd DRV_STATUS_STATE = g.rd DRV_STATUS_STATE := by simp (disch := decide) [Region.railsGood, Region.rd_wr_ne]
  have htrc : g.railsGood.rd TRC_STATUS_STATE = g.rd TRC_STATUS_STATE := by simp (disch := decide) [Region.railsGood, Region.rd_wr_ne]
  unfold Region.ramped
  by_cases h1 : g.rd DRV_STATUS_STATE = 0 <;> by_cases h2 : g.rd TRC_STATUS_STATE = 0 <;>
    simp (disch := decide) [h1, h2, Region.rd_setTrc_ne, Region.rd_setDrv_ne, hdrv, htrc]

theorem Region.ramped_rails (g : Region) : g.ramped.power = 2 ∧ g.ramped.rd PWR_STATUS_RAIL_OK = 63 ∧
    g.ramped.rd PWR_VA_MV = (800 + 5 * g.rd DRV_ACTIVE_VCODE) % 2 ^ PWR_VA_MV.width ∧ g.ramped.rd PWR_VT_MV = 850 ∧ g.ramped.rd PWR_VS_MV = 900 ∧
    g.ramped.rd PWR_STATUS_PARK_CAUSE = g.rd PWR_STATUS_PARK_CAUSE ∧ g.ramped.sched_ = g.sched_ := by
  simp (disch := decide) [Region.power, Region.sched_, Region.rd_ramped_ne, Region.railsGood, Region.rd_wr_ne, Region.rd_wr_disjoint, Region.rd_wr_same]

/-- A region with no park cause does not begin to park. -/
theorem Region.parkBegin_none (g : Region) (h : g.rd PWR_STATUS_PARK_CAUSE = 0) : g.parkBegin = g := if_neg (fun hc => hc.1 h)

/-- The region after RAMP_DONE: ACTIVE, or PARKING where a cause is present and nothing defers it, with its rails good and its generators started (R53, R96). -/
theorem Region.ramped_parkBegin (g : Region) :
    (g.rd PWR_STATUS_PARK_CAUSE = 0 → g.ramped.parkBegin.power = 2) ∧
    (g.rd PWR_STATUS_PARK_CAUSE ≠ 0 → g.sched_ ≠ 3 → g.rd DRV_STATUS_STATE ≠ 3 → g.ramped.parkBegin.power = 3) ∧
    g.ramped.parkBegin.rd PWR_STATUS_RAIL_OK = 63 ∧
    g.ramped.parkBegin.rd PWR_VA_MV = (800 + 5 * g.rd DRV_ACTIVE_VCODE) % 2 ^ PWR_VA_MV.width ∧ g.ramped.parkBegin.rd PWR_VT_MV = 850 ∧
    g.ramped.parkBegin.rd PWR_VS_MV = 900 ∧
    (g.ramped.parkBegin.rd DRV_STATUS_STATE = if g.rd DRV_STATUS_STATE = 0 then 1 else g.rd DRV_STATUS_STATE) ∧
    (g.ramped.parkBegin.rd TRC_STATUS_STATE = if g.rd TRC_STATUS_STATE = 0 then 1 else g.rd TRC_STATUS_STATE) := by
  obtain ⟨hpower, hok, hva, hvt, hvs, hcause, hsched⟩ := g.ramped_rails
  obtain ⟨hdrv, htrc⟩ := g.ramped_generators
  have hkeep : ∀ f : Fld, f.off ≠ TCK_RSCHED_STATE.off → f.off ≠ PWR_STATUS_STATE.off → g.ramped.parkBegin.rd f = g.ramped.rd f :=
    fun f hs hp => Region.rd_parkBegin _ hs (.inl hp)
  refine ⟨fun h0 => ?_, fun h0 hs hd => Region.parkBegin_power _ (by rwa [hcause]) hpower ?_ (by rwa [hsched]), ?_,
    (hkeep _ (by decide) (by decide)).trans hva, (hkeep _ (by decide) (by decide)).trans hvt, (hkeep _ (by decide) (by decide)).trans hvs,
    (hkeep _ (by decide) (by decide)).trans hdrv, (hkeep _ (by decide) (by decide)).trans htrc⟩
  · rw [Region.parkBegin_none _ (hcause.trans h0), hpower]
  · rw [hdrv]
    split
    · decide
    · exact hd
  · rw [Region.rd_parkBegin _ (by decide) (.inr (by decide)), hok]

/-! ## The gate of a park (R80, R93) -/

/-- A region whose clocks are gated with its drain unfinished: PARKED, VS lowered, the waiting events debited, and all else retained. -/
theorem Region.parkGate_undrained (g : Region) :
    (g.parkGate true).power = 4 ∧ (g.parkGate true).rd PWR_STATUS_UNDRAINED = 1 ∧ (g.parkGate true).rd PWR_VS_MV = 700 ∧
    (∀ o, o ∉ [PWR_STATUS_STATE.off, PWR_VS_MV.off] → Regs.word pageTable (g.parkGate true).regs o = Regs.word pageTable g.regs o) ∧
    { g.parkGate true with regs := g.regs, parkedTick := g.parkedTick, used := g.used, balance := g.balance, ev := g.ev } = g ∧
    (g.parkGate true).used = g.used + g.eventEnergy := by
  have hrd : ∀ f : Fld, (g.parkGate true).rd f = (((g.wr PWR_STATUS_STATE 4).wr PWR_STATUS_UNDRAINED 1).wr PWR_VS_MV 700).rd f := fun _ => rfl
  have hregs : RegionRegs g (((g.wr PWR_STATUS_STATE 4).wr PWR_STATUS_UNDRAINED 1).wr PWR_VS_MV 700) [PWR_STATUS_STATE.off, PWR_VS_MV.off] :=
    (((RegionRegs.refl g _).wr _ _ (by decide)).wr _ _ (by decide)).wr _ _ (by decide)
  refine ⟨?_, ?_, ?_, hregs.2, rfl, rfl⟩
  · rw [Region.power, hrd]
    simp (disch := decide) [Region.rd_wr_ne, Region.rd_wr_disjoint, Region.rd_wr_same]
  · rw [hrd]
    simp (disch := decide) [Region.rd_wr_ne, Region.rd_wr_same]
  · exact (hrd PWR_VS_MV).trans (Region.rd_wr_same _ _ _ (by decide))

/-! ## A power wave (R409) -/

/-- n regions from region b on, each changed by f. -/
def State.modRegionsFrom (s : State) (b n : Nat) (f : Region → Region) : State := (List.range n).foldl (fun t j => t.modRegion (b + j) f) s

theorem State.modRegionsFrom_succ (s : State) (b n : Nat) (f : Region → Region) :
    s.modRegionsFrom b (n + 1) f = (s.modRegionsFrom b n f).modRegion (b + n) f := by
  rw [State.modRegionsFrom, List.range_succ, List.foldl_append]
  rfl

theorem State.region_modRegionsFrom (s : State) (b n : Nat) (f : Region → Region) (k : Nat) :
    (s.modRegionsFrom b n f).region k = if b ≤ k ∧ k < b + n then f (s.region k) else s.region k := by
  induction n with
  | zero => exact (if_neg (by omega)).symm
  | succ n ih =>
    rw [State.modRegionsFrom_succ, State.region_modRegion]
    by_cases hk : k = b + n
    · subst hk
      rw [if_pos rfl, if_pos (by omega), ih, if_neg (by omega)]
    · rw [if_neg hk, ih]
      by_cases hin : b ≤ k ∧ k < b + n
      · rw [if_pos hin, if_pos (by omega)]
      · rw [if_neg hin, if_neg (by omega)]

theorem State.modRegionsFrom_only (s : State) (b n : Nat) (f : Region → Region) : OnlyRegions s (s.modRegionsFrom b n f) := by
  induction n with
  | zero => rfl
  | succ n ih =>
    rw [State.modRegionsFrom_succ]
    exact ih

/-- A region of a wave: one that is OFF begins its ramp, FREE with ZERO set (R409, R455). -/
def Region.wave (g : Region) : Region := if g.power = 0 then (g.wr PWR_STATUS_STATE 1).wr ALM_STATUS_ZERO 1 else g

theorem exec_powerWave (s : State) (hs : s.dome.starting = true) (hw : s.dome.waves < 7) (h3 : s.dome_ CAT_STATUS_STEP = 3) :
    exec .powerWave s = .next ((s.modRegionsFrom (16 * s.dome.waves) 16 Region.wave).modDome (fun d => { d with waves := s.dome.waves + 1 })) :=
  if_pos ⟨hs, hw, h3⟩

theorem Region.wave_power (g : Region) (h : g.power = 0) : g.wave.power = 1 := by
  rw [Region.wave, if_pos h]
  exact (Region.rd_wr_ne _ _ _ _ (by decide)).trans (Region.rd_wr_same _ _ _ (by decide))

end Sys2Proof.Machine
end

section
namespace Sys2Proof.Machine

/-! ## A sensor conversion (R91, R92) -/

/-- Field k keeps its value when f is written: it lies in another register, or shares no bit with f. -/
abbrev Fld.Apart (f k : Fld) : Prop := k.off ≠ f.off ∨ k.lo + k.width ≤ 32 ∧ (f.lo + f.width ≤ k.lo ∨ k.lo + k.width ≤ f.lo)

theorem Region.rd_wr_apart (g : Region) (f k : Fld) (v : Nat) (h : Fld.Apart f k) : (g.wr f v).rd k = g.rd k := by
  rcases h with h | ⟨hk, h⟩
  · exact Region.rd_wr_ne g f k v h
  · exact Region.rd_wr_disjoint g f k v hk h

/-- The greatest of a start value and of f over a list: no less than each, and one of them. -/
theorem foldl_max_spec (f : Nat → Nat) (l : List Nat) (a : Nat) :
    a ≤ l.foldl (fun m k => max m (f k)) a ∧ (∀ k ∈ l, f k ≤ l.foldl (fun m k => max m (f k)) a) ∧
    (l.foldl (fun m k => max m (f k)) a = a ∨ ∃ k ∈ l, f k = l.foldl (fun m k => max m (f k)) a) := by
  induction l generalizing a with
  | nil => simp
  | cons j l ih =>
    obtain ⟨hstart, hall, hone⟩ := ih (max a (f j))
    rw [List.foldl_cons]
    refine ⟨by omega, fun k hk => ?_, ?_⟩
    · rcases List.mem_cons.1 hk with rfl | hk
      · omega
      · exact hall k hk
    · rcases hone with hone | ⟨k, hk, hone⟩
      · rcases Nat.le_total a (f j) with hle | hle
        · exact .inr ⟨j, List.mem_cons_self, by omega⟩
        · exact .inl (by omega)
      · exact .inr ⟨k, List.mem_cons_of_mem j hk, hone⟩

/-- The readings of region r's sensors that a conversion stores. -/
def sensorTemps (r : Nat) (l : List Nat) : SMap Nat :=
  (List.range 18).foldl (fun m k => if hasSensor r k then SMap.set (fun _ => 0) m k (l.getD k 0 % 2048) else m) []

/-- What sensor k reads: 0 where the region has none of that index. -/
def sensorReading (r : Nat) (l : List Nat) (k : Nat) : Nat := if hasSensor r k then l.getD k 0 % 2048 else 0

theorem sensorReading_lt (r : Nat) (l : List Nat) (k : Nat) : sensorReading r l k < 2048 := by
  unfold sensorReading
  split <;> omega

theorem hasSensor_lt {r k : Nat} (h : hasSensor r k = true) : k < 18 := by
  simp only [hasSensor, Bool.or_eq_true, Bool.and_eq_true, decide_eq_true_eq] at h
  omega

theorem hasSensor_inner {r k : Nat} (h : k < 16) : hasSensor r k = true := by simp [hasSensor, h]

/-- The sensors in edge clusters exist from index 16 on (R91). -/
theorem hasSensor_of_le {r j k : Nat} (h : hasSensor r k = true) (hj : j ≤ k) : hasSensor r j = true := by
  simp only [hasSensor, Bool.or_eq_true, Bool.and_eq_true, decide_eq_true_eq] at h ⊢
  omega

theorem get_sensorTemps (r : Nat) (l : List Nat) (k : Nat) : SMap.get (fun _ => 0) (sensorTemps r l) k = sensorReading r l k := by
  have hfold : ∀ (ks : List Nat) (m : SMap Nat),
      SMap.get (fun _ => 0) (ks.foldl (fun m k => if hasSensor r k then SMap.set (fun _ => 0) m k (l.getD k 0 % 2048) else m) m) k =
        if k ∈ ks ∧ hasSensor r k = true then l.getD k 0 % 2048 else SMap.get (fun _ => 0) m k := by
    intro ks
    induction ks with
    | nil => simp
    | cons j ks ih =>
      intro m
      rw [List.foldl_cons, ih]
      by_cases hjk : k = j
      · subst hjk
        by_cases hs : hasSensor r k = true <;> simp [hs]
      · by_cases hs : hasSensor r j = true <;> simp [hs, hjk, SMap.get_set_ne]
  rw [sensorTemps, hfold, sensorReading]
  by_cases hs : hasSensor r k = true
  · simp [hs, hasSensor_lt hs]
  · simp [hs, SMap.get]

/-- The region with its readings, THM_MAX and HOT shown (R91). -/
def Region.sensed (g : Region) (r : Nat) (l : List Nat) : Region :=
  let g1 := { g with temps := sensorTemps r l, converted := true }
  let hot := g1.hottest (List.range 18)
  (g1.wr THM_MAX_TEMP hot).wr THM_STATUS_HOT
    (((List.range 18).filter (fun k => hasSensor r k && SMap.get (fun _ => 0) (sensorTemps r l) k == hot)).headD 0)

/-- Whether the sensors call for the warning (R92). -/
def Region.warns (g : Region) : Bool := g.reaches (g.rd THM_CTRL_WARN) 85 (if g.warnOn then 3 else 0)

/-- The region after its comparison with the warning thresholds (R92). -/
def Region.warned (g : Region) : Region :=
  { (if g.warns = true ∧ g.warnOn = false then g.wr THM_STATUS_WARN 1 else g) with warnOn := g.warns }

/-- Whether the sensors call for the emergency (R92). -/
def Region.emergent (g : Region) : Bool := g.reaches 110 95 (if g.rd THM_STATUS_EMERG = 1 then 5 else 0)

/-- The region after its comparison with the emergency thresholds: TCLK halves in an emergency (R55, R92). -/
def Region.emergency (g : Region) : Region :=
  ((g.wr THM_STATUS_EMERG (if g.emergent then 1 else 0)).wr TRC_CTRL_HALF_THM (if g.emergent then 1 else 0)).halfRate

/-- Whether the sensors call for a park that no THERMAL cause asks for yet (R92). -/
def Region.parksHot (g : Region) : Bool := g.reaches (g.rd THM_CTRL_PARK) 105 0 && !(g.rd PWR_STATUS_PARK_CAUSE).testBit 0

/-- The region after its comparison with the park thresholds (R92, R93). -/
def Region.heatPark (g : Region) : Region := if g.parksHot then (g.wr THM_STATUS_PARK 1).parkCause 0 else g

/-- A conversion at a region whose controller runs: readings, warning, emergency, park, in that order, and event THERMAL where the warning or a park begins. -/
theorem exec_sensorConversion (s : State) (r : RegionId) (l : List Nat) (ha : s.alive r.val = true) :
    exec (.sensorConversion r l) s =
      let g2 := (s.region r.val).sensed r.val l
      let s1 := s.setRegion r.val g2.warned.emergency.heatPark
      .next (if (g2.warns && !g2.warnOn) || g2.warned.emergency.parksHot then s1.hifEvent 3 else s1) := if_pos ha

/-- A conversion is a matter of its region and of the bridge's events alone; a park that begins raises event THERMAL (R394). -/
theorem sensorConversion_spec (s : State) (r : RegionId) (l : List Nat) (ha : s.alive r.val = true) :
    ∃ t, exec (.sensorConversion r l) s = .next t ∧ t.region r.val = ((s.region r.val).sensed r.val l).warned.emergency.heatPark ∧
      (((s.region r.val).sensed r.val l).warned.emergency.parksHot = true → Pends t 3) ∧
      (∀ k, k ≠ r.val → t.region k = s.region k) ∧ { t with regions := s.regions, host := s.host } = s := by
  have hexec := exec_sensorConversion s r l ha
  dsimp only at hexec
  generalize ((s.region r.val).sensed r.val l).warned.emergency.heatPark = g at hexec ⊢
  generalize ((s.region r.val).sensed r.val l).warned.emergency.parksHot = park at hexec ⊢
  generalize (((s.region r.val).sensed r.val l).warns && !((s.region r.val).sensed r.val l).warnOn) = warn at hexec
  refine ⟨_, hexec, ?_⟩
  by_cases hev : (warn || park) = true
  · rw [if_pos hev]
    refine ⟨?_, fun _ => pends_hifEvent _ (by decide), fun k hk => ?_, congrArg (fun x : State => { x with regions := s.regions, host := s.host })
      (OnlyHost.hifEvent (s.setRegion r.val g) 3)⟩
    · rw [State.region_hifEvent, State.region_setRegion_same]
    · rw [State.region_hifEvent, State.region_setRegion_ne s g hk]
  · rw [if_neg hev]
    exact ⟨State.region_setRegion_same _ _ _, fun hp => absurd (by rw [hp, Bool.or_true]) hev, fun k hk => State.region_setRegion_ne s g hk, rfl⟩

/-! ### What the comparisons keep -/

theorem Region.rd_sensed_ne (g : Region) (r : Nat) (l : List Nat) {f : Fld} (hm : f.off ≠ THM_MAX_TEMP.off) (hh : Fld.Apart THM_STATUS_HOT f) :
    (g.sensed r l).rd f = g.rd f := (Region.rd_wr_apart _ THM_STATUS_HOT f _ hh).trans (Region.rd_wr_ne _ THM_MAX_TEMP f _ hm)

theorem Region.rd_warned_ne (g : Region) {f : Fld} (h : Fld.Apart THM_STATUS_WARN f) : g.warned.rd f = g.rd f := by
  have hrd : g.warned.rd f = (if g.warns = true ∧ g.warnOn = false then g.wr THM_STATUS_WARN 1 else g).rd f := rfl
  rw [hrd]
  split
  · exact Region.rd_wr_apart g THM_STATUS_WARN f 1 h
  · rfl

theorem Region.rd_emergency_ne (g : Region) {f : Fld} (he : Fld.Apart THM_STATUS_EMERG f) (ht : f.off ≠ TRC_CTRL_HALF.off) : g.emergency.rd f = g.rd f :=
  (Region.rd_wr_ne _ TRC_CTRL_HALF f _ ht).trans ((Region.rd_wr_ne _ TRC_CTRL_HALF_THM f _ ht).trans (Region.rd_wr_apart g THM_STATUS_EMERG f _ he))

theorem Region.rd_parkCause_ne (g : Region) (k : Nat) {f : Fld} (hs : f.off ≠ TCK_RSCHED_STATE.off) (hp : f.off ≠ PWR_STATUS_STATE.off) :
    (g.parkCause k).rd f = g.rd f := (Region.rd_parkBegin _ hs (.inl hp)).trans (Region.rd_wr_ne g PWR_STATUS_PARK_CAUSE f _ hp)

theorem Region.rd_heatPark_ne (g : Region) {f : Fld} (ht : Fld.Apart THM_STATUS_PARK f) (hs : f.off ≠ TCK_RSCHED_STATE.off)
    (hp : f.off ≠ PWR_STATUS_STATE.off) : g.heatPark.rd f = g.rd f := by
  unfold Region.heatPark
  split
  · exact (Region.rd_parkCause_ne _ 0 hs hp).trans (Region.rd_wr_apart g THM_STATUS_PARK f 1 ht)
  · rfl

theorem Region.warned_temps (g : Region) : g.warned.temps = g.temps := by
  have htemps : g.warned.temps = (if g.warns = true ∧ g.warnOn = false then g.wr THM_STATUS_WARN 1 else g).temps := rfl
  rw [htemps]
  split <;> rfl

/-! ### What the comparisons find -/

theorem Region.le_hottest (g : Region) {sensors : List Nat} {k : Nat} (hk : k ∈ sensors) : SMap.get (fun _ => 0) g.temps k ≤ g.hottest sensors :=
  (foldl_max_spec (fun k => SMap.get (fun _ => 0) g.temps k) sensors 0).2.1 k hk

/-- A sensor of the first group at its level reaches it, with or without hysteresis (R92). -/
theorem Region.reaches_inner (g : Region) {k : Nat} (hk : k < 16) (a b below : Nat) (h : 4 * a ≤ SMap.get (fun _ => 0) g.temps k) :
    g.reaches a b below = true := by
  have hle := g.le_hottest (List.mem_range.2 hk)
  simp only [Region.reaches, Bool.or_eq_true, decide_eq_true_eq]
  omega

/-- So does a sensor in an edge cluster (R92). -/
theorem Region.reaches_edge (g : Region) (k : Fin 2) (a b below : Nat) (h : 4 * b ≤ SMap.get (fun _ => 0) g.temps (16 + k.val)) :
    g.reaches a b below = true := by
  have hmem : ∀ j : Fin 2, 16 + j.val ∈ [16, 17] := by decide
  have hle := g.le_hottest (hmem k)
  simp only [Region.reaches, Bool.or_eq_true, decide_eq_true_eq]
  omega

/-- The hottest reading of a conversion. -/
def hottestReading (r : Nat) (l : List Nat) : Nat := (List.range 18).foldl (fun m k => max m (sensorReading r l k)) 0

theorem hottestReading_eq (r : Nat) (l : List Nat) :
    hottestReading r l = (((List.range 18).filter (hasSensor r)).map (fun k => l.getD k 0 % 2048)).foldl max 0 := by
  rw [List.foldl_map, List.foldl_filter, hottestReading]
  congr 1
  funext m k
  unfold sensorReading
  split <;> simp

theorem hottestReading_lt (r : Nat) (l : List Nat) : hottestReading r l < 2048 := by
  obtain ⟨-, -, hone⟩ := foldl_max_spec (sensorReading r l) (List.range 18) 0
  rcases hone with hzero | ⟨k, -, hone⟩
  · rw [hottestReading, hzero]
    decide
  · rw [hottestReading, ← hone]
    exact sensorReading_lt r l k

theorem le_hottestReading (r : Nat) (l : List Nat) {k : Nat} (hk : k < 18) : sensorReading r l k ≤ hottestReading r l :=
  (foldl_max_spec (sensorReading r l) (List.range 18) 0).2.1 k (List.mem_range.2 hk)

/-- Some sensor of the region has the hottest reading. -/
theorem exists_hottest (r : Nat) (l : List Nat) : ∃ k < 18, hasSensor r k = true ∧ sensorReading r l k = hottestReading r l := by
  by_cases hzero : hottestReading r l = 0
  · have hle := le_hottestReading r l (k := 0) (by decide)
    exact ⟨0, by decide, hasSensor_inner (by decide), by omega⟩
  · obtain ⟨-, -, hone⟩ := foldl_max_spec (sensorReading r l) (List.range 18) 0
    obtain ⟨k, hk, hone⟩ := hone.resolve_left hzero
    have hone : sensorReading r l k = hottestReading r l := hone
    refine ⟨k, List.mem_range.1 hk, ?_, hone⟩
    by_contra hs
    rw [← hone, sensorReading, if_neg hs] at hzero
    exact hzero rfl

/-- The first number below n that a test picks. -/
theorem headD_filter_range {n : Nat} {p : Nat → Bool} (h : ∃ k < n, p k = true) :
    ((List.range n).filter p).headD 0 < n ∧ p (((List.range n).filter p).headD 0) = true ∧
      ∀ j < ((List.range n).filter p).headD 0, p j = false := by
  obtain ⟨k, hk, hpk⟩ := h
  rw [List.headD_eq_head?_getD, List.head?_filter]
  cases hfind : (List.range n).find? p with
  | none => exact absurd hpk (List.find?_eq_none.1 hfind k (List.mem_range.2 hk))
  | some i =>
    obtain ⟨hpi, hi, hbefore⟩ := List.find?_range_eq_some.1 hfind
    exact ⟨List.mem_range.1 hi, hpi, fun j hj => by simpa using hbefore j hj⟩

/-- The sensor that HOT shows: the lowest index among those with the hottest reading. -/
def hotSensor (r : Nat) (l : List Nat) : Nat :=
  ((List.range 18).filter (fun k => hasSensor r k && sensorReading r l k == hottestReading r l)).headD 0

theorem hotSensor_spec (r : Nat) (l : List Nat) : hotSensor r l < 18 ∧ hasSensor r (hotSensor r l) = true ∧
    sensorReading r l (hotSensor r l) = hottestReading r l ∧ ∀ k < hotSensor r l, sensorReading r l k < hottestReading r l := by
  obtain ⟨k, hk, hs, hhot⟩ := exists_hottest r l
  obtain ⟨hlt, hpick, hbefore⟩ := headD_filter_range (n := 18) (p := fun k => hasSensor r k && sensorReading r l k == hottestReading r l)
    ⟨k, hk, by simp [hs, hhot]⟩
  change hotSensor r l < 18 at hlt
  change (hasSensor r (hotSensor r l) && sensorReading r l (hotSensor r l) == hottestReading r l) = true at hpick
  change ∀ j < hotSensor r l, _ at hbefore
  rw [Bool.and_eq_true, beq_iff_eq] at hpick
  refine ⟨hlt, hpick.1, hpick.2, fun j hj => ?_⟩
  have hle := le_hottestReading r l (k := j) (by omega)
  have hne := hbefore j hj
  rw [hasSensor_of_le hpick.1 (Nat.le_of_lt hj), Bool.true_and, beq_eq_false_iff_ne] at hne
  omega

theorem Region.sensed_eq (g : Region) (r : Nat) (l : List Nat) :
    g.sensed r l = (({ g with temps := sensorTemps r l, converted := true } : Region).wr THM_MAX_TEMP (hottestReading r l)).wr THM_STATUS_HOT (hotSensor r l) := by
  have hhot : ({ g with temps := sensorTemps r l, converted := true } : Region).hottest (List.range 18) = hottestReading r l := by
    simp only [Region.hottest, hottestReading, get_sensorTemps]
  unfold Region.sensed hotSensor
  simp only [hhot, get_sensorTemps]

/-- THM_MAX and HOT after a conversion (R91; log entry 21). -/
theorem Region.sensed_reads (g : Region) (r : Nat) (l : List Nat) :
    (g.sensed r l).rd THM_MAX_TEMP = hottestReading r l ∧ (g.sensed r l).rd THM_STATUS_HOT = hotSensor r l := by
  obtain ⟨hlt, -⟩ := hotSensor_spec r l
  rw [Region.sensed_eq]
  constructor
  · rw [Region.rd_wr_ne _ _ _ _ (by decide), Region.rd_wr_same _ _ _ (by decide)]
    exact Nat.mod_eq_of_lt (hottestReading_lt r l)
  · rw [Region.rd_wr_same _ _ _ (by decide)]
    exact Nat.mod_eq_of_lt (lt_of_lt_of_le hlt (by decide))

theorem Region.sensed_temps (g : Region) (r : Nat) (l : List Nat) (k : Nat) :
    SMap.get (fun _ => 0) (g.sensed r l).temps k = sensorReading r l k := get_sensorTemps r l k

/-- A region in an emergency shows it and runs TCLK at half rate (R55, R92). -/
theorem Region.emergency_reads (g : Region) (h : g.emergent = true) :
    g.emergency.rd THM_STATUS_EMERG = 1 ∧ g.emergency.rd TRC_CTRL_HALF_THM = 1 ∧ g.emergency.rd TRC_CTRL_HALF = 1 := by
  rw [Region.emergency, h, if_pos rfl, Region.halfRate]
  refine ⟨?_, ?_, ?_⟩
  · simp (disch := decide) [Region.rd_wr_ne, Region.rd_wr_same]
  · simp (disch := decide) [Region.rd_wr_disjoint, Region.rd_wr_same]
  · rw [Region.rd_wr_flag _ _ _ (by decide) (by decide)]
    simp (disch := decide) [Region.rd_wr_same]

/-- A park for heat with no cause present before: THM_STATUS and the cause, and an ACTIVE region with nothing to defer it begins to park (R92, R93). -/
theorem Region.heatPark_reads (g : Region) (h : g.parksHot = true) (hc : g.rd PWR_STATUS_PARK_CAUSE = 0) :
    g.heatPark.rd THM_STATUS_PARK = 1 ∧ g.heatPark.rd PWR_STATUS_PARK_CAUSE = 1 ∧
    (g.power = 2 → g.rd DRV_STATUS_STATE ≠ 3 → g.sched_ ≠ 3 → g.heatPark.power = 3) := by
  have heq : g.heatPark = ((g.wr THM_STATUS_PARK 1).wr PWR_STATUS_PARK_CAUSE 1).parkBegin := by
    rw [Region.heatPark, if_pos h, Region.parkCause, Region.rd_wr_ne _ _ _ _ (by decide), hc]
    rfl
  have hcause : ((g.wr THM_STATUS_PARK 1).wr PWR_STATUS_PARK_CAUSE 1).rd PWR_STATUS_PARK_CAUSE = 1 := Region.rd_wr_same _ _ _ (by decide)
  rw [heq]
  refine ⟨?_, ?_, fun hp hd hs => Region.parkBegin_power _ (by rw [hcause]; decide) ?_ ?_ ?_⟩
  · rw [Region.rd_parkBegin _ (by decide) (.inl (by decide)), Region.rd_wr_ne _ _ _ _ (by decide)]
    exact Region.rd_wr_same _ _ _ (by decide)
  · rw [Region.rd_parkBegin _ (by decide) (.inr (by decide)), hcause]
  · rw [Region.power, Region.rd_wr_disjoint _ _ _ _ (by decide) (by decide), Region.rd_wr_ne _ _ _ _ (by decide)]
    exact hp
  · rw [Region.rd_wr_ne _ _ _ _ (by decide), Region.rd_wr_ne _ _ _ _ (by decide)]
    exact hd
  · rw [Region.sched_, Region.rd_wr_ne _ _ _ _ (by decide), Region.rd_wr_ne _ _ _ _ (by decide)]
    exact hs

/-- The readings that the comparisons of a conversion use are those that it stores. -/
theorem Region.warned_sensed_temps (g : Region) (r : Nat) (l : List Nat) (k : Nat) :
    SMap.get (fun _ => 0) (g.sensed r l).warned.temps k = sensorReading r l k := by
  rw [Region.warned_temps, Region.sensed_temps]

theorem Region.emergency_warned_sensed_temps (g : Region) (r : Nat) (l : List Nat) (k : Nat) :
    SMap.get (fun _ => 0) (g.sensed r l).warned.emergency.temps k = sensorReading r l k := Region.warned_sensed_temps g r l k

theorem sensorConversion_emergency (s : State) (r : RegionId) (l : List Nat) (ha : s.alive r.val = true)
    (hem : ((s.region r.val).sensed r.val l).warned.emergent = true) :
    ∃ t, exec (.sensorConversion r l) s = .next t ∧ (t.region r.val).rd THM_STATUS_EMERG = 1 ∧ (t.region r.val).rd TRC_CTRL_HALF_THM = 1 ∧
      (t.region r.val).rd TRC_CTRL_HALF = 1 ∧ (∀ k, k ≠ r.val → t.region k = s.region k) ∧ { t with regions := s.regions, host := s.host } = s := by
  obtain ⟨t, hexec, hregion, -, hframe⟩ := sensorConversion_spec s r l ha
  obtain ⟨hemerg, hthm, hhalf⟩ := Region.emergency_reads _ hem
  refine ⟨t, hexec, ?_⟩
  rw [hregion]
  simp (disch := decide) only [Region.rd_heatPark_ne, hemerg, hthm, hhalf, true_and]
  exact hframe

/-- Up to the park's comparison a conversion keeps every register but THM_STATUS, THM_MAX and TRC_CTRL. -/
theorem Region.rd_emergency_sensed (g : Region) (r : Nat) (l : List Nat) {f : Fld} (hs : f.off ≠ THM_STATUS_HOT.off)
    (hm : f.off ≠ THM_MAX_TEMP.off) (ht : f.off ≠ TRC_CTRL_HALF.off) :
    (g.sensed r l).warned.emergency.rd f = g.rd f :=
  (Region.rd_emergency_ne _ (.inl hs) ht).trans ((Region.rd_warned_ne _ (.inl hs)).trans (Region.rd_sensed_ne g r l hm (.inl hs)))

/-- A conversion that finds a park threshold crossed with no park cause present. -/
theorem sensorConversion_park (s : State) (r : RegionId) (l : List Nat) (ha : s.alive r.val = true)
    (hreach : ((s.region r.val).sensed r.val l).warned.emergency.reaches (((s.region r.val).sensed r.val l).warned.emergency.rd THM_CTRL_PARK) 105 0 = true)
    (hc : (s.region r.val).rd PWR_STATUS_PARK_CAUSE = 0) :
    ∃ t, exec (.sensorConversion r l) s = .next t ∧ (t.region r.val).rd THM_STATUS_PARK = 1 ∧ (t.region r.val).rd PWR_STATUS_PARK_CAUSE = 1 ∧ Pends t 3 ∧
      ((s.region r.val).power = 2 → (s.region r.val).rd DRV_STATUS_STATE ≠ 3 → (s.region r.val).sched_ ≠ 3 → (t.region r.val).power = 3) ∧
      (∀ k, k ≠ r.val → t.region k = s.region k) ∧ { t with regions := s.regions, host := s.host } = s := by
  obtain ⟨t, hexec, hregion, hpend, hframe⟩ := sensorConversion_spec s r l ha
  have hkeep : ∀ f : Fld, f.off ≠ THM_STATUS_HOT.off → f.off ≠ THM_MAX_TEMP.off → f.off ≠ TRC_CTRL_HALF.off →
      ((s.region r.val).sensed r.val l).warned.emergency.rd f = (s.region r.val).rd f :=
    fun _ => Region.rd_emergency_sensed (s.region r.val) r.val l
  have hcause := (hkeep PWR_STATUS_PARK_CAUSE (by decide) (by decide) (by decide)).trans hc
  have hpower := hkeep PWR_STATUS_STATE (by decide) (by decide) (by decide)
  have hdrv := hkeep DRV_STATUS_STATE (by decide) (by decide) (by decide)
  have hsched := hkeep TCK_RSCHED_STATE (by decide) (by decide) (by decide)
  generalize ((s.region r.val).sensed r.val l).warned.emergency = g at *
  have hpark : g.parksHot = true := by
    rw [Region.parksHot, hreach, hcause]
    decide
  obtain ⟨hshow, hnow, hbegin⟩ := Region.heatPark_reads g hpark hcause
  refine ⟨t, hexec, ?_⟩
  rw [hregion]
  exact ⟨hshow, hnow, hpend hpark, fun hp hd hs => hbegin (hpower.trans hp) (fun h => hd (hdrv.symm.trans h)) (fun h => hs (hsched.symm.trans h)), hframe⟩

/-- Settles O13: RAMP_DONE, PARK_DRAIN_TIMEOUT, POWER_WAVE and SENSOR_CONVERSION. -/
theorem rampParkAndHeat : Obligations.RampParkAndHeat := by
  unfold Obligations.RampParkAndHeat
  refine ⟨fun s r hp ht => ?_, fun s r hp => ?_, fun s hs hw h3 => ?_, fun s r l ha => ?_, fun s r l k ha hk hl => ?_, fun s r l k ha hl => ?_,
    fun s r l k ha hc hl => ?_⟩
  · obtain ⟨hactive, hparking, hok, hva, hvt, hvs, hdrv, htrc⟩ := (s.region r.val).ramped_parkBegin
    refine ⟨_, exec_rampDone s r hp ht, ?_⟩
    rw [State.region_setRegion_same]
    exact ⟨hactive, hparking, hok, hva, hvt, hvs, hdrv, htrc, OnlyRegion.setRegion _ _ _⟩
  · obtain ⟨hpower, hundrained, hvs, hwords, hfields, hused⟩ := (s.region r.val).parkGate_undrained
    refine ⟨_, congrArg Host.Outcome.next (if_pos hp), ?_⟩
    rw [State.region_modRegion_same]
    exact ⟨hpower, hundrained, hvs, by simp [Region.computing, hpower], OnlyRegion.modRegion _ _ _, hwords, hfields, hused⟩
  · have hregion := s.region_modRegionsFrom (16 * s.dome.waves) 16 Region.wave
    refine ⟨_, exec_powerWave s hs hw h3, ?_, fun k hlo hhi hoff => ?_, fun k hout => ?_, ?_⟩
    · exact rfl
    · rw [State.region_modDome, hregion, if_pos ⟨hlo, hhi⟩, Region.wave_power _ hoff]
    · rw [State.region_modDome, hregion]
      split
      · exact if_neg (by omega)
      · rfl
    · exact congrArg (fun x : State => { x with dome := s.dome }) (s.modRegionsFrom_only (16 * s.dome.waves) 16 Region.wave)
  · obtain ⟨t, hexec, hregion, -, hframe⟩ := sensorConversion_spec s r l ha
    obtain ⟨hmax, hhot⟩ := (s.region r.val).sensed_reads r.val l
    obtain ⟨hlt, hsensor, hread, hbefore⟩ := hotSensor_spec r.val l
    have hvalue : ∀ k ≤ hotSensor r.val l, sensorReading r.val l k = l.getD k 0 % 2048 := fun k hk => if_pos (hasSensor_of_le hsensor hk)
    refine ⟨t, hexec, ?_⟩
    rw [hregion]
    simp (disch := decide) only [Region.rd_heatPark_ne, Region.rd_emergency_ne, Region.rd_warned_ne, hmax, hhot]
    exact ⟨hottestReading_eq r.val l, hsensor, (hvalue _ (Nat.le_refl _)).symm.trans hread,
      fun k hk => (hvalue k (Nat.le_of_lt hk)) ▸ hbefore k hk, hframe⟩
  · refine sensorConversion_emergency s r l ha (Region.reaches_edge _ k _ _ _ ?_)
    rw [Region.warned_sensed_temps, sensorReading, if_pos hk]
    exact hl
  · refine sensorConversion_emergency s r l ha (Region.reaches_inner _ k.isLt _ _ _ ?_)
    rw [Region.warned_sensed_temps, sensorReading, if_pos (hasSensor_inner k.isLt)]
    exact hl
  · refine sensorConversion_park s r l ha (Region.reaches_inner _ k.isLt _ _ _ ?_) hc
    rw [Region.rd_emergency_sensed _ _ _ (by decide) (by decide) (by decide), Region.emergency_warned_sensed_temps, sensorReading, if_pos (hasSensor_inner k.isLt)]
    exact hl

end Sys2Proof.Machine
end

section
namespace Sys2Proof.Machine

/-! ## The reset contact with a port UP (R336, R446) -/

/-- A module whose region 0 is ACTIVE with every rail closed and carries port 0, which is UP. -/
def poweredPort : State := (State.reset.setRegion 0 (Region.reset.wr PWR_STATUS_STATE 2)).setPort 0 (Port.reset.wr ZL_STATUS_STATE 5)

/-- Code and region of the records that wait after the reset contact goes low. -/
def State.recordsAtReset (s : State) : Option (List Nat) :=
  match execResetN true s with
  | .next t => some (t.dome.logPend.map (fun (w : List W32) => (w.getD 3 0).toNat % 2 ^ 15))
  | _ => none

theorem poweredPort_records : poweredPort.dome.resetLow = false ∧ (poweredPort.region 0).power = 2 ∧ (poweredPort.region 0).rd PWR_BRK_TRIP = 0 ∧
    poweredPort.recordsAtReset = some [26, 16 + 256 * 127] := by decide +kernel

/-- Refutes O14: RESET_N low takes region 0 of `poweredPort` DARK and its UP port with it (R336), so the record of the port's loss (code 26) waits before
the one of code 16, where the statement has that one alone. -/
theorem not_inputPowerAndReset : ¬ Obligations.InputPowerAndReset := by
  unfold Obligations.InputPowerAndReset
  rintro ⟨-, -, -, -, -, -, hreset, -⟩
  obtain ⟨hlow, hpower, htrip, hrecords⟩ := poweredPort_records
  obtain ⟨t, hexec, -, -, hpend, -⟩ := hreset poweredPort hlow
  have hopens : ∃ r : RegionId, (poweredPort.region r.val).power ≠ 0 ∧ (poweredPort.region r.val).rd PWR_BRK_TRIP ≠ 63 := by
    refine ⟨0, ?_, ?_⟩
    · exact fun h => absurd (hpower.symm.trans h) (by decide)
    · exact fun h => absurd (htrip.symm.trans h) (by decide)
  rw [if_pos hopens] at hpend
  rw [State.recordsAtReset, show execResetN true poweredPort = .next t from hexec] at hrecords
  have htwo := hpend.symm.trans (Option.some.inj hrecords)
  exact absurd htwo (by decide)

end Sys2Proof.Machine
end

section
namespace Sys2Proof.Machine

/-! ## Events of an almanac class in a cluster's region (R77, R435) -/

@[simp] theorem Region.waits_event (g : Region) (cls n : Nat) : (g.event cls n).waits cls = g.waits cls + n := SMap.get_set_same _ _ _ _

@[simp] theorem State.region_debit_same (s : State) (c cls n : Nat) :
    (s.debit c cls n).region (regionOf c) = (s.region (regionOf c)).event cls n := State.region_modRegion_same s _ _

/-- A change of a cluster, debited: the cluster and its region's events alone. -/
theorem OnlyClusterEvents.debit {s t : State} {c : Nat} (h : OnlyCluster s t c) (cls n : Nat) : OnlyClusterEvents s (t.debit c cls n) c := by
  obtain ⟨hframe, hothers⟩ := h
  have hregion : ∀ k, t.region k = s.region k := region_of_onlyClusters hframe
  refine ⟨congrArg (fun x : State => { x with regions := s.regions }) hframe, hothers, fun k hk => ?_, ?_⟩
  · exact (State.region_setRegion_ne t _ hk).trans (hregion k)
  · rw [State.region_debit_same, hregion]
    rfl

/-! ## Queues and contexts of an element -/

theorem Elem.queue_setQueue (x : Elem) (q k : Nat) (l : List Tok) : (x.setQueue q l).queue k = if k = q then l else x.queue k :=
  SMap.get_set _ _ _ _ _

theorem Elem.ctx_setCtx (x : Elem) (i j : Nat) (k : Ctx) : (x.setCtx i k).ctx j = if j = i then k else x.ctx j := SMap.get_set _ _ _ _ _

/-- A token that arrives at no faulted context joins its queue (R169). -/
theorem Cluster.elemToken_joins (c : Cluster) {e q : Nat} (t : Tok) (h : (c.elem e).faultedQueue q = false) :
    c.elemToken e q t = c.setElem e ((c.elem e).setQueue q ((c.elem e).queue q ++ [t])) := by
  unfold Cluster.elemToken
  simp only [h, Bool.false_eq_true, if_false]

/-- A token for an element's stop reaches that element (R103). -/
theorem Cluster.deliver_elem (c : Cluster) {r : RingTok} (h : r.dst < 32) : c.deliver r = c.elemToken r.dst r.queue r.tok := if_pos h

/-! ## The outputs of a stop (R177) -/

theorem Cluster.waiting_congr {c d : Cluster} (he : d.elems = c.elems) (ho : d.out = c.out) (stop out : Nat) :
    d.waiting stop out = c.waiting stop out := by
  unfold Cluster.waiting Cluster.elem
  rw [he, ho]

/-- The outputs of an element do not show its queues. -/
theorem Cluster.waiting_setQueue (c : Cluster) {e : Nat} (he : e < 32) (q : Nat) (l : List Tok) (out : Nat) :
    (c.setElem e ((c.elem e).setQueue q l)).waiting e out = c.waiting e out := by
  simp only [Cluster.waiting, if_pos he, Cluster.elem_setElem_same]
  rfl

theorem Cluster.popOut_frame (c : Cluster) (stop out : Nat) : { c.popOut stop out with elems := c.elems, out := c.out } = c := by
  unfold Cluster.popOut
  split <;> rfl

/-- Once the front token has left an output, the next one is in front. -/
theorem Cluster.waiting_popOut (c : Cluster) (stop out : Nat) : (c.popOut stop out).waiting stop out = (c.waiting stop out).drop 1 := by
  unfold Cluster.popOut
  by_cases hstop : stop < 32
  · simp only [Cluster.waiting, if_pos hstop, Cluster.modElem, Cluster.elem_setElem_same]
    split <;> exact List.map_drop ..
  · simp only [Cluster.waiting, if_neg hstop, SMap.get_set_same]

/-- The element whose front token has left, with the token dropped from its output buffer. -/
def Elem.dropOut (x : Elem) (out : Nat) : Elem := if out = 0 then { x with out0 := x.out0.drop 1 } else { x with out1 := x.out1.drop 1 }

theorem Cluster.popOut_elem (c : Cluster) {e : Nat} (he : e < 32) (out : Nat) : c.popOut e out = c.setElem e ((c.elem e).dropOut out) := if_pos he

theorem Elem.dropOut_queue (x : Elem) (out q : Nat) : (x.dropOut out).queue q = x.queue q := by
  unfold Elem.dropOut
  split <;> rfl

theorem Elem.dropOut_faultedQueue (x : Elem) (out q : Nat) : (x.dropOut out).faultedQueue q = x.faultedQueue q := by
  unfold Elem.dropOut
  split <;> rfl

/-! ## RING_INSERT and RING_RESERVE (R105, R106) -/

/-- A cluster after the front token of an output has entered slot j of its ring. -/
def Cluster.inserted (c : Cluster) (stop out : Nat) (k : RingTok) (j : Nat) : Cluster :=
  { c.popOut stop out with
    ringToks := (c.popOut stop out).ringToks ++ [{ k with slot := j }]
    ringResv := (c.popOut stop out).ringResv.erase (k.ring, stop, j) }

theorem Cluster.inserted_rings (c : Cluster) (stop out : Nat) (k : RingTok) (j : Nat) :
    (c.inserted stop out k j).ringToks = c.ringToks ++ [{ k with slot := j }] ∧
    (c.inserted stop out k j).ringResv = c.ringResv.erase (k.ring, stop, j) ∧
    (c.inserted stop out k j).waiting stop out = (c.waiting stop out).drop 1 := by
  have htoks := congrArg Cluster.ringToks (c.popOut_frame stop out)
  have hresv := congrArg Cluster.ringResv (c.popOut_frame stop out)
  refine ⟨congrArg (· ++ _) htoks, congrArg (List.erase · _) hresv, ?_⟩
  exact (Cluster.waiting_congr (c := c.popOut stop out) rfl rfl stop out).trans (c.waiting_popOut stop out)

section
variable {s : State} {c : ClusterId} {stop : Fin 37} {out : Fin 2} {k : RingTok} {rest : List RingTok}
variable (hrun : s.runs c.val = true) (hwait : (s.cluster c.val).waiting stop.val out.val = k :: rest)
include hrun hwait

theorem exec_ringInsert_slot {j : Nat} (hdst : k.dst ≠ stop.val) (hslot : (s.cluster c.val).slotFor k.ring stop.val = some j) :
    exec (.ringInsert c stop out) s =
      .next ((s.setCluster c.val ((s.cluster c.val).inserted stop.val out.val k j)).debit c.val 8 (ringHops stop.val k.dst)) := by
  show execRingInsert c stop out s = _
  unfold execRingInsert
  simp only [hrun, hwait, hdst, hslot, if_true, if_false]
  rfl

theorem exec_ringInsert_bypass (hdst : k.dst = stop.val) :
    exec (.ringInsert c stop out) s = .next ((s.setCluster c.val (((s.cluster c.val).popOut stop.val out.val).deliver k)).modRegion (regionOf c.val)
      (fun g => g.wake k.tok.epoch)) := by
  show execRingInsert c stop out s = _
  unfold execRingInsert
  simp only [hrun, hwait, hdst, if_true]

theorem exec_ringReserve_slot {j : Nat} (hdst : k.dst ≠ stop.val) (hresv : (s.cluster c.val).reserved k.ring stop.val = false)
    (hslot : ((s.cluster c.val).slotsUsed k.ring).find? (fun x => !((s.cluster c.val).slotsResv k.ring).contains x) = some j) :
    exec (.ringReserve c stop out) s =
      .next (s.setCluster c.val { s.cluster c.val with ringResv := (s.cluster c.val).ringResv ++ [(k.ring, stop.val, j)] }) := by
  show execRingReserve c stop out s = _
  unfold execRingReserve
  simp only [hrun, hwait, hdst, hresv, hslot, if_true, if_false, Bool.false_eq_true, or_self]

end

/-- What the bypass leaves of an element's cluster (R105): the token at the back of its queue, the output's next token in front. -/
theorem Cluster.bypass_spec (c : Cluster) {e out : Nat} {k : RingTok} (he : e < 32) (hdst : k.dst = e)
    (hgood : (c.elem e).faultedQueue k.queue = false) :
    (((c.popOut e out).deliver k).elem e).queue k.queue = (c.elem e).queue k.queue ++ [k.tok] ∧
    ((c.popOut e out).deliver k).waiting e out = (c.waiting e out).drop 1 ∧ ((c.popOut e out).deliver k).ringToks = c.ringToks := by
  have helem : (c.popOut e out).elem e = (c.elem e).dropOut out := by rw [Cluster.popOut_elem c he, Cluster.elem_setElem_same]
  have hjoin : (c.popOut e out).deliver k = (c.popOut e out).setElem e
      (((c.popOut e out).elem e).setQueue k.queue (((c.popOut e out).elem e).queue k.queue ++ [k.tok])) := by
    rw [Cluster.deliver_elem _ (hdst ▸ he), hdst]
    exact Cluster.elemToken_joins _ _ (by rw [helem, Elem.dropOut_faultedQueue, hgood])
  rw [hjoin]
  refine ⟨?_, ?_, ?_⟩
  · rw [Cluster.elem_setElem_same, Elem.queue_setQueue, if_pos rfl, helem, Elem.dropOut_queue]
  · rw [Cluster.waiting_setQueue _ he, Cluster.waiting_popOut]
  · rw [Cluster.setElem_ringToks, Cluster.popOut_elem c he, Cluster.setElem_ringToks]

/-! ## A failure found in a cluster (R355) -/

theorem OnlyDomeHost.clusterFailure (s : State) (code i detail : Nat) : OnlyDomeHost s (s.clusterFailure code i detail) :=
  OnlyDomeHost.failure s code _ _ _ _ _

theorem OnlyDomeHost.cluster {s t : State} (h : OnlyDomeHost s t) (i : Nat) : t.cluster i = s.cluster i :=
  congrArg (fun m => SMap.get (fun _ => Cluster.reset) m i) h.clusters

/-- The lowest byte of a record's word 3 is its code, wherever the failure was (R367). -/
theorem faultRecord_code (seq tick region : Nat) {code : Nat} (hc : code < 256) (loc : Option Nat) (detail result starts : Nat) :
    ((faultRecord seq tick code region loc detail result starts).getD 3 0).toNat % 256 = code := by
  unfold faultRecord
  simp only [List.cons_append, List.getD_cons_succ, List.getD_cons_zero, BitVec.toNat_ofNat]
  cases loc with
  | none => dsimp only; omega
  | some i => dsimp only; omega

theorem AddsRecord.newestCode {s t : State} {seq tick code region detail result starts : Nat} {loc : Option Nat}
    (h : AddsRecord s t (faultRecord seq tick code region loc detail result starts)) (hc : code < 256) :
    (t.dome.logPend.getLast?).map (fun (w : List W32) => (w.getD 3 0).toNat % 256) = some code := by
  obtain ⟨hpend, -⟩ := h
  rw [hpend, List.getLast?_concat, Option.map_some]
  exact congrArg some (faultRecord_code seq tick region hc loc detail result starts)

theorem Cluster.rd_wr_disjoint (c : Cluster) (f k : Fld) (v : Nat) (hk : k.lo + k.width ≤ 32) (h : f.lo + f.width ≤ k.lo ∨ k.lo + k.width ≤ f.lo) :
    (c.wr f v).rd k = c.rd k := Regs.rd_wr_disjoint clTable c.regs f k v hk h

/-! ## A parity failure of a ring (R108, R117) -/

/-- A ring parity failure is a matter of the cluster's registers. -/
theorem Cluster.ringErr_keeps (c : Cluster) (ring stop : Nat) (credit : Bool) : (c.ringErr ring stop credit).elems = c.elems ∧
    (c.ringErr ring stop credit).ringToks = c.ringToks ∧ (c.ringErr ring stop credit).ringCreds = c.ringCreds := by
  unfold Cluster.ringErr
  generalize c.rd EL_RING_ERR_PERR = p
  by_cases hp : p = 0 <;> cases credit <;> simp [hp]

theorem Cluster.ringErr_flags (c : Cluster) (ring : Fin 4) (stop : Nat) (credit : Bool) :
    ((c.ringErr ring.val stop credit).rd EL_RING_ERR_PERR).testBit ring.val = true ∧
    (credit = true → (c.ringErr ring.val stop credit).rd EL_RING_ERR_CPERR = 1) := by
  have hperr : ∀ d : Cluster, (((d.wr EL_RING_ERR_PERR (c.rd EL_RING_ERR_PERR ||| 2 ^ ring.val)).rd EL_RING_ERR_PERR).testBit ring.val) = true := by
    intro d
    rw [Cluster.rd_wr_same _ _ _ (by decide), Nat.testBit_mod_two_pow, Nat.testBit_or, Nat.testBit_two_pow_self]
    simp
  unfold Cluster.ringErr
  dsimp only
  cases credit with
  | false => exact ⟨hperr _, fun h => absurd h (by decide)⟩
  | true =>
    refine ⟨?_, fun _ => Cluster.rd_wr_same _ _ _ (by decide)⟩
    rw [if_pos rfl, Cluster.rd_wr_disjoint _ EL_RING_ERR_CPERR _ _ (by decide) (by decide)]
    exact hperr _

/-! ## RING_EJECT (R106, R108) -/

theorem takeFirst_holds {α : Type} {p : α → Bool} {l : List α} {a : α} {rest : List α} (h : takeFirst p l = some (a, rest)) : p a = true := by
  induction l generalizing rest with
  | nil => cases h
  | cons b t ih =>
    unfold takeFirst at h
    split at h
    · next hb =>
      cases h
      exact hb
    · split at h
      · next _ _ htail =>
        cases h
        exact ih htail
      · cases h

/-- The cluster as a token leaves its ring: the token counted, and a parity failure that is not explained by poison noted (R108, R117, R357). -/
def Cluster.offRing (c : Cluster) (t : RingTok) (rest : List RingTok) (good : Bool) : Cluster :=
  let d := { c with ringToks := rest }.count (EL_RING_TOK_TOK.nth t.ring) 1
  if good then d else d.ringErr t.ring t.dst false

/-- The token as it leaves its ring: poisoned where its parity was not good (R108). -/
def RingTok.checked (t : RingTok) (good : Bool) : RingTok := if good then t else { t with tok := { t.tok with poison := true } }

theorem RingTok.checked_fields (t : RingTok) (good : Bool) : (t.checked good).dst = t.dst ∧ (t.checked good).queue = t.queue := by
  cases good <;> exact ⟨rfl, rfl⟩

theorem RingTok.checked_tok (t : RingTok) (parity : Bool) :
    (t.checked (parity || t.tok.poison)).tok = if parity then t.tok else { t.tok with poison := true } := by
  obtain ⟨_, _, _, _, _, ⟨_, _, _, poison⟩, _⟩ := t
  cases parity <;> cases poison <;> rfl

theorem Cluster.offRing_bad (c : Cluster) (t : RingTok) (rest : List RingTok) :
    c.offRing t rest false = ({ c with ringToks := rest }.count (EL_RING_TOK_TOK.nth t.ring) 1).ringErr t.ring t.dst false := by
  simp only [Cluster.offRing, Bool.false_eq_true, if_false]

theorem Cluster.offRing_keeps (c : Cluster) (t : RingTok) (rest : List RingTok) (good : Bool) :
    (c.offRing t rest good).elems = c.elems ∧ (c.offRing t rest good).ringToks = rest := by
  cases good with
  | true => exact ⟨rfl, rfl⟩
  | false =>
    rw [Cluster.offRing_bad]
    obtain ⟨helems, htoks, -⟩ := Cluster.ringErr_keeps ({ c with ringToks := rest }.count (EL_RING_TOK_TOK.nth t.ring) 1) t.ring t.dst false
    exact ⟨helems.trans (Cluster.count_elems _ _ _), htoks.trans (Cluster.count_ringToks _ _ _)⟩

/-- The state as a token reaches its consumer, before any failure is reported. -/
def State.delivered (s : State) (c : Nat) (t : RingTok) (rest : List RingTok) (good : Bool) : State :=
  (s.setCluster c (((s.cluster c).offRing t rest good).deliver (t.checked good))).modRegion (regionOf c) (fun g => (g.chrono 22 1).wake t.tok.epoch)

theorem State.eject_eq (s : State) (c : Nat) (t : RingTok) (rest : List RingTok) (parity : Bool) :
    s.eject c t rest parity =
      let s2 := s.delivered c t rest (parity || t.tok.poison)
      if parity || t.tok.poison then s2 else s2.clusterFailure 3 c ((s2.cluster c).faultWord t.dst) := by
  unfold State.eject State.delivered Cluster.offRing RingTok.checked
  generalize (parity || t.tok.poison) = good
  cases good <;> rfl

theorem exec_ringEject_token {s : State} {c : ClusterId} {stop : Fin 37} {ring : Fin 4} {k : RingTok} {rest : List RingTok} (good : Bool)
    (hrun : s.runs c.val = true)
    (htake : takeFirst (fun u => u.ring == ring.val && u.dst == stop.val && u.src != 33) (s.cluster c.val).ringToks = some (k, rest)) :
    exec (.ringEject c stop ring good) s = .next (s.eject c.val k rest good) := by
  show execRingEject c stop ring good s = _
  unfold execRingEject
  simp only [hrun, htake, if_true]

/-- What the consumer's cluster holds once a token has reached an element's queue. -/
theorem State.delivered_spec (s : State) (c : Nat) {t : RingTok} (rest : List RingTok) (good : Bool) (hdst : t.dst < 32)
    (hf : ((s.cluster c).elem t.dst).faultedQueue t.queue = false) :
    (((s.delivered c t rest good).cluster c).elem t.dst).queue t.queue = ((s.cluster c).elem t.dst).queue t.queue ++ [(t.checked good).tok] ∧
    ((s.delivered c t rest good).cluster c).ringToks = rest ∧
    ((s.delivered c t rest good).cluster c).regs = ((s.cluster c).offRing t rest good).regs := by
  obtain ⟨helems, htoks⟩ := (s.cluster c).offRing_keeps t rest good
  obtain ⟨hd, hq⟩ := t.checked_fields good
  have helem : ((s.cluster c).offRing t rest good).elem t.dst = (s.cluster c).elem t.dst :=
    congrArg (fun m => SMap.get (fun _ => Elem.reset) m t.dst) helems
  have hcluster : (s.delivered c t rest good).cluster c = ((s.cluster c).offRing t rest good).setElem t.dst
      (((s.cluster c).elem t.dst).setQueue t.queue (((s.cluster c).elem t.dst).queue t.queue ++ [(t.checked good).tok])) := by
    rw [State.delivered, State.cluster_modRegion, State.cluster_setCluster_same, Cluster.deliver_elem _ (hd ▸ hdst), hd, hq,
      Cluster.elemToken_joins _ _ (by rw [helem, hf]), helem]
  rw [hcluster]
  refine ⟨?_, htoks, rfl⟩
  rw [Cluster.elem_setElem_same, Elem.queue_setQueue, if_pos rfl]

theorem State.delivered_frame (s : State) (c : Nat) (t : RingTok) (rest : List RingTok) (good : Bool) :
    OnlyClusterRegion s (s.delivered c t rest good) c (regionOf c) :=
  ⟨rfl, fun _ hk => State.cluster_setCluster_ne s _ hk, fun _ hk => State.region_setRegion_ne _ _ hk⟩

/-! ## CREDIT_RETURN (R107, R108, R312) -/

/-- A cluster's elements and credit returns are the same in both states, and every other cluster is. -/
def KeepsRings (s t : State) (c : Nat) : Prop :=
  (t.cluster c).elems = (s.cluster c).elems ∧ (t.cluster c).ringCreds = (s.cluster c).ringCreds ∧ ∀ j, j ≠ c → t.cluster j = s.cluster j

theorem KeepsRings.refl (s : State) (c : Nat) : KeepsRings s s c := ⟨rfl, rfl, fun _ _ => rfl⟩

theorem KeepsRings.trans {s t u : State} {c : Nat} (h : KeepsRings s t c) (k : KeepsRings t u c) : KeepsRings s u c :=
  ⟨k.1.trans h.1, k.2.1.trans h.2.1, fun j hj => (k.2.2 j hj).trans (h.2.2 j hj)⟩

theorem KeepsRings.modCluster (s : State) (c : Nat) {f : Cluster → Cluster} (he : (f (s.cluster c)).elems = (s.cluster c).elems)
    (hr : (f (s.cluster c)).ringCreds = (s.cluster c).ringCreds) : KeepsRings s (s.modCluster c f) c := by
  refine ⟨?_, ?_, fun j hj => State.cluster_setCluster_ne s _ hj⟩
  · rw [State.cluster_modCluster_same, he]
  · rw [State.cluster_modCluster_same, hr]

theorem KeepsRings.modSender (s : State) (c : Nat) (a : Agent) (f : Sender → Sender) : KeepsRings s (s.modSender c a f) c := by
  cases a <;> exact KeepsRings.modCluster s c rfl rfl

theorem KeepsRings.sendPkt (s : State) (c : Nat) (a : Agent) (p : Pkt) : KeepsRings s (s.sendPkt c a p) c := by
  unfold State.sendPkt
  split
  · exact KeepsRings.modCluster s c rfl rfl
  · split
    · exact KeepsRings.modSender s c a _
    · split
      · exact KeepsRings.refl s c
      · exact KeepsRings.modSender s c a _

/-- The credits that go back to other sources are a matter of the transit engine (R312). -/
theorem KeepsRings.creditsDue (s : State) (c : Nat) : KeepsRings s (s.creditsDue c) c := by
  unfold State.creditsDue
  split
  · exact KeepsRings.refl s c
  · unfold State.sendCredits
    split
    · exact KeepsRings.refl s c
    · exact (KeepsRings.modCluster s c rfl rfl).trans (KeepsRings.sendPkt _ c _ _)

theorem Cluster.creditEnter_elems (c : Cluster) (ring : Nat) : (c.creditEnter ring).elems = c.elems := by
  unfold Cluster.creditEnter
  split <;> rfl

section
variable {s : State} {c : ClusterId} {stop : Fin 37} {ring : Fin 4} {k : RingCredit} {rest : List RingCredit}
variable (hrun : s.runs c.val = true)
  (htake : takeFirst (fun (u : RingCredit) => u.ring == ring.val && u.stop == stop.val && u.slot.isSome) (s.cluster c.val).ringCreds = some (k, rest))
include hrun htake

theorem exec_creditReturn_good : exec (.creditReturn c stop ring true) s =
    .next ((s.setCluster c.val (({ s.cluster c.val with ringCreds := rest }.creditEnter ring.val).creditAdd stop.val k.out)).creditsDue c.val) := by
  show execCreditReturn c stop ring true s = _
  unfold execCreditReturn
  simp only [hrun, htake, if_true]

theorem exec_creditReturn_bad : exec (.creditReturn c stop ring false) s =
    .next ((s.setCluster c.val (({ s.cluster c.val with ringCreds := rest }.creditEnter ring.val).ringErr ring.val stop.val true)).clusterFailure 3 c.val
      (({ s.cluster c.val with ringCreds := rest }.creditEnter ring.val).faultWord stop.val)) := by
  show execCreditReturn c stop ring false s = _
  unfold execCreditReturn
  simp only [hrun, htake, if_true, Bool.false_eq_true, if_false]

end

/-- An element counts a credit that has come back, at most sixteen (R107). -/
theorem Cluster.creditAdd_elem (c : Cluster) {e : Nat} (he : e < 32) (b : Nat) : c.creditAdd e b =
    c.setElem e ((c.elem e).wr (EL_OBIND_CREDITS.nth b) (creditUp ((c.elem e).rd (EL_OBIND_CREDITS.nth b)))) := if_pos he

end Sys2Proof.Machine
end

section
namespace Sys2Proof.Machine

/-! ## Tokens move on the rings (R102, R105-R108) -/

theorem ringEject_spec {s : State} {c : ClusterId} {e : Fin 32} {ring : Fin 4} {k : RingTok} {rest : List RingTok} (good : Bool)
    (hrun : s.runs c.val = true)
    (htake : takeFirst (fun u => u.ring == ring.val && u.dst == e.val && u.src != 33) (s.cluster c.val).ringToks = some (k, rest))
    (hf : ((s.cluster c.val).elem e.val).faultedQueue k.queue = false) :
    ∃ t, exec (.ringEject c ⟨e.val, by omega⟩ ring good) s = .next t ∧
      ((t.cluster c.val).elem e.val).queue k.queue =
        ((s.cluster c.val).elem e.val).queue k.queue ++ [if good then k.tok else { k.tok with poison := true }] ∧
      (t.cluster c.val).ringToks = rest ∧
      (good = false → k.tok.poison = false → ((t.cluster c.val).rd EL_RING_ERR_PERR).testBit ring.val = true ∧
        (t.dome.logPend.getLast?).map (fun (w : List W32) => (w.getD 3 0).toNat % 256) = some 3) ∧
      (good = true ∨ k.tok.poison = true → t.dome = s.dome ∧ t.host = s.host) ∧
      (∀ j, j ≠ c.val → t.cluster j = s.cluster j) ∧ ∀ j, j ≠ regionOf c.val → t.region j = s.region j := by
  have hpick := takeFirst_holds htake
  simp only [Bool.and_eq_true, beq_iff_eq] at hpick
  obtain ⟨⟨hring, hdst⟩, -⟩ := hpick
  refine ⟨_, exec_ringEject_token good hrun htake, ?_⟩
  rw [State.eject_eq]
  dsimp only
  obtain ⟨hqueue, htoks, hregs⟩ := s.delivered_spec c.val rest (good || k.tok.poison) (hdst ▸ e.isLt) (hdst ▸ hf)
  obtain ⟨-, hclusters, hregions⟩ := s.delivered_frame c.val k rest (good || k.tok.poison)
  rw [RingTok.checked_tok, hdst] at hqueue
  cases hgood : (good || k.tok.poison) with
  | true =>
    rw [hgood] at hqueue htoks hclusters hregions
    refine ⟨hqueue, htoks, fun hg hp => ?_, fun _ => ⟨rfl, rfl⟩, hclusters, hregions⟩
    rw [hg, hp] at hgood
    cases hgood
  | false =>
    rw [hgood] at hqueue htoks hregs hclusters hregions
    rw [if_neg (by decide)]
    generalize hs2 : s.delivered c.val k rest false = s2 at hqueue htoks hregs hclusters hregions ⊢
    generalize (s2.cluster c.val).faultWord k.dst = detail
    have hfail := OnlyDomeHost.clusterFailure s2 3 c.val detail
    have hrec := State.failure_record s2 (code := 3) rfl (regionOf c.val) (some c.val) detail false (degrading 3)
    rw [hfail.cluster]
    refine ⟨hqueue, htoks, fun _ _ => ⟨?_, hrec.newestCode (by decide)⟩, fun h => ?_, fun j hj => (hfail.cluster j).trans (hclusters j hj),
      fun j hj => (hfail.region j).trans (hregions j hj)⟩
    · rw [Cluster.rd, hregs, Cluster.offRing_bad, hring]
      exact (Cluster.ringErr_flags _ ring k.dst false).1
    · rw [Bool.or_eq_false_iff] at hgood
      rcases h with h | h
      · exact absurd (hgood.1.symm.trans h) (by decide)
      · exact absurd (hgood.2.symm.trans h) (by decide)

/-- Settles O15: each command's effect on the rings, the queues and the credits, from the lemma of that command. -/
theorem ringTokensMove : Obligations.RingTokensMove := by
  unfold Obligations.RingTokensMove
  refine ⟨?_, ?_, ?_, ?_, ?_, ?_⟩
  · intro s c stop out k rest j hrun hwait hdst hslot
    obtain ⟨htoks, hresv, hout⟩ := (s.cluster c.val).inserted_rings stop.val out.val k j
    refine ⟨_, exec_ringInsert_slot hrun hwait hdst hslot, ?_⟩
    rw [State.cluster_debit, State.cluster_setCluster_same, State.region_debit_same, Region.waits_event]
    exact ⟨htoks, by rw [hout, hwait, List.drop_one, List.tail_cons], hresv, rfl, OnlyClusterEvents.debit (OnlyCluster.setCluster s _ _) 8 _⟩
  · intro s c e out k rest hrun hwait hdst hf
    obtain ⟨hqueue, hout, htoks⟩ := (s.cluster c.val).bypass_spec (out := out.val) e.isLt hdst hf
    refine ⟨_, exec_ringInsert_bypass hrun hwait hdst, ?_⟩
    rw [State.cluster_modRegion, State.cluster_setCluster_same]
    exact ⟨hqueue, by rw [hout, hwait, List.drop_one, List.tail_cons], htoks, rfl, fun _ hk => State.cluster_setCluster_ne s _ hk,
      fun _ hk => State.region_setRegion_ne _ _ hk⟩
  · intro s c stop out k rest j hrun hwait hdst hresv hslot
    refine ⟨_, exec_ringReserve_slot hrun hwait hdst hresv hslot, ?_⟩
    rw [State.cluster_setCluster_same]
    exact ⟨rfl, OnlyCluster.setCluster s _ _, rfl⟩
  · intro s c e ring k rest good hrun htake hf
    exact ringEject_spec good hrun htake hf
  · intro s c e ring k rest hrun htake
    refine ⟨_, exec_creditReturn_good hrun htake, ?_⟩
    have helems : ∀ j, ({ s.cluster c.val with ringCreds := rest }.creditEnter ring.val).elem j = (s.cluster c.val).elem j := fun j =>
      congrArg (fun m => SMap.get (fun _ => Elem.reset) m j) (Cluster.creditEnter_elems { s.cluster c.val with ringCreds := rest } ring.val)
    rw [Cluster.creditAdd_elem _ e.isLt, helems]
    generalize { s.cluster c.val with ringCreds := rest }.creditEnter ring.val = d at helems ⊢
    generalize hy : ((s.cluster c.val).elem e.val).wr _ _ = y
    obtain ⟨hdue, hcreds, hothers⟩ := KeepsRings.creditsDue (s.setCluster c.val (d.setElem e.val y)) c.val
    rw [State.cluster_setCluster_same] at hdue hcreds
    have hdueElem : ∀ j, (((s.setCluster c.val (d.setElem e.val y)).creditsDue c.val).cluster c.val).elem j = (d.setElem e.val y).elem j := fun j =>
      congrArg (fun m => SMap.get (fun _ => Elem.reset) m j) hdue
    refine ⟨?_, hcreds, fun j _ hj => ?_, fun j hj => (hothers j hj).trans (State.cluster_setCluster_ne s _ hj)⟩
    · rw [hdueElem, Cluster.elem_setElem_same, ← hy, Elem.rd_wr_same _ _ _ (show 16 + 5 ≤ 32 by decide), creditUp]
      exact Nat.mod_eq_of_lt (by show _ < 32; omega)
    · rw [hdueElem, Cluster.elem_setElem, if_neg hj, helems]
  · intro s c stop ring k rest hrun htake
    refine ⟨_, exec_creditReturn_bad hrun htake, ?_⟩
    have helems := Cluster.creditEnter_elems { s.cluster c.val with ringCreds := rest } ring.val
    generalize { s.cluster c.val with ringCreds := rest }.creditEnter ring.val = d at helems ⊢
    obtain ⟨hperr, hcperr⟩ := d.ringErr_flags ring stop.val true
    obtain ⟨herr, -, hcreds⟩ := d.ringErr_keeps ring.val stop.val true
    have hfail := OnlyDomeHost.clusterFailure (s.setCluster c.val (d.ringErr ring.val stop.val true)) 3 c.val (d.faultWord stop.val)
    rw [hfail.cluster, State.cluster_setCluster_same]
    refine ⟨hcreds, hperr, hcperr rfl, herr.trans helems, fun j hj => ?_⟩
    rw [hfail.cluster, State.cluster_setCluster_ne s _ hj]

end Sys2Proof.Machine
end

section
namespace Sys2Proof.Machine

/-! ## What leaves an element's queues (R107, R171, R195) -/

theorem Elem.rd_wr_disjoint (x : Elem) (f k : Fld) (v : Nat) (hk : k.lo + k.width ≤ 32) (h : f.lo + f.width ≤ k.lo ∨ k.lo + k.width ≤ f.lo) :
    (x.wr f v).rd k = x.rd k := Regs.rd_wr_disjoint elTable x.regs f k v hk h

/-- Element y differs from x in its queues, in its seeds that wait and in the EL_ registers at the offsets given, alone. -/
def Elem.Moves (x y : Elem) (offs : List Nat) : Prop :=
  { y with regs := x.regs, queues := x.queues, seedWait := x.seedWait } = x ∧
    ∀ o, o ∉ offs → Regs.word elTable y.regs o = Regs.word elTable x.regs o

theorem Elem.Moves.refl (x : Elem) (offs : List Nat) : x.Moves x offs := ⟨rfl, fun _ _ => rfl⟩

theorem Elem.Moves.trans {x y z : Elem} {offs : List Nat} (h : x.Moves y offs) (k : y.Moves z offs) : x.Moves z offs :=
  ⟨(congrArg (fun u : Elem => { u with regs := x.regs, queues := x.queues, seedWait := x.seedWait }) k.1).trans h.1,
    fun o ho => (k.2 o ho).trans (h.2 o ho)⟩

theorem Elem.Moves.wr {x y : Elem} {offs : List Nat} (h : x.Moves y offs) {f : Fld} (v : Nat) (hf : f.off ∈ offs) : x.Moves (y.wr f v) offs :=
  ⟨h.1, fun o ho => (Regs.word_wr_ne elTable y.regs f v (fun he => ho (by rwa [he]))).trans (h.2 o ho)⟩

theorem Elem.Moves.dequeue {x y : Elem} {offs : List Nat} (h : x.Moves y offs) (q : Nat) (l : List Tok) (n : Nat) :
    x.Moves ((y.setQueue q l).left q n) offs := h

theorem Elem.Moves.rd {x y : Elem} {offs : List Nat} (h : x.Moves y offs) {f : Fld} (hf : f.off ∉ offs) : y.rd f = x.rd f :=
  congrArg f.of (h.2 f.off hf)

theorem Elem.Moves.keeps {x y : Elem} {offs : List Nat} (h : x.Moves y offs) :
    y.out0 = x.out0 ∧ y.out1 = x.out1 ∧ y.ctxs = x.ctxs ∧ y.mem = x.mem := by
  obtain ⟨hrest, -⟩ := h
  have h0 := congrArg Elem.out0 hrest
  have h1 := congrArg Elem.out1 hrest
  have hc := congrArg Elem.ctxs hrest
  have hm := congrArg Elem.mem hrest
  exact ⟨h0, h1, hc, hm⟩

/-- Cluster d differs from c in the credits on its rings and, at element e, as tokens leave its queues, alone. -/
def Cluster.Moves (c d : Cluster) (e : Nat) (offs : List Nat) : Prop :=
  { d with elems := c.elems, ringCreds := c.ringCreds } = c ∧ (∀ j, j ≠ e → d.elem j = c.elem j) ∧ (c.elem e).Moves (d.elem e) offs

theorem Cluster.Moves.refl (c : Cluster) (e : Nat) (offs : List Nat) : c.Moves c e offs := ⟨rfl, fun _ _ => rfl, Elem.Moves.refl _ _⟩

theorem Cluster.Moves.trans {b c d : Cluster} {e : Nat} {offs : List Nat} (h : b.Moves c e offs) (k : c.Moves d e offs) : b.Moves d e offs :=
  ⟨(congrArg (fun u : Cluster => { u with elems := b.elems, ringCreds := b.ringCreds }) k.1).trans h.1,
    fun j hj => (k.2.1 j hj).trans (h.2.1 j hj), h.2.2.trans k.2.2⟩

theorem Cluster.Moves.setElem {c : Cluster} {e : Nat} {offs : List Nat} {y : Elem} (h : (c.elem e).Moves y offs) : c.Moves (c.setElem e y) e offs :=
  ⟨rfl, fun j hj => (Cluster.elem_setElem c e j y).trans (if_neg hj), (Cluster.elem_setElem_same c e y).symm ▸ h⟩

theorem Cluster.Moves.ringCreds (c : Cluster) (e : Nat) (offs : List Nat) (l : List RingCredit) : c.Moves { c with ringCreds := l } e offs :=
  ⟨rfl, fun _ _ => rfl, Elem.Moves.refl _ _⟩

/-- The offsets of the two bindings' credits. -/
abbrev creditOffs : List Nat := [(EL_OBIND_CREDITS.nth 0).off, (EL_OBIND_CREDITS.nth 1).off]

theorem credits_off_mem {b : Nat} (hb : b < 2) : (EL_OBIND_CREDITS.nth b).off ∈ creditOffs := by
  have hall : ∀ k < 2, (EL_OBIND_CREDITS.nth k).off ∈ creditOffs := by decide
  exact hall b hb

/-- An element that feeds a queue of its own does so by one of its two bindings (R105). -/
theorem Cluster.producer_own {c : Cluster} {e q b lane : Nat} (he : e < 32) (h : c.producer e q = some (e, b, lane)) : b < 2 := by
  unfold Cluster.producer at h
  dsimp only at h
  split at h
  · simp only [Option.some.injEq, Prod.mk.injEq] at h
    omega
  · rw [if_neg (Nat.not_le.2 he)] at h
    split at h
    · simp only [Option.some.injEq, Prod.mk.injEq] at h
      omega
    · split at h
      · simp only [Option.some.injEq, Prod.mk.injEq] at h
        omega
      · split at h <;> simp only [Option.some.injEq, Prod.mk.injEq] at h <;> omega

/-- A credit of an element's queue goes onto a ring, or at once to a binding of the element itself (R105, R107). -/
theorem Cluster.creditBack_cases (c : Cluster) {e : Nat} (he : e < 32) (q : Nat) : (∃ l, c.creditBack e q = { c with ringCreds := l }) ∨
    ∃ b < 2, ∃ v, c.creditBack e q = c.setElem e ((c.elem e).wr (EL_OBIND_CREDITS.nth b) v) := by
  unfold Cluster.creditBack
  cases hprod : c.producer e q with
  | none => exact .inl ⟨c.ringCreds, rfl⟩
  | some r =>
    obtain ⟨p, b, lane⟩ := r
    by_cases hp : p = e
    · subst hp
      exact .inr ⟨b, Cluster.producer_own he hprod, _, (if_pos rfl).trans (Cluster.creditAdd_elem c he b)⟩
    · exact .inl ⟨_, if_neg hp⟩

section
variable {e : Nat} (he : e < 32) {offs : List Nat} (hoffs : creditOffs ⊆ offs)
include he

theorem Cluster.queue_creditBack (c : Cluster) (q k : Nat) : ((c.creditBack e q).elem e).queue k = (c.elem e).queue k := by
  rcases c.creditBack_cases he q with ⟨l, h⟩ | ⟨b, -, v, h⟩
  · rw [h]
    rfl
  · rw [h, Cluster.elem_setElem_same]
    rfl

theorem Cluster.queue_popElem (c : Cluster) (q k : Nat) :
    ((c.popElem e q).elem e).queue k = if k = q then ((c.elem e).queue k).drop 1 else (c.elem e).queue k := by
  have hset : ((c.setElem e (((c.elem e).setQueue q (((c.elem e).queue q).drop 1)).left q 1)).elem e).queue k =
      if k = q then ((c.elem e).queue k).drop 1 else (c.elem e).queue k := by
    rw [Cluster.elem_setElem_same]
    refine (Elem.queue_setQueue (c.elem e) q k _).trans ?_
    split
    · next h => rw [h]
    · rfl
  unfold Cluster.popElem
  dsimp only
  split
  · exact hset
  · exact (Cluster.queue_creditBack he _ q k).trans hset

/-- The heads of different queues leave: every one of these queues loses its head, and no other does. -/
theorem Cluster.queue_foldl_popElem {l : List Nat} (hl : l.Nodup) (c : Cluster) (k : Nat) :
    ((l.foldl (fun a q => a.popElem e q) c).elem e).queue k = if k ∈ l then ((c.elem e).queue k).drop 1 else (c.elem e).queue k := by
  induction l generalizing c with
  | nil => rfl
  | cons q t ih =>
    obtain ⟨hq, ht⟩ := List.nodup_cons.1 hl
    rw [List.foldl_cons, ih ht, Cluster.queue_popElem he]
    by_cases hk : k = q
    · subst hk
      simp [hq]
    · simp [hk]

include hoffs

theorem Cluster.Moves.creditBack (c : Cluster) (q : Nat) : c.Moves (c.creditBack e q) e offs := by
  rcases c.creditBack_cases he q with ⟨l, h⟩ | ⟨b, hb, v, h⟩
  · exact h ▸ Cluster.Moves.ringCreds c e offs l
  · exact h ▸ Cluster.Moves.setElem ((Elem.Moves.refl _ offs).wr v (hoffs (credits_off_mem hb)))

theorem Cluster.Moves.creditsBack (c : Cluster) (q n : Nat) : c.Moves (c.creditsBack e q n) e offs := by
  induction n generalizing c with
  | zero => exact Cluster.Moves.refl c e offs
  | succ n ih => exact (Cluster.Moves.creditBack he hoffs c q).trans (ih _)

theorem Cluster.Moves.popElem (c : Cluster) (q : Nat) : c.Moves (c.popElem e q) e offs := by
  have hset : c.Moves (c.setElem e (((c.elem e).setQueue q (((c.elem e).queue q).drop 1)).left q 1)) e offs :=
    Cluster.Moves.setElem ((Elem.Moves.refl _ offs).dequeue q _ 1)
  unfold Cluster.popElem
  dsimp only
  split
  · exact hset
  · exact hset.trans (Cluster.Moves.creditBack he hoffs _ q)

theorem Cluster.Moves.foldl_popElem (l : List Nat) (c : Cluster) : c.Moves (l.foldl (fun a q => a.popElem e q) c) e offs := by
  induction l generalizing c with
  | nil => exact Cluster.Moves.refl c e offs
  | cons q t ih => exact (Cluster.Moves.popElem he hoffs c q).trans (ih _)

/-- The tokens of a faulted context are discarded with their credits returned (R195). -/
theorem Cluster.Moves.discardInputs (hcnt : EL_CNT_DISCARD_CNT.off ∈ offs) (l : List Nat) (c : Cluster) : c.Moves (c.discardInputs e l) e offs := by
  induction l generalizing c with
  | nil => exact Cluster.Moves.refl c e offs
  | cons q t ih =>
    have hset : c.Moves (c.setElem e ((((c.elem e).setQueue q []).left q ((c.elem e).queue q).length).countStart EL_CNT_DISCARD_CNT
        ((c.elem e).queue q).length)) e offs :=
      Cluster.Moves.setElem (((Elem.Moves.refl _ offs).dequeue q [] _).wr _ hcnt)
    unfold Cluster.discardInputs
    dsimp only
    refine Cluster.Moves.trans ?_ (ih _)
    split
    · exact hset
    · exact hset.trans (Cluster.Moves.creditsBack he hoffs _ q _)

end

end Sys2Proof.Machine
end

section
namespace Sys2Proof.Machine

/-! ## A context faults (R195) -/

/-- The element whose context i has just faulted, its queued tokens not yet discarded. -/
def Elem.faulted (x : Elem) (i cause : Nat) : Elem :=
  let x1 := x.setCtx i { x.ctx i with state := .fault }
  let x2 := if x.rd EL_FAULT_CAUSE = 0 then ((x1.wr EL_FAULT_CTX i).wr EL_FAULT_CAUSE cause).wr EL_FAULT_OP (x.ctxWord i 0 % 64) else x1
  let x3 := x2.wr EL_EVENT_CTX_FAULT 1
  if cause = 2 then x3.wr EL_EVENT_POISON 1 else x3

theorem Cluster.ctxFault_eq (c : Cluster) (e i cause : Nat) :
    c.ctxFault e i cause = (c.setElem e ((c.elem e).faulted i cause)).discardInputs e ((c.elem e).inputs i) := rfl

/-- A fault changes the faulted context and the element's registers alone. -/
theorem Elem.faulted_keeps (x : Elem) (i cause : Nat) :
    (x.faulted i cause).out0 = x.out0 ∧ (x.faulted i cause).out1 = x.out1 ∧ (x.faulted i cause).mem = x.mem ∧
    (x.faulted i cause).ctxs = (x.setCtx i { x.ctx i with state := .fault }).ctxs := by
  unfold Elem.faulted
  generalize x.rd EL_FAULT_CAUSE = first
  by_cases hfirst : first = 0 <;> by_cases hcause : cause = 2 <;> simp [hfirst, hcause] <;> exact ⟨rfl, rfl, rfl⟩

theorem Elem.faulted_event (x : Elem) (i cause : Nat) : (x.faulted i cause).rd EL_EVENT_CTX_FAULT = 1 := by
  have hset : ∀ y : Elem, (y.wr EL_EVENT_CTX_FAULT 1).rd EL_EVENT_CTX_FAULT = 1 := fun y => Elem.rd_wr_same y _ _ (by decide)
  unfold Elem.faulted
  dsimp only
  by_cases hcause : cause = 2
  · rw [if_pos hcause, Elem.rd_wr_disjoint _ EL_EVENT_POISON _ _ (by decide) (by decide), hset]
  · rw [if_neg hcause, hset]

/-- The first fault since ARM is recorded: its context, its cause and its operation. -/
theorem Elem.faulted_record (x : Elem) {i cause : Nat} (hi : i < 8) (hc : cause < 4) (h : x.rd EL_FAULT_CAUSE = 0) :
    (x.faulted i cause).rd EL_FAULT_CAUSE = cause ∧ (x.faulted i cause).rd EL_FAULT_CTX = i ∧
    (x.faulted i cause).rd EL_FAULT_OP = x.ctxWord i 0 % 64 := by
  have hevent : ∀ (y : Elem) (f : Fld), f.off = EL_FAULT_CTX.off →
      (if cause = 2 then (y.wr EL_EVENT_CTX_FAULT 1).wr EL_EVENT_POISON 1 else y.wr EL_EVENT_CTX_FAULT 1).rd f = y.rd f := by
    intro y f hf
    have hne : f.off ≠ EL_EVENT_CTX_FAULT.off := by rw [hf]; decide
    split
    · rw [Elem.rd_wr_ne _ EL_EVENT_POISON f 1 hne, Elem.rd_wr_ne _ EL_EVENT_CTX_FAULT f 1 hne]
    · rw [Elem.rd_wr_ne _ EL_EVENT_CTX_FAULT f 1 hne]
  unfold Elem.faulted
  dsimp only
  rw [if_pos h, hevent _ EL_FAULT_CAUSE rfl, hevent _ EL_FAULT_CTX rfl, hevent _ EL_FAULT_OP rfl]
  refine ⟨?_, ?_, ?_⟩
  · rw [Elem.rd_wr_disjoint _ EL_FAULT_OP _ _ (by decide) (by decide), Elem.rd_wr_same _ _ _ (by decide)]
    exact Nat.mod_eq_of_lt hc
  · rw [Elem.rd_wr_disjoint _ EL_FAULT_OP _ _ (by decide) (by decide), Elem.rd_wr_disjoint _ EL_FAULT_CAUSE _ _ (by decide) (by decide),
      Elem.rd_wr_same _ _ _ (by decide)]
    exact Nat.mod_eq_of_lt hi
  · rw [Elem.rd_wr_same _ _ _ (by decide)]
    exact Nat.mod_mod _ _

/-- The element of a firing that faults, with the firing counted and the pointer past its context (R176). -/
def Elem.tallied (x : Elem) (i : Nat) (vec : Bool) : Elem :=
  { (if vec then x.count EL_CNT_FIRE_V_CNT 1 else x.count EL_CNT_FIRE_S_CNT 1) with ptr := (i + 1) % 8 }

theorem Elem.tallied_keeps (x : Elem) (i : Nat) (vec : Bool) : (x.tallied i vec).regs = x.regs ∧ (x.tallied i vec).out0 = x.out0 ∧
    (x.tallied i vec).out1 = x.out1 ∧ (x.tallied i vec).mem = x.mem := by
  cases vec <;> simp [Elem.tallied]

/-- The cluster after a firing of context i that faults. -/
def Cluster.planFault (c : Cluster) (e i : Nat) (p : Plan) : Cluster := (c.modElem e (fun x => x.tallied i p.vec)).ctxFault e i p.fault

/-- The cluster after a firing of context i without a fault: the heads of the plan's inputs gone, and the plan in effect. -/
def Cluster.planFire (c : Cluster) (e i : Nat) (p : Plan) : Cluster :=
  ((p.pops.filterMap (fun k => ctxIn ((c.elem e).ctxWord i 0) k)).dedup.foldl (fun a q => a.popElem e q) c).modElem e (fun x => x.apply i p)

/-- The state once a plan has its free value. -/
def State.takesFree (s : State) (p : Plan) : State := if p.free then { s with free := s.free + 1 } else s

/-- The state once a plan has taken effect, before its firing is debited. -/
def State.planned (s : State) (c e i : Nat) (p : Plan) : State :=
  if p.fault ≠ 0 then
    let t := (s.takesFree p).setCluster c ((s.cluster c).planFault e i p)
    if p.parity then t.clusterFailure 2 c (((s.cluster c).planFault e i p).faultWord e) else t
  else (s.takesFree p).setCluster c ((s.cluster c).planFire e i p)

theorem State.applyPlan_eq (s : State) (c e i : Nat) (p : Plan) : s.applyPlan c e i p =
    let u := (s.planned c e i p).debit c (if p.vec then 7 else 6) 1
    if p.trunc then u.modRegion (regionOf c) (fun g => g.countStart TCK_RTRUNC_CNT 1) else u := rfl

theorem State.takesFree_eq (s : State) (p : Plan) : ∃ n, s.takesFree p = { s with free := n } := by
  unfold State.takesFree
  split
  · exact ⟨_, rfl⟩
  · exact ⟨s.free, rfl⟩

theorem State.planned_fault_cluster (s : State) (c e i : Nat) {p : Plan} (hf : p.fault ≠ 0) (j : Nat) :
    (s.planned c e i p).cluster j = if j = c then (s.cluster c).planFault e i p else s.cluster j := by
  have hset : ((s.takesFree p).setCluster c ((s.cluster c).planFault e i p)).cluster j =
      if j = c then (s.cluster c).planFault e i p else s.cluster j := by
    obtain ⟨n, hn⟩ := s.takesFree_eq p
    rw [hn]
    exact State.cluster_setCluster _ _ _ _
  unfold State.planned
  rw [if_pos hf]
  dsimp only
  split
  · exact ((OnlyDomeHost.clusterFailure _ _ _ _).cluster j).trans hset
  · exact hset

theorem State.applyPlan_fault_cluster (s : State) (c e i : Nat) {p : Plan} (hf : p.fault ≠ 0) (j : Nat) :
    (s.applyPlan c e i p).cluster j = if j = c then (s.cluster c).planFault e i p else s.cluster j := by
  have hdebit : ((s.planned c e i p).debit c (if p.vec then 7 else 6) 1).cluster j = (s.planned c e i p).cluster j := State.cluster_debit _ _ _ _ _
  rw [← s.planned_fault_cluster c e i hf j, ← hdebit, State.applyPlan_eq]
  dsimp only
  split <;> rfl

/-- A firing whose plan is a fault leaves its context in FAULT, recorded, with nothing emitted or stored (R195). -/
theorem State.applyPlan_faults (s : State) (c : Nat) {e i : Nat} {p : Plan} (he : e < 32) (hi : i < 8) (hf : p.fault ≠ 0) (h4 : p.fault < 4) :
    ContextFaults s (s.applyPlan c e i p) c e i (((s.cluster c).elem e).ctxWord i 0 % 64) p.fault := by
  have hothers : ∀ j, j ≠ c → (s.applyPlan c e i p).cluster j = s.cluster j := fun j hj =>
    (s.applyPlan_fault_cluster c e i hf j).trans (if_neg hj)
  have hcluster := (s.applyPlan_fault_cluster c e i hf c).trans (if_pos rfl)
  unfold ContextFaults
  rw [hcluster, Cluster.planFault, Cluster.ctxFault_eq, Cluster.modElem, Cluster.elem_setElem_same]
  generalize hx : (s.cluster c).elem e = x
  obtain ⟨hregs, ht0, ht1, htm⟩ := x.tallied_keeps i p.vec
  have hrd : ∀ f, (x.tallied i p.vec).rd f = x.rd f := fun f => congrArg (fun r => Regs.rd elTable r f) hregs
  generalize x.tallied i p.vec = y at hrd ht0 ht1 htm
  obtain ⟨hf0, hf1, hfm, hfc⟩ := y.faulted_keeps i p.fault
  have hmoves := (Cluster.Moves.discardInputs he (offs := EL_CNT_DISCARD_CNT.off :: creditOffs) (List.subset_cons_self _ _) List.mem_cons_self
    (y.inputs i) (((s.cluster c).setElem e y).setElem e (y.faulted i p.fault))).2.2
  rw [Cluster.elem_setElem_same] at hmoves
  obtain ⟨hm0, hm1, hmc, hmm⟩ := hmoves.keeps
  refine ⟨?_, fun hfirst => ?_, ?_, hm0.trans (hf0.trans ht0), hm1.trans (hf1.trans ht1), hmm.trans (hfm.trans htm), hothers⟩
  · rw [Elem.ctx, hmc, hfc]
    exact congrArg Ctx.state ((Elem.ctx_setCtx y i i _).trans (if_pos rfl))
  · obtain ⟨hcause, hctx, hop⟩ := y.faulted_record hi h4 ((hrd _).trans hfirst)
    rw [hmoves.rd (by decide), hmoves.rd (by decide), hmoves.rd (by decide)]
    exact ⟨hcause, hctx, hop.trans (congrArg (· % 64) (hrd _))⟩
  · rw [hmoves.rd (by decide), Elem.faulted_event]

end Sys2Proof.Machine
end

section
namespace Sys2Proof.Machine

/-! ## A plan takes effect (R175-R177, R188) -/

/-- The element memory after a plan's store. -/
def Plan.memAfter (p : Plan) (m : Mem) : Mem := match p.store with | some (a, bs) => Mem.write m a bs | none => m

/-- Element y holds the buffers, queues, contexts and pointer of z, memory m, and the EL_ registers of z but for those at the offsets given. -/
def Elem.Shows (z y : Elem) (m : Mem) (offs : List Nat) : Prop :=
  (y.out0 = z.out0 ∧ y.out1 = z.out1 ∧ y.queues = z.queues ∧ y.ctxs = z.ctxs ∧ y.ptr = z.ptr) ∧ y.mem = m ∧
    ∀ o, o ∉ offs → Regs.word elTable y.regs o = Regs.word elTable z.regs o

theorem Elem.Shows.wr {z y : Elem} {m : Mem} {offs : List Nat} (h : z.Shows y m offs) {f : Fld} (v : Nat) (hf : f.off ∈ offs) :
    z.Shows (y.wr f v) m offs :=
  ⟨h.1, h.2.1, fun o ho => (Regs.word_wr_ne elTable y.regs f v (fun he => ho (by rwa [he]))).trans (h.2.2 o ho)⟩

theorem Elem.Shows.count {z y : Elem} {m : Mem} {offs : List Nat} (h : z.Shows y m offs) (f : Fld) (n : Nat) : z.Shows (y.count f n) m offs := h

/-- Writes of the token counters change these registers alone (R173). -/
theorem Elem.foldl_ctr {offs : List Nat} (l : List (Nat × Nat)) (hl : ∀ k ∈ l, (EL_CTR_REMAIN.nth k.1).off ∈ offs) (x : Elem) :
    ∃ r, l.foldl (fun y k => y.wr (EL_CTR_REMAIN.nth k.1) k.2) x = { x with regs := r } ∧
      ∀ o, o ∉ offs → Regs.word elTable r o = Regs.word elTable x.regs o := by
  induction l generalizing x with
  | nil => exact ⟨x.regs, rfl, fun _ _ => rfl⟩
  | cons k t ih =>
    obtain ⟨hk, ht⟩ := List.forall_mem_cons.1 hl
    obtain ⟨r, hfold, hwords⟩ := ih ht (x.wr (EL_CTR_REMAIN.nth k.1) k.2)
    exact ⟨r, hfold, fun o ho => (hwords o ho).trans (Regs.word_wr_ne elTable x.regs _ _ (fun he => ho (by rwa [he])))⟩

/-- The element with context i as a plan leaves it, the plan's tokens in its output buffers, and its pointer past i. -/
def Elem.emitted (x : Elem) (i : Nat) (p : Plan) : Elem :=
  { x.setCtx i p.ctx with out0 := x.out0 ++ p.o0, out1 := x.out1 ++ p.o1, ptr := (i + 1) % 8 }

theorem Elem.apply_shows (x : Elem) (i : Nat) (p : Plan) {offs : List Nat} (hcred : creditOffs ⊆ offs)
    (hctr : ∀ k ∈ p.ctr, (EL_CTR_REMAIN.nth k.1).off ∈ offs) (hresp : ∀ q, p.resp = some q → (EL_QCFG_OUTST.nth q).off ∈ offs) :
    (x.emitted i p).Shows (x.apply i p) (p.memAfter x.mem) offs := by
  unfold Elem.apply
  obtain ⟨r, hfold, hwords⟩ := Elem.foldl_ctr p.ctr hctr (x.setCtx i p.ctx)
  rw [hfold]
  extract_lets y1 x2 x3 x4 x5 x6
  have h2 : (x.emitted i p).Shows x2 x.mem offs := ⟨⟨rfl, rfl, rfl, rfl, rfl⟩, rfl, hwords⟩
  have h3 : (x.emitted i p).Shows x3 x.mem offs :=
    (h2.wr _ (hcred (credits_off_mem (b := 0) (by decide)))).wr _ (hcred (credits_off_mem (b := 1) (by decide)))
  have h4 : (x.emitted i p).Shows x4 (p.memAfter x.mem) offs := by
    obtain ⟨hrest, hmem, hkept⟩ := h3
    unfold x4 Plan.memAfter
    cases p.store with
    | none => exact ⟨hrest, hmem, hkept⟩
    | some w => exact ⟨hrest, congrArg (Mem.write · w.1 w.2) hmem, hkept⟩
  have h5 : (x.emitted i p).Shows x5 (p.memAfter x.mem) offs := by
    unfold x5
    split
    · next q hq => exact h4.wr _ (hresp q hq)
    · exact h4
  have h6 : (x.emitted i p).Shows x6 (p.memAfter x.mem) offs := by
    unfold x6
    split
    · exact h5
    · exact h5
  split
  · exact h6.count _ 1
  · exact h6.count _ 1

theorem ctxWord_lt (x : Elem) (i w : Nat) : x.ctxWord i w < 2 ^ 32 := Fld.rd_lt elTable x.regs (EL_CTX_WORD.nth (4 * i + w))

/-- Word 0 of a context word is its lowest 32 bits (R173). -/
theorem Elem.word_mod (x : Elem) (i : Nat) : x.word i % 2 ^ 32 = x.ctxWord i 0 := by
  have h0 := ctxWord_lt x i 0
  unfold Elem.word
  omega

/-- The inputs of a context are named in word 0 (R173). -/
theorem Elem.ctxIn_word (x : Elem) (i : Nat) {k : Nat} (hk : k < 4) : ctxIn (x.word i) k = ctxIn (x.ctxWord i 0) k := by
  unfold ctxIn
  have hbit : (x.ctxWord i 0).testBit (11 + 4 * k) = (x.word i).testBit (11 + 4 * k) := by
    rw [← Elem.word_mod, Nat.testBit_mod_two_pow]
    simp
    omega
  have hqueue : (x.ctxWord i 0 >>> (8 + 4 * k)) % 8 = (x.word i >>> (8 + 4 * k)) % 8 := by
    rw [← Elem.word_mod, Nat.shiftRight_eq_div_pow, Nat.shiftRight_eq_div_pow]
    interval_cases k <;> omega
  rw [hbit, hqueue]

/-- A firing without a fault that truncates no run leaves what its plan says. -/
theorem State.applyPlan_fires (s : State) (c : Nat) {e i : Nat} {p : Plan} (he : e < 32) (hf : p.fault = 0) (ht : p.trunc = false)
    (hpops : ∀ k ∈ p.pops, k < 4) {offs : List Nat} (hctr : ∀ k ∈ p.ctr, (EL_CTR_REMAIN.nth k.1).off ∈ creditOffs ++ offs)
    (hresp : ∀ q, p.resp = some q → (EL_QCFG_OUTST.nth q).off ∈ creditOffs ++ offs) :
    Fired s (s.applyPlan c e i p) c e i (p.pops.filterMap (ctxIn (((s.cluster c).elem e).word i))) p.o0 p.o1 p.ctx
      (p.memAfter ((s.cluster c).elem e).mem) (if p.vec then 7 else 6) offs := by
  obtain ⟨n, hn⟩ := s.takesFree_eq p
  have happly : s.applyPlan c e i p =
      ({ s with free := n }.setCluster c ((s.cluster c).planFire e i p)).debit c (if p.vec then 7 else 6) 1 := by
    rw [State.applyPlan_eq, State.planned, if_neg (not_not.2 hf), hn]
    dsimp only
    rw [if_neg (by rw [ht]; decide)]
  have hqs : p.pops.filterMap (fun k => ctxIn (((s.cluster c).elem e).ctxWord i 0) k) = p.pops.filterMap (ctxIn (((s.cluster c).elem e).word i)) :=
    List.filterMap_congr (fun k hk => (Elem.ctxIn_word _ i (hpops k hk)).symm)
  rw [happly]
  unfold Fired
  rw [State.cluster_debit, State.cluster_setCluster_same, State.region_debit_same, Region.waits_event, Cluster.planFire, hqs]
  generalize p.pops.filterMap (ctxIn (((s.cluster c).elem e).word i)) = qs
  obtain ⟨hframe, hothers, hmoves⟩ := Cluster.Moves.foldl_popElem he (List.Subset.refl creditOffs) qs.dedup (s.cluster c)
  have hqueue := Cluster.queue_foldl_popElem he (List.nodup_dedup qs) (s.cluster c)
  generalize qs.dedup.foldl (fun a q => a.popElem e q) (s.cluster c) = d at hframe hothers hmoves hqueue
  obtain ⟨hout0, hout1, hctxs, hmem⟩ := hmoves.keeps
  obtain ⟨⟨ha0, ha1, haq, hac, hap⟩, ham, haw⟩ := (d.elem e).apply_shows i p (List.subset_append_left creditOffs offs) hctr hresp
  rw [Cluster.modElem, Cluster.elem_setElem_same]
  have hctx : ∀ j, ((d.elem e).apply i p).ctx j = if j = i then p.ctx else ((s.cluster c).elem e).ctx j := by
    intro j
    have hd : (d.elem e).ctx j = ((s.cluster c).elem e).ctx j := by rw [Elem.ctx, hctxs, ← Elem.ctx]
    rw [← hd, ← Elem.ctx_setCtx, Elem.ctx, hac]
    rfl
  refine ⟨ha0.trans (congrArg (· ++ p.o0) hout0), ha1.trans (congrArg (· ++ p.o1) hout1), fun q => ?_, (hctx i).trans (if_pos rfl),
    fun j hj => (hctx j).trans (if_neg hj), ham.trans (congrArg p.memAfter hmem), hap, rfl, fun o ho => ?_, hframe, fun j hj => ?_,
    OnlyClusterEvents.debit (OnlyCluster.setCluster { s with free := n } c _) _ 1⟩
  · have hq : ((d.elem e).apply i p).queue q = (d.elem e).queue q := by rw [Elem.queue, haq, Elem.queue]; rfl
    rw [hq, hqueue]
    simp only [List.mem_dedup]
  · exact (haw o ho).trans (hmoves.2 o (fun hmem => ho (List.mem_append_left _ hmem)))
  · rw [Cluster.elem_setElem, if_neg hj, hothers j hj]

end Sys2Proof.Machine
end

section
namespace Sys2Proof.Machine

/-! ## The context that fires (R81, R175, R176) -/

theorem State.mayFire_iff (s : State) (c e x op : Nat) : s.mayFire c e x op = true ↔
    s.runs c = true ∧ s.held c = false ∧ (((s.cluster c).elem e).ctx x).state = .wait ∧ ((s.cluster c).elem e).ctxWord x 0 % 64 = op ∧
      ((s.cluster c).elem e).next e (s.region (regionOf c)).drainKind = some x := by
  simp only [State.mayFire, Bool.and_eq_true, Bool.not_eq_true', beq_iff_eq, and_assoc]

/-- The context that may fire does so by its plan. -/
theorem State.fire_planned {s : State} {c e x op : Nat} (hm : s.mayFire c e x op = true) {plan : View → Option Plan} {u : List Nat} {p : Plan}
    (hp : plan (s.fireView c e x u) = some p) : s.fire c e x op plan u = s.applyPlan c e x p := by
  unfold State.fire
  dsimp only
  rw [if_pos ((s.mayFire_iff c e x op).1 hm)]
  unfold State.fireView at hp
  rw [hp]

/-- The operation that a context word names is in its word 0 (R173). -/
theorem Elem.word_op (x : Elem) (i : Nat) : x.word i % 64 = x.ctxWord i 0 % 64 := by
  have h := x.word_mod i
  omega

/-- A context that may fire has a plan, whatever the free value (R175). -/
theorem State.mayFire_plan {s : State} {c e x op : Nat} (hm : s.mayFire c e x op = true) :
    (planOf op { s.fireView c e x [] with free := 0 }).isSome = true := by
  obtain ⟨-, -, hwait, hop, hnext⟩ := (s.mayFire_iff c e x op).1 hm
  have hready : ((s.cluster c).elem e).ready e x (s.region (regionOf c)).drainKind = true :=
    (List.mem_filter.1 (List.mem_of_mem_head? hnext)).2
  have hview : (s.fireView c e x []).op = op := (Elem.word_op _ x).trans hop
  have hplan : ((s.cluster c).elem e).plan e x (s.region (regionOf c)).drainKind 0 [] = planOf op { s.fireView c e x [] with free := 0 } := by
    unfold Elem.plan
    dsimp only
    rw [hwait, ← hview]
    rfl
  unfold Elem.ready at hready
  rw [hplan] at hready
  cases hsome : planOf op { s.fireView c e x [] with free := 0 } with
  | none =>
    rw [hsome] at hready
    cases hready
  | some p => rfl

theorem View.head_unbound (x : Elem) (e i drain : Nat) (w : W64) (u : List Nat) (h : (x.view e i drain w u).bound 0 = false) :
    (x.view e i drain w u).head 0 = none := by
  unfold View.bound View.inQ Elem.view at h
  unfold View.head Elem.view
  dsimp only at h ⊢
  rw [Option.isSome_eq_false_iff, Option.isNone_iff_eq_none] at h
  rw [show List.range 4 = [0, 1, 2, 3] from rfl, List.map_cons, List.getD_cons_zero, h]

/-! ## The tags of the heads (R178, R179) -/

/-- Every bound input has a head, of a tag that `tg` admits. -/
def View.headsHave (v : View) (tg : Tag → Bool) : Bool := v.boundIns.all (fun k => ((v.head k).map (fun t => tg t.tag)).getD false)

theorem View.isSome_of_headsHave {v : View} {tg : Tag → Bool} (h : v.headsHave tg = true) {k : Nat} (hk : k ∈ v.boundIns) : (v.head k).isSome = true := by
  have hh := List.all_eq_true.1 h k hk
  cases hv : v.head k with
  | none =>
    rw [hv] at hh
    cases hh
  | some t => rfl

/-- What the heads have in common decides a firing under R178 and R179. -/
theorem View.simple_eq (v : View) (hb : v.boundIns ≠ []) (hs : ∀ k ∈ v.boundIns, (v.head k).isSome = true) (f : Plan → Plan) : v.simple f =
    if v.headsHave Tag.isData then
      if v.misses then some (v.checked (v.base v.boundIns))
      else if v.poisoned v.boundIns then some (v.faultPlan 2) else some (f (v.base v.boundIns))
    else if v.headsHave (· == .last) then some (v.checked (v.emit (v.base v.boundIns) [v.tok .last (v.data 0).toNat]))
    else if v.headsHave (· == .mark) then some (v.checked (v.emit (v.base v.boundIns) [v.tok .mark (v.data 0).toNat]))
    else some (v.faultPlan 1) := by
  have hlen : (v.boundIns.filterMap v.head).length = v.boundIns.length := List.filterMap_length_eq_length.2 hs
  have hall : ∀ tg : Tag → Bool, (v.boundIns.filterMap v.head).all (fun t => tg t.tag) = v.headsHave tg := by
    intro tg
    rw [List.all_filterMap, View.headsHave, Bool.eq_iff_iff, List.all_eq_true, List.all_eq_true]
    refine forall₂_congr (fun k hk => ?_)
    obtain ⟨t, ht⟩ := Option.isSome_iff_exists.1 (hs k hk)
    rw [ht]
    exact Iff.rfl
  have hmiss : ((v.pmode = 1 ∧ (v.data 3).getLsbD 0 = false) ∨ (v.pmode = 2 ∧ (v.data 3).getLsbD 0 = true)) ↔ v.misses = true := by
    simp [View.misses]
  unfold View.simple
  dsimp only
  rw [if_neg (by simp [hb, hlen]), hall Tag.isData, hall (· == .last), hall (· == .mark)]
  simp only [hmiss]

theorem View.headsHave_unlike {v : View} {tg tg' : Tag → Bool} (hb : v.boundIns ≠ []) (h : v.headsHave tg = true)
    (hne : ∀ a, tg a = true → tg' a = false) : v.headsHave tg' = false := by
  obtain ⟨k, hk⟩ := List.exists_mem_of_ne_nil _ hb
  have hh := List.all_eq_true.1 h k hk
  refine List.all_eq_false.2 ⟨k, hk, ?_⟩
  cases hv : v.head k with
  | none => simp
  | some t =>
    rw [hv] at hh
    simp [hne t.tag hh]

/-- Heads of one kind, none poisoned, at inputs that have a queue each. -/
theorem View.headsAre_iff (v : View) (tg : Tag → Bool) : v.headsAre tg = true ↔
    v.boundIns ≠ [] ∧ v.headsHave tg = true ∧ v.poisoned v.boundIns = false ∧ v.queues.Nodup := by
  unfold View.headsAre
  rw [Bool.and_eq_true, Bool.and_eq_true, List.all_eq_true, decide_eq_true_eq, and_assoc]
  refine and_congr (by simp) ?_
  rw [← and_assoc]
  refine and_congr_left' ?_
  simp only [View.headsHave, View.poisoned, List.all_eq_true, List.any_eq_false, ← forall₂_and]
  refine forall₂_congr (fun k _ => ?_)
  cases v.head k <;> simp

/-- The plan of a firing, debited as its class says (R180). -/
def Plan.inClass (p : Plan) (cls : Nat) : Plan := bif cls == 7 then { p with vec := true } else p

section
variable {v : View} (hb : v.boundIns ≠ [])
include hb

theorem View.simple_passes {tg : Tag} (htag : tg = .last ∨ tg = .mark) (hh : v.headsHave (fun a => a == tg) = true)
    (hp : v.poisoned v.boundIns = false) (f : Plan → Plan) : v.simple f = some (v.emit (v.base v.boundIns) [v.tok tg (v.data 0).toNat]) := by
  have hchecked : ∀ ts, v.checked (v.emit (v.base v.boundIns) ts) = v.emit (v.base v.boundIns) ts := fun ts =>
    if_neg (by rw [show (v.emit (v.base v.boundIns) ts).pops = v.boundIns from rfl, hp]; decide)
  have hdata : v.headsHave Tag.isData = false := View.headsHave_unlike hb hh (by rcases htag with rfl | rfl <;> rintro (_ | _ | _ | _) <;> decide)
  rw [v.simple_eq hb (fun k => View.isSome_of_headsHave hh) f, hdata, if_neg (by decide)]
  rcases htag with rfl | rfl
  · rw [if_pos hh, hchecked]
  · rw [View.headsHave_unlike hb hh (tg' := (· == .last)) (by rintro (_ | _ | _ | _) <;> decide), if_neg (by decide), if_pos hh, hchecked]

theorem View.simple_misses (hh : v.headsHave Tag.isData = true) (hp : v.poisoned v.boundIns = false) (hm : v.misses = true) (f : Plan → Plan) :
    v.simple f = some (v.base v.boundIns) := by
  rw [v.simple_eq hb (fun k => View.isSome_of_headsHave hh) f, if_pos hh, if_pos hm]
  exact congrArg some (if_neg (by rw [show (v.base v.boundIns).pops = v.boundIns from rfl, hp]; decide))

theorem View.simple_poisoned {tg : Tag → Bool} (htag : tg = Tag.isData ∨ tg = (fun a => a == .last) ∨ tg = (fun a => a == .mark))
    (hh : v.headsHave tg = true) (hp : v.poisoned v.boundIns = true) (f : Plan → Plan) : v.simple f = some (v.faultPlan 2) := by
  have hchecked : ∀ p : Plan, p.pops = v.boundIns → v.checked p = v.faultPlan 2 := fun p hpops => if_pos (by rw [hpops, hp])
  rw [v.simple_eq hb (fun k => View.isSome_of_headsHave hh) f, hchecked _ rfl, hchecked _ rfl, hchecked _ rfl, if_pos hp, ite_self]
  rcases htag with rfl | rfl | rfl
  · rw [if_pos hh]
  · rw [if_pos hh, ite_self]
  · rw [if_pos hh, ite_self, ite_self]

theorem View.simple_mixed (hs : ∀ k ∈ v.boundIns, (v.head k).isSome = true)
    (hmixed : ∀ tg : Tag → Bool, tg = Tag.isData ∨ tg = (fun a => a == .last) ∨ tg = (fun a => a == .mark) → v.headsHave tg = false)
    (f : Plan → Plan) : v.simple f = some (v.faultPlan 1) := by
  rw [v.simple_eq hb hs f, hmixed _ (.inl rfl), hmixed _ (.inr (.inl rfl)), hmixed _ (.inr (.inr rfl))]
  rfl

end

end Sys2Proof.Machine
end

section
namespace Sys2Proof.Machine

/-! ## The operations that R178 governs (R178, R180) -/

/-- An operation of a class whose plan is that of R178. -/
def View.Passes (v : View) (cls : Nat) (o : Option Plan) : Prop :=
  ∃ f, o = bif cls == 7 then (v.simple f).map (fun p => { p with vec := true }) else v.simple f

theorem View.Passes.of_simple {v : View} {cls : Nat} {o : Option Plan} {p : Plan} (h : v.Passes cls o) (hp : ∀ f, v.simple f = some p) :
    o = some (p.inClass cls) := by
  obtain ⟨f, rfl⟩ := h
  unfold Plan.inClass
  rw [hp f]
  cases cls == 7 <;> rfl

section
variable (v : View)

theorem View.passes_simple (f : Plan → Plan) : v.Passes 6 (v.simple f) := ⟨f, rfl⟩
theorem View.passes_vec (f : Plan → Plan) : v.Passes 7 ((v.simple f).map (fun p => { p with vec := true })) := ⟨f, rfl⟩
theorem View.passes_scalar (f : Nat → Nat → Nat → Nat) : v.Passes 6 (v.scalar f) := by
  unfold View.scalar
  exact v.passes_simple _
theorem View.passes_predicate (f : Nat → Nat → Bool) : v.Passes 6 (v.predicate f) := by
  unfold View.predicate
  exact v.passes_simple _
theorem View.passes_float (f : W32 → W32 → W32 → W32) : v.Passes 6 (v.float f) := v.passes_scalar _
theorem View.passes_vector (f : FVal → FVal → FVal → FVal) : v.Passes 7 (v.vector f) := v.passes_vec _
theorem View.passes_storeReq (kind : Nat) : v.Passes 6 (v.storeReq kind) := v.passes_simple _

end

/-- PENC takes a mask where no drain is in progress, and is an operation of R178 otherwise (R187, R201). -/
theorem planPenc_passes (v : View) (w : W64) (h : (planPenc { v with free := w }).isSome = true) : v.Passes 6 (planPenc v) := by
  have htakes : planPenc v = v.simple (fun p => v.pencEmit p ⟨(v.data 0).toNat, 0, 0, 0, 0⟩) := by
    refine if_neg (fun hc => ?_)
    have hnone : planPenc { v with free := w } = none := if_pos hc
    rw [hnone] at h
    cases h
  rw [htakes]
  exact v.passes_simple _

/-- The plans of the operations of `passers`, each with its class. -/
def passerPlans : List (Nat × (View → Option Plan)) :=
  [(6, planPass), (6, planIadd), (6, planIsub), (6, planImul), (6, planImulh), (6, planIand), (6, planIor), (6, planIxor), (6, planIshl),
   (6, planIshr), (6, planIsra), (6, planImin), (6, planImax), (6, planIcmp), (6, planImad), (6, planFadd), (6, planFsub), (6, planFmul),
   (6, planFfma), (6, planFmin), (6, planFmax), (6, planFcmp), (6, planFrcp), (6, planFrsq), (6, planFexp2), (6, planFlog2), (7, planVadd),
   (7, planVmul), (7, planVfma), (7, planVmax), (7, planVmin), (7, planVdot), (7, planCvt), (6, planZdet), (6, planPopc), (6, planPenc),
   (6, planLd), (6, planSt), (6, planNld), (6, planNst), (6, planNacc), (6, planMcmd), (6, planXfer)]

theorem passers_plans : passers.map (fun p => (p.2.2, planOf p.2.1)) = passerPlans := rfl

/-- The plans of `passers` but PENC's, by their shapes: a result in 32 bits, a predicate, lanes, or a plan of their own. -/
theorem passerPlans_passes : ∀ q ∈ passerPlans, q = (6, planPenc) ∨ ∀ v : View, v.Passes q.1 (q.2 v) := by
  simp only [passerPlans, List.forall_mem_cons, List.not_mem_nil, false_imp_iff, implies_true, and_true, true_or, or_true, planPass, planIadd,
    planIsub, planImul, planImulh, planIand, planIor, planIxor, planIshl, planIshr, planIsra, planImin, planImax, planIcmp, planImad, planFadd,
    planFsub, planFmul, planFfma, planFmin, planFmax, planFcmp, planFrcp, planFrsq, planFexp2, planFlog2, planVadd, planVmul, planVfma, planVmax,
    planVmin, planVdot, planCvt, planZdet, planPopc, planLd, planSt, planNld, planNst, planNacc, planMcmd, planXfer, View.passes_simple,
    View.passes_vec, View.passes_scalar, View.passes_predicate, View.passes_float, View.passes_vector, View.passes_storeReq]

theorem planOf_passes {p : (ClusterId → Fin 32 → Fin 8 → Instr) × Nat × Nat} (hp : p ∈ passers) (v : View) (w : W64)
    (h : (planOf p.2.1 { v with free := w }).isSome = true) : v.Passes p.2.2 (planOf p.2.1 v) := by
  have hmem : (p.2.2, planOf p.2.1) ∈ passerPlans := passers_plans ▸ List.mem_map_of_mem hp
  rcases passerPlans_passes _ hmem with hpenc | hother
  · obtain ⟨hcls, hplan⟩ := Prod.mk.inj hpenc
    rw [hplan] at h ⊢
    rw [hcls]
    exact planPenc_passes v w h
  · exact hother v

theorem exec_passers : ∀ p ∈ passers ++ [(Instr.send, 0x3E, 6)], ∀ (c : ClusterId) (e : Fin 32) (x : Fin 8) (s : State),
    exec (p.1 c e x) s = .next (s.fire c.val e.val x.val p.2.1 (planOf p.2.1) []) := by
  simp only [passers, List.cons_append, List.nil_append, List.forall_mem_cons, List.not_mem_nil, false_imp_iff, implies_true, and_true]
  and_intros <;> exact fun _ _ _ _ => rfl

theorem Tag.not_last_mark_of_isData {a : Tag} (h : a.isData = true) : (a == .last || a == .mark) = false := by
  cases a with
  | data => rfl
  | pred => rfl
  | last => cases h
  | mark => cases h

/-- SEND is an operation of R178 where it faults and on DATA (R192). -/
theorem planSend_of_simple {v : View} (hv : v.bound 0 = false → v.head 0 = none) {p : Plan} (hp : ∀ f, v.simple f = some p)
    (h : p.fault ≠ 0 ∨ v.headsHave Tag.isData = true) : planSend v = some p := by
  unfold planSend
  dsimp only
  rw [hp]
  refine congrArg some ?_
  cases hhead : v.head 0 with
  | none => rfl
  | some t =>
    refine if_neg ?_
    rcases h with hfault | hdata
    · simp [hfault]
    · have hbound : 0 ∈ v.boundIns := by
        refine List.mem_filter.2 ⟨by decide, ?_⟩
        cases hb : v.bound 0 with
        | true => rfl
        | false => exact absurd ((hv hb).symm.trans hhead) (by simp)
      have htag : t.tag.isData = true := by
        have hh := List.all_eq_true.1 hdata 0 hbound
        rwa [hhead] at hh
      rw [Tag.not_last_mark_of_isData htag]
      exact Bool.false_ne_true

end Sys2Proof.Machine
end

section
namespace Sys2Proof.Machine

/-! ## A firing by its plan (R176, R195) -/

theorem View.lt_of_mem_boundIns {v : View} {k : Nat} (hk : k ∈ v.boundIns) : k < 4 := List.mem_range.1 (List.mem_filter.1 hk).1

/-- A token takes a payload whole (R169). -/
theorem View.tok_toNat (v : View) (tag : Tag) (w : W64) : v.tok tag w.toNat = ⟨w, tag, v.epoch, false⟩ := by
  unfold View.tok
  rw [BitVec.ofNat_toNat, BitVec.setWidth_eq]

/-- The header that a SEND names (R192). -/
theorem Elem.view_send (x : Elem) (e i drain : Nat) (w : W64) (u : List Nat) (n : Nat) :
    (x.view e i drain w u).send.getD (n % 8) 0 = x.sendHdr (n % 8) := by
  have hn : n % 8 < ((List.range 8).map x.sendHdr).length := by
    rw [List.length_map, List.length_range]
    exact Nat.mod_lt _ (by decide)
  unfold Elem.view
  dsimp only
  rw [List.getD_eq_getElem _ _ hn, List.getElem_map, List.getElem_range]

section
variable {s : State} {c e x op : Nat} {plan : View → Option Plan}

/-- The plan that consumes heads and emits tokens, and does nothing else. -/
theorem State.fire_emits (he : e < 32) (hm : s.mayFire c e x op = true) {pops : List Nat} (hpops : ∀ k ∈ pops, k < 4) {o0 o1 : List Tok} {vec : Bool}
    (hp : plan (s.fireView c e x []) = some { (s.fireView c e x []).base pops with o0 := o0, o1 := o1, vec := vec }) :
    Fired s (s.fire c e x op plan []) c e x (pops.filterMap (s.fireView c e x []).inQ) o0 o1 (((s.cluster c).elem e).ctx x)
      ((s.cluster c).elem e).mem (if vec then 7 else 6) [] := by
  rw [State.fire_planned hm hp]
  exact s.applyPlan_fires c (p := { (s.fireView c e x []).base pops with o0 := o0, o1 := o1, vec := vec }) he rfl rfl hpops
    (fun k hk => absurd hk List.not_mem_nil) (fun q hq => absurd hq (Option.some_ne_none q).symm)

theorem State.fire_faults (he : e < 32) (hx : x < 8) (hm : s.mayFire c e x op = true) {p : Plan} (hp : plan (s.fireView c e x []) = some p)
    {cause : Nat} (hcause : p.fault = cause) (h0 : cause ≠ 0) (h4 : cause < 4) : ContextFaults s (s.fire c e x op plan []) c e x op cause := by
  obtain ⟨-, -, -, hop, -⟩ := (s.mayFire_iff c e x op).1 hm
  subst hcause
  rw [State.fire_planned hm hp]
  have hfaults := s.applyPlan_faults c he hx h0 h4
  rwa [hop] at hfaults

end

/-! ## The operations that R178 governs, SEND with them -/

section
variable {p : (ClusterId → Fin 32 → Fin 8 → Instr) × Nat × Nat}

theorem passers_class : ∀ p ∈ passers ++ [(Instr.send, 0x3E, 6)], p.2.2 = 6 ∨ p.2.2 = 7 := by decide

/-- What R178 gives a governed operation is its plan, in its class. -/
theorem planOf_of_simple (hp : p ∈ passers) {s : State} {c e x : Nat} (hm : s.mayFire c e x p.2.1 = true) {q : Plan}
    (hq : ∀ f, (s.fireView c e x []).simple f = some q) : planOf p.2.1 (s.fireView c e x []) = some (q.inClass p.2.2) :=
  (planOf_passes hp _ 0 (State.mayFire_plan hm)).of_simple hq

/-- The same with SEND, where it faults or its heads are DATA (R192). -/
theorem planOf_of_simple_send (hp : p ∈ passers ++ [(Instr.send, 0x3E, 6)]) {s : State} {c e x : Nat} (hm : s.mayFire c e x p.2.1 = true) {q : Plan}
    (hq : ∀ f, (s.fireView c e x []).simple f = some q) (h : q.fault ≠ 0 ∨ (s.fireView c e x []).headsHave Tag.isData = true) :
    planOf p.2.1 (s.fireView c e x []) = some (q.inClass p.2.2) := by
  rcases List.mem_append.1 hp with hpasser | hsend
  · exact planOf_of_simple hpasser hm hq
  · obtain rfl := List.mem_singleton.1 hsend
    exact planSend_of_simple (View.head_unbound _ _ _ _ _ _) hq h

theorem Plan.fault_inClass (q : Plan) (cls : Nat) : (q.inClass cls).fault = q.fault := by
  unfold Plan.inClass
  cases cls == 7 <;> rfl

/-- An operation that consumes every bound head and emits tokens, debited in its class. -/
theorem exec_emits (hp : p ∈ passers ++ [(Instr.send, 0x3E, 6)]) {s : State} {c : ClusterId} {e : Fin 32} {x : Fin 8}
    (hm : s.mayFire c.val e.val x.val p.2.1 = true) {o0 o1 : List Tok}
    (hplan : planOf p.2.1 (s.fireView c.val e.val x.val []) =
      some (Plan.inClass { (s.fireView c.val e.val x.val []).base (s.fireView c.val e.val x.val []).boundIns with o0 := o0, o1 := o1 } p.2.2)) :
    ∃ t, exec (p.1 c e x) s = .next t ∧
      Fired s t c.val e.val x.val (s.fireView c.val e.val x.val []).queues o0 o1 (((s.cluster c.val).elem e.val).ctx x.val)
        ((s.cluster c.val).elem e.val).mem p.2.2 [] := by
  refine ⟨_, exec_passers p hp c e x s, ?_⟩
  rcases passers_class p hp with hcls | hcls <;> rw [hcls] at hplan ⊢
  · exact State.fire_emits (vec := false) e.isLt hm (fun k => View.lt_of_mem_boundIns) hplan
  · exact State.fire_emits (vec := true) e.isLt hm (fun k => View.lt_of_mem_boundIns) hplan

/-- An operation that faults under R178. -/
theorem exec_faults (hp : p ∈ passers ++ [(Instr.send, 0x3E, 6)]) {s : State} {c : ClusterId} {e : Fin 32} {x : Fin 8}
    (hm : s.mayFire c.val e.val x.val p.2.1 = true) {cause : Nat} (h0 : cause ≠ 0) (h4 : cause < 4)
    (hq : ∀ f, (s.fireView c.val e.val x.val []).simple f = some ((s.fireView c.val e.val x.val []).faultPlan cause)) :
    ∃ t, exec (p.1 c e x) s = .next t ∧ ContextFaults s t c.val e.val x.val p.2.1 cause :=
  ⟨_, exec_passers p hp c e x s,
    State.fire_faults e.isLt x.isLt hm (planOf_of_simple_send hp hm hq (.inl h0)) (Plan.fault_inClass _ _) h0 h4⟩

theorem tagsPass_of_mem (hp : p ∈ passers) : TagsPass p.1 p.2.1 p.2.2 := by
  intro s c e x tg hm htag hheads
  obtain ⟨hb, hh, hclean, -⟩ := (View.headsAre_iff _ _).1 hheads
  rw [← View.tok_toNat]
  exact exec_emits (List.mem_append_left _ hp) hm (planOf_of_simple hp hm (View.simple_passes hb htag hh hclean))

theorem predicateMisses_of_mem (hp : p ∈ passers ++ [(Instr.send, 0x3E, 6)]) : PredicateMisses p.1 p.2.1 p.2.2 := by
  intro s c e x hm hheads hmiss
  obtain ⟨hb, hh, hclean, -⟩ := (View.headsAre_iff _ _).1 hheads
  exact exec_emits hp hm (planOf_of_simple_send hp hm (View.simple_misses hb hh hclean hmiss) (.inr hh))

theorem mixedTagsFault_of_mem (hp : p ∈ passers ++ [(Instr.send, 0x3E, 6)]) : MixedTagsFault p.1 p.2.1 := by
  intro s c e x hm hsome hmixed
  have hb : (s.fireView c.val e.val x.val []).boundIns ≠ [] := by
    obtain ⟨k, hk, -⟩ := List.all_eq_false.1 (hmixed _ (.inl rfl))
    exact List.ne_nil_of_mem hk
  exact exec_faults hp hm (by decide) (by decide) (View.simple_mixed hb (List.all_eq_true.1 hsome) hmixed)

theorem poisonFaults_of_mem (hp : p ∈ passers ++ [(Instr.send, 0x3E, 6)]) : PoisonFaults p.1 p.2.1 := by
  intro s c e x tg hm htag hh hpoison
  have hb : (s.fireView c.val e.val x.val []).boundIns ≠ [] := by
    obtain ⟨k, hk, -⟩ := List.any_eq_true.1 hpoison
    exact List.ne_nil_of_mem hk
  exact exec_faults hp hm (by decide) (by decide) (View.simple_poisoned hb htag hh hpoison)

end

/-! ## LAST and MARK at SEND (R192) -/

theorem View.headsHave_head {v : View} {tg : Tag → Bool} (hh : v.headsHave tg = true) {k : Nat} (hk : k < 4) (hb : v.bound k = true) :
    ∃ t, v.head k = some t ∧ tg t.tag = true := by
  have hhead := List.all_eq_true.1 hh k (List.mem_filter.2 ⟨List.mem_range.2 hk, hb⟩)
  cases hv : v.head k with
  | none =>
    rw [hv] at hhead
    cases hhead
  | some t =>
    rw [hv] at hhead
    exact ⟨t, rfl, hhead⟩

theorem planSend_passes {v : View} {tg : Tag} (htag : tg = .last ∨ tg = .mark) (hheads : v.headsAre (fun a => a == tg) = true) (hb : v.bound 0 = true) :
    planSend v = some { v.base v.boundIns with o0 := [v.tok .data (v.send.getD (v.imm % 8) 0), ⟨v.data 0, tg, v.epoch, false⟩], o1 := [] } := by
  obtain ⟨hne, hh, hclean, -⟩ := (v.headsAre_iff _).1 hheads
  obtain ⟨t, ht, htg⟩ := View.headsHave_head hh (by decide) hb
  have hsame : t.tag = tg := eq_of_beq htg
  have hdata : v.data 0 = t.data := by
    unfold View.data
    rw [ht]
  have hends : ((tg == .last || tg == .mark) && (v.emit (v.base v.boundIns) [v.tok tg (v.data 0).toNat]).fault == 0) = true := by
    rcases htag with rfl | rfl <;> rfl
  unfold planSend
  dsimp only
  rw [View.simple_passes hne htag hh hclean, Option.map_some, ht]
  dsimp only
  rw [hsame, if_pos hends, hdata, View.tok_toNat]
  rfl

/-! ## FILTER (R184) -/

section
variable {v : View} {d q : Tok} (hd : v.head 0 = some d) (hq : v.head 1 = some q) (h3 : v.bound 3 = false)
include hd hq h3

omit h3 in
theorem planFilter_poisoned : v.poisoned [0, 1] = (d.poison || q.poison) := by
  unfold View.poisoned
  rw [List.any_cons, List.any_cons, List.any_nil, hd, hq, Bool.or_false]

/-- FILTER without a predicate at IN3, by the tags of its two heads. -/
theorem planFilter_eq : planFilter v =
    if d.tag = .data ∧ q.tag = .pred then
      some (v.checked (if q.data.getLsbD 0 then v.emit (v.base [0, 1]) [v.tok .data d.data.toNat] else v.base [0, 1]))
    else if (d.tag = .last ∧ q.tag = .last) ∨ (d.tag = .mark ∧ q.tag = .mark) then
      some (v.checked (v.emit (v.base [0, 1]) [v.tok d.tag d.data.toNat]))
    else some (v.faultPlan 1) := by
  unfold planFilter View.steer
  rw [h3, hd, hq]
  rfl

theorem planFilter_passes (hdp : d.poison = false) (hqp : q.poison = false) (hsame : d.tag = q.tag) (htag : d.tag = .last ∨ d.tag = .mark) :
    planFilter v = some (v.emit (v.base [0, 1]) [⟨d.data, d.tag, v.epoch, false⟩]) := by
  have hclean : v.poisoned (v.emit (v.base [0, 1]) [v.tok d.tag d.data.toNat]).pops = false := by
    rw [show (v.emit (v.base [0, 1]) [v.tok d.tag d.data.toNat]).pops = [0, 1] from rfl, planFilter_poisoned hd hq, hdp, hqp]
    rfl
  have hends : (d.tag = .last ∧ q.tag = .last) ∨ (d.tag = .mark ∧ q.tag = .mark) := by
    rw [← hsame]
    simpa only [and_self] using htag
  have hdata : ¬(d.tag = .data ∧ q.tag = .pred) := by
    rw [← hsame]
    rintro ⟨hdata, hpred⟩
    exact Tag.noConfusion (hdata.symm.trans hpred)
  rw [planFilter_eq hd hq h3, if_neg hdata, if_pos hends, View.checked, hclean, View.tok_toNat]
  rfl

theorem planFilter_mixed (h : (d.tag.isData = true ∧ q.tag.isData = false) ∨ (d.tag.isData = false ∧ q.tag ≠ d.tag)) :
    planFilter v = some (v.faultPlan 1) := by
  have hdata : ¬(d.tag = .data ∧ q.tag = .pred) := by
    rintro ⟨hdata, hpred⟩
    rw [hdata, hpred] at h
    simp [Tag.isData] at h
  have hends : ¬((d.tag = .last ∧ q.tag = .last) ∨ (d.tag = .mark ∧ q.tag = .mark)) := by
    rintro (⟨hdt, hqt⟩ | ⟨hdt, hqt⟩) <;> rw [hdt, hqt] at h <;> simp [Tag.isData] at h
  rw [planFilter_eq hd hq h3, if_neg hdata, if_neg hends]

theorem planFilter_poison (hp : d.poison = true ∨ q.poison = true)
    (h : (d.tag = .data ∧ q.tag = .pred) ∨ (d.tag = q.tag ∧ (d.tag = .last ∨ d.tag = .mark))) : planFilter v = some (v.faultPlan 2) := by
  have hchecked : ∀ p : Plan, p.pops = [0, 1] → v.checked p = v.faultPlan 2 := fun p hpops =>
    if_pos (by rw [hpops, planFilter_poisoned hd hq, Bool.or_eq_true]; exact hp)
  rw [planFilter_eq hd hq h3, hchecked _ (by split <;> rfl), hchecked _ rfl]
  rcases h with hdata | ⟨hsame, htag⟩
  · rw [if_pos hdata]
  · rw [if_pos (show (d.tag = .last ∧ q.tag = .last) ∨ (d.tag = .mark ∧ q.tag = .mark) by rw [← hsame]; simpa only [and_self] using htag), ite_self]

end

theorem View.filterMap_inQ_pair (v : View) : [0, 1].filterMap v.inQ = (v.inQ 0).toList ++ (v.inQ 1).toList := by
  rw [List.filterMap_cons, List.filterMap_cons, List.filterMap_nil]
  cases v.inQ 0 <;> cases v.inQ 1 <;> rfl

/-- Settles O22: each operation's plan is the one that R178 and R179 give by the tags and poison of its heads, and a firing is its plan carried out. -/
theorem tagsDecideFirings : Obligations.TagsDecideFirings := by
  unfold Obligations.TagsDecideFirings
  refine ⟨fun p => tagsPass_of_mem, fun p hp => ⟨predicateMisses_of_mem hp, mixedTagsFault_of_mem hp, poisonFaults_of_mem hp⟩, ?_, ?_, ?_, ?_⟩
  · intro s c e x tg hm htag hheads hb
    refine ⟨_, rfl, State.fire_emits (vec := false) e.isLt hm (fun k => View.lt_of_mem_boundIns) ?_⟩
    rw [planSend_passes htag hheads hb]
    unfold State.fireView
    rw [Elem.view_send]
    rfl
  · intro s c e x d q hm hd hq h3 _ hdp hqp hsame htag
    rw [← View.filterMap_inQ_pair]
    exact ⟨_, rfl, State.fire_emits (vec := false) e.isLt hm (by decide) (planFilter_passes hd hq h3 hdp hqp hsame htag)⟩
  · intro s c e x d q hm hd hq h3 hmixed
    exact ⟨_, rfl, State.fire_faults e.isLt x.isLt hm (planFilter_mixed hd hq h3 hmixed) rfl (by decide) (by decide)⟩
  · intro s c e x d q hm hd hq h3 hpoison htags
    exact ⟨_, rfl, State.fire_faults e.isLt x.isLt hm (planFilter_poison hd hq h3 hpoison htags) rfl (by decide) (by decide)⟩

end Sys2Proof.Machine
end

section
namespace Sys2Proof.Machine

/-! ## Credits that leave a stop beyond the elements (R107) -/

theorem Cluster.producer_lt {c : Cluster} {stop q p b lane : Nat} (hstop : 32 ≤ stop) (h : c.producer stop q = some (p, b, lane)) : p < 32 := by
  unfold Cluster.producer at h
  dsimp only at h
  split at h
  · next k _ hk =>
    have hlt : k < 64 := List.mem_range.mp (List.mem_of_mem_filter (hk ▸ List.mem_cons_self))
    cases h
    omega
  · rw [if_pos hstop] at h
    cases h

/-- Such a queue is fed by an element, so its credit goes onto a ring and no binding of the cluster changes. -/
theorem Cluster.creditsBack_eq (c : Cluster) {stop : Nat} (hstop : 32 ≤ stop) (q n : Nat) :
    ∃ l, c.creditsBack stop q n = { c with ringCreds := l } := by
  induction n generalizing c with
  | zero => exact ⟨_, rfl⟩
  | succ n ih =>
    have hone : ∃ l, c.creditBack stop q = { c with ringCreds := l } := by
      unfold Cluster.creditBack
      split
      · exact ⟨_, rfl⟩
      · next h =>
        have hp := Cluster.producer_lt hstop h
        rw [if_neg (by omega)]
        exact ⟨_, rfl⟩
    obtain ⟨l, hl⟩ := hone
    rw [Cluster.creditsBack, hl]
    exact ih _

/-! ## Lanes (R126) -/

theorem Mu.lane_setLane (u : Mu) (l : Nat) (x : Lane) : (u.setLane l x).lane l = x := SMap.get_set_same _ _ _ _

theorem Cluster.malformed_counts (c : Cluster) : c.malformed.rd MU_EVENT_MALFORMED = 1 ∧
    c.malformed.rd MU_CNT_MALFORM_CNT = (c.rd MU_CNT_MALFORM_CNT + 1) % 2 ^ 32 ∧ c.malformed.mu = c.mu := by
  unfold Cluster.malformed
  refine ⟨Cluster.rd_wr_same _ MU_EVENT_MALFORMED 1 (by decide), ?_, by simp [Cluster.countStart]⟩
  rw [Cluster.rd_wr_ne _ MU_EVENT_MALFORMED MU_CNT_MALFORM_CNT 1 (by decide)]
  exact Cluster.rd_wr_same c MU_CNT_MALFORM_CNT _ (by decide)

/-- The cluster after lane l has dropped a malformed command with its last token taken: `rest` waits, and what follows is discarded up to a LAST. -/
def Cluster.dropCommand (c : Cluster) (l : Nat) (rest : List Tok) (isLast : Bool) : Cluster :=
  (({ c with mu := c.mu.setLane l { Lane.reset with toks := rest, discard := !isLast } }).creditsBack 32 l ((c.mu.lane l).words.length + 1)).malformed

theorem Cluster.dropCommand_spec (c : Cluster) (l : Nat) (rest : List Tok) (isLast : Bool) :
    (c.dropCommand l rest isLast).mu.lane l = { Lane.reset with toks := rest, discard := !isLast } ∧
    (c.dropCommand l rest isLast).rd MU_EVENT_MALFORMED = 1 ∧
    (c.dropCommand l rest isLast).rd MU_CNT_MALFORM_CNT = (c.rd MU_CNT_MALFORM_CNT + 1) % 2 ^ 32 := by
  unfold Cluster.dropCommand
  obtain ⟨creds, hcreds⟩ := Cluster.creditsBack_eq ({ c with mu := c.mu.setLane l { Lane.reset with toks := rest, discard := !isLast } })
    (stop := 32) le_rfl l ((c.mu.lane l).words.length + 1)
  rw [hcreds]
  obtain ⟨hevent, hcount, hmu⟩ := Cluster.malformed_counts
    { c with mu := c.mu.setLane l { Lane.reset with toks := rest, discard := !isLast }, ringCreds := creds }
  exact ⟨by rw [hmu]; exact Mu.lane_setLane _ _ _, hevent, hcount⟩

section
variable {s : State} {c : ClusterId} {l : Fin 8} {k : Tok} {rest : List Tok}
variable (hrun : s.runs c.val = true) (hfull : ((s.cluster c.val).mu.lane l.val).full = false)
  (hdiscard : ((s.cluster c.val).mu.lane l.val).discard = false) (htoks : ((s.cluster c.val).mu.lane l.val).toks = k :: rest)
include hrun hfull hdiscard htoks

/-- The token in its place joins the command's words. -/
theorem exec_muLaneToken_takes (hep : k.epoch = (s.region (regionOf c.val)).rd TCK_RSCHED_EPOCH)
    (hown : ((s.cluster c.val).mu.lane l.val).words.length = 0 ∨ k.epoch = ((s.cluster c.val).mu.lane l.val).epoch)
    (hplace : (((s.cluster c.val).mu.lane l.val).words.length < 7 ∧ k.tag = .data) ∨
      (((s.cluster c.val).mu.lane l.val).words.length = 7 ∧ k.tag = .last)) :
    exec (.muLaneToken c l) s = .next (s.setCluster c.val { s.cluster c.val with
      mu := (s.cluster c.val).mu.setLane l.val ⟨rest, ((s.cluster c.val).mu.lane l.val).words ++ [k.data], k.epoch,
        ((s.cluster c.val).mu.lane l.val).bad || k.poison, decide (((s.cluster c.val).mu.lane l.val).words.length = 7), false⟩ }) := by
  have htakes : (if ((s.cluster c.val).mu.lane l.val).words.length < 7 then k.tag == .data else k.tag == .last) = true := by
    rcases hplace with ⟨hlen, htag⟩ | ⟨hlen, htag⟩
    · rw [if_pos hlen, htag]; rfl
    · rw [if_neg (by omega), htag]; rfl
  have hsame : ¬(((s.cluster c.val).mu.lane l.val).words.length ≠ 0 ∧ k.epoch ≠ ((s.cluster c.val).mu.lane l.val).epoch) :=
    fun h => hown.elim h.1 h.2
  change execMuLaneToken c l s = _
  unfold execMuLaneToken
  simp only [hrun, hfull, hdiscard, htoks, Bool.true_eq_false, Bool.false_eq_true, or_self, if_false, if_neg hsame]
  rw [if_neg (fun h => h.1 hep), if_neg (not_not.mpr hep), if_pos htakes]

/-- A token of another epoch than the command's words, or out of its place, drops the command. -/
theorem exec_muLaneToken_drops
    (hbad : (((s.cluster c.val).mu.lane l.val).words ≠ [] ∧ k.epoch ≠ ((s.cluster c.val).mu.lane l.val).epoch) ∨
      (k.epoch = (s.region (regionOf c.val)).rd TCK_RSCHED_EPOCH ∧ ((s.cluster c.val).mu.lane l.val).words.length < 7 ∧ k.tag ≠ .data)) :
    exec (.muLaneToken c l) s = .next (s.setCluster c.val ((s.cluster c.val).dropCommand l.val rest (k.tag == .last))) := by
  change execMuLaneToken c l s = _
  unfold execMuLaneToken
  simp only [hrun, hfull, hdiscard, htoks, Bool.true_eq_false, Bool.false_eq_true, or_self, if_false]
  split
  · rfl
  · next hsame =>
    rcases hbad with ⟨hwords, hother⟩ | ⟨hep, hlen, htag⟩
    · exact absurd ⟨fun h => hwords (List.length_eq_zero_iff.mp h), hother⟩ hsame
    · rw [if_neg (fun h => h.1 hep), if_neg (not_not.mpr hep), if_pos hlen, if_neg (fun h => htag (eq_of_beq h))]
      rfl

end

/-! ## The list fetcher (R126) -/

theorem Mem.length_bytes (m : Mem) (a n : Nat) : (Mem.bytes m a n).length = n := by
  induction n generalizing a with
  | zero => rfl
  | succ n ih => rw [Mem.bytes, List.length_cons, ih]

theorem Mem.bytes_add (m : Mem) (a n k : Nat) : Mem.bytes m a (n + k) = Mem.bytes m a n ++ Mem.bytes m (a + n) k := by
  induction n generalizing a with
  | zero => rw [Nat.zero_add]; rfl
  | succ n ih => rw [Nat.succ_add, Mem.bytes, ih, Mem.bytes, List.cons_append, Nat.add_assoc, Nat.add_comm 1 n]

/-- Contiguous bytes in chunks of n. -/
theorem chunksOf_bytes (m : Mem) (n c a : Nat) : chunksOf n c (Mem.bytes m a (n * c)) = (List.range c).map (fun e => Mem.bytes m (a + n * e) n) := by
  induction c generalizing a with
  | zero => rfl
  | succ c ih =>
    have hlen : (Mem.bytes m a n).length = n := Mem.length_bytes m a n
    rw [Nat.mul_succ, Nat.add_comm (n * c) n, Mem.bytes_add, chunksOf, List.take_left' hlen, List.drop_left' hlen, ih, List.range_succ_eq_map, List.map_cons, List.map_map]
    refine congrArg₂ List.cons rfl (List.map_congr_left fun e _ => congrArg (fun b => Mem.bytes m b n) ?_)
    rw [Nat.mul_succ]
    omega

theorem Cluster.listRun_reads (c : Cluster) (h : c.rd MU_LIST_CTRL_ACTIVE ≠ 1) : c.listRun.rd MU_LIST_CTRL_ACTIVE = 1 ∧
    c.listRun.rd MU_LIST_CTRL_NEXT = c.rd MU_LIST_BASE_ROW := by
  have hregs : c.listRun.regs = (((c.wr MU_LIST_CTRL_RUN 1).wr MU_LIST_CTRL_ACTIVE 1).wr MU_LIST_CTRL_NEXT (c.rd MU_LIST_BASE_ROW)).regs := by
    rw [Cluster.listRun, if_neg h]
  unfold Cluster.rd
  rw [hregs]
  constructor
  · refine (Cluster.rd_wr_disjoint _ MU_LIST_CTRL_NEXT MU_LIST_CTRL_ACTIVE _ (by decide) (by decide)).trans ?_
    exact Cluster.rd_wr_same _ MU_LIST_CTRL_ACTIVE 1 (by decide)
  · exact (Cluster.rd_wr_same _ MU_LIST_CTRL_NEXT _ (by decide)).trans (Nat.mod_eq_of_lt (Fld.rd_lt clTable c.regs MU_LIST_BASE_ROW))

@[simp] theorem Cluster.grantRd_mem (c : Cluster) (cls row n : Nat) : (c.grantRd cls row n).mem = c.mem := by simp [Cluster.grantRd]
@[simp] theorem Cluster.grantRd_memBad (c : Cluster) (cls row n : Nat) : (c.grantRd cls row n).memBad = c.memBad := by simp [Cluster.grantRd]
@[simp] theorem Cluster.grantRd_rowPoison (c : Cluster) (cls row n : Nat) : (c.grantRd cls row n).rowPoison = c.rowPoison := by simp [Cluster.grantRd]

/-- A read of one whole row that is neither poisoned nor of bad parity: its bytes, one row read debited, and the grant counted. -/
theorem State.memRead_row (s : State) (i row : Nat) (hpoison : (s.cluster i).rowsPoisoned (512 * row) 512 = false)
    (hbad : (s.cluster i).badBytes (512 * row) 512 (fun _ => true) = []) :
    s.memRead i 3 (512 * row) 512 = ((Mem.bytes (s.cluster i).mem (512 * row) 512, false),
      ((s.setCluster i ((s.cluster i).grantRd 3 row 1)).setCluster i ((s.cluster i).grantRd 3 row 1)).debit i 3 1) := by
  have hrow : 512 * row / 512 = row := Nat.mul_div_cancel_left row (by decide)
  have hlast : (512 * row + 512 - 1) / 512 = row := by omega
  have hgrant : (List.range 1).foldl (fun k j => Cluster.grantRd k 3 (row + j) 1) (s.cluster i) = (s.cluster i).grantRd 3 row 1 := by
    rw [List.range_one, List.foldl_cons, List.foldl_nil, Nat.add_zero]
  have hpoison' : ((s.cluster i).grantRd 3 row 1).rowsPoisoned (512 * row) 512 = false := by
    rw [Cluster.rowsPoisoned, Cluster.grantRd_rowPoison]
    exact hpoison
  have hbad' : ((s.cluster i).grantRd 3 row 1).badBytes (512 * row) 512 (fun _ => true) = [] := by
    rw [Cluster.badBytes, Cluster.grantRd_memBad, Cluster.grantRd_rowPoison]
    exact hbad
  unfold State.memRead State.memReadUse State.memCheck
  simp only [hrow, hlast, Nat.sub_self, Nat.zero_add, State.modCluster, hgrant, State.cluster_debit, State.cluster_setCluster_same, hpoison', hbad',
    Bool.false_eq_true, if_false]
  rfl

theorem State.debit_modCluster (s : State) (i k n j : Nat) (f : Cluster → Cluster) : (s.debit i k n).modCluster j f = (s.modCluster j f).debit i k n := rfl

theorem State.upset_only (s : State) (i : Nat) (bs : List Nat) : OnlyCluster s (s.upset i bs) i := by
  unfold State.upset
  split
  · exact OnlyCluster.refl s i
  · exact OnlyCluster.modCluster s i _

/-- Lost parity leaves the bytes and the poison bits of the memory. -/
theorem State.upset_memory (s : State) (i : Nat) (bs : List Nat) : ((s.upset i bs).cluster i).mem = (s.cluster i).mem ∧
    ((s.upset i bs).cluster i).rowPoison = (s.cluster i).rowPoison := by
  unfold State.upset
  split
  · exact ⟨rfl, rfl⟩
  · rw [State.cluster_modCluster_same]
    exact ⟨rfl, rfl⟩

/-- A row that reads clean becomes the list: its entries of 64 bytes, each of eight words. -/
theorem exec_muListFetch_entries (s : State) (c : ClusterId) (u : List Nat) (hrun : s.runs c.val = true)
    (hactive : (s.cluster c.val).rd MU_LIST_CTRL_ACTIVE ≠ 0) (hlist : (s.cluster c.val).mu.list = [])
    (hpause : (s.region (regionOf c.val)).listPaused = false)
    (hclean : ((s.upset c.val u).memRead c.val 3 (512 * (s.cluster c.val).rd MU_LIST_CTRL_NEXT) 512).1.2 = false) :
    exec (.muListFetch c u) s =
      let r := (s.upset c.val u).memRead c.val 3 (512 * (s.cluster c.val).rd MU_LIST_CTRL_NEXT) 512
      .next (r.2.modCluster c.val (fun k => { k with mu := { k.mu with
        list := (chunksOf 64 8 r.1.1).map (fun e => (chunksOf 8 8 e).map (fun w => BitVec.ofNat 64 (leNat w))) } })) := by
  change execMuListFetch c u s = _
  unfold execMuListFetch
  simp only [hrun, hactive, hlist, hpause, hclean, Bool.true_eq_false, Bool.false_eq_true, ne_eq, not_true_eq_false, or_self, if_false]

/-- MU_LIST_FETCH of a row that is neither poisoned nor of bad parity takes its eight entries of eight words. -/
theorem muListFetch_spec (s : State) (c : ClusterId) (u : List Nat) (hrun : s.runs c.val = true)
    (hactive : (s.cluster c.val).rd MU_LIST_CTRL_ACTIVE ≠ 0) (hlist : (s.cluster c.val).mu.list = [])
    (hpause : (s.region (regionOf c.val)).listPaused = false)
    (hpoison : (s.cluster c.val).rowsPoisoned (512 * (s.cluster c.val).rd MU_LIST_CTRL_NEXT) 512 = false)
    (hbad : ((s.upset c.val u).cluster c.val).badBytes (512 * (s.cluster c.val).rd MU_LIST_CTRL_NEXT) 512 (fun _ => true) = []) :
    ∃ t, exec (.muListFetch c u) s = .next t ∧
      (t.cluster c.val).mu.list = (List.range 8).map (fun e => (List.range 8).map (fun w =>
        BitVec.ofNat 64 (leNat (Mem.bytes (s.cluster c.val).mem (512 * (s.cluster c.val).rd MU_LIST_CTRL_NEXT + 64 * e + 8 * w) 8)))) ∧
      (t.cluster c.val).mem = (s.cluster c.val).mem ∧
      (t.region (regionOf c.val)).waits 3 = (s.region (regionOf c.val)).waits 3 + 1 ∧
      OnlyClusterEvents s t c.val := by
  have honly := s.upset_only c.val u
  obtain ⟨hmem, hrowPoison⟩ := s.upset_memory c.val u
  have hread := (s.upset c.val u).memRead_row c.val ((s.cluster c.val).rd MU_LIST_CTRL_NEXT)
    (by rw [Cluster.rowsPoisoned, hrowPoison]; exact hpoison) hbad
  rw [hmem] at hread
  refine ⟨_, exec_muListFetch_entries s c u hrun hactive hlist hpause (by rw [hread]), ?_⟩
  simp only [hread, State.debit_modCluster]
  refine ⟨?_, ?_, ?_, ?_⟩
  · simp only [State.cluster_debit, State.cluster_modCluster_same]
    rw [chunksOf_bytes (s.cluster c.val).mem 64 8, List.map_map]
    refine List.map_congr_left fun e _ => ?_
    rw [Function.comp_apply, chunksOf_bytes (s.cluster c.val).mem 8 8, List.map_map]
    rfl
  · simp only [State.cluster_debit, State.cluster_modCluster_same, State.cluster_setCluster_same, Cluster.grantRd_mem]
    exact hmem
  · rw [State.region_debit_same, Region.waits_event, State.region_modCluster, State.region_setCluster, State.region_setCluster,
      region_of_onlyClusters honly.1]
  · exact OnlyClusterEvents.debit (honly.trans ((OnlyCluster.setCluster _ _ _).trans ((OnlyCluster.setCluster _ _ _).trans (OnlyCluster.modCluster _ _ _)))) 3 1

theorem Cluster.listStop_reads (c : Cluster) : c.listStop.rd MU_LIST_CTRL_ACTIVE = 0 ∧ c.listStop.mu = { c.mu with list := [] } := by
  have hregs : c.listStop.regs = (c.wr MU_LIST_CTRL_ACTIVE 0).regs := by rw [Cluster.listStop]
  refine ⟨?_, rfl⟩
  rw [Cluster.rd, hregs]
  exact Cluster.rd_wr_same c MU_LIST_CTRL_ACTIVE 0 (by decide)

/-- The front entry x leaves the list, and END in it empties the list and stops the fetcher; the queue and the sources' turn stay. -/
theorem Cluster.listPop_spec (c : Cluster) {x : List W64} {rest : List (List W64)} (hlist : c.mu.list = x :: rest) (hactive : c.rd MU_LIST_CTRL_ACTIVE = 1) :
    c.listPop.mu.queue = c.mu.queue ∧ c.listPop.mu.rr = c.mu.rr ∧ (bitOf (x.headD 0) 28 = false → c.listPop.mu.list = rest) ∧
    (bitOf (x.headD 0) 28 = true → c.listPop.mu.list = [] ∧ c.listPop.rd MU_LIST_CTRL_ACTIVE = 0) := by
  have hactive0 : c.rd MU_LIST_CTRL_ACTIVE ≠ 0 := by omega
  cases hend : bitOf (x.headD 0) 28 with
  | true =>
    have hpop : c.listPop = { c with mu := { c.mu with list := rest } }.listStop := by
      unfold Cluster.listPop
      simp only [hlist, if_neg hactive0, hend, if_true]
    obtain ⟨hstopped, hmu⟩ := Cluster.listStop_reads { c with mu := { c.mu with list := rest } }
    rw [hpop, hmu]
    exact ⟨rfl, rfl, fun h => absurd h (by decide), fun _ => ⟨rfl, hstopped⟩⟩
  | false =>
    have hmu : c.listPop.mu = { c.mu with list := rest } := by
      unfold Cluster.listPop
      simp only [hlist, if_neg hactive0, hend, Bool.false_eq_true, if_false]
      split
      · rfl
      · next hrest =>
        rw [not_not.mp hrest]
        split
        · rw [(Cluster.malformed_counts _).2.2, (Cluster.listStop_reads _).2]
        · rw [Cluster.wr_mu]
    rw [hmu]
    exact ⟨rfl, rfl, fun _ => rfl, fun h => absurd h (by decide)⟩

/-! ## The queue's entry (R127, R129) -/

theorem Mu.enter_fields (u : Mu) (words : List W64) (epoch src : Nat) (bad : Bool) :
    (u.enter words epoch src bad).queue = u.queue ++ [⟨words, epoch, src, if bad then 8 else MuCmd.check ⟨words, epoch, src, 0, u.serial⟩ u.chain, u.serial⟩] ∧
    (u.enter words epoch src bad).rr = (src + 1) % 9 ∧ (u.enter words epoch src bad).list = u.list := ⟨rfl, rfl, rfl⟩

/-- The unit with the command of lane k in the queue and the lane empty. -/
def Mu.enterLane (u : Mu) (k : Nat) : Mu :=
  (u.enter (u.lane k).words (u.lane k).epoch k (u.lane k).bad).setLane k { Lane.reset with toks := (u.lane k).toks }

theorem Mu.enterLane_fields (u : Mu) (k : Nat) :
    (u.enterLane k).queue = u.queue ++ [⟨(u.lane k).words, (u.lane k).epoch, k,
      if (u.lane k).bad then 8 else MuCmd.check ⟨(u.lane k).words, (u.lane k).epoch, k, 0, u.serial⟩ u.chain, u.serial⟩] ∧
    (u.enterLane k).rr = (k + 1) % 9 ∧ (u.enterLane k).lane k = { Lane.reset with toks := (u.lane k).toks } := ⟨rfl, rfl, Mu.lane_setLane _ _ _⟩

section
variable {s : State} {c : ClusterId} (hrun : s.runs c.val = true) (hroom : (s.cluster c.val).mu.queue.length < 16)
include hrun hroom

/-- The command of lane k, complete, enters, and its credits go onto the rings. -/
theorem exec_muCmdEnqueue_lane {k : Nat}
    (hnext : (s.cluster c.val).mu.nextSource (s.region (regionOf c.val)).listPaused 9 (s.cluster c.val).mu.rr = some k) (hk : k < 8) :
    ∃ creds, exec (.muCmdEnqueue c) s =
      .next (s.setCluster c.val { s.cluster c.val with mu := (s.cluster c.val).mu.enterLane k, ringCreds := creds }) := by
  obtain ⟨creds, hcreds⟩ := Cluster.creditsBack_eq { s.cluster c.val with mu := (s.cluster c.val).mu.enterLane k } (stop := 32) le_rfl k 8
  refine ⟨creds, ?_⟩
  rw [Mu.enterLane] at hcreds ⊢
  change execMuCmdEnqueue c s = _
  unfold execMuCmdEnqueue
  simp only [hrun, Nat.not_le.mpr hroom, Bool.true_eq_false, or_self, if_false, hnext, if_pos hk, hcreds]

theorem exec_muCmdEnqueue_list
    (hnext : (s.cluster c.val).mu.nextSource (s.region (regionOf c.val)).listPaused 9 (s.cluster c.val).mu.rr = some 8) :
    exec (.muCmdEnqueue c) s =
      .next (s.setCluster c.val ({ s.cluster c.val with
        mu := (s.cluster c.val).mu.enter ((s.cluster c.val).mu.list.headD []) ((s.region (regionOf c.val)).rd TCK_RSCHED_EPOCH) 8 false }.listPop)) := by
  change execMuCmdEnqueue c s = _
  unfold execMuCmdEnqueue
  simp only [hrun, Nat.not_le.mpr hroom, Bool.true_eq_false, or_self, if_false, hnext, Nat.lt_irrefl]

end

/-! ## Completion bindings (R131, R147, R456) -/

theorem ClusterRegs.wr {c d : Cluster} {offs : List Nat} (h : ClusterRegs c d offs) {f : Fld} (v : Nat) (hf : f.off ∈ offs) : ClusterRegs c (d.wr f v) offs :=
  ⟨h.1, fun o ho => (Regs.word_wr_ne clTable d.regs f v (fun he => ho (by rwa [he]))).trans (h.2 o ho)⟩

/-- Binding b as a write of v leaves it. -/
def Cluster.setBinding (c : Cluster) (b : Nat) (v : W32) : Cluster :=
  (((c.wr (MU_CBIND_ELEM.nth b) (MU_CBIND_ELEM.of v)).wr (MU_CBIND_QUEUE.nth b) (MU_CBIND_QUEUE.of v)).wr (MU_CBIND_VALID.nth b)
    (MU_CBIND_VALID.of v)).wr (MU_CBIND_CREDITS.nth b) 16

theorem Cluster.setBinding_reads (c : Cluster) (b : Nat) (v : W32) : (c.setBinding b v).rd (MU_CBIND_ELEM.nth b) = MU_CBIND_ELEM.of v ∧
    (c.setBinding b v).rd (MU_CBIND_QUEUE.nth b) = MU_CBIND_QUEUE.of v ∧ (c.setBinding b v).rd (MU_CBIND_VALID.nth b) = MU_CBIND_VALID.of v ∧
    (c.setBinding b v).rd (MU_CBIND_CREDITS.nth b) = 16 := by
  have hof : ∀ (d : Cluster) (f : Fld), f.lo + f.width ≤ 32 → (d.wr (f.nth b) (f.of v)).rd (f.nth b) = f.of v := fun d f hf =>
    (Cluster.rd_wr_same d (f.nth b) _ hf).trans (Nat.mod_eq_of_lt (Fld.of_lt f v))
  have hkeep : ∀ (d : Cluster) (f g : Fld) (n : Nat), g.lo + g.width ≤ 32 → f.lo + f.width ≤ g.lo ∨ g.lo + g.width ≤ f.lo →
      (d.wr (f.nth b) n).rd (g.nth b) = d.rd (g.nth b) := fun d f g n hg h => Cluster.rd_wr_disjoint d (f.nth b) (g.nth b) n hg h
  unfold Cluster.setBinding
  refine ⟨?_, ?_, ?_, Cluster.rd_wr_same _ (MU_CBIND_CREDITS.nth b) 16 (Nat.le_of_ble_eq_true rfl)⟩
  · rw [hkeep _ MU_CBIND_CREDITS MU_CBIND_ELEM _ (by decide) (by decide), hkeep _ MU_CBIND_VALID MU_CBIND_ELEM _ (by decide) (by decide),
      hkeep _ MU_CBIND_QUEUE MU_CBIND_ELEM _ (by decide) (by decide), hof _ MU_CBIND_ELEM (by decide)]
  · rw [hkeep _ MU_CBIND_CREDITS MU_CBIND_QUEUE _ (by decide) (by decide), hkeep _ MU_CBIND_VALID MU_CBIND_QUEUE _ (by decide) (by decide),
      hof _ MU_CBIND_QUEUE (by decide)]
  · rw [hkeep _ MU_CBIND_CREDITS MU_CBIND_VALID _ (by decide) (by decide), hof _ MU_CBIND_VALID (by decide)]

theorem Cluster.setBinding_regs (c : Cluster) (b : Nat) (v : W32) : ClusterRegs c (c.setBinding b v) [(MU_CBIND_ELEM.nth b).off] := by
  have hself : ClusterRegs c c [(MU_CBIND_ELEM.nth b).off] := ⟨rfl, fun _ _ => rfl⟩
  have hoff : (MU_CBIND_ELEM.nth b).off ∈ [(MU_CBIND_ELEM.nth b).off] := List.mem_singleton_self _
  unfold Cluster.setBinding
  exact (((hself.wr (f := MU_CBIND_ELEM.nth b) _ hoff).wr (f := MU_CBIND_QUEUE.nth b) _ hoff).wr (f := MU_CBIND_VALID.nth b) _ hoff).wr
    (f := MU_CBIND_CREDITS.nth b) 16 hoff

/-- Settles O16: each command's next state, and what the lane, the list, the queue and the bindings read in it. -/
theorem matrixCommandPorts : Obligations.MatrixCommandPorts := by
  unfold Obligations.MatrixCommandPorts
  refine ⟨?_, ?_, ?_, ?_, muListFetch_spec, ?_, ?_, ?_, ?_, ?_⟩
  · intro s c l k rest hrun hfull hdiscard htoks hep hown hplace
    refine ⟨_, exec_muLaneToken_takes hrun hfull hdiscard htoks hep hown hplace, ?_⟩
    simp only [State.cluster_setCluster_same, Mu.lane_setLane, true_and]
    exact ⟨OnlyCluster.setCluster s _ _, rfl⟩
  · intro s c l k rest hrun hfull hdiscard htoks hep hlen htag
    obtain ⟨hlane, hevent, hcount⟩ := (s.cluster c.val).dropCommand_spec l.val rest (k.tag == .last)
    refine ⟨_, exec_muLaneToken_drops hrun hfull hdiscard htoks (.inr ⟨hep, hlen, htag⟩), ?_⟩
    rw [State.cluster_setCluster_same, hlane]
    exact ⟨rfl, rfl, hevent, hcount, OnlyCluster.setCluster s _ _⟩
  · intro s c l k rest hrun hfull hdiscard htoks hwords hother
    obtain ⟨hlane, hevent, hcount⟩ := (s.cluster c.val).dropCommand_spec l.val rest (k.tag == .last)
    refine ⟨_, exec_muLaneToken_drops hrun hfull hdiscard htoks (.inl ⟨hwords, hother⟩), ?_⟩
    rw [State.cluster_setCluster_same, hlane]
    exact ⟨rfl, rfl, rfl, hevent, hcount, OnlyCluster.setCluster s _ _⟩
  · intro s c h
    obtain ⟨hactive, hnext⟩ := Cluster.listRun_reads _ h
    refine ⟨_, rfl, ?_, ?_, OnlyCluster.modCluster s _ _⟩
    · rw [State.cluster_modCluster_same]; exact hactive
    · rw [State.cluster_modCluster_same]; exact hnext
  · intro s c k hrun hroom hnext hk
    obtain ⟨creds, hexec⟩ := exec_muCmdEnqueue_lane hrun hroom hnext hk
    obtain ⟨hqueue, hrr, hlane⟩ := (s.cluster c.val).mu.enterLane_fields k
    refine ⟨_, hexec, ?_⟩
    simp only [State.cluster_setCluster_same, hqueue, hrr, hlane, List.dropLast_concat, List.getLast?_concat, true_and]
    exact ⟨rfl, rfl, rfl, rfl, OnlyCluster.setCluster s _ _⟩
  · intro s c x rest hrun hroom hnext hlist hactive
    have hexec := exec_muCmdEnqueue_list hrun hroom hnext
    rw [hlist, List.headD_cons] at hexec
    obtain ⟨hqueue, hrr, hmore, hend⟩ := Cluster.listPop_spec { s.cluster c.val with
      mu := (s.cluster c.val).mu.enter x ((s.region (regionOf c.val)).rd TCK_RSCHED_EPOCH) 8 false } hlist hactive
    refine ⟨_, hexec, ?_⟩
    rw [State.cluster_setCluster_same, hqueue, hrr]
    simp only [Mu.enter_fields, List.dropLast_concat, List.getLast?_concat, true_and]
    exact ⟨rfl, hmore, hend, OnlyCluster.setCluster s _ _⟩
  · intro s c b v hsupp hdrained
    have hexec : exec (.muCbindWrite c b v) s = .next (s.setCluster c.val ((s.cluster c.val).setBinding b.val v)) := by
      change execMuCbindWrite c b v s = _
      unfold execMuCbindWrite State.muCbind
      simp only [hsupp, hdrained, Bool.false_eq_true, Bool.true_eq_false, if_false]
      rfl
    obtain ⟨helem, hqueue, hvalid, hcredits⟩ := (s.cluster c.val).setBinding_reads b.val v
    refine ⟨_, hexec, ?_⟩
    rw [State.cluster_setCluster_same]
    exact ⟨helem, hqueue, hvalid, hcredits, OnlyCluster.setCluster s _ _, Cluster.setBinding_regs _ _ _⟩
  · intro s c b v hsupp hdrained
    have hexec : exec (.muCbindWrite c b v) s = .next (s.setCluster c.val ((s.cluster c.val).wr MU_EVENT_CFG_ERR 1)) := by
      change execMuCbindWrite c b v s = _
      unfold execMuCbindWrite State.muCbind
      simp only [hsupp, hdrained, Bool.false_eq_true, if_false, if_true]
    have hself : ClusterRegs (s.cluster c.val) (s.cluster c.val) [MU_EVENT_CFG_ERR.off] := ⟨rfl, fun _ _ => rfl⟩
    refine ⟨_, hexec, ?_⟩
    rw [State.cluster_setCluster_same]
    exact ⟨Cluster.rd_wr_same _ MU_EVENT_CFG_ERR 1 (by decide), OnlyCluster.setCluster s _ _, hself.wr 1 (List.mem_singleton.mpr rfl)⟩
  · intro s c b v hsupp
    refine ⟨s, ?_, rfl⟩
    change execMuCbindWrite c b v s = _
    rw [execMuCbindWrite, if_pos hsupp]

end Sys2Proof.Machine
end

section
namespace Sys2Proof.Machine

/-! ## Events of the chronograph in a cluster's region (R435) -/

theorem OnlyClusterEvents.of_onlyCluster {s t : State} {c : Nat} (h : OnlyCluster s t c) : OnlyClusterEvents s t c := by
  obtain ⟨hframe, hothers⟩ := h
  have hregion : ∀ k, t.region k = s.region k := region_of_onlyClusters hframe
  refine ⟨congrArg (fun x : State => { x with regions := s.regions }) hframe, hothers, fun k _ => hregion k, ?_⟩
  rw [hregion]
  rfl

/-- A change of a cluster that the chronograph counts: the cluster and its region's events alone. -/
theorem OnlyClusterEvents.chrono {s t : State} {c : Nat} (h : OnlyCluster s t c) (ev n : Nat) :
    OnlyClusterEvents s (t.modRegion (regionOf c) (fun g => g.chrono ev n)) c := by
  obtain ⟨hframe, hothers⟩ := h
  have hregion : ∀ k, t.region k = s.region k := region_of_onlyClusters hframe
  refine ⟨congrArg (fun x : State => { x with regions := s.regions }) hframe, hothers, fun k hk => ?_, ?_⟩
  · exact (State.region_setRegion_ne t _ hk).trans (hregion k)
  · rw [State.region_modRegion_same, hregion]
    rfl

/-! ## Completions (R131, R136, R457) -/

theorem Cluster.tally_count_same (c : Cluster) (f : Fld) (n : Nat) (h : f.lo + f.width ≤ 32) : (c.count f n).tally f = (c.tally f + n) % 2 ^ f.width :=
  Regs.rd_wr_same clTable c.cnt f _ h
theorem Cluster.tally_count_ne (c : Cluster) (f k : Fld) (n : Nat) (h : k.off ≠ f.off) : (c.count f n).tally k = c.tally k :=
  Regs.rd_wr_ne clTable c.cnt f k _ h
@[simp] theorem Cluster.rd_count (c : Cluster) (f k : Fld) (n : Nat) : (c.count f n).rd k = c.rd k := rfl

/-- What a failed command leaves in LAST_ERR and MU_ERR_TAG (R136). -/
def Cluster.noteFailure (c : Cluster) (m : MuCmd) (status : Nat) : Cluster :=
  ((c.wr MU_STATUS_LAST_ERR status).wr MU_ERR_TAG_TAG m.tag).wr MU_ERR_TAG_SRC m.src

/-- The registers and counts of a command that completes with a status: one more command done, or its failure recorded and counted (R136). -/
def Cluster.recordStatus (c : Cluster) (m : MuCmd) (status : Nat) : Cluster :=
  if status = 0 then c.count MU_CNT_CMDS_CNT 1
  else ((c.noteFailure m status).count MU_CNT_REJ_CNT 1).wr (if status = 8 then MU_EVENT_POISON else MU_EVENT_CMD_ERR) 1

/-- The completion d of a command, kept with CEN set and dropped where its binding is not valid; a stale command makes none (R131, R145). -/
def Cluster.keepCompletion (c : Cluster) (m : MuCmd) (ep : Nat) (d : MuDone) : Cluster :=
  if m.cen = false ∨ m.epoch ≠ ep then c
  else if c.rd (MU_CBIND_VALID.nth m.cbind) = 0 then c.count MU_CNT_REJ_CNT 1
  else { c with mu := { c.mu with cq := c.mu.cq ++ [d] } }

/-- The cluster after a command of epoch `ep` or another completes. -/
def Cluster.completed (c : Cluster) (m : MuCmd) (ep status : Nat) (dense : Bool) (cbytes : Nat) : Cluster :=
  (c.recordStatus m status).keepCompletion m ep ⟨m.tag, status, dense, m.inSpilled, cbytes, m.cbind, m.epoch, m.seq⟩

theorem Cluster.recordStatus_keeps (c : Cluster) (m : MuCmd) (status : Nat) :
    (c.recordStatus m status).mu = c.mu ∧ (c.recordStatus m status).mem = c.mem := by
  unfold Cluster.recordStatus Cluster.noteFailure
  split <;> simp only [Cluster.count_mu, Cluster.count_mem, Cluster.wr_mu, Cluster.wr_mem, and_self]

theorem muEvent_off (status : Nat) : (if status = 8 then MU_EVENT_POISON else MU_EVENT_CMD_ERR).off = 0x8008 := by split <;> rfl

theorem Cluster.recordStatus_valid (c : Cluster) (m : MuCmd) (status b : Nat) :
    (c.recordStatus m status).rd (MU_CBIND_VALID.nth b) = c.rd (MU_CBIND_VALID.nth b) := by
  have hne : ∀ (d : Cluster) (f : Fld) (v : Nat), f.off < 0x8020 → (d.wr f v).rd (MU_CBIND_VALID.nth b) = d.rd (MU_CBIND_VALID.nth b) := by
    intro d f v hf
    refine Cluster.rd_wr_ne d f _ v ?_
    have hoff : (MU_CBIND_VALID.nth b).off = 0x8020 + 4 * b := rfl
    omega
  unfold Cluster.recordStatus Cluster.noteFailure
  split
  · rw [Cluster.rd_count]
  · rw [hne _ _ _ (by rw [muEvent_off]; decide), Cluster.rd_count, hne _ _ _ (by decide), hne _ _ _ (by decide), hne _ _ _ (by decide)]

theorem Cluster.recordStatus_done (c : Cluster) (m : MuCmd) {status : Nat} (h : status = 0) :
    (c.recordStatus m status).tally MU_CNT_CMDS_CNT = (c.tally MU_CNT_CMDS_CNT + 1) % 2 ^ 32 := by
  rw [Cluster.recordStatus, if_pos h]
  exact Cluster.tally_count_same c MU_CNT_CMDS_CNT 1 (by decide)

section
variable (c : Cluster) (m : MuCmd) (ep : Nat) (d : MuDone)

theorem Cluster.keepCompletion_cases : c.keepCompletion m ep d = c ∨ c.keepCompletion m ep d = c.count MU_CNT_REJ_CNT 1 ∨
    c.keepCompletion m ep d = { c with mu := { c.mu with cq := c.mu.cq ++ [d] } } := by
  unfold Cluster.keepCompletion
  split
  · exact .inl rfl
  · split
    · exact .inr (.inl rfl)
    · exact .inr (.inr rfl)

/-- What a completion is not: registers, memory, the commands that wait and those that have started. -/
theorem Cluster.keepCompletion_keeps : (c.keepCompletion m ep d).regs = c.regs ∧ (c.keepCompletion m ep d).mem = c.mem ∧
    (c.keepCompletion m ep d).mu.queue = c.mu.queue ∧ (c.keepCompletion m ep d).mu.runs = c.mu.runs := by
  rcases c.keepCompletion_cases m ep d with h | h | h <;> rw [h] <;> simp only [Cluster.count_regs, Cluster.count_mem, Cluster.count_mu, and_self]

theorem Cluster.keepCompletion_tally {f : Fld} (hf : f.off ≠ MU_CNT_REJ_CNT.off) : (c.keepCompletion m ep d).tally f = c.tally f := by
  rcases c.keepCompletion_cases m ep d with h | h | h <;> rw [h]
  exact Cluster.tally_count_ne c MU_CNT_REJ_CNT f 1 hf

end

theorem Cluster.recordStatus_failed (c : Cluster) (m : MuCmd) {status : Nat} (h : status ≠ 0) :
    (c.recordStatus m status).rd MU_STATUS_LAST_ERR = status % 16 ∧ (c.recordStatus m status).rd MU_ERR_TAG_TAG = m.tag ∧
    (c.recordStatus m status).rd MU_ERR_TAG_SRC = m.src % 16 ∧ (status = 8 → (c.recordStatus m status).rd MU_EVENT_POISON = 1) ∧
    (status ≠ 8 → (c.recordStatus m status).rd MU_EVENT_CMD_ERR = 1) ∧
    (c.recordStatus m status).tally MU_CNT_REJ_CNT = (c.tally MU_CNT_REJ_CNT + 1) % 2 ^ 32 := by
  have heq : c.recordStatus m status =
      ((c.noteFailure m status).count MU_CNT_REJ_CNT 1).wr (if status = 8 then MU_EVENT_POISON else MU_EVENT_CMD_ERR) 1 := if_neg h
  have hread : ∀ g : Fld, g.off ≠ 0x8008 → (c.recordStatus m status).rd g = (c.noteFailure m status).rd g := fun g hg => by
    rw [heq, Cluster.rd_wr_ne _ _ g 1 (by rwa [muEvent_off]), Cluster.rd_count]
  have htag : m.tag < 2 ^ 16 := Nat.mod_lt _ (Nat.two_pow_pos 16)
  rw [hread _ (by decide), hread _ (by decide), hread _ (by decide)]
  refine ⟨?_, ?_, Cluster.rd_wr_same _ MU_ERR_TAG_SRC m.src (by decide), fun h8 => ?_, fun h8 => ?_, ?_⟩
  · rw [Cluster.noteFailure, Cluster.rd_wr_ne _ MU_ERR_TAG_SRC MU_STATUS_LAST_ERR _ (by decide),
      Cluster.rd_wr_ne _ MU_ERR_TAG_TAG MU_STATUS_LAST_ERR _ (by decide)]
    exact Cluster.rd_wr_same c MU_STATUS_LAST_ERR status (by decide)
  · rw [Cluster.noteFailure, Cluster.rd_wr_disjoint _ MU_ERR_TAG_SRC MU_ERR_TAG_TAG _ (by decide) (by decide)]
    exact (Cluster.rd_wr_same _ MU_ERR_TAG_TAG m.tag (by decide)).trans (Nat.mod_eq_of_lt htag)
  · rw [heq, if_pos h8]
    exact Cluster.rd_wr_same _ MU_EVENT_POISON 1 (by decide)
  · rw [heq, if_neg h8]
    exact Cluster.rd_wr_same _ MU_EVENT_CMD_ERR 1 (by decide)
  · have hcnt : (c.noteFailure m status).cnt = c.cnt := by simp only [Cluster.noteFailure, Cluster.wr_cnt]
    rw [heq, Cluster.tally, Cluster.wr_cnt, Cluster.tally, ← hcnt]
    exact Cluster.tally_count_same (c.noteFailure m status) MU_CNT_REJ_CNT 1 (by decide)

theorem State.seen_chrono (s : State) (i ev n : Nat) :
    ((s.modRegion (regionOf i) (fun g => g.chrono ev n)).region (regionOf i)).seen ev = (s.region (regionOf i)).seen ev + n := by
  rw [State.region_modRegion_same]
  exact SMap.get_set_same _ _ _ _

/-- Event 23, one command with status 0, in the chronograph of a cluster's region (R435). -/
def State.chronoDone (s : State) (i status : Nat) : State := if status = 0 then s.modRegion (regionOf i) (fun g => g.chrono 23 1) else s

theorem State.muComplete_eq (s : State) (i : Nat) (x : Cluster) (m : MuCmd) (status : Nat) (dense : Bool) (cbytes : Nat) :
    (s.setCluster i x).muComplete i m status dense cbytes =
      ((s.setCluster i x).setCluster i (x.completed m ((s.region (regionOf i)).rd TCK_RSCHED_EPOCH) status dense cbytes)).chronoDone i status := by
  have hrecord : x.recordStatus m status = if status = 0 then x.count MU_CNT_CMDS_CNT 1
      else if status = 8 then ((x.noteFailure m status).count MU_CNT_REJ_CNT 1).wr MU_EVENT_POISON 1
        else ((x.noteFailure m status).count MU_CNT_REJ_CNT 1).wr MU_EVENT_CMD_ERR 1 := by
    unfold Cluster.recordStatus
    split
    · rfl
    · split <;> rfl
  unfold State.muComplete State.modCluster Cluster.completed
  rw [State.cluster_setCluster_same, hrecord]
  rfl

/-- A command that completes changes its cluster, and with status 0 its region's chronograph. -/
theorem State.muComplete_spec (s : State) (i : Nat) (x : Cluster) (m : MuCmd) (status : Nat) (dense : Bool) (cbytes : Nat) :
    ((s.setCluster i x).muComplete i m status dense cbytes).cluster i =
      x.completed m ((s.region (regionOf i)).rd TCK_RSCHED_EPOCH) status dense cbytes ∧
    (((s.setCluster i x).muComplete i m status dense cbytes).region (regionOf i)).seen 23 =
      (s.region (regionOf i)).seen 23 + (if status = 0 then 1 else 0) ∧
    OnlyClusterEvents s ((s.setCluster i x).muComplete i m status dense cbytes) i ∧
    (status ≠ 0 → OnlyCluster s ((s.setCluster i x).muComplete i m status dense cbytes) i) := by
  rw [State.muComplete_eq]
  generalize x.completed m ((s.region (regionOf i)).rd TCK_RSCHED_EPOCH) status dense cbytes = y
  have honly : OnlyCluster s ((s.setCluster i x).setCluster i y) i := (OnlyCluster.setCluster s i x).trans (OnlyCluster.setCluster _ i y)
  have hcluster : ((s.setCluster i x).setCluster i y).cluster i = y := State.cluster_setCluster_same _ i y
  by_cases h : status = 0
  · rw [State.chronoDone, if_pos h, if_pos h]
    exact ⟨hcluster, State.seen_chrono _ i 23 1, OnlyClusterEvents.chrono honly 23 1, fun hne => absurd h hne⟩
  · rw [State.chronoDone, if_neg h, if_neg h]
    exact ⟨hcluster, rfl, OnlyClusterEvents.of_onlyCluster honly, fun _ => honly⟩

/-! ## What a completed command leaves (R131, R136, R145) -/

section
variable (c : Cluster) (m : MuCmd) (ep status : Nat) (dense : Bool) (cbytes : Nat)

theorem Cluster.completed_keeps : (c.completed m ep status dense cbytes).mem = c.mem ∧
    (c.completed m ep status dense cbytes).mu.queue = c.mu.queue ∧ (c.completed m ep status dense cbytes).mu.runs = c.mu.runs := by
  obtain ⟨-, hmem, hqueue, hruns⟩ := (c.recordStatus m status).keepCompletion_keeps m ep
    ⟨m.tag, status, dense, m.inSpilled, cbytes, m.cbind, m.epoch, m.seq⟩
  obtain ⟨hmu, hmem'⟩ := c.recordStatus_keeps m status
  rw [hmem'] at hmem
  rw [hmu] at hqueue hruns
  exact ⟨hmem, hqueue, hruns⟩

theorem Cluster.rd_completed (f : Fld) : (c.completed m ep status dense cbytes).rd f = (c.recordStatus m status).rd f := by
  rw [Cluster.rd, Cluster.completed, ((c.recordStatus m status).keepCompletion_keeps m ep _).1, Cluster.rd]

/-- Without CEN no completion is kept. -/
theorem Cluster.completed_cq_silent (hcen : m.cen = false) : (c.completed m ep status dense cbytes).mu.cq = c.mu.cq := by
  rw [Cluster.completed, Cluster.keepCompletion, if_pos (.inl hcen), (c.recordStatus_keeps m status).1]

/-- With CEN, the current epoch and a valid binding the completion is kept. -/
theorem Cluster.completed_cq (hcen : m.cen = true) (hep : m.epoch = ep) (hvalid : c.rd (MU_CBIND_VALID.nth m.cbind) ≠ 0) :
    (c.completed m ep status dense cbytes).mu.cq = c.mu.cq ++ [⟨m.tag, status, dense, m.inSpilled, cbytes, m.cbind, m.epoch, m.seq⟩] := by
  have hmakes : ¬(m.cen = false ∨ m.epoch ≠ ep) := fun h => h.elim (fun h => absurd (hcen.symm.trans h) (by decide)) (fun h => h hep)
  rw [Cluster.completed, Cluster.keepCompletion, if_neg hmakes, if_neg (by rwa [Cluster.recordStatus_valid]), (c.recordStatus_keeps m status).1]

theorem Cluster.completed_counted (h : status = 0) :
    (c.completed m ep status dense cbytes).tally MU_CNT_CMDS_CNT = (c.tally MU_CNT_CMDS_CNT + 1) % 2 ^ 32 := by
  rw [Cluster.completed, Cluster.keepCompletion_tally _ _ _ _ (by decide), Cluster.recordStatus_done c m h]

/-- A failure is counted once where its completion is not dropped. -/
theorem Cluster.completed_rejected (h : status ≠ 0) (hkept : m.cen = false ∨ m.epoch ≠ ep ∨ c.rd (MU_CBIND_VALID.nth m.cbind) ≠ 0) :
    (c.completed m ep status dense cbytes).tally MU_CNT_REJ_CNT = (c.tally MU_CNT_REJ_CNT + 1) % 2 ^ 32 := by
  obtain ⟨-, -, -, -, -, hrej⟩ := c.recordStatus_failed m h
  rw [← hrej, Cluster.completed, Cluster.keepCompletion]
  split
  · rfl
  · next hmakes =>
    have hvalid : c.rd (MU_CBIND_VALID.nth m.cbind) ≠ 0 := by tauto
    rw [if_neg (by rwa [Cluster.recordStatus_valid])]

end

/-! ## MU_NOP, MU_FAILED_RETIRE and MU_CMD_COMPLETE (R129, R131, R136, R145) -/

theorem exec_muNop_eq {s : State} {c : ClusterId} {m : MuCmd} {rest : List MuCmd} (hqueue : (s.cluster c.val).mu.queue = m :: rest)
    (htakes : s.runs c.val = true ∧ m.status = 0 ∧ m.opc = 0 ∧ (s.cluster c.val).mu.cqFree = true ∧ (m.fence = false ∨ (s.cluster c.val).mu.written = true)) :
    exec (.muNop c) s = .next ((s.setCluster c.val { s.cluster c.val with mu := { (s.cluster c.val).mu with queue := rest } }).muComplete c.val m 0 false 0) := by
  change execMuNop c s = _
  unfold execMuNop
  simp only [hqueue, if_pos htakes]

theorem Cluster.walked_keeps (c : Cluster) (m : MuCmd) : (c.walked m).mu = c.mu ∧ (c.walked m).mem = c.mem ∧ (c.walked m).regs = c.regs ∧
    ∀ f : Fld, f.off ≠ PLT_WLK_CMDS_CNT.off → (c.walked m).tally f = c.tally f := by
  unfold Cluster.walked
  split
  · exact ⟨Cluster.count_mu _ _ _, Cluster.count_mem _ _ _, Cluster.count_regs _ _ _, fun f hf => Cluster.tally_count_ne c _ f 1 hf⟩
  · exact ⟨rfl, rfl, rfl, fun _ _ => rfl⟩

/-- The matrix unit with its head, which failed, gone; a LAST of a failed chain ends the chain. -/
def Mu.dropHead (u : Mu) (rest : List MuCmd) (ends : Bool) : Mu :=
  if ends then { u with queue := rest }.endChain else { u with queue := rest }

theorem Mu.dropHead_keeps (u : Mu) (rest : List MuCmd) (ends : Bool) : (u.dropHead rest ends).queue = rest ∧ (u.dropHead rest ends).cq = u.cq := by
  cases ends <;> exact ⟨rfl, rfl⟩

/-- Whether a command that passed its checks is of a failed chain (R136). -/
def Mu.chainFails (u : Mu) (m : MuCmd) : Bool := m.status == 0 && m.opc == 1 && !u.startable m

theorem exec_muFailedRetire_eq {s : State} {c : ClusterId} {m : MuCmd} {rest : List MuCmd} (hqueue : (s.cluster c.val).mu.queue = m :: rest)
    (htakes : s.runs c.val = true ∧ (m.status ≠ 0 ∨ (s.cluster c.val).mu.chainFails m = true) ∧ (s.cluster c.val).mu.cqFree = true) :
    exec (.muFailedRetire c) s = .next ((s.setCluster c.val ({ s.cluster c.val with
      mu := (s.cluster c.val).mu.dropHead rest ((s.cluster c.val).mu.chainFails m && m.chain == 3) }.walked m)).muComplete c.val m
        (if (s.cluster c.val).mu.chainFails m then 6 else m.status) false 0) := by
  unfold Mu.chainFails at htakes ⊢
  unfold Mu.dropHead
  change execMuFailedRetire c s = _
  unfold execMuFailedRetire
  simp only [hqueue]
  rw [if_pos htakes]
  simp only [Bool.and_eq_true, beq_iff_eq]

/-- What MU_FAILED_RETIRE leaves of a head that failed its checks or whose chain failed. -/
theorem muFailedRetire_spec {s : State} {c : ClusterId} {m : MuCmd} {rest : List MuCmd} {status : Nat} (hqueue : (s.cluster c.val).mu.queue = m :: rest)
    (hrun : s.runs c.val = true) (hfree : (s.cluster c.val).mu.cqFree = true) (hstatus : status ≠ 0)
    (hfails : (m.status = status ∧ (s.cluster c.val).mu.chainFails m = false) ∨ (status = 6 ∧ (s.cluster c.val).mu.chainFails m = true)) :
    ∃ t, exec (.muFailedRetire c) s = .next t ∧
      (t.cluster c.val).mu.queue = rest ∧
      (t.cluster c.val).rd MU_STATUS_LAST_ERR = status % 16 ∧
      (t.cluster c.val).rd MU_ERR_TAG_TAG = m.tag ∧
      (t.cluster c.val).rd MU_ERR_TAG_SRC = m.src % 16 ∧
      (status = 8 → (t.cluster c.val).rd MU_EVENT_POISON = 1) ∧
      (status ≠ 8 → (t.cluster c.val).rd MU_EVENT_CMD_ERR = 1) ∧
      (m.cen = false ∨ m.epoch ≠ (s.region (regionOf c.val)).rd TCK_RSCHED_EPOCH ∨ (s.cluster c.val).rd (MU_CBIND_VALID.nth m.cbind) ≠ 0 →
        (t.cluster c.val).tally MU_CNT_REJ_CNT = ((s.cluster c.val).tally MU_CNT_REJ_CNT + 1) % 2 ^ 32) ∧
      (m.cen = true → m.epoch = (s.region (regionOf c.val)).rd TCK_RSCHED_EPOCH → (s.cluster c.val).rd (MU_CBIND_VALID.nth m.cbind) ≠ 0 →
        (t.cluster c.val).mu.cq = (s.cluster c.val).mu.cq ++ [⟨m.tag, status, false, m.inSpilled, 0, m.cbind, m.epoch, m.seq⟩]) ∧
      (t.cluster c.val).mem = (s.cluster c.val).mem ∧
      OnlyCluster s t c.val := by
  have hexec := exec_muFailedRetire_eq hqueue ⟨hrun, hfails.imp (fun h => h.1.trans_ne hstatus) (fun h => h.2), hfree⟩
  have hgiven : (if (s.cluster c.val).mu.chainFails m then 6 else m.status) = status := by
    rcases hfails with ⟨hm, hchain⟩ | ⟨hsix, hchain⟩
    · rw [hchain]; exact hm
    · rw [hchain, hsix]; rfl
  rw [hgiven] at hexec
  obtain ⟨hdrop, hcq⟩ := (s.cluster c.val).mu.dropHead_keeps rest ((s.cluster c.val).mu.chainFails m && m.chain == 3)
  generalize (s.cluster c.val).mu.dropHead rest ((s.cluster c.val).mu.chainFails m && m.chain == 3) = u at hexec hdrop hcq
  obtain ⟨hmu, hmem, hregs, htally⟩ := Cluster.walked_keeps { s.cluster c.val with mu := u } m
  generalize Cluster.walked { s.cluster c.val with mu := u } m = x at hexec hmu hmem hregs htally
  have hmu : x.mu = u := hmu
  obtain ⟨hcluster, -, -, honly⟩ := s.muComplete_spec c.val x m status false 0
  obtain ⟨hxmem, hxqueue, -⟩ := x.completed_keeps m ((s.region (regionOf c.val)).rd TCK_RSCHED_EPOCH) status false 0
  obtain ⟨herr, htag, hsrc, hpoison, hcmdErr, -⟩ := x.recordStatus_failed m hstatus
  have hvalid : x.rd (MU_CBIND_VALID.nth m.cbind) = (s.cluster c.val).rd (MU_CBIND_VALID.nth m.cbind) := congrArg (fun r => Regs.rd clTable r _) hregs
  have hrej : x.tally MU_CNT_REJ_CNT = (s.cluster c.val).tally MU_CNT_REJ_CNT := htally MU_CNT_REJ_CNT (by decide)
  refine ⟨_, hexec, ?_⟩
  rw [hcluster]
  simp only [Cluster.rd_completed]
  rw [← hvalid, ← hrej, ← hcq, ← hmu]
  exact ⟨hxqueue.trans ((congrArg Mu.queue hmu).trans hdrop), herr, htag, hsrc, hpoison, hcmdErr, fun hkept => Cluster.completed_rejected x m _ status false 0 hstatus hkept,
    fun hcen hep hv => Cluster.completed_cq x m _ status false 0 hcen hep hv, hxmem.trans hmem, honly hstatus⟩

theorem Mu.chainFails_of_status {u : Mu} {m : MuCmd} (h : m.status ≠ 0) : u.chainFails m = false := by
  rw [Mu.chainFails, beq_eq_false_iff_ne.mpr h]
  rfl

/-- A MIDDLE or LAST that passed its checks fails with the chain open at the folder (R136). -/
theorem Mu.chainFails_of_folding {u : Mu} {m : MuCmd} (hstatus : m.status = 0) (hopc : m.opc = 1) (hchain : m.chain = 2 ∨ m.chain = 3)
    (hfailed : u.folding.map (fun g => g.failed) = some true) : u.chainFails m = true := by
  obtain ⟨g, hg, hgf⟩ := Option.map_eq_some_iff.mp hfailed
  have hlate : (m.chain == 2 || m.chain == 3) = true := by simpa using hchain
  simp only [Mu.chainFails, Mu.startable, hstatus, hopc, hg, hgf, hlate]
  rfl

theorem ClusterRegs.keeps {c d : Cluster} {offs : List Nat} (h : ClusterRegs c d offs) : d.mu = c.mu ∧ d.mem = c.mem ∧ d.cnt = c.cnt := by
  have hmu := congrArg Cluster.mu h.1
  have hmem := congrArg Cluster.mem h.1
  have hcnt := congrArg Cluster.cnt h.1
  exact ⟨hmu, hmem, hcnt⟩

theorem ClusterRegs.rd {c d : Cluster} {offs : List Nat} (h : ClusterRegs c d offs) {f : Fld} (hf : f.off ∉ offs) : d.rd f = c.rd f :=
  congrArg f.of (h.2 f.off hf)

/-- U and S of the 32 groups of a sparse command that is DONE, and its TAG, in PLT_GSTEP (R262). -/
def Cluster.stepGroups (c : Cluster) (r : MuRun) : Cluster :=
  if r.cmd.sparse ∧ r.status = 0 then
    (List.range 32).foldl (fun (k : Cluster) g =>
      (k.wr (PLT_GSTEP_UNION.nth g) (r.groups.getD g (0, 0)).1).wr (PLT_GSTEP_STEPS.nth g) (r.groups.getD g (0, 0)).2)
      ((c.wr PLT_GSTEP_CTL_TAG r.cmd.tag).wr PLT_GSTEP_CTL_VALID 1)
  else c

/-- The offsets of PLT_GSTEP_CTL and of PLT_GSTEP. -/
def groupOffs : List Nat := 0x3080 :: (List.range 32).map (fun g => 0x3100 + 4 * g)

theorem Cluster.stepGroups_regs (c : Cluster) (r : MuRun) : ClusterRegs c (c.stepGroups r) groupOffs := by
  have hgroups : ∀ (l : List Nat), (∀ g ∈ l, g < 32) → ∀ k : Cluster, ClusterRegs c k groupOffs → ClusterRegs c (l.foldl (fun (k : Cluster) g =>
      (k.wr (PLT_GSTEP_UNION.nth g) (r.groups.getD g (0, 0)).1).wr (PLT_GSTEP_STEPS.nth g) (r.groups.getD g (0, 0)).2) k) groupOffs := by
    intro l
    induction l with
    | nil => exact fun _ k hk => hk
    | cons g gs ih =>
      intro hl k hk
      have hoff : 0x3100 + 4 * g ∈ groupOffs := List.mem_cons_of_mem _ (List.mem_map_of_mem (List.mem_range.mpr (hl g List.mem_cons_self)))
      rw [List.foldl_cons]
      exact ih (fun j hj => hl j (List.mem_cons_of_mem _ hj)) _
        ((hk.wr (f := PLT_GSTEP_UNION.nth g) _ hoff).wr (f := PLT_GSTEP_STEPS.nth g) _ hoff)
  have hself : ClusterRegs c c groupOffs := ⟨rfl, fun _ _ => rfl⟩
  have hctl : 0x3080 ∈ groupOffs := List.mem_cons_self
  unfold Cluster.stepGroups
  split
  · exact hgroups _ (fun g hg => List.mem_range.mp hg) _ ((hself.wr (f := PLT_GSTEP_CTL_TAG) _ hctl).wr (f := PLT_GSTEP_CTL_VALID) 1 hctl)
  · exact hself

theorem groupOffs_lt {o : Nat} (h : o ∈ groupOffs) : o < 0x3180 := by
  rcases List.mem_cons.mp h with rfl | hmem
  · decide
  · obtain ⟨g, hg, rfl⟩ := List.mem_map.mp hmem
    have hlt := List.mem_range.mp hg
    omega

theorem exec_muCmdComplete_eq {s : State} {c : ClusterId} {r : MuRun} {rest : List MuRun}
    (htake : takeFirst MuRun.done (s.cluster c.val).mu.runs = some (r, rest)) (hrun : s.runs c.val = true) (hroom : (s.cluster c.val).mu.cq.length < 16) :
    exec (.muCmdComplete c) s =
      if r.stale then .next (s.setCluster c.val { s.cluster c.val with mu := { (s.cluster c.val).mu with runs := rest } })
      else .next ((s.setCluster c.val (({ s.cluster c.val with mu := { (s.cluster c.val).mu with runs := rest } }.walked r.cmd).stepGroups r)).muComplete c.val
        r.cmd r.status (r.status == 0 && r.cmd.epi && r.plate.forms.all (fun f => !f)) (if r.status == 0 && r.cmd.epi then r.plate.bytes else 0)) := by
  change execMuCmdComplete c s = _
  unfold execMuCmdComplete
  simp only [htake, hrun, Nat.not_le.mpr hroom, Bool.true_eq_false, or_self, if_false]
  rfl

/-- A command's leaving of the started ones, with the registers and counts of the sparse path (R262), shows neither in the completions nor in the queue. -/
theorem Cluster.retired_keeps (c : Cluster) (r : MuRun) (rest : List MuRun) :
    (({ c with mu := { c.mu with runs := rest } }.walked r.cmd).stepGroups r).mu.runs = rest ∧
    (({ c with mu := { c.mu with runs := rest } }.walked r.cmd).stepGroups r).mu.cq = c.mu.cq ∧
    (({ c with mu := { c.mu with runs := rest } }.walked r.cmd).stepGroups r).mu.queue = c.mu.queue ∧
    (({ c with mu := { c.mu with runs := rest } }.walked r.cmd).stepGroups r).mem = c.mem ∧
    (({ c with mu := { c.mu with runs := rest } }.walked r.cmd).stepGroups r).tally MU_CNT_CMDS_CNT = c.tally MU_CNT_CMDS_CNT ∧
    ∀ b, (({ c with mu := { c.mu with runs := rest } }.walked r.cmd).stepGroups r).rd (MU_CBIND_VALID.nth b) = c.rd (MU_CBIND_VALID.nth b) := by
  obtain ⟨hmu, hmem, hregs, htally⟩ := Cluster.walked_keeps { c with mu := { c.mu with runs := rest } } r.cmd
  have hgroups := Cluster.stepGroups_regs ({ c with mu := { c.mu with runs := rest } }.walked r.cmd) r
  obtain ⟨hgmu, hgmem, hgcnt⟩ := hgroups.keeps
  rw [hgmu, hmu]
  refine ⟨rfl, rfl, rfl, hgmem.trans hmem, ?_, fun b => ?_⟩
  · rw [Cluster.tally, hgcnt]
    exact htally MU_CNT_CMDS_CNT (by decide)
  · have hoff : (MU_CBIND_VALID.nth b).off = 0x8020 + 4 * b := rfl
    rw [hgroups.rd (fun h => by have := groupOffs_lt h; omega), Cluster.rd, hregs, Cluster.rd]

/-! ## MU_COMPLETION_SEND (R131) -/

theorem Cluster.waiting_pushOut (c : Cluster) {stop : Nat} (hstop : 32 ≤ stop) (lane dst q : Nat) (t : Tok) :
    (c.pushOut stop lane dst q t).waiting stop lane = c.waiting stop lane ++ [⟨ringOf stop dst lane, stop, lane, dst, q, t, 0⟩] := by
  have hshared : ¬stop < 32 := by omega
  simp only [Cluster.waiting, if_neg hshared, Cluster.pushOut, SMap.get_set_same]

theorem exec_muCompletionSend_eq {s : State} {c : ClusterId} {b : Fin 8} {d : MuDone} {rest : List MuDone} (hrun : s.runs c.val = true)
    (hcredits : (s.cluster c.val).rd (MU_CBIND_CREDITS.nth b.val) ≠ 0)
    (htake : takeFirst (fun (q : MuDone) => q.cbind == b.val && q.seq ==
      ((s.cluster c.val).mu.cq.filter (fun q => q.cbind == b.val)).foldl (fun a q => min a q.seq) (s.cluster c.val).mu.serial) (s.cluster c.val).mu.cq = some (d, rest))
    (hearlier : (s.cluster c.val).mu.runs.any (fun r => r.cmd.cbind == b.val && r.cmd.cen && decide (r.cmd.seq < d.seq)) = false) :
    exec (.muCompletionSend c b) s = .next (s.setCluster c.val
      ({ (s.cluster c.val).wr (MU_CBIND_CREDITS.nth b.val) ((s.cluster c.val).rd (MU_CBIND_CREDITS.nth b.val) - 1) with
        mu := { (s.cluster c.val).mu with cq := rest } }.pushOut 32 0 ((s.cluster c.val).rd (MU_CBIND_ELEM.nth b.val))
        ((s.cluster c.val).rd (MU_CBIND_QUEUE.nth b.val)) ⟨d.payload, .data, d.epoch, false⟩)) := by
  have hseq := (Bool.and_eq_true _ _ ▸ takeFirst_holds htake).2
  rw [eq_of_beq hseq] at hearlier
  change execMuCompletionSend c b s = _
  unfold execMuCompletionSend
  simp only [hrun, hearlier, hcredits, htake, Bool.true_eq_false, Bool.false_eq_true, or_self, if_false]

/-- Settles O17: each command's next state; what it leaves is what the completion of a command with its status leaves. -/
theorem matrixCommandsRetire : Obligations.MatrixCommandsRetire := by
  unfold Obligations.MatrixCommandsRetire
  refine ⟨?_, ?_, ?_, ?_, ?_, ?_⟩
  · intro s c m rest hqueue hrun hstatus hopc hfree hfence
    obtain ⟨hcluster, hseen, honly, -⟩ := s.muComplete_spec c.val { s.cluster c.val with mu := { (s.cluster c.val).mu with queue := rest } } m 0 false 0
    refine ⟨_, exec_muNop_eq hqueue ⟨hrun, hstatus, hopc, hfree, hfence⟩, ?_⟩
    rw [hcluster]
    exact ⟨(Cluster.completed_keeps _ m _ 0 false 0).2.1, Cluster.completed_counted _ m _ 0 false 0 rfl,
      fun hcen hep hvalid => Cluster.completed_cq _ m _ 0 false 0 hcen hep hvalid, fun hcen => Cluster.completed_cq_silent _ m _ 0 false 0 hcen, hseen, honly⟩
  · intro s c m rest hqueue hrun hstatus hfree
    exact muFailedRetire_spec hqueue hrun hfree hstatus (.inl ⟨rfl, Mu.chainFails_of_status hstatus⟩)
  · intro s c m rest hqueue hrun hstatus hopc hchain hfailed hfree
    obtain ⟨t, hexec, hdrop, herr, htag, -, -, hevent, -, -, hmem, honly⟩ :=
      muFailedRetire_spec hqueue hrun hfree (status := 6) (by decide) (.inr ⟨rfl, Mu.chainFails_of_folding hstatus hopc hchain hfailed⟩)
    exact ⟨t, hexec, hdrop, herr, hevent (by decide), htag, hmem, honly⟩
  · intro s c r rest htake hrun hstale hroom
    have hexec := exec_muCmdComplete_eq htake hrun hroom
    rw [hstale, if_neg (by decide)] at hexec
    obtain ⟨hruns, hcq, hqueue, hmem, htally, hvalid⟩ := (s.cluster c.val).retired_keeps r rest
    generalize ({ s.cluster c.val with mu := { (s.cluster c.val).mu with runs := rest } }.walked r.cmd).stepGroups r = x at hexec hruns hcq hqueue hmem htally hvalid
    generalize (r.status == 0 && r.cmd.epi && r.plate.forms.all (fun f => !f)) = dense at hexec
    generalize (if r.status == 0 && r.cmd.epi then r.plate.bytes else 0) = bytes at hexec
    obtain ⟨hcluster, hseen, honly, -⟩ := s.muComplete_spec c.val x r.cmd r.status dense bytes
    obtain ⟨hxmem, hxqueue, hxruns⟩ := x.completed_keeps r.cmd ((s.region (regionOf c.val)).rd TCK_RSCHED_EPOCH) r.status dense bytes
    refine ⟨_, hexec, ?_⟩
    rw [hcluster, ← htally]
    refine ⟨hxruns.trans hruns, fun h => Cluster.completed_counted x r.cmd _ r.status dense bytes h, fun hcen => ?_, hseen,
      fun hcen hep hv => ?_, hxmem.trans hmem, hxqueue.trans hqueue, honly⟩
    · rw [Cluster.completed_cq_silent _ _ _ _ _ _ hcen, hcq]
    · rw [Cluster.completed_cq _ _ _ _ _ _ hcen hep (by rwa [hvalid]), hcq, List.dropLast_concat, List.getLast?_concat]
      exact ⟨rfl, rfl⟩
  · intro s c r rest htake hrun hstale hroom
    have hexec := exec_muCmdComplete_eq htake hrun hroom
    rw [if_pos hstale] at hexec
    refine ⟨_, hexec, ?_⟩
    rw [State.cluster_setCluster_same]
    exact ⟨rfl, OnlyCluster.setCluster s _ _, rfl⟩
  · intro s c b d rest hrun hcredits htake hearlier
    refine ⟨_, exec_muCompletionSend_eq hrun hcredits htake hearlier, ?_⟩
    rw [State.cluster_setCluster_same, Cluster.waiting_pushOut _ le_rfl, List.map_append, List.getLast?_concat]
    refine ⟨rfl, ?_, rfl, rfl, OnlyCluster.setCluster s _ _⟩
    have hlt := Fld.rd_lt clTable (s.cluster c.val).regs (MU_CBIND_CREDITS.nth b.val)
    exact (Cluster.rd_wr_same (s.cluster c.val) (MU_CBIND_CREDITS.nth b.val) _ (Nat.le_of_ble_eq_true rfl)).trans
      (Nat.mod_eq_of_lt (lt_of_le_of_lt (Nat.sub_le _ 1) hlt))

end Sys2Proof.Machine
end

section
namespace Sys2Proof.Machine

/-! ## An accumulate-write that runs past its row (R232) -/

/-- A MATMUL of M = 32, N = 16, K = 4 whose C, in I8, is the two rows from row 5 on. -/
def tileCmd : MuCmd := ⟨[0x2008771, 0x400100020, 0, 0x500000000, 0, 0, 0, 0], 0, 0, 0, 1⟩

/-- The command started, with its one tile pair, all zero, in the epilogue buffer. -/
def tileRun : MuRun :=
  ⟨tileCmd, [⟨0, 0, List.replicate 512 0, false⟩], 0, none, none, List.range 32, 0, 0, true, 1, false, false, [], false, PlateSum.start, [], ([], false), ([], false)⟩

/-- An accumulate-write in flight from the last byte of row 6 on, of two bytes: its second byte lies in row 7. The state's type allows it. -/
def crossingAcc : NAcc := ⟨0, 512 * 7 - 1, [0, 1], [true, true], false⟩

/-- A computing region whose cluster 0 has `tileRun` at the epilogue while `crossingAcc` locks the last row of its C. -/
def lockedPlate : State :=
  (State.reset.setRegion 0 ((Region.reset.wr PWR_STATUS_STATE 2).wr DRV_STATUS_STATE 2)).setCluster 0
    { Cluster.reset with mu := { Mu.reset with runs := [tileRun] }, accs := [crossingAcc] }

/-- Byte a of cluster 0's memory after its MU_EPILOGUE. -/
def State.byteAfterEpilogue (s : State) (a : Nat) : Option Byte :=
  match exec (.muEpilogue ⟨0, ⟨[], []⟩, false⟩) s with
  | .next t => some (Mem.byte (t.cluster 0).mem a)
  | _ => none

theorem lockedPlate_byte : Mem.byte (lockedPlate.cluster 0).mem (512 * 7) = 0 ∧ lockedPlate.byteAfterEpilogue (512 * 7) = some 1 := by decide +kernel

theorem tileCmd_plate : tileCmd.cRow + plateExtent 32 tileCmd.n tileCmd.fc = 7 := by decide

/-- Refutes O18: the statement's last clause does not bound the accumulate-writes in flight. The strip's write of row 6 first writes `crossingAcc` back (R232), whose
second byte is the first of row 7, behind C. -/
theorem not_matrixMultiplyRuns : ¬ Obligations.MatrixMultiplyRuns := by
  unfold Obligations.MatrixMultiplyRuns
  rintro ⟨-, -, -, hstrip⟩
  obtain ⟨hbefore, hafter⟩ := lockedPlate_byte
  obtain ⟨t, hexec, -, hframe, -⟩ := hstrip lockedPlate 0 tileRun ⟨0, 0, List.replicate 512 0, false⟩ (by decide +kernel) (by decide +kernel) rfl rfl rfl
    (List.length_replicate ..) (by decide) (by decide) (by decide) (by decide) (by decide) (by decide) (by decide) (by decide) rfl rfl (by decide +kernel)
    (by decide +kernel)
  have hkept : Mem.byte (t.cluster 0).mem (512 * 7) = Mem.byte (lockedPlate.cluster 0).mem (512 * 7) :=
    hframe (512 * 7) (.inr (Nat.mul_le_mul_left 512 tileCmd_plate.le))
  rw [State.byteAfterEpilogue, hexec] at hafter
  have hone : Mem.byte (t.cluster 0).mem (512 * 7) = 1 := Option.some.inj hafter
  exact absurd (hone.symm.trans (hkept.trans hbefore)) (by decide)

end Sys2Proof.Machine
end

section
namespace Sys2Proof.Machine

/-! ## What a firing leaves beside its tokens: the block buffer, the counters and the responses it waits for (R171, R185, R190) -/

/-- The element with token counters written (R173). -/
def Elem.setCtrs (x : Elem) (l : List (Nat × Nat)) : Elem := l.foldl (fun y k => y.wr (EL_CTR_REMAIN.nth k.1) k.2) x

/-- The element with tokens paid for in credits (R107). -/
def Elem.paid (x : Elem) (n0 n1 : Nat) : Elem :=
  (x.wr (EL_OBIND_CREDITS.nth 0) (x.rd (EL_OBIND_CREDITS.nth 0) - n0)).wr (EL_OBIND_CREDITS.nth 1) (x.rd (EL_OBIND_CREDITS.nth 1) - n1)

/-- The element with one more response outstanding for a queue, if there is one (R171). -/
def Elem.awaits (x : Elem) : Option Nat → Elem
  | some q => x.wr (EL_QCFG_OUTST.nth q) (x.rd (EL_QCFG_OUTST.nth q) + 1)
  | none => x

theorem Elem.rd_paid (x : Elem) (n0 n1 : Nat) {f : Fld} (hf : f.off ∉ creditOffs) : (x.paid n0 n1).rd f = x.rd f := by
  have hne : ∀ b < 2, f.off ≠ (EL_OBIND_CREDITS.nth b).off := fun b hb h => hf (h ▸ credits_off_mem hb)
  exact (Elem.rd_wr_ne _ _ _ _ (hne 1 (by decide))).trans (Elem.rd_wr_ne _ _ _ _ (hne 0 (by decide)))

section
variable {x y : Elem} (h : y.regs = x.regs)
include h

theorem Elem.rd_congr (f : Fld) : y.rd f = x.rd f := congrArg (fun r => Regs.rd elTable r f) h

theorem Elem.wr_congr (f : Fld) {v w : Nat} (hv : v = w) : (y.wr f v).regs = (x.wr f w).regs := hv ▸ congrArg (fun r => Regs.wr elTable r f v) h

theorem Elem.paid_congr (n0 n1 : Nat) : (y.paid n0 n1).regs = (x.paid n0 n1).regs :=
  Elem.wr_congr (Elem.wr_congr h _ (congrArg (· - n0) (Elem.rd_congr h _))) _ (congrArg (· - n1) (Elem.rd_congr h _))

end

theorem Elem.setCtrs_congr (l : List (Nat × Nat)) {x y : Elem} (h : y.regs = x.regs) : (y.setCtrs l).regs = (x.setCtrs l).regs := by
  induction l generalizing x y with
  | nil => exact h
  | cons k t ih => exact ih (Elem.wr_congr h _ rfl)

/-- What a plan leaves of an element's block buffer and registers. -/
theorem Elem.apply_effects (x : Elem) (i : Nat) (p : Plan) : (x.apply i p).block = p.block ∧
    (x.apply i p).regs = (((x.setCtrs p.ctr).paid p.o0.length p.o1.length).awaits p.resp).regs := by
  have hctr : (p.ctr.foldl (fun y k => y.wr (EL_CTR_REMAIN.nth k.1) k.2) (x.setCtx i p.ctx)).regs = (x.setCtrs p.ctr).regs :=
    Elem.setCtrs_congr p.ctr rfl
  unfold Elem.apply
  generalize p.ctr.foldl (fun y k => y.wr (EL_CTR_REMAIN.nth k.1) k.2) (x.setCtx i p.ctx) = y at hctr
  generalize x.setCtrs p.ctr = z at hctr
  extract_lets x1 x2 x3 x4 x5 x6
  have h3 : x3.block = p.block ∧ x3.regs = (z.paid p.o0.length p.o1.length).regs :=
    ⟨rfl, Elem.paid_congr (y := x2) hctr p.o0.length p.o1.length⟩
  have h4 : x4.block = p.block ∧ x4.regs = (z.paid p.o0.length p.o1.length).regs := by
    unfold x4
    split <;> exact h3
  have h5 : x5.block = p.block ∧ x5.regs = ((z.paid p.o0.length p.o1.length).awaits p.resp).regs := by
    obtain ⟨hblock, hregs⟩ := h4
    unfold x5
    cases p.resp with
    | none => exact ⟨hblock, hregs⟩
    | some q => exact ⟨hblock, Elem.wr_congr hregs _ (congrArg (· + 1) (Elem.rd_congr hregs _))⟩
  have h6 : x6.block = p.block ∧ x6.regs = ((z.paid p.o0.length p.o1.length).awaits p.resp).regs := by
    unfold x6
    split <;> exact h5
  split <;> exact h6

/-- The element after a firing without a fault: heads have left its queues, and then the plan has taken effect. -/
theorem State.applyPlan_elem (s : State) (c i : Nat) {e : Nat} (he : e < 32) {p : Plan} (hf : p.fault = 0) :
    ∃ y, ((s.cluster c).elem e).Moves y creditOffs ∧ ((s.applyPlan c e i p).cluster c).elem e = y.apply i p := by
  have hcluster : (s.applyPlan c e i p).cluster c = (s.cluster c).planFire e i p := by
    rw [State.applyPlan_eq, State.planned, if_neg (not_not.2 hf)]
    dsimp only
    split
    · exact State.cluster_setCluster_same _ _ _
    · exact State.cluster_setCluster_same _ _ _
  obtain ⟨-, -, hmoves⟩ := Cluster.Moves.foldl_popElem he (List.Subset.refl creditOffs)
    (p.pops.filterMap (fun k => ctxIn (((s.cluster c).elem e).ctxWord i 0) k)).dedup (s.cluster c)
  refine ⟨_, hmoves, ?_⟩
  rw [hcluster, Cluster.planFire, Cluster.modElem, Cluster.elem_setElem_same]

section
variable (s : State) (c i : Nat) {e : Nat} {p : Plan}

theorem State.applyPlan_block (he : e < 32) (hf : p.fault = 0) : (((s.applyPlan c e i p).cluster c).elem e).block = p.block := by
  obtain ⟨y, -, helem⟩ := s.applyPlan_elem c i he hf
  rw [helem]
  exact (y.apply_effects i p).1

/-- A token counter that a plan writes (R173, R185). -/
theorem State.applyPlan_ctr (he : e < 32) (hf : p.fault = 0) {k v : Nat} (hctr : p.ctr = [(k, v)]) (hresp : p.resp = none) :
    (((s.applyPlan c e i p).cluster c).elem e).rd (EL_CTR_REMAIN.nth k) = v % 2 ^ 32 := by
  obtain ⟨y, -, helem⟩ := s.applyPlan_elem c i he hf
  have hoff : (EL_CTR_REMAIN.nth k).off ∉ creditOffs := by
    rw [show (EL_CTR_REMAIN.nth k).off = 0x40 + 4 * k from rfl, show creditOffs = [0x10, 0x14] from rfl]
    simp
    omega
  rw [helem, Elem.rd_congr (y.apply_effects i p).2, hctr, hresp]
  exact (Elem.rd_paid _ _ _ hoff).trans (Elem.rd_wr_same y (EL_CTR_REMAIN.nth k) v (Nat.le_refl 32))

/-- A response that a plan waits for is outstanding (R171). -/
theorem State.applyPlan_outst (he : e < 32) (hf : p.fault = 0) {q : Nat} (hctr : p.ctr = []) (hresp : p.resp = some q) :
    (((s.applyPlan c e i p).cluster c).elem e).rd (EL_QCFG_OUTST.nth q) = (((s.cluster c).elem e).rd (EL_QCFG_OUTST.nth q) + 1) % 32 := by
  obtain ⟨y, hmoves, helem⟩ := s.applyPlan_elem c i he hf
  have hoff : (EL_QCFG_OUTST.nth q).off ∉ creditOffs := by
    rw [show (EL_QCFG_OUTST.nth q).off = 0x20 + 4 * q from rfl, show creditOffs = [0x10, 0x14] from rfl]
    simp
    omega
  rw [helem, Elem.rd_congr (y.apply_effects i p).2, hctr, hresp, ← hmoves.rd hoff, ← y.rd_paid p.o0.length p.o1.length hoff]
  exact Elem.rd_wr_same _ (EL_QCFG_OUTST.nth q) _ (show 16 + 5 ≤ 32 by decide)

theorem State.applyPlan_free (hf : p.fault = 0) (hfree : p.free = false) : (s.applyPlan c e i p).free = s.free := by
  have hplanned : (s.planned c e i p).free = s.free := by
    rw [State.planned, if_neg (not_not.2 hf), State.takesFree, if_neg (by rw [hfree]; decide)]
    rfl
  rw [State.applyPlan_eq]
  dsimp only
  split <;> exact hplanned

end

end Sys2Proof.Machine
end

section
namespace Sys2Proof.Machine

/-! ## An operation that acts on DATA (R178-R181) -/

/-- Where the heads let it act, an operation of R178 does what it does on DATA. -/
theorem View.simple_acts {v : View} (ha : v.acts = true) (f : Plan → Plan) : v.simple f = some (f (v.base v.boundIns)) := by
  obtain ⟨hheads, hmiss⟩ := (Bool.and_eq_true _ _).mp ha
  obtain ⟨hb, hh, hclean, -⟩ := (v.headsAre_iff _).1 hheads
  have hacts : v.misses = false := by rwa [Bool.not_eq_true'] at hmiss
  rw [v.simple_eq hb (fun k => View.isSome_of_headsHave hh) f, if_pos hh, hacts, hclean]
  rfl

theorem View.imm_lt (v : View) : v.imm < 2 ^ 32 := Nat.mod_lt _ (Nat.two_pow_pos _)

theorem View.opB_toNat (v : View) : v.opB.toNat = if v.bound 1 then (v.data 1).toNat % 2 ^ 32 else v.imm := by
  unfold View.opB
  split
  · exact BitVec.toNat_setWidth _ _
  · exact Nat.mod_eq_of_lt v.imm_lt

theorem View.tok_setWidth (v : View) (tag : Tag) (w : W32) : v.tok tag w.toNat = ⟨w.setWidth 64, tag, v.epoch, false⟩ := by
  rw [View.tok, BitVec.ofNat_toNat]

/-- What a firing leaves that emits one token on every enabled output, and does nothing else. -/
theorem EmitsOne.of_plan {i : ClusterId → Fin 32 → Fin 8 → Instr} {op cls : Nat} {plan : View → Option Plan} {r : View → Tok} (vec : Bool)
    (hexec : ∀ c e x s, exec (i c e x) s = .next (s.fire c.val e.val x.val op plan [])) (hcls : cls = if vec then 7 else 6)
    (hplan : ∀ v : View, v.acts = true → plan v = some { v.emit (v.base v.boundIns) [r v] with vec := vec }) : EmitsOne i op cls r := by
  intro s c e x hm ha
  have hp := hplan _ ha
  refine ⟨_, hexec c e x s, ?_, ?_⟩
  · rw [hcls]
    exact State.fire_emits e.isLt hm (fun _ => View.lt_of_mem_boundIns) hp
  · rw [State.fire_planned hm hp]
    exact s.applyPlan_free c.val x.val rfl rfl

section
variable {i : ClusterId → Fin 32 → Fin 8 → Instr} {op : Nat} {plan : View → Option Plan}
variable (hexec : ∀ c e x s, exec (i c e x) s = .next (s.fire c.val e.val x.val op plan []))
include hexec

theorem EmitsOne.of_simple {r : View → Tok} (hplan : ∀ v : View, plan v = v.simple (fun p => v.emit p [r v])) : EmitsOne i op 6 r :=
  EmitsOne.of_plan false hexec rfl (fun v ha => (hplan v).trans (View.simple_acts ha _))

theorem EmitsOne.of_simpleV {r : View → Tok}
    (hplan : ∀ v : View, plan v = (v.simple (fun p => v.emit p [r v])).map (fun p => { p with vec := true })) : EmitsOne i op 7 r :=
  EmitsOne.of_plan true hexec rfl (fun v ha => (hplan v).trans (congrArg (Option.map _) (View.simple_acts ha _)))

/-- An operation whose plan computes on the operands' numbers what g does on their words. -/
theorem Scalar.of_scalar {f : Nat → Nat → Nat → Nat} {g : W32 → W32 → W32 → W32} (hplan : ∀ v : View, plan v = v.scalar f)
    (hfg : ∀ a b c : W32, f a.toNat b.toNat c.toNat % 2 ^ 32 = (g a b c).toNat) : Scalar i op g := by
  refine EmitsOne.of_simple hexec (fun v => ?_)
  rw [hplan, View.scalar]
  rw [← v.opB_toNat, ← BitVec.toNat_setWidth, ← BitVec.toNat_setWidth, hfg, View.tok_setWidth]
  rfl

theorem Scalar.of_float {g : W32 → W32 → W32 → W32} (hplan : ∀ v : View, plan v = v.float g) : Scalar i op g := by
  refine Scalar.of_scalar hexec hplan (fun a b c => ?_)
  rw [BitVec.ofNat_toNat, BitVec.ofNat_toNat, BitVec.ofNat_toNat]
  exact Nat.mod_eq_of_lt (BitVec.isLt _)

theorem Predicate.of_predicate {f : View → Nat → Nat → Bool} {g : Nat → W32 → W32 → Bool} (hplan : ∀ v : View, plan v = v.predicate (f v))
    (hfg : ∀ (v : View) (a b : W32), f v a.toNat b.toNat = g v.cond a b) : Predicate i op g := by
  refine EmitsOne.of_simple hexec (fun v => ?_)
  rw [hplan, View.predicate]
  rw [← v.opB_toNat, ← BitVec.toNat_setWidth, hfg]
  change v.simple (fun p => v.emit p [v.tok .pred (if g v.cond v.opA v.opB then 1 else 0)]) = _
  cases g v.cond v.opA v.opB <;> rfl

end

end Sys2Proof.Machine
end

section
namespace Sys2Proof.Machine

/-! ## Integer and bit operations (R180) -/

theorem toSigned_toNat (a : W32) : toSigned 32 a.toNat = a.toInt := by
  rw [toSigned, Nat.mod_eq_of_lt a.isLt, BitVec.toInt_eq_toNat_cond]
  split <;> split <;> omega

theorem imin_toNat (a b : W32) : (if toSigned 32 a.toNat ≤ toSigned 32 b.toNat then a.toNat else b.toNat) % 2 ^ 32 =
    (if b.slt a then b else a).toNat := by
  rw [toSigned_toNat, toSigned_toNat]
  cases hlt : b.slt a with
  | true =>
    rw [if_neg (not_le.2 (BitVec.slt_iff_toInt_lt.1 hlt))]
    exact Nat.mod_eq_of_lt b.isLt
  | false =>
    rw [if_pos (not_lt.1 (fun h => absurd (BitVec.slt_iff_toInt_lt.2 h) (by rw [hlt]; decide)))]
    exact Nat.mod_eq_of_lt a.isLt

theorem imax_toNat (a b : W32) : (if toSigned 32 a.toNat ≤ toSigned 32 b.toNat then b.toNat else a.toNat) % 2 ^ 32 =
    (if a.slt b then b else a).toNat := by
  rw [toSigned_toNat, toSigned_toNat]
  cases hlt : a.slt b with
  | true =>
    rw [if_pos (BitVec.slt_iff_toInt_lt.1 hlt).le]
    exact Nat.mod_eq_of_lt b.isLt
  | false =>
    have hle : b.toInt ≤ a.toInt := not_lt.1 (fun h => absurd (BitVec.slt_iff_toInt_lt.2 h) (by rw [hlt]; decide))
    have hsame : (if a.toInt ≤ b.toInt then b.toNat else a.toNat) = a.toNat := by
      split
      · next h => rw [BitVec.toInt_inj.1 (le_antisymm h hle)]
      · rfl
    rw [hsame]
    exact Nat.mod_eq_of_lt a.isLt

/-- COND on the difference of two signed words is COND's comparison of the words (R173). -/
theorem condInt_signed (k : Nat) (a b : W32) : condInt k (toSigned 32 a.toNat - toSigned 32 b.toNat) =
    if k = 0 then a == b else if k = 1 then a != b else if k = 2 then a.slt b else if k = 3 then a.sle b else if k = 4 then b.slt a else b.sle a := by
  have heq : (toSigned 32 a.toNat - toSigned 32 b.toNat == 0) = (a == b) := by
    rw [toSigned_toNat, toSigned_toNat, Bool.eq_iff_iff, beq_iff_eq, beq_iff_eq, sub_eq_zero, BitVec.toInt_inj]
  unfold condInt BitVec.slt BitVec.sle
  rw [bne, heq, ← bne, toSigned_toNat, toSigned_toNat]
  simp only [sub_neg, sub_nonpos, sub_pos, sub_nonneg]

/-- Bits 63:32 of the signed product (R180). -/
theorem imulh_toNat (a b : W32) : (BitVec.ofInt 64 (toSigned 32 a.toNat * toSigned 32 b.toNat)).toNat / 2 ^ 32 % 2 ^ 32 =
    (((a.signExtend 64 * b.signExtend 64) >>> 32).setWidth 32).toNat := by
  have hproduct : BitVec.ofInt 64 (toSigned 32 a.toNat * toSigned 32 b.toNat) = a.signExtend 64 * b.signExtend 64 := by
    rw [toSigned_toNat, toSigned_toNat, BitVec.ofInt_mul]
    rfl
  rw [hproduct, BitVec.toNat_setWidth, BitVec.toNat_ushiftRight, Nat.shiftRight_eq_div_pow]

/-- Settles O19: each operation's plan computes on numbers what the statement computes on words. -/
theorem integerOperations : Obligations.IntegerOperations := by
  unfold Obligations.IntegerOperations
  refine ⟨?_, ?_, ?_, ?_, ?_, ?_, ?_, ?_, ?_, ?_, ?_, ?_, ?_, ?_, ?_, ?_⟩
  · exact Scalar.of_scalar (fun _ _ _ _ => rfl) (fun _ => rfl) (fun a b _ => (BitVec.toNat_add a b).symm)
  · refine Scalar.of_scalar (fun _ _ _ _ => rfl) (fun _ => rfl) (fun a b _ => ?_)
    rw [BitVec.toNat_sub]
    omega
  · exact Scalar.of_scalar (fun _ _ _ _ => rfl) (fun _ => rfl) (fun a b _ => (BitVec.toNat_mul a b).symm)
  · exact Scalar.of_scalar (fun _ _ _ _ => rfl) (fun _ => rfl) (fun a b _ => imulh_toNat a b)
  · exact Scalar.of_scalar (fun _ _ _ _ => rfl) (fun _ => rfl) (fun a b _ => Nat.mod_eq_of_lt (a &&& b).isLt)
  · exact Scalar.of_scalar (fun _ _ _ _ => rfl) (fun _ => rfl) (fun a b _ => Nat.mod_eq_of_lt (a ||| b).isLt)
  · exact Scalar.of_scalar (fun _ _ _ _ => rfl) (fun _ => rfl) (fun a b _ => Nat.mod_eq_of_lt (a ^^^ b).isLt)
  · exact Scalar.of_scalar (fun _ _ _ _ => rfl) (fun _ => rfl) (fun a b _ => (BitVec.toNat_shiftLeft ..).symm)
  · exact Scalar.of_scalar (fun _ _ _ _ => rfl) (fun _ => rfl) (fun a b _ => Nat.mod_eq_of_lt (a >>> (b.toNat % 32)).isLt)
  · refine Scalar.of_scalar (fun _ _ _ _ => rfl) (fun _ => rfl) (fun a b _ => ?_)
    rw [BitVec.ofNat_toNat, BitVec.setWidth_eq]
    exact Nat.mod_eq_of_lt (BitVec.isLt _)
  · exact Scalar.of_scalar (fun _ _ _ _ => rfl) (fun _ => rfl) (fun a b _ => imin_toNat a b)
  · exact Scalar.of_scalar (fun _ _ _ _ => rfl) (fun _ => rfl) (fun a b _ => imax_toNat a b)
  · exact Scalar.of_scalar (fun _ _ _ _ => rfl) (fun _ => rfl) (fun a b c => by rw [BitVec.toNat_add, BitVec.toNat_mul, Nat.mod_add_mod])
  · exact Predicate.of_predicate (fun _ _ _ _ => rfl) (fun _ => rfl) (fun v a b => condInt_signed v.cond a b)
  · exact EmitsOne.of_simple (fun _ _ _ _ => rfl) (fun _ => rfl)
  · exact EmitsOne.of_simple (fun _ _ _ _ => rfl) (fun v => by rw [← View.tok_toNat]; rfl)

end Sys2Proof.Machine
end

section
namespace Sys2Proof.Machine

/-! ## Any plan without a fault, from the heads of the inputs it names (R108, R175-R177) -/

/-- A plan that fires without a fault and truncates no run, with its counters and its response queue at the offsets given. -/
structure Plan.Fires (p : Plan) (offs : List Nat) : Prop where
  fault : p.fault = 0
  trunc : p.trunc = false
  pops : ∀ k ∈ p.pops, k < 4
  ctr : ∀ k ∈ p.ctr, (EL_CTR_REMAIN.nth k.1).off ∈ creditOffs ++ offs
  resp : ∀ q, p.resp = some q → (EL_QCFG_OUTST.nth q).off ∈ creditOffs ++ offs

section
variable {s : State} {c e x op : Nat} {plan : View → Option Plan} {u : List Nat}

theorem State.fire_fires {p : Plan} {offs : List Nat} (he : e < 32) (hm : s.mayFire c e x op = true) (hp : plan (s.fireView c e x u) = some p)
    (hfires : p.Fires offs) :
    Fired s (s.fire c e x op plan u) c e x (p.pops.filterMap (s.fireView c e x u).inQ) p.o0 p.o1 p.ctx (p.memAfter ((s.cluster c).elem e).mem)
      (if p.vec then 7 else 6) offs := by
  rw [State.fire_planned hm hp]
  exact s.applyPlan_fires c he hfires.fault hfires.trunc hfires.pops hfires.ctr hfires.resp

/-- The plan that consumes heads, emits tokens and changes its context and the block buffer. -/
theorem State.fire_base (he : e < 32) (hm : s.mayFire c e x op = true) {l : List Nat} (hl : ∀ k ∈ l, k < 4) {o0 o1 : List Tok} {k : Ctx} {block : List W32}
    {vec free : Bool}
    (hp : plan (s.fireView c e x u) = some { (s.fireView c e x u).base l with o0 := o0, o1 := o1, ctx := k, block := block, vec := vec, free := free }) :
    Fired s (s.fire c e x op plan u) c e x (l.filterMap (s.fireView c e x u).inQ) o0 o1 k ((s.cluster c).elem e).mem (if vec then 7 else 6) [] :=
  State.fire_fires he hm hp ⟨rfl, rfl, hl, fun _ h => absurd h List.not_mem_nil, fun _ h => absurd h.symm (Option.some_ne_none _)⟩

end

theorem Tag.data_or_pred {a : Tag} (h : a.isData = true) : a = .data ∨ a = .pred := by
  cases a with
  | data => exact .inl rfl
  | pred => exact .inr rfl
  | last => cases h
  | mark => cases h

section
variable (v : View)

@[simp] theorem View.filterMap_inQ_one (k : Nat) : [k].filterMap v.inQ = (v.inQ k).toList := by
  rw [List.filterMap_cons, List.filterMap_nil]
  cases v.inQ k <;> rfl

@[simp] theorem View.filterMap_inQ_two (j k : Nat) : [j, k].filterMap v.inQ = (v.inQ j).toList ++ (v.inQ k).toList := by
  rw [← v.filterMap_inQ_one k, List.filterMap_cons]
  cases v.inQ j <;> rfl

variable {v}

theorem View.poisoned_one {k : Nat} {t : Tok} (hk : v.head k = some t) : v.poisoned [k] = t.poison := by
  rw [View.poisoned, List.any_cons, List.any_nil, hk, Bool.or_false]

theorem View.poisoned_two {j k : Nat} {d t : Tok} (hj : v.head j = some d) (hk : v.head k = some t) : v.poisoned [j, k] = (d.poison || t.poison) := by
  rw [View.poisoned, List.any_cons, List.any_cons, List.any_nil, hj, hk, Bool.or_false]

/-- A plan that consumes no poisoned token stands. -/
theorem View.checked_clean {p : Plan} (h : v.poisoned p.pops = false) : v.checked p = p := if_neg (by rw [h]; decide)

theorem View.checkedV_clean {p : Plan} (h : v.poisoned p.pops = false) : v.checkedV p = { p with vec := true } := by
  rw [View.checkedV, View.checked_clean h]

end

end Sys2Proof.Machine
end

section
namespace Sys2Proof.Machine

/-! ## FP32 operations, the special functions and ACC (R180-R182) -/

section
variable {v : View} {k : Tok} (hk : v.head 0 = some k) (hp : k.poison = false)
include hk hp

/-- The lanes of ACC's sum: INT32 or FP32 by FMT, an FP32 lane rounded once (R181). -/
theorem planAcc_data (hd : k.tag.isData = true) : planAcc v = some { v.base [0] with
    vec := true
    ctx := { v.ctx with
      accOpen := true
      acc := BitVec.ofNat 64 (packLanes 11 ([0, 1].map (fun j =>
        let a := laneAt 11 v.ctx.acc j; let b := laneAt 11 k.data j
        if v.fmt = 12 then (a + b) % 2 ^ 32 else (toF32 (fsum [f32 (BitVec.ofNat 32 a), f32 (BitVec.ofNat 32 b)])).toNat))) } } := by
  have hclean : v.poisoned [0] = false := (View.poisoned_one hk).trans hp
  unfold planAcc
  rw [hk]
  rcases Tag.data_or_pred hd with htag | htag <;>
  · simp only [htag]
    exact congrArg some (View.checkedV_clean hclean)

/-- LAST emits the accumulator and clears it (R180). -/
theorem planAcc_last (hl : k.tag = .last) : planAcc v = some { v.base [0] with
    vec := true
    o0 := v.out 0 [⟨v.ctx.acc, .data, v.epoch, false⟩]
    o1 := v.out 1 [⟨v.ctx.acc, .data, v.epoch, false⟩]
    ctx := { v.ctx with accOpen := false, acc := 0 } } := by
  have hclean : v.poisoned [0] = false := (View.poisoned_one hk).trans hp
  unfold planAcc
  rw [hk]
  simp only [hl, View.tok_toNat]
  exact congrArg some (View.checkedV_clean hclean)

end

/-- Settles O20: the plans compute on words already; ACC by the tag of its head. -/
theorem floatOperations : Obligations.FloatOperations := by
  unfold Obligations.FloatOperations
  refine ⟨?_, ?_, ?_, ?_, ?_, ?_, ?_, ?_, ?_, ?_, ?_, ?_, ?_⟩
  · exact Scalar.of_float (fun _ _ _ _ => rfl) (fun _ => rfl)
  · exact Scalar.of_float (fun _ _ _ _ => rfl) (fun _ => rfl)
  · exact Scalar.of_float (fun _ _ _ _ => rfl) (fun _ => rfl)
  · exact Scalar.of_float (fun _ _ _ _ => rfl) (fun _ => rfl)
  · exact Scalar.of_float (fun _ _ _ _ => rfl) (fun _ => rfl)
  · exact Scalar.of_float (fun _ _ _ _ => rfl) (fun _ => rfl)
  · refine Predicate.of_predicate (fun _ _ _ _ => rfl) (fun _ => rfl) (fun v a b => ?_)
    rw [BitVec.ofNat_toNat, BitVec.ofNat_toNat, BitVec.setWidth_eq, BitVec.setWidth_eq]
  · exact Scalar.of_float (fun _ _ _ _ => rfl) (fun _ => rfl)
  · exact Scalar.of_float (fun _ _ _ _ => rfl) (fun _ => rfl)
  · exact Scalar.of_float (fun _ _ _ _ => rfl) (fun _ => rfl)
  · exact Scalar.of_float (fun _ _ _ _ => rfl) (fun _ => rfl)
  · intro s c e x k hm hk hd hp
    rw [← View.filterMap_inQ_one]
    exact ⟨_, rfl, State.fire_base e.isLt hm (by decide) (planAcc_data hk hp hd)⟩
  · intro s c e x k hm hk hl hp
    rw [← View.filterMap_inQ_one]
    exact ⟨_, rfl, State.fire_base e.isLt hm (by decide) (planAcc_last hk hp hl)⟩

end Sys2Proof.Machine
end

section
namespace Sys2Proof.Machine

/-! ## Lane operations, CVT, ZDET and CVTMX (R181, R183, R190) -/

/-- The two FP32 lanes of a token (R152). -/
theorem laneAt_fp32 (w : W64) : [BitVec.ofNat 32 (laneAt 11 w 0), BitVec.ofNat 32 (laneAt 11 w 1)] = [w.setWidth 32, (w >>> 32).setWidth 32] := by
  have hlane : ∀ i, laneAt 11 w i = (w >>> (i * 32)).toNat % 2 ^ 32 := fun i => by rw [BitVec.toNat_ushiftRight]; rfl
  rw [hlane, hlane, ← BitVec.toNat_setWidth, ← BitVec.toNat_setWidth, BitVec.ofNat_toNat, BitVec.ofNat_toNat, BitVec.setWidth_eq, BitVec.setWidth_eq,
    Nat.zero_mul, BitVec.ushiftRight_zero]

section
variable {v : View} {k : Tok} (hk : v.head 0 = some k) (hd : k.tag.isData = true) (hp : k.poison = false)
include hk hd hp

/-- CVTMX on DATA takes the token's two lanes into the block, and puts out the block that they fill (R190). -/
theorem planCvtmx_data : planCvtmx v = some (
    let vs := v.block ++ [k.data.setWidth 32, (k.data >>> 32).setWidth 32]
    if 32 ≤ vs.length then { v.base [0] with
      vec := true
      o0 := (packCodes (fmtBits v.fmt2) (toMx v.fmt2 vs).2).map (fun w => ⟨BitVec.ofNat 64 w, .data, v.epoch, false⟩)
      o1 := [⟨BitVec.ofNat 64 (toMx v.fmt2 vs).1, .data, v.epoch, false⟩]
      block := [] }
    else { v.base [0] with vec := true, block := vs }) := by
  have hclean : v.poisoned [0] = false := (View.poisoned_one hk).trans hp
  have hpassed : ∀ p : Plan, p.pops = [0] → v.checkedV p = { p with vec := true } := fun p hpops => View.checkedV_clean (by rw [hpops, hclean])
  unfold planCvtmx
  rw [hk]
  rcases Tag.data_or_pred hd with htag | htag <;>
  · simp only [htag, laneAt_fp32]
    split <;> exact congrArg some (hpassed _ rfl)

end

/-- Settles O21: each lane operation's plan is the statement's token; CVTMX by the length of its block. -/
theorem laneOperations : Obligations.LaneOperations := by
  unfold Obligations.LaneOperations
  refine ⟨?_, ?_, ?_, ?_, ?_, ?_, ?_, ?_, ?_, ?_⟩
  · exact EmitsOne.of_simpleV (fun _ _ _ _ => rfl) (fun _ => rfl)
  · exact EmitsOne.of_simpleV (fun _ _ _ _ => rfl) (fun _ => rfl)
  · exact EmitsOne.of_simpleV (fun _ _ _ _ => rfl) (fun _ => rfl)
  · exact EmitsOne.of_simpleV (fun _ _ _ _ => rfl) (fun _ => rfl)
  · exact EmitsOne.of_simpleV (fun _ _ _ _ => rfl) (fun _ => rfl)
  · refine EmitsOne.of_simpleV (fun _ _ _ _ => rfl) (fun v => ?_)
    rw [← View.tok_setWidth, View.opC, BitVec.toNat_setWidth]
    unfold planVdot
    cases v.bound 2
    · rw [if_neg (by decide), List.append_nil]
      rfl
    · rfl
  · exact EmitsOne.of_simpleV (fun _ _ _ _ => rfl) (fun _ => rfl)
  · exact EmitsOne.of_simple (fun _ _ _ _ => rfl) (fun _ => rfl)
  · intro s c e x k hm hk hd hp hlen
    have hplan := planCvtmx_data hk hd hp
    rw [if_neg (by rw [List.length_append]; exact Nat.not_le.2 (Nat.add_lt_add_right hlen 2))] at hplan
    rw [← View.filterMap_inQ_one]
    refine ⟨_, rfl, State.fire_base e.isLt hm (by decide) hplan, ?_⟩
    rw [State.fire_planned hm hplan]
    exact s.applyPlan_block c.val x.val e.isLt rfl
  · intro s c e x k b hm hk hd hp hb hlen
    subst hb
    have hplan := planCvtmx_data hk hd hp
    rw [if_pos (by rw [List.length_append]; exact Nat.add_le_add_right hlen.ge 2)] at hplan
    rw [← View.filterMap_inQ_one]
    refine ⟨_, rfl, State.fire_base e.isLt hm (by decide) hplan, ?_⟩
    rw [State.fire_planned hm hplan]
    exact s.applyPlan_block c.val x.val e.isLt rfl

end Sys2Proof.Machine
end

section
namespace Sys2Proof.Machine

/-! ## Steering (R184) -/

section
variable {v : View} {d q : Tok}

theorem planSwitch_data (hd : v.head 0 = some d) (hq : v.head 1 = some q) (hdt : d.tag = .data) (hqt : q.tag = .pred) (hdp : d.poison = false)
    (hqp : q.poison = false) (h3 : v.bound 3 = false) : planSwitch v = some { v.base [0, 1] with
      o0 := if q.data.getLsbD 0 then v.out 0 [⟨d.data, .data, v.epoch, false⟩] else []
      o1 := if q.data.getLsbD 0 then [] else v.out 1 [⟨d.data, .data, v.epoch, false⟩] } := by
  have hclean : v.poisoned [0, 1] = false := by rw [View.poisoned_two hd hq, hdp, hqp]; rfl
  unfold planSwitch View.steer
  rw [h3, hd, hq]
  simp only [hdt, hqt, and_self, if_true, View.tok_toNat]
  cases q.data.getLsbD 0 <;> exact congrArg some (View.checked_clean hclean)

theorem planFilter_data (hd : v.head 0 = some d) (hq : v.head 1 = some q) (hdt : d.tag = .data) (hqt : q.tag = .pred) (hdp : d.poison = false)
    (hqp : q.poison = false) (h3 : v.bound 3 = false) : planFilter v = some { v.base [0, 1] with
      o0 := if q.data.getLsbD 0 then v.out 0 [⟨d.data, .data, v.epoch, false⟩] else []
      o1 := if q.data.getLsbD 0 then v.out 1 [⟨d.data, .data, v.epoch, false⟩] else [] } := by
  have hclean : v.poisoned [0, 1] = false := by rw [View.poisoned_two hd hq, hdp, hqp]; rfl
  rw [planFilter_eq hd hq h3, if_pos ⟨hdt, hqt⟩, View.tok_toNat]
  cases q.data.getLsbD 0 <;> exact congrArg some (View.checked_clean hclean)

theorem planMerge_data {k : Nat} (hq : v.head 2 = some q) (hqt : q.tag = .pred) (hk : k = if q.data.getLsbD 0 then 0 else 1) (hd : v.head k = some d)
    (hdt : d.tag = .data) (hdp : d.poison = false) (hqp : q.poison = false) :
    planMerge v = some (v.emit (v.base [k, 2]) [⟨d.data, .data, v.epoch, false⟩]) := by
  have hclean : v.poisoned [k, 2] = false := by rw [View.poisoned_two hd hq, hdp, hqp]; rfl
  unfold planMerge
  rw [hq]
  simp only [hqt, ← hk, hd, hdt, if_true, View.tok_toNat]
  exact congrArg some (View.checked_clean hclean)

/-- A head at one input of MERGEA alone. -/
theorem planMergea_one (k : Fin 2) (hd : v.head k.val = some d) (hnone : v.head (1 - k.val) = none) (hdt : d.tag.isData = true) (hdp : d.poison = false) :
    planMergea v = some (v.emit (v.base [k.val]) [⟨d.data, d.tag, v.epoch, false⟩]) := by
  have hclean : v.poisoned [k.val] = false := (View.poisoned_one hd).trans hdp
  unfold planMergea
  fin_cases k
  · rw [show v.head 0 = some d from hd, show v.head 1 = none from hnone]
    simp only [hdt, if_true, View.tok_toNat]
    exact congrArg some (View.checked_clean hclean)
  · rw [show v.head 1 = some d from hd, show v.head 0 = none from hnone]
    simp only [hdt, if_true, View.tok_toNat]
    exact congrArg some (View.checked_clean hclean)

theorem planRepeat_data (hd : v.head 0 = some d) (hq : v.head 1 = some q) (hdt : d.tag.isData = true) (hqt : q.tag.isData = true)
    (hdp : d.poison = false) (hqp : q.poison = false) : planRepeat v = some (v.emit (v.base [1]) [⟨d.data, d.tag, v.epoch, false⟩]) := by
  unfold planRepeat
  rw [hd, hq]
  simp only [hdt, hqt, hdp, hqp, if_true, View.tok_toNat]
  rfl

theorem planRepeat_last (hd : v.head 0 = some d) (hq : v.head 1 = some q) (hdt : d.tag ≠ .mark) (hqt : q.tag = .last) (hdp : d.poison = false)
    (hqp : q.poison = false) : planRepeat v = some { v.emit (v.base [0, 1]) [⟨v.free, .last, v.epoch, false⟩] with free := true } := by
  have hclean : v.poisoned [0, 1] = false := by rw [View.poisoned_two hd hq, hdp, hqp]; rfl
  unfold planRepeat
  rw [hd, hq]
  simp only [hqt, hdt, if_true, if_false, View.tok_toNat]
  exact congrArg some (View.checked_clean hclean)

end

/-- Settles O24: each operation's plan for the tags of its heads, carried out. -/
theorem steeringOperations : Obligations.SteeringOperations := by
  unfold Obligations.SteeringOperations
  refine ⟨?_, ?_, ?_, ?_, ?_, ?_⟩
  · intro s c e x d q hm hd hq hdt hqt hdp hqp h3 _
    rw [← View.filterMap_inQ_two]
    exact ⟨_, rfl, State.fire_base e.isLt hm (by decide) (planSwitch_data hd hq hdt hqt hdp hqp h3)⟩
  · intro s c e x d q hm hd hq hdt hqt hdp hqp h3 _
    rw [← View.filterMap_inQ_two]
    exact ⟨_, rfl, State.fire_base e.isLt hm (by decide) (planFilter_data hd hq hdt hqt hdp hqp h3)⟩
  · intro s c e x d q k hm hq hqt hk hd hdt hdp hqp _
    have hlt : ∀ j ∈ [k, 2], j < 4 := by
      rw [hk]
      split <;> decide
    rw [← View.filterMap_inQ_two]
    exact ⟨_, rfl, State.fire_base e.isLt hm hlt (planMerge_data hq hqt hk hd hdt hdp hqp)⟩
  · intro s c e x d k hm hd hnone hdt hdp
    have hlt : ∀ j ∈ [k.val], j < 4 := fun j hj => List.mem_singleton.1 hj ▸ k.isLt.trans (by decide)
    rw [← View.filterMap_inQ_one]
    exact ⟨_, rfl, State.fire_base e.isLt hm hlt (planMergea_one k hd hnone hdt hdp)⟩
  · intro s c e x d q hm hd hq hdt hqt hdp hqp
    rw [← View.filterMap_inQ_one]
    exact ⟨_, rfl, State.fire_base e.isLt hm (by decide) (planRepeat_data hd hq hdt hqt hdp hqp)⟩
  · intro s c e x d q hm hd hq hdt hqt hdp hqp _
    rw [← View.filterMap_inQ_two]
    exact ⟨_, rfl, _, State.fire_base (l := [0, 1]) e.isLt hm (by decide) (planRepeat_last hd hq hdt hqt hdp hqp)⟩

end Sys2Proof.Machine
end

section
namespace Sys2Proof.Machine

/-! ## Counting (R185-R187) -/

/-- A start token of a counting operation, outside a drain (R185, R186). -/
theorem View.start_data {v : View} {k : Tok} (hdrain : v.drain = 0) (hk : v.head 0 = some k) (hd : k.tag.isData = true) (hp : k.poison = false)
    {go : Plan → W64 → Plan} (hgo : (go (v.base [0]) k.data).pops = [0]) : v.start go = some (go (v.base [0]) k.data) := by
  have hclean : v.poisoned (go (v.base [0]) k.data).pops = false := by rw [hgo, View.poisoned_one hk, hp]
  unfold View.start
  rw [hk]
  rcases Tag.data_or_pred hd with htag | htag <;>
  · simp only [htag, hdrain, ne_eq, not_true_eq_false, if_false]
    exact congrArg some (View.checked_clean hclean)

theorem View.toSigned_imm (v : View) : toSigned 32 v.imm = (BitVec.ofNat 32 v.imm).toInt := by
  rw [← toSigned_toNat, BitVec.toNat_ofNat, Nat.mod_eq_of_lt v.imm_lt]

/-- The i-th body token of a COUNT run (R185). -/
def View.countTok (v : View) (r : Run) : Tok :=
  ⟨BitVec.ofNat 64 ((BitVec.ofInt 32 ((r.base : Int) + r.i * (BitVec.ofNat 32 v.imm).toInt)).toNat + r.i % 2 ^ 32 * 2 ^ 32), .data, v.epoch, false⟩

/-- COUNT's emission is its next body token, or its LAST (R185). -/
theorem View.countEmit_eq (v : View) (l : List Nat) (r : Run) : v.countEmit (v.base l) r =
    if r.i < r.inner then { v.base l with
      o0 := v.out 0 [v.countTok r], o1 := v.out 1 [v.countTok r], ctx := { v.ctx with state := .run, run := { r with i := r.i + 1 } }
      ctr := [(v.ctr, r.inner - r.i - 1)] }
    else { v.base l with
      o0 := v.out 0 [⟨BitVec.ofNat 64 (r.inner * 2 ^ 32), .last, v.epoch, false⟩]
      o1 := v.out 1 [⟨BitVec.ofNat 64 (r.inner * 2 ^ 32), .last, v.epoch, false⟩]
      ctx := { v.ctx with state := .wait, run := ⟨0, 0, 0, 0, 0⟩ }, ctr := [(v.ctr, 0)] } := by
  unfold View.countEmit
  rw [v.toSigned_imm]
  split <;> rfl

/-- A start token's base is its lower half. -/
theorem ofInt_base (k : W64) : BitVec.ofNat 64 (BitVec.ofInt 32 ((k.toNat % 2 ^ 32 : Nat) : Int)).toNat = (k.setWidth 32).setWidth 64 := by
  rw [BitVec.ofInt_natCast, ← BitVec.toNat_setWidth, BitVec.ofNat_toNat, BitVec.ofNat_toNat, BitVec.setWidth_eq]

/-- The first body token of a run is its base, with index 0 (R185). -/
theorem View.countTok_first (v : View) (k : W64) (n : Nat) :
    v.countTok ⟨k.toNat % 2 ^ 32, n, 0, 0, 0⟩ = ⟨(k.setWidth 32).setWidth 64, .data, v.epoch, false⟩ := by
  rw [← ofInt_base, View.countTok]
  simp only [Nat.cast_zero, zero_mul, add_zero, Nat.zero_mod]

theorem planCount_data {v : View} {k : Tok} (hdrain : v.drain = 0) (hk : v.head 0 = some k) (hd : k.tag.isData = true) (hp : k.poison = false) :
    planCount v = some (v.countEmit (v.base [0]) ⟨k.data.toNat % 2 ^ 32, k.data.toNat / 2 ^ 32, 0, 0, 0⟩) :=
  View.start_data hdrain hk hd hp (by rw [View.countEmit_eq]; split <;> rfl)

theorem planNcount_data {v : View} {k : Tok} (hdrain : v.drain = 0) (hk : v.head 0 = some k) (hd : k.tag.isData = true) (hp : k.poison = false)
    (hinner : 0 < k.data.toNat / 2 ^ 32 % 2 ^ 16) (houter : 0 < k.data.toNat / 2 ^ 48) : planNcount v = some { v.base [0] with
      o0 := [⟨(k.data.setWidth 32).setWidth 64, .data, v.epoch, false⟩]
      ctx := { v.ctx with state := .run, run := ⟨k.data.toNat % 2 ^ 32, k.data.toNat / 2 ^ 32 % 2 ^ 16, k.data.toNat / 2 ^ 48, 1, 0⟩ }
      ctr := [(v.ctr, k.data.toNat / 2 ^ 32 % 2 ^ 16 - 1), (v.ctr + 1, k.data.toNat / 2 ^ 48)] } := by
  have hemit : v.ncountEmit (v.base [0]) ⟨k.data.toNat % 2 ^ 32, k.data.toNat / 2 ^ 32 % 2 ^ 16, k.data.toNat / 2 ^ 48, 0, 0⟩ = { v.base [0] with
      o0 := [⟨(k.data.setWidth 32).setWidth 64, .data, v.epoch, false⟩]
      ctx := { v.ctx with state := .run, run := ⟨k.data.toNat % 2 ^ 32, k.data.toNat / 2 ^ 32 % 2 ^ 16, k.data.toNat / 2 ^ 48, 1, 0⟩ }
      ctr := [(v.ctr, k.data.toNat / 2 ^ 32 % 2 ^ 16 - 1), (v.ctr + 1, k.data.toNat / 2 ^ 48)] } := by
    unfold View.ncountEmit
    simp only [hinner, houter, if_true, View.tok, wrap32, Nat.cast_zero, zero_mul, add_zero, ofInt_base, Nat.sub_zero, zero_add]
  rw [← hemit]
  exact View.start_data hdrain hk hd hp (by rw [hemit]; rfl)

/-- The lowest set bit of a mask comes first (R187). -/
theorem lowestBit_first {w : W64} {b : Nat} (hb : b < 64) (hset : w.getLsbD b = true) (hlow : ∀ j ∈ List.range b, w.getLsbD j = false) :
    ((List.range 64).filter (fun j => w.toNat.testBit j)).head? = some b := by
  rw [List.head?_filter, List.find?_range_eq_some]
  refine ⟨hset, List.mem_range.2 hb, fun j hj => ?_⟩
  rw [show w.toNat.testBit j = w.getLsbD j from rfl, hlow j (List.mem_range.2 hj)]
  rfl

theorem planPenc_mask {v : View} {b : Nat} (hdrain : v.drain = 0) (ha : v.acts = true) (hb : b < 64) (hset : (v.data 0).getLsbD b = true)
    (hlow : ∀ j ∈ List.range b, (v.data 0).getLsbD j = false) : planPenc v = some { v.emit (v.base v.boundIns)
      [⟨BitVec.ofNat 64 ((v.imm + b) % 2 ^ 32), .data, v.epoch, false⟩] with
      ctx := { v.ctx with state := .run, run := ⟨(v.data 0).toNat, 0, 0, 1, 0⟩ } } := by
  have hfirst := lowestBit_first hb hset hlow
  unfold planPenc
  rw [if_neg (fun h => h.1 hdrain), View.simple_acts ha, View.pencEmit]
  generalize (List.range 64).filter (fun j => (v.data 0).toNat.testBit j) = bits at hfirst ⊢
  cases bits with
  | nil => cases hfirst
  | cons j t =>
    obtain rfl := Option.some.inj hfirst
    simp only [List.length_cons, Nat.zero_lt_succ, if_true, List.getD_cons_zero, zero_mul, add_zero, zero_add]
    rfl

section
variable {s : State} {c e x : Nat} {u : List Nat}

/-- A firing that writes its token counter (R173, R185). -/
theorem State.applyPlan_counts (he : e < 32) {l : List Nat} (hl : ∀ k ∈ l, k < 4) (o0 o1 : List Tok) (k : Ctx) (n : Nat) :
    Fired s (s.applyPlan c e x { (s.fireView c e x u).base l with o0 := o0, o1 := o1, ctx := k, ctr := [((s.fireView c e x u).ctr, n)] }) c e x
      (l.filterMap (s.fireView c e x u).inQ) o0 o1 k ((s.cluster c).elem e).mem 6 [(EL_CTR_REMAIN.nth (s.fireView c e x u).ctr).off] :=
  s.applyPlan_fires c he rfl rfl hl (by simp) (fun _ h => absurd h.symm (Option.some_ne_none _))

end

theorem planRun_count {v : View} (hdrain : v.drain = 0) (hop : v.op = 0x38) : planRun v = some (v.countEmit (v.base []) v.ctx.run) := by
  unfold planRun
  simp only [hdrain, hop, if_true]
  rfl

/-- A context in RUN that is the next to fire emits by its plan (R176, R177). -/
theorem exec_contextRunEmit_eq {s : State} {c : ClusterId} {e : Fin 32} {x : Fin 8} {p : Plan}
    (hfires : s.runs c.val = true ∧ s.held c.val = false ∧ (((s.cluster c.val).elem e.val).ctx x.val).state = .run ∧
      ((s.cluster c.val).elem e.val).next e.val (s.region (regionOf c.val)).drainKind = some x.val)
    (hp : planRun (s.fireView c.val e.val x.val []) = some p) : exec (.contextRunEmit c e x) s = .next (s.applyPlan c.val e.val x.val p) := by
  change execContextRunEmit c e x s = _
  unfold execContextRunEmit
  dsimp only
  rw [if_pos hfires]
  unfold State.fireView at hp
  rw [hp]

/-- Settles O25: each start's plan is its first emission, and a context in RUN goes on by the same emissions. -/
theorem countingOperations : Obligations.CountingOperations := by
  unfold Obligations.CountingOperations
  refine ⟨?_, ?_, ?_, ?_⟩
  · intro s c e x k hm hdrain hk hd hp
    have hplan := planCount_data (v := s.fireView c.val e.val x.val []) hdrain hk hd hp
    rw [View.countEmit_eq, View.countTok_first] at hplan
    rw [← View.filterMap_inQ_one]
    refine ⟨_, congrArg Host.Outcome.next (State.fire_planned hm hplan), ?_, fun hlen => ?_, fun hlen => ?_⟩
    · have hlt := k.data.isLt
      split
      · rw [s.applyPlan_ctr c.val x.val e.isLt rfl rfl rfl]
        dsimp only
        omega
      · rw [s.applyPlan_ctr c.val x.val e.isLt rfl rfl rfl]
        dsimp only at *
        omega
    · rw [if_pos hlen]
      exact State.applyPlan_counts e.isLt (by decide) _ _ _ _
    · have hzero : BitVec.ofNat 64 (k.data.toNat / 2 ^ 32 * 2 ^ 32) = (0 : W64) := by
        rw [hlen, Nat.zero_mul]
        rfl
      rw [if_neg (Nat.not_lt.2 hlen.le), hzero]
      exact State.applyPlan_counts e.isLt (by decide) _ _ _ _
  · intro s c e x k hm hdrain hk hd hp hinner houter
    rw [← View.filterMap_inQ_one]
    refine ⟨_, rfl, State.fire_fires e.isLt hm (planNcount_data hdrain hk hd hp hinner houter) ⟨rfl, rfl, ?_, ?_, ?_⟩⟩
    · exact (by decide : ∀ k ∈ [0], k < 4)
    · simp
    · exact fun _ h => absurd h.symm (Option.some_ne_none _)
  · intro s c e x b hm hdrain ha hb hset hlow
    exact ⟨_, rfl, State.fire_base (l := (s.fireView c.val e.val x.val []).boundIns) e.isLt hm (fun _ => View.lt_of_mem_boundIns)
      (planPenc_mask hdrain ha hb hset hlow)⟩
  · intro s c e x r hrun hheld hdrain hstate hop hnext hr
    subst hr
    have hexec : exec (.contextRunEmit c e x) s = .next (s.applyPlan c.val e.val x.val ((s.fireView c.val e.val x.val []).countEmit
        ((s.fireView c.val e.val x.val []).base []) (((s.cluster c.val).elem e.val).ctx x.val).run)) :=
      exec_contextRunEmit_eq ⟨hrun, hheld, hstate, hnext⟩ (planRun_count hdrain ((Elem.word_op _ _).trans hop))
    rw [View.countEmit_eq] at hexec
    refine ⟨_, hexec, fun hlen => ?_, fun hlen => ?_⟩
    · rw [if_pos hlen]
      exact State.applyPlan_counts e.isLt (l := []) (by decide) _ _ _ _
    · rw [if_neg (Nat.not_lt.2 hlen)]
      exact State.applyPlan_counts e.isLt (l := []) (by decide) _ _ _ _

end Sys2Proof.Machine
end

section
namespace Sys2Proof.Machine

/-! ## Bytes of a memory (R151) -/

theorem leNat_lt (bs : List Byte) : leNat bs < 2 ^ (8 * bs.length) := by
  induction bs with
  | nil => exact Nat.one_pos
  | cons b t ih =>
    have hb := b.isLt
    rw [List.length_cons, Nat.mul_succ, pow_add, leNat]
    omega

/-- Eight bytes of a memory make a payload. -/
theorem Mem.le_lt (m : Mem) (a : Nat) : Mem.le m a 8 < 2 ^ 64 := by
  have h := leNat_lt (Mem.bytes m a 8)
  rwa [Mem.length_bytes] at h

theorem length_leBytes (n v : Nat) : (leBytes n v).length = n := by
  induction n generalizing v with
  | zero => rfl
  | succ n ih => rw [leBytes, List.length_cons, ih]

/-- What a write has written reads back. -/
theorem Mem.bytes_write_same (m : Mem) (a : Nat) (bs : List Byte) : Mem.bytes (Mem.write m a bs) a bs.length = bs := by
  induction bs generalizing m a with
  | nil => rfl
  | cons b t ih =>
    rw [List.length_cons, Mem.write, Mem.bytes, ih, Mem.byte_write_out _ _ _ _ (.inl (Nat.lt_succ_self a)), Mem.byte_setByte, if_pos rfl]

/-! ## LD and ST (R188, R240) -/

theorem View.elAddr_eq (v : View) : v.elAddr = (v.addr + 8 * v.opA.toNat) % 0x4000 := by
  rw [View.elAddr, View.opA, BitVec.toNat_setWidth]

section
variable {v : View} (ha : v.acts = true)
include ha

theorem planLd_good (hgood : v.parityOk v.elAddr 8 = true) : planLd v = some (v.emit (v.base v.boundIns)
    [⟨BitVec.ofNat 64 (leNat (Mem.bytes v.mem ((v.addr + 8 * v.opA.toNat) % 0x4000) 8)), .data, v.epoch, false⟩]) := by
  rw [planLd, View.simple_acts ha, if_pos hgood, v.elAddr_eq]
  rfl

theorem planLd_bad (hbad : v.parityOk v.elAddr 8 = false) : planLd v = some v.parityFault := by
  rw [planLd, View.simple_acts ha, if_neg (by rw [hbad]; decide)]

theorem planSt_acts : planSt v = some { v.base v.boundIns with
    store := some ((v.addr + 8 * v.opA.toNat) % 0x4000, leBytes 8 (v.data 1).toNat)
    o0 := v.out 0 [⟨v.data 0, (match v.head 0 with | some k => k.tag | none => .data), v.epoch, false⟩] } := by
  rw [planSt, View.simple_acts ha, v.elAddr_eq, View.tok_toNat]
  rfl

/-! ## Requests to the narrow port (R189) -/

omit ha in
theorem View.request_eq (v : View) (kind rq : Nat) : v.request kind rq =
    ⟨BitVec.ofNat 64 ((v.imm % 2 ^ 21 + 8 * v.opA.toNat) % 2 ^ 21 / 8 * 8 + v.imm2 % 256 * 2 ^ 21 + kind * 2 ^ 29 + v.elem * 2 ^ 32 + rq * 2 ^ 37),
      .data, v.epoch, false⟩ := by
  rw [View.request, View.opA, BitVec.toNat_setWidth]
  rfl

theorem planNld_acts : planNld v = some { v.base v.boundIns with o0 := [v.request 0 (v.imm / 2 ^ 29)], resp := some (v.imm / 2 ^ 29) } := by
  rw [planNld, View.simple_acts ha]

theorem View.storeReq_acts (kind : Nat) : v.storeReq kind =
    some { v.base v.boundIns with o0 := [v.request kind 0, ⟨v.data 1, .data, v.epoch, false⟩] } := by
  rw [View.storeReq, View.simple_acts ha, View.tok_toNat]

theorem planNst_acts : planNst v = some { v.base v.boundIns with o0 := [v.request 1 0, ⟨v.data 1, .data, v.epoch, false⟩] } :=
  View.storeReq_acts ha 1

theorem planNacc_acts : planNacc v = some { v.base v.boundIns with
    o0 := [v.request (if v.fmt = 12 then 2 else if v.fmt = 11 then 3 else 4) 0, ⟨v.data 1, .data, v.epoch, false⟩] } :=
  View.storeReq_acts ha _

/-! ## SEND and XFER (R192, R193) -/

theorem planSend_acts {k : Tok} (hbound : v.bound 0 = true) (hk : v.head 0 = some k) : planSend v = some { v.base v.boundIns with
    o0 := [v.tok .data (v.send.getD (v.imm % 8) 0), ⟨k.data, k.tag, v.epoch, false⟩] } := by
  obtain ⟨-, hh, -, -⟩ := (v.headsAre_iff _).1 ((Bool.and_eq_true _ _).mp ha).1
  obtain ⟨t, ht, hdata⟩ := View.headsHave_head hh (by decide) hbound
  obtain rfl := Option.some.inj (ht.symm.trans hk)
  have hpayload : v.data 0 = t.data := by
    rw [View.data, hk]
  unfold planSend
  dsimp only
  rw [View.simple_acts ha, Option.map_some, hk]
  dsimp only
  rw [Tag.not_last_mark_of_isData hdata, hpayload, View.tok_toNat]
  rfl

theorem planXfer_good (hgood : v.parityOk v.addr 32 = true) : planXfer v = some { v.base v.boundIns with
    o0 := ([0, 1, 2].map (fun j => BitVec.ofNat 64 (leNat (Mem.bytes v.mem (v.addr + 8 * j) 8))) ++
      [if v.imm.testBit 0 then v.data 0 else BitVec.ofNat 64 (leNat (Mem.bytes v.mem (v.addr + 24) 8))]).map (fun w => ⟨w, .data, v.epoch, false⟩) } := by
  rw [planXfer, View.simple_acts ha, if_pos hgood]
  cases v.imm.testBit 0 with
  | false => rfl
  | true =>
    simp only [if_true, List.map_cons, List.map_nil, View.tok_toNat]
    rfl

end

end Sys2Proof.Machine
end

section
namespace Sys2Proof.Machine

/-! ## MCMD patches its template (R191) -/

theorem putBits_eq (w lo n x : Nat) : putBits w lo n x = w / 2 ^ (lo + n) * 2 ^ (lo + n) + x % 2 ^ n * 2 ^ lo + w % 2 ^ lo := by
  have hlow := Nat.div_add_mod w (2 ^ lo)
  have hfield := Nat.div_add_mod (w / 2 ^ lo) (2 ^ n)
  have hsplit : 2 ^ lo * (2 ^ n * (w / 2 ^ lo / 2 ^ n) + w / 2 ^ lo % 2 ^ n) + w % 2 ^ lo =
      w / 2 ^ (lo + n) * 2 ^ (lo + n) + w / 2 ^ lo % 2 ^ n * 2 ^ lo + w % 2 ^ lo := by
    rw [Nat.div_div_eq_div_mul, ← pow_add, pow_add]
    ring
  rw [hfield, hlow] at hsplit
  rw [putBits, Nat.shiftRight_eq_div_pow]
  omega

/-- A field at the bottom of a word, replaced. -/
theorem putBits_zero (w n x : Nat) : putBits w 0 n x = w / 2 ^ n * 2 ^ n + x % 2 ^ n := by
  rw [putBits_eq, pow_zero, Nat.mod_one, zero_add, mul_one, add_zero]

/-- A_ROW and C_ROW of a word 3, replaced, and what stands between and above them. -/
theorem putBits_rows (w x y : Nat) : putBits (putBits w 0 12 x) 32 12 y % 2 ^ 12 = x % 2 ^ 12 ∧
    putBits (putBits w 0 12 x) 32 12 y / 2 ^ 12 % 2 ^ 20 = w / 2 ^ 12 % 2 ^ 20 ∧
    putBits (putBits w 0 12 x) 32 12 y / 2 ^ 32 % 2 ^ 12 = y % 2 ^ 12 ∧ putBits (putBits w 0 12 x) 32 12 y / 2 ^ 44 = w / 2 ^ 44 := by
  have hrow : putBits (putBits w 0 12 x) 32 12 y = w / 2 ^ 44 * 2 ^ 44 + y % 2 ^ 12 * 2 ^ 32 + w / 2 ^ 12 % 2 ^ 20 * 2 ^ 12 + x % 2 ^ 12 := by
    have hx : x % 2 ^ 12 < 2 ^ 12 := Nat.mod_lt _ (by decide)
    rw [putBits_eq, putBits_zero]
    generalize x % 2 ^ 12 = r at *
    omega
  rw [hrow]
  omega

/-- Word 3 of a command, with A_ROW moved by x[15:0] and C_ROW by x[31:16]. -/
def movedRows (w x : Nat) : Nat := putBits (putBits w 0 12 (w % 4096 + x % 65536)) 32 12 (w / 2 ^ 32 % 4096 + x / 65536 % 65536)

theorem movedRows_spec (w x : Nat) : movedRows w x % 2 ^ 12 = (w + x % 2 ^ 16) % 2 ^ 12 ∧ movedRows w x / 2 ^ 12 % 2 ^ 20 = w / 2 ^ 12 % 2 ^ 20 ∧
    movedRows w x / 2 ^ 32 % 2 ^ 12 = (w / 2 ^ 32 + x / 2 ^ 16 % 2 ^ 16) % 2 ^ 12 ∧ movedRows w x / 2 ^ 44 = w / 2 ^ 44 := by
  obtain ⟨ha, hmid, hc, hhigh⟩ := putBits_rows w (w % 4096 + x % 65536) (w / 2 ^ 32 % 4096 + x / 65536 % 65536)
  refine ⟨?_, hmid, ?_, hhigh⟩
  · refine ha.trans ?_
    omega
  · refine hc.trans ?_
    omega

/-- Word j of the template at ADDR. -/
def View.templateWord (v : View) (j : Nat) : Nat := leNat (Mem.bytes v.mem (v.addr + 8 * j) 8)

/-- The command words that MCMD emits: the template's, with its rows moved and STEP and TAG replaced where IN1 and IN2 are bound. -/
def View.mcmdWords (v : View) : List Nat :=
  [v.templateWord 0, v.templateWord 1, v.templateWord 2,
   movedRows (v.templateWord 3) (v.data 0).toNat, v.templateWord 4, v.templateWord 5,
   if v.bound 1 then putBits (v.templateWord 6) 0 32 (v.data 1).toNat else v.templateWord 6,
   if v.bound 2 then putBits (v.templateWord 7) 0 16 (v.data 2).toNat else v.templateWord 7]

/-- The tokens of a command: seven DATA and a LAST. -/
def View.mcmdToks (v : View) : List Tok :=
  (v.mcmdWords.zip ([.data, .data, .data, .data, .data, .data, .data, .last] : List Tag)).map (fun p => v.tok p.2 p.1)

theorem planMcmd_good {v : View} (ha : v.acts = true) (hgood : v.parityOk v.addr 64 = true) :
    planMcmd v = some { v.base v.boundIns with o0 := v.mcmdToks } := by
  rw [planMcmd, View.simple_acts ha, if_pos hgood]
  rfl

/-- Every command word fits a token. -/
theorem View.mcmdWords_lt (v : View) : ∀ w ∈ v.mcmdWords, w < 2 ^ 64 := by
  have hword : ∀ j, v.templateWord j < 2 ^ 64 := fun j => Mem.le_lt v.mem _
  have h3 := hword 3
  have h6 := hword 6
  have h7 := hword 7
  obtain ⟨-, -, -, hhigh⟩ := movedRows_spec (v.templateWord 3) (v.data 0).toNat
  simp only [View.mcmdWords, putBits_zero _ 32, putBits_zero _ 16, List.forall_mem_cons, hword, true_and, List.not_mem_nil, false_imp_iff, implies_true, and_true]
  refine ⟨?_, ?_, ?_⟩
  · omega
  · split <;> omega
  · split <;> omega

theorem View.mcmdToks_words (v : View) : v.mcmdToks.map (fun k => k.data.toNat) = v.mcmdWords := by
  have hlen : v.mcmdWords.length ≤ ([.data, .data, .data, .data, .data, .data, .data, .last] : List Tag).length := Nat.le_refl 8
  rw [View.mcmdToks, List.map_map]
  refine (List.map_congr_left (fun p hp => ?_)).trans (List.map_fst_zip hlen)
  exact (BitVec.toNat_ofNat p.1 64).trans (Nat.mod_eq_of_lt (v.mcmdWords_lt p.1 (List.of_mem_zip hp).1))

theorem View.mcmdToks_tags (v : View) : v.mcmdToks.map (fun k => (k.tag, k.epoch, k.poison)) =
    ([.data, .data, .data, .data, .data, .data, .data, .last] : List Tag).map (fun g => (g, v.epoch, false)) := rfl

/-- The words that MCMD sends on as the template has them. -/
theorem View.mcmdWords_kept (v : View) : ∀ j ∈ ([0, 1, 2, 4, 5] : List Nat), v.mcmdWords.getD j 0 = v.templateWord j := by
  simp only [List.forall_mem_cons, List.not_mem_nil, false_imp_iff, implies_true, and_true]
  exact ⟨rfl, rfl, rfl, rfl, rfl⟩

theorem View.mcmdWords_three (v : View) : v.mcmdWords.getD 3 0 = movedRows (v.templateWord 3) (v.data 0).toNat := by
  simp only [View.mcmdWords, List.getD_cons_succ, List.getD_cons_zero]

/-- Words 6 and 7: STEP and TAG replaced where IN1 and IN2 are bound. -/
theorem View.mcmdWords_patched (v : View) :
    v.mcmdWords.getD 6 0 = (if v.bound 1 = true then v.templateWord 6 / 2 ^ 32 * 2 ^ 32 + (v.data 1).toNat % 2 ^ 32 else v.templateWord 6) ∧
    v.mcmdWords.getD 7 0 = (if v.bound 2 = true then v.templateWord 7 / 2 ^ 16 * 2 ^ 16 + (v.data 2).toNat % 2 ^ 16 else v.templateWord 7) := by
  rw [← putBits_zero, ← putBits_zero]
  exact ⟨rfl, rfl⟩

end Sys2Proof.Machine
end

section
namespace Sys2Proof.Machine

/-! ## A parity failure of element memory (R240, R355) -/

theorem regionOf_lt (c : ClusterId) : regionOf c.val < 112 := by
  have hc := c.isLt
  unfold regionOf cy cx
  omega

/-- Code and region of a record that names a cluster (R367). -/
theorem faultRecord_place (seq tick i : Nat) {code region : Nat} (hr : code + 256 * region < 2 ^ 15) (detail result starts : Nat) :
    ((faultRecord seq tick code region (some i) detail result starts).getD 3 0).toNat % 2 ^ 15 = code + 256 * region := by
  have hw : (BitVec.ofNat 32 (code + region * 256 + (cx i * 2 ^ 15 + cy i * 2 ^ 22 + 2 ^ 29))).toNat % 2 ^ 15 = code + 256 * region := by
    rw [BitVec.toNat_ofNat]
    omega
  exact hw

theorem State.occultSoon_logSeq (s : State) (i : Nat) : (s.occultSoon i).dome.logSeq = s.dome.logSeq := by
  unfold State.occultSoon
  split <;> rfl

theorem State.mem_occultSoon {s : State} {i : Nat} (h : s.enabled i = true) : i ∈ (s.occultSoon i).dome.occPend := by
  rw [State.occultSoon, if_pos h]
  exact (NSet.mem_add s.dome.occPend i i).2 (.inl rfl)

/-- Code 2 makes its record, and its cluster waits for containment (R356, R366). -/
theorem State.parityFailure_spec (s : State) (c : ClusterId) (detail : Nat) : Logged s (s.clusterFailure 2 c.val detail) 2 (regionOf c.val) ∧
    (s.enabled c.val = true → c.val ∈ (s.clusterFailure 2 c.val detail).dome.occPend) := by
  have hregion := regionOf_lt c
  have hfail : s.clusterFailure 2 c.val detail =
    ((s.record 2 (regionOf c.val) (some c.val) detail (recordResult 2 false true)).occultSoon c.val).degradeSoon 2 (regionOf c.val) := rfl
  have hpend : (s.clusterFailure 2 c.val detail).dome.logPend = s.dome.logPend ++
      [faultRecord (s.dome.logSeq + 1) (s.dome.ticks - 1) 2 (regionOf c.val) (some c.val) detail (recordResult 2 false true) s.dome.ctr.starts] := by
    rw [hfail]
    exact State.occultSoon_logPend _ _
  refine ⟨⟨?_, ?_, ?_⟩, fun h => ?_⟩
  · rw [hfail]
    exact State.occultSoon_logSeq _ _
  · rw [hpend, List.dropLast_concat]
  · rw [hpend, List.getLast?_concat, Option.map_some, faultRecord_place _ _ _ (by omega)]
  · rw [hfail]
    exact State.mem_occultSoon (s := s.record 2 (regionOf c.val) (some c.val) detail (recordResult 2 false true)) h

theorem State.applyPlan_dome (s : State) (c e i : Nat) (p : Plan) : (s.applyPlan c e i p).dome = (s.planned c e i p).dome := by
  rw [State.applyPlan_eq]
  dsimp only
  split <;> rfl

theorem State.applyPlan_parity (s : State) (c : ClusterId) (e i : Nat) {p : Plan} (hf : p.fault ≠ 0) (hp : p.parity = true) :
    Logged s (s.applyPlan c.val e i p) 2 (regionOf c.val) ∧ (s.enabled c.val = true → c.val ∈ (s.applyPlan c.val e i p).dome.occPend) := by
  obtain ⟨n, hfree⟩ := s.takesFree_eq p
  have hdome : (s.applyPlan c.val e i p).dome = (({ s with free := n }.setCluster c.val ((s.cluster c.val).planFault e i p)).clusterFailure 2 c.val
      (((s.cluster c.val).planFault e i p).faultWord e)).dome := by
    rw [State.applyPlan_dome, State.planned, if_pos hf, hfree]
    dsimp only
    rw [if_pos hp]
  unfold Logged
  rw [hdome]
  exact State.parityFailure_spec _ c _

end Sys2Proof.Machine
end

section
namespace Sys2Proof.Machine

/-! ## Element memory and requests (R188-R193) -/

/-- An input that has a head is bound. -/
theorem Elem.view_bound_of_head {x : Elem} {e i drain : Nat} {w : W64} {u : List Nat} {k : Tok} (h : (x.view e i drain w u).head 0 = some k) :
    (x.view e i drain w u).bound 0 = true := by
  by_contra hb
  rw [View.head_unbound x e i drain w u (Bool.eq_false_iff.mpr hb)] at h
  cases h

/-- What a firing has put into the output buffer of O0. -/
theorem Fired.out0_drop {s t : State} {c e x : Nat} {qs : List Nat} {o0 o1 : List Tok} {k : Ctx} {m : Mem} {cls : Nat} {offs : List Nat}
    (h : Fired s t c e x qs o0 o1 k m cls offs) : ((t.cluster c).elem e).out0.drop ((s.cluster c).elem e).out0.length = o0 := by
  rw [h.1, List.drop_left]

theorem Fired.mem_eq {s t : State} {c e x : Nat} {qs : List Nat} {o0 o1 : List Tok} {k : Ctx} {m : Mem} {cls : Nat} {offs : List Nat}
    (h : Fired s t c e x qs o0 o1 k m cls offs) : ((t.cluster c).elem e).mem = m := by
  obtain ⟨-, -, -, -, -, hmem, -⟩ := h
  exact hmem

section
variable {s : State} {c e x : Nat} {u : List Nat} (he : e < 32)
include he

/-- The firing of ST: its eight bytes go to element memory. -/
theorem State.fire_st (hm : s.mayFire c e x 0x29 = true) (ha : (s.fireView c e x []).acts = true) :
    Fired s (s.fire c e x 0x29 planSt []) c e x (s.fireView c e x []).queues
      ((s.fireView c e x []).out 0 [⟨(s.fireView c e x []).data 0,
        (match (s.fireView c e x []).head 0 with | some k => k.tag | none => .data), (s.fireView c e x []).epoch, false⟩]) [] (((s.cluster c).elem e).ctx x)
      (Mem.write ((s.cluster c).elem e).mem (((s.fireView c e x []).addr + 8 * (s.fireView c e x []).opA.toNat) % 0x4000)
        (leBytes 8 ((s.fireView c e x []).data 1).toNat)) 6 [] :=
  State.fire_fires he hm (planSt_acts ha)
    ⟨rfl, rfl, fun _ => View.lt_of_mem_boundIns, fun _ h => absurd h List.not_mem_nil, fun _ h => absurd h.symm (Option.some_ne_none _)⟩

/-- The firing of NLD: one request, and one more response outstanding. -/
theorem State.fire_nld (hm : s.mayFire c e x 0x2A = true) (ha : (s.fireView c e x []).acts = true) :
    Fired s (s.fire c e x 0x2A planNld []) c e x (s.fireView c e x []).queues
      [(s.fireView c e x []).request 0 ((s.fireView c e x []).imm / 2 ^ 29)] [] (((s.cluster c).elem e).ctx x) ((s.cluster c).elem e).mem 6
      [(EL_QCFG_OUTST.nth ((s.fireView c e x []).imm / 2 ^ 29)).off] := by
  refine State.fire_fires he hm (planNld_acts ha) ⟨rfl, rfl, fun _ => View.lt_of_mem_boundIns, fun _ h => absurd h List.not_mem_nil, fun q hq => ?_⟩
  rw [← Option.some.inj hq]
  exact List.mem_append_right _ List.mem_cons_self

/-- The firing of MCMD: the command's eight tokens. -/
theorem State.fire_mcmd (hm : s.mayFire c e x 0x3C = true) (ha : (s.fireView c e x u).acts = true)
    (hgood : (s.fireView c e x u).parityOk (s.fireView c e x u).addr 64 = true) :
    Fired s (s.fire c e x 0x3C planMcmd u) c e x (s.fireView c e x u).queues (s.fireView c e x u).mcmdToks [] (((s.cluster c).elem e).ctx x)
      ((s.cluster c).elem e).mem 6 [] :=
  State.fire_base he hm (fun _ => View.lt_of_mem_boundIns) (planMcmd_good ha hgood)

end

/-- Settles O23: each operation's plan (`planLd_good`, `planSt_acts`, `planNld_acts`, `planMcmd_good`, …) is R188 to R193's, and `State.fire_base` or
`State.fire_fires` carries it out; a parity failure is a plan that faults, and code 2's record is `State.applyPlan_parity`. -/
theorem elementMemoryAndRequests : Obligations.ElementMemoryAndRequests := by
  unfold Obligations.ElementMemoryAndRequests
  refine ⟨?_, ?_, ?_, ?_, ?_, ?_, ?_, ?_, ?_⟩
  · intro s c e x u hm ha hgood
    have hfired := State.fire_base e.isLt hm (fun _ => View.lt_of_mem_boundIns) (planLd_good ha hgood)
    exact ⟨_, rfl, hfired.out0_drop, hfired.mem_eq, hfired⟩
  · intro s c e x u hm ha hbad
    have hfault : (s.fireView c.val e.val x.val u).parityFault.fault ≠ 0 := Nat.succ_ne_zero 1
    have hsmall : (s.fireView c.val e.val x.val u).parityFault.fault < 4 := show 2 < 4 by decide
    obtain ⟨hstate, hcause, -, hout, -, -, hothers⟩ := s.applyPlan_faults c.val e.isLt x.isLt hfault hsmall
    obtain ⟨hlogged, hocc⟩ := s.applyPlan_parity c e.val x.val hfault rfl
    exact ⟨_, congrArg Host.Outcome.next (State.fire_planned hm (planLd_bad ha hbad)), hstate, fun h => (hcause h).1, hout, hlogged, hocc, hothers⟩
  · intro s c e x hm ha
    have hfired := State.fire_st e.isLt hm ha
    have hmem := hfired.mem_eq
    refine ⟨_, rfl, ?_, ?_, ?_⟩
    · rw [hmem]
      exact Mem.bytes_write_same _ _ (leBytes 8 _)
    · intro a hout
      rw [hmem]
      exact Mem.byte_write_out _ _ _ _ (by rwa [length_leBytes])
    · rw [hmem]
      exact hfired
  · intro s c e x hm ha
    have hfired := State.fire_nld e.isLt hm ha
    rw [View.request_eq, Nat.zero_mul, Nat.add_zero] at hfired
    refine ⟨_, rfl, hfired, ?_⟩
    rw [State.fire_planned hm (planNld_acts ha)]
    exact s.applyPlan_outst c.val x.val e.isLt rfl rfl rfl
  · intro s c e x hm ha
    have hplan := planNst_acts ha
    rw [View.request_eq, Nat.zero_mul, Nat.add_zero, Nat.one_mul] at hplan
    exact ⟨_, rfl, State.fire_base e.isLt hm (fun _ => View.lt_of_mem_boundIns) hplan⟩
  · intro s c e x hm ha
    have hplan := planNacc_acts ha
    rw [View.request_eq, Nat.zero_mul, Nat.add_zero] at hplan
    exact ⟨_, rfl, State.fire_base e.isLt hm (fun _ => View.lt_of_mem_boundIns) hplan⟩
  · intro s c e x u hm ha hgood
    have hfired := State.fire_mcmd e.isLt hm ha hgood
    refine ⟨_, rfl, ?_⟩
    rw [hfired.out0_drop, View.mcmdToks_words, View.mcmdToks_tags, View.mcmdWords_three]
    obtain ⟨haRow, hmid, hcRow, hhigh⟩ := movedRows_spec ((s.fireView c.val e.val x.val u).templateWord 3) ((s.fireView c.val e.val x.val u).data 0).toNat
    obtain ⟨hstep, htag⟩ := (s.fireView c.val e.val x.val u).mcmdWords_patched
    exact ⟨rfl, View.mcmdWords_kept _, haRow, hmid, hcRow, hhigh, hstep, htag, _, hfired⟩
  · intro s c e x k hm ha hk
    have hplan := planSend_acts ha (Elem.view_bound_of_head hk) hk
    unfold State.fireView at hplan
    rw [Elem.view_send] at hplan
    exact ⟨_, rfl, State.fire_base e.isLt hm (fun _ => View.lt_of_mem_boundIns) hplan⟩
  · intro s c e x u hm ha hgood
    exact ⟨_, rfl, State.fire_base e.isLt hm (fun _ => View.lt_of_mem_boundIns) (planXfer_good ha hgood)⟩

end Sys2Proof.Machine
end

section
namespace Sys2Proof.Machine

/-! ## What ARM leaves of an element (R174) -/

theorem Elem.armCheck_le (x : Elem) : x.armCheck ≤ 9 := by
  have hall : ∀ n ∈ [1, 2, 3, 4, 5, 6, 7, 8, 9].filter x.armFails, n ≤ 9 := fun n hn => by
    have hmem := List.mem_of_mem_filter hn
    simp only [List.mem_cons, List.not_mem_nil, or_false] at hmem
    omega
  unfold Elem.armCheck
  cases hfails : [1, 2, 3, 4, 5, 6, 7, 8, 9].filter x.armFails with
  | nil => exact Nat.zero_le 9
  | cons n l => exact hall n (hfails ▸ List.mem_cons_self)

/-- CHK shows the code of the first check that fails. -/
theorem Elem.wr_chk (x : Elem) : (x.wr EL_STATUS_CHK x.armCheck).rd EL_STATUS_CHK = x.armCheck := by
  rw [Elem.rd_wr_same _ _ _ (by decide)]
  exact Nat.mod_eq_of_lt (Nat.lt_of_le_of_lt x.armCheck_le (by decide))

theorem Elem.arm_fails {x : Elem} (h : x.armCheck ≠ 0) : x.arm = (x.wr EL_STATUS_CHK x.armCheck).wr EL_EVENT_CFG_ERR 1 := if_pos h

/-- The registers that ARM clears, with both bindings' credits back at sixteen. -/
def Elem.cleared (x : Elem) : Elem :=
  let x3 := (List.range 4).foldl (fun y k => y.wr (EL_CTR_REMAIN.nth k) 0) x
  let x4 := ((x3.wr EL_FAULT_CTX 0).wr EL_FAULT_CAUSE 0).wr EL_FAULT_OP 0
  [0, 1].foldl (fun y b => y.wr (EL_OBIND_CREDITS.nth b) 16) x4

/-- The contexts as ARM leaves them: the enabled ones in WAIT. -/
def armedCtxs (en : Nat) : SMap Ctx :=
  (List.range 8).foldl (fun m i => if en.testBit i then SMap.set (fun _ => Ctx.reset) m i { Ctx.reset with state := .wait } else m) []

/-- An element armed: cleared, the contexts that `en` enables in WAIT. -/
def Elem.armed (y : Elem) (en : Nat) : Elem := { y.cleared with ctxs := armedCtxs en, block := [], ptr := 0, sends := [] }

theorem Elem.armed_rd (y : Elem) (en : Nat) (f : Fld) : (y.armed en).rd f = y.cleared.rd f := by
  unfold Elem.armed Elem.rd
  rfl

/-- Where every check passes, the element is armed from one that differs in CHK and EPOCH alone. -/
theorem Elem.arm_passes {x : Elem} (h : x.armCheck = 0) :
    ∃ y : Elem, x.arm = y.armed (x.rd EL_CTRL_CTX_EN) ∧ y.rd EL_STATUS_CHK = 0 ∧ y.queues = x.queues ∧ y.mem = x.mem := by
  have hchk := x.wr_chk.trans h
  unfold Elem.arm
  dsimp only
  rw [if_neg (not_not.2 h)]
  cases ((List.range 8).filter (fun i => (x.rd EL_CTRL_CTX_EN).testBit i)).head?.map (fun i => (wordView (x.word i)).epoch) with
  | none => exact ⟨x.wr EL_STATUS_CHK x.armCheck, rfl, hchk, rfl, rfl⟩
  | some ep =>
    exact ⟨(x.wr EL_STATUS_CHK x.armCheck).wr EL_STATUS_EPOCH ep, rfl,
      (Elem.rd_wr_disjoint _ EL_STATUS_EPOCH EL_STATUS_CHK ep (by decide) (by decide)).trans hchk, rfl, rfl⟩

theorem Elem.cleared_rd (y : Elem) : y.cleared.rd EL_STATUS_CHK = y.rd EL_STATUS_CHK ∧ (∀ j ∈ List.range 4, y.cleared.rd (EL_CTR_REMAIN.nth j) = 0) ∧
    y.cleared.rd (EL_OBIND_CREDITS.nth 0) = 16 ∧ y.cleared.rd (EL_OBIND_CREDITS.nth 1) = 16 ∧ y.cleared.rd EL_FAULT_CAUSE = 0 := by
  simp (disch := decide) only [Elem.cleared, show List.range 4 = [0, 1, 2, 3] from rfl, List.foldl_cons, List.foldl_nil, Elem.rd_wr_ne, Elem.rd_wr_same,
    Elem.rd_wr_disjoint, List.forall_mem_cons, List.not_mem_nil, false_imp_iff, implies_true, and_true]
  decide

theorem Elem.arm_chk (x : Elem) : x.arm.rd EL_STATUS_CHK = x.armCheck := by
  by_cases h : x.armCheck = 0
  · obtain ⟨y, harm, hchk, -⟩ := Elem.arm_passes h
    rw [harm, h, Elem.armed_rd, y.cleared_rd.1, hchk]
  · rw [Elem.arm_fails h, Elem.rd_wr_ne _ _ _ _ (by decide), Elem.wr_chk]

theorem ctx_foldl_set (p : Nat → Bool) (k : Ctx) (j : Nat) (l : List Nat) (m : SMap Ctx) :
    SMap.get (fun _ => Ctx.reset) (l.foldl (fun m i => if p i then SMap.set (fun _ => Ctx.reset) m i k else m) m) j =
      if j ∈ l ∧ p j = true then k else SMap.get (fun _ => Ctx.reset) m j := by
  induction l generalizing m with
  | nil => simp
  | cons i t ih =>
    rw [List.foldl_cons, ih]
    by_cases hi : p i = true
    · by_cases hj : j = i
      · subst hj
        simp [hi]
      · simp [hi, hj, SMap.get_set]
    · by_cases hj : j = i
      · subst hj
        simp [hi]
      · simp [hi, hj]

theorem armedCtxs_state (en : Nat) {j : Nat} (hj : j ∈ List.range 8) :
    (SMap.get (fun _ => Ctx.reset) (armedCtxs en) j).state = if en.testBit j = true then .wait else .idle := by
  rw [armedCtxs, ctx_foldl_set en.testBit, apply_ite Ctx.state]
  simp only [hj, true_and]
  rfl

theorem Elem.armed_ctx (y : Elem) (en : Nat) {j : Nat} (hj : j ∈ List.range 8) :
    ((y.armed en).ctx j).state = if en.testBit j = true then .wait else .idle := armedCtxs_state en hj

/-- ARM leaves the queues and the memory. -/
theorem Elem.armed_keeps (y : Elem) (en : Nat) : (y.armed en).queues = y.queues ∧ (y.armed en).mem = y.mem := ⟨rfl, rfl⟩

section
variable {s : State} {c : ClusterId} {e : Fin 32} (hrun : s.runs c.val = true)
include hrun

theorem exec_arm_drained (hdrained : (s.region (regionOf c.val)).drainedState = true) :
    ∃ te, exec (.arm c e) s = .next (s.setCluster c.val { (s.cluster c.val).setElem e.val ((s.cluster c.val).elem e.val).arm with te := te }) ∧
      (((s.cluster c.val).elem e.val).armCheck ≠ 0 → te = (s.cluster c.val).te) := by
  have harm : exec (.arm c e) s = .next (s.armElem c.val e.val) := congrArg Host.Outcome.next (if_pos hrun)
  rw [harm, State.armElem, if_pos hdrained]
  unfold State.modCluster
  dsimp only
  rw [Elem.arm_chk]
  by_cases hcheck : ((s.cluster c.val).elem e.val).armCheck = 0
  · rw [if_pos hcheck]
    exact ⟨_, rfl, fun h => absurd hcheck h⟩
  · rw [if_neg hcheck]
    exact ⟨_, rfl, fun _ => rfl⟩

theorem exec_arm_undrained (hdrained : (s.region (regionOf c.val)).drainedState = false) :
    exec (.arm c e) s = .next (s.modElem c.val e.val (fun x => x.wr EL_EVENT_CFG_ERR 1)) := by
  have harm : exec (.arm c e) s = .next (s.armElem c.val e.val) := congrArg Host.Outcome.next (if_pos hrun)
  rw [harm, State.armElem, if_neg (by rw [hdrained]; decide)]

end

theorem Cluster.elem_te (c : Cluster) (te : Te) (e : Nat) : { c with te := te }.elem e = c.elem e := rfl

/-- One element's change is that element's, in its cluster. -/
theorem State.modElem_only (s : State) (c e : Nat) (f : Elem → Elem) : ((s.modElem c e f).cluster c).elem e = f ((s.cluster c).elem e) ∧
    OnlyCluster s (s.modElem c e f) c ∧ OnlyElem (s.cluster c) ((s.modElem c e f).cluster c) e := by
  unfold State.modElem State.modCluster
  rw [State.cluster_setCluster_same]
  exact ⟨Cluster.elem_setElem_same _ _ _, ⟨rfl, fun _ hk => State.cluster_setCluster_ne s _ hk⟩, rfl,
    fun k hk => (Cluster.elem_setElem _ _ _ _).trans (if_neg hk)⟩

end Sys2Proof.Machine
end

section
namespace Sys2Proof.Machine

/-! ## Stale tokens and responses (R171, R172) -/

theorem exec_staleTokenDiscard {s : State} {c : ClusterId} {e : Fin 32} {q : Fin 8} {k : Tok} {rest : List Tok} (hrun : s.runs c.val = true)
    (hq : ((s.cluster c.val).elem e.val).queue q.val = k :: rest) (hnow : k.epoch ≠ ((s.cluster c.val).elem e.val).rd EL_STATUS_EPOCH)
    (hnext : k.epoch ≠ (((s.cluster c.val).elem e.val).rd EL_STATUS_EPOCH + 1) % 4) :
    exec (.staleTokenDiscard c e q) s = .next (s.setCluster c.val (((s.cluster c.val).popElem e.val q.val).modElem e.val
      (fun y => (y.countStart EL_CNT_STALE_CNT 1).wr EL_EVENT_STALE 1))) := by
  have hstale : ¬(s.runs c.val = false ∨ k.epoch = ((s.cluster c.val).elem e.val).rd EL_STATUS_EPOCH ∨
      k.epoch = (((s.cluster c.val).elem e.val).rd EL_STATUS_EPOCH + 1) % 4) := by
    simp only [hrun, hnow, hnext, or_self, not_false_eq_true, Bool.true_eq_false]
  show execStaleTokenDiscard c e q s = _
  unfold execStaleTokenDiscard
  simp only [hq]
  exact if_neg hstale

theorem exec_nldResponse_token {s : State} {c : ClusterId} {e : Fin 32} {ring : Fin 4} {k : RingTok} {rest : List RingTok} (hrun : s.runs c.val = true)
    (htake : takeFirst (fun t => t.ring == ring.val && t.dst == e.val && t.src == 33) (s.cluster c.val).ringToks = some (k, rest)) :
    exec (.nldResponse c e ring true) s = .next ((s.delivered c.val k rest true).modElem c.val e.val (fun x =>
      x.wr (EL_QCFG_OUTST.nth k.queue) (x.rd (EL_QCFG_OUTST.nth k.queue) - 1))) := by
  show execNldResponse c e ring true s = _
  unfold execNldResponse
  simp only [hrun, htake, if_true, State.eject_eq, Bool.true_or]

/-- The consumer element once a token has reached one of its queues. -/
theorem State.delivered_elem (s : State) (c : Nat) {t : RingTok} (rest : List RingTok) (hdst : t.dst < 32)
    (hf : ((s.cluster c).elem t.dst).faultedQueue t.queue = false) : ((s.delivered c t rest true).cluster c).elem t.dst =
      ((s.cluster c).elem t.dst).setQueue t.queue (((s.cluster c).elem t.dst).queue t.queue ++ [t.tok]) := by
  rw [State.delivered, State.cluster_modRegion, State.cluster_setCluster_same]
  exact (congrArg (fun d : Cluster => d.elem t.dst) ((Cluster.deliver_elem ((s.cluster c).offRing t rest true) hdst).trans
    (Cluster.elemToken_joins _ t.tok hf))).trans (Cluster.elem_setElem_same _ _ _)

/-- Settles O26: ARM leaves `Elem.arm` (`Elem.arm_passes`, `Elem.arm_fails`) in a drained region, a stale head leaves its queue by `Cluster.popElem`,
and a response reaches its queue by `State.delivered`. -/
theorem armAndArrivals : Obligations.ArmAndArrivals := by
  unfold Obligations.ArmAndArrivals
  refine ⟨?_, ?_, ?_, ?_, ?_⟩
  · intro s c e hrun hdrained hcheck
    obtain ⟨y, harm, hchk, hqueues, hmem⟩ := Elem.arm_passes hcheck
    obtain ⟨hclears, hctrs, hc0, hc1, hcause⟩ := y.cleared_rd
    obtain ⟨te, hexec, -⟩ := exec_arm_drained (e := e) hrun hdrained
    refine ⟨_, hexec, ?_⟩
    rw [State.cluster_setCluster_same, harm, Cluster.elem_te, Cluster.elem_setElem_same]
    simp only [Elem.armed_rd]
    exact ⟨hclears.trans hchk, fun j => Elem.armed_ctx y _, hctrs, hc0, hc1, hcause, rfl, (y.armed_keeps _).1.trans hqueues, (y.armed_keeps _).2.trans hmem,
      ⟨rfl, fun _ hk => State.cluster_setCluster_ne s _ hk⟩, fun j hj => (Cluster.elem_setElem _ _ _ _).trans (if_neg hj)⟩
  · intro s c e hrun hdrained hcheck
    obtain ⟨te, hexec, hte⟩ := exec_arm_drained (e := e) hrun hdrained
    rw [hte hcheck] at hexec
    refine ⟨_, hexec, ?_⟩
    rw [State.cluster_setCluster_same, Cluster.elem_te, Cluster.elem_setElem_same, Elem.arm_chk, Elem.arm_fails hcheck]
    exact ⟨rfl, Elem.rd_wr_same _ _ _ (by decide), rfl, ⟨rfl, fun _ hk => State.cluster_setCluster_ne s _ hk⟩, rfl,
      fun k hk => (Cluster.elem_setElem _ _ _ _).trans (if_neg hk)⟩
  · intro s c e hrun hdrained
    obtain ⟨helem, honly, hothers⟩ := s.modElem_only c.val e.val (fun x => x.wr EL_EVENT_CFG_ERR 1)
    refine ⟨_, exec_arm_undrained hrun hdrained, ?_⟩
    rw [helem]
    exact ⟨Elem.rd_wr_same _ _ _ (by decide), ⟨fun o ho => Regs.word_wr_ne _ _ _ _ ho, rfl⟩, honly, hothers⟩
  · intro s c e q k rest hrun hq hnow hnext
    obtain ⟨-, hothers, hmoves⟩ := Cluster.Moves.popElem e.isLt (List.Subset.refl creditOffs) (s.cluster c.val) q.val
    have hpop := Cluster.queue_popElem e.isLt (s.cluster c.val) q.val q.val
    rw [if_pos rfl, hq, List.drop_one, List.tail_cons] at hpop
    refine ⟨_, exec_staleTokenDiscard hrun hq hnow hnext, ?_⟩
    rw [State.cluster_setCluster_same, Cluster.elem_modElem, if_pos rfl]
    refine ⟨hpop, ?_, Elem.rd_wr_same _ _ _ (by decide), ⟨rfl, fun _ hk => State.cluster_setCluster_ne s _ hk⟩,
      fun j hj => (Cluster.elem_modElem _ _ _ _).trans ((if_neg hj).trans (hothers j hj))⟩
    rw [Elem.rd_wr_ne _ _ _ _ (by decide), Elem.countStart, Elem.rd_wr_same _ _ _ (by decide), hmoves.rd (by decide)]
  · intro s c e ring k rest hrun htake hf
    have hpick := takeFirst_holds htake
    simp only [Bool.and_eq_true, beq_iff_eq] at hpick
    obtain ⟨⟨-, hdst⟩, -⟩ := hpick
    have helem := s.delivered_elem c.val rest (hdst ▸ e.isLt) (hdst ▸ hf)
    obtain ⟨-, htoks, -⟩ := s.delivered_spec c.val rest true (hdst ▸ e.isLt) (hdst ▸ hf)
    obtain ⟨hrest, hclusters, hregions⟩ := s.delivered_frame c.val k rest true
    rw [hdst] at helem
    obtain ⟨hmod, ⟨honly, hmodClusters⟩, hmodElem, -⟩ := (s.delivered c.val k rest true).modElem_only c.val e.val (fun x =>
      x.wr (EL_QCFG_OUTST.nth k.queue) (x.rd (EL_QCFG_OUTST.nth k.queue) - 1))
    refine ⟨_, exec_nldResponse_token hrun htake, ?_⟩
    rw [hmod, helem]
    refine ⟨(Elem.queue_setQueue _ _ _ _).trans (if_pos rfl), ?_, ?_, ?_, ?_, ?_⟩
    · refine (Elem.rd_wr_same _ (EL_QCFG_OUTST.nth k.queue) _ (show 16 + 5 ≤ 32 by decide)).trans (Nat.mod_eq_of_lt ?_)
      exact Nat.lt_of_le_of_lt (Nat.sub_le _ _) (Fld.rd_lt elTable _ (EL_QCFG_OUTST.nth k.queue))
    · exact (congrArg Cluster.ringToks hmodElem).trans htoks
    · exact (congrArg (fun t : State => { t with clusters := s.clusters, regions := s.regions }) honly).trans hrest
    · exact fun j hj => (hmodClusters j hj).trans (hclusters j hj)
    · exact hregions

end Sys2Proof.Machine
end

section
namespace Sys2Proof.Machine

/-! ## Updates of a region's clusters -/

theorem OnlyInRegion.refl (s : State) (r : Nat) : OnlyInRegion s s r := ⟨rfl, fun _ _ => rfl, fun _ _ => rfl⟩

theorem OnlyInRegion.trans {s t u : State} {r : Nat} (h : OnlyInRegion s t r) (k : OnlyInRegion t u r) : OnlyInRegion s u r := by
  obtain ⟨hrest, hregions, hclusters⟩ := h
  obtain ⟨krest, kregions, kclusters⟩ := k
  exact ⟨(congrArg (fun x : State => { x with regions := s.regions, clusters := s.clusters }) krest).trans hrest,
    fun j hj => (kregions j hj).trans (hregions j hj), fun c hc => (kclusters c hc).trans (hclusters c hc)⟩

theorem OnlyRegion.inRegion {s t : State} {r : Nat} (h : OnlyRegion s t r) : OnlyInRegion s t r := by
  have hclusters : t.clusters = s.clusters := by
    have := congrArg State.clusters h.1
    exact this
  exact ⟨congrArg (fun x : State => { x with clusters := s.clusters }) h.1, h.2,
    fun c _ => congrArg (fun m => SMap.get (fun _ => Cluster.reset) m c) hclusters⟩

theorem SMap.get_of_notMem {α : Type} (d : Nat → α) {m : SMap α} {k : Nat} (h : k ∉ m.map (fun p => p.1)) : SMap.get d m k = d k := by
  induction m with
  | nil => rfl
  | cons p m ih =>
    rw [List.map_cons, List.mem_cons, not_or] at h
    exact (if_neg (Ne.symm h.1)).trans (ih h.2)

/-- Each cluster of a list without repetition is changed once. -/
theorem State.foldl_modCluster {l : List Nat} (hl : l.Nodup) (s : State) (f : Cluster → Cluster) (k : Nat) :
    (l.foldl (fun t i => t.modCluster i f) s).cluster k = if k ∈ l then f (s.cluster k) else s.cluster k := by
  induction l generalizing s with
  | nil => rfl
  | cons i l ih =>
    obtain ⟨hi, hl⟩ := List.nodup_cons.1 hl
    rw [List.foldl_cons, ih hl, State.cluster_modCluster]
    by_cases hk : k = i
    · subst hk
      simp [hi]
    · simp [hk]

theorem State.nodup_liveClusters (s : State) (r : Nat) : (s.liveClusters r).Nodup := (List.nodup_dedup _).filter _

theorem State.mem_liveClusters (s : State) (r k : Nat) : k ∈ s.liveClusters r ↔ k ∈ s.clusters.map (fun p => p.1) ∧ regionOf k = r := by
  rw [State.liveClusters, List.mem_filter, List.mem_dedup, beq_iff_eq]

/-- A change of every cluster of a region that leaves a cluster at start as it is: a cluster that holds nothing is at start, and the change passes it by. -/
theorem State.cluster_eachCluster (s : State) (r : Nat) {f : Cluster → Cluster} (hf : f Cluster.reset = Cluster.reset) (k : Nat) :
    (s.eachCluster r f).cluster k = if regionOf k = r then f (s.cluster k) else s.cluster k := by
  rw [State.eachCluster, State.foldl_modCluster (s.nodup_liveClusters r)]
  by_cases hr : regionOf k = r
  · by_cases hk : k ∈ s.clusters.map (fun p => p.1)
    · rw [if_pos ((s.mem_liveClusters r k).2 ⟨hk, hr⟩), if_pos hr]
    · have hreset : s.cluster k = Cluster.reset := SMap.get_of_notMem _ hk
      rw [if_neg (fun h => hk ((s.mem_liveClusters r k).1 h).1), if_pos hr, hreset, hf]
  · rw [if_neg (fun h => hr ((s.mem_liveClusters r k).1 h).2), if_neg hr]

theorem OnlyInRegion.eachCluster (s : State) (r : Nat) (f : Cluster → Cluster) : OnlyInRegion s (s.eachCluster r f) r := by
  obtain ⟨hrest, hother⟩ := State.foldl_onlyCluster (fun u i => OnlyCluster.modCluster u i f) (s.liveClusters r) s
  exact ⟨congrArg (fun x : State => { x with regions := s.regions }) hrest, fun k _ => region_of_onlyClusters hrest k,
    fun c hc => hother c (fun h => hc ((s.mem_liveClusters r c).1 h).2)⟩

@[simp] theorem State.region_eachCluster (s : State) (r : Nat) (f : Cluster → Cluster) (k : Nat) : (s.eachCluster r f).region k = s.region k :=
  region_of_onlyClusters (State.foldl_onlyCluster (fun u i => OnlyCluster.modCluster u i f) (s.liveClusters r) s).1 k

/-! ## The begin of a slot-end drain (R201) -/

theorem Cluster.listDrain_reset : Cluster.listDrain Cluster.reset = Cluster.reset := if_neg (by decide +kernel)

theorem Cluster.listDrain_stops (c : Cluster) : c.listDrain.rd MU_LIST_CTRL_ACTIVE = 0 ∧ c.listDrain.elems = c.elems := by
  unfold Cluster.listDrain
  split
  · have hstopped := Cluster.rd_wr_same c MU_LIST_CTRL_ACTIVE 0 (by decide)
    simp only [Cluster.rd, Cluster.wr_elems] at hstopped ⊢
    exact ⟨hstopped, trivial⟩
  · next h =>
    have hlt : c.rd MU_LIST_CTRL_ACTIVE < 2 ^ 1 := Fld.rd_lt clTable c.regs MU_LIST_CTRL_ACTIVE
    exact ⟨Nat.lt_one_iff.1 (lt_of_le_of_ne (Nat.le_of_lt_succ hlt) h), rfl⟩

/-- A region whose slot-end drain begins (R201). -/
def Region.draining (g : Region) : Region := ((g.setSched 3).wr TCK_RSCHED_PARKDRAIN 0).wr TCK_RDRAIN_DRAINED 0

theorem Region.draining_reads (g : Region) : g.draining.sched_ = 3 ∧ g.draining.drainKind = 1 ∧ g.draining.rd TCK_RDRAIN_DRAINED = 0 ∧
    g.draining.slot = g.slot := by
  have hsched : g.draining.sched_ = 3 := (Region.rd_wr_ne _ _ _ _ (by decide)).trans
    ((Region.rd_wr_disjoint _ _ _ _ (by decide) (by decide)).trans (g.rd_setSched_state 3))
  have hpark : g.draining.rd TCK_RSCHED_PARKDRAIN = 0 := (Region.rd_wr_ne _ _ _ _ (by decide)).trans (Region.rd_wr_same _ _ _ (by decide))
  refine ⟨hsched, ?_, Region.rd_wr_same _ _ _ (by decide), ?_⟩
  · rw [Region.drainKind, if_pos hsched, hpark]
    rfl
  · rw [Region.draining, Region.setSched_eq g (by decide)]
    rfl

theorem State.drainStart_running {s : State} {r : Nat} (h : (s.region r).sched_ = 2) :
    s.drainStart r = (s.setRegion r (s.region r).draining).eachCluster r Cluster.listDrain := if_pos h

/-- The slot-end drain of a RUNNING region begins: its region and its clusters, and nothing else, change (R201). -/
theorem State.drainStart_spec {s : State} {r : Nat} (h : (s.region r).sched_ = 2) :
    (s.drainStart r).region r = (s.region r).draining ∧
    (∀ c, regionOf c = r → ((s.drainStart r).cluster c).rd MU_LIST_CTRL_ACTIVE = 0 ∧ ((s.drainStart r).cluster c).elems = (s.cluster c).elems) ∧
    OnlyInRegion s (s.drainStart r) r := by
  rw [State.drainStart_running h]
  refine ⟨(State.region_eachCluster _ _ _ _).trans (State.region_setRegion_same _ _ _), fun c hc => ?_,
    (OnlyRegion.setRegion s r _).inRegion.trans (OnlyInRegion.eachCluster _ _ _)⟩
  rw [State.cluster_eachCluster _ _ Cluster.listDrain_reset, if_pos hc]
  exact Cluster.listDrain_stops _

/-- A command that begins the drain of a RUNNING region. -/
theorem exec_drainStart {i : Instr} {s : State} {r : Nat} (hexec : exec i s = .next (s.drainStart r)) (h : (s.region r).sched_ = 2) :
    ∃ t, exec i s = .next t ∧ (t.region r).sched_ = 3 ∧ (t.region r).drainKind = 1 ∧ (t.region r).rd TCK_RDRAIN_DRAINED = 0 ∧
      (t.region r).slot = (s.region r).slot ∧
      (∀ c, regionOf c = r → (t.cluster c).rd MU_LIST_CTRL_ACTIVE = 0 ∧ (t.cluster c).elems = (s.cluster c).elems) ∧ OnlyInRegion s t r := by
  obtain ⟨hreg, hclusters, honly⟩ := State.drainStart_spec h
  obtain ⟨hsched, hkind, hdrained, hslot⟩ := (s.region r).draining_reads
  refine ⟨_, hexec, ?_⟩
  rw [hreg]
  exact ⟨hsched, hkind, hdrained, hslot, hclusters, honly⟩

/-! ## The end of a drain (R202, R203, R93) -/

theorem State.freezeBucket_spec (s : State) (r : Nat) : (∃ b, (s.freezeBucket r).region r = { s.region r with frozen := b }) ∧
    OnlyRegion s (s.freezeBucket r) r := by
  unfold State.freezeBucket
  split
  · exact ⟨⟨true, State.region_modRegion_same s r _⟩, OnlyRegion.modRegion s r _⟩
  · exact ⟨⟨(s.region r).frozen, rfl⟩, rfl, fun _ _ => rfl⟩

/-- A region whose slot is finished (R202). -/
def Region.finished (g : Region) (cclk : Nat) : Region :=
  { ((g.setSched 4).wr TCK_RDRAIN_DRAINED 1).wr TCK_RDRAIN_CCLK_CCLK cclk with passed := g.passed + 1 }

theorem Region.rd_finished (g : Region) (cclk : Nat) (f : Fld) :
    (g.finished cclk).rd f = (((g.setSched 4).wr TCK_RDRAIN_DRAINED 1).wr TCK_RDRAIN_CCLK_CCLK cclk).rd f := rfl

theorem Region.finished_reads (g : Region) (cclk : Nat) : (g.finished cclk).sched_ = 4 ∧ (g.finished cclk).rd TCK_RDRAIN_DRAINED = 1 ∧
    (g.finished cclk).rd TCK_RDRAIN_CCLK_CCLK = cclk % 2 ^ TCK_RDRAIN_CCLK_CCLK.width ∧
    (∀ f : Fld, f.off = PWR_STATUS_STATE.off → (g.finished cclk).rd f = g.rd f) := by
  refine ⟨?_, ?_, ?_, fun f hf => ?_⟩
  · rw [Region.sched_, Region.rd_finished, Region.rd_wr_ne _ _ _ _ (by decide), Region.rd_wr_ne _ _ _ _ (by decide), Region.rd_setSched_state]
  · exact (Region.rd_wr_ne _ TCK_RDRAIN_CCLK_CCLK _ _ (by decide)).trans (Region.rd_wr_same _ _ _ (by decide))
  · rw [Region.rd_finished, Region.rd_wr_same _ _ _ (by decide)]
  · rw [Region.rd_finished, Region.rd_wr_ne _ _ _ _ (by rw [hf]; decide), Region.rd_wr_ne _ _ _ _ (by rw [hf]; decide),
      Region.rd_setSched_ne _ _ (by rw [hf]; decide) (by rw [hf]; decide) (by rw [hf]; decide)]

/-- The idle entries of a transit engine's credit table are freed (R312). -/
def Cluster.freeCredits (c : Cluster) : Cluster := { c with te := { c.te with credit := c.te.credit.filter (fun k => !k.idle) } }

/-- A slot is finished where no park waits (R202). -/
theorem State.slotFinished_unparked {s : State} {r : Nat} (n : Nat) (hc : (s.region r).rd PWR_STATUS_PARK_CAUSE = 0) (hp : (s.region r).power = 2) :
    s.slotFinished r n = ((s.setRegion r ((s.region r).finished n)).freezeBucket r).eachCluster r Cluster.freeCredits := by
  obtain ⟨-, -, -, hpwr⟩ := (s.region r).finished_reads n
  have hbegin : ((s.region r).finished n).parkBegin = (s.region r).finished n := Region.parkBegin_none _ ((hpwr PWR_STATUS_PARK_CAUSE rfl).trans hc)
  have hpower : ((s.region r).finished n).power ≠ 3 := by
    rw [Region.power, hpwr _ rfl, show (s.region r).rd PWR_STATUS_STATE = 2 from hp]
    decide
  have hgate : (if ((s.region r).finished n).parkBegin.power = 3 then ((s.region r).finished n).parkBegin.parkGate false
      else ((s.region r).finished n).parkBegin) = (s.region r).finished n := by
    rw [hbegin, if_neg hpower]
  exact congrArg (fun g : Region => ((s.setRegion r g).freezeBucket r).eachCluster r Cluster.freeCredits) hgate

theorem State.slotFinished_spec {s : State} {r : Nat} (n : Nat) (hc : (s.region r).rd PWR_STATUS_PARK_CAUSE = 0) (hp : (s.region r).power = 2) :
    (∃ b, (s.slotFinished r n).region r = { (s.region r).finished n with frozen := b }) ∧
    (∀ c, ((s.slotFinished r n).cluster c).mem = (s.cluster c).mem ∧ ((s.slotFinished r n).cluster c).elems = (s.cluster c).elems) ∧
    OnlyInRegion s (s.slotFinished r n) r := by
  rw [State.slotFinished_unparked n hc hp]
  obtain ⟨⟨b, hb⟩, hfrozen⟩ := (s.setRegion r ((s.region r).finished n)).freezeBucket_spec r
  have honly : OnlyRegion s ((s.setRegion r ((s.region r).finished n)).freezeBucket r) r :=
    ⟨(congrArg (fun x : State => { x with regions := s.regions }) hfrozen.1),
      fun k hk => (hfrozen.2 k hk).trans (State.region_setRegion_ne s _ hk)⟩
  have hclusters : ((s.setRegion r ((s.region r).finished n)).freezeBucket r).clusters = s.clusters := by
    have := congrArg State.clusters honly.1
    exact this
  refine ⟨⟨b, ?_⟩, fun c => ?_, honly.inRegion.trans (OnlyInRegion.eachCluster _ _ _)⟩
  · rw [State.region_eachCluster, hb, State.region_setRegion_same]
  · have hcl : ((s.setRegion r ((s.region r).finished n)).freezeBucket r).cluster c = s.cluster c :=
      congrArg (fun m => SMap.get (fun _ => Cluster.reset) m c) hclusters
    rw [State.cluster_eachCluster _ _ (f := Cluster.freeCredits) rfl, hcl]
    split <;> exact ⟨rfl, rfl⟩

/-- A region whose clocks are gated with its park drain finished: PARKED, and still in the slot that it drained (R93). -/
theorem Region.parkGate_drained (g : Region) : (g.parkGate false).power = 4 ∧ (g.parkGate false).rd PWR_STATUS_UNDRAINED = 0 ∧
    (∀ f : Fld, f.off ∉ [PWR_STATUS_STATE.off, PWR_VS_MV.off] → (g.parkGate false).rd f = g.rd f) ∧ (g.parkGate false).slot = g.slot := by
  have hrd : ∀ f : Fld, (g.parkGate false).rd f = (((g.wr PWR_STATUS_STATE 4).wr PWR_STATUS_UNDRAINED 0).wr PWR_VS_MV 700).rd f := fun _ => rfl
  refine ⟨?_, ?_, fun f hf => ?_, rfl⟩
  · exact (hrd _).trans ((Region.rd_wr_ne _ _ _ _ (by decide)).trans ((Region.rd_wr_disjoint _ _ _ _ (by decide) (by decide)).trans
      (Region.rd_wr_same _ _ _ (by decide))))
  · exact (hrd _).trans ((Region.rd_wr_ne _ _ _ _ (by decide)).trans (Region.rd_wr_same _ _ _ (by decide)))
  · simp only [List.mem_cons, List.not_mem_nil, or_false, not_or] at hf
    rw [hrd, Region.rd_wr_ne _ _ _ _ hf.2, Region.rd_wr_ne _ _ _ _ hf.1, Region.rd_wr_ne _ _ _ _ hf.1]

/-- A region enters FAULT by a timeout: what `State.drainFault` makes of it (R203). -/
def Region.timedOut (g : Region) : Region := (((g.setSched 6).wr TCK_RDRAIN_TIMEOUT 1).wr TCK_RSCHED_PARKDRAIN 0).parkBegin

/-- The begin of a park in a region that runs no slot changes its power state alone. -/
theorem Region.parkBegin_regs (g : Region) (h : g.sched_ ≠ 2) : RegionRegs g g.parkBegin [PWR_STATUS_STATE.off] := by
  unfold Region.parkBegin
  split
  · exact ((RegionRegs.refl g _).wr PWR_STATUS_STATE 3 (by decide)).wr PWR_STATUS_UNDRAINED 0 (by decide)
  · exact RegionRegs.refl g _

theorem RegionRegs.rd {g h : Region} {offs : List Nat} (hr : RegionRegs g h offs) {f : Fld} (hf : f.off ∉ offs) : h.rd f = g.rd f :=
  congrArg f.of (hr.2 f.off hf)

theorem Region.timedOut_reads (g : Region) : g.timedOut.sched_ = 6 ∧ g.timedOut.rd TCK_RDRAIN_TIMEOUT = 1 := by
  have hsched : (((g.setSched 6).wr TCK_RDRAIN_TIMEOUT 1).wr TCK_RSCHED_PARKDRAIN 0).sched_ = 6 :=
    (Region.rd_wr_disjoint _ _ _ _ (by decide) (by decide)).trans ((Region.rd_wr_ne _ _ _ _ (by decide)).trans (g.rd_setSched_state 6))
  have hregs := Region.parkBegin_regs _ (by rw [hsched]; decide : (((g.setSched 6).wr TCK_RDRAIN_TIMEOUT 1).wr TCK_RSCHED_PARKDRAIN 0).sched_ ≠ 2)
  exact ⟨(hregs.rd (f := TCK_RSCHED_STATE) (by decide)).trans hsched,
    (hregs.rd (by decide)).trans ((Region.rd_wr_ne _ _ _ _ (by decide)).trans (Region.rd_wr_same _ _ _ (by decide)))⟩

/-- The failure of a region whose drain or forced replacement does not end in time (R203, R208, R355). -/
theorem State.drainFault_spec (s : State) (r : RegionId) : (s.drainFault r.val).region r.val = (s.region r.val).timedOut ∧
    Logged s (s.drainFault r.val) 18 r.val ∧ (s.drainFault r.val).dome.degPend = s.dome.degPend ++ [(18, r.val)] ∧
    (∀ k, k ≠ r.val → (s.drainFault r.val).region k = s.region k) ∧ (s.drainFault r.val).clusters = s.clusters := by
  have hr := r.isLt
  have honly := OnlyDomeHost.failure (s.setRegion r.val (s.region r.val).timedOut) 18 r.val none 0 false (degrading 18)
  obtain ⟨-, -, hdeg⟩ := State.regionFailure_records (s.setRegion r.val (s.region r.val).timedOut) (code := 18) r.val 0 rfl (by decide) (by decide)
  exact ⟨(honly.region r.val).trans (State.region_setRegion_same _ _ _),
    State.regionFailure_logged (s.setRegion r.val (s.region r.val).timedOut) r.val 0 rfl (by decide) (by decide) (by omega), hdeg,
    honly.frame_setRegion.1, honly.clusters⟩

/-- Settles O28: a drain begins by `State.drainStart`, and ends by `State.slotFinished`, by `Region.parkGate` in a park drain, or by
`State.drainFault`. -/
theorem drainsBeginAndEnd : Obligations.DrainsBeginAndEnd := by
  unfold Obligations.DrainsBeginAndEnd
  refine ⟨?_, ?_, ?_, ?_, ?_, ?_, ?_⟩
  · intro s r e hrun hslot hat
    have hexec : exec (.drainAtExpiry r) s = .next (s.drainStart r.val) := by
      show execDrainAtExpiry r s = _
      rw [execDrainAtExpiry, hslot]
      exact congrArg _ (if_neg hat)
    obtain ⟨t, ht, hsched, hkind, hdrained, hkept, hclusters, honly⟩ := exec_drainStart hexec hrun
    exact ⟨t, ht, hsched, hkind, hdrained, hkept.trans hslot, hclusters, honly⟩
  · intro s r hrun hdue hidle
    obtain ⟨t, ht, hsched, hkind, hdrained, -, -, honly⟩ :=
      exec_drainStart (i := .sourcesIdle r) (congrArg Host.Outcome.next (if_pos ⟨hrun, hdue, hidle⟩)) hrun
    exact ⟨t, ht, hsched, hkind, hdrained, honly⟩
  · intro s r hopen hrun
    obtain ⟨t, ht, hsched, hkind, hdrained, -, hclusters, honly⟩ :=
      exec_drainStart (i := .drainReq r) (congrArg Host.Outcome.next (if_pos hopen)) hrun
    exact ⟨t, ht, hsched, hkind, hdrained, fun c hc => (hclusters c hc).1, honly⟩
  · intro s r hopen hkind hdraining
    have hpark : (s.region r.val).rd TCK_RSCHED_PARKDRAIN = 1 := by
      rw [Region.drainKind, if_pos hdraining] at hkind
      by_contra hne
      rw [if_neg hne] at hkind
      exact absurd hkind (by decide)
    have hexec : exec (.drainReq r) s = .next (s.setRegion r.val { s.region r.val with drainWaits := true }) :=
      congrArg Host.Outcome.next ((if_pos hopen).trans ((if_neg (by rw [hdraining]; decide)).trans (if_pos ⟨hdraining, hpark⟩)))
    refine ⟨_, hexec, ?_⟩
    rw [State.region_setRegion_same]
    exact ⟨rfl, hkind, OnlyRegion.setRegion _ _ _⟩
  · intro s r n hdraining hslotEnd hquiet hunstaged hcause hpower
    have hexec : exec (.regionDrained r n) s = .next (s.slotFinished r.val n) :=
      (if_pos ⟨hdraining, hslotEnd⟩).trans (congrArg Host.Outcome.next (if_pos ⟨hquiet, hunstaged⟩))
    obtain ⟨⟨b, hreg⟩, hclusters, honly⟩ := State.slotFinished_spec n hcause hpower
    obtain ⟨hsched, hdrained, hcclk, hpwr⟩ := (s.region r.val).finished_reads n
    refine ⟨_, hexec, ?_⟩
    rw [hreg]
    exact ⟨hsched, hdrained, hcclk, rfl, (hpwr PWR_STATUS_STATE rfl).trans hpower, hclusters, honly⟩
  · intro s r n hdraining hpark hpower hquiet
    have hexec : exec (.regionDrained r n) s =
        .next (s.setRegion r.val ((((s.region r.val).wr TCK_RDRAIN_DRAINED 1).wr TCK_RDRAIN_CCLK_CCLK n).parkGate false)) := by
      refine (if_neg (fun h => absurd (hpark.symm.trans h.2) (by decide))).trans ((if_pos hpower).trans (congrArg Host.Outcome.next ((if_pos hquiet).trans ?_)))
      rw [if_pos hdraining]
    obtain ⟨hgated, hundrained, hkept, hslot⟩ := Region.parkGate_drained (((s.region r.val).wr TCK_RDRAIN_DRAINED 1).wr TCK_RDRAIN_CCLK_CCLK n)
    refine ⟨_, hexec, ?_⟩
    rw [State.region_setRegion_same]
    refine ⟨hgated, ?_, hundrained, (hkept _ (by decide)).trans (Region.rd_wr_same _ _ _ (by decide)), hslot, OnlyRegion.setRegion _ _ _⟩
    exact (hkept TCK_RSCHED_STATE (by decide)).trans ((Region.rd_wr_ne _ _ _ _ (by decide)).trans ((Region.rd_wr_ne _ _ _ _ (by decide)).trans hdraining))
  · intro s r hdraining hslotEnd
    obtain ⟨hreg, hlog, hdeg, hregions, hclusters⟩ := s.drainFault_spec r
    refine ⟨_, congrArg Host.Outcome.next (if_pos ⟨hdraining, hslotEnd⟩), ?_⟩
    rw [hreg]
    exact ⟨(Region.timedOut_reads _).1, (Region.timedOut_reads _).2, hlog, hdeg, hregions, hclusters⟩

end Sys2Proof.Machine
end

section
namespace Sys2Proof.Machine

/-! ## What a forced replacement leaves of a cluster (R208, R209) -/

/-- d has the memory, the column of the deep store and the elements of c. -/
def Cluster.SameStores (c d : Cluster) : Prop := d.mem = c.mem ∧ d.ds = c.ds ∧ d.elems = c.elems

theorem Cluster.SameStores.refl (c : Cluster) : c.SameStores c := ⟨rfl, rfl, rfl⟩

theorem Cluster.SameStores.trans {c d e : Cluster} (h : c.SameStores d) (k : d.SameStores e) : c.SameStores e := by
  obtain ⟨hmem, hds, helems⟩ := h
  obtain ⟨kmem, kds, kelems⟩ := k
  exact ⟨kmem.trans hmem, kds.trans hds, kelems.trans helems⟩

theorem Cluster.SameStores.foldl {α : Type} {f : Cluster → α → Cluster} (hf : ∀ (d : Cluster) a, d.SameStores (f d a)) (l : List α) (c : Cluster) :
    c.SameStores (l.foldl f c) := by
  induction l generalizing c with
  | nil => exact Cluster.SameStores.refl c
  | cons a l ih => exact (hf c a).trans (ih (f c a))

theorem Cluster.SameStores.wr (c : Cluster) (f : Fld) (v : Nat) : c.SameStores (c.wr f v) := ⟨rfl, rfl, rfl⟩

theorem Cluster.SameStores.setMu (c : Cluster) (u : Mu) : c.SameStores { c with mu := u } := ⟨rfl, rfl, rfl⟩

theorem Cluster.SameStores.setTu (c : Cluster) (u : Tu) : c.SameStores { c with tu := u } := ⟨rfl, rfl, rfl⟩

theorem Cluster.SameStores.creditsBack (c : Cluster) (q n : Nat) : c.SameStores (c.creditsBack 32 q n) := by
  obtain ⟨l, hl⟩ := c.creditsBack_eq (Nat.le_refl 32) q n
  rw [hl]
  exact ⟨rfl, rfl, rfl⟩

theorem Cluster.SameStores.muStaleN (c : Cluster) (n : Nat) : c.SameStores (c.muStaleN n) := by
  unfold Cluster.muStaleN
  split
  · exact Cluster.SameStores.refl c
  · exact (Cluster.SameStores.wr c MU_CNT_STALE_CNT _).trans (Cluster.SameStores.wr _ MU_EVENT_STALE 1)

theorem Cluster.SameStores.listStop (c : Cluster) : c.SameStores c.listStop :=
  (Cluster.SameStores.wr c MU_LIST_CTRL_ACTIVE 0).trans (Cluster.SameStores.setMu _ { c.mu with list := [] })

theorem Cluster.SameStores.muForce (c : Cluster) (ep : Nat) : c.SameStores (c.muForce ep) := by
  unfold Cluster.muForce
  extract_lets start c1 c2 runs
  have h1 : c.SameStores c1 := Cluster.SameStores.foldl (fun d l =>
    ((Cluster.SameStores.setMu d _).trans (Cluster.SameStores.creditsBack _ l _)).trans (Cluster.SameStores.muStaleN _ _)) _ c
  have h2 : c1.SameStores c2 := (Cluster.SameStores.muStaleN c1 _).trans (Cluster.SameStores.listStop _)
  exact (h1.trans h2).trans (Cluster.SameStores.setMu c2 _)

theorem Cluster.SameStores.tuForce (c : Cluster) : c.SameStores c.tuForce := by
  unfold Cluster.tuForce
  extract_lets whole n c1 u c2
  have h1 : c.SameStores c1 := Cluster.SameStores.foldl (fun d q => Cluster.SameStores.setTu d _) _ c
  have h2 : c.SameStores c2 := h1.trans (Cluster.SameStores.setTu c1 _)
  split
  · exact h2
  · exact h2.trans ((Cluster.SameStores.wr c2 TU_CNT_STALE_CNT _).trans (Cluster.SameStores.wr _ TU_EVENT_STALE 1))

/-- Each element of a list without repetition is changed once. -/
theorem Cluster.foldl_modElem {l : List Nat} (hl : l.Nodup) (c : Cluster) (f : Elem → Elem) (k : Nat) :
    (l.foldl (fun d e => d.modElem e f) c).elem k = if k ∈ l then f (c.elem k) else c.elem k := by
  induction l generalizing c with
  | nil => rfl
  | cons e l ih =>
    obtain ⟨he, hl⟩ := List.nodup_cons.1 hl
    rw [List.foldl_cons, ih hl, Cluster.elem_modElem]
    by_cases hk : k = e
    · subst hk
      simp [he]
    · simp [hk]

theorem Cluster.foldl_modElem_stores (l : List Nat) (c : Cluster) (f : Elem → Elem) :
    (l.foldl (fun d e => d.modElem e f) c).mem = c.mem ∧ (l.foldl (fun d e => d.modElem e f) c).ds = c.ds := by
  induction l generalizing c with
  | nil => exact ⟨rfl, rfl⟩
  | cons e l ih => exact ih (c.modElem e f)

/-- Every context of a forced cluster is IDLE; its memory and its column of the deep store are as they were (R208, R209). -/
theorem Cluster.force_spec (c : Cluster) (ep : Nat) : (∀ e x, e < 32 → (((c.force ep).elem e).ctx x).state = .idle) ∧
    (c.force ep).mem = c.mem ∧ (c.force ep).ds = c.ds := by
  obtain ⟨hmem, hds⟩ := Cluster.foldl_modElem_stores (List.range 32) c (fun x => x.force ep)
  have hforced := Cluster.foldl_modElem (List.nodup_range (n := 32)) c (fun x => x.force ep)
  obtain ⟨kmem, kds, kelems⟩ := (Cluster.SameStores.muForce ((List.range 32).foldl (fun d e => d.modElem e (fun x => x.force ep)) c) ep).trans
    (Cluster.SameStores.tuForce _)
  refine ⟨fun e x he => ?_, kmem.trans hmem, kds.trans hds⟩
  have helem : (c.force ep).elem e = (c.elem e).force ep :=
    (congrArg (fun m => SMap.get (fun _ => Elem.reset) m e) kelems).trans ((hforced e).trans (if_pos (List.mem_range.2 he)))
  rw [helem]
  rfl

/-! ## A region under a forced replacement (R208) -/

/-- A region as its forced replacement begins, before a park that was deferred. -/
def Region.replaced (g : Region) : Region :=
  { (((g.setSched 5).wr TCK_RSCHED_EPOCH ((g.rd TCK_RSCHED_EPOCH + 1) % 4)).wr TCK_RSCHED_PARKDRAIN 0).wr TCK_RDRAIN_DRAINED 0 with
    slot := none, startDue := false, drainWaits := false, swapsDue := [] }

/-- A region as `State.force` leaves it. -/
def Region.forced (g : Region) : Region := g.replaced.parkBegin

theorem Region.replaced_reads (g : Region) : g.replaced.sched_ = 5 ∧ g.replaced.rd TCK_RSCHED_EPOCH = (g.rd TCK_RSCHED_EPOCH + 1) % 4 ∧
    g.replaced.rd TCK_RDRAIN_DRAINED = 0 ∧ g.replaced.balance = 0 := by
  have hrd : ∀ f : Fld, g.replaced.rd f =
      ((((g.setSched 5).wr TCK_RSCHED_EPOCH ((g.rd TCK_RSCHED_EPOCH + 1) % 4)).wr TCK_RSCHED_PARKDRAIN 0).wr TCK_RDRAIN_DRAINED 0).rd f := fun _ => rfl
  refine ⟨?_, ?_, (hrd _).trans (Region.rd_wr_same _ _ _ (by decide)), ?_⟩
  · exact (hrd _).trans ((Region.rd_wr_ne _ _ _ _ (by decide)).trans ((Region.rd_wr_disjoint _ _ _ _ (by decide) (by decide)).trans
      ((Region.rd_wr_disjoint _ _ _ _ (by decide) (by decide)).trans (g.rd_setSched_state 5))))
  · exact (hrd _).trans ((Region.rd_wr_ne _ _ _ _ (by decide)).trans ((Region.rd_wr_disjoint _ _ _ _ (by decide) (by decide)).trans
      ((Region.rd_wr_same _ _ _ (by decide)).trans (Nat.mod_mod _ 4))))
  · show (g.setSched 5).balance = 0
    rfl

theorem Region.forced_reads (g : Region) : g.forced.sched_ = 5 ∧ g.forced.rd TCK_RSCHED_EPOCH = (g.rd TCK_RSCHED_EPOCH + 1) % 4 ∧ g.forced.slot = none ∧
    g.forced.balance = 0 ∧ g.forced.rd TCK_RDRAIN_DRAINED = 0 := by
  obtain ⟨hsched, hepoch, hdrained, hbalance⟩ := g.replaced_reads
  have hregs := g.replaced.parkBegin_regs (by rw [hsched]; decide)
  have hframe := hregs.1
  have hslot : g.forced.slot = g.replaced.slot := by
    have := congrArg Region.slot hframe
    exact this
  have hkept : g.forced.balance = g.replaced.balance := by
    have := congrArg Region.balance hframe
    exact this
  exact ⟨(hregs.rd (f := TCK_RSCHED_STATE) (by decide)).trans hsched, (hregs.rd (by decide)).trans hepoch, hslot, hkept.trans hbalance,
    (hregs.rd (by decide)).trans hdrained⟩

theorem nodup_clustersOf (r : Nat) : (clustersOf r).Nodup := by
  refine List.Nodup.map_on (fun a ha b hb h => ?_) List.nodup_range
  rw [List.mem_range] at ha hb
  simp only [cidx] at h
  omega

theorem mem_clustersOf {r k : Nat} : k ∈ clustersOf r ↔ regionOf k = r :=
  ⟨regionOf_of_mem_clustersOf, fun h => h ▸ mem_clustersOf_regionOf k⟩

theorem State.endWith_only (s : State) (r status : Nat) : ∃ m, s.endWith r status = s.modDome (fun d => { d with ephs := m }) := by
  unfold State.endWith
  split
  · exact ⟨s.dome.ephs, rfl⟩
  · exact ⟨_, rfl⟩

/-- The clusters of region r under a forced replacement with epoch ep. -/
def State.forceClusters (s : State) (r ep : Nat) : State := (clustersOf r).foldl (fun t i => t.modCluster i (fun c => c.force ep)) s

theorem State.cluster_forceClusters (s : State) (r ep c : Nat) :
    (s.forceClusters r ep).cluster c = if regionOf c = r then (s.cluster c).force ep else s.cluster c := by
  rw [State.forceClusters, State.foldl_modCluster (nodup_clustersOf r)]
  simp only [mem_clustersOf]

theorem State.forceClusters_only (s : State) (r ep : Nat) : { s.forceClusters r ep with clusters := s.clusters } = s :=
  (State.foldl_onlyCluster (fun u i => OnlyCluster.modCluster u i (fun c => c.force ep)) (clustersOf r) s).1

theorem State.force_eq {s : State} {r : Nat} (h : (s.region r).sched_ ∈ [1, 2, 3, 4, 6]) :
    s.force r = ((s.setRegion r (s.region r).forced).forceClusters r (((s.region r).rd TCK_RSCHED_EPOCH + 1) % 4)).endWith r
      (if s.mstate = 2 then 24 else 25) := by
  have hnot : ¬((s.region r).sched_ = 0 ∨ (s.region r).sched_ = 5 ∨ (s.region r).sched_ = 7) := by
    simp only [List.mem_cons, List.not_mem_nil, or_false] at h
    omega
  exact if_neg hnot

/-- A forced replacement of a region that is neither FREE nor FORCED: the region, the clusters, the other regions, and the dome controller (R208). -/
theorem State.force_spec {s : State} {r : Nat} (h : (s.region r).sched_ ∈ [1, 2, 3, 4, 6]) :
    (s.force r).region r = (s.region r).forced ∧
    (∀ c, (s.force r).cluster c = if regionOf c = r then (s.cluster c).force (((s.region r).rd TCK_RSCHED_EPOCH + 1) % 4) else s.cluster c) ∧
    (∀ k, k ≠ r → (s.force r).region k = s.region k) ∧ (s.force r).dome.silent = s.dome.silent := by
  rw [State.force_eq h]
  generalize ((s.region r).rd TCK_RSCHED_EPOCH + 1) % 4 = ep
  have honly := (s.setRegion r (s.region r).forced).forceClusters_only r ep
  have hreg := region_of_onlyClusters honly
  have hsilent : ((s.setRegion r (s.region r).forced).forceClusters r ep).dome.silent = s.dome.silent := by
    have := congrArg (fun x : State => x.dome.silent) honly
    exact this
  obtain ⟨m, hm⟩ := ((s.setRegion r (s.region r).forced).forceClusters r ep).endWith_only r (if s.mstate = 2 then 24 else 25)
  rw [hm]
  refine ⟨?_, fun c => ?_, fun k hk => ?_, hsilent⟩
  · rw [State.region_modDome, hreg, State.region_setRegion_same]
  · rw [State.cluster_modDome, State.cluster_forceClusters, State.cluster_setRegion]
  · rw [State.region_modDome, hreg, State.region_setRegion_ne _ _ hk]

/-! ## FORCE by ephemeris (R208, R222) -/

theorem State.pageOpen_congr {s t : State} {r : Nat} (hreg : t.region r = s.region r) (hsilent : t.dome.silent = s.dome.silent) :
    t.pageOpen r = s.pageOpen r := by
  rw [State.pageOpen, State.pageOpen, hreg, hsilent]

/-- A FREE, FORCED or bypassed region takes no FORCE (R208). -/
theorem State.force_idle {s : State} {r : Nat} (h : (s.region r).sched_ ∉ [1, 2, 3, 4, 6]) : s.force r = s := by
  have hlt : (s.region r).sched_ < 2 ^ 3 := Fld.rd_lt pageTable (s.region r).regs TCK_RSCHED_STATE
  simp only [List.mem_cons, List.not_mem_nil, or_false] at h
  exact if_pos (by omega)

theorem State.forceWrite_open {s : State} {r : Nat} (h : s.pageOpen r = true) : s.forceWrite r = s.force r := if_pos h

/-- FORCE written to a region leaves the other regions, and which regions are silent. -/
theorem State.forceWrite_others (s : State) (r : Nat) : (∀ k, k ≠ r → (s.forceWrite r).region k = s.region k) ∧
    (s.forceWrite r).dome.silent = s.dome.silent := by
  unfold State.forceWrite
  split
  · by_cases h : (s.region r).sched_ ∈ [1, 2, 3, 4, 6]
    · obtain ⟨-, -, hother, hsilent⟩ := State.force_spec h
      exact ⟨hother, hsilent⟩
    · rw [State.force_idle h]
      exact ⟨fun _ _ => rfl, rfl⟩
  · split
    · exact ⟨fun k hk => State.region_setRegion_ne s _ hk, rfl⟩
    · exact ⟨fun _ _ => rfl, rfl⟩

/-- A FORCED region takes no further FORCE (R208). -/
theorem State.forceWrite_forced {s : State} {r : Nat} (h : (s.region r).sched_ = 5) : s.forceWrite r = s := by
  unfold State.forceWrite
  split
  · exact State.force_idle (by rw [h]; decide)
  · exact if_neg (by rw [h]; decide)

/-- FORCE written to a region that ephemeris e holds. -/
def State.forceHeld (e : Nat) (s : State) (r : Nat) : State := if (s.region r).rd TCK_RSCHED_EPH = e then s.forceWrite r else s

theorem State.forceHeld_others (e : Nat) (s : State) (r : Nat) : (∀ k, k ≠ r → (s.forceHeld e r).region k = s.region k) ∧
    (s.forceHeld e r).dome.silent = s.dome.silent := by
  unfold State.forceHeld
  split
  · exact s.forceWrite_others r
  · exact ⟨fun _ _ => rfl, rfl⟩

theorem State.forceHeld_forced {e : Nat} {s : State} {r : Nat} (h : (s.region r).sched_ = 5) : s.forceHeld e r = s := by
  rw [State.forceHeld, State.forceWrite_forced h, ite_self]

theorem State.region_foldl_forceHeld_ne (e : Nat) (l : List Nat) (s : State) {k : Nat} (hk : k ∉ l) :
    (l.foldl (State.forceHeld e) s).region k = s.region k := by
  induction l generalizing s with
  | nil => rfl
  | cons r l ih =>
    rw [List.mem_cons, not_or] at hk
    exact (ih (s.forceHeld e r) hk.2).trans ((s.forceHeld_others e r).1 k hk.1)

theorem State.region_foldl_forceHeld_forced (e : Nat) (l : List Nat) (s : State) {r : Nat} (h : (s.region r).sched_ = 5) :
    (l.foldl (State.forceHeld e) s).region r = s.region r := by
  induction l generalizing s with
  | nil => rfl
  | cons k l ih =>
    have hstep : (s.forceHeld e k).region r = s.region r := by
      by_cases hk : r = k
      · rw [← hk, State.forceHeld_forced h]
      · exact (s.forceHeld_others e k).1 r hk
    exact (ih (s.forceHeld e k) (by rw [hstep, h])).trans hstep

/-- Each region of the list that the ephemeris holds, and whose page is open, is forced (R208, R222). -/
theorem State.region_foldl_forceHeld {e : Nat} {l : List Nat} {s : State} {r : Nat} (hr : r ∈ l) (hopen : s.pageOpen r = true)
    (heph : (s.region r).rd TCK_RSCHED_EPH = e) (hsched : (s.region r).sched_ ∈ [1, 2, 3, 4, 6]) :
    (l.foldl (State.forceHeld e) s).region r = (s.region r).forced := by
  induction l generalizing s with
  | nil => exact absurd hr List.not_mem_nil
  | cons k l ih =>
    rw [List.foldl_cons]
    by_cases hk : r = k
    · subst hk
      have hstep : (s.forceHeld e r).region r = (s.region r).forced := by
        rw [State.forceHeld, if_pos heph, State.forceWrite_open hopen, (State.force_spec hsched).1]
      exact (State.region_foldl_forceHeld_forced e l _ (by rw [hstep]; exact (s.region r).forced_reads.1)).trans hstep
    · obtain ⟨hother, hsilent⟩ := s.forceHeld_others e k
      have hstep := hother r hk
      rw [← hstep] at heph hsched ⊢
      exact ih ((List.mem_cons.1 hr).resolve_left hk) ((State.pageOpen_congr hstep hsilent).trans hopen) heph hsched

/-- A write of one ephemeris's bit forces that ephemeris (R222). -/
theorem exec_tckEphForce_bit (s : State) (e : Fin 8) : exec (.tckEphForce (BitVec.ofNat 32 (2 ^ e.val))) s = .next (s.forceEph e.val).ephSweep := by
  have hbits : (List.range 8).filter (fun k => (BitVec.ofNat 32 (2 ^ e.val)).getLsbD k) = [e.val] := by
    revert e
    decide
  have hfold := List.foldl_filter (p := fun k => (BitVec.ofNat 32 (2 ^ e.val)).getLsbD k) (f := State.forceEph) (l := List.range 8) (init := s)
  rw [hbits] at hfold
  exact congrArg (fun t : State => Host.Outcome.next t.ephSweep) hfold.symm

theorem State.forceEph_held {s : State} {e : Nat} {x : Eph} (h : SMap.get (fun _ => none) s.dome.ephs e = some x) :
    s.forceEph e = x.regions.foldl (State.forceHeld e) s := by
  unfold State.forceEph
  rw [h]
  rfl

/-! ## The end of a forced replacement (R208, R209, R353) -/

theorem ChronoEphOnly.region {s t : State} (h : ChronoEphOnly s t) (k : Nat) : t.region k = s.region k := by
  obtain ⟨-, -, -, -, hregions, -⟩ := h.fields
  exact congrArg (fun m => SMap.get (fun _ => Region.reset) m k) hregions

theorem ChronoEphOnly.clusters {s t : State} (h : ChronoEphOnly s t) : t.clusters = s.clusters := by
  obtain ⟨-, -, -, -, -, hclusters⟩ := h.fields
  exact hclusters

theorem ChronoEphOnly.logged {s t u : State} (h : ChronoEphOnly t u) {code region : Nat} (hlog : Logged s t code region) : Logged s u code region := by
  have hseq : u.dome.logSeq = t.dome.logSeq := by
    have := congrArg (fun x : State => x.dome.logSeq) h.1
    exact this
  have hpend : u.dome.logPend = t.dome.logPend := by
    have := congrArg (fun x : State => x.dome.logPend) h.1
    exact this
  rw [Logged, hseq, hpend]
  exact hlog

/-- A region that becomes FREE (R206, R208). -/
def Region.freed (g : Region) : Region :=
  { ((g.setSched 0).wr TCK_RDRAIN_DRAINED 0).wr TCK_RSCHED_PARKDRAIN 0 with
    sched := [], slot := none, startDue := false, drainWaits := false, swapsDue := [] }

theorem Region.freed_free (g : Region) : g.freed.sched_ = 0 := by
  have hrd : g.freed.sched_ = (((g.setSched 0).wr TCK_RDRAIN_DRAINED 0).wr TCK_RSCHED_PARKDRAIN 0).rd TCK_RSCHED_STATE := rfl
  rw [hrd, Region.rd_wr_disjoint _ _ _ _ (by decide) (by decide), Region.rd_wr_ne _ _ _ _ (by decide), Region.rd_setSched_state]

theorem State.freeRegion_eq (s : State) (r : Nat) : s.freeRegion r = (s.setRegion r (s.region r).freed).freezeBucket r := rfl

/-- A region that becomes FREE has no schedule and no slot; nothing but it changes (R206, R208). -/
theorem State.freeRegion_spec (s : State) (r : Nat) : ((s.freeRegion r).region r).sched_ = 0 ∧ ((s.freeRegion r).region r).slot = none ∧
    ((s.freeRegion r).region r).sched = [] ∧ (s.freeRegion r).clusters = s.clusters ∧ ∀ k, k ≠ r → (s.freeRegion r).region k = s.region k := by
  rw [State.freeRegion_eq]
  obtain ⟨⟨b, hreg⟩, hframe, hother⟩ := (s.setRegion r (s.region r).freed).freezeBucket_spec r
  have hclusters : ((s.setRegion r (s.region r).freed).freezeBucket r).clusters = s.clusters := by
    have := congrArg State.clusters hframe
    exact this
  rw [hreg, State.region_setRegion_same]
  exact ⟨(s.region r).freed_free, rfl, rfl, hclusters, fun k hk => (hother k hk).trans (State.region_setRegion_ne s _ hk)⟩

/-- Settles O29: FORCE is `State.force`, over the regions of an ephemeris `State.forceHeld`; the emptied region is `State.freeRegion`'s, a region that does
not empty `State.drainFault`'s. -/
theorem forcedReplacement : Obligations.ForcedReplacement := by
  unfold Obligations.ForcedReplacement
  refine ⟨?_, ?_, ?_, ?_, ?_⟩
  · intro s r hopen hsched
    obtain ⟨hreg, hclusters, hother, -⟩ := State.force_spec hsched
    obtain ⟨hforced, hepoch, hslot, hbalance, hdrained⟩ := (s.region r.val).forced_reads
    refine ⟨_, congrArg Host.Outcome.next (if_pos hopen), ?_⟩
    rw [hreg]
    refine ⟨hforced, hepoch, hslot, hbalance, hdrained, fun c e x _ he hc => ?_, fun c => ?_, hother, fun c hc => ?_⟩
    · rw [hclusters c, if_pos hc]
      exact (Cluster.force_spec _ _).1 e x he
    · rw [hclusters c]
      split
      · exact (Cluster.force_spec _ _).2
      · exact ⟨rfl, rfl⟩
    · rw [hclusters c, if_neg hc]
  · intro s r e x heph hr hopen hheld hsched
    have hsweep := (s.forceEph e.val).ephSweep_only
    have hregions := State.forceEph_held heph
    have hreg : (s.forceEph e.val).ephSweep.region r.val = (s.region r.val).forced := by
      rw [hsweep.region, hregions]
      exact State.region_foldl_forceHeld hr hopen hheld hsched
    obtain ⟨hforced, hepoch, hslot, -, -⟩ := (s.region r.val).forced_reads
    refine ⟨_, exec_tckEphForce_bit s e, ?_⟩
    rw [hreg]
    refine ⟨hforced, hepoch, hslot, fun k hk => ?_⟩
    rw [hsweep.region, hregions]
    exact State.region_foldl_forceHeld_ne e.val x.regions s hk
  · intro s r hforced hquiet hunstaged
    have hsweep := (s.freeRegion r.val).ephSweep_only
    obtain ⟨hfree, hslot, hsched, hclusters, hother⟩ := s.freeRegion_spec r.val
    refine ⟨_, congrArg Host.Outcome.next (if_pos ⟨hforced, hquiet, hunstaged⟩), ?_⟩
    rw [hsweep.region]
    exact ⟨hfree, hslot, hsched, hsweep.clusters.trans hclusters, fun k hk => (hsweep.region k).trans (hother k hk)⟩
  · intro s r hforced
    have hsweep := ((s.drainFault r.val).modRegion r.val (fun g => { g with forceOver := true })).ephSweep_only
    obtain ⟨hreg, hlog, -, hother, hclusters⟩ := s.drainFault_spec r
    obtain ⟨hfault, htimeout⟩ := (s.region r.val).timedOut_reads
    refine ⟨_, congrArg Host.Outcome.next (if_pos hforced), ?_⟩
    rw [hsweep.region, State.region_modRegion_same, hreg]
    refine ⟨hfault, htimeout, hsweep.logged hlog, hsweep.clusters.trans hclusters, fun k hk => ?_⟩
    rw [hsweep.region, State.region_modRegion, if_neg hk, hother k hk]
  · intro s r hfault hasked
    have hsweep := (s.modRegion r.val (fun g => { g with forceOver := true })).ephSweep_only
    have hexec : exec (.forcedTimeout r) s = .next (s.modRegion r.val (fun g => { g with forceOver := true })).ephSweep :=
      congrArg Host.Outcome.next ((if_neg (by rw [hfault]; decide)).trans (if_pos ⟨hfault, hasked⟩))
    refine ⟨_, hexec, ?_⟩
    rw [hsweep.region, State.region_modRegion_same]
    refine ⟨rfl, hfault, hsweep.clusters, fun k hk => ?_⟩
    rw [hsweep.region, State.region_modRegion, if_neg hk]

end Sys2Proof.Machine
end

section
namespace Sys2Proof.Machine

/-! ## Writes of clusters and the events they make (R77, R223, R232) -/

/-- t differs from s in its clusters, and in its regions by the events that wait for their debit and the chronograph's counts alone. -/
def ClusterWrites (s t : State) : Prop := { t with clusters := s.clusters, regions := s.regions } = s ∧ ∀ k, RegionEvents (s.region k) (t.region k)

theorem ClusterWrites.refl (s : State) : ClusterWrites s s := ⟨rfl, fun _ => rfl⟩

theorem RegionEvents.trans {g h k : Region} (a : RegionEvents g h) (b : RegionEvents h k) : RegionEvents g k := by
  have := congrArg (fun x : Region => { x with ev := g.ev, chr := g.chr }) b
  exact this.trans a

theorem ClusterWrites.trans {s t u : State} (h : ClusterWrites s t) (k : ClusterWrites t u) : ClusterWrites s u :=
  ⟨(congrArg (fun x : State => { x with clusters := s.clusters, regions := s.regions }) k.1).trans h.1, fun r => (h.2 r).trans (k.2 r)⟩

theorem ClusterWrites.foldl {α : Type} {f : State → α → State} {l : List α} (hf : ∀ u, ∀ a ∈ l, ClusterWrites u (f u a)) (s : State) :
    ClusterWrites s (l.foldl f s) := by
  induction l generalizing s with
  | nil => exact ClusterWrites.refl s
  | cons a l ih => exact (hf s a List.mem_cons_self).trans (ih (fun u b hb => hf u b (List.mem_cons_of_mem a hb)) (f s a))

theorem ClusterWrites.modCluster (s : State) (i : Nat) (f : Cluster → Cluster) : ClusterWrites s (s.modCluster i f) := ⟨rfl, fun _ => rfl⟩

theorem ClusterWrites.debit (s : State) (i cls n : Nat) : ClusterWrites s (s.debit i cls n) := by
  refine ⟨rfl, fun k => ?_⟩
  rw [State.debit, State.region_modRegion]
  split
  · next h =>
    rw [h]
    rfl
  · rfl

theorem ClusterWrites.rowWrite (s : State) (i cls a : Nat) (bs : List Byte) (mask : List Bool) (poison : Bool) :
    ClusterWrites s (s.rowWrite i cls a bs mask poison) :=
  (ClusterWrites.modCluster s i _).trans (ClusterWrites.debit _ i 4 1)

theorem ClusterWrites.unlockRow (s : State) (i row : Nat) : ClusterWrites s (s.unlockRow i row) := by
  unfold State.unlockRow
  dsimp only
  split
  · exact ClusterWrites.refl s
  · exact (ClusterWrites.modCluster s i _).trans (ClusterWrites.foldl (fun u a _ => ClusterWrites.rowWrite u i 6 _ _ _ _) _)

theorem ClusterWrites.memWrite (s : State) (i cls a : Nat) (bs : List Byte) (mask : List Bool) (poison : Bool) :
    ClusterWrites s (s.memWrite i cls a bs mask poison) :=
  (ClusterWrites.unlockRow s i (a / 512)).trans (ClusterWrites.rowWrite _ i cls a bs mask poison)

theorem ClusterWrites.memWriteAll (s : State) (i cls a : Nat) (bs : List Byte) (poison : Bool) (fuel : Nat) :
    ClusterWrites s (s.memWriteAll i cls a bs poison fuel) := by
  induction fuel generalizing s a bs with
  | zero => cases bs <;> exact ClusterWrites.refl s
  | succ fuel ih =>
    cases bs with
    | nil => exact ClusterWrites.refl s
    | cons b bs => exact (ClusterWrites.memWrite s i cls a _ _ poison).trans (ih _ _ _)

theorem ClusterWrites.dome {s t : State} (h : ClusterWrites s t) : t.dome = s.dome := by
  have := congrArg State.dome h.1
  exact this

theorem ClusterWrites.host {s t : State} (h : ClusterWrites s t) : t.host = s.host := by
  have := congrArg State.host h.1
  exact this

/-! ## The effect of a load (R199, R205, R213-R218) -/

/-- An initial value of cluster memory or of a doorbell, or none (R213). -/
theorem ClusterWrites.initCopy (s : State) (img : List Byte) {v : Nat} (h : initLen v = 0 ∨ addrSpace (initDest v) = 0 ∨ 4 ≤ addrSpace (initDest v)) :
    ClusterWrites s (s.initCopy img v) := by
  by_cases h0 : initLen v = 0
  · rw [show s.initCopy img v = s from if_pos h0]
    exact ClusterWrites.refl s
  · rcases h.resolve_left h0 with hmem | hbell
    · have heq : s.initCopy img v = s.memWriteAll _ 0 _ _ false _ := (if_neg h0).trans (if_pos hmem)
      rw [heq]
      exact ClusterWrites.memWriteAll _ _ _ _ _ _ _
    · have heq : s.initCopy img v = s.modCluster _ _ :=
        (if_neg h0).trans ((if_neg (by omega)).trans ((if_neg (by omega)).trans ((if_neg (by omega)).trans (if_neg (by omega)))))
      rw [heq]
      exact ClusterWrites.modCluster _ _ _

/-- A region that has taken its part of a schedule under number n, with slot 0 due at a tick (R199, R205). -/
def Region.Attached (g : Region) (n start : Nat) : Prop :=
  g.sched_ = 1 ∧ g.rd TCK_RSCHED_EPH = n ∧ g.rd TCK_RSCHED_EPOCH = 3 ∧ g.rd TCK_RSTATUS_SLIP = 0 ∧ g.start = start

theorem Region.attach_attached (g : Region) {n : Nat} (hn : n < 8) (start : Nat) (sched : List Slot) (loop : Option Nat) :
    (g.attach n start sched loop).Attached n start := by
  have hrd : ∀ f : Fld, (g.attach n start sched loop).rd f =
      ((((g.setSched 1).wr TCK_RSCHED_EPH n).wr TCK_RSCHED_EPOCH 3).wr TCK_RSTATUS_SLIP 0).rd f := fun _ => rfl
  refine ⟨(hrd _).trans ?_, (hrd _).trans ?_, (hrd _).trans ?_, (hrd _).trans (Region.rd_wr_same _ _ _ (by decide)), rfl⟩
  · exact (Region.rd_wr_ne _ _ _ _ (by decide)).trans ((Region.rd_wr_disjoint _ _ _ _ (by decide) (by decide)).trans
      ((Region.rd_wr_disjoint _ _ _ _ (by decide) (by decide)).trans (g.rd_setSched_state 1)))
  · exact (Region.rd_wr_ne _ _ _ _ (by decide)).trans ((Region.rd_wr_disjoint _ _ _ _ (by decide) (by decide)).trans
      ((Region.rd_wr_same _ _ _ (by decide)).trans (Nat.mod_eq_of_lt hn)))
  · exact (Region.rd_wr_ne _ _ _ _ (by decide)).trans (Region.rd_wr_same _ _ _ (by decide))

theorem Region.Attached.of_regs {g h : Region} {n start : Nat} {offs : List Nat} (ha : g.Attached n start) (hr : RegionRegs g h offs)
    (hs : TCK_RSCHED_STATE.off ∉ offs) (ht : TCK_RSTATUS_SLIP.off ∉ offs) : h.Attached n start := by
  obtain ⟨hsched, heph, hepoch, hslip, hstart⟩ := ha
  have hkept : h.start = g.start := by
    have := congrArg Region.start hr.1
    exact this
  exact ⟨(hr.rd (f := TCK_RSCHED_STATE) hs).trans hsched, (hr.rd (f := TCK_RSCHED_EPH) hs).trans heph, (hr.rd (f := TCK_RSCHED_EPOCH) hs).trans hepoch,
    (hr.rd (f := TCK_RSTATUS_SLIP) ht).trans hslip, hkept.trans hstart⟩

theorem Region.Attached.of_events {g h : Region} {n start : Nat} (ha : g.Attached n start) (hr : RegionEvents g h) : h.Attached n start := by
  have hregs : h.regs = g.regs := by
    have := congrArg Region.regs hr
    exact this
  have hkept : h.start = g.start := by
    have := congrArg Region.start hr
    exact this
  simp only [Region.Attached, Region.sched_, Region.rd, hregs, hkept]
  exact ha

/-- Each region of the list takes its part of the schedule. -/
theorem State.region_foldl_attach {n : Nat} (hn : n < 8) (start : Nat) (loop : Option Nat) (l : List (Nat × List Slot)) (s : State) {r : Nat}
    (h : r ∈ l.map (fun q => q.1) ∨ (s.region r).Attached n start) :
    ((l.foldl (fun t q => t.modRegion q.1 (fun g => g.attach n start q.2 loop)) s).region r).Attached n start := by
  induction l generalizing s with
  | nil => exact h.resolve_left List.not_mem_nil
  | cons q l ih =>
    refine ih _ ?_
    rw [State.region_modRegion]
    by_cases hq : r = q.1
    · rw [if_pos hq]
      exact .inr (Region.attach_attached _ hn start q.2 loop)
    · rw [if_neg hq]
      rw [List.map_cons, List.mem_cons] at h
      exact h.imp_left (fun hr => hr.resolve_left hq)

theorem OnlyRegions.trans {s t u : State} (h : OnlyRegions s t) (k : OnlyRegions t u) : OnlyRegions s u := by
  have := congrArg (fun x : State => { x with regions := s.regions }) k
  exact this.trans h

theorem OnlyRegions.modRegion (s : State) (r : Nat) (f : Region → Region) : OnlyRegions s (s.modRegion r f) := rfl

theorem OnlyRegions.foldl {α : Type} {f : State → α → State} (hf : ∀ u a, OnlyRegions u (f u a)) (l : List α) (s : State) :
    OnlyRegions s (l.foldl f s) := by
  induction l generalizing s with
  | nil => rfl
  | cons a l ih => exact (hf s a).trans (ih (f s a))

theorem OnlyRegions.domeHost {s t : State} (h : OnlyRegions s t) : t.dome = s.dome ∧ t.host = s.host := by
  have hdome := congrArg State.dome h
  have hhost := congrArg State.host h
  exact ⟨hdome, hhost⟩

/-- CLIPPED set in every region of the list: a region that took its part of the schedule keeps it. -/
theorem State.region_foldl_clipped {n start : Nat} (l : List Nat) (s : State) {r : Nat} (h : (s.region r).Attached n start) :
    ((l.foldl (fun t k => t.modRegion k (fun g => g.wr ALM_STATUS_CLIPPED 1)) s).region r).Attached n start := by
  induction l generalizing s with
  | nil => exact h
  | cons k l ih =>
    refine ih _ ?_
    rw [State.region_modRegion]
    split
    · next hk =>
      rw [← hk]
      exact h.of_regs ((RegionRegs.refl _ [ALM_STATUS_CLIPPED.off]).wr _ 1 (by decide)) (by decide) (by decide)
    · exact h

/-- The job queues are no matter of an event (R394). -/
theorem State.hifEvent_queues (s : State) (e : Nat) : (s.hifEvent e).host.queues = s.host.queues := by
  unfold State.hifEvent
  dsimp only
  split <;> rfl

/-- CLIPPED in every region, and its event (R85). -/
def State.markClipped (s : State) : State := ((List.range 112).foldl (fun t r => t.modRegion r (fun g => g.wr ALM_STATUS_CLIPPED 1)) s).hifEvent 2

theorem State.markClipped_spec (s : State) : s.markClipped.dome = s.dome ∧ s.markClipped.host.queues = s.host.queues ∧
    ∀ n start r, (s.region r).Attached n start → (s.markClipped.region r).Attached n start := by
  obtain ⟨hdome, hhost⟩ := (OnlyRegions.foldl (fun u k => OnlyRegions.modRegion u k (fun g => g.wr ALM_STATUS_CLIPPED 1)) (List.range 112) s).domeHost
  refine ⟨?_, ?_, fun n start r h => ?_⟩
  · rw [State.markClipped, State.hifEvent_dome, hdome]
  · rw [State.markClipped, State.hifEvent_queues, hhost]
  · rw [State.markClipped, State.region_hifEvent]
    exact State.region_foldl_clipped _ _ h

/-- The bit of a number set in TCK_EPH_ACTIVE stays as STANDING and the gate are written (R222). -/
theorem State.active_testBit (s : State) {n : Nat} (hn : n < 8) (active standing gate : Nat) :
    ((((s.setDome TCK_EPH_ACTIVE_ACTIVE (active ||| 2 ^ n)).setDome TCK_EPH_ACTIVE_STANDING standing).setDome TCK_GATE_GATE gate).dome_
      TCK_EPH_ACTIVE_ACTIVE).testBit n = true := by
  rw [State.dome_setDome_ne _ _ _ _ (by decide), State.dome_setDome_disjoint _ _ _ _ (by decide) (by decide), State.dome_setDome_same _ _ _ (by decide),
    Nat.testBit_mod_two_pow, Nat.testBit_or, Nat.testBit_two_pow_self, Bool.or_true, Bool.and_true]
  exact decide_eq_true hn

/-- A load with initial values of cluster memory and doorbells at most: the loader and the job queues stay, the number is ACTIVE, and each of the image's
regions takes its part of the schedule, slot 0 due two ticks on (R199, R205, R218, R222). -/
theorem State.loadEph_spec (s : State) (p : EphImg) {n : Nat} (hn : n < 8)
    (hinits : ∀ v ∈ p.inits, initLen v = 0 ∨ addrSpace (initDest v) = 0 ∨ 4 ≤ addrSpace (initDest v)) :
    (s.loadEph p n).dome.loader = s.dome.loader ∧ (s.loadEph p n).host.queues = s.host.queues ∧
    ((s.loadEph p n).dome_ TCK_EPH_ACTIVE_ACTIVE).testBit n = true ∧
    ∀ r ∈ p.regions, ((s.loadEph p n).region r).Attached n (s.tickNum + 2) := by
  unfold State.loadEph
  extract_lets placed scheds eph anyClip s1 s2 s3 s4 s5 s6 s7 s8 s9
  have hmem : ∀ r ∈ p.regions, r ∈ (p.regions.zip scheds).map (fun q => q.1) := fun r hr => by
    rw [List.map_fst_zip (by simp [scheds])]
    exact hr
  have h1 : OnlyRegions s s1 ∧ ∀ r ∈ p.regions, (s1.region r).Attached n (s.tickNum + 2) :=
    ⟨OnlyRegions.foldl (fun (u : State) (q : Nat × List Slot) => OnlyRegions.modRegion u q.1 _) _ s,
      fun r hr => State.region_foldl_attach hn _ _ _ s (.inl (hmem r hr))⟩
  clear_value s1
  obtain ⟨honly1, hattached1⟩ := h1
  obtain ⟨hdome1, hhost1⟩ := honly1.domeHost
  have h2 : s2.dome = s.dome ∧ s2.host.queues = s.host.queues ∧ ∀ r ∈ p.regions, (s2.region r).Attached n (s.tickNum + 2) := by
    obtain ⟨hdome, hqueues, hkept⟩ := s1.markClipped_spec
    unfold s2
    split
    · exact ⟨hdome.trans hdome1, hqueues.trans (congrArg Bridge.queues hhost1), fun r hr => hkept _ _ r (hattached1 r hr)⟩
    · exact ⟨hdome1, congrArg Bridge.queues hhost1, hattached1⟩
  clear_value s2
  obtain ⟨hdome2, hqueues2, hattached2⟩ := h2
  have h5 : s5.dome.loader = s2.dome.loader ∧ s5.host = s2.host ∧ s5.regions = s2.regions ∧ (s5.dome_ TCK_EPH_ACTIVE_ACTIVE).testBit n = true :=
    ⟨rfl, rfl, rfl, State.active_testBit s3 hn _ _ _⟩
  clear_value s5
  obtain ⟨hloader5, hhost5, hregions5, hactive5⟩ := h5
  have h8 : ClusterWrites s5 s8 := ((ClusterWrites.foldl (fun u v hv => ClusterWrites.initCopy u p.raw (hinits v hv)) s5).trans
    (ClusterWrites.foldl (fun u _ _ => ClusterWrites.memWriteAll u _ _ _ _ _ _) s6)).trans
    (ClusterWrites.foldl (fun u _ _ => ClusterWrites.memWriteAll u _ _ _ _ _ _) s7)
  clear_value s8
  have h9 : ClusterWrites s5 (if p.determ = true then placed.foldl (fun t i => t.modCluster i (fun c => c.setDeterm i)) s9 else s9) := by
    have hgroups : ClusterWrites s5 s9 := h8.trans (ClusterWrites.foldl (fun u _ _ => ClusterWrites.foldl (fun w i _ => ClusterWrites.modCluster w i _) u) s8)
    split
    · exact hgroups.trans (ClusterWrites.foldl (fun u i _ => ClusterWrites.modCluster u i _) s9)
    · exact hgroups
  generalize (if p.determ = true then placed.foldl (fun t i => t.modCluster i (fun c => c.setDeterm i)) s9 else s9) = t at h9 ⊢
  have hreg5 : ∀ r, s5.region r = s2.region r := fun r => congrArg (fun m => SMap.get (fun _ => Region.reset) m r) hregions5
  refine ⟨?_, ?_, ?_, fun r hr => ?_⟩
  · rw [h9.dome, hloader5, hdome2]
  · rw [h9.host, hhost5, hqueues2]
  · rw [State.dome_, h9.dome]
    exact hactive5
  · have hattached5 := hattached2 r hr
    rw [← hreg5] at hattached5
    exact hattached5.of_events (h9.2 r)

end Sys2Proof.Machine
end

section
namespace Sys2Proof.Machine

/-! ## The loader (R218, R222) -/

theorem firstFailed_cons (k : Nat) (b : Bool) (l : List (Nat × Bool)) : ((((k, b) :: l).find? (fun q => q.2)).map (fun q => q.1)).getD 0 =
    if b = true then k else ((l.find? (fun q => q.2)).map (fun q => q.1)).getD 0 := by
  cases b <;> rfl

/-- The status of an image is that of the first check that it fails, in the order of R218. -/
theorem State.loadStatus_eq (s : State) (p : EphImg) : s.loadStatus p = (((s.loadChecks p).find? (fun q => q.2)).map (fun q => q.1)).getD 0 := by
  simp only [State.loadChecks, firstFailed_cons, Bool.or_eq_true, Bool.and_eq_true, beq_iff_eq, bne_iff_ne, Bool.not_eq_true']
  rfl

theorem State.loadStatus_le (s : State) (p : EphImg) : s.loadStatus p ≤ 11 := by
  unfold State.loadStatus
  repeat' split
  all_goals omega

/-- TCK_EPH_LAST with a load's status and number (R222). -/
def State.setLast (s : State) (st n : Nat) : State := (s.setDome TCK_EPH_LAST_STATUS st).setDome TCK_EPH_LAST_EPH n

theorem State.setLast_reads (s : State) (st n : Nat) : (s.setLast st n).dome_ TCK_EPH_LAST_STATUS = st % 2 ^ TCK_EPH_LAST_STATUS.width ∧
    (s.setLast st n).dome_ TCK_EPH_LAST_EPH = n % 2 ^ TCK_EPH_LAST_EPH.width ∧
    ∀ f : Fld, f.off ≠ TCK_EPH_LAST_STATUS.off → (s.setLast st n).dome_ f = s.dome_ f := by
  refine ⟨?_, State.dome_setDome_same _ _ _ (by decide), fun f hf => ?_⟩
  · rw [State.setLast, State.dome_setDome_disjoint _ TCK_EPH_LAST_EPH _ _ (by decide) (by decide), State.dome_setDome_same _ _ _ (by decide)]
  · rw [State.setLast, State.dome_setDome_ne _ TCK_EPH_LAST_EPH f _ hf, State.dome_setDome_ne _ TCK_EPH_LAST_STATUS f _ hf]

theorem State.load_malformed (s : State) {bytes : List Byte} (h : parseEph bytes = none) : s.load bytes = (1, none, s.setLast 1 0) := by
  unfold State.load
  simp only [h]
  rfl

theorem State.load_refused (s : State) {bytes : List Byte} {p : EphImg} (h : parseEph bytes = some p) (hst : s.loadStatus p ≠ 0) :
    s.load bytes = (s.loadStatus p, none, s.setLast (s.loadStatus p) 0) := by
  unfold State.load
  simp only [h]
  cases s.freeEph with
  | none => rfl
  | some n => exact if_neg hst

theorem State.load_taken (s : State) {bytes : List Byte} {p : EphImg} {n : Nat} (h : parseEph bytes = some p) (hst : s.loadStatus p = 0)
    (hn : s.freeEph = some n) : s.load bytes = (0, some n, (s.loadEph p n).setLast 0 n) := by
  unfold State.load
  simp only [h, hn]
  exact if_pos hst

/-- Every load status is one of R218's. -/
theorem State.load_status_le (s : State) (bytes : List Byte) : (s.load bytes).1 ≤ 11 := by
  cases h : parseEph bytes with
  | none =>
    rw [s.load_malformed h]
    exact Nat.le_of_ble_eq_true rfl
  | some p =>
    by_cases hst : s.loadStatus p = 0
    · cases hn : s.freeEph with
      | none =>
        unfold State.load
        simp only [h, hn]
        exact s.loadStatus_le p
      | some n =>
        rw [s.load_taken h hst hn]
        exact Nat.zero_le 11
    · rw [s.load_refused h hst]
      exact s.loadStatus_le p

theorem State.freeEph_lt {s : State} {n : Nat} (h : s.freeEph = some n) : n < 8 := List.mem_range.1 (List.mem_of_find?_eq_some h)

/-! ## EPHEMERIS_LOAD (R218, R390, R392) -/

theorem State.hostQ_congr {s t : State} (h : t.host.queues = s.host.queues) (q : Nat) : t.hostQ q = s.hostQ q :=
  congrArg (fun m => SMap.get (fun _ => HostQ.reset) m q) h

/-- A queue as the completion of job j leaves it: the job gone, its record due (R392). -/
def HostQ.completed (h : HostQ) (j : Job) (status : Nat) (eph : Option Nat) : HostQ :=
  { h with jobs := h.jobs.filter (fun k => k.serial != j.serial), due := h.due ++ [⟨j.cid, status, eph, 0, 0, j.irq⟩] }

/-- A job that completes at a queue that takes records (R387, R392). -/
theorem State.jobDone_records {s : State} {q : Nat} {j : Job} (status : Nat) (eph : Option Nat) (hmute : j.mute = false)
    (hst : (s.hostQ q).rd HIF_Q_STATUS_STATE ≠ 3) :
    s.jobDone q { j with status := status, eph := eph } 0 = s.setHostQ q ((s.hostQ q).completed j status eph) := by
  have hdue : ¬(j.mute = true ∨ (s.hostQ q).rd HIF_Q_STATUS_STATE = 3) := by
    rw [hmute]
    exact fun h => h.elim Bool.false_ne_true hst
  unfold State.jobDone State.modHostQ
  dsimp only
  rw [if_neg hdue]
  rfl

/-- The state with the loader's oldest image taken. -/
def State.nextImage (s : State) (rest : List LoadReq) : State := s.modDome (fun d => { d with loader := rest })

/-- The state in which the job of a loaded image completes: its queue notes the number, and an ephemeris-end record may be owed (R393). -/
def State.loadNoted (t : State) (l : LoadReq) (mute : Bool) (n : Nat) : State :=
  let t2 := t.modHostQ l.queue (fun h => { h with lastLoad := some n })
  if l.notify = true ∧ mute = false ∧ (t.hostQ l.queue).rd HIF_Q_STATUS_STATE = 1 then
    t2.modHost (fun h => { h with owed := SMap.set (fun _ => none) h.owed n (some (l.queue, l.cid)) })
  else t2

theorem State.loadNoted_spec (t : State) (l : LoadReq) (mute : Bool) (n : Nat) : (t.loadNoted l mute n).dome = t.dome ∧
    (t.loadNoted l mute n).regions = t.regions ∧ (t.loadNoted l mute n).hostQ l.queue = { t.hostQ l.queue with lastLoad := some n } := by
  have hq : (t.modHostQ l.queue (fun h => { h with lastLoad := some n })).hostQ l.queue = { t.hostQ l.queue with lastLoad := some n } :=
    State.hostQ_setHostQ_same _ _ _
  unfold State.loadNoted
  dsimp only
  split
  · exact ⟨rfl, rfl, hq⟩
  · exact ⟨rfl, rfl, hq⟩

section
variable {s : State} {l : LoadReq} {rest : List LoadReq} {j : Job} (hloader : s.dome.loader = l :: rest)
  (hjob : (s.hostQ l.queue).jobs.find? (fun k => k.serial == l.serial) = some j) (hmute : j.mute = false)
  (hst : (s.hostQ l.queue).rd HIF_Q_STATUS_STATE ≠ 3)
include hloader hjob hmute hst

/-- An image that is refused: TCK_EPH_LAST shows the status, and the job's record carries it (R218, R222, R392). -/
theorem exec_ephemerisLoad_refused {st : Nat} (hload : (s.nextImage rest).load l.image = (st, none, (s.nextImage rest).setLast st 0)) :
    exec .ephemerisLoad s =
      .next (((s.nextImage rest).setLast st 0).setHostQ l.queue ((s.hostQ l.queue).completed j st none)) := by
  have hqueue : ((s.nextImage rest).setLast st 0).hostQ l.queue = s.hostQ l.queue := rfl
  show execEphemerisLoad s = _
  unfold execEphemerisLoad
  rw [hloader]
  dsimp only
  rw [show (s.modDome (fun d => { d with loader := rest })).load l.image = _ from hload]
  dsimp only
  rw [hqueue, hjob]
  exact congrArg Host.Outcome.next (State.jobDone_records (s := (s.nextImage rest).setLast st 0) st none hmute hst)

theorem ephemerisLoad_refused_spec {st : Nat} (hload : (s.nextImage rest).load l.image = (st, none, (s.nextImage rest).setLast st 0)) (hlt : st < 16) :
    ∃ t, exec .ephemerisLoad s = .next t ∧ t.dome.loader = rest ∧ t.dome_ TCK_EPH_LAST_STATUS = st ∧
      t.hostQ l.queue = (s.hostQ l.queue).completed j st none ∧ t.dome.ephs = s.dome.ephs ∧
      (t.regions = s.regions ∧ t.clusters = s.clusters ∧ ∀ k, k ≠ l.queue → t.hostQ k = s.hostQ k) := by
  obtain ⟨hstatus, -, -⟩ := (s.nextImage rest).setLast_reads st 0
  refine ⟨_, exec_ephemerisLoad_refused hloader hjob hmute hst hload, rfl, hstatus.trans (Nat.mod_eq_of_lt hlt),
    State.hostQ_setHostQ_same _ _ _, rfl, rfl, rfl, fun k hk => ?_⟩
  rw [State.hostQ_setHostQ, if_neg hk]
  rfl

/-- An image that is loaded: TCK_EPH_LAST shows the number, the queue notes it, and the job's record carries it (R218, R222, R392). -/
theorem exec_ephemerisLoad_taken {p : EphImg} {n : Nat}
    (hload : (s.nextImage rest).load l.image = (0, some n, ((s.nextImage rest).loadEph p n).setLast 0 n))
    (hqueues : ((s.nextImage rest).loadEph p n).host.queues = s.host.queues) :
    exec .ephemerisLoad s = .next (((((s.nextImage rest).loadEph p n).setLast 0 n).loadNoted l j.mute n).setHostQ l.queue
      ({ s.hostQ l.queue with lastLoad := some n }.completed j 0 (some n))) := by
  have hqueue : (((s.nextImage rest).loadEph p n).setLast 0 n).hostQ l.queue = s.hostQ l.queue := State.hostQ_congr hqueues l.queue
  obtain ⟨-, -, hnoted⟩ := (((s.nextImage rest).loadEph p n).setLast 0 n).loadNoted_spec l j.mute n
  rw [hqueue] at hnoted
  have hdone := State.jobDone_records (s := (((s.nextImage rest).loadEph p n).setLast 0 n).loadNoted l j.mute n) (q := l.queue) 0 (some n) hmute
    (by rw [hnoted]; exact hst)
  rw [hnoted] at hdone
  show execEphemerisLoad s = _
  unfold execEphemerisLoad
  rw [hloader]
  dsimp only
  rw [show (s.modDome (fun d => { d with loader := rest })).load l.image = _ from hload]
  dsimp only
  rw [hqueue, hjob]
  exact congrArg Host.Outcome.next ((congrArg (fun w : State => w.jobDone l.queue { j with status := 0, eph := some n } 0)
    (by rw [State.loadNoted, hqueue])).trans hdone)

end

/-! ## STANDING_LOAD (R220, R421) -/

/-- The four bits of standing ephemeris k in CAT_STANDING, replaced (R421). -/
theorem nibble_replaced (w : Nat) {k st : Nat} (hk : k < 8) (hst : st < 16) : (w - w / 16 ^ k % 16 * 16 ^ k + st * 16 ^ k) % 2 ^ 32 / 16 ^ k % 16 = st := by
  interval_cases k <;> omega

theorem State.setStanding_reads (s : State) {k st : Nat} (hk : k < 8) (hst : st < 16) :
    (s.setStanding k st).dome_ CAT_STANDING / 16 ^ k % 16 = st := by
  rw [State.setStanding, State.dome_setDome_same _ _ _ (by decide)]
  exact nibble_replaced _ hk hst

/-- Settles O30: a load is `State.load`, its status the first failed check's (`State.loadStatus_eq`), its effect `State.loadEph`; the job completes by
`HostQ.completed`. -/
theorem ephemerisLoads : Obligations.EphemerisLoads := by
  unfold Obligations.EphemerisLoads
  refine ⟨?_, ?_, ?_, ?_, ?_⟩
  · intro s l rest j hloader hparse hjob hmute hst
    obtain ⟨t, hexec, hrest, hstatus, hqueue, -, hframe⟩ :=
      ephemerisLoad_refused_spec hloader hjob hmute hst ((s.nextImage rest).load_malformed hparse) (by decide)
    refine ⟨t, hexec, hrest, hstatus, ?_⟩
    rw [hqueue]
    exact ⟨rfl, rfl, hframe⟩
  · intro s l rest j p hloader hparse hfails hjob hmute hst
    have hsame : (s.nextImage rest).loadStatus p = s.loadStatus p := rfl
    have hload := (s.nextImage rest).load_refused hparse (hsame ▸ hfails)
    rw [hsame] at hload
    obtain ⟨t, hexec, hrest, hstatus, hqueue, hephs, hframe⟩ :=
      ephemerisLoad_refused_spec hloader hjob hmute hst hload (Nat.lt_of_le_of_lt (s.loadStatus_le p) (by decide))
    rw [← s.loadStatus_eq p]
    refine ⟨t, hexec, hrest, hstatus, ?_⟩
    rw [hqueue]
    exact ⟨rfl, hephs, hframe⟩
  · intro s l rest j p n hloader hparse hpasses hfree hinits hjob hmute hst
    have hn := State.freeEph_lt hfree
    have hsame : (s.nextImage rest).loadStatus p = s.loadStatus p := rfl
    obtain ⟨hrest, hqueues, hactive, hregions⟩ := (s.nextImage rest).loadEph_spec p hn hinits
    obtain ⟨hstatus, hlast, hfields⟩ := ((s.nextImage rest).loadEph p n).setLast_reads 0 n
    obtain ⟨hdome, hregs, -⟩ := (((s.nextImage rest).loadEph p n).setLast 0 n).loadNoted_spec l j.mute n
    have hfield : ∀ f : Fld, ((((s.nextImage rest).loadEph p n).setLast 0 n).loadNoted l j.mute n).dome_ f =
        (((s.nextImage rest).loadEph p n).setLast 0 n).dome_ f := fun f => congrArg (fun d : Dome => Regs.rd domeTable d.regs f) hdome
    refine ⟨_, exec_ephemerisLoad_taken hloader hjob hmute hst ((s.nextImage rest).load_taken hparse (hsame.trans hpasses) hfree) hqueues, ?_⟩
    simp only [State.setHostQ_dome, State.domeReg_setHostQ, State.region_setHostQ, State.hostQ_setHostQ_same]
    refine ⟨?_, (hfield _).trans hstatus, (hfield _).trans hlast, ?_, rfl, rfl, fun r hr => ?_⟩
    · rw [hdome]
      exact hrest
    · rw [hfield, hfields _ (by decide)]
      exact hactive
    · have hreg : ((((s.nextImage rest).loadEph p n).setLast 0 n).loadNoted l j.mute n).region r = ((s.nextImage rest).loadEph p n).region r :=
        congrArg (fun m => SMap.get (fun _ => Region.reset) m r) hregs
      rw [hreg]
      exact hregions r hr
  · intro s k off len slot rest hstanding hslot hstarted hk hheld hnumber
    have hexec : exec .standingLoad s =
        .next (((s.load (s.norBytes slot off len)).2.2.modDome (fun d => { d with standing := rest })).setStanding k (s.load (s.norBytes slot off len)).1) := by
      show execStandingLoad s = _
      unfold execStandingLoad
      rw [hstanding, hslot]
      refine (if_neg hstarted).trans (if_neg ?_)
      rintro (⟨hfour, hwaits⟩ | helevens)
      · exact hheld.elim (fun h => h hfour) (fun h => Bool.false_ne_true (h.symm.trans hwaits))
      · exact hnumber helevens
    refine ⟨_, hexec, rfl, ?_, rfl, rfl⟩
    exact State.setStanding_reads _ hk (Nat.lt_of_le_of_lt (s.load_status_le _) (by decide))
  · intro s k off len slot rest hstanding hslot hwaits
    refine ⟨s, ?_, rfl⟩
    show execStandingLoad s = _
    unfold execStandingLoad
    rw [hstanding, hslot]
    by_cases hstart : s.mstate = 0
    · exact if_pos hstart
    · exact (if_neg hstart).trans (if_pos hwaits)

end Sys2Proof.Machine
end

section
namespace Sys2Proof.Machine

/-! ## A cluster's change with the events it makes (R77, R223) -/

/-- t is s with cluster c as d and with events of almanac classes in its region, the newest first (R77). -/
structure ClusterBecomes (s t : State) (c : Nat) (d : Cluster) (evs : List (Nat × Nat)) : Prop where
  frame : OnlyClusterEvents s t c
  cluster : t.cluster c = d
  region : t.region (regionOf c) = evs.foldr (fun e g => g.event e.1 e.2) (s.region (regionOf c))

theorem ClusterBecomes.of_onlyCluster {s t : State} {c : Nat} (h : OnlyCluster s t c) : ClusterBecomes s t c (t.cluster c) [] :=
  ⟨OnlyClusterEvents.of_onlyCluster h, rfl, region_of_onlyClusters h.1 _⟩

theorem ClusterBecomes.refl (s : State) (c : Nat) : ClusterBecomes s s c (s.cluster c) [] := of_onlyCluster (OnlyCluster.refl s c)

theorem Region.waits_event_ite (g : Region) (cls n k : Nat) : (g.event cls n).waits k = g.waits k + if k = cls then n else 0 := by
  refine (SMap.get_set _ _ _ _ _).trans ?_
  split
  · next h => rw [h]
  · rfl

/-- The lock of a row that no accumulate-write holds needs no release (R232). -/
theorem State.unlockRow_free {s : State} {c row : Nat} (hfree : (s.cluster c).locked row = false) : s.unlockRow c row = s := by
  have hmine : (s.cluster c).accs.filter (fun a => a.addr / 512 == row) = [] := by
    rwa [List.filter_eq_nil_iff, ← List.any_eq_false]
  unfold State.unlockRow
  rw [hmine]
  rfl

/-- A check that finds neither poison nor bad parity records nothing (R238). -/
theorem State.memCheck_clean (s : State) (c cls : Nat) {a n : Nat} {use : Nat → Bool} (hpoison : (s.cluster c).rowsPoisoned a n = false)
    (hbad : (s.cluster c).badBytes a n use = []) : s.memCheck c cls a n use = (false, s.setCluster c (s.cluster c)) := by
  unfold State.memCheck
  simp only [hpoison, hbad, Bool.false_eq_true, if_false]

section
variable {s t : State} {c : Nat} {d : Cluster} {evs : List (Nat × Nat)} (h : ClusterBecomes s t c d evs)
include h

theorem ClusterBecomes.waits (k : Nat) : (t.region (regionOf c)).waits k =
    (s.region (regionOf c)).waits k + (evs.map (fun e => if k = e.1 then e.2 else 0)).sum := by
  rw [h.region]
  clear h
  induction evs with
  | nil => rfl
  | cons e evs ih => rw [List.foldr_cons, Region.waits_event_ite, ih, List.map_cons, List.sum_cons, Nat.add_right_comm, Nat.add_assoc]

theorem ClusterBecomes.setCluster (x : Cluster) : ClusterBecomes s (t.setCluster c x) c x evs := by
  obtain ⟨⟨hrest, hothers, hregions, hevents⟩, -, hregion⟩ := h
  exact ⟨⟨hrest, fun k hk => (State.cluster_setCluster_ne t x hk).trans (hothers k hk), hregions, hevents⟩,
    State.cluster_setCluster_same t c x, hregion⟩

theorem ClusterBecomes.modCluster (f : Cluster → Cluster) : ClusterBecomes s (t.modCluster c f) c (f d) evs := by
  rw [← h.cluster]
  exact h.setCluster _

theorem ClusterBecomes.debit (cls n : Nat) : ClusterBecomes s (t.debit c cls n) c d ((cls, n) :: evs) := by
  obtain ⟨⟨hrest, hothers, hregions, hevents⟩, hcluster, hregion⟩ := h
  refine ⟨⟨hrest, hothers, fun k hk => (State.region_setRegion_ne t _ hk).trans (hregions k hk), ?_⟩, hcluster, ?_⟩
  · rw [State.region_debit_same]
    exact hevents
  · rw [State.region_debit_same, hregion]
    rfl

theorem ClusterBecomes.rowWrite (cls a : Nat) (bs : List Byte) (mask : List Bool) (poison : Bool) :
    ClusterBecomes s (t.rowWrite c cls a bs mask poison) c (d.writeRow cls a bs mask poison) ((4, 1) :: evs) :=
  (h.modCluster _).debit 4 1

/-- A write of a row that no accumulate-write locks is one row write (R226, R232). -/
theorem ClusterBecomes.memWrite {cls a : Nat} {bs : List Byte} {mask : List Bool} {poison : Bool} (hfree : d.locked (a / 512) = false) :
    ClusterBecomes s (t.memWrite c cls a bs mask poison) c (d.writeRow cls a bs mask poison) ((4, 1) :: evs) := by
  rw [State.memWrite, State.unlockRow_free (by rw [h.cluster, hfree])]
  exact h.rowWrite cls a bs mask poison

/-- A read within one row, neither poisoned nor of bad parity where it is used: its bytes, one row read debited, and the grant counted (R223, R238). -/
theorem ClusterBecomes.memReadUse {a n : Nat} {use : Nat → Bool} (cls : Nat) (hrow : (a + n - 1) / 512 = a / 512)
    (hpoison : d.rowsPoisoned a n = false) (hbad : d.badBytes a n use = []) :
    (t.memReadUse c cls a n use).1 = (Mem.bytes d.mem a n, false) ∧
      ClusterBecomes s (t.memReadUse c cls a n use).2 c (d.grantRd cls (a / 512) 1) ((3, 1) :: evs) := by
  have hgranted : ClusterBecomes s ((t.modCluster c (fun k => k.grantRd cls (a / 512) 1)).debit c 3 1) c (d.grantRd cls (a / 512) 1)
      ((3, 1) :: evs) := (h.modCluster _).debit 3 1
  have hcheck := State.memCheck_clean _ c cls (a := a) (n := n) (use := use) (by rw [hgranted.cluster]; exact hpoison)
    (by rw [hgranted.cluster]; exact hbad)
  have hread : t.memReadUse c cls a n use = ((Mem.bytes d.mem a n, false),
      ((t.modCluster c (fun k => k.grantRd cls (a / 512) 1)).debit c 3 1).setCluster c (d.grantRd cls (a / 512) 1)) := by
    rw [hgranted.cluster] at hcheck
    unfold State.memReadUse
    rw [hrow, Nat.sub_self, h.cluster]
    exact congrArg (fun r : Bool × State => ((Mem.bytes d.mem a n, r.1), r.2)) hcheck
  rw [hread]
  exact ⟨rfl, hgranted.setCluster _⟩

end

/-! ## Masked writes (R223, R231) -/

theorem Mem.getD_bytes (m : Mem) (a n k : Nat) (hk : k < n) : (Mem.bytes m a n).getD k 0 = Mem.byte m (a + k) := by
  induction n generalizing a k with
  | zero => exact absurd hk (Nat.not_lt_zero k)
  | succ n ih =>
    cases k with
    | zero => rfl
    | succ k => rw [Mem.bytes, List.getD_cons_succ, ih _ _ (Nat.lt_of_succ_lt_succ hk), Nat.add_right_comm, Nat.add_assoc]

theorem leBytes_getD (n v k : Nat) (hk : k < n) : (leBytes n v).getD k 0 = BitVec.ofNat 8 (v / 2 ^ (8 * k)) := by
  induction n generalizing v k with
  | zero => exact absurd hk (Nat.not_lt_zero k)
  | succ n ih =>
    cases k with
    | zero => rw [leBytes, List.getD_cons_zero, Nat.mul_zero, Nat.pow_zero, Nat.div_one]
    | succ k => rw [leBytes, List.getD_cons_succ, ih _ _ (Nat.lt_of_succ_lt_succ hk), Nat.div_div_eq_div_mul, Nat.mul_succ, Nat.pow_add, Nat.mul_comm]

theorem Mem.byte_writeMask (m : Mem) (a : Nat) (bs : List Byte) (es : List Bool) (hlen : bs.length = es.length) (k : Nat) (hk : k < es.length) :
    Mem.byte (Mem.writeMask m a bs es) (a + k) = if es.getD k false then bs.getD k 0 else Mem.byte m (a + k) := by
  induction es generalizing m a bs k with
  | nil => exact absurd hk (Nat.not_lt_zero k)
  | cons e es ih =>
    obtain ⟨x, bs, rfl⟩ := List.exists_cons_of_length_eq_add_one hlen
    have hfirst : ∀ j, Mem.byte (if e then Mem.setByte m a x else m) j = if e = true ∧ j = a then x else Mem.byte m j := by
      intro j
      cases e <;> simp [Mem.byte_setByte]
    rw [Mem.writeMask]
    cases k with
    | zero =>
      rw [Mem.byte_writeMask_out bs es _ (a + 1) (a + 0) (.inl (Nat.lt_succ_self a)), hfirst]
      simp
    | succ k =>
      rw [← Nat.add_assoc, Nat.add_right_comm, ih _ _ _ (Nat.succ.inj hlen) k (Nat.lt_of_succ_lt_succ hk), hfirst, List.getD_cons_succ,
        List.getD_cons_succ, if_neg (fun h : e = true ∧ _ => by omega)]

theorem WritesMasked.writeMask (m : Mem) (a : Nat) {bs : List Byte} {es : List Bool} (hlen : bs.length = es.length) :
    WritesMasked m (Mem.writeMask m a bs es) a bs es :=
  ⟨Mem.byte_writeMask m a bs es hlen, fun b hb => Mem.byte_writeMask_out bs es m a b (by rwa [hlen])⟩

theorem length_beMask (be n : Nat) : (beMask be n).length = n := by rw [beMask, List.length_map, List.length_range]

theorem beMask_getD (be n k : Nat) (hk : k < n) : (beMask be n).getD k false = be.testBit k := by
  rw [beMask, List.getD_eq_getElem _ _ (by rwa [List.length_map, List.length_range]), List.getElem_map, List.getElem_range]

end Sys2Proof.Machine
end

section
namespace Sys2Proof.Machine

/-! ## The queues and outputs of the narrow port (R228, R229) -/

/-- Tokens that leave a queue of the port take nothing else of the cluster that its commands read: their credits are a matter of the rings (R107, R228). -/
theorem Cluster.nqPop_spec (c : Cluster) (q n : Nat) : (c.nqPop q n).nq q = (c.nq q).drop n ∧
    (c.nqPop q n).elems = c.elems ∧ (c.nqPop q n).out = c.out ∧ (c.nqPop q n).accs = c.accs ∧ (c.nqPop q n).staging = c.staging ∧
    (c.nqPop q n).mem = c.mem := by
  obtain ⟨l, hl⟩ := Cluster.creditsBack_eq { c with narrow := SMap.set (fun _ => []) c.narrow q ((c.nq q).drop n) } (stop := 33) (by decide) q n
  rw [Cluster.nqPop, hl]
  exact ⟨SMap.get_set_same _ _ _ _, rfl, rfl, rfl, rfl, rfl⟩

theorem State.upset_memBad (s : State) (i : Nat) (bs : List Nat) : ∃ l, (s.upset i bs).cluster i = { s.cluster i with memBad := l } := by
  unfold State.upset
  split
  · exact ⟨_, rfl⟩
  · exact ⟨_, State.cluster_modCluster_same _ _ _⟩

theorem reqAddr_row (w : W64) : (reqAddr w + 8 - 1) / 512 = reqAddr w / 512 := by
  unfold reqAddr
  omega

/-- The queue that the port presents has an eligible head (R229). -/
theorem State.npTurn_eligible {s : State} {c q : Nat} {write : Bool} (h : s.npTurn c write = some q) : s.npEligible c q write = true := by
  have hfound := List.find?_some h
  exact hfound

/-- The row of a store that the port presents is not locked (R229, R232). -/
theorem State.npTurn_row_free {s : State} {c q : Nat} {k : NTok} (hhead : s.nqHead c q = some k) (htag : k.tok.tag = .data)
    (hkind : reqKind k.tok.data = 1) (hturn : s.npTurn c true = some q) : (s.cluster c).locked (reqAddr k.tok.data / 512) = false := by
  have helig := State.npTurn_eligible hturn
  unfold State.npEligible at helig
  simp only [hhead, htag, hkind, ne_eq, not_true_eq_false, if_false, Nat.one_ne_zero, if_true, Bool.and_eq_true, Bool.not_eq_true'] at helig
  exact helig.2

@[simp] theorem Cluster.grantRd_nq (c : Cluster) (cls row n q : Nat) : (c.grantRd cls row n).nq q = c.nq q := rfl
@[simp] theorem Cluster.grantRd_accs (c : Cluster) (cls row n : Nat) : (c.grantRd cls row n).accs = c.accs := rfl
@[simp] theorem Cluster.grantRd_elem (c : Cluster) (cls row n e : Nat) : (c.grantRd cls row n).elem e = c.elem e := rfl
@[simp] theorem Cluster.grantRd_waiting (c : Cluster) (cls row n stop out : Nat) : (c.grantRd cls row n).waiting stop out = c.waiting stop out := rfl

@[simp] theorem Cluster.npServed_nq (c : Cluster) (q k : Nat) (write : Bool) : (c.npServed q write).nq k = c.nq k := by cases write <;> rfl
@[simp] theorem Cluster.npServed_accs (c : Cluster) (q : Nat) (write : Bool) : (c.npServed q write).accs = c.accs := by cases write <;> rfl
@[simp] theorem Cluster.npServed_mem (c : Cluster) (q : Nat) (write : Bool) : (c.npServed q write).mem = c.mem := by cases write <;> rfl

@[simp] theorem Cluster.writeRow_nq (c : Cluster) (cls a : Nat) (bs : List Byte) (mask : List Bool) (poison : Bool) (q : Nat) :
    (c.writeRow cls a bs mask poison).nq q = c.nq q := rfl
@[simp] theorem Cluster.writeRow_accs (c : Cluster) (cls a : Nat) (bs : List Byte) (mask : List Bool) (poison : Bool) :
    (c.writeRow cls a bs mask poison).accs = c.accs := rfl
@[simp] theorem Cluster.writeRow_mem (c : Cluster) (cls a : Nat) (bs : List Byte) (mask : List Bool) (poison : Bool) :
    (c.writeRow cls a bs mask poison).mem = Mem.writeMask c.mem a bs mask := rfl

/-! ## NP_LOAD and NP_STORE (R230, R231) -/

/-- The response to a load: the enabled bytes of the word, the others zero (R230). -/
def NTok.response (k : NTok) (bs : List Byte) (poison : Bool) : Tok :=
  ⟨BitVec.ofNat 64 (leNat ((List.range 8).map (fun j => if (reqBe k.tok.data).testBit j then bs.getD j 0 else 0))), .data, k.tok.epoch, poison⟩

/-- The cluster once the load at the head of queue q is answered (R230). -/
def Cluster.npAnswered (c : Cluster) (q : Nat) (k : NTok) (resp : Tok) : Cluster :=
  ((c.nqPop q 1).npServed q false).pushOut 33 (k.ring % 2) (reqElem k.tok.data) (reqRq k.tok.data) resp

theorem Cluster.npAnswered_spec (c : Cluster) (q : Nat) (k : NTok) (resp : Tok) : (c.npAnswered q k resp).nq q = (c.nq q).drop 1 ∧
    (c.npAnswered q k resp).mem = c.mem ∧
    ((c.npAnswered q k resp).waiting 33 (k.ring % 2)).map (fun w => (w.dst, w.queue, w.tok)) =
      (c.waiting 33 (k.ring % 2)).map (fun w => (w.dst, w.queue, w.tok)) ++ [(reqElem k.tok.data, reqRq k.tok.data, resp)] := by
  obtain ⟨hnq, helems, hbuffers, -, -, hmem⟩ := c.nqPop_spec q 1
  have hout : ((c.nqPop q 1).npServed q false).waiting 33 (k.ring % 2) = c.waiting 33 (k.ring % 2) :=
    Cluster.waiting_congr helems hbuffers _ _
  refine ⟨hnq, hmem, ?_⟩
  rw [Cluster.npAnswered, Cluster.waiting_pushOut _ (by decide), hout, List.map_append]
  rfl

section
variable {s : State} {c : ClusterId} {q : Fin 8} {k : NTok} (hhead : s.nqHead c.val q.val = some k) (htag : k.tok.tag = .data)
  (hclean : k.tok.poison = false)
include hhead htag hclean

theorem exec_npLoad_request (u : List Nat) (hkind : reqKind k.tok.data = 0) (hturn : s.npTurn c.val false = some q.val) :
    exec (.npLoad c q u) s =
      let r := (s.upset c.val u).memReadUse c.val 6 (reqAddr k.tok.data) 8 (reqUses k.tok.data)
      .next ((r.2.modCluster c.val (fun cl => cl.npAnswered q.val k (k.response r.1.1 r.1.2))).debit c.val 5 1) := by
  show execNpLoad c q u s = _
  unfold execNpLoad
  simp only [hhead, htag, hkind, hturn, hclean, ne_eq, not_true_eq_false, or_self, Bool.false_eq_true, if_false]
  rfl

theorem exec_npStore_request {d : NTok} {rest : List NTok} (hnq : (s.cluster c.val).nq q.val = k :: d :: rest) (hkind : reqKind k.tok.data = 1)
    (hturn : s.npTurn c.val true = some q.val) :
    exec (.npStore c q) s =
      .next (((s.modCluster c.val (fun cl => (cl.nqPop q.val 2).npServed q.val true)).memWrite c.val 6 (reqAddr k.tok.data)
        (leBytes 8 d.tok.data.toNat) (beMask (reqBe k.tok.data) 8) d.tok.poison).debit c.val 5 1) := by
  show execNpStore c q s = _
  unfold execNpStore
  simp only [hhead, htag, hkind, hturn, hclean, hnq, ne_eq, not_true_eq_false, or_self, Bool.false_eq_true, if_false, List.tail_cons, List.head?_cons]

theorem npLoad_spec (u : List Nat) (hkind : reqKind k.tok.data = 0) (hpoison : (s.cluster c.val).rowsPoisoned (reqAddr k.tok.data) 8 = false)
    (hturn : s.npTurn c.val false = some q.val)
    (hbad : ((s.upset c.val u).cluster c.val).badBytes (reqAddr k.tok.data) 8 (reqUses k.tok.data) = []) :
    ∃ t l, exec (.npLoad c q u) s = .next t ∧ ClusterBecomes s t c.val
      (({ s.cluster c.val with memBad := l }.grantRd 6 (reqAddr k.tok.data / 512) 1).npAnswered q.val k
        (k.response (Mem.bytes (s.cluster c.val).mem (reqAddr k.tok.data) 8) false)) [(5, 1), (3, 1)] := by
  obtain ⟨l, hl⟩ := s.upset_memBad c.val u
  have hupset := ClusterBecomes.of_onlyCluster (s.upset_only c.val u)
  rw [hl] at hupset hbad
  obtain ⟨hbytes, hread⟩ := hupset.memReadUse 6 (reqAddr_row _) hpoison hbad
  refine ⟨_, l, exec_npLoad_request hhead htag hclean u hkind hturn, ?_⟩
  rw [hbytes]
  exact (hread.modCluster _).debit 5 1

theorem npStore_spec {d : NTok} {rest : List NTok} (hnq : (s.cluster c.val).nq q.val = k :: d :: rest) (hkind : reqKind k.tok.data = 1)
    (hturn : s.npTurn c.val true = some q.val) :
    ∃ t, exec (.npStore c q) s = .next t ∧ ClusterBecomes s t c.val
      ((((s.cluster c.val).nqPop q.val 2).npServed q.val true).writeRow 6 (reqAddr k.tok.data) (leBytes 8 d.tok.data.toNat)
        (beMask (reqBe k.tok.data) 8) d.tok.poison) [(5, 1), (4, 1)] := by
  obtain ⟨-, -, -, haccs, -⟩ := (s.cluster c.val).nqPop_spec q.val 2
  have hfree : (((s.cluster c.val).nqPop q.val 2).npServed q.val true).locked (reqAddr k.tok.data / 512) = false := by
    rw [Cluster.locked, Cluster.npServed_accs, haccs]
    exact State.npTurn_row_free hhead htag hkind hturn
  exact ⟨_, exec_npStore_request hhead htag hclean hnq hkind hturn,
    (((ClusterBecomes.refl s c.val).modCluster _).memWrite hfree).debit 5 1⟩

end

/-! ## Accumulate-writes (R232-R234) -/

/-- The cluster once the accumulate-write at the head of queue q is taken: its two tokens gone, and the element's sequence number advanced (R234). -/
def Cluster.npTaken (c : Cluster) (q e : Nat) : Cluster :=
  ((c.nqPop q 2).npServed q false).modElem e (fun x => { x with seq := (x.seq + 1) % 65536 })

theorem Cluster.npTaken_spec (c : Cluster) (q e : Nat) : (c.npTaken q e).nq q = (c.nq q).drop 2 ∧
    ((c.npTaken q e).elem e).seq = ((c.elem e).seq + 1) % 65536 ∧ (c.npTaken q e).accs = c.accs ∧ (c.npTaken q e).staging = c.staging ∧
    (c.npTaken q e).mem = c.mem := by
  obtain ⟨hnq, helems, -, haccs, hstaging, hmem⟩ := c.nqPop_spec q 2
  have helem : ((c.nqPop q 2).npServed q false).elem e = c.elem e :=
    congrArg (fun m => SMap.get (fun _ => Elem.reset) m e) helems
  refine ⟨hnq, ?_, haccs, hstaging, hmem⟩
  rw [Cluster.npTaken, Cluster.elem_modElem, if_pos rfl, helem]

/-- The cluster with one more accumulate-write in flight (R232). -/
def Cluster.addAcc (c : Cluster) (a : NAcc) : Cluster := { c with accs := c.accs ++ [a] }

/-- The cluster with one more contribution staged, and the staging buffer's peak raised to n (R234, R241). -/
def Cluster.addStaged (c : Cluster) (d : DEntry) (n : Nat) : Cluster := { c with staging := c.staging ++ [d] }.peak CM_DACC_PEAK_PEAK n

@[simp] theorem Cluster.addAcc_nq (c : Cluster) (a : NAcc) (q : Nat) : (c.addAcc a).nq q = c.nq q := rfl
@[simp] theorem Cluster.addAcc_accs (c : Cluster) (a : NAcc) : (c.addAcc a).accs = c.accs ++ [a] := rfl
@[simp] theorem Cluster.addAcc_elem (c : Cluster) (a : NAcc) (e : Nat) : (c.addAcc a).elem e = c.elem e := rfl
@[simp] theorem Cluster.addAcc_mem (c : Cluster) (a : NAcc) : (c.addAcc a).mem = c.mem := rfl

@[simp] theorem Cluster.addStaged_nq (c : Cluster) (d : DEntry) (n q : Nat) : (c.addStaged d n).nq q = c.nq q := rfl
@[simp] theorem Cluster.addStaged_staging (c : Cluster) (d : DEntry) (n : Nat) : (c.addStaged d n).staging = c.staging ++ [d] := rfl
@[simp] theorem Cluster.addStaged_accs (c : Cluster) (d : DEntry) (n : Nat) : (c.addStaged d n).accs = c.accs := rfl
@[simp] theorem Cluster.addStaged_mem (c : Cluster) (d : DEntry) (n : Nat) : (c.addStaged d n).mem = c.mem := rfl

/-- A contribution for which the staging buffer has room (R234). -/
theorem State.stage_room {s : State} {c : Nat} (d : DEntry) (hroom : (s.cluster c).staging.length < 1024) :
    s.stage c d = s.setCluster c ((s.cluster c).addStaged d ((s.cluster c).staging.length + 1)) := if_pos hroom

/-- The contribution of the request k with data token d, under its key (R234). -/
def State.contribution (s : State) (c kind : Nat) (k d : NTok) : DEntry :=
  let off := reqAddr k.tok.data % 64
  ⟨reqAddr k.tok.data / 64 * 64,
    (List.range 64).map (fun j => decide (off ≤ j) && decide (j < off + 8) && (reqBe k.tok.data).testBit (j - off)), kind,
    ⟨s.modId, cy c, cx c, reqElem k.tok.data, ((s.cluster c).elem (reqElem k.tok.data)).seq⟩,
    List.replicate off 0 ++ leBytes 8 d.tok.data.toNat ++ List.replicate (56 - off) 0, d.tok.poison⟩

/-- The sum in flight of the request k with data token d on queue q (R232). -/
def NTok.sum (k d : NTok) (q kind : Nat) (old : List Byte) (poison : Bool) : NAcc :=
  ⟨q, reqAddr k.tok.data, addInto kind 8 old (leBytes 8 d.tok.data.toNat) (beMask (reqBe k.tok.data) 8), beMask (reqBe k.tok.data) 8,
    poison || d.tok.poison⟩

section
variable {s : State} {c q kind : Nat} {k d : NTok} {rest : List NTok} (hhead : s.nqHead c q = some k)
  (hnq : (s.cluster c).nq q = k :: d :: rest) (htag : k.tok.tag = .data) (hclean : k.tok.poison = false) (hkind : reqKind k.tok.data = kind)
  (hturn : s.npTurn c false = some q)
include hhead hnq htag hclean hkind hturn

theorem State.npAdd_staged (u : List Nat) (hstaged : (s.cluster c).staged kind = true) : s.npAdd c q kind u =
    ((s.modCluster c (fun x => x.npTaken q (reqElem k.tok.data))).stage c (s.contribution c kind k d)).debit c 5 2 := by
  unfold State.npAdd
  simp only [hhead, htag, hkind, hturn, hclean, hnq, hstaged, ne_eq, not_true_eq_false, or_self, Bool.false_eq_true, if_false, if_true,
    List.tail_cons, List.head?_cons]
  rfl

theorem State.npAdd_inFlight (hstaged : (s.cluster c).staged kind = false) : s.npAdd c q kind [] =
    let r := s.memReadUse c 6 (reqAddr k.tok.data) 8 (reqUses k.tok.data)
    (r.2.modCluster c (fun x => (x.npTaken q (reqElem k.tok.data)).addAcc (k.sum d q kind r.1.1 r.1.2))).debit c 5 2 := by
  unfold State.npAdd
  simp only [hhead, htag, hkind, hturn, hclean, hnq, hstaged, ne_eq, not_true_eq_false, or_self, Bool.false_eq_true, if_false,
    List.tail_cons, List.head?_cons]
  rfl

/-- An accumulate-write that is not staged: its sum is in flight, and locks the row (R232). -/
theorem State.npAdd_inFlight_spec (hstaged : (s.cluster c).staged kind = false)
    (hpoison : (s.cluster c).rowsPoisoned (reqAddr k.tok.data) 8 = false)
    (hbad : (s.cluster c).badBytes (reqAddr k.tok.data) 8 (reqUses k.tok.data) = []) :
    ((s.npAdd c q kind []).cluster c).nq q = rest ∧
    ((s.npAdd c q kind []).cluster c).accs = (s.cluster c).accs ++ [⟨q, reqAddr k.tok.data,
      addInto kind 8 (Mem.bytes (s.cluster c).mem (reqAddr k.tok.data) 8) (leBytes 8 d.tok.data.toNat) (beMask (reqBe k.tok.data) 8),
      beMask (reqBe k.tok.data) 8, d.tok.poison⟩] ∧
    (((s.npAdd c q kind []).cluster c).elem (reqElem k.tok.data)).seq = (((s.cluster c).elem (reqElem k.tok.data)).seq + 1) % 65536 ∧
    ((s.npAdd c q kind []).cluster c).mem = (s.cluster c).mem ∧
    ((s.npAdd c q kind []).region (regionOf c)).waits 5 = (s.region (regionOf c)).waits 5 + 2 ∧
    OnlyClusterEvents s (s.npAdd c q kind []) c := by
  obtain ⟨hbytes, hread⟩ := (ClusterBecomes.refl s c).memReadUse 6 (reqAddr_row _) hpoison hbad
  have hadd := (hread.modCluster (fun x => (x.npTaken q (reqElem k.tok.data)).addAcc
    (k.sum d q kind (Mem.bytes (s.cluster c).mem (reqAddr k.tok.data) 8) false))).debit 5 2
  obtain ⟨htaken, hseq, haccs, -, hmem⟩ := ((s.cluster c).grantRd 6 (reqAddr k.tok.data / 512) 1).npTaken_spec q (reqElem k.tok.data)
  rw [State.npAdd_inFlight hhead hnq htag hclean hkind hturn hstaged]
  dsimp only
  rw [hbytes]
  refine ⟨?_, ?_, ?_, ?_, hadd.waits 5, hadd.frame⟩ <;> rw [hadd.cluster]
  · rw [Cluster.addAcc_nq, htaken, Cluster.grantRd_nq, hnq, List.drop_succ_cons, List.drop_succ_cons, List.drop_zero]
  · rw [Cluster.addAcc_accs, haccs, Cluster.grantRd_accs, NTok.sum, Bool.false_or]
  · rw [Cluster.addAcc_elem, hseq, Cluster.grantRd_elem]
  · rw [Cluster.addAcc_mem, hmem, Cluster.grantRd_mem]

/-- An accumulate-write under deterministic mode, with room in the staging buffer: its contribution is staged last (R234). -/
theorem State.npAdd_staged_spec (hstaged : (s.cluster c).staged kind = true) (hroom : (s.cluster c).staging.length < 1024) :
    ((s.npAdd c q kind []).cluster c).nq q = rest ∧
    ((s.npAdd c q kind []).cluster c).staging.dropLast = (s.cluster c).staging ∧
    (((s.npAdd c q kind []).cluster c).staging.getLast?).map (fun (e : DEntry) => (e.addr, e.kind, e.key)) = some (reqAddr k.tok.data / 64 * 64, kind,
      ⟨s.modId, cy c, cx c, reqElem k.tok.data, ((s.cluster c).elem (reqElem k.tok.data)).seq⟩) ∧
    ((s.npAdd c q kind []).cluster c).accs = (s.cluster c).accs ∧
    ((s.npAdd c q kind []).cluster c).mem = (s.cluster c).mem ∧
    OnlyClusterEvents s (s.npAdd c q kind []) c := by
  obtain ⟨htaken, -, haccs, hstaging, hmem⟩ := (s.cluster c).npTaken_spec q (reqElem k.tok.data)
  have hpopped := (ClusterBecomes.refl s c).modCluster (fun x => x.npTaken q (reqElem k.tok.data))
  have hstage : ∃ n, ClusterBecomes s (s.npAdd c q kind []) c
      (((s.cluster c).npTaken q (reqElem k.tok.data)).addStaged (s.contribution c kind k d) n) [(5, 2)] := by
    rw [State.npAdd_staged hhead hnq htag hclean hkind hturn [] hstaged, State.stage_room _ (by rwa [hpopped.cluster, hstaging]), hpopped.cluster]
    exact ⟨_, (hpopped.setCluster _).debit 5 2⟩
  obtain ⟨n, hadd⟩ := hstage
  refine ⟨?_, ?_, ?_, ?_, ?_, hadd.frame⟩ <;> rw [hadd.cluster]
  · rw [Cluster.addStaged_nq, htaken, hnq, List.drop_succ_cons, List.drop_succ_cons, List.drop_zero]
  · rw [Cluster.addStaged_staging, List.dropLast_concat, hstaging]
  · rw [Cluster.addStaged_staging, List.getLast?_concat]
    rfl
  · rw [Cluster.addStaged_accs, haccs]
  · rw [Cluster.addStaged_mem, hmem]

end

theorem Cluster.staged_int32 (c : Cluster) : c.staged 2 = false := Bool.and_false _

theorem Cluster.staged_eq_false {c : Cluster} (h : c.rd CM_CTRL_DETERM ≠ 1) (kind : Nat) : c.staged kind = false := by
  rw [Cluster.staged, beq_eq_false_iff_ne.2 h, Bool.false_and]

theorem Cluster.staged_eq_true {c : Cluster} (h : c.rd CM_CTRL_DETERM = 1) {kind : Nat} (hkind : kind ≠ 2) : c.staged kind = true := by
  rw [Cluster.staged, beq_iff_eq.2 h, bne_iff_ne.2 hkind, Bool.and_true]

/-! ## NP_ACC_WRITEBACK (R232) -/

theorem npAccWriteback_spec {s : State} {c : ClusterId} {q : Fin 8} {a : NAcc} {rest : List NAcc} (hruns : s.runs c.val = true)
    (htake : takeFirst (fun (b : NAcc) => b.queue == q.val) (s.cluster c.val).accs = some (a, rest))
    (hfree : ∀ b ∈ rest, b.addr / 512 ≠ a.addr / 512) :
    ∃ t, exec (.npAccWriteback c q) s = .next t ∧
      ClusterBecomes s t c.val ({ s.cluster c.val with accs := rest }.writeRow 6 a.addr a.data a.mask a.poison) [(4, 1)] := by
  have hexec : exec (.npAccWriteback c q) s =
      .next ((s.modCluster c.val (fun cl => { cl with accs := rest })).memWrite c.val 6 a.addr a.data a.mask a.poison) := by
    show execNpAccWriteback c q s = _
    unfold execNpAccWriteback
    rw [if_pos hruns, htake]
  have hunlocked : { s.cluster c.val with accs := rest }.locked (a.addr / 512) = false :=
    List.any_eq_false.2 (fun b hb h => hfree b hb (beq_iff_eq.1 h))
  exact ⟨_, hexec, ((ClusterBecomes.refl s c.val).modCluster _).memWrite hunlocked⟩

/-- Settles O31: each command leaves one cluster and its region's events changed (`ClusterBecomes`), reads and writes by `ClusterBecomes.memReadUse` and
`ClusterBecomes.memWrite`, and a masked write changes the enabled bytes alone (`WritesMasked.writeMask`). -/
theorem narrowPortRequests : Obligations.NarrowPortRequests := by
  unfold Obligations.NarrowPortRequests
  refine ⟨?_, ?_, ?_, ?_, ?_, ?_, ?_, ?_⟩
  · intro s c q k u hhead htag hclean hkind hpoison hturn hbad
    obtain ⟨t, l, hexec, hload⟩ := npLoad_spec hhead htag hclean u hkind hpoison hturn hbad
    obtain ⟨hnq, hmem, hwaiting⟩ := Cluster.npAnswered_spec ({ s.cluster c.val with memBad := l }.grantRd 6 (reqAddr k.tok.data / 512) 1) q.val k
      (k.response (Mem.bytes (s.cluster c.val).mem (reqAddr k.tok.data) 8) false)
    have hbytes : (List.range 8).map (fun j => if (reqBe k.tok.data).testBit j then
          (Mem.bytes (s.cluster c.val).mem (reqAddr k.tok.data) 8).getD j 0 else 0) =
        (List.range 8).map (fun j => if (reqBe k.tok.data).testBit j then Mem.byte (s.cluster c.val).mem (reqAddr k.tok.data + j) else 0) :=
      List.map_congr_left fun j hj => by rw [Mem.getD_bytes _ _ _ _ (List.mem_range.1 hj)]
    rw [← hload.cluster] at hnq hmem hwaiting
    rw [Cluster.grantRd_nq] at hnq
    rw [Cluster.grantRd_mem] at hmem
    rw [Cluster.grantRd_waiting, NTok.response, hbytes] at hwaiting
    exact ⟨t, hexec, hnq, hwaiting, hmem, hload.waits 5, hload.waits 3, hload.frame⟩
  · intro s c q k d rest hhead hnq htag hclean hkind hturn
    obtain ⟨t, hexec, hstore⟩ := npStore_spec hhead htag hclean hnq hkind hturn
    obtain ⟨hpopped, -, -, -, -, hkept⟩ := (s.cluster c.val).nqPop_spec q.val 2
    have hmem : (t.cluster c.val).mem = Mem.writeMask (s.cluster c.val).mem (reqAddr k.tok.data) (leBytes 8 d.tok.data.toNat)
        (beMask (reqBe k.tok.data) 8) := by
      rw [hstore.cluster, Cluster.writeRow_mem, Cluster.npServed_mem, hkept]
    have hwrites := WritesMasked.writeMask (s.cluster c.val).mem (reqAddr k.tok.data) (bs := leBytes 8 d.tok.data.toNat)
      (es := beMask (reqBe k.tok.data) 8) (by rw [length_leBytes, length_beMask])
    rw [← hmem] at hwrites
    refine ⟨t, hexec, ?_, hstore.waits 5, hstore.waits 4, fun j hj hbe => ?_, hwrites, hstore.frame⟩
    · rw [hstore.cluster, Cluster.writeRow_nq, Cluster.npServed_nq, hpopped, hnq, List.drop_succ_cons, List.drop_succ_cons, List.drop_zero]
    · have hj := List.mem_range.1 hj
      rw [hwrites.1 j (by rwa [length_beMask]), beMask_getD _ _ _ hj, if_pos hbe, leBytes_getD _ _ _ hj]
  · intro s c q k d rest hhead hnq htag hclean hkind hturn hpoison hbad
    exact ⟨_, rfl, State.npAdd_inFlight_spec hhead hnq htag hclean hkind hturn (Cluster.staged_int32 _) hpoison hbad⟩
  · intro s c q k d rest hhead hnq htag hclean hkind hdeterm hturn hpoison hbad
    obtain ⟨hrest, haccs, hseq, hmem, -, hframe⟩ := State.npAdd_inFlight_spec hhead hnq htag hclean hkind hturn
      (Cluster.staged_eq_false hdeterm _) hpoison hbad
    exact ⟨_, rfl, hrest, haccs, hseq, hmem, hframe⟩
  · intro s c q k d rest hhead hnq htag hclean hkind hdeterm hturn hroom
    exact ⟨_, rfl, State.npAdd_staged_spec hhead hnq htag hclean hkind hturn (Cluster.staged_eq_true hdeterm (by decide)) hroom⟩
  · intro s c q k d rest hhead hnq htag hclean hkind hdeterm hturn hpoison hbad
    obtain ⟨hrest, haccs, hseq, hmem, -, hframe⟩ := State.npAdd_inFlight_spec hhead hnq htag hclean hkind hturn
      (Cluster.staged_eq_false hdeterm _) hpoison hbad
    exact ⟨_, rfl, hrest, haccs, hseq, hmem, hframe⟩
  · intro s c q k d rest hhead hnq htag hclean hkind hdeterm hturn hroom
    exact ⟨_, rfl, State.npAdd_staged_spec hhead hnq htag hclean hkind hturn (Cluster.staged_eq_true hdeterm (by decide)) hroom⟩
  · intro s c q a rest hruns htake hlen hfree
    obtain ⟨t, hexec, hback⟩ := npAccWriteback_spec hruns htake hfree
    refine ⟨t, hexec, ?_, hback.waits 4, ?_, hback.frame⟩
    · rw [hback.cluster, Cluster.writeRow_accs]
    · rw [hback.cluster, Cluster.writeRow_mem]
      exact WritesMasked.writeMask _ _ hlen

end Sys2Proof.Machine
end

section
namespace Sys2Proof.Machine

/-! ## An add-into buffer of a kind that no transfer has (R237) -/

/-- A row-assembly buffer for row 0 with its last granule valid. Its add-into kind is 1, where a transfer's is 0, 2, 3 or 4; the state's type allows it. -/
def oddBuffer : AsmBuf := ⟨0, [], List.replicate 7 none ++ [some (List.replicate 64 0, List.replicate 64 true, false)], 1, 2⟩

/-- A computing region whose cluster 0 holds `oddBuffer`, with the last byte of row 0 at 1. -/
def oddAssembly : State :=
  (State.reset.setRegion 0 ((Region.reset.wr PWR_STATUS_STATE 2).wr DRV_STATUS_STATE 2)).setCluster 0
    { Cluster.reset with mem := [(511, 1)], asm := [oddBuffer] }

/-- Byte a of cluster 0's memory after its ASSEMBLY_IDLE_FLUSH of buffer 0. -/
def State.byteAfterFlush (s : State) (a : Nat) : Option Byte :=
  match exec (.assemblyIdleFlush ⟨0, []⟩ 0) s with
  | .next t => some (Mem.byte (t.cluster 0).mem a)
  | _ => none

theorem oddAssembly_byte : oddAssembly.byteAfterFlush 511 = some 1 := by decide +kernel

/-- The lane sums of `oddBuffer` end before the last byte of the row: a lane of kind 1 is four bytes wide, and its sum two. -/
theorem oddBuffer_sums : oddBuffer.row512.2.length = 512 ∧ oddBuffer.row512.2.getD 511 false = true ∧
    (addInto oddBuffer.kind 512 (Mem.bytes (oddAssembly.cluster 0).mem (512 * oddBuffer.row) 512) oddBuffer.row512.1 oddBuffer.row512.2).getD 511 0 = 0 := by
  decide +kernel

/-- Refutes O32: the statement does not bound a buffer's add-into kind. The sums of `oddBuffer` are shorter than its mask, and the flush leaves the last byte of
the row, which is enabled, at 1, where the statement has 0. -/
theorem not_assemblyStagingAndControl : ¬ Obligations.AssemblyStagingAndControl := by
  unfold Obligations.AssemblyStagingAndControl
  rintro ⟨-, hflush, -⟩
  have hafter := oddAssembly_byte
  obtain ⟨hmask, hon, hsum⟩ := oddBuffer_sums
  obtain ⟨t, hexec, -, ⟨hwritten, -⟩, -⟩ := hflush oddAssembly 0 0 oddBuffer (by decide +kernel) (by decide +kernel) (by decide +kernel)
    (by decide +kernel) hmask
  have hzero : Mem.byte (t.cluster 0).mem 511 = 0 := by
    refine (hwritten 511 (by rw [hmask]; decide)).trans ?_
    rw [if_pos hon, if_neg (by decide)]
    exact hsum
  rw [State.byteAfterFlush, hexec] at hafter
  have hone : Mem.byte (t.cluster 0).mem 511 = 1 := Option.some.inj hafter
  exact absurd (hone.symm.trans hzero) (by decide)

end Sys2Proof.Machine
end

section
namespace Sys2Proof.Machine

/-! ## A column that a refresh blocks (R265, R269) -/

/-- No request of the port is served while a refresh blocks its column. -/
theorem State.dsCommand_blocked {s : State} {i : Nat} (hblock : (s.cluster i).dsBlock ≠ 0) (n kind : Nat) (flips : List (Nat × Byte)) :
    s.dsCommand i n kind flips = s := by
  unfold State.dsCommand
  split
  · rfl
  · rw [if_neg (fun h => hblock h.1)]

theorem exec_dsGranuleRead_blocked {s : State} {c : ClusterId} (hblock : (s.cluster c.val).dsBlock ≠ 0) (i : Fin 64) (flips : List (Nat × Byte)) :
    exec (.dsGranuleRead c i flips) s = .next s :=
  congrArg Host.Outcome.next (State.dsCommand_blocked hblock i.val 0 flips)

/-- A read of the table unit's at the store port. -/
def blockedRead : DsReq := ⟨1, 7, false, 128, [], [], 0, false, none⟩

/-- A computing region whose cluster 0 holds `blockedRead`, with 350 TCLK of a refresh of its column to go. -/
def refreshingColumn : State :=
  (State.reset.setRegion 0 ((Region.reset.wr PWR_STATUS_STATE 2).wr DRV_STATUS_STATE 2)).setCluster 0
    { Cluster.reset with dsq := [blockedRead], dsBlock := 350 }

/-- Refutes O33: the statement's accesses do not ask that no refresh blocks the column. `blockedRead` is ready (R265) and its granule clean, yet DS_GRANULE_READ leaves
it at the port while the refresh lasts (R269). -/
theorem not_deepStoreAccesses : ¬ Obligations.DeepStoreAccesses := by
  unfold Obligations.DeepStoreAccesses
  rintro ⟨hread, -⟩
  obtain ⟨t, hexec, hdsq, -⟩ := hread refreshingColumn 0 0 blockedRead (by decide +kernel) (by decide +kernel) rfl rfl (by decide +kernel)
  rw [exec_dsGranuleRead_blocked (by decide +kernel)] at hexec
  cases hexec
  exact absurd hdsq (by decide +kernel)

end Sys2Proof.Machine
end

section
namespace Sys2Proof.Machine

/-! ## Queues of stop 35 (R278, R280) -/

theorem Tu.queue_setQueue (u : Tu) (q k : Nat) (x : TuQueue) : (u.setQueue q x).queue k = if k = q then x else u.queue k := SMap.get_set _ _ _ _ _

theorem Tu.entry_setEntry (u : Tu) (e k : Nat) (x : IdxEntry) : (u.setEntry e x).entry k = if k = e then x else u.entry k := SMap.get_set _ _ _ _ _

/-- The first token leaves queue q, and its credit goes onto a ring. -/
theorem Cluster.tuTakeTok_eq (c : Cluster) (q : Nat) (f : TuQueue → TuQueue) : ∃ l, c.tuTakeTok q f =
    { c with tu := c.tu.setQueue q (f { c.tu.queue q with toks := (c.tu.queue q).toks.drop 1 }), ringCreds := l } :=
  Cluster.creditsBack_eq { c with tu := c.tu.setQueue q (f { c.tu.queue q with toks := (c.tu.queue q).toks.drop 1 }) } (stop := 35) (by decide) q 1

theorem Cluster.tuTakeTok_queue (c : Cluster) (q k : Nat) (f : TuQueue → TuQueue) :
    (c.tuTakeTok q f).tu.queue k = if k = q then f { c.tu.queue q with toks := (c.tu.queue q).toks.drop 1 } else c.tu.queue k := by
  obtain ⟨l, hl⟩ := c.tuTakeTok_eq q f
  rw [hl]
  exact Tu.queue_setQueue _ _ _ _

theorem Cluster.tuTakeTok_keeps (c : Cluster) (q : Nat) (f : TuQueue → TuQueue) : (c.tuTakeTok q f).tu.jobs = c.tu.jobs ∧
    (c.tuTakeTok q f).tu.gathers = c.tu.gathers ∧ (c.tuTakeTok q f).regs = c.regs ∧ (c.tuTakeTok q f).mem = c.mem := by
  obtain ⟨l, hl⟩ := c.tuTakeTok_eq q f
  rw [hl]
  exact ⟨rfl, rfl, rfl, rfl⟩

/-- A malformed job at queue q: its words are gone, and it is counted (R280). -/
theorem Cluster.tuMalformed_spec (c : Cluster) (q : Nat) (t : Tok) :
    (c.tuMalformed q t).tu.queue q = ⟨(c.tu.queue q).toks.drop 1, [], false, t.tag != .mark⟩ ∧
    (c.tuMalformed q t).rd TU_EVENT_MALFORMED = 1 ∧
    (c.tuMalformed q t).rd TU_CNT_MALFORM_CNT = (c.rd TU_CNT_MALFORM_CNT + 1) % 2 ^ 32 ∧
    (c.tuMalformed q t).tu.jobs = c.tu.jobs ∧ (c.tuMalformed q t).mem = c.mem := by
  obtain ⟨hjobs, -, hregs, hmem⟩ := c.tuTakeTok_keeps q (fun y => { y with words := [], full := false, discard := t.tag != .mark })
  have hqueue := c.tuTakeTok_queue q q (fun y => { y with words := [], full := false, discard := t.tag != .mark })
  unfold Cluster.tuMalformed
  refine ⟨hqueue.trans (if_pos rfl), Cluster.rd_wr_same _ TU_EVENT_MALFORMED 1 (by decide), ?_, hjobs, hmem⟩
  rw [Cluster.rd_wr_ne _ TU_EVENT_MALFORMED TU_CNT_MALFORM_CNT 1 (by decide)]
  refine (Cluster.rd_wr_same _ TU_CNT_MALFORM_CNT _ (by decide)).trans ?_
  rw [Cluster.rd, hregs]
  rfl

/-! ## A pooler with nothing to do (R284) -/

/-- A job with IDs or bags to come neither completes nor, unless it is a BAG with a complete group, writes. -/
theorem State.tuAdvance_busy (s : State) (i : Nat) {j : TuJob} (hbusy : j.busy = true) (hstale : j.stale = false)
    (hgroup : j.opc ≠ 1 ∨ (s.cluster i).groupReady j = none) : s.tuAdvance i j = none := by
  have hover : (s.cluster i).jobOver j = false := by rw [Cluster.jobOver, hbusy]; rfl
  unfold State.tuAdvance
  simp only [hstale, hover, Bool.false_eq_true, if_false]
  split
  · next hbag => rw [hgroup.resolve_left (not_not.mpr hbag.1)]
  · rfl

theorem State.tuSettle_idle {s : State} {i : Nat} (h : ∀ j ∈ (s.cluster i).tu.jobs, s.tuAdvance i j = none) (n : Nat) : State.tuSettle i n s = s := by
  cases n with
  | zero => rfl
  | succ n => rw [State.tuSettle, List.findSome?_eq_none_iff.mpr h]

theorem State.tuDrain_idle {s : State} {i : Nat} (h : ∀ j ∈ (s.cluster i).tu.jobs, s.tuAdvance i j = none) : s.tuDrain i = s :=
  State.tuSettle_idle h _

/-- A stale job in progress stays as it is, or leaves without a completion (R287). -/
theorem State.tuDrain_stale {s : State} {i : Nat} {j : TuJob} (hjobs : (s.cluster i).tu.jobs = [j]) (hstale : j.stale = true) :
    s.tuDrain i = s ∨ s.tuDrain i = s.setCluster i { s.cluster i with tu := { (s.cluster i).tu with jobs := [] } } := by
  have hadvance : s.tuAdvance i j = if (s.cluster i).jobOver j then some (s.tuComplete i j 0 false) else none := by
    unfold State.tuAdvance
    rw [if_pos hstale]
  by_cases hover : (s.cluster i).jobOver j = true
  · right
    have hcomplete : s.tuComplete i j 0 false = s.setCluster i { s.cluster i with tu := { (s.cluster i).tu with jobs := [] } } := by
      unfold State.tuComplete State.modCluster
      simp [hstale, hjobs]
    unfold State.tuDrain Cluster.tuWork
    rw [State.tuSettle, hjobs, List.findSome?_singleton, hadvance, if_pos hover]
    dsimp only
    rw [hcomplete]
    refine State.tuSettle_idle ?_ _
    rw [State.cluster_setCluster_same]
    exact fun k hk => absurd hk List.not_mem_nil
  · left
    refine State.tuDrain_idle fun k hk => ?_
    rw [hjobs, List.mem_singleton] at hk
    rw [hk, hadvance, if_neg hover]

theorem Cluster.groupReady_congr {c d : Cluster} (h : d.tu.gathers = c.tu.gathers) (j : TuJob) : d.groupReady j = c.groupReady j := by
  unfold Cluster.groupReady Cluster.bagDone
  rw [h]

theorem Cluster.putJob_jobs {c : Cluster} {j x : TuJob} (hjobs : c.tu.jobs = [j]) (hserial : j.serial = x.serial) : (c.putJob x).tu.jobs = [x] := by
  simp [Cluster.putJob, hjobs, hserial]

/-! ## TU_JOB_TOKEN (R278-R281) -/

theorem Cluster.tuWordToken_jobs (c : Cluster) (q ep : Nat) (t : Tok) : (c.tuWordToken q ep t).tu.jobs = c.tu.jobs := by
  have htake := fun f => (c.tuTakeTok_keeps q f).1
  have hmalformed := (c.tuMalformed_spec q t).2.2.2.1
  unfold Cluster.tuWordToken
  dsimp only
  split
  · split
    · exact (Cluster.wr_tu _ _ _).symm ▸ htake id
    · split
      · rfl
      · split
        · exact htake id
        · split
          · exact htake _
          · exact hmalformed
  · split
    · exact htake _
    · exact hmalformed

theorem Cluster.tuWordToken_first {c : Cluster} {q ep : Nat} {k : Tok} (hwords : (c.tu.queue q).words = []) (hep : k.epoch = ep) (htag : k.tag = .data) :
    c.tuWordToken q ep k = c.tuTakeTok q (fun y => { y with words := [k] }) := by
  simp [Cluster.tuWordToken, hwords, hep, htag]

theorem Cluster.tuWordToken_second {c : Cluster} {q : Nat} {k w : Tok} (ep : Nat) (hwords : (c.tu.queue q).words = [w]) (hep : k.epoch = w.epoch)
    (htag : k.tag = .data) : c.tuWordToken q ep k = c.tuTakeTok q (fun y => { y with words := [w, k], full := true }) := by
  simp [Cluster.tuWordToken, hwords, hep, htag]

theorem Cluster.tuWordToken_malformed {c : Cluster} {q : Nat} {k w : Tok} (ep : Nat) (hwords : (c.tu.queue q).words = [w])
    (h : k.epoch ≠ w.epoch ∨ k.tag ≠ .data) : c.tuWordToken q ep k = c.tuMalformed q k := by
  simp [Cluster.tuWordToken, hwords, not_and_or.mpr h]

theorem Cluster.tuBagToken_id {c : Cluster} {q : Nat} {j : TuJob} {k : Tok} (hep : k.epoch = j.epoch) (htag : k.tag = .data) (htodo : j.todo = [])
    (hstatus : j.status = 0) : c.tuBagToken q j k = (c.tuTakeTok q id).putJob { j with todo := [(j.nb - j.left, k.data, k.poison)] } := by
  simp [Cluster.tuBagToken, Cluster.putJob, hep, htag, htodo, hstatus]

theorem Cluster.tuBagToken_last {c : Cluster} {q : Nat} {j : TuJob} {k : Tok} (hep : k.epoch = j.epoch) (htag : k.tag = .last) (htodo : j.todo = []) :
    c.tuBagToken q j k = (c.tuTakeTok q id).putJob { j with left := j.left - 1 } := by
  simp [Cluster.tuBagToken, Cluster.putJob, hep, htag, htodo]

theorem Cluster.tuBagToken_mark {c : Cluster} {q : Nat} {k : Tok} (j : TuJob) (htag : k.tag = .mark) :
    c.tuBagToken q j k = (c.tuMalformed q k).putJob { j with stale := true, todo := [], left := 0 } := by
  simp [Cluster.tuBagToken, Cluster.putJob, htag]

theorem Tu.reading_only {u : Tu} {j : TuJob} {q : Nat} (hjobs : u.jobs = [j]) (hsrc : j.src = q) (hleft : 0 < j.left) : u.reading q = some j := by
  simp [Tu.reading, hjobs, hsrc, hleft]

section
variable {s : State} {c : ClusterId} {q : Fin 8} {k : Tok} {rest : List Tok}
variable (hrun : s.runs c.val = true) (hfull : ((s.cluster c.val).tu.queue q.val).full = false)
  (hdiscard : ((s.cluster c.val).tu.queue q.val).discard = false) (htoks : ((s.cluster c.val).tu.queue q.val).toks = k :: rest)
include hrun hfull hdiscard htoks

/-- With no job in progress the token is one between jobs, and the pooler has nothing to do. -/
theorem exec_tuJobToken_word (hjobs : (s.cluster c.val).tu.jobs = []) :
    exec (.tuJobToken c q) s = .next (s.setCluster c.val
      ((s.cluster c.val).tuWordToken q.val ((s.region (regionOf c.val)).rd TCK_RSCHED_EPOCH) k)) := by
  have hreading : (s.cluster c.val).tu.reading q.val = none := by simp [Tu.reading, hjobs]
  have hidle : ∀ d : Cluster, d.tu.jobs = [] → (s.setCluster c.val d).tuDrain c.val = s.setCluster c.val d := fun d hd =>
    State.tuDrain_idle (fun j hj => by rw [State.cluster_setCluster_same, hd] at hj; exact absurd hj List.not_mem_nil)
  change execTuJobToken c q s = _
  unfold execTuJobToken
  simp only [hrun, hfull, hdiscard, htoks, hreading, Bool.true_eq_false, Bool.false_eq_true, or_self, if_false]
  rw [hidle _ ((Cluster.tuWordToken_jobs _ _ _ _).trans hjobs)]

/-- With a job in progress from this queue the token is one of a bag of it. -/
theorem exec_tuJobToken_bag {j : TuJob} (hreading : (s.cluster c.val).tu.reading q.val = some j) :
    exec (.tuJobToken c q) s = .next ((s.setCluster c.val ((s.cluster c.val).tuBagToken q.val j k)).tuDrain c.val) := by
  change execTuJobToken c q s = _
  unfold execTuJobToken
  simp only [hrun, hfull, hdiscard, htoks, hreading, Bool.true_eq_false, Bool.false_eq_true, or_self, if_false]

/-- A token in its place takes the job on to x, which still has IDs or bags to come. -/
theorem tuJobToken_bag_spec {j x : TuJob} (hjobs : (s.cluster c.val).tu.jobs = [j]) (hsrc : j.src = q.val) (hleft : 0 < j.left)
    (htoken : (s.cluster c.val).tuBagToken q.val j k = ((s.cluster c.val).tuTakeTok q.val id).putJob x) (hserial : j.serial = x.serial)
    (hbusy : x.busy = true) (hstale : x.stale = false) (hgroup : x.opc ≠ 1 ∨ (s.cluster c.val).groupReady x = none) :
    ∃ t, exec (.tuJobToken c q) s = .next t ∧ (t.cluster c.val).tu.jobs = [x] ∧ ((t.cluster c.val).tu.queue q.val).toks = rest ∧
      OnlyCluster s t c.val ∧ (t.cluster c.val).mem = (s.cluster c.val).mem := by
  obtain ⟨hkept, hgathers, -, hmem⟩ := (s.cluster c.val).tuTakeTok_keeps q.val id
  have hput := Cluster.putJob_jobs (hkept.trans hjobs) hserial
  have hidle : (s.setCluster c.val (((s.cluster c.val).tuTakeTok q.val id).putJob x)).tuDrain c.val =
      s.setCluster c.val (((s.cluster c.val).tuTakeTok q.val id).putJob x) := by
    refine State.tuDrain_idle fun y hy => ?_
    rw [State.cluster_setCluster_same, hput, List.mem_singleton] at hy
    rw [hy]
    refine State.tuAdvance_busy _ _ hbusy hstale (hgroup.imp_right fun h => ?_)
    rw [State.cluster_setCluster_same]
    exact (Cluster.groupReady_congr (c := s.cluster c.val) hgathers x).trans h
  refine ⟨_, exec_tuJobToken_bag hrun hfull hdiscard htoks (Tu.reading_only hjobs hsrc hleft), ?_⟩
  rw [htoken, hidle, State.cluster_setCluster_same]
  refine ⟨hput, ?_, OnlyCluster.setCluster s _ _, hmem⟩
  refine (congrArg TuQueue.toks (Cluster.tuTakeTok_queue (s.cluster c.val) q.val q.val id)).trans ?_
  rw [if_pos rfl, id, htoks, List.drop_one, List.tail_cons]

/-- A MARK discards the job in progress: its words, and what it had to look up. -/
theorem tuJobToken_mark_spec {j : TuJob} (hjobs : (s.cluster c.val).tu.jobs = [j]) (hsrc : j.src = q.val) (hleft : 0 < j.left) (htag : k.tag = .mark) :
    ∃ t, exec (.tuJobToken c q) s = .next t ∧ (t.cluster c.val).tu.queue q.val = ⟨rest, [], false, false⟩ ∧
      (t.cluster c.val).rd TU_EVENT_MALFORMED = 1 ∧
      (t.cluster c.val).rd TU_CNT_MALFORM_CNT = ((s.cluster c.val).rd TU_CNT_MALFORM_CNT + 1) % 2 ^ 32 ∧
      (∀ x ∈ (t.cluster c.val).tu.jobs, x.stale = true ∧ x.todo = [] ∧ x.left = 0) ∧
      OnlyCluster s t c.val ∧ (t.cluster c.val).mem = (s.cluster c.val).mem := by
  obtain ⟨hqueue, hevent, hcount, hkept, hmem⟩ := (s.cluster c.val).tuMalformed_spec q.val k
  rw [htoks, htag] at hqueue
  have hput : (((s.cluster c.val).tuMalformed q.val k).putJob { j with stale := true, todo := [], left := 0 }).tu.jobs =
      [{ j with stale := true, todo := [], left := 0 }] := Cluster.putJob_jobs (hkept.trans hjobs) rfl
  refine ⟨_, exec_tuJobToken_bag hrun hfull hdiscard htoks (Tu.reading_only hjobs hsrc hleft), ?_⟩
  rw [Cluster.tuBagToken_mark j htag]
  generalize hd : ((s.cluster c.val).tuMalformed q.val k).putJob { j with stale := true, todo := [], left := 0 } = d at hput
  obtain hstays | hleaves := State.tuDrain_stale (s := s.setCluster c.val d) (i := c.val)
    (by rw [State.cluster_setCluster_same, hput]) rfl
  · rw [hstays, State.cluster_setCluster_same, hput, ← hd]
    refine ⟨hqueue, hevent, hcount, fun x hx => ?_, OnlyCluster.setCluster s _ _, hmem⟩
    rw [List.mem_singleton.mp hx]
    exact ⟨rfl, rfl, rfl⟩
  · rw [hleaves, State.cluster_setCluster_same, State.cluster_setCluster_same, ← hd]
    exact ⟨hqueue, hevent, hcount, fun x hx => absurd hx List.not_mem_nil, (OnlyCluster.setCluster s _ _).trans (OnlyCluster.setCluster _ _ _), hmem⟩

end

/-! ## TU_COMPLETION_SEND (R282) -/

theorem exec_tuCompletionSend_eq {s : State} {c : ClusterId} {b : Fin 8} {d : TuDone} {rest : List TuDone} (hrun : s.runs c.val = true)
    (htake : takeFirst (fun (k : TuDone) => k.cbind == b.val) (s.cluster c.val).tu.done = some (d, rest))
    (hcredits : (s.cluster c.val).rd (TU_CBIND_CREDITS.nth b.val) ≠ 0) :
    exec (.tuCompletionSend c b) s = .next (s.setCluster c.val
      ({ (s.cluster c.val).wr (TU_CBIND_CREDITS.nth b.val) ((s.cluster c.val).rd (TU_CBIND_CREDITS.nth b.val) - 1) with
        tu := { (s.cluster c.val).tu with done := rest } }.pushOut 35 0 ((s.cluster c.val).rd (TU_CBIND_ELEM.nth b.val))
        ((s.cluster c.val).rd (TU_CBIND_QUEUE.nth b.val)) ⟨d.payload, .data, d.epoch, false⟩)) := by
  change execTuCompletionSend c b s = _
  unfold execTuCompletionSend
  simp only [hrun, hcredits, htake, Bool.true_eq_false, or_self, if_false]

/-! ## The commit (R288) -/

theorem Cluster.rd_wr_apart (c : Cluster) (f k : Fld) (v : Nat) (h : Fld.Apart f k) : (c.wr f v).rd k = c.rd k := by
  rcases h with h | ⟨hk, h⟩
  · exact Cluster.rd_wr_ne c f k v h
  · exact Cluster.rd_wr_disjoint c f k v hk h

/-- A field takes the value of one that is no wider. -/
theorem Cluster.rd_wr_rd (c d : Cluster) (f k : Fld) (h : f.lo + f.width ≤ 32) (hw : k.width ≤ f.width) : (c.wr f (d.rd k)).rd f = d.rd k :=
  (Cluster.rd_wr_same c f _ h).trans (Nat.mod_eq_of_lt ((Fld.rd_lt clTable d.regs k).trans_le (Nat.pow_le_pow_right (by decide) hw)))

theorem Cluster.rd_flushIndex (c : Cluster) (f : Fld) : c.flushIndex.rd f = c.rd f := rfl

/-- Whether the staged fields break a limit (R288). -/
def Cluster.commitBad (c : Cluster) : Prop :=
  4 < c.rd TU_IDX_SIZE ∨ [1, 2, 4, 8].contains (c.rd TU_IDX_SLOTG) = false ∨
    4096 < c.rd TU_IDX_CACHE_ROW + idxSize (c.rd TU_IDX_SIZE) * c.rd TU_IDX_SLOTG / 8

/-- The cluster with the staged fields of a pending commit applied, every entry still there. -/
def Cluster.commitTaken (c : Cluster) : Cluster :=
  (((({ c with tu := { c.tu with commit := false } }.wr TU_IDX_ACTIVE_SIZE (c.rd TU_IDX_SIZE)).wr TU_IDX_ACTIVE_SLOTG (c.rd TU_IDX_SLOTG)).wr
    TU_IDX_ACTIVE_CACHE_ROW (c.rd TU_IDX_CACHE_ROW)).wr TU_HASH_ACTIVE_SEED (c.rd TU_HASH_SEED))

/-- The cluster with the staged fields of a pending commit restored. -/
def Cluster.commitRefused (c : Cluster) : Cluster :=
  ((((({ c with tu := { c.tu with commit := false } }.wr TU_IDX_SIZE (c.rd TU_IDX_ACTIVE_SIZE)).wr TU_IDX_SLOTG (c.rd TU_IDX_ACTIVE_SLOTG)).wr
    TU_IDX_CACHE_ROW (c.rd TU_IDX_ACTIVE_CACHE_ROW)).wr TU_HASH_SEED (c.rd TU_HASH_ACTIVE_SEED)).wr TU_EVENT_CFG_ERR 1)

section
variable {s : State} {c : ClusterId} (hopen : s.suppressed c.val = false) (hpend : (s.cluster c.val).tu.commit = true)
  (hjobs : (s.cluster c.val).tu.jobs = []) (hgathers : (s.cluster c.val).tu.gathers = [])
include hopen hpend hjobs hgathers

theorem State.commitApply_due : ¬(s.suppressed c.val = true ∨ (s.cluster c.val).tu.commit = false ∨ (s.cluster c.val).tu.jobs ≠ [] ∨
    (s.cluster c.val).tu.gathers ≠ []) := by
  simp [hopen, hpend, hjobs, hgathers]

theorem exec_tuCommitApply_good (h : ¬(s.cluster c.val).commitBad) :
    exec (.tuCommitApply c) s = .next (s.setCluster c.val (s.cluster c.val).commitTaken.flushIndex) :=
  (if_neg (State.commitApply_due hopen hpend hjobs hgathers)).trans (if_neg h)

theorem exec_tuCommitApply_bad (h : (s.cluster c.val).commitBad) :
    exec (.tuCommitApply c) s = .next (s.setCluster c.val (s.cluster c.val).commitRefused) :=
  (if_neg (State.commitApply_due hopen hpend hjobs hgathers)).trans (if_pos h)

end

theorem Cluster.commitTaken_reads (c : Cluster) : c.commitTaken.rd TU_IDX_ACTIVE_SIZE = c.rd TU_IDX_SIZE ∧
    c.commitTaken.rd TU_IDX_ACTIVE_SLOTG = c.rd TU_IDX_SLOTG ∧ c.commitTaken.rd TU_IDX_ACTIVE_CACHE_ROW = c.rd TU_IDX_CACHE_ROW ∧
    c.commitTaken.rd TU_HASH_ACTIVE_SEED = c.rd TU_HASH_SEED := by
  unfold Cluster.commitTaken
  refine ⟨?_, ?_, ?_, Cluster.rd_wr_rd _ _ _ _ (by decide) (by decide)⟩ <;>
    simp (disch := decide) only [Cluster.rd_wr_apart, Cluster.rd_wr_rd]

theorem Cluster.commitRefused_reads (c : Cluster) : c.commitRefused.rd TU_IDX_SIZE = c.rd TU_IDX_ACTIVE_SIZE ∧
    c.commitRefused.rd TU_HASH_SEED = c.rd TU_HASH_ACTIVE_SEED ∧ c.commitRefused.rd TU_EVENT_CFG_ERR = 1 := by
  unfold Cluster.commitRefused
  refine ⟨?_, ?_, Cluster.rd_wr_same _ TU_EVENT_CFG_ERR 1 (by decide)⟩ <;>
    simp (disch := decide) only [Cluster.rd_wr_apart, Cluster.rd_wr_rd]

/-! ## The window (R291) -/

theorem Cluster.showEntry_reads (c : Cluster) (e : Nat) : (c.showEntry e).rd TU_IDX_SEL_ENTRY = e % 2 ^ 14 ∧
    (c.showEntry e).rd TU_IDX_FLAGS_VALID = (if (c.tu.entry e).valid then 1 else 0) ∧
    (c.showEntry e).rd TU_IDX_TAG_ID = (c.tu.entry e).id % 2 ^ 32 ∧ (c.showEntry e).tu = c.tu := by
  unfold Cluster.showEntry
  refine ⟨?_, ?_, ?_, rfl⟩
  · simp (disch := decide) only [Cluster.rd_wr_apart, Cluster.rd_wr_same]
  · simp (disch := decide) only [Cluster.rd_wr_apart, Cluster.rd_wr_same]
    split <;> rfl
  · simp (disch := decide) only [Cluster.rd_wr_apart, Cluster.rd_wr_same]

section
variable {s : State} {c : ClusterId} {v : W32} (htu : hasTu c.val = true) (hopen : s.suppressed c.val = false)
include htu hopen

theorem exec_tuIdxSelWrite_eq : exec (.tuIdxSelWrite c v) s = .next (s.setCluster c.val ((s.cluster c.val).showEntry (TU_IDX_SEL_ENTRY.of v))) := by
  change execTuIdxSelWrite c v s = _
  exact if_pos ⟨htu, hopen⟩

theorem exec_tuIdxFlagsWrite_stores (hjobs : (s.cluster c.val).tu.jobs = []) (hpend : (s.cluster c.val).tu.commit = false)
    (hentry : (s.cluster c.val).rd TU_IDX_SEL_ENTRY < idxSize ((s.cluster c.val).rd TU_IDX_ACTIVE_SIZE)) :
    exec (.tuIdxFlagsWrite c v) s = .next (s.setCluster c.val ({ s.cluster c.val with
      tu := (s.cluster c.val).tu.setEntry ((s.cluster c.val).rd TU_IDX_SEL_ENTRY) ⟨TU_IDX_FLAGS_TABLE.of v, (s.cluster c.val).rd TU_IDX_TAG_ID,
        TU_IDX_FLAGS_VALID.of v == 1, TU_IDX_FLAGS_PIN.of v == 1, TU_IDX_FLAGS_KIND.of v == 1, false,
        (s.cluster c.val).rd TU_IDX_RD_LO_ADDR_LO + 2 ^ 32 * (s.cluster c.val).rd TU_IDX_RD_HI_ADDR_HI, (s.cluster c.val).tu.clock⟩ }.showEntry
      ((s.cluster c.val).rd TU_IDX_SEL_ENTRY))) := by
  change Host.Outcome.next (s.tuIdxFlags c.val v) = _
  unfold State.tuIdxFlags
  simp only [htu, hopen, hjobs, hpend, Nat.not_le.mpr hentry, Bool.true_eq_false, Bool.false_eq_true, ne_eq, not_true_eq_false, or_self, if_false]

theorem exec_tuIdxFlagsWrite_refused (h : (s.cluster c.val).tu.jobs ≠ [] ∨ (s.cluster c.val).tu.commit = true) :
    exec (.tuIdxFlagsWrite c v) s = .next (s.setCluster c.val ((s.cluster c.val).wr TU_EVENT_CFG_ERR 1)) := by
  change Host.Outcome.next (s.tuIdxFlags c.val v) = _
  unfold State.tuIdxFlags
  simp only [htu, hopen, Bool.true_eq_false, Bool.false_eq_true, or_self, if_false]
  rw [if_pos (h.imp_right Or.inl)]

end

theorem exec_tuDoorbell_eq {s : State} {c : ClusterId} (a b : W64) (htu : hasTu c.val = true) (hrun : s.runs c.val = true)
    (hroom : (s.cluster c.val).doorbells < 16) :
    exec (.tuDoorbell c a b) s = .next ((s.setCluster c.val { s.cluster c.val with tu := { (s.cluster c.val).tu with
      doorbell := (s.cluster c.val).tu.doorbell ++ [(a, b, (s.region (regionOf c.val)).rd TCK_RSCHED_EPOCH)] } }).modRegion (regionOf c.val)
      (fun g => g.wake ((s.region (regionOf c.val)).rd TCK_RSCHED_EPOCH))) := by
  change execTuDoorbell c a b s = _
  unfold execTuDoorbell
  simp only [htu, hrun, Nat.not_le.mpr hroom, Bool.true_eq_false, or_self, if_false]

/-- At a suppressed cluster the commit and the window change nothing (R33, R304). -/
theorem exec_tuWindow_suppressed {s : State} {c : ClusterId} (v : W32) (h : s.suppressed c.val = true) :
    ∀ i ∈ [Instr.tuCommitGo c, Instr.tuCommitApply c, Instr.tuIdxSelWrite c v, Instr.tuIdxFlagsWrite c v], exec i s = .next s := by
  have hclosed : ¬(hasTu c.val = true ∧ s.suppressed c.val = false) := fun hc => by rw [h] at hc; exact absurd hc.2 (by decide)
  simp only [List.mem_cons, List.not_mem_nil, or_false, forall_eq_or_imp, forall_eq]
  exact ⟨if_neg hclosed, if_pos (.inl h), if_neg hclosed, congrArg Host.Outcome.next (if_pos (.inr h))⟩

/-- Settles O34: each command's next state; what the queue, the job, the completion, the commit and the window read in it. -/
theorem tableUnitPorts : Obligations.TableUnitPorts := by
  unfold Obligations.TableUnitPorts
  refine ⟨?_, ?_, ?_, ?_, ?_, ?_, ?_, ?_, ?_, ?_, ?_, ?_, ?_, ?_, ?_⟩
  · intro s c a b htu hrun hroom
    refine ⟨_, exec_tuDoorbell_eq a b htu hrun hroom, ?_⟩
    rw [State.cluster_modRegion, State.cluster_setCluster_same]
    exact ⟨rfl, ⟨rfl, fun k hk => State.cluster_setCluster_ne s _ hk, fun k hk => State.region_setRegion_ne _ _ hk⟩, rfl⟩
  · intro s c q k rest hrun hfull hdiscard htoks hjobs hwords hep htag
    refine ⟨_, exec_tuJobToken_word hrun hfull hdiscard htoks hjobs, ?_⟩
    rw [State.cluster_setCluster_same, Cluster.tuWordToken_first hwords hep htag]
    refine ⟨?_, OnlyCluster.setCluster s _ _, fun j hj => (Cluster.tuTakeTok_queue _ _ _ _).trans (if_neg hj)⟩
    rw [Cluster.tuTakeTok_queue, if_pos rfl, htoks, hfull, hdiscard]
    rfl
  · intro s c q k w rest hrun hfull hdiscard htoks hjobs hwords hep htag
    refine ⟨_, exec_tuJobToken_word hrun hfull hdiscard htoks hjobs, ?_⟩
    rw [State.cluster_setCluster_same, Cluster.tuWordToken_second _ hwords hep htag]
    refine ⟨?_, OnlyCluster.setCluster s _ _, fun j hj => (Cluster.tuTakeTok_queue _ _ _ _).trans (if_neg hj)⟩
    rw [Cluster.tuTakeTok_queue, if_pos rfl, htoks, hdiscard]
    rfl
  · intro s c q k w rest hrun hfull hdiscard htoks hjobs hwords hbad
    obtain ⟨hqueue, hevent, hcount, -, -⟩ := (s.cluster c.val).tuMalformed_spec q.val k
    rw [htoks] at hqueue
    refine ⟨_, exec_tuJobToken_word hrun hfull hdiscard htoks hjobs, ?_⟩
    rw [State.cluster_setCluster_same, Cluster.tuWordToken_malformed _ hwords hbad]
    exact ⟨hqueue, hevent, hcount, OnlyCluster.setCluster s _ _⟩
  · intro s c q k rest j hrun hfull hdiscard htoks hjobs hsrc hleft hstale hstatus htodo hep htag hgroup
    exact tuJobToken_bag_spec hrun hfull hdiscard htoks hjobs hsrc hleft (Cluster.tuBagToken_id hep htag htodo hstatus) rfl rfl hstale hgroup
  · intro s c q k rest j hrun hfull hdiscard htoks hjobs hsrc hleft hstale htodo hep htag hgroup
    have hmore : decide (0 < j.left - 1) = true := decide_eq_true (Nat.sub_pos_of_lt hleft)
    exact tuJobToken_bag_spec hrun hfull hdiscard htoks hjobs hsrc (Nat.zero_lt_of_lt hleft) (Cluster.tuBagToken_last hep htag htodo) rfl
      (by rw [TuJob.busy, hmore, Bool.or_true]) hstale hgroup
  · intro s c q k rest j hrun hfull hdiscard htoks hjobs hsrc hleft htag
    exact tuJobToken_mark_spec hrun hfull hdiscard htoks hjobs hsrc hleft htag
  · intro s c b d rest hrun htake hcredits
    refine ⟨_, exec_tuCompletionSend_eq hrun htake hcredits, ?_⟩
    rw [State.cluster_setCluster_same, Cluster.waiting_pushOut _ (by decide), List.getLast?_concat]
    refine ⟨rfl, ?_, rfl, OnlyCluster.setCluster s _ _⟩
    have hlt := Fld.rd_lt clTable (s.cluster c.val).regs (TU_CBIND_CREDITS.nth b.val)
    exact (Cluster.rd_wr_same (s.cluster c.val) (TU_CBIND_CREDITS.nth b.val) _ (Nat.le_of_ble_eq_true rfl)).trans
      (Nat.mod_eq_of_lt (lt_of_le_of_lt (Nat.sub_le _ 1) hlt))
  · intro s c htu hopen
    refine ⟨_, if_pos ⟨htu, hopen⟩, ?_⟩
    rw [State.cluster_modCluster_same]
    exact ⟨rfl, OnlyCluster.modCluster s _ _, rfl⟩
  · intro s c hopen hpend hjobs hgathers hsize hslotg hrow
    obtain ⟨hasize, haslotg, harow, hseed⟩ := (s.cluster c.val).commitTaken_reads
    have hgood : ¬(s.cluster c.val).commitBad := by
      rintro (h | h | h)
      · exact absurd hsize (Nat.not_le.mpr h)
      · exact absurd (List.contains_iff_mem.mpr hslotg) (by rw [h]; decide)
      · exact absurd hrow (Nat.not_le.mpr h)
    refine ⟨_, exec_tuCommitApply_good hopen hpend hjobs hgathers hgood, ?_⟩
    rw [State.cluster_setCluster_same]
    simp only [Cluster.rd_flushIndex]
    exact ⟨hasize, haslotg, harow, hseed, rfl, rfl, OnlyCluster.setCluster s _ _⟩
  · intro s c hopen hpend hjobs hgathers hlimit
    obtain ⟨hsize, hseed, hevent⟩ := (s.cluster c.val).commitRefused_reads
    have hbad : (s.cluster c.val).commitBad :=
      hlimit.imp_right (Or.imp_left fun h => Bool.eq_false_iff.mpr (mt List.contains_iff_mem.mp h))
    refine ⟨_, exec_tuCommitApply_bad hopen hpend hjobs hgathers hbad, ?_⟩
    rw [State.cluster_setCluster_same]
    exact ⟨hsize, hseed, hevent, rfl, rfl, OnlyCluster.setCluster s _ _⟩
  · intro s c v htu hopen
    obtain ⟨hsel, hvalid, htag, hkept⟩ := (s.cluster c.val).showEntry_reads (TU_IDX_SEL_ENTRY.of v)
    refine ⟨_, exec_tuIdxSelWrite_eq htu hopen, ?_⟩
    rw [State.cluster_setCluster_same]
    exact ⟨hsel.trans (Nat.mod_eq_of_lt (Fld.of_lt TU_IDX_SEL_ENTRY v)), hvalid, htag, hkept, OnlyCluster.setCluster s _ _⟩
  · intro s c v htu hopen hjobs hpend hentry
    refine ⟨_, exec_tuIdxFlagsWrite_stores htu hopen hjobs hpend hentry, ?_⟩
    rw [State.cluster_setCluster_same, (Cluster.showEntry_reads _ _).2.2.2]
    exact ⟨(Tu.entry_setEntry _ _ _ _).trans (if_pos rfl), fun e he => (Tu.entry_setEntry _ _ _ _).trans (if_neg he), OnlyCluster.setCluster s _ _⟩
  · intro s c v htu hopen hbusy
    refine ⟨_, exec_tuIdxFlagsWrite_refused htu hopen hbusy, ?_⟩
    rw [State.cluster_setCluster_same]
    exact ⟨Cluster.rd_wr_same _ TU_EVENT_CFG_ERR 1 (by decide), rfl, OnlyCluster.setCluster s _ _,
      ClusterRegs.wr ⟨rfl, fun _ _ => rfl⟩ 1 (List.mem_singleton_self _)⟩
  · intro s c v hclosed
    exact exec_tuWindow_suppressed v hclosed

end Sys2Proof.Machine
end

section
namespace Sys2Proof.Machine

/-! ## A shard list that is delivered poisoned (R238, R273) -/

/-- A ring-form BAG of one bag, from queue 2: ID 5 of table 0 to look up, and the bag's LAST still to come. -/
def bagOfFive : TuJob := ⟨1, 1, 0, 2, 0, 0, [⟨[], 0, false⟩], [(0, 5, false)], 0, [], PlateSum.start, false, 0, 1⟩

/-- A computing region whose cluster 4 runs `bagOfFive`. Table 0 has 100 rows of one granule in one shard, in the column of cluster 4 itself; row 0 of cluster memory,
which holds the shard list, has its poison bit set. -/
def poisonedShards : State :=
  (State.reset.setRegion 0 ((Region.reset.wr PWR_STATUS_STATE 2).wr DRV_STATUS_STATE 2)).setCluster 4
    ((({ Cluster.reset with mem := [(0, 4)], rowPoison := [0], tu := { Tu.reset with jobs := [bagOfFive] } }.wr (TU_TAB_CFG_GRAN.nth 0) 1).wr
      (TU_TAB_SHARDS_SHARDS.nth 0) 1).wr (TU_TAB_ROWS_ROWS.nth 0) 100)

/-- The granules in flight at cluster c after its BAG from a source. -/
def State.gathersAfterBag (s : State) (c : ClusterId) (src : Fin 9) : Option (List Gather) :=
  match exec (.tuBag c src []) s with
  | .next t => some (t.cluster c.val).tu.gathers
  | _ => none

theorem poisonedShards_gathers : poisonedShards.gathersAfterBag 4 2 = some [] := by decide +kernel

/-- Refutes O35: the clause of a BAG that misses does not ask that the ID's entry of the shard list reads clean. In `poisonedShards` it is delivered poisoned (R238), so
the lookup requests no granule (log entry 16), where the statement has one gather. -/
theorem not_tableUnitJobs : ¬ Obligations.TableUnitJobs := by
  unfold Obligations.TableUnitJobs
  rintro ⟨-, -, -, hmiss, -⟩
  have hafter := poisonedShards_gathers
  obtain ⟨t, hexec, -, hgathers, -⟩ := hmiss poisonedShards 4 2 bagOfFive 5 ⟨[], 0, false⟩ (by decide +kernel) (by decide +kernel) (by decide +kernel)
    (by decide +kernel) (by decide +kernel) (by decide +kernel) (by decide +kernel) (by decide +kernel) (by decide +kernel) (by decide +kernel)
    (by decide +kernel) (by decide +kernel) (by decide +kernel) (by decide +kernel) (by decide +kernel) (by decide +kernel) (by decide +kernel)
    (by decide +kernel)
  rw [State.gathersAfterBag, hexec] at hafter
  rw [Option.some.inj hafter, List.map_nil] at hgathers
  exact absurd hgathers (List.cons_ne_nil _ _).symm

end Sys2Proof.Machine
end

section
namespace Sys2Proof.Machine

/-! ## Read data at a parked region (R94, R299, R304) -/

/-- An answer to a read, from cluster 3 to endpoint 36 of cluster 0. -/
def readAnswer : Pkt := ⟨2, 0, 0, 0, 36, 0, 0, 3, 33, 0, 0, 0, false, false, false, false, 0, List.replicate 8 0, none⟩

/-- A PARKED region whose cluster 0 has `readAnswer` at its north input of plane 0; the routers of both its neighbours are opaque, so that it has no output. -/
def parkedRouter : State :=
  ((State.reset.modDome (fun d => { d with map := [(1, { DefRec.reset with router := true }), (80, { DefRec.reset with router := true })] })).setRegion 0
    ((Region.reset.wr PWR_STATUS_STATE 4).wr TRC_STATUS_STATE 2)).setCluster 0 (Cluster.reset.setInput 0 0 [readAnswer])

/-- What has arrived at cluster c after an arbitration of its router of a plane. -/
def State.arrivalsAfterArbitrate (s : State) (c : ClusterId) (pl : Fin 2) : Option (List Pkt) :=
  match exec (.routerArbitrate c pl [] []) s with
  | .next t => some (t.cluster c.val).arrivals
  | _ => none

theorem parkedRouter_arrivals : parkedRouter.arrivalsAfterArbitrate 0 0 = some [] := by decide +kernel

/-- Refutes O36: the clause of a delivery counts an RDR (opcode 2) among the answers that every destination takes, and does not ask for the region's power. A PARKED
region refuses read data (R94, R304), so `readAnswer` stays in its router, where the statement has it among the arrivals. -/
theorem not_routersMoveOnePacket : ¬ Obligations.RoutersMoveOnePacket := by
  unfold Obligations.RoutersMoveOnePacket
  rintro ⟨hdeliver, -⟩
  have hafter := parkedRouter_arrivals
  obtain ⟨t, hexec, harrivals, -⟩ := hdeliver parkedRouter 0 0 0 readAnswer (by decide +kernel) (by decide +kernel) (by decide +kernel) (by decide +kernel)
    (by decide +kernel) (by decide +kernel) rfl (by decide +kernel) (by decide) (by decide) (by decide)
  rw [State.arrivalsAfterArbitrate, hexec] at hafter
  rw [Option.some.inj hafter] at harrivals
  exact List.append_ne_nil_of_right_ne_nil _ (List.cons_ne_nil _ _) harrivals.symm

end Sys2Proof.Machine
end

section
namespace Sys2Proof.Machine

/-! ## Inputs of a router (R299) -/

theorem Cluster.input_setInput (c : Cluster) (pl d pl' d' : Nat) (l : List Pkt) :
    (c.setInput pl d l).input pl' d' = if 8 * pl' + d' = 8 * pl + d then l else c.input pl' d' := SMap.get_set _ _ _ _ _

/-! ## A router sends a packet itself (R303, R309, R338) -/

/-- The cluster of a router that has sent packet q: its count is n, and q waits at the local input of plane l. -/
def Cluster.routed (c : Cluster) (n l : Nat) (q : Pkt) : Cluster := ({ c with rfab := n }).setInput l 4 (c.input l 4 ++ [q])

theorem State.routerInject_eq (s : State) (i : Nat) (q : Pkt) :
    ∃ l, l < 2 ∧ s.routerInject i q = s.modCluster i (fun c => c.setInput l 4 (c.input l 4 ++ [q])) := by
  unfold State.routerInject State.modCluster
  dsimp only
  split
  · exact ⟨0, by decide, rfl⟩
  · exact ⟨1, by decide, rfl⟩

/-- Only the router's cluster changes; the packet waits at a local input, and it is not lost where it is for this module. -/
theorem State.routerSend_spec (s : State) (i : Nat) (p : Pkt) : OnlyCluster s (s.routerSend i p) i ∧
    (((s.routerSend i p).cluster i = s.cluster i ∧ p.dmod ≠ s.modId) ∨
      ∃ n l q, l < 2 ∧ (p.dmod = s.modId → q = p) ∧ (s.routerSend i p).cluster i = (s.cluster i).routed n l q) := by
  unfold State.routerSend
  cases hported : s.ported p (s.cluster i).rfab with
  | none =>
    refine ⟨OnlyCluster.refl s i, .inl ⟨rfl, fun hown => ?_⟩⟩
    rw [State.ported, if_pos hown] at hported
    cases hported
  | some q =>
    obtain ⟨l, hl, hinject⟩ := (s.routerSent i p).routerInject_eq i q
    dsimp only
    rw [hinject]
    refine ⟨(OnlyCluster.modCluster s i _).trans (OnlyCluster.modCluster _ i _), .inr ⟨fabNext s.modId p (s.cluster i).rfab, l, q, hl, fun hown => ?_, ?_⟩⟩
    · rw [State.ported, if_pos hown] at hported
      exact (Option.some.inj hported).symm
    · rw [State.cluster_modCluster_same, State.routerSent, State.cluster_modCluster_same]
      rfl

/-! ## A loss that is reported (R309, R310, R355) -/

/-- The module ID is what the finder and the identity registers give. -/
theorem State.modId_congr {s t : State} (hfinder : t.dome.finder = s.dome.finder) (hfid : t.fid = s.fid) : t.modId = s.modId := by
  unfold State.modId
  rw [hfinder, hfid]

theorem State.modId_domEvent (s : State) {f : Fld} (hlo : FND_FID_LO_FID_LO.off ≠ f.off) (hhi : FND_FID_HI_FID_HI.off ≠ f.off) :
    (s.domEvent f).modId = s.modId := by
  refine State.modId_congr (by rw [State.domEvent_dome]) ?_
  unfold State.fid State.domEvent
  rw [State.domeReg_hifEvent, State.domeReg_hifEvent, State.dome_setDome_ne s f _ 1 hlo, State.dome_setDome_ne s f _ 1 hhi]

/-- A packet is lost in region r: the failure of code 10, and event 8 of the bridge. -/
def State.reportLoss (s : State) (r : Nat) : State := (s.failure 10 r none 0 false true).hifEvent 8

theorem State.reportLoss_frame (s : State) (r : Nat) : OnlyDomeHost s (s.reportLoss r) :=
  (OnlyDomeHost.failure s 10 r none 0 false true).trans (OnlyDomeHost.hifEvent _ 8)

theorem State.reportLoss_spec (s : State) {r : Nat} (hr : r < 112) : Logged s (s.reportLoss r) 10 r ∧
    (s.reportLoss r).dome.degPend = s.dome.degPend ++ [(10, r)] ∧ Pends (s.reportLoss r) 8 := by
  have hdome : (s.reportLoss r).dome = (s.regionFailure 10 r 0).dome := State.hifEvent_dome _ 8
  obtain ⟨-, -, hdeg⟩ := s.regionFailure_records (code := 10) r 0 rfl (by decide) (by decide)
  have hlog := s.regionFailure_logged (code := 10) r 0 rfl (by decide) (by decide) (by omega)
  refine ⟨?_, by rw [hdome]; exact hdeg, pends_hifEvent _ (by decide)⟩
  unfold Logged at hlog ⊢
  rwa [hdome]

theorem State.modId_reportLoss (s : State) (r : Nat) : (s.reportLoss r).modId = s.modId := by
  have hfailure : s.failure 10 r none 0 false true = ((s.record 10 r none 0 2).domEvent DOM_FLT_EVENT_LOST).degradeSoon 10 r :=
    s.regionFailure_eq (code := 10) r 0 rfl (by decide) (by decide)
  have hid : (s.reportLoss r).modId = (s.failure 10 r none 0 false true).modId :=
    State.modId_congr (by rw [State.reportLoss, State.hifEvent_dome])
      (by unfold State.fid State.reportLoss; rw [State.domeReg_hifEvent, State.domeReg_hifEvent])
  rw [hid, hfailure]
  exact State.modId_domEvent (s.record 10 r none 0 2) (by decide) (by decide)

/-! ## PACKET_AGE_OUT at a router (R309) -/

/-- The cluster without packet n of an input, its loss counted. -/
def Cluster.agedOut (c : Cluster) (pl d n : Nat) : Cluster :=
  ((c.setInput pl d ((c.input pl d).eraseIdx n)).countStart MSH_CNT_LOST_CNT 1).wr MSH_EVENT_LOST 1

theorem Cluster.agedOut_spec (c : Cluster) (pl d n : Nat) : (c.agedOut pl d n).rd MSH_CNT_LOST_CNT = (c.rd MSH_CNT_LOST_CNT + 1) % 2 ^ 32 ∧
    (c.agedOut pl d n).rd MSH_EVENT_LOST = 1 ∧
    ∀ pl' d', (c.agedOut pl d n).input pl' d' = if 8 * pl' + d' = 8 * pl + d then (c.input pl d).eraseIdx n else c.input pl' d' := by
  refine ⟨?_, Cluster.rd_wr_same _ MSH_EVENT_LOST 1 (by decide), fun pl' d' => Cluster.input_setInput c pl d pl' d' _⟩
  rw [Cluster.agedOut, Cluster.rd_wr_ne _ MSH_EVENT_LOST MSH_CNT_LOST_CNT 1 (by decide)]
  exact Cluster.rd_wr_same _ MSH_CNT_LOST_CNT _ (by decide)

/-- The state in which the packet has aged out and its loss is reported; its NAK is still to come. -/
def State.agedOut (s : State) (i pl d n : Nat) : State := (s.modCluster i (fun c => c.agedOut pl d n)).reportLoss (regionOf i)

theorem State.ageRouter_eq {s : State} {i pl d n : Nat} {p : Pkt} (hget : ((s.cluster i).input pl d)[n]? = some p) :
    s.ageRouter i pl d n = (s.agedOut i pl d n).routerSend i (nakOf (s.agedOut i pl d n) i p 3) := by
  unfold State.ageRouter
  rw [hget]
  rfl

theorem State.agedOut_spec (s : State) (c : ClusterId) (pl d n : Nat) :
    Logged s (s.agedOut c.val pl d n) 10 (regionOf c.val) ∧ (s.agedOut c.val pl d n).dome.degPend = s.dome.degPend ++ [(10, regionOf c.val)] ∧
    Pends (s.agedOut c.val pl d n) 8 ∧ (s.agedOut c.val pl d n).modId = s.modId ∧
    (s.agedOut c.val pl d n).cluster c.val = (s.cluster c.val).agedOut pl d n ∧
    ∀ j, j ≠ c.val → (s.agedOut c.val pl d n).cluster j = s.cluster j := by
  obtain ⟨hlog, hdeg, hpend⟩ := (s.modCluster c.val (fun k => k.agedOut pl d n)).reportLoss_spec (regionOf_lt c)
  have hcluster := fun j => ((s.modCluster c.val (fun k => k.agedOut pl d n)).reportLoss_frame (regionOf c.val)).cluster j
  exact ⟨hlog, hdeg, hpend, State.modId_reportLoss _ _, (hcluster _).trans (State.cluster_modCluster_same _ _ _),
    fun j hj => (hcluster j).trans (State.cluster_setCluster_ne s _ hj)⟩

theorem OnlyCluster.dome_host {s t : State} {c : Nat} (h : OnlyCluster s t c) : t.dome = s.dome ∧ t.host = s.host :=
  ⟨by have := congrArg State.dome h.1; exact this, by have := congrArg State.host h.1; exact this⟩

theorem Cluster.routed_input (c : Cluster) (n l : Nat) (q : Pkt) (pl d : Nat) :
    (c.routed n l q).input pl d = if 8 * pl + d = 8 * l + 4 then c.input l 4 ++ [q] else c.input pl d :=
  Cluster.input_setInput { c with rfab := n } l 4 pl d _

/-- The NAK of a packet that aged out waits at a local input of its router, where the packet's source is of this module. -/
theorem ageRouter_nak {s : State} {c : ClusterId} {pl d n : Nat} {p : Pkt} (hget : ((s.cluster c.val).input pl d)[n]? = some p) (hd : d < 4)
    (hsrc : p.smod = s.modId) : ∃ l, l < 2 ∧ ((s.ageRouter c.val pl d n).cluster c.val).input l 4 =
      ((s.cluster c.val).input l 4) ++ [nakOf (s.agedOut c.val pl d n) c.val p 3] := by
  obtain ⟨-, -, -, hid, hcluster, -⟩ := s.agedOut_spec c pl d n
  obtain ⟨-, -, hinput⟩ := (s.cluster c.val).agedOut_spec pl d n
  obtain ⟨-, ⟨-, hother⟩ | ⟨k, l, q, hl, hq, hsent⟩⟩ :=
    (s.agedOut c.val pl d n).routerSend_spec c.val (nakOf (s.agedOut c.val pl d n) c.val p 3)
  · exact absurd (hsrc.trans hid.symm) hother
  · refine ⟨l, hl, ?_⟩
    rw [State.ageRouter_eq hget, hsent, Cluster.routed_input, if_pos rfl, hcluster, hinput, if_neg (by omega), hq (hsrc.trans hid.symm)]

/-- The packet has left its input, and the router's registers show the loss. -/
theorem ageRouter_cluster {s : State} {c : ClusterId} {pl d n : Nat} {p : Pkt} (hget : ((s.cluster c.val).input pl d)[n]? = some p) (hd : d < 4) :
    ((s.ageRouter c.val pl d n).cluster c.val).input pl d = ((s.cluster c.val).input pl d).eraseIdx n ∧
    ∀ f, ((s.ageRouter c.val pl d n).cluster c.val).rd f = ((s.cluster c.val).agedOut pl d n).rd f := by
  obtain ⟨-, -, -, -, hcluster, -⟩ := s.agedOut_spec c pl d n
  obtain ⟨-, -, hinput⟩ := (s.cluster c.val).agedOut_spec pl d n
  obtain ⟨-, ⟨hsame, -⟩ | ⟨k, l, q, -, -, hsent⟩⟩ :=
    (s.agedOut c.val pl d n).routerSend_spec c.val (nakOf (s.agedOut c.val pl d n) c.val p 3)
  · rw [State.ageRouter_eq hget, hsame, hcluster]
    exact ⟨(hinput pl d).trans (if_pos rfl), fun _ => rfl⟩
  · rw [State.ageRouter_eq hget, hsent, hcluster]
    exact ⟨(Cluster.routed_input _ _ _ _ _ _).trans ((if_neg (by omega)).trans ((hinput pl d).trans (if_pos rfl))), fun _ => rfl⟩

/-! ## A stream that has lost packets (R309, R310) -/

theorem modAt_getElem?_same {α : Type} (f : α → α) (l : List α) (n : Nat) : (modAt f l n)[n]? = l[n]?.map f := by
  induction l generalizing n with
  | nil => rfl
  | cons a l ih => cases n with
    | zero => rfl
    | succ n => exact ih n

/-- A receive stream whose pooled packets are lost (R310). -/
def RecvStream.lost (r : RecvStream) : RecvStream :=
  { r with pool := [], absorb := true, landing := r.landing.map (fun l => { l with status := 10 }) }

/-- The cluster with stream n lost, its loss counted. -/
def Cluster.streamLost (c : Cluster) (n : Nat) : Cluster :=
  (({ c with te := { c.te with recv := modAt RecvStream.lost c.te.recv n } }).countStart TE_CNT_LOST_CNT 1).wr TE_EVENT_LOST 1

/-- The stream's loss is counted, noted and reported; no other cluster changes. -/
theorem streamLost_spec {s : State} {c : ClusterId} {n : Nat} {r : RecvStream} (hget : (s.cluster c.val).te.recv[n]? = some r) :
    let t := (s.loseStream c.val n).reportLoss (regionOf c.val)
    ((t.cluster c.val).te.recv[n]?).map (fun q => (q.pool, q.absorb, q.landing)) = some ([], true, r.landing.map (fun l => { l with status := 10 })) ∧
    (t.cluster c.val).rd TE_CNT_LOST_CNT = ((s.cluster c.val).rd TE_CNT_LOST_CNT + 1) % 2 ^ 32 ∧ (t.cluster c.val).rd TE_EVENT_LOST = 1 ∧
    Logged s t 10 (regionOf c.val) ∧ Pends t 8 ∧ ∀ j, j ≠ c.val → t.cluster j = s.cluster j := by
  intro t
  obtain ⟨hlog, -, hpend⟩ := (s.loseStream c.val n).reportLoss_spec (regionOf_lt c)
  have hcluster := fun j => ((s.loseStream c.val n).reportLoss_frame (regionOf c.val)).cluster j
  have hlost : t.cluster c.val = (s.cluster c.val).streamLost n := (hcluster _).trans (State.cluster_modCluster_same _ _ _)
  rw [hlost]
  refine ⟨?_, ?_, Cluster.rd_wr_same _ TE_EVENT_LOST 1 (by decide), hlog, hpend, fun j hj => (hcluster j).trans (State.cluster_setCluster_ne s _ hj)⟩
  · have hrecv : ((s.cluster c.val).streamLost n).te.recv[n]? = some r.lost := (modAt_getElem?_same _ _ _).trans (congrArg _ hget)
    rw [hrecv]
    rfl
  · rw [Cluster.streamLost, Cluster.rd_wr_ne _ TE_EVENT_LOST TE_CNT_LOST_CNT 1 (by decide)]
    exact Cluster.rd_wr_same _ TE_CNT_LOST_CNT _ (by decide)

/-! ## The hole map (R303) -/

/-- A region that holds the dome controller's hole map. -/
def Region.holding (g : Region) (d : Dome) : Region := { g with holes := d.holes, holeGen := d.holeGen }

/-- The map as it is written into the regions of a list: into those that have power. -/
def State.writeHoles (s : State) (l : List Nat) : State :=
  l.foldl (fun t r => if (t.region r).dark then t else t.modRegion r (fun g => g.holding t.dome)) s

theorem State.writeHoles_spec (l : List Nat) (s : State) : OnlyRegions s (s.writeHoles l) ∧
    ∀ r, (s.writeHoles l).region r = if r ∈ l ∧ (s.region r).dark = false then (s.region r).holding s.dome else s.region r := by
  induction l generalizing s with
  | nil => exact ⟨rfl, fun r => (if_neg (fun h => absurd h.1 List.not_mem_nil)).symm⟩
  | cons k l ih =>
    cases hdark : (s.region k).dark with
    | true =>
      have hstep : s.writeHoles (k :: l) = s.writeHoles l := congrArg (fun t : State => t.writeHoles l) (if_pos hdark)
      rw [hstep]
      refine ⟨(ih s).1, fun r => ((ih s).2 r).trans (if_congr ?_ rfl rfl)⟩
      rw [List.mem_cons]
      exact ⟨fun h => ⟨.inr h.1, h.2⟩, fun h => ⟨h.1.resolve_left (fun hr => by rw [hr, hdark] at h; exact absurd h.2 (by decide)), h.2⟩⟩
    | false =>
      have hstep : s.writeHoles (k :: l) = (s.modRegion k (fun g => g.holding s.dome)).writeHoles l :=
        congrArg (fun t : State => t.writeHoles l) (if_neg (by rw [hdark]; decide))
      rw [hstep]
      obtain ⟨hframe, hregion⟩ := ih (s.modRegion k (fun g => g.holding s.dome))
      refine ⟨OnlyRegions.trans (OnlyRegions.modRegion s k _) hframe, fun r => (hregion r).trans ?_⟩
      by_cases hr : r = k
      · subst hr
        rw [if_pos (⟨List.mem_cons_self, hdark⟩ : r ∈ r :: l ∧ _), State.region_modRegion_same]
        exact ite_self _
      · rw [State.region_modRegion, if_neg hr]
        exact if_congr (by simp only [List.mem_cons, hr, false_or]) rfl rfl

/-! ## CROSSING_DEAD (R303) -/

/-- The cluster that notes the dead crossing in direction d. -/
def Cluster.crossingDead (c : Cluster) (d : Nat) : Cluster := (c.wr MSH_STATUS_DEAD (c.rd MSH_STATUS_DEAD ||| 2 ^ d)).wr MSH_EVENT_DEAD 1

theorem Cluster.crossingDead_reads (c : Cluster) {d : Nat} (hd : d < 4) : (c.crossingDead d).rd MSH_STATUS_DEAD = c.rd MSH_STATUS_DEAD ||| 2 ^ d ∧
    (c.crossingDead d).rd MSH_EVENT_DEAD = 1 := by
  have hfits : c.rd MSH_STATUS_DEAD ||| 2 ^ d < 2 ^ 4 :=
    Nat.or_lt_two_pow (Fld.rd_lt clTable c.regs MSH_STATUS_DEAD) (Nat.pow_lt_pow_right (by decide) hd)
  refine ⟨?_, Cluster.rd_wr_same _ MSH_EVENT_DEAD 1 (by decide)⟩
  rw [Cluster.crossingDead, Cluster.rd_wr_ne _ MSH_EVENT_DEAD MSH_STATUS_DEAD 1 (by decide)]
  exact (Cluster.rd_wr_same c MSH_STATUS_DEAD _ (by decide)).trans (Nat.mod_eq_of_lt hfits)

/-- A hole is added to the map under the next generation, unless the map has it. -/
def State.addHole (s : State) (h : Nat) : State :=
  if s.dome.holes.contains h then s else s.modDome (fun d => { d with holes := NSet.add d.holes h, holeGen := d.holeGen + 1 })

theorem State.addHole_spec (s : State) (h : Nat) : (s.addHole h).dome.holes.contains h = true ∧
    (s.addHole h).dome.holeGen = (if s.dome.holes.contains h then s.dome.holeGen else s.dome.holeGen + 1) ∧ OnlyDomeHost s (s.addHole h) := by
  unfold State.addHole
  split
  · next hheld => exact ⟨hheld, rfl, rfl⟩
  · exact ⟨List.contains_iff_mem.mpr ((NSet.mem_add _ _ _).mpr (.inl rfl)), rfl, rfl⟩

theorem exec_crossingDead_eq {s : State} {c : ClusterId} {d : Fin 4} {n : Nat} (hn : neighbour c.val d.val = some n)
    (hcross : isCrossing c.val d.val = true) (hhole : (s.region (regionOf n)).hole = true) :
    exec (.crossingDead c d) s = .next ((s.setCluster c.val ((s.cluster c.val).crossingDead d.val)).addHole (8960 + regionOf n)) := by
  change execCrossingDead c d s = _
  unfold execCrossingDead
  rw [hn]
  exact if_pos ⟨hcross, hhole⟩

/-- Settles O37: a packet that ages out, a stream that is lost, and the hole map, each by what its command leaves. -/
theorem packetsLostAndHoles : Obligations.PacketsLostAndHoles := by
  unfold Obligations.PacketsLostAndHoles
  refine ⟨?_, ?_, ?_, ?_, ?_⟩
  · intro s c pl d n p hget hport hage
    have hd : d.val < 4 := by omega
    have hexec : exec (.packetAgeOut c (.router pl d n)) s = .next (s.ageRouter c.val pl.val d.val n) := by
      change execPacketAgeOut c (.router pl d n) s = _
      unfold execPacketAgeOut
      dsimp only
      rw [hget]
      exact congrArg Host.Outcome.next (if_pos hage)
    obtain ⟨hlog, hdeg, hpend, hid, -, hothers⟩ := s.agedOut_spec c pl.val d.val n
    obtain ⟨hframe, -⟩ := (s.agedOut c.val pl.val d.val n).routerSend_spec c.val (nakOf (s.agedOut c.val pl.val d.val n) c.val p 3)
    rw [← State.ageRouter_eq hget] at hframe
    obtain ⟨hdome, hhost⟩ := hframe.dome_host
    obtain ⟨hinput, hregs⟩ := ageRouter_cluster hget hd
    obtain ⟨hlost, hevent, -⟩ := (s.cluster c.val).agedOut_spec pl.val d.val n
    refine ⟨_, hexec, hinput, (hregs _).trans hlost, (hregs _).trans hevent, ?_, by rw [hdome]; exact hdeg, hpend.of_host hhost, fun hsrc => ?_,
      fun j hj => (hframe.2 j hj).trans (hothers j hj)⟩
    · unfold Logged at hlog ⊢
      rwa [hdome]
    · obtain ⟨l, hl, hnak⟩ := ageRouter_nak hget hd hsrc
      refine List.any_eq_true.mpr ⟨l, by simp; omega, decide_eq_true ?_⟩
      rw [hnak, List.map_append]
      rfl
  · intro s c n r hget hage
    obtain ⟨hrecv, -, hevent, hlog, -, hothers⟩ := streamLost_spec hget
    refine ⟨_, ?_, hrecv, hevent, hlog, hothers⟩
    change execPacketAgeOut c (.pool n) s = _
    unfold execPacketAgeOut
    dsimp only
    rw [hget]
    exact if_neg (by rw [hage]; decide)
  · intro s c n r hget hpool
    refine ⟨_, ?_, streamLost_spec hget⟩
    change execPoolGapTimeout c n s = _
    unfold execPoolGapTimeout State.recvStream
    rw [hget]
    exact if_neg (by rwa [List.isEmpty_iff])
  · intro s c d n hn hcross hhole
    obtain ⟨hstatus, hevent⟩ := (s.cluster c.val).crossingDead_reads d.isLt
    obtain ⟨hholes, hgen, hrest⟩ := (s.setCluster c.val ((s.cluster c.val).crossingDead d.val)).addHole_spec (8960 + regionOf n)
    refine ⟨_, exec_crossingDead_eq hn hcross hhole, ?_, ?_, hholes, hgen, hrest.regions, fun j hj => ?_⟩
    · rw [hrest.cluster, State.cluster_setCluster_same]
      exact hstatus
    · rw [hrest.cluster, State.cluster_setCluster_same]
      exact hevent
    · exact (hrest.cluster j).trans (State.cluster_setCluster_ne s _ hj)
  · intro s
    obtain ⟨hframe, hregion⟩ := State.writeHoles_spec (List.range 112) s
    refine ⟨s.writeHoles (List.range 112), rfl, fun r hr hpower => ?_, fun r hdark => ?_, hframe⟩
    · rw [hregion, if_pos ⟨List.mem_range.mpr hr, hpower⟩]
      exact ⟨rfl, rfl⟩
    · rw [hregion, if_neg (fun h => by rw [hdark] at h; exact absurd h.2 (by decide))]

end Sys2Proof.Machine
end

section
namespace Sys2Proof.Machine

/-! ## A poisoned token from another module (R312, R355) -/

/-- A TOKEN packet from module 5 to queue 1 of element 4: one token, with its own POISON bit set, in a packet that is not poisoned. -/
def poisonedToken : Pkt := ⟨5, 0, 0, 0, 4, 5, 0, 3, 36, 0, 8, 0, false, false, false, false, 0, [0x1011, 7, 0, 0, 0, 0, 0, 0, 2], none⟩

/-- The receive stream that expects `poisonedToken`. -/
def tokenStream : RecvStream := ⟨5, 0, 3, 36, 0, 8, true, [], 0, none, false, 0, 0, false⟩

/-- A computing region at whose cluster 0 `poisonedToken` has arrived. -/
def tokenArrived : State :=
  (State.reset.setRegion 0 ((Region.reset.wr PWR_STATUS_STATE 2).wr DRV_STATUS_STATE 2)).setCluster 0
    { Cluster.reset with arrivals := [poisonedToken], te := { Te.reset with recv := [tokenStream] } }

/-- How many fault records there have been after cluster c handles a TOKEN packet. -/
def State.recordsAfterToken (s : State) (c : ClusterId) : Option Nat :=
  match exec (.tokenPkt c) s with
  | .next t => some t.dome.logSeq
  | _ => none

theorem tokenArrived_records : tokenArrived.recordsAfterToken 0 = some 1 := by decide +kernel

/-- Refutes O38: the clause of the expected TOKEN packet asks that the packet is not poisoned, and not that its tokens are not. A token with its own POISON bit from
another module makes the record of code 24 at the dome controller (R355, R357), where the statement has the cluster and its region alone differ. -/
theorem not_readsAndStreamsArrive : ¬ Obligations.ReadsAndStreamsArrive := by
  unfold Obligations.ReadsAndStreamsArrive
  rintro ⟨-, -, -, -, -, htoken, -⟩
  have hafter := tokenArrived_records
  obtain ⟨t, hexec, -, -, -, hrest, -⟩ := htoken tokenArrived 0 poisonedToken [] tokenStream (by decide +kernel) (by decide +kernel) (by decide +kernel)
    (by decide +kernel) (by decide) (by decide) rfl rfl rfl rfl (by decide) rfl (by decide +kernel)
  rw [State.recordsAfterToken, hexec] at hafter
  have hnone : t.dome.logSeq = 0 := congrArg (fun x : State => x.dome.logSeq) hrest
  exact absurd (hnone.symm.trans (Option.some.inj hafter)) (by decide)

end Sys2Proof.Machine
end

section
namespace Sys2Proof.Machine

/-! ## A packet for the own cluster that waits when a multicast ends (R305, R318, R321) -/

/-- The last MACK of the multicast with TAG 5, present, from cluster 3. -/
def lastMack : Pkt := ⟨12, 0, 0, 0, 36, 0, 0, 3, 36, 7, 0, 0, false, false, false, false, 0, [0x50000, 0, 0, 0, 0, 0, 0, 0], none⟩

/-- That multicast, of one member, none answered. -/
def openMcast : Xfer := ⟨4, 3, 5, 0, false, 0, 0, 0, 0, 0, 36, 4, 1, 0, false, 1, 0, [], 0⟩

/-- A TOKEN packet of cluster 0 to its own element 4. -/
def ownToken : Pkt := ⟨5, 0, 0, 0, 4, 0, 0, 0, 36, 0, 0, 0, false, false, false, false, 0, [1, 7, 0, 0, 0, 0, 0, 0, 2], none⟩

/-- A computing region at whose cluster 0 `lastMack` has arrived; in the stream of the transit engine to its own cluster `ownToken` waits to be sent. -/
def mackArrived : State :=
  (State.reset.setRegion 0 ((Region.reset.wr PWR_STATUS_STATE 2).wr DRV_STATUS_STATE 2)).setCluster 0
    { Cluster.reset with
      arrivals := [lastMack]
      te := { Te.reset with send := { Sender.reset with streams := [⟨36, 0, 0, 0, 0, 0, [], [(ownToken, tokenXfer 2)]⟩], items := [openMcast] } } }

/-- How many packets have arrived at cluster c after it handles a MACK. -/
def State.arrivalsAfterMack (s : State) (c : ClusterId) : Option Nat :=
  match exec (.mack c) s with
  | .next t => some (t.cluster c.val).arrivals.length
  | _ => none

theorem mackArrived_arrivals : mackArrived.arrivalsAfterMack 0 = some 1 := by decide +kernel

/-- Refutes O39: the clause of the last MACK leaves the engine's streams free. The end of a multicast lets packets out that waited (R318), and `ownToken`, which is for
the own cluster, joins its arrivals (R298), where the statement has the MACK leave and nothing come. -/
theorem not_answersCloseWhatIsTracked : ¬ Obligations.AnswersCloseWhatIsTracked := by
  unfold Obligations.AnswersCloseWhatIsTracked
  rintro ⟨-, -, -, -, -, hmack, -⟩
  have hafter := mackArrived_arrivals
  obtain ⟨t, hexec, harrivals, -⟩ := hmack mackArrived 0 lastMack [] openMcast (by decide +kernel) (by decide +kernel) (by decide +kernel) rfl
    (by decide +kernel) rfl (by decide) rfl rfl (by decide) rfl rfl
  rw [State.arrivalsAfterMack, hexec] at hafter
  have hone : (t.cluster (0 : ClusterId).val).arrivals.length = 1 := Option.some.inj hafter
  rw [harrivals] at hone
  exact absurd hone (by decide)

end Sys2Proof.Machine
end

section
namespace Sys2Proof.Machine

/-! ## Payloads (R292, R297) -/

theorem leBytes_leNat (bs : List Byte) : leBytes bs.length (leNat bs) = bs := by
  induction bs with
  | nil => rfl
  | cons b bs ih =>
    have hb := b.isLt
    rw [List.length_cons, leNat, leBytes, Nat.add_mul_div_left _ _ (by decide), Nat.div_eq_of_lt hb, Nat.zero_add, ih]
    congr 1
    refine BitVec.eq_of_toNat_eq ?_
    rw [BitVec.toNat_ofNat]
    omega

theorem length_chunksOf {α : Type} (n c : Nat) (l : List α) : (chunksOf n c l).length = c := by
  induction c generalizing l with
  | zero => rfl
  | succ c ih => rw [chunksOf, List.length_cons, ih]

theorem flatten_chunksOf {α : Type} {n c : Nat} {l : List α} (hl : l.length = n * c) : (chunksOf n c l).flatten = l := by
  induction c generalizing l with
  | zero => exact (List.length_eq_zero_iff.mp hl).symm
  | succ c ih =>
    rw [chunksOf, List.flatten_cons, ih (by rw [List.length_drop, hl, Nat.mul_succ, Nat.add_sub_cancel]), List.take_append_drop]

theorem length_of_mem_chunksOf {α : Type} {n c : Nat} {l : List α} (hl : l.length = n * c) : ∀ x ∈ chunksOf n c l, x.length = n := by
  induction c generalizing l with
  | zero => exact fun x hx => absurd hx List.not_mem_nil
  | succ c ih =>
    have hlen : l.length = n * c + n := by rw [hl, Nat.mul_succ]
    refine List.forall_mem_cons.mpr ⟨?_, ih (by rw [List.length_drop, hlen, Nat.add_sub_cancel])⟩
    rw [List.length_take, hlen, Nat.min_eq_left (Nat.le_add_left _ _)]

/-- Sixty-four bytes packed into a payload are the bytes of that payload, whatever word follows. -/
theorem payBytes_bytesPay (p : Pkt) {bs : List Byte} (hlen : bs.length = 64) (ws : List W64) (hpay : p.pay = bytesPay bs ++ ws) : payBytes p = bs := by
  have hwords : (bytesPay bs).length = 8 := by rw [bytesPay, List.length_map, length_chunksOf]
  rw [payBytes, hpay, sliceOf, List.drop_zero, List.take_left' hwords, bytesPay, List.flatMap_map, List.flatMap_def]
  refine (congrArg List.flatten (List.map_congr_left fun x hx => ?_)).trans ((congrArg List.flatten (List.map_id _)).trans (flatten_chunksOf hlen))
  have hx8 : x.length = 8 := length_of_mem_chunksOf hlen x hx
  have hlt := leNat_lt x
  rw [hx8] at hlt
  rw [BitVec.toNat_ofNat, Nat.mod_eq_of_lt hlt, ← hx8]
  exact leBytes_leNat x

/-! ## The sending side of a cluster's transit engine (R305, R318) -/

/-- The packets of a list that leave cluster i for the mesh: multicast ones, and those for another cluster of this module (R295, R298). -/
def State.Outbound (s : State) (i : Nat) (l : List Pkt) : Prop := ∀ p ∈ l, p.mcast = true ∨ (p.dmod = s.modId ∧ cidx p.dx p.dy ≠ i)

/-- The cluster with packets at the end of what its transit engine injects. -/
def Cluster.addOut (c : Cluster) (l : List Pkt) : Cluster := c.setSender .te { c.te.send with out := c.te.send.out ++ l }

theorem Cluster.addOut_addOut (c : Cluster) (l k : List Pkt) : (c.addOut l).addOut k = c.addOut (l ++ k) := by
  unfold Cluster.addOut Cluster.setSender
  rw [← List.append_assoc]

theorem OnlyCluster.modSender (s : State) (i : Nat) (a : Agent) (f : Sender → Sender) : OnlyCluster s (s.modSender i a f) i :=
  OnlyCluster.modCluster s i _

theorem OnlyCluster.sendPkt (s : State) (i : Nat) (a : Agent) (p : Pkt) : OnlyCluster s (s.sendPkt i a p) i := by
  unfold State.sendPkt
  split
  · exact OnlyCluster.modCluster s i _
  · split
    · exact OnlyCluster.modSender s i a _
    · split
      · exact OnlyCluster.refl s i
      · exact OnlyCluster.modSender s i a _

theorem OnlyCluster.foldl {α : Type} {f : State → α → State} {i : Nat} (hf : ∀ u a, OnlyCluster u (f u a) i) (l : List α) (s : State) :
    OnlyCluster s (l.foldl f s) i := by
  induction l generalizing s with
  | nil => exact OnlyCluster.refl s i
  | cons a l ih => exact (hf s a).trans (ih (f s a))

theorem OnlyCluster.pump (s : State) (i : Nat) (a : Agent) : OnlyCluster s (s.pump i a) i :=
  (OnlyCluster.modSender s i a _).trans (OnlyCluster.foldl (fun u p => OnlyCluster.sendPkt u i a p) _ _)

theorem OnlyCluster.sendOrdered (s : State) (i : Nat) (a : Agent) (ps : List Pkt) (xfer : Nat) : OnlyCluster s (s.sendOrdered i a ps xfer) i := by
  unfold State.sendOrdered
  split
  · exact OnlyCluster.refl s i
  · exact (OnlyCluster.modSender s i a _).trans (OnlyCluster.pump _ i a)

theorem State.cluster_modSender (s : State) (i : Nat) (a : Agent) (f : Sender → Sender) :
    (s.modSender i a f).cluster i = (s.cluster i).setSender a (f ((s.cluster i).sender a)) := State.cluster_modCluster_same s i _

/-- The packets that leave for the mesh join what the engine injects, in their order. -/
theorem State.cluster_sendAll (l : List Pkt) (s : State) (i : Nat) (hl : s.Outbound i l) :
    (l.foldl (fun t p => t.sendPkt i .te p) s).cluster i = (s.cluster i).addOut l := by
  induction l generalizing s with
  | nil =>
    rw [Cluster.addOut, List.append_nil]
    rfl
  | cons p l ih =>
    have hown : ¬(p.mcast = false ∧ p.dmod = s.modId ∧ cidx p.dx p.dy = i) := by
      rintro ⟨hunicast, -, hhere⟩
      rcases hl p List.mem_cons_self with hmcast | ⟨-, haway⟩
      · exact absurd (hunicast.symm.trans hmcast) (by decide)
      · exact haway hhere
    have hsend : s.sendPkt i .te p = s.modSender i .te (fun x => { x with out := x.out ++ [p] }) :=
      (if_neg hown).trans (if_pos ((hl p List.mem_cons_self).imp_right And.left))
    rw [List.foldl_cons, hsend]
    refine (ih (s.modSender i .te (fun x => { x with out := x.out ++ [p] })) (fun q hq => hl q (List.mem_cons_of_mem p hq))).trans ?_
    rw [State.cluster_modSender]
    exact Cluster.addOut_addOut _ [p] l

/-! ## A stream that nothing holds back (R305) -/

/-- Packets as their stream numbers them from n on; the first of a stream with nothing outstanding has START set. -/
def numberPkts : Bool → Nat → List Pkt → List Pkt
  | _, _, [] => []
  | fresh, n, p :: ps => { (if fresh then startPkt p else p) with seq := n % 256 } :: numberPkts false ((n + 1) % 256) ps

theorem SendStream.release_waiting (f : Nat) (t : SendStream) (hf : t.waiting.length ≤ f) (hw : t.outst.length + t.waiting.length ≤ 64) :
    (t.release f).1 = numberPkts t.outst.isEmpty t.next (t.waiting.map (fun w => w.1)) := by
  induction f generalizing t with
  | zero =>
    rw [List.length_eq_zero_iff.mp (Nat.le_zero.mp hf)]
    rfl
  | succ f ih =>
    unfold SendStream.release
    split
    · next h => rw [h]; rfl
    · next p x rest h =>
      rw [h] at hf hw
      rw [List.length_cons] at hf hw
      rw [if_neg (by omega), h]
      have hheld : (t.outst ++ [(t.next % 256, x)]).isEmpty = false := by simp
      have hlen : (t.outst ++ [(t.next % 256, x)]).length + rest.length ≤ 64 := by
        rw [List.length_append, List.length_singleton]
        omega
      refine congrArg (List.cons _) ((ih _ (Nat.le_of_succ_le_succ hf) hlen).trans ?_)
      rw [hheld]

theorem releaseAll_single (room : Nat) (t : SendStream) (hroom : t.waiting.length ≤ room) (hw : t.outst.length + t.waiting.length ≤ 64) :
    (releaseAll 0 room [t]).1 = numberPkts t.outst.isEmpty t.next (t.waiting.map (fun w => w.1)) := by
  have hrelease := t.release_waiting (min 64 room) (le_min (by omega) hroom) hw
  unfold releaseAll
  rw [if_neg (fun h => absurd h.2 (by decide))]
  dsimp only
  rw [hrelease, releaseAll, List.append_nil]

/-- A field of a packet that its number and START leave as it is. -/
theorem map_numberPkts {α : Type} {f : Pkt → α} (hseq : ∀ (p : Pkt) (n : Nat), f { p with seq := n } = f p) (hstart : ∀ p, f (startPkt p) = f p) (b : Bool) (n : Nat)
    (ps : List Pkt) : (numberPkts b n ps).map f = ps.map f := by
  induction ps generalizing b n with
  | nil => rfl
  | cons p ps ih =>
    rw [numberPkts, List.map_cons, List.map_cons, ih, hseq]
    cases b
    · rfl
    · rw [if_pos rfl, hstart]

theorem outbound_numberPkts {s : State} {i : Nat} {ps : List Pkt} (h : s.Outbound i ps) (b : Bool) (n : Nat) : s.Outbound i (numberPkts b n ps) := by
  intro p hp
  have hfields := map_numberPkts (f := fun q => (q.mcast, q.dmod, q.dx, q.dy)) (fun _ _ => rfl) (fun _ => rfl) b n ps
  have hmem := List.mem_map_of_mem (f := fun q : Pkt => (q.mcast, q.dmod, q.dx, q.dy)) hp
  rw [hfields] at hmem
  obtain ⟨q, hq, heq⟩ := List.mem_map.mp hmem
  simp only [Prod.mk.injEq] at heq
  obtain ⟨hmcast, hdmod, hdx, hdy⟩ := heq
  rw [← hmcast, ← hdmod, ← hdx, ← hdy]
  exact h q hq

/-- The one stream of the engine, with nothing outstanding, sends all that waits where the window and the engine have room for it (R305, R318). -/
theorem State.cluster_pump_single {s : State} {i : Nat} {st : SendStream} (hstreams : (s.cluster i).te.send.streams = [st]) (hidle : st.outst = [])
    (hwindow : st.waiting.length ≤ 64) (hroom : (s.cluster i).te.send.inflight + st.waiting.length ≤ 8192)
    (hout : s.Outbound i (st.waiting.map (fun w => w.1))) :
    ∃ l, (s.pump i .te).cluster i =
      ((s.cluster i).setSender .te { (s.cluster i).te.send with streams := l }).addOut (numberPkts true st.next (st.waiting.map (fun w => w.1))) := by
  have hused : ((s.cluster i).te.send.streams.filter (fun t => !t.outst.isEmpty)).length = 0 := by
    rw [hstreams, List.filter_cons_of_neg (by rw [hidle]; decide)]
    rfl
  have hsent := releaseAll_single (8192 - (s.cluster i).te.send.inflight) st (by omega) (by rw [hidle]; simpa using hwindow)
  rw [hidle] at hsent
  refine ⟨(releaseAll 0 (8192 - (s.cluster i).te.send.inflight) [st]).2, ?_⟩
  unfold State.pump
  dsimp only [Cluster.sender]
  rw [hused, if_pos rfl, hstreams, hsent]
  refine (State.cluster_sendAll _ (s.modSender i .te (fun y => { y with streams := _ })) i (outbound_numberPkts hout true st.next)).trans ?_
  rw [State.cluster_modSender]
  rfl

/-- The packets of a transfer leave at once where the engine has no stream, and room for them (R305, R316, R318). -/
theorem State.cluster_sendOrdered {s : State} {i : Nat} {ps : List Pkt} (hstreams : (s.cluster i).te.send.streams = []) (hps : ps ≠ [])
    (hwindow : ps.length ≤ 64) (hroom : (s.cluster i).te.send.inflight + ps.length ≤ 8192) (hout : s.Outbound i ps) (xfer : Nat) :
    ∃ l, (s.sendOrdered i .te ps xfer).cluster i = ((s.cluster i).setSender .te { (s.cluster i).te.send with streams := l }).addOut (numberPkts true 0 ps) := by
  obtain ⟨p, rest, rfl⟩ := List.exists_cons_of_ne_nil hps
  have hnew : s.sendOrdered i .te (p :: rest) xfer = (s.modSender i .te (fun y => { y with
      streams := [⟨36, p.dmod, p.dy, p.dx, p.chan, 0, [], (p :: rest).map (fun q => (q, xfer))⟩] })).pump i .te := by
    unfold State.sendOrdered
    dsimp only [Cluster.sender]
    rw [hstreams]
    rfl
  have hmap : ((p :: rest).map (fun q => (q, xfer))).map (fun w => w.1) = p :: rest := by rw [List.map_map]; exact List.map_id _
  have hinflight : (s.cluster i).te.send.inflight = ((s.cluster i).te.send.items.filter (fun t => t.kind == 2 || t.kind == 3 || t.kind == 6)).length := by
    rw [Sender.inflight, hstreams]
    rfl
  rw [hnew]
  obtain ⟨l, hl⟩ := State.cluster_pump_single (s := s.modSender i .te (fun y => { y with
      streams := [⟨36, p.dmod, p.dy, p.dx, p.chan, 0, [], (p :: rest).map (fun q => (q, xfer))⟩] })) (i := i)
    (st := ⟨36, p.dmod, p.dy, p.dx, p.chan, 0, [], (p :: rest).map (fun q => (q, xfer))⟩) (by rw [State.cluster_modSender]; rfl) rfl
    (by rw [List.length_map]; exact hwindow) (by rw [State.cluster_modSender, List.length_map]; rw [hinflight] at hroom; exact hroom)
    (by rw [hmap]; exact hout)
  refine ⟨l, hl.trans ?_⟩
  rw [hmap, State.cluster_modSender]
  rfl

end Sys2Proof.Machine
end

section
namespace Sys2Proof.Machine

/-! ## Units that leave an input queue (R311) -/

/-- The cluster once n tokens of input queue q are taken: only the queue, the round-robin pointer and the credits on the rings differ. -/
theorem Cluster.tePop_eq (c : Cluster) (q n : Nat) : ∃ l, c.tePop q n =
    { c with te := { c.te with queues := SMap.set (fun _ => []) c.te.queues q ((c.te.queue q).drop n), rr := (q + 1) % 8 }, ringCreds := l } :=
  Cluster.creditsBack_eq { c with te := { c.te with queues := SMap.set (fun _ => []) c.te.queues q ((c.te.queue q).drop n), rr := (q + 1) % 8 } }
    (stop := 36) (by decide) q n

theorem Cluster.tePop_queue (c : Cluster) (q n : Nat) : (c.tePop q n).te.queue q = (c.te.queue q).drop n := by
  obtain ⟨l, hl⟩ := c.tePop_eq q n
  rw [hl]
  exact SMap.get_set_same _ _ _ _

theorem Cluster.tePop_te (c : Cluster) (q n : Nat) : (c.tePop q n).te.credit = c.te.credit ∧ (c.tePop q n).te.send = c.te.send ∧
    (c.tePop q n).te.done = c.te.done := by
  obtain ⟨l, hl⟩ := c.tePop_eq q n
  rw [hl]
  exact ⟨rfl, rfl, rfl⟩

theorem Cluster.tePop_keeps (c : Cluster) (q n : Nat) : (c.tePop q n).regs = c.regs ∧ (c.tePop q n).cnt = c.cnt ∧ (c.tePop q n).mem = c.mem ∧
    (c.tePop q n).memBad = c.memBad ∧ (c.tePop q n).rowPoison = c.rowPoison := by
  obtain ⟨l, hl⟩ := c.tePop_eq q n
  rw [hl]
  exact ⟨rfl, rfl, rfl, rfl, rfl⟩

/-! ## TE_SEND_UNIT (R192, R312, R313) -/

/-- The one entry of the credit table, which is the header's, stays as it is. -/
theorem Te.touch_single {t : Te} {k : CreditEntry} {src m : Nat} {h : W64} (hcredit : t.credit = [k]) (his : k.is src m h = true) : t.touch src m h = t := by
  have htake : takeFirst (fun e => e.is src m h) [k] = some (k, []) := if_pos his
  unfold Te.touch
  rw [hcredit, htake]
  cases t
  cases hcredit
  rfl

/-- The state once a SEND pair has left queue q and its entry of the credit table is the one used last. -/
def State.sendTouched (s : State) (i q : Nat) (h : W64) : State :=
  (s.setCluster i (((s.cluster i).tePop q 2).modElem ((s.cluster i).teSource q) (fun x => { x with sends := x.sends.drop 1 }))).modCluster i
    (fun c => { c with te := c.te.touch ((s.cluster i).teSource q) (s.sendMod h) h })

/-- A credit entry with a token more in its pack and a credit less. -/
def CreditEntry.pack1 (k : CreditEntry) (h : W64) (d : Tok) : CreditEntry :=
  { k with chan := sendChan h, credits := k.credits - 1, pack := k.pack ++ [d] }

theorem State.sendTouched_te {s : State} {i q : Nat} {h : W64} {k : CreditEntry} (hcredit : (s.cluster i).te.credit = [k])
    (his : k.is ((s.cluster i).teSource q) (s.sendMod h) h = true) : ((s.sendTouched i q h).cluster i).te = ((s.cluster i).tePop q 2).te := by
  rw [State.sendTouched, State.cluster_modCluster_same, State.cluster_setCluster_same]
  exact Te.touch_single (((s.cluster i).tePop_te q 2).1.trans hcredit) his

/-- A token of a SEND pair joins the pack of its entry, which holds fewer than six. -/
theorem State.teSend_packs {s : State} {i q : Nat} {a d : Tok} {k : CreditEntry} (hclean : a.poison = false) (hgood : s.sendBad a.data = false)
    (hcredit : ((s.sendTouched i q a.data).cluster i).te.credit = [k]) (hlive : k.failed = false)
    (hchan : k.chan = sendChan a.data) (hpack : k.pack.length < 6) (htag : d.tag = .data) :
    s.teSend i q a d = (s.sendTouched i q a.data).modCluster i
      (fun c => { c with te := { c.te with credit := modAt (fun e => e.pack1 a.data d) c.te.credit 0 } }) := by
  have hstays : ¬(6 ≤ k.pack.length ∨ d.tag = .last ∨ d.tag = .mark) := by
    rw [htag]
    simp only [reduceCtorEq, or_false]
    omega
  have hlen : ((s.sendTouched i q a.data).cluster i).te.credit.length - 1 = 0 := by rw [hcredit]; rfl
  have hentry : ((s.sendTouched i q a.data).cluster i).te.credit[0]? = some k := by rw [hcredit]; rfl
  unfold State.sendTouched at hlen hentry
  unfold State.teSend
  simp only [hclean, hgood, Bool.false_eq_true, if_false, hlen, hentry, hlive, if_pos hchan, if_neg hstays]
  rfl

end Sys2Proof.Machine
end

section
namespace Sys2Proof.Machine

theorem OnlyCluster.sendTouched (s : State) (i q : Nat) (h : W64) : OnlyCluster s (s.sendTouched i q h) i :=
  (OnlyCluster.setCluster s i _).trans (OnlyCluster.modCluster _ i _)

theorem exec_teSendUnit_packs {s : State} {c : ClusterId} {q : Fin 8} {a d : Tok} {k : CreditEntry} (hnext : s.teNext c.val = some (q.val, false, [a, d]))
    (hclean : a.poison = false) (hgood : s.sendBad a.data = false) (hcredit : (s.cluster c.val).te.credit = [k])
    (his : k.is ((s.cluster c.val).teSource q.val) (s.sendMod a.data) a.data = true) (hlive : k.failed = false)
    (hchan : k.chan = sendChan a.data) (hpack : k.pack.length < 6) (htag : d.tag = .data) :
    ∃ t, exec (.teSendUnit c q) s = .next t ∧
      (t.cluster c.val).te.credit = [{ k with credits := k.credits - 1, pack := k.pack ++ [d] }] ∧
      (t.cluster c.val).te.queue q.val = ((s.cluster c.val).te.queue q.val).drop 2 ∧
      (t.cluster c.val).te.send.out = (s.cluster c.val).te.send.out ∧
      OnlyCluster s t c.val := by
  have hte := State.sendTouched_te hcredit his
  obtain ⟨hkept, hsend, -⟩ := (s.cluster c.val).tePop_te q.val 2
  have hentry : ((s.sendTouched c.val q.val a.data).cluster c.val).te.credit = [k] := by rw [hte, hkept, hcredit]
  have hexec : exec (.teSendUnit c q) s = .next (s.teSend c.val q.val a d) := by
    change execTeSendUnit c q s = _
    unfold execTeSendUnit
    rw [hnext]
    exact if_pos rfl
  refine ⟨_, hexec, ?_⟩
  rw [State.teSend_packs hclean hgood hentry hlive hchan hpack htag, State.cluster_modCluster_same]
  refine ⟨?_, ?_, ?_, (OnlyCluster.sendTouched s _ _ _).trans (OnlyCluster.modCluster _ _ _)⟩
  · dsimp only
    rw [hentry, modAt, CreditEntry.pack1, ← hchan]
  · exact (congrArg (fun x : Te => x.queue q.val) hte).trans ((s.cluster c.val).tePop_queue q.val 2)
  · dsimp only
    rw [hte, hsend]

/-! ## TOKEN_PACK_TIMEOUT (R312) -/

/-- The tokens of a pack follow the payload's first word, whether START is set in it or not. -/
theorem startPkt_tokenPkt_tokens (s : State) (i : Nat) (k : CreditEntry) :
    sliceOf (startPkt (tokenPkt s i k)).pay 1 k.pack.length = k.pack.map (fun t => t.data) := by
  change ((k.pack.map (fun t : Tok => t.data) ++ List.replicate _ 0) ++ [_]).take k.pack.length = _
  rw [List.append_assoc]
  exact List.take_left' (List.length_map _)

theorem exec_tokenPackTimeout_sends {s : State} {c : ClusterId} {i : Nat} {k : CreditEntry} (hrun : s.runs c.val = true)
    (hget : (s.cluster c.val).te.credit[i]? = some k) (hpack : k.pack ≠ []) (hmod : k.dmod = s.modId) (haway : cidx k.dx k.dy ≠ c.val)
    (hstreams : (s.cluster c.val).te.send.streams = []) (hroom : (s.cluster c.val).te.send.inflight < 8192) :
    ∃ t, exec (.tokenPackTimeout c i) s = .next t ∧
      ((t.cluster c.val).te.credit[i]?).map (fun e => (e.pack, e.credits)) = some ([], k.credits) ∧
      (t.cluster c.val).te.send.out = (s.cluster c.val).te.send.out ++ [startPkt (tokenPkt s c.val k)] ∧
      OnlyCluster s t c.val := by
  have hexec : exec (.tokenPackTimeout c i) s = .next (s.sendPack c.val i) := if_pos hrun
  have hempty : k.pack.isEmpty = false := List.isEmpty_eq_false_iff.mpr hpack
  have hsend : s.sendPack c.val i = (s.modCluster c.val (fun c => { c with te := { c.te with
      credit := modAt (fun e => { e with pack := [] }) c.te.credit i } })).sendOrdered c.val .te [tokenPkt s c.val k] (tokenXfer k.src) := by
    unfold State.sendPack
    rw [hget]
    exact if_neg (by rw [hempty]; decide)
  refine ⟨_, hexec, ?_⟩
  rw [hsend]
  obtain ⟨l, hl⟩ := State.cluster_sendOrdered (s := s.modCluster c.val (fun c => { c with te := { c.te with
      credit := modAt (fun e => { e with pack := [] }) c.te.credit i } })) (i := c.val) (ps := [tokenPkt s c.val k])
    (by rw [State.cluster_modCluster_same]; exact hstreams) (List.cons_ne_nil _ _) (Nat.le_add_left 1 63)
    (by rw [State.cluster_modCluster_same]; exact hroom) (fun p hp => by rw [List.mem_singleton.mp hp]; exact .inr ⟨hmod, haway⟩) (tokenXfer k.src)
  rw [hl, State.cluster_modCluster_same]
  refine ⟨?_, rfl, (OnlyCluster.modCluster s _ _).trans (OnlyCluster.sendOrdered _ _ _ _ _)⟩
  exact (congrArg _ (modAt_getElem?_same _ _ _)).trans (by rw [hget]; rfl)

/-! ## CREDIT_RETURN_TIMEOUT (R312) -/

/-- A packet that leaves for another cluster of this module joins what the engine injects. -/
theorem State.cluster_sendPkt {s : State} {i : Nat} {p : Pkt} (hmod : p.dmod = s.modId) (haway : cidx p.dx p.dy ≠ i) :
    (s.sendPkt i .te p).cluster i = (s.cluster i).addOut [p] :=
  State.cluster_sendAll [p] s i (fun _ hq => by rw [List.mem_singleton.mp hq]; exact .inr ⟨hmod, haway⟩)

/-- The CREDIT packet that returns all that an entry owes (R297, R312). -/
def creditPkt (s : State) (i : Nat) (o : Owed) : Pkt :=
  { pktFrom s i 36 with
    opc := 8, dmod := o.smod, dy := o.sy, dx := o.sx, dep := 36, chan := 7
    pay := [BitVec.ofNat 64 (o.elem + o.queue * 2 ^ 5 + o.src * 2 ^ 8 + o.owed * 2 ^ 16), 0, 0, 0, 0, 0, 0, 1] }

/-- Sixteen owed credits or fewer are returned in one packet, and the entry is gone. -/
theorem State.sendCredits_all {s : State} {i n : Nat} {o : Owed} (hget : (s.cluster i).te.owed[n]? = some o) (howed : o.owed ≤ 16) :
    s.sendCredits i n = (s.modCluster i (fun c => { c with te := { c.te with owed := (s.cluster i).te.owed.eraseIdx n } })).sendPkt i .te (creditPkt s i o) := by
  unfold State.sendCredits
  rw [hget]
  dsimp only
  rw [min_eq_right howed, if_pos rfl]
  rfl

theorem exec_creditReturnTimeout_returns {s : State} {c : ClusterId} {i : Nat} {o : Owed} (hrun : s.runs c.val = true)
    (hget : (s.cluster c.val).te.owed[i]? = some o) (howed : o.owed ≤ 16) (hmod : o.smod = s.modId) (haway : cidx o.sx o.sy ≠ c.val) :
    ∃ t, exec (.creditReturnTimeout c i) s = .next t ∧
      (t.cluster c.val).te.owed = (s.cluster c.val).te.owed.eraseIdx i ∧
      (t.cluster c.val).te.send.out = (s.cluster c.val).te.send.out ++ [creditPkt s c.val o] ∧
      OnlyCluster s t c.val := by
  have hexec : exec (.creditReturnTimeout c i) s = .next (s.sendCredits c.val i) := if_pos hrun
  have hcluster := State.cluster_sendPkt (p := creditPkt s c.val o) (i := c.val)
    (s := s.modCluster c.val (fun k => { k with te := { k.te with owed := (s.cluster c.val).te.owed.eraseIdx i } })) hmod haway
  rw [State.cluster_modCluster_same] at hcluster
  refine ⟨_, hexec, ?_⟩
  rw [State.sendCredits_all hget howed, hcluster]
  exact ⟨rfl, rfl, (OnlyCluster.modCluster s _ _).trans (OnlyCluster.sendPkt _ _ _ _)⟩

end Sys2Proof.Machine
end

section
namespace Sys2Proof.Machine

/-! ## The end of a transfer that sent nothing (R315, R319) -/

/-- The cluster with a transfer's end counted, and recorded where it failed. -/
def Cluster.finishCounted (c : Cluster) (x : Xfer) (st : Nat) : Cluster :=
  let d := if st = 0 then c.count TE_CNT_XFER_CNT 1
    else (((c.count TE_CNT_REJ_CNT 1).wr TE_ERR_TAG_TAG x.tag).wr TE_ERR_TAG_STATUS st).wr TE_ERR_TAG_SRC x.src
  if 1 ≤ st ∧ st ≤ 5 then d.wr TE_EVENT_XFER_ERR 1 else d

/-- The cluster with a transfer's completion queued, dropped as stale, or dropped for want of a binding. -/
def Cluster.finishQueued (c : Cluster) (epoch : Nat) (x : Xfer) (st : Nat) : Cluster :=
  if x.cen = false then c
  else if x.epoch ≠ epoch then c.countStart TE_CNT_STALE_CNT 1
  else if c.rd (TE_CBIND_VALID.nth x.cbind) = 0 then c.count TE_CNT_REJ_CNT 1
  else { c with te := { c.te with done := c.te.done ++ [⟨x.tag, st, x.plate, x.delivered st, x.cbind, true, x.epoch⟩] } }

theorem State.teFinish_eq {s : State} {i : Nat} {x : Xfer} (status : Nat) (hkind : x.kind ≠ 4) (hstatus : x.status = 0) :
    s.teFinish i x status = (s.modSender i .te (fun z => z.dropItem x.id)).setCluster i
      ((((s.cluster i).setSender .te ((s.cluster i).te.send.dropItem x.id)).finishCounted x status).finishQueued
        ((s.region (regionOf i)).rd TCK_RSCHED_EPOCH) x status) := by
  unfold State.teFinish
  rw [hstatus, Nat.zero_max]
  dsimp only
  rw [if_neg hkind, State.cluster_modSender]
  rfl

theorem Cluster.finishCounted_keeps (c : Cluster) (x : Xfer) (st : Nat) : (c.finishCounted x st).te = c.te ∧ (c.finishCounted x st).mem = c.mem := by
  unfold Cluster.finishCounted
  constructor <;> split_ifs <;> rfl

theorem Cluster.finishQueued_none (c : Cluster) (epoch : Nat) {x : Xfer} (st : Nat) (hcen : x.cen = false) : c.finishQueued epoch x st = c := if_pos hcen

theorem Cluster.finishQueued_done {c : Cluster} {x : Xfer} (st : Nat) (hcen : x.cen = true) (hvalid : c.rd (TE_CBIND_VALID.nth x.cbind) ≠ 0) :
    (c.finishQueued x.epoch x st).te.done = c.te.done ++ [⟨x.tag, st, x.plate, x.delivered st, x.cbind, true, x.epoch⟩] := by
  unfold Cluster.finishQueued
  rw [if_neg (Bool.ne_false_iff.mpr hcen), if_neg (not_not_intro rfl), if_neg hvalid]

theorem Cluster.finishQueued_keeps (c : Cluster) (epoch : Nat) (x : Xfer) (st : Nat) :
    (∃ l, (c.finishQueued epoch x st).te = { c.te with done := l }) ∧ (c.finishQueued epoch x st).mem = c.mem ∧
    (c.finishQueued epoch x st).tally TE_CNT_XFER_CNT = c.tally TE_CNT_XFER_CNT := by
  unfold Cluster.finishQueued
  split_ifs
  · exact ⟨⟨_, rfl⟩, rfl, rfl⟩
  · exact ⟨⟨_, rfl⟩, rfl, rfl⟩
  · exact ⟨⟨_, rfl⟩, rfl, Cluster.tally_count_ne c _ _ _ (by decide)⟩
  · exact ⟨⟨_, rfl⟩, rfl, rfl⟩

/-- A failure's record: the event, and the tag and the status that TE_ERR_TAG keeps. -/
theorem Cluster.finishCounted_failed (c : Cluster) (x : Xfer) {st : Nat} (hlow : 1 ≤ st) (hhigh : st ≤ 3) (htag : x.tag < 2 ^ 16) :
    (c.finishCounted x st).rd TE_ERR_TAG_STATUS = st ∧ (c.finishCounted x st).rd TE_ERR_TAG_TAG = x.tag ∧
    (c.finishCounted x st).rd TE_EVENT_XFER_ERR = 1 := by
  let d := ((c.count TE_CNT_REJ_CNT 1).wr TE_ERR_TAG_TAG x.tag).wr TE_ERR_TAG_STATUS st
  have hrec : c.finishCounted x st = (d.wr TE_ERR_TAG_SRC x.src).wr TE_EVENT_XFER_ERR 1 := by
    unfold Cluster.finishCounted
    rw [if_neg (show ¬st = 0 by omega), if_pos ⟨hlow, by omega⟩]
  rw [hrec]
  refine ⟨?_, ?_, Cluster.rd_wr_same _ _ _ (by decide)⟩
  · rw [Cluster.rd_wr_ne _ _ _ _ (by decide), Cluster.rd_wr_disjoint _ _ _ _ (by decide) (by decide), Cluster.rd_wr_same _ _ _ (by decide)]
    exact Nat.mod_eq_of_lt (Nat.lt_of_le_of_lt hhigh (by decide))
  · rw [Cluster.rd_wr_ne _ _ _ _ (by decide), Cluster.rd_wr_disjoint _ _ _ _ (by decide) (by decide),
      Cluster.rd_wr_disjoint _ _ _ _ (by decide) (by decide), Cluster.rd_wr_same _ _ _ (by decide)]
    exact Nat.mod_eq_of_lt htag

theorem State.descStatus_le (s : State) (i : Nat) (d : Desc) : s.descStatus i d ≤ 3 := by
  unfold State.descStatus
  split_ifs <;> decide

theorem Desc.tag_lt (d : Desc) : d.tag < 2 ^ 16 := Nat.mod_lt _ (by decide)

/-- The cluster at which a descriptor has left queue q and its item, never tracked, is dropped. -/
def Cluster.descTaken (c : Cluster) (q : Nat) : Cluster :=
  (c.tePop q 4).setSender .te ((c.tePop q 4).te.send.dropItem noItem)

theorem Cluster.descTaken_keeps (c : Cluster) (q : Nat) : (c.descTaken q).te.queue q = (c.te.queue q).drop 4 ∧ (c.descTaken q).te.send.out = c.te.send.out ∧
    (c.descTaken q).te.done = c.te.done ∧ (c.descTaken q).mem = c.mem ∧ (c.descTaken q).regs = c.regs ∧ (c.descTaken q).cnt = c.cnt := by
  obtain ⟨-, hsend, hdone⟩ := c.tePop_te q 4
  obtain ⟨hregs, hcnt, hmem, -, -⟩ := c.tePop_keeps q 4
  have hout := congrArg Sender.out hsend
  exact ⟨c.tePop_queue q 4, hout, hdone, hmem, hregs, hcnt⟩

/-- The state after a descriptor that ends at once. -/
theorem State.teFinish_desc (s : State) (i q : Nat) (d : Desc) {kind m dy dx chan : Nat} (status : Nat) (hkind : kind ≠ 4) :
    OnlyCluster s ((s.modCluster i (fun k => k.tePop q 4)).teFinish i (d.item kind m dy dx chan) status) i ∧
    ((s.modCluster i (fun k => k.tePop q 4)).teFinish i (d.item kind m dy dx chan) status).cluster i =
      (((s.cluster i).descTaken q).finishCounted (d.item kind m dy dx chan) status).finishQueued ((s.region (regionOf i)).rd TCK_RSCHED_EPOCH)
        (d.item kind m dy dx chan) status := by
  rw [State.teFinish_eq (x := d.item kind m dy dx chan) status hkind rfl, State.cluster_setCluster_same, State.cluster_modCluster_same]
  exact ⟨(OnlyCluster.modCluster s _ _).trans ((OnlyCluster.modSender _ _ _ _).trans (OnlyCluster.setCluster _ _ _)), rfl⟩

/-! ## TE_NOP (R315, R319) -/

theorem exec_teNop_counts {s : State} {c : ClusterId} {q : Fin 8} {d : Desc}
    (hdesc : s.teDesc c.val q.val (fun o => o == 0 || decide (3 < o)) = some d) (hclean : d.poison = false) (hgood : s.descStatus c.val d = 0) :
    ∃ t, exec (.teNop c q) s = .next t ∧
      (t.cluster c.val).te.queue q.val = ((s.cluster c.val).te.queue q.val).drop 4 ∧
      (t.cluster c.val).tally TE_CNT_XFER_CNT = ((s.cluster c.val).tally TE_CNT_XFER_CNT + 1) % 2 ^ 32 ∧
      (d.cen = false → (t.cluster c.val).te.done = (s.cluster c.val).te.done) ∧
      (d.cen = true → d.epoch = (s.region (regionOf c.val)).rd TCK_RSCHED_EPOCH → (s.cluster c.val).rd (TE_CBIND_VALID.nth d.cbind) ≠ 0 →
      (t.cluster c.val).te.done = (s.cluster c.val).te.done ++ [⟨d.tag, 0, d.plate, 0, d.cbind, true, d.epoch⟩]) ∧
      OnlyCluster s t c.val ∧ (t.cluster c.val).mem = (s.cluster c.val).mem := by
  have hexec : exec (.teNop c q) s = .next ((s.modCluster c.val (fun k => k.tePop q.val 4)).teFinish c.val (d.item 0 s.modId 0 0 0) 0) := by
    change execTeNop c q s = _
    unfold execTeNop
    rw [hdesc]
    dsimp only
    rw [hclean, hgood]
    rfl
  obtain ⟨honly, hcluster⟩ := s.teFinish_desc c.val q.val d (kind := 0) (m := s.modId) (dy := 0) (dx := 0) (chan := 0) 0 (by decide)
  have hcounted : ((s.cluster c.val).descTaken q.val).finishCounted (d.item 0 s.modId 0 0 0) 0 = ((s.cluster c.val).descTaken q.val).count TE_CNT_XFER_CNT 1 := rfl
  obtain ⟨hqueue, -, hdone, hmem, hregs, hcnt⟩ := (s.cluster c.val).descTaken_keeps q.val
  rw [hcounted] at hcluster
  obtain ⟨⟨l, hl⟩, hkept, htally⟩ := (((s.cluster c.val).descTaken q.val).count TE_CNT_XFER_CNT 1).finishQueued_keeps
    ((s.region (regionOf c.val)).rd TCK_RSCHED_EPOCH) (d.item 0 s.modId 0 0 0) 0
  refine ⟨_, hexec, ?_, ?_, fun hcen => ?_, fun hcen hepoch hvalid => ?_, honly, ?_⟩
  · rw [hcluster, hl]
    exact hqueue
  · rw [hcluster, htally, Cluster.tally_count_same _ _ _ (by decide), Cluster.tally, hcnt]
  · rw [hcluster, Cluster.finishQueued_none _ _ _ hcen]
    exact hdone
  · have hbound : (((s.cluster c.val).descTaken q.val).count TE_CNT_XFER_CNT 1).rd (TE_CBIND_VALID.nth d.cbind) ≠ 0 := by
      rw [Cluster.rd_count, Cluster.rd, hregs]
      exact hvalid
    rw [hcluster, ← hepoch]
    exact (Cluster.finishQueued_done (x := d.item 0 s.modId 0 0 0) 0 hcen hbound).trans (congrArg (· ++ _) hdone)
  · rw [hcluster, hkept]
    exact hmem

/-! ## A PUT that fails its checks (R315) -/

theorem exec_put_refused {s : State} {c : ClusterId} {q : Fin 8} {d : Desc} {u : List Nat} (hdesc : s.teDesc c.val q.val (fun o => o == 1) = some d)
    (hclean : d.poison = false) (hbad : s.descStatus c.val d ≠ 0) (hcen : d.cen = false) :
    ∃ t, exec (.put c q u) s = .next t ∧
      (t.cluster c.val).te.queue q.val = ((s.cluster c.val).te.queue q.val).drop 4 ∧
      (t.cluster c.val).te.send.out = (s.cluster c.val).te.send.out ∧
      (t.cluster c.val).rd TE_ERR_TAG_STATUS = s.descStatus c.val d ∧
      (t.cluster c.val).rd TE_ERR_TAG_TAG = d.tag ∧
      (t.cluster c.val).rd TE_EVENT_XFER_ERR = 1 ∧
      (t.cluster c.val).mem = (s.cluster c.val).mem ∧
      OnlyCluster s t c.val := by
  let x := d.item 1 (d.dmod s.modId) (addrY d.addr) (addrX d.addr) d.chan
  have hexec : exec (.put c q u) s = .next ((s.modCluster c.val (fun k => k.tePop q.val 4)).teFinish c.val x (s.descStatus c.val d)) := by
    change execPut c q u s = _
    unfold execPut
    rw [hdesc]
    dsimp only
    rw [hclean]
    exact if_pos hbad
  obtain ⟨honly, hcluster⟩ := s.teFinish_desc c.val q.val d (kind := 1) (m := d.dmod s.modId) (dy := addrY d.addr) (dx := addrX d.addr) (chan := d.chan)
    (s.descStatus c.val d) (by decide)
  obtain ⟨hqueue, hout, -, hmem, -, -⟩ := (s.cluster c.val).descTaken_keeps q.val
  obtain ⟨hte, hkept⟩ := ((s.cluster c.val).descTaken q.val).finishCounted_keeps x (s.descStatus c.val d)
  obtain ⟨hstatus, htag, hevent⟩ := ((s.cluster c.val).descTaken q.val).finishCounted_failed x (Nat.pos_of_ne_zero hbad) (s.descStatus_le c.val d) d.tag_lt
  rw [Cluster.finishQueued_none _ _ _ hcen] at hcluster
  refine ⟨_, hexec, ?_⟩
  rw [hcluster]
  refine ⟨?_, ?_, hstatus, htag, hevent, hkept.trans hmem, honly⟩
  · exact (congrArg (fun y : Te => y.queue q.val) hte).trans hqueue
  · exact (congrArg (fun y : Te => y.send.out) hte).trans hout

end Sys2Proof.Machine
end

section
namespace Sys2Proof.Machine

/-! ## A granule of cluster memory that is sent (R265, R316) -/

theorem OnlyClusterEvents.trans_only {s t u : State} {c : Nat} (h : OnlyClusterEvents s t c) (k : OnlyCluster t u c) : OnlyClusterEvents s u c := by
  obtain ⟨hrest, hothers, hregions, hevents⟩ := h
  obtain ⟨hframe, hclusters⟩ := k
  have hregion : ∀ j, u.region j = t.region j := region_of_onlyClusters hframe
  refine ⟨?_, fun j hj => (hclusters j hj).trans (hothers j hj), fun j hj => (hregion j).trans (hregions j hj), by rw [hregion]; exact hevents⟩
  exact (congrArg (fun x : State => { x with clusters := s.clusters, regions := s.regions }) hframe).trans hrest

theorem OnlyClusterEvents.modId {s t : State} {c : Nat} (h : OnlyClusterEvents s t c) : t.modId = s.modId := by
  have hdome := congrArg State.modId h.1
  exact hdome

theorem Cluster.tePop_clean (c : Cluster) (q n a k : Nat) (use : Nat → Bool) :
    (c.tePop q n).rowsPoisoned a k = c.rowsPoisoned a k ∧ (c.tePop q n).badBytes a k use = c.badBytes a k use := by
  obtain ⟨l, hl⟩ := c.tePop_eq q n
  rw [hl]
  exact ⟨rfl, rfl⟩

@[simp] theorem Cluster.grantRd_te (c : Cluster) (cls row n : Nat) : (c.grantRd cls row n).te = c.te := rfl

/-- The load of one granule, clean, that no permutation gathers: its bytes, with one row read. -/
theorem ClusterBecomes.rawLoad_one {s t : State} {c : Nat} {x : Cluster} {evs : List (Nat × Nat)} (h : ClusterBecomes s t c x evs) (cls : Nat) {d : Desc}
    (hperm : d.perm = false) (hone : d.ngran = 1) (hpoison : x.rowsPoisoned (64 * d.loc) 64 = false)
    (hbad : x.badBytes (64 * d.loc) 64 (fun _ => true) = []) :
    (t.rawLoad c cls d).1 = ⟨0, [(Mem.bytes x.mem (64 * d.loc) 64, false, none)]⟩ ∧
      ClusterBecomes s (t.rawLoad c cls d).2 c (x.grantRd cls (64 * d.loc / 512) 1) ((3, 1) :: evs) := by
  have hfits : min 1 (8 - 64 * d.loc % 512 / 64) = 1 := by omega
  obtain ⟨hbytes, hread⟩ := h.memReadUse cls (use := fun _ => true) (a := 64 * d.loc) (n := 64) (by omega) hpoison hbad
  have hload : t.rawLoad c cls d = (⟨0, ((chunksOf 64 1 (t.memRead c cls (64 * d.loc) 64).1.1).map
      (fun g => (g, (t.memRead c cls (64 * d.loc) 64).1.2, none)))⟩, (t.memRead c cls (64 * d.loc) 64).2) := by
    unfold State.rawLoad
    rw [hperm, hone]
    simp only [Bool.false_eq_true, if_false, State.teRead, Nat.one_ne_zero, if_true, hfits, List.append_nil, List.map_map]
    rfl
  have hchunk := chunksOf_bytes x.mem 64 1 (64 * d.loc)
  rw [hload]
  refine ⟨?_, hread⟩
  rw [State.memRead, hbytes]
  dsimp only
  rw [hchunk]
  rfl

/-! ## PUT (R316, R318) -/

/-- A transfer of one granule, with no stream open: its item is tracked, and its OPEN and its DATA packet leave. -/
theorem State.startXfer_one {s : State} {i : Nat} {x y : Xfer} (hy : y = { x with id := (s.cluster i).te.send.serial, ngran := 1 }) (hkind : y.kind = 1)
    (hmod : y.dmod = s.modId) (haway : cidx y.dx y.dy ≠ i) (hstreams : (s.cluster i).te.send.streams = [])
    (hroom : (s.cluster i).te.send.inflight ≤ 8190) (space gran add : Nat) (fbe lbe : W64) (bs : List Byte) :
    ((s.startXfer i .te x space gran add fbe lbe [(bs, false, none)]).cluster i).te.send.out = (s.cluster i).te.send.out ++
      numberPkts true 0 (openPkt s i .te y space gran add fbe lbe :: dataPkts s i .te y [(bs, false, none)]) ∧
    ((s.startXfer i .te x space gran add fbe lbe [(bs, false, none)]).cluster i).te.send.items = (s.cluster i).te.send.items ++ [y] ∧
    ((s.startXfer i .te x space gran add fbe lbe [(bs, false, none)]).cluster i).te.queue = (s.cluster i).te.queue ∧
    ((s.startXfer i .te x space gran add fbe lbe [(bs, false, none)]).cluster i).mem = (s.cluster i).mem := by
  let u := s.modSender i .te (fun z => { z with items := z.items ++ [y], serial := z.serial + 1 })
  have hcluster : u.cluster i = (s.cluster i).setSender .te { (s.cluster i).te.send with
      items := (s.cluster i).te.send.items ++ [y], serial := (s.cluster i).te.send.serial + 1 } := State.cluster_modSender s i .te _
  have hinflight : (u.cluster i).te.send.inflight = (s.cluster i).te.send.inflight := by
    rw [hcluster]
    unfold Sender.inflight
    dsimp only [Cluster.setSender]
    rw [List.filter_append, List.filter_cons_of_neg (by rw [hkind]; decide), List.filter_nil, List.append_nil]
  have hout : u.Outbound i (openPkt s i .te y space gran add fbe lbe :: dataPkts s i .te y [(bs, false, none)]) := by
    intro p hp
    obtain rfl | hp := List.mem_cons.mp hp
    · exact .inr ⟨hmod, haway⟩
    · rw [List.mem_singleton.mp hp]
      exact .inr ⟨hmod, haway⟩
  obtain ⟨l, hl⟩ := State.cluster_sendOrdered (s := u) (i := i)
    (ps := openPkt s i .te y space gran add fbe lbe :: dataPkts s i .te y [(bs, false, none)]) (by rw [hcluster]; exact hstreams) (List.cons_ne_nil _ _) (Nat.le_add_left 2 62)
    (by rw [hinflight]; exact Nat.add_le_add_right hroom 2) hout y.id
  have hstart : s.startXfer i .te x space gran add fbe lbe [(bs, false, none)] =
      u.sendOrdered i .te (openPkt s i .te y space gran add fbe lbe :: dataPkts s i .te y [(bs, false, none)]) y.id := by
    subst hy
    rfl
  rw [hstart, hl, hcluster]
  exact ⟨rfl, rfl, rfl, rfl⟩

theorem OnlyCluster.startXfer (s : State) (i : Nat) (a : Agent) (x : Xfer) (space gran add : Nat) (fbe lbe : W64)
    (grans : List (List Byte × Bool × Option Nat)) : OnlyCluster s (s.startXfer i a x space gran add fbe lbe grans) i :=
  (OnlyCluster.modSender s i a _).trans (OnlyCluster.sendOrdered _ i a _ _)

/-- The item of a PUT of one granule, numbered n. -/
def Desc.putItem (d : Desc) (own n : Nat) : Xfer :=
  { d.item 1 (d.dmod own) (addrY d.addr) (addrX d.addr) d.chan with dep := spaceEndpoint (addrSpace d.addr), id := n, ngran := 1 }

theorem exec_put_one {s : State} {c : ClusterId} {q : Fin 8} {d : Desc} (hdesc : s.teDesc c.val q.val (fun o => o == 1) = some d)
    (hclean : d.poison = false) (hgood : s.descStatus c.val d = 0) (hperm : d.perm = false) (hraw : d.plate = false) (hone : d.ngran = 1)
    (hmod : d.dmod s.modId = s.modId) (haway : cidx (addrX d.addr) (addrY d.addr) ≠ c.val) (hstreams : (s.cluster c.val).te.send.streams = [])
    (hroom : (s.cluster c.val).te.send.inflight ≤ 8190) (hpoison : (s.cluster c.val).rowsPoisoned (64 * d.loc) 64 = false)
    (hbad : (s.cluster c.val).badBytes (64 * d.loc) 64 (fun _ => true) = []) :
    ∃ t u, exec (.put c q []) s = .next t ∧
      (t.cluster c.val).te.queue q.val = ((s.cluster c.val).te.queue q.val).drop 4 ∧
      (t.cluster c.val).te.send.out = (s.cluster c.val).te.send.out ++ numberPkts true 0
        (openPkt u c.val .te (d.putItem s.modId (s.cluster c.val).te.send.serial) (addrSpace d.addr) (addrOff d.addr / 64) d.add (BitVec.allOnes 64)
            (BitVec.allOnes 64) ::
          dataPkts u c.val .te (d.putItem s.modId (s.cluster c.val).te.send.serial) [(Mem.bytes (s.cluster c.val).mem (64 * d.loc) 64, false, none)]) ∧
      (t.cluster c.val).te.send.items = (s.cluster c.val).te.send.items ++ [d.putItem s.modId (s.cluster c.val).te.send.serial] ∧
      (t.cluster c.val).mem = (s.cluster c.val).mem ∧
      OnlyClusterEvents s t c.val := by
  obtain ⟨-, hsend, -⟩ := (s.cluster c.val).tePop_te q.val 4
  obtain ⟨-, -, hmem, -, -⟩ := (s.cluster c.val).tePop_keeps q.val 4
  obtain ⟨hkpoison, hkbad⟩ := (s.cluster c.val).tePop_clean q.val 4 (64 * d.loc) 64 (fun _ => true)
  have htaken : ClusterBecomes s (s.modCluster c.val (fun k => k.tePop q.val 4)) c.val ((s.cluster c.val).tePop q.val 4) [] := (ClusterBecomes.refl s c.val).modCluster _
  obtain ⟨hload, hread⟩ := htaken.rawLoad_one 2 hperm hone (hkpoison.trans hpoison) (hkbad.trans hbad)
  generalize hu : ((s.modCluster c.val (fun k => k.tePop q.val 4)).rawLoad c.val 2 d).2 = u at hread
  have hpair : (s.modCluster c.val (fun k => k.tePop q.val 4)).rawLoad c.val 2 d = (⟨0, [(Mem.bytes (s.cluster c.val).mem (64 * d.loc) 64, false, none)]⟩, u) :=
    Prod.ext (hload.trans (by rw [hmem])) hu
  have hupset : (s.modCluster c.val (fun k => k.tePop q.val 4)).upset c.val [] = s.modCluster c.val (fun k => k.tePop q.val 4) := rfl
  have hexec : exec (.put c q []) s = .next (u.startXfer c.val .te { d.item 1 (d.dmod s.modId) (addrY d.addr) (addrX d.addr) d.chan with
      dep := spaceEndpoint (addrSpace d.addr) } (addrSpace d.addr) (addrOff d.addr / 64) d.add (BitVec.allOnes 64) (BitVec.allOnes 64)
      [(Mem.bytes (s.cluster c.val).mem (64 * d.loc) 64, false, none)]) := by
    change execPut c q [] s = _
    unfold execPut
    rw [hdesc]
    dsimp only
    rw [hclean, hraw, hgood, if_neg (not_and_of_not_right _ (not_and_of_not_left _ haway)), hupset]
    simp only [Bool.false_eq_true, if_false, hpair]
    rfl
  have hcluster := hread.cluster
  have hte : (u.cluster c.val).te = ((s.cluster c.val).tePop q.val 4).te := by rw [hcluster, Cluster.grantRd_te]
  obtain ⟨hout, hitems, hqueue, hkept⟩ := State.startXfer_one (s := u) (i := c.val) (x := { d.item 1 (d.dmod s.modId) (addrY d.addr) (addrX d.addr) d.chan with
      dep := spaceEndpoint (addrSpace d.addr) }) (y := d.putItem s.modId (s.cluster c.val).te.send.serial)
    (by rw [hte, hsend]; rfl) rfl (hmod.trans hread.frame.modId.symm) haway (by rw [hte, hsend]; exact hstreams) (by rw [hte, hsend]; exact hroom)
    (addrSpace d.addr) (addrOff d.addr / 64) d.add (BitVec.allOnes 64) (BitVec.allOnes 64) (Mem.bytes (s.cluster c.val).mem (64 * d.loc) 64)
  rw [hte, hsend] at hout hitems
  rw [hte] at hqueue
  rw [hcluster, Cluster.grantRd_mem, hmem] at hkept
  exact ⟨_, u, hexec, (congrFun hqueue q.val).trans ((s.cluster c.val).tePop_queue q.val 4), hout, hitems, hkept,
    hread.frame.trans_only (OnlyCluster.startXfer _ _ _ _ _ _ _ _ _ _)⟩

end Sys2Proof.Machine
end

section
namespace Sys2Proof.Machine

/-! ## GET (R316, R318) -/

theorem setTag_route (p : Pkt) (own tag : Nat) : (setTag p own tag).opc = p.opc ∧ (setTag p own tag).dmod = p.dmod ∧ (setTag p own tag).dy = p.dy ∧
    (setTag p own tag).dx = p.dx ∧ (setTag p own tag).dep = p.dep ∧ (setTag p own tag).chan = p.chan := by
  unfold setTag
  split <;> exact ⟨rfl, rfl, rfl, rfl, rfl, rfl⟩

/-- The engine's items with a new one, which takes the next number. -/
def Sender.addItem (z : Sender) (f : Nat → Xfer) : Sender := { z with items := z.items ++ [f z.serial], serial := z.serial + 1 }

/-- An item is tracked and packets go out: what the engine injects and tracks, and what stays as it is. -/
theorem State.track_sends {s : State} {i : Nat} (f : Nat → Xfer) {l : List Pkt} (hout : s.Outbound i l) {t : State}
    (ht : t = l.foldl (fun t p => t.sendPkt i .te p) (s.modSender i .te (fun z => z.addItem f))) :
    (t.cluster i).te.send.out = (s.cluster i).te.send.out ++ l ∧
      (t.cluster i).te.send.items = (s.cluster i).te.send.items ++ [f (s.cluster i).te.send.serial] ∧
      (t.cluster i).te.queue = (s.cluster i).te.queue ∧ (t.cluster i).mem = (s.cluster i).mem ∧ OnlyCluster s t i := by
  have hsent := State.cluster_sendAll l (s.modSender i .te (fun z => z.addItem f)) i hout
  rw [State.cluster_modSender] at hsent
  rw [ht, hsent]
  exact ⟨rfl, rfl, rfl, rfl, (OnlyCluster.modSender s i _ _).trans (OnlyCluster.foldl (fun u p => OnlyCluster.sendPkt u i .te p) _ _)⟩

/-- The GET packet of a descriptor, before its TAG (R297). -/
def getPkt (s : State) (i : Nat) (d : Desc) : Pkt :=
  { pktFrom s i 36 with
    opc := 6, dmod := d.dmod s.modId, dy := addrY d.addr, dx := addrX d.addr, dep := 36, chan := 4 + d.chan
    pay := pay8 [BitVec.ofNat 64 (addrOff d.addr + addrSpace d.addr * 2 ^ 29 + d.ngran * 2 ^ 32 + bit1 d.plate * 2 ^ 48 + d.chan * 2 ^ 49),
      BitVec.ofNat 64 (d.loc + d.tag * 2 ^ 16)] }

/-- The item of a GET, numbered n, under a TAG. -/
def Desc.getItem (d : Desc) (own tag n : Nat) : Xfer :=
  { d.item 2 (d.dmod own) (addrY d.addr) (addrX d.addr) d.chan with id := n, members := tag, ngran := d.ngran, owner := addrSpace d.addr }

theorem exec_teGetXfer_sends {s : State} {c : ClusterId} {q : Fin 8} {d : Desc} (hdesc : s.teDesc c.val q.val (fun o => o == 2) = some d)
    (hclean : d.poison = false) (hgood : s.descStatus c.val d = 0) (hmod : d.dmod s.modId = s.modId)
    (haway : cidx (addrX d.addr) (addrY d.addr) ≠ c.val) :
    ∃ t p tag, exec (.teGetXfer c q) s = .next t ∧
      (t.cluster c.val).te.queue q.val = ((s.cluster c.val).te.queue q.val).drop 4 ∧
      (p.opc, p.dy, p.dx, p.dep, p.chan) = (6, addrY d.addr, addrX d.addr, 36, 4 + d.chan) ∧
      (t.cluster c.val).te.send.out = (s.cluster c.val).te.send.out ++ [p] ∧
      (t.cluster c.val).te.send.items = (s.cluster c.val).te.send.items ++ [d.getItem s.modId tag (s.cluster c.val).te.send.serial] ∧
      (t.cluster c.val).mem = (s.cluster c.val).mem ∧
      OnlyCluster s t c.val := by
  let u := s.modCluster c.val (fun k => k.tePop q.val 4)
  let tag := (u.cluster c.val).te.send.freshTag s.modId (d.dmod s.modId)
  let p := setTag (getPkt s c.val d) s.modId tag
  have hexec : exec (.teGetXfer c q) s = .next ((u.modSender c.val .te (fun z => z.addItem (d.getItem s.modId tag))).sendPkt c.val .te p) := by
    change execTeGetXfer c q s = _
    unfold execTeGetXfer
    rw [hdesc]
    simp only [hclean, hgood, Bool.false_eq_true, if_false, ne_eq, not_true_eq_false]
    rfl
  obtain ⟨hopc, hdmod, hdy, hdx, hdep, hchan⟩ := setTag_route (getPkt s c.val d) s.modId tag
  have hroute : u.Outbound c.val [p] := fun r hr => by
    rw [List.mem_singleton.mp hr]
    exact .inr ⟨hdmod.trans hmod, by rw [hdx, hdy]; exact haway⟩
  obtain ⟨hout, hitems, hqueue, hkept, honly⟩ := State.track_sends (d.getItem s.modId tag) hroute rfl
  obtain ⟨-, hsend, -⟩ := (s.cluster c.val).tePop_te q.val 4
  obtain ⟨-, -, hmem, -, -⟩ := (s.cluster c.val).tePop_keeps q.val 4
  have hcluster : u.cluster c.val = (s.cluster c.val).tePop q.val 4 := State.cluster_modCluster_same s c.val _
  rw [hcluster, hsend] at hout hitems
  rw [hcluster] at hqueue hkept
  exact ⟨_, p, tag, hexec, (congrFun hqueue q.val).trans ((s.cluster c.val).tePop_queue q.val 4),
    Prod.ext hopc (Prod.ext hdy (Prod.ext hdx (Prod.ext hdep hchan))), hout, hitems, hkept.trans hmem, (OnlyCluster.modCluster s _ _).trans honly⟩

end Sys2Proof.Machine
end

section
namespace Sys2Proof.Machine

/-! ## MCAST (R295, R320) -/

/-- A packet to the rectangle of a descriptor's group. -/
def mcTo (s : State) (i : Nat) (d : Desc) (p : Pkt) : Pkt :=
  setRect p ((s.cluster i).rd (TE_MC_LO_X0.nth d.group)) ((s.cluster i).rd (TE_MC_LO_Y0.nth d.group)) ((s.cluster i).rd (TE_MC_LO_X1.nth d.group))
    ((s.cluster i).rd (TE_MC_LO_Y1.nth d.group))

/-- The fence of a multicast (R297). -/
def fencePkt (s : State) (i : Nat) (d : Desc) : Pkt :=
  { pktFrom s i 36 with
    opc := 11, dmod := 0, chan := 4 + d.chan, mcast := true
    pay := pay8 [BitVec.ofNat 64 (d.ngran + d.tag * 2 ^ 16 + (s.cluster i).rd (TE_MC_HI_MGEN.nth d.group) * 2 ^ 48)] }

/-- The packets of a multicast of one granule. -/
def mcastPkts (s : State) (i : Nat) (d : Desc) (bs : List Byte) : List Pkt :=
  [mcTo s i d (mdataPkt s i (4 + d.chan) (addrOff d.addr / 64) (bs, false, none)), mcTo s i d (fencePkt s i d)]

/-- The item of a multicast, numbered n, of a group with some members. -/
def Desc.mcastItem (d : Desc) (own members n : Nat) : Xfer := { d.item 3 own 0 0 (4 + d.chan) with id := n, members := members, ngran := d.ngran }

theorem outbound_mcastPkts (s u : State) (i : Nat) (d : Desc) (bs : List Byte) : u.Outbound i (mcastPkts s i d bs) :=
  fun p hp => .inl (by obtain rfl | hp := List.mem_cons.mp hp; exacts [rfl, by rw [List.mem_singleton.mp hp]; rfl])

theorem exec_mcast_one {s : State} {c : ClusterId} {q : Fin 8} {d : Desc} (hdesc : s.teDesc c.val q.val (fun o => o == 3) = some d)
    (hclean : d.poison = false) (hgood : s.descStatus c.val d = 0) (hperm : d.perm = false) (hone : d.ngran = 1)
    (hmembers : (s.cluster c.val).rd (TE_MC_HI_MEMBERS.nth d.group) ≠ 0) (hpoison : (s.cluster c.val).rowsPoisoned (64 * d.loc) 64 = false)
    (hbad : (s.cluster c.val).badBytes (64 * d.loc) 64 (fun _ => true) = []) :
    ∃ t, exec (.mcast c q []) s = .next t ∧
      (t.cluster c.val).te.queue q.val = ((s.cluster c.val).te.queue q.val).drop 4 ∧
      (t.cluster c.val).te.send.out =
        (s.cluster c.val).te.send.out ++ mcastPkts s c.val d (Mem.bytes (s.cluster c.val).mem (64 * d.loc) 64) ∧
      (t.cluster c.val).te.send.items = (s.cluster c.val).te.send.items ++
        [d.mcastItem s.modId ((s.cluster c.val).rd (TE_MC_HI_MEMBERS.nth d.group)) (s.cluster c.val).te.send.serial] ∧
      OnlyClusterEvents s t c.val := by
  obtain ⟨-, hsend, -⟩ := (s.cluster c.val).tePop_te q.val 4
  obtain ⟨-, -, hmem, -, -⟩ := (s.cluster c.val).tePop_keeps q.val 4
  obtain ⟨hkpoison, hkbad⟩ := (s.cluster c.val).tePop_clean q.val 4 (64 * d.loc) 64 (fun _ => true)
  have htaken : ClusterBecomes s (s.modCluster c.val (fun k => k.tePop q.val 4)) c.val ((s.cluster c.val).tePop q.val 4) [] :=
    (ClusterBecomes.refl s c.val).modCluster _
  obtain ⟨hload, hread⟩ := htaken.rawLoad_one 2 hperm hone (hkpoison.trans hpoison) (hkbad.trans hbad)
  generalize hu : ((s.modCluster c.val (fun k => k.tePop q.val 4)).rawLoad c.val 2 d).2 = u at hread
  have hpair : (s.modCluster c.val (fun k => k.tePop q.val 4)).rawLoad c.val 2 d = (⟨0, [(Mem.bytes (s.cluster c.val).mem (64 * d.loc) 64, false, none)]⟩, u) :=
    Prod.ext (hload.trans (by rw [hmem])) hu
  have hupset : (s.modCluster c.val (fun k => k.tePop q.val 4)).upset c.val [] = s.modCluster c.val (fun k => k.tePop q.val 4) := rfl
  have hexec : exec (.mcast c q []) s = .next ((mcastPkts s c.val d (Mem.bytes (s.cluster c.val).mem (64 * d.loc) 64)).foldl
      (fun t p => t.sendPkt c.val .te p) (u.modSender c.val .te (fun z => z.addItem
        (d.mcastItem s.modId ((s.cluster c.val).rd (TE_MC_HI_MEMBERS.nth d.group)))))) := by
    change execMcast c q [] s = _
    unfold execMcast
    rw [hdesc]
    dsimp only
    rw [hclean, hgood, hupset, if_neg hmembers]
    simp only [Bool.false_eq_true, if_false, hpair]
    rfl
  obtain ⟨hout, hitems, hqueue, -, honly⟩ := State.track_sends (d.mcastItem s.modId ((s.cluster c.val).rd (TE_MC_HI_MEMBERS.nth d.group)))
    (outbound_mcastPkts s u c.val d (Mem.bytes (s.cluster c.val).mem (64 * d.loc) 64)) rfl
  have hte : (u.cluster c.val).te = ((s.cluster c.val).tePop q.val 4).te := by rw [hread.cluster, Cluster.grantRd_te]
  rw [hte, hsend] at hout hitems
  rw [hte] at hqueue
  exact ⟨_, hexec, (congrFun hqueue q.val).trans ((s.cluster c.val).tePop_queue q.val 4), hout, hitems, hread.frame.trans_only honly⟩

/-! ## TE_COMPLETION_SEND (R319) -/

theorem exec_teCompletionSend_eq {s : State} {c : ClusterId} {b : Fin 8} {d : TeDone} {rest : List TeDone} (hrun : s.runs c.val = true)
    (htake : takeFirst (fun (k : TeDone) => k.cbind == b.val) (s.cluster c.val).te.done = some (d, rest))
    (hcredits : (s.cluster c.val).rd (TE_CBIND_CREDITS.nth b.val) ≠ 0) :
    exec (.teCompletionSend c b) s = .next (s.setCluster c.val
      ({ (s.cluster c.val).wr (TE_CBIND_CREDITS.nth b.val) ((s.cluster c.val).rd (TE_CBIND_CREDITS.nth b.val) - 1) with
        te := { (s.cluster c.val).te with done := rest } }.pushOut 36 0 ((s.cluster c.val).rd (TE_CBIND_ELEM.nth b.val))
        ((s.cluster c.val).rd (TE_CBIND_QUEUE.nth b.val)) ⟨d.payload, .data, d.epoch, false⟩)) := by
  change execTeCompletionSend c b s = _
  unfold execTeCompletionSend
  simp only [hrun, hcredits, htake, Bool.true_eq_false, or_self, if_false]

/-! ## What the transit engine sends -/

/-- Settles O40: for each command of the engine, the packets that it adds to what it injects, the items that it tracks, and the cluster that it changes. -/
theorem transitEngineSends : Obligations.TransitEngineSends := by
  unfold Obligations.TransitEngineSends
  refine ⟨?_, ?_, ?_, ?_, ?_, ?_, ?_, ?_, ?_⟩
  · intro s c q a d k hnext hclean hgood hcredit his hlive hchan hpack htag
    exact exec_teSendUnit_packs hnext hclean hgood hcredit his hlive hchan hpack htag
  · intro s c i k hrun hget hpack hmod haway hstreams hroom
    obtain ⟨t, hexec, hcredit, hout, honly⟩ := exec_tokenPackTimeout_sends hrun hget hpack hmod haway hstreams hroom
    refine ⟨t, hexec, hcredit, ?_, fun _ => ?_, honly⟩
    · rw [hout, List.drop_left]
      rfl
    · rw [hout, List.drop_left, List.flatMap_singleton]
      exact startPkt_tokenPkt_tokens s c.val k
  · intro s c i o hrun hget howed hmod haway
    obtain ⟨t, hexec, hleft, hout, honly⟩ := exec_creditReturnTimeout_returns hrun hget howed hmod haway
    refine ⟨t, hexec, hleft, ?_, honly⟩
    rw [hout, List.drop_left]
    rfl
  · intro s c q d hdesc hclean hgood
    exact exec_teNop_counts hdesc hclean hgood
  · intro s c q d hdesc hclean hgood hperm hraw hone hmod haway hstreams hroom hpoison hbad
    obtain ⟨t, u, hexec, hqueue, hout, hitems, hmem, honly⟩ :=
      exec_put_one hdesc hclean hgood hperm hraw hone hmod haway hstreams hroom hpoison hbad
    refine ⟨t, hexec, hqueue, ?_, ?_, ?_, hmem, honly⟩
    · rw [hout, List.drop_left, map_numberPkts (fun _ _ => rfl) (fun _ => rfl)]
      rfl
    · rw [hout, List.drop_length_add_append]
      exact congrArg (fun bs => [bs]) (payBytes_bytesPay _ (Mem.length_bytes _ _ _) [] rfl)
    · rw [hitems, List.map_append]
      rfl
  · intro s c q d u hdesc hclean hbad hcen
    exact exec_put_refused hdesc hclean hbad hcen
  · intro s c q d hdesc hclean hgood hmod haway
    obtain ⟨t, p, tag, hexec, hqueue, hroute, hout, hitems, hmem, honly⟩ := exec_teGetXfer_sends hdesc hclean hgood hmod haway
    refine ⟨t, hexec, hqueue, ?_, ?_, hmem, honly⟩
    · rw [hout, List.drop_left]
      exact congrArg (fun x => [x]) hroute
    · rw [hitems, List.map_append]
      rfl
  · intro s c q d hdesc hclean hgood hperm hone hmembers hpoison hbad
    obtain ⟨t, hexec, hqueue, hout, hitems, honly⟩ := exec_mcast_one hdesc hclean hgood hperm hone hmembers hpoison hbad
    refine ⟨t, hexec, hqueue, ?_, ?_, ?_, honly⟩
    · rw [hout, List.drop_left]
      rfl
    · rw [hout, List.drop_left]
      exact congrArg (fun g => [g]) (Prod.ext (payBytes_bytesPay _ (Mem.length_bytes _ _ _) [] (List.append_nil _).symm) (Nat.mod_add_div _ 4096))
    · rw [hitems, List.map_append]
      rfl
  · intro s c b d rest hrun htake hcredits
    refine ⟨_, exec_teCompletionSend_eq hrun htake hcredits, ?_⟩
    rw [State.cluster_setCluster_same, Cluster.waiting_pushOut _ (by decide), List.getLast?_concat]
    refine ⟨rfl, ?_, rfl, OnlyCluster.setCluster s _ _⟩
    have hlt := Fld.rd_lt clTable (s.cluster c.val).regs (TE_CBIND_CREDITS.nth b.val)
    exact (Cluster.rd_wr_same (s.cluster c.val) (TE_CBIND_CREDITS.nth b.val) _ (Nat.le_of_ble_eq_true rfl)).trans
      (Nat.mod_eq_of_lt (lt_of_le_of_lt (Nat.sub_le _ 1) hlt))

end Sys2Proof.Machine
end

section
namespace Sys2Proof.Machine

/-! ## Updates of one port (R349) -/

theorem State.port_setPort_ne (s : State) {p q : Nat} (z : Port) (h : q ≠ p) : (s.setPort p z).port q = s.port q := by
  rw [State.port_setPort, if_neg h]

@[simp] theorem State.port_modPort_same (s : State) (p : Nat) (f : Port → Port) : (s.modPort p f).port p = f (s.port p) :=
  State.port_setPort_same s p _

theorem State.port_modPort_ne (s : State) {p q : Nat} (f : Port → Port) (h : q ≠ p) : (s.modPort p f).port q = s.port q :=
  State.port_setPort_ne s _ h

theorem OnlyPort.refl (s : State) (p : Nat) : OnlyPort s s p := ⟨rfl, fun _ _ => rfl⟩

theorem OnlyPort.setPort (s : State) (p : Nat) (z : Port) : OnlyPort s (s.setPort p z) p := ⟨rfl, fun _ h => State.port_setPort_ne s z h⟩

theorem OnlyPort.modPort (s : State) (p : Nat) (f : Port → Port) : OnlyPort s (s.modPort p f) p := OnlyPort.setPort s p _

theorem OnlyPort.trans {s t u : State} {p : Nat} (h : OnlyPort s t p) (k : OnlyPort t u p) : OnlyPort s u p :=
  ⟨(congrArg (fun x : State => { x with ports := s.ports }) k.1).trans h.1, fun q hq => (k.2 q hq).trans (h.2 q hq)⟩

theorem OnlyPort.dome {s t : State} {p : Nat} (h : OnlyPort s t p) : t.dome = s.dome := by
  have := congrArg State.dome h.1
  exact this
theorem OnlyPort.clusters {s t : State} {p : Nat} (h : OnlyPort s t p) : t.clusters = s.clusters := by
  have := congrArg State.clusters h.1
  exact this

theorem OnlyPort.cluster {s t : State} {p : Nat} (h : OnlyPort s t p) (i : Nat) : t.cluster i = s.cluster i :=
  congrArg (fun m => SMap.get (fun _ => Cluster.reset) m i) h.clusters

theorem OnlyPort.modId {s t : State} {p : Nat} (h : OnlyPort s t p) : t.modId = s.modId :=
  State.modId_congr (by rw [h.dome]) (by unfold State.fid State.dome_; rw [h.dome])

theorem PortRegs.refl (z : Port) (offs : List Nat) : PortRegs z z offs := ⟨rfl, fun _ _ => rfl⟩

theorem PortRegs.wr {z w : Port} {offs : List Nat} (f : Fld) (v : Nat) (hf : f.off ∈ offs) (h : PortRegs z w offs) : PortRegs z (w.wr f v) offs := by
  obtain ⟨hframe, hwords⟩ := h
  refine ⟨hframe, fun o ho => ?_⟩
  have hne : o ≠ f.off := fun he => ho (he ▸ hf)
  exact (Regs.word_wr_ne zlTable w.regs f v hne).trans (hwords o ho)

theorem Port.rd_wr_disjoint (z : Port) (f k : Fld) (v : Nat) (hk : k.lo + k.width ≤ 32) (h : f.lo + f.width ≤ k.lo ∨ k.lo + k.width ≤ f.lo) :
    (z.wr f v).rd k = z.rd k := Regs.rd_wr_disjoint zlTable z.regs f k v hk h

theorem State.portUp_iff (s : State) (p : Nat) : s.portUp p = true ↔ (s.port p).rd ZL_STATUS_STATE = 5 := beq_iff_eq

/-! ## Numbers held by (VC, class) pair (R332) -/

/-- Numbers added to a map, one for each key of a list without repetition. -/
theorem SMap.get_foldl_add (g : Nat → Nat) {l : List Nat} (hl : l.Nodup) (m : SMap Nat) (k : Nat) :
    SMap.get (fun _ => 0) (l.foldl (fun n j => SMap.set (fun _ => 0) n j (SMap.get (fun _ => 0) n j + g j)) m) k =
      SMap.get (fun _ => 0) m k + if k ∈ l then g k else 0 := by
  induction l generalizing m with
  | nil => rfl
  | cons j l ih =>
    obtain ⟨hj, hl⟩ := List.nodup_cons.1 hl
    rw [List.foldl_cons, ih hl, SMap.get_set]
    by_cases hk : k = j
    · subst hk
      simp [hj]
    · simp [hk]

/-- Numbers written to a map, one for each key of a list. -/
theorem SMap.get_foldl_set (g : Nat → Nat) (l : List Nat) (m : SMap Nat) (k : Nat) :
    SMap.get (fun _ => 0) (l.foldl (fun n j => SMap.set (fun _ => 0) n j (g j)) m) k = if k ∈ l then g k else SMap.get (fun _ => 0) m k := by
  induction l generalizing m with
  | nil => rfl
  | cons j l ih =>
    rw [List.foldl_cons, ih, SMap.get_set]
    by_cases hk : k = j
    · subst hk
      simp
    · simp [hk]

/-- The credits of each pair after a frame that returns some (R332). -/
theorem Port.addCredits_credits (z : Port) (cs : List Nat) {k : Nat} (hk : k ∈ List.range 4) :
    SMap.get (fun _ => 0) (z.addCredits cs).credits k = SMap.get (fun _ => 0) z.credits k + cs.getD k 0 := by
  rw [Port.addCredits, SMap.get_foldl_add (fun j => cs.getD j 0) List.nodup_range, if_pos hk]

end Sys2Proof.Machine
end

section
namespace Sys2Proof.Machine

/-! ## What a received frame does to its port (R330, R333) -/

/-- A port with what the code of a frame's lanes corrected counted (R349). -/
def Port.fecCounted (z : Port) (h : FrameHdr) : Port := (z.count ZL_CNT_FEC_CE_CNT h.fecCe).count ZL_CNT_FEC_UE_CNT h.fecUe

/-- A port after the header of a good frame without NAKREQ: its acknowledgement and its credits (R330). -/
def Port.headed (z : Port) (h : FrameHdr) : Port := ((z.fecCounted h).acknowledge h.ackSeq).addCredits h.credits

/-- A port that has taken the frame it expected (R333). -/
def Port.taken (z : Port) : Port := { z with rxSeq := (z.rxSeq + 1) % 4096, ackOwed := true, nakOwed := false, nakFrames := 0 }

/-- The first missing frame makes the port ask for a replay (R333). -/
theorem Port.missing_first (z : Port) (h : z.nakFrames = 0) : z.missing = { z with nakOwed := true, nakFrames := 1 } := if_pos h

/-- A frame that is not good changes its own port alone: its failure is counted and a replay asked for (R333, R349). -/
theorem State.badFrame_spec (s : State) (p : Nat) (h : FrameHdr) :
    OnlyPort s ((s.fec p h).modPort p (fun z => (z.badFrame h).missing)) p ∧
    ((s.fec p h).modPort p (fun z => (z.badFrame h).missing)).port p = (((s.port p).fecCounted h).badFrame h).missing := by
  refine ⟨(OnlyPort.modPort s p _).trans (OnlyPort.modPort _ p _), ?_⟩
  rw [State.port_modPort_same, State.fec, State.port_modPort_same]
  rfl

section
variable {s : State} {p : Nat} {h : FrameHdr} (hup : s.portUp p = true)

include hup in
/-- A frame that is not good is discarded (R333). -/
theorem State.takeFrame_bad (hbad : h.ok = false) :
    s.takeFrame p h = ((s.fec p h).modPort p (fun z => (z.badFrame h).missing), false) := by
  rw [State.takeFrame, if_neg (by rw [hup]; decide), if_pos hbad]

variable (hnak : h.nakReq = false) (hreplays : (s.port p).replays < 16)

include hnak hreplays in
/-- The header of a good frame without NAKREQ acts on its own port alone, which stays as it is trained (R330, R334). -/
theorem State.frameHead_spec : OnlyPort s ((s.fec p h).frameHead p h) p ∧ ((s.fec p h).frameHead p h).port p = (s.port p).headed h := by
  have hfew : ¬ 16 ≤ ((s.port p).headed h).replays := by
    change ¬ 16 ≤ if h.ackSeq = (s.port p).acked then (s.port p).replays else 0
    split <;> omega
  have hstep : (s.fec p h).frameHead p h = (s.fec p h).modPort p (fun z => (z.acknowledge h.ackSeq).addCredits h.credits) := by
    unfold State.frameHead
    simp only [hnak, Bool.false_eq_true, if_false]
    refine if_neg ?_
    rw [State.port_modPort_same, State.fec, State.port_modPort_same]
    exact hfew
  rw [hstep]
  refine ⟨(OnlyPort.modPort s p _).trans (OnlyPort.modPort _ p _), ?_⟩
  rw [State.port_modPort_same, State.fec, State.port_modPort_same]
  rfl

include hup hnak hreplays in
/-- The port of a good frame is still UP after the header. -/
theorem State.portUp_frameHead : ((s.fec p h).frameHead p h).portUp p = true := by
  rw [State.portUp, (State.frameHead_spec hnak hreplays).2]
  exact hup

variable (hok : h.ok = true)
include hup hnak hreplays hok

/-- A good frame with the expected FSEQ is taken (R333). -/
theorem State.takeFrame_expected (hseq : h.fseq = (s.port p).rxSeq) :
    ∃ t, s.takeFrame p h = (t, true) ∧ OnlyPort s t p ∧ t.port p = ((s.port p).headed h).taken := by
  obtain ⟨honly, hport⟩ := State.frameHead_spec hnak hreplays
  have hnext : h.fseq = (((s.fec p h).frameHead p h).port p).rxSeq := by
    rw [hport]
    exact hseq
  refine ⟨((s.fec p h).frameHead p h).modPort p Port.taken, ?_, honly.trans (OnlyPort.modPort _ p _), ?_⟩
  · rw [State.takeFrame, if_neg (by rw [hup]; decide), if_neg (by rw [hok]; decide)]
    dsimp only
    rw [if_neg (by rw [State.portUp_frameHead hup hnak hreplays]; decide), if_pos hnext]
    rfl
  · rw [State.port_modPort_same, hport]

/-- A good frame with another FSEQ asks for a replay and is not taken (R333). -/
theorem State.takeFrame_unexpected (hseq : h.fseq ≠ (s.port p).rxSeq) :
    ∃ t, s.takeFrame p h = (t, false) ∧ OnlyPort s t p ∧ t.port p = ((s.port p).headed h).missing := by
  obtain ⟨honly, hport⟩ := State.frameHead_spec hnak hreplays
  have hother : h.fseq ≠ (((s.fec p h).frameHead p h).port p).rxSeq := by
    rw [hport]
    exact hseq
  refine ⟨((s.fec p h).frameHead p h).modPort p Port.missing, ?_, honly.trans (OnlyPort.modPort _ p _), ?_⟩
  · rw [State.takeFrame, if_neg (by rw [hup]; decide), if_neg (by rw [hok]; decide)]
    dsimp only
    rw [if_neg (by rw [State.portUp_frameHead hup hnak hreplays]; decide), if_neg hother]
  · rw [State.port_modPort_same, hport]

end

/-- The frames held after an acknowledgement of one of them: those behind it (R333). -/
theorem ackRetry_held {a b : List Frame} {k : Frame} {n : Nat} (hk : k.fseq = n) (ha : a.all (fun j => j.fseq != n) = true) :
    ackRetry (a ++ k :: b) n = b := by
  rw [ackRetry, if_pos (by simp [hk]), List.dropWhile_append_of_pos (List.all_eq_true.1 ha)]
  simp [hk]

end Sys2Proof.Machine
end

section
namespace Sys2Proof.Machine

/-! ## A packet for this module at an ingress buffer (R331, R337) -/

/-- A packet as the mesh carries it from a port: its age anew, without a link word and PORT. -/
def freshPkt (k : Pkt) : Pkt := { k with age := 0, rsv := 0, link := none }

/-- A packet of the right class is held at ingress (R331). -/
theorem State.arrive_held (s : State) (p : Nat) {l : LinkPkt} (hopc : 1 ≤ l.pkt.opc ∧ l.pkt.opc ≤ 9) (hcls : l.cls = pktClass l.pkt.opc) :
    s.arrive p l = s.modPort p (fun z => { z with
      ingress := SMap.set (fun _ => []) z.ingress (2 * l.vc + l.cls) (SMap.get (fun _ => []) z.ingress (2 * l.vc + l.cls) ++ [l]) }) := by
  obtain ⟨hlow, hhigh⟩ := hopc
  exact if_pos ⟨hlow, hhigh, hcls.symm⟩

/-- A port whose ingress buffer has given its one packet, of a pair, and owes the credit (R332). -/
def Port.handedOver (z : Port) (pair : Nat) : Port := { z with ingress := [] }.owe pair

theorem Port.owed_handedOver (z : Port) (pair : Nat) :
    SMap.get (fun _ => 0) (z.handedOver pair).owed pair = SMap.get (fun _ => 0) z.owed pair + 1 := by
  rw [Port.handedOver, Port.owe, SMap.get_set_same]

/-- The ingress buffer's one packet, for this module, delivered (R337). -/
def State.ingressGiven (s : State) (p pair : Nat) (l : LinkPkt) : State :=
  ((s.modPort p (fun z => z.handedOver pair)).debit (portCluster p) 13 1).routerInject (portCluster p) (freshPkt l.pkt)

theorem State.port_ingressGiven (s : State) (p pair : Nat) (l : LinkPkt) : (s.ingressGiven p pair l).port p = (s.port p).handedOver pair :=
  State.port_modPort_same s p (fun z => z.handedOver pair)

theorem State.port_ingressGiven_ne (s : State) {p q : Nat} (pair : Nat) (l : LinkPkt) (h : q ≠ p) : (s.ingressGiven p pair l).port q = s.port q :=
  State.port_modPort_ne s (fun z => z.handedOver pair) h

theorem State.cluster_ingressGiven_ne (s : State) {p i : Nat} (pair : Nat) (l : LinkPkt) (h : i ≠ portCluster p) :
    (s.ingressGiven p pair l).cluster i = s.cluster i := by
  rw [State.ingressGiven, State.routerInject, State.cluster_modCluster, if_neg h]
  rfl

/-- On the plane with the shorter queue it waits at the router's local input (R337). -/
theorem State.input_ingressGiven (s : State) (p pair : Nat) (l : LinkPkt)
    (hplane : ((s.cluster (portCluster p)).input 0 4).length ≤ ((s.cluster (portCluster p)).input 1 4).length) :
    ((s.ingressGiven p pair l).cluster (portCluster p)).input 0 4 = (s.cluster (portCluster p)).input 0 4 ++ [freshPkt l.pkt] := by
  rw [State.ingressGiven, State.routerInject, State.cluster_modCluster_same]
  dsimp only
  rw [State.cluster_debit, State.cluster_modPort, if_pos hplane, Cluster.input_setInput, if_pos rfl]

/-- A pair with no packet at ingress has nothing to deliver. -/
theorem State.drainPair_empty {s : State} {p k : Nat} (h : SMap.get (fun _ => []) (s.port p).ingress k = []) (n : Nat) : s.drainPair p k n = s := by
  cases n with
  | zero => rfl
  | succ n => rw [State.drainPair, h]

section
variable {s : State} {p pair : Nat} {l : LinkPkt} (hin : (s.port p).ingress = [(pair, [l])]) (hmod : l.pkt.dmod = s.modId)
include hin hmod

theorem State.drainPair_one : s.drainPair p pair 1 = s.ingressGiven p pair l := by
  have hget : SMap.get (fun _ => []) (s.port p).ingress pair = [l] := by rw [hin, SMap.get, if_pos rfl]
  have herase : SMap.set (fun _ => []) (s.port p).ingress pair ([] : List LinkPkt) = [] := by simp [hin, SMap.set, SMap.erase]
  have hown : l.pkt.dmod = (s.modPort p (fun z => z.handedOver pair)).modId := hmod
  rw [State.drainPair, hget]
  dsimp only
  rw [State.modPort, herase]
  change (match (s.modPort p (fun z => z.handedOver pair)).ingress p l with | some t => t.drainPair p pair 0 | none => s) = _
  rw [State.ingress, if_pos hown]
  rfl

/-- An ingress buffer with one packet, for this module, delivers it (R337). -/
theorem State.drainIngress_one (hpair : pair < 4) (hen : (s.port p).disabling = false) : s.drainIngress p = s.ingressGiven p pair l := by
  have hempty : ((s.ingressGiven p pair l).port p).ingress = [] := by rw [State.port_ingressGiven]; rfl
  have hen' : ((s.ingressGiven p pair l).port p).disabling = false := by rw [State.port_ingressGiven]; exact hen
  have hone : s.drainPair p pair (SMap.get (fun _ => []) (s.port p).ingress pair).length = s.ingressGiven p pair l := by
    rw [hin, SMap.get, if_pos rfl]
    exact State.drainPair_one hin hmod
  have hbefore : ∀ k n, k ≠ pair → s.drainPair p k n = s := fun k n hk =>
    State.drainPair_empty (by rw [hin, SMap.get, if_neg (Ne.symm hk), SMap.get]) n
  have hafter : ∀ k n, (s.ingressGiven p pair l).drainPair p k n = s.ingressGiven p pair l := fun k n =>
    State.drainPair_empty (by rw [hempty, SMap.get]) n
  have hall : (List.range 4).foldl (fun t k => t.drainPair p k (SMap.get (fun _ => []) (t.port p).ingress k).length) s = s.ingressGiven p pair l := by
    rw [show List.range 4 = [0, 1, 2, 3] from rfl]
    interval_cases pair <;> simp only [List.foldl_cons, List.foldl_nil, hone, hafter] <;> simp [hbefore, hone, hafter]
  rw [State.drainIngress, hall]
  exact if_neg (fun h => absurd (hen'.symm.trans h.1) (by decide))

end

end Sys2Proof.Machine
end

section
namespace Sys2Proof.Machine

/-! ## ZL_DATA_FRAME and ZL_FINDER_FRAME (R330-R333, R342) -/

theorem exec_zlDataFrame_taken {s t : State} {p : PortId} {h : FrameHdr} (l : LinkPkt) (htake : s.takeFrame p.val h = (t, true)) :
    exec (.zlDataFrame p h [l]) s = .next (((t.modPort p.val (fun z => z.count ZL_CNT_RX_CNT 1)).arrive p.val l).drainIngress p.val) := by
  change execZlDataFrame p h [l] s = _
  rw [execZlDataFrame, htake]
  exact congrArg Host.Outcome.next (if_pos rfl)

theorem exec_zlDataFrame_discarded {s t : State} {p : PortId} {h : FrameHdr} (ls : List LinkPkt) (htake : s.takeFrame p.val h = (t, false)) :
    exec (.zlDataFrame p h ls) s = .next t := by
  change execZlDataFrame p h ls s = _
  rw [execZlDataFrame, htake]
  rfl

/-- The header of a FINDER frame as the port takes it: one that finds 64 messages held has failed its CRC (R342). -/
def State.finderHdr (s : State) (p : Nat) (h : FrameHdr) : FrameHdr := { h with good := h.good && decide ((s.heldFrom p).length < 64) }

theorem State.finderHdr_room {s : State} {p : Nat} {h : FrameHdr} (hroom : (s.heldFrom p).length < 64) : s.finderHdr p h = h := by
  simp [State.finderHdr, hroom]

theorem State.finderHdr_full {s : State} {p : Nat} {h : FrameHdr} (hfull : 64 ≤ (s.heldFrom p).length) : (s.finderHdr p h).ok = false := by
  simp [State.finderHdr, FrameHdr.ok, FrameHdr.crcBad, hfull]

/-- One packet for this module in a good frame goes to the router's local input, and its credit is owed (R331, R332, R337). -/
theorem exec_zlDataFrame_delivers {s : State} {p : PortId} {h : FrameHdr} {l : LinkPkt} (hup : s.portUp p.val = true) (hok : h.ok = true)
    (hseq : h.fseq = (s.port p.val).rxSeq) (hnak : h.nakReq = false) (hreplays : (s.port p.val).replays < 16) (hmod : l.pkt.dmod = s.modId)
    (hopc : 1 ≤ l.pkt.opc ∧ l.pkt.opc ≤ 9) (hcls : l.cls = pktClass l.pkt.opc) (hvc : l.vc < 2) (hin : (s.port p.val).ingress = [])
    (hen : (s.port p.val).disabling = false) :
    ∃ u, exec (.zlDataFrame p h [l]) s = .next (u.ingressGiven p.val (2 * l.vc + l.cls) l) ∧ OnlyPort s u p.val ∧
      u.port p.val = { (((s.port p.val).headed h).taken.count ZL_CNT_RX_CNT 1) with ingress := [(2 * l.vc + l.cls, [l])] } := by
  obtain ⟨t, htake, honly, hport⟩ := State.takeFrame_expected hup hnak hreplays hok hseq
  have hexec := exec_zlDataFrame_taken l htake
  rw [State.arrive_held _ _ hopc hcls] at hexec
  generalize hu : (t.modPort p.val (fun z => z.count ZL_CNT_RX_CNT 1)).modPort p.val _ = u at hexec
  have honlyU : OnlyPort s u p.val := by
    rw [← hu]
    exact (honly.trans (OnlyPort.modPort t p.val _)).trans (OnlyPort.modPort _ p.val _)
  have hportU : u.port p.val = { (((s.port p.val).headed h).taken.count ZL_CNT_RX_CNT 1) with ingress := [(2 * l.vc + l.cls, [l])] } := by
    have hold : ((s.port p.val).headed h).taken.ingress = [] := hin
    rw [← hu, State.port_modPort_same, State.port_modPort_same, hport]
    simp [hold, SMap.set, SMap.get, SMap.insert]
  have hpair : 2 * l.vc + l.cls < 4 := by
    have hle : pktClass l.pkt.opc ≤ 1 := by unfold pktClass; split <;> decide
    omega
  refine ⟨u, ?_, honlyU, hportU⟩
  rw [hexec, State.drainIngress_one (by rw [hportU]) (hmod.trans honlyU.modId.symm) hpair (by rw [hportU]; exact hen)]

end Sys2Proof.Machine
end

section
namespace Sys2Proof.Machine

/-! ## Frames that ask for a replay, and the columns (R329, R333, R347) -/

@[simp] theorem Port.missing_cnt (z : Port) : z.missing.cnt = z.cnt := by
  unfold Port.missing
  split <;> rfl

@[simp] theorem Port.missing_rxSeq (z : Port) : z.missing.rxSeq = z.rxSeq := by
  unfold Port.missing
  split <;> rfl

@[simp] theorem Port.missing_ackOwed (z : Port) : z.missing.ackOwed = z.ackOwed := by
  unfold Port.missing
  split <;> rfl

@[simp] theorem Port.missing_ingress (z : Port) : z.missing.ingress = z.ingress := by
  unfold Port.missing
  split <;> rfl

@[simp] theorem Port.missing_retry (z : Port) : z.missing.retry = z.retry := by
  unfold Port.missing
  split <;> rfl

theorem Port.missing_asks (z : Port) (h : z.nakFrames = 0) : z.missing.nakOwed = true := by
  rw [Port.missing_first z h]

/-- A port that has discarded a frame that is not good (R333, R349). -/
def Port.refused (z : Port) (h : FrameHdr) : Port := ((z.fecCounted h).badFrame h).missing

/-- Discarding a frame counts it where it failed its CRC, and touches the counts and the request for a replay alone (R349). -/
theorem Port.refused_spec (z : Port) (h : FrameHdr) (hnone : z.nakFrames = 0) : (z.refused h).nakOwed = true ∧ (z.refused h).rxSeq = z.rxSeq ∧
    (z.refused h).ingress = z.ingress ∧ (z.refused h).retry = z.retry ∧
    Regs.rd zlTable (z.refused h).cnt ZL_CNT_CRC_CNT =
      (if h.crcBad then Regs.rd zlTable z.cnt ZL_CNT_CRC_CNT + 1 else Regs.rd zlTable z.cnt ZL_CNT_CRC_CNT) % 2 ^ 32 := by
  have hcount : Regs.rd zlTable (z.fecCounted h).cnt ZL_CNT_CRC_CNT = Regs.rd zlTable z.cnt ZL_CNT_CRC_CNT :=
    (Regs.rd_wr_ne zlTable _ ZL_CNT_FEC_UE_CNT ZL_CNT_CRC_CNT _ (by decide)).trans
      (Regs.rd_wr_ne zlTable _ ZL_CNT_FEC_CE_CNT ZL_CNT_CRC_CNT _ (by decide))
  unfold Port.refused Port.badFrame
  cases h.crcBad with
  | false =>
    refine ⟨Port.missing_asks _ hnone, Port.missing_rxSeq _, Port.missing_ingress _, Port.missing_retry _, ?_⟩
    have hlt : Regs.rd zlTable z.cnt ZL_CNT_CRC_CNT < 2 ^ 32 := Fld.rd_lt zlTable z.cnt ZL_CNT_CRC_CNT
    simpa [hcount] using (Nat.mod_eq_of_lt hlt).symm
  | true =>
    refine ⟨Port.missing_asks _ hnone, Port.missing_rxSeq _, Port.missing_ingress _, Port.missing_retry _, ?_⟩
    rw [Port.missing_cnt]
    exact (Regs.rd_wr_same zlTable _ ZL_CNT_CRC_CNT _ (by decide)).trans (by rw [hcount]; rfl)

/-- A frame that is not good leaves the state but for its port (R333). -/
theorem State.takeFrame_refused {s : State} {p : Nat} {h : FrameHdr} (hup : s.portUp p = true) (hbad : h.ok = false) :
    ∃ t, s.takeFrame p h = (t, false) ∧ OnlyPort s t p ∧ t.port p = (s.port p).refused h :=
  ⟨_, State.takeFrame_bad hup hbad, State.badFrame_spec s p h⟩

section
variable {s : State} {p : PortId} {h : FrameHdr} (hup : s.portUp p.val = true) (hok : h.ok = true) (hnak : h.nakReq = false)
  (hreplays : (s.port p.val).replays < 16)
include hup hok hnak hreplays

/-- A good IDLE frame brings its acknowledgement and credits; one whose FSEQ is another than expected asks for a replay (R333). -/
theorem exec_zlIdleFrame_good : ∃ t, exec (.zlIdleFrame p h) s = .next t ∧ OnlyPort s t p.val ∧
    t.port p.val = if h.fseq = (s.port p.val).rxSeq then (s.port p.val).headed h else ((s.port p.val).headed h).missing := by
  obtain ⟨honly, hport⟩ := State.frameHead_spec hnak hreplays
  have hstill := State.portUp_frameHead hup hnak hreplays
  have hexec : exec (.zlIdleFrame p h) s = .next (if h.fseq ≠ (((s.fec p.val h).frameHead p.val h).port p.val).rxSeq then
      ((s.fec p.val h).frameHead p.val h).modPort p.val Port.missing else (s.fec p.val h).frameHead p.val h) := by
    change execZlIdleFrame p h s = _
    unfold execZlIdleFrame
    simp only [hup, hok, hstill, Bool.true_eq_false, if_false, true_and]
  rw [hexec, hport]
  by_cases hseq : h.fseq = (s.port p.val).rxSeq
  · rw [if_neg (fun hne => hne hseq), if_pos hseq]
    exact ⟨_, rfl, honly, hport⟩
  · rw [if_pos (show h.fseq ≠ ((s.port p.val).headed h).rxSeq from hseq), if_neg hseq]
    exact ⟨_, rfl, honly.trans (OnlyPort.modPort _ p.val _), by rw [State.port_modPort_same, hport]⟩

/-- A good FINDER frame with a collimation record for this module adds it to the inbox (R342, R362). -/
theorem exec_zlFinderFrame_col (hseq : h.fseq = (s.port p.val).rxSeq) (hroom : (s.heldFrom p.val).length < 64) {r : ColRec} (hdst : r.dst = s.modId) :
    ∃ t, exec (.zlFinderFrame p h (.col r)) s = .next (t.modDome (fun d => { d with col := { d.col with inbox := d.col.inbox ++ [r] } })) ∧
      OnlyPort s t p.val ∧ t.port p.val = ((s.port p.val).headed h).taken := by
  obtain ⟨t, htake, honly, hport⟩ := State.takeFrame_expected hup hnak hreplays hok hseq
  refine ⟨t, ?_, honly, hport⟩
  change Host.Outcome.next (if (s.takeFrame p.val (s.finderHdr p.val h)).2 then (s.takeFrame p.val (s.finderHdr p.val h)).1.sendCol (some p.val) r
    else (s.takeFrame p.val (s.finderHdr p.val h)).1) = _
  rw [State.finderHdr_room hroom, htake, if_pos rfl, State.sendCol, if_pos (hdst.trans honly.modId.symm)]

end

/-- A FINDER frame that is discarded leaves what the taking of the frame left. -/
theorem exec_zlFinderFrame_discarded {s t : State} {p : PortId} {h : FrameHdr} (b : FrameBody)
    (htake : s.takeFrame p.val (s.finderHdr p.val h) = (t, false)) : exec (.zlFinderFrame p h b) s = .next t := by
  unfold State.finderHdr at htake
  change execZlFinderFrame p h b s = _
  unfold execZlFinderFrame
  simp only [htake, Bool.false_eq_true, if_false]

/-- A follower of a port imposes a marker at the instant that its TICK column and the port's latency give (R347). -/
theorem exec_zlTickColumn_marks {s : State} {p : PortId} (n per a : Nat) (hup : s.portUp p.val = true) (hmode : s.dome_ TCK_CTRL_MODE = 0)
    (hrcv : s.dome_ TCK_CTRL_RCV_PORT = p.val) :
    exec (.zlTickColumn p n per a) s = .next ((s.modPort p.val (fun z => { z with tick := n })).emit
      (.rcvMarker (a + per - ceilDiv (10 * (s.port p.val).rd ZL_LAT_NS) 64 - 2))) := by
  change execZlTickColumn p n per a s = _
  rw [execZlTickColumn, if_pos hup]
  exact congrArg Host.Outcome.next (if_pos ⟨hmode, hrcv⟩)

/-- NAKREQ_REPEAT of a port that misses a frame sets NAKREQ again (R333). -/
theorem exec_nakreqRepeat_asks {s : State} {p : PortId} (h : (s.port p.val).nakFrames = 1) :
    exec (.nakreqRepeat p) s = .next (s.setPort p.val { s.port p.val with nakOwed := true }) :=
  congrArg (fun z => Host.Outcome.next (s.setPort p.val z)) (if_pos h)

/-- Settles O41: each kind of frame and column, by what the taking of a frame does to its port. -/
theorem framesAreTakenInOrder : Obligations.FramesAreTakenInOrder := by
  unfold Obligations.FramesAreTakenInOrder
  refine ⟨?_, ?_, ?_, ?_, ?_, ?_, ?_, ?_, ?_, ?_⟩
  · intro s p h l hup hok hseq hnak hreplays hmod _ _ hopc hcls hvc hin hen hplane
    obtain ⟨u, hexec, honly, hport⟩ := exec_zlDataFrame_delivers hup hok hseq hnak hreplays hmod hopc hcls hvc hin hen
    have hdone : ((u.ingressGiven p.val (2 * l.vc + l.cls) l).port p.val) = (u.port p.val).handedOver (2 * l.vc + l.cls) :=
      u.port_ingressGiven p.val _ l
    refine ⟨_, hexec, ?_, ?_, ?_, ?_, ?_, ?_, ?_, ?_⟩
    · rw [hdone, hport, hseq]
      rfl
    · rw [hdone, hport]
      rfl
    · rw [hdone]
      rfl
    · rw [u.input_ingressGiven p.val _ l (by rw [honly.cluster]; exact hplane), honly.cluster]
      rfl
    · rw [hdone, hport]
      exact Port.owed_handedOver _ _
    · intro k hk
      rw [hdone, hport]
      exact Port.addCredits_credits _ h.credits hk
    · exact fun q hq => (u.port_ingressGiven_ne _ l hq).trans (honly.2 q hq)
    · exact fun j hj => (u.cluster_ingressGiven_ne _ l hj).trans (honly.cluster j)
  · intro s p h ls hup hbad hnone
    obtain ⟨t, htake, honly, hport⟩ := State.takeFrame_refused hup hbad
    obtain ⟨hnakOwed, hrxSeq, hingress, hretry, hcrc⟩ := (s.port p.val).refused_spec h hnone
    refine ⟨t, exec_zlDataFrame_discarded ls htake, ?_⟩
    rw [hport]
    exact ⟨hnakOwed, hrxSeq, hingress, hretry, hcrc, honly⟩
  · intro s p h ls hup hok hnak hreplays hseq hnone
    obtain ⟨t, htake, honly, hport⟩ := State.takeFrame_unexpected hup hnak hreplays hok hseq
    refine ⟨t, exec_zlDataFrame_discarded ls htake, ?_⟩
    rw [hport]
    exact ⟨Port.missing_asks _ hnone, Port.missing_rxSeq _, Port.missing_ackOwed _, Port.missing_ingress _, honly⟩
  · intro s p h a b k hup hok hnak hreplays hseq hretry hk ha
    obtain ⟨t, hexec, honly, hport⟩ := exec_zlIdleFrame_good hup hok hnak hreplays
    rw [if_pos hseq] at hport
    refine ⟨t, hexec, ?_⟩
    rw [hport]
    refine ⟨?_, rfl, rfl, fun j hj => Port.addCredits_credits _ h.credits hj, honly⟩
    change ackRetry (s.port p.val).retry h.ackSeq = b
    rw [hretry, ackRetry_held hk ha]
  · intro s p h r hup hok hseq hnak hreplays hroom hdst
    obtain ⟨t, hexec, honly, hport⟩ := exec_zlFinderFrame_col hup hok hnak hreplays hseq hroom hdst
    have hinbox : t.dome.col.inbox = s.dome.col.inbox := by rw [honly.dome]
    refine ⟨_, hexec, congrArg (· ++ [r]) hinbox, ?_, ?_, honly.2, honly.clusters⟩
    · rw [State.port_modDome, hport, hseq]
      rfl
    · rw [State.port_modDome, hport]
      rfl
  · intro s p h b hup _ hfull hnone
    obtain ⟨t, htake, honly, hport⟩ := State.takeFrame_refused hup (State.finderHdr_full hfull)
    obtain ⟨hnakOwed, hrxSeq, -⟩ := (s.port p.val).refused_spec (s.finderHdr p.val h) hnone
    refine ⟨t, exec_zlFinderFrame_discarded b htake, ?_⟩
    rw [hport]
    exact ⟨hnakOwed, hrxSeq, honly.dome, honly⟩
  · intro s p h hup hok hnak hreplays hseq hnone
    obtain ⟨t, hexec, honly, hport⟩ := exec_zlIdleFrame_good hup hok hnak hreplays
    rw [if_neg hseq] at hport
    refine ⟨t, hexec, ?_⟩
    rw [hport]
    exact ⟨Port.missing_asks _ hnone, Port.missing_rxSeq _, Port.missing_ackOwed _, honly⟩
  · intro s p hmissing
    refine ⟨_, exec_nakreqRepeat_asks hmissing, ?_, OnlyPort.setPort s p.val _, ?_⟩ <;> rw [State.port_setPort_same]
  · intro s p n per a hup hmode hrcv
    refine ⟨_, exec_zlTickColumn_marks n per a hup hmode hrcv, ?_, rfl, rfl, rfl, rfl, fun q hq => ?_⟩
    · rw [State.port_emit, State.port_modPort_same]
    · rw [State.port_emit, State.port_modPort_ne s _ hq]
  · exact fun s p => ⟨s, rfl, rfl⟩

end Sys2Proof.Machine
end

section
namespace Sys2Proof.Machine

/-! ## Packets that move at ports (R336-R339) -/

/-- What packets that move at a port leave of it: all but its buffers and counts; its egress queues too where it is not UP, and an empty ingress buffer. -/
structure Port.MovedTo (z w : Port) : Prop where
  frame : { w with regs := z.regs, cnt := z.cnt, egress := z.egress, ingress := z.ingress, owed := z.owed, fab := z.fab } = z
  rd : ∀ f : Fld, f.off ≠ ZL_CNT_UNREACH_CNT.off → w.rd f = z.rd f
  egress : z.rd ZL_STATUS_STATE ≠ 5 → w.egress = z.egress
  ingress : z.ingress = [] → w.ingress = []

theorem Port.MovedTo.refl (z : Port) : z.MovedTo z := ⟨rfl, fun _ _ => rfl, fun _ => rfl, id⟩

theorem Port.MovedTo.trans {x y z : Port} (h : x.MovedTo y) (k : y.MovedTo z) : x.MovedTo z where
  frame := (congrArg (fun w : Port => { w with regs := x.regs, cnt := x.cnt, egress := x.egress, ingress := x.ingress, owed := x.owed, fab := x.fab })
    k.frame).trans h.frame
  rd := fun f hf => (k.rd f hf).trans (h.rd f hf)
  egress := fun hx => (k.egress (by rw [h.rd _ (by decide)]; exact hx)).trans (h.egress hx)
  ingress := fun hx => k.ingress (h.ingress hx)

theorem Port.MovedTo.retry {z w : Port} (h : z.MovedTo w) : w.retry = z.retry := by
  have := congrArg Port.retry h.frame
  exact this
theorem Port.MovedTo.txSeq {z w : Port} (h : z.MovedTo w) : w.txSeq = z.txSeq := by
  have := congrArg Port.txSeq h.frame
  exact this
theorem Port.MovedTo.disabling {z w : Port} (h : z.MovedTo w) : w.disabling = z.disabling := by
  have := congrArg Port.disabling h.frame
  exact this

/-- At the ports of a set, t differs from s by packets that have moved; the dome controller is as it was, nothing has gone out of the module, and no event of
the bridge is lost. -/
structure State.MovesAt (on : Nat → Prop) (s t : State) : Prop where
  dome : t.dome = s.dome
  out : t.out = s.out
  pends : ∀ e < 32, Pends s e → Pends t e
  ports : ∀ q, on q → (s.port q).MovedTo (t.port q)

section
variable {on : Nat → Prop}

theorem State.MovesAt.refl (s : State) : s.MovesAt on s := ⟨rfl, rfl, fun _ _ => id, fun _ _ => .refl _⟩

theorem State.MovesAt.trans {s t u : State} (h : s.MovesAt on t) (k : t.MovesAt on u) : s.MovesAt on u :=
  ⟨k.dome.trans h.dome, k.out.trans h.out, fun e he hs => k.pends e he (h.pends e he hs), fun q hq => (h.ports q hq).trans (k.ports q hq)⟩

theorem State.MovesAt.foldl {α : Type} {f : State → α → State} (hf : ∀ (u : State) (a : α), u.MovesAt on (f u a)) (l : List α) (s : State) :
    s.MovesAt on (l.foldl f s) := by
  induction l generalizing s with
  | nil => exact .refl s
  | cons a l ih => exact (hf s a).trans (ih (f s a))

theorem State.MovesAt.modPort {s : State} {p : Nat} {f : Port → Port} (h : on p → (s.port p).MovedTo (f (s.port p))) :
    s.MovesAt on (s.modPort p f) := by
  refine ⟨rfl, rfl, fun _ _ => id, fun q hq => ?_⟩
  by_cases hqp : q = p
  · subst hqp
    rw [State.port_modPort_same]
    exact h hq
  · rw [State.port_modPort_ne s f hqp]
    exact .refl _

theorem State.MovesAt.debit (s : State) (i k n : Nat) : s.MovesAt on (s.debit i k n) := ⟨rfl, rfl, fun _ _ => id, fun _ _ => .refl _⟩

theorem State.MovesAt.routerInject (s : State) (i : Nat) (k : Pkt) : s.MovesAt on (s.routerInject i k) :=
  ⟨rfl, rfl, fun _ _ => id, fun _ _ => .refl _⟩

theorem State.MovesAt.hifEvent (s : State) (e : Nat) : s.MovesAt on (s.hifEvent e) where
  dome := s.hifEvent_dome e
  out := by
    have := congrArg State.out (OnlyHost.hifEvent s e)
    exact this
  pends := fun _ hk h => h.hifEvent hk e
  ports := fun q _ => by
    have hport : (s.hifEvent e).port q = s.port q := congrArg (fun m => SMap.get (fun _ => Port.reset) m q) (OnlyDomeHost.hifEvent s e).ports
    rw [hport]
    exact .refl _

/-- A packet enters the egress queue of a port that is UP. -/
theorem State.MovesAt.egress {s : State} {p : Nat} (k : Pkt) (hup : s.portUp p = true) : s.MovesAt on (s.egress p k) := by
  unfold State.egress
  refine State.MovesAt.trans (State.MovesAt.modPort fun _ => ?_) (.debit _ _ _ _)
  exact ⟨rfl, fun _ _ => rfl, fun hne => absurd ((s.portUp_iff p).1 hup) hne, id⟩

theorem State.MovesAt.portSend {s t : State} {p : Nat} {k : Pkt} (h : s.portSend p k = some t) : s.MovesAt on t := by
  unfold State.portSend at h
  obtain ⟨q, -, rfl⟩ := Option.map_eq_some_iff.1 h
  exact State.MovesAt.trans (.modPort fun _ => ⟨rfl, fun _ _ => rfl, fun _ => rfl, id⟩) (.routerInject _ _ q)

theorem State.MovesAt.portUnreach (s : State) (p : Nat) (k : Pkt) : s.MovesAt on (s.portUnreach p k) := by
  have hcount : s.MovesAt on ((s.modPort p (fun z => z.countStart ZL_CNT_UNREACH_CNT 1)).hifEvent 8) :=
    State.MovesAt.trans (.modPort fun _ => ⟨rfl, fun f hf => Port.rd_wr_ne _ _ f _ hf, fun _ => rfl, id⟩) (.hifEvent _ 8)
  unfold State.portUnreach
  dsimp only
  split
  · cases hsend : ((s.modPort p (fun z => z.countStart ZL_CNT_UNREACH_CNT 1)).hifEvent 8).portSend p (nakOf s (portCluster p) k 2) with
    | none => exact hcount
    | some t => exact hcount.trans (.portSend hsend)
  · exact hcount

theorem State.MovesAt.reinject (s : State) (p : Nat) (k : Pkt) : s.MovesAt on (s.reinject p k) := by
  unfold State.reinject
  cases hsend : s.portSend p k with
  | none => exact .portUnreach s p k
  | some t => exact .portSend hsend

/-- A packet that leaves an ingress buffer goes to the mesh, or into the egress queue of a partner port that is UP (R337). -/
theorem State.MovesAt.ingress {s t : State} {p : Nat} {l : LinkPkt} (h : s.ingress p l = some t) : s.MovesAt on t := by
  have hdebit : s.MovesAt on (s.debit (portCluster p) 13 1) := .debit s _ 13 1
  unfold State.ingress at h
  dsimp only at h
  split at h
  · cases h
    exact hdebit.trans (.routerInject _ _ _)
  · split at h
    · cases h
      exact hdebit.trans (.portUnreach _ p _)
    · split at h
      · cases h
        exact hdebit.trans (.portUnreach _ p _)
      · split at h
        · rename_i hbundle
          have hup : s.portUp (partner p) = true := by
            unfold State.inBundle at hbundle
            exact (Bool.and_eq_true _ _ ▸ hbundle).1
          split at h
          · cases h
            have hcut : (s.debit (portCluster p) 13 1).MovesAt on ((s.debit (portCluster p) 13 1).modPort p (fun z => z.count ZL_CNT_CUT_CNT 1)) :=
              .modPort fun _ => ⟨rfl, fun _ _ => rfl, fun _ => rfl, id⟩
            refine (hdebit.trans hcut).trans (.egress _ ?_)
            rw [State.portUp_iff, State.port_modPort]
            split
            · next he => exact (he ▸ (s.portUp_iff _).1 hup :)
            · exact (s.portUp_iff _).1 hup
          · cases h
        · cases h
          have hfab : (s.debit (portCluster p) 13 1).MovesAt on
              ((s.debit (portCluster p) 13 1).modPort p (fun z => { z with fab := fabNext s.modId l.pkt (s.port p).fab })) :=
            .modPort fun _ => ⟨rfl, fun _ _ => rfl, fun _ => rfl, id⟩
          exact (hdebit.trans hfab).trans (.routerInject _ _ _)

theorem State.MovesAt.drainPair (s : State) (p pair n : Nat) : s.MovesAt on (s.drainPair p pair n) := by
  induction n generalizing s with
  | zero => exact .refl s
  | succ n ih =>
    unfold State.drainPair
    split
    · exact .refl s
    · rename_i l rest hget
      split
      · rename_i t hingress
        have hleave : s.MovesAt on (s.modPort p (fun z => { z with ingress := SMap.set (fun _ => []) z.ingress pair rest }.owe pair)) := by
          refine .modPort fun _ => ⟨rfl, fun _ _ => rfl, fun _ => rfl, fun hnone => ?_⟩
          rw [hnone] at hget
          cases hget
        exact (hleave.trans (.ingress hingress)).trans (ih t)
      · exact .refl s

/-- The ingress buffer of a port that is not being disabled gives what it can, and packets alone move. -/
theorem State.MovesAt.drainIngress {s : State} {p : Nat} (h : on p → (s.port p).disabling = false) : s.MovesAt on (s.drainIngress p) := by
  have hpairs : s.MovesAt on ((List.range 4).foldl (fun t k => t.drainPair p k (SMap.get (fun _ => []) (t.port p).ingress k).length) s) :=
    .foldl (fun u k => .drainPair u p k _) _ s
  unfold State.drainIngress
  extract_lets s1
  split
  · rename_i hoff
    refine hpairs.trans (.modPort fun hon => ?_)
    have hdis := (hpairs.ports p hon).disabling.trans (h hon)
    exact absurd (hdis.symm.trans hoff.1) (by decide)
  · exact hpairs

end

/-- A port that has gone OFF (R335, R349). -/
def Port.wentOff (z : Port) : Port := { z.noLanes.wr ZL_STATUS_STATE 0 with disabling := false }

theorem Port.wentOff_reads (z : Port) : z.wentOff.rd ZL_STATUS_STATE = 0 ∧ z.wentOff.rd ZL_STATUS_LAST_DOWN = z.rd ZL_STATUS_LAST_DOWN ∧
    z.wentOff.rd ZL_CTRL_EN = z.rd ZL_CTRL_EN := by
  have hregs : ∀ f, z.wentOff.rd f = (z.noLanes.wr ZL_STATUS_STATE 0).rd f := fun _ => rfl
  simp (disch := decide) [hregs, Port.noLanes, Port.rd_wr_ne, Port.rd_wr_same, Port.rd_wr_disjoint]

/-- A port that is being disabled, with nothing at ingress, goes OFF (R335, R336). -/
theorem State.drainIngress_off {s : State} {p : Nat} (hen : (s.port p).disabling = true) (hin : (s.port p).ingress = []) :
    s.drainIngress p = s.modPort p Port.wentOff := by
  have hnone : ∀ k n, s.drainPair p k n = s := fun k n => State.drainPair_empty (by rw [hin, SMap.get]) n
  have hall : (List.range 4).foldl (fun t k => t.drainPair p k (SMap.get (fun _ => []) (t.port p).ingress k).length) s = s := by
    rw [show List.range 4 = [0, 1, 2, 3] from rfl]
    simp only [List.foldl_cons, List.foldl_nil, hnone]
  rw [State.drainIngress, hall]
  exact if_pos ⟨hen, hin⟩

end Sys2Proof.Machine
end

section
namespace Sys2Proof.Machine

/-! ## The module's own adjacency record goes out (R342, R346) -/

/-- A message queued at each port of a list without repetition but the one that it came from (R342). -/
theorem State.port_foldl_queue (b : FrameBody) (o : Option Nat) {l : List Nat} (hl : l.Nodup) (s : State) (q : Nat) :
    (l.foldl (fun t p => if o = some p then t else t.modPort p (fun z => { z with finder := z.finder ++ [(o, b)] })) s).port q =
      if q ∈ l ∧ o ≠ some q then { s.port q with finder := (s.port q).finder ++ [(o, b)] } else s.port q := by
  induction l generalizing s with
  | nil => rfl
  | cons p l ih =>
    obtain ⟨hp, hl⟩ := List.nodup_cons.1 hl
    rw [List.foldl_cons, ih hl]
    by_cases ho : o = some p
    · rw [if_pos ho]
      by_cases hq : q = p
      · subst hq
        simp [hp, ho]
      · simp [hq]
    · rw [if_neg ho, State.port_modPort]
      by_cases hq : q = p
      · subst hq
        simp [hp, ho]
      · simp [hq]

theorem State.port_flood (s : State) (b : FrameBody) (o : Option Nat) (q : Nat) :
    (s.flood b o).port q = if q ∈ s.upPorts ∧ o ≠ some q then { s.port q with finder := (s.port q).finder ++ [(o, b)] } else s.port q :=
  State.port_foldl_queue b o (List.nodup_range.filter _) s q

theorem State.flood_frame (s : State) (b : FrameBody) (o : Option Nat) : { s.flood b o with ports := s.ports } = s := by
  unfold State.flood
  generalize s.upPorts = l
  suffices h : ∀ u : State, { l.foldl (fun (t : State) p => if o = some p then t else t.modPort p (fun z => { z with finder := z.finder ++ [(o, b)] })) u with
      ports := s.ports } = { u with ports := s.ports } from h s
  induction l with
  | nil => exact fun u => rfl
  | cons p l ih =>
    intro u
    rw [List.foldl_cons, ih]
    split <;> rfl

/-- The record that the module makes of itself when it announces a change: its own, at the next version. -/
def State.newRec (s : State) : AdjRec := (s.modDome (fun d => { d with finder := { d.finder with version := d.finder.version + 1 } })).ownRec

/-- The state with the new record held in place of the old one. -/
def State.renewed (s : State) : State :=
  s.modDome (fun d => { d with finder := { d.finder with version := d.finder.version + 1, recs := replaceRec s.newRec d.finder.recs } })

theorem State.announce_eq (s : State) : s.announce = s.renewed.flood (.finder s.newRec) none := rfl

/-- What an announcement may change: the finder and its STATE, and the messages that wait at ports (R342). -/
structure State.Announces (s t : State) : Prop where
  host : t.host = s.host
  dome : { t.dome with regs := s.dome.regs, finder := s.dome.finder } = s.dome
  reg : ∀ f : Fld, f.off ≠ FND_STATUS_STATE.off → t.dome_ f = s.dome_ f
  ports : ∀ q, { t.port q with finder := (s.port q).finder } = s.port q

theorem State.Announces.refl (s : State) : s.Announces s := ⟨rfl, rfl, fun _ _ => rfl, fun _ => rfl⟩

theorem State.announce_announces (s : State) : s.Announces s.announce := by
  have hframe : { s.announce with ports := s.ports } = { s.renewed with ports := s.ports } := s.renewed.flood_frame _ none
  have hdome : s.announce.dome = s.renewed.dome := by
    have := congrArg State.dome hframe
    exact this
  have hhost : s.announce.host = s.renewed.host := by
    have := congrArg State.host hframe
    exact this
  refine ⟨hhost, by rw [hdome]; rfl, fun f _ => ?_, fun q => ?_⟩
  · rw [State.dome_, hdome]
    rfl
  · rw [State.announce_eq, State.port_flood]
    split <;> rfl

theorem State.finderStart_announces (s : State) : s.Announces s.finderStart := by
  unfold State.finderStart
  dsimp only
  split
  · obtain ⟨hhost, hdome, hreg, hports⟩ := (s.setDome FND_STATUS_STATE 1).announce_announces
    exact ⟨hhost, congrArg (fun d : Dome => { d with regs := s.dome.regs }) hdome, fun f hf => (hreg f hf).trans (State.dome_setDome_ne s _ f 1 hf), hports⟩
  · exact .refl s

theorem State.portChanged_announces (s : State) : s.Announces s.portChanged := by
  unfold State.portChanged
  split
  · exact s.announce_announces
  · split
    · exact s.finderStart_announces
    · exact .refl s

section
variable {s t : State} (h : s.Announces t)
include h

theorem State.Announces.logged {u : State} {code region : Nat} (hlog : Logged u s code region) : Logged u t code region := by
  have hseq : t.dome.logSeq = s.dome.logSeq := by
    have := congrArg Dome.logSeq h.dome
    exact this
  have hpend : t.dome.logPend = s.dome.logPend := by
    have := congrArg Dome.logPend h.dome
    exact this
  unfold Logged at hlog ⊢
  rwa [hseq, hpend]

theorem State.Announces.rd (q : Nat) (f : Fld) : (t.port q).rd f = (s.port q).rd f := by
  have := congrArg (fun z : Port => z.rd f) (h.ports q)
  exact this
theorem State.Announces.disabling (q : Nat) : (t.port q).disabling = (s.port q).disabling := by
  have := congrArg Port.disabling (h.ports q)
  exact this
theorem State.Announces.retry (q : Nat) : (t.port q).retry = (s.port q).retry := by
  have := congrArg Port.retry (h.ports q)
  exact this
theorem State.Announces.egress (q : Nat) : (t.port q).egress = (s.port q).egress := by
  have := congrArg Port.egress (h.ports q)
  exact this

end

end Sys2Proof.Machine
end

section
namespace Sys2Proof.Machine

/-! ## A port goes DOWN (R334, R336) -/

/-- A port that has gone DOWN with a cause: nothing queued, no link state, and the packets of its retry buffer dropped (R336). -/
def Port.fallen (z : Port) (cause : Nat) : Port :=
  (((z.clear.noLanes.wr ZL_STATUS_STATE 6).wr ZL_STATUS_LAST_DOWN cause).wr ZL_EVENT_DOWN 1).countStart ZL_CNT_DROP_CNT
    ((z.retry.map (fun f => (bodyPkts f.body).length)).sum)

theorem Port.fallen_reads (z : Port) (cause : Nat) : (z.fallen cause).rd ZL_STATUS_STATE = 6 ∧ (z.fallen cause).rd ZL_STATUS_LAST_DOWN = cause % 8 ∧
    (z.fallen cause).rd ZL_EVENT_DOWN = 1 ∧ (z.fallen cause).rd ZL_CTRL_EN = z.rd ZL_CTRL_EN := by
  have hen : z.clear.rd ZL_CTRL_EN = z.rd ZL_CTRL_EN := rfl
  simp (disch := decide) [Port.fallen, Port.countStart, Port.noLanes, Port.rd_wr_ne, Port.rd_wr_same, Port.rd_wr_disjoint, hen]

section
variable {s : State} {p cause : Nat}

/-- The port's failure before the finder hears of it: its link state cleared, the fabric event raised and the record made. -/
def State.fallenAt (s : State) (p cause : Nat) : State :=
  ((((s.setPort p ((s.port p).fallen cause)).modDome (fun d => { d with finder := d.finder.dropPort p })).hifEvent 7).regionFailure 26
    (regionOf (portCluster p)) 0)

theorem State.portFail_announces (h : (s.port p).rd ZL_STATUS_STATE ∉ [0, 6]) : (s.fallenAt p cause).Announces (s.portFail p cause) := by
  have hon : ¬((s.port p).rd ZL_STATUS_STATE = 0 ∨ (s.port p).rd ZL_STATUS_STATE = 6) := by simpa using h
  unfold State.portFail
  extract_lets z z1 s1 s2
  rw [if_neg hon]
  change (s.fallenAt p cause).Announces (if z.rd ZL_STATUS_STATE = 5 then (s.fallenAt p cause).portChanged else s.fallenAt p cause)
  split
  · exact (s.fallenAt p cause).portChanged_announces
  · exact .refl _

theorem State.port_fallenAt (q : Nat) : (s.fallenAt p cause).port q = if q = p then (s.port p).fallen cause else s.port q := by
  have hports := ((OnlyDomeHost.hifEvent ((s.setPort p ((s.port p).fallen cause)).modDome (fun d => { d with finder := d.finder.dropPort p })) 7).trans
    (OnlyDomeHost.failure _ 26 (regionOf (portCluster p)) none 0 false (degrading 26))).ports
  refine (congrArg (fun m => SMap.get (fun _ => Port.reset) m q) hports).trans ?_
  exact State.port_setPort s p q _

theorem State.fallenAt_logged (hp : p < 64) : Logged s (s.fallenAt p cause) 26 (regionOf (portCluster p)) ∧ Pends (s.fallenAt p cause) 7 := by
  have hregion : ∀ k : Fin 64, regionOf (portCluster k.val) < 112 := by decide
  have hr := hregion ⟨p, hp⟩
  have hlog := State.regionFailure_logged (code := 26)
    (((s.setPort p ((s.port p).fallen cause)).modDome (fun d => { d with finder := d.finder.dropPort p })).hifEvent 7)
    (regionOf (portCluster p)) 0 rfl (by decide) (by decide) (by dsimp only at hr; omega)
  refine ⟨?_, Pends.regionFailure _ _ _ rfl (by decide) (by decide) (pends_hifEvent _ (by decide)) (by decide)⟩
  unfold Logged at hlog ⊢
  rwa [State.hifEvent_dome] at hlog

theorem State.dome_fallenAt (f : Fld) : (s.fallenAt p cause).dome_ f = s.dome_ f := by
  have hfail : ∀ u : State, (u.regionFailure 26 (regionOf (portCluster p)) 0).dome_ f = u.dome_ f := fun u => by
    rw [State.regionFailure_eq u _ 0 rfl (by decide) (by decide)]
    rfl
  rw [State.fallenAt, hfail, State.domeReg_hifEvent]
  rfl

theorem partner_ne (p : Nat) : partner p ≠ p := by
  unfold partner
  split <;> omega

/-- A port that has failed, with the ingress buffer that it held. -/
def State.failedAt (s : State) (p cause : Nat) : State := (s.portFail p cause).modPort p (fun y => { y with ingress := (s.port p).ingress })

theorem State.portDown_eq_of_off (h : (s.port p).rd ZL_STATUS_STATE ∈ [0, 6]) : s.portDown p cause = s := by
  unfold State.portDown
  exact if_pos (by simpa using h)

section
variable (h : (s.port p).rd ZL_STATUS_STATE ∉ [0, 6])
include h

/-- After a port's failure packets alone move, but at a partner that is being disabled (R336, R337). -/
theorem State.portDown_moves {on : Nat → Prop} (hpartner : on (partner p) → (s.port (partner p)).disabling = false) :
    (s.failedAt p cause).MovesAt on (s.portDown p cause) := by
  have hon : ¬((s.port p).rd ZL_STATUS_STATE = 0 ∨ (s.port p).rd ZL_STATUS_STATE = 6) := by simpa using h
  have hfail := State.portFail_announces (cause := cause) h
  have hown : ((s.failedAt p cause).port p).disabling = false := by
    rw [State.failedAt, State.port_modPort_same]
    refine (hfail.disabling p).trans ?_
    rw [State.port_fallenAt, if_pos rfl]
    rfl
  have hother : on (partner p) → ((s.failedAt p cause).port (partner p)).disabling = false := fun hq => by
    rw [State.failedAt, State.port_modPort_ne _ _ (partner_ne p), hfail.disabling, State.port_fallenAt, if_neg (partner_ne p)]
    exact hpartner hq
  have hback : (s.failedAt p cause).MovesAt on ((s.port p).queued.foldl (fun t k => t.reinject p k) (s.failedAt p cause)) :=
    .foldl (fun u k => .reinject u p k) _ _
  have hdrain : (s.failedAt p cause).MovesAt on (((s.port p).queued.foldl (fun t k => t.reinject p k) (s.failedAt p cause)).drainIngress p) :=
    hback.trans (.drainIngress fun hq => (hback.ports p hq).disabling.trans hown)
  unfold State.portDown
  dsimp only
  rw [if_neg hon]
  exact hdrain.trans (.drainIngress fun hq => (hdrain.ports _ hq).disabling.trans (hother hq))

/-- The port that has gone DOWN (R334, R336): its cause, and no link state. -/
theorem State.portDown_own : ((s.portDown p cause).port p).rd ZL_STATUS_STATE = 6 ∧ ((s.portDown p cause).port p).rd ZL_STATUS_LAST_DOWN = cause % 8 ∧
    ((s.portDown p cause).port p).rd ZL_EVENT_DOWN = 1 ∧ ((s.portDown p cause).port p).rd ZL_CTRL_EN = (s.port p).rd ZL_CTRL_EN ∧
    ((s.portDown p cause).port p).retry = [] ∧ ((s.portDown p cause).port p).egress = [] ∧ ((s.portDown p cause).port p).disabling = false ∧
    ((s.port p).ingress = [] → ((s.portDown p cause).port p).ingress = []) := by
  have hfail := State.portFail_announces (cause := cause) h
  have hfallen : (s.fallenAt p cause).port p = (s.port p).fallen cause := by rw [State.port_fallenAt, if_pos rfl]
  have hfailed : (s.failedAt p cause).port p = { (s.portFail p cause).port p with ingress := (s.port p).ingress } := State.port_modPort_same _ p _
  obtain ⟨hstate, hcause, hevent, hen⟩ := (s.port p).fallen_reads cause
  have hrd : ∀ f : Fld, f.off ≠ ZL_CNT_UNREACH_CNT.off → ((s.portDown p cause).port p).rd f = ((s.port p).fallen cause).rd f := fun f hf => by
    have hmoved := (State.portDown_moves (cause := cause) (on := fun q => q = p) h (fun hq => absurd hq (partner_ne p))).ports p rfl
    rw [hmoved.rd f hf, hfailed, ← hfallen]
    exact hfail.rd p f
  have hmoved := (State.portDown_moves (cause := cause) (on := fun q => q = p) h (fun hq => absurd hq (partner_ne p))).ports p rfl
  refine ⟨(hrd _ (by decide)).trans hstate, (hrd _ (by decide)).trans hcause, (hrd _ (by decide)).trans hevent, (hrd _ (by decide)).trans hen,
    ?_, ?_, ?_, fun hin => ?_⟩
  · rw [hmoved.retry, hfailed]
    exact (hfail.retry p).trans (by rw [hfallen]; rfl)
  · have hdown : ((s.failedAt p cause).port p).rd ZL_STATUS_STATE ≠ 5 := by
      rw [hfailed]
      change ((s.portFail p cause).port p).rd ZL_STATUS_STATE ≠ 5
      rw [hfail.rd, hfallen, hstate]
      decide
    rw [hmoved.egress hdown, hfailed]
    exact (hfail.egress p).trans (by rw [hfallen]; rfl)
  · rw [hmoved.disabling, hfailed]
    exact (hfail.disabling p).trans (by rw [hfallen]; rfl)
  · exact hmoved.ingress (by rw [hfailed]; exact hin)

/-- A port that goes DOWN makes a record of code 26 and the fabric event (R336, R366). -/
theorem State.portDown_logged (hp : p < 64) : Logged s (s.portDown p cause) 26 (regionOf (portCluster p)) ∧ Pends (s.portDown p cause) 7 := by
  have hmoves := State.portDown_moves (cause := cause) (on := fun _ => False) h False.elim
  have hfail := State.portFail_announces (cause := cause) h
  obtain ⟨hlog, hpend⟩ := State.fallenAt_logged (s := s) (cause := cause) hp
  refine ⟨?_, hmoves.pends 7 (by decide) (hpend.of_host hfail.host)⟩
  have hdone := hfail.logged hlog
  unfold Logged at hdone ⊢
  rwa [hmoves.dome]

end

/-- Another port keeps its registers, but UNREACH, where it is not a partner that is being disabled (R336). -/
theorem State.portDown_other {q : Nat} (hq : q ≠ p) (hdis : q = partner p → (s.port q).disabling = false) :
    (∀ f : Fld, f.off ≠ ZL_CNT_UNREACH_CNT.off → ((s.portDown p cause).port q).rd f = (s.port q).rd f) ∧
      ((s.portDown p cause).port q).disabling = (s.port q).disabling := by
  by_cases h : (s.port p).rd ZL_STATUS_STATE ∈ [0, 6]
  · rw [State.portDown_eq_of_off h]
    exact ⟨fun _ _ => rfl, rfl⟩
  · have hmoved := (State.portDown_moves (cause := cause) (on := fun k => k = q) h (fun hk => by rw [hk]; exact hdis hk.symm)).ports q rfl
    have hfail := State.portFail_announces (cause := cause) h
    have hport : (s.fallenAt p cause).port q = s.port q := by rw [State.port_fallenAt, if_neg hq]
    rw [State.failedAt, State.port_modPort_ne _ _ hq] at hmoved
    refine ⟨fun f hf => ?_, ?_⟩
    · rw [hmoved.rd f hf, hfail.rd, hport]
    · rw [hmoved.disabling, hfail.disabling, hport]

/-- Of the dome controller's registers a port that goes DOWN may change FND_STATUS alone (R342). -/
theorem State.dome_portDown {f : Fld} (hf : f.off ≠ FND_STATUS_STATE.off) : (s.portDown p cause).dome_ f = s.dome_ f := by
  by_cases h : (s.port p).rd ZL_STATUS_STATE ∈ [0, 6]
  · rw [State.portDown_eq_of_off h]
  · have hmoves := State.portDown_moves (cause := cause) (on := fun _ => False) h False.elim
    rw [State.dome_, hmoves.dome]
    exact ((State.portFail_announces h).reg f hf).trans (State.dome_fallenAt f)

end

end Sys2Proof.Machine
end

section
namespace Sys2Proof.Machine

/-! ## A port that trains (R332, R335) -/

@[simp] theorem Port.rd_light_state (z : Port) : z.light.rd ZL_STATUS_STATE = 1 := by
  change ((z.wr ZL_STATUS_STATE 1).wr ZL_STATUS_LANE_OK 0).rd ZL_STATUS_STATE = 1
  rw [Port.rd_wr_disjoint _ _ _ _ (by decide) (by decide), Port.rd_wr_same _ _ _ (by decide)]
  rfl

theorem Port.rd_light_ne (z : Port) {f : Fld} (h : f.off ≠ ZL_STATUS_STATE.off) : z.light.rd f = z.rd f :=
  (Port.rd_wr_ne _ ZL_STATUS_LANE_OK f _ h).trans (Port.rd_wr_ne z ZL_STATUS_STATE f _ h)

/-- The shares of the pairs stand in ZL_CRED0 and ZL_CRED1 (R332). -/
theorem Port.shares_congr {z w : Port} (h : ∀ f : Fld, f.off = ZL_CRED0_VC0_REQ.off ∨ f.off = ZL_CRED1_VC1_REQ.off → w.rd f = z.rd f) :
    w.shares = z.shares := by
  unfold Port.shares
  rw [h ZL_CRED0_VC0_REQ (.inl rfl), h ZL_CRED0_VC0_RSP (.inl rfl), h ZL_CRED1_VC1_REQ (.inr rfl), h ZL_CRED1_VC1_RSP (.inr rfl)]

section
variable {s : State} {p : Nat}

theorem OnlyPort.portTry (s : State) (p : Nat) : OnlyPort s (s.portTry p) p := by
  unfold State.portTry
  dsimp only
  split
  · split
    · exact .setPort s p _
    · split
      · exact .setPort s p _
      · exact .refl s p
  · exact .refl s p

/-- An enabled OFF port with an OK cartridge and valid shares enters LIGHT (R335). -/
theorem State.portTry_light (hoff : (s.port p).rd ZL_STATUS_STATE = 0) (hen : (s.port p).rd ZL_CTRL_EN = 1) (hup : s.adapterUp p = true)
    (hshares : (s.port p).sharesOk = true) (hcart : s.dome_ (ZL_CART_STATE.nth (p / 4)) = 1) : s.portTry p = s.setPort p (s.port p).light := by
  simp only [State.portTry, hoff, hen, hup, hshares, hcart, and_self, if_true, Bool.true_eq_false, if_false]

/-- Invalid shares set CFG_ERR instead (R335). -/
theorem State.portTry_cfgErr (hoff : (s.port p).rd ZL_STATUS_STATE = 0) (hen : (s.port p).rd ZL_CTRL_EN = 1) (hup : s.adapterUp p = true)
    (hshares : (s.port p).sharesOk = false) : s.portTry p = s.setPort p ((s.port p).wr ZL_EVENT_CFG_ERR 1) := by
  simp only [State.portTry, hoff, hen, hup, hshares, and_self, if_true]

/-- A port that is not OFF, or not enabled, does not start to train. -/
theorem State.portTry_idle (h : (s.port p).rd ZL_STATUS_STATE ≠ 0 ∨ (s.port p).rd ZL_CTRL_EN ≠ 1) : s.portTry p = s := by
  refine if_neg fun hall => ?_
  obtain ⟨hoff, hen, -⟩ := hall
  exact h.elim (fun hne => hne hoff) (fun hne => hne hen)

end

/-- A port with EN written 1 (R349). -/
def Port.enabled (z : Port) : Port := { z.wr ZL_CTRL_EN 1 with disabling := false }

theorem Port.rd_enabled_ne (z : Port) {f : Fld} (h : f.off ≠ ZL_CTRL_EN.off) : z.enabled.rd f = z.rd f := Port.rd_wr_ne z ZL_CTRL_EN f 1 h

@[simp] theorem Port.rd_enabled_en (z : Port) : z.enabled.rd ZL_CTRL_EN = 1 := Port.rd_wr_same z ZL_CTRL_EN 1 (by decide)

theorem Port.sharesOk_enabled (z : Port) : z.enabled.sharesOk = z.sharesOk := by
  have hshares : z.enabled.shares = z.shares :=
    Port.shares_congr fun f hf => z.rd_enabled_ne (by rcases hf with hf | hf <;> rw [hf] <;> decide)
  unfold Port.sharesOk
  rw [hshares]

/-- ZL_ENABLE writes EN and lets the port try (R335). -/
theorem exec_zlEnable_eq (s : State) (p : PortId) : exec (.zlEnable p) s = .next ((s.modPort p.val Port.enabled).portTry p.val) := rfl

theorem exec_zlEnable_light {s : State} {p : PortId} (hoff : (s.port p.val).rd ZL_STATUS_STATE = 0) (hup : s.adapterUp p.val = true)
    (hshares : (s.port p.val).sharesOk = true) (hcart : s.dome_ (ZL_CART_STATE.nth (p.val / 4)) = 1) :
    ∃ t, exec (.zlEnable p) s = .next t ∧ (t.port p.val).rd ZL_CTRL_EN = 1 ∧ (t.port p.val).rd ZL_STATUS_STATE = 1 ∧ OnlyPort s t p.val := by
  have hport := s.port_modPort_same p.val Port.enabled
  have htry : (s.modPort p.val Port.enabled).portTry p.val = (s.modPort p.val Port.enabled).setPort p.val (s.port p.val).enabled.light := by
    rw [State.portTry_light (s := s.modPort p.val Port.enabled) ?_ ?_ hup ?_ hcart, hport]
    · rw [hport, Port.rd_enabled_ne _ (by decide)]
      exact hoff
    · rw [hport, Port.rd_enabled_en]
    · rw [hport, Port.sharesOk_enabled]
      exact hshares
  refine ⟨_, exec_zlEnable_eq s p, ?_, ?_, (OnlyPort.modPort s p.val _).trans (OnlyPort.portTry _ p.val)⟩ <;> rw [htry, State.port_setPort_same]
  · rw [Port.rd_light_ne _ (by decide), Port.rd_enabled_en]
  · exact Port.rd_light_state _

theorem exec_zlEnable_cfgErr {s : State} {p : PortId} (hoff : (s.port p.val).rd ZL_STATUS_STATE = 0) (hup : s.adapterUp p.val = true)
    (hshares : (s.port p.val).sharesOk = false) :
    ∃ t, exec (.zlEnable p) s = .next t ∧ (t.port p.val).rd ZL_EVENT_CFG_ERR = 1 ∧ (t.port p.val).rd ZL_STATUS_STATE = 0 ∧ OnlyPort s t p.val := by
  have hport := s.port_modPort_same p.val Port.enabled
  have htry : (s.modPort p.val Port.enabled).portTry p.val =
      (s.modPort p.val Port.enabled).setPort p.val ((s.port p.val).enabled.wr ZL_EVENT_CFG_ERR 1) := by
    rw [State.portTry_cfgErr (s := s.modPort p.val Port.enabled) ?_ ?_ hup ?_, hport]
    · rw [hport, Port.rd_enabled_ne _ (by decide)]
      exact hoff
    · rw [hport, Port.rd_enabled_en]
    · rw [hport, Port.sharesOk_enabled]
      exact hshares
  refine ⟨_, exec_zlEnable_eq s p, ?_, ?_, (OnlyPort.modPort s p.val _).trans (OnlyPort.portTry _ p.val)⟩ <;> rw [htry, State.port_setPort_same]
  · exact Port.rd_wr_same _ _ _ (by decide)
  · rw [Port.rd_wr_ne _ _ _ _ (by decide), Port.rd_enabled_ne _ (by decide)]
    exact hoff

/-- A command whose whole effect is that its port enters LIGHT. -/
theorem exec_light {i : Instr} {s : State} {p : PortId} (hexec : exec i s = .next (s.setPort p.val (s.port p.val).light)) :
    ∃ t, exec i s = .next t ∧ (t.port p.val).rd ZL_STATUS_STATE = 1 ∧ OnlyPort s t p.val :=
  ⟨_, hexec, by rw [State.port_setPort_same, Port.rd_light_state], .setPort s p.val _⟩

/-! ## The exchange (R335) -/

/-- A port that has met its peer: the peer's identity and the latency (R335). -/
def Port.met (z : Port) (a : TrainParams) : Port :=
  (((({ z with peerStamp := a.stamp } : Port).wr ZL_PEER_LO_FID_LO (a.fid % 2 ^ 32)).wr ZL_PEER_HI_FID_HI (a.fid / 2 ^ 32)).wr ZL_PEER_PORT_PORT a.port).wr
    ZL_LAT_NS a.lat

theorem Port.rd_met_ne (z : Port) (a : TrainParams) {f : Fld} (hf : f.off < ZL_PEER_LO_FID_LO.off ∨ ZL_LAT_NS.off < f.off) : (z.met a).rd f = z.rd f := by
  have hne : f.off ≠ 0xC ∧ f.off ≠ 0x10 ∧ f.off ≠ 0x14 ∧ f.off ≠ 0x18 := by
    change f.off < 0xC ∨ 0x18 < f.off at hf
    omega
  obtain ⟨hlo, hhi, hport, hlat⟩ := hne
  rw [Port.met, Port.rd_wr_ne _ _ _ _ hlat, Port.rd_wr_ne _ _ _ _ hport, Port.rd_wr_ne _ _ _ _ hhi, Port.rd_wr_ne _ _ _ _ hlo]
  rfl

/-- A port at full width that has come UP (R335). -/
def Port.risen (z : Port) : Port :=
  { (((z.wr ZL_STATUS_STATE 5).wr ZL_STATUS_WIDTH4 0).wr ZL_STATUS_HIGH_GROUP 0).wr ZL_EVENT_UP 1 with
    credits := (List.range 4).foldl (fun m k => SMap.set (fun _ => 0) m k (z.shares.getD k 0)) []
    owed := [], retry := [], txSeq := 0, rxSeq := 0, acked := 4095, ackOwed := false, nakOwed := false, nakFrames := 0, replay := [], replays := 0,
    replayAck := none }

theorem Port.risen_reads (z : Port) : z.risen.rd ZL_STATUS_STATE = 5 ∧ z.risen.rd ZL_EVENT_UP = 1 ∧
    ∀ f : Fld, ZL_EVENT_UP.off < f.off → z.risen.rd f = z.rd f := by
  have hregs : ∀ f, z.risen.rd f = ((((z.wr ZL_STATUS_STATE 5).wr ZL_STATUS_WIDTH4 0).wr ZL_STATUS_HIGH_GROUP 0).wr ZL_EVENT_UP 1).rd f := fun _ => rfl
  refine ⟨?_, ?_, fun f hf => ?_⟩
  · rw [hregs]
    simp (disch := decide) [Port.rd_wr_ne, Port.rd_wr_same, Port.rd_wr_disjoint]
  · rw [hregs, Port.rd_wr_same _ _ _ (by decide)]
    rfl
  · have hup : f.off ≠ ZL_EVENT_UP.off := Nat.ne_of_gt hf
    have hstatus : f.off ≠ ZL_STATUS_STATE.off := Nat.ne_of_gt (lt_trans (by decide) hf)
    rw [hregs, Port.rd_wr_ne _ _ _ _ hup, Port.rd_wr_ne _ ZL_STATUS_HIGH_GROUP _ _ hstatus, Port.rd_wr_ne _ ZL_STATUS_WIDTH4 _ _ hstatus,
      Port.rd_wr_ne _ _ _ _ hstatus]

/-- The credits at UP are the shares (R332, R335). -/
theorem Port.risen_credits (z : Port) : (List.range 4).map (fun k => SMap.get (fun _ => 0) z.risen.credits k) = z.shares := by
  have hget : ∀ k ∈ List.range 4, SMap.get (fun _ => 0) z.risen.credits k = z.shares.getD k 0 := fun k hk =>
    (SMap.get_foldl_set (fun j => z.shares.getD j 0) (List.range 4) [] k).trans (if_pos hk)
  rw [List.map_congr_left hget]
  rfl

/-- A port that comes UP: the fabric event, and the finder hears of it (R335, R346). -/
theorem State.goUp_spec (s : State) (p : Nat) : Pends (s.goUp p false false) 7 ∧
    { (s.goUp p false false).port p with finder := (s.port p).risen.finder } = (s.port p).risen ∧
    (s.goUp p false false).regions = s.regions ∧ (s.goUp p false false).clusters = s.clusters := by
  have hgo : s.goUp p false false = ((s.setPort p (s.port p).risen).hifEvent 7).portChanged := rfl
  have hport : ((s.setPort p (s.port p).risen).hifEvent 7).port p = (s.port p).risen :=
    (congrArg (fun m => SMap.get (fun _ => Port.reset) m p) (OnlyDomeHost.hifEvent _ 7).ports).trans (State.port_setPort_same s p _)
  have honly : OnlyPortsDomeHost s (s.goUp p false false) :=
    OnlyPortsDomeHost.trans (t := s.setPort p (s.port p).risen) rfl ((OnlyDomeHost.hifEvent _ 7).portsToo.trans (State.portChanged_only _))
  have hann := ((s.setPort p (s.port p).risen).hifEvent 7).portChanged_announces
  have hown := hann.ports p
  rw [hport, ← hgo] at hown
  exact ⟨(pends_hifEvent _ (by decide)).of_host hann.host, hown, honly.regions, honly.clusters⟩

section
variable {s : State} {p : PortId} {a : TrainParams} (hparam : (s.port p.val).rd ZL_STATUS_STATE = 4)
include hparam

/-- An exchange of at most 400 ns with all lanes common leads to UP (R335). -/
theorem exec_zlTrainColumn_up (hlat : a.lat ≤ 400) (hboth : (s.port p.val).rd ZL_STATUS_LANE_OK &&& a.lanes = 255) :
    exec (.zlTrainColumn p a) s = .next ((s.setPort p.val ((s.port p.val).met a)).goUp p.val false false) := by
  change (if (s.port p.val).rd ZL_STATUS_STATE = 4 then _ else _) = _
  rw [if_pos hparam]
  refine congrArg Host.Outcome.next ?_
  rw [if_neg (Nat.not_lt.2 hlat)]
  exact if_pos hboth

/-- A greater latency takes the port DOWN (R335). -/
theorem exec_zlTrainColumn_far (hlat : 400 < a.lat) :
    exec (.zlTrainColumn p a) s = .next ((s.setPort p.val ((s.port p.val).met a)).portDown p.val 5) := by
  change (if (s.port p.val).rd ZL_STATUS_STATE = 4 then _ else _) = _
  rw [if_pos hparam]
  exact congrArg Host.Outcome.next (if_pos hlat)

end

/-- Before PARAM a TRAIN column leaves its time stamp alone (R335). -/
theorem exec_zlTrainColumn_stamps {s : State} {p : PortId} (a : TrainParams) (h : (s.port p.val).rd ZL_STATUS_STATE ∈ [1, 2, 3]) :
    exec (.zlTrainColumn p a) s = .next (s.setPort p.val { s.port p.val with peerStamp := a.stamp }) := by
  have hrange : 1 ≤ (s.port p.val).rd ZL_STATUS_STATE ∧ (s.port p.val).rd ZL_STATUS_STATE ≤ 3 := by
    simp only [List.mem_cons, List.not_mem_nil, or_false] at h
    omega
  change (if (s.port p.val).rd ZL_STATUS_STATE = 4 then _ else _) = _
  rw [if_neg (by omega)]
  exact if_pos hrange

end Sys2Proof.Machine
end

section
namespace Sys2Proof.Machine

/-! ## The shares (R332, R349) -/

theorem Port.rd_wr_of (z : Port) (f : Fld) (v : W32) (h : f.lo + f.width ≤ 32) : (z.wr f (f.of v)).rd f = f.of v :=
  (Port.rd_wr_same z f _ h).trans (Nat.mod_eq_of_lt (f.of_lt v))

/-- A port with the shares of a VC written. -/
def Port.credited (z : Port) (k : Fin 2) (v : W32) : Port :=
  if k.val = 0 then (z.wr ZL_CRED0_VC0_REQ (ZL_CRED0_VC0_REQ.of v)).wr ZL_CRED0_VC0_RSP (ZL_CRED0_VC0_RSP.of v)
  else (z.wr ZL_CRED1_VC1_REQ (ZL_CRED1_VC1_REQ.of v)).wr ZL_CRED1_VC1_RSP (ZL_CRED1_VC1_RSP.of v)

theorem Port.credited_reads (z : Port) (k : Fin 2) (v : W32) :
    (k.val = 0 → (z.credited k v).rd ZL_CRED0_VC0_REQ = ZL_CRED0_VC0_REQ.of v ∧ (z.credited k v).rd ZL_CRED0_VC0_RSP = ZL_CRED0_VC0_RSP.of v) ∧
    (k.val = 1 → (z.credited k v).rd ZL_CRED1_VC1_REQ = ZL_CRED1_VC1_REQ.of v ∧ (z.credited k v).rd ZL_CRED1_VC1_RSP = ZL_CRED1_VC1_RSP.of v) := by
  refine ⟨fun hk => ?_, fun hk => ?_⟩ <;> unfold Port.credited
  · rw [if_pos hk, Port.rd_wr_of _ _ _ (by decide), Port.rd_wr_disjoint _ _ _ _ (by decide) (by decide), Port.rd_wr_of _ _ _ (by decide)]
    exact ⟨rfl, rfl⟩
  · rw [if_neg (by omega), Port.rd_wr_of _ _ _ (by decide), Port.rd_wr_disjoint _ _ _ _ (by decide) (by decide), Port.rd_wr_of _ _ _ (by decide)]
    exact ⟨rfl, rfl⟩

theorem Port.credited_regs (z : Port) (k : Fin 2) (v : W32) :
    PortRegs z (z.credited k v) [if k.val = 0 then ZL_CRED0_VC0_REQ.off else ZL_CRED1_VC1_REQ.off] := by
  unfold Port.credited
  split
  · exact ((PortRegs.refl z _).wr ZL_CRED0_VC0_REQ _ (List.mem_singleton.2 rfl)).wr ZL_CRED0_VC0_RSP _ (List.mem_singleton.2 rfl)
  · exact ((PortRegs.refl z _).wr ZL_CRED1_VC1_REQ _ (List.mem_singleton.2 rfl)).wr ZL_CRED1_VC1_RSP _ (List.mem_singleton.2 rfl)

theorem Port.rd_credited_ne (z : Port) (k : Fin 2) (v : W32) {f : Fld} (h0 : f.off ≠ ZL_CRED0_VC0_REQ.off) (h1 : f.off ≠ ZL_CRED1_VC1_REQ.off) :
    (z.credited k v).rd f = z.rd f := by
  unfold Port.credited
  split
  · exact (Port.rd_wr_ne _ ZL_CRED0_VC0_RSP f _ h0).trans (Port.rd_wr_ne z ZL_CRED0_VC0_REQ f _ h0)
  · exact (Port.rd_wr_ne _ ZL_CRED1_VC1_RSP f _ h1).trans (Port.rd_wr_ne z ZL_CRED1_VC1_REQ f _ h1)

/-- The shares after those of VC 0 are written. -/
theorem Port.shares_credited (z : Port) (v : W32) :
    (z.credited 0 v).shares = [ZL_CRED0_VC0_REQ.of v, ZL_CRED0_VC0_RSP.of v, z.rd ZL_CRED1_VC1_REQ, z.rd ZL_CRED1_VC1_RSP] := by
  obtain ⟨hreq, hrsp⟩ := (z.credited_reads 0 v).1 rfl
  have hkeep : ∀ f : Fld, f.off = ZL_CRED1_VC1_REQ.off → (z.credited 0 v).rd f = z.rd f := fun f hf =>
    (Port.rd_wr_ne _ ZL_CRED0_VC0_RSP f _ (by rw [hf]; decide)).trans (Port.rd_wr_ne z ZL_CRED0_VC0_REQ f _ (by rw [hf]; decide))
  rw [Port.shares, hreq, hrsp, hkeep ZL_CRED1_VC1_REQ rfl, hkeep ZL_CRED1_VC1_RSP rfl]

/-- A write of shares while the port is OFF (R332). -/
theorem exec_zlCredWrite_off {s : State} {p : PortId} (k : Fin 2) (v : W32) (h : (s.port p.val).rd ZL_STATUS_STATE = 0) :
    exec (.zlCredWrite p k v) s = .next ((s.setPort p.val ((s.port p.val).credited k v)).portTry p.val) :=
  congrArg (fun z => Host.Outcome.next ((s.setPort p.val z).portTry p.val)) (if_neg (fun hne => hne h))

/-- At any other time it sets CFG_ERR alone (R332). -/
theorem exec_zlCredWrite_on {s : State} {p : PortId} (k : Fin 2) (v : W32) (h : (s.port p.val).rd ZL_STATUS_STATE ≠ 0) :
    exec (.zlCredWrite p k v) s = .next (s.setPort p.val ((s.port p.val).wr ZL_EVENT_CFG_ERR 1)) := by
  have hwrite : exec (.zlCredWrite p k v) s = .next ((s.setPort p.val ((s.port p.val).wr ZL_EVENT_CFG_ERR 1)).portTry p.val) :=
    congrArg (fun z => Host.Outcome.next ((s.setPort p.val z).portTry p.val)) (if_pos h)
  rw [hwrite, State.portTry_idle]
  rw [State.port_setPort_same, Port.rd_wr_ne _ _ _ _ (by decide)]
  exact .inl h

/-- Valid shares let an enabled OFF port train (R335). -/
theorem exec_zlCredWrite_trains {s : State} {p : PortId} {v : W32} (hoff : (s.port p.val).rd ZL_STATUS_STATE = 0)
    (hen : (s.port p.val).rd ZL_CTRL_EN = 1) (hup : s.adapterUp p.val = true) (hcart : s.dome_ (ZL_CART_STATE.nth (p.val / 4)) = 1)
    (hok : ((s.port p.val).credited 0 v).sharesOk = true) :
    ∃ t, exec (.zlCredWrite p 0 v) s = .next t ∧ OnlyPort s t p.val ∧ t.port p.val = ((s.port p.val).credited 0 v).light := by
  have hport := s.port_setPort_same p.val ((s.port p.val).credited 0 v)
  have htry := State.portTry_light (s := s.setPort p.val ((s.port p.val).credited 0 v)) (p := p.val)
    (by rw [hport, Port.rd_credited_ne _ _ _ (by decide) (by decide)]; exact hoff)
    (by rw [hport, Port.rd_credited_ne _ _ _ (by decide) (by decide)]; exact hen) hup (by rw [hport]; exact hok) hcart
  refine ⟨_, exec_zlCredWrite_off 0 v hoff, (OnlyPort.setPort s p.val _).trans (OnlyPort.portTry _ p.val), ?_⟩
  rw [htry, State.port_setPort_same, hport]

/-! ## A port that fails (R334, R336) -/

theorem State.upDown_up {s : State} {p : Nat} (cause : Nat) (h : s.portUp p = true) : s.upDown p cause = s.portDown p cause := if_pos h

theorem State.trains_of_up {s : State} {p : Nat} (h : s.portUp p = true) : (s.port p).rd ZL_STATUS_STATE ∉ [0, 6] := by
  rw [(s.portUp_iff p).1 h]
  decide

/-- A command that takes its port DOWN with a cause. -/
theorem exec_down {i : Instr} {s : State} {p : PortId} {cause : Nat} (hexec : exec i s = .next (s.portDown p.val cause))
    (h : (s.port p.val).rd ZL_STATUS_STATE ∉ [0, 6]) (hcause : cause < 8) :
    ∃ t, exec i s = .next t ∧
      ((t.port p.val).rd ZL_STATUS_STATE = 6 ∧ (t.port p.val).rd ZL_STATUS_LAST_DOWN = cause ∧ (t.port p.val).rd ZL_EVENT_DOWN = 1) ∧
      (t.port p.val).retry = [] ∧ (t.port p.val).egress = [] ∧ Logged s t 26 (regionOf (portCluster p.val)) ∧ Pends t 7 := by
  obtain ⟨hstate, hlast, hevent, -, hretry, hegress, -, -⟩ := State.portDown_own (cause := cause) h
  obtain ⟨hlog, hpend⟩ := State.portDown_logged (cause := cause) h p.isLt
  exact ⟨_, hexec, ⟨hstate, hlast.trans (Nat.mod_eq_of_lt hcause), hevent⟩, hretry, hegress, hlog, hpend⟩

/-- ZL_DISABLE of an UP port with nothing at ingress: DOWN with cause 7, and OFF (R334, R335). -/
theorem exec_zlDisable_off {s : State} {p : PortId} (hup : s.portUp p.val = true) (hin : (s.port p.val).ingress = []) :
    ∃ t, exec (.zlDisable p) s = .next t ∧ (t.port p.val).rd ZL_STATUS_STATE = 0 ∧ (t.port p.val).rd ZL_STATUS_LAST_DOWN = 7 ∧
      (t.port p.val).rd ZL_CTRL_EN = 0 ∧ Logged s t 26 (regionOf (portCluster p.val)) := by
  have hport := s.port_modPort_same p.val (fun z => z.wr ZL_CTRL_EN 0)
  have hup' : (s.modPort p.val (fun z => z.wr ZL_CTRL_EN 0)).portUp p.val = true := by
    rw [State.portUp_iff, hport, Port.rd_wr_ne _ _ _ _ (by decide)]
    exact (s.portUp_iff p.val).1 hup
  have htrains := State.trains_of_up hup'
  have hen : ((s.modPort p.val (fun z => z.wr ZL_CTRL_EN 0)).port p.val).rd ZL_CTRL_EN = 0 := by
    rw [hport]
    exact Port.rd_wr_same _ _ _ (by decide)
  obtain ⟨-, hlast, -, hkeep, -, -, -, hempty⟩ := State.portDown_own (cause := 7) htrains
  have hlog : Logged s ((s.modPort p.val (fun z => z.wr ZL_CTRL_EN 0)).portDown p.val 7) 26 (regionOf (portCluster p.val)) :=
    (State.portDown_logged (cause := 7) htrains p.isLt).1
  have hexec : exec (.zlDisable p) s = .next
      ((((s.modPort p.val (fun z => z.wr ZL_CTRL_EN 0)).upDown p.val 7).modPort p.val (fun z => { z with disabling := true })).drainIngress p.val) := rfl
  rw [State.upDown_up 7 hup'] at hexec
  generalize (s.modPort p.val (fun z => z.wr ZL_CTRL_EN 0)).portDown p.val 7 = u at hexec hlast hkeep hempty hlog
  have hmark := u.port_modPort_same p.val (fun z => { z with disabling := true })
  rw [State.drainIngress_off (by rw [hmark]) (by rw [hmark]; exact hempty (by rw [hport]; exact hin))] at hexec
  have hreads : ∀ f, (({ u.port p.val with disabling := true } : Port)).rd f = (u.port p.val).rd f := fun _ => rfl
  obtain ⟨hoff, hlastOff, henOff⟩ := ({ u.port p.val with disabling := true } : Port).wentOff_reads
  refine ⟨_, hexec, ?_, ?_, ?_, hlog⟩ <;> rw [State.port_modPort_same, hmark]
  · exact hoff
  · exact hlastOff.trans ((hreads _).trans hlast)
  · exact henOff.trans ((hreads _).trans (hkeep.trans hen))

end Sys2Proof.Machine
end

section
namespace Sys2Proof.Machine

/-! ## Ports train and fail -/

theorem OnlyPort.bridge {s u : State} {p : Nat} (h : OnlyPort s u p) (o : List Output) (b : Bridge) :
    OnlyPort { s with out := o, host := b } { u with out := o, host := b } p :=
  ⟨congrArg (fun x : State => { x with out := o, host := b }) h.1, h.2⟩

/-- A read of ZL_TICK_LO shows the low word of the last TICK column's number and latches the high word (R349). -/
theorem exec_zlTickRead_latches {s : State} {p : PortId} (hr : s.ready = true) (hp : s.host.posted = []) :
    ∃ t, exec (.zlTickRead p) s = .next t ∧
      t.out = s.out ++ [Output.hostRead false (0x200024 + 0x100 * p.val) (leBytes 4 ((s.port p.val).tick % 2 ^ 32)) false] ∧
      (t.port p.val).rd ZL_TICK_HI_NUM_HI = (s.port p.val).tick / 2 ^ 32 % 2 ^ 32 ∧
      OnlyPort { s with out := t.out, host := t.host } t p.val ∧ CountedRead s t := by
  have hread : State.portTickRead p.val s =
      ((s.port p.val).tick % 2 ^ 32, s.setPort p.val ((s.port p.val).wr ZL_TICK_HI_NUM_HI ((s.port p.val).tick / 2 ^ 32))) := rfl
  obtain ⟨o, b, hexec, hout, hcount⟩ := bar0Read_answered (i := .zlTickRead p) rfl hr hread ⟨rfl, rfl⟩ hp
  have hport : ({ s.setPort p.val ((s.port p.val).wr ZL_TICK_HI_NUM_HI ((s.port p.val).tick / 2 ^ 32)) with out := o, host := b } : State).port p.val =
      (s.port p.val).wr ZL_TICK_HI_NUM_HI ((s.port p.val).tick / 2 ^ 32) := State.port_setPort_same s p.val _
  refine ⟨_, hexec, hout, ?_, (OnlyPort.setPort s p.val _).bridge o b, hcount⟩
  rw [hport]
  exact Port.rd_wr_same _ _ _ (by decide)

/-- The end of an exchange that leads to UP (R332, R335, R346). -/
theorem exec_zlTrainColumn_rises {s : State} {p : PortId} {a : TrainParams} (hparam : (s.port p.val).rd ZL_STATUS_STATE = 4) (hlat : a.lat ≤ 400)
    (hboth : (s.port p.val).rd ZL_STATUS_LANE_OK &&& a.lanes = 255) :
    ∃ t, exec (.zlTrainColumn p a) s = .next t ∧
      { t.port p.val with finder := ((s.port p.val).met a).risen.finder } = ((s.port p.val).met a).risen ∧
      Pends t 7 ∧ t.regions = s.regions ∧ t.clusters = s.clusters := by
  obtain ⟨hpend, hown, hregions, hclusters⟩ := (s.setPort p.val ((s.port p.val).met a)).goUp_spec p.val
  rw [State.port_setPort_same] at hown
  exact ⟨_, exec_zlTrainColumn_up hparam hlat hboth, hown, hpend, hregions, hclusters⟩

theorem Port.met_reads (z : Port) (a : TrainParams) (hlat : a.lat ≤ 400) :
    (z.met a).rd ZL_LAT_NS = a.lat ∧ (z.met a).rd ZL_PEER_PORT_PORT = a.port % 2 ^ ZL_PEER_PORT_PORT.width ∧ (z.met a).shares = z.shares := by
  refine ⟨?_, ?_, Port.shares_congr fun f hf => z.rd_met_ne a (.inr ?_)⟩
  · refine (Port.rd_wr_same _ ZL_LAT_NS a.lat (by decide)).trans (Nat.mod_eq_of_lt (lt_of_le_of_lt hlat ?_))
    decide
  · exact (Port.rd_wr_ne _ ZL_LAT_NS ZL_PEER_PORT_PORT _ (by decide)).trans (Port.rd_wr_same _ ZL_PEER_PORT_PORT a.port (by decide))
  · rcases hf with hf | hf <;> rw [hf] <;> decide

/-- Settles O43: the commands of training, and those that take a port DOWN, by what each leaves of its port. -/
theorem portsTrainAndFail : Obligations.PortsTrainAndFail := by
  unfold Obligations.PortsTrainAndFail
  refine ⟨?_, ?_, ?_, ?_, ?_, ?_, ?_, ?_, ?_, ?_, ?_, ?_, ?_, ?_, ?_, ?_, ?_, ?_, ?_, ?_, ?_⟩
  · exact fun s p hoff hup hshares hcart => exec_zlEnable_light hoff hup hshares hcart
  · exact fun s p hoff hup hshares => exec_zlEnable_cfgErr hoff hup hshares
  · intro s p v hlight hall
    have hlit : v.toNat % 256 &&& 15 = 15 ∨ v.toNat % 256 &&& 240 = 240 := by rw [hall]; decide
    have hexec : exec (.lightReceived p v) s = .next (s.setPort p.val { (s.port p.val).wr ZL_STATUS_STATE 2 with deskewed := v.toNat % 256 }) :=
      congrArg Host.Outcome.next (if_pos ⟨hlight, hlit⟩)
    refine ⟨_, hexec, ?_, ?_, .setPort s p.val _, ?_⟩ <;> rw [State.port_setPort_same]
    · exact Port.rd_wr_same _ _ _ (by decide)
    · exact hall
    · exact (PortRegs.refl _ _).wr ZL_STATUS_STATE 2 (List.mem_singleton.2 rfl)
  · intro s p v hlock hlanes
    have hexec : exec (.lockAchieved p v) s = .next (s.setPort p.val
        { ((s.port p.val).wr ZL_STATUS_STATE 3).wr ZL_STATUS_LANE_OK (v.toNat % 256) with deskewed := 0 }) :=
      congrArg Host.Outcome.next (if_pos ⟨hlock, hlanes⟩)
    refine ⟨_, hexec, ?_, ?_, .setPort s p.val _⟩ <;> rw [State.port_setPort_same]
    · exact (Port.rd_wr_disjoint _ ZL_STATUS_LANE_OK _ _ (by decide) (by decide)).trans (Port.rd_wr_same _ _ _ (by decide))
    · exact (Port.rd_wr_same _ ZL_STATUS_LANE_OK _ (by decide)).trans (Nat.mod_mod _ _)
  · exact fun s p hlock => exec_light (congrArg Host.Outcome.next (if_pos hlock))
  · intro s p v halign hnone hall
    have hd : (s.port p.val).deskewed ||| (v.toNat &&& (s.port p.val).rd ZL_STATUS_LANE_OK) = 255 := by rw [hnone, hall]; rfl
    have hexec : exec (.zlAlignColumn p v) s = .next (s.setPort p.val (({ s.port p.val with deskewed := 255 } : Port).wr ZL_STATUS_STATE 4)) := by
      change execZlAlignColumn p v s = _
      unfold execZlAlignColumn
      simp only [halign, hd, if_true, beq_self_eq_true, Bool.true_or]
    refine ⟨_, hexec, ?_, ?_, .setPort s p.val _⟩ <;> rw [State.port_setPort_same]
    · exact Port.rd_wr_same _ _ _ (by decide)
    · rfl
  · exact fun s p halign => exec_light (congrArg Host.Outcome.next (if_pos halign))
  · intro s p a hparam hlat hboth
    obtain ⟨t, hexec, hown, hpend, hregions, hclusters⟩ := exec_zlTrainColumn_rises hparam hlat hboth
    obtain ⟨hlatency, hpeer, hshares⟩ := (s.port p.val).met_reads a hlat
    obtain ⟨hstate, hevent, hkeep⟩ := ((s.port p.val).met a).risen_reads
    have hrd : ∀ f, (t.port p.val).rd f = ((s.port p.val).met a).risen.rd f := fun f => by
      have := congrArg (fun z : Port => z.rd f) hown
      exact this
    refine ⟨t, hexec, ?_, ?_, ?_, ?_, ?_, ?_, ?_, ?_, hpend, hregions, hclusters⟩
    · rw [hrd, hstate]
    · rw [hrd, hkeep _ (by decide), hlatency]
      rfl
    · rw [hrd, hkeep _ (by decide), hpeer]
    · rw [hrd, hevent]
    · have := congrArg Port.txSeq hown
      exact this
    · have := congrArg Port.rxSeq hown
      exact this
    · have := congrArg Port.retry hown
      exact this
    · have hcredits : (t.port p.val).credits = ((s.port p.val).met a).risen.credits := by
        have := congrArg Port.credits hown
        exact this
      rw [hcredits, Port.risen_credits, hshares]
  · intro s p a htrain
    refine ⟨_, exec_zlTrainColumn_stamps a htrain, ?_, .setPort s p.val _, ?_⟩ <;> rw [State.port_setPort_same]
  · intro s p a hparam hfar
    have hmet : ((s.setPort p.val ((s.port p.val).met a)).port p.val).rd ZL_STATUS_STATE ∉ [0, 6] := by
      rw [State.port_setPort_same, Port.rd_met_ne _ _ (.inl (by decide)), hparam]
      decide
    obtain ⟨hstate, hlast, -⟩ := State.portDown_own (cause := 5) hmet
    exact ⟨_, exec_zlTrainColumn_far hparam hfar, hstate, hlast, (State.portDown_logged (cause := 5) hmet p.isLt).1⟩
  · exact fun s p hdown hen hup => exec_light (congrArg Host.Outcome.next (if_pos ⟨hdown, hen, hup⟩))
  · intro s p hup
    obtain ⟨t, hexec, ⟨hstate, hlast, hevent⟩, hretry, hegress, hlog, hpend⟩ :=
      exec_down (i := .lightLoss p) (congrArg Host.Outcome.next (State.upDown_up 1 hup)) (State.trains_of_up hup) (by decide)
    exact ⟨t, hexec, hstate, hlast, hevent, hretry, hegress, hlog, hpend⟩
  · intro s p hup
    obtain ⟨t, hexec, ⟨hstate, hlast, hevent⟩, hretry, hegress, hlog, -⟩ :=
      exec_down (i := .fecLockLoss p) (congrArg Host.Outcome.next (State.upDown_up 2 hup)) (State.trains_of_up hup) (by decide)
    exact ⟨t, hexec, hstate, hlast, hevent, hretry, hegress, hlog⟩
  · intro s p hup hheld
    have hexec : exec (.ackTimeout p) s = .next (s.portDown p.val 4) :=
      congrArg Host.Outcome.next ((if_neg (by simpa using hheld)).trans (State.upDown_up 4 hup))
    obtain ⟨t, hexec, ⟨hstate, hlast, hevent⟩, hretry, hegress, hlog, -⟩ := exec_down hexec (State.trains_of_up hup) (by decide)
    exact ⟨t, hexec, hstate, hlast, hevent, hretry, hegress, hlog⟩
  · intro s p hparam
    obtain ⟨t, hexec, ⟨hstate, hlast, hevent⟩, -, -, hlog, -⟩ :=
      exec_down (i := .paramTimeout p) (congrArg Host.Outcome.next (if_pos hparam)) (by rw [hparam]; decide) (by decide)
    exact ⟨t, hexec, hstate, hlast, hevent, hlog⟩
  · intro s p hup
    obtain ⟨t, hexec, ⟨hstate, hlast, hevent⟩, hretry, hegress, hlog, -⟩ :=
      exec_down (i := .zlRetrain p) rfl (State.trains_of_up hup) (by decide)
    exact ⟨t, hexec, hstate, hlast, hevent, hretry, hegress, hlog⟩
  · exact fun s p hup hin => exec_zlDisable_off hup hin
  · intro s p k v hoff hen
    have hidle : (s.setPort p.val ((s.port p.val).credited k v)).portTry p.val = s.setPort p.val ((s.port p.val).credited k v) := by
      refine State.portTry_idle (.inr ?_)
      rw [State.port_setPort_same, Port.rd_credited_ne _ _ _ (by decide) (by decide), hen]
      decide
    have hexec := exec_zlCredWrite_off k v hoff
    rw [hidle] at hexec
    obtain ⟨hlow, hhigh⟩ := (s.port p.val).credited_reads k v
    refine ⟨_, hexec, ?_⟩
    rw [State.port_setPort_same]
    exact ⟨hlow, hhigh, .setPort s p.val _, (s.port p.val).credited_regs k v⟩
  · intro s p v hoff hen hup hcart hall hsum
    have hok : ((s.port p.val).credited 0 v).sharesOk = true := by
      rw [Port.sharesOk, Port.shares_credited, hall, Bool.true_and, decide_eq_true_eq]
      simp only [List.sum_cons, List.sum_nil]
      omega
    obtain ⟨t, hexec, honly, hport⟩ := exec_zlCredWrite_trains hoff hen hup hcart hok
    obtain ⟨hreq, hrsp⟩ := ((s.port p.val).credited_reads 0 v).1 rfl
    refine ⟨t, hexec, ?_, ?_, ?_, honly⟩ <;> rw [hport]
    · exact Port.rd_light_state _
    · rw [Port.rd_light_ne _ (by decide), hreq]
    · rw [Port.rd_light_ne _ (by decide), hrsp]
  · intro s p k v hon
    refine ⟨_, exec_zlCredWrite_on k v hon, ?_, .setPort s p.val _, ?_⟩ <;> rw [State.port_setPort_same]
    · exact Port.rd_wr_same _ _ _ (by decide)
    · exact (PortRegs.refl _ _).wr ZL_EVENT_CFG_ERR 1 (List.mem_singleton.2 rfl)
  · exact fun s p hr hp => exec_zlTickRead_latches hr hp

end Sys2Proof.Machine
end

section
namespace Sys2Proof.Machine

/-! ## Updates of several ports -/

/-- t differs from s in the ports alone. -/
abbrev OnlyPorts (s t : State) : Prop := { t with ports := s.ports } = s

theorem OnlyPorts.foldl {α : Type} {f : State → α → State} (hf : ∀ u a, OnlyPorts u (f u a)) (l : List α) (s : State) : OnlyPorts s (l.foldl f s) := by
  induction l generalizing s with
  | nil => rfl
  | cons a l ih => exact (congrArg (fun x : State => { x with ports := s.ports }) (ih (f s a))).trans (hf s a)

theorem OnlyPorts.modPort (s : State) (p : Nat) (f : Port → Port) : OnlyPorts s (s.modPort p f) := rfl

section
variable {s t : State} (h : OnlyPorts s t)
include h

theorem OnlyPorts.dome : t.dome = s.dome := by
  have := congrArg State.dome h
  exact this
theorem OnlyPorts.regions : t.regions = s.regions := by
  have := congrArg State.regions h
  exact this
theorem OnlyPorts.clusters : t.clusters = s.clusters := by
  have := congrArg State.clusters h
  exact this

theorem OnlyPorts.dome_ (f : Fld) : t.dome_ f = s.dome_ f := by rw [State.dome_, State.dome_, h.dome]

theorem OnlyPorts.adapterUp (p : Nat) : t.adapterUp p = s.adapterUp p := by
  unfold State.adapterUp State.alive State.opaqueRouter State.defect State.region
  rw [h.regions, h.dome]

end

/-! ## Cartridges (R327, R350) -/

/-- A port that tries to train, where its adapter runs or not and its cartridge is in a state (R335). -/
def Port.tried (z : Port) (up : Bool) (cart : Nat) : Port :=
  if z.rd ZL_STATUS_STATE = 0 ∧ z.rd ZL_CTRL_EN = 1 ∧ up = true then
    if z.sharesOk = false then z.wr ZL_EVENT_CFG_ERR 1 else if cart = 1 then z.light else z
  else z

theorem State.port_portTry (s : State) (p : Nat) :
    (s.portTry p).port p = (s.port p).tried (s.adapterUp p) (s.dome_ (ZL_CART_STATE.nth (p / 4))) := by
  unfold State.portTry Port.tried
  dsimp only
  split
  · split
    · exact State.port_setPort_same _ _ _
    · split
      · exact State.port_setPort_same _ _ _
      · rfl
  · rfl

theorem Port.tried_light {z : Port} (hoff : z.rd ZL_STATUS_STATE = 0) (hen : z.rd ZL_CTRL_EN = 1) (hshares : z.sharesOk = true) :
    z.tried true 1 = z.light := by
  simp only [Port.tried, hoff, hen, hshares, and_self, if_true, Bool.true_eq_false, if_false]

/-- Each port of a list without repetition tries once. -/
theorem State.port_foldl_portTry {l : List Nat} (hl : l.Nodup) (s : State) (q : Nat) :
    (l.foldl (fun t p => t.portTry p) s).port q =
      if q ∈ l then (s.port q).tried (s.adapterUp q) (s.dome_ (ZL_CART_STATE.nth (q / 4))) else s.port q := by
  induction l generalizing s with
  | nil => rfl
  | cons p l ih =>
    obtain ⟨hp, hl⟩ := List.nodup_cons.1 hl
    have honly := OnlyPort.portTry s p
    have hports : OnlyPorts s (s.portTry p) := honly.1
    rw [List.foldl_cons, ih hl, hports.adapterUp, hports.dome_]
    by_cases hq : q = p
    · subst hq
      rw [if_neg hp, if_pos List.mem_cons_self, State.port_portTry]
    · rw [honly.2 q hq]
      simp [hq]

theorem mem_cartPorts (k q : Nat) : q ∈ cartPorts k ↔ q / 4 = k := by
  simp only [cartPorts, List.mem_cons, List.not_mem_nil, or_false]
  omega

theorem nodup_cartPorts (k : Nat) : (cartPorts k).Nodup := by
  simp [cartPorts]

/-- The registers of a cartridge after it is set (R350). -/
theorem State.setCart_reads (s : State) (k st power : Nat) : (s.setCart k st power).dome_ (ZL_CART_STATE.nth k) = st % 4 ∧
    (s.setCart k st power).dome_ (ZL_CART_POWER.nth k) = power % 2 ^ ZL_CART_POWER.width := by
  refine ⟨?_, State.dome_setDome_same _ _ _ (Nat.le_of_ble_eq_true rfl)⟩
  exact (State.dome_setDome_disjoint _ (ZL_CART_POWER.nth k) _ _ (Nat.le_of_ble_eq_true rfl) (.inr (Nat.le_of_ble_eq_true rfl))).trans
    (State.dome_setDome_same _ _ _ (Nat.le_of_ble_eq_true rfl))

/-- A cartridge's new state and power, and its ports' tries to train (R327, R335). -/
def State.cartSet (s : State) (k st power : Nat) : State := (cartPorts k).foldl (fun t p => t.portTry p) (s.setCart k st power)

theorem State.cartSet_only (s : State) (k st power : Nat) : OnlyPorts (s.setCart k st power) (s.cartSet k st power) :=
  OnlyPorts.foldl (fun u p => (OnlyPort.portTry u p).1) _ _

theorem State.cartSet_reads (s : State) (k st power : Nat) : (s.cartSet k st power).dome_ (ZL_CART_STATE.nth k) = st % 4 ∧
    (s.cartSet k st power).dome_ (ZL_CART_POWER.nth k) = power % 2 ^ ZL_CART_POWER.width := by
  rw [(s.cartSet_only k st power).dome_, (s.cartSet_only k st power).dome_]
  exact s.setCart_reads k st power

theorem State.port_cartSet_ne (s : State) {k q : Nat} (st power : Nat) (h : q / 4 ≠ k) : (s.cartSet k st power).port q = s.port q := by
  rw [State.cartSet, State.port_foldl_portTry (nodup_cartPorts k), if_neg (fun hq => h ((mem_cartPorts k q).1 hq))]
  rfl

/-- A cartridge that becomes OK lets its enabled OFF ports with valid shares enter LIGHT (R335). -/
theorem State.port_cartSet_ok (s : State) {k q : Nat} (power : Nat) (h : q / 4 = k) (hoff : (s.port q).rd ZL_STATUS_STATE = 0)
    (hen : (s.port q).rd ZL_CTRL_EN = 1) (hup : s.adapterUp q = true) (hshares : (s.port q).sharesOk = true) :
    (s.cartSet k 1 power).port q = (s.port q).light := by
  subst h
  have hadapter : (s.setCart (q / 4) 1 power).adapterUp q = true := hup
  have hport : (s.setCart (q / 4) 1 power).port q = s.port q := rfl
  rw [State.cartSet, State.port_foldl_portTry (nodup_cartPorts _), if_pos ((mem_cartPorts _ q).2 rfl), hadapter, hport, (s.setCart_reads _ 1 power).1]
  exact Port.tried_light hoff hen hshares

/-- Ports of a list go DOWN one by one: another port that is no partner being disabled keeps its registers, but UNREACH. -/
theorem State.port_foldl_portDown_other (cause q : Nat) {l : List Nat} (hq : q ∉ l) (s : State)
    (hdis : (∃ p ∈ l, q = partner p) → (s.port q).disabling = false) :
    (∀ f : Fld, f.off ≠ ZL_CNT_UNREACH_CNT.off → ((l.foldl (fun t p => t.portDown p cause) s).port q).rd f = (s.port q).rd f) ∧
      ((l.foldl (fun t p => t.portDown p cause) s).port q).disabling = (s.port q).disabling := by
  induction l generalizing s with
  | nil => exact ⟨fun _ _ => rfl, rfl⟩
  | cons p l ih =>
    rw [List.mem_cons, not_or] at hq
    obtain ⟨hqp, hql⟩ := hq
    obtain ⟨hrd, hkeep⟩ := State.portDown_other (s := s) (cause := cause) hqp (fun hp => hdis ⟨p, List.mem_cons_self, hp⟩)
    obtain ⟨hrdAll, hkeepAll⟩ := ih hql (s.portDown p cause) fun hp => by
      obtain ⟨r, hr, hqr⟩ := hp
      rw [hkeep]
      exact hdis ⟨r, List.mem_cons_of_mem p hr, hqr⟩
    exact ⟨fun f hf => (hrdAll f hf).trans (hrd f hf), hkeepAll.trans hkeep⟩

/-- A port of the list that trains or is UP, and is not being disabled, is DOWN with the cause (R327). -/
theorem State.port_foldl_portDown_own (cause : Nat) {q : Nat} {l : List Nat} (hl : l.Nodup) (hq : q ∈ l) (s : State)
    (htrains : (s.port q).rd ZL_STATUS_STATE ∉ [0, 6]) (hdis : (s.port q).disabling = false) :
    ((l.foldl (fun t p => t.portDown p cause) s).port q).rd ZL_STATUS_STATE = 6 ∧
      ((l.foldl (fun t p => t.portDown p cause) s).port q).rd ZL_STATUS_LAST_DOWN = cause % 8 := by
  obtain ⟨a, b, rfl⟩ := List.append_of_mem hq
  have hnot : q ∉ a ∧ q ∉ b := by
    simp only [List.nodup_append, List.nodup_cons] at hl
    obtain ⟨-, ⟨hb, -⟩, hab⟩ := hl
    exact ⟨fun ha => hab q ha q List.mem_cons_self rfl, hb⟩
  obtain ⟨hbefore, hdisA⟩ := State.port_foldl_portDown_other cause q hnot.1 s (fun _ => hdis)
  rw [List.foldl_append, List.foldl_cons]
  generalize a.foldl (fun t p => t.portDown p cause) s = u at hbefore hdisA ⊢
  have hdown : (u.port q).rd ZL_STATUS_STATE ∉ [0, 6] := by
    rw [hbefore _ (by decide)]
    exact htrains
  obtain ⟨hstate, hlast, -, -, -, -, hcleared, -⟩ := State.portDown_own (cause := cause) hdown
  obtain ⟨hafter, -⟩ := State.port_foldl_portDown_other cause q hnot.2 (u.portDown q cause) (fun _ => hcleared)
  exact ⟨(hafter _ (by decide)).trans hstate, (hafter _ (by decide)).trans hlast⟩

/-- A port that is OFF or DOWN already, and is not being disabled, keeps its STATE. -/
theorem State.port_foldl_portDown_idle (cause : Nat) {q : Nat} (l : List Nat) (s : State) (hidle : (s.port q).rd ZL_STATUS_STATE ∈ [0, 6])
    (hdis : (s.port q).disabling = false) :
    ((l.foldl (fun t p => t.portDown p cause) s).port q).rd ZL_STATUS_STATE = (s.port q).rd ZL_STATUS_STATE := by
  induction l generalizing s with
  | nil => rfl
  | cons p l ih =>
    have hstep : ((s.portDown p cause).port q).rd ZL_STATUS_STATE = (s.port q).rd ZL_STATUS_STATE ∧ ((s.portDown p cause).port q).disabling = false := by
      by_cases hqp : q = p
      · subst hqp
        rw [State.portDown_eq_of_off hidle]
        exact ⟨rfl, hdis⟩
      · obtain ⟨hrd, hkeep⟩ := State.portDown_other (s := s) (cause := cause) hqp (fun _ => hdis)
        exact ⟨hrd _ (by decide), hkeep.trans hdis⟩
    rw [List.foldl_cons, ih _ (by rw [hstep.1]; exact hidle) hstep.2, hstep.1]

theorem State.dome_foldl_portDown (cause : Nat) (l : List Nat) (s : State) {f : Fld} (hf : f.off ≠ FND_STATUS_STATE.off) :
    (l.foldl (fun t p => t.portDown p cause) s).dome_ f = s.dome_ f := by
  induction l generalizing s with
  | nil => rfl
  | cons p l ih => exact (ih (s.portDown p cause)).trans (State.dome_portDown hf)

theorem partner_cartPorts {k p : Nat} (h : p ∈ cartPorts k) : partner p / 4 = k := by
  rw [mem_cartPorts] at h
  unfold partner
  split <;> omega

/-- The module once cartridge k has gone, and its ports have gone DOWN with cause LIGHT (R327). -/
def State.cartGone (s : State) (k : Nat) : State := (cartPorts k).foldl (fun t p => t.portDown p 1) (s.setCart k 0 0)

theorem State.cartGone_reads (s : State) (k : Nat) :
    (s.cartGone k).dome_ (ZL_CART_STATE.nth k) = 0 ∧ (s.cartGone k).dome_ (ZL_CART_POWER.nth k) = 0 := by
  have hoff : 0x480 + 4 * k ≠ 0x420 := by omega
  obtain ⟨hstate, hpower⟩ := s.setCart_reads k 0 0
  exact ⟨(State.dome_foldl_portDown (f := ZL_CART_STATE.nth k) 1 _ _ hoff).trans hstate,
    (State.dome_foldl_portDown (f := ZL_CART_POWER.nth k) 1 _ _ hoff).trans hpower⟩

/-- What the removal of a cartridge leaves of a port's STATE (R327). -/
theorem State.cartGone_ports (s : State) (k q : Nat) :
    (q / 4 = k → (s.port q).rd ZL_STATUS_STATE ∉ [0, 6] → (s.port q).disabling = false →
      ((s.cartGone k).port q).rd ZL_STATUS_STATE = 6 ∧ ((s.cartGone k).port q).rd ZL_STATUS_LAST_DOWN = 1) ∧
    (q / 4 = k → (s.port q).rd ZL_STATUS_STATE ∈ [0, 6] → (s.port q).disabling = false →
      ((s.cartGone k).port q).rd ZL_STATUS_STATE = (s.port q).rd ZL_STATUS_STATE) ∧
    (q / 4 ≠ k → ((s.cartGone k).port q).rd ZL_STATUS_STATE = (s.port q).rd ZL_STATUS_STATE) := by
  refine ⟨fun hq htrains hdis => ?_, fun _ hidle hdis => ?_, fun hq => ?_⟩
  · exact State.port_foldl_portDown_own 1 (nodup_cartPorts k) ((mem_cartPorts k q).2 hq) (s.setCart k 0 0) htrains hdis
  · exact State.port_foldl_portDown_idle 1 _ (s.setCart k 0 0) hidle hdis
  · refine (State.port_foldl_portDown_other 1 q (fun hmem => hq ((mem_cartPorts k q).1 hmem)) (s.setCart k 0 0) ?_).1 _ (by decide)
    rintro ⟨p, hp, rfl⟩
    exact absurd (partner_cartPorts hp) hq

end Sys2Proof.Machine
end

section
namespace Sys2Proof.Machine

/-! ## The finder (R342, R345, R346) -/

/-- What FINDER_RUN finds and leaves (R342): the record that it announces is the module's, one version on. -/
theorem State.newRec_reads (s : State) : s.newRec.fid = s.fid ∧ s.newRec.version = s.dome.ctr.starts * 2 ^ 32 + (s.dome.finder.version + 1) := ⟨rfl, rfl⟩

theorem State.announce_only_ports (s : State) : OnlyPorts s.renewed s.announce := s.renewed.flood_frame _ none

theorem State.renewed_recs (s : State) : s.renewed.dome.finder.recs.getLast? = some s.newRec :=
  List.getLast?_concat ..

/-- The new record is queued at every UP port and nowhere else (R342). -/
theorem State.port_announce (s : State) (q : Nat) :
    s.announce.port q = if q < 64 ∧ s.portUp q = true then { s.port q with finder := (s.port q).finder ++ [(none, .finder s.newRec)] } else s.port q := by
  have hup : q ∈ s.renewed.upPorts ∧ (none : Option Nat) ≠ some q ↔ q < 64 ∧ s.portUp q = true := by
    have hmem : q ∈ s.renewed.upPorts ↔ q < 64 ∧ s.portUp q = true := s.mem_upPorts q
    simp [hmem]
  rw [State.announce_eq, State.port_flood]
  exact if_congr hup rfl rfl

theorem exec_finderRun_starts {s : State} (h : s.dome_ FND_STATUS_STATE ∈ [0, 3, 4]) :
    exec .finderRun s = .next (s.setDome FND_STATUS_STATE 1).announce := by
  have hidle : s.dome_ FND_STATUS_STATE = 0 ∨ s.dome_ FND_STATUS_STATE = 3 ∨ s.dome_ FND_STATUS_STATE = 4 := by simpa using h
  exact congrArg Host.Outcome.next (if_pos hidle)

/-- ERROR with a code raises the fabric event (R345). -/
theorem State.finderError_reads (s : State) {code : Nat} (hcode : code < 16) : (s.finderError code).dome_ FND_STATUS_STATE = 4 ∧
    (s.finderError code).dome_ FND_STATUS_ERR = code ∧ Pends (s.finderError code) 7 := by
  refine ⟨?_, ?_, pends_hifEvent _ (by decide)⟩
  · rw [State.finderError, State.domeReg_hifEvent, State.dome_setDome_disjoint _ _ _ _ (by decide) (by decide), State.dome_setDome_same _ _ _ (by decide)]
    rfl
  · rw [State.finderError, State.domeReg_hifEvent, State.dome_setDome_same _ _ _ (by decide)]
    exact Nat.mod_eq_of_lt hcode

theorem State.finderError_frame (s : State) (code : Nat) : (s.finderError code).dome.finder = s.dome.finder ∧ OnlyDomeHost s (s.finderError code) := by
  refine ⟨?_, (OnlyDomeHost.trans (OnlyDomeHost.setDome s _ 4) (OnlyDomeHost.setDome _ _ code)).trans (OnlyDomeHost.hifEvent _ 7)⟩
  rw [State.finderError, State.hifEvent_dome]
  rfl

/-- The state with the tables of a run, before its status is written (R346). -/
def State.tabled (s : State) (ids : List (Nat × Nat)) (root : Nat) (routes : SMap (Option RouteEntry)) (lines : List Nat) : State :=
  let s1 := s.modDome (fun d => { d with finder := { d.finder with ids := ids, root := root, routes := routes, ranOnce := true } })
  s1.upPorts.foldl (fun t p => t.modPort p (fun z => z.wr ZL_STATUS_DATELINE (if lines.contains p then 1 else 0))) s1

theorem State.tabled_only (s : State) (ids : List (Nat × Nat)) (root : Nat) (routes : SMap (Option RouteEntry)) (lines : List Nat) :
    OnlyPorts (s.modDome (fun d => { d with finder := { d.finder with ids := ids, root := root, routes := routes, ranOnce := true } }))
      (s.tabled ids root routes lines) :=
  OnlyPorts.foldl (fun u p => OnlyPorts.modPort u p _) _ _

/-- DONE: the status, the number of modules, the next generation, and the fabric event (R346). -/
theorem State.finderDone_reads (s : State) (ids : List (Nat × Nat)) (root n : Nat) (routes : SMap (Option RouteEntry)) (lines : List Nat) :
    (s.finderDone ids root n routes lines).dome_ FND_STATUS_STATE = 3 ∧ (s.finderDone ids root n routes lines).dome_ FND_STATUS_ASSIGNED = 1 ∧
    (s.finderDone ids root n routes lines).dome_ FND_STATUS_MODULES = n % 2 ^ FND_STATUS_MODULES.width ∧
    (s.finderDone ids root n routes lines).dome_ FND_GEN_GEN = (s.dome_ FND_GEN_GEN + 1) % 2 ^ FND_GEN_GEN.width ∧
    (s.finderDone ids root n routes lines).dome.finder.ids = ids ∧ Pends (s.finderDone ids root n routes lines) 7 := by
  have hdone : s.finderDone ids root n routes lines =
      (((((((s.tabled ids root routes lines).setDome FND_STATUS_STATE 3).setDome FND_STATUS_ASSIGNED 1).setDome FND_STATUS_MODULES n).setDome
        FND_ROOT_LO_FID_LO (root % 2 ^ 32)).setDome FND_ROOT_HI_FID_HI (root / 2 ^ 32)).setDome FND_GEN_GEN (s.dome_ FND_GEN_GEN + 1)).hifEvent 7 := rfl
  rw [hdone]
  refine ⟨?_, ?_, ?_, ?_, ?_, pends_hifEvent _ (by decide)⟩
  · simp (disch := decide) [State.dome_setDome_ne, State.dome_setDome_same, State.dome_setDome_disjoint]
  · simp (disch := decide) [State.dome_setDome_ne, State.dome_setDome_same, State.dome_setDome_disjoint]
  · simp (disch := decide) [State.dome_setDome_ne, State.dome_setDome_same]
  · rw [State.domeReg_hifEvent, State.dome_setDome_same _ _ _ (by decide)]
  · rw [State.hifEvent_dome]
    exact congrArg (fun d : Dome => d.finder.ids) (s.tabled_only ids root routes lines).dome

theorem State.finderDone_frame (s : State) (ids : List (Nat × Nat)) (root n : Nat) (routes : SMap (Option RouteEntry)) (lines : List Nat) :
    (s.finderDone ids root n routes lines).regions = s.regions ∧ (s.finderDone ids root n routes lines).clusters = s.clusters := by
  have htables := s.tabled_only ids root routes lines
  exact ⟨(OnlyDomeHost.hifEvent _ 7).regions.trans htables.regions, (OnlyDomeHost.hifEvent _ 7).clusters.trans htables.clusters⟩

/-- A module without an UP port is alone: it takes ID 0 (R343). -/
theorem exec_finderComputeDone_alone {s : State} (h : s.dome_ FND_STATUS_STATE = 2) (halone : s.upPorts = []) :
    exec .finderComputeDone s = .next (s.finderDone [(s.fid, 0)] s.fid 1 [] []) := by
  have hcompute : s.finderCompute = s.finderDone [(s.fid, 0)] s.fid 1 [] [] := by
    unfold State.finderCompute
    exact if_pos (by rw [halone]; rfl)
  exact congrArg Host.Outcome.next ((if_pos h).trans hcompute)

/-- Settles O44: cartridges by their ports, one by one, and the finder by the state that it is in. -/
theorem cartridgesAndFinder : Obligations.CartridgesAndFinder := by
  unfold Obligations.CartridgesAndFinder
  refine ⟨?_, ?_, ?_, ?_, ?_, ?_, ?_, ?_⟩
  · intro s k
    have hexec : exec (.cartridgeRemove k) s = .next (s.cartGone k.val) := rfl
    obtain ⟨hstate, hpower⟩ := s.cartGone_reads k.val
    exact ⟨_, hexec, hstate, hpower, fun q => (s.cartGone_ports k.val q).1, fun q => (s.cartGone_ports k.val q).2.1, fun q => (s.cartGone_ports k.val q).2.2⟩
  · intro s k n _
    obtain ⟨hstate, hpower⟩ := s.cartSet_reads k.val (if 80 ≤ n then 1 else 2) n
    have honly := s.cartSet_only k.val (if 80 ≤ n then 1 else 2) n
    have hexec : exec (.cartridgeInsert k n) s = .next (s.cartSet k.val (if 80 ≤ n then 1 else 2) n) := rfl
    refine ⟨_, hexec, ?_, hpower, fun q hq hn hoff hen hup hshares => ?_, fun q hq => s.port_cartSet_ne _ n hq, honly.regions, honly.clusters⟩
    · rw [hstate]
      split <;> rfl
    · rw [if_pos hn, s.port_cartSet_ok n hq hoff hen hup hshares, Port.rd_light_state]
  · intro s k b n hthere
    obtain ⟨hstate, hpower⟩ := s.cartSet_reads k.val (if b then 3 else if n < 80 then 2 else 1) n
    have hexec : exec (.cartridgeLow k b n) s = .next (s.cartSet k.val (if b then 3 else if n < 80 then 2 else 1) n) :=
      congrArg Host.Outcome.next (if_neg hthere)
    refine ⟨_, hexec, ?_, hpower, fun q hq => s.port_cartSet_ne _ n hq⟩
    rw [hstate]
    split
    · rfl
    · split <;> rfl
  · intro s hidle
    have honly := (s.setDome FND_STATUS_STATE 1).announce_only_ports
    have hports : ∀ q, (s.setDome FND_STATUS_STATE 1).announce.port q = if q < 64 ∧ s.portUp q = true then
        { s.port q with finder := (s.port q).finder ++ [(none, .finder (s.setDome FND_STATUS_STATE 1).newRec)] } else s.port q :=
      (s.setDome FND_STATUS_STATE 1).port_announce
    refine ⟨_, exec_finderRun_starts hidle, ?_, ?_, ?_, fun q hq hup => ?_, fun q hup => ?_⟩
    · exact (honly.dome_ _).trans (State.dome_setDome_same s _ 1 (by decide))
    · rw [honly.dome]
      rfl
    · have hfid : (s.setDome FND_STATUS_STATE 1).fid = s.fid := by
        unfold State.fid
        rw [State.dome_setDome_ne _ _ _ _ (by decide), State.dome_setDome_ne _ _ _ _ (by decide)]
      obtain ⟨hown, hversion⟩ := (s.setDome FND_STATUS_STATE 1).newRec_reads
      rw [honly.dome, State.renewed_recs, Option.map_some, hown, hversion, hfid]
      rfl
    · rw [hports, if_pos ⟨hq, hup⟩]
      exact List.length_append
    · rw [hports, if_neg (by simp [hup])]
  · intro s hdiscover
    have hexec : exec .finderQuiet s = .next (s.setDome FND_STATUS_STATE 2) := congrArg Host.Outcome.next (if_pos hdiscover)
    exact ⟨_, hexec, State.dome_setDome_same s _ 2 (by decide), (OnlyDomeRegs.refl s _).setDome _ 2 (List.mem_singleton.2 rfl)⟩
  · intro s hdiscover
    have hexec : exec .finderTimeout s = .next (s.finderError 4) := congrArg Host.Outcome.next (if_pos hdiscover)
    obtain ⟨hstate, herr, hpend⟩ := s.finderError_reads (code := 4) (by decide)
    obtain ⟨hfinder, honly⟩ := s.finderError_frame 4
    exact ⟨_, hexec, hstate, herr, hpend, honly.ports, honly.regions, hfinder⟩
  · intro s hcompute halone
    obtain ⟨hstate, hassigned, hmodules, hgen, hids, hpend⟩ := s.finderDone_reads [(s.fid, 0)] s.fid 1 [] []
    obtain ⟨hregions, hclusters⟩ := s.finderDone_frame [(s.fid, 0)] s.fid 1 [] []
    exact ⟨_, exec_finderComputeDone_alone hcompute halone, hstate, hassigned, hmodules, hids, hgen, hpend, hregions, hclusters⟩
  · intro s hcompute hup herror
    have hresult : s.finderCompute = s.finderError 2 := by
      have hsome : ¬ s.upPorts.isEmpty = true := by simpa using hup
      unfold State.finderCompute
      dsimp only
      rw [if_neg hsome]
      refine (if_pos ?_).trans (congrArg s.finderError herror)
      exact fun hnone => absurd (herror.symm.trans hnone) (by decide)
    obtain ⟨hstate, herr, hpend⟩ := s.finderError_reads (code := 2) (by decide)
    exact ⟨_, congrArg Host.Outcome.next ((if_pos hcompute).trans hresult), hstate, herr, (s.finderError_frame 2).1, hpend⟩

end Sys2Proof.Machine
end

section
namespace Sys2Proof.Machine

/-! ## Columns (R328, R329) -/

/-- t differs from s at port p and in what the module sends. -/
abbrev OnlyPortOut (s t : State) (p : Nat) : Prop := { t with out := s.out, ports := s.ports } = s ∧ ∀ q, q ≠ p → t.port q = s.port q

theorem OnlyPort.withOut {s t : State} {p : Nat} (h : OnlyPort s t p) (o : Output) : OnlyPortOut s (t.emit o) p :=
  ⟨congrArg (fun x : State => { x with out := s.out }) h.1, h.2⟩

/-- A port that has sent a control column (R329). -/
def Port.columned (z : Port) (kind : Nat) : Port :=
  { z with sinceIdle := if kind = 0x1E then 0 else z.sinceIdle + 1, sinceAlign := if kind = 0x2D then 0 else z.sinceAlign + 1 }

theorem State.sendColumn_eq (s : State) (p kind : Nat) (vals : List Nat) :
    s.sendColumn p kind vals = (s.modPort p (fun z => z.columned kind)).emit (.column p kind vals ((s.port p).controlColumn kind vals)) := rfl

theorem State.port_sendColumn (s : State) (p kind : Nat) (vals : List Nat) : (s.sendColumn p kind vals).port p = (s.port p).columned kind :=
  State.port_modPort_same s p (fun z => z.columned kind)

theorem State.sendColumn_frame (s : State) (p kind : Nat) (vals : List Nat) : OnlyPortOut s (s.sendColumn p kind vals) p :=
  (OnlyPort.modPort s p _).withOut _

theorem Port.narrow_of_training {z : Port} (h : z.rd ZL_STATUS_STATE ≠ 5) : z.narrow = false := by
  rw [Port.narrow, beq_eq_false_iff_ne.2 h, Bool.false_and]

/-- On eight lanes a control column has a block on each lane from 0 to 7. -/
theorem Port.controlColumn_wide {z : Port} (h : z.narrow = false) (kind : Nat) (vals : List Nat) :
    z.controlColumn kind vals = (List.range 8).map (z.controlBlock kind vals) := by
  have hlane : z.lane0 = 0 := by rw [Port.lane0, h]; rfl
  have hlanes : z.lanes = List.range 8 := by
    rw [Port.lanes, h, hlane]
    rfl
  rw [Port.controlColumn, hlanes]

/-- The first block of a TICK column carries the tick's number and the period (R347). -/
theorem Port.controlColumn_tick (z : Port) (n per : Nat) (hper : per < 2 ^ 22) :
    ((z.controlColumn 0x4B [n, per]).headD ⟨0, false, []⟩).bytes = leBytes 32 (0x4B + n % 2 ^ 64 * 2 ^ 8 + per * 2 ^ 72) := by
  have hhead : (z.controlColumn 0x4B [n, per]).headD ⟨0, false, []⟩ = z.controlBlock 0x4B [n, per] (z.lane0 + 0) := by
    unfold Port.controlColumn Port.lanes
    cases z.narrow <;> rfl
  have hbytes : (z.controlBlock 0x4B [n, per] (z.lane0 + 0)).bytes = leBytes 32 (0x4B + n % 2 ^ 64 * 2 ^ 8 + per % 2 ^ 22 * 2 ^ 72) := by
    have hkind : ¬ (0x4B : Nat) = 0x2D := by decide
    rw [Port.controlBlock, if_neg hkind, if_pos ⟨rfl, rfl⟩]
    rfl
  rw [hhead, hbytes, Nat.mod_eq_of_lt hper]

section
variable {s : State} {p : PortId} (hup : s.adapterUp p.val = true)
include hup

theorem exec_zlColumnSend_align (htrain : (s.port p.val).rd ZL_STATUS_STATE ≠ 0 ∧ (s.port p.val).rd ZL_STATUS_STATE ≠ 6)
    (hdue : 16383 ≤ (s.port p.val).sinceAlign) : exec (.zlColumnSend p) s = .next (s.sendColumn p.val 0x2D []) := by
  change execZlColumnSend p s = _
  simp only [execZlColumnSend, hup, htrain, hdue, Bool.true_eq_false, or_self, if_false, if_true]

theorem exec_zlColumnSend_idle (htrain : (s.port p.val).rd ZL_STATUS_STATE ∈ [1, 2, 3, 4]) (halign : (s.port p.val).sinceAlign < 16383)
    (hdue : 2044 ≤ (s.port p.val).sinceIdle) : exec (.zlColumnSend p) s = .next (s.sendColumn p.val 0x1E []) := by
  simp only [List.mem_cons, List.not_mem_nil, or_false] at htrain
  have hstate : (s.port p.val).rd ZL_STATUS_STATE ≠ 0 ∧ (s.port p.val).rd ZL_STATUS_STATE ≠ 6 ∧ (s.port p.val).rd ZL_STATUS_STATE ≠ 5 := by omega
  change execZlColumnSend p s = _
  simp only [execZlColumnSend, hup, hstate, hdue, Nat.not_le.2 halign, Bool.true_eq_false, or_self, false_and, true_or, if_false, if_true]

theorem exec_zlColumnSend_train (htrain : (s.port p.val).rd ZL_STATUS_STATE ∈ [1, 2, 3, 4]) (halign : (s.port p.val).sinceAlign < 16383)
    (hidle : (s.port p.val).sinceIdle < 2044) :
    exec (.zlColumnSend p) s = .next ({ s with free := s.free + 2 }.sendColumn p.val 0x78 (s.trainVals p.val)) := by
  simp only [List.mem_cons, List.not_mem_nil, or_false] at htrain
  have hstate : (s.port p.val).rd ZL_STATUS_STATE ≠ 0 ∧ (s.port p.val).rd ZL_STATUS_STATE ≠ 6 ∧ (s.port p.val).rd ZL_STATUS_STATE ≠ 5 := by omega
  change execZlColumnSend p s = _
  simp only [execZlColumnSend, hup, hstate, Port.narrow_of_training hstate.2.2, Nat.not_le.2 halign, Nat.not_le.2 hidle, Bool.true_eq_false,
    Bool.false_eq_true, or_self, false_and, if_false, ne_eq, not_false_eq_true, if_true]

theorem exec_zlColumnSend_tick (hport : s.portUp p.val = true) (halign : (s.port p.val).sinceAlign < 16383) (hdue : (s.port p.val).tickDue = true) :
    exec (.zlColumnSend p) s = .next ((s.modPort p.val (fun y => { y with tickDue := false })).sendColumn p.val 0x4B
      [s.tickNum, s.dome_ TCK_PERIOD_PERIOD]) := by
  have hstate := (s.portUp_iff p.val).1 hport
  change execZlColumnSend p s = _
  unfold execZlColumnSend
  simp only [hup, hstate, hdue, Nat.not_le.2 halign, Bool.true_eq_false, false_or, and_self, if_false, if_true]
  rfl

/-- With no control column due, an UP port sends what its buffers hold next (R329, R333). -/
theorem exec_zlColumnSend_next (hport : s.portUp p.val = true) (halign : (s.port p.val).sinceAlign < 16382) (hnone : (s.port p.val).tickDue = false)
    (hidle : (s.port p.val).sinceIdle < 2044) : exec (.zlColumnSend p) s = .next (s.sendNext p.val) := by
  have hstate := (s.portUp_iff p.val).1 hport
  change execZlColumnSend p s = _
  unfold execZlColumnSend
  simp only [hup, hstate, hnone, Nat.not_le.2 (Nat.lt_succ_of_lt halign), Nat.not_le.2 hidle, Nat.ne_of_lt halign, Bool.true_eq_false,
    Bool.false_eq_true, false_or, and_false, if_false]
  rfl

end

end Sys2Proof.Machine
end

section
namespace Sys2Proof.Machine

/-! ## Frames that leave (R330, R332, R333) -/

theorem Port.frameColumns_congr {z w : Port} (h : w.regs = z.regs) (bs : List Byte) : w.frameColumns bs = z.frameColumns bs := by
  unfold Port.frameColumns Port.lane0 Port.narrow Port.rd
  rw [h]

/-- The header of a frame that a port sends (R330): its FSEQ, the last frame taken, and what the port owes. -/
def Port.header (z : Port) (fseq : Nat) : FrameHdr :=
  ⟨true, false, 0, 0, fseq, (z.rxSeq + 4095) % 4096, z.nakOwed, (List.range 4).map (fun k => min 255 (SMap.get (fun _ => 0) z.owed k))⟩

/-- The frame as it leaves a port (R328, R330). -/
def Port.frameOut (z : Port) (p fseq : Nat) (body : Option FrameBody) : Output :=
  .frame p (z.header fseq) body (z.frameColumns (frameBytes (z.header fseq) body))

/-- A frame leaves its port alone changed, the replay and retry buffers as they were (R330). -/
theorem State.sendFrame_spec (s : State) (p fseq : Nat) (body : Option FrameBody) :
    (s.sendFrame p fseq body).out = s.out ++ [(s.port p).frameOut p fseq body] ∧
      ((s.sendFrame p fseq body).port p).replay = (s.port p).replay ∧ ((s.sendFrame p fseq body).port p).retry = (s.port p).retry ∧
      ((s.sendFrame p fseq body).port p).txSeq = (s.port p).txSeq ∧ OnlyPortOut s (s.sendFrame p fseq body) p := by
  unfold State.sendFrame
  refine ⟨rfl, ?_, ?_, ?_, (OnlyPort.setPort s p _).withOut _⟩ <;> rw [State.port_emit, State.port_setPort_same]

/-- A new frame takes the next FSEQ and is held for retry (R333). -/
theorem State.sendNew_spec (s : State) (p : Nat) (body : FrameBody) :
    (s.sendNew p body).out = s.out ++ [({ s.port p with
      txSeq := ((s.port p).txSeq + 1) % 4096, retry := (s.port p).retry ++ [⟨(s.port p).txSeq, body⟩] } : Port).frameOut p (s.port p).txSeq (some body)] ∧
      ((s.sendNew p body).port p).retry = (s.port p).retry ++ [⟨(s.port p).txSeq, body⟩] ∧
      ((s.sendNew p body).port p).txSeq = ((s.port p).txSeq + 1) % 4096 := by
  have hown := s.port_modPort_same p (fun z => { z with txSeq := ((s.port p).txSeq + 1) % 4096, retry := z.retry ++ [⟨(s.port p).txSeq, body⟩] })
  obtain ⟨hout, -, hretry, htxSeq, -⟩ := (s.modPort p (fun z => { z with
    txSeq := ((s.port p).txSeq + 1) % 4096, retry := z.retry ++ [⟨(s.port p).txSeq, body⟩] })).sendFrame_spec p (s.port p).txSeq (some body)
  rw [hown] at hout hretry htxSeq
  exact ⟨hout, hretry, htxSeq⟩

/-- A port whose frame time is counted where it stalls (R349). -/
def Port.polled (z : Port) : Port := if z.stalled then z.count ZL_CNT_STALL_CNT 1 else z

theorem Port.polled_eq (z : Port) : ∃ c, z.polled = { z with cnt := c } := by
  unfold Port.polled
  split
  · exact ⟨_, rfl⟩
  · exact ⟨z.cnt, rfl⟩

/-- One pair's part of the next DATA frame (R332). -/
def takeStep (a : List LinkPkt × Port) (k : Nat) : List LinkPkt × Port :=
  let t := a.2.takePair k (3 - a.1.length); (a.1 ++ t.1, t.2)

theorem Port.takeData_eq (z : Port) : z.takeData = (List.range 4).foldl takeStep ([], z) := rfl

/-- What is taken for a frame does not look at the counts. -/
theorem foldl_takeStep_cnt (c : Regs) (ks : List Nat) (l : List LinkPkt) (z : Port) :
    ks.foldl takeStep (l, { z with cnt := c }) = ((ks.foldl takeStep (l, z)).1, { (ks.foldl takeStep (l, z)).2 with cnt := c }) := by
  induction ks generalizing l z with
  | nil => rfl
  | cons k ks ih => exact ih _ (takeStep (l, z) k).2

/-- A frame holds three packets at most, and taking them changes the egress queues and the credits alone (R330, R332). -/
theorem foldl_takeStep_spec (ks : List Nat) (l : List LinkPkt) (z : Port) (hl : l.length ≤ 3) :
    (ks.foldl takeStep (l, z)).1.length ≤ 3 ∧ { (ks.foldl takeStep (l, z)).2 with egress := z.egress, credits := z.credits } = z := by
  induction ks generalizing l z with
  | nil => exact ⟨hl, rfl⟩
  | cons k ks ih =>
    have htaken : (takeStep (l, z) k).1.length ≤ 3 := by
      simp only [takeStep, Port.takePair, List.length_append, List.length_take]
      omega
    obtain ⟨hlen, hframe⟩ := ih (takeStep (l, z) k).1 (takeStep (l, z) k).2 htaken
    exact ⟨hlen, congrArg (fun w : Port => { w with egress := z.egress, credits := z.credits }) hframe⟩

section
variable {s : State} {p : Nat}

/-- The oldest frame of a replay goes out under its own FSEQ (R333). -/
theorem State.sendNext_replay {k : Frame} {rest : List Frame} (h : (s.port p).replay = k :: rest) :
    ∃ c, s.sendNext p = (s.setPort p { s.port p with replay := rest, cnt := c }).sendFrame p k.fseq (some k.body) := by
  obtain ⟨c, hc⟩ := (s.port p).polled_eq
  have hreplay : (s.port p).polled.replay = k :: rest := by rw [hc]; exact h
  have hnext : s.sendNext p =
      (s.setPort p ({ (s.port p).polled with replay := rest }.count ZL_CNT_REPLAY_CNT 1)).sendFrame p k.fseq (some k.body) := by
    unfold State.sendNext
    rw [show (if (s.port p).stalled then (s.port p).count ZL_CNT_STALL_CNT 1 else s.port p) = (s.port p).polled from rfl]
    simp only [hreplay]
  rw [hnext, hc]
  exact ⟨_, rfl⟩

/-- With nothing to send again and packets against credits, a new DATA frame goes out (R332, R333). -/
theorem State.sendNext_data (hreplay : (s.port p).replay = []) (hroom : (s.port p).retry.length < 1024) (hfinder : (s.port p).finder = [])
    (hdata : (s.port p).takeData.1 ≠ []) :
    ∃ c, s.sendNext p = ((s.setPort p { (s.port p).takeData.2 with cnt := c }).sendNew p (.data (s.port p).takeData.1)).drainIngress (partner p) := by
  obtain ⟨c, hc⟩ := (s.port p).polled_eq
  have htake : (s.port p).polled.takeData = ((s.port p).takeData.1, { (s.port p).takeData.2 with cnt := c }) := by
    rw [hc]
    exact foldl_takeStep_cnt c (List.range 4) [] (s.port p)
  have hreplay' : (s.port p).polled.replay = [] := by rw [hc]; exact hreplay
  have hfinder' : (s.port p).polled.finder = [] := by rw [hc]; exact hfinder
  have hroom' : ¬ 1024 ≤ (s.port p).polled.retry.length := by rw [hc]; exact Nat.not_le.2 hroom
  have hsome : (s.port p).takeData.1.isEmpty = false := List.isEmpty_eq_false_iff.2 hdata
  unfold State.sendNext
  rw [show (if (s.port p).stalled then (s.port p).count ZL_CNT_STALL_CNT 1 else s.port p) = (s.port p).polled from rfl]
  simp only [hreplay', hroom', hfinder', htake, hsome, if_false, if_true]
  generalize (s.port p).takeData.2 = z
  exact ⟨_, rfl⟩

end

/-- Settles O42: each kind of column that is due, a frame of a replay, and a new DATA frame. -/
theorem portsSend : Obligations.PortsSend := by
  unfold Obligations.PortsSend
  refine ⟨?_, ?_, ?_, ?_, ?_, ?_⟩
  · intro s p hup halign hidle htrain
    have hsame : ({ s with free := s.free + 2 } : State).port p.val = s.port p.val := rfl
    have hnarrow : (s.port p.val).narrow = false := Port.narrow_of_training (fun h => by rw [h] at htrain; simp at htrain)
    obtain ⟨hrest, hother⟩ := ({ s with free := s.free + 2 } : State).sendColumn_frame p.val 0x78 (s.trainVals p.val)
    refine ⟨_, exec_zlColumnSend_train hup htrain halign hidle, ?_, ?_, congrArg (fun x : State => { x with free := s.free }) hrest, hother⟩
    · rw [State.sendColumn_eq, hsame, Port.controlColumn_wide hnarrow]
      change Option.map _ (s.out ++ [_]).getLast? = _
      rw [List.getLast?_concat]
      rfl
    · exact List.dropLast_concat
  · intro s p hup halign htrain hnarrow
    have hstate : (s.port p.val).rd ZL_STATUS_STATE ≠ 0 ∧ (s.port p.val).rd ZL_STATUS_STATE ≠ 6 := by
      simp only [List.mem_cons, List.not_mem_nil, or_false] at htrain
      omega
    refine ⟨_, exec_zlColumnSend_align hup hstate (Nat.le_of_eq halign.symm), ?_, ?_, s.sendColumn_frame p.val 0x2D []⟩
    · rw [State.sendColumn_eq, Port.controlColumn_wide hnarrow]
      rfl
    · rw [State.port_sendColumn]
      rfl
  · intro s p hup halign htrain hidle
    refine ⟨_, exec_zlColumnSend_idle hup htrain halign hidle, List.dropLast_concat, ?_, ?_, s.sendColumn_frame p.val 0x1E []⟩
    · change Option.map _ (s.out ++ [_]).getLast? = _
      rw [List.getLast?_concat]
      rfl
    · rw [State.port_sendColumn]
      rfl
  · intro s p hup halign hport hdue
    have hown := s.port_modPort_same p.val (fun y => { y with tickDue := false })
    obtain ⟨hrest, hother⟩ := (s.modPort p.val (fun y => { y with tickDue := false })).sendColumn_frame p.val 0x4B [s.tickNum, s.dome_ TCK_PERIOD_PERIOD]
    refine ⟨_, exec_zlColumnSend_tick hup hport halign hdue, ?_, ?_, ?_, congrArg (fun x : State => { x with ports := s.ports }) hrest, fun q hq => ?_⟩
    · rw [State.sendColumn_eq, hown]
      rfl
    · exact Port.controlColumn_tick _ _ _ (Fld.rd_lt domeTable s.dome.regs TCK_PERIOD_PERIOD)
    · rw [State.port_sendColumn, hown]
      rfl
    · exact (hother q hq).trans (State.port_modPort_ne s _ hq)
  · intro s p k rest hup halign hport hnone hidle hreplay
    obtain ⟨c, hnext⟩ := State.sendNext_replay hreplay
    have hexec := exec_zlColumnSend_next hup hport halign hnone hidle
    rw [hnext] at hexec
    have hown := s.port_setPort_same p.val { s.port p.val with replay := rest, cnt := c }
    obtain ⟨hout, hreplay', hretry, htxSeq, hrest, hother⟩ :=
      (s.setPort p.val { s.port p.val with replay := rest, cnt := c }).sendFrame_spec p.val k.fseq (some k.body)
    refine ⟨_, hexec, ?_, ?_, ?_, ?_, congrArg (fun x : State => { x with ports := s.ports }) hrest, fun q hq => ?_⟩
    · rw [hout, List.getLast?_concat, Option.map_some, hown]
      generalize hz : ({ s.port p.val with replay := rest, cnt := c } : Port) = z
      have hcols := Port.frameColumns_congr (z := s.port p.val) (w := z) (by rw [← hz]) (frameBytes (z.header k.fseq) (some k.body))
      change some (p.val, k.fseq, some k.body == some k.body, z.frameColumns (frameBytes (z.header k.fseq) (some k.body)) == _) = _
      rw [hcols, beq_self_eq_true, beq_self_eq_true]
    · rw [hreplay', hown]
    · rw [hretry, hown]
    · rw [htxSeq, hown]
    · exact (hother q hq).trans (State.port_setPort_ne s _ hq)
  · intro s p hup halign hport hnone hidle hreplay hroom hfinder hdata
    obtain ⟨c, hnext⟩ := State.sendNext_data hreplay hroom hfinder hdata
    have hexec := exec_zlColumnSend_next hup hport halign hnone hidle
    rw [hnext] at hexec
    obtain ⟨hlen, hframe⟩ := foldl_takeStep_spec (List.range 4) [] (s.port p.val) (by decide)
    rw [← Port.takeData_eq] at hlen hframe
    have htx : (s.port p.val).takeData.2.txSeq = (s.port p.val).txSeq := by
      have := congrArg Port.txSeq hframe
      exact this
    have hrx : (s.port p.val).takeData.2.rxSeq = (s.port p.val).rxSeq := by
      have := congrArg Port.rxSeq hframe
      exact this
    have hheld : (s.port p.val).takeData.2.retry = (s.port p.val).retry := by
      have := congrArg Port.retry hframe
      exact this
    have hown := s.port_setPort_same p.val { (s.port p.val).takeData.2 with cnt := c }
    generalize hz : ({ (s.port p.val).takeData.2 with cnt := c } : Port) = z at hexec hown
    have htx' : z.txSeq = (s.port p.val).txSeq := by rw [← hz]; exact htx
    have hrx' : z.rxSeq = (s.port p.val).rxSeq := by rw [← hz]; exact hrx
    have hheld' : z.retry = (s.port p.val).retry := by rw [← hz]; exact hheld
    generalize (s.port p.val).takeData.1 = l at hexec hlen
    obtain ⟨hout, hretry, htxSeq⟩ := (s.setPort p.val z).sendNew_spec p.val (.data l)
    have hmoves : ((s.setPort p.val z).sendNew p.val (.data l)).MovesAt (fun q => q = p.val)
        (((s.setPort p.val z).sendNew p.val (.data l)).drainIngress (partner p.val)) := .drainIngress fun h => absurd h (partner_ne p.val)
    have hmoved := hmoves.ports p.val rfl
    rw [hown] at hout hretry htxSeq
    refine ⟨_, hexec, ?_, ?_, ?_, ?_, hlen⟩
    · rw [hmoves.out, hout]
      exact List.dropLast_concat
    · rw [hmoves.out, hout, List.getLast?_concat, Option.map_some]
      change some (p.val, z.txSeq, (z.rxSeq + 4095) % 4096, some (FrameBody.data l) == some (.data l)) = _
      rw [htx', hrx', beq_self_eq_true]
    · rw [hmoved.retry, hretry, hheld', htx']
    · rw [hmoved.txSeq, htxSeq, htx']

end Sys2Proof.Machine
end

section
namespace Sys2Proof.Machine

/-! ## Dome updates and events, with their frames (R368, R369, R394) -/

theorem State.dome_setDome_apart (s : State) (f k : Fld) (v : Nat) (h : Fld.Apart f k) : (s.setDome f v).dome_ k = s.dome_ k := by
  rcases h with h | ⟨hk, h⟩
  · exact State.dome_setDome_ne s f k v h
  · exact State.dome_setDome_disjoint s f k v hk h

theorem State.dome_domEvent_same (s : State) {f : Fld} (h : f.lo + f.width ≤ 32) (hw : f.width ≠ 0) : (s.domEvent f).dome_ f = 1 := by
  rw [State.domEvent, State.domeReg_hifEvent, State.dome_setDome_same s f 1 h, Nat.mod_eq_of_lt (Nat.one_lt_two_pow hw)]

theorem State.dome_domEvent_apart (s : State) {f k : Fld} (h : Fld.Apart f k) : (s.domEvent f).dome_ k = s.dome_ k :=
  (State.domeReg_hifEvent _ 0 k).trans (State.dome_setDome_apart s f k 1 h)

theorem State.dome_colEvent_same (s : State) {f : Fld} (h : f.lo + f.width ≤ 32) (hw : f.width ≠ 0) : (s.colEvent f).dome_ f = 1 := by
  rw [State.colEvent, State.domeReg_hifEvent, State.dome_setDome_same s f 1 h, Nat.mod_eq_of_lt (Nat.one_lt_two_pow hw)]

theorem State.dome_colEvent_apart (s : State) {f k : Fld} (h : Fld.Apart f k) : (s.colEvent f).dome_ k = s.dome_ k :=
  (State.domeReg_hifEvent _ 6 k).trans (State.dome_setDome_apart s f k 1 h)

theorem State.colEvent_dome (s : State) (f : Fld) : (s.colEvent f).dome = { s.dome with regs := Regs.wr domeTable s.dome.regs f 1 } :=
  State.hifEvent_dome _ 6

theorem Pends.colEvent {s : State} {e : Nat} (h : Pends s e) (he : e < 32) (f : Fld) : Pends (s.colEvent f) e :=
  Pends.hifEvent (s := s.setDome f 1) h he 6

/-! ## The bridge's events alone (R394) -/

theorem HostEvents.refl (s : State) : HostEvents s s := ⟨rfl, fun _ _ => rfl⟩

theorem HostEvents.trans {s t u : State} (h : HostEvents s t) (k : HostEvents t u) : HostEvents s u :=
  ⟨(congrArg (fun b : Bridge => { b with hif := s.host.hif, causes := s.host.causes }) k.1).trans h.1, fun o ho => (k.2 o ho).trans (h.2 o ho)⟩

theorem HostEvents.of_host {s t : State} (h : t.host = s.host) : HostEvents s t := by
  unfold HostEvents
  rw [h]
  exact ⟨rfl, fun _ _ => rfl⟩

theorem HostEvents.hifEvent (s : State) (e : Nat) : HostEvents s (s.hifEvent e) := by
  have hwords : ∀ o, o ≠ HIF_EVT_PEND_PEND.off →
      Regs.word hifTable (Regs.wr hifTable s.host.hif HIF_EVT_PEND_PEND (s.hif HIF_EVT_PEND_PEND ||| 2 ^ e)) o = Regs.word hifTable s.host.hif o :=
    fun o ho => Regs.word_wr_ne hifTable s.host.hif HIF_EVT_PEND_PEND _ ho
  unfold State.hifEvent
  dsimp only
  split <;> exact ⟨rfl, hwords⟩

theorem HostEvents.apr {s t : State} (h : HostEvents s t) : t.host.apr = s.host.apr := by
  have := congrArg Bridge.apr h.1
  exact this

theorem OnlyDomeEvents.refl (s : State) : OnlyDomeEvents s s := ⟨rfl, HostEvents.refl s⟩

theorem OnlyDomeEvents.trans {s t u : State} (h : OnlyDomeEvents s t) (k : OnlyDomeEvents t u) : OnlyDomeEvents s u :=
  ⟨OnlyDomeHost.trans h.1 k.1, h.2.trans k.2⟩

theorem OnlyDomeEvents.modDome (s : State) (f : Dome → Dome) : OnlyDomeEvents s (s.modDome f) := ⟨rfl, HostEvents.of_host rfl⟩

theorem OnlyDomeEvents.setDome (s : State) (f : Fld) (v : Nat) : OnlyDomeEvents s (s.setDome f v) := ⟨rfl, HostEvents.of_host rfl⟩

theorem OnlyDomeEvents.hifEvent (s : State) (e : Nat) : OnlyDomeEvents s (s.hifEvent e) := ⟨OnlyDomeHost.hifEvent s e, HostEvents.hifEvent s e⟩

theorem OnlyDomeEvents.domEvent (s : State) (f : Fld) : OnlyDomeEvents s (s.domEvent f) := (OnlyDomeEvents.setDome s f 1).trans (OnlyDomeEvents.hifEvent _ 0)

theorem OnlyDomeEvents.colEvent (s : State) (f : Fld) : OnlyDomeEvents s (s.colEvent f) := (OnlyDomeEvents.setDome s f 1).trans (OnlyDomeEvents.hifEvent _ 6)

theorem OnlyDomeEvents.setMstate (s : State) (m : Nat) : OnlyDomeEvents s (s.setMstate m) := by
  unfold State.setMstate
  split
  · exact OnlyDomeEvents.refl s
  · exact (OnlyDomeEvents.setDome s _ m).trans (OnlyDomeEvents.hifEvent _ 11)

theorem OnlyDomeEvents.setReplace (s : State) : OnlyDomeEvents s s.setReplace := by
  unfold State.setReplace
  split
  · split
    · exact OnlyDomeEvents.refl s
    · exact OnlyDomeEvents.modDome s _
  · exact OnlyDomeEvents.modDome s _

theorem OnlyDomeEvents.foldl {α : Type} {f : State → α → State} (hf : ∀ u a, OnlyDomeEvents u (f u a)) (l : List α) (s : State) :
    OnlyDomeEvents s (l.foldl f s) := by
  induction l generalizing s with
  | nil => exact OnlyDomeEvents.refl s
  | cons a l ih => exact (hf s a).trans (ih (f s a))

/-! ## Records and register changes of the dome controller alone (R366, R368, R369) -/

theorem DomeRecords.refl (d : Dome) (offs : List Nat) : DomeRecords d d offs := ⟨rfl, fun _ _ => rfl⟩

theorem DomeRecords.trans {d e f : Dome} {offs : List Nat} (h : DomeRecords d e offs) (k : DomeRecords e f offs) : DomeRecords d f offs :=
  ⟨(congrArg (fun x : Dome => { x with regs := d.regs, logPend := d.logPend, logSeq := d.logSeq, degPend := d.degPend }) k.1).trans h.1,
    fun o ho => (k.2 o ho).trans (h.2 o ho)⟩

theorem DomeRecords.setDome (s : State) {f : Fld} {offs : List Nat} (v : Nat) (hf : f.off ∈ offs) : DomeRecords s.dome (s.setDome f v).dome offs :=
  ⟨rfl, fun _ ho => Regs.word_wr_ne domeTable s.dome.regs f v (fun he => ho (he ▸ hf))⟩

theorem DomeRecords.domEvent (s : State) {f : Fld} {offs : List Nat} (hf : f.off ∈ offs) : DomeRecords s.dome (s.domEvent f).dome offs := by
  rw [State.domEvent, State.hifEvent_dome]
  exact DomeRecords.setDome s 1 hf

theorem DomeRecords.colEvent (s : State) {f : Fld} {offs : List Nat} (hf : f.off ∈ offs) : DomeRecords s.dome (s.colEvent f).dome offs := by
  rw [State.colEvent, State.hifEvent_dome]
  exact DomeRecords.setDome s 1 hf

theorem DomeRecords.dome_ {s t : State} {offs : List Nat} (h : DomeRecords s.dome t.dome offs) {f : Fld} (hf : f.off ∉ offs) : t.dome_ f = s.dome_ f :=
  congrArg f.of (h.2 f.off hf)

end Sys2Proof.Machine
end

section
namespace Sys2Proof.Machine

/-! ## The sweep of the ephemerides (R206, R353) -/

theorem ChronoEphOnly.endedIn {s t : State} (h : ChronoEphOnly s t) : t.endedIn = s.endedIn := by
  funext r
  have hmstate : t.mstate = s.mstate := h.dome_ _ (by decide) (by decide)
  unfold State.endedIn
  rw [h.region r, hmstate]

/-- The ephemerides in use once ephemeris e is looked at: e is gone if all of its regions have ended. -/
theorem State.ephs_ephCheck (s : State) (e k : Nat) : SMap.get (fun _ => none) (s.ephCheck e).dome.ephs k =
    if k = e then (SMap.get (fun _ => none) s.dome.ephs k).filter (fun x => !x.regions.all s.endedIn) else SMap.get (fun _ => none) s.dome.ephs k := by
  unfold State.ephCheck
  split
  · next hnone =>
    split
    · next hk => rw [hk, hnone]; rfl
    · rfl
  · next x hx =>
    split
    · next hended =>
      have hset : SMap.get (fun _ => none) (SMap.set (fun _ => none) s.dome.ephs e none) k =
          if k = e then (SMap.get (fun _ => none) s.dome.ephs k).filter (fun x => !x.regions.all s.endedIn) else SMap.get (fun _ => none) s.dome.ephs k := by
        rw [SMap.get_set]
        split
        · next hk => rw [hk, hx, Option.filter_some, hended]; rfl
        · rfl
      split
      · unfold State.queueRecord
        dsimp only
        split <;> exact hset
      · exact hset
    · next hended =>
      split
      · next hk => rw [hk, hx, Option.filter_some, if_pos (by simpa using hended)]
      · rfl

theorem State.ephs_foldl_ephCheck {l : List Nat} (hl : l.Nodup) (s : State) (k : Nat) :
    SMap.get (fun _ => none) (l.foldl (fun t e => t.ephCheck e) s).dome.ephs k =
      if k ∈ l then (SMap.get (fun _ => none) s.dome.ephs k).filter (fun x => !x.regions.all s.endedIn) else SMap.get (fun _ => none) s.dome.ephs k := by
  induction l generalizing s with
  | nil => rfl
  | cons e l ih =>
    obtain ⟨he, hl⟩ := List.nodup_cons.1 hl
    rw [List.foldl_cons, ih hl, (s.ephCheck_only e).endedIn, s.ephs_ephCheck]
    by_cases hk : k = e
    · subst hk
      simp [he]
    · simp [hk]

/-- A sweep takes the ephemerides that have ended, and leaves the others as they are. -/
theorem State.ephs_ephSweep (s : State) {e : Nat} (he : e < 8) : SMap.get (fun _ => none) s.ephSweep.dome.ephs e =
    (SMap.get (fun _ => none) s.dome.ephs e).filter (fun x => !x.regions.all s.endedIn) :=
  (State.ephs_foldl_ephCheck List.nodup_range s e).trans (if_pos (List.mem_range.2 he))

/-- A sweep changes of the bridge only the records owed and the queues that they are due at (R393). -/
theorem State.ephSweep_host (s : State) : { s.ephSweep.host with queues := s.host.queues, owed := s.host.owed } = s.host := by
  have hcheck : ∀ (u : State) e, { (u.ephCheck e).host with queues := u.host.queues, owed := u.host.owed } = u.host := by
    intro u e
    unfold State.ephCheck
    split
    · rfl
    · split
      · dsimp only
        split
        · unfold State.queueRecord
          dsimp only
          split <;> rfl
        · rfl
      · rfl
  unfold State.ephSweep
  generalize List.range 8 = l
  induction l generalizing s with
  | nil => rfl
  | cons e l ih => exact (congrArg (fun b : Bridge => { b with queues := s.host.queues, owed := s.host.owed }) (ih (s.ephCheck e))).trans (hcheck s e)

theorem Pends.ephSweep {s : State} {e : Nat} (h : Pends s e) : Pends s.ephSweep e := by
  have hhif : s.ephSweep.host.hif = s.host.hif := by
    have := congrArg Bridge.hif s.ephSweep_host
    exact this
  rwa [Pends, State.hif, hhif]

/-! ## What a sweep leaves of the module -/

theorem SMap.get_map {α β : Type} (d : Nat → α) (f : α → β) (m : SMap α) (k : Nat) :
    SMap.get (fun j => f (d j)) (m.map (fun p => (p.1, f p.2))) k = f (SMap.get d m k) := by
  induction m with
  | nil => rfl
  | cons p m ih =>
    obtain ⟨j, v⟩ := p
    simp only [List.map_cons, SMap.get, ih]
    exact (apply_ite f _ _ _).symm

/-! ## Drains of every RUNNING region (R201, R353) -/

theorem Cluster.listDrain_frame (c : Cluster) : { c.listDrain with regs := c.regs, mu := c.mu } = c := by
  unfold Cluster.listDrain Cluster.wr
  split <;> rfl

theorem Region.draining_buckets (g : Region) : g.draining.bucket0 = g.bucket0 ∧ g.draining.bucket1 = g.bucket1 := by
  rw [Region.draining, Region.setSched_eq g (by decide)]
  simp only [Region.wr_bucket0, Region.wr_bucket1, and_self]

/-- A region that is asked to drain because the module degrades: the one that is RUNNING does. -/
def Region.drainAsked (g : Region) : Region := if g.sched_ = 2 then g.draining else g

theorem Region.drainAsked_sched (g : Region) : g.drainAsked.sched_ = if g.sched_ = 2 then 3 else g.sched_ := by
  unfold Region.drainAsked
  split
  · exact g.draining_reads.1
  · rfl

theorem Region.drainAsked_buckets (g : Region) : g.drainAsked.bucket0 = g.bucket0 ∧ g.drainAsked.bucket1 = g.bucket1 := by
  unfold Region.drainAsked
  split
  · exact g.draining_buckets
  · exact ⟨rfl, rfl⟩

/-- What the drains of regions leave of a module: t differs from s in the regions and, of its clusters, in their list fetchers alone. -/
structure State.Drains (s t : State) : Prop where
  frame : { t with regions := s.regions, clusters := s.clusters } = s
  clusters : ∀ c, { t.cluster c with regs := (s.cluster c).regs, mu := (s.cluster c).mu } = s.cluster c

theorem State.Drains.trans {s t u : State} (h : s.Drains t) (k : t.Drains u) : s.Drains u :=
  ⟨(congrArg (fun x : State => { x with regions := s.regions, clusters := s.clusters }) k.frame).trans h.frame,
    fun c => (congrArg (fun x : Cluster => { x with regs := (s.cluster c).regs, mu := (s.cluster c).mu }) (k.clusters c)).trans (h.clusters c)⟩

theorem State.drainStart_drains {s : State} {r : Nat} (h : (s.region r).sched_ = 2) : s.Drains (s.drainStart r) := by
  obtain ⟨-, -, honly⟩ := State.drainStart_spec h
  refine ⟨honly.1, fun c => ?_⟩
  rw [State.drainStart_running h, State.cluster_eachCluster _ _ Cluster.listDrain_reset, State.cluster_setRegion]
  split
  · exact Cluster.listDrain_frame _
  · rfl

/-- The drains of the regions of a list that are RUNNING in s, one after another from a state with the same regions. -/
theorem State.foldl_drainStart {l : List Nat} (hl : l.Nodup) (s u : State) (hu : ∀ r ∈ l, u.region r = s.region r) :
    u.Drains (l.foldl (fun t r => if (s.region r).sched_ = 2 then t.drainStart r else t) u) ∧
    ∀ k, (l.foldl (fun t r => if (s.region r).sched_ = 2 then t.drainStart r else t) u).region k =
      if k ∈ l then (u.region k).drainAsked else u.region k := by
  induction l generalizing u with
  | nil => exact ⟨⟨rfl, fun _ => rfl⟩, fun _ => rfl⟩
  | cons r l ih =>
    obtain ⟨hr, hl⟩ := List.nodup_cons.1 hl
    have hown := hu r List.mem_cons_self
    rw [List.foldl_cons]
    by_cases hrun : (s.region r).sched_ = 2
    · rw [if_pos hrun]
      rw [← hown] at hrun
      obtain ⟨hreg, -, honly⟩ := State.drainStart_spec hrun
      have hother : ∀ k ∈ l, (u.drainStart r).region k = s.region k := fun k hk =>
        (honly.2.1 k (fun he => hr (he ▸ hk))).trans (hu k (List.mem_cons_of_mem r hk))
      obtain ⟨hdrains, hregions⟩ := ih hl (u.drainStart r) hother
      refine ⟨(State.drainStart_drains hrun).trans hdrains, fun k => (hregions k).trans ?_⟩
      by_cases hk : k = r
      · subst hk
        rw [if_neg hr, if_pos List.mem_cons_self, hreg, Region.drainAsked, if_pos hrun]
      · rw [honly.2.1 k hk]
        exact if_congr (by simp [hk]) rfl rfl
    · rw [if_neg hrun]
      obtain ⟨hdrains, hregions⟩ := ih hl u (fun k hk => hu k (List.mem_cons_of_mem r hk))
      refine ⟨hdrains, fun k => (hregions k).trans ?_⟩
      by_cases hk : k = r
      · subst hk
        rw [if_neg hr, if_pos List.mem_cons_self, Region.drainAsked, hown, if_neg hrun]
      · exact if_congr (by simp [hk]) rfl rfl

/-! ## A degrading event in READY (R352, R353) -/

/-- The module as it enters DEGRADED, before it abandons its intervals and drains. -/
def State.enterDegraded (s : State) (code region : Nat) : State :=
  ((((s.setDome DOM_FLT_STATUS_SUSPECT 1).setDome DOM_FLT_STATUS_FIRST_CODE code).setDome DOM_FLT_STATUS_FIRST_REGION region).domEvent
    DOM_FLT_EVENT_DEGRADED).setMstate 2

theorem State.setMstate_of_ne {s : State} {m : Nat} (h : s.mstate ≠ m) : s.setMstate m = (s.setDome DOM_FLT_STATUS_MSTATE m).hifEvent 11 := if_neg h

theorem pends_domEvent (s : State) (f : Fld) : Pends (s.domEvent f) 0 := pends_hifEvent (s.setDome f 1) (by decide)

theorem State.setMstate_dome (s : State) (m : Nat) : { (s.setMstate m).dome with regs := s.dome.regs } = s.dome := by
  unfold State.setMstate
  split
  · rfl
  · rw [State.hifEvent_dome]
    rfl

section
variable {s : State} (h : s.mstate = 1) (code region : Nat)
include h

theorem State.enterDegraded_eq : s.enterDegraded code region =
    (((((s.setDome DOM_FLT_STATUS_SUSPECT 1).setDome DOM_FLT_STATUS_FIRST_CODE code).setDome DOM_FLT_STATUS_FIRST_REGION region).domEvent
      DOM_FLT_EVENT_DEGRADED).setDome DOM_FLT_STATUS_MSTATE 2).hifEvent 11 := by
  refine State.setMstate_of_ne ?_
  rw [State.mstate] at h ⊢
  simp (disch := decide) [State.dome_domEvent_apart, State.dome_setDome_apart, h]

theorem State.enterDegraded_reads : (s.enterDegraded code region).mstate = 2 ∧ (s.enterDegraded code region).dome_ DOM_FLT_STATUS_SUSPECT = 1 ∧
    (s.enterDegraded code region).dome_ DOM_FLT_STATUS_FIRST_CODE = code % 256 ∧
    (s.enterDegraded code region).dome_ DOM_FLT_STATUS_FIRST_REGION = region % 128 ∧
    (s.enterDegraded code region).dome_ DOM_FLT_EVENT_DEGRADED = 1 := by
  rw [State.enterDegraded_eq h, State.mstate]
  refine ⟨?_, ?_, ?_, ?_, ?_⟩ <;>
    simp (disch := decide) [State.dome_domEvent_apart, State.dome_domEvent_same, State.dome_setDome_apart, State.dome_setDome_same]

theorem State.enterDegraded_pends : Pends (s.enterDegraded code region) 0 ∧ Pends (s.enterDegraded code region) 11 := by
  rw [State.enterDegraded_eq h]
  refine ⟨Pends.hifEvent ?_ (by decide) 11, pends_hifEvent _ (by decide)⟩
  exact Pends.of_host (pends_domEvent _ DOM_FLT_EVENT_DEGRADED) rfl

end

theorem State.enterDegraded_frame (s : State) (code region : Nat) : OnlyDomeEvents s (s.enterDegraded code region) ∧
    { (s.enterDegraded code region).dome with regs := s.dome.regs } = s.dome := by
  unfold State.enterDegraded
  refine ⟨((((OnlyDomeEvents.setDome s _ _).trans (OnlyDomeEvents.setDome _ _ _)).trans (OnlyDomeEvents.setDome _ _ _)).trans
    (OnlyDomeEvents.domEvent _ _)).trans (OnlyDomeEvents.setMstate _ _), ?_⟩
  refine (congrArg (fun d : Dome => { d with regs := s.dome.regs }) (State.setMstate_dome _ 2)).trans ?_
  rw [State.domEvent_dome]
  rfl

/-- A region whose open intervals are abandoned (R353 step 2). -/
def Region.abandoned (g : Region) : Region := { g with bucket0 := Bucket.reset, bucket1 := Bucket.reset, frozen := false }

/-- No interval is open and no closing is armed. -/
def State.colCut (s : State) : State := s.modDome (fun d => { d with col := { d.col with interval := none, armed := false } })

theorem State.colAbandon_eq (s : State) : s.colAbandon = s.colCut.modRegionsFrom 0 112 Region.abandoned := by
  simp only [State.modRegionsFrom, Nat.zero_add]
  rfl

theorem State.colAbandon_spec (s : State) : OnlyRegions s.colCut s.colAbandon ∧
    ∀ k, k < 112 → s.colAbandon.region k = (s.region k).abandoned := by
  rw [State.colAbandon_eq]
  refine ⟨State.modRegionsFrom_only _ _ _ _, fun k hk => ?_⟩
  rw [State.region_modRegionsFrom, if_pos (by omega)]
  rfl

/-- An ephemeris that will complete DEGRADED (R353 step 4). -/
def Eph.degraded (x : Eph) : Eph := { x with endStatus := 24 }

/-- Every ephemeris in use will complete DEGRADED, and its force waits (R353 steps 3 and 4). -/
def State.endMarked (s : State) : State :=
  s.modDome (fun d => { d with ephs := s.dome.ephs.map (fun p => (p.1, p.2.map Eph.degraded)), forcePend := true })

theorem State.region_endMarked (s : State) (r : Nat) : s.endMarked.region r = s.region r := rfl

theorem State.ephs_endMarked (s : State) (e : Nat) :
    SMap.get (fun _ => none) s.endMarked.dome.ephs e = (SMap.get (fun _ => none) s.dome.ephs e).map Eph.degraded :=
  SMap.get_map (fun _ => none) (fun o : Option Eph => o.map Eph.degraded) s.dome.ephs e

/-- Every region that is RUNNING in s begins its drain in u. -/
def State.drainAll (s u : State) : State := (List.range 112).foldl (fun t r => if (s.region r).sched_ = 2 then t.drainStart r else t) u

theorem State.drainAll_spec {s u : State} (hu : ∀ r, u.region r = s.region r) : u.Drains (s.drainAll u) ∧
    ∀ k, k < 112 → (s.drainAll u).region k = (s.region k).drainAsked := by
  obtain ⟨hdrains, hregions⟩ := State.foldl_drainStart (List.nodup_range (n := 112)) s u (fun r _ => hu r)
  refine ⟨hdrains, fun k hk => (hregions k).trans ?_⟩
  rw [if_pos (List.mem_range.2 hk), hu]

/-- u with the dome controller, the bridge, the regions and the clusters of s. -/
abbrev State.restOf (s u : State) : State := { u with dome := s.dome, host := s.host, regions := s.regions, clusters := s.clusters }

/-- e with the registers, the eyepiece, the ephemerides, the force that waits and the collimation of d. -/
abbrev Dome.kept (d e : Dome) : Dome := { e with regs := d.regs, eye := d.eye, ephs := d.ephs, forcePend := d.forcePend, col := d.col }

/-- What a degrading event of a code and a region makes of a module in READY (R352, R353). -/
structure State.Degraded (s t : State) (code region : Nat) : Prop where
  mstate : t.mstate = 2
  suspect : t.dome_ DOM_FLT_STATUS_SUSPECT = 1
  code : t.dome_ DOM_FLT_STATUS_FIRST_CODE = code % 256
  place : t.dome_ DOM_FLT_STATUS_FIRST_REGION = region % 128
  event : t.dome_ DOM_FLT_EVENT_DEGRADED = 1
  fault : Pends t 0
  ready : Pends t 11
  regions : ∀ k, k < 112 → t.region k = (s.region k).abandoned.drainAsked
  ephs : ∀ e, e < 8 → SMap.get (fun _ => none) t.dome.ephs e =
    ((SMap.get (fun _ => none) s.dome.ephs e).map Eph.degraded).filter (fun x => !x.regions.all t.endedIn)
  clusters : ∀ k, { t.cluster k with regs := (s.cluster k).regs, mu := (s.cluster k).mu } = s.cluster k
  force : t.dome.forcePend = true
  interval : t.dome.col.interval = none
  armed : t.dome.col.armed = false
  dome : s.dome.kept t.dome = s.dome
  apr : t.host.apr = s.host.apr
  rest : s.restOf t = s

theorem OnlyRegions.cluster {s t : State} (h : OnlyRegions s t) (c : Nat) : t.cluster c = s.cluster c := by
  have := congrArg State.clusters h
  exact congrArg (fun m => SMap.get (fun _ => Cluster.reset) m c) this

/-- v with its intervals abandoned, and its drains begun by drains from a to w (R353 steps 2 to 4). -/
structure State.DrainsAbandoned (v w : State) : Prop where
  dome : w.dome = { v.dome with col := v.colCut.dome.col, ephs := v.endMarked.dome.ephs, forcePend := true }
  host : w.host = v.host
  regions : ∀ k, k < 112 → w.region k = (v.region k).abandoned.drainAsked
  clusters : ∀ c, { w.cluster c with regs := (v.cluster c).regs, mu := (v.cluster c).mu } = v.cluster c
  rest : v.restOf w = v

theorem State.DrainsAbandoned.of_drains {v a w : State} (honly : OnlyRegions v.colCut a) (habandoned : ∀ k, k < 112 → a.region k = (v.region k).abandoned)
    (hdrains : a.endMarked.Drains w) (hregions : ∀ k, k < 112 → w.region k = (a.region k).drainAsked) : v.DrainsAbandoned w := by
  obtain ⟨hdome, hhost⟩ := honly.domeHost
  obtain ⟨hframe, hdrained⟩ := hdrains
  refine ⟨?_, ?_, fun k hk => ?_, fun c => ?_, ?_⟩
  · have hmarked := congrArg State.dome hframe
    refine hmarked.trans ?_
    rw [State.endMarked, State.modDome, hdome]
    rfl
  · have hkept := congrArg State.host hframe
    exact hkept.trans hhost
  · rw [hregions k hk, habandoned k hk]
  · have hc := hdrained c
    have hkept : a.endMarked.cluster c = v.cluster c := honly.cluster c
    rwa [hkept] at hc
  · have h1 : v.restOf w = v.restOf a := by have := congrArg v.restOf hframe; exact this
    have h2 : v.restOf a = v := by have := congrArg v.restOf honly; exact this
    exact h1.trans h2

theorem State.drainAll_abandoned (v : State) : v.DrainsAbandoned (v.colAbandon.drainAll v.colAbandon.endMarked) := by
  obtain ⟨honly, habandoned⟩ := v.colAbandon_spec
  obtain ⟨hdrains, hregions⟩ := State.drainAll_spec v.colAbandon.region_endMarked
  exact State.DrainsAbandoned.of_drains honly habandoned hdrains hregions

/-- What the sweep of the ephemerides leaves of w (R206, R393). -/
structure State.Swept (w t : State) : Prop where
  only : ChronoEphOnly w t
  ephs : ∀ e, e < 8 → SMap.get (fun _ => none) t.dome.ephs e =
    (SMap.get (fun _ => none) w.dome.ephs e).filter (fun x => !x.regions.all t.endedIn)
  pends : ∀ e, Pends w e → Pends t e
  apr : t.host.apr = w.host.apr

theorem State.ephSweep_swept (w : State) : w.Swept w.ephSweep where
  only := w.ephSweep_only
  ephs := fun e he => by rw [w.ephs_ephSweep he, w.ephSweep_only.endedIn]
  pends := fun _ he => he.ephSweep
  apr := by
    have := congrArg Bridge.apr w.ephSweep_host
    exact this

theorem ChronoEphOnly.kept {w t : State} (h : ChronoEphOnly w t) (d : Dome) :
    d.kept t.dome = d.kept w.dome ∧ t.dome.forcePend = w.dome.forcePend ∧ t.dome.col = w.dome.col := by
  have hdome : { t.dome with regs := w.dome.regs, eye := w.dome.eye, ephs := w.dome.ephs } = w.dome := by
    have := congrArg State.dome h.1
    exact this
  exact ⟨by have := congrArg d.kept hdome; exact this, by have := congrArg Dome.forcePend hdome; exact this,
    by have := congrArg Dome.col hdome; exact this⟩

/-- What a degrading event makes of s, given v, which s becomes as it enters DEGRADED, w, which has then begun its drains, and t after the sweep. -/
theorem State.Degraded.of_drains {s v w t : State} {code region : Nat} (hreads : v.mstate = 2 ∧ v.dome_ DOM_FLT_STATUS_SUSPECT = 1 ∧
      v.dome_ DOM_FLT_STATUS_FIRST_CODE = code % 256 ∧ v.dome_ DOM_FLT_STATUS_FIRST_REGION = region % 128 ∧ v.dome_ DOM_FLT_EVENT_DEGRADED = 1)
    (hpends : Pends v 0 ∧ Pends v 11) (hentered : OnlyDomeEvents s v) (hregs : { v.dome with regs := s.dome.regs } = s.dome) (hw : v.DrainsAbandoned w)
    (ht : w.Swept t) : s.Degraded t code region := by
  obtain ⟨hmstate, hsuspect, hcode, hplace, hevent⟩ := hreads
  obtain ⟨hentered, hevents⟩ := hentered
  obtain ⟨hkept, hforce, hcol⟩ := ht.only.kept s.dome
  have hfield : ∀ f : Fld, f.off < EYE_CHR_LAST_CNT.off → f.off ≠ TCK_EPH_ACTIVE_ACTIVE.off → t.dome_ f = v.dome_ f := fun f hlt hne =>
    (ht.only.dome_ f hlt hne).trans (by rw [State.dome_, hw.dome]; rfl)
  have hpended : ∀ e, Pends v e → Pends t e := fun e he => ht.pends e (he.of_host hw.host)
  refine ⟨(hfield _ (by decide) (by decide)).trans hmstate, (hfield _ (by decide) (by decide)).trans hsuspect,
    (hfield _ (by decide) (by decide)).trans hcode, (hfield _ (by decide) (by decide)).trans hplace, (hfield _ (by decide) (by decide)).trans hevent,
    hpended 0 hpends.1, hpended 11 hpends.2, fun k hk => ?_, fun e he => ?_, fun k => ?_, ?_, ?_, ?_, ?_, ?_, ?_⟩
  · rw [ht.only.region, hw.regions k hk, OnlyDomeHost.region hentered]
  · have hephs : v.dome.ephs = s.dome.ephs := by
      have := congrArg Dome.ephs hregs
      exact this
    rw [ht.ephs e he, hw.dome, ← hephs]
    exact congrArg (fun o : Option Eph => o.filter (fun x => !x.regions.all t.endedIn)) (v.ephs_endMarked e)
  · have hsame : t.cluster k = w.cluster k := congrArg (fun m => SMap.get (fun _ => Cluster.reset) m k) ht.only.clusters
    have hk := hw.clusters k
    rwa [← hsame, OnlyDomeHost.cluster hentered] at hk
  · rw [hforce, hw.dome]
  · rw [hcol, hw.dome]
    rfl
  · rw [hcol, hw.dome]
    rfl
  · have h1 : s.dome.kept w.dome = s.dome.kept v.dome := by rw [hw.dome]
    have h2 : s.dome.kept v.dome = s.dome := by have := congrArg s.dome.kept hregs; exact this
    exact hkept.trans (h1.trans h2)
  · rw [ht.apr, hw.host, hevents.apr]
  · have h1 : s.restOf t = s.restOf w := by have := congrArg s.restOf ht.only.1; exact this
    have h2 : s.restOf w = s.restOf v := by have := congrArg s.restOf hw.rest; exact this
    have h3 : s.restOf v = s := by have := congrArg s.restOf hentered; exact this
    exact h1.trans (h2.trans h3)

theorem State.degrade_spec {s : State} (h : s.mstate = 1) (code region : Nat) : s.Degraded (s.degrade code region) code region := by
  have hdegrade : s.degrade code region =
      ((s.enterDegraded code region).colAbandon.drainAll (s.enterDegraded code region).colAbandon.endMarked).ephSweep := if_pos h
  obtain ⟨hframe, hregs⟩ := s.enterDegraded_frame code region
  rw [hdegrade]
  exact .of_drains (State.enterDegraded_reads h code region) (State.enterDegraded_pends h code region) hframe hregs (State.drainAll_abandoned _) (State.ephSweep_swept _)

/-- A degrading event changes nothing of a module in DEGRADED (R353). -/
theorem State.degrade_degraded {s : State} (h : s.mstate = 2) (code region : Nat) : s.degrade code region = s :=
  (if_neg (by rw [h]; decide)).trans (if_neg (by rw [h]; decide))

namespace State.Degraded
variable {s t : State} {code region : Nat} (h : s.Degraded t code region)
include h

theorem sched {k : Nat} (hk : k < 112) : (t.region k).sched_ = if (s.region k).sched_ = 2 then 3 else (s.region k).sched_ := by
  rw [h.regions k hk, Region.drainAsked_sched]
  rfl

theorem buckets {k : Nat} (hk : k < 112) : (t.region k).bucket0 = Bucket.reset ∧ (t.region k).bucket1 = Bucket.reset := by
  rw [h.regions k hk]
  exact (s.region k).abandoned.drainAsked_buckets

theorem idle {k : Nat} (hk : k < 112) (hrun : (s.region k).sched_ ≠ 2) : t.region k = (s.region k).abandoned :=
  (h.regions k hk).trans (if_neg hrun)

theorem ephEnds {e : Nat} {x : Eph} (he : e < 8) (hx : SMap.get (fun _ => none) s.dome.ephs e = some x) :
    SMap.get (fun _ => none) t.dome.ephs e = if x.regions.all t.endedIn then none else some { x with endStatus := 24 } := by
  rw [h.ephs e he, hx, Option.map_some, Option.filter_some]
  have hregions : x.degraded.regions = x.regions := rfl
  rw [hregions]
  cases x.regions.all t.endedIn <;> rfl

theorem units : t.ports = s.ports ∧ t.hostMem = s.hostMem ∧ t.out = s.out ∧ t.free = s.free ∧ t.dome.ctr = s.dome.ctr ∧ t.dome.nor0 = s.dome.nor0 ∧
    t.dome.nor1 = s.dome.nor1 ∧ t.dome.degPend = s.dome.degPend := by
  have hrest := h.rest
  have hdome := h.dome
  exact ⟨by have := congrArg State.ports hrest; exact this, by have := congrArg State.hostMem hrest; exact this,
    by have := congrArg State.out hrest; exact this, by have := congrArg State.free hrest; exact this,
    by have := congrArg Dome.ctr hdome; exact this, by have := congrArg Dome.nor0 hdome; exact this,
    by have := congrArg Dome.nor1 hdome; exact this, by have := congrArg Dome.degPend hdome; exact this⟩

end State.Degraded

end Sys2Proof.Machine
end

section
namespace Sys2Proof.Machine

/-! ## FORCE of every ephemeris (R208, R353 step 4) -/

/-- What forced replacements leave of a module: of the dome controller all but the ephemerides, of these their regions; every cluster's memory and its
column of the deep store. -/
structure State.Forces (s t : State) : Prop where
  frame : { t with dome := { t.dome with ephs := s.dome.ephs }, regions := s.regions, clusters := s.clusters } = s
  places : ∀ n, (SMap.get (fun _ => none) t.dome.ephs n).map Eph.regions = (SMap.get (fun _ => none) s.dome.ephs n).map Eph.regions
  stores : ∀ c, (t.cluster c).mem = (s.cluster c).mem ∧ (t.cluster c).ds = (s.cluster c).ds

theorem State.Forces.refl (s : State) : s.Forces s := ⟨rfl, fun _ => rfl, fun _ => ⟨rfl, rfl⟩⟩

theorem State.Forces.trans {s t u : State} (h : s.Forces t) (k : t.Forces u) : s.Forces u :=
  ⟨(congrArg (fun x : State => { x with dome := { x.dome with ephs := s.dome.ephs }, regions := s.regions, clusters := s.clusters }) k.frame).trans h.frame,
    fun n => (k.places n).trans (h.places n), fun c => ⟨(k.stores c).1.trans (h.stores c).1, (k.stores c).2.trans (h.stores c).2⟩⟩

theorem State.Forces.foldl {α : Type} {f : State → α → State} (hf : ∀ u a, State.Forces u (f u a)) (l : List α) (s : State) : s.Forces (l.foldl f s) := by
  induction l generalizing s with
  | nil => exact State.Forces.refl s
  | cons a l ih => exact (hf s a).trans (ih (f s a))

theorem State.Forces.silent {s t : State} (h : s.Forces t) : t.dome.silent = s.dome.silent := by
  have := congrArg (fun x : State => x.dome.silent) h.frame
  exact this

theorem State.endWith_forces (s : State) (r status : Nat) : s.Forces (s.endWith r status) := by
  unfold State.endWith
  split
  · exact State.Forces.refl s
  · refine ⟨rfl, fun n => ?_, fun _ => ⟨rfl, rfl⟩⟩
    change (SMap.get (fun _ => none) (match SMap.get (fun _ => none) s.dome.ephs _ with | some x => _ | none => _) n).map Eph.regions = _
    split
    · next x hx =>
      split
      · rw [SMap.get_set]
        split
        · next hn => rw [hn, hx]; rfl
        · rfl
      · rfl
    · rfl

theorem State.force_forces (s : State) (r : Nat) : s.Forces (s.force r) := by
  by_cases h : (s.region r).sched_ ∈ [1, 2, 3, 4, 6]
  · rw [State.force_eq h]
    refine State.Forces.trans ?_ (State.endWith_forces _ _ _)
    generalize ((s.region r).rd TCK_RSCHED_EPOCH + 1) % 4 = ep
    have honly := (s.setRegion r (s.region r).forced).forceClusters_only r ep
    have hclusters := (s.setRegion r (s.region r).forced).cluster_forceClusters r ep
    generalize (s.setRegion r (s.region r).forced).forceClusters r ep = u at honly hclusters ⊢
    have hdome : u.dome = s.dome := by
      have := congrArg State.dome honly
      exact this
    refine ⟨?_, fun n => by rw [hdome], fun c => ?_⟩
    · have := congrArg (fun x : State => { x with dome := { x.dome with ephs := s.dome.ephs }, regions := s.regions, clusters := s.clusters }) honly
      exact this
    · rw [hclusters c]
      split
      · exact (Cluster.force_spec _ ep).2
      · exact ⟨rfl, rfl⟩
  · rw [State.force_idle h]
    exact State.Forces.refl s

theorem State.forceHeld_forces (e : Nat) (s : State) (r : Nat) : s.Forces (s.forceHeld e r) := by
  unfold State.forceHeld State.forceWrite
  split
  · split
    · exact s.force_forces r
    · split
      · exact ⟨rfl, fun _ => rfl, fun _ => ⟨rfl, rfl⟩⟩
      · exact State.Forces.refl s
  · exact State.Forces.refl s

theorem State.forceEph_none {s : State} {e : Nat} (h : SMap.get (fun _ => none) s.dome.ephs e = none) : s.forceEph e = s := by
  unfold State.forceEph
  rw [h]

theorem State.forceEph_forces (s : State) (e : Nat) : s.Forces (s.forceEph e) := by
  cases he : SMap.get (fun _ => none) s.dome.ephs e with
  | none => rw [State.forceEph_none he]; exact State.Forces.refl s
  | some x => rw [State.forceEph_held he]; exact State.Forces.foldl (State.forceHeld_forces e) _ _

/-- A region that is not the ephemeris's own is not forced with it. -/
theorem State.region_forceHeld_other {e : Nat} {s : State} {r : Nat} (k : Nat) (h : (s.region r).rd TCK_RSCHED_EPH ≠ e) :
    (s.forceHeld e k).region r = s.region r := by
  by_cases hk : r = k
  · subst hk
    rw [State.forceHeld, if_neg h]
  · exact (s.forceHeld_others e k).1 r hk

theorem State.region_foldl_forceHeld_other {e : Nat} (l : List Nat) {s : State} {r : Nat} (h : (s.region r).rd TCK_RSCHED_EPH ≠ e) :
    (l.foldl (State.forceHeld e) s).region r = s.region r := by
  induction l generalizing s with
  | nil => rfl
  | cons k l ih =>
    have hstep := State.region_forceHeld_other k h
    exact (ih (by rwa [hstep])).trans hstep

/-- What FORCE of an ephemeris leaves as it is: a region that no ephemeris has, one that is of another, and one that is FORCED already. -/
theorem State.region_forceEph_kept {s : State} {e r : Nat} (h : (∀ x, SMap.get (fun _ => none) s.dome.ephs e = some x → r ∉ x.regions) ∨
    (s.region r).rd TCK_RSCHED_EPH ≠ e ∨ (s.region r).sched_ = 5) : (s.forceEph e).region r = s.region r := by
  cases he : SMap.get (fun _ => none) s.dome.ephs e with
  | none => rw [State.forceEph_none he]
  | some x =>
    rw [State.forceEph_held he]
    rcases h with hnot | hother | hforced
    · exact State.region_foldl_forceHeld_ne e _ s (hnot x he)
    · exact State.region_foldl_forceHeld_other _ hother
    · exact State.region_foldl_forceHeld_forced e _ s hforced

/-- FORCE of the ephemerides of a list, one after another. -/
def State.forceEphs (s : State) (l : List Nat) : State := l.foldl (fun t e => t.forceEph e) s

theorem State.forceEphs_forces (s : State) (l : List Nat) : s.Forces (s.forceEphs l) := State.Forces.foldl State.forceEph_forces l s

theorem State.region_forceEphs_free (l : List Nat) {s : State} {r : Nat}
    (h : ∀ n x, SMap.get (fun _ => none) s.dome.ephs n = some x → r ∉ x.regions) : (s.forceEphs l).region r = s.region r := by
  induction l generalizing s with
  | nil => rfl
  | cons e l ih =>
    refine (ih (s := s.forceEph e) fun n x hx hr => ?_).trans (State.region_forceEph_kept (.inl (h e)))
    have hplaces := (s.forceEph_forces e).places n
    rw [hx, Option.map_some] at hplaces
    obtain ⟨y, hy, hregions⟩ := Option.map_eq_some_iff.1 hplaces.symm
    exact h n y hy (hregions ▸ hr)

theorem State.region_forceEphs_forced (l : List Nat) {s : State} {r : Nat} (h : (s.region r).sched_ = 5) : (s.forceEphs l).region r = s.region r := by
  induction l generalizing s with
  | nil => rfl
  | cons e l ih =>
    have hstep := State.region_forceEph_kept (e := e) (.inr (.inr h))
    exact (ih (s := s.forceEph e) (by rwa [hstep])).trans hstep

/-- A region of an ephemeris of the list, whose page is open and which is neither FREE nor FORCED, is forced. -/
theorem State.region_forceEphs {l : List Nat} {s : State} {e r : Nat} (he : e ∈ l) {y : List Nat}
    (hplaces : (SMap.get (fun _ => none) s.dome.ephs e).map Eph.regions = some y) (hr : r ∈ y) (hopen : s.pageOpen r = true)
    (heph : (s.region r).rd TCK_RSCHED_EPH = e) (hsched : (s.region r).sched_ ∈ [1, 2, 3, 4, 6]) : (s.forceEphs l).region r = (s.region r).forced := by
  induction l generalizing s with
  | nil => exact absurd he List.not_mem_nil
  | cons k l ih =>
    change ((s.forceEph k).forceEphs l).region r = _
    by_cases hk : e = k
    · subst hk
      obtain ⟨x, hx, rfl⟩ := Option.map_eq_some_iff.1 hplaces
      have hstep : (s.forceEph e).region r = (s.region r).forced := by
        rw [State.forceEph_held hx]
        exact State.region_foldl_forceHeld hr hopen heph hsched
      exact (State.region_forceEphs_forced l (by rw [hstep]; exact (s.region r).forced_reads.1)).trans hstep
    · have hforces := s.forceEph_forces k
      have hstep : (s.forceEph k).region r = s.region r := State.region_forceEph_kept (.inr (.inl (by rw [heph]; exact hk)))
      have hrest := ih (s := s.forceEph k) ((List.mem_cons.1 he).resolve_left hk) ((hforces.places e).trans hplaces)
        ((State.pageOpen_congr hstep hforces.silent).trans hopen) (by rwa [hstep]) (by rwa [hstep])
      rw [hrest, hstep]

end Sys2Proof.Machine
end

section
namespace Sys2Proof.Machine

/-! ## A multicast entry loses a member (R320, R321) -/

/-- Entry g of a cluster's multicast table with one member fewer, under a new map generation. -/
def Cluster.dropMember (c : Cluster) (gen g : Nat) : Cluster :=
  (c.wr (TE_MC_HI_MEMBERS.nth g) (c.rd (TE_MC_HI_MEMBERS.nth g) - 1)).wr (TE_MC_HI_MGEN.nth g) gen

theorem Cluster.loseMember_eq (c : Cluster) (i gen : Nat) :
    c.loseMember i gen = (List.range 256).foldl (fun k g => if k.groupHas g i then k.dropMember gen g else k) c := rfl

theorem Cluster.dropMember_frame (c : Cluster) (gen g : Nat) : { c.dropMember gen g with regs := c.regs } = c := by
  unfold Cluster.dropMember Cluster.wr
  rfl

theorem Cluster.word_dropMember (c : Cluster) (gen g : Nat) {o : Nat} (h : o ≠ (TE_MC_HI_MEMBERS.nth g).off) :
    Regs.word clTable (c.dropMember gen g).regs o = Regs.word clTable c.regs o :=
  (Regs.word_wr_ne clTable _ (TE_MC_HI_MGEN.nth g) gen h).trans (Regs.word_wr_ne clTable _ (TE_MC_HI_MEMBERS.nth g) _ h)

theorem Cluster.dropMember_reads (c : Cluster) (gen g : Nat) :
    (c.dropMember gen g).rd (TE_MC_HI_MEMBERS.nth g) = c.rd (TE_MC_HI_MEMBERS.nth g) - 1 ∧
    (c.dropMember gen g).rd (TE_MC_HI_MGEN.nth g) = gen % 65536 := by
  have hlt : c.rd (TE_MC_HI_MEMBERS.nth g) < 2 ^ 14 := Fld.rd_lt clTable c.regs (TE_MC_HI_MEMBERS.nth g)
  refine ⟨?_, Cluster.rd_wr_same _ (TE_MC_HI_MGEN.nth g) gen (by decide : 16 + 16 ≤ 32)⟩
  rw [Cluster.dropMember, Cluster.rd_wr_disjoint _ _ _ _ (by decide : 0 + 14 ≤ 32) (.inr (by decide : 0 + 14 ≤ 16)),
    Cluster.rd_wr_same _ _ _ (by decide : 0 + 14 ≤ 32)]
  exact Nat.mod_eq_of_lt (lt_of_le_of_lt (Nat.sub_le _ _) hlt)

/-- The rectangles of a multicast table are held apart from the counts of their members. -/
theorem Cluster.groupHas_dropMember (c : Cluster) (gen g k i : Nat) : (c.dropMember gen g).groupHas k i = c.groupHas k i := by
  have hword : ∀ f : Fld, f.off = 0x1800 → f.stride = 8 → (c.dropMember gen g).rd (f.nth k) = c.rd (f.nth k) := fun f hoff hstride =>
    congrArg (f.nth k).of (c.word_dropMember gen g (by simp only [Fld.nth, hoff, hstride]; omega))
  unfold Cluster.groupHas
  rw [hword TE_MC_LO_VALID rfl rfl, hword TE_MC_LO_X0 rfl rfl, hword TE_MC_LO_X1 rfl rfl, hword TE_MC_LO_Y0 rfl rfl, hword TE_MC_LO_Y1 rfl rfl]

theorem nth_members_ne {g k : Nat} (h : g ≠ k) : (TE_MC_HI_MEMBERS.nth k).off ≠ (TE_MC_HI_MEMBERS.nth g).off := by
  simp only [Fld.nth]
  omega

/-- The entries of a list, each once: those whose rectangle holds the cluster lose it, and nothing else changes. -/
theorem Cluster.foldl_dropMember {l : List Nat} (hl : l.Nodup) (c : Cluster) (i gen : Nat) {d : Cluster}
    (hd : l.foldl (fun k g => if k.groupHas g i then k.dropMember gen g else k) c = d) :
    { d with regs := c.regs } = c ∧
    (∀ g ∈ l, c.groupHas g i = true →
      d.rd (TE_MC_HI_MEMBERS.nth g) = c.rd (TE_MC_HI_MEMBERS.nth g) - 1 ∧ d.rd (TE_MC_HI_MGEN.nth g) = gen % 65536) ∧
    ∀ o, (∀ g ∈ l, c.groupHas g i = true → o ≠ (TE_MC_HI_MEMBERS.nth g).off) → Regs.word clTable d.regs o = Regs.word clTable c.regs o := by
  induction l generalizing c with
  | nil =>
    subst hd
    exact ⟨rfl, fun _ hg => absurd hg List.not_mem_nil, fun _ _ => rfl⟩
  | cons k l ih =>
    obtain ⟨hk, hl⟩ := List.nodup_cons.1 hl
    rw [List.foldl_cons] at hd
    by_cases hhas : c.groupHas k i = true
    · rw [if_pos hhas] at hd
      obtain ⟨hframe, hlost, hkept⟩ := ih hl (c.dropMember gen k) hd
      simp only [c.groupHas_dropMember] at hlost hkept
      have hword : ∀ g, g ∉ l → Regs.word clTable d.regs (TE_MC_HI_MEMBERS.nth g).off =
          Regs.word clTable (c.dropMember gen k).regs (TE_MC_HI_MEMBERS.nth g).off := fun g hg =>
        hkept _ (fun j hj _ => nth_members_ne (fun he => hg (he ▸ hj)))
      refine ⟨(congrArg (fun x : Cluster => { x with regs := c.regs }) hframe).trans (c.dropMember_frame gen k), fun g hg hin => ?_, fun o ho => ?_⟩
      · obtain ⟨hmembers, hgen⟩ := c.dropMember_reads gen g
        by_cases hgk : g = k
        · subst hgk
          exact ⟨(congrArg (TE_MC_HI_MEMBERS.nth g).of (hword g hk)).trans hmembers, (congrArg (TE_MC_HI_MGEN.nth g).of (hword g hk)).trans hgen⟩
        · obtain ⟨hm, hgn⟩ := hlost g ((List.mem_cons.1 hg).resolve_left hgk) hin
          exact ⟨hm.trans (congrArg (fun w => (TE_MC_HI_MEMBERS.nth g).of w - 1) (c.word_dropMember gen k (nth_members_ne (Ne.symm hgk)))), hgn⟩
      · exact (hkept o (fun g hg => ho g (List.mem_cons_of_mem k hg))).trans (c.word_dropMember gen k (ho k List.mem_cons_self hhas))
    · rw [if_neg hhas] at hd
      obtain ⟨hframe, hlost, hkept⟩ := ih hl c hd
      exact ⟨hframe, fun g hg hin => hlost g ((List.mem_cons.1 hg).resolve_left (fun he => hhas (he ▸ hin))) hin,
        fun o ho => hkept o (fun g hg => ho g (List.mem_cons_of_mem k hg))⟩

theorem Cluster.loseMember_spec (c : Cluster) (i gen : Nat) : { c.loseMember i gen with regs := c.regs } = c ∧
    (∀ g, g < 256 → c.groupHas g i = true → (c.loseMember i gen).rd (TE_MC_HI_MEMBERS.nth g) = c.rd (TE_MC_HI_MEMBERS.nth g) - 1 ∧
      (c.loseMember i gen).rd (TE_MC_HI_MGEN.nth g) = gen % 65536) ∧
    ∀ o, (∀ g, g < 256 → c.groupHas g i = true → o ≠ (TE_MC_HI_MEMBERS.nth g).off) →
      Regs.word clTable (c.loseMember i gen).regs o = Regs.word clTable c.regs o := by
  obtain ⟨hframe, hlost, hkept⟩ := Cluster.foldl_dropMember (List.nodup_range (n := 256)) c i gen (c.loseMember_eq i gen).symm
  exact ⟨hframe, fun g hg => hlost g (List.mem_range.2 hg), fun o ho => hkept o (fun g hg => ho g (List.mem_range.1 hg))⟩

theorem regReset_eq_zero {t : List RegRow} {o : Nat} (h : ∀ r ∈ t, r.reset = 0 ∨ r.covers o = false) : regReset t o = 0 := by
  unfold regReset
  induction t with
  | nil => rfl
  | cons r t ih =>
    have hstep : (if r.covers o then (0 : W32) ||| BitVec.ofNat 32 (r.reset <<< r.fld.lo) else 0) = 0 := by
      rcases h r List.mem_cons_self with hzero | hnot
      · rw [hzero, Nat.zero_shiftLeft]
        exact ite_self _
      · rw [hnot]
        rfl
    rw [List.foldl_cons, hstep]
    exact ih (fun k hk => h k (List.mem_cons_of_mem r hk))

/-- A register whose copies all lie outside a range of offsets covers none of the range. -/
theorem RegRow.covers_outside {r : RegRow} {a b o : Nat} (h : r.fld.off + r.fld.stride * r.count < a ∨ b ≤ r.fld.off) (ha : a ≤ o) (hb : o < b) :
    r.covers o = false := by
  unfold RegRow.covers
  split
  · simp only [beq_eq_false_iff_ne]
    omega
  · next hstride =>
    simp only [Bool.and_eq_false_iff, decide_eq_false_iff_not, Nat.div_lt_iff_lt_mul (Nat.pos_of_ne_zero hstride), Nat.mul_comm r.count]
    omega

theorem clTable_multicast_zero : ∀ r ∈ clTable, r.reset = 0 ∨ r.fld.off + r.fld.stride * r.count < 0x1800 ∨ 0x2000 ≤ r.fld.off := by decide +kernel

/-- A cluster at start has no multicast entry. -/
theorem Cluster.loseMember_reset (i gen : Nat) : Cluster.reset.loseMember i gen = Cluster.reset := by
  have hvalid : ∀ g ∈ List.range 256, Cluster.reset.rd (TE_MC_LO_VALID.nth g) = 0 := fun g hg => by
    have hzero : regReset clTable (TE_MC_LO_VALID.nth g).off = 0 := regReset_eq_zero fun r hr =>
      (clTable_multicast_zero r hr).imp_right fun h => RegRow.covers_outside h (Nat.le_add_right _ _) (by
        have := List.mem_range.1 hg
        simp only [Fld.nth]
        omega)
    change (TE_MC_LO_VALID.nth g).of (regReset clTable (TE_MC_LO_VALID.nth g).off) = 0
    rw [hzero]
    simp [Fld.of]
  rw [Cluster.loseMember_eq]
  generalize List.range 256 = l at hvalid
  induction l with
  | nil => rfl
  | cons g l ih =>
    have hnot : Cluster.reset.groupHas g i = false := by
      unfold Cluster.groupHas
      rw [hvalid g List.mem_cons_self]
      rfl
    rw [List.foldl_cons, hnot]
    exact ih (fun k hk => hvalid k (List.mem_cons_of_mem g hk))

/-! ## Containment (R33, R356) -/

/-- Every cluster's multicast entries lose a member. -/
def State.loseMembers (s : State) (i gen : Nat) : State :=
  (s.clusters.map (fun p => p.1)).dedup.foldl (fun t k => t.modCluster k (fun c => c.loseMember i gen)) s

theorem State.loseMembers_spec (s : State) (i gen : Nat) : { s.loseMembers i gen with clusters := s.clusters } = s ∧
    ∀ k, (s.loseMembers i gen).cluster k = (s.cluster k).loseMember i gen := by
  refine ⟨(State.foldl_onlyCluster (fun u j => OnlyCluster.modCluster u j (fun c => c.loseMember i gen)) _ s).1, fun k => ?_⟩
  rw [State.loseMembers, State.foldl_modCluster (List.nodup_dedup _)]
  by_cases hk : k ∈ s.clusters.map (fun p => p.1)
  · rw [if_pos (List.mem_dedup.2 hk)]
  · have hreset : s.cluster k = Cluster.reset := SMap.get_of_notMem _ hk
    rw [if_neg (fun h => hk (List.mem_dedup.1 h)), hreset, Cluster.loseMember_reset]

/-- The map generation of the occultation of a cluster (R33). -/
def State.nextGen (s : State) : Nat := if s.dome.merged then (s.dome_ DOM_DMAP_GEN_GEN + 1) % 65536 else 0

/-- The merged map with cluster i failed in service. -/
def State.markFailed (s : State) (i : Nat) : State :=
  s.modDome (fun d => { d with map := SMap.set (fun _ => DefRec.reset) d.map i { SMap.get (fun _ => DefRec.reset) d.map i with cstat := 2, cause := 5 } })

theorem State.defect_markFailed (s : State) (i k : Nat) :
    (s.markFailed i).defect k = if k = i then { s.defect i with cstat := 2, cause := 5 } else s.defect k :=
  SMap.get_set (fun _ => DefRec.reset) s.dome.map i { s.defect i with cstat := 2, cause := 5 } k

theorem State.domeReg_markFailed (s : State) (i : Nat) (f : Fld) : (s.markFailed i).dome_ f = s.dome_ f := rfl

/-- The cluster is fenced under a generation, and the occultation is counted and reported (R356, R368). -/
def State.fenceCount (s : State) (i gen : Nat) : State :=
  ((s.modCluster i (fun c => c.fence gen)).setDome DOM_FLT_CNT_OCC_CNT (s.dome_ DOM_FLT_CNT_OCC_CNT + 1)).domEvent DOM_FLT_EVENT_OCCULT

theorem State.occult_eq (s : State) (i : Nat) :
    s.occult i = (((s.loseMembers i s.nextGen).markFailed i).setDome DOM_DMAP_GEN_GEN s.nextGen).fenceCount i s.nextGen := rfl

theorem State.cluster_fenceCount (s : State) (i gen k : Nat) : (s.fenceCount i gen).cluster k = if k = i then (s.cluster i).fence gen else s.cluster k :=
  (OnlyDomeHost.cluster (OnlyDomeHost.domEvent _ _) k).trans
    ((State.cluster_setDome _ _ _ k).trans (State.cluster_modCluster s i k (fun c => c.fence gen)))

/-- What the count and the report of an occultation leave of the module. -/
theorem State.fenceCount_frame (s : State) (i gen : Nat) : { s.fenceCount i gen with dome := s.dome, host := s.host, clusters := s.clusters } = s ∧
    { (s.fenceCount i gen).dome with regs := s.dome.regs } = s.dome ∧ (s.fenceCount i gen).host.apr = s.host.apr ∧
    (s.fenceCount i gen).dome_ DOM_FLT_CNT_OCC_CNT = (s.dome_ DOM_FLT_CNT_OCC_CNT + 1) % 2 ^ 32 ∧
    (s.fenceCount i gen).dome_ DOM_FLT_EVENT_OCCULT = 1 ∧ (s.fenceCount i gen).dome_ DOM_DMAP_GEN_GEN = s.dome_ DOM_DMAP_GEN_GEN := by
  obtain ⟨hframe, hevents⟩ := OnlyDomeEvents.domEvent ((s.modCluster i (fun c => c.fence gen)).setDome DOM_FLT_CNT_OCC_CNT
    (s.dome_ DOM_FLT_CNT_OCC_CNT + 1)) DOM_FLT_EVENT_OCCULT
  refine ⟨?_, ?_, hevents.apr, ?_, State.dome_domEvent_same _ (by decide) (by decide), ?_⟩
  · have := congrArg (fun x : State => { x with dome := s.dome, host := s.host, clusters := s.clusters }) hframe
    exact this
  · rw [State.fenceCount, State.domEvent_dome]
    rfl
  · rw [State.fenceCount, State.dome_domEvent_apart _ (by decide), State.dome_setDome_same _ _ _ (by decide)]
  · rw [State.fenceCount, State.dome_domEvent_apart _ (by decide), State.dome_setDome_apart _ _ _ _ (by decide)]
    rfl

/-- What the occultation of cluster i under map generation gen makes of s (R33, R321, R356). -/
structure State.Occulted (s t : State) (i gen : Nat) : Prop where
  defects : ∀ k, t.defect k = if k = i then { s.defect i with cstat := 2, cause := 5 } else s.defect k
  generation : t.dome_ DOM_DMAP_GEN_GEN = gen
  counted : t.dome_ DOM_FLT_CNT_OCC_CNT = (s.dome_ DOM_FLT_CNT_OCC_CNT + 1) % 2 ^ 32
  event : t.dome_ DOM_FLT_EVENT_OCCULT = 1
  clusters : ∀ k, t.cluster k = if k = i then ((s.cluster i).loseMember i gen).fence gen else (s.cluster k).loseMember i gen
  dome : { t.dome with regs := s.dome.regs, map := s.dome.map } = s.dome
  apr : t.host.apr = s.host.apr
  rest : { t with dome := s.dome, host := s.host, clusters := s.clusters } = s

theorem State.occult_spec {s : State} (hmerged : s.dome.merged = true) (i : Nat) :
    s.Occulted (s.occult i) i ((s.dome_ DOM_DMAP_GEN_GEN + 1) % 65536) := by
  have hgen : s.nextGen = (s.dome_ DOM_DMAP_GEN_GEN + 1) % 65536 := if_pos hmerged
  rw [State.occult_eq, hgen]
  have hlt : (s.dome_ DOM_DMAP_GEN_GEN + 1) % 65536 < 65536 := Nat.mod_lt _ (by decide)
  generalize (s.dome_ DOM_DMAP_GEN_GEN + 1) % 65536 = gen at hlt
  obtain ⟨hframe, hclusters⟩ := s.loseMembers_spec i gen
  generalize s.loseMembers i gen = u at hframe hclusters ⊢
  have hdome : u.dome = s.dome := by
    have := congrArg State.dome hframe
    exact this
  have hhost : u.host = s.host := by
    have := congrArg State.host hframe
    exact this
  obtain ⟨hrest, hregs, hapr, hcount, hevent, hkept⟩ := ((u.markFailed i).setDome DOM_DMAP_GEN_GEN gen).fenceCount_frame i gen
  have hcluster := ((u.markFailed i).setDome DOM_DMAP_GEN_GEN gen).cluster_fenceCount i gen
  generalize ((u.markFailed i).setDome DOM_DMAP_GEN_GEN gen).fenceCount i gen = t at hrest hregs hapr hcount hevent hkept hcluster ⊢
  have hmap : t.dome.map = ((u.markFailed i).setDome DOM_DMAP_GEN_GEN gen).dome.map := by
    have := congrArg Dome.map hregs
    exact this
  refine ⟨fun k => ?_, ?_, ?_, hevent, fun k => ?_, ?_, ?_, ?_⟩
  · have hdefect : ∀ j, u.defect j = s.defect j := fun j => congrArg (fun d : Dome => SMap.get (fun _ => DefRec.reset) d.map j) hdome
    have hfailed : t.defect k = (u.markFailed i).defect k := congrArg (fun m => SMap.get (fun _ => DefRec.reset) m k) hmap
    rw [hfailed, State.defect_markFailed, hdefect, hdefect]
  · rw [hkept, State.dome_setDome_same _ _ _ (by decide)]
    exact Nat.mod_eq_of_lt hlt
  · have hread : u.dome_ DOM_FLT_CNT_OCC_CNT = s.dome_ DOM_FLT_CNT_OCC_CNT :=
      congrArg (fun d : Dome => Regs.rd domeTable d.regs DOM_FLT_CNT_OCC_CNT) hdome
    rw [hcount, State.dome_setDome_apart _ _ _ _ (by decide), State.domeReg_markFailed, hread]
  · rw [hcluster k, State.cluster_setDome, State.cluster_setDome, State.markFailed, State.cluster_modDome, State.cluster_modDome, hclusters, hclusters]
  · have h1 := congrArg (fun d : Dome => { d with regs := s.dome.regs, map := s.dome.map }) hregs
    refine h1.trans ?_
    have h2 := congrArg (fun d : Dome => { d with regs := s.dome.regs, map := s.dome.map }) hdome
    exact h2
  · exact hapr.trans (congrArg Bridge.apr hhost)
  · have h1 := congrArg (fun x : State => { x with dome := s.dome, host := s.host, clusters := s.clusters }) hrest
    have h2 := congrArg (fun x : State => { x with dome := s.dome, host := s.host }) hframe
    exact h1.trans h2

/-! ## The records written to NOR (R366) -/

theorem get_norPut (m : SMap Byte) (a : Nat) (bs : List Byte) (b : Nat) : SMap.get norDefault (norPut m a bs) b =
    if a ≤ b ∧ b < a + bs.length then bs.getD (b - a) 0 else SMap.get norDefault m b := by
  suffices h : ∀ (l : List Byte) (n : Nat) (m : SMap Byte), SMap.get norDefault ((l.zipIdx n).foldl (fun m p => SMap.set norDefault m (a + p.2) p.1) m) b =
      if a + n ≤ b ∧ b < a + n + l.length then l.getD (b - (a + n)) 0 else SMap.get norDefault m b from h bs 0 m
  intro l
  induction l with
  | nil =>
    intro n m
    rw [if_neg (by simp)]
    rfl
  | cons x l ih =>
    intro n m
    rw [List.zipIdx_cons, List.foldl_cons, ih, SMap.get_set, List.length_cons]
    by_cases hb : b = a + n
    · subst hb
      simp
    · rw [if_neg hb]
      by_cases hin : a + (n + 1) ≤ b ∧ b < a + (n + 1) + l.length
      · rw [if_pos hin, if_pos (by omega), show b - (a + n) = b - (a + (n + 1)) + 1 by omega, List.getD_cons_succ]
      · rw [if_neg hin, if_neg (by omega)]

theorem length_flatMap_leBytes (v : List W32) : (v.flatMap (fun x => leBytes 4 x.toNat)).length = 4 * v.length := by
  induction v with
  | nil => rfl
  | cons x v ih => rw [List.flatMap_cons, List.length_append, length_leBytes, ih, List.length_cons]; omega

/-- What is read back of bytes put into NOR. -/
theorem map_get_norPut (m : SMap Byte) (a : Nat) (bs : List Byte) :
    (List.range bs.length).map (fun j => SMap.get norDefault (norPut m a bs) (a + j)) = bs := by
  refine List.ext_getElem (by simp) fun j hj hbs => ?_
  rw [List.getElem_map, List.getElem_range, get_norPut, if_pos ⟨Nat.le_add_right a j, Nat.add_lt_add_left hbs a⟩, Nat.add_sub_cancel_left,
    List.getD_eq_getElem _ _ hbs]

end Sys2Proof.Machine
end

section
namespace Sys2Proof.Machine

/-! ## Regions that do not answer (R354, R423) -/

theorem contains_add_same (l : NSet) (r : Nat) : (NSet.add l r).contains r = true :=
  List.contains_iff_mem.mpr ((NSet.mem_add _ _ _).mpr (.inl rfl))

theorem contains_add_ne (l : NSet) {r k : Nat} (h : k ≠ r) : (NSet.add l r).contains k = l.contains k := by
  rw [Bool.eq_iff_iff, List.contains_iff_mem, List.contains_iff_mem, NSet.mem_add]
  exact or_iff_right h

/-- A region whose controller is found silent, before its failure is reported: it is in FAULT (R423). -/
def State.silenced (s : State) (r : Nat) : State :=
  (s.modDome (fun d => { d with silent := NSet.add d.silent r })).modRegion r (fun g => g.setSched 6)

/-- The failure of a region whose controller is silent: code 25 of R355. -/
theorem State.silentFailure_spec (s : State) (r : Nat) : (s.regionFailure 25 r 0).dome.silent = s.dome.silent ∧
    (s.regionFailure 25 r 0).dome_ DOM_FLT_EVENT_DOMBUS = 1 ∧ Pends (s.regionFailure 25 r 0) 0 := by
  have heq : s.regionFailure 25 r 0 = ((s.record 25 r none 0 2).domEvent DOM_FLT_EVENT_DOMBUS).degradeSoon 25 r :=
    s.regionFailure_eq (code := 25) r 0 rfl (by decide) (by decide)
  rw [heq]
  refine ⟨?_, State.dome_domEvent_same _ (by decide) (by decide), pends_domEvent _ _⟩
  change ((s.record 25 r none 0 2).domEvent DOM_FLT_EVENT_DOMBUS).dome.silent = _
  rw [State.domEvent_dome]
  rfl

/-! ## REPLACE (R351, R414) -/

theorem State.setReplace_clocked {s : State} (h : s.clocked 8 = true) :
    s.setReplace = s.modDome (fun d => { d with ctr := { s.dome.ctr with rpl := if s.replace then s.dome.ctr.rpl else s.dome.ctr.rpl + 1 } }) := by
  rw [State.setReplace, if_pos h]
  split <;> rfl

theorem State.replace_setReplace {s : State} (h : s.clocked 8 = true) : s.setReplace.replace = true := by
  rw [State.setReplace_clocked h]
  change (if s.replace then s.dome.ctr.rpl else s.dome.ctr.rpl + 1) % 2 == 1
  split
  · next hset => exact hset
  · next hclear =>
    simp only [State.replace, beq_iff_eq] at hclear ⊢
    omega

/-! ## What the commands of chapter 14 leave of the units that they do not act on -/

/-- The sweep after forced replacements: what both leave. -/
theorem State.Forces.swept {s u : State} (h : s.Forces u) : u.ephSweep.dome.forcePend = s.dome.forcePend ∧ u.ephSweep.ports = s.ports ∧
    u.ephSweep.host.apr = s.host.apr ∧ u.ephSweep.dome.ctr = s.dome.ctr ∧ (∀ k, u.ephSweep.region k = u.region k) ∧
    ∀ c, u.ephSweep.cluster c = u.cluster c := by
  have hswept := u.ephSweep_swept
  generalize u.ephSweep = t at hswept
  obtain ⟨hkept, hforce, -⟩ := hswept.only.kept s.dome
  obtain ⟨-, -, -, hports, -, hclusters⟩ := hswept.only.fields
  have hframe := h.frame
  have hforced : u.dome.forcePend = s.dome.forcePend := by
    have := congrArg (fun x : State => x.dome.forcePend) hframe
    exact this
  have hctr : t.dome.ctr = u.dome.ctr := by
    have := congrArg Dome.ctr hkept
    exact this
  refine ⟨hforce.trans hforced, hports.trans ?_, hswept.apr.trans ?_, hctr.trans ?_, hswept.only.region,
    fun c => congrArg (fun m => SMap.get (fun _ => Cluster.reset) m c) hclusters⟩
  · have := congrArg State.ports hframe
    exact this
  · have := congrArg (fun x : State => x.host.apr) hframe
    exact this
  · have := congrArg (fun x : State => x.dome.ctr) hframe
    exact this

/-- The units that an occultation leaves alone. -/
theorem State.Occulted.units {s t : State} {i gen : Nat} (h : s.Occulted t i gen) : t.regions = s.regions ∧ t.ports = s.ports ∧
    t.dome.degPend = s.dome.degPend ∧ t.dome.occPend = s.dome.occPend := by
  have hrest := h.rest
  have hdome := h.dome
  exact ⟨by have := congrArg State.regions hrest; exact this, by have := congrArg State.ports hrest; exact this,
    by have := congrArg Dome.degPend hdome; exact this, by have := congrArg Dome.occPend hdome; exact this⟩

/-- A cluster beside the occulted one loses a member of its multicast entries, and nothing else. -/
theorem State.Occulted.others {s t : State} {i gen : Nat} (h : s.Occulted t i gen) {k : Nat} (hk : k ≠ i) :
    t.defect k = s.defect k ∧ { t.cluster k with regs := (s.cluster k).regs } = s.cluster k := by
  rw [h.defects, if_neg hk, h.clusters, if_neg hk]
  exact ⟨rfl, ((s.cluster k).loseMember_spec i gen).1⟩

/-- The registers of a cluster after an occultation, of the occulted cluster too: the fence keeps them. -/
theorem State.Occulted.regs {s t : State} {i gen : Nat} (h : s.Occulted t i gen) (k : Nat) :
    (t.cluster k).regs = ((s.cluster k).loseMember i gen).regs := by
  rw [h.clusters]
  split
  · next hk => rw [hk]; rfl
  · rfl

/-- What the fence leaves of the occulted cluster (R33, R356). -/
theorem State.Occulted.own {s t : State} {i gen : Nat} (h : s.Occulted t i gen) : (t.cluster i).fenced = true ∧ (t.cluster i).occGen = gen ∧
    (t.cluster i).mem = [] ∧ (t.cluster i).elems = [] ∧ (t.cluster i).te = Te.reset ∧ (t.cluster i).mu = Mu.reset ∧ (t.cluster i).tu = Tu.reset ∧
    (t.cluster i).attach = (s.cluster i).attach ∧ (t.cluster i).fifo = (s.cluster i).fifo ∧ (t.cluster i).xcred = (s.cluster i).xcred := by
  have hframe := ((s.cluster i).loseMember_spec i gen).1
  rw [h.clusters, if_pos rfl]
  generalize (s.cluster i).loseMember i gen = c at hframe ⊢
  exact ⟨rfl, rfl, rfl, rfl, rfl, rfl, rfl, by have := congrArg Cluster.attach hframe; exact this, by have := congrArg Cluster.fifo hframe; exact this,
    by have := congrArg Cluster.xcred hframe; exact this⟩

/-! ## O45 -/

theorem exec_degrade_head {s : State} {c r : Nat} {rest : List (Nat × Nat)} (h : s.dome.degPend = (c, r) :: rest) :
    exec .degrade s = .next ((s.modDome (fun d => { d with degPend := rest })).degrade c r) := by
  change execDegrade s = _
  unfold execDegrade
  rw [h]

theorem exec_containmentOccult_head {s : State} {i : Nat} {rest : List Nat} (h : s.dome.occPend = i :: rest) (hen : s.enabled i = true) :
    exec .containmentOccult s = .next ((s.modDome (fun d => { d with occPend := rest })).occult i) := by
  change execContainmentOccult s = _
  unfold execContainmentOccult
  rw [h]
  exact congrArg Host.Outcome.next (if_pos hen)

theorem exec_faultRecordWrite_head {s : State} {v : List W32} {rest : List (List W32)} (h : s.dome.logPend = v :: rest) :
    exec .faultRecordWrite s = .next (s.modDome (fun d => { d with
      logPend := rest, nor0 := norPut d.nor0 (norHistory + 32 * (((v.getD 0 0).toNat + 4095) % 4096)) (v.flatMap (fun x => leBytes 4 x.toNat)) })) := by
  change execFaultRecordWrite s = _
  unfold execFaultRecordWrite
  rw [h]

/-- Settles O45: a degrading event by `State.Degraded`, FORCE of every ephemeris by `State.forceEphs`, containment by `State.Occulted`. -/
theorem faultStatesAndContainment : Obligations.FaultStatesAndContainment := by
  unfold Obligations.FaultStatesAndContainment
  refine ⟨?_, ?_, ?_, ?_, ?_, ?_, ?_, ?_, ?_, ?_⟩
  · intro s c r rest hready hpend hc hr
    have h := State.degrade_spec (s := s.modDome (fun d => { d with degPend := rest })) hready c r
    obtain ⟨hports, hmem, hout, -, hctr, hnor0, hnor1, hdeg⟩ := h.units
    exact ⟨_, exec_degrade_head hpend, h.mstate, h.suspect, h.code.trans (Nat.mod_eq_of_lt hc), h.place.trans (Nat.mod_eq_of_lt hr), h.event, hdeg, h.force,
      h.interval, h.armed, h.fault, h.ready, fun k hk => ⟨h.sched hk, h.buckets hk⟩, fun k hk hrun => by rw [h.idle hk hrun]; rfl,
      fun e x he hx => h.ephEnds he hx, h.clusters, hports, h.apr, hctr, hnor0, hnor1, hmem, hout⟩
  · intro s c r rest hdegraded hpend
    have hexec := exec_degrade_head hpend
    rw [State.degrade_degraded (s := s.modDome (fun d => { d with degPend := rest })) hdegraded] at hexec
    exact ⟨_, hexec, hdegraded, rfl, rfl⟩
  · intro s e y r hforce heph hr hopen hheld hsched
    have hexec : exec .degradeForce s =
        .next ((s.modDome (fun d => { d with forcePend := false })).forceEphs (List.range 8)).ephSweep := if_pos hforce
    have hforces := (s.modDome (fun d => { d with forcePend := false })).forceEphs_forces (List.range 8)
    have hforced := State.region_forceEphs (s := s.modDome (fun d => { d with forcePend := false })) (List.mem_range.2 e.isLt)
      (congrArg (Option.map Eph.regions) heph) hr hopen hheld hsched
    have hfree : ∀ k, (∀ n x, SMap.get (fun _ => none) s.dome.ephs n = some x → k ∉ x.regions) → _ := fun k hk =>
      State.region_forceEphs_free (List.range 8) (s := s.modDome (fun d => { d with forcePend := false })) (r := k) hk
    generalize (s.modDome (fun d => { d with forcePend := false })).forceEphs (List.range 8) = u at hexec hforces hforced hfree
    obtain ⟨hcleared, hports, hapr, hctr, hregion, hcluster⟩ := hforces.swept
    obtain ⟨hstate, hepoch, hslot, hbalance, -⟩ := (s.region r.val).forced_reads
    have hreg : u.ephSweep.region r.val = (s.region r.val).forced := (hregion r.val).trans hforced
    refine ⟨_, hexec, hcleared, ?_⟩
    rw [hreg]
    exact ⟨hstate, hepoch, hslot, hbalance, fun k hk => (hregion k).trans (hfree k hk), fun c => by rw [hcluster c]; exact hforces.stores c,
      hports, hapr, hctr⟩
  · intro s hdegraded hhalt
    have hne : s.mstate ≠ 3 := by rw [hdegraded]; decide
    have hexec : exec .moduleHalt s = .next ((s.setDome DOM_FLT_STATUS_MSTATE 3).hifEvent 11) :=
      congrArg Host.Outcome.next ((if_pos ⟨hdegraded, hhalt⟩).trans (State.setMstate_of_ne hne))
    refine ⟨_, hexec, ?_, pends_hifEvent _ (by decide), (OnlyDomeEvents.setDome s _ 3).trans (OnlyDomeEvents.hifEvent _ 11), ?_, ?_, ?_⟩
    · rw [State.mstate, State.domeReg_hifEvent, State.dome_setDome_same _ _ _ (by decide)]
      rfl
    · rw [State.hifEvent_dome]
      exact DomeRecords.setDome s 3 (by decide)
    · rw [State.hifEvent_dome]
      rfl
    · rw [State.hifEvent_dome]
      rfl
  · intro s i rest hpend hen hmerged
    have h := State.occult_spec (s := s.modDome (fun d => { d with occPend := rest })) hmerged i
    obtain ⟨hfenced, hocc, hmem, helems, hte, hmu, htu, hattach, hfifo, hxcred⟩ := h.own
    obtain ⟨hregions, hports, hdeg, hocclist⟩ := h.units
    have hdefect := h.defects i
    rw [if_pos rfl] at hdefect
    refine ⟨_, exec_containmentOccult_head hpend hen, by rw [hdefect], by rw [hdefect], by rw [hdefect]; rfl, by rw [hdefect]; rfl, h.generation, h.counted,
      h.event, hocclist, hfenced, hocc.trans h.generation.symm, hmem, helems, hte, hmu, htu, hattach, hfifo, hxcred, fun k g hg hin => ?_,
      fun k hk => h.others hk, fun k o ho => ?_, hregions, hports, hdeg, h.apr⟩
    · obtain ⟨-, hlost, -⟩ := (s.cluster k).loseMember_spec i ((s.dome_ DOM_DMAP_GEN_GEN + 1) % 65536)
      obtain ⟨hmembers, hgen⟩ := hlost g hg hin
      have hread : ∀ f : Fld, (State.cluster _ k).rd f = _ := fun f => congrArg (fun m => Regs.rd clTable m f) (h.regs k)
      exact ⟨(hread _).trans hmembers, (hread _).trans (hgen.trans ((Nat.mod_mod _ _).trans h.generation.symm))⟩
    · obtain ⟨-, -, hkept⟩ := (s.cluster k).loseMember_spec i ((s.dome_ DOM_DMAP_GEN_GEN + 1) % 65536)
      exact (congrArg (fun m => Regs.word clTable m o) (h.regs k)).trans (hkept o ho)
  · intro s r hdown
    exact ⟨_, congrArg Host.Outcome.next (if_pos hdown), contains_add_same _ _, rfl, fun k hk => contains_add_ne _ hk⟩
  · intro s r halive hsilent
    have hr := r.isLt
    have hexec : exec (.regionControllerSilent r) s = .next ((s.silenced r.val).regionFailure 25 r.val 0) :=
      congrArg Host.Outcome.next (if_pos ⟨halive, hsilent⟩)
    obtain ⟨hkept, hevent, hpends⟩ := (s.silenced r.val).silentFailure_spec r.val
    obtain ⟨-, -, hdeg⟩ := (s.silenced r.val).regionFailure_records (code := 25) r.val 0 rfl (by decide) (by decide)
    have hlog := (s.silenced r.val).regionFailure_logged (code := 25) r.val 0 rfl (by decide) (by decide) (by omega)
    have honly := OnlyDomeHost.failure (s.silenced r.val) 25 r.val none 0 false (degrading 25)
    refine ⟨_, hexec, ?_, ?_, hlog, hdeg, hevent, hpends, honly.clusters, honly.ports, fun k hk => ?_⟩
    · exact (congrArg Region.sched_ ((honly.region r.val).trans (State.region_modRegion_same _ _ _))).trans (Region.rd_setSched_state _ 6)
    · rw [hkept]
      exact contains_add_same _ _
    · exact (honly.region k).trans (State.region_setRegion_ne _ _ hk)
  · intro s hready
    have h := State.degrade_spec (s := { s with free := s.free + 1 }) hready ((Config.freeWord s.free).toNat % 256) 127
    obtain ⟨hports, hmem, -, hfree, hctr, hnor0, hnor1, -⟩ := h.units
    exact ⟨_, rfl, h.mstate, h.suspect, h.code.trans (Nat.mod_mod _ _), h.place, hfree, hctr, fun k hk => h.sched hk, hports, h.apr, hnor0, hnor1, hmem⟩
  · intro s hready hclocked
    have hset := State.setReplace_clocked (s := { s with free := s.free + 1 }) hclocked
    have hreplace := State.replace_setReplace (s := { s with free := s.free + 1 }) hclocked
    have hexec : exec .domFltReplace s =
        .next ((State.setReplace { s with free := s.free + 1 }).degrade ((Config.freeWord s.free).toNat % 256) 127) := rfl
    rw [hset] at hexec hreplace
    refine ⟨_, hexec, ?_⟩
    have h := State.degrade_spec (s := State.modDome { s with free := s.free + 1 } (fun d => { d with
      ctr := { s.dome.ctr with rpl := if s.replace then s.dome.ctr.rpl else s.dome.ctr.rpl + 1 } })) hready ((Config.freeWord s.free).toNat % 256) 127
    obtain ⟨hports, hmem, -, -, hctr, hnor0, hnor1, -⟩ := h.units
    exact ⟨h.mstate, (congrArg (fun c : Counters => c.rpl % 2 == 1) hctr).trans hreplace, hctr, h.place, fun k hk => h.sched hk, hports, h.apr, hnor0, hnor1,
      hmem⟩
  · intro s v rest hpend
    refine ⟨_, exec_faultRecordWrite_head hpend, ?_, rfl, rfl, rfl, fun a ha => ?_⟩
    · rw [← length_flatMap_leBytes]
      exact map_get_norPut _ _ _
    · refine (get_norPut _ _ _ _).trans (if_neg ?_)
      rw [length_flatMap_leBytes]
      unfold norHistory
      omega

end Sys2Proof.Machine
end

section
namespace Sys2Proof.Machine

/-! ## Collimation failures (R355, R364) -/

/-- A mismatch, and a repeat found TRANSIENT, make a record and nothing else. -/
theorem State.failure_mismatch (s : State) (d : Nat) : s.failure 22 127 none d false false = s.record 22 127 none d 0 := rfl

/-- A repeat found PERMANENT sets REPLACE and degrades the module. -/
theorem State.failure_permanent (s : State) (d : Nat) : s.failure 23 127 none d false true =
    ((s.record 23 127 none d 4).domEvent DOM_FLT_EVENT_COLLIM).setReplace.degradeSoon 23 127 := rfl

/-- A repeat found SUSPECT degrades the module. -/
theorem State.failure_suspect (s : State) (d : Nat) : s.failure 23 127 none d true true =
    ((s.record 23 127 none d 3).domEvent DOM_FLT_EVENT_COLLIM).degradeSoon 23 127 := rfl

theorem State.setReplace_regs (s : State) : s.setReplace.dome.regs = s.dome.regs ∧ s.setReplace.dome.degPend = s.dome.degPend ∧
    s.setReplace.dome.col = s.dome.col := by
  unfold State.setReplace
  split
  · split <;> exact ⟨rfl, rfl, rfl⟩
  · exact ⟨rfl, rfl, rfl⟩

/-- What a repeat's result does to the module, collimation's own registers and records left alone. -/
structure State.Acts (s t : State) : Prop where
  only : OnlyDomeEvents s t
  reads : ∀ f : Fld, 0x600 ≤ f.off → t.dome_ f = s.dome_ f
  col : t.dome.col = s.dome.col

theorem State.Acts.refl (s : State) : s.Acts s := ⟨OnlyDomeEvents.refl s, fun _ _ => rfl, rfl⟩

theorem State.Acts.trans {s t u : State} (h : s.Acts t) (k : t.Acts u) : s.Acts u :=
  ⟨h.only.trans k.only, fun f hf => (k.reads f hf).trans (h.reads f hf), k.col.trans h.col⟩

theorem State.Acts.modDome (s : State) {f : Dome → Dome} (hregs : (f s.dome).regs = s.dome.regs) (hcol : (f s.dome).col = s.dome.col) : s.Acts (s.modDome f) :=
  ⟨OnlyDomeEvents.modDome s f, fun k _ => congrArg (fun m => Regs.rd domeTable m k) hregs, hcol⟩

theorem State.Acts.record (s : State) (code region : Nat) (loc : Option Nat) (detail result : Nat) : s.Acts (s.record code region loc detail result) := by
  unfold State.record
  exact State.Acts.modDome s rfl rfl

theorem State.Acts.degradeSoon (s : State) (code region : Nat) : s.Acts (s.degradeSoon code region) := by
  unfold State.degradeSoon
  exact State.Acts.modDome s rfl rfl

theorem State.Acts.setDome (s : State) {f : Fld} (v : Nat) (hf : f.off < 0x600) : s.Acts (s.setDome f v) :=
  ⟨OnlyDomeEvents.setDome s f v, fun k hk => State.dome_setDome_ne s f k v (by omega), rfl⟩

theorem State.Acts.domEvent (s : State) {f : Fld} (hf : f.off < 0x600) : s.Acts (s.domEvent f) :=
  ⟨OnlyDomeEvents.domEvent s f, fun k hk => State.dome_domEvent_apart s (.inl (by omega)), by rw [State.domEvent_dome]⟩

theorem State.Acts.setReplace (s : State) : s.Acts s.setReplace := by
  obtain ⟨hregs, -, hcol⟩ := s.setReplace_regs
  exact ⟨OnlyDomeEvents.setReplace s, fun k _ => congrArg (fun m => Regs.rd domeTable m k) hregs, hcol⟩

theorem State.Acts.mismatch (s : State) (d : Nat) : s.Acts (s.failure 22 127 none d false false) := by
  rw [State.failure_mismatch]
  exact State.Acts.record s 22 127 none d 0

theorem State.Acts.permanent (s : State) (d : Nat) : s.Acts (s.failure 23 127 none d false true) := by
  rw [State.failure_permanent]
  exact (((State.Acts.record s 23 127 none d 4).trans (State.Acts.domEvent _ (by decide))).trans (State.Acts.setReplace _)).trans (State.Acts.degradeSoon _ _ _)

theorem State.Acts.suspect (s : State) (d : Nat) : s.Acts (s.failure 23 127 none d true true) := by
  rw [State.failure_suspect]
  exact ((State.Acts.record s 23 127 none d 3).trans (State.Acts.domEvent _ (by decide))).trans (State.Acts.degradeSoon _ _ _)

theorem State.Acts.colAct (s : State) (result interval : Nat) : s.Acts (s.colAct result interval) := by
  unfold State.colAct
  split
  · exact State.Acts.mismatch s interval
  · split
    · exact State.Acts.permanent s interval
    · split
      · exact (State.Acts.setDome s 1 (by decide)).trans (State.Acts.suspect _ interval)
      · exact State.Acts.refl s

/-- A TRANSIENT repeat: one record of code 22, and no degrading event (R364). -/
theorem State.colAct_transient (s : State) (interval : Nat) : Logged s (s.colAct 4 interval) 22 127 ∧
    (s.colAct 4 interval).dome.degPend = s.dome.degPend := by
  have heq : s.colAct 4 interval = s.regionFailure 22 127 interval := rfl
  obtain ⟨-, -, hdeg⟩ := s.regionFailure_records (code := 22) 127 interval rfl (by decide) (by decide)
  rw [heq]
  exact ⟨s.regionFailure_logged 127 interval rfl (by decide) (by decide) (by decide), hdeg.trans (List.append_nil _)⟩

/-- A PERMANENT repeat: REPLACE, and a degrading event (R364). -/
theorem State.colAct_permanent {s : State} (h : s.clocked 8 = true) (interval : Nat) : (s.colAct 5 interval).replace = true ∧
    (s.colAct 5 interval).dome.degPend = s.dome.degPend ++ [(23, 127)] := by
  have heq : s.colAct 5 interval = ((s.record 23 127 none interval 4).domEvent DOM_FLT_EVENT_COLLIM).setReplace.degradeSoon 23 127 := rfl
  have hclocked : ((s.record 23 127 none interval 4).domEvent DOM_FLT_EVENT_COLLIM).clocked 8 = true := by
    rw [State.clocked, State.dome_domEvent_apart _ (by decide)]
    exact h
  obtain ⟨-, hdeg, -⟩ := ((s.record 23 127 none interval 4).domEvent DOM_FLT_EVENT_COLLIM).setReplace_regs
  rw [heq]
  refine ⟨State.replace_setReplace hclocked, congrArg (· ++ [(23, 127)]) (hdeg.trans ?_)⟩
  rw [State.domEvent_dome]
  rfl

/-- A SUSPECT repeat: SUSPECT, and a degrading event (R364). -/
theorem State.colAct_suspect (s : State) (interval : Nat) : (s.colAct 6 interval).dome_ DOM_FLT_STATUS_SUSPECT = 1 ∧
    (s.colAct 6 interval).dome.degPend = s.dome.degPend ++ [(23, 127)] := by
  have heq : s.colAct 6 interval =
      (((s.setDome DOM_FLT_STATUS_SUSPECT 1).record 23 127 none interval 3).domEvent DOM_FLT_EVENT_COLLIM).degradeSoon 23 127 := rfl
  rw [heq]
  refine ⟨(State.dome_domEvent_apart _ (by decide)).trans (State.dome_setDome_same s _ _ (by decide)), congrArg (· ++ [(23, 127)]) ?_⟩
  rw [State.domEvent_dome]
  rfl

/-! ## What a comparison marks at the peer entries (R363) -/

/-- The marks of peer entry r for an own record, given the record m that the peer sent, if any. -/
def State.markRegs (t : State) (own : ColRec) (r : Nat) (m : Option ColRec) : State :=
  ((t.setDome (DOM_COL_PEER_RCVD.nth r) (if m.isSome then 1 else 0)).setDome (DOM_COL_PEER_AGREE.nth r)
    (match m with | some k => if colAgrees own k then 1 else 0 | none => 0)).setDome (DOM_COL_PEER_NONDET.nth r)
    (match m with | some k => if k.nondet then 1 else 0 | none => 0)

/-- A peer's record that is compared leaves the records held. -/
def State.takeHeld (t : State) (r : Nat) (m : Option ColRec) : State :=
  match m with
  | some k => t.modDome (fun d => { d with col := { d.col with
      held := SMap.set (fun _ => []) d.col.held r ((SMap.get (fun _ => []) d.col.held r).erase k) } })
  | none => t

/-- Peer entry r as the comparison of an own record leaves it. -/
def State.markPeer (s : State) (own : ColRec) (t : State) (r : Nat) : State := (t.markRegs own r (s.peerRec r own)).takeHeld r (s.peerRec r own)

/-- t differs from s in collimation's held records and in the peer entries of a list alone. -/
structure State.Marks (s t : State) (l : List Nat) : Prop where
  frame : { t with dome := { t.dome with regs := s.dome.regs, col := { t.dome.col with held := s.dome.col.held } } } = s
  words : ∀ o, (∀ r ∈ l, o ≠ 0x660 + 4 * r) → Regs.word domeTable t.dome.regs o = Regs.word domeTable s.dome.regs o
  held : ∀ r, r ∉ l → SMap.get (fun _ => []) t.dome.col.held r = SMap.get (fun _ => []) s.dome.col.held r

theorem State.Marks.trans {s t u : State} {l : List Nat} (h : s.Marks t l) (k : t.Marks u l) : s.Marks u l :=
  ⟨(congrArg (fun x : State => { x with dome := { x.dome with regs := s.dome.regs, col := { x.dome.col with held := s.dome.col.held } } }) k.frame).trans h.frame,
    fun o ho => (k.words o ho).trans (h.words o ho), fun r hr => (k.held r hr).trans (h.held r hr)⟩

theorem State.Marks.mono {s t : State} {l k : List Nat} (h : s.Marks t l) (hl : l ⊆ k) : s.Marks t k :=
  ⟨h.frame, fun o ho => h.words o fun r hr => ho r (hl hr), fun r hr => h.held r fun hk => hr (hl hk)⟩

theorem State.Marks.setDome (s : State) {f : Fld} {r : Nat} (v : Nat) (hf : f.off = 0x660 + 4 * r) : s.Marks (s.setDome f v) [r] :=
  ⟨rfl, fun o ho => Regs.word_wr_ne domeTable s.dome.regs f v (by rw [hf]; exact ho r List.mem_cons_self), fun _ _ => rfl⟩

theorem State.Marks.takeHeld (t : State) (r : Nat) (m : Option ColRec) : t.Marks (t.takeHeld r m) [r] := by
  cases m with
  | none => exact ⟨rfl, fun _ _ => rfl, fun _ _ => rfl⟩
  | some k => exact ⟨rfl, fun _ _ => rfl, fun j hj => SMap.get_set_ne _ _ _ (fun he => hj (List.mem_singleton.2 he))⟩

theorem State.Marks.markPeer (s : State) (own : ColRec) (t : State) (r : Nat) : t.Marks (s.markPeer own t r) [r] := by
  unfold State.markPeer State.markRegs
  exact (((State.Marks.setDome t _ rfl).trans (State.Marks.setDome _ _ rfl)).trans (State.Marks.setDome _ _ rfl)).trans (State.Marks.takeHeld _ r _)

/-- What one entry's marks read as (R363). -/
structure State.Marked (s t : State) (r : Nat) (own : ColRec) (m : Option ColRec) : Prop where
  rcvd : t.dome_ (DOM_COL_PEER_RCVD.nth r) = if m.isSome then 1 else 0
  agree : t.dome_ (DOM_COL_PEER_AGREE.nth r) = if m.any (colAgrees own) then 1 else 0
  held : SMap.get (fun _ => []) t.dome.col.held r = m.elim (SMap.get (fun _ => []) s.dome.col.held r) (SMap.get (fun _ => []) s.dome.col.held r).erase

theorem State.markRegs_rcvd (t : State) (own : ColRec) (r : Nat) (m : Option ColRec) :
    (t.markRegs own r m).dome_ (DOM_COL_PEER_RCVD.nth r) = if m.isSome then 1 else 0 := by
  unfold State.markRegs
  refine (State.dome_setDome_apart _ (DOM_COL_PEER_NONDET.nth r) (DOM_COL_PEER_RCVD.nth r) _ (.inr (by decide : 14 ≤ 32 ∧ (16 ≤ 13 ∨ 14 ≤ 15)))).trans
    ((State.dome_setDome_apart _ (DOM_COL_PEER_AGREE.nth r) (DOM_COL_PEER_RCVD.nth r) _ (.inr (by decide : 14 ≤ 32 ∧ (15 ≤ 13 ∨ 14 ≤ 14)))).trans
      ((State.dome_setDome_same t (DOM_COL_PEER_RCVD.nth r) _ (by decide : 14 ≤ 32)).trans ?_))
  split <;> rfl

theorem State.markRegs_agree (t : State) (own : ColRec) (r : Nat) (m : Option ColRec) :
    (t.markRegs own r m).dome_ (DOM_COL_PEER_AGREE.nth r) = if m.any (colAgrees own) then 1 else 0 := by
  unfold State.markRegs
  refine (State.dome_setDome_apart _ (DOM_COL_PEER_NONDET.nth r) (DOM_COL_PEER_AGREE.nth r) _ (.inr (by decide : 15 ≤ 32 ∧ (16 ≤ 14 ∨ 15 ≤ 15)))).trans
    ((State.dome_setDome_same _ (DOM_COL_PEER_AGREE.nth r) _ (by decide : 15 ≤ 32)).trans ?_)
  cases m with
  | none => rfl
  | some k =>
    rw [Option.any_some]
    dsimp only
    split <;> rfl

/-- The marks of a peer entry that is compared, and the record that it gives up. -/
theorem State.markPeer_marked (s : State) (own : ColRec) (t : State) (r : Nat) : t.Marked (s.markPeer own t r) r own (s.peerRec r own) := by
  unfold State.markPeer
  generalize s.peerRec r own = m
  have hrcvd := t.markRegs_rcvd own r m
  have hagree := t.markRegs_agree own r m
  have hheld : (t.markRegs own r m).dome.col.held = t.dome.col.held := by unfold State.markRegs; rfl
  generalize t.markRegs own r m = u at hrcvd hagree hheld ⊢
  cases m with
  | none => exact ⟨hrcvd, hagree, by rw [← hheld]; rfl⟩
  | some k => exact ⟨hrcvd, hagree, by rw [← hheld]; exact SMap.get_set_same _ _ _ _⟩

/-- The entries of a list, each marked once. -/
theorem State.foldl_markPeer (s : State) (own : ColRec) {l : List Nat} (hl : l.Nodup) (t : State) :
    t.Marks (l.foldl (s.markPeer own) t) l ∧ ∀ r ∈ l, t.Marked (l.foldl (s.markPeer own) t) r own (s.peerRec r own) := by
  induction l generalizing t with
  | nil => exact ⟨⟨rfl, fun _ _ => rfl, fun _ _ => rfl⟩, fun r hr => absurd hr List.not_mem_nil⟩
  | cons k l ih =>
    obtain ⟨hk, hl⟩ := List.nodup_cons.1 hl
    obtain ⟨hmarks, hmarked⟩ := ih hl (s.markPeer own t k)
    have hstep := State.Marks.markPeer s own t k
    have hown := s.markPeer_marked own t k
    rw [List.foldl_cons]
    refine ⟨(hstep.mono (by simp)).trans (hmarks.mono (List.subset_cons_self k l)), fun r hr => ?_⟩
    by_cases hrk : r = k
    · subst hrk
      have hword := hmarks.words (0x660 + 4 * r) fun j hj he => hk (by rwa [show r = j by omega])
      exact ⟨(congrArg (DOM_COL_PEER_RCVD.nth r).of hword).trans hown.rcvd, (congrArg (DOM_COL_PEER_AGREE.nth r).of hword).trans hown.agree,
        (hmarks.held r hk).trans hown.held⟩
    · obtain ⟨hrcvd, hagree, hheld⟩ := hmarked r ((List.mem_cons.1 hr).resolve_left hrk)
      rw [hstep.held r (by simpa using hrk)] at hheld
      exact ⟨hrcvd, hagree, hheld⟩

end Sys2Proof.Machine
end

section
namespace Sys2Proof.Machine

/-! ## A comparison (R363, R364) -/

/-- What the peers sent for an own record. -/
def State.answers (s : State) (own : ColRec) : List ColRec := (List.range 8).filterMap (fun r => s.peerRec r own)

/-- The peer entries as the comparison of an own record leaves them. -/
def State.markPeers (s : State) (own : ColRec) : State := (List.range 8).foldl (s.markPeer own) s

/-- An own record waits no longer, and TIMEOUT says whether its wait ran out. -/
def State.endWait (s : State) (own : ColRec) (expired : Bool) : State :=
  let s1 := (s.modDome (fun d => { d with col := { d.col with waiting := d.col.waiting.erase own } })).setDome DOM_COL_STATUS_TIMEOUT (if expired then 1 else 0)
  if expired then s1.colEvent DOM_COL_EVENT_TIMEOUT else s1

/-- RESULT and NOHIST of a comparison. -/
def State.colResult (s : State) (result : Nat) (nohist : Bool) : State :=
  (s.setDome DOM_COL_STATUS_RESULT result).setDome DOM_COL_STATUS_NOHIST (if nohist then 1 else 0)

/-- The class of a repeat. -/
def State.repeatClass (s : State) (own : ColRec) : Nat × Bool :=
  colClassify ((s.dome.col.hist.find? (fun h => h.1 == own.interval)).map (fun h => h.2)) own (own :: s.answers own)

theorem State.colCompare_eq (s : State) (own : ColRec) (expired : Bool) : s.colCompare own expired =
    let t := (s.markPeers own).endWait own expired
    if own.nondet || (s.answers own).any (fun k => k.nondet) then t.colResult 7 false
    else if own.repeated then
      ((t.colResult (s.repeatClass own).1 (s.repeatClass own).2).colEvent DOM_COL_EVENT_CLASSIFIED).colAct (s.repeatClass own).1 own.interval
    else if (s.answers own).all (fun k => colAgrees own k) then t.colResult 1 false
    else ((t.colResult 2 false).colEvent DOM_COL_EVENT_MISMATCH).failure 22 127 none own.interval false false := rfl

theorem State.markPeers_spec (s : State) (own : ColRec) : s.Marks (s.markPeers own) (List.range 8) ∧
    ∀ r, r < 8 → s.Marked (s.markPeers own) r own (s.peerRec r own) := by
  obtain ⟨hmarks, hmarked⟩ := s.foldl_markPeer own (List.nodup_range (n := 8)) s
  exact ⟨hmarks, fun r hr => hmarked r (List.mem_range.2 hr)⟩

/-- What a comparison of an own record makes of s before its result is known. -/
structure State.Compared (s t : State) (own : ColRec) (expired : Bool) : Prop where
  only : OnlyDomeEvents s t
  dome : { t.dome with regs := s.dome.regs, col := s.dome.col } = s.dome
  waiting : t.dome.col.waiting = s.dome.col.waiting.erase own
  timeout : t.dome_ DOM_COL_STATUS_TIMEOUT = if expired then 1 else 0
  event : expired = true → t.dome_ DOM_COL_EVENT_TIMEOUT = 1 ∧ Pends t 6
  reads : ∀ f : Fld, f.off < 0x604 → t.dome_ f = s.dome_ f
  marked : ∀ r, r < 8 → s.Marked t r own (s.peerRec r own)

theorem State.Marks.only {s t : State} {l : List Nat} (h : s.Marks t l) : OnlyDomeEvents s t ∧ { t.dome with regs := s.dome.regs, col := s.dome.col } = s.dome ∧
    t.dome.col.waiting = s.dome.col.waiting := by
  have hframe := h.frame
  have hdome := congrArg (fun x : State => { x.dome with regs := s.dome.regs, col := s.dome.col }) hframe
  have hhost := congrArg State.host hframe
  have honly := congrArg (fun x : State => { x with dome := s.dome, host := s.host }) hframe
  have hwaiting := congrArg (fun x : State => x.dome.col.waiting) hframe
  exact ⟨⟨honly, HostEvents.of_host hhost⟩, hdome, hwaiting⟩

/-- The end of a wait, the peer entries and the records held left alone. -/
theorem State.endWait_spec (s : State) (own : ColRec) (expired : Bool) : OnlyDomeEvents s (s.endWait own expired) ∧
    { (s.endWait own expired).dome with regs := s.dome.regs, col := { s.dome.col with waiting := s.dome.col.waiting } } = s.dome ∧
    (s.endWait own expired).dome.col = { s.dome.col with waiting := s.dome.col.waiting.erase own } ∧
    (s.endWait own expired).dome_ DOM_COL_STATUS_TIMEOUT = (if expired then 1 else 0) ∧
    (∀ f : Fld, f.off ≠ 0x604 → f.off ≠ 0x608 → (s.endWait own expired).dome_ f = s.dome_ f) := by
  have htimeout := State.dome_setDome_same (s.modDome (fun d => { d with col := { d.col with waiting := d.col.waiting.erase own } }))
    DOM_COL_STATUS_TIMEOUT (if expired then 1 else 0) (by decide)
  have honly := (OnlyDomeEvents.modDome s (fun d => { d with col := { d.col with waiting := d.col.waiting.erase own } })).trans
    (OnlyDomeEvents.setDome _ DOM_COL_STATUS_TIMEOUT (if expired then 1 else 0))
  have hreads : ∀ f : Fld, f.off ≠ 0x604 → ((s.modDome (fun d => { d with col := { d.col with waiting := d.col.waiting.erase own } })).setDome
      DOM_COL_STATUS_TIMEOUT (if expired then 1 else 0)).dome_ f = s.dome_ f := fun f hf => State.dome_setDome_ne _ _ f _ hf
  unfold State.endWait
  dsimp only
  cases expired with
  | false => exact ⟨honly, rfl, rfl, htimeout, fun f hs _ => hreads f hs⟩
  | true =>
    rw [if_pos rfl]
    refine ⟨honly.trans (OnlyDomeEvents.colEvent _ _), ?_, ?_, (State.dome_colEvent_apart _ (by decide)).trans htimeout,
      fun f hs he => (State.dome_colEvent_apart _ (.inl he)).trans (hreads f hs)⟩
    · rw [State.colEvent_dome]
      rfl
    · rw [State.colEvent_dome]
      rfl

theorem State.endWait_event (s : State) (own : ColRec) : (s.endWait own true).dome_ DOM_COL_EVENT_TIMEOUT = 1 ∧ Pends (s.endWait own true) 6 :=
  ⟨State.dome_colEvent_same _ (by decide) (by decide), pends_hifEvent _ (by decide)⟩

theorem State.compared_spec (s : State) (own : ColRec) (expired : Bool) : s.Compared ((s.markPeers own).endWait own expired) own expired := by
  obtain ⟨hmarks, hmarked⟩ := s.markPeers_spec own
  obtain ⟨honly, hdome, hwaiting⟩ := hmarks.only
  have hword := hmarks.words
  generalize s.markPeers own = u at hmarks hmarked honly hdome hwaiting hword ⊢
  obtain ⟨honly', hdome', hcol, htimeout, hreads⟩ := u.endWait_spec own expired
  have hevent : expired = true → (u.endWait own expired).dome_ DOM_COL_EVENT_TIMEOUT = 1 ∧ Pends (u.endWait own expired) 6 := fun h => by
    subst h
    exact u.endWait_event own
  generalize u.endWait own expired = t at honly' hdome' hcol htimeout hreads hevent ⊢
  refine ⟨honly.trans honly', ?_, ?_, htimeout, hevent, fun f hf => ?_, fun r hr => ?_⟩
  · have := congrArg (fun d : Dome => { d with regs := s.dome.regs, col := s.dome.col }) hdome'
    exact this.trans hdome
  · rw [hcol, hwaiting]
  · exact (hreads f (by omega) (by omega)).trans (congrArg f.of (hword f.off fun r _ => by omega))
  · obtain ⟨hrcvd, hagree, hheld⟩ := hmarked r hr
    have hpeer : ∀ f : Fld, f.off = 0x660 + 4 * r → t.dome_ f = u.dome_ f := fun f hf => hreads f (by omega) (by omega)
    refine ⟨(hpeer _ rfl).trans hrcvd, (hpeer _ rfl).trans hagree, ?_⟩
    rw [hcol]
    exact hheld

/-- What the result of a comparison makes of u: RESULT, NOHIST and event bits. -/
structure State.Resulted (u t : State) (result : Nat) (nohist : Bool) : Prop where
  only : OnlyDomeEvents u t
  dome : { t.dome with regs := u.dome.regs } = u.dome
  result : t.dome_ DOM_COL_STATUS_RESULT = result % 16
  nohist : t.dome_ DOM_COL_STATUS_NOHIST = if nohist then 1 else 0
  timeout : t.dome_ DOM_COL_STATUS_TIMEOUT = u.dome_ DOM_COL_STATUS_TIMEOUT
  reads : ∀ f : Fld, f.off ≠ 0x604 → f.off ≠ 0x608 → t.dome_ f = u.dome_ f

theorem State.colResult_spec (u : State) (result : Nat) (nohist : Bool) : u.Resulted (u.colResult result nohist) result nohist := by
  unfold State.colResult
  refine ⟨(OnlyDomeEvents.setDome u _ _).trans (OnlyDomeEvents.setDome _ _ _), rfl, ?_, ?_, ?_, fun f hf _ => ?_⟩
  · rw [State.dome_setDome_apart _ _ _ _ (by decide), State.dome_setDome_same _ _ _ (by decide)]
    rfl
  · rw [State.dome_setDome_same _ _ _ (by decide)]
    split <;> rfl
  · rw [State.dome_setDome_apart _ _ _ _ (by decide), State.dome_setDome_apart _ _ _ _ (by decide)]
  · rw [State.dome_setDome_ne _ _ _ _ hf, State.dome_setDome_ne _ _ _ _ hf]

theorem State.Resulted.colEvent {u t : State} {result : Nat} {nohist : Bool} (h : u.Resulted t result nohist) {f : Fld} (hf : f.off = 0x608) :
    u.Resulted (t.colEvent f) result nohist := by
  have hkept : ∀ k : Fld, k.off ≠ 0x608 → (t.colEvent f).dome_ k = t.dome_ k := fun k hk => State.dome_colEvent_apart t (.inl (by rw [hf]; exact hk))
  refine ⟨h.only.trans (OnlyDomeEvents.colEvent t f), ?_, (hkept _ (by decide)).trans h.result, (hkept _ (by decide)).trans h.nohist,
    (hkept _ (by decide)).trans h.timeout, fun k hs he => (hkept k he).trans (h.reads k hs he)⟩
  rw [State.colEvent_dome]
  exact h.dome

/-- The records and events on their way, and collimation's own records, after the result of a comparison. -/
theorem State.Resulted.records {u t : State} {result : Nat} {nohist : Bool} (h : u.Resulted t result nohist) : t.dome.col = u.dome.col ∧
    t.dome.degPend = u.dome.degPend ∧ t.dome.logSeq = u.dome.logSeq ∧ t.dome.logPend = u.dome.logPend ∧ t.dome.ctr = u.dome.ctr := by
  have hdome := h.dome
  exact ⟨by have := congrArg Dome.col hdome; exact this, by have := congrArg Dome.degPend hdome; exact this,
    by have := congrArg Dome.logSeq hdome; exact this, by have := congrArg Dome.logPend hdome; exact this, by have := congrArg Dome.ctr hdome; exact this⟩

theorem State.Compared.records {s t : State} {own : ColRec} {expired : Bool} (h : s.Compared t own expired) : t.dome.degPend = s.dome.degPend ∧
    t.dome.logSeq = s.dome.logSeq ∧ t.dome.logPend = s.dome.logPend ∧ t.dome.ctr = s.dome.ctr := by
  have hdome := h.dome
  exact ⟨by have := congrArg Dome.degPend hdome; exact this, by have := congrArg Dome.logSeq hdome; exact this,
    by have := congrArg Dome.logPend hdome; exact this, by have := congrArg Dome.ctr hdome; exact this⟩

/-! ## The classes of a repeat (R364) -/

theorem colAgrees_iff (a b : ColRec) : colAgrees a b = true ↔ a.digest = b.digest ∧ a.count = b.count := by
  rw [colAgrees, Bool.and_eq_true, beq_iff_eq, beq_iff_eq]

theorem colAgrees_comm (a b : ColRec) : colAgrees a b = colAgrees b a := by
  rw [Bool.eq_iff_iff, colAgrees_iff, colAgrees_iff]
  exact and_congr eq_comm eq_comm

theorem colAgrees_refl (a : ColRec) : colAgrees a a = true := (colAgrees_iff a a).2 ⟨rfl, rfl⟩

/-- The majority of three records: two that agree are one. -/
theorem colMajority_three (a b c : ColRec) : colMajority [a, b, c] =
    if colAgrees a b = true ∨ colAgrees a c = true then some a else if colAgrees b c = true then some b else none := by
  have hvotes : ∀ x, colVotes x [a, b, c] = (if colAgrees x a then 1 else 0) + (if colAgrees x b then 1 else 0) + (if colAgrees x c then 1 else 0) := by
    intro x
    unfold colVotes
    cases hxa : colAgrees x a <;> cases hxb : colAgrees x b <;> cases hxc : colAgrees x c <;> simp [hxa, hxb, hxc]
  unfold colMajority
  simp only [List.find?_cons, List.find?_nil, hvotes, colAgrees_refl, colAgrees_comm b a, colAgrees_comm c a, colAgrees_comm c b, List.length_cons,
    List.length_nil]
  cases hab : colAgrees a b <;> cases hac : colAgrees a c <;> cases hbc : colAgrees b c <;> rfl

/-- The class of a repeat with a first run and two peers (R364). -/
theorem colClassify_two (d n : Nat) (own k m : ColRec) : colClassify (some (d, n)) own [own, k, m] =
    (if ¬(own.digest = d ∧ own.count = n) then 4 else if colAgrees own k = true ∨ colAgrees own m = true then 3 else
      if colAgrees k m = true then 5 else 6, false) := by
  unfold colClassify
  rw [colMajority_three]
  by_cases hfirst : own.digest = d ∧ own.count = n
  · simp only [hfirst, ne_eq, not_true_eq_false, or_self, and_self, if_false]
    by_cases hagree : colAgrees own k = true ∨ colAgrees own m = true
    · simp [hagree, colAgrees_refl]
    · obtain ⟨hk, -⟩ := not_or.1 hagree
      rw [if_neg hagree, if_neg hagree]
      by_cases hkm : colAgrees k m = true <;> simp [hkm, hk]
  · have hor : own.digest ≠ d ∨ own.count ≠ n := by tauto
    simp only [if_pos hor, if_pos hfirst]

/-- A repeat with no first run and no peer's record (R364). -/
theorem colClassify_alone (own : ColRec) : colClassify none own [own] = (3, true) := by
  have hmajority : colMajority [own] = some own := by
    simp [colMajority, colVotes, colAgrees_refl]
  unfold colClassify
  rw [hmajority]
  simp [colAgrees_refl]

/-! ## The records that the peers sent -/

theorem filterMap_perm_pair {α : Type} (f : Nat → Option α) {l : List Nat} (hl : l.Nodup) {r q : Nat} (hr : r ∈ l) (hq : q ∈ l) (hrq : r ≠ q) {k m : α}
    (hk : f r = some k) (hm : f q = some m) (hnone : ∀ j ∈ l, j ≠ r → j ≠ q → f j = none) : l.filterMap f = [k, m] ∨ l.filterMap f = [m, k] := by
  have hq' : q ∈ l.erase r := (List.mem_erase_of_ne (Ne.symm hrq)).2 hq
  have hperm : l.Perm (r :: q :: (l.erase r).erase q) := (List.perm_cons_erase hr).trans ((List.perm_cons_erase hq').cons r)
  have hrest : ((l.erase r).erase q).filterMap f = [] := List.filterMap_eq_nil_iff.2 fun j hj => by
    rw [(hl.erase r).mem_erase_iff, hl.mem_erase_iff] at hj
    obtain ⟨hjq, hjr, hj⟩ := hj
    exact hnone j hj hjr hjq
  have hpair := hperm.filterMap f
  rw [List.filterMap_cons_some hk, List.filterMap_cons_some hm, hrest] at hpair
  exact List.perm_pair.1 hpair

theorem filterMap_eq_single {α : Type} (f : Nat → Option α) {l : List Nat} (hl : l.Nodup) {r : Nat} (hr : r ∈ l) {k : α} (hk : f r = some k)
    (hnone : ∀ j ∈ l, j ≠ r → f j = none) : l.filterMap f = [k] := by
  have hrest : (l.erase r).filterMap f = [] := List.filterMap_eq_nil_iff.2 fun j hj => by
    rw [hl.mem_erase_iff] at hj
    exact hnone j hj.2 hj.1
  have hone := (List.perm_cons_erase hr).filterMap f
  rw [List.filterMap_cons_some hk, hrest] at hone
  exact List.perm_singleton.1 hone

theorem State.answers_none {s : State} {own : ColRec} (h : ∀ r ∈ List.range 8, s.peerRec r own = none) : s.answers own = [] :=
  List.filterMap_eq_nil_iff.2 h

end Sys2Proof.Machine
end

section
namespace Sys2Proof.Machine

/-! ## Records of peers that are held (R362) -/

/-- A peer's records with one more: four are held, and a fifth displaces the oldest. -/
def pushHeld (l : List ColRec) (k : ColRec) : List ColRec := (if 4 ≤ l.length then l.drop 1 else l) ++ [k]

/-- Peer entry r is valid and names the sender of record k. -/
abbrev State.PeerNames (s : State) (k : ColRec) (r : Nat) : Prop := s.peerValid r = true ∧ s.dome_ (DOM_COL_PEER_MODID.nth r) = k.src

/-- Record k is held for peer entry r. -/
def State.holdRec (t : State) (k : ColRec) (r : Nat) : State :=
  t.modDome (fun d => { d with col := { d.col with held := SMap.set (fun _ => []) d.col.held r (pushHeld (SMap.get (fun _ => []) d.col.held r) k) } })

/-- Peer entry r as the arrival of record k leaves it. -/
def State.holdAt (k : ColRec) (t : State) (r : Nat) : State :=
  if t.PeerNames k r then
    if 4 ≤ (SMap.get (fun _ => []) t.dome.col.held r).length then (t.holdRec k r).colEvent DOM_COL_EVENT_OVERFLOW else t.holdRec k r
  else t

theorem State.colHold_eq (s : State) (k : ColRec) : s.colHold k = (List.range 8).foldl (State.holdAt k) s := rfl

/-- t differs from s in the records held for a list of peer entries, and in OVERFLOW and its events, alone. -/
structure State.Holds (s t : State) (l : List Nat) : Prop where
  events : HostEvents s t
  frame : { t with host := s.host, dome := { t.dome with regs := s.dome.regs, col := { t.dome.col with held := s.dome.col.held } } } = s
  words : ∀ o, o ≠ 0x608 → Regs.word domeTable t.dome.regs o = Regs.word domeTable s.dome.regs o
  held : ∀ r, r ∉ l → SMap.get (fun _ => []) t.dome.col.held r = SMap.get (fun _ => []) s.dome.col.held r
  overflow : s.dome_ DOM_COL_EVENT_OVERFLOW = 1 → t.dome_ DOM_COL_EVENT_OVERFLOW = 1

theorem State.Holds.refl (s : State) (l : List Nat) : s.Holds s l := ⟨HostEvents.refl s, rfl, fun _ _ => rfl, fun _ _ => rfl, id⟩

theorem State.Holds.trans {s t u : State} {l : List Nat} (h : s.Holds t l) (k : t.Holds u l) : s.Holds u l :=
  ⟨h.events.trans k.events,
    (congrArg (fun x : State => { x with
      host := s.host, dome := { x.dome with regs := s.dome.regs, col := { x.dome.col with held := s.dome.col.held } } }) k.frame).trans h.frame,
    fun o ho => (k.words o ho).trans (h.words o ho), fun r hr => (k.held r hr).trans (h.held r hr), fun hs => k.overflow (h.overflow hs)⟩

theorem State.Holds.mono {s t : State} {l k : List Nat} (h : s.Holds t l) (hl : l ⊆ k) : s.Holds t k :=
  ⟨h.events, h.frame, h.words, fun r hr => h.held r fun hk => hr (hl hk), h.overflow⟩

theorem State.Holds.holdRec (t : State) (k : ColRec) (r : Nat) : t.Holds (t.holdRec k r) [r] :=
  ⟨HostEvents.of_host rfl, rfl, fun _ _ => rfl, fun _ hj => SMap.get_set_ne _ _ _ (fun he => hj (List.mem_singleton.2 he)), id⟩

theorem State.Holds.overflowEvent (t : State) (l : List Nat) : t.Holds (t.colEvent DOM_COL_EVENT_OVERFLOW) l := by
  have hdome := t.colEvent_dome DOM_COL_EVENT_OVERFLOW
  obtain ⟨honly, hevents⟩ := OnlyDomeEvents.colEvent t DOM_COL_EVENT_OVERFLOW
  have hset := State.dome_colEvent_same t (f := DOM_COL_EVENT_OVERFLOW) (by decide) (by decide)
  generalize t.colEvent DOM_COL_EVENT_OVERFLOW = u at hdome honly hevents hset ⊢
  refine ⟨hevents, ?_, fun o ho => ?_, fun r _ => by rw [hdome], fun _ => hset⟩
  · rw [hdome]
    exact honly
  · rw [hdome]
    exact Regs.word_wr_ne domeTable t.dome.regs DOM_COL_EVENT_OVERFLOW 1 ho

theorem State.Holds.holdAt (k : ColRec) (t : State) (r : Nat) : t.Holds (State.holdAt k t r) [r] := by
  unfold State.holdAt
  split
  · split
    · exact (State.Holds.holdRec t k r).trans (State.Holds.overflowEvent _ _)
    · exact State.Holds.holdRec t k r
  · exact State.Holds.refl t _

theorem State.Holds.dome_ {s t : State} {l : List Nat} (h : s.Holds t l) {f : Fld} (hf : f.off ≠ 0x608) : t.dome_ f = s.dome_ f :=
  congrArg f.of (h.words f.off hf)

theorem State.Holds.peerValid {s t : State} {l : List Nat} (h : s.Holds t l) (r : Nat) : t.peerValid r = s.peerValid r :=
  congrArg (· == 1) (h.dome_ (f := DOM_COL_PEER_VALID.nth r) (by simp only [Fld.nth]; omega))

theorem State.Holds.peerNames {s t : State} {l : List Nat} (h : s.Holds t l) (k : ColRec) (r : Nat) : t.PeerNames k r ↔ s.PeerNames k r := by
  unfold State.PeerNames
  rw [h.peerValid, h.dome_ (f := DOM_COL_PEER_MODID.nth r) (by simp only [Fld.nth]; omega)]

/-- The records of a peer entry that names the sender, after record k. -/
structure State.HoldsRec (s t : State) (k : ColRec) (r : Nat) : Prop where
  held : SMap.get (fun _ => []) t.dome.col.held r = pushHeld (SMap.get (fun _ => []) s.dome.col.held r) k
  overflow : 4 ≤ (SMap.get (fun _ => []) s.dome.col.held r).length → t.dome_ DOM_COL_EVENT_OVERFLOW = 1

theorem State.holdAt_holds {t : State} {k : ColRec} {r : Nat} (h : t.PeerNames k r) : t.HoldsRec (State.holdAt k t r) k r := by
  have hpush : SMap.get (fun _ => []) (t.holdRec k r).dome.col.held r = pushHeld (SMap.get (fun _ => []) t.dome.col.held r) k := SMap.get_set_same _ _ _ _
  rw [State.holdAt, if_pos h]
  split
  · refine ⟨?_, fun _ => State.dome_colEvent_same _ (by decide) (by decide)⟩
    rw [State.colEvent_dome]
    exact hpush
  · next hroom => exact ⟨hpush, fun hfull => absurd hfull hroom⟩

/-- A record that arrives is held once for each entry of a list that names its sender. -/
theorem State.foldl_holdAt (k : ColRec) {l : List Nat} (hl : l.Nodup) (t : State) : t.Holds (l.foldl (State.holdAt k) t) l ∧
    ∀ r ∈ l, t.PeerNames k r → t.HoldsRec (l.foldl (State.holdAt k) t) k r := by
  induction l generalizing t with
  | nil => exact ⟨State.Holds.refl t _, fun r hr => absurd hr List.not_mem_nil⟩
  | cons j l ih =>
    obtain ⟨hj, hl⟩ := List.nodup_cons.1 hl
    obtain ⟨hholds, hrecs⟩ := ih hl (State.holdAt k t j)
    have hstep := State.Holds.holdAt k t j
    rw [List.foldl_cons]
    refine ⟨(hstep.mono (by simp)).trans (hholds.mono (List.subset_cons_self j l)), fun r hr hnames => ?_⟩
    by_cases hrj : r = j
    · subst hrj
      obtain ⟨hheld, hoverflow⟩ := State.holdAt_holds hnames
      exact ⟨(hholds.held r hj).trans hheld, fun hfull => hholds.overflow (hoverflow hfull)⟩
    · obtain ⟨hheld, hoverflow⟩ := hrecs r ((List.mem_cons.1 hr).resolve_left hrj) ((hstep.peerNames k r).2 hnames)
      rw [hstep.held r (by simpa using hrj)] at hheld hoverflow
      exact ⟨hheld, hoverflow⟩

theorem State.colHold_spec (s : State) (k : ColRec) : s.Holds (s.colHold k) (List.range 8) ∧
    ∀ r, r < 8 → s.PeerNames k r → s.HoldsRec (s.colHold k) k r := by
  obtain ⟨hholds, hrecs⟩ := State.foldl_holdAt k (List.nodup_range (n := 8)) s
  rw [State.colHold_eq]
  exact ⟨hholds, fun r hr => hrecs r (List.mem_range.2 hr)⟩

/-- What the arrival of a record leaves of the dome controller. -/
theorem State.Holds.only {s t : State} {l : List Nat} (h : s.Holds t l) : OnlyDomeEvents s t ∧
    { t.dome with regs := s.dome.regs, col := s.dome.col } = s.dome ∧ t.dome.col.waiting = s.dome.col.waiting ∧ t.dome.col.inbox = s.dome.col.inbox := by
  have hframe := h.frame
  have honly := congrArg (fun x : State => { x with dome := s.dome }) hframe
  have hdome := congrArg (fun x : State => { x.dome with col := s.dome.col }) hframe
  have hwaiting := congrArg (fun x : State => x.dome.col.waiting) hframe
  have hinbox := congrArg (fun x : State => x.dome.col.inbox) hframe
  exact ⟨⟨honly, h.events⟩, hdome, hwaiting, hinbox⟩

/-- Only the records held and OVERFLOW of the dome controller change with the arrival of a record. -/
theorem State.Holds.records {s t : State} {l : List Nat} (h : s.Holds t l) : DomeRecords { s.dome with col := t.dome.col } t.dome [DOM_COL_EVENT_OVERFLOW.off] ∧
    t.dome.logSeq = s.dome.logSeq ∧ t.dome.degPend = s.dome.degPend := by
  obtain ⟨-, hdome, -⟩ := h.only
  have hrecords := congrArg (fun d : Dome => { d with col := t.dome.col, logPend := s.dome.logPend, logSeq := s.dome.logSeq, degPend := s.dome.degPend }) hdome
  have hseq := congrArg Dome.logSeq hdome
  have hdeg := congrArg Dome.degPend hdome
  exact ⟨⟨hrecords, fun o ho => h.words o (fun he => ho (List.mem_singleton.2 he))⟩, hseq, hdeg⟩

/-! ## Own records whose peers have all answered (R363) -/

theorem State.colTry_none {s : State} (h : s.dome.col.waiting = []) : s.colTry = s := by
  rw [State.colTry, h]
  rfl

theorem State.colTry_one {s : State} {own : ColRec} (h : s.dome.col.waiting = [own]) :
    s.colTry = if s.colReady own then s.colCompare own false else s := by
  rw [State.colTry, h]
  rfl

theorem State.peerRec_valid {s : State} {r : Nat} {own : ColRec} (h : s.peerValid r = true) : s.peerRec r own =
    (SMap.get (fun _ => []) s.dome.col.held r).find? (fun k => k.interval == own.interval && k.repeated == own.repeated) := if_pos h

theorem State.peerRec_invalid {s : State} {r : Nat} {own : ColRec} (h : s.peerValid r = false) : s.peerRec r own = none :=
  if_neg (by rw [h]; decide)

end Sys2Proof.Machine
end

section
namespace Sys2Proof.Machine

/-! ## Comparisons of first runs and of repeats (R363, R364) -/

/-- The own record of a first run, where no bucket took a non-deterministic rounding, is compared by agreement alone. -/
theorem State.colCompare_first {s : State} {own : ColRec} (hrep : own.repeated = false) (hdet : own.nondet = false)
    (hans : (s.answers own).any (fun k => k.nondet) = false) (expired : Bool) : s.colCompare own expired =
    if (s.answers own).all (fun k => colAgrees own k) then ((s.markPeers own).endWait own expired).colResult 1 false
    else ((((s.markPeers own).endWait own expired).colResult 2 false).colEvent DOM_COL_EVENT_MISMATCH).record 22 127 none own.interval 0 := by
  rw [State.colCompare_eq]
  dsimp only
  rw [if_neg (by rw [hdet, hans]; decide), if_neg (by rw [hrep]; decide), State.failure_mismatch]

/-- The own record of a repeat, where no bucket took a non-deterministic rounding, is classified, and its class acted on. -/
theorem State.colCompare_repeat {s : State} {own : ColRec} (hrep : own.repeated = true) (hdet : own.nondet = false)
    (hans : (s.answers own).any (fun k => k.nondet) = false) (expired : Bool) {c : Nat × Bool} (hc : s.repeatClass own = c) : s.colCompare own expired =
    ((((s.markPeers own).endWait own expired).colResult c.1 c.2).colEvent DOM_COL_EVENT_CLASSIFIED).colAct c.1 own.interval := by
  rw [State.colCompare_eq]
  dsimp only
  rw [if_neg (by rw [hdet, hans]; decide), if_pos hrep, hc]

/-- What a comparison of an own record makes of s, its result known. -/
structure State.Settled (s t : State) (own : ColRec) (expired : Bool) (result : Nat) (nohist : Bool) : Prop where
  only : OnlyDomeEvents s t
  result : t.dome_ DOM_COL_STATUS_RESULT = result % 16
  nohist : t.dome_ DOM_COL_STATUS_NOHIST = if nohist then 1 else 0
  timeout : t.dome_ DOM_COL_STATUS_TIMEOUT = if expired then 1 else 0
  waiting : t.dome.col.waiting = s.dome.col.waiting.erase own
  marked : ∀ r, r < 8 → s.Marked t r own (s.peerRec r own)
  reads : ∀ f : Fld, f.off < 0x604 → t.dome_ f = s.dome_ f
  degPend : t.dome.degPend = s.dome.degPend
  logSeq : t.dome.logSeq = s.dome.logSeq
  logPend : t.dome.logPend = s.dome.logPend
  ctr : t.dome.ctr = s.dome.ctr

theorem State.Compared.settled {s u t : State} {own : ColRec} {expired : Bool} {result : Nat} {nohist : Bool} (h : s.Compared u own expired)
    (k : u.Resulted t result nohist) : s.Settled t own expired result nohist := by
  obtain ⟨hcol, hdeg, hseq, hpend, hctr⟩ := k.records
  obtain ⟨hdeg', hseq', hpend', hctr'⟩ := h.records
  refine ⟨h.only.trans k.only, k.result, k.nohist, k.timeout.trans h.timeout, (congrArg Col.waiting hcol).trans h.waiting, fun r hr => ?_,
    fun f hf => (k.reads f (by omega) (by omega)).trans (h.reads f hf), hdeg.trans hdeg', hseq.trans hseq', hpend.trans hpend', hctr.trans hctr'⟩
  obtain ⟨hrcvd, hagree, hheld⟩ := h.marked r hr
  have hpeer : ∀ f : Fld, f.off = 0x660 + 4 * r → t.dome_ f = u.dome_ f := fun f hf => k.reads f (by omega) (by omega)
  refine ⟨(hpeer _ rfl).trans hrcvd, (hpeer _ rfl).trans hagree, ?_⟩
  rw [hcol]
  exact hheld

/-- A comparison that ends in a result and no event. -/
theorem State.settled_result (s : State) (own : ColRec) (expired : Bool) (result : Nat) (nohist : Bool) :
    s.Settled (((s.markPeers own).endWait own expired).colResult result nohist) own expired result nohist :=
  (s.compared_spec own expired).settled (State.colResult_spec _ _ _)

/-- A comparison that ends in a result with an event of collimation. -/
theorem State.settled_event (s : State) (own : ColRec) (expired : Bool) (result : Nat) (nohist : Bool) {f : Fld} (hf : f.off = 0x608) :
    s.Settled ((((s.markPeers own).endWait own expired).colResult result nohist).colEvent f) own expired result nohist :=
  (s.compared_spec own expired).settled ((State.colResult_spec _ _ _).colEvent hf)

/-! ## One peer's record (R363) -/

theorem State.answers_one {s : State} {own k : ColRec} {r : Nat} (hr : r < 8) (hvalid : ∀ j ∈ List.range 8, s.peerValid j = decide (j = r))
    (hk : s.peerRec r own = some k) : s.answers own = [k] :=
  filterMap_eq_single _ List.nodup_range (List.mem_range.2 hr) hk fun j hj hjr =>
    State.peerRec_invalid ((hvalid j hj).trans (decide_eq_false hjr))

theorem State.colReady_one {s : State} {own k : ColRec} {r : Nat} (hvalid : ∀ j ∈ List.range 8, s.peerValid j = decide (j = r))
    (hk : s.peerRec r own = some k) : s.colReady own = true := by
  refine List.all_eq_true.2 fun j hj => ?_
  rw [hvalid j hj]
  by_cases hjr : j = r
  · rw [hjr, hk]
    exact Bool.or_true _
  · rw [decide_eq_false hjr]
    rfl

/-- Dome registers, events and records after the only valid peer's record answered the only own record of a first run. -/
structure State.FirstRun (s t : State) (own k : ColRec) (r : Nat) : Prop where
  only : OnlyDomeEvents s t
  result : t.dome_ DOM_COL_STATUS_RESULT = if colAgrees own k then 1 else 2
  nohist : t.dome_ DOM_COL_STATUS_NOHIST = 0
  timeout : t.dome_ DOM_COL_STATUS_TIMEOUT = 0
  waiting : t.dome.col.waiting = s.dome.col.waiting.erase own
  marked : s.Marked t r own (some k)
  mismatch : colAgrees own k = false → t.dome_ DOM_COL_EVENT_MISMATCH = 1 ∧ Pends t 6
  suspect : t.dome_ DOM_FLT_STATUS_SUSPECT = s.dome_ DOM_FLT_STATUS_SUSPECT
  degPend : t.dome.degPend = s.dome.degPend
  ctr : t.dome.ctr = s.dome.ctr

theorem State.colCompare_one {s : State} {own k : ColRec} {r : Nat} (hr : r < 8) (hans : s.answers own = [k]) (hk : s.peerRec r own = some k)
    (hrep : own.repeated = false) (hdet : own.nondet = false) (hkdet : k.nondet = false) : s.FirstRun (s.colCompare own false) own k r := by
  have heq := State.colCompare_first (s := s) hrep hdet (by rw [hans]; simp [hkdet]) false
  rw [hans, List.all_cons, List.all_nil, Bool.and_true] at heq
  rw [heq]
  cases hagree : colAgrees own k with
  | true =>
    obtain ⟨honly, hresult, hnohist, htimeout, hwaiting, hmarked, hreads, hdeg, -, -, hctr⟩ := s.settled_result own false 1 false
    rw [if_pos rfl]
    exact ⟨honly, by rw [hagree]; exact hresult, hnohist, htimeout, hwaiting, hk ▸ hmarked r hr, fun h => absurd (hagree.symm.trans h) (by decide),
      hreads _ (by decide), hdeg, hctr⟩
  | false =>
    have hevent : ∀ u : State, (u.colEvent DOM_COL_EVENT_MISMATCH).dome_ DOM_COL_EVENT_MISMATCH = 1 ∧ Pends (u.colEvent DOM_COL_EVENT_MISMATCH) 6 :=
      fun u => ⟨State.dome_colEvent_same u (by decide) (by decide), pends_hifEvent _ (by decide)⟩
    obtain ⟨honly, hresult, hnohist, htimeout, hwaiting, hmarked, hreads, hdeg, -, -, hctr⟩ :=
      s.settled_event own false 2 false (f := DOM_COL_EVENT_MISMATCH) rfl
    have hmismatch := hevent (((s.markPeers own).endWait own false).colResult 2 false)
    rw [if_neg (by decide)]
    generalize (((s.markPeers own).endWait own false).colResult 2 false).colEvent DOM_COL_EVENT_MISMATCH = u at *
    obtain ⟨hrcvd, hmarks, hheld⟩ := hk ▸ hmarked r hr
    exact ⟨honly.trans (State.Acts.record u _ _ _ _ _).only, by rw [hagree]; exact hresult, hnohist, htimeout, hwaiting, ⟨hrcvd, hmarks, hheld⟩,
      fun _ => hmismatch, hreads _ (by decide), hdeg, hctr⟩

end Sys2Proof.Machine
end

section
namespace Sys2Proof.Machine

/-! ## Records that arrive (R362, R363) -/

/-- The oldest record that arrived is taken. -/
def State.takeInbox (s : State) (rest : List ColRec) : State := s.modDome (fun d => { d with col := { d.col with inbox := rest } })

theorem exec_colRecordReceive {s : State} {k : ColRec} {rest : List ColRec} (hin : s.dome.col.inbox = k :: rest) : exec (.colRecordReceive) s =
    .next (if k.set = s.dome_ DOM_COL_SET_SET then ((s.takeInbox rest).colHold k).colTry else s.takeInbox rest) := by
  have hexec : exec (.colRecordReceive) s = execColRecordReceive s := rfl
  rw [hexec, execColRecordReceive, hin]
  rfl

/-- A record of the set for a valid peer entry, where no own record waits, is held. -/
theorem colRecordReceive_held {s : State} {k : ColRec} {rest : List ColRec} {r : Nat} (hr : r < 8) (hin : s.dome.col.inbox = k :: rest)
    (hset : k.set = s.dome_ DOM_COL_SET_SET) (hnames : s.PeerNames k r) (hwait : s.dome.col.waiting = []) :
    ∃ t, exec (.colRecordReceive) s = .next t ∧ (s.takeInbox rest).Holds t (List.range 8) ∧ (s.takeInbox rest).HoldsRec t k r := by
  obtain ⟨hholds, hrecs⟩ := (s.takeInbox rest).colHold_spec k
  obtain ⟨-, -, hwaiting, -⟩ := hholds.only
  refine ⟨_, exec_colRecordReceive hin, ?_⟩
  rw [if_pos hset, State.colTry_none (hwaiting.trans hwait)]
  exact ⟨hholds, hrecs r hr hnames⟩

/-- A record of the set by the only valid peer, where that entry held none and an own record waits for it: it is compared. -/
theorem colRecordReceive_compared {s : State} {k own : ColRec} {rest : List ColRec} {r : Nat} (hr : r < 8) (hin : s.dome.col.inbox = k :: rest)
    (hset : k.set = s.dome_ DOM_COL_SET_SET) (hvalid : ∀ j ∈ List.range 8, s.peerValid j = decide (j = r))
    (hmod : s.dome_ (DOM_COL_PEER_MODID.nth r) = k.src) (hheld : SMap.get (fun _ => []) s.dome.col.held r = [])
    (hwait : s.dome.col.waiting = [own]) (hrep : own.repeated = false) (hkrep : k.repeated = false) (hdet : own.nondet = false)
    (hkdet : k.nondet = false) (hinterval : k.interval = own.interval) :
    ∃ u t, exec (.colRecordReceive) s = .next t ∧ (s.takeInbox rest).Holds u (List.range 8) ∧
      SMap.get (fun _ => []) u.dome.col.held r = [k] ∧ u.FirstRun t own k r := by
  obtain ⟨hholds, hrecs⟩ := (s.takeInbox rest).colHold_spec k
  have hexec := exec_colRecordReceive hin
  rw [if_pos hset] at hexec
  have hvr : s.peerValid r = true := (hvalid r (List.mem_range.2 hr)).trans (decide_eq_true rfl)
  obtain ⟨hrec, -⟩ := hrecs r hr ⟨hvr, hmod⟩
  generalize (s.takeInbox rest).colHold k = u at hexec hholds hrec
  have hone : SMap.get (fun _ => []) u.dome.col.held r = [k] := hrec.trans (congrArg (pushHeld · k) hheld)
  have hvalid' : ∀ j ∈ List.range 8, u.peerValid j = decide (j = r) := fun j hj => (hholds.peerValid j).trans (hvalid j hj)
  have hk : u.peerRec r own = some k := by
    rw [State.peerRec_valid ((hholds.peerValid r).trans hvr), hone]
    simp [hinterval, hrep, hkrep]
  obtain ⟨-, -, hwaiting, -⟩ := hholds.only
  rw [State.colTry_one (hwaiting.trans hwait), if_pos (State.colReady_one hvalid' hk)] at hexec
  exact ⟨u, _, hexec, hholds, hone, State.colCompare_one hr (State.answers_one hr hvalid' hk) hk hrep hdet hkdet⟩

/-! ## Waits that run out (R363, R364) -/

theorem exec_colWaitTimeout {s : State} {own : ColRec} {rest : List ColRec} (hwait : s.dome.col.waiting = own :: rest) :
    exec (.colWaitTimeout) s = .next (s.colCompare own true) := by
  have hexec : exec (.colWaitTimeout) s = execColWaitTimeout s := rfl
  rw [hexec, execColWaitTimeout, hwait]

/-- The wait of a first run that no peer answered: MATCH with TIMEOUT. -/
theorem State.colCompare_unanswered {s : State} {own : ColRec} (hrep : own.repeated = false) (hdet : own.nondet = false)
    (hnone : ∀ r ∈ List.range 8, s.peerRec r own = none) : s.Settled (s.colCompare own true) own true 1 false ∧
    (s.colCompare own true).dome_ DOM_COL_EVENT_TIMEOUT = 1 ∧ Pends (s.colCompare own true) 6 := by
  have hans := State.answers_none hnone
  rw [State.colCompare_first hrep hdet (by rw [hans]; rfl), hans, List.all_nil, if_pos rfl]
  obtain ⟨hevent, hpends⟩ := (s.compared_spec own true).event rfl
  refine ⟨s.settled_result own true 1 false, ?_, hpends⟩
  unfold State.colResult
  exact (State.dome_setDome_ne _ _ _ _ (by decide)).trans ((State.dome_setDome_ne _ _ _ _ (by decide)).trans hevent)

/-- A repeat of class c: what is settled before its class is acted on. -/
theorem State.colCompare_class {s : State} {own : ColRec} (hrep : own.repeated = true) (hdet : own.nondet = false)
    (hans : (s.answers own).any (fun k => k.nondet) = false) {c : Nat} {nohist : Bool} (hc : s.repeatClass own = (c, nohist)) :
    ∃ u, s.colCompare own true = u.colAct c own.interval ∧ s.Settled u own true c nohist ∧ u.dome_ DOM_COL_EVENT_CLASSIFIED = 1 := by
  refine ⟨_, State.colCompare_repeat hrep hdet hans true hc, s.settled_event own true c nohist rfl, State.dome_colEvent_same _ (by decide) (by decide)⟩

/-- A repeat of class c, its class acted on. -/
theorem State.Settled.colAct {s u : State} {own : ColRec} {expired : Bool} {c : Nat} {nohist : Bool} (h : s.Settled u own expired c nohist) (i : Nat) :
    OnlyDomeEvents s (u.colAct c i) ∧ (u.colAct c i).dome_ DOM_COL_STATUS_RESULT = c % 16 ∧
      (u.colAct c i).dome_ DOM_COL_STATUS_NOHIST = (if nohist then 1 else 0) ∧
      (u.colAct c i).dome_ DOM_COL_EVENT_CLASSIFIED = u.dome_ DOM_COL_EVENT_CLASSIFIED := by
  have hacts := State.Acts.colAct u c i
  exact ⟨h.only.trans hacts.only, (hacts.reads _ (by decide)).trans h.result, (hacts.reads _ (by decide)).trans h.nohist, hacts.reads _ (by decide)⟩

/-- The classes 4 to 6 of a repeat act as R364 says. -/
theorem State.Settled.acts {s u : State} {own : ColRec} {expired : Bool} {c : Nat} {nohist : Bool} (h : s.Settled u own expired c nohist) (i : Nat) :
    (Logged s (u.colAct 4 i) 22 127 ∧ (u.colAct 4 i).dome.degPend = s.dome.degPend) ∧
      (s.clocked 8 = true → (u.colAct 5 i).replace = true ∧ (u.colAct 5 i).dome.degPend = s.dome.degPend ++ [(23, 127)]) ∧
      ((u.colAct 6 i).dome_ DOM_FLT_STATUS_SUSPECT = 1 ∧ (u.colAct 6 i).dome.degPend = s.dome.degPend ++ [(23, 127)]) := by
  obtain ⟨⟨hseq, hpend, hlast⟩, hdeg⟩ := u.colAct_transient i
  obtain ⟨hsuspect, hsdeg⟩ := u.colAct_suspect i
  refine ⟨⟨⟨by rw [hseq, h.logSeq], hpend.trans h.logPend, hlast⟩, hdeg.trans h.degPend⟩, fun hclk => ?_, hsuspect, by rw [hsdeg, h.degPend]⟩
  have hu : u.clocked 8 = true := by
    rw [State.clocked, h.reads DOM_CLKEN_EN (by decide)]
    exact hclk
  obtain ⟨hrep, hpdeg⟩ := State.colAct_permanent hu i
  exact ⟨hrep, by rw [hpdeg, h.degPend]⟩

/-- The class of a repeat with a first run (d, n) and the records k and m of two peers, in whatever order their entries stand. -/
theorem State.repeatClass_two {s : State} {own k m : ColRec} {d n : Nat} (hans : s.answers own = [k, m] ∨ s.answers own = [m, k])
    (hfirst : s.dome.col.hist.find? (fun h => h.1 == own.interval) = some (own.interval, d, n)) : s.repeatClass own =
    (if ¬(own.digest = d ∧ own.count = n) then 4 else if colAgrees own k = true ∨ colAgrees own m = true then 3 else
      if colAgrees k m = true then 5 else 6, false) := by
  rw [State.repeatClass, hfirst, Option.map_some]
  rcases hans with hans | hans
  · rw [hans, colClassify_two]
  · rw [hans, colClassify_two, colAgrees_comm m k]
    simp only [or_comm]

theorem State.repeatClass_alone {s : State} {own : ColRec} (hans : s.answers own = [])
    (hfirst : s.dome.col.hist.find? (fun h => h.1 == own.interval) = none) : s.repeatClass own = (3, true) := by
  rw [State.repeatClass, hfirst, hans]
  exact colClassify_alone own

end Sys2Proof.Machine
end

section
namespace Sys2Proof.Machine

/-! ## The closing of an interval (R360, R361, R362) -/

/-- A region's buckets at the closing of an interval: the second becomes the first. -/
def Region.nextBucket (g : Region) : Region := { g with bucket0 := g.bucket1, bucket1 := Bucket.reset, frozen := false }

/-- The digest of the interval that closes. -/
def State.digestSum (s : State) : Nat := ((List.range 112).map (fun r => (s.region r).bucket0.sum)).sum % colPrime

/-- The count of the interval that closes. -/
def State.digestCount (s : State) : Nat := ((List.range 112).map (fun r => (s.region r).bucket0.count)).sum % 2 ^ 64

/-- The own record of interval i as it closes. -/
def State.closingRec (s : State) (i : Nat) : ColRec :=
  ⟨s.dome_ DOM_COL_CTRL_REPEAT == 1, (List.range 112).any (fun r => (s.region r).bucket0.nondet), s.modId, 0, s.dome_ DOM_COL_SET_SET, i, s.digestSum,
    s.digestCount, s.fid⟩

/-- Interval i + 1 opens, and own record own waits for the peers. -/
def Col.openNext (c : Col) (i sum count : Nat) (own : ColRec) : Col :=
  { c with
    interval := some (i + 1), armed := false, count := count, waiting := c.waiting ++ [own]
    hist := if own.repeated then c.hist else ((i, sum, count) :: c.hist.filter (fun h => h.1 != i)).take 16 }

/-- The digest in DIG. -/
def State.showDigest (s : State) (sum : Nat) : State :=
  (List.range 4).foldl (fun t w => t.setDome (DOM_COL_DIG_DIG.nth w) (sum / 2 ^ (32 * w) % 2 ^ 32)) s

/-- A closed interval in the registers of collimation. -/
def State.showClosed (s : State) (i sum count : Nat) : State :=
  (((s.showDigest sum).setDome DOM_COL_CNT_LO_CNT_LO (count % 2 ^ 32)).setDome DOM_COL_INTERVAL_I i).colEvent DOM_COL_EVENT_CLOSED

/-- The own record goes to every valid peer. -/
def State.sendPeers (s : State) (own : ColRec) : State :=
  (List.range 8).foldl (fun t r => if t.peerValid r then t.sendCol none { own with dst := t.dome_ (DOM_COL_PEER_MODID.nth r) } else t) s

/-- The closing of interval i, before any own record is compared. -/
def State.closed (s : State) (i : Nat) : State :=
  (((s.modRegionsFrom 0 112 Region.nextBucket).modDome (fun d => { d with col := d.col.openNext i s.digestSum s.digestCount (s.closingRec i) })).showClosed i
    s.digestSum s.digestCount).sendPeers (s.closingRec i)

theorem State.colClose_eq (s : State) (i : Nat) : s.colClose i = (s.closed i).colTry := by
  have hbuckets : s.modRegionsFrom 0 112 Region.nextBucket = (List.range 112).foldl (fun t r => t.modRegion r Region.nextBucket) s := by
    unfold State.modRegionsFrom
    simp only [Nat.zero_add]
  unfold State.closed
  rw [hbuckets]
  rfl

/-- Words put into DIG leave the dome controller's other registers, and all else. -/
theorem State.foldl_setDig (v : Nat → Nat) (l : List Nat) (s : State) :
    { l.foldl (fun t w => t.setDome (DOM_COL_DIG_DIG.nth w) (v w)) s with
      dome := { (l.foldl (fun t w => t.setDome (DOM_COL_DIG_DIG.nth w) (v w)) s).dome with regs := s.dome.regs } } = s ∧
    ∀ f : Fld, (∀ j ∈ l, f.off ≠ 0x630 + 4 * j) → (l.foldl (fun t w => t.setDome (DOM_COL_DIG_DIG.nth w) (v w)) s).dome_ f = s.dome_ f := by
  induction l generalizing s with
  | nil => exact ⟨rfl, fun _ _ => rfl⟩
  | cons w l ih =>
    obtain ⟨hframe, hreads⟩ := ih (s.setDome (DOM_COL_DIG_DIG.nth w) (v w))
    rw [List.foldl_cons]
    exact ⟨congrArg (fun x : State => { x with dome := { x.dome with regs := s.dome.regs } }) hframe,
      fun f hf => (hreads f fun j hj => hf j (List.mem_cons_of_mem w hj)).trans (State.dome_setDome_ne s _ _ _ (hf w List.mem_cons_self))⟩

/-- What the display of a digest leaves of a state: the dome controller's registers but DIG, and all else. -/
theorem State.showDigest_frame (s : State) (sum : Nat) : { s.showDigest sum with dome := { (s.showDigest sum).dome with regs := s.dome.regs } } = s ∧
    ∀ f : Fld, (∀ j ∈ List.range 4, f.off ≠ 0x630 + 4 * j) → (s.showDigest sum).dome_ f = s.dome_ f :=
  State.foldl_setDig (fun w => sum / 2 ^ (32 * w) % 2 ^ 32) (List.range 4) s

theorem State.showDigest_reads (s : State) (sum : Nat) : ∀ j ∈ List.range 4,
    (s.showDigest sum).dome_ (DOM_COL_DIG_DIG.nth j) = sum / 2 ^ (32 * j) % 2 ^ 32 := by
  have hlist : List.range 4 = [0, 1, 2, 3] := rfl
  intro j hj
  rw [State.showDigest, hlist]
  rw [hlist] at hj
  simp only [List.mem_cons, List.not_mem_nil, or_false] at hj
  simp only [List.foldl_cons, List.foldl_nil]
  rcases hj with rfl | rfl | rfl | rfl <;> simp (disch := decide) [State.dome_setDome_ne, State.dome_setDome_same] <;> rfl

/-- The registers of a closed interval, and what their update leaves of the state. -/
structure State.Shows (s t : State) (i sum count : Nat) : Prop where
  only : OnlyDomeEvents s t
  dome : { t.dome with regs := s.dome.regs } = s.dome
  digest : ∀ j ∈ List.range 4, t.dome_ (DOM_COL_DIG_DIG.nth j) = sum / 2 ^ (32 * j) % 2 ^ 32
  count : t.dome_ DOM_COL_CNT_LO_CNT_LO = count % 2 ^ 32
  interval : t.dome_ DOM_COL_INTERVAL_I = i % 2 ^ 32
  closed : t.dome_ DOM_COL_EVENT_CLOSED = 1
  pends : Pends t 6
  peers : ∀ f : Fld, 0x660 ≤ f.off → t.dome_ f = s.dome_ f

theorem State.showClosed_spec (s : State) (i sum count : Nat) : s.Shows (s.showClosed i sum count) i sum count := by
  obtain ⟨hframe, hreads⟩ := s.showDigest_frame sum
  have hdigest := s.showDigest_reads sum
  unfold State.showClosed
  generalize s.showDigest sum = u at *
  have hdome := congrArg State.dome hframe
  have hhost := congrArg State.host hframe
  have honly := congrArg (fun x : State => { x with dome := s.dome, host := s.host }) hframe
  have hevents : OnlyDomeEvents s u := ⟨honly, HostEvents.of_host hhost⟩
  have hcount := State.dome_setDome_same u DOM_COL_CNT_LO_CNT_LO (count % 2 ^ 32) (by decide)
  have hinterval := State.dome_setDome_same (u.setDome DOM_COL_CNT_LO_CNT_LO (count % 2 ^ 32)) DOM_COL_INTERVAL_I i (by decide)
  have hset : ∀ f : Fld, f.off ≠ 0x60C → f.off ≠ 0x640 → ((u.setDome DOM_COL_CNT_LO_CNT_LO (count % 2 ^ 32)).setDome DOM_COL_INTERVAL_I i).dome_ f =
      u.dome_ f := fun f hi hc => (State.dome_setDome_ne _ DOM_COL_INTERVAL_I f _ hi).trans (State.dome_setDome_ne u DOM_COL_CNT_LO_CNT_LO f _ hc)
  have hset' := (State.dome_setDome_ne (u.setDome DOM_COL_CNT_LO_CNT_LO (count % 2 ^ 32)) DOM_COL_INTERVAL_I DOM_COL_CNT_LO_CNT_LO i (by decide)).trans hcount
  have hkept : ∀ (v : State) (f : Fld), f.off ≠ 0x608 → (v.colEvent DOM_COL_EVENT_CLOSED).dome_ f = v.dome_ f :=
    fun v f hf => State.dome_colEvent_apart v (.inl hf)
  refine ⟨?_, ?_, fun j hj => ?_, ?_, (hkept _ _ (by decide)).trans hinterval, State.dome_colEvent_same _ (by decide) (by decide),
    pends_hifEvent _ (by decide), fun f hf => ?_⟩
  · exact ((hevents.trans (OnlyDomeEvents.setDome u _ _)).trans (OnlyDomeEvents.setDome _ _ _)).trans (OnlyDomeEvents.colEvent _ _)
  · rw [State.colEvent_dome]
    exact hdome
  · have hj4 := List.mem_range.1 hj
    have hoff : (DOM_COL_DIG_DIG.nth j).off = 0x630 + 4 * j := rfl
    exact (hkept _ _ (by omega)).trans ((hset _ (by omega) (by omega)).trans (hdigest j hj))
  · exact (hkept _ _ (by decide)).trans (hset'.trans (Nat.mod_mod _ _))
  · refine (hkept _ _ (by omega)).trans ((hset _ (by omega) (by omega)).trans (hreads f fun j hj => ?_))
    have := List.mem_range.1 hj
    omega

/-- t differs from s in the finder ports and in the records that arrived alone. -/
def State.Sends (s t : State) : Prop :=
  { t with ports := s.ports, dome := { t.dome with col := { t.dome.col with inbox := s.dome.col.inbox } } } = s

theorem State.Sends.trans {s t u : State} (h : s.Sends t) (k : t.Sends u) : s.Sends u := by
  unfold State.Sends at h k ⊢
  have := congrArg (fun x : State => { x with ports := s.ports, dome := { x.dome with col := { x.dome.col with inbox := s.dome.col.inbox } } }) k
  exact this.trans h

theorem State.Sends.sendCol (s : State) (p : Option Nat) (k : ColRec) : s.Sends (s.sendCol p k) := by
  unfold State.sendCol
  split
  · rfl
  · split <;> rfl

theorem State.Sends.sendPeers (s : State) (own : ColRec) : s.Sends (s.sendPeers own) := by
  unfold State.sendPeers
  generalize List.range 8 = l
  induction l generalizing s with
  | nil => rfl
  | cons r l ih =>
    rw [List.foldl_cons]
    split
    · exact (State.Sends.sendCol s _ _).trans (ih _)
    · exact ih s

/-- The own records wait, none ready, while a valid peer has no record held. -/
theorem State.colTry_waits {s : State} {own : ColRec} (hwait : s.dome.col.waiting = [own]) {r : Nat} (hr : r < 8) (hvalid : s.peerValid r = true)
    (hheld : SMap.get (fun _ => []) s.dome.col.held r = []) : s.colTry = s := by
  have hready : s.colReady own = false := by
    refine List.all_eq_false.2 ⟨r, List.mem_range.2 hr, ?_⟩
    simp [hvalid, State.peerRec_valid hvalid, hheld]
  rw [State.colTry_one hwait, hready]
  rfl

/-- Interval i, of the digest and count given, closed in t, with the own record on its way to the peers. -/
structure State.Closes (s t : State) (i sum count : Nat) (own : ColRec) : Prop where
  regions : ∀ r, r < 112 → t.region r = (s.region r).nextBucket
  clusters : t.clusters = s.clusters
  events : HostEvents s t
  dome : { t.dome with regs := s.dome.regs, col := s.dome.col } = s.dome
  col : { t.dome.col with inbox := s.dome.col.inbox } = s.dome.col.openNext i sum count own
  digest : ∀ j ∈ List.range 4, t.dome_ (DOM_COL_DIG_DIG.nth j) = sum / 2 ^ (32 * j) % 2 ^ 32
  count : t.dome_ DOM_COL_CNT_LO_CNT_LO = count % 2 ^ 32
  interval : t.dome_ DOM_COL_INTERVAL_I = i % 2 ^ 32
  closed : t.dome_ DOM_COL_EVENT_CLOSED = 1
  pends : Pends t 6
  peers : ∀ r, t.peerValid r = s.peerValid r

theorem State.Sends.dome {s t : State} (h : s.Sends t) : t.regions = s.regions ∧ t.clusters = s.clusters ∧ t.host = s.host ∧ t.dome.regs = s.dome.regs ∧
    { t.dome with regs := s.dome.regs, col := s.dome.col } = s.dome ∧ { t.dome.col with inbox := s.dome.col.inbox } = s.dome.col := by
  unfold State.Sends at h
  have hregions := congrArg State.regions h
  have hclusters := congrArg State.clusters h
  have hhost := congrArg State.host h
  have hregs := congrArg (fun x : State => x.dome.regs) h
  have hdome := congrArg (fun x : State => { x.dome with regs := s.dome.regs, col := s.dome.col }) h
  have hcol := congrArg (fun x : State => x.dome.col) h
  exact ⟨hregions, hclusters, hhost, hregs, hdome, hcol⟩

theorem State.Shows.units {s t : State} {i sum count : Nat} (h : s.Shows t i sum count) : t.regions = s.regions ∧ t.clusters = s.clusters ∧
    { t.dome with regs := s.dome.regs, col := s.dome.col } = s.dome ∧ t.dome.col = s.dome.col := by
  have hregions := congrArg State.regions h.only.1
  have hclusters := congrArg State.clusters h.only.1
  have hdome := congrArg (fun d : Dome => { d with col := s.dome.col }) h.dome
  have hcol := congrArg Dome.col h.dome
  exact ⟨hregions, hclusters, hdome, hcol⟩

/-- The closing of an interval whose buckets stand in a: its registers are shown, and its record sent. -/
theorem State.closes_of_buckets {s a : State} (hbuckets : OnlyRegions s a) (hregions : ∀ r, r < 112 → a.region r = (s.region r).nextBucket)
    (i sum count : Nat) (own : ColRec) :
    s.Closes (((a.modDome (fun d => { d with col := d.col.openNext i sum count own })).showClosed i sum count).sendPeers own) i sum count own := by
  obtain ⟨hdome, hhost⟩ := hbuckets.domeHost
  have hclusters := congrArg State.clusters hbuckets
  have hshows := (a.modDome (fun d => { d with col := d.col.openNext i sum count own })).showClosed_spec i sum count
  generalize (a.modDome (fun d => { d with col := d.col.openNext i sum count own })).showClosed i sum count = b at *
  obtain ⟨hbr, hbc, hbd, hbcol⟩ := hshows.units
  obtain ⟨htr, htc, hth, htregs, htd, htcol⟩ := (State.Sends.sendPeers b own).dome
  generalize b.sendPeers own = t at *
  have hread : ∀ f : Fld, t.dome_ f = b.dome_ f := fun f => congrArg (fun m => Regs.rd domeTable m f) htregs
  have hregs : t.regions = a.regions := htr.trans hbr
  refine ⟨fun r hr => ?_, htc.trans (hbc.trans hclusters), ?_, ?_, ?_, fun j hj => (hread _).trans (hshows.digest j hj), (hread _).trans hshows.count,
    (hread _).trans hshows.interval, (hread _).trans hshows.closed, ?_, fun r => ?_⟩
  · rw [← hregions r hr]
    unfold State.region
    rw [hregs]
  · exact ((HostEvents.of_host (s := s) (t := a) hhost).trans hshows.only.2).trans (HostEvents.of_host hth)
  · rw [← hdome]
    have := congrArg (fun d : Dome => { d with regs := a.dome.regs, col := a.dome.col }) htd
    have hbd' := congrArg (fun d : Dome => { d with col := a.dome.col }) hbd
    exact this.trans hbd'
  · rw [← hdome]
    have := congrArg (fun c : Col => { c with inbox := a.dome.col.inbox }) htcol
    exact this.trans (congrArg (fun c : Col => { c with inbox := a.dome.col.inbox }) hbcol)
  · have := hshows.pends
    unfold Pends State.hif at this ⊢
    rw [hth]
    exact this
  · unfold State.peerValid
    rw [hread, hshows.peers _ (by simp only [Fld.nth]; omega)]
    unfold State.modDome State.dome_
    rw [hdome]

theorem State.closed_spec (s : State) (i : Nat) : s.Closes (s.closed i) i s.digestSum s.digestCount (s.closingRec i) := by
  have hregions : ∀ r, r < 112 → (s.modRegionsFrom 0 112 Region.nextBucket).region r = (s.region r).nextBucket := fun r hr =>
    (s.region_modRegionsFrom 0 112 Region.nextBucket r).trans (if_pos (by omega))
  exact State.closes_of_buckets (s.modRegionsFrom_only 0 112 Region.nextBucket) hregions i _ _ _

theorem exec_colIntervalClose {s : State} {i : Nat} (hi : s.dome.col.interval = some i) (harmed : s.dome.col.armed = true)
    (hfrozen : (List.range 112).all (fun r => (s.region r).frozen) = true) : exec (.colIntervalClose) s = .next (s.closed i).colTry := by
  have hexec : exec (.colIntervalClose) s = execColIntervalClose s := rfl
  rw [hexec, execColIntervalClose, hi]
  dsimp only
  rw [if_pos ⟨harmed, hfrozen⟩, State.colClose_eq]

end Sys2Proof.Machine
end

section
namespace Sys2Proof.Machine

/-! ## Collimation's registers that act (R360, R369) -/

theorem exec_domColCtrlWrite_open {s : State} (v : W32) (h : s.colOpen = true) :
    exec (.domColCtrlWrite v) s = .next (s.colEvent DOM_COL_EVENT_CFG_ERR) := by
  have hexec : exec (.domColCtrlWrite v) s = execDomColCtrlWrite v s := rfl
  rw [hexec, execDomColCtrlWrite, if_pos h]

/-- DOM_COL_CTRL's EN and REPEAT as a write that is taken leaves them, the current interval undefined. -/
def State.setColCtrl (s : State) (v : W32) : State :=
  ((s.setDome DOM_COL_CTRL_EN (DOM_COL_CTRL_EN.of v)).setDome DOM_COL_CTRL_REPEAT (DOM_COL_CTRL_REPEAT.of v)).modDome
    (fun d => { d with col := { d.col with interval := none } })

theorem exec_domColCtrlWrite_shut {s : State} (v : W32) (h : s.colOpen = false) : exec (.domColCtrlWrite v) s =
    .next (if 1 ≤ DOM_COL_CTRL_N.of v ∧ DOM_COL_CTRL_N.of v ≤ 256 then (s.setColCtrl v).setDome DOM_COL_CTRL_N (DOM_COL_CTRL_N.of v)
      else (s.setColCtrl v).colEvent DOM_COL_EVENT_CFG_ERR) := by
  have hexec : exec (.domColCtrlWrite v) s = execDomColCtrlWrite v s := rfl
  rw [hexec, execDomColCtrlWrite, if_neg (by rw [h]; decide)]
  rfl

theorem State.setColCtrl_spec (s : State) (v : W32) : (s.setColCtrl v).dome_ DOM_COL_CTRL_EN = DOM_COL_CTRL_EN.of v ∧
    (s.setColCtrl v).dome_ DOM_COL_CTRL_REPEAT = DOM_COL_CTRL_REPEAT.of v ∧ (s.setColCtrl v).dome_ DOM_COL_CTRL_N = s.dome_ DOM_COL_CTRL_N ∧
    OnlyDomeEvents s (s.setColCtrl v) ∧
    DomeRecords { s.dome with col := { s.dome.col with interval := none } } (s.setColCtrl v).dome [DOM_COL_CTRL_EN.off, DOM_COL_EVENT_CFG_ERR.off] := by
  have hen := State.dome_setDome_of s DOM_COL_CTRL_EN v (by decide)
  have hrep := State.dome_setDome_of (s.setDome DOM_COL_CTRL_EN (DOM_COL_CTRL_EN.of v)) DOM_COL_CTRL_REPEAT v (by decide)
  have hkept : ∀ f : Fld, Fld.Apart DOM_COL_CTRL_REPEAT f → (s.setColCtrl v).dome_ f = (s.setDome DOM_COL_CTRL_EN (DOM_COL_CTRL_EN.of v)).dome_ f :=
    fun f hf => State.dome_setDome_apart _ DOM_COL_CTRL_REPEAT f _ hf
  have honly := (OnlyDomeEvents.setDome s DOM_COL_CTRL_EN (DOM_COL_CTRL_EN.of v)).trans (OnlyDomeEvents.setDome _ DOM_COL_CTRL_REPEAT (DOM_COL_CTRL_REPEAT.of v))
  have hrecords := (DomeRecords.setDome s (f := DOM_COL_CTRL_EN) (offs := [DOM_COL_CTRL_EN.off, DOM_COL_EVENT_CFG_ERR.off]) (DOM_COL_CTRL_EN.of v)
    (by decide)).trans (DomeRecords.setDome _ (f := DOM_COL_CTRL_REPEAT) (DOM_COL_CTRL_REPEAT.of v) (by decide))
  exact ⟨(hkept _ (by decide)).trans hen, hrep, (hkept _ (by decide)).trans (State.dome_setDome_apart s DOM_COL_CTRL_EN DOM_COL_CTRL_N _ (by decide)),
    honly.trans (OnlyDomeEvents.modDome _ _), rfl, hrecords.2⟩

/-- The fields of DOM_COL_CTRL in a word. -/
theorem domColCtrl_of (v : W32) : DOM_COL_CTRL_EN.of v = v.toNat % 2 ∧ DOM_COL_CTRL_REPEAT.of v = v.toNat / 2 % 2 ∧
    DOM_COL_CTRL_N.of v = v.toNat / 16 % 512 := by
  simp [Fld.of, Nat.shiftRight_eq_div_pow]

theorem domColCtrlWrite_shut {s : State} (v : W32) (h : s.colOpen = false) : ∃ t, exec (.domColCtrlWrite v) s = .next t ∧
    t.dome_ DOM_COL_CTRL_EN = DOM_COL_CTRL_EN.of v ∧ t.dome_ DOM_COL_CTRL_REPEAT = DOM_COL_CTRL_REPEAT.of v ∧
    (t.dome_ DOM_COL_CTRL_N = if 1 ≤ DOM_COL_CTRL_N.of v ∧ DOM_COL_CTRL_N.of v ≤ 256 then DOM_COL_CTRL_N.of v else s.dome_ DOM_COL_CTRL_N) ∧
    (¬(1 ≤ DOM_COL_CTRL_N.of v ∧ DOM_COL_CTRL_N.of v ≤ 256) → t.dome_ DOM_COL_EVENT_CFG_ERR = 1 ∧ Pends t 6) ∧ OnlyDomeEvents s t ∧
    DomeRecords { s.dome with col := { s.dome.col with interval := none } } t.dome [DOM_COL_CTRL_EN.off, DOM_COL_EVENT_CFG_ERR.off] := by
  obtain ⟨hen, hrep, hn, honly, hrecords⟩ := s.setColCtrl_spec v
  refine ⟨_, exec_domColCtrlWrite_shut v h, ?_⟩
  generalize s.setColCtrl v = u at *
  by_cases hr : 1 ≤ DOM_COL_CTRL_N.of v ∧ DOM_COL_CTRL_N.of v ≤ 256
  · have hkept : ∀ f : Fld, Fld.Apart DOM_COL_CTRL_N f → (u.setDome DOM_COL_CTRL_N (DOM_COL_CTRL_N.of v)).dome_ f = u.dome_ f :=
      fun f hf => State.dome_setDome_apart u DOM_COL_CTRL_N f _ hf
    rw [if_pos hr, if_pos hr]
    exact ⟨(hkept _ (by decide)).trans hen, (hkept _ (by decide)).trans hrep, State.dome_setDome_of u DOM_COL_CTRL_N v (by decide), fun hno => absurd hr hno,
      honly.trans (OnlyDomeEvents.setDome u _ _), hrecords.trans (DomeRecords.setDome u _ (by decide))⟩
  · have hkept : ∀ f : Fld, Fld.Apart DOM_COL_EVENT_CFG_ERR f → (u.colEvent DOM_COL_EVENT_CFG_ERR).dome_ f = u.dome_ f :=
      fun f hf => State.dome_colEvent_apart u hf
    rw [if_neg hr, if_neg hr]
    exact ⟨(hkept _ (by decide)).trans hen, (hkept _ (by decide)).trans hrep, (hkept _ (by decide)).trans hn,
      fun _ => ⟨State.dome_colEvent_same u (by decide) (by decide), pends_hifEvent _ (by decide)⟩,
      honly.trans (OnlyDomeEvents.colEvent u _), hrecords.trans (DomeRecords.colEvent u (by decide))⟩

theorem domColCntRead_answered {s : State} (hr : s.ready = true) (hp : s.host.posted = []) : ∃ t, exec (.domColCntRead) s = .next t ∧
    t.dome_ DOM_COL_CNT_HI_CNT_HI = s.dome.col.count / 2 ^ 32 % 2 ^ 32 ∧
    t.out = s.out ++ [Output.hostRead false 0x640 (leBytes 4 (s.dome.col.count % 2 ^ 32)) false] ∧
    OnlyDomeRegs { s with out := t.out, host := t.host } t [DOM_COL_CNT_HI_CNT_HI.off] ∧ CountedRead s t := by
  have hread := State.dome_setDome_same s DOM_COL_CNT_HI_CNT_HI (s.dome.col.count / 2 ^ 32) (by decide)
  have hframe := (OnlyDomeRegs.refl s [DOM_COL_CNT_HI_CNT_HI.off]).setDome DOM_COL_CNT_HI_CNT_HI (s.dome.col.count / 2 ^ 32) (by decide)
  have hexec : exec (.domColCntRead) s = .next (s.bar0Read 0x640 State.colCntRead) := rfl
  have hlatch : s.colCntRead = (s.dome.col.count % 2 ^ 32, s.setDome DOM_COL_CNT_HI_CNT_HI (s.dome.col.count / 2 ^ 32)) := rfl
  obtain ⟨o, b, hnext, hout, hcount⟩ := bar0Read_answered hexec hr hlatch ⟨rfl, rfl⟩ hp
  exact ⟨_, hnext, hread, hout, hframe.bridge o b, hcount⟩

end Sys2Proof.Machine
end

section
namespace Sys2Proof.Machine

/-- An interval that closes where every peer is valid and no record is held: no comparison follows. -/
theorem colIntervalClose_waits {s : State} {i : Nat} (hi : s.dome.col.interval = some i) (harmed : s.dome.col.armed = true)
    (hfrozen : (List.range 112).all (fun r => (s.region r).frozen) = true) (hvalid : ∀ r ∈ List.range 8, s.peerValid r = true)
    (hwait : s.dome.col.waiting = []) (hheld : ∀ r ∈ List.range 8, SMap.get (fun _ => []) s.dome.col.held r = []) :
    ∃ t, exec (.colIntervalClose) s = .next t ∧ s.Closes t i s.digestSum s.digestCount (s.closingRec i) := by
  have hcloses := s.closed_spec i
  have hwaiting : (s.closed i).dome.col.waiting = [s.closingRec i] := by
    have := congrArg Col.waiting hcloses.col
    exact this.trans (congrArg (· ++ [s.closingRec i]) hwait)
  have hheld' : (s.closed i).dome.col.held = s.dome.col.held := by
    have := congrArg Col.held hcloses.col
    exact this
  have hzero : 0 ∈ List.range 8 := List.mem_range.2 (by decide)
  have htry := State.colTry_waits hwaiting (r := 0) (by decide) ((hcloses.peers 0).trans (hvalid 0 hzero)) (by rw [hheld']; exact hheld 0 hzero)
  exact ⟨_, exec_colIntervalClose hi harmed hfrozen, by rw [htry]; exact hcloses⟩

/-- A repeat whose wait runs out with a first run and the records of two peers. -/
theorem colWaitTimeout_repeat {s : State} {own : ColRec} {rest : List ColRec} (hwait : s.dome.col.waiting = own :: rest) (hrep : own.repeated = true)
    (hdet : own.nondet = false) (hans : (s.answers own).any (fun k => k.nondet) = false) {c : Nat} {nohist : Bool}
    (hc : s.repeatClass own = (c, nohist)) : ∃ u, exec (.colWaitTimeout) s = .next (u.colAct c own.interval) ∧
      s.Settled u own true c nohist ∧ u.dome_ DOM_COL_EVENT_CLASSIFIED = 1 := by
  obtain ⟨u, heq, hsettled, hclassified⟩ := State.colCompare_class hrep hdet hans hc
  exact ⟨u, (exec_colWaitTimeout hwait).trans (congrArg Host.Outcome.next heq), hsettled, hclassified⟩

theorem State.answers_two {s : State} {own k m : ColRec} {r q : Fin 8} (hrq : r ≠ q) (hk : s.peerRec r.val own = some k)
    (hm : s.peerRec q.val own = some m) (hnone : ∀ j ∈ List.range 8, j ≠ r.val → j ≠ q.val → s.peerRec j own = none) :
    s.answers own = [k, m] ∨ s.answers own = [m, k] :=
  filterMap_perm_pair _ List.nodup_range (List.mem_range.2 r.isLt) (List.mem_range.2 q.isLt) (fun h => hrq (Fin.ext h)) hk hm hnone

/-- Settles O46: a closing by `State.Closes`, a record that arrives by `State.Holds`, a comparison by `State.Settled` and `State.FirstRun`, and what the
class of a repeat does by `State.Settled.acts`. -/
theorem collimationCompares : Obligations.CollimationCompares := by
  unfold Obligations.CollimationCompares
  refine ⟨?_, ?_, ?_, ?_, ?_, ?_, ?_, ?_, ?_, ?_⟩
  · intro s i hi harmed hfrozen hrep hvalid hwait hheld
    obtain ⟨t, hexec, h⟩ := colIntervalClose_waits hi harmed hfrozen hvalid hwait hheld
    have hinterval := congrArg Col.interval h.col
    have hopened := congrArg Col.armed h.col
    have hhist := congrArg Col.hist h.col
    have hwaiting := congrArg Col.waiting h.col
    have hctr := congrArg Dome.ctr h.dome
    have hseq := congrArg Dome.logSeq h.dome
    have hdeg := congrArg Dome.degPend h.dome
    have hfirst : (s.closingRec i).repeated = false := beq_eq_false_iff_ne.2 (by rw [hrep]; decide)
    refine ⟨t, hexec, h.digest, h.count.trans (Nat.mod_mod_of_dvd _ (by decide)), h.interval, h.closed, hinterval, hopened,
      hhist.trans (if_neg (by rw [hfirst]; decide)), ?_, h.pends, h.regions, h.clusters, hctr, hseq, hdeg, h.events⟩
    exact (congrArg List.length hwaiting).trans (by rw [Col.openNext, hwait]; rfl)
  · intro s k rest r hin hset hvalid hmod hwait
    obtain ⟨t, hexec, hholds, hrec⟩ := colRecordReceive_held r.isLt hin hset ⟨hvalid, hmod⟩ hwait
    obtain ⟨honly, -, -, hinbox⟩ := hholds.only
    obtain ⟨hrecords, hseq, hdeg⟩ := hholds.records
    exact ⟨t, hexec, hinbox, hrec.held, hrec.overflow, (OnlyDomeEvents.modDome s _).trans honly, hrecords, hseq, hdeg⟩
  · intro s k rest hin hset
    exact ⟨_, (exec_colRecordReceive hin).trans (congrArg Host.Outcome.next (if_neg hset)), rfl⟩
  · intro s k own rest r hin hset hvalid hmod hheld hwait hrep hkrep hdet hkdet hinterval
    obtain ⟨u, t, hexec, hholds, hone, h⟩ :=
      colRecordReceive_compared r.isLt hin hset hvalid hmod hheld hwait hrep hkrep hdet hkdet hinterval
    obtain ⟨honly, hdome, hwaiting, -⟩ := hholds.only
    have hctr := congrArg Dome.ctr hdome
    obtain ⟨-, -, hdeg⟩ := hholds.records
    have hagrees : colAgrees own k = true ↔ k.digest = own.digest ∧ k.count = own.count := by rw [colAgrees_comm, colAgrees_iff]
    have hresult := h.result
    have hagree := h.marked.agree
    rw [Option.any_some] at hagree
    simp only [hagrees] at hresult hagree
    refine ⟨t, hexec, hresult, h.timeout, h.nohist, h.marked.rcvd, hagree, ?_, ?_, fun hne => h.mismatch ?_, ?_, h.degPend.trans hdeg, h.ctr.trans hctr,
      ((OnlyDomeEvents.modDome s _).trans honly).trans h.only⟩
    · rw [h.waiting, hwaiting]
      exact (congrArg (List.erase · own) hwait).trans (List.erase_cons_head _ _)
    · rw [h.marked.held, hone]
      exact List.erase_cons_head _ _
    · exact Bool.eq_false_iff.2 fun htrue => hne (hagrees.1 htrue)
    · exact h.suspect.trans (hholds.dome_ (by decide))
  · intro s own rest hwait hrep hdet hnone
    obtain ⟨h, hevent, hpends⟩ := State.colCompare_unanswered hrep hdet hnone
    refine ⟨_, exec_colWaitTimeout hwait, h.result, h.timeout, hevent, fun r hr => ?_, ?_, h.logSeq, hpends, h.only⟩
    · rw [(h.marked r (List.mem_range.1 hr)).rcvd, hnone r hr]
      rfl
    · rw [h.waiting, hwait, List.erase_cons_head]
  · intro s own k m rest r q d n hwait hrep hdet hrq hk hm hnone hkdet hmdet hhist hclk
    have hans := State.answers_two hrq hk hm hnone
    have hclass := State.repeatClass_two hans hhist
    have hdets : (s.answers own).any (fun k => k.nondet) = false := by rcases hans with h | h <;> simp [h, hkdet, hmdet]
    obtain ⟨u, hexec, hsettled, hclassified⟩ := colWaitTimeout_repeat hwait hrep hdet hdets hclass
    obtain ⟨honly, hresult, hnohist, hevent⟩ := hsettled.colAct own.interval
    obtain ⟨htransient, hpermanent, hsuspect⟩ := hsettled.acts own.interval
    refine ⟨_, hexec, hresult.trans ?_, hnohist, hevent.trans hclassified, fun hd hn hok hom hkm => ?_, fun hd hn hok hom hkm => ?_, fun hne => ?_, honly⟩
    · split_ifs <;> rfl
    · rw [if_neg (not_not.2 ⟨hd, hn⟩), if_neg (by simp [hok, hom]), if_pos hkm]
      exact hpermanent hclk
    · rw [if_neg (not_not.2 ⟨hd, hn⟩), if_neg (by simp [hok, hom]), if_neg (by simp [hkm])]
      exact hsuspect
    · rw [if_pos hne]
      exact htransient
  · intro s own rest hwait hrep hdet hnone hhist
    have hans := State.answers_none hnone
    obtain ⟨u, hexec, hsettled, hclassified⟩ := colWaitTimeout_repeat hwait hrep hdet (by rw [hans]; rfl) (State.repeatClass_alone hans hhist)
    obtain ⟨honly, hresult, hnohist, hevent⟩ := hsettled.colAct own.interval
    exact ⟨_, hexec, hresult, hnohist, hevent.trans hclassified, honly⟩
  · intro s v hshut
    obtain ⟨hen, hrep, hn⟩ := domColCtrl_of v
    have h := domColCtrlWrite_shut v hshut
    rwa [hen, hrep, hn] at h
  · intro s v hopen
    exact ⟨_, exec_domColCtrlWrite_open v hopen, State.dome_colEvent_same s (by decide) (by decide), pends_hifEvent _ (by decide),
      OnlyDomeEvents.colEvent s _, DomeRecords.colEvent s (by decide)⟩
  · intro s hready hposted
    exact domColCntRead_answered hready hposted

end Sys2Proof.Machine
end
